-- ==== Sys2Proof/Word.lean ====
section
/-! DEFINITION. The words of the device and the sorted maps its state is built from. -/

namespace Sys2Proof

/-- A register or a memory word of 64 bits (R10). -/
abbrev Word := BitVec 64

/-- A byte. -/
abbrev Byte := BitVec 8

/-- A finite map from numbers: pairs in strictly rising order of their keys. -/
abbrev AMap (α : Type) := List (Nat × α)

/-- The entry at key k. -/
def AMap.find {α : Type} : AMap α → Nat → Option α
  | [], _ => none
  | (k, v) :: m, i => if i = k then some v else AMap.find m i

/-- The entry at key k, or d where there is none. -/
def AMap.look {α : Type} (d : α) (m : AMap α) (i : Nat) : α := (AMap.find m i).getD d

/-- Writes an entry, keeping the keys in rising order. -/
def AMap.put {α : Type} : AMap α → Nat → α → AMap α
  | [], i, x => [(i, x)]
  | (k, v) :: m, i, x =>
    if i < k then (i, x) :: (k, v) :: m
    else if i = k then (i, x) :: m
    else (k, v) :: AMap.put m i x

/-- Removes the entry at a key. -/
def AMap.drop {α : Type} : AMap α → Nat → AMap α
  | [], _ => []
  | (k, v) :: m, i => if i = k then AMap.drop m i else (k, v) :: AMap.drop m i

/-- Writes an entry of a map that reads as d where nothing is listed: writing d removes the entry. -/
def AMap.save {α : Type} [DecidableEq α] (d : α) (m : AMap α) (i : Nat) (x : α) : AMap α :=
  if x = d then AMap.drop m i else AMap.put m i x

/-- Keys strictly rising. -/
def AMap.sorted {α : Type} : AMap α → Bool
  | [] => true
  | [_] => true
  | (k, _) :: (k', v') :: m => decide (k < k') && AMap.sorted ((k', v') :: m)

end Sys2Proof
end

