-- ==== Sys2Proof/Machine/Regs.lean ====
section
/-! DEFINITION. Every register of the device (Tables 22.1 and 22.2, R534) as an identifier, every field of it with its
bits, access code and reset value (the tables named beside each register), and where it lies in the device control
space or in a function's BAR0. -/

namespace Sys2Proof
namespace Machine

/-- Access codes of Table 0.9. -/
inductive Acc where
  | ro | rw | w1c | w1s | rc | wo | rwl
  deriving DecidableEq, Repr

/-- The registers of Tables 22.1 and 22.2, one constructor each; an indexed family is one constructor. -/
inductive Reg where
  | idCapUnits -- ID.CAP_UNITS, Table 0.2
  | idCapSizes -- ID.CAP_SIZES, Table 0.3
  | idNodeId -- ID.NODE_ID, Table 2.3
  | rstState -- RST.STATE, Table 18.13
  | rstCmd -- RST.CMD, Table 18.13
  | rstCmdStatus -- RST.CMD_STATUS, Table 18.13
  | rstCfg -- RST.CFG, Table 18.13
  | clkpwrClkStatus -- CLKPWR.CLK_STATUS, Table 1.7
  | clkpwrDomState -- CLKPWR.DOM_STATE, Table 1.10
  | clkpwrDomReq -- CLKPWR.DOM_REQ, Table 20.6
  | clkpwrDomReqStatus -- CLKPWR.DOM_REQ_STATUS, Table 20.6
  | clkpwrGovCfg -- CLKPWR.GOV_CFG, Table 20.6
  | clkpwrGovStatus -- CLKPWR.GOV_STATUS, Table 20.6
  | clkpwrGovCnt -- CLKPWR.GOV_CNT, Table 20.6
  | clkpwrTempSel -- CLKPWR.TEMP_SEL, Table 20.6
  | clkpwrTemp -- CLKPWR.TEMP, Table 20.6
  | clkpwrFtS -- CLKPWR.FT_S, Table 1.15
  | clkpwrFtNs -- CLKPWR.FT_NS, Table 1.15
  | clkpwrFtStep -- CLKPWR.FT_STEP, Table 1.15
  | clkpwrFtRate -- CLKPWR.FT_RATE, Table 1.15
  | clkpwrFtCfg -- CLKPWR.FT_CFG, Table 1.15
  | clkpwrFtStatus -- CLKPWR.FT_STATUS, Table 1.15
  | imgStatus -- IMG.STATUS, Table 18.14
  | imgInfo -- IMG.INFO, Table 18.14
  | imgUcal -- IMG.UCAL, Table 18.14
  | imgCmd -- IMG.CMD, Table 18.14
  | imgCmdStatus -- IMG.CMD_STATUS, Table 18.14
  | imgFwStatus -- IMG.FW_STATUS, Table 19.9
  | imgSvn -- IMG.SVN, Table 19.9
  | imgStageSrc -- IMG.STAGE_SRC, Table 19.9
  | imgStageArg -- IMG.STAGE_ARG, Table 19.9
  | imgActS -- IMG.ACT_S, Table 19.9
  | imgActNs -- IMG.ACT_NS, Table 19.9
  | imgFwCmd -- IMG.FW_CMD, Table 19.9
  | imgFwCmdStatus -- IMG.FW_CMD_STATUS, Table 19.9
  | imgFwCfg -- IMG.FW_CFG, Table 19.9
  | secStatus -- SEC.STATUS, Table 22.3
  | hpPortCfg -- HP.PORT_CFG, Table 4.5
  | hpLinkStatus -- HP.LINK_STATUS, Table 4.6
  | hpCrash -- HP.CRASH, Table 4.7
  | hpFnSel -- HP.FN_SEL, Table 4.8
  | hpFnInfo -- HP.FN_INFO, Table 4.9
  | fnMode -- FN.MODE, Table 16.9
  | fnArg0 -- FN.ARG0, Table 16.9
  | fnArg1 -- FN.ARG1, Table 16.9
  | fnCmd -- FN.CMD, Table 16.9
  | fnStatus -- FN.STATUS, Table 16.9
  | fnSel -- FN.SEL, Table 16.9
  | fnUse -- FN.USE, Table 16.9
  | fnEq -- FN.EQ, Table 16.9
  | fnBase -- FN.BASE, Table 16.9
  | fnPool -- FN.POOL, Table 16.9
  | fnRateTotal -- FN.RATE_TOTAL, Table 16.9
  | fnKskDb -- FN.KSK_DB, Table 16.9
  | fnKskCtrl -- FN.KSK_CTRL, Table 16.9
  | fnKskBase -- FN.KSK_BASE, Table 16.9
  | fnKskPos -- FN.KSK_POS, Table 16.9
  | fnDlCtrl -- FN.DL_CTRL, Table 16.9
  | fnDlHa -- FN.DL_HA, Table 16.9
  | fnDlBase0 -- FN.DL_BASE0, Table 16.9
  | fnDlBase1 -- FN.DL_BASE1, Table 16.9
  | fnDlCnt -- FN.DL_CNT, Table 16.9
  | xlSel -- XL.SEL, Table 3.6
  | xlCtxRoot -- XL.CTX_ROOT, Table 3.7
  | xlCtxCtrl -- XL.CTX_CTRL, Table 3.8
  | xlInvalAddr -- XL.INVAL_ADDR, Table 3.9
  | xlInval -- XL.INVAL, Table 3.10
  | xlInvalStatus -- XL.INVAL_STATUS, Table 3.11
  | qInval -- Q.INVAL, Table 5.8
  | qInvalStatus -- Q.INVAL_STATUS, Table 5.9
  | tpCfg -- TP.CFG, Table 7.15
  | tpQpcCache -- TP.QPC_CACHE, Table 7.15
  | tpRcStatus -- TP.RC_STATUS, Table 7.15
  | tpPipeCnt -- TP.PIPE_CNT, Table 7.15
  | tpPipeRx -- TP.PIPE_RX, Table 7.15
  | tpPipeTx -- TP.PIPE_TX, Table 7.15
  | tpPipeRetx -- TP.PIPE_RETX, Table 7.15
  | ccCfg -- CC.CFG, Table 8.5
  | ccMark -- CC.MARK, Table 8.5
  | ccTxsched -- CC.TXSCHED, Table 8.5
  | ccTxweight -- CC.TXWEIGHT, Table 8.5
  | ccDscpColour0 -- CC.DSCP_COLOUR0, Table 8.5
  | ccDscpColour1 -- CC.DSCP_COLOUR1, Table 8.5
  | ccClassColour -- CC.CLASS_COLOUR, Table 8.5
  | ccShpSel -- CC.SHP_SEL, Table 8.5
  | ccShpCfg -- CC.SHP_CFG, Table 8.5
  | ccShpState -- CC.SHP_STATE, Table 8.5
  | ccShpCmd -- CC.SHP_CMD, Table 8.5
  | ccMtrSel -- CC.MTR_SEL, Table 8.5
  | ccMtrRate -- CC.MTR_RATE, Table 8.5
  | ccMtrBurst -- CC.MTR_BURST, Table 8.5
  | ccMtrCtrl -- CC.MTR_CTRL, Table 8.5
  | ccMtrGreen -- CC.MTR_GREEN, Table 8.5
  | ccMtrYellow -- CC.MTR_YELLOW, Table 8.5
  | ccMtrRed -- CC.MTR_RED, Table 8.5
  | ccProfRate -- CC.PROF_RATE, Table 8.6
  | ccProfTime -- CC.PROF_TIME, Table 8.6
  | ccProfCtrl -- CC.PROF_CTRL, Table 8.6
  | ccProfRtt -- CC.PROF_RTT, Table 8.6
  | ccTxqSample -- CC.TXQ_SAMPLE, Table 8.5
  | ccTxqMax -- CC.TXQ_MAX, Table 8.5
  | vlCfg -- VL.CFG, Table 9.14
  | vlRouteSel -- VL.ROUTE_SEL, Table 9.14
  | vlRouteEntry -- VL.ROUTE_ENTRY, Table 9.14
  | vlLive -- VL.LIVE, Table 9.14
  | vlDropCnt -- VL.DROP_CNT, Table 9.14
  | vlE2eCnt -- VL.E2E_CNT, Table 9.14
  | vlE2eSel -- VL.E2E_SEL, Table 9.14
  | vlE2eState -- VL.E2E_STATE, Table 9.14
  | vlLinkCtrl -- VL.LINK_CTRL, Table 9.14
  | vlLinkStatus -- VL.LINK_STATUS, Table 9.14
  | vlLinkFec -- VL.LINK_FEC, Table 9.14
  | vlLinkRetry -- VL.LINK_RETRY, Table 9.14
  | vlLinkQueue -- VL.LINK_QUEUE, Table 9.14
  | enCfg -- EN.CFG, Table 10.9
  | enExcBase -- EN.EXC_BASE, Table 10.9
  | enExcCtrl -- EN.EXC_CTRL, Table 10.9
  | enExcTail -- EN.EXC_TAIL, Table 10.9
  | enExcHead -- EN.EXC_HEAD, Table 10.9
  | enExcDrop -- EN.EXC_DROP, Table 10.9
  | enExtBase -- EN.EXT_BASE, Table 10.9
  | enExtCtrl -- EN.EXT_CTRL, Table 10.9
  | enExtTail -- EN.EXT_TAIL, Table 10.9
  | enExtHead -- EN.EXT_HEAD, Table 10.9
  | enPortCfg -- EN.PORT_CFG, Table 10.9
  | enPortStatus -- EN.PORT_STATUS, Table 10.9
  | enMacAddr -- EN.MAC_ADDR, Table 10.9
  | enPrioMap -- EN.PRIO_MAP, Table 10.9
  | enDscpMap -- EN.DSCP_MAP, Table 10.9
  | enTxThresh -- EN.TX_THRESH, Table 10.9
  | enLpi -- EN.LPI, Table 10.9
  | enTxqOcc -- EN.TXQ_OCC, Table 10.9
  | enGateCtrl -- EN.GATE_CTRL, Table 10.9
  | enGateBaseS -- EN.GATE_BASE_S, Table 10.9
  | enGateBaseNs -- EN.GATE_BASE_NS, Table 10.9
  | enGateCycle -- EN.GATE_CYCLE, Table 10.9
  | enGclSel -- EN.GCL_SEL, Table 10.9
  | enGclEntry -- EN.GCL_ENTRY, Table 10.9
  | enStat -- EN.STAT, Table 10.9
  | blkCfg -- BLK.CFG, Table 11.15
  | blkResCount -- BLK.RES_COUNT, Table 11.15
  | blkResSel -- BLK.RES_SEL, Table 11.15
  | blkResEntry -- BLK.RES_ENTRY, Table 11.15
  | blkResOwner -- BLK.RES_OWNER, Table 11.15
  | blkDistStatus -- BLK.DIST_STATUS, Table 11.15
  | blkStatus -- BLK.STATUS, Table 11.15
  | blkFlags -- BLK.FLAGS, Table 11.15
  | blkFmtSel -- BLK.FMT_SEL, Table 11.15
  | blkFmtData -- BLK.FMT_DATA, Table 11.15
  | blkResUsed -- BLK.RES_USED, Table 11.15
  | blkSeqCtrl -- BLK.SEQ_CTRL, Table 12.7
  | blkSeqPc -- BLK.SEQ_PC, Table 12.7
  | sqCfg -- SQ.CFG, Table 13.12
  | sqUse -- SQ.USE, Table 13.12
  | sqFnSel -- SQ.FN_SEL, Table 13.12
  | sqFnUse -- SQ.FN_USE, Table 13.12
  | sqCnt -- SQ.CNT, Table 13.12
  | sqRecomp -- SQ.RECOMP, Table 13.12
  | hbmPool -- HBM.POOL, Table 14.9
  | hbmStatus -- HBM.STATUS, Table 14.9
  | hbmPcRetired -- HBM.PC_RETIRED, Table 14.9
  | hbmEccCnt -- HBM.ECC_CNT, Table 14.9
  | hbmEccLog -- HBM.ECC_LOG, Table 14.9
  | hbmScrub -- HBM.SCRUB, Table 14.9
  | hbmAtom -- HBM.ATOM, Table 14.9
  | intCfg -- INT.CFG, Table 15.9
  | intCiphCnt -- INT.CIPH_CNT, Table 15.9
  | intIcCtrl -- INT.IC_CTRL, Table 15.9
  | intIcSrc -- INT.IC_SRC, Table 15.9
  | intIcExpLen -- INT.IC_EXP_LEN, Table 15.9
  | intIcExpVal -- INT.IC_EXP_VAL, Table 15.9
  | intIcRunning -- INT.IC_RUNNING, Table 15.9
  | intIcCount -- INT.IC_COUNT, Table 15.9
  | intIcStatus -- INT.IC_STATUS, Table 15.9
  | intIcResult -- INT.IC_RESULT, Table 15.9
  | jnlRecover -- JNL.RECOVER, Table 17.10
  | jnlRstatus -- JNL.RSTATUS, Table 17.10
  | jnlFlog -- JNL.FLOG, Table 17.10
  | jnlFcnt -- JNL.FCNT, Table 17.10
  | jnlSlice -- JNL.SLICE, Table 17.10
  | jnlRecSel -- JNL.REC_SEL, Table 17.10
  | jnlRecData -- JNL.REC_DATA, Table 17.10
  | jnlCnt -- JNL.CNT, Table 17.10
  | telCfg -- TEL.CFG, Table 20.12
  | telFnSel -- TEL.FN_SEL, Table 20.12
  | telBwCfg -- TEL.BW_CFG, Table 20.12
  | telBwRx -- TEL.BW_RX, Table 20.12
  | telBwTx -- TEL.BW_TX, Table 20.12
  | telBwPeak -- TEL.BW_PEAK, Table 20.12
  | bistCtrl -- BIST.CTRL, Table 20.9
  | bistCnt -- BIST.CNT, Table 20.9
  | bistDefer -- BIST.DEFER, Table 20.9
  | bistLog -- BIST.LOG, Table 20.9
  | bistRepair -- BIST.REPAIR, Table 20.9
  | bistCmd -- BIST.CMD, Table 20.9
  | bistCmdStatus -- BIST.CMD_STATUS, Table 20.9
  | mgtI3cStatus -- MGT.I3C_STATUS, Table 20.14
  | mgtUartCfg -- MGT.UART_CFG, Table 20.14
  | mgtUartStatus -- MGT.UART_STATUS, Table 20.14
  | mgtUartTx -- MGT.UART_TX, Table 20.14
  | mgtUartRx -- MGT.UART_RX, Table 20.14
  | aptCtrl -- APT.CTRL, Table 2.9
  | aptIndex -- APT.INDEX, Table 2.10
  | aptEntryHi -- APT.ENTRY_HI, Table 2.11
  | aptEntryLo -- APT.ENTRY_LO, Table 2.12
  | aptStatus -- APT.STATUS, Table 2.13
  | aptErrLog -- APT.ERR_LOG, Table 2.14
  | aptErrCount -- APT.ERR_COUNT, Table 2.15
  | aptFence -- APT.FENCE, Table 2.16
  | xlfFbBase -- XLF.FB_BASE, Table 3.17
  | xlfFbCtrl -- XLF.FB_CTRL, Table 3.18
  | xlfFbTail -- XLF.FB_TAIL, Table 3.19
  | xlfFbHead -- XLF.FB_HEAD, Table 3.20
  | xlfFbStatus -- XLF.FB_STATUS, Table 3.21
  | xlfReplay -- XLF.REPLAY, Table 3.22
  | xlfAcCtrl -- XLF.AC_CTRL, Table 3.23
  | xlfAcTable -- XLF.AC_TABLE, Table 3.24
  | xlfAcRange -- XLF.AC_RANGE, Table 3.25
  | hpfStatus -- HPF.STATUS, Table 4.10
  | hpfAttachToken -- HPF.ATTACH_TOKEN, Table 4.10
  | hpfAttach -- HPF.ATTACH, Table 4.10
  | hpfWdog -- HPF.WDOG, Table 4.10
  | qfSel -- QF.SEL, Table 5.10
  | qfBase -- QF.BASE, Table 5.10
  | qfCfg -- QF.CFG, Table 5.10
  | qfPos -- QF.POS, Table 5.10
  | qfStatus -- QF.STATUS, Table 5.10
  | qfSample -- QF.SAMPLE, Table 8.7
  | qfSampleMax -- QF.SAMPLE_MAX, Table 8.7
  | qfSampleSum -- QF.SAMPLE_SUM, Table 8.7
  | wincArg0 -- WINC.ARG0, Table 6.4
  | wincArg1 -- WINC.ARG1, Table 6.4
  | wincArg2 -- WINC.ARG2, Table 6.4
  | wincCmd -- WINC.CMD, Table 6.4
  | wincStatus -- WINC.STATUS, Table 6.4
  | wincCount -- WINC.COUNT, Table 6.4
  | qpcArg0 -- QPC.ARG0, Table 7.5
  | qpcCmd -- QPC.CMD, Table 7.5
  | qpcStatus -- QPC.STATUS, Table 7.5
  | qpcCount -- QPC.COUNT, Table 7.5
  | seqfSel -- SEQF.SEL, Table 12.6
  | seqfCtrl -- SEQF.CTRL, Table 12.6
  | seqfState -- SEQF.STATE, Table 12.6
  | seqfSample -- SEQF.SAMPLE, Table 12.6
  | seqfSampleIter -- SEQF.SAMPLE_ITER, Table 12.6
  | seqfCvtFail -- SEQF.CVT_FAIL, Table 12.6
  | sqfStatus -- SQF.STATUS, Table 13.13
  | sqfCnt -- SQF.CNT, Table 13.13
  | keyfArg0 -- KEYF.ARG0, Table 15.3
  | keyfArg1 -- KEYF.ARG1, Table 15.3
  | keyfCmd -- KEYF.CMD, Table 15.3
  | keyfStatus -- KEYF.STATUS, Table 15.3
  | keyfState -- KEYF.STATE, Table 15.3
  | kskTxData -- KSK.TX_DATA, Table 16.10
  | kskTxPost -- KSK.TX_POST, Table 16.10
  | kskStatus -- KSK.STATUS, Table 16.10
  | kskCtrl -- KSK.CTRL, Table 16.10
  | kskRxData -- KSK.RX_DATA, Table 16.10
  | kskRxPop -- KSK.RX_POP, Table 16.10
  | telfCtrl -- TELF.CTRL, Table 20.11
  | telfCntCfg -- TELF.CNT_CFG, Table 20.11
  | telfCnt -- TELF.CNT, Table 20.11
  | qdbTail -- QDB.TAIL, Table 5.10
  deriving DecidableEq, Repr

/-- One field of a register: its bits, and for a field repeated over the register (n of them, step bits apart) the
bits of element 0; its access code; the reset value of the field (all elements together when n is not 1). -/
structure Fld where
  reg : Reg
  hi : Nat
  lo : Nat
  acc : Acc
  rst : Nat := 0
  n : Nat := 1
  step : Nat := 0
  deriving DecidableEq, Repr

/-- The field's width in bits. -/
def Fld.width (f : Fld) : Nat := f.hi - f.lo + 1

/-- The lowest bit of element e. -/
def Fld.pos (f : Fld) (e : Nat) : Nat := f.lo + e * f.step

/-- The reset value of element e. -/
def Fld.reset (f : Fld) (e : Nat) : Nat := (f.rst >>> (e * f.step)) % 2 ^ f.width

namespace F
/-- ID.CAP_UNITS.TRANSPORT -/
def idCapUnitsTransport : Fld := { reg := .idCapUnits, hi := 27, lo := 27, acc := .ro, rst := 0x1 }
/-- ID.CAP_UNITS.ROUTER -/
def idCapUnitsRouter : Fld := { reg := .idCapUnits, hi := 26, lo := 26, acc := .ro, rst := 0x1 }
/-- ID.CAP_UNITS.SQ_INT -/
def idCapUnitsSqInt : Fld := { reg := .idCapUnits, hi := 25, lo := 25, acc := .ro, rst := 0x1 }
/-- ID.CAP_UNITS.SQ_FP -/
def idCapUnitsSqFp : Fld := { reg := .idCapUnits, hi := 24, lo := 24, acc := .ro }
/-- ID.CAP_UNITS.HOST_PORTS -/
def idCapUnitsHostPorts : Fld := { reg := .idCapUnits, hi := 23, lo := 20, acc := .ro }
/-- ID.CAP_UNITS.LANE_GROUPS -/
def idCapUnitsLaneGroups : Fld := { reg := .idCapUnits, hi := 19, lo := 16, acc := .ro }
/-- ID.CAP_UNITS.HBM_STACKS -/
def idCapUnitsHbmStacks : Fld := { reg := .idCapUnits, hi := 15, lo := 8, acc := .ro }
/-- ID.CAP_UNITS.DISTRICTS -/
def idCapUnitsDistricts : Fld := { reg := .idCapUnits, hi := 7, lo := 0, acc := .ro }
/-- ID.CAP_SIZES.FN_PER_PORT -/
def idCapSizesFnPerPort : Fld := { reg := .idCapSizes, hi := 46, lo := 40, acc := .ro, rst := 0x40 }
/-- ID.CAP_SIZES.TPIPES -/
def idCapSizesTpipes : Fld := { reg := .idCapSizes, hi := 34, lo := 32, acc := .ro, rst := 0x4 }
/-- ID.CAP_SIZES.LANES -/
def idCapSizesLanes : Fld := { reg := .idCapSizes, hi := 29, lo := 24, acc := .ro }
/-- ID.CAP_SIZES.SQ_MIB -/
def idCapSizesSqMib : Fld := { reg := .idCapSizes, hi := 23, lo := 16, acc := .ro, rst := 0x30 }
/-- ID.CAP_SIZES.HBM_GIB_STACK -/
def idCapSizesHbmGibStack : Fld := { reg := .idCapSizes, hi := 15, lo := 8, acc := .ro, rst := 0x40 }
/-- ID.CAP_SIZES.BLK_PER_DIST -/
def idCapSizesBlkPerDist : Fld := { reg := .idCapSizes, hi := 7, lo := 0, acc := .ro }
/-- ID.NODE_ID.VALID -/
def idNodeIdValid : Fld := { reg := .idNodeId, hi := 63, lo := 63, acc := .ro }
/-- ID.NODE_ID.POS_SRC -/
def idNodeIdPosSrc : Fld := { reg := .idNodeId, hi := 16, lo := 16, acc := .ro }
/-- ID.NODE_ID.RACK -/
def idNodeIdRack : Fld := { reg := .idNodeId, hi := 15, lo := 8, acc := .ro }
/-- ID.NODE_ID.POS -/
def idNodeIdPos : Fld := { reg := .idNodeId, hi := 7, lo := 0, acc := .ro }
/-- RST.STATE.SVC_MS -/
def rstStateSvcMs : Fld := { reg := .rstState, hi := 63, lo := 48, acc := .ro }
/-- RST.STATE.EQ_MS -/
def rstStateEqMs : Fld := { reg := .rstState, hi := 47, lo := 32, acc := .ro }
/-- RST.STATE.CAUSE -/
def rstStateCause : Fld := { reg := .rstState, hi := 18, lo := 16, acc := .ro }
/-- RST.STATE.STEP -/
def rstStateStep : Fld := { reg := .rstState, hi := 11, lo := 8, acc := .ro }
/-- RST.STATE.STATE -/
def rstStateState : Fld := { reg := .rstState, hi := 2, lo := 0, acc := .ro, rst := 0x2 }
/-- RST.CMD.CONFIRM -/
def rstCmdConfirm : Fld := { reg := .rstCmd, hi := 63, lo := 48, acc := .wo }
/-- RST.CMD.OP -/
def rstCmdOp : Fld := { reg := .rstCmd, hi := 1, lo := 0, acc := .wo }
/-- RST.CMD_STATUS.CODE -/
def rstCmdStatusCode : Fld := { reg := .rstCmdStatus, hi := 15, lo := 8, acc := .ro }
/-- RST.CMD_STATUS.FAIL -/
def rstCmdStatusFail : Fld := { reg := .rstCmdStatus, hi := 0, lo := 0, acc := .ro }
/-- RST.CFG.LOCKED -/
def rstCfgLocked : Fld := { reg := .rstCfg, hi := 16, lo := 16, acc := .ro }
/-- RST.CFG.RELEASE_MS -/
def rstCfgReleaseMs : Fld := { reg := .rstCfg, hi := 15, lo := 0, acc := .rwl, rst := 0x3e8 }
/-- CLKPWR.CLK_STATUS.PCIE_PLL_LOCK -/
def clkpwrClkStatusPciePllLock : Fld := { reg := .clkpwrClkStatus, hi := 23, lo := 20, acc := .ro }
/-- CLKPWR.CLK_STATUS.SERDES_PLL_LOCK -/
def clkpwrClkStatusSerdesPllLock : Fld := { reg := .clkpwrClkStatus, hi := 19, lo := 16, acc := .ro }
/-- CLKPWR.CLK_STATUS.HBM_PLL_LOCK -/
def clkpwrClkStatusHbmPllLock : Fld := { reg := .clkpwrClkStatus, hi := 15, lo := 8, acc := .ro }
/-- CLKPWR.CLK_STATUS.MASTER_LOCK_LOST -/
def clkpwrClkStatusMasterLockLost : Fld := { reg := .clkpwrClkStatus, hi := 2, lo := 2, acc := .w1c }
/-- CLKPWR.CLK_STATUS.MASTER_LOCK -/
def clkpwrClkStatusMasterLock : Fld := { reg := .clkpwrClkStatus, hi := 1, lo := 1, acc := .ro }
/-- CLKPWR.CLK_STATUS.REFCLK_OK -/
def clkpwrClkStatusRefclkOk : Fld := { reg := .clkpwrClkStatus, hi := 0, lo := 0, acc := .ro }
/-- CLKPWR.DOM_STATE.P_STATE -/
def clkpwrDomStatePState : Fld := { reg := .clkpwrDomState, hi := 47, lo := 40, acc := .ro }
/-- CLKPWR.DOM_STATE.L_STATE -/
def clkpwrDomStateLState : Fld := { reg := .clkpwrDomState, hi := 39, lo := 32, acc := .ro }
/-- CLKPWR.DOM_STATE.H_STATE -/
def clkpwrDomStateHState : Fld := { reg := .clkpwrDomState, hi := 31, lo := 16, acc := .ro }
/-- CLKPWR.DOM_STATE.D_STATE -/
def clkpwrDomStateDState : Fld := { reg := .clkpwrDomState, hi := 15, lo := 0, acc := .ro }
/-- CLKPWR.DOM_REQ.DOMAIN -/
def clkpwrDomReqDomain : Fld := { reg := .clkpwrDomReq, hi := 12, lo := 8, acc := .wo }
/-- CLKPWR.DOM_REQ.OP -/
def clkpwrDomReqOp : Fld := { reg := .clkpwrDomReq, hi := 1, lo := 0, acc := .wo }
/-- CLKPWR.DOM_REQ_STATUS.CODE -/
def clkpwrDomReqStatusCode : Fld := { reg := .clkpwrDomReqStatus, hi := 15, lo := 8, acc := .ro }
/-- CLKPWR.DOM_REQ_STATUS.FAIL -/
def clkpwrDomReqStatusFail : Fld := { reg := .clkpwrDomReqStatus, hi := 1, lo := 1, acc := .ro }
/-- CLKPWR.DOM_REQ_STATUS.BUSY -/
def clkpwrDomReqStatusBusy : Fld := { reg := .clkpwrDomReqStatus, hi := 0, lo := 0, acc := .ro }
/-- CLKPWR.GOV_CFG.LOCKED -/
def clkpwrGovCfgLocked : Fld := { reg := .clkpwrGovCfg, hi := 63, lo := 63, acc := .ro }
/-- CLKPWR.GOV_CFG.VECTOR -/
def clkpwrGovCfgVector : Fld := { reg := .clkpwrGovCfg, hi := 53, lo := 43, acc := .rw }
/-- CLKPWR.GOV_CFG.H_FLOOR -/
def clkpwrGovCfgHFloor : Fld := { reg := .clkpwrGovCfg, hi := 42, lo := 39, acc := .rwl, rst := 0x4 }
/-- CLKPWR.GOV_CFG.D_FLOOR -/
def clkpwrGovCfgDFloor : Fld := { reg := .clkpwrGovCfg, hi := 38, lo := 34, acc := .rwl, rst := 0x4 }
/-- CLKPWR.GOV_CFG.HBM_THROTTLE -/
def clkpwrGovCfgHbmThrottle : Fld := { reg := .clkpwrGovCfg, hi := 33, lo := 26, acc := .rwl, rst := 0x53 }
/-- CLKPWR.GOV_CFG.TJ_THROTTLE -/
def clkpwrGovCfgTjThrottle : Fld := { reg := .clkpwrGovCfg, hi := 25, lo := 18, acc := .rwl, rst := 0x5f }
/-- CLKPWR.GOV_CFG.PKG_LIMIT_W -/
def clkpwrGovCfgPkgLimitW : Fld := { reg := .clkpwrGovCfg, hi := 15, lo := 0, acc := .rwl, rst := 0x4e2 }
/-- CLKPWR.GOV_STATUS.PKG_W -/
def clkpwrGovStatusPkgW : Fld := { reg := .clkpwrGovStatus, hi := 63, lo := 48, acc := .ro }
/-- CLKPWR.GOV_STATUS.HOTTEST -/
def clkpwrGovStatusHottest : Fld := { reg := .clkpwrGovStatus, hi := 47, lo := 40, acc := .ro }
/-- CLKPWR.GOV_STATUS.STAGE -/
def clkpwrGovStatusStage : Fld := { reg := .clkpwrGovStatus, hi := 39, lo := 35, acc := .ro }
/-- CLKPWR.GOV_STATUS.D_DUTY -/
def clkpwrGovStatusDDuty : Fld := { reg := .clkpwrGovStatus, hi := 34, lo := 30, acc := .ro, rst := 0x10 }
/-- CLKPWR.GOV_STATUS.H_ALLOW -/
def clkpwrGovStatusHAllow : Fld := { reg := .clkpwrGovStatus, hi := 29, lo := 26, acc := .ro, rst := 0x8 }
/-- CLKPWR.GOV_STATUS.P_HALF -/
def clkpwrGovStatusPHalf : Fld := { reg := .clkpwrGovStatus, hi := 25, lo := 25, acc := .ro }
/-- CLKPWR.GOV_STATUS.CRIT -/
def clkpwrGovStatusCrit : Fld := { reg := .clkpwrGovStatus, hi := 2, lo := 2, acc := .w1c }
/-- CLKPWR.GOV_STATUS.AT_FLOOR -/
def clkpwrGovStatusAtFloor : Fld := { reg := .clkpwrGovStatus, hi := 1, lo := 1, acc := .w1c }
/-- CLKPWR.GOV_STATUS.THERMAL -/
def clkpwrGovStatusThermal : Fld := { reg := .clkpwrGovStatus, hi := 0, lo := 0, acc := .ro }
/-- CLKPWR.GOV_CNT.OVER -/
def clkpwrGovCntOver : Fld := { reg := .clkpwrGovCnt, hi := 63, lo := 32, acc := .rc }
/-- CLKPWR.GOV_CNT.THROTTLED -/
def clkpwrGovCntThrottled : Fld := { reg := .clkpwrGovCnt, hi := 31, lo := 0, acc := .rc }
/-- CLKPWR.TEMP_SEL.SENSOR -/
def clkpwrTempSelSensor : Fld := { reg := .clkpwrTempSel, hi := 5, lo := 0, acc := .rw }
/-- CLKPWR.TEMP.FAILED -/
def clkpwrTempFailed : Fld := { reg := .clkpwrTemp, hi := 63, lo := 63, acc := .ro }
/-- CLKPWR.TEMP.MAX -/
def clkpwrTempMax : Fld := { reg := .clkpwrTemp, hi := 31, lo := 16, acc := .rc }
/-- CLKPWR.TEMP.TEMP -/
def clkpwrTempTemp : Fld := { reg := .clkpwrTemp, hi := 15, lo := 0, acc := .ro }
/-- CLKPWR.FT_S.SEC -/
def clkpwrFtSSec : Fld := { reg := .clkpwrFtS, hi := 47, lo := 0, acc := .ro }
/-- CLKPWR.FT_NS.NS -/
def clkpwrFtNsNs : Fld := { reg := .clkpwrFtNs, hi := 29, lo := 0, acc := .ro }
/-- CLKPWR.FT_STEP.OFFSET -/
def clkpwrFtStepOffset : Fld := { reg := .clkpwrFtStep, hi := 63, lo := 0, acc := .wo }
/-- CLKPWR.FT_RATE.SW_SYNC -/
def clkpwrFtRateSwSync : Fld := { reg := .clkpwrFtRate, hi := 63, lo := 63, acc := .rw }
/-- CLKPWR.FT_RATE.RATE -/
def clkpwrFtRateRate : Fld := { reg := .clkpwrFtRate, hi := 31, lo := 0, acc := .rw }
/-- CLKPWR.FT_CFG.STEP_NS -/
def clkpwrFtCfgStepNs : Fld := { reg := .clkpwrFtCfg, hi := 63, lo := 32, acc := .rwl, rst := 0x3e8 }
/-- CLKPWR.FT_CFG.LOCKED -/
def clkpwrFtCfgLocked : Fld := { reg := .clkpwrFtCfg, hi := 16, lo := 16, acc := .ro }
/-- CLKPWR.FT_CFG.SRC -/
def clkpwrFtCfgSrc : Fld := { reg := .clkpwrFtCfg, hi := 4, lo := 0, acc := .rwl }
/-- CLKPWR.FT_STATUS.STEPS -/
def clkpwrFtStatusSteps : Fld := { reg := .clkpwrFtStatus, hi := 63, lo := 48, acc := .rc }
/-- CLKPWR.FT_STATUS.OFFSET_NS -/
def clkpwrFtStatusOffsetNs : Fld := { reg := .clkpwrFtStatus, hi := 47, lo := 16, acc := .ro }
/-- CLKPWR.FT_STATUS.SYNC -/
def clkpwrFtStatusSync : Fld := { reg := .clkpwrFtStatus, hi := 0, lo := 0, acc := .ro }
/-- IMG.STATUS.TOPO_ID -/
def imgStatusTopoId : Fld := { reg := .imgStatus, hi := 63, lo := 32, acc := .ro }
/-- IMG.STATUS.CODE -/
def imgStatusCode : Fld := { reg := .imgStatus, hi := 31, lo := 24, acc := .ro }
/-- IMG.STATUS.SECTION -/
def imgStatusSection : Fld := { reg := .imgStatus, hi := 23, lo := 16, acc := .ro, rst := 0xff }
/-- IMG.STATUS.REASON -/
def imgStatusReason : Fld := { reg := .imgStatus, hi := 15, lo := 8, acc := .ro }
/-- IMG.STATUS.BANK -/
def imgStatusBank : Fld := { reg := .imgStatus, hi := 1, lo := 1, acc := .ro }
/-- IMG.STATUS.ACCEPTED -/
def imgStatusAccepted : Fld := { reg := .imgStatus, hi := 0, lo := 0, acc := .ro }
/-- IMG.INFO.LEN_4K -/
def imgInfoLen4k : Fld := { reg := .imgInfo, hi := 47, lo := 32, acc := .ro }
/-- IMG.INFO.NSECT -/
def imgInfoNsect : Fld := { reg := .imgInfo, hi := 23, lo := 16, acc := .ro }
/-- IMG.INFO.FORMAT -/
def imgInfoFormat : Fld := { reg := .imgInfo, hi := 15, lo := 0, acc := .ro }
/-- IMG.UCAL.REASON -/
def imgUcalReason : Fld := { reg := .imgUcal, hi := 31, lo := 24, acc := .ro }
/-- IMG.UCAL.BAD_ENTRY -/
def imgUcalBadEntry : Fld := { reg := .imgUcal, hi := 23, lo := 16, acc := .ro }
/-- IMG.UCAL.ENTRIES -/
def imgUcalEntries : Fld := { reg := .imgUcal, hi := 12, lo := 4, acc := .ro }
/-- IMG.UCAL.STATE -/
def imgUcalState : Fld := { reg := .imgUcal, hi := 2, lo := 0, acc := .ro }
/-- IMG.CMD.OP -/
def imgCmdOp : Fld := { reg := .imgCmd, hi := 1, lo := 0, acc := .wo }
/-- IMG.CMD_STATUS.CODE -/
def imgCmdStatusCode : Fld := { reg := .imgCmdStatus, hi := 15, lo := 8, acc := .ro }
/-- IMG.CMD_STATUS.FAIL -/
def imgCmdStatusFail : Fld := { reg := .imgCmdStatus, hi := 1, lo := 1, acc := .ro }
/-- IMG.CMD_STATUS.BUSY -/
def imgCmdStatusBusy : Fld := { reg := .imgCmdStatus, hi := 0, lo := 0, acc := .ro }
/-- IMG.FW_STATUS.CONFIRM_LEFT_S -/
def imgFwStatusConfirmLeftS : Fld := { reg := .imgFwStatus, hi := 63, lo := 48, acc := .ro }
/-- IMG.FW_STATUS.RB_REASON -/
def imgFwStatusRbReason : Fld := { reg := .imgFwStatus, hi := 39, lo := 32, acc := .ro }
/-- IMG.FW_STATUS.BANK1 -/
def imgFwStatusBank1 : Fld := { reg := .imgFwStatus, hi := 15, lo := 12, acc := .ro }
/-- IMG.FW_STATUS.BANK0 -/
def imgFwStatusBank0 : Fld := { reg := .imgFwStatus, hi := 11, lo := 8, acc := .ro }
/-- IMG.FW_STATUS.TRIES_LEFT -/
def imgFwStatusTriesLeft : Fld := { reg := .imgFwStatus, hi := 3, lo := 2, acc := .ro }
/-- IMG.FW_STATUS.TRIAL -/
def imgFwStatusTrial : Fld := { reg := .imgFwStatus, hi := 1, lo := 1, acc := .ro }
/-- IMG.FW_STATUS.RUN_BANK -/
def imgFwStatusRunBank : Fld := { reg := .imgFwStatus, hi := 0, lo := 0, acc := .ro }
/-- IMG.SVN.IMG_FUSED -/
def imgSvnImgFused : Fld := { reg := .imgSvn, hi := 46, lo := 40, acc := .ro }
/-- IMG.SVN.FW_FUSED -/
def imgSvnFwFused : Fld := { reg := .imgSvn, hi := 22, lo := 16, acc := .ro }
/-- IMG.SVN.IMG_RUN -/
def imgSvnImgRun : Fld := { reg := .imgSvn, hi := 15, lo := 8, acc := .ro }
/-- IMG.SVN.FW_RUN -/
def imgSvnFwRun : Fld := { reg := .imgSvn, hi := 7, lo := 0, acc := .ro }
/-- IMG.STAGE_SRC.FGA -/
def imgStageSrcFga : Fld := { reg := .imgStageSrc, hi := 63, lo := 0, acc := .rw }
/-- IMG.STAGE_ARG.OFFSET_4K -/
def imgStageArgOffset4k : Fld := { reg := .imgStageArg, hi := 63, lo := 40, acc := .rw }
/-- IMG.STAGE_ARG.KIND -/
def imgStageArgKind : Fld := { reg := .imgStageArg, hi := 34, lo := 32, acc := .rw }
/-- IMG.STAGE_ARG.LEN -/
def imgStageArgLen : Fld := { reg := .imgStageArg, hi := 31, lo := 0, acc := .rw }
/-- IMG.ACT_S.SEC -/
def imgActSSec : Fld := { reg := .imgActS, hi := 47, lo := 0, acc := .rw }
/-- IMG.ACT_NS.DRAIN -/
def imgActNsDrain : Fld := { reg := .imgActNs, hi := 63, lo := 63, acc := .rw, rst := 0x1 }
/-- IMG.ACT_NS.NS -/
def imgActNsNs : Fld := { reg := .imgActNs, hi := 29, lo := 0, acc := .rw }
/-- IMG.FW_CMD.OP -/
def imgFwCmdOp : Fld := { reg := .imgFwCmd, hi := 2, lo := 0, acc := .wo }
/-- IMG.FW_CMD_STATUS.CODE -/
def imgFwCmdStatusCode : Fld := { reg := .imgFwCmdStatus, hi := 15, lo := 8, acc := .ro }
/-- IMG.FW_CMD_STATUS.FAIL -/
def imgFwCmdStatusFail : Fld := { reg := .imgFwCmdStatus, hi := 1, lo := 1, acc := .ro }
/-- IMG.FW_CMD_STATUS.BUSY -/
def imgFwCmdStatusBusy : Fld := { reg := .imgFwCmdStatus, hi := 0, lo := 0, acc := .ro }
/-- IMG.FW_CFG.CONFIRM_S -/
def imgFwCfgConfirmS : Fld := { reg := .imgFwCfg, hi := 15, lo := 0, acc := .rw, rst := 0x384 }
/-- SEC.STATUS.MEHREG_REVOKED -/
def secStatusMehregRevoked : Fld := { reg := .secStatus, hi := 19, lo := 16, acc := .ro }
/-- SEC.STATUS.OWNER_REVOKED -/
def secStatusOwnerRevoked : Fld := { reg := .secStatus, hi := 15, lo := 12, acc := .ro }
/-- SEC.STATUS.OWNER_SET -/
def secStatusOwnerSet : Fld := { reg := .secStatus, hi := 11, lo := 8, acc := .ro }
/-- SEC.STATUS.KEK_VALID -/
def secStatusKekValid : Fld := { reg := .secStatus, hi := 0, lo := 0, acc := .ro }
/-- HP.PORT_CFG.LOCKED -/
def hpPortCfgLocked : Fld := { reg := .hpPortCfg, hi := 8, lo := 8, acc := .ro }
/-- HP.PORT_CFG.MAX_RATE -/
def hpPortCfgMaxRate : Fld := { reg := .hpPortCfg, hi := 5, lo := 4, acc := .rwl, rst := 0x3 }
/-- HP.PORT_CFG.BIFURCATE -/
def hpPortCfgBifurcate : Fld := { reg := .hpPortCfg, hi := 3, lo := 3, acc := .rwl }
/-- HP.PORT_CFG.CLASS_IMG -/
def hpPortCfgClassImg : Fld := { reg := .hpPortCfg, hi := 2, lo := 2, acc := .rwl }
/-- HP.PORT_CFG.CLASS_STRAP -/
def hpPortCfgClassStrap : Fld := { reg := .hpPortCfg, hi := 1, lo := 1, acc := .ro }
/-- HP.PORT_CFG.MGR_ACTIVE -/
def hpPortCfgMgrActive : Fld := { reg := .hpPortCfg, hi := 0, lo := 0, acc := .ro }
/-- HP.LINK_STATUS.DOWN_COUNT -/
def hpLinkStatusDownCount : Fld := { reg := .hpLinkStatus, hi := 31, lo := 16, acc := .rc, n := 2, step := 32 }
/-- HP.LINK_STATUS.BELOW_MIN -/
def hpLinkStatusBelowMin : Fld := { reg := .hpLinkStatus, hi := 11, lo := 11, acc := .ro, n := 2, step := 32 }
/-- HP.LINK_STATUS.FLIT -/
def hpLinkStatusFlit : Fld := { reg := .hpLinkStatus, hi := 10, lo := 10, acc := .ro, n := 2, step := 32 }
/-- HP.LINK_STATUS.WIDTH -/
def hpLinkStatusWidth : Fld := { reg := .hpLinkStatus, hi := 9, lo := 5, acc := .ro, n := 2, step := 32 }
/-- HP.LINK_STATUS.RATE -/
def hpLinkStatusRate : Fld := { reg := .hpLinkStatus, hi := 4, lo := 3, acc := .ro, n := 2, step := 32 }
/-- HP.LINK_STATUS.STATE -/
def hpLinkStatusState : Fld := { reg := .hpLinkStatus, hi := 1, lo := 0, acc := .ro, n := 2, step := 32 }
/-- HP.CRASH.WDOG_MS -/
def hpCrashWdogMs : Fld := { reg := .hpCrash, hi := 47, lo := 32, acc := .rw }
/-- HP.CRASH.GRACE_S -/
def hpCrashGraceS : Fld := { reg := .hpCrash, hi := 15, lo := 0, acc := .rw, rst := 0x12c }
/-- HP.FN_SEL.INDEX -/
def hpFnSelIndex : Fld := { reg := .hpFnSel, hi := 5, lo := 0, acc := .rw }
/-- HP.FN_INFO.BAD_TOKENS -/
def hpFnInfoBadTokens : Fld := { reg := .hpFnInfo, hi := 55, lo := 48, acc := .ro }
/-- HP.FN_INFO.GRACE_LEFT -/
def hpFnInfoGraceLeft : Fld := { reg := .hpFnInfo, hi := 47, lo := 32, acc := .ro }
/-- HP.FN_INFO.OUT_TAGS -/
def hpFnInfoOutTags : Fld := { reg := .hpFnInfo, hi := 28, lo := 16, acc := .ro }
/-- HP.FN_INFO.BME -/
def hpFnInfoBme : Fld := { reg := .hpFnInfo, hi := 3, lo := 3, acc := .ro }
/-- HP.FN_INFO.STATE -/
def hpFnInfoState : Fld := { reg := .hpFnInfo, hi := 2, lo := 0, acc := .ro }
/-- FN.MODE.D -/
def fnModeD : Fld := { reg := .fnMode, hi := 16, lo := 8, acc := .ro }
/-- FN.MODE.FROM -/
def fnModeFrom : Fld := { reg := .fnMode, hi := 1, lo := 1, acc := .ro }
/-- FN.MODE.EQUAL -/
def fnModeEqual : Fld := { reg := .fnMode, hi := 0, lo := 0, acc := .ro }
/-- FN.ARG0.VALUE -/
def fnArg0Value : Fld := { reg := .fnArg0, hi := 63, lo := 0, acc := .rw }
/-- FN.ARG1.VALUE -/
def fnArg1Value : Fld := { reg := .fnArg1, hi := 63, lo := 0, acc := .rw }
/-- FN.CMD.OP -/
def fnCmdOp : Fld := { reg := .fnCmd, hi := 35, lo := 32, acc := .wo }
/-- FN.CMD.RES -/
def fnCmdRes : Fld := { reg := .fnCmd, hi := 11, lo := 8, acc := .wo }
/-- FN.CMD.FN -/
def fnCmdFn : Fld := { reg := .fnCmd, hi := 7, lo := 0, acc := .wo }
/-- FN.STATUS.CODE -/
def fnStatusCode : Fld := { reg := .fnStatus, hi := 15, lo := 8, acc := .ro }
/-- FN.STATUS.FAIL -/
def fnStatusFail : Fld := { reg := .fnStatus, hi := 1, lo := 1, acc := .ro }
/-- FN.STATUS.BUSY -/
def fnStatusBusy : Fld := { reg := .fnStatus, hi := 0, lo := 0, acc := .ro }
/-- FN.SEL.RES -/
def fnSelRes : Fld := { reg := .fnSel, hi := 11, lo := 8, acc := .rw }
/-- FN.SEL.FN -/
def fnSelFn : Fld := { reg := .fnSel, hi := 7, lo := 0, acc := .rw }
/-- FN.USE.LIMIT -/
def fnUseLimit : Fld := { reg := .fnUse, hi := 63, lo := 40, acc := .ro }
/-- FN.USE.HELD -/
def fnUseHeld : Fld := { reg := .fnUse, hi := 39, lo := 16, acc := .ro }
/-- FN.EQ.EQ -/
def fnEqEq : Fld := { reg := .fnEq, hi := 23, lo := 0, acc := .ro }
/-- FN.BASE.BASE -/
def fnBaseBase : Fld := { reg := .fnBase, hi := 23, lo := 0, acc := .ro }
/-- FN.POOL.TOTAL -/
def fnPoolTotal : Fld := { reg := .fnPool, hi := 63, lo := 40, acc := .ro }
/-- FN.POOL.FREE -/
def fnPoolFree : Fld := { reg := .fnPool, hi := 39, lo := 16, acc := .ro }
/-- FN.RATE_TOTAL.TOTAL -/
def fnRateTotalTotal : Fld := { reg := .fnRateTotal, hi := 17, lo := 0, acc := .rwl, rst := 0x3e800 }
/-- FN.KSK_DB.RING -/
def fnKskDbRing : Fld := { reg := .fnKskDb, hi := 63, lo := 63, acc := .wo }
/-- FN.KSK_DB.FN -/
def fnKskDbFn : Fld := { reg := .fnKskDb, hi := 39, lo := 32, acc := .wo }
/-- FN.KSK_DB.INDEX -/
def fnKskDbIndex : Fld := { reg := .fnKskDb, hi := 15, lo := 0, acc := .wo }
/-- FN.KSK_CTRL.VECTOR -/
def fnKskCtrlVector : Fld := { reg := .fnKskCtrl, hi := 42, lo := 32, acc := .rw }
/-- FN.KSK_CTRL.DB_ERR -/
def fnKskCtrlDbErr : Fld := { reg := .fnKskCtrl, hi := 16, lo := 16, acc := .w1c }
/-- FN.KSK_CTRL.LOST -/
def fnKskCtrlLost : Fld := { reg := .fnKskCtrl, hi := 15, lo := 0, acc := .rc }
/-- FN.KSK_BASE.BASE -/
def fnKskBaseBase : Fld := { reg := .fnKskBase, hi := 63, lo := 3, acc := .ro }
/-- FN.KSK_BASE.SIZE -/
def fnKskBaseSize : Fld := { reg := .fnKskBase, hi := 2, lo := 0, acc := .ro }
/-- FN.KSK_POS.REQ_TAIL -/
def fnKskPosReqTail : Fld := { reg := .fnKskPos, hi := 63, lo := 48, acc := .ro }
/-- FN.KSK_POS.REQ_HEAD -/
def fnKskPosReqHead : Fld := { reg := .fnKskPos, hi := 47, lo := 32, acc := .ro }
/-- FN.KSK_POS.RSP_TAIL -/
def fnKskPosRspTail : Fld := { reg := .fnKskPos, hi := 31, lo := 16, acc := .ro }
/-- FN.KSK_POS.RSP_HEAD -/
def fnKskPosRspHead : Fld := { reg := .fnKskPos, hi := 15, lo := 0, acc := .ro }
/-- FN.DL_CTRL.PAGES -/
def fnDlCtrlPages : Fld := { reg := .fnDlCtrl, hi := 47, lo := 24, acc := .rw }
/-- FN.DL_CTRL.ACTIVE -/
def fnDlCtrlActive : Fld := { reg := .fnDlCtrl, hi := 2, lo := 2, acc := .ro }
/-- FN.DL_CTRL.HOST_EN -/
def fnDlCtrlHostEn : Fld := { reg := .fnDlCtrl, hi := 1, lo := 1, acc := .rw }
/-- FN.DL_CTRL.HBM_EN -/
def fnDlCtrlHbmEn : Fld := { reg := .fnDlCtrl, hi := 0, lo := 0, acc := .rw }
/-- FN.DL_HA.BASE_HA -/
def fnDlHaBaseHa : Fld := { reg := .fnDlHa, hi := 63, lo := 12, acc := .rw }
/-- FN.DL_BASE0.FGA -/
def fnDlBase0Fga : Fld := { reg := .fnDlBase0, hi := 63, lo := 0, acc := .rw }
/-- FN.DL_BASE1.FGA -/
def fnDlBase1Fga : Fld := { reg := .fnDlBase1, hi := 63, lo := 0, acc := .rw }
/-- FN.DL_CNT.MISS -/
def fnDlCntMiss : Fld := { reg := .fnDlCnt, hi := 31, lo := 0, acc := .rc }
/-- XL.SEL.FN -/
def xlSelFn : Fld := { reg := .xlSel, hi := 7, lo := 0, acc := .rw }
/-- XL.CTX_ROOT.ROOT -/
def xlCtxRootRoot : Fld := { reg := .xlCtxRoot, hi := 51, lo := 12, acc := .rw }
/-- XL.CTX_ROOT.MEDIUM -/
def xlCtxRootMedium : Fld := { reg := .xlCtxRoot, hi := 0, lo := 0, acc := .rw }
/-- XL.CTX_CTRL.LEVELS -/
def xlCtxCtrlLevels : Fld := { reg := .xlCtxCtrl, hi := 2, lo := 2, acc := .rw }
/-- XL.CTX_CTRL.NS_EN -/
def xlCtxCtrlNsEn : Fld := { reg := .xlCtxCtrl, hi := 1, lo := 1, acc := .rw }
/-- XL.CTX_CTRL.ENABLE -/
def xlCtxCtrlEnable : Fld := { reg := .xlCtxCtrl, hi := 0, lo := 0, acc := .rw }
/-- XL.INVAL_ADDR.HA -/
def xlInvalAddrHa : Fld := { reg := .xlInvalAddr, hi := 63, lo := 12, acc := .rw }
/-- XL.INVAL.SCOPE -/
def xlInvalScope : Fld := { reg := .xlInval, hi := 63, lo := 62, acc := .wo }
/-- XL.INVAL.PAGES -/
def xlInvalPages : Fld := { reg := .xlInval, hi := 19, lo := 0, acc := .wo }
/-- XL.INVAL_STATUS.DISCARDED -/
def xlInvalStatusDiscarded : Fld := { reg := .xlInvalStatus, hi := 1, lo := 1, acc := .w1c }
/-- XL.INVAL_STATUS.BUSY -/
def xlInvalStatusBusy : Fld := { reg := .xlInvalStatus, hi := 0, lo := 0, acc := .ro }
/-- Q.INVAL.SCOPE -/
def qInvalScope : Fld := { reg := .qInval, hi := 63, lo := 62, acc := .wo }
/-- Q.INVAL.QUEUE -/
def qInvalQueue : Fld := { reg := .qInval, hi := 19, lo := 8, acc := .wo }
/-- Q.INVAL.SLOT -/
def qInvalSlot : Fld := { reg := .qInval, hi := 7, lo := 0, acc := .wo }
/-- Q.INVAL_STATUS.DISCARDED -/
def qInvalStatusDiscarded : Fld := { reg := .qInvalStatus, hi := 1, lo := 1, acc := .w1c }
/-- Q.INVAL_STATUS.BUSY -/
def qInvalStatusBusy : Fld := { reg := .qInvalStatus, hi := 0, lo := 0, acc := .ro }
/-- TP.CFG.PROBE_US -/
def tpCfgProbeUs : Fld := { reg := .tpCfg, hi := 63, lo := 48, acc := .rwl, rst := 0x64 }
/-- TP.CFG.ACK_US -/
def tpCfgAckUs : Fld := { reg := .tpCfg, hi := 47, lo := 40, acc := .rwl, rst := 0x2 }
/-- TP.CFG.REO_PKTS -/
def tpCfgReoPkts : Fld := { reg := .tpCfg, hi := 35, lo := 32, acc := .rwl, rst := 0x4 }
/-- TP.CFG.LOCKED -/
def tpCfgLocked : Fld := { reg := .tpCfg, hi := 16, lo := 16, acc := .ro }
/-- TP.CFG.SLT_PORT -/
def tpCfgSltPort : Fld := { reg := .tpCfg, hi := 15, lo := 0, acc := .rwl, rst := 0xc5a0 }
/-- TP.QPC_CACHE.MISSES -/
def tpQpcCacheMisses : Fld := { reg := .tpQpcCache, hi := 63, lo := 32, acc := .rc }
/-- TP.QPC_CACHE.HITS -/
def tpQpcCacheHits : Fld := { reg := .tpQpcCache, hi := 31, lo := 0, acc := .rc }
/-- TP.RC_STATUS.USED -/
def tpRcStatusUsed : Fld := { reg := .tpRcStatus, hi := 63, lo := 0, acc := .ro }
/-- TP.PIPE_CNT.DROP_MATCH -/
def tpPipeCntDropMatch : Fld := { reg := .tpPipeCnt, hi := 63, lo := 48, acc := .rc }
/-- TP.PIPE_CNT.DROP_WINDOW -/
def tpPipeCntDropWindow : Fld := { reg := .tpPipeCnt, hi := 47, lo := 32, acc := .rc }
/-- TP.PIPE_CNT.DROP_MALFORMED -/
def tpPipeCntDropMalformed : Fld := { reg := .tpPipeCnt, hi := 31, lo := 16, acc := .rc }
/-- TP.PIPE_CNT.NR_SENT -/
def tpPipeCntNrSent : Fld := { reg := .tpPipeCnt, hi := 15, lo := 0, acc := .rc }
/-- TP.PIPE_RX.PKTS -/
def tpPipeRxPkts : Fld := { reg := .tpPipeRx, hi := 47, lo := 0, acc := .rc }
/-- TP.PIPE_TX.PKTS -/
def tpPipeTxPkts : Fld := { reg := .tpPipeTx, hi := 47, lo := 0, acc := .rc }
/-- TP.PIPE_RETX.TIMEOUT -/
def tpPipeRetxTimeout : Fld := { reg := .tpPipeRetx, hi := 63, lo := 32, acc := .rc }
/-- TP.PIPE_RETX.FAST -/
def tpPipeRetxFast : Fld := { reg := .tpPipeRetx, hi := 31, lo := 0, acc := .rc }
/-- CC.CFG.CNP_US -/
def ccCfgCnpUs : Fld := { reg := .ccCfg, hi := 63, lo := 48, acc := .rwl, rst := 0x32 }
/-- CC.CFG.SAMPLE_EXP -/
def ccCfgSampleExp : Fld := { reg := .ccCfg, hi := 47, lo := 40, acc := .rw, rst := 0x4 }
/-- CC.CFG.LOCKED -/
def ccCfgLocked : Fld := { reg := .ccCfg, hi := 16, lo := 16, acc := .ro }
/-- CC.CFG.ECT -/
def ccCfgEct : Fld := { reg := .ccCfg, hi := 1, lo := 0, acc := .rwl, rst := 0x2 }
/-- CC.MARK.THRESH -/
def ccMarkThresh : Fld := { reg := .ccMark, hi := 7, lo := 0, acc := .rwl, rst := 0x1010101010101010, n := 8, step := 8 }
/-- CC.TXSCHED.STRICT -/
def ccTxschedStrict : Fld := { reg := .ccTxsched, hi := 7, lo := 0, acc := .rwl }
/-- CC.TXWEIGHT.QUANTUM -/
def ccTxweightQuantum : Fld := { reg := .ccTxweight, hi := 7, lo := 0, acc := .rwl, rst := 0x1010101010101010, n := 8, step := 8 }
/-- CC.DSCP_COLOUR0.COLOUR -/
def ccDscpColour0Colour : Fld := { reg := .ccDscpColour0, hi := 1, lo := 0, acc := .rw, n := 32, step := 2 }
/-- CC.DSCP_COLOUR1.COLOUR -/
def ccDscpColour1Colour : Fld := { reg := .ccDscpColour1, hi := 1, lo := 0, acc := .rw, n := 32, step := 2 }
/-- CC.CLASS_COLOUR.COLOUR -/
def ccClassColourColour : Fld := { reg := .ccClassColour, hi := 1, lo := 0, acc := .rw, n := 8, step := 2 }
/-- CC.SHP_SEL.KIND -/
def ccShpSelKind : Fld := { reg := .ccShpSel, hi := 63, lo := 63, acc := .rw }
/-- CC.SHP_SEL.INDEX -/
def ccShpSelIndex : Fld := { reg := .ccShpSel, hi := 19, lo := 0, acc := .rw }
/-- CC.SHP_CFG.BURST -/
def ccShpCfgBurst : Fld := { reg := .ccShpCfg, hi := 63, lo := 48, acc := .rw, rst := 0x100 }
/-- CC.SHP_CFG.CEIL -/
def ccShpCfgCeil : Fld := { reg := .ccShpCfg, hi := 17, lo := 0, acc := .rw }
/-- CC.SHP_STATE.RATE -/
def ccShpStateRate : Fld := { reg := .ccShpState, hi := 49, lo := 32, acc := .ro }
/-- CC.SHP_STATE.CREDIT -/
def ccShpStateCredit : Fld := { reg := .ccShpState, hi := 31, lo := 0, acc := .ro }
/-- CC.SHP_CMD.CLEAR_DEBT -/
def ccShpCmdClearDebt : Fld := { reg := .ccShpCmd, hi := 0, lo := 0, acc := .wo }
/-- CC.MTR_SEL.FN -/
def ccMtrSelFn : Fld := { reg := .ccMtrSel, hi := 8, lo := 1, acc := .rw }
/-- CC.MTR_SEL.KIND -/
def ccMtrSelKind : Fld := { reg := .ccMtrSel, hi := 0, lo := 0, acc := .rw }
/-- CC.MTR_RATE.EIR -/
def ccMtrRateEir : Fld := { reg := .ccMtrRate, hi := 49, lo := 32, acc := .rw }
/-- CC.MTR_RATE.CIR -/
def ccMtrRateCir : Fld := { reg := .ccMtrRate, hi := 17, lo := 0, acc := .rw }
/-- CC.MTR_BURST.EBS -/
def ccMtrBurstEbs : Fld := { reg := .ccMtrBurst, hi := 47, lo := 32, acc := .rw, rst := 0x4 }
/-- CC.MTR_BURST.CBS -/
def ccMtrBurstCbs : Fld := { reg := .ccMtrBurst, hi := 15, lo := 0, acc := .rw, rst := 0x4 }
/-- CC.MTR_CTRL.RED_PASS -/
def ccMtrCtrlRedPass : Fld := { reg := .ccMtrCtrl, hi := 3, lo := 3, acc := .rw }
/-- CC.MTR_CTRL.YEL_MARK -/
def ccMtrCtrlYelMark : Fld := { reg := .ccMtrCtrl, hi := 2, lo := 2, acc := .rw }
/-- CC.MTR_CTRL.AWARE -/
def ccMtrCtrlAware : Fld := { reg := .ccMtrCtrl, hi := 1, lo := 1, acc := .rw }
/-- CC.MTR_CTRL.ENABLE -/
def ccMtrCtrlEnable : Fld := { reg := .ccMtrCtrl, hi := 0, lo := 0, acc := .rw }
/-- CC.MTR_GREEN.PKTS -/
def ccMtrGreenPkts : Fld := { reg := .ccMtrGreen, hi := 47, lo := 0, acc := .rc }
/-- CC.MTR_YELLOW.PKTS -/
def ccMtrYellowPkts : Fld := { reg := .ccMtrYellow, hi := 47, lo := 0, acc := .rc }
/-- CC.MTR_RED.PKTS -/
def ccMtrRedPkts : Fld := { reg := .ccMtrRed, hi := 47, lo := 0, acc := .rc }
/-- CC.PROF_RATE.R_STEP -/
def ccProfRateRStep : Fld := { reg := .ccProfRate, hi := 53, lo := 36, acc := .rwl, rst := 0x28 }
/-- CC.PROF_RATE.R_MIN -/
def ccProfRateRMin : Fld := { reg := .ccProfRate, hi := 35, lo := 18, acc := .rwl, rst := 0xa }
/-- CC.PROF_RATE.INIT -/
def ccProfRateInit : Fld := { reg := .ccProfRate, hi := 17, lo := 0, acc := .rwl }
/-- CC.PROF_TIME.HOLD -/
def ccProfTimeHold : Fld := { reg := .ccProfTime, hi := 23, lo := 16, acc := .rwl, rst := 0x2 }
/-- CC.PROF_TIME.T_EPOCH -/
def ccProfTimeTEpoch : Fld := { reg := .ccProfTime, hi := 15, lo := 0, acc := .rwl, rst := 0x19 }
/-- CC.PROF_CTRL.DEC -/
def ccProfCtrlDec : Fld := { reg := .ccProfCtrl, hi := 47, lo := 40, acc := .rwl, rst := 0x80 }
/-- CC.PROF_CTRL.GROW_MAX -/
def ccProfCtrlGrowMax : Fld := { reg := .ccProfCtrl, hi := 39, lo := 32, acc := .rwl, rst := 0x10 }
/-- CC.PROF_CTRL.OVERHEAD -/
def ccProfCtrlOverhead : Fld := { reg := .ccProfCtrl, hi := 29, lo := 22, acc := .rwl, rst := 0x20 }
/-- CC.PROF_CTRL.CLASS -/
def ccProfCtrlClass : Fld := { reg := .ccProfCtrl, hi := 5, lo := 3, acc := .rwl }
/-- CC.PROF_CTRL.RTT_EN -/
def ccProfCtrlRttEn : Fld := { reg := .ccProfCtrl, hi := 1, lo := 1, acc := .rwl }
/-- CC.PROF_CTRL.ECN_EN -/
def ccProfCtrlEcnEn : Fld := { reg := .ccProfCtrl, hi := 0, lo := 0, acc := .rwl, rst := 0x1 }
/-- CC.PROF_RTT.RTT_HIGH -/
def ccProfRttRttHigh : Fld := { reg := .ccProfRtt, hi := 63, lo := 32, acc := .rwl }
/-- CC.PROF_RTT.RTT_LOW -/
def ccProfRttRttLow : Fld := { reg := .ccProfRtt, hi := 31, lo := 0, acc := .rwl }
/-- CC.TXQ_SAMPLE.DELAY_NS -/
def ccTxqSampleDelayNs : Fld := { reg := .ccTxqSample, hi := 63, lo := 32, acc := .ro }
/-- CC.TXQ_SAMPLE.DEPTH -/
def ccTxqSampleDepth : Fld := { reg := .ccTxqSample, hi := 31, lo := 0, acc := .ro }
/-- CC.TXQ_MAX.DELAY_MAX -/
def ccTxqMaxDelayMax : Fld := { reg := .ccTxqMax, hi := 63, lo := 32, acc := .rc }
/-- CC.TXQ_MAX.DEPTH_MAX -/
def ccTxqMaxDepthMax : Fld := { reg := .ccTxqMax, hi := 31, lo := 0, acc := .rc }
/-- VL.CFG.E2E_TMO -/
def vlCfgE2eTmo : Fld := { reg := .vlCfg, hi := 63, lo := 48, acc := .rwl, rst := 0x3e8 }
/-- VL.CFG.CLASS_PRI -/
def vlCfgClassPri : Fld := { reg := .vlCfg, hi := 47, lo := 40, acc := .rwl }
/-- VL.CFG.HOP_MAX -/
def vlCfgHopMax : Fld := { reg := .vlCfg, hi := 39, lo := 36, acc := .rwl, rst := 0x8 }
/-- VL.CFG.LOCKED -/
def vlCfgLocked : Fld := { reg := .vlCfg, hi := 16, lo := 16, acc := .ro }
/-- VL.CFG.LG_VALIR -/
def vlCfgLgValir : Fld := { reg := .vlCfg, hi := 3, lo := 0, acc := .ro }
/-- VL.ROUTE_SEL.DETOUR -/
def vlRouteSelDetour : Fld := { reg := .vlRouteSel, hi := 8, lo := 8, acc := .rw }
/-- VL.ROUTE_SEL.POS -/
def vlRouteSelPos : Fld := { reg := .vlRouteSel, hi := 7, lo := 0, acc := .rw }
/-- VL.ROUTE_ENTRY.ENTRY -/
def vlRouteEntryEntry : Fld := { reg := .vlRouteEntry, hi := 63, lo := 0, acc := .ro }
/-- VL.LIVE.LIVE -/
def vlLiveLive : Fld := { reg := .vlLive, hi := 15, lo := 0, acc := .ro }
/-- VL.DROP_CNT.NO_ROUTE -/
def vlDropCntNoRoute : Fld := { reg := .vlDropCnt, hi := 63, lo := 48, acc := .rc }
/-- VL.DROP_CNT.HOP_LIMIT -/
def vlDropCntHopLimit : Fld := { reg := .vlDropCnt, hi := 47, lo := 32, acc := .rc }
/-- VL.DROP_CNT.LINK_DOWN -/
def vlDropCntLinkDown : Fld := { reg := .vlDropCnt, hi := 31, lo := 16, acc := .rc }
/-- VL.DROP_CNT.CRC -/
def vlDropCntCrc : Fld := { reg := .vlDropCnt, hi := 15, lo := 0, acc := .rc }
/-- VL.E2E_CNT.WEPOCH -/
def vlE2eCntWepoch : Fld := { reg := .vlE2eCnt, hi := 39, lo := 32, acc := .ro }
/-- VL.E2E_CNT.TMO_RESETS -/
def vlE2eCntTmoResets : Fld := { reg := .vlE2eCnt, hi := 31, lo := 16, acc := .rc }
/-- VL.E2E_CNT.DROP_SENT -/
def vlE2eCntDropSent : Fld := { reg := .vlE2eCnt, hi := 15, lo := 0, acc := .rc }
/-- VL.E2E_SEL.POS -/
def vlE2eSelPos : Fld := { reg := .vlE2eSel, hi := 7, lo := 0, acc := .rw }
/-- VL.E2E_STATE.OUT -/
def vlE2eStateOut : Fld := { reg := .vlE2eState, hi := 40, lo := 32, acc := .ro }
/-- VL.E2E_STATE.INJ -/
def vlE2eStateInj : Fld := { reg := .vlE2eState, hi := 31, lo := 0, acc := .ro }
/-- VL.LINK_CTRL.RETRAIN -/
def vlLinkCtrlRetrain : Fld := { reg := .vlLinkCtrl, hi := 2, lo := 2, acc := .wo }
/-- VL.LINK_CTRL.DEGRADE_OK -/
def vlLinkCtrlDegradeOk : Fld := { reg := .vlLinkCtrl, hi := 1, lo := 1, acc := .rwl, rst := 0x1 }
/-- VL.LINK_CTRL.ENABLE -/
def vlLinkCtrlEnable : Fld := { reg := .vlLinkCtrl, hi := 0, lo := 0, acc := .rwl, rst := 0x1 }
/-- VL.LINK_STATUS.PARTNER_NODE -/
def vlLinkStatusPartnerNode : Fld := { reg := .vlLinkStatus, hi := 63, lo := 48, acc := .ro }
/-- VL.LINK_STATUS.PARTNER_LINK -/
def vlLinkStatusPartnerLink : Fld := { reg := .vlLinkStatus, hi := 47, lo := 44, acc := .ro }
/-- VL.LINK_STATUS.PARTNER_READY -/
def vlLinkStatusPartnerReady : Fld := { reg := .vlLinkStatus, hi := 43, lo := 43, acc := .ro }
/-- VL.LINK_STATUS.LANE_SWAP -/
def vlLinkStatusLaneSwap : Fld := { reg := .vlLinkStatus, hi := 42, lo := 42, acc := .ro }
/-- VL.LINK_STATUS.LANES -/
def vlLinkStatusLanes : Fld := { reg := .vlLinkStatus, hi := 41, lo := 40, acc := .ro }
/-- VL.LINK_STATUS.RTT_NS -/
def vlLinkStatusRttNs : Fld := { reg := .vlLinkStatus, hi := 39, lo := 30, acc := .ro }
/-- VL.LINK_STATUS.STATE -/
def vlLinkStatusState : Fld := { reg := .vlLinkStatus, hi := 3, lo := 0, acc := .ro }
/-- VL.LINK_FEC.CORRECTED -/
def vlLinkFecCorrected : Fld := { reg := .vlLinkFec, hi := 63, lo := 32, acc := .rc }
/-- VL.LINK_FEC.UNCORRECTED -/
def vlLinkFecUncorrected : Fld := { reg := .vlLinkFec, hi := 31, lo := 0, acc := .rc }
/-- VL.LINK_RETRY.DOWN -/
def vlLinkRetryDown : Fld := { reg := .vlLinkRetry, hi := 63, lo := 48, acc := .rc }
/-- VL.LINK_RETRY.MISWIRE -/
def vlLinkRetryMiswire : Fld := { reg := .vlLinkRetry, hi := 47, lo := 32, acc := .rc }
/-- VL.LINK_RETRY.RETRIES -/
def vlLinkRetryRetries : Fld := { reg := .vlLinkRetry, hi := 31, lo := 0, acc := .rc }
/-- VL.LINK_QUEUE.OCC -/
def vlLinkQueueOcc : Fld := { reg := .vlLinkQueue, hi := 7, lo := 0, acc := .ro, n := 8, step := 8 }
/-- EN.CFG.LOCKED -/
def enCfgLocked : Fld := { reg := .enCfg, hi := 16, lo := 16, acc := .ro }
/-- EN.CFG.LG_MODE -/
def enCfgLgMode : Fld := { reg := .enCfg, hi := 15, lo := 8, acc := .ro }
/-- EN.CFG.LG_ETH -/
def enCfgLgEth : Fld := { reg := .enCfg, hi := 3, lo := 0, acc := .ro }
/-- EN.EXC_BASE.FGA -/
def enExcBaseFga : Fld := { reg := .enExcBase, hi := 63, lo := 0, acc := .rw }
/-- EN.EXC_CTRL.VECTOR -/
def enExcCtrlVector : Fld := { reg := .enExcCtrl, hi := 42, lo := 32, acc := .rw }
/-- EN.EXC_CTRL.SIZE -/
def enExcCtrlSize : Fld := { reg := .enExcCtrl, hi := 7, lo := 4, acc := .rw }
/-- EN.EXC_CTRL.ENABLE -/
def enExcCtrlEnable : Fld := { reg := .enExcCtrl, hi := 0, lo := 0, acc := .rw }
/-- EN.EXC_TAIL.PHASE -/
def enExcTailPhase : Fld := { reg := .enExcTail, hi := 16, lo := 16, acc := .ro, rst := 0x1 }
/-- EN.EXC_TAIL.TAIL -/
def enExcTailTail : Fld := { reg := .enExcTail, hi := 15, lo := 0, acc := .ro }
/-- EN.EXC_HEAD.HEAD -/
def enExcHeadHead : Fld := { reg := .enExcHead, hi := 15, lo := 0, acc := .rw }
/-- EN.EXC_DROP.FRAMES -/
def enExcDropFrames : Fld := { reg := .enExcDrop, hi := 47, lo := 0, acc := .rc }
/-- EN.EXT_BASE.FGA -/
def enExtBaseFga : Fld := { reg := .enExtBase, hi := 63, lo := 0, acc := .rw }
/-- EN.EXT_CTRL.SIZE -/
def enExtCtrlSize : Fld := { reg := .enExtCtrl, hi := 7, lo := 4, acc := .rw }
/-- EN.EXT_CTRL.ENABLE -/
def enExtCtrlEnable : Fld := { reg := .enExtCtrl, hi := 0, lo := 0, acc := .rw }
/-- EN.EXT_TAIL.TAIL -/
def enExtTailTail : Fld := { reg := .enExtTail, hi := 15, lo := 0, acc := .rw }
/-- EN.EXT_HEAD.HEAD -/
def enExtHeadHead : Fld := { reg := .enExtHead, hi := 15, lo := 0, acc := .ro }
/-- EN.PORT_CFG.MAX_FRAME -/
def enPortCfgMaxFrame : Fld := { reg := .enPortCfg, hi := 63, lo := 50, acc := .rwl, rst := 0x900 }
/-- EN.PORT_CFG.VID -/
def enPortCfgVid : Fld := { reg := .enPortCfg, hi := 49, lo := 38, acc := .rwl }
/-- EN.PORT_CFG.VLAN_TX -/
def enPortCfgVlanTx : Fld := { reg := .enPortCfg, hi := 37, lo := 37, acc := .rwl }
/-- EN.PORT_CFG.PHY -/
def enPortCfgPhy : Fld := { reg := .enPortCfg, hi := 1, lo := 1, acc := .rwl }
/-- EN.PORT_CFG.ENABLE -/
def enPortCfgEnable : Fld := { reg := .enPortCfg, hi := 0, lo := 0, acc := .rwl, rst := 0x1 }
/-- EN.PORT_STATUS.LPI_RX -/
def enPortStatusLpiRx : Fld := { reg := .enPortStatus, hi := 11, lo := 11, acc := .ro }
/-- EN.PORT_STATUS.LPI_TX -/
def enPortStatusLpiTx : Fld := { reg := .enPortStatus, hi := 10, lo := 10, acc := .ro }
/-- EN.PORT_STATUS.LPI_CAP -/
def enPortStatusLpiCap : Fld := { reg := .enPortStatus, hi := 9, lo := 9, acc := .ro }
/-- EN.PORT_STATUS.MEDIUM -/
def enPortStatusMedium : Fld := { reg := .enPortStatus, hi := 8, lo := 7, acc := .ro }
/-- EN.PORT_STATUS.STATE -/
def enPortStatusState : Fld := { reg := .enPortStatus, hi := 3, lo := 0, acc := .ro }
/-- EN.MAC_ADDR.ADDR -/
def enMacAddrAddr : Fld := { reg := .enMacAddr, hi := 47, lo := 0, acc := .rwl }
/-- EN.PRIO_MAP.PCP -/
def enPrioMapPcp : Fld := { reg := .enPrioMap, hi := 2, lo := 0, acc := .rwl, rst := 0xfac688, n := 8, step := 3 }
/-- EN.DSCP_MAP.DSCP -/
def enDscpMapDscp : Fld := { reg := .enDscpMap, hi := 5, lo := 0, acc := .rwl, n := 8, step := 6 }
/-- EN.TX_THRESH.CUR -/
def enTxThreshCur : Fld := { reg := .enTxThresh, hi := 47, lo := 32, acc := .ro, rst := 0x400 }
/-- EN.TX_THRESH.BASE -/
def enTxThreshBase : Fld := { reg := .enTxThresh, hi := 15, lo := 0, acc := .rw, rst := 0x400 }
/-- EN.LPI.TW_TX -/
def enLpiTwTx : Fld := { reg := .enLpi, hi := 63, lo := 48, acc := .rw }
/-- EN.LPI.IDLE_US -/
def enLpiIdleUs : Fld := { reg := .enLpi, hi := 47, lo := 32, acc := .rw, rst := 0xa }
/-- EN.LPI.WAKE_MASK -/
def enLpiWakeMask : Fld := { reg := .enLpi, hi := 31, lo := 24, acc := .rw }
/-- EN.LPI.ENABLE -/
def enLpiEnable : Fld := { reg := .enLpi, hi := 0, lo := 0, acc := .rw }
/-- EN.TXQ_OCC.OCC -/
def enTxqOccOcc : Fld := { reg := .enTxqOcc, hi := 7, lo := 0, acc := .ro, n := 8, step := 8 }
/-- EN.GATE_CTRL.CONFIG_CHANGE -/
def enGateCtrlConfigChange : Fld := { reg := .enGateCtrl, hi := 63, lo := 63, acc := .wo }
/-- EN.GATE_CTRL.OPER_LEN -/
def enGateCtrlOperLen : Fld := { reg := .enGateCtrl, hi := 40, lo := 32, acc := .ro }
/-- EN.GATE_CTRL.ADMIN_LEN -/
def enGateCtrlAdminLen : Fld := { reg := .enGateCtrl, hi := 24, lo := 16, acc := .rw, rst := 0x1 }
/-- EN.GATE_CTRL.PENDING -/
def enGateCtrlPending : Fld := { reg := .enGateCtrl, hi := 1, lo := 1, acc := .ro }
/-- EN.GATE_CTRL.ENABLE -/
def enGateCtrlEnable : Fld := { reg := .enGateCtrl, hi := 0, lo := 0, acc := .rw }
/-- EN.GATE_BASE_S.SEC -/
def enGateBaseSSec : Fld := { reg := .enGateBaseS, hi := 47, lo := 0, acc := .rw }
/-- EN.GATE_BASE_NS.NS -/
def enGateBaseNsNs : Fld := { reg := .enGateBaseNs, hi := 29, lo := 0, acc := .rw }
/-- EN.GATE_CYCLE.EXT_NS -/
def enGateCycleExtNs : Fld := { reg := .enGateCycle, hi := 63, lo := 32, acc := .rw }
/-- EN.GATE_CYCLE.CYCLE_NS -/
def enGateCycleCycleNs : Fld := { reg := .enGateCycle, hi := 31, lo := 0, acc := .rw, rst := 0xf4240 }
/-- EN.GCL_SEL.LIST -/
def enGclSelList : Fld := { reg := .enGclSel, hi := 8, lo := 8, acc := .rw }
/-- EN.GCL_SEL.INDEX -/
def enGclSelIndex : Fld := { reg := .enGclSel, hi := 7, lo := 0, acc := .rw }
/-- EN.GCL_ENTRY.GATES -/
def enGclEntryGates : Fld := { reg := .enGclEntry, hi := 39, lo := 32, acc := .rw, rst := 0xff }
/-- EN.GCL_ENTRY.INTERVAL_NS -/
def enGclEntryIntervalNs : Fld := { reg := .enGclEntry, hi := 31, lo := 0, acc := .rw, rst := 0xf4240 }
/-- EN.STAT.COUNT -/
def enStatCount : Fld := { reg := .enStat, hi := 47, lo := 0, acc := .rc }
/-- BLK.CFG.LOCKED -/
def blkCfgLocked : Fld := { reg := .blkCfg, hi := 16, lo := 16, acc := .ro }
/-- BLK.CFG.RES_PER_BLK -/
def blkCfgResPerBlk : Fld := { reg := .blkCfg, hi := 12, lo := 8, acc := .rwl, rst := 0x8 }
/-- BLK.RES_COUNT.USED -/
def blkResCountUsed : Fld := { reg := .blkResCount, hi := 10, lo := 0, acc := .ro }
/-- BLK.RES_SEL.INDEX -/
def blkResSelIndex : Fld := { reg := .blkResSel, hi := 9, lo := 0, acc := .rw }
/-- BLK.RES_ENTRY.BASE_4K -/
def blkResEntryBase4k : Fld := { reg := .blkResEntry, hi := 63, lo := 32, acc := .ro }
/-- BLK.RES_ENTRY.STORE_4K -/
def blkResEntryStore4k : Fld := { reg := .blkResEntry, hi := 31, lo := 23, acc := .ro }
/-- BLK.RES_ENTRY.PAGES -/
def blkResEntryPages : Fld := { reg := .blkResEntry, hi := 22, lo := 14, acc := .ro }
/-- BLK.RES_ENTRY.STATE -/
def blkResEntryState : Fld := { reg := .blkResEntry, hi := 13, lo := 11, acc := .ro }
/-- BLK.RES_ENTRY.LOAD -/
def blkResEntryLoad : Fld := { reg := .blkResEntry, hi := 10, lo := 10, acc := .ro }
/-- BLK.RES_ENTRY.WB -/
def blkResEntryWb : Fld := { reg := .blkResEntry, hi := 9, lo := 9, acc := .ro }
/-- BLK.RES_ENTRY.BLOCK -/
def blkResEntryBlock : Fld := { reg := .blkResEntry, hi := 7, lo := 0, acc := .ro }
/-- BLK.RES_OWNER.FN -/
def blkResOwnerFn : Fld := { reg := .blkResOwner, hi := 7, lo := 0, acc := .ro }
/-- BLK.DIST_STATUS.IN_SERVICE -/
def blkDistStatusInService : Fld := { reg := .blkDistStatus, hi := 19, lo := 0, acc := .ro, rst := 0xfffff }
/-- BLK.STATUS.FN -/
def blkStatusFn : Fld := { reg := .blkStatus, hi := 55, lo := 48, acc := .ro }
/-- BLK.STATUS.ALLOC -/
def blkStatusAlloc : Fld := { reg := .blkStatus, hi := 40, lo := 40, acc := .ro }
/-- BLK.STATUS.LAST_STATUS -/
def blkStatusLastStatus : Fld := { reg := .blkStatus, hi := 15, lo := 8, acc := .ro }
/-- BLK.STATUS.STATE -/
def blkStatusState : Fld := { reg := .blkStatus, hi := 2, lo := 0, acc := .ro }
/-- BLK.FLAGS.NAN_GEN -/
def blkFlagsNanGen : Fld := { reg := .blkFlags, hi := 3, lo := 3, acc := .w1c }
/-- BLK.FLAGS.ACC_OVF -/
def blkFlagsAccOvf : Fld := { reg := .blkFlags, hi := 2, lo := 2, acc := .w1c }
/-- BLK.FLAGS.CVT_SAT -/
def blkFlagsCvtSat : Fld := { reg := .blkFlags, hi := 1, lo := 1, acc := .w1c }
/-- BLK.FLAGS.CVT_NAN -/
def blkFlagsCvtNan : Fld := { reg := .blkFlags, hi := 0, lo := 0, acc := .w1c }
/-- BLK.FMT_SEL.WORD -/
def blkFmtSelWord : Fld := { reg := .blkFmtSel, hi := 15, lo := 9, acc := .rw }
/-- BLK.FMT_SEL.KIND -/
def blkFmtSelKind : Fld := { reg := .blkFmtSel, hi := 8, lo := 8, acc := .rw }
/-- BLK.FMT_SEL.SLOT -/
def blkFmtSelSlot : Fld := { reg := .blkFmtSel, hi := 7, lo := 0, acc := .rw }
/-- BLK.FMT_DATA.DATA -/
def blkFmtDataData : Fld := { reg := .blkFmtData, hi := 63, lo := 0, acc := .ro }
/-- BLK.RES_USED.ENTRIES -/
def blkResUsedEntries : Fld := { reg := .blkResUsed, hi := 4, lo := 0, acc := .ro }
/-- BLK.SEQ_CTRL.OP -/
def blkSeqCtrlOp : Fld := { reg := .blkSeqCtrl, hi := 1, lo := 0, acc := .wo }
/-- BLK.SEQ_PC.PC -/
def blkSeqPcPc : Fld := { reg := .blkSeqPc, hi := 63, lo := 48, acc := .ro }
/-- BLK.SEQ_PC.FAULT_PC -/
def blkSeqPcFaultPc : Fld := { reg := .blkSeqPc, hi := 47, lo := 32, acc := .ro }
/-- BLK.SEQ_PC.REP -/
def blkSeqPcRep : Fld := { reg := .blkSeqPc, hi := 31, lo := 16, acc := .ro }
/-- SQ.CFG.LOCKED -/
def sqCfgLocked : Fld := { reg := .sqCfg, hi := 16, lo := 16, acc := .ro }
/-- SQ.CFG.TMO_MS -/
def sqCfgTmoMs : Fld := { reg := .sqCfg, hi := 15, lo := 0, acc := .rwl, rst := 0x3e8 }
/-- SQ.USE.ACTIVE -/
def sqUseActive : Fld := { reg := .sqUse, hi := 47, lo := 32, acc := .ro }
/-- SQ.USE.USED -/
def sqUseUsed : Fld := { reg := .sqUse, hi := 9, lo := 0, acc := .ro }
/-- SQ.FN_SEL.FN -/
def sqFnSelFn : Fld := { reg := .sqFnSel, hi := 7, lo := 0, acc := .rw }
/-- SQ.FN_USE.SHARE -/
def sqFnUseShare : Fld := { reg := .sqFnUse, hi := 41, lo := 32, acc := .ro }
/-- SQ.FN_USE.USED -/
def sqFnUseUsed : Fld := { reg := .sqFnUse, hi := 25, lo := 16, acc := .ro }
/-- SQ.FN_USE.ACTIVE -/
def sqFnUseActive : Fld := { reg := .sqFnUse, hi := 7, lo := 0, acc := .ro }
/-- SQ.CNT.FAILED -/
def sqCntFailed : Fld := { reg := .sqCnt, hi := 63, lo := 32, acc := .rc }
/-- SQ.CNT.DONE -/
def sqCntDone : Fld := { reg := .sqCnt, hi := 31, lo := 0, acc := .rc }
/-- SQ.RECOMP.CHUNKS -/
def sqRecompChunks : Fld := { reg := .sqRecomp, hi := 31, lo := 0, acc := .rc }
/-- HBM.POOL.TOTAL -/
def hbmPoolTotal : Fld := { reg := .hbmPool, hi := 50, lo := 32, acc := .ro }
/-- HBM.POOL.FREE -/
def hbmPoolFree : Fld := { reg := .hbmPool, hi := 18, lo := 0, acc := .ro }
/-- HBM.STATUS.TEMP -/
def hbmStatusTemp : Fld := { reg := .hbmStatus, hi := 47, lo := 40, acc := .ro }
/-- HBM.STATUS.LEVEL -/
def hbmStatusLevel : Fld := { reg := .hbmStatus, hi := 33, lo := 32, acc := .ro }
/-- HBM.STATUS.POISONED -/
def hbmStatusPoisoned : Fld := { reg := .hbmStatus, hi := 31, lo := 13, acc := .ro }
/-- HBM.STATUS.REPAIRS -/
def hbmStatusRepairs : Fld := { reg := .hbmStatus, hi := 7, lo := 0, acc := .ro }
/-- HBM.PC_RETIRED.MASK -/
def hbmPcRetiredMask : Fld := { reg := .hbmPcRetired, hi := 63, lo := 0, acc := .ro }
/-- HBM.ECC_CNT.CORRECTED -/
def hbmEccCntCorrected : Fld := { reg := .hbmEccCnt, hi := 63, lo := 32, acc := .rc }
/-- HBM.ECC_CNT.UNCORRECTED -/
def hbmEccCntUncorrected : Fld := { reg := .hbmEccCnt, hi := 31, lo := 0, acc := .rc }
/-- HBM.ECC_LOG.VALID -/
def hbmEccLogValid : Fld := { reg := .hbmEccLog, hi := 63, lo := 63, acc := .w1c }
/-- HBM.ECC_LOG.BEYOND -/
def hbmEccLogBeyond : Fld := { reg := .hbmEccLog, hi := 62, lo := 62, acc := .ro }
/-- HBM.ECC_LOG.SCRUB -/
def hbmEccLogScrub : Fld := { reg := .hbmEccLog, hi := 61, lo := 61, acc := .ro }
/-- HBM.ECC_LOG.PC -/
def hbmEccLogPc : Fld := { reg := .hbmEccLog, hi := 53, lo := 48, acc := .ro }
/-- HBM.ECC_LOG.LANE -/
def hbmEccLogLane : Fld := { reg := .hbmEccLog, hi := 45, lo := 40, acc := .ro }
/-- HBM.ECC_LOG.LINE -/
def hbmEccLogLine : Fld := { reg := .hbmEccLog, hi := 35, lo := 6, acc := .ro }
/-- HBM.SCRUB.PASSES -/
def hbmScrubPasses : Fld := { reg := .hbmScrub, hi := 63, lo := 48, acc := .ro }
/-- HBM.SCRUB.PERIOD_H -/
def hbmScrubPeriodH : Fld := { reg := .hbmScrub, hi := 7, lo := 0, acc := .rwl, rst := 0x18 }
/-- HBM.ATOM.OPS -/
def hbmAtomOps : Fld := { reg := .hbmAtom, hi := 31, lo := 0, acc := .rc }
/-- INT.CFG.LOCKED -/
def intCfgLocked : Fld := { reg := .intCfg, hi := 16, lo := 16, acc := .ro }
/-- INT.CFG.AUTH_MAX -/
def intCfgAuthMax : Fld := { reg := .intCfg, hi := 3, lo := 0, acc := .rwl, rst := 0x4 }
/-- INT.CIPH_CNT.CIPHER_FAULTS -/
def intCiphCntCipherFaults : Fld := { reg := .intCiphCnt, hi := 63, lo := 48, acc := .rc }
/-- INT.CIPH_CNT.EPOCH_DROP -/
def intCiphCntEpochDrop : Fld := { reg := .intCiphCnt, hi := 47, lo := 24, acc := .rc }
/-- INT.CIPH_CNT.AUTH_FAIL -/
def intCiphCntAuthFail : Fld := { reg := .intCiphCnt, hi := 23, lo := 0, acc := .rc }
/-- INT.IC_CTRL.FN -/
def intIcCtrlFn : Fld := { reg := .intIcCtrl, hi := 55, lo := 48, acc := .rw }
/-- INT.IC_CTRL.VECTOR -/
def intIcCtrlVector : Fld := { reg := .intIcCtrl, hi := 42, lo := 32, acc := .rw }
/-- INT.IC_CTRL.HALT -/
def intIcCtrlHalt : Fld := { reg := .intIcCtrl, hi := 3, lo := 3, acc := .rw }
/-- INT.IC_CTRL.ALIVE_EN -/
def intIcCtrlAliveEn : Fld := { reg := .intIcCtrl, hi := 2, lo := 2, acc := .rw }
/-- INT.IC_CTRL.POLY -/
def intIcCtrlPoly : Fld := { reg := .intIcCtrl, hi := 1, lo := 1, acc := .rw }
/-- INT.IC_CTRL.ENABLE -/
def intIcCtrlEnable : Fld := { reg := .intIcCtrl, hi := 0, lo := 0, acc := .rw }
/-- INT.IC_SRC.SRC_KIND -/
def intIcSrcSrcKind : Fld := { reg := .intIcSrc, hi := 34, lo := 32, acc := .rw }
/-- INT.IC_SRC.INDEX -/
def intIcSrcIndex : Fld := { reg := .intIcSrc, hi := 19, lo := 0, acc := .rw }
/-- INT.IC_EXP_LEN.LEN -/
def intIcExpLenLen : Fld := { reg := .intIcExpLen, hi := 31, lo := 0, acc := .rw }
/-- INT.IC_EXP_VAL.VALUE -/
def intIcExpValValue : Fld := { reg := .intIcExpVal, hi := 63, lo := 0, acc := .wo }
/-- INT.IC_RUNNING.RUNNING -/
def intIcRunningRunning : Fld := { reg := .intIcRunning, hi := 63, lo := 0, acc := .rw }
/-- INT.IC_COUNT.ALIVE_VALID -/
def intIcCountAliveValid : Fld := { reg := .intIcCount, hi := 48, lo := 48, acc := .rw }
/-- INT.IC_COUNT.LAST_ALIVE -/
def intIcCountLastAlive : Fld := { reg := .intIcCount, hi := 47, lo := 32, acc := .rw }
/-- INT.IC_COUNT.BYTES -/
def intIcCountBytes : Fld := { reg := .intIcCount, hi := 31, lo := 0, acc := .rw }
/-- INT.IC_STATUS.UNITS -/
def intIcStatusUnits : Fld := { reg := .intIcStatus, hi := 63, lo := 32, acc := .rc }
/-- INT.IC_STATUS.CODE -/
def intIcStatusCode : Fld := { reg := .intIcStatus, hi := 31, lo := 24, acc := .ro }
/-- INT.IC_STATUS.EXP_DEPTH -/
def intIcStatusExpDepth : Fld := { reg := .intIcStatus, hi := 18, lo := 16, acc := .ro }
/-- INT.IC_STATUS.SRC_GONE -/
def intIcStatusSrcGone : Fld := { reg := .intIcStatus, hi := 8, lo := 8, acc := .w1c }
/-- INT.IC_STATUS.EXP_OVF -/
def intIcStatusExpOvf : Fld := { reg := .intIcStatus, hi := 7, lo := 7, acc := .w1c }
/-- INT.IC_STATUS.OVERRUN -/
def intIcStatusOverrun : Fld := { reg := .intIcStatus, hi := 6, lo := 6, acc := .w1c }
/-- INT.IC_STATUS.UNCHECKED -/
def intIcStatusUnchecked : Fld := { reg := .intIcStatus, hi := 5, lo := 5, acc := .w1c }
/-- INT.IC_STATUS.GAP -/
def intIcStatusGap : Fld := { reg := .intIcStatus, hi := 4, lo := 4, acc := .w1c }
/-- INT.IC_STATUS.REPEAT -/
def intIcStatusRepeat : Fld := { reg := .intIcStatus, hi := 3, lo := 3, acc := .w1c }
/-- INT.IC_STATUS.MISMATCH -/
def intIcStatusMismatch : Fld := { reg := .intIcStatus, hi := 2, lo := 2, acc := .w1c }
/-- INT.IC_STATUS.STATE -/
def intIcStatusState : Fld := { reg := .intIcStatus, hi := 1, lo := 0, acc := .ro }
/-- INT.IC_RESULT.RESULT -/
def intIcResultResult : Fld := { reg := .intIcResult, hi := 63, lo := 0, acc := .ro }
/-- JNL.RECOVER.OP -/
def jnlRecoverOp : Fld := { reg := .jnlRecover, hi := 2, lo := 0, acc := .wo }
/-- JNL.RSTATUS.FAULT_CAUSE -/
def jnlRstatusFaultCause : Fld := { reg := .jnlRstatus, hi := 63, lo := 56, acc := .ro }
/-- JNL.RSTATUS.CODE -/
def jnlRstatusCode : Fld := { reg := .jnlRstatus, hi := 15, lo := 8, acc := .ro }
/-- JNL.RSTATUS.FAIL -/
def jnlRstatusFail : Fld := { reg := .jnlRstatus, hi := 2, lo := 2, acc := .ro }
/-- JNL.RSTATUS.DRAINING -/
def jnlRstatusDraining : Fld := { reg := .jnlRstatus, hi := 1, lo := 1, acc := .ro }
/-- JNL.RSTATUS.RECOVERING -/
def jnlRstatusRecovering : Fld := { reg := .jnlRstatus, hi := 0, lo := 0, acc := .ro }
/-- JNL.FLOG.VALID -/
def jnlFlogValid : Fld := { reg := .jnlFlog, hi := 63, lo := 63, acc := .w1c }
/-- JNL.FLOG.KIND -/
def jnlFlogKind : Fld := { reg := .jnlFlog, hi := 62, lo := 59, acc := .ro }
/-- JNL.FLOG.INST -/
def jnlFlogInst : Fld := { reg := .jnlFlog, hi := 58, lo := 48, acc := .ro }
/-- JNL.FLOG.UNIT -/
def jnlFlogUnit : Fld := { reg := .jnlFlog, hi := 47, lo := 40, acc := .ro }
/-- JNL.FLOG.RESUME_US -/
def jnlFlogResumeUs : Fld := { reg := .jnlFlog, hi := 39, lo := 24, acc := .ro }
/-- JNL.FLOG.REPLAYED -/
def jnlFlogReplayed : Fld := { reg := .jnlFlog, hi := 23, lo := 0, acc := .ro }
/-- JNL.FCNT.COUNT -/
def jnlFcntCount : Fld := { reg := .jnlFcnt, hi := 7, lo := 0, acc := .rc, n := 8, step := 8 }
/-- JNL.SLICE.HWM -/
def jnlSliceHwm : Fld := { reg := .jnlSlice, hi := 48, lo := 32, acc := .rc }
/-- JNL.SLICE.FREE -/
def jnlSliceFree : Fld := { reg := .jnlSlice, hi := 16, lo := 0, acc := .ro, rst := 0x10000 }
/-- JNL.REC_SEL.INDEX -/
def jnlRecSelIndex : Fld := { reg := .jnlRecSel, hi := 17, lo := 0, acc := .rw }
/-- JNL.REC_DATA.DATA -/
def jnlRecDataData : Fld := { reg := .jnlRecData, hi := 63, lo := 0, acc := .ro }
/-- JNL.CNT.ABORTED -/
def jnlCntAborted : Fld := { reg := .jnlCnt, hi := 63, lo := 32, acc := .rc }
/-- JNL.CNT.REPLAYED -/
def jnlCntReplayed : Fld := { reg := .jnlCnt, hi := 31, lo := 0, acc := .rc }
/-- TEL.CFG.MODE -/
def telCfgMode : Fld := { reg := .telCfg, hi := 0, lo := 0, acc := .ro }
/-- TEL.FN_SEL.FN -/
def telFnSelFn : Fld := { reg := .telFnSel, hi := 7, lo := 0, acc := .rw }
/-- TEL.BW_CFG.ENABLE -/
def telBwCfgEnable : Fld := { reg := .telBwCfg, hi := 63, lo := 63, acc := .rw }
/-- TEL.BW_CFG.WIN_US -/
def telBwCfgWinUs : Fld := { reg := .telBwCfg, hi := 51, lo := 32, acc := .rw, rst := 0x3e8 }
/-- TEL.BW_CFG.PORT -/
def telBwCfgPort : Fld := { reg := .telBwCfg, hi := 5, lo := 0, acc := .rw }
/-- TEL.BW_RX.SEQ -/
def telBwRxSeq : Fld := { reg := .telBwRx, hi := 63, lo := 48, acc := .ro }
/-- TEL.BW_RX.BYTES -/
def telBwRxBytes : Fld := { reg := .telBwRx, hi := 47, lo := 0, acc := .ro }
/-- TEL.BW_TX.SEQ -/
def telBwTxSeq : Fld := { reg := .telBwTx, hi := 63, lo := 48, acc := .ro }
/-- TEL.BW_TX.BYTES -/
def telBwTxBytes : Fld := { reg := .telBwTx, hi := 47, lo := 0, acc := .ro }
/-- TEL.BW_PEAK.RX_PEAK -/
def telBwPeakRxPeak : Fld := { reg := .telBwPeak, hi := 63, lo := 32, acc := .rc }
/-- TEL.BW_PEAK.TX_PEAK -/
def telBwPeakTxPeak : Fld := { reg := .telBwPeak, hi := 31, lo := 0, acc := .rc }
/-- BIST.CTRL.KIND_EN -/
def bistCtrlKindEn : Fld := { reg := .bistCtrl, hi := 5, lo := 1, acc := .rw, rst := 0x1f }
/-- BIST.CTRL.ENABLE -/
def bistCtrlEnable : Fld := { reg := .bistCtrl, hi := 0, lo := 0, acc := .rw, rst := 0x1 }
/-- BIST.CNT.FAILED -/
def bistCntFailed : Fld := { reg := .bistCnt, hi := 63, lo := 48, acc := .rc }
/-- BIST.CNT.FORCED -/
def bistCntForced : Fld := { reg := .bistCnt, hi := 47, lo := 32, acc := .rc }
/-- BIST.CNT.RUN -/
def bistCntRun : Fld := { reg := .bistCnt, hi := 31, lo := 0, acc := .rc }
/-- BIST.DEFER.DEFERRED -/
def bistDeferDeferred : Fld := { reg := .bistDefer, hi := 31, lo := 0, acc := .rc }
/-- BIST.LOG.VALID -/
def bistLogValid : Fld := { reg := .bistLog, hi := 63, lo := 63, acc := .w1c }
/-- BIST.LOG.KIND -/
def bistLogKind : Fld := { reg := .bistLog, hi := 62, lo := 60, acc := .ro }
/-- BIST.LOG.ACTION -/
def bistLogAction : Fld := { reg := .bistLog, hi := 59, lo := 57, acc := .ro }
/-- BIST.LOG.UNIT -/
def bistLogUnit : Fld := { reg := .bistLog, hi := 47, lo := 32, acc := .ro }
/-- BIST.LOG.DETAIL -/
def bistLogDetail : Fld := { reg := .bistLog, hi := 31, lo := 0, acc := .ro }
/-- BIST.REPAIR.FUSES_FREE -/
def bistRepairFusesFree : Fld := { reg := .bistRepair, hi := 63, lo := 48, acc := .ro }
/-- BIST.REPAIR.PENDING -/
def bistRepairPending : Fld := { reg := .bistRepair, hi := 47, lo := 32, acc := .ro }
/-- BIST.REPAIR.HARD -/
def bistRepairHard : Fld := { reg := .bistRepair, hi := 31, lo := 16, acc := .ro }
/-- BIST.REPAIR.SOFT -/
def bistRepairSoft : Fld := { reg := .bistRepair, hi := 15, lo := 0, acc := .ro }
/-- BIST.CMD.CONFIRM -/
def bistCmdConfirm : Fld := { reg := .bistCmd, hi := 63, lo := 48, acc := .wo }
/-- BIST.CMD.OP -/
def bistCmdOp : Fld := { reg := .bistCmd, hi := 1, lo := 0, acc := .wo }
/-- BIST.CMD_STATUS.CODE -/
def bistCmdStatusCode : Fld := { reg := .bistCmdStatus, hi := 15, lo := 8, acc := .ro }
/-- BIST.CMD_STATUS.FAIL -/
def bistCmdStatusFail : Fld := { reg := .bistCmdStatus, hi := 1, lo := 1, acc := .ro }
/-- BIST.CMD_STATUS.BUSY -/
def bistCmdStatusBusy : Fld := { reg := .bistCmdStatus, hi := 0, lo := 0, acc := .ro }
/-- MGT.I3C_STATUS.EID -/
def mgtI3cStatusEid : Fld := { reg := .mgtI3cStatus, hi := 23, lo := 16, acc := .ro }
/-- MGT.I3C_STATUS.DYN_ADDR -/
def mgtI3cStatusDynAddr : Fld := { reg := .mgtI3cStatus, hi := 14, lo := 8, acc := .ro }
/-- MGT.I3C_STATUS.STATIC_ADDR -/
def mgtI3cStatusStaticAddr : Fld := { reg := .mgtI3cStatus, hi := 7, lo := 1, acc := .ro }
/-- MGT.I3C_STATUS.ASSIGNED -/
def mgtI3cStatusAssigned : Fld := { reg := .mgtI3cStatus, hi := 0, lo := 0, acc := .ro }
/-- MGT.UART_CFG.HOST -/
def mgtUartCfgHost : Fld := { reg := .mgtUartCfg, hi := 16, lo := 16, acc := .rw }
/-- MGT.UART_CFG.DIV -/
def mgtUartCfgDiv : Fld := { reg := .mgtUartCfg, hi := 15, lo := 0, acc := .rw, rst := 0x10f }
/-- MGT.UART_STATUS.BREAKS -/
def mgtUartStatusBreaks : Fld := { reg := .mgtUartStatus, hi := 63, lo := 48, acc := .rc }
/-- MGT.UART_STATUS.FRAMING -/
def mgtUartStatusFraming : Fld := { reg := .mgtUartStatus, hi := 47, lo := 32, acc := .rc }
/-- MGT.UART_STATUS.OVERRUNS -/
def mgtUartStatusOverruns : Fld := { reg := .mgtUartStatus, hi := 31, lo := 16, acc := .rc }
/-- MGT.UART_STATUS.RX_LEVEL -/
def mgtUartStatusRxLevel : Fld := { reg := .mgtUartStatus, hi := 15, lo := 8, acc := .ro }
/-- MGT.UART_STATUS.TX_LEVEL -/
def mgtUartStatusTxLevel : Fld := { reg := .mgtUartStatus, hi := 7, lo := 0, acc := .ro }
/-- MGT.UART_TX.DATA -/
def mgtUartTxData : Fld := { reg := .mgtUartTx, hi := 7, lo := 0, acc := .wo }
/-- MGT.UART_RX.FE -/
def mgtUartRxFe : Fld := { reg := .mgtUartRx, hi := 9, lo := 9, acc := .rc }
/-- MGT.UART_RX.VALID -/
def mgtUartRxValid : Fld := { reg := .mgtUartRx, hi := 8, lo := 8, acc := .rc }
/-- MGT.UART_RX.DATA -/
def mgtUartRxData : Fld := { reg := .mgtUartRx, hi := 7, lo := 0, acc := .rc }
/-- APT.CTRL.ERR_MODE -/
def aptCtrlErrMode : Fld := { reg := .aptCtrl, hi := 8, lo := 8, acc := .rw }
/-- APT.CTRL.RD_DEADLINE -/
def aptCtrlRdDeadline : Fld := { reg := .aptCtrl, hi := 7, lo := 4, acc := .rw, rst := 0xa }
/-- APT.CTRL.ENABLE -/
def aptCtrlEnable : Fld := { reg := .aptCtrl, hi := 0, lo := 0, acc := .rw }
/-- APT.INDEX.SLOT -/
def aptIndexSlot : Fld := { reg := .aptIndex, hi := 14, lo := 0, acc := .rw }
/-- APT.ENTRY_HI.QP -/
def aptEntryHiQp : Fld := { reg := .aptEntryHi, hi := 19, lo := 0, acc := .rw }
/-- APT.ENTRY_LO.WKEY -/
def aptEntryLoWkey : Fld := { reg := .aptEntryLo, hi := 63, lo := 32, acc := .rw }
/-- APT.ENTRY_LO.WOFF -/
def aptEntryLoWoff : Fld := { reg := .aptEntryLo, hi := 31, lo := 11, acc := .rw }
/-- APT.ENTRY_LO.W -/
def aptEntryLoW : Fld := { reg := .aptEntryLo, hi := 2, lo := 2, acc := .rw }
/-- APT.ENTRY_LO.R -/
def aptEntryLoR : Fld := { reg := .aptEntryLo, hi := 1, lo := 1, acc := .rw }
/-- APT.ENTRY_LO.V -/
def aptEntryLoV : Fld := { reg := .aptEntryLo, hi := 0, lo := 0, acc := .rw }
/-- APT.STATUS.OUT_READS -/
def aptStatusOutReads : Fld := { reg := .aptStatus, hi := 40, lo := 32, acc := .ro }
/-- APT.STATUS.LAST_STATUS -/
def aptStatusLastStatus : Fld := { reg := .aptStatus, hi := 15, lo := 8, acc := .ro }
/-- APT.STATUS.FENCE_PEND -/
def aptStatusFencePend : Fld := { reg := .aptStatus, hi := 2, lo := 2, acc := .ro }
/-- APT.STATUS.LAST_FAIL -/
def aptStatusLastFail : Fld := { reg := .aptStatus, hi := 1, lo := 1, acc := .ro }
/-- APT.STATUS.BUSY -/
def aptStatusBusy : Fld := { reg := .aptStatus, hi := 0, lo := 0, acc := .ro }
/-- APT.ERR_LOG.VALID -/
def aptErrLogValid : Fld := { reg := .aptErrLog, hi := 63, lo := 63, acc := .w1c }
/-- APT.ERR_LOG.WRITE -/
def aptErrLogWrite : Fld := { reg := .aptErrLog, hi := 62, lo := 62, acc := .ro }
/-- APT.ERR_LOG.STATUS -/
def aptErrLogStatus : Fld := { reg := .aptErrLog, hi := 55, lo := 48, acc := .ro }
/-- APT.ERR_LOG.AO -/
def aptErrLogAo : Fld := { reg := .aptErrLog, hi := 35, lo := 0, acc := .ro }
/-- APT.ERR_COUNT.WRITES -/
def aptErrCountWrites : Fld := { reg := .aptErrCount, hi := 63, lo := 32, acc := .rc }
/-- APT.ERR_COUNT.READS -/
def aptErrCountReads : Fld := { reg := .aptErrCount, hi := 31, lo := 0, acc := .rc }
/-- XLF.FB_BASE.BASE -/
def xlfFbBaseBase : Fld := { reg := .xlfFbBase, hi := 63, lo := 12, acc := .rw }
/-- XLF.FB_BASE.SIZE -/
def xlfFbBaseSize : Fld := { reg := .xlfFbBase, hi := 3, lo := 0, acc := .rw }
/-- XLF.FB_CTRL.BATCH_US -/
def xlfFbCtrlBatchUs : Fld := { reg := .xlfFbCtrl, hi := 63, lo := 48, acc := .rw, rst := 0x14 }
/-- XLF.FB_CTRL.BATCH_MAX -/
def xlfFbCtrlBatchMax : Fld := { reg := .xlfFbCtrl, hi := 47, lo := 32, acc := .rw, rst := 0x40 }
/-- XLF.FB_CTRL.VECTOR -/
def xlfFbCtrlVector : Fld := { reg := .xlfFbCtrl, hi := 18, lo := 8, acc := .rw }
/-- XLF.FB_CTRL.HOT_EN -/
def xlfFbCtrlHotEn : Fld := { reg := .xlfFbCtrl, hi := 1, lo := 1, acc := .rw }
/-- XLF.FB_CTRL.ENABLE -/
def xlfFbCtrlEnable : Fld := { reg := .xlfFbCtrl, hi := 0, lo := 0, acc := .rw }
/-- XLF.FB_TAIL.PHASE -/
def xlfFbTailPhase : Fld := { reg := .xlfFbTail, hi := 16, lo := 16, acc := .ro, rst := 0x1 }
/-- XLF.FB_TAIL.TAIL -/
def xlfFbTailTail : Fld := { reg := .xlfFbTail, hi := 15, lo := 0, acc := .ro }
/-- XLF.FB_HEAD.HEAD -/
def xlfFbHeadHead : Fld := { reg := .xlfFbHead, hi := 15, lo := 0, acc := .rw }
/-- XLF.FB_STATUS.PARKED -/
def xlfFbStatusParked : Fld := { reg := .xlfFbStatus, hi := 39, lo := 20, acc := .ro }
/-- XLF.FB_STATUS.LAST_BATCH -/
def xlfFbStatusLastBatch : Fld := { reg := .xlfFbStatus, hi := 19, lo := 4, acc := .ro, rst := 0xffff }
/-- XLF.FB_STATUS.RING_ERR -/
def xlfFbStatusRingErr : Fld := { reg := .xlfFbStatus, hi := 2, lo := 2, acc := .w1c }
/-- XLF.FB_STATUS.OVF -/
def xlfFbStatusOvf : Fld := { reg := .xlfFbStatus, hi := 1, lo := 1, acc := .w1c }
/-- XLF.FB_STATUS.OPEN -/
def xlfFbStatusOpen : Fld := { reg := .xlfFbStatus, hi := 0, lo := 0, acc := .ro }
/-- XLF.REPLAY.ABORT -/
def xlfReplayAbort : Fld := { reg := .xlfReplay, hi := 63, lo := 63, acc := .wo }
/-- XLF.REPLAY.UPTO -/
def xlfReplayUpto : Fld := { reg := .xlfReplay, hi := 15, lo := 0, acc := .wo }
/-- XLF.AC_CTRL.THRESH -/
def xlfAcCtrlThresh : Fld := { reg := .xlfAcCtrl, hi := 63, lo := 48, acc := .rw }
/-- XLF.AC_CTRL.DECAY -/
def xlfAcCtrlDecay : Fld := { reg := .xlfAcCtrl, hi := 47, lo := 44, acc := .rw, rst := 0xf }
/-- XLF.AC_CTRL.CLEAR -/
def xlfAcCtrlClear : Fld := { reg := .xlfAcCtrl, hi := 1, lo := 1, acc := .wo }
/-- XLF.AC_CTRL.ENABLE -/
def xlfAcCtrlEnable : Fld := { reg := .xlfAcCtrl, hi := 0, lo := 0, acc := .rw }
/-- XLF.AC_TABLE.TABLE_FGA -/
def xlfAcTableTableFga : Fld := { reg := .xlfAcTable, hi := 63, lo := 0, acc := .rw }
/-- XLF.AC_RANGE.BASE_HA -/
def xlfAcRangeBaseHa : Fld := { reg := .xlfAcRange, hi := 63, lo := 21, acc := .rw }
/-- XLF.AC_RANGE.RCOUNT -/
def xlfAcRangeRcount : Fld := { reg := .xlfAcRange, hi := 15, lo := 0, acc := .rw }
/-- HPF.STATUS.ATTACH_OK -/
def hpfStatusAttachOk : Fld := { reg := .hpfStatus, hi := 7, lo := 7, acc := .w1c }
/-- HPF.STATUS.ATTACH_LOCK -/
def hpfStatusAttachLock : Fld := { reg := .hpfStatus, hi := 6, lo := 6, acc := .ro }
/-- HPF.STATUS.STATE -/
def hpfStatusState : Fld := { reg := .hpfStatus, hi := 2, lo := 0, acc := .ro, rst := 0x1 }
/-- HPF.ATTACH_TOKEN.TOKEN -/
def hpfAttachTokenToken : Fld := { reg := .hpfAttachToken, hi := 63, lo := 0, acc := .rc }
/-- HPF.ATTACH.TOKEN -/
def hpfAttachToken : Fld := { reg := .hpfAttach, hi := 63, lo := 0, acc := .wo }
/-- QF.SEL.QUEUE -/
def qfSelQueue : Fld := { reg := .qfSel, hi := 11, lo := 0, acc := .rw }
/-- QF.BASE.BASE -/
def qfBaseBase : Fld := { reg := .qfBase, hi := 63, lo := 6, acc := .rw }
/-- QF.CFG.VECTOR -/
def qfCfgVector : Fld := { reg := .qfCfg, hi := 42, lo := 32, acc := .rw }
/-- QF.CFG.POLL_US -/
def qfCfgPollUs : Fld := { reg := .qfCfg, hi := 31, lo := 16, acc := .rw }
/-- QF.CFG.PREFETCH -/
def qfCfgPrefetch : Fld := { reg := .qfCfg, hi := 13, lo := 8, acc := .rw, rst := 0x20 }
/-- QF.CFG.SIZE -/
def qfCfgSize : Fld := { reg := .qfCfg, hi := 7, lo := 4, acc := .rw }
/-- QF.CFG.PRIV -/
def qfCfgPriv : Fld := { reg := .qfCfg, hi := 2, lo := 2, acc := .rw }
/-- QF.CFG.MEDIUM -/
def qfCfgMedium : Fld := { reg := .qfCfg, hi := 1, lo := 1, acc := .rw }
/-- QF.CFG.ENABLE -/
def qfCfgEnable : Fld := { reg := .qfCfg, hi := 0, lo := 0, acc := .rw }
/-- QF.POS.OLDEST -/
def qfPosOldest : Fld := { reg := .qfPos, hi := 63, lo := 32, acc := .ro }
/-- QF.POS.TAIL -/
def qfPosTail : Fld := { reg := .qfPos, hi := 31, lo := 0, acc := .ro }
/-- QF.STATUS.CODE -/
def qfStatusCode : Fld := { reg := .qfStatus, hi := 15, lo := 8, acc := .ro }
/-- QF.STATUS.FETCH_ERR -/
def qfStatusFetchErr : Fld := { reg := .qfStatus, hi := 5, lo := 5, acc := .w1c }
/-- QF.STATUS.DB_ERR -/
def qfStatusDbErr : Fld := { reg := .qfStatus, hi := 4, lo := 4, acc := .w1c }
/-- QF.STATUS.STALLED -/
def qfStatusStalled : Fld := { reg := .qfStatus, hi := 3, lo := 3, acc := .ro }
/-- QF.STATUS.STATE -/
def qfStatusState : Fld := { reg := .qfStatus, hi := 2, lo := 0, acc := .ro }
/-- QF.SAMPLE.DELAY_NS -/
def qfSampleDelayNs : Fld := { reg := .qfSample, hi := 63, lo := 32, acc := .ro }
/-- QF.SAMPLE.DEPTH -/
def qfSampleDepth : Fld := { reg := .qfSample, hi := 16, lo := 0, acc := .ro }
/-- QF.SAMPLE_MAX.DELAY_MAX -/
def qfSampleMaxDelayMax : Fld := { reg := .qfSampleMax, hi := 63, lo := 32, acc := .rc }
/-- QF.SAMPLE_MAX.DEPTH_MAX -/
def qfSampleMaxDepthMax : Fld := { reg := .qfSampleMax, hi := 16, lo := 0, acc := .rc }
/-- QF.SAMPLE_SUM.COUNT -/
def qfSampleSumCount : Fld := { reg := .qfSampleSum, hi := 63, lo := 40, acc := .rc }
/-- QF.SAMPLE_SUM.DEPTH_SUM -/
def qfSampleSumDepthSum : Fld := { reg := .qfSampleSum, hi := 39, lo := 0, acc := .rc }
/-- WINC.ARG0.VALUE -/
def wincArg0Value : Fld := { reg := .wincArg0, hi := 63, lo := 0, acc := .rw }
/-- WINC.ARG1.LENGTH -/
def wincArg1Length : Fld := { reg := .wincArg1, hi := 39, lo := 0, acc := .rw }
/-- WINC.ARG2.GRANT_NODE -/
def wincArg2GrantNode : Fld := { reg := .wincArg2, hi := 31, lo := 16, acc := .rw }
/-- WINC.ARG2.GRANT_FN -/
def wincArg2GrantFn : Fld := { reg := .wincArg2, hi := 15, lo := 8, acc := .rw }
/-- WINC.ARG2.GRANT -/
def wincArg2Grant : Fld := { reg := .wincArg2, hi := 3, lo := 2, acc := .rw }
/-- WINC.ARG2.W -/
def wincArg2W : Fld := { reg := .wincArg2, hi := 1, lo := 1, acc := .rw }
/-- WINC.ARG2.R -/
def wincArg2R : Fld := { reg := .wincArg2, hi := 0, lo := 0, acc := .rw }
/-- WINC.CMD.OP -/
def wincCmdOp : Fld := { reg := .wincCmd, hi := 34, lo := 32, acc := .wo }
/-- WINC.CMD.KEY -/
def wincCmdKey : Fld := { reg := .wincCmd, hi := 31, lo := 0, acc := .wo }
/-- WINC.STATUS.KEY -/
def wincStatusKey : Fld := { reg := .wincStatus, hi := 63, lo := 32, acc := .ro }
/-- WINC.STATUS.CODE -/
def wincStatusCode : Fld := { reg := .wincStatus, hi := 15, lo := 8, acc := .ro }
/-- WINC.STATUS.FAIL -/
def wincStatusFail : Fld := { reg := .wincStatus, hi := 1, lo := 1, acc := .ro }
/-- WINC.STATUS.BUSY -/
def wincStatusBusy : Fld := { reg := .wincStatus, hi := 0, lo := 0, acc := .ro }
/-- WINC.COUNT.IMPORTS -/
def wincCountImports : Fld := { reg := .wincCount, hi := 54, lo := 32, acc := .ro }
/-- WINC.COUNT.WINDOWS -/
def wincCountWindows : Fld := { reg := .wincCount, hi := 22, lo := 0, acc := .ro }
/-- QPC.ARG0.FGA -/
def qpcArg0Fga : Fld := { reg := .qpcArg0, hi := 63, lo := 0, acc := .rw }
/-- QPC.CMD.OP -/
def qpcCmdOp : Fld := { reg := .qpcCmd, hi := 34, lo := 32, acc := .wo }
/-- QPC.CMD.QP -/
def qpcCmdQp : Fld := { reg := .qpcCmd, hi := 19, lo := 0, acc := .wo }
/-- QPC.STATUS.QP -/
def qpcStatusQp : Fld := { reg := .qpcStatus, hi := 51, lo := 32, acc := .ro }
/-- QPC.STATUS.CODE -/
def qpcStatusCode : Fld := { reg := .qpcStatus, hi := 15, lo := 8, acc := .ro }
/-- QPC.STATUS.FAIL -/
def qpcStatusFail : Fld := { reg := .qpcStatus, hi := 1, lo := 1, acc := .ro }
/-- QPC.STATUS.BUSY -/
def qpcStatusBusy : Fld := { reg := .qpcStatus, hi := 0, lo := 0, acc := .ro }
/-- QPC.COUNT.QPS -/
def qpcCountQps : Fld := { reg := .qpcCount, hi := 20, lo := 0, acc := .ro }
/-- SEQF.SEL.BLOCK -/
def seqfSelBlock : Fld := { reg := .seqfSel, hi := 7, lo := 0, acc := .rw }
/-- SEQF.CTRL.OP -/
def seqfCtrlOp : Fld := { reg := .seqfCtrl, hi := 1, lo := 0, acc := .wo }
/-- SEQF.STATE.PC -/
def seqfStatePc : Fld := { reg := .seqfState, hi := 63, lo := 48, acc := .ro }
/-- SEQF.STATE.FAULT_PC -/
def seqfStateFaultPc : Fld := { reg := .seqfState, hi := 47, lo := 32, acc := .ro }
/-- SEQF.STATE.REP -/
def seqfStateRep : Fld := { reg := .seqfState, hi := 31, lo := 16, acc := .ro }
/-- SEQF.STATE.LAST_STATUS -/
def seqfStateLastStatus : Fld := { reg := .seqfState, hi := 15, lo := 8, acc := .ro }
/-- SEQF.STATE.STATE -/
def seqfStateState : Fld := { reg := .seqfState, hi := 2, lo := 0, acc := .ro }
/-- SEQF.SAMPLE.VALID -/
def seqfSampleValid : Fld := { reg := .seqfSample, hi := 63, lo := 63, acc := .rc }
/-- SEQF.SAMPLE.REP -/
def seqfSampleRep : Fld := { reg := .seqfSample, hi := 47, lo := 32, acc := .rc }
/-- SEQF.SAMPLE.PC -/
def seqfSamplePc : Fld := { reg := .seqfSample, hi := 15, lo := 0, acc := .rc }
/-- SEQF.SAMPLE_ITER.ITER -/
def seqfSampleIterIter : Fld := { reg := .seqfSampleIter, hi := 15, lo := 0, acc := .ro, n := 4, step := 16 }
/-- SEQF.CVT_FAIL.COUNT -/
def seqfCvtFailCount : Fld := { reg := .seqfCvtFail, hi := 31, lo := 0, acc := .rc }
/-- SQF.STATUS.SHARE -/
def sqfStatusShare : Fld := { reg := .sqfStatus, hi := 41, lo := 32, acc := .ro }
/-- SQF.STATUS.USED -/
def sqfStatusUsed : Fld := { reg := .sqfStatus, hi := 25, lo := 16, acc := .ro }
/-- SQF.STATUS.ACTIVE -/
def sqfStatusActive : Fld := { reg := .sqfStatus, hi := 7, lo := 0, acc := .ro }
/-- SQF.CNT.FAILED -/
def sqfCntFailed : Fld := { reg := .sqfCnt, hi := 63, lo := 32, acc := .rc }
/-- SQF.CNT.DONE -/
def sqfCntDone : Fld := { reg := .sqfCnt, hi := 31, lo := 0, acc := .rc }
/-- KEYF.ARG0.VALUE -/
def keyfArg0Value : Fld := { reg := .keyfArg0, hi := 63, lo := 0, acc := .rw }
/-- KEYF.ARG1.PAGES -/
def keyfArg1Pages : Fld := { reg := .keyfArg1, hi := 31, lo := 0, acc := .rw }
/-- KEYF.CMD.OP -/
def keyfCmdOp : Fld := { reg := .keyfCmd, hi := 35, lo := 32, acc := .wo }
/-- KEYF.CMD.EPOCH -/
def keyfCmdEpoch : Fld := { reg := .keyfCmd, hi := 9, lo := 8, acc := .wo }
/-- KEYF.CMD.REGION -/
def keyfCmdRegion : Fld := { reg := .keyfCmd, hi := 7, lo := 7, acc := .wo }
/-- KEYF.CMD.INDEX -/
def keyfCmdIndex : Fld := { reg := .keyfCmd, hi := 5, lo := 0, acc := .wo }
/-- KEYF.STATUS.CODE -/
def keyfStatusCode : Fld := { reg := .keyfStatus, hi := 15, lo := 8, acc := .ro }
/-- KEYF.STATUS.FAIL -/
def keyfStatusFail : Fld := { reg := .keyfStatus, hi := 1, lo := 1, acc := .ro }
/-- KEYF.STATUS.BUSY -/
def keyfStatusBusy : Fld := { reg := .keyfStatus, hi := 0, lo := 0, acc := .ro }
/-- KEYF.STATE.STATE -/
def keyfStateState : Fld := { reg := .keyfState, hi := 63, lo := 0, acc := .ro }
/-- KSK.TX_DATA.DATA -/
def kskTxDataData : Fld := { reg := .kskTxData, hi := 63, lo := 0, acc := .rw }
/-- KSK.STATUS.RX_COUNT -/
def kskStatusRxCount : Fld := { reg := .kskStatus, hi := 47, lo := 32, acc := .ro }
/-- KSK.STATUS.TX_FREE -/
def kskStatusTxFree : Fld := { reg := .kskStatus, hi := 31, lo := 16, acc := .ro }
/-- KSK.STATUS.RESYNC -/
def kskStatusResync : Fld := { reg := .kskStatus, hi := 3, lo := 3, acc := .w1c }
/-- KSK.STATUS.NO_KIOSK -/
def kskStatusNoKiosk : Fld := { reg := .kskStatus, hi := 2, lo := 2, acc := .ro, rst := 0x1 }
/-- KSK.STATUS.TX_REFUSED -/
def kskStatusTxRefused : Fld := { reg := .kskStatus, hi := 1, lo := 1, acc := .w1c }
/-- KSK.STATUS.RX_READY -/
def kskStatusRxReady : Fld := { reg := .kskStatus, hi := 0, lo := 0, acc := .ro }
/-- KSK.CTRL.VECTOR -/
def kskCtrlVector : Fld := { reg := .kskCtrl, hi := 42, lo := 32, acc := .rw }
/-- KSK.CTRL.IRQ_EN -/
def kskCtrlIrqEn : Fld := { reg := .kskCtrl, hi := 0, lo := 0, acc := .rw }
/-- KSK.RX_DATA.DATA -/
def kskRxDataData : Fld := { reg := .kskRxData, hi := 63, lo := 0, acc := .ro }
/-- TELF.CTRL.VECTOR -/
def telfCtrlVector : Fld := { reg := .telfCtrl, hi := 42, lo := 32, acc := .rw }
/-- TELF.CNT_CFG.ENABLE -/
def telfCntCfgEnable : Fld := { reg := .telfCntCfg, hi := 63, lo := 63, acc := .rw }
/-- TELF.CNT_CFG.INT_EN -/
def telfCntCfgIntEn : Fld := { reg := .telfCntCfg, hi := 62, lo := 62, acc := .rw }
/-- TELF.CNT_CFG.ALL -/
def telfCntCfgAll : Fld := { reg := .telfCntCfg, hi := 61, lo := 61, acc := .rw }
/-- TELF.CNT_CFG.INDEX -/
def telfCntCfgIndex : Fld := { reg := .telfCntCfg, hi := 35, lo := 16, acc := .rw }
/-- TELF.CNT_CFG.EVENT -/
def telfCntCfgEvent : Fld := { reg := .telfCntCfg, hi := 7, lo := 0, acc := .rw }
/-- TELF.CNT.OVF -/
def telfCntOvf : Fld := { reg := .telfCnt, hi := 63, lo := 63, acc := .w1c }
/-- TELF.CNT.COUNT -/
def telfCntCount : Fld := { reg := .telfCnt, hi := 47, lo := 0, acc := .rw }
/-- QDB.TAIL.TAIL -/
def qdbTailTail : Fld := { reg := .qdbTail, hi := 31, lo := 0, acc := .wo }
end F

/-- The fields of a register, highest first. -/
def Reg.fields : Reg → List Fld
  | .idCapUnits => [F.idCapUnitsTransport, F.idCapUnitsRouter, F.idCapUnitsSqInt, F.idCapUnitsSqFp, F.idCapUnitsHostPorts, F.idCapUnitsLaneGroups, F.idCapUnitsHbmStacks, F.idCapUnitsDistricts]
  | .idCapSizes => [F.idCapSizesFnPerPort, F.idCapSizesTpipes, F.idCapSizesLanes, F.idCapSizesSqMib, F.idCapSizesHbmGibStack, F.idCapSizesBlkPerDist]
  | .idNodeId => [F.idNodeIdValid, F.idNodeIdPosSrc, F.idNodeIdRack, F.idNodeIdPos]
  | .rstState => [F.rstStateSvcMs, F.rstStateEqMs, F.rstStateCause, F.rstStateStep, F.rstStateState]
  | .rstCmd => [F.rstCmdConfirm, F.rstCmdOp]
  | .rstCmdStatus => [F.rstCmdStatusCode, F.rstCmdStatusFail]
  | .rstCfg => [F.rstCfgLocked, F.rstCfgReleaseMs]
  | .clkpwrClkStatus => [F.clkpwrClkStatusPciePllLock, F.clkpwrClkStatusSerdesPllLock, F.clkpwrClkStatusHbmPllLock, F.clkpwrClkStatusMasterLockLost, F.clkpwrClkStatusMasterLock, F.clkpwrClkStatusRefclkOk]
  | .clkpwrDomState => [F.clkpwrDomStatePState, F.clkpwrDomStateLState, F.clkpwrDomStateHState, F.clkpwrDomStateDState]
  | .clkpwrDomReq => [F.clkpwrDomReqDomain, F.clkpwrDomReqOp]
  | .clkpwrDomReqStatus => [F.clkpwrDomReqStatusCode, F.clkpwrDomReqStatusFail, F.clkpwrDomReqStatusBusy]
  | .clkpwrGovCfg => [F.clkpwrGovCfgLocked, F.clkpwrGovCfgVector, F.clkpwrGovCfgHFloor, F.clkpwrGovCfgDFloor, F.clkpwrGovCfgHbmThrottle, F.clkpwrGovCfgTjThrottle, F.clkpwrGovCfgPkgLimitW]
  | .clkpwrGovStatus => [F.clkpwrGovStatusPkgW, F.clkpwrGovStatusHottest, F.clkpwrGovStatusStage, F.clkpwrGovStatusDDuty, F.clkpwrGovStatusHAllow, F.clkpwrGovStatusPHalf, F.clkpwrGovStatusCrit, F.clkpwrGovStatusAtFloor, F.clkpwrGovStatusThermal]
  | .clkpwrGovCnt => [F.clkpwrGovCntOver, F.clkpwrGovCntThrottled]
  | .clkpwrTempSel => [F.clkpwrTempSelSensor]
  | .clkpwrTemp => [F.clkpwrTempFailed, F.clkpwrTempMax, F.clkpwrTempTemp]
  | .clkpwrFtS => [F.clkpwrFtSSec]
  | .clkpwrFtNs => [F.clkpwrFtNsNs]
  | .clkpwrFtStep => [F.clkpwrFtStepOffset]
  | .clkpwrFtRate => [F.clkpwrFtRateSwSync, F.clkpwrFtRateRate]
  | .clkpwrFtCfg => [F.clkpwrFtCfgStepNs, F.clkpwrFtCfgLocked, F.clkpwrFtCfgSrc]
  | .clkpwrFtStatus => [F.clkpwrFtStatusSteps, F.clkpwrFtStatusOffsetNs, F.clkpwrFtStatusSync]
  | .imgStatus => [F.imgStatusTopoId, F.imgStatusCode, F.imgStatusSection, F.imgStatusReason, F.imgStatusBank, F.imgStatusAccepted]
  | .imgInfo => [F.imgInfoLen4k, F.imgInfoNsect, F.imgInfoFormat]
  | .imgUcal => [F.imgUcalReason, F.imgUcalBadEntry, F.imgUcalEntries, F.imgUcalState]
  | .imgCmd => [F.imgCmdOp]
  | .imgCmdStatus => [F.imgCmdStatusCode, F.imgCmdStatusFail, F.imgCmdStatusBusy]
  | .imgFwStatus => [F.imgFwStatusConfirmLeftS, F.imgFwStatusRbReason, F.imgFwStatusBank1, F.imgFwStatusBank0, F.imgFwStatusTriesLeft, F.imgFwStatusTrial, F.imgFwStatusRunBank]
  | .imgSvn => [F.imgSvnImgFused, F.imgSvnFwFused, F.imgSvnImgRun, F.imgSvnFwRun]
  | .imgStageSrc => [F.imgStageSrcFga]
  | .imgStageArg => [F.imgStageArgOffset4k, F.imgStageArgKind, F.imgStageArgLen]
  | .imgActS => [F.imgActSSec]
  | .imgActNs => [F.imgActNsDrain, F.imgActNsNs]
  | .imgFwCmd => [F.imgFwCmdOp]
  | .imgFwCmdStatus => [F.imgFwCmdStatusCode, F.imgFwCmdStatusFail, F.imgFwCmdStatusBusy]
  | .imgFwCfg => [F.imgFwCfgConfirmS]
  | .secStatus => [F.secStatusMehregRevoked, F.secStatusOwnerRevoked, F.secStatusOwnerSet, F.secStatusKekValid]
  | .hpPortCfg => [F.hpPortCfgLocked, F.hpPortCfgMaxRate, F.hpPortCfgBifurcate, F.hpPortCfgClassImg, F.hpPortCfgClassStrap, F.hpPortCfgMgrActive]
  | .hpLinkStatus => [F.hpLinkStatusDownCount, F.hpLinkStatusBelowMin, F.hpLinkStatusFlit, F.hpLinkStatusWidth, F.hpLinkStatusRate, F.hpLinkStatusState]
  | .hpCrash => [F.hpCrashWdogMs, F.hpCrashGraceS]
  | .hpFnSel => [F.hpFnSelIndex]
  | .hpFnInfo => [F.hpFnInfoBadTokens, F.hpFnInfoGraceLeft, F.hpFnInfoOutTags, F.hpFnInfoBme, F.hpFnInfoState]
  | .fnMode => [F.fnModeD, F.fnModeFrom, F.fnModeEqual]
  | .fnArg0 => [F.fnArg0Value]
  | .fnArg1 => [F.fnArg1Value]
  | .fnCmd => [F.fnCmdOp, F.fnCmdRes, F.fnCmdFn]
  | .fnStatus => [F.fnStatusCode, F.fnStatusFail, F.fnStatusBusy]
  | .fnSel => [F.fnSelRes, F.fnSelFn]
  | .fnUse => [F.fnUseLimit, F.fnUseHeld]
  | .fnEq => [F.fnEqEq]
  | .fnBase => [F.fnBaseBase]
  | .fnPool => [F.fnPoolTotal, F.fnPoolFree]
  | .fnRateTotal => [F.fnRateTotalTotal]
  | .fnKskDb => [F.fnKskDbRing, F.fnKskDbFn, F.fnKskDbIndex]
  | .fnKskCtrl => [F.fnKskCtrlVector, F.fnKskCtrlDbErr, F.fnKskCtrlLost]
  | .fnKskBase => [F.fnKskBaseBase, F.fnKskBaseSize]
  | .fnKskPos => [F.fnKskPosReqTail, F.fnKskPosReqHead, F.fnKskPosRspTail, F.fnKskPosRspHead]
  | .fnDlCtrl => [F.fnDlCtrlPages, F.fnDlCtrlActive, F.fnDlCtrlHostEn, F.fnDlCtrlHbmEn]
  | .fnDlHa => [F.fnDlHaBaseHa]
  | .fnDlBase0 => [F.fnDlBase0Fga]
  | .fnDlBase1 => [F.fnDlBase1Fga]
  | .fnDlCnt => [F.fnDlCntMiss]
  | .xlSel => [F.xlSelFn]
  | .xlCtxRoot => [F.xlCtxRootRoot, F.xlCtxRootMedium]
  | .xlCtxCtrl => [F.xlCtxCtrlLevels, F.xlCtxCtrlNsEn, F.xlCtxCtrlEnable]
  | .xlInvalAddr => [F.xlInvalAddrHa]
  | .xlInval => [F.xlInvalScope, F.xlInvalPages]
  | .xlInvalStatus => [F.xlInvalStatusDiscarded, F.xlInvalStatusBusy]
  | .qInval => [F.qInvalScope, F.qInvalQueue, F.qInvalSlot]
  | .qInvalStatus => [F.qInvalStatusDiscarded, F.qInvalStatusBusy]
  | .tpCfg => [F.tpCfgProbeUs, F.tpCfgAckUs, F.tpCfgReoPkts, F.tpCfgLocked, F.tpCfgSltPort]
  | .tpQpcCache => [F.tpQpcCacheMisses, F.tpQpcCacheHits]
  | .tpRcStatus => [F.tpRcStatusUsed]
  | .tpPipeCnt => [F.tpPipeCntDropMatch, F.tpPipeCntDropWindow, F.tpPipeCntDropMalformed, F.tpPipeCntNrSent]
  | .tpPipeRx => [F.tpPipeRxPkts]
  | .tpPipeTx => [F.tpPipeTxPkts]
  | .tpPipeRetx => [F.tpPipeRetxTimeout, F.tpPipeRetxFast]
  | .ccCfg => [F.ccCfgCnpUs, F.ccCfgSampleExp, F.ccCfgLocked, F.ccCfgEct]
  | .ccMark => [F.ccMarkThresh]
  | .ccTxsched => [F.ccTxschedStrict]
  | .ccTxweight => [F.ccTxweightQuantum]
  | .ccDscpColour0 => [F.ccDscpColour0Colour]
  | .ccDscpColour1 => [F.ccDscpColour1Colour]
  | .ccClassColour => [F.ccClassColourColour]
  | .ccShpSel => [F.ccShpSelKind, F.ccShpSelIndex]
  | .ccShpCfg => [F.ccShpCfgBurst, F.ccShpCfgCeil]
  | .ccShpState => [F.ccShpStateRate, F.ccShpStateCredit]
  | .ccShpCmd => [F.ccShpCmdClearDebt]
  | .ccMtrSel => [F.ccMtrSelFn, F.ccMtrSelKind]
  | .ccMtrRate => [F.ccMtrRateEir, F.ccMtrRateCir]
  | .ccMtrBurst => [F.ccMtrBurstEbs, F.ccMtrBurstCbs]
  | .ccMtrCtrl => [F.ccMtrCtrlRedPass, F.ccMtrCtrlYelMark, F.ccMtrCtrlAware, F.ccMtrCtrlEnable]
  | .ccMtrGreen => [F.ccMtrGreenPkts]
  | .ccMtrYellow => [F.ccMtrYellowPkts]
  | .ccMtrRed => [F.ccMtrRedPkts]
  | .ccProfRate => [F.ccProfRateRStep, F.ccProfRateRMin, F.ccProfRateInit]
  | .ccProfTime => [F.ccProfTimeHold, F.ccProfTimeTEpoch]
  | .ccProfCtrl => [F.ccProfCtrlDec, F.ccProfCtrlGrowMax, F.ccProfCtrlOverhead, F.ccProfCtrlClass, F.ccProfCtrlRttEn, F.ccProfCtrlEcnEn]
  | .ccProfRtt => [F.ccProfRttRttHigh, F.ccProfRttRttLow]
  | .ccTxqSample => [F.ccTxqSampleDelayNs, F.ccTxqSampleDepth]
  | .ccTxqMax => [F.ccTxqMaxDelayMax, F.ccTxqMaxDepthMax]
  | .vlCfg => [F.vlCfgE2eTmo, F.vlCfgClassPri, F.vlCfgHopMax, F.vlCfgLocked, F.vlCfgLgValir]
  | .vlRouteSel => [F.vlRouteSelDetour, F.vlRouteSelPos]
  | .vlRouteEntry => [F.vlRouteEntryEntry]
  | .vlLive => [F.vlLiveLive]
  | .vlDropCnt => [F.vlDropCntNoRoute, F.vlDropCntHopLimit, F.vlDropCntLinkDown, F.vlDropCntCrc]
  | .vlE2eCnt => [F.vlE2eCntWepoch, F.vlE2eCntTmoResets, F.vlE2eCntDropSent]
  | .vlE2eSel => [F.vlE2eSelPos]
  | .vlE2eState => [F.vlE2eStateOut, F.vlE2eStateInj]
  | .vlLinkCtrl => [F.vlLinkCtrlRetrain, F.vlLinkCtrlDegradeOk, F.vlLinkCtrlEnable]
  | .vlLinkStatus => [F.vlLinkStatusPartnerNode, F.vlLinkStatusPartnerLink, F.vlLinkStatusPartnerReady, F.vlLinkStatusLaneSwap, F.vlLinkStatusLanes, F.vlLinkStatusRttNs, F.vlLinkStatusState]
  | .vlLinkFec => [F.vlLinkFecCorrected, F.vlLinkFecUncorrected]
  | .vlLinkRetry => [F.vlLinkRetryDown, F.vlLinkRetryMiswire, F.vlLinkRetryRetries]
  | .vlLinkQueue => [F.vlLinkQueueOcc]
  | .enCfg => [F.enCfgLocked, F.enCfgLgMode, F.enCfgLgEth]
  | .enExcBase => [F.enExcBaseFga]
  | .enExcCtrl => [F.enExcCtrlVector, F.enExcCtrlSize, F.enExcCtrlEnable]
  | .enExcTail => [F.enExcTailPhase, F.enExcTailTail]
  | .enExcHead => [F.enExcHeadHead]
  | .enExcDrop => [F.enExcDropFrames]
  | .enExtBase => [F.enExtBaseFga]
  | .enExtCtrl => [F.enExtCtrlSize, F.enExtCtrlEnable]
  | .enExtTail => [F.enExtTailTail]
  | .enExtHead => [F.enExtHeadHead]
  | .enPortCfg => [F.enPortCfgMaxFrame, F.enPortCfgVid, F.enPortCfgVlanTx, F.enPortCfgPhy, F.enPortCfgEnable]
  | .enPortStatus => [F.enPortStatusLpiRx, F.enPortStatusLpiTx, F.enPortStatusLpiCap, F.enPortStatusMedium, F.enPortStatusState]
  | .enMacAddr => [F.enMacAddrAddr]
  | .enPrioMap => [F.enPrioMapPcp]
  | .enDscpMap => [F.enDscpMapDscp]
  | .enTxThresh => [F.enTxThreshCur, F.enTxThreshBase]
  | .enLpi => [F.enLpiTwTx, F.enLpiIdleUs, F.enLpiWakeMask, F.enLpiEnable]
  | .enTxqOcc => [F.enTxqOccOcc]
  | .enGateCtrl => [F.enGateCtrlConfigChange, F.enGateCtrlOperLen, F.enGateCtrlAdminLen, F.enGateCtrlPending, F.enGateCtrlEnable]
  | .enGateBaseS => [F.enGateBaseSSec]
  | .enGateBaseNs => [F.enGateBaseNsNs]
  | .enGateCycle => [F.enGateCycleExtNs, F.enGateCycleCycleNs]
  | .enGclSel => [F.enGclSelList, F.enGclSelIndex]
  | .enGclEntry => [F.enGclEntryGates, F.enGclEntryIntervalNs]
  | .enStat => [F.enStatCount]
  | .blkCfg => [F.blkCfgLocked, F.blkCfgResPerBlk]
  | .blkResCount => [F.blkResCountUsed]
  | .blkResSel => [F.blkResSelIndex]
  | .blkResEntry => [F.blkResEntryBase4k, F.blkResEntryStore4k, F.blkResEntryPages, F.blkResEntryState, F.blkResEntryLoad, F.blkResEntryWb, F.blkResEntryBlock]
  | .blkResOwner => [F.blkResOwnerFn]
  | .blkDistStatus => [F.blkDistStatusInService]
  | .blkStatus => [F.blkStatusFn, F.blkStatusAlloc, F.blkStatusLastStatus, F.blkStatusState]
  | .blkFlags => [F.blkFlagsNanGen, F.blkFlagsAccOvf, F.blkFlagsCvtSat, F.blkFlagsCvtNan]
  | .blkFmtSel => [F.blkFmtSelWord, F.blkFmtSelKind, F.blkFmtSelSlot]
  | .blkFmtData => [F.blkFmtDataData]
  | .blkResUsed => [F.blkResUsedEntries]
  | .blkSeqCtrl => [F.blkSeqCtrlOp]
  | .blkSeqPc => [F.blkSeqPcPc, F.blkSeqPcFaultPc, F.blkSeqPcRep]
  | .sqCfg => [F.sqCfgLocked, F.sqCfgTmoMs]
  | .sqUse => [F.sqUseActive, F.sqUseUsed]
  | .sqFnSel => [F.sqFnSelFn]
  | .sqFnUse => [F.sqFnUseShare, F.sqFnUseUsed, F.sqFnUseActive]
  | .sqCnt => [F.sqCntFailed, F.sqCntDone]
  | .sqRecomp => [F.sqRecompChunks]
  | .hbmPool => [F.hbmPoolTotal, F.hbmPoolFree]
  | .hbmStatus => [F.hbmStatusTemp, F.hbmStatusLevel, F.hbmStatusPoisoned, F.hbmStatusRepairs]
  | .hbmPcRetired => [F.hbmPcRetiredMask]
  | .hbmEccCnt => [F.hbmEccCntCorrected, F.hbmEccCntUncorrected]
  | .hbmEccLog => [F.hbmEccLogValid, F.hbmEccLogBeyond, F.hbmEccLogScrub, F.hbmEccLogPc, F.hbmEccLogLane, F.hbmEccLogLine]
  | .hbmScrub => [F.hbmScrubPasses, F.hbmScrubPeriodH]
  | .hbmAtom => [F.hbmAtomOps]
  | .intCfg => [F.intCfgLocked, F.intCfgAuthMax]
  | .intCiphCnt => [F.intCiphCntCipherFaults, F.intCiphCntEpochDrop, F.intCiphCntAuthFail]
  | .intIcCtrl => [F.intIcCtrlFn, F.intIcCtrlVector, F.intIcCtrlHalt, F.intIcCtrlAliveEn, F.intIcCtrlPoly, F.intIcCtrlEnable]
  | .intIcSrc => [F.intIcSrcSrcKind, F.intIcSrcIndex]
  | .intIcExpLen => [F.intIcExpLenLen]
  | .intIcExpVal => [F.intIcExpValValue]
  | .intIcRunning => [F.intIcRunningRunning]
  | .intIcCount => [F.intIcCountAliveValid, F.intIcCountLastAlive, F.intIcCountBytes]
  | .intIcStatus => [F.intIcStatusUnits, F.intIcStatusCode, F.intIcStatusExpDepth, F.intIcStatusSrcGone, F.intIcStatusExpOvf, F.intIcStatusOverrun, F.intIcStatusUnchecked, F.intIcStatusGap, F.intIcStatusRepeat, F.intIcStatusMismatch, F.intIcStatusState]
  | .intIcResult => [F.intIcResultResult]
  | .jnlRecover => [F.jnlRecoverOp]
  | .jnlRstatus => [F.jnlRstatusFaultCause, F.jnlRstatusCode, F.jnlRstatusFail, F.jnlRstatusDraining, F.jnlRstatusRecovering]
  | .jnlFlog => [F.jnlFlogValid, F.jnlFlogKind, F.jnlFlogInst, F.jnlFlogUnit, F.jnlFlogResumeUs, F.jnlFlogReplayed]
  | .jnlFcnt => [F.jnlFcntCount]
  | .jnlSlice => [F.jnlSliceHwm, F.jnlSliceFree]
  | .jnlRecSel => [F.jnlRecSelIndex]
  | .jnlRecData => [F.jnlRecDataData]
  | .jnlCnt => [F.jnlCntAborted, F.jnlCntReplayed]
  | .telCfg => [F.telCfgMode]
  | .telFnSel => [F.telFnSelFn]
  | .telBwCfg => [F.telBwCfgEnable, F.telBwCfgWinUs, F.telBwCfgPort]
  | .telBwRx => [F.telBwRxSeq, F.telBwRxBytes]
  | .telBwTx => [F.telBwTxSeq, F.telBwTxBytes]
  | .telBwPeak => [F.telBwPeakRxPeak, F.telBwPeakTxPeak]
  | .bistCtrl => [F.bistCtrlKindEn, F.bistCtrlEnable]
  | .bistCnt => [F.bistCntFailed, F.bistCntForced, F.bistCntRun]
  | .bistDefer => [F.bistDeferDeferred]
  | .bistLog => [F.bistLogValid, F.bistLogKind, F.bistLogAction, F.bistLogUnit, F.bistLogDetail]
  | .bistRepair => [F.bistRepairFusesFree, F.bistRepairPending, F.bistRepairHard, F.bistRepairSoft]
  | .bistCmd => [F.bistCmdConfirm, F.bistCmdOp]
  | .bistCmdStatus => [F.bistCmdStatusCode, F.bistCmdStatusFail, F.bistCmdStatusBusy]
  | .mgtI3cStatus => [F.mgtI3cStatusEid, F.mgtI3cStatusDynAddr, F.mgtI3cStatusStaticAddr, F.mgtI3cStatusAssigned]
  | .mgtUartCfg => [F.mgtUartCfgHost, F.mgtUartCfgDiv]
  | .mgtUartStatus => [F.mgtUartStatusBreaks, F.mgtUartStatusFraming, F.mgtUartStatusOverruns, F.mgtUartStatusRxLevel, F.mgtUartStatusTxLevel]
  | .mgtUartTx => [F.mgtUartTxData]
  | .mgtUartRx => [F.mgtUartRxFe, F.mgtUartRxValid, F.mgtUartRxData]
  | .aptCtrl => [F.aptCtrlErrMode, F.aptCtrlRdDeadline, F.aptCtrlEnable]
  | .aptIndex => [F.aptIndexSlot]
  | .aptEntryHi => [F.aptEntryHiQp]
  | .aptEntryLo => [F.aptEntryLoWkey, F.aptEntryLoWoff, F.aptEntryLoW, F.aptEntryLoR, F.aptEntryLoV]
  | .aptStatus => [F.aptStatusOutReads, F.aptStatusLastStatus, F.aptStatusFencePend, F.aptStatusLastFail, F.aptStatusBusy]
  | .aptErrLog => [F.aptErrLogValid, F.aptErrLogWrite, F.aptErrLogStatus, F.aptErrLogAo]
  | .aptErrCount => [F.aptErrCountWrites, F.aptErrCountReads]
  | .aptFence => []
  | .xlfFbBase => [F.xlfFbBaseBase, F.xlfFbBaseSize]
  | .xlfFbCtrl => [F.xlfFbCtrlBatchUs, F.xlfFbCtrlBatchMax, F.xlfFbCtrlVector, F.xlfFbCtrlHotEn, F.xlfFbCtrlEnable]
  | .xlfFbTail => [F.xlfFbTailPhase, F.xlfFbTailTail]
  | .xlfFbHead => [F.xlfFbHeadHead]
  | .xlfFbStatus => [F.xlfFbStatusParked, F.xlfFbStatusLastBatch, F.xlfFbStatusRingErr, F.xlfFbStatusOvf, F.xlfFbStatusOpen]
  | .xlfReplay => [F.xlfReplayAbort, F.xlfReplayUpto]
  | .xlfAcCtrl => [F.xlfAcCtrlThresh, F.xlfAcCtrlDecay, F.xlfAcCtrlClear, F.xlfAcCtrlEnable]
  | .xlfAcTable => [F.xlfAcTableTableFga]
  | .xlfAcRange => [F.xlfAcRangeBaseHa, F.xlfAcRangeRcount]
  | .hpfStatus => [F.hpfStatusAttachOk, F.hpfStatusAttachLock, F.hpfStatusState]
  | .hpfAttachToken => [F.hpfAttachTokenToken]
  | .hpfAttach => [F.hpfAttachToken]
  | .hpfWdog => []
  | .qfSel => [F.qfSelQueue]
  | .qfBase => [F.qfBaseBase]
  | .qfCfg => [F.qfCfgVector, F.qfCfgPollUs, F.qfCfgPrefetch, F.qfCfgSize, F.qfCfgPriv, F.qfCfgMedium, F.qfCfgEnable]
  | .qfPos => [F.qfPosOldest, F.qfPosTail]
  | .qfStatus => [F.qfStatusCode, F.qfStatusFetchErr, F.qfStatusDbErr, F.qfStatusStalled, F.qfStatusState]
  | .qfSample => [F.qfSampleDelayNs, F.qfSampleDepth]
  | .qfSampleMax => [F.qfSampleMaxDelayMax, F.qfSampleMaxDepthMax]
  | .qfSampleSum => [F.qfSampleSumCount, F.qfSampleSumDepthSum]
  | .wincArg0 => [F.wincArg0Value]
  | .wincArg1 => [F.wincArg1Length]
  | .wincArg2 => [F.wincArg2GrantNode, F.wincArg2GrantFn, F.wincArg2Grant, F.wincArg2W, F.wincArg2R]
  | .wincCmd => [F.wincCmdOp, F.wincCmdKey]
  | .wincStatus => [F.wincStatusKey, F.wincStatusCode, F.wincStatusFail, F.wincStatusBusy]
  | .wincCount => [F.wincCountImports, F.wincCountWindows]
  | .qpcArg0 => [F.qpcArg0Fga]
  | .qpcCmd => [F.qpcCmdOp, F.qpcCmdQp]
  | .qpcStatus => [F.qpcStatusQp, F.qpcStatusCode, F.qpcStatusFail, F.qpcStatusBusy]
  | .qpcCount => [F.qpcCountQps]
  | .seqfSel => [F.seqfSelBlock]
  | .seqfCtrl => [F.seqfCtrlOp]
  | .seqfState => [F.seqfStatePc, F.seqfStateFaultPc, F.seqfStateRep, F.seqfStateLastStatus, F.seqfStateState]
  | .seqfSample => [F.seqfSampleValid, F.seqfSampleRep, F.seqfSamplePc]
  | .seqfSampleIter => [F.seqfSampleIterIter]
  | .seqfCvtFail => [F.seqfCvtFailCount]
  | .sqfStatus => [F.sqfStatusShare, F.sqfStatusUsed, F.sqfStatusActive]
  | .sqfCnt => [F.sqfCntFailed, F.sqfCntDone]
  | .keyfArg0 => [F.keyfArg0Value]
  | .keyfArg1 => [F.keyfArg1Pages]
  | .keyfCmd => [F.keyfCmdOp, F.keyfCmdEpoch, F.keyfCmdRegion, F.keyfCmdIndex]
  | .keyfStatus => [F.keyfStatusCode, F.keyfStatusFail, F.keyfStatusBusy]
  | .keyfState => [F.keyfStateState]
  | .kskTxData => [F.kskTxDataData]
  | .kskTxPost => []
  | .kskStatus => [F.kskStatusRxCount, F.kskStatusTxFree, F.kskStatusResync, F.kskStatusNoKiosk, F.kskStatusTxRefused, F.kskStatusRxReady]
  | .kskCtrl => [F.kskCtrlVector, F.kskCtrlIrqEn]
  | .kskRxData => [F.kskRxDataData]
  | .kskRxPop => []
  | .telfCtrl => [F.telfCtrlVector]
  | .telfCntCfg => [F.telfCntCfgEnable, F.telfCntCfgIntEn, F.telfCntCfgAll, F.telfCntCfgIndex, F.telfCntCfgEvent]
  | .telfCnt => [F.telfCntOvf, F.telfCntCount]
  | .qdbTail => [F.qdbTailTail]


/-- Where a register or an indexed family of registers lies: c1 instances s1 bytes apart, in each of them c2
instances s2 bytes apart. -/
structure RegLoc where
  reg : Reg
  base : Nat
  c1 : Nat := 1
  s1 : Nat := 0
  c2 : Nat := 1
  s2 : Nat := 0
  deriving DecidableEq, Repr

/-- The device control space of Table 22.1, part 0. -/
def dcsLocs0 : List RegLoc := [
  { reg := .idCapUnits, base := 0x8 },
  { reg := .idCapSizes, base := 0x10 },
  { reg := .idNodeId, base := 0x18 },
  { reg := .rstState, base := 0x10000 },
  { reg := .rstCmd, base := 0x10008 },
  { reg := .rstCmdStatus, base := 0x10010 },
  { reg := .rstCfg, base := 0x10018 },
  { reg := .clkpwrClkStatus, base := 0x20000 },
  { reg := .clkpwrDomState, base := 0x20008 },
  { reg := .clkpwrDomReq, base := 0x20010 },
  { reg := .clkpwrDomReqStatus, base := 0x20018 },
  { reg := .clkpwrGovCfg, base := 0x20020 },
  { reg := .clkpwrGovStatus, base := 0x20028 },
  { reg := .clkpwrGovCnt, base := 0x20030 },
  { reg := .clkpwrTempSel, base := 0x20038 },
  { reg := .clkpwrTemp, base := 0x20040 },
  { reg := .clkpwrFtS, base := 0x20100 },
  { reg := .clkpwrFtNs, base := 0x20108 },
  { reg := .clkpwrFtStep, base := 0x20110 },
  { reg := .clkpwrFtRate, base := 0x20118 },
  { reg := .clkpwrFtCfg, base := 0x20120 },
  { reg := .clkpwrFtStatus, base := 0x20128 },
  { reg := .imgStatus, base := 0x40000 },
  { reg := .imgInfo, base := 0x40008 },
  { reg := .imgUcal, base := 0x40010 },
  { reg := .imgCmd, base := 0x40018 },
  { reg := .imgCmdStatus, base := 0x40020 },
  { reg := .imgFwStatus, base := 0x40100 },
  { reg := .imgSvn, base := 0x40108 },
  { reg := .imgStageSrc, base := 0x40110 },
  { reg := .imgStageArg, base := 0x40118 },
  { reg := .imgActS, base := 0x40120 },
  { reg := .imgActNs, base := 0x40128 },
  { reg := .imgFwCmd, base := 0x40130 },
  { reg := .imgFwCmdStatus, base := 0x40138 },
  { reg := .imgFwCfg, base := 0x40140 },
  { reg := .secStatus, base := 0x80000 },
  { reg := .hpPortCfg, base := 0x100000, c1 := 4, s1 := 0x1000 },
  { reg := .hpLinkStatus, base := 0x100008, c1 := 4, s1 := 0x1000 },
  { reg := .hpCrash, base := 0x100010, c1 := 4, s1 := 0x1000 },
  { reg := .hpFnSel, base := 0x100018, c1 := 4, s1 := 0x1000 },
  { reg := .hpFnInfo, base := 0x100020, c1 := 4, s1 := 0x1000 },
  { reg := .fnMode, base := 0x200000 },
  { reg := .fnArg0, base := 0x200008 },
  { reg := .fnArg1, base := 0x200010 },
  { reg := .fnCmd, base := 0x200018 },
  { reg := .fnStatus, base := 0x200020 },
  { reg := .fnSel, base := 0x200028 },
  { reg := .fnUse, base := 0x200030 },
  { reg := .fnEq, base := 0x200038 },
  { reg := .fnBase, base := 0x200040 },
  { reg := .fnPool, base := 0x200048 },
  { reg := .fnRateTotal, base := 0x200050 },
  { reg := .fnKskDb, base := 0x200058 },
  { reg := .fnKskCtrl, base := 0x200060 },
  { reg := .fnKskBase, base := 0x200068 },
  { reg := .fnKskPos, base := 0x200070 },
  { reg := .fnDlCtrl, base := 0x200078 },
  { reg := .fnDlHa, base := 0x200080 },
  { reg := .fnDlBase0, base := 0x200088 } ]

/-- The device control space of Table 22.1, part 1. -/
def dcsLocs1 : List RegLoc := [
  { reg := .fnDlBase1, base := 0x200090 },
  { reg := .fnDlCnt, base := 0x200098 },
  { reg := .xlSel, base := 0x400000 },
  { reg := .xlCtxRoot, base := 0x400008 },
  { reg := .xlCtxCtrl, base := 0x400010 },
  { reg := .xlInvalAddr, base := 0x400018 },
  { reg := .xlInval, base := 0x400020 },
  { reg := .xlInvalStatus, base := 0x400028 },
  { reg := .qInval, base := 0x800000 },
  { reg := .qInvalStatus, base := 0x800008 },
  { reg := .tpCfg, base := 0x1000000 },
  { reg := .tpQpcCache, base := 0x1000008 },
  { reg := .tpRcStatus, base := 0x1000010 },
  { reg := .tpPipeCnt, base := 0x1000100, c1 := 4, s1 := 0x20 },
  { reg := .tpPipeRx, base := 0x1000108, c1 := 4, s1 := 0x20 },
  { reg := .tpPipeTx, base := 0x1000110, c1 := 4, s1 := 0x20 },
  { reg := .tpPipeRetx, base := 0x1000118, c1 := 4, s1 := 0x20 },
  { reg := .ccCfg, base := 0x2000000 },
  { reg := .ccMark, base := 0x2000008 },
  { reg := .ccTxsched, base := 0x2000010 },
  { reg := .ccTxweight, base := 0x2000018 },
  { reg := .ccDscpColour0, base := 0x2000020 },
  { reg := .ccDscpColour1, base := 0x2000028 },
  { reg := .ccClassColour, base := 0x2000030 },
  { reg := .ccShpSel, base := 0x2000040 },
  { reg := .ccShpCfg, base := 0x2000048 },
  { reg := .ccShpState, base := 0x2000050 },
  { reg := .ccShpCmd, base := 0x2000058 },
  { reg := .ccMtrSel, base := 0x2000060 },
  { reg := .ccMtrRate, base := 0x2000068 },
  { reg := .ccMtrBurst, base := 0x2000070 },
  { reg := .ccMtrCtrl, base := 0x2000078 },
  { reg := .ccMtrGreen, base := 0x2000080 },
  { reg := .ccMtrYellow, base := 0x2000088 },
  { reg := .ccMtrRed, base := 0x2000090 },
  { reg := .ccProfRate, base := 0x2001000, c1 := 16, s1 := 0x20 },
  { reg := .ccProfTime, base := 0x2001008, c1 := 16, s1 := 0x20 },
  { reg := .ccProfCtrl, base := 0x2001010, c1 := 16, s1 := 0x20 },
  { reg := .ccProfRtt, base := 0x2001018, c1 := 16, s1 := 0x20 },
  { reg := .ccTxqSample, base := 0x2002000, c1 := 4, s1 := 0x100, c2 := 8, s2 := 0x10 },
  { reg := .ccTxqMax, base := 0x2002008, c1 := 4, s1 := 0x100, c2 := 8, s2 := 0x10 },
  { reg := .vlCfg, base := 0x3000000 },
  { reg := .vlRouteSel, base := 0x3000008 },
  { reg := .vlRouteEntry, base := 0x3000010 },
  { reg := .vlLive, base := 0x3000018 },
  { reg := .vlDropCnt, base := 0x3000020 },
  { reg := .vlE2eCnt, base := 0x3000028 },
  { reg := .vlE2eSel, base := 0x3000030 },
  { reg := .vlE2eState, base := 0x3000038 },
  { reg := .vlLinkCtrl, base := 0x3001000, c1 := 16, s1 := 0x40 },
  { reg := .vlLinkStatus, base := 0x3001008, c1 := 16, s1 := 0x40 },
  { reg := .vlLinkFec, base := 0x3001010, c1 := 16, s1 := 0x40 },
  { reg := .vlLinkRetry, base := 0x3001018, c1 := 16, s1 := 0x40 },
  { reg := .vlLinkQueue, base := 0x3001020, c1 := 16, s1 := 0x40 },
  { reg := .enCfg, base := 0x4000000 },
  { reg := .enExcBase, base := 0x4000010 },
  { reg := .enExcCtrl, base := 0x4000018 },
  { reg := .enExcTail, base := 0x4000020 },
  { reg := .enExcHead, base := 0x4000028 },
  { reg := .enExcDrop, base := 0x4000030 } ]

/-- The device control space of Table 22.1, part 2. -/
def dcsLocs2 : List RegLoc := [
  { reg := .enExtBase, base := 0x4000038 },
  { reg := .enExtCtrl, base := 0x4000040 },
  { reg := .enExtTail, base := 0x4000048 },
  { reg := .enExtHead, base := 0x4000050 },
  { reg := .enPortCfg, base := 0x4001000, c1 := 32, s1 := 0x400 },
  { reg := .enPortStatus, base := 0x4001008, c1 := 32, s1 := 0x400 },
  { reg := .enMacAddr, base := 0x4001010, c1 := 32, s1 := 0x400 },
  { reg := .enPrioMap, base := 0x4001018, c1 := 32, s1 := 0x400 },
  { reg := .enDscpMap, base := 0x4001020, c1 := 32, s1 := 0x400 },
  { reg := .enTxThresh, base := 0x4001028, c1 := 32, s1 := 0x400 },
  { reg := .enLpi, base := 0x4001030, c1 := 32, s1 := 0x400 },
  { reg := .enTxqOcc, base := 0x4001038, c1 := 32, s1 := 0x400 },
  { reg := .enGateCtrl, base := 0x4001040, c1 := 32, s1 := 0x400 },
  { reg := .enGateBaseS, base := 0x4001048, c1 := 32, s1 := 0x400 },
  { reg := .enGateBaseNs, base := 0x4001050, c1 := 32, s1 := 0x400 },
  { reg := .enGateCycle, base := 0x4001058, c1 := 32, s1 := 0x400 },
  { reg := .enGclSel, base := 0x4001060, c1 := 32, s1 := 0x400 },
  { reg := .enGclEntry, base := 0x4001068, c1 := 32, s1 := 0x400 },
  { reg := .enStat, base := 0x4001200, c1 := 32, s1 := 0x400, c2 := 22, s2 := 0x8 },
  { reg := .blkCfg, base := 0x5000000 },
  { reg := .blkResCount, base := 0x5000010 },
  { reg := .blkResSel, base := 0x5000018 },
  { reg := .blkResEntry, base := 0x5000020 },
  { reg := .blkResOwner, base := 0x5000028 },
  { reg := .blkDistStatus, base := 0x5001000, c1 := 8, s1 := 0x100 },
  { reg := .blkStatus, base := 0x5010000, c1 := 160, s1 := 0x100 },
  { reg := .blkFlags, base := 0x5010008, c1 := 160, s1 := 0x100 },
  { reg := .blkFmtSel, base := 0x5010010, c1 := 160, s1 := 0x100 },
  { reg := .blkFmtData, base := 0x5010018, c1 := 160, s1 := 0x100 },
  { reg := .blkResUsed, base := 0x5010020, c1 := 160, s1 := 0x100 },
  { reg := .blkSeqCtrl, base := 0x5010028, c1 := 160, s1 := 0x100 },
  { reg := .blkSeqPc, base := 0x5010030, c1 := 160, s1 := 0x100 },
  { reg := .sqCfg, base := 0x6000000 },
  { reg := .sqUse, base := 0x6000008 },
  { reg := .sqFnSel, base := 0x6000010 },
  { reg := .sqFnUse, base := 0x6000018 },
  { reg := .sqCnt, base := 0x6000020 },
  { reg := .sqRecomp, base := 0x6000028 },
  { reg := .hbmPool, base := 0x7000000 },
  { reg := .hbmStatus, base := 0x7001000, c1 := 8, s1 := 0x1000 },
  { reg := .hbmPcRetired, base := 0x7001008, c1 := 8, s1 := 0x1000 },
  { reg := .hbmEccCnt, base := 0x7001010, c1 := 8, s1 := 0x1000 },
  { reg := .hbmEccLog, base := 0x7001018, c1 := 8, s1 := 0x1000 },
  { reg := .hbmScrub, base := 0x7001020, c1 := 8, s1 := 0x1000 },
  { reg := .hbmAtom, base := 0x7001028, c1 := 8, s1 := 0x1000 },
  { reg := .intCfg, base := 0x7800000 },
  { reg := .intCiphCnt, base := 0x7800008 },
  { reg := .intIcCtrl, base := 0x7801000, c1 := 64, s1 := 0x40 },
  { reg := .intIcSrc, base := 0x7801008, c1 := 64, s1 := 0x40 },
  { reg := .intIcExpLen, base := 0x7801010, c1 := 64, s1 := 0x40 },
  { reg := .intIcExpVal, base := 0x7801018, c1 := 64, s1 := 0x40 },
  { reg := .intIcRunning, base := 0x7801020, c1 := 64, s1 := 0x40 },
  { reg := .intIcCount, base := 0x7801028, c1 := 64, s1 := 0x40 },
  { reg := .intIcStatus, base := 0x7801030, c1 := 64, s1 := 0x40 },
  { reg := .intIcResult, base := 0x7801038, c1 := 64, s1 := 0x40 },
  { reg := .jnlRecover, base := 0x9000000 },
  { reg := .jnlRstatus, base := 0x9000008 },
  { reg := .jnlFlog, base := 0x9000010 },
  { reg := .jnlFcnt, base := 0x9000018 },
  { reg := .jnlSlice, base := 0x9000020, c1 := 4, s1 := 0x8 } ]

/-- The device control space of Table 22.1, part 3. -/
def dcsLocs3 : List RegLoc := [
  { reg := .jnlRecSel, base := 0x9000040 },
  { reg := .jnlRecData, base := 0x9000048, c1 := 8, s1 := 0x8 },
  { reg := .jnlCnt, base := 0x9000088 },
  { reg := .telCfg, base := 0xa000000 },
  { reg := .telFnSel, base := 0xa000008 },
  { reg := .telBwCfg, base := 0xa000100, c1 := 16, s1 := 0x20 },
  { reg := .telBwRx, base := 0xa000108, c1 := 16, s1 := 0x20 },
  { reg := .telBwTx, base := 0xa000110, c1 := 16, s1 := 0x20 },
  { reg := .telBwPeak, base := 0xa000118, c1 := 16, s1 := 0x20 },
  { reg := .bistCtrl, base := 0xb000000 },
  { reg := .bistCnt, base := 0xb000008 },
  { reg := .bistDefer, base := 0xb000010 },
  { reg := .bistLog, base := 0xb000018 },
  { reg := .bistRepair, base := 0xb000020 },
  { reg := .bistCmd, base := 0xb000028 },
  { reg := .bistCmdStatus, base := 0xb000030 },
  { reg := .mgtI3cStatus, base := 0xc000000 },
  { reg := .mgtUartCfg, base := 0xc000008 },
  { reg := .mgtUartStatus, base := 0xc000010 },
  { reg := .mgtUartTx, base := 0xc000018 },
  { reg := .mgtUartRx, base := 0xc000020 } ]

/-- The device control space of Table 22.1. -/
def dcsLocs : List RegLoc := dcsLocs0 ++ dcsLocs1 ++ dcsLocs2 ++ dcsLocs3

/-- A function's BAR0 of Table 22.2, without the MSI-X table, the ICF channels and the PF's XLP copy of XL, part 0. -/
def bar0Locs0 : List RegLoc := [
  { reg := .aptCtrl, base := 0x200000 },
  { reg := .aptIndex, base := 0x200008 },
  { reg := .aptEntryHi, base := 0x200010 },
  { reg := .aptEntryLo, base := 0x200018 },
  { reg := .aptStatus, base := 0x200020 },
  { reg := .aptErrLog, base := 0x200028 },
  { reg := .aptErrCount, base := 0x200030 },
  { reg := .aptFence, base := 0x200038 },
  { reg := .xlfFbBase, base := 0x210000 },
  { reg := .xlfFbCtrl, base := 0x210008 },
  { reg := .xlfFbTail, base := 0x210010 },
  { reg := .xlfFbHead, base := 0x210018 },
  { reg := .xlfFbStatus, base := 0x210020 },
  { reg := .xlfReplay, base := 0x210028 },
  { reg := .xlfAcCtrl, base := 0x210030 },
  { reg := .xlfAcTable, base := 0x210038 },
  { reg := .xlfAcRange, base := 0x210040 },
  { reg := .hpfStatus, base := 0x230000 },
  { reg := .hpfAttachToken, base := 0x230008 },
  { reg := .hpfAttach, base := 0x230010 },
  { reg := .hpfWdog, base := 0x230018 },
  { reg := .qfSel, base := 0x240000 },
  { reg := .qfBase, base := 0x240008 },
  { reg := .qfCfg, base := 0x240010 },
  { reg := .qfPos, base := 0x240018 },
  { reg := .qfStatus, base := 0x240020 },
  { reg := .qfSample, base := 0x240028 },
  { reg := .qfSampleMax, base := 0x240030 },
  { reg := .qfSampleSum, base := 0x240038 },
  { reg := .wincArg0, base := 0x250000 },
  { reg := .wincArg1, base := 0x250008 },
  { reg := .wincArg2, base := 0x250010 },
  { reg := .wincCmd, base := 0x250018 },
  { reg := .wincStatus, base := 0x250020 },
  { reg := .wincCount, base := 0x250028 },
  { reg := .qpcArg0, base := 0x260000 },
  { reg := .qpcCmd, base := 0x260008 },
  { reg := .qpcStatus, base := 0x260010 },
  { reg := .qpcCount, base := 0x260018 },
  { reg := .seqfSel, base := 0x270000 },
  { reg := .seqfCtrl, base := 0x270008 },
  { reg := .seqfState, base := 0x270010 },
  { reg := .seqfSample, base := 0x270018 },
  { reg := .seqfSampleIter, base := 0x270020 },
  { reg := .seqfCvtFail, base := 0x270028 },
  { reg := .sqfStatus, base := 0x280000 },
  { reg := .sqfCnt, base := 0x280008 },
  { reg := .keyfArg0, base := 0x290000 },
  { reg := .keyfArg1, base := 0x290008 },
  { reg := .keyfCmd, base := 0x290010 },
  { reg := .keyfStatus, base := 0x290018 },
  { reg := .keyfState, base := 0x290020 },
  { reg := .kskTxData, base := 0x2b0000, c1 := 8, s1 := 0x8 },
  { reg := .kskTxPost, base := 0x2b0040 },
  { reg := .kskStatus, base := 0x2b0048 },
  { reg := .kskCtrl, base := 0x2b0050 },
  { reg := .kskRxData, base := 0x2b0080, c1 := 8, s1 := 0x8 },
  { reg := .kskRxPop, base := 0x2b00c0 },
  { reg := .telfCtrl, base := 0x2c0000 },
  { reg := .telfCntCfg, base := 0x2c0100, c1 := 32, s1 := 0x10 } ]

/-- A function's BAR0 of Table 22.2, without the MSI-X table, the ICF channels and the PF's XLP copy of XL, part 1. -/
def bar0Locs1 : List RegLoc := [
  { reg := .telfCnt, base := 0x2c0108, c1 := 32, s1 := 0x10 },
  { reg := .qdbTail, base := 0x1000000, c1 := 4096, s1 := 0x1000 } ]

/-- A function's BAR0 of Table 22.2, without the MSI-X table, the ICF channels and the PF's XLP copy of XL. -/
def bar0Locs : List RegLoc := bar0Locs0 ++ bar0Locs1

/-- The instance of the family that starts exactly at offset off, if any: index c2 * i1 + i2. -/
def RegLoc.at? (l : RegLoc) (off : Nat) : Option (Reg × Nat) :=
  if off < l.base then none
  else
    let d := off - l.base
    let i1 := if l.s1 = 0 then 0 else d / l.s1
    let d1 := if l.s1 = 0 then d else d % l.s1
    let i2 := if l.s2 = 0 then 0 else d1 / l.s2
    let d2 := if l.s2 = 0 then d1 else d1 % l.s2
    if d2 = 0 ∧ i1 < l.c1 ∧ i2 < l.c2 then some (l.reg, i1 * l.c2 + i2) else none

/-- The register at an offset of a list of locations. -/
def locate (ls : List RegLoc) (off : Nat) : Option (Reg × Nat) := ls.findSome? (·.at? off)

end Machine
end Sys2Proof
end

