-- ==== Sys2Proof/Syntax.lean ====
section
/-! DEFINITION. The commands the block takes, one constructor per row of the spec's table of operations and events,
and the records their operands are made of: packets, frames, link flits, access descriptions. -/

namespace Sys2Proof

/-- The status codes of Table 5.12 (R139). -/
inductive Status where
  | ok | unitAbsent | domainOff | badOpcode | badDescriptor | badLength | misaligned | notPermitted | badSpace
  | badOffset | windowBounds | keyStale | keyInvalid | aptUnmapped | aptBusy | aptDeadline | notConvertible
  | badAddress | xlDisabled | xlTableError | pageFault | hostFlushFailed | hostReadError | unreachable | notReady
  | qpError | recvTooSmall | cipherFault | authFailed | tsNotOwner | collMismatch | sqNoSpace | formatError
  | stepFault | abortedByReset | poolExhausted | fnState | imgRejected
  deriving DecidableEq, Repr

/-- The code of a status, Table 5.12. -/
def Status.code : Status → Nat
  | .ok => 0x00 | .unitAbsent => 0x01 | .domainOff => 0x02 | .badOpcode => 0x03 | .badDescriptor => 0x04
  | .badLength => 0x05 | .misaligned => 0x06 | .notPermitted => 0x08 | .badSpace => 0x09 | .badOffset => 0x0A
  | .windowBounds => 0x0B | .keyStale => 0x0C | .keyInvalid => 0x0D | .aptUnmapped => 0x10 | .aptBusy => 0x11
  | .aptDeadline => 0x12 | .notConvertible => 0x13 | .badAddress => 0x18 | .xlDisabled => 0x19
  | .xlTableError => 0x1A | .pageFault => 0x1B | .hostFlushFailed => 0x20 | .hostReadError => 0x21
  | .unreachable => 0x28 | .notReady => 0x29 | .qpError => 0x2A | .recvTooSmall => 0x2B | .cipherFault => 0x30
  | .authFailed => 0x31 | .tsNotOwner => 0x38 | .collMismatch => 0x40 | .sqNoSpace => 0x41 | .formatError => 0x42
  | .stepFault => 0x48 | .abortedByReset => 0x50 | .poolExhausted => 0x60 | .fnState => 0x61 | .imgRejected => 0x68

/-- The status a code stands for, for the codes listed. -/
def Status.ofCode? (n : Nat) : Option Status :=
  [Status.ok, .unitAbsent, .domainOff, .badOpcode, .badDescriptor, .badLength, .misaligned, .notPermitted, .badSpace,
   .badOffset, .windowBounds, .keyStale, .keyInvalid, .aptUnmapped, .aptBusy, .aptDeadline, .notConvertible,
   .badAddress, .xlDisabled, .xlTableError, .pageFault, .hostFlushFailed, .hostReadError, .unreachable, .notReady,
   .qpError, .recvTooSmall, .cipherFault, .authFailed, .tsNotOwner, .collMismatch, .sqNoSpace, .formatError,
   .stepFault, .abortedByReset, .poolExhausted, .fnState, .imgRejected].find? (fun st => st.code == n)

/-- The two register spaces (R535, Table 22.2): the device control space, or the BAR0 of a function. -/
inductive Space where
  | dcs
  | bar0 (fn : Nat)
  deriving DecidableEq, Repr

/-- The origins of an access to a register space (Table 19.7): a host access through a function's own BARs, a space 2
request of a node's function, or the out-of-band interface, plain or inside an SPDM session of the owner. -/
inductive Origin where
  | host (fn : Nat)
  | space2 (node : Nat) (fn : Nat)
  | oob
  | oobSecure
  deriving DecidableEq, Repr

/-- Who asks for a power-down: its origin, and the origin whose power-up of the same domain arrives in the same CLK_T cycle, if one does
(R37, R502). -/
structure DownReq where
  org : Origin
  pair : Option Origin := none
  deriving DecidableEq, Repr

/-- A posted descriptor: function, queue and position in the ring (R120). -/
structure OpRef where
  fn : Nat
  q : Nat
  pos : Nat
  deriving DecidableEq, Repr

/-- The AtomicOp requests of PCIe to BAR2 (Table 2.7), and the requests that R61 refuses. -/
inductive AtomicKind where
  | fetchAdd64 | cas64 | cas128 | fetchAdd32 | cas32 | swap
  /-- An AtomicOp of any kind to BAR0, the MSI-X table or the Pending Bit Array; one to BAR4; and a request to BAR2 of a type that
  Table 2.7 does not list (R61). -/
  | bar0 | bar4 | other
  deriving DecidableEq, Repr

/-- The kind of access a translation serves. -/
inductive Access where
  | read | write | atomic
  deriving DecidableEq, Repr

/-- The engine a translation serves, as coded in byte 9 of a fault batch entry (Table 3.15). -/
inductive XlEngine where
  | hostDma | requester | receive | counter
  deriving DecidableEq, Repr

/-- The invalidation engines (R87): one for each PF that has XLP registers, and the device's own. -/
inductive XlPort where
  | xlp (pf : Nat)
  | xl
  deriving DecidableEq, Repr

/-- A link of a host port: the whole port or sub-link 0 (sub = false), or sub-link 1 (Table 4.2). -/
structure LinkId where
  port : Nat
  sub : Bool
  deriving DecidableEq, Repr

/-- PCIe capabilities that Table 4.1 speaks of. -/
inductive CfgCap where
  | pcie | msix | sriov | ari | aer
  | msi | ats | pri | pasid | tph | ide | doe | resizableBar | l1PmSubstates
  deriving DecidableEq, Repr

/-- What the rules fix of a function's configuration space (R100, R104, R112, R127, R542, Tables 4.1 and 4.3), by field: whether a
capability is there; a doubleword of the BARs, or of the VF BARs of the SR-IOV capability; and the fields named. -/
inductive CfgField where
  | cap (c : CfgCap)
  | bar (n : Nat) | vfBar (n : Nat) | expansionRom | interruptPin
  | aspmSupport | l0pSupport | maxPayloadSupported | maxPayload | maxReadRequest
  | ctoRanges | ctoDisableSupported | ctoValue
  | memorySpace | busMaster | relaxedOrdering
  | totalVfs | initialVfs | numVfs | vfEnable
  | msixTableSize | msixTable | msixPba | msixEnable | msixFunctionMask
  | aerUncorrectable
  deriving DecidableEq, Repr

/-- PCIe configuration requests: a read of four bytes or of a field, and the writes that reach the device's state (R100, R104, R112, R127,
R542). -/
inductive CfgReq where
  | read (off : Nat)
  | field (f : CfgField)
  | writeBar (n v : Nat)
  | writeVfBar (n v : Nat)
  | writeAer (v : Nat)
  | writeMse (v : Bool)
  | writeCto (v : Nat)
  | writePayload (mps mrrs : Nat)
  | writeRelaxed (v : Bool)
  | writeMsix (enable : Bool) (mask : Bool)
  | writeNumVfs (n : Nat)
  | writeVfEnable
  | writeOther (off : Nat) (v : Word)
  deriving DecidableEq, Repr

/-- The packet kinds of the Sloale Transport (Table 7.8). -/
inductive SltOp where
  | write | readReq | send | fadd | cas64 | cas128 | tsOp
  | readResp | atomicResp | cas128Resp
  | ack | nak | waiting
  | connect | accept | refuse | close | resetNotice | winQuery | winInfo | pathProbe
  deriving DecidableEq, Repr

/-- An SLT packet: the base header of Table 7.7 with the operation extension (a and b hold its operands), the probe
extension, the selective-acknowledgement bitmap of an ACK (bit numbers), the fields of Table 7.10, the payload, and the security trailer of
a packet that is sent. -/
structure SltPkt where
  op : SltOp
  /-- OP of an atomic or turnstile response: 0x14, 0x15 or 0x18 (Table 7.8). -/
  rop : Nat := 0x14
  srcNode : Nat := 0
  dstNode : Nat := 0
  first : Bool := true
  last : Bool := true
  notify : Bool := false
  ackReq : Bool := false
  retx : Bool := false
  enc : Bool := false
  ceEcho : Bool := false
  probe : Option Nat := none
  path : Nat := 0
  epoch : Nat := 0
  txcnt : Nat := 0
  dstQp : Nat := 0
  srcQp : Nat := 0
  psn : Nat := 0
  alive : Nat := 0
  aliveRel : Nat := 0
  status : Nat := 0
  var : Nat := 0
  key : Nat := 0
  mlen : Nat := 0
  offset : Nat := 0
  a : Nat := 0
  b : Nat := 0
  sack : List Nat := []
  fn : Nat := 0
  mode : Nat := 0
  mtu : Nat := 0
  win : Nat := 0
  payload : List Byte := []
  tag : List Byte := []
  deriving DecidableEq, Repr

/-- What arrives with a packet beside its bytes: a congestion mark on its carrier (R213, R214); whether it came over
Ethernet and its DSCP, or its class on the Valir fabric (R234); and its bytes, where it comes as bytes: they are then read by the layout
of R185 and stand for the packet. A RoCEv2 packet says itself whether it is malformed. -/
structure Arrival where
  ce : Bool := false
  eth : Bool := false
  dscp : Nat := 0
  cls : Nat := 0
  malformed : Bool := false
  wire : Option (List Byte) := none
  deriving DecidableEq, Repr

/-- A Valir packet header with the fields of a management body (Tables 9.7 and 9.10). -/
structure VHdr where
  dst : Nat
  src : Nat
  cls : Nat := 0
  ect : Bool := false
  ce : Bool := false
  adapt : Bool := false
  resp : Bool := false
  det : Bool := false
  proto : Nat := 0
  hops : Nat := 0
  path : Nat := 0
  len : Nat := 1
  bytes : Nat := 0
  wepoch : Nat := 0
  mtype : Nat := 0
  reason : Nat := 0
  dropDst : Nat := 0
  count : Nat := 0
  fresh : Bool := false
  /-- CRC, and the bytes of the body as far as they are known: those of a packet that this node forms, or that arrives in codewords. -/
  crc : Nat := 0
  body : List Byte := []
  deriving DecidableEq, Repr

/-- A link flit (Tables 9.3 and 9.15): LTYPE, the next FSEQ its sender expects, REQ_FSEQ, READY, IMG and the credits of VC 0 to 7; of
PARAM the sender's node, link, lanes received, topology, TS and TS_ECHO; of TIME the fabric time and SYNC. -/
structure LinkFlit where
  ltype : Nat := 0
  ack : Nat := 0
  req : Nat := 0
  ready : Bool := false
  img : Bool := false
  credit : List Nat := []
  node : Nat := 0
  link : Nat := 0
  lanes : Nat := 0
  topo : Nat := 0
  ts : Nat := 0
  echo : Nat := 0
  secs : Nat := 0
  ns : Nat := 0
  sync : Bool := false
  /-- The whole codeword that arrives, where it is given in place of one flit of it: the symbols that reach lane A and lane B (R244,
  R245). Its slots then say what it carries. -/
  cw : Option (List Nat × List Nat) := none
  deriving DecidableEq, Repr

/-- What a receiver finds as it reaches codeword lock (R245): whether the two lanes are reversed, which lanes are inverted, and by how
many symbols each lane comes behind. -/
structure LaneLock where
  swapped : Bool := false
  invA : Bool := false
  invB : Bool := false
  lagA : Nat := 0
  lagB : Nat := 0
  deriving DecidableEq, Repr

/-- The RoCEv2 packet kinds of Table 7.14. -/
inductive RoceOp where
  | send | write | readReq | readResp | cas | fadd | ack | atomicAck | nakSeq | nakInvalid | nakAccess | nakOp | rnr | cnp
  | unsupported
  deriving DecidableEq, Repr

/-- A RoCEv2 packet (R208, R209): BTH fields, RETH or AtomicETH fields, and payload. -/
structure RocePkt where
  op : RoceOp
  first : Bool := true
  last : Bool := true
  dstQp : Nat := 0
  psn : Nat := 0
  msn : Nat := 0
  ackReq : Bool := false
  rkey : Nat := 0
  va : Nat := 0
  len : Nat := 0
  a : Nat := 0
  b : Nat := 0
  timer : Nat := 0
  icrcOk : Bool := true
  payload : List Byte := []
  deriving DecidableEq, Repr

/-- What arrives on an Ethernet port: a frame with its FCS, and the codewords received since the frame before it, 544 symbols each, as far as
they are given (R278, R299). -/
structure EthRx where
  bytes : List Byte
  cws : List (List Nat) := []
  deriving DecidableEq, Repr

/-- Next hop of a remote rack or of a RoCEv2 peer (R280): ports and MAC address. -/
structure Hop where
  ports : List Nat := []
  mac : Nat := 0
  /-- For a peer by IP address: the node it stands for, or 0xFFFF. -/
  node : Nat := 0xFFFF
  deriving DecidableEq, Repr

/-- What a read structure image holds (Table 18.9), as the checks of Table 18.10 from 0x06 on and R471 use it. -/
structure ImageValues where
  topo : Nat := 0
  svn : Nat := 0
  len4k : Nat := 1
  nsect : Nat := 8
  /-- CAP_REQ, laid out as ID.CAP_UNITS. -/
  capReq : Nat := 0
  rack : Nat := 0
  /-- POS, or none for POS_SRC = 1. -/
  pos : Option Nat := none
  trusted : List Nat := []
  mgrPort : Nat := 0
  /-- VFs allowed on each link, by 2 × port + sub-link. -/
  vfs : List (Nat × Nat) := []
  /-- Lane groups in Ethernet mode, and LG_MODE of each (two bits per lane group). -/
  lgEth : Nat := 0
  lgMode : Nat := 0
  /-- Neighbour expected on each Valir link: node × 16 + link. -/
  neigh : List (Nat × Nat) := []
  /-- Route and detour entries by position (Table 9.9). -/
  route : List (Nat × Nat) := []
  detour : List (Nat × Nat) := []
  racks : List (Nat × Hop) := []
  peers : List (Nat × Hop) := []
  addrs : List (Nat × Nat) := []
  /-- An IP address for each node outside the rack, an IPv4 one in IPv4-mapped form. -/
  nodeIps : List (Nat × Nat) := []
  /-- Reserved regions in the order of Table 14.8: first byte, bytes, and first byte of the shadow; and the size of the hold area in MiB. -/
  regions : List (Nat × Nat × Nat) := []
  holdMib : Nat := 16
  districts : List Nat := []
  mayOn : List Nat := []
  onAtStart : List Nat := []
  fnMax : Nat := 256
  queueMax : Nat := 4096
  /-- Counter overflow mode of TELEMETRY. -/
  telMode : Nat := 0
  /-- The RWL fields: register, instance, and the value of the whole register. -/
  rwl : List (Machine.Reg × Nat × Nat) := []
  deriving DecidableEq, Repr

/-- The structure image as it is read from a bank (R468): none, or its bytes with the signature block, and what its sections say, for which
the spec gives no layout (log entry 97). -/
inductive ImgRead where
  | absent
  | read (bytes : List Byte) (v : ImageValues)
  deriving DecidableEq, Repr

/-- The user calibration record as it is read from a bank (R473 to R475): none, or its bytes with the signature block, and the smaller
bounds that the factory record sets for items. -/
inductive UcalRead where
  | absent
  | record (bytes : List Byte) (bounds : List (Nat × Nat))
  deriving DecidableEq, Repr

/-- A message in a secured session that carries a key (R478, R493): SET_KEK, and the hash that FUSE_OWNER_KEY programs into a slot. -/
structure KekMsg where
  sess : Option Nat
  key : BitVec 256
  deriving DecidableEq, Repr

/-- An owner key slot, and the 48 bytes of the hash that is programmed into it. -/
structure FuseMsg where
  slot : Nat
  hash : List Byte
  deriving DecidableEq, Repr

/-- What a step of the start sequence brings beside its completion (Table 18.4): at step 4 the firmware package of the boot bank with its
signature block, if it is loaded; at step 5 the calibration; at step 6 the image; at step 7 the PCs that failed training, as
stack × 64 + PC. -/
inductive StepInfo where
  | plain
  | firmware (bytes : List Byte)
  | ucal (u : UcalRead)
  | image (r : ImgRead)
  | training (bad : List Nat) (lanes : List (Nat × Nat))
  deriving DecidableEq, Repr

/-- Requests of PLDM that the out-of-band interface serves (R490, R511): a numeric sensor, 0 to 39 or 40 for package power; a state
sensor; and the operations of firmware update. -/
inductive PldmReq where
  | numeric (sensor : Nat)
  | stateSensor (n : Nat)
  | stage (kind off : Nat) (data : List Byte)
  | verify (fw : List Byte) (img : ImgRead) (ucal : UcalRead)
  | arm (secs ns : Nat) (drain : Bool)
  | other (type cmd : Nat)
  deriving DecidableEq, Repr

/-- MCTP control messages: Set Endpoint ID, Get Endpoint ID, and others. -/
inductive MctpReq where
  | setEid (eid : Nat)
  | getEid
  | other (code : Nat)
  deriving DecidableEq, Repr

/-- What drives the test access port (R526): one rising edge of TCK with TMS and TDI, or a level of TRST_N. -/
inductive TapInput where
  | clock (tms tdi : Bool)
  | trst (low : Bool)
  deriving DecidableEq, Repr


/-- The outcome of a burst's ECC (Table 14.4): no error, one symbol corrected on a lane, or beyond ECC. -/
inductive EccOutcome where
  | clean | corrected (lane : Nat) | beyond
  deriving DecidableEq, Repr

/-- What an on-die memory word beyond ECC held (Table 17.2): for a duplicated memory, one copy or both; an Avenue transfer of the
operation of a Journal record; a translation of a page of a function; a key of an engine; the n-th packet held there; or a word of another
kind. -/
inductive SramLoss where
  | oneCopy | bothCopies | transfer (rec : Nat) | translation (fn ha : Nat) | key (xts : Bool) (fn idx : Nat)
  | packet (n : Nat) | other
  deriving DecidableEq, Repr


/-- How a self-test slice ended (Table 20.8): no failure; a row of a bank that failed, with what its words held; a wire group; an eye
margin in 0.1 % of the unit interval or a loopback error (0); a PLL; a sensor. -/
inductive SliceEnd where
  | pass | row (bank row : Nat) (loss : SramLoss) | group (g : Nat) | margin (m : Nat) | pll | sensor
  deriving DecidableEq, Repr
/-- The commands: one constructor per row of spec/opcode_table.json. -/
inductive Instr where
  /-- REGISTER_WRITE (R10): A naturally aligned 64-bit write to a register that has no row of its own sets or discards its fields by their access codes. -/
  | registerWrite (org : Origin) (sp : Space) (off : Nat) (v : Word)
  /-- IRREGULAR_ACCESS (R11): A BAR0 or DCS access of another size or alignment reads all 0xFF without side effect, or is discarded if it is a write. -/
  | irregularAccess (org : Origin) (sp : Space) (off len tag : Nat) (write : Option (List Byte))
  /-- RC_READ (R14): A read of a register with RC fields returns them and clears every RC field of that register. -/
  | rcRead (org : Origin) (sp : Space) (off tag : Nat)
  /-- FT_S_READ (R32): A read of CLKPWR.FT_S returns the seconds of fabric time and latches the nanoseconds into CLKPWR.FT_NS. -/
  | ftSRead
  /-- FT_STEP (R30): A write to CLKPWR.FT_STEP adds a signed offset to fabric time and counts the step; it is discarded while SRC is not 0. -/
  | ftStep (org : Origin) (off : Word)
  /-- FT_DISCIPLINE_PERIOD (R31): At the end of every 1,000,000 CLK_T cycles with a link source, the mean TIME offset either steps fabric time or adjusts RATE. -/
  | ftDisciplinePeriod
  /-- FT_SYNC_TIMEOUT (R31): After 10 ms without a TIME flit on the source link, SYNC reads 0 and RATE is held. -/
  | ftSyncTimeout
  /-- MASTER_LOCK_LOST (R26): The master PLL loses lock, MASTER_LOCK_LOST is set and the device enters FAULT unless it is already there. -/
  | masterLockLost
  /-- REFCLK_LOST (R522): REFCLK_OK falls on a missing edge or a frequency error, and the device enters FAULT with cause 0x02. -/
  | refclkLost
  /-- POWER_UP (R502): A DOM_REQ power-up request is checked and, if accepted, moves the domain to DOM_CHANGING. -/
  | powerUp (org : Origin) (d : Nat)
  /-- POWER_DOWN (R502): A DOM_REQ power-down request is checked and, if accepted, moves the domain to DOM_CHANGING and refuses new operations with DOMAIN_OFF. -/
  | powerDown (req : DownReq) (d : Nat)
  /-- DOMAIN_SETTLED (R35): A switching domain's switch settles and its logic is reset, so it becomes DOM_ON or DOM_OFF and BUSY clears. -/
  | domainSettled (d : Nat)
  /-- AVENUE_LINK_FAILED (R442): An Avenue link fails on a sideband ECC error or a 256-cycle credit timeout, and its uncredited transfers are re-sent on the other links of the bundle. -/
  | avenueLinkFailed (bundle link : Nat)
  /-- APERTURE_READ (R58): A BAR2 Memory Read is resolved through the aperture map and served locally or issued on the entry's QP. -/
  | apertureRead (fn tag ao len : Nat)
  /-- APERTURE_WRITE (R58): A BAR2 Memory Write is resolved per slot and applied, or dropped, counted and logged. -/
  | apertureWrite (fn ao : Nat) (data : List Byte)
  /-- APERTURE_ATOMIC (R61): A BAR2 AtomicOp is checked and served as a local or remote fetch-add or compare-and-swap, or refused with Unsupported Request. -/
  | apertureAtomic (fn tag ao : Nat) (kind : AtomicKind) (a b : Nat)
  /-- APERTURE_RESPONSE (R69): A response for an aperture read or atomic arrives and is returned on PCIe, or discarded if the device has already answered. -/
  | apertureResponse (fn tag ao : Nat) (st : Status) (data : List Byte)
  /-- READ_DEADLINE (R69): The read deadline of an aperture read or atomic expires and it is answered as failed with APT_DEADLINE. -/
  | readDeadline (fn tag : Nat)
  /-- APERTURE_COMMIT (R64): A write to APT.ENTRY_LO checks the entry and commits it to the selected slot, or refuses it with LAST_STATUS. -/
  | apertureCommit (fn v : Nat)
  /-- APERTURE_COMMIT_DONE (R65): APT.STATUS.BUSY clears after a commit and the held accesses to the slot use the new entry. -/
  | apertureCommitDone (fn : Nat)
  /-- APT_FENCE (R62): A write to APT.FENCE sets FENCE_PEND, or extends a pending fence to the writes that arrived before it. -/
  | aptFence (fn : Nat)
  /-- APT_FENCE_DONE (R62): FENCE_PEND clears once every fenced aperture write has been acknowledged or has failed. -/
  | aptFenceDone (fn : Nat)
  /-- TABLE_WALK_DONE (R89): A page-table walk ends and its outcome fills the TLB, parks the operation with a fault record, or completes the operation with an error. -/
  | tableWalkDone (fn ha : Nat) (acc : Access) (words : List (Option Nat))
  /-- INVAL_RANGE (R86): An INVAL write with SCOPE 0 removes the cached HA translations of the selected function's range. -/
  | invalRange (org : Origin) (e : XlPort) (pages : Nat)
  /-- INVAL_FUNCTION (R86): An INVAL write with SCOPE 1 removes every HA entry of the selected function. -/
  | invalFunction (org : Origin) (e : XlPort)
  /-- INVAL_ALL (R86): An INVAL write with SCOPE 2 removes every HA entry of the port's or the device's functions. -/
  | invalAll (org : Origin) (e : XlPort)
  /-- INVAL_DONE (R86): The three conditions of the invalidation hold and BUSY clears. -/
  | invalDone (e : XlPort)
  /-- FAULT_BATCH_TIMEOUT (R93): BATCH_US passes since the first entry of the open batch, which closes, sets LAST and signals the vector. -/
  | faultBatchTimeout (fn : Nat)
  /-- REPLAY (R95): An XLF.REPLAY write with ABORT 0 re-executes the selected parked operations. -/
  | replay (fn upto : Nat)
  /-- REPLAY_ABORT (R96): An XLF.REPLAY write with ABORT 1 completes the selected parked operations with PAGE_FAULT and replays those behind them. -/
  | replayAbort (fn upto : Nat)
  /-- AC_CLEAR (R99): Writing CLEAR in XLF.AC_CTRL zeroes every access counter and re-arms every hint. -/
  | acClear (fn v : Nat)
  /-- AC_DECAY (R98): Every 2^DECAY ms the access counters are halved. -/
  | acDecay (fn : Nat)
  /-- PCIE_LINK_TRAINED (R101): Training of a host-port link ends and the link is accepted, or BELOW_MIN is set and the link is retrained. -/
  | pcieLinkTrained (l : LinkId) (rate width : Nat)
  /-- PCIE_LINK_DOWN (R116): A host-port link goes down or is disabled; its outstanding tags end and the 100 ms crash wait starts. -/
  | pcieLinkDown (l : LinkId)
  /-- LINK_DOWN_TIMEOUT (R116): 100 ms pass without an accepted link after a link down, which is taken as a host crash. -/
  | linkDownTimeout (l : LinkId)
  /-- FUNDAMENTAL_RESET (R116): A link's fundamental-reset input is asserted, which is taken as a host crash. -/
  | fundamentalReset (l : LinkId)
  /-- PERST_DEASSERT (R463): A link's fundamental-reset input is deasserted and the link's PHY locks and leaves Detect.Quiet. -/
  | perstDeassert (l : LinkId)
  /-- HOT_RESET (R116): A Hot Reset received on a link is taken as a host crash. -/
  | hotReset (l : LinkId)
  /-- HOST_WATCHDOG_EXPIRY (R116): WDOG_MS passes without a write to HPF.WDOG from the PF, which is taken as a host crash. -/
  | hostWatchdogExpiry (l : LinkId)
  /-- WDOG_RESTART (R116): A write to HPF.WDOG from the PF restarts the link's watchdog. -/
  | wdogRestart (fn : Nat)
  /-- BUS_MASTER_DISABLE (R112): Clearing Bus Master Enable stops new host requests of the function and holds its host-dependent operations. -/
  | busMasterDisable (fn : Nat)
  /-- BUS_MASTER_ENABLE (R112): Setting Bus Master Enable again reissues held segments and returns held queues to their former state. -/
  | busMasterEnable (fn : Nat)
  /-- FLR (R113): A PCIe FLR of a function or of its PF starts the function reset of Table 4.11. -/
  | flr (fn : Nat)
  /-- VF_ENABLE_CLEAR (R113): Clearing VF Enable resets every created VF of the link, which stays created. -/
  | vfEnableClear (pf : Nat)
  /-- FUNCTION_RESET_DONE (R113): A function reset reaches step 7 after its tags have returned and its state is cleared, so the function becomes ACTIVE or ORPHANED. -/
  | functionResetDone (fn : Nat)
  /-- FUNCTION_WEDGED (R115): 100 ms pass after a reset was accepted without step 7, so the function becomes WEDGED and the manager is notified. -/
  | functionWedged (fn : Nat)
  /-- COMPLETION_TIMEOUT (R104): The Completion Timeout of a non-posted request issued by the device expires. -/
  | completionTimeout (l : LinkId) (tag : Nat)
  /-- HOST_COMPLETION (R114): A completion from a host arrives for an outstanding tag, and is used or discarded. -/
  | hostCompletion (l : LinkId) (tag : Nat) (data : Option (List Byte))
  /-- GRACE_EXPIRY (R118): The grace period ends, so every function still ORPHANED is reset and torn down. -/
  | graceExpiry (l : LinkId)
  /-- ATTACH (R117): A write to HPF.ATTACH by an ORPHANED PF re-attaches the link's functions, or counts a refused token. -/
  | attach (fn : Nat) (token : Word)
  /-- CONFIG_REQUEST (R465): A PCIe configuration request is answered, or receives Request Retry Status, according to device and function state. -/
  | configRequest (fn : Nat) (r : CfgReq)
  /-- MSIX_UNMASK (R127): MSI-X is enabled or a vector is unmasked, and a pending message is sent once. -/
  | msixUnmask (fn : Nat) (vec : Option Nat)
  /-- DOORBELL (R130): A write to QDB.TAIL moves TAIL, restarts a stopped fetch or is discarded with DB_ERR. -/
  | doorbell (fn q t : Nat)
  /-- DESCRIPTOR_FETCH (R125): A ring read returns entries, and each entry read with OWN 1 is checked and dispatched to its engine. -/
  | descriptorFetch (fn q : Nat) (data : Option (List Byte))
  /-- FETCH_RETRY (R131): 1 µs after an entry below TAIL was read with OWN 0 it is read again, and after 8 tries the queue is STALLED. -/
  | fetchRetry (fn q : Nat) (data : Option (List Byte))
  /-- PREFETCH_POLL (R132): Every POLL_US µs a stopped prefetch reads its position again. -/
  | prefetchPoll (fn q : Nat) (data : Option (List Byte))
  /-- QUEUE_ENABLE (R136): Setting QF.CFG.ENABLE on a Q_OFF queue checks its configuration and makes it Q_ACTIVE, or sets CODE. -/
  | queueEnable (fn v : Nat)
  /-- Q_INVAL_SLOT (R135): A Q.INVAL write with SCOPE 0 invalidates one slot of the privileged descriptor cache. -/
  | qInvalSlot (org : Origin) (q slot : Nat)
  /-- Q_INVAL_QUEUE (R135): A Q.INVAL write with SCOPE 1 invalidates every slot of one privileged queue. -/
  | qInvalQueue (org : Origin) (q : Nat)
  /-- Q_INVAL_ALL (R135): A Q.INVAL write with SCOPE 2 invalidates every privileged queue. -/
  | qInvalAll (org : Origin)
  /-- Q_INVAL_DONE (R135): The privileged-cache invalidation ends and BUSY clears. -/
  | qInvalDone
  /-- NOP (R125): A NOP descriptor completes with OK. -/
  | nop (r : OpRef)
  /-- COPY (R124): A COPY descriptor moves LEN bytes from LADDR to OPX. -/
  | copy (r : OpRef)
  /-- FLUSH_HOST (R109): FLUSH_HOST waits until earlier host writes are issued, then issues a zero-length read to the flush target. -/
  | flushHost (r : OpRef)
  /-- FENCE_HOST (R110): FENCE_HOST holds later descriptors of its queue until the earlier ones, a flush and earlier host reads are done. -/
  | fenceHost (r : OpRef)
  /-- CVT_A2F (R72): Converts one aperture offset into a keyed FGA. -/
  | cvtA2f (r : OpRef)
  /-- CVT_F2A (R72): Converts one keyed FGA into an aperture offset through the lowest matching slot. -/
  | cvtF2a (r : OpRef)
  /-- CVT_A2F_ARRAY (R73): Converts an array of aperture offsets into keyed FGAs element by element. -/
  | cvtA2fArray (r : OpRef)
  /-- CVT_F2A_ARRAY (R73): Converts an array of keyed FGAs into aperture offsets element by element. -/
  | cvtF2aArray (r : OpRef)
  /-- WRITE (R141): A WRITE descriptor sends LEN bytes to the target range of the window. -/
  | write (r : OpRef)
  /-- READ (R141): A READ descriptor copies the target range into LADDR. -/
  | read (r : OpRef)
  /-- SEND (R144): A SEND descriptor sends LEN bytes to a matching RECV of the peer QP. -/
  | send (r : OpRef)
  /-- RECV (R144): A RECV descriptor posts a receive buffer for a tag on the QP. -/
  | recv (r : OpRef)
  /-- FADD (R141): A FADD descriptor adds OPA to the 8 bytes at the target and returns the prior value. -/
  | fadd (r : OpRef)
  /-- CAS64 (R141): A CAS64 descriptor compares and swaps 8 bytes at the target. -/
  | cas64 (r : OpRef)
  /-- CAS128 (R143): A CAS128 descriptor compares and swaps 16 bytes as one unit and writes the prior value to the buffer. -/
  | cas128 (r : OpRef)
  /-- TS_READ (R168): Returns the value of a turnstile. -/
  | tsRead (r : OpRef)
  /-- TS_SET (R168): Sets a turnstile's value to OPA. -/
  | tsSet (r : OpRef)
  /-- TS_ADD (R168): Adds OPA to a turnstile's value modulo 2^64. -/
  | tsAdd (r : OpRef)
  /-- TS_CAS (R168): Compares and swaps a turnstile's value. -/
  | tsCas (r : OpRef)
  /-- TS_WAIT (R169): Waits in the turnstile store until the value reaches OPA. -/
  | tsWait (r : OpRef)
  /-- TS_ADD_WAIT (R168): Adds OPA to a turnstile, then waits for the threshold OPB. -/
  | tsAddWait (r : OpRef)
  /-- TS_ACQUIRE (R168): Takes the turnstile's lock, or waits for it. -/
  | tsAcquire (r : OpRef)
  /-- TS_TRY (R168): Takes the lock if it is free or abandoned, and otherwise does nothing. -/
  | tsTry (r : OpRef)
  /-- TS_RELEASE (R168): Frees the lock, or grants it to the oldest waiter. -/
  | tsRelease (r : OpRef)
  /-- TS_HANDOVER (R168): Gives the lock to a named node and function. -/
  | tsHandover (r : OpRef)
  /-- TS_ABANDON (R168): The manager abandons a lock as if the holder's function had been reset. -/
  | tsAbandon (r : OpRef)
  /-- ARM_THRESHOLD (R152): An ARM with VAR 0 arms a turnstile-threshold trigger for the next entry. -/
  | armThreshold (r : OpRef)
  /-- ARM_SEND_TAG (R152): An ARM with VAR 1 arms a send-tag trigger for the next entry. -/
  | armSendTag (r : OpRef)
  /-- STEP_LOAD (R332): STEP_LOAD copies a step-table image into a Block store. -/
  | stepLoad (r : OpRef)
  /-- STEP_START (R333): STEP_START loads if asked, validates the image and starts the Block's sequencer. -/
  | stepStart (r : OpRef)
  /-- WIN_CREATE (R163): A CREATE window command takes a free index and makes the window valid. -/
  | winCreate (fn : Nat)
  /-- WIN_REVOKE (R164): A REVOKE window command starts revocation of the current key. -/
  | winRevoke (fn key : Nat)
  /-- WIN_DESTROY (R164): A DESTROY window command starts revocation and then frees the index. -/
  | winDestroy (fn key : Nat)
  /-- WIN_IMPORT (R159): An IMPORT window command queries the owner node and creates or replaces an import record. -/
  | winImport (fn key : Nat)
  /-- WIN_FORGET (R163): A FORGET window command frees the function's import record for a node and index. -/
  | winForget (fn key : Nat)
  /-- WIN_QUERY_CMD (R163): A QUERY window command writes a window or import descriptor to the function's HBM. -/
  | winQueryCmd (fn key : Nat)
  /-- REVOCATION_DONE (R164): ADMITTED reaches 0 and the revocation reaches step 4, with the new key valid or the index freed or retired. -/
  | revocationDone (n : Nat)
  /-- REQUEST_PACKET (R188): A received SLT request packet is matched, metered, classified by PSN and applied, held or refused. -/
  | requestPacket (p : SltPkt) (a : Arrival)
  /-- RESPONSE_PACKET (R194): A received SLT response packet is placed or completes its operation. -/
  | responsePacket (p : SltPkt) (a : Arrival)
  /-- ACK (R193): A received ACK acknowledges PSNs, may fast-retransmit, updates RTT and completes operations. -/
  | ack (p : SltPkt) (a : Arrival)
  /-- NAK (R199): A received NAK schedules a retry for NOT_READY, or ends the owning operation with its status. -/
  | nak (p : SltPkt) (a : Arrival)
  /-- WAITING (R203): A received WAITING stops the operation's transport timeout and RTO. -/
  | waiting (p : SltPkt) (a : Arrival)
  /-- CONNECT (R180): A received CONNECT is matched and accepted, refused or dropped. -/
  | connect (p : SltPkt) (a : Arrival)
  /-- ACCEPT (R180): A received ACCEPT moves a connecting QP to QP_CONNECTED. -/
  | accept (p : SltPkt) (a : Arrival)
  /-- REFUSE (R180): A received REFUSE keeps the initiator connecting on NOT_READY, or returns it to QP_INIT. -/
  | refuse (p : SltPkt) (a : Arrival)
  /-- CLOSE (R207): A received CLOSE moves the QP to QP_ERROR. -/
  | close (p : SltPkt) (a : Arrival)
  /-- RESET_NOTICE (R207): A received RESET_NOTICE moves the QP to QP_ERROR and abandons the reset function's locks. -/
  | resetNotice (p : SltPkt) (a : Arrival)
  /-- WIN_QUERY (R186): A received WIN_QUERY is answered with WIN_INFO or a NAK. -/
  | winQuery (p : SltPkt) (a : Arrival)
  /-- WIN_INFO (R159): A received WIN_INFO fills the import record, which becomes W_IMPORTED. -/
  | winInfo (p : SltPkt) (a : Arrival)
  /-- WIN_QUERY_RESEND (R186): An unanswered WIN_QUERY is re-sent every 100 µs. -/
  | winQueryResend (q : Nat)
  /-- PATH_PROBE (R197): A received PATH_PROBE is answered with an ACK on the same path that echoes its stamp. -/
  | pathProbe (p : SltPkt) (a : Arrival)
  /-- QP_CREATE (R179): A CREATE QP command reads the set-up block and takes a free QP in QP_INIT. -/
  | qpCreate (fn : Nat)
  /-- QP_CONNECT (R179): A CONNECT QP command sends CONNECT, or connects a RoCEv2 QP at once. -/
  | qpConnect (fn q : Nat)
  /-- QP_DISCONNECT (R179): A DISCONNECT QP command moves the QP to QP_CLOSING. -/
  | qpDisconnect (fn q : Nat)
  /-- QP_RESET (R179): A RESET QP command returns the QP to QP_INIT with its sequence state cleared. -/
  | qpReset (fn q : Nat)
  /-- QP_DESTROY (R179): A DESTROY QP command frees the QP. -/
  | qpDestroy (fn q : Nat)
  /-- QP_QUERY (R179): A QUERY QP command writes the visible QP context to HBM. -/
  | qpQuery (fn q : Nat)
  /-- CONNECT_RESEND (R180): Every 100 µs a QP in QP_CONNECTING re-sends CONNECT. -/
  | connectResend (q : Nat)
  /-- CONNECT_TIMEOUT (R180): No ACCEPT arrives within the transport timeout, so the QP returns to QP_INIT with UNREACHABLE. -/
  | connectTimeout (q : Nat)
  /-- RTO_EXPIRY (R196): A packet outstanding for RTO is retransmitted on another path, and its old path is marked suspect. -/
  | rtoExpiry (q psn : Nat)
  /-- TRANSPORT_TIMEOUT (R198): An operation's transport timeout expires, so it completes UNREACHABLE and the QP enters QP_ERROR. -/
  | transportTimeout (q : Nat) (alive : Option Nat)
  /-- NOT_READY_RETRY (R206): NR_US after a NOT_READY refusal the PSN is retransmitted. -/
  | notReadyRetry (q psn : Nat)
  /-- PROBE_TIMER (R197): Every PROBE_US a path probe is sent on each suspect path. -/
  | probeTimer (q : Nat)
  /-- ACK_TIMER (R193): ACK_US after the oldest unacknowledged packet an ACK is sent. -/
  | ackTimer (q : Nat)
  /-- RESPONSE_RESEND (R203): Every RTO_MIN the target re-sends the cached response of an ended wait until ALIVE_REL passes it. -/
  | responseResend (q psn : Nat)
  /-- NOTICE_RESEND (R207): RESET_NOTICE or CLOSE is sent again 10 µs after its previous sending, three times in all. -/
  | noticeResend (q : Nat)
  /-- QPC_MISS_FILL (R177): A QP context read from HBM arrives after a cache miss and the waiting packets and operations proceed. -/
  | qpcMissFill (q : Nat)
  /-- ROCE_REQUEST (R208): A received RoCEv2 request packet is executed, refused with an RNR NAK or NAKed. -/
  | roceRequest (p : RocePkt) (a : Arrival)
  /-- ROCE_RESPONSE (R208): A received RoCEv2 response, acknowledgement or NAK advances or retries the requester. -/
  | roceResponse (p : RocePkt) (a : Arrival)
  /-- CNP (R216): A received Congestion Notification Packet counts as a congestion event of the QP. -/
  | cnp (p : RocePkt) (a : Arrival)
  /-- REFILL_TICK (R225): Every 125 ns every shaper and meter applies new settings, clears debt if pending and refills, and held reads are recoloured. -/
  | refillTick
  /-- EPOCH_END (R219): At the end of a rate-control epoch RC is decreased, held or grown per Table 8.8. -/
  | epochEnd (q : Nat)
  /-- QUEUE_SAMPLE (R238): Every sample period every work queue and transmit class queue is sampled. -/
  | queueSample
  /-- CLEAR_DEBT (R227): Writing CLEAR_DEBT sets a pending clear for the selected shaper. -/
  | clearDebt (org : Origin)
  /-- VL_SIGNAL_DETECT (R255): Signal appears on a lane of a detecting Valir link, which moves to V_SYNC. -/
  | vlSignalDetect (link lanes : Nat)
  /-- VL_LOCK (R255): Clock and data recovery lock on every lane with signal, and the link moves to V_ALIGN. -/
  | vlLock (link : Nat)
  /-- CODEWORD_LOCK (R255): Deskew and codeword lock are reached, and the link moves to V_PARAM. -/
  | codewordLock (link : Nat) (lock : LaneLock)
  /-- PARAM (R256): A partner's PARAM flit is checked, and the link enters V_ACTIVE, V_DEGRADED, V_MISWIRED or V_HOLD. -/
  | param (link node plink lanes topo rtt : Nat) (ready : Bool)
  /-- VL_STEP_TIMEOUT (R255): A training step exceeds its bound and the link moves to V_HOLD. -/
  | vlStepTimeout (link : Nat)
  /-- VL_HOLD_EXPIRY (R255): 1 ms in V_HOLD passes and the link returns to V_DETECT. -/
  | vlHoldExpiry (link : Nat)
  /-- LANE_FAULT (R257): A lane loses signal for 1 µs or loses codeword lock, and the link retrains, leaves the live set or holds. -/
  | laneFault (link lanes : Nat)
  /-- RETRAIN (R257): Writing RETRAIN moves a V_DEGRADED or V_MISWIRED link to retraining or detection. -/
  | retrain (org : Origin) (link : Nat)
  /-- RETRAIN_TIMEOUT (R257): After 150 µs in V_RETRAIN the link is settled as V_ACTIVE, V_DEGRADED or V_HOLD. -/
  | retrainTimeout (link lanes : Nat)
  /-- UNCORRECTABLE_CODEWORD (R251): A codeword that cannot be corrected discards data flits and sends RETRY_REQ. -/
  | uncorrectableCodeword (link : Nat)
  /-- STATUS_FLIT (R249): A STATUS link flit updates ACK_FSEQ and the credits of the link. -/
  | statusFlit (link : Nat) (f : LinkFlit)
  /-- RETRY_REQ (R252): A received RETRY_REQ starts a replay from REQ_FSEQ, or retrains the link if that FSEQ is not held. -/
  | retryReq (link req : Nat) (f : LinkFlit)
  /-- RETRY_REQ_RESEND (R251): RETRY_REQ is repeated every 1 µs until REPLAY_START arrives. -/
  | retryReqResend (link : Nat)
  /-- REPLAY_START (R251): A received REPLAY_START resumes acceptance of data flits. -/
  | replayStart (link req : Nat) (f : LinkFlit)
  /-- TIME (R248): A received TIME flit forms an offset for fabric-time discipline. -/
  | time (link secs ns : Nat) (sync : Bool) (f : LinkFlit)
  /-- TIME_FLIT_SEND (R248): Every 1 µs a TIME flit is sent on each live link. -/
  | timeFlitSend
  /-- PACKET_HEAD (R263): A packet's head flit is ejected, consumed, dropped or routed to an output link and VC. -/
  | packetHead (inp : Option Nat) (vc : Nat) (h : VHdr) (intact : Bool)
  /-- E2E_CREDIT (R269): A received E2E_CREDIT sets EJ_SEEN for its destination under the epoch rules. -/
  | e2eCredit (src count epoch : Nat) (fresh : Bool)
  /-- E2E_DROP (R269): A received E2E_DROP adds its COUNT to DROPPED under the epoch rules. -/
  | e2eDrop (dst count epoch : Nat)
  /-- E2E_CREDIT_TIMER (R269): 500 ns after the first packet counted since the last credit an E2E_CREDIT is sent. -/
  | e2eCreditTimer (src : Nat)
  /-- E2E_DROP_COALESCE (R266): The coalescing time of a pending E2E_DROP ends and it is sent. -/
  | e2eDropCoalesce (src : Nat)
  /-- E2E_TIMEOUT (R270): After E2E_TMO without a credit or drop notice, DROPPED is set to INJ − EJ_SEEN. -/
  | e2eTimeout (dst : Nat)
  /-- FRAME_RECEIVED (R282): A received Ethernet frame is checked and parsed, then delivered, sent to the exception ring or dropped. -/
  | frameReceived (port : Nat) (data : EthRx) (room : Bool)
  /-- AN_RESOLVED (R281): Auto-negotiation ends: the port trains, or holds if no PHY type is common. -/
  | anResolved (port : Nat) (phy : Option Nat)
  /-- AN_TIMEOUT (R281): 3 s without resolution moves the port to E_HOLD. -/
  | anTimeout (port : Nat)
  /-- LINK_TRAINING_DONE (R281): Link training completes on every lane and the port moves to E_ALIGN. -/
  | linkTrainingDone (port : Nat)
  /-- LINK_TRAINING_TIMEOUT (R281): 500 ms without completion moves the port to E_HOLD. -/
  | linkTrainingTimeout (port : Nat)
  /-- ALIGN_LOCK (R281): PCS alignment and FEC lock are reached and the port is E_UP. -/
  | alignLock (port : Nat) (lpi : Bool)
  /-- ALIGN_TIMEOUT (R281): 10 ms without lock moves the port to E_HOLD. -/
  | alignTimeout (port : Nat)
  /-- LOCAL_FAULT (R281): Loss of alignment or lock, or too many uncorrectable codewords, returns the port to E_ALIGN and discards queued frames. -/
  | localFault (port : Nat)
  /-- REMOTE_FAULT (R281): A received remote fault moves the port to E_RFAULT. -/
  | remoteFault (port : Nat)
  /-- REMOTE_FAULT_CLEAR (R281): 1 ms without remote fault returns the port to E_UP. -/
  | remoteFaultClear (port : Nat)
  /-- EN_HOLD_EXPIRY (R281): 1 ms in E_HOLD returns the port to E_OFF. -/
  | enHoldExpiry (port : Nat)
  /-- EXT_TAIL (R288): A write to EN.EXT_TAIL posts exception transmit entries, which are checked and queued. -/
  | extTail (org : Origin) (tail : Nat)
  /-- EXCEPTION_FRAME_SENT (R288): An exception frame has left the pins, so its entry is rewritten with OWN 0 and EXT_HEAD advances. -/
  | exceptionFrameSent (port : Nat)
  /-- TX_UNDERRUN (R292): The transmit buffer runs empty mid-frame, so the frame is ended with a stomped FCS and T_EFF is raised. -/
  | txUnderrun (port : Nat)
  /-- TX_THRESH_DECAY (R292): After 1,024 frames without underrun, T_EFF is lowered by 64. -/
  | txThreshDecay (port : Nat)
  /-- CONFIG_CHANGE (R295): Writing CONFIG_CHANGE sets PENDING and fixes the gate change time. -/
  | configChange (org : Origin) (port : Nat)
  /-- GATE_CHANGE_TIME (R295): At the change time the administrative gate list becomes operational and PENDING clears. -/
  | gateChangeTime (port : Nat)
  /-- GATE_INTERVAL_END (R293): A gate-list interval ends and the next entry's gates apply. -/
  | gateIntervalEnd (port : Nat)
  /-- LPI_ENTRY (R296): After IDLE_US with the queues empty, the port enters transmit LPI. -/
  | lpiEntry (port : Nat)
  /-- STEP_NOP (R336): A NOP step is issued and completes. -/
  | stepNop (b : Nat)
  /-- END (R342): END completes after every earlier step and the table ends. -/
  | endStep (b : Nat)
  /-- LOOP (R338): LOOP runs its body COUNT times, stepping the masked address registers. -/
  | loop (b : Nat)
  /-- SETAR (R338): SETAR sets an address register. -/
  | setar (b : Nat)
  /-- MLOAD (R343): MLOAD copies lines from an FGA into the Block store. -/
  | mload (b : Nat)
  /-- MSTORE (R343): MSTORE copies lines from the Block store to an FGA. -/
  | mstore (b : Nat)
  /-- MEMORY_STEP_DONE (R341): A memory or conversion step completes and the steps held behind it may issue. -/
  | memoryStepDone (b id : Nat) (moved : Option Nat)
  /-- RBIND (R307): RBIND starts the bind of a resident range. -/
  | rbind (b : Nat)
  /-- RBIND_DONE (R307): The bind reaches R_LIVE at every engine and the step completes. -/
  | rbindDone (b : Nat)
  /-- RRELEASE (R308): RRELEASE starts the release of a resident range. -/
  | rrelease (b : Nat)
  /-- RRELEASE_DONE (R308): The release reaches R_FREE and the step completes. -/
  | rreleaseDone (b : Nat)
  /-- MMA (R310): A matrix step multiplies tiles and accumulates with one rounding. -/
  | mma (b : Nat)
  /-- VOP_ADD (R322): Vector ADD. -/
  | vopAdd (b : Nat)
  /-- VOP_SUB (R322): Vector SUB. -/
  | vopSub (b : Nat)
  /-- VOP_MUL (R322): Vector MUL. -/
  | vopMul (b : Nat)
  /-- VOP_FMA (R322): Vector FMA with one rounding. -/
  | vopFma (b : Nat)
  /-- VOP_MIN (R322): Vector MIN. -/
  | vopMin (b : Nat)
  /-- VOP_MAX (R322): Vector MAX. -/
  | vopMax (b : Nat)
  /-- VOP_ABS (R322): Vector ABS. -/
  | vopAbs (b : Nat)
  /-- VOP_NEG (R322): Vector NEG. -/
  | vopNeg (b : Nat)
  /-- VOP_CMP_EQ (R322): Vector CMP_EQ into a mask register. -/
  | vopCmpEq (b : Nat)
  /-- VOP_CMP_LT (R322): Vector CMP_LT into a mask register. -/
  | vopCmpLt (b : Nat)
  /-- VOP_CMP_LE (R322): Vector CMP_LE into a mask register. -/
  | vopCmpLe (b : Nat)
  /-- VOP_SEL (R322): Vector SEL by mask. -/
  | vopSel (b : Nat)
  /-- VOP_DIV (R322): Vector DIV. -/
  | vopDiv (b : Nat)
  /-- VOP_SQRT (R322): Vector SQRT. -/
  | vopSqrt (b : Nat)
  /-- VOP_RCP (R322): Vector RCP. -/
  | vopRcp (b : Nat)
  /-- VOP_RSQRT (R322): Vector RSQRT. -/
  | vopRsqrt (b : Nat)
  /-- VOP_EXP2 (R322): Vector EXP2. -/
  | vopExp2 (b : Nat)
  /-- VOP_LOG2 (R322): Vector LOG2. -/
  | vopLog2 (b : Nat)
  /-- VOP_RED_SUM (R323): Tree sum of 64 lanes. -/
  | vopRedSum (b : Nat)
  /-- VOP_RED_MAX (R323): Tree maximum of 64 lanes. -/
  | vopRedMax (b : Nat)
  /-- VOP_CVT (R324): Conversion of each lane to the target format. -/
  | vopCvt (b : Nat)
  /-- FLOAD_T2_CODEBOOK (R319): Loads a T2 codebook slot. -/
  | floadT2Codebook (b : Nat)
  /-- FLOAD_T4_CODEBOOK (R319): Loads a T4 codebook slot. -/
  | floadT4Codebook (b : Nat)
  /-- FLOAD_PRODUCT_TABLE (R320): Loads a product-table slot. -/
  | floadProductTable (b : Nat)
  /-- STEP_TS_WAIT (R344): A TS_WAIT step waits on a local turnstile. -/
  | stepTsWait (b : Nat)
  /-- STEP_TS_ADD (R344): A TS_ADD step adds to a local turnstile after earlier steps complete. -/
  | stepTsAdd (b : Nat)
  /-- STEP_CVT_A2F (R345): A conversion step turns aperture offsets into keyed FGAs. -/
  | stepCvtA2f (b : Nat)
  /-- STEP_CVT_F2A (R345): A conversion step turns keyed FGAs into aperture offsets. -/
  | stepCvtF2a (b : Nat)
  /-- PAUSE (R349): PAUSE stops the issue of repetitions on the next edge. -/
  | pause (org : Origin) (sp : Space) (b : Nat)
  /-- PAUSE_DRAINED (R349): Only a waiting TS_WAIT remains outstanding, and the sequencer becomes paused. -/
  | pauseDrained (b : Nat)
  /-- RESUME (R349): RESUME restarts issue or cancels a pause in progress. -/
  | resume (org : Origin) (sp : Space) (b : Nat)
  /-- BLOCK_OUT_OF_SERVICE (R352): A parity fault or a Block-store word beyond ECC takes a Block out of service. -/
  | blockOutOfService (b : Nat)
  /-- ALL_REDUCE (R356): A COLL of KIND 1 starts an all-reduce. -/
  | allReduce (r : OpRef)
  /-- REDUCE_SCATTER (R356): A COLL of KIND 2 starts a reduce-scatter. -/
  | reduceScatter (r : OpRef)
  /-- ALL_GATHER (R356): A COLL of KIND 3 starts an all-gather. -/
  | allGather (r : OpRef)
  /-- BROADCAST (R356): A COLL of KIND 4 starts a broadcast. -/
  | broadcast (r : OpRef)
  /-- ALL_TO_ALL (R376): A COLL of KIND 5 starts an all-to-all. -/
  | allToAll (r : OpRef)
  /-- BARRIER (R356): A COLL of KIND 6 starts a barrier. -/
  | barrier (r : OpRef)
  /-- COLL_TIMEOUT (R381): TMO_MS passes without progress, so the collective fails with UNREACHABLE and aborts its peers. -/
  | collTimeout (r : OpRef)
  /-- SQUARE_WORD_BEYOND_ECC (R383): A Square word is beyond ECC and the chunk is recomputed. -/
  | squareWordBeyondEcc (slice id chunk : Nat)
  /-- SCRUB (R391): The scrubber reads a line and writes it back corrected, or poisons it. -/
  | scrub (stack line : Nat) (o : EccOutcome) (byScrub : Bool)
  /-- REFRESH (R396): Each tREFI a bank receives a per-bank refresh. -/
  | refresh (bank : Nat)
  /-- LANE_REPAIR_DONE (R397): The spare lane is mapped and retrained, held commands are issued and the PC scrub starts. -/
  | laneRepairDone (stack pc : Nat)
  /-- INSTALL (R403): INSTALL unwraps a key blob into a key slot: KEYF.ARG0 is written with arg0, then KEYF.CMD with v. -/
  | install (fn v arg0 : Nat)
  /-- SET_TX (R407): SET_TX makes an epoch the TX epoch of a key set. -/
  | setTx (fn v : Nat)
  /-- RETIRE (R407): RETIRE empties an epoch slot. -/
  | retire (fn v : Nat)
  /-- ERASE (R402): ERASE empties a key set or a region slot. -/
  | erase (fn v : Nat)
  /-- TAG (R410): TAG starts zeroing and re-tagging pages with a region slot. -/
  | tag (fn v : Nat)
  /-- TAG_PAGE_DONE (R410): A page has been zeroed, takes its new tag and its held accesses are released. -/
  | tagPageDone (fn : Nat)
  /-- AUTH_TAG_RESULT (R408): A GCM tag result is known; on failure, zeros are written and the packet is not acknowledged: of the oldest n packets of QP q that wait. -/
  | authTagResult (q n : Nat)
  /-- CIPHER_PARITY_FAULT (R412): A parity fault in a cipher engine kills the key and moves bound QPs to QP_ERROR. -/
  | cipherParityFault (xts : Bool) (fn idx : Nat)
  /-- IC_ENABLE (R417): Setting ENABLE starts an integrity channel or is refused with CODE. -/
  | icEnable (org : Origin) (sp : Space) (ch : Nat)
  /-- IC_DISABLE (R417): Clearing ENABLE stops an integrity channel taking new operations. -/
  | icDisable (org : Origin) (sp : Space) (ch : Nat)
  /-- IC_EXPECTATION_PUSH (R416): A write to INT.IC_EXP_VAL pushes an expectation, or sets EXP_OVF. -/
  | icExpectationPush (org : Origin) (sp : Space) (ch val : Nat)
  /-- FN_CREATE (R420): CREATE makes a function with every limit 0 and its Kiosk. -/
  | fnCreate (org : Origin) (fn : Nat)
  /-- FN_DESTROY (R421): DESTROY tears a function down per Table 16.2. -/
  | fnDestroy (org : Origin) (fn : Nat)
  /-- SET_LIMIT (R423): SET_LIMIT sets a limit or range allocation. -/
  | setLimit (org : Origin) (fn res : Nat)
  /-- GIVE (R424): GIVE gives set objects to a function. -/
  | give (org : Origin) (fn res : Nat)
  /-- TAKE (R424): TAKE takes set objects back from a function. -/
  | take (org : Origin) (fn res : Nat)
  /-- VF_RESET (R420): VF_RESET starts a function reset of a VF. -/
  | vfReset (org : Origin) (fn : Nat)
  /-- DL_SWAP (R437): DL_SWAP makes the other dirty-log region active. -/
  | dlSwap (org : Origin) (fn : Nat)
  /-- KSK_SET (R420): KSK_SET places a function's Kiosk and empties its rings. -/
  | kskSet (org : Origin) (fn : Nat)
  /-- PAGE_ZEROED (R467): An HBM page finishes zeroing and joins the free pool, and held accesses to it proceed. -/
  | pageZeroed (page : Nat)
  /-- KIOSK_POST (R431): A write to KSK.TX_POST writes the staged message to the REQ ring, or sets TX_REFUSED. -/
  | kioskPost (fn : Nat)
  /-- RSP_TAIL_DOORBELL (R432): FN.KSK_DB with RING 0 moves the RSP tail and presents the next message. -/
  | rspTailDoorbell (org : Origin) (fn idx : Nat)
  /-- REQ_HEAD_DOORBELL (R431): FN.KSK_DB with RING 1 returns REQ entries and lets pending notices be posted. -/
  | reqHeadDoorbell (org : Origin) (fn idx : Nat)
  /-- RX_POP (R432): A write to KSK.RX_POP consumes the presented message and presents the next. -/
  | rxPop (fn : Nat)
  /-- SRAM_WORD_BEYOND_ECC (R444): An on-die memory word is beyond ECC and is handled per Table 17.2. -/
  | sramWordBeyondEcc (mem inst : Nat) (w : SramLoss)
  /-- JOURNAL_RECORD_BEYOND_ECC (R445): A Journal record is beyond ECC and is handled by its state and role. -/
  | journalRecordBeyondEcc (n : Nat)
  /-- PIPELINE_PARITY_EVENT (R448): A transport-pipeline parity event empties and resets the pipeline and replays its records. -/
  | pipelineParityEvent (k : Nat) (again : Bool)
  /-- ROUTER_PARITY_EVENT (R455): A router-core parity event moves the device to FAULT. -/
  | routerParityEvent
  /-- AVENUE_STOP_FAULT (R455): A fault of an Avenue stop's logic moves the device to FAULT. -/
  | avenueStopFault
  /-- ENTER_EQUAL (R456): ENTER_EQUAL moves the device from SERVICE to EQUAL_SHARE. -/
  | enterEqual (org : Origin)
  /-- LEAVE_EQUAL (R429): LEAVE_EQUAL returns the device to SERVICE with the allocated limits. -/
  | leaveEqual (org : Origin)
  /-- DRAIN (R457): DRAIN moves the device to DRAIN. -/
  | drain (org : Origin)
  /-- DRAIN_END (R457): All records are free or 100 ms have passed, so RESET_NOTICE is sent on every connected QP. -/
  | drainEnd (timeout : Bool)
  /-- DRAIN_RESET_TIMER (R457): 20 µs after the last notice the device reset begins. -/
  | drainResetTimer
  /-- REC_SEL (R459): A write to JNL.REC_SEL takes a snapshot of a Journal record. -/
  | recSel (org : Origin) (n : Nat)
  /-- VAON_UP (R460): VAON reaches tolerance with POR_N asserted and the device enters STANDBY. -/
  | vaonUp
  /-- VAON_LOSS (R460): VAON leaves tolerance and the device is OFF. -/
  | vaonLoss
  /-- POR_N_ASSERT (R460): POR_N is asserted and the device enters STANDBY. -/
  | porNAssert
  /-- POR_N_DEASSERT (R463): POR_N is deasserted and a cold start begins. -/
  | porNDeassert
  /-- RAIL_OUT_OF_TOLERANCE (R462): A rail group other than VAON leaves tolerance and the device enters STANDBY. -/
  | railOutOfTolerance
  /-- RESET_N_ASSERT (R464): RESET_N is held low for 1 µs or more and a device reset begins. -/
  | resetNAssert
  /-- RESET_N_DEASSERT (R464): RESET_N is deasserted and a device start begins. -/
  | resetNDeassert
  /-- START_STEP_COMPLETE (R463): A step of the start sequence completes and the next step begins. -/
  | startStepComplete (n ms : Nat) (x : StepInfo)
  /-- DEVICE_RESET (R476): A DEVICE_RESET command with the right CONFIRM starts a device reset. -/
  | deviceReset (org : Origin) (confirm : Nat)
  /-- RELEASE (R466): RELEASE moves the device from EQUAL_SHARE after reset to SERVICE. -/
  | release (org : Origin) (ms : Nat)
  /-- RELEASE_TIMEOUT (R463): RELEASE_MS after t0 the device enters SERVICE. -/
  | releaseTimeout (ms : Nat)
  /-- CLEAR_UCAL (R475): CLEAR_UCAL marks the user calibration record cleared in flash. -/
  | clearUcal (org : Origin)
  /-- STAGE (R483): STAGE writes a component into the inactive bank. -/
  | stage (org : Origin)
  /-- VERIFY (R483): VERIFY checks the inactive bank's components. -/
  | verify (org : Origin) (fw : List Byte) (img : ImgRead) (ucal : UcalRead)
  /-- FW_ARM (R486): ARM arms activation of the staged bank at fabric time T. -/
  | fwArm (org : Origin)
  /-- CANCEL (R483): CANCEL disarms the armed bank. -/
  | cancel (org : Origin)
  /-- CONFIRM (R488): CONFIRM makes the trial bank active and blows the SVN fuses. -/
  | confirm (org : Origin)
  /-- ROLLBACK (R487): ROLLBACK ends the trial and resets to the fallback bank. -/
  | rollback (org : Origin)
  /-- SET_MANAGER_PORT (R494): SET_MANAGER_PORT moves the manager role to another port. -/
  | setManagerPort (sess : Option Nat) (port : Nat)
  /-- FUSE_OWNER_KEY (R478): FUSE_OWNER_KEY programs an owner key slot. -/
  | fuseOwnerKey (sess : Option Nat) (m : FuseMsg)
  /-- REVOKE_OWNER_KEY (R478): REVOKE_OWNER_KEY revokes an owner key slot. -/
  | revokeOwnerKey (sess : Option Nat) (slot : Nat)
  /-- SET_KEK (R493): SET_KEK installs the node's key-encryption key. -/
  | setKek (m : KekMsg)
  /-- ACTIVATION (R486): Fabric time reaches T and the armed bank is activated through a drain or a device reset. -/
  | activation
  /-- CONFIRM_TIMEOUT (R487): CONFIRM_S passes in a trial without CONFIRM, and the bank rolls back. -/
  | confirmTimeout
  /-- GET_VERSION (R492): An SPDM GET_VERSION request is answered. -/
  | getVersion
  /-- GET_CAPABILITIES (R492): An SPDM GET_CAPABILITIES request is answered. -/
  | getCapabilities
  /-- NEGOTIATE_ALGORITHMS (R492): An SPDM NEGOTIATE_ALGORITHMS request is answered. -/
  | negotiateAlgorithms
  /-- GET_DIGESTS (R492): An SPDM GET_DIGESTS request is answered. -/
  | getDigests
  /-- GET_CERTIFICATE (R492): An SPDM GET_CERTIFICATE request is answered. -/
  | getCertificate (slot : Nat)
  /-- CHALLENGE (R492): An SPDM CHALLENGE request is answered. -/
  | challenge (slot : Nat)
  /-- GET_MEASUREMENTS (R491): An SPDM GET_MEASUREMENTS request returns the measurement blocks. -/
  | getMeasurements (idx : Nat)
  /-- KEY_EXCHANGE (R492): An SPDM KEY_EXCHANGE request starts a secured session. -/
  | keyExchange (id slot : Nat)
  /-- FINISH (R492): An SPDM FINISH request completes session establishment. -/
  | finish (id : Nat) (good : Bool) (owner : Option Nat)
  /-- HEARTBEAT (R492): An SPDM HEARTBEAT request is answered. -/
  | heartbeat (id : Nat)
  /-- KEY_UPDATE (R492): An SPDM KEY_UPDATE request updates session keys. -/
  | keyUpdate (id : Nat)
  /-- END_SESSION (R492): An SPDM END_SESSION request ends a session. -/
  | endSession (id : Nat)
  /-- OOB_DCS_ACCESS (R490): An out-of-band MCTP vendor-defined message accesses the DCS. -/
  | oobDcsAccess (off : Nat) (write : Option Word)
  /-- PLDM_REQUEST (R511): An out-of-band PLDM request for monitoring or firmware update is served. -/
  | pldmRequest (r : PldmReq)
  /-- I3C_DYNAMIC_ADDRESS (R511): SETDASA or ENTDAA assigns the device an I3C dynamic address. -/
  | i3cDynamicAddress (addr : Nat)
  /-- SENSOR_UPDATE (R501): A temperature sensor updates, which may set THERMAL, force STAGE_MAX or assert THERM_TRIP_N. -/
  | sensorUpdate (n : Nat) (t : Int)
  /-- THERMAL_TRIP (R501): The always-on thermal trip asserts THERM_TRIP_N until POR_N is asserted. -/
  | thermalTrip
  /-- GOVERNOR_WINDOW_END (R499): At the end of each 1 µs window the governor computes and applies a new STAGE. -/
  | governorWindowEnd (power : Nat)
  /-- AT_FLOOR_TIMEOUT (R501): At STAGE_MAX with a sensor hot for 10 ms, AT_FLOOR is set and events are sent. -/
  | atFloorTimeout
  /-- SELF_TEST_SLICE (R504): A self-test slice is due and runs, is deferred or is forced. -/
  | selfTestSlice (kind target : Nat) (busy : Bool) (e : SliceEnd)
  /-- SLICE_RETRY (R505): 10 µs after a deferral the slice is tried again. -/
  | sliceRetry (kind target : Nat) (busy : Bool) (e : SliceEnd)
  /-- FUSE (R507): FUSE writes the pending soft repairs into repair fuses. -/
  | fuse (org : Origin) (confirm : Nat)
  /-- BW_WINDOW_END (R510): A bandwidth monitor window ends and BYTES, SEQ and PEAK are updated. -/
  | bwWindowEnd (m : Nat)
  /-- UART_FRAME (R513): A UART frame is received and stored, flagged as a framing error, or counted as a break. -/
  | uartFrame (samples : List Bool)
  /-- UART_TX (R512): A write to MGT.UART_TX queues a byte to send while HOST is 1. -/
  | uartTx (org : Origin) (b : Nat)
  /-- LANES_GOOD (R257): A link in V_RETRAIN finds both lanes, or one lane with DEGRADE_OK, good before 150 µs and enters V_ACTIVE or V_DEGRADED, joining the live set. -/
  | lanesGood (link lanes : Nat)
  /-- INTERNAL_RESET_PULSE_END (R464): The 10 µs internal reset pulse of a DEVICE_RESET command, a drain or an activation ends, which is t0 of the device start. -/
  | internalResetPulseEnd
  /-- TAG_REUSE (R114): 18 ms after a tag timed out it is released for reuse. -/
  | tagReuse (l : LinkId) (tag : Nat)
  /-- COMMAND_INTERFACE_FAILURE (R394): A pseudo-channel's training or command interface fails and the PC is retired, with DOMAIN_OFF for queued requests and an HBM_PC_RETIRED notice. -/
  | commandInterfaceFailure (stack pc : Nat)
  /-- MCTP_CONTROL (R511): An out-of-band MCTP control message, such as the bus owner assigning the endpoint ID shown in MGT.I3C_STATUS.EID, is served. -/
  | mctpControl (r : MctpReq)
  /-- RECEIVE_LPI (R296): The link partner enters Low Power Idle, so PORT_STATUS.LPI_RX is set and LPI_RX is counted. -/
  | receiveLpi (port : Nat)
  /-- LPI_WAKE (R297): TW_TX µs before an opening of a gate in WAKE_MASK, the port leaves transmit LPI. -/
  | lpiWake (port : Nat)
  /-- PHY_PLL_LOCK_LOST (R27): A SerDes, PCIe PHY or HBM PHY PLL loses or regains lock and its bit in CLKPWR.CLK_STATUS changes. -/
  | phyPllLockLost (kind n : Nat) (locked : Bool)
  /-- BOUNDARY_SCAN (R526): The test access port is clocked or reset through TCK, TMS, TDI and TRST_N and runs BYPASS, SAMPLE/PRELOAD or EXTEST instructions. -/
  | boundaryScan (x : TapInput)
  deriving DecidableEq, Repr

end Sys2Proof
end

