-- ==== Sys2Proof/Decode.lean ====
section
/-! DEFINITION. The words of commands: the table gives no row any bits, so no word spells a command. -/

namespace Sys2Proof

/-- The command a word spells: none, since spec/opcode_table.json gives no row bits (log entry 1). -/
def decodeTableWord (_nbits _w : Nat) : Option Instr := none

end Sys2Proof
end

