-- ==== Sys2Proof/Config.lean ====
section
/-! DEFINITION. The values the spec leaves open, as constants without a body: no proof can see what they are. A fresh one
is drawn by applying a constant to the state's counter freeCount. -/

namespace Sys2Proof
namespace Config

/-- A free 64-bit value, fresh for each index: attach tokens (R116), bytes of an overlapping COPY (R124), and the other
values that notes/assumptions/3.md lists. -/
opaque freeWord : Nat → BitVec 64

/-- A free byte for an index and a position. -/
opaque freeByte : Nat → Nat → BitVec 8

/-- The window epoch drawn at random at start (R271). -/
opaque freeEpoch : Nat → BitVec 8

/-- A word of a vector register past the packed elements that a conversion writes (R324): by the image that runs, the position in it and the
Block's vector registers, so that it is a function of the Block's state and the image (R347), and by its number. -/
opaque freeLane : List Nat → Nat → BitVec 32

/-- The address that a Journal record holds for a window of a RoCEv2 peer, by key and virtual address (R57): the peer's node names no FGA
to the requester. -/
opaque foreignTarget : Nat → Nat → BitVec 64

/-- The set of the STLB, and of its walk cache, that an entry lies in (R75, Table 3.2): the spec gives their organisation and not how a set
is found. -/
opaque stlbSet : Nat → Nat

/-- The set of the walk cache. -/
opaque walkSet : Nat → Nat

/-- The TTL or hop limit of an SLT packet over IP, and what its IP header holds that no rule gives: the DF flag of IPv4, and the flow label
of IPv6. -/
opaque sltHops : BitVec 8

/-- The DF flag. -/
opaque ipDf : Bool

/-- The flow label. -/
opaque flowLabel : BitVec 20

/-- The number of cells of the boundary-scan register, which the spec does not give (R526). -/
opaque scanCells : Nat

end Config
end Sys2Proof
end

