-- ==== Sys2Proof/Machine/State.lean ====
section
/-! DEFINITION. The state of the block: every register field (through Regs), every memory, queue, table and state
machine the spec gives it, as plain data, and the state right after reset. Parts are grouped by chapter. -/

namespace Sys2Proof
namespace Machine

/-- The block never stops: every command either has its effect or finds its condition unmet and leaves the state as it
is. -/
inductive Fault where
  /-- Kept for a command that would address HBM outside the device's address space. No meaning raises it (every address is
  checked first, R48); safe. -/
  | outsideMemory (addr : Nat)
  deriving DecidableEq, Repr

/-- Why a command has no meaning here. -/
inductive Refusal where
  /-- Raised by exec for a command of the table that is not modelled; safe (the model stops where the device goes on). -/
  | notModelled (mnemonic : String)
  deriving DecidableEq, Repr

/-! ### Chapter 0: capabilities -/

/-- The three variants of Table 0.1. -/
inductive Variant where
  | cx940 | cx920 | cx900
  deriving DecidableEq, Repr

/-- A key slot in fuses (Table 19.1): whether it is programmed, whether it is revoked, and the SHA-384 hash of its public key. -/
structure KeySlot where
  set : Bool := false
  revoked : Bool := false
  hash : List Byte := []
  deriving DecidableEq, Repr

/-- What is fused or strapped into the part and only read (R2, R53, R105, R478; Tables 0.2, 20.9, 21.3). -/
structure Fuses where
  variant : Variant := .cx940
  /-- The strap HP_CLASS[n] of each port. -/
  hpClass : List Bool := [true, true, true, true]
  /-- The tray's position straps. -/
  posStraps : Nat := 0
  /-- The I3C static address straps. -/
  i3cAddr : Nat := 0
  /-- The four Mehreg key slots (R478). -/
  mehreg : List KeySlot := [{}, {}, {}, {}]
  deriving DecidableEq, Repr

/-! ### Chapter 1: clocks and fabric time -/

/-- Fabric time and its discipline (R28 to R31). -/
structure ClockState where
  /-- Seconds and nanoseconds of fabric time (R28). -/
  secs : Nat := 0
  ns : Nat := 0
  /-- The fraction accumulator in units of 2^-32 ns (R30). -/
  frac : Nat := 0
  /-- Sum and number of the offsets formed in the current period (R31). -/
  offSum : Int := 0
  offCnt : Nat := 0
  /-- The last mean lay within STEP_NS; the last TIME flit on the source link carried SYNC = 1; one arrived in time. -/
  within : Bool := false
  srcSync : Bool := false
  /-- The free-running count of CLK_T edges that link flits carry as TS (Table 9.3). -/
  cycles : Nat := 0
  deriving DecidableEq, Repr

/-! ### Chapter 2: the aperture -/

/-- What an aperture entry's key was resolved to when it was committed (R64, R541). -/
inductive KeyHome where
  | owned
  | imported (node : Nat)
  deriving DecidableEq, Repr

/-- One slot of an aperture map (R58, Table 2.12) with its resolution (R64). -/
structure AptEntry where
  wkey : Nat := 0
  woff : Nat := 0
  w : Bool := false
  r : Bool := false
  v : Bool := false
  qp : Nat := 0
  home : KeyHome := .owned
  /-- The connection of the QP at the commit (Table 2.17): it fails once the QP has left it. -/
  conn : Nat := 0
  deriving DecidableEq, Repr

/-- A part of an aperture read, or an atomic (R60): still awaited, answered, or failed. -/
inductive AptPart where
  | wait
  | got (data : List Byte)
  | failed (st : Status)
  deriving DecidableEq, Repr

/-- An aperture read or atomic not yet answered on PCIe (R63, R69): its tag, bytes, and its parts with their aperture offsets. -/
structure AptRead where
  tag : Nat
  len : Nat
  parts : List (Nat × AptPart)
  deriving DecidableEq, Repr

/-- A request to BAR2 that is held while a commit to its slot is in progress (R65). -/
inductive AptReq where
  | read (tag ao len : Nat)
  | write (ao : Nat) (data : List Byte)
  | atomic (tag ao : Nat) (kind : AtomicKind) (a b : Nat)
  deriving DecidableEq, Repr

/-- The aperture of one function. -/
structure Aperture where
  slots : AMap AptEntry := []
  /-- ENTRY_HI as staged. -/
  stagedQp : Nat := 0
  reads : List AptRead := []
  /-- Aperture writes in flight: a number each, in order of arrival, and whether the pending fence covers them. -/
  writes : List (Nat × Bool) := []
  nextWrite : Nat := 0
  /-- The slot of a commit whose BUSY period runs, the entry that it commits unless it was refused, and the requests held for it, with
  whether the pending fence covers them (R62, R65). -/
  commitSlot : Option Nat := none
  commitEntry : Option AptEntry := none
  held : List (AptReq × Bool) := []
  deriving DecidableEq, Repr

/-! ### Chapter 3: translation -/

/-- A cached HA translation (Table 3.1): function, first HA, page size in bytes, target, rights. -/
structure TlbEntry where
  fn : Nat
  ha : Nat
  size : Nat
  hbm : Bool
  addr : Nat
  r : Bool
  w : Bool
  ns : Bool
  deriving DecidableEq, Repr

/-- The TLBs of Table 3.2. -/
inductive TlbLoc where
  /-- The micro-TLB of a Block. -/
  | block (b : Nat)
  /-- The micro-TLB of the DMA engine of a host port. -/
  | dma (port : Nat)
  /-- The micro-TLB of a transport pipeline. -/
  | pipe (k : Nat)
  | stlb
  deriving DecidableEq, Repr

/-- A TLB entry, of one of the kinds of Table 3.1. -/
inductive XlEntry where
  | ha (e : TlbEntry)
  /-- A window: index and generation; base FGA, length, and rights R and W. -/
  | win (index gen base len : Nat) (r w : Bool)
  /-- A page of HBM that is allocated to a function. -/
  | own (fn page : Nat)
  deriving DecidableEq, Repr

/-- A non-leaf entry in the walk cache (Table 3.2): function, level, the bits of the HA above those that the next level indexes, and the
address of the next table. -/
structure WalkEntry where
  fn : Nat
  level : Nat
  pre : Nat
  table : Nat
  deriving DecidableEq, Repr

/-- How the translation of a page ended for an access: a translation with the right, a reason of Table 3.13, or a status. -/
inductive XlOut where
  | ok (e : TlbEntry)
  | fault (reason : Nat)
  | err (st : Status)
  deriving DecidableEq, Repr

/-- The end of a translation that an operation holds until it has issued its accesses (R90): page number of the HA, and access. -/
structure XlDone where
  page : Nat
  acc : Access
  out : XlOut
  deriving DecidableEq, Repr

/-- Who waits for a walk: an operation, the fetch of a queue, a completion half, the fault ring of the function, or a held packet of
a QP. -/
inductive XlWaiter where
  | op (r : OpRef)
  | ring (q : Nat)
  | cpl (r : OpRef)
  | faults
  | packet (q : Nat)
  deriving DecidableEq, Repr

/-- Who waits for a walk: for which access, and through which micro-TLB. -/
structure XlWait where
  who : XlWaiter
  acc : Access
  loc : TlbLoc
  deriving DecidableEq, Repr

/-- A table walk for a page of a function (R81 to R85): who waits for it; and once it has started, the medium, the levels that are still
to be read and the table to begin with as the context registers and the walk cache gave them then (R84), and whether an invalidation has
met it (R86). -/
structure Walk where
  fn : Nat
  page : Nat
  waits : List XlWait
  started : Bool := false
  hbm : Bool := false
  levels : List Nat := []
  table : Nat := 0
  stale : Bool := false
  /-- The status with which it ends because its context was disabled, or its HA out of range, when it started (R77, R89). -/
  refused : Option Status := none
  /-- The entries of host tables that its end has brought, how many reads have left, and whether its end has come: it waits while the
  host-port meter holds a read of it (R236). -/
  words : List (Option Nat) := []
  sent : Nat := 0
  ended : Bool := false
  deriving DecidableEq, Repr

/-- A fault that is to be recorded: the operation that it parked, and what its entry holds (Table 3.15). -/
structure FaultRec where
  ref : Option OpRef
  eng : XlEngine
  source : Nat
  jrec : Nat
  page : Nat
  reason : Nat
  write : Bool
  count : Nat := 1
  deriving DecidableEq, Repr

/-- What a function's fault ring has still to do, once it may be written: record a fault, or close the open batch (R93). -/
inductive FaultItem where
  | fault (f : FaultRec)
  | close
  deriving DecidableEq, Repr

/-- An entry of the open fault batch: its ring index, page, reason, whether the access needed W, faults coalesced, and
byte 9 as written. -/
structure FbEntry where
  idx : Nat
  page : Nat
  reason : Nat
  write : Bool
  count : Nat
  b9 : Nat
  deriving DecidableEq, Repr

/-- The fault batch in progress and the pages recorded in it (R93, R94). -/
structure FaultBatch where
  /-- Number of the next or open batch. -/
  number : Nat := 0
  isOpen : Bool := false
  /-- Entries of the open batch, oldest first. -/
  entries : List FbEntry := []
  /-- Faults were parked without entries since the last entry written. -/
  lost : Bool := false
  deriving DecidableEq, Repr

/-- Access counters of a function (R98, R99): values cached on die and the hints sent. -/
structure AcState where
  hinted : List Nat := []
  deriving DecidableEq, Repr

/-! ### Chapter 4: host ports -/

/-- The states of a function at the host port (Tables 4.9 and 4.14). -/
inductive FnState where
  | notCreated | active | resetting | orphaned | wedged
  deriving DecidableEq, Repr

/-- The code of HP.FN_INFO.STATE. -/
def FnState.code : FnState → Nat
  | .notCreated => 0 | .active => 1 | .resetting => 2 | .orphaned => 3 | .wedged => 4

/-- A function: its state and its PCIe configuration state (R104, R112, R113, R127, R542). -/
structure Fn where
  state : FnState := .notCreated
  /-- A crash event arrived during the reset in progress (R115). -/
  crashed : Bool := false
  /-- The reset in progress ends in a teardown (R118) or a DESTROY (Table 16.2). -/
  destroy : Bool := false
  mse : Bool := false
  bme : Bool := false
  cto : Nat := 0
  relaxed : Bool := false
  msixEn : Bool := false
  msixMask : Bool := false
  /-- VF Enable was cleared and not set again (R113): the VF is not served. -/
  vfHidden : Bool := false
  /-- NumVFs and VF Enable of a PF. -/
  numVfs : Nat := 0
  vfEnable : Bool := false
  /-- What the host has written to the BAR doublewords 0 to 5, and to the VF BAR doublewords of a PF as 6 to 11 (R104). -/
  bars : AMap Nat := []
  /-- AER: the Uncorrectable Error Status (R100, R114). -/
  aer : Nat := 0
  /-- Device Control: the codes of Max_Payload_Size and Max_Read_Request_Size (R100, log entry 122). -/
  mps : Nat := 0
  mrrs : Nat := 2
  deriving DecidableEq, Repr

/-- A link of a host port: its training, crash watch and attach token (R101, R116, R117). -/
structure HostLink where
  /-- The attach token, and whether it has still to be read. -/
  token : Word := 0
  tokenFresh : Bool := false
  badTokens : Nat := 0
  grace : Bool := false
  /-- The 100 ms wait after a link down runs. -/
  downWait : Bool := false
  perst : Bool := true
  /-- Fabric time in ns at which the watchdog was last restarted, and at which the grace period began. -/
  wdogAt : Nat := 0
  graceAt : Nat := 0
  deriving DecidableEq, Repr

/-- What a non-posted request of the device to a host is for. -/
inductive TagUse where
  | data (op : OpRef) (off : Nat) (len : Nat)
  | flush (op : OpRef)
  deriving DecidableEq, Repr

/-- An outstanding host tag (R104, R114). -/
structure Tag where
  port : Nat
  sub : Bool
  tag : Nat
  fn : Nat
  use : TagUse
  /-- Its completion is to be discarded (R112, R113). -/
  dead : Bool := false
  /-- It has timed out and is kept out of use for 18 ms. -/
  timedOut : Bool := false
  /-- The translation that the access was made with. -/
  via : Option TlbEntry := none
  deriving DecidableEq, Repr

/-- An invalidation engine at work (R86): what it removes, and the reads through a removed entry that were outstanding when it was
commanded. -/
structure Inval where
  fns : List Nat
  lo : Nat
  hi : Nat
  reads : List (Nat × Bool × Nat × TagUse) := []
  /-- Operations that hold a removed translation and have not issued all the accesses that they translated with it. -/
  ops : List OpRef := []
  /-- Walks of its functions that were in flight when it was commanded and have not ended: function and page. -/
  walks : List (Nat × Nat) := []
  deriving DecidableEq, Repr

/-- An MSI-X table entry (R127, R539): address, data and mask; the pending bit beside it. -/
structure Msix where
  addr : Nat := 0
  data : Nat := 0
  mask : Bool := true
  pending : Bool := false
  deriving DecidableEq, Repr

/-! ### Chapter 5: work queues -/

/-- Queue states (Table 5.11). -/
inductive QState where
  | off | active | held | parked
  deriving DecidableEq, Repr

/-- The code of QF.STATUS.STATE. -/
def QState.code : QState → Nat
  | .off => 0 | .active => 1 | .held => 2 | .parked => 3

/-- A queue context (R119 to R121, R130 to R137). -/
structure Queue where
  state : QState := .off
  /-- The state to return to when the hold ends. -/
  before : QState := .active
  oldest : Nat := 0
  tail : Nat := 0
  /-- The next position to fetch. -/
  fetch : Nat := 0
  /-- Reads of the entry at fetch that found OWN = 0 (R131). -/
  tries : Nat := 0
  prefetchStop : Bool := true
  /-- Positions completed beyond OLDEST. -/
  finished : List Nat := []
  /-- When TAIL was moved to where: the position and the fabric time in ns, newest last (R238). -/
  passed : List (Nat × Nat) := []
  /-- The position after an ARM that failed a check, and its status (R155). -/
  armFail : Option (Nat × Status) := none
  /-- The ring read that the host-port meter held has been issued (R236). -/
  granted : Bool := false
  /-- Entries for relaxed QPs that failed a check of dispatch and that no later operation of the queue has followed on their QP: position,
  QP, connection, whether the entry ends a batch, and status (R150). -/
  failed : List (Nat × Nat × Nat × Bool × Status) := []
  deriving DecidableEq, Repr

/-- A decoded work descriptor (Tables 5.1 and 5.2). -/
structure Desc where
  opcode : Nat := 0
  flags : Nat := 0
  var : Nat := 0
  rsvd : Nat := 0
  qp : Nat := 0
  len : Nat := 0
  rkey : Nat := 0
  laddr : Nat := 0
  opx : Nat := 0
  opa : Nat := 0
  opb : Nat := 0
  own : Bool := false
  deriving DecidableEq, Repr

/-- Why an operation is parked (R89, R94, R91). -/
inductive ParkKind where
  /-- Recorded in a batch. -/
  | batch (b : Nat)
  /-- Parked without an entry. -/
  | silent
  /-- Behind a parked operation of its queue or QP. -/
  | behind
  deriving DecidableEq, Repr

/-- Where a dispatched operation stands. -/
inductive OpPhase where
  /-- Dispatched, not started. -/
  | ready
  /-- Second of an armed pair, before its trigger fires (R133). -/
  | armed
  /-- Waits for a table walk of the page at ha (R89). -/
  | walking (ha : Nat)
  | parked (k : ParkKind)
  /-- Reads of its source in host memory are outstanding. -/
  | gather
  /-- Its packets are on the wire, or it waits at a target, or an engine works on it. -/
  | engine
  /-- A RECV that is posted. -/
  | posted
  /-- A FLUSH_HOST or FENCE_HOST waits for its flush read. -/
  | flushing
  /-- A CAS128 that has been performed, whose prior value waits until its host may be written (R112). -/
  | prior
  deriving DecidableEq, Repr

/-- A dispatched operation (R125 to R128, R133): its descriptor, where it stands, and the bytes gathered so far. -/
structure Op where
  ref : OpRef
  d : Desc
  phase : OpPhase := .ready
  /-- Bytes done, from which a replay resumes (R90, R91). -/
  seg : Nat := 0
  buf : AMap (List Byte) := []
  wasParked : Bool := false
  reissued : Bool := false
  triggered : Bool := false
  /-- A second entry that has fired: the position of the first entry of its queue that had not started then (R154). -/
  firedAt : Nat := 0
  /-- Journal record index (R126). -/
  jrec : Option Nat := none
  /-- Translations held until the accesses made with them have been issued (R90). -/
  xl : List XlDone := []
  /-- Elements of an array conversion that could not be converted so far (R73). -/
  bad : Nat := 0
  /-- Where the bytes lie that a COPY has read and written so far, in HBM or in host memory: address and length (R124). -/
  from_ : List (Bool × Nat × Nat) := []
  onto : List (Bool × Nat × Nat) := []
  /-- An ARM whose second entry failed a check when it was fetched and is no longer there (R133, R137). -/
  alone : Bool := false
  /-- The packet of its transport operation whose data are being copied again for a retransmission (R196). -/
  again : Option Nat := none
  deriving DecidableEq, Repr

/-- A completion half held back because the function may not write to its host (R112), or until the ring's translation is at hand. -/
structure HeldCpl where
  ref : OpRef
  bytes : List Byte
  irq : Bool
  deriving DecidableEq, Repr

/-- The invalidation of the privileged descriptor cache in progress (R135). -/
inductive QInval where
  | slot (q i : Nat)
  | queue (q : Nat)
  | all
  deriving DecidableEq, Repr

/-! ### Chapter 6: windows and turnstiles -/

/-- Window and import states (Table 6.8). -/
inductive WState where
  | free | valid | revoking | destroying | retired | importing | imported | stale
  deriving DecidableEq, Repr

/-- The code of the STATE byte of Table 6.2. -/
def WState.code : WState → Nat
  | .free => 0 | .valid => 1 | .revoking => 2 | .destroying => 3 | .retired => 4 | .importing => 8 | .imported => 9
  | .stale => 10

/-- A descriptor of the window table (Table 6.2); an index never used is free at generation 1 (R156). -/
structure Window where
  state : WState := .free
  /-- Current generation. -/
  gen : Nat := 1
  base : Nat := 0
  len : Nat := 0
  grant : Nat := 0
  w : Bool := false
  r : Bool := false
  owner : Nat := 0
  grantFn : Nat := 0
  grantNode : Nat := 0
  time : Nat := 0
  /-- The function whose command revokes it, and whether that was a REVOKE of generation 1023 (Table 6.5). -/
  cmdFn : Option Nat := none
  exhausts : Bool := false
  deriving DecidableEq, Repr

/-- An import record (R159). -/
structure Import where
  fn : Nat
  node : Nat
  index : Nat
  state : WState
  key : Nat := 0
  base : Nat := 0
  len : Nat := 0
  w : Bool := false
  r : Bool := false
  grant : Nat := 0
  qp : Nat := 0
  /-- The index of the window table it lies at (R157, Table 6.8). -/
  slot : Nat := 0
  time : Nat := 0
  /-- The key of an IMPORT not yet answered, and the QP that it asks over. -/
  asked : Option Nat := none
  askQp : Nat := 0
  deriving DecidableEq, Repr

/-- Who uses a window or a turnstile (R158): node and function. -/
structure User where
  node : Nat
  fn : Nat
  /-- A RoCEv2 peer, which is no function of its node (R209). -/
  roce : Bool := false
  deriving DecidableEq, Repr

/-- Where a turnstile operation came from. -/
inductive TsSource where
  | op (r : OpRef)
  | packet (qp psn : Nat)
  | step (blk : Nat)
  /-- A device engine that needs no answer. -/
  | engine
  deriving DecidableEq, Repr

/-- What a waiting turnstile operation waits for (R169). -/
inductive TsWant where
  /-- A value at or above the threshold; the result is the value then, or the value held before the add. -/
  | value (threshold : Nat) (result : Option Nat)
  | lock
  deriving DecidableEq, Repr

/-- A waiter of a turnstile, oldest first. -/
structure TsWaiter where
  src : TsSource
  user : User
  want : TsWant
  /-- Window index and generation it was admitted through, if any. -/
  key : Option (Nat × Nat)
  deriving DecidableEq, Repr

/-- A turnstile: value and owner field (Table 6.9a), its waiters, and what arrives for collectives is counted in value. -/
structure Turnstile where
  value : Nat := 0
  owner : Nat := 0
  waiters : List TsWaiter := []
  deriving DecidableEq, Repr

/-- The condition of an armed trigger (R152). -/
inductive Trigger where
  | threshold (ts : Nat) (val : Nat) (key : Option (Nat × Nat))
  | tag (t : Nat)
  deriving DecidableEq, Repr

/-- An armed trigger: the second entry it starts. -/
structure Armed where
  second : OpRef
  cond : Trigger
  deriving DecidableEq, Repr

/-! ### Chapter 7: transport -/

/-- QP states (Table 7.6). -/
inductive QpState where
  | free | init | connecting | connected | closing | error
  deriving DecidableEq, Repr

/-- The code of the STATE byte of Table 7.2. -/
def QpState.code : QpState → Nat
  | .free => 0 | .init => 1 | .connecting => 2 | .connected => 3 | .closing => 4 | .error => 5

/-- Who waits for a transport operation of the requester. -/
inductive TpOwner where
  | queue (r : OpRef)
  /-- A part of an aperture read, or an atomic, by its aperture offset; an aperture write by number and aperture offset. -/
  | aptRead (fn tag ao : Nat)
  | aptWrite (fn num ao : Nat)
  | step (blk : Nat) (id : Nat)
  | coll (id : Nat) (peer : Nat)
  /-- Nobody waits for it. -/
  | none
  deriving DecidableEq, Repr

/-- An operation admitted by a requester (R194, R200): what it carries, its first PSN (planned until its first packet
is sent), its number of packets and how many have been sent, and its ALIVE value. -/
structure TpOp where
  owner : TpOwner
  kind : SltOp
  psn : Nat := 0
  npkt : Nat := 1
  tx : Nat := 0
  alive : Nat := 0
  key : Nat := 0
  /-- Offset in the window, or tag of a SEND. -/
  off : Nat := 0
  len : Nat := 0
  var : Nat := 0
  a : Nat := 0
  b : Nat := 0
  data : List Byte := []
  notify : Bool := false
  /-- The batch of a relaxed QP it belongs to (R147), and whether it ends it (R147, R151). -/
  batch : Nat := 0
  ends : Bool := false
  /-- Bytes of the read response placed so far, by offset. -/
  got : AMap (List Byte) := []
  /-- WAITING was received: neither timeout nor retransmission runs (R203). -/
  waiting : Bool := false
  /-- The Journal record of an operation that has no descriptor. -/
  jrec : Option Nat := none
  /-- Its data are at hand; an operation admitted earlier may still be reading its local buffer, of which avail bytes are at hand
  (R90). -/
  ready : Bool := true
  avail : Nat := 0
  /-- It has completed at the requester; packets it has sent are still outstanding (R188, R199). -/
  ended : Bool := false
  /-- Its record has been re-issued (R449): the TXCNT of the packets that it sends from then on, or more. -/
  redo : Option Nat := none
  deriving DecidableEq, Repr

/-- An outstanding packet (R188, R195, R196): its last transmission's path, count, time and number in the QP's sequence
of transmissions, and the retransmission timeout in force for it in ns. -/
structure OutPkt where
  psn : Nat
  /-- The operation it belongs to, by ALIVE, and its number in it; or the response packet that it is. -/
  alive : Nat := 0
  idx : Nat := 0
  resp : Option SltPkt := none
  path : Nat := 0
  txcnt : Nat := 0
  sent : Nat := 0
  seq : Nat := 0
  rto : Nat := 0
  /-- Its PSN has been acknowledged; kept for an operation whose response is awaited. -/
  acked : Bool := false
  /-- Its data have been copied again from a buffer in host memory, for its next transmission (R196). -/
  fresh : Bool := false
  deriving DecidableEq, Repr

/-- An operation at the target whose packets have not all been applied, or that waits (R175, R191). -/
structure TgtOp where
  alive : Nat
  kind : SltOp
  /-- PSN of its first packet. -/
  first : Nat
  /-- Packets not yet applied, and the PSNs of those that have been. -/
  left : Nat
  psns : List Nat := []
  recv : Option OpRef := none
  jrec : Option Nat := none
  waits : Bool := false
  deriving DecidableEq, Repr

/-- A responder-cache entry (R201). -/
structure RcEntry where
  psn : Nat
  alive : Nat
  /-- The response to send again; none for a SEND, or while a turnstile operation waits. -/
  resp : Option SltPkt := none
  /-- The RECV matched by a SEND: function, kind of its address, and address. -/
  recv : Option (Nat × Bool × Nat) := none
  /-- The response of an ended wait is sent again until ALIVE_REL passes (R203). -/
  again : Bool := false
  /-- It is the response of an ended TS_WAIT, which takes no entry of the cache (R201). -/
  free : Bool := false
  /-- CUM when it was made, for RoCEv2 (R210). -/
  cum : Nat := 0
  deriving DecidableEq, Repr

/-- An encrypted packet whose tag result is not yet known (R408), and where its bytes have been written already: function, kind
of the address, and address. -/
structure Unauth where
  pkt : SltPkt
  place : Option (Nat × Bool × Nat) := none
  /-- The tag is right. -/
  good : Bool := false
  deriving DecidableEq, Repr

/-- The RoCEv2 message of several packets that is arriving (R208): WRITE or SEND, R_Key, virtual address, length, bytes taken, the
RECV of a SEND and its bytes, which are placed once they are known to fit (R144), the Journal record, and its number. -/
structure RoceMsg where
  send : Bool
  key : Nat := 0
  va : Nat := 0
  len : Nat := 0
  got : Nat := 0
  recv : Option OpRef := none
  data : List Byte := []
  jrec : Option Nat := none
  id : Nat := 0
  deriving DecidableEq, Repr

/-- A queue pair (Tables 7.2 and 7.3, and the private state of R176). -/
structure Qp where
  state : QpState := .free
  owner : Nat := 0
  roce : Bool := false
  relaxed : Bool := false
  peerRelaxed : Bool := false
  mtu : Nat := 0
  enc : Bool := false
  keyh : Nat := 0
  profile : Nat := 0
  /-- The number of its connection, among all that the device has made. -/
  conn : Nat := 0
  peerNode : Nat := 0
  peerFn : Nat := 0
  peerQp : Nat := 0
  lastStatus : Nat := 0
  initPsn : Nat := 0
  spsn : Nat := 0
  cum : Nat := 0
  /-- Received PSNs above CUM. -/
  rcvd : List Nat := []
  alive : Nat := 0
  aliveRel : Nat := 0
  paths : Nat := 0
  suspect : Nat := 0
  /-- Path of the last new packet (R189). -/
  lastPath : Nat := 63
  win : Nat := 1
  tmo : Nat := 40
  rtoMin : Nat := 20
  nrUs : Nat := 10
  srtt : Nat := 0
  rttvar : Nat := 0
  time : Nat := 0
  peerIp : Nat := 0
  udpSrc : Nat := 0
  tclass : Nat := 0
  hopLim : Nat := 0
  /-- Requester: operations admitted, packets outstanding, stamps of probes sent on suspect paths, PSNs refused with
  NOT_READY that wait for NR_US, PSNs due for retransmission. -/
  ops : List TpOp := []
  out : List OutPkt := []
  probes : List (Nat × Nat) := []
  notReady : List Nat := []
  retx : List Nat := []
  txSeq : Nat := 0
  /-- Responses built that wait for the window (R188); operations without a descriptor that wait for admission (R175, R200). -/
  resps : List SltPkt := []
  asks : List TpOp := []
  /-- A probe is due on the first request packet of the epoch (R217). -/
  probeDue : Bool := true
  /-- Number of the open batch, writes in it, and the operations of batches that failed: batch, ALIVE, status (R150). -/
  batch : Nat := 0
  batchWrites : Nat := 0
  batchFails : List (Nat × Nat × Status) := []
  /-- Target: packets in the hold area or held for order, operations in progress, responder cache, RECVs posted with
  their tags, oldest first. -/
  holdArea : List SltPkt := []
  tops : List TgtOp := []
  rc : List RcEntry := []
  recvs : List (OpRef × Nat) := []
  /-- Strict order: ALIVE of the oldest operation not yet applied. -/
  tAlive : Nat := 0
  /-- Writes of the peer's batches that were refused: PSN, ALIVE and status (R149, R150). -/
  tFails : List (Nat × Nat × Status) := []
  /-- Journal records of operations that are done at the target and whose last acknowledgement or response has not been sent: ALIVE and
  record (R175). -/
  owed : List (Nat × Nat) := []
  /-- ALIVE values of operations whose packets have all been applied or refused here and that ALIVE_REL has not passed. -/
  seenOps : List Nat := []
  /-- Packets not yet acknowledged; congestion seen since the last ACK (R193, R215); the fabric time in ns of the last CNP (R216). -/
  ackDue : Bool := false
  ceSeen : Bool := false
  cnpAt : Option Nat := none
  /-- RoCEv2: the message that is arriving, and messages completed as responder. -/
  rmsg : Option RoceMsg := none
  msn : Nat := 0
  /-- Encryption: packets whose tags are not yet checked, failures in a row, and the last stamp sent (R406 to R409). -/
  unauth : List Unauth := []
  authFails : Nat := 0
  lastStamp : Nat := 0
  /-- Since when its next packet has been held by a shaper alone, in ns (R238). -/
  shapedAt : Option Nat := none
  /-- IPv4 Identification counter (R291). -/
  ident : Nat := 0
  /-- Translations of receive buffers that held packets wait for. -/
  xl : List XlDone := []
  deriving DecidableEq, Repr

/-- An entry of a miss buffer (R177): the QP whose context is read, and the packet that waits; none for an operation. -/
structure MissEntry where
  qp : Nat
  pkt : Option (SltPkt × Arrival) := none
  roce : Option (RocePkt × Arrival) := none
  deriving DecidableEq, Repr

/-- A CLOSE or RESET_NOTICE that is still to be repeated (R207): the QP number, the packet, how many times, and the QP as it was when it was
sent first, which the number's next QP does not displace. -/
structure Leaving where
  q : Nat
  pkt : SltPkt
  left : Nat
  qp : Qp
  deriving DecidableEq, Repr

/-- One transport pipeline: its context cache, by set, most recent first, its miss buffer and its recovery (R177, R448). -/
structure Pipeline where
  sets : AMap (List Nat) := []
  miss : List MissEntry := []
  /-- Heads that the router core holds back while the miss buffer is full or the pipeline recovers, oldest first (R177, R448). -/
  heads : List MissEntry := []
  /-- CLK_T cycles left of steps 1 to 5 of its recovery (Table 17.5); 0 when it takes heads. -/
  recovering : Nat := 0
  /-- Notices still to be repeated, oldest first (R207). -/
  leaving : List Leaving := []
  deriving DecidableEq, Repr

/-! ### Chapter 8: rate control, shapers, meters, scheduler -/

/-- What of a QP's profile governs it between the ends of its epochs (R221): R_MIN, ECN_EN, RTT_EN, RTT_HIGH, OVERHEAD and CLASS. -/
structure Prof where
  rmin : Nat := 0
  ecnEn : Bool := false
  rttEn : Bool := false
  rttHigh : Nat := 0
  overhead : Nat := 0
  cls : Nat := 0
  deriving DecidableEq, Repr

/-- Rate-control state of a connected QP (R218). -/
structure RateCtl where
  rc : Nat := 0
  m : Nat := 0
  a : Nat := 0
  grow : Nat := 0
  hold : Nat := 0
  /-- The last round-trip sample of the epoch, in ns. -/
  rtt : Option Nat := none
  /-- The profile as the last epoch end, or the connection, read it (R221). -/
  prof : Prof := {}
  /-- Refill ticks left of the epoch; marks, acknowledgements and the last sample since it ran out, which belong to the next (R219,
  R220). -/
  timer : Nat := 0
  mNext : Nat := 0
  aNext : Nat := 0
  rttNext : Option Nat := none
  deriving DecidableEq, Repr

/-- A shaper (R222 to R228): values in force, credit in 1/8 byte, a pending clear. The values written through CC.SHP_CFG
are its register's fields until the next refill tick. -/
structure Shaper where
  ceil : Nat := 0
  /-- BURST in force, in bytes. -/
  burst : Nat := 65536
  rate : Nat := 0
  credit : Int := 0
  clear : Bool := false
  deriving DecidableEq, Repr

/-- A meter (R232 to R237): its modes in force, and its buckets in 1/8 byte. -/
structure Meter where
  enable : Bool := false
  aware : Bool := false
  yelMark : Bool := false
  redPass : Bool := false
  tc : Nat := 0
  te : Nat := 0
  deriving DecidableEq, Repr

/-- The transmit scheduler of a pipeline (R230, R543). -/
structure Sched where
  /-- QP served last, per class. -/
  last : AMap Nat := []
  /-- Class visited, whether its quantum has been added, and the deficits in bytes. -/
  visited : Nat := 0
  entered : Bool := false
  deficit : AMap Nat := []
  deriving DecidableEq, Repr

/-- Congestion control of the node. -/
structure Congestion where
  rate : AMap RateCtl := []
  shapers : AMap Shaper := []
  meters : AMap Meter := []
  scheds : AMap Sched := []
  /-- Refill ticks since the origin (R212). -/
  ticks : Nat := 0
  deriving DecidableEq, Repr

/-! ### Chapter 15: keys, tags and integrity channels -/

/-- Key slot states (Table 15.2). -/
inductive KState where
  | empty | valid | killed
  deriving DecidableEq, Repr

/-- The code of a slot in KEYF.STATE. -/
def KState.code : KState → Nat
  | .empty => 0 | .valid => 1 | .killed => 2

/-- A connection key set (R402, R407): its TX epoch, the states and the keys of its four slots, and the PSNs sent under the TX epoch. A key
is 0 while its slot holds none; no register and no command shows it. -/
structure KeySet where
  tx : Nat := 0
  slots : List KState := [.empty, .empty, .empty, .empty]
  keys : List (BitVec 256) := [0, 0, 0, 0]
  psns : Nat := 0
  deriving DecidableEq, Repr

/-- A TAG command at work (R410): region slot and the pages left. -/
structure Tagging where
  slot : Nat
  pages : List Nat
  deriving DecidableEq, Repr

/-- States of an integrity channel (Table 15.10). -/
inductive IcState where
  | off | run | halt
  deriving DecidableEq, Repr

/-- The code of INT.IC_STATUS.STATE. -/
def IcState.code : IcState → Nat
  | .off => 0 | .run => 1 | .halt => 2

/-- An operation an integrity channel snoops (R415): its number, the bytes it has moved so far by offset, and its bytes once
it has completed. -/
structure IcOp where
  id : Nat
  got : AMap (List Byte) := []
  bytes : Option (List Byte) := none
  deriving DecidableEq, Repr

/-- An integrity channel (R413 to R417) beside its registers. -/
structure Chan where
  state : IcState := .off
  /-- ENABLE was cleared and operations admitted before are still to be folded. -/
  stopping : Bool := false
  exps : List (Nat × Nat) := []
  /-- Operations snooped and not yet folded, in the order of the stream. -/
  ops : List IcOp := []
  /-- The last byte taken, for the alive counter. -/
  prev : Nat := 0
  deriving DecidableEq, Repr

/-- Keys, page tags and channels (chapter 15). -/
structure Protection where
  /-- Connection key sets by function × 64 + handle; region slots by function × 16 + slot. -/
  sets : AMap KeySet := []
  regions : AMap KState := []
  /-- Key1 and Key2 of each region slot; an erased slot keeps the one that the ciphertext of its pages is under (R412). -/
  regKeys : AMap (BitVec 256 × BitVec 256) := []
  /-- Page tags that are not 0. -/
  tags : AMap Nat := []
  tagging : AMap Tagging := []
  chans : AMap Chan := []
  deriving DecidableEq, Repr

/-! ### Chapter 16: functions and tenancy -/

/-- The allocation table's entry of a function (Table 16.4): limits, and ranges as base and count. -/
structure Alloc where
  window : Nat := 0
  square : Nat := 0
  rate : Nat := 0
  qBase : Nat := 0
  qCount : Nat := 0
  qpBase : Nat := 0
  qpCount : Nat := 0
  tsBase : Nat := 0
  tsCount : Nat := 0
  deriving DecidableEq, Repr

/-- A Kiosk (R430 to R434). -/
structure Kiosk where
  base : Nat := 0
  size : Nat := 0
  reqTail : Nat := 0
  reqHead : Nat := 0
  rspTail : Nat := 0
  rspHead : Nat := 0
  deriving DecidableEq, Repr

/-- A device notice (Table 16.7): type, function, status and body bytes from byte 20. -/
structure Notice where
  type : Nat
  fn : Nat
  status : Nat := 0
  body : List Byte := []
  deriving DecidableEq, Repr

/-- A transition into or out of EQUAL_SHARE: ENTER_EQUAL, LEAVE_EQUAL, or the entry into SERVICE of a start, ms after t0. -/
inductive EqTurn where
  | enter
  | leave
  | service (ms : Nat)
  deriving DecidableEq, Repr

/-- Functions, pools, Kiosks and equal shares (chapter 16). -/
structure Tenancy where
  alloc : AMap Alloc := []
  /-- Runs of 2 MiB HBM pages that a function holds: by the first page, how many and the function. -/
  pages : AMap (Nat × Nat) := []
  /-- Function that holds each Block and integrity channel. -/
  blocks : AMap Nat := []
  chans : AMap Nat := []
  /-- Runs of pages being zeroed, which are neither free nor allocated: by the first page, how many and 0. -/
  zeroing : AMap (Nat × Nat) := []
  kiosks : AMap Kiosk := []
  /-- Notices that found no room since the last NOTICE_LOST (R433). -/
  lostNotices : Nat := 0
  /-- A DESTROY that waits for the function's reset. -/
  destroying : Option Nat := none
  /-- The equal shares in force (R426), with the number of functions and whether entered from SERVICE, and the share of each resource of
  Table 16.4, fixed on entry. -/
  equal : Option (Nat × Bool) := none
  shares : List Nat := []
  /-- A transition that waits for BUSY of FN.STATUS to clear (R428). -/
  eqDue : Option EqTurn := none
  deriving DecidableEq, Repr

/-! ### Chapter 17: the Journal and faults -/

/-- Journal record states (Table 17.4). -/
inductive JState where
  | active | parked | waiting | armed | replay
  deriving DecidableEq, Repr

/-- The code of the STATE byte of Table 17.3; a free record is one that is not listed. -/
def JState.code : JState → Nat
  | .active => 1 | .parked => 2 | .waiting => 3 | .armed => 4 | .replay => 5

/-- A Journal record in use (Table 17.3). -/
structure JRec where
  state : JState := .active
  /-- 0 requester, 1 target, 2 host-port DMA, 3 trigger. -/
  role : Nat := 0
  nonIdem : Bool := false
  notify : Bool := false
  lkind : Bool := false
  replayed : Bool := false
  parked : Bool := false
  opcode : Nat := 0
  fn : Nat := 0
  qp : Nat := 0
  firstPsn : Nat := 0
  alive : Nat := 0
  nunits : Nat := 0
  target : Nat := 0
  loc : Nat := 0
  len : Nat := 0
  rkey : Nat := 0
  pos : Nat := 0
  queue : Nat := 0
  resume : Nat := 0
  txmax : Nat := 0
  time : Nat := 0
  deriving DecidableEq, Repr

/-- The states of the device (Table 18.1). -/
inductive DevState where
  | off | standby | bringup | equalShare | service | drain | fault
  deriving DecidableEq, Repr

/-- The state of a switched power domain (R35, R40). -/
inductive DomState where
  | off | changing (up : Bool) | on
  deriving DecidableEq, Repr

/-! ### Chapter 9: the Valir fabric -/

/-- Valir link states (Table 9.6). -/
inductive VState where
  | off | detect | sync | align | param | active | degraded | retrain | miswired | hold
  deriving DecidableEq, Repr

/-- The code of VL.LINK_STATUS.STATE. -/
def VState.code : VState → Nat
  | .off => 0 | .detect => 1 | .sync => 2 | .align => 3 | .param => 4 | .active => 5 | .degraded => 6 | .retrain => 7
  | .miswired => 8 | .hold => 9

/-- A packet assigned to a link: its header, VC, the flits sent, the flits at hand, and the ingress link and VC in whose buffer those lie
that are not sent yet (R249); none for a packet of this node. -/
structure VPkt where
  h : VHdr
  vc : Nat
  sent : Nat := 0
  got : Nat := 0
  port : Option (Nat × Nat) := none
  deriving DecidableEq, Repr

/-- A data flit as it is sent: its packet, its place in the packet, and its VC (R250). -/
structure VFlit where
  h : VHdr
  i : Nat
  vc : Nat
  deriving DecidableEq, Repr

/-- Where a router leads a packet (R263): to this node, nowhere, or to a link and VC. -/
inductive VTo where
  | here
  | gone
  | out (link vc : Nat)
  deriving DecidableEq, Repr

/-- A packet that is arriving on a VC of a link: its header, the flits that have come, and where it is led. -/
structure VRx where
  h : VHdr
  got : Nat
  dest : VTo
  deriving DecidableEq, Repr

/-- A Valir link (R245 to R257). -/
structure VLink where
  state : VState := .off
  /-- Lanes that carry signal in training, or are in use; and how they were found at codeword lock (R245). -/
  lanes : Nat := 0
  lock : LaneLock := {}
  /-- Transmit: next FSEQ, the retry buffer, oldest flit first, flits sent and the last CREDIT value of each VC, the VC of the
  last codeword of each group, packets assigned. -/
  nextFseq : Nat := 0
  buf : List VFlit := []
  sent : AMap Nat := []
  credit : AMap Nat := []
  lastLo : Nat := 3
  lastHi : Nat := 7
  queue : List VPkt := []
  /-- The next free slot, the slots in a row before it that carry data flits, and the last codeword that carries data flits with their VC
  (R246, R247). -/
  slot : Nat := 0
  run : Nat := 0
  cw : Option (Nat × Nat) := none
  /-- The replay in progress: the FSEQ from which it runs, and that of the next flit to be sent again (R252). -/
  replay : Option (Nat × Nat) := none
  /-- The last TS received from the partner, and the CLK_T count at its arrival (Table 9.3). -/
  peerTs : Option (Nat × Nat) := none
  /-- Receive: FSEQ expected, flits freed of each VC, the packet arriving on each VC, whether REPLAY_START is awaited, RETRY_REQs sent in
  a row, and the uncorrectable codewords of the current millisecond. -/
  rxFseq : Nat := 0
  freed : AMap Nat := []
  rx : AMap VRx := []
  waitReplay : Bool := false
  retries : Nat := 0
  badMs : Nat := 0
  badCount : Nat := 0
  deriving DecidableEq, Repr

/-- The end-to-end window to a destination position (R268). -/
structure EWin where
  inj : Nat := 0
  seen : Nat := 0
  dropped : Nat := 0
  deriving DecidableEq, Repr

/-- The record a destination keeps for a source (R269, R271): epoch, packets counted, count last reported, and whether
the next credit is FRESH. -/
structure ERec where
  epoch : Nat
  count : Nat
  told : Nat := 0
  fresh : Bool := true
  deriving DecidableEq, Repr

/-- A drop notice being coalesced (R266, R271). -/
structure EDrop where
  src : Nat
  dst : Nat
  reason : Nat
  epoch : Nat
  count : Nat
  deriving DecidableEq, Repr

/-- The router core of the node (R262 to R271). -/
structure Valir where
  links : AMap VLink := []
  /-- Route and detour entries by position (Table 9.9). -/
  route : AMap Nat := []
  detour : AMap Nat := []
  wins : AMap EWin := []
  recs : AMap ERec := []
  drops : List EDrop := []
  /-- Packets that wait at the injection ports of the pipelines, oldest first, by pipeline × 256 + position; and those that a pipeline keeps
  until its port has room for them (R268). -/
  inj : AMap (List VHdr) := []
  kept : AMap (List VHdr) := []
  deriving DecidableEq, Repr

/-! ### Chapter 10: Ethernet ports -/

/-- Ethernet link states (Table 10.3). -/
inductive EState where
  | off | an | train | align | up | rfault | hold
  deriving DecidableEq, Repr

/-- The code of EN.PORT_STATUS.STATE. -/
def EState.code : EState → Nat
  | .off => 0 | .an => 1 | .train => 2 | .align => 3 | .up => 4 | .rfault => 5 | .hold => 6

/-- What protects a packet of an encrypted connection when it is sent: the key of its epoch, and the numbers of its sender's side and of
the other (R181, R405). -/
structure Seal where
  key : BitVec 256 := 0
  me : Nat := 0
  other : Nat := 0
  deriving DecidableEq, Repr

/-- What a queued frame carries. -/
inductive FrameKind where
  | slt (p : SltPkt) (k : Option Seal)
  | roce (qp : Nat) (p : RocePkt)
  /-- An entry of the exception transmit ring: its index, bytes, and whether a timestamp is taken. -/
  | exc (idx : Nat) (data : List Byte) (ts : Bool)
  deriving DecidableEq, Repr

/-- What carries a transport packet over Ethernet (R184, R213, R280, R289): the MAC addresses of destination and source; the C-tag's PCP and
VID; the IP addresses of both, IPv4 ones in IPv4-mapped form; the Identification, DSCP and ECN field, and the hop limit or TTL where the QP
names one; the UDP ports. -/
structure Encap where
  mac : Nat := 0
  smac : Nat := 0
  vlan : Option (Nat × Nat) := none
  src : Nat := 0
  dst : Nat := 0
  ident : Nat := 0
  dscp : Nat := 0
  ecn : Nat := 0
  hopLim : Option Nat := none
  sport : Nat := 0
  dport : Nat := 0
  deriving DecidableEq, Repr

/-- A frame in a transmit queue: queue, length with FCS, and what carries a transport packet in it. -/
structure TxFrame where
  q : Nat
  len : Nat
  cap : Encap := {}
  kind : FrameKind
  deriving DecidableEq, Repr

/-- A frame that is being sent: its bytes without FCS, how many of it the transmit buffer held at its start (R292), and the fabric timestamp
at its message timestamp point (R298). -/
structure WireFrame where
  f : TxFrame
  body : List Byte := []
  held : Nat := 0
  time : Nat := 0
  deriving DecidableEq, Repr

/-- An Ethernet port (R281, R288 to R296). -/
structure EPort where
  state : EState := .off
  queue : List TxFrame := []
  /-- The frame being sent. -/
  wire : Option WireFrame := none
  /-- Bytes of received frames in the port's share of the receive buffer (R286); and the millisecond of fabric time in which codewords that
  could not be corrected were counted last, with their number (Table 10.3). -/
  rx : Nat := 0
  badMs : Nat := 0
  bad : Nat := 0
  /-- Frames sent since the last underrun or decay, and a write of BASE not yet taken. -/
  good : Nat := 0
  reload : Bool := false
  /-- Gate lists: administrative entries that differ from reset, operational entries (gates, interval), operational
  cycle, entry in force and the fabric time it began, and the change time of a pending change. -/
  admin : AMap Nat := []
  oper : List (Nat × Nat) := [(0xFF, 0xF4240)]
  cycle : Nat := 0xF4240
  idx : Nat := 0
  since : Nat := 0
  change : Option Nat := none
  /-- The base time and the cycle extension in force, and the cycle boundary at which the schedule restarts after a step of fabric
  time (R295). -/
  base : Nat := 0
  ext : Nat := 0
  restart : Option Nat := none
  deriving DecidableEq, Repr

/-! ### Chapters 11 and 12: Blocks -/

/-- Sequencer states (Table 12.5). -/
inductive SeqState where
  | idle | running | paused | stopped | out
  deriving DecidableEq, Repr

/-- The code of BLK.STATUS.STATE. -/
def SeqState.code : SeqState → Nat
  | .idle => 0 | .running => 1 | .paused => 2 | .stopped => 3 | .out => 4

/-- A loaded format slot (R318 to R320): a codebook with its kind, and the bytes of its image; or a product table's. -/
structure FmtSlot where
  t4 : Bool := false
  image : List Byte := []
  deriving DecidableEq, Repr

/-- An open loop (R338): where it was issued, its body's first and last step, count, mask, iteration, and the registers'
values at its issue. -/
structure Loop where
  first : Nat
  last : Nat
  count : Nat
  mask : Nat
  iter : Nat
  regs : List Nat
  deriving DecidableEq, Repr

/-- What an outstanding step does (R341). -/
inductive SeqWork where
  /-- MLOAD: lines from HBM to the Block store. -/
  | load (off store len : Nat)
  | store (off store len : Nat)
  /-- RBIND and RRELEASE of a residency entry. -/
  | bind (entry : Nat)
  | release (entry : Nat)
  /-- Conversions: input and output arrays in the Block store, elements. -/
  | a2f (src dst n : Nat)
  | f2a (src dst n : Nat)
  deriving DecidableEq, Repr

/-- An outstanding step: its number, index, repetition, work, and the window key and offset it was admitted through. -/
structure SeqOut where
  id : Nat
  pc : Nat
  rep : Nat
  work : SeqWork
  key : Nat := 0
  /-- Of an MSTORE, the resident ranges that refused lines of it (R306); of a memory step that a bind or a release of its range has already
  served, its bytes (R307, R308). -/
  cut : List (Nat × Nat) := []
  early : Option (List Byte) := none
  deriving DecidableEq, Repr

/-- A Block (R301, R318, R331, R337, Table 12.5). -/
structure Blk where
  /-- Bytes of the Block store that are not 0. -/
  store : List Host.Cell := []
  /-- Vector registers by register × 64 + lane, mask registers, accumulators by set × 256 + row × 16 + column. -/
  vregs : AMap Nat := []
  masks : AMap Nat := []
  acc : AMap Nat := []
  books : AMap FmtSlot := []
  ptabs : AMap FmtSlot := []
  state : SeqState := .idle
  pausing : Bool := false
  pc : Nat := 0
  rep : Nat := 0
  faultPc : Nat := 0
  lastStatus : Nat := 0
  /-- The image in force: its step words, and where its operand slots lie in the Block store. -/
  steps : List Nat := []
  slots : Nat := 0
  /-- Address registers, and the strides S0 to S4 of each (bits of 32). -/
  ars : List Nat := []
  strides : List (List Nat) := []
  /-- Open loops, innermost first. -/
  loops : List Loop := []
  outs : List SeqOut := []
  nextOut : Nat := 0
  /-- Index of a TS_WAIT that waits in the turnstile store. -/
  tsWait : Option Nat := none
  /-- The STEP_START being run, the STEP_LOAD or STEP_START being loaded, and those that wait for the Block. -/
  start : Option OpRef := none
  loading : Option OpRef := none
  waiting : List OpRef := []
  deriving DecidableEq, Repr

/-- Residency states (Table 11.2). -/
inductive RState where
  | free | loading | live | releasing
  deriving DecidableEq, Repr

/-- The code of BLK.RES_ENTRY.STATE. -/
def RState.code : RState → Nat
  | .free => 0 | .loading => 1 | .live => 2 | .releasing => 3

/-- A residency entry in use (R305): range in HBM, region in the store, length in bytes, and the function at bind. -/
structure Resident where
  base : Nat
  region : Nat
  len : Nat
  state : RState := .loading
  load : Bool
  wb : Bool := false
  blk : Nat
  fn : Nat
  deriving DecidableEq, Repr

/-! ### Chapter 13: collectives -/

/-- A keyed FGA as descriptors hold it. -/
structure KFga where
  fga : Nat := 0
  key : Nat := 0
  deriving DecidableEq, Repr

/-- A local entry of a collective descriptor (Table 13.4). -/
structure CollEntry where
  inp : KFga := {}
  out : KFga := {}
  inTs : KFga := {}
  a2a : Nat := 0
  deriving DecidableEq, Repr

/-- A collective descriptor (Table 13.4). -/
structure CollDesc where
  kind : Nat := 0
  redop : Nat := 0
  ifmt : Nat := 0
  ofmt : Nat := 0
  scaleExp : Nat := 0
  nlocal : Nat := 0
  chunkLog : Nat := 20
  inflight : Nat := 48
  count : Nat := 0
  comm : Nat := 0
  seq : Nat := 0
  group : Nat := 0
  landing : KFga := {}
  tsBase : KFga := {}
  outTs : KFga := {}
  report : Nat := 0
  root : Nat := 0
  inThresh : Nat := 0
  tmo : Nat := 0
  entries : List CollEntry := []
  deriving DecidableEq, Repr

/-- A node of a group table (Table 13.5). -/
structure GrpNode where
  node : Nat
  qp : Nat
  land : KFga
  ts : KFga
  deriving DecidableEq, Repr

/-- The state of one element in the Square (Tables 13.7 and 13.8): class, and the value x × 2^e. -/
structure Elem where
  cls : Nat := 1
  x : Int := 0
  e : Int := 0
  deriving DecidableEq, Repr

/-- Elements of a result, or data moved: their first index, codes, and the scale bytes of MX blocks. -/
structure Piece where
  first : Nat := 0
  codes : List Nat := []
  scales : List Nat := []
  deriving DecidableEq, Repr

/-- A chunk in the Square (R363 to R367): its number, the chunk slot it holds (R378), its stage (0 to 6 for phases A to G of Table 13.6),
the transfers done as phase × 65536 + node rank, its elements' states, and the pieces of its result or data. -/
structure Chunk where
  c : Nat
  slot : Nat := 0
  stage : Nat := 0
  done : List Nat := []
  elems : List Elem := []
  pieces : AMap Piece := []
  deriving DecidableEq, Repr

/-- A COLL in progress (R356 to R384). -/
structure Coll where
  ref : OpRef
  d : CollDesc
  r : Nat := 1
  nodes : List GrpNode := []
  me : Nat := 0
  /-- Chunk slots of the Square it holds; 0 while it waits for the first. -/
  slots : Nat := 0
  /-- Chunks in progress, in ascending order, the next one to begin, and those complete. -/
  chunks : List Chunk := []
  next : Nat := 0
  complete : Nat := 0
  /-- KIND 5: SEND and RECV of each local entry (R376), and the transfers sent to and placed from each node rank. -/
  sends : List (List Nat) := []
  recvs : List (List Nat) := []
  sent : AMap Nat := []
  rcvd : AMap Nat := []
  elems : Nat := 0
  flags : Nat := 0
  /-- When it got its first chunk slot (R377, T_START of Table 13.10). -/
  start : Option Nat := none
  deriving DecidableEq, Repr

/-! ### Chapter 14: the HBM subsystem -/

/-- A stack beside its registers (R392 to R397): poisoned lines by their number in the stack (with the time for those of the
last millisecond), times of corrected bursts by PC × 64 + lane, lanes mapped to spares, PCs under lane repair with the lane. -/
structure Stack where
  poison : List Nat := []
  recent : List (Nat × Nat) := []
  errors : AMap (List Nat) := []
  spares : List (Nat × Nat) := []
  repairing : AMap Nat := []
  /-- When each bank, PC × 64 + bank, was refreshed last, in ns (R396). -/
  refreshed : AMap Nat := []
  /-- Lines that the scrubber has read in its current pass: by PC, runs of their numbers in the PC (R391). -/
  scrubbed : AMap (AMap (Nat × Nat)) := []
  /-- PCs that are scrubbed after a lane repair, with the lines read so far (Table 14.7, step 6). -/
  rescrub : AMap (AMap (Nat × Nat)) := []
  deriving DecidableEq, Repr

/-! ### Chapter 18: what the accepted structure image gives -/

/-- Values of the accepted structure image that no register shows (Table 18.9). -/
structure Image where
  /-- Topology identifier, and the neighbour expected on each Valir link: node × 16 + link (R256). -/
  topo : Nat := 0
  neigh : AMap Nat := []
  /-- Nodes listed as trusted manager nodes (R51). -/
  trusted : List Nat := []
  /-- Hall address table: next hops by rack, by RoCEv2 peer address, and the IP addresses of this node's ports
  (port, address; an IPv4 address in IPv4-mapped form). -/
  racks : AMap Hop := []
  peers : AMap Hop := []
  addrs : List (Nat × Nat) := []
  /-- The IP address of each node outside the rack. -/
  nodeIps : AMap Nat := []
  /-- The port whose PF is to hold the manager role (R106), and VFs allowed on each link (R542), by 2 × port + sub-link. -/
  mgrPort : Nat := 0
  totalVfs : AMap Nat := []
  /-- Reserved regions in the order of Table 14.8: first page, pages, and first page of the shadow (R398, R444). -/
  regions : List (Nat × Nat × Nat) := []
  /-- Size of the hold area in MiB. -/
  holdMib : Nat := 0
  /-- Districts placed in the Block pool; domains that may be switched on, and those that are on at start. -/
  districts : List Nat := []
  mayOn : List Nat := []
  onAtStart : List Nat := []
  /-- FN_MAX and QUEUE_MAX (R469). -/
  fnMax : Nat := 256
  queueMax : Nat := 4096
  /-- The RWL fields as the image gives them, for a domain that is switched on later (R36). -/
  rwl : List (Reg × Nat × Nat) := []
  /-- The image between its acceptance at step 6 and its application at step 7. -/
  staged : Option ImageValues := none
  deriving DecidableEq, Repr


/-! ### Chapters 18 to 21: the device, firmware, management -/

/-- Power and device state (R33 to R40, R460 to R466). -/
structure DevCtl where
  state : DevState := .bringup
  doms : AMap DomState := []
  /-- The start sequence runs: it is not held by a reset, has not ended and has not stopped at a step that cannot complete. -/
  starting : Bool := true
  /-- t0 + 1,000 ms has passed in BRINGUP (R465). -/
  late : Bool := false
  /-- POR_N and RESET_N are low; the internal reset pulse runs. -/
  porLow : Bool := false
  resetLow : Bool := false
  pulse : Bool := false
  /-- A rail group left tolerance: STANDBY is left only after POR_N has been asserted again (R462). -/
  railLost : Bool := false
  /-- CAUSE of the device reset at the end of the drain in progress, and RESET_NOTICEs sent on each QP after its end. -/
  drainCause : Nat := 3
  drainSent : Nat := 0
  deriving DecidableEq, Repr

/-- The governor and the thermal protection beside their registers (R499 to R501). -/
structure Gov where
  calm : Nat := 0
  /-- Windows ended since a sensor first became hot, while one is hot. -/
  hotWins : Option Nat := none
  /-- THERM_TRIP_N is held low. -/
  trip : Bool := false
  /-- Sensors that have been updated since the last read of their MAX. -/
  fresh : List Nat := []
  deriving DecidableEq, Repr

/-- Self-test beside its registers (R504 to R507): spare rows used by bank, Avenue links on their spare group and out of service,
consecutive deferrals by target, and the hard repairs (kind, unit, detail) with their number and the fuses that are left. Soft repairs are
in the settings store. -/
structure Bist where
  rows : AMap Nat := []
  groups : List Nat := []
  linksOut : List Nat := []
  defers : AMap Nat := []
  fused : List (Nat × Nat × Nat) := []
  hard : Nat := 0
  fusesFree : Nat := 256
  deriving DecidableEq, Repr

/-- The console UART (R512, R513): the FIFOs of received bytes with their framing errors and of bytes to send; and whether the receiver waits
for a high sample before it hunts, after a framing error. -/
structure Uart where
  rx : List (Nat × Bool) := []
  tx : List Nat := []
  wait : Bool := false
  deriving DecidableEq, Repr

/-- Bank states (Table 19.6). -/
inductive BankState where
  | empty | staging | staged | armed | trial | active | fallback | invalid
  deriving DecidableEq, Repr

/-- The code of a bank state in IMG.FW_STATUS. -/
def BankState.code : BankState → Nat
  | .empty => 0 | .staging => 1 | .staged => 2 | .armed => 3 | .trial => 4 | .active => 5 | .fallback => 6 | .invalid => 7

/-- A flash bank (R482, R484): its state, and the SVNs of its firmware and image as last read from it. -/
structure Bank where
  state : BankState := .empty
  fwSvn : Nat := 0
  imgSvn : Nat := 0
  deriving DecidableEq, Repr

/-- What the settings store keeps across resets (R489): soft repairs as kind, unit and detail (R506), and the banks whose user calibration
record is marked cleared (R475). -/
structure Settings where
  soft : List (Nat × Nat × Nat) := []
  cleared : List Nat := []
  deriving DecidableEq, Repr

/-- A settings area: its format number, its entries, and its CRC-32C (R489). -/
structure SettingsArea where
  fmt : Nat := 0
  data : Settings := {}
  crc : Nat := 0
  deriving DecidableEq, Repr

/-- Firmware, banks and fused anchors (R478 to R494). -/
structure Firmware where
  bank0 : Bank := {}
  bank1 : Bank := {}
  runBank : Nat := 0
  tries : Nat := 0
  rbReason : Nat := 0
  /-- Fabric time of an armed activation and its drain choice. -/
  armS : Nat := 0
  armNs : Nat := 0
  armDrain : Bool := true
  /-- Activation has begun: the next start boots the armed bank (R486). -/
  activate : Bool := false
  /-- Fabric time in seconds at which the trial bank first entered SERVICE, on the time scale of the start in progress. -/
  tried : Option Int := none
  /-- The bank whose firmware is loaded. -/
  loaded : Option Nat := none
  /-- The owner key slots (R478). -/
  owner : List KeySlot := [{}, {}, {}, {}]
  /-- The key-encryption key, while one is held (R493). -/
  kek : Option (BitVec 256) := none
  /-- The settings areas S0 and S1, the one in use, and SETTINGS_FMT of the running firmware (R489). -/
  area0 : Option SettingsArea := none
  area1 : Option SettingsArea := none
  cur : Nat := 0
  fmt : Nat := 0
  /-- The user calibration in use: item, index and delta (R473, R474). -/
  cal : List (Nat × Nat × Int) := []
  deriving DecidableEq, Repr

/-- An SPDM session: established by FINISH; the owner key slot that its requester's certificates chain to. -/
structure SpdmSession where
  id : Nat
  up : Bool := false
  owner : Option Nat := none
  deriving DecidableEq, Repr

/-- The SPDM responder (R491, R492): how far the connection has been negotiated (0 to 3), its sessions, and the measurement blocks
recorded at the start. -/
structure Spdm where
  stage : Nat := 0
  sessions : List SpdmSession := []
  meas : AMap (List Byte) := []
  deriving DecidableEq, Repr

/-- States of the test access port (IEEE 1149.1). -/
inductive TapState where
  | reset | idle | selDr | capDr | shDr | ex1Dr | pauDr | ex2Dr | updDr | selIr | capIr | shIr | ex1Ir | pauIr | ex2Ir | updIr
  deriving DecidableEq, Repr

/-- Instructions of the test access port (R526). -/
inductive TapInstr where
  | bypass | sample | extest | extestPulse | extestTrain
  deriving DecidableEq, Repr

/-- The test access port: bits shifted into the instruction register, the bypass bit, bits shifted into the boundary register, and
what the boundary register drives. -/
structure Tap where
  st : TapState := .reset
  low : Bool := true
  instr : TapInstr := .bypass
  ir : List Bool := []
  byp : Bool := false
  dr : List Bool := []
  driven : List Bool := []
  deriving DecidableEq, Repr
/-! ### What leaves the device -/

/-- The answers of PCIe to a request. -/
inductive PcieAns where
  | success (data : List Byte)
  | completerAbort
  | unsupported
  | retry
  deriving DecidableEq, Repr

/-- What the device has sent out, in order: the observable side of the commands. -/
inductive Output where
  /-- An MSI-X message of a function's table entry (R127). -/
  | msix (fn vec : Nat)
  /-- A write to host memory at a host physical address on the function's port (R108). -/
  | hostWrite (fn addr : Nat) (data : List Byte) (relaxed noSnoop : Bool)
  /-- A memory read of the host under a tag. -/
  | hostRead (fn tag addr len : Nat) (noSnoop : Bool)
  /-- The walker's read of the 8-byte entry of a page table in host memory, with No Snoop clear (R81). -/
  | tableRead (fn addr : Nat)
  /-- The answer to a PCIe request of a host. -/
  | pcie (fn tag : Nat) (a : PcieAns)
  /-- The answer to a register read. -/
  | regData (v : Word)
  /-- The answer to an irregular access: the bytes returned. -/
  | rawData (bytes : List Byte)
  /-- An SLT packet handed to the router core, behind its Valir header (R184, R259). -/
  | slt (h : VHdr) (p : SltPkt)
  /-- A data flit, or a link flit, sent on a Valir link in a slot (R244, R246, R247). -/
  | vlData (link slot : Nat) (f : VFlit)
  | vlFlit (link slot : Nat) (f : LinkFlit)
  /-- A packet ejected to the serving pipeline (R263, R267). -/
  | vlEject (resp : Bool) (src : Nat)
  /-- An Ethernet frame sent on a port, with its FCS; stomped when that is inverted (R292). -/
  | frame (port : Nat) (data : List Byte) (stomped : Bool)
  /-- A received frame delivered to the serving pipeline of a QP (R284). -/
  | ethDeliver (port qp : Nat) (roce : Bool)
  /-- A level driven on a pin (Table 21.3). -/
  | pin (name : Nat) (level : Bool)
  /-- Bytes sent on the out-of-band interface; and the ten bits of a frame on the line of the console UART. -/
  | oob (data : List Byte)
  | uart (line : List Bool)
  /-- A flash operation of the firmware commands (R483): an erase of a bank, or bytes written to a component of it. -/
  | flashErase (bank : Nat)
  | flashWrite (bank kind off : Nat) (data : List Byte)
  | flashCopy (bank kind off len : Nat)
  /-- The user calibration record is marked cleared in flash (R475). -/
  | flashUcal
  /-- Fuses blown: a counter (0 FW_SVN, 1 IMG_SVN) up to a value, an owner key slot programmed or revoked, repair fuses. -/
  | fuseSvn (which value : Nat)
  | fuseKey (slot : Nat) (revoke : Bool)
  | fuseRepair (n : Nat)
  /-- An answer of the SPDM responder: request code and error code, 0 for success. -/
  | spdm (code err : Nat) (data : List Byte)
  | tdo (b : Bool)
  deriving DecidableEq, Repr

/-! ### Operations that have ended -/

/-- Whose operation has ended: a transport operation's owner, or where a turnstile operation came from. -/
inductive DoneAt where
  | tp (o : TpOwner)
  | ts (o : TsSource)
  deriving DecidableEq, Repr

/-- An operation that has ended and whose owner has not been told yet: status, COUNT, RESULT, response data, ABANDONED. -/
structure Done where
  whom : DoneAt
  st : Status := .ok
  count : Nat := 0
  result : Nat := 0
  data : List Byte := []
  abandoned : Bool := false
  deriving DecidableEq, Repr


/-- An access to a register space: a packet's operation on space 2, a local operation of the manager, the read of a local buffer of an
operation of the manager that lies in space 2, or a write to such a buffer; and the completion half that follows such writes (R127). -/
inductive DcsReq where
  | packet (qp : Nat) (p : SltPkt)
  | op (r : OpRef)
  | fetch (r : OpRef) (off len : Nat)
  | put (fn off : Nat) (bs : List Byte)
  | cpl (h : HeldCpl)
  deriving DecidableEq, Repr

/-- What a held host read is for: an operation, the walk of a page's tables, or the ring of a queue (R236). -/
inductive HeldUse where
  | op (u : TagUse)
  | table (page : Nat)
  | ring (q : Nat)
  deriving DecidableEq, Repr

/-- A host read that is held by the host-port meter, or for want of a tag. -/
structure HeldRead where
  addr : Nat
  len : Nat
  noSnoop : Bool
  use : HeldUse
  /-- The translation that it is made with. -/
  via : Option TlbEntry := none
  /-- The meter has let it pass, and it waits for a tag (R104, R236). -/
  paid : Bool := false
  deriving DecidableEq, Repr

/-! ### The whole state -/

/-- The state of the block. -/
structure State where
  fuses : Fuses
  /-- Register fields that differ from their reset values, by key (Regs). -/
  flds : AMap Nat
  dev : DevCtl
  clk : ClockState
  /-- HBM: bytes of space 0 that are not 0 (R398, log entry 2). -/
  mem : List Host.Cell
  apts : AMap Aperture
  /-- The TLBs' entries, most recently used first (Tables 3.1 and 3.2). -/
  tlb : List (TlbLoc × XlEntry)
  /-- The STLB walk cache, newest first. -/
  walkCache : List WalkEntry
  /-- Table walks in flight, and those that wait to start, oldest first (R85). -/
  walks : List Walk
  /-- What the fault ring of a function has still to do, in order (R93, R94). -/
  faultQ : AMap (List FaultItem)
  batches : AMap FaultBatch
  invals : AMap Inval
  acs : AMap AcState
  fns : AMap Fn
  links : AMap HostLink
  tags : List Tag
  msix : AMap Msix
  queues : AMap Queue
  ops : List Op
  heldCpls : List HeldCpl
  dcache : AMap (List Byte)
  qinval : Option QInval
  wins : AMap Window
  imports : List Import
  ts : AMap Turnstile
  armed : List Armed
  qps : AMap Qp
  pipes : AMap Pipeline
  prot : Protection
  vl : Valir
  en : AMap EPort
  img : Image
  cc : Congestion
  ten : Tenancy
  jnl : AMap JRec
  blks : AMap Blk
  /-- The residency table (R305). -/
  res : AMap Resident
  hbm : AMap Stack
  /-- COLLs in progress or waiting for Square space, by number, in the order of their start. -/
  colls : AMap Coll
  nextColl : Nat
  /-- Bytes received and sent in the current window of each bandwidth monitor (R510). -/
  bw : AMap (Nat × Nat)
  gov : Gov
  bist : Bist
  uart : Uart
  fw : Firmware
  spdm : Spdm
  tap : Tap
  /-- Operations whose owners are still to be told; every command tells them before it ends. -/
  dones : List Done
  /-- Accesses to register spaces that packets and local operations ask for, performed before the command ends (R51). -/
  dcsIn : List DcsReq
  /-- Host reads that a red host-port meter holds, by function, oldest first (R236). -/
  heldReads : AMap (List HeldRead)
  /-- What has been sent out, newest first. -/
  out : List Output
  /-- The number of connections that QPs have entered so far: the model's own field. -/
  conns : Nat
  /-- The number of free values drawn so far: the model's own field. -/
  freeCount : Nat
  /-- The commands that wait, first in first out. -/
  pending : List Instr
  deriving DecidableEq, Repr

/-- The state right after reset: every register at the reset value of its table (flds lists none that differs), every
table and queue empty, memory with nothing listed. -/
def State.reset : State where
  fuses := {}
  flds := []
  dev := {}
  clk := {}
  mem := []
  apts := []
  tlb := []
  walkCache := []
  walks := []
  faultQ := []
  batches := []
  invals := []
  acs := []
  fns := []
  links := []
  tags := []
  msix := []
  queues := []
  ops := []
  heldCpls := []
  dcache := []
  qinval := none
  wins := []
  imports := []
  ts := []
  armed := []
  qps := []
  pipes := []
  prot := {}
  vl := {}
  en := []
  img := {}
  cc := {}
  ten := {}
  jnl := []
  blks := []
  res := []
  hbm := []
  colls := []
  nextColl := 0
  bw := []
  gov := {}
  bist := {}
  uart := {}
  fw := {}
  spdm := {}
  tap := {}
  dones := []
  dcsIn := []
  heldReads := []
  out := []
  conns := 0
  freeCount := 0
  pending := []

end Machine
end Sys2Proof
end

