-- ==== Sys2Proof/Machine/Ops.lean ====
section
/-! DEFINITION. The named operations over registers, memory and the device as a whole that every meaning uses. -/

namespace Sys2Proof
namespace Machine

/-- What a command answers. -/
abbrev Result := Host.Outcome State Fault Refusal

/-! ### Bits and bytes -/

/-- Bits hi down to lo of x. -/
def bits (x hi lo : Nat) : Nat := (x >>> lo) % 2 ^ (hi - lo + 1)

/-- Bit i of x. -/
def bit (x i : Nat) : Bool := (x >>> i) % 2 = 1

/-- x with bit i set or cleared. -/
def putBit (x i : Nat) (v : Bool) : Nat :=
  if bit x i = v then x else if v then x + 2 ^ i else x - 2 ^ i

/-- x without the bits of v, as far as they lie below n. -/
def clearBits (x v n : Nat) : Nat := ((List.range n).filter (fun i => (v >>> i) % 2 = 1)).foldl (fun y i => putBit y i false) x

/-- 0 or 1. -/
def b2n (b : Bool) : Nat := if b then 1 else 0

/-- The number of bits of x below n that are 1. -/
def popCount (x n : Nat) : Nat := ((List.range n).filter (bit x)).length

/-- The positions below n of the bits of x that are 1. -/
def onesOf (x n : Nat) : List Nat := (List.range n).filter (bit x)

/-- n bytes of x, least significant first. -/
def leBytes (x : Nat) : Nat → List Byte
  | 0 => []
  | n + 1 => BitVec.ofNat 8 x :: leBytes (x / 256) n

/-- The number a list of bytes stands for, least significant first. -/
def leNat : List Byte → Nat
  | [] => 0
  | b :: bs => b.toNat + 256 * leNat bs

/-- The number at bytes i to i + n - 1 of a list. -/
def leAt (bs : List Byte) (i n : Nat) : Nat := leNat ((bs.drop i).take n)

/-- A list cut or filled with zeros to n bytes. -/
def padTo (bs : List Byte) (n : Nat) : List Byte := (bs.take n) ++ List.replicate (n - bs.length) 0#8

/-- The integer an n-bit two's complement word stands for. -/
def toSigned (n x : Nat) : Int := if x < 2 ^ (n - 1) then (x : Int) else (x : Int) - (2 ^ n : Nat)

/-- The n-bit two's complement word of an integer. -/
def ofSigned (n : Nat) (x : Int) : Nat := (x % ((2 ^ n : Nat) : Int)).toNat

/-- a minus b on positions that wrap at 2^n. -/
def subMod (n a b : Nat) : Nat := (a + (2 ^ n - b % 2 ^ n)) % 2 ^ n

/-- A count that stops at its greatest value. -/
def satAdd (max a b : Nat) : Nat := if max ≤ a + b then max else a + b

/-! ### Runs of numbers with a value: by the first number, how many and the value -/

/-- The value at a number. -/
def spanFind : AMap (Nat × Nat) → Nat → Option Nat
  | [], _ => none
  | (a, n, v) :: m, i => if a ≤ i ∧ i < a + n then some v else spanFind m i

/-- Takes the numbers from lo to lo + n - 1 out. -/
def spanCut (m : AMap (Nat × Nat)) (lo n : Nat) : AMap (Nat × Nat) :=
  m.flatMap fun (a, k, v) =>
    (if a < min (a + k) lo then [(a, min (a + k) lo - a, v)] else []) ++
      (if max a (lo + n) < a + k then [(max a (lo + n), a + k - max a (lo + n), v)] else [])

/-- Joins runs that meet and have one value. -/
def spanJoin : AMap (Nat × Nat) → AMap (Nat × Nat)
  | [] => []
  | (a, n, v) :: m =>
    match spanJoin m with
    | [] => [(a, n, v)]
    | (b, k, w) :: r => if a + n = b ∧ v = w then (a, n + k, v) :: r else (a, n, v) :: (b, k, w) :: r

/-- Gives the numbers from lo to lo + n - 1 a value. -/
def spanPut (m : AMap (Nat × Nat)) (lo n v : Nat) : AMap (Nat × Nat) :=
  if n = 0 then m else spanJoin (AMap.put (spanCut m lo n) lo (n, v))

/-- The first e numbers, and the others. -/
def spanTake : AMap (Nat × Nat) → Nat → AMap (Nat × Nat) × AMap (Nat × Nat)
  | [], _ => ([], [])
  | (a, n, v) :: m, e =>
    if e = 0 then ([], (a, n, v) :: m)
    else if n ≤ e then
      let (x, y) := spanTake m (e - n)
      ((a, n, v) :: x, y)
    else ([(a, e, v)], (a + e, n - e, v) :: m)

/-- How many numbers. -/
def spanTotal (m : AMap (Nat × Nat)) : Nat := (m.map (·.2.1)).sum

/-! ### Register fields -/

/-- The key of element e of a field of the register's instance or selected object o. -/
def Fld.key (f : Fld) (o e : Nat) : Nat := (o * 512 + f.reg.ctorIdx) * 64 + f.pos e

/-- The value of a field. -/
def State.fld (s : State) (f : Fld) (o : Nat := 0) (e : Nat := 0) : Nat :=
  (AMap.find s.flds (f.key o e)).getD (f.reset e)

/-- Sets a field, cut to its width. -/
def State.setFld (s : State) (f : Fld) (v : Nat) (o : Nat := 0) (e : Nat := 0) : State :=
  { s with flds := AMap.save (f.reset e) s.flds (f.key o e) (v % 2 ^ f.width) }

/-- Whether a one-bit field is 1. -/
def State.flag (s : State) (f : Fld) (o : Nat := 0) (e : Nat := 0) : Bool := s.fld f o e == 1

/-- Sets or clears a one-bit field. -/
def State.setFlag (s : State) (f : Fld) (v : Bool) (o : Nat := 0) (e : Nat := 0) : State :=
  s.setFld f (b2n v) o e

/-- Adds to a counter field that saturates. -/
def State.countSat (s : State) (f : Fld) (o : Nat := 0) (n : Nat := 1) (e : Nat := 0) : State :=
  s.setFld f (satAdd (2 ^ f.width - 1) (s.fld f o e) n) o e

/-- Adds to a counter field that wraps. -/
def State.countWrap (s : State) (f : Fld) (o : Nat := 0) (n : Nat := 1) (e : Nat := 0) : State :=
  s.setFld f (s.fld f o e + n) o e

/-- Sets every field of a register's instance back to its reset value. -/
def State.resetReg (s : State) (r : Reg) (o : Nat) : State :=
  { s with flds := s.flds.filter fun kv => !(kv.1 / 64 == o * 512 + r.ctorIdx) }

/-- Sets a list of registers of one instance back to their reset values. -/
def State.resetRegs (s : State) (rs : List Reg) (o : Nat) : State := rs.foldl (fun t r => t.resetReg r o) s

/-! ### Capabilities (Tables 0.2 to 0.4) -/

/-- ID.CAP_UNITS.DISTRICTS. -/
def Variant.districts : Variant → Nat | .cx940 => 0xFF | .cx920 => 0x0F | .cx900 => 0

/-- ID.CAP_UNITS.HBM_STACKS. -/
def Variant.stacks : Variant → Nat | .cx940 => 0xFF | .cx920 => 0x0F | .cx900 => 0x03

/-- ID.CAP_UNITS.LANE_GROUPS. -/
def Variant.laneGroups : Variant → Nat | .cx940 => 0xF | .cx920 => 0xF | .cx900 => 0x3

/-- ID.CAP_UNITS.HOST_PORTS. -/
def Variant.ports : Variant → Nat | .cx940 => 0xF | .cx920 => 0xF | .cx900 => 0x3

/-- ID.CAP_UNITS.SQ_FP. -/
def Variant.sqFp : Variant → Bool | .cx900 => false | _ => true

/-- ID.CAP_SIZES.LANES. -/
def Variant.lanes : Variant → Nat | .cx900 => 16 | _ => 32

/-- ID.CAP_SIZES.BLK_PER_DIST. -/
def Variant.blkPerDist : Variant → Nat | .cx900 => 0 | _ => 20

/-- The package power limit in W (Table 0.1). -/
def Variant.limitW : Variant → Nat | .cx940 => 1250 | .cx920 => 800 | .cx900 => 350

/-- Number of stacks present. -/
def State.stackCount (s : State) : Nat := popCount s.fuses.variant.stacks 8

/-- Number of Blocks of the variant. -/
def State.blockCount (s : State) : Nat := popCount s.fuses.variant.districts 8 * s.fuses.variant.blkPerDist

/-- Bytes of space 0 (Table 2.2). -/
def State.hbmBytes (s : State) : Nat := s.stackCount * 2 ^ 36

/-- Whether the host port is present. -/
def State.portPresent (s : State) (n : Nat) : Bool := bit s.fuses.variant.ports n

/-- This node's number (R53). -/
def State.nodeId (s : State) : Nat := s.fld F.idNodeIdRack * 256 + s.fld F.idNodeIdPos

/-! ### Power domains (R33 to R40): 0-7 D, 8-15 H, 16-19 L, 20-23 P -/

/-- The number of no domain, for registers of units that no variant of the kind has (R5). -/
def noDomain : Nat := 24

/-- The domain of a Block; none is present where the variant has no Blocks (R5). -/
def blkDomain (blkPer i : Nat) : Nat := if blkPer = 0 then noDomain else i / blkPer

/-- Whether the unit behind a domain is present. -/
def State.domPresent (s : State) (i : Nat) : Bool :=
  if i < 8 then bit s.fuses.variant.districts i
  else if i < 16 then bit s.fuses.variant.stacks (i - 8)
  else if i < 20 then bit s.fuses.variant.laneGroups (i - 16)
  else if i < 24 then bit s.fuses.variant.ports (i - 20)
  else false

/-- The state of a present domain. -/
def State.dom (s : State) (i : Nat) : DomState := AMap.look .off s.dev.doms i

/-- Whether the domain is DOM_ON. -/
def State.domOn (s : State) (i : Nat) : Bool := s.domPresent i && (s.dom i == .on)

/-- Sets a domain's state. -/
def State.setDom (s : State) (i : Nat) (d : DomState) : State :=
  { s with dev := { s.dev with doms := AMap.save .off s.dev.doms i d } }

/-- The two-bit code of a domain in DOM_STATE (R40). -/
def State.domCode (s : State) (i : Nat) : Nat :=
  if s.domPresent i then (match s.dom i with | .off => 0 | .changing _ => 1 | .on => 2) else 3

/-! ### Functions and the manager -/

/-- A function's record. -/
def State.fn (s : State) (f : Nat) : Fn := AMap.look {} s.fns f

/-- Writes a function's record. -/
def State.setFn (s : State) (f : Nat) (x : Fn) : State := { s with fns := AMap.save {} s.fns f x }

/-- The host port of a function (Table 4.2). -/
def portOf (fn : Nat) : Nat := fn / 64

/-- Whether a port runs as two links (R102). -/
def State.bifurcated (s : State) (port : Nat) : Bool := s.flag F.hpPortCfgBifurcate port

/-- The link a function is on (Table 4.2). -/
def State.linkOf (s : State) (fn : Nat) : LinkId :=
  { port := portOf fn, sub := s.bifurcated (portOf fn) && decide (32 ≤ fn % 64) }

/-- Whether a function number is a PF (Table 4.2). -/
def State.isPf (s : State) (fn : Nat) : Bool :=
  fn % 64 == 0 || (s.bifurcated (portOf fn) && fn % 64 == 32)

/-- The PF of a link. -/
def linkPf (l : LinkId) : Nat := 64 * l.port + (if l.sub then 32 else 0)

/-- Key of a link in the map of links. -/
def linkKey (l : LinkId) : Nat := 2 * l.port + b2n l.sub

/-- A link's record. -/
def State.link (s : State) (l : LinkId) : HostLink := AMap.look {} s.links (linkKey l)

/-- Writes a link's record. -/
def State.setLink (s : State) (l : LinkId) (x : HostLink) : State :=
  { s with links := AMap.save {} s.links (linkKey l) x }

/-- Whether a link exists in the mode in which its port runs. -/
def State.linkPresent (s : State) (l : LinkId) : Bool := s.portPresent l.port && (!l.sub || s.bifurcated l.port)

/-- STATE of a link in HP.LINK_STATUS. -/
def State.linkState (s : State) (l : LinkId) : Nat := s.fld F.hpLinkStatusState l.port (b2n l.sub)

/-- Whether a link is up: it has been accepted, and carries TLPs (R101). -/
def State.linkUp (s : State) (l : LinkId) : Bool := s.linkPresent l && s.linkState l == 2

/-- Whether the device may issue requests to the function's host (R101, R112, R455, Table 4.11, Table 4.13). -/
def State.hostOpen (s : State) (fn : Nat) : Bool :=
  (s.fn fn).bme && ((s.fn fn).state == .active) && (s.dev.state != .fault) && s.linkUp (s.linkOf fn)

/-- The created functions of a link, in ascending order. -/
def State.fnsOf (s : State) (l : LinkId) : List Nat :=
  (List.range 64).map (64 * l.port + ·) |>.filter fun f =>
    (s.linkOf f == l) && ((s.fn f).state != .notCreated)

/-- The function numbers of a link, created or not, in ascending order. -/
def State.linkFns (s : State) (l : LinkId) : List Nat := ((List.range 64).map (64 * l.port + ·)).filter fun f => s.linkOf f == l

/-- The created functions, in ascending order. -/
def State.created (s : State) : List Nat := (s.fns.filter fun p => p.2.state != .notCreated).map (·.1)

/-- Whether a structure image has been accepted (R470, R472). -/
def State.imaged (s : State) : Bool := s.flag F.imgStatusAccepted

/-- The recovery manager while no image is accepted (R465): the PF of the lowest-numbered port whose HP_CLASS strap reads 1. -/
def State.recoveryManager (s : State) : Option Nat :=
  ((List.range 4).find? fun n => s.portPresent n && s.fuses.hpClass.getD n false).map (64 * ·)

/-- The function that holds the manager role (R106, R465): the PF of the port whose MGR_ACTIVE reads 1. -/
def State.manager (s : State) : Option Nat :=
  match (List.range 4).find? fun n => s.flag F.hpPortCfgMgrActive n with
  | some n => some (64 * n)
  | none => if s.imaged then none else s.recoveryManager

/-- Whether a function is the manager function. -/
def State.isManager (s : State) (fn : Nat) : Bool := s.manager == some fn

/-- Whether a function's BARs are decoded: Memory Space Enable is set, and it is not a VF whose VF Enable is clear. -/
def Fn.decodes (f : Fn) : Bool := f.mse && !f.vfHidden

/-- Whether a function presents BAR4: the PF of a manager-capable port, on sub-link 0 where it is bifurcated (R104). A port is
manager-capable by its strap and the image together (R105); while no image is accepted, by its strap, as the recovery manager's is
(R465). -/
def State.presentsBar4 (s : State) (fn : Nat) : Bool :=
  fn % 64 == 0 && s.flag F.hpPortCfgClassStrap (portOf fn) && (s.flag F.hpPortCfgClassImg (portOf fn) || !s.imaged)

/-- TotalVFs and InitialVFs of the PF of a function's link (R542): 0 until an image is accepted. -/
def State.totalVfs (s : State) (fn : Nat) : Nat :=
  if s.imaged then AMap.look 0 s.img.totalVfs (linkKey (s.linkOf fn)) else 0

/-- Whether the SR-IOV capability of its PF enables a VF (R542). -/
def State.vfEnabled (s : State) (fn : Nat) : Bool :=
  let pf := linkPf (s.linkOf fn)
  s.isPf fn || ((s.fn pf).vfEnable && decide (fn - pf ≤ min (s.fn pf).numVfs (s.totalVfs fn)))

/-- Whether requests to BAR0 and BAR2 of a function are served (R101, R113, R115, R455, Tables 4.11 and 4.13): created, not in reset or
wedged, its link carries TLPs, and the device is not in FAULT. -/
def State.barOpen (s : State) (fn : Nat) : Bool :=
  let f := s.fn fn
  (f.state == .active || f.state == .orphaned) && f.decodes && s.dev.state != .fault && s.linkUp (s.linkOf fn)

/-- Whether a DCS offset lies in a block that BAR4 serves in FAULT: RST, CLKPWR, JNL and MGT (R455). -/
def faultBlock (off : Nat) : Bool :=
  decide (0x10000 ≤ off ∧ off < 0x40000) || decide (0x9000000 ≤ off ∧ off < 0xA000000) || decide (0xC000000 ≤ off ∧ off < 0xD000000)

/-- Whether it lies in a block that BAR4 serves while no image is accepted: RST, CLKPWR, IMG and MGT (R465). -/
def bareBlock (off : Nat) : Bool := decide (0x10000 ≤ off ∧ off < 0x80000) || decide (0xC000000 ≤ off ∧ off < 0xD000000)

/-- Whether the out-of-band interface answers: from step 4 of a start on (Table 21.8). -/
def State.oobUp (s : State) : Bool :=
  !s.dev.resetLow && !s.dev.pulse &&
    (match s.dev.state with
     | .off => false
     | .standby => false
     | .bringup => decide (3 ≤ s.fld F.rstStateStep)
     | _ => true)

/-- Whether an origin reaches the register of the device control space at an offset (R104, R106, R455, R465, Table 19.7): the manager
function through BAR4, or the out-of-band interface. An access through space 2 has been checked by its target (R51). -/
def State.dcsOpen (s : State) (org : Origin) (off : Nat) : Bool :=
  match org with
  | .host fn =>
    let f := s.fn fn
    s.isManager fn && f.decodes && (f.state == .active || f.state == .orphaned || !s.imaged) &&
      (s.dev.state != .fault || faultBlock off) && (s.imaged || bareBlock off) && s.linkUp (s.linkOf fn)
  | .space2 _ _ => true
  | .oob => s.oobUp
  | .oobSecure => s.oobUp

/-! ### Bandwidth monitors (R510) -/

/-- Counts bytes of a port for every monitor that runs on it: received, or sent. -/
def State.bwCount (s : State) (port : Nat) (tx : Bool) (n : Nat) : State :=
  (List.range 16).foldl (fun t m =>
    if t.flag F.telBwCfgEnable m ∧ t.fld F.telBwCfgPort m = port then
      let x := AMap.look (0, 0) t.bw m
      { t with bw := AMap.save (0, 0) t.bw m (if tx then (x.1, x.2 + n) else (x.1 + n, x.2)) }
    else t) s

/-- The monitor port of a function's link. -/
def State.hpPort (s : State) (fn : Nat) : Nat := portOf fn + (if (s.linkOf fn).sub then 4 else 0)

/-- The port and the bytes that an output counts for (R510): a TLP has 16 bytes of header with a 64-bit address and 12 in
a completion (log entry 9). -/
def State.bwOf (s : State) : Output → Option (Nat × Nat)
  | .msix fn _ => some (s.hpPort fn, 20)
  | .hostWrite fn _ data _ _ => some (s.hpPort fn, 16 + data.length)
  | .tableRead fn _ => some (s.hpPort fn, 16)
  | .hostRead fn _ _ _ _ => some (s.hpPort fn, 16)
  | .pcie fn _ (.success data) => some (s.hpPort fn, 12 + data.length)
  | .pcie fn _ _ => some (s.hpPort fn, 12)
  | .vlData link _ _ => some (8 + link, 64)
  | .frame port data _ => some (24 + port, data.length)
  | _ => none

/-! ### Outputs, free values, fabric time -/

/-- Records what leaves the device, and counts it for the monitors of its port. -/
def State.emit (s : State) (o : Output) : State :=
  let t := { s with out := o :: s.out }
  match s.bwOf o with
  | some (p, n) => t.bwCount p true n
  | none => t

/-- Records several, the first first. -/
def State.emits (s : State) (os : List Output) : State := os.foldl State.emit s

/-- Draws a fresh free value. -/
def State.draw (s : State) : Word × State := (Config.freeWord s.freeCount, { s with freeCount := s.freeCount + 1 })

/-- Bits 63:0 of the fabric timestamp: 32 bits of seconds, then the nanoseconds (R28). -/
def State.stamp (s : State) : Nat := (s.clk.secs % 2 ^ 32) * 2 ^ 32 + s.clk.ns

/-- Fabric time as a count of nanoseconds. -/
def State.nowNs (s : State) : Nat := s.clk.secs * 1000000000 + s.clk.ns

/-- Fabric time moved by a signed number of nanoseconds (R30); seconds have 48 bits. A move below 0, or past the last second, wraps modulo
2^48 seconds (DESIGN CHOICE, log entry 69: R30 does not say what such a step does). -/
def ClockState.move (c : ClockState) (d : Int) : ClockState :=
  let t := (((c.secs * 1000000000 + c.ns : Nat) : Int) + d) % ((2 ^ 48 * 1000000000 : Nat) : Int)
  { c with secs := t.toNat / 1000000000, ns := t.toNat % 1000000000 }

/-! ### MSI-X (R127) -/

/-- Key of a vector of a function. -/
def msixKey (fn vec : Nat) : Nat := fn * 2048 + vec % 2048

/-- Signals a vector: sends the message, or sets its pending bit while it is masked or no request may go to the host (R112, Table 4.13). -/
def State.signal (s : State) (fn vec : Nat) : State :=
  let f := s.fn fn
  let k := msixKey fn vec
  let x := AMap.look {} s.msix k
  if f.msixEn ∧ !f.msixMask ∧ !x.mask ∧ s.hostOpen fn then s.emit (.msix fn (vec % 2048))
  else { s with msix := AMap.save {} s.msix k { x with pending := true } }

/-! ### Event counters (R508, R509, R353) -/

/-- A Block. -/
def State.blk (s : State) (b : Nat) : Blk := AMap.look {} s.blks b

/-- Writes a Block. -/
def State.setBlk (s : State) (b : Nat) (x : Blk) : State := { s with blks := AMap.save {} s.blks b x }

/-- Captures the position of a Block's sequencer, unless one of the Block is captured already (R353). SEQF.SEL selects the Block whose capture
and count of SEQF.CVT_FAIL a function reads (R354; log entry 136). -/
def State.capture (s : State) (b : Nat) : State :=
  if s.flag F.seqfSampleValid b then s
  else
    let x := s.blk b
    let s := (s.setFlag F.seqfSampleValid true b).setFld F.seqfSampleRep x.rep b
    let s := s.setFld F.seqfSamplePc x.pc b
    (List.range 4).foldl (fun t i =>
      t.setFld F.seqfSampleIterIter ((x.loops.reverse[i]?.map (·.iter)).getD 0) b i) s

/-- Adds n events to counter i of a function. -/
def State.countOne (s : State) (fn ev idx n i : Nat) : State :=
  let o := fn * 32 + i
  if s.flag F.telfCntCfgEnable o ∧ s.fld F.telfCntCfgEvent o = ev ∧
      (s.flag F.telfCntCfgAll o ∨ s.fld F.telfCntCfgIndex o = idx) then
    let c := s.fld F.telfCntCount o + n
    if c < 2 ^ 48 then s.setFld F.telfCntCount c o
    else if s.flag F.telCfgMode then (s.setFld F.telfCntCount (2 ^ 48 - 1) o).setFlag F.telfCntOvf true o
    else
      let t := (s.setFld F.telfCntCount c o).setFlag F.telfCntOvf true o
      let t := if s.flag F.telfCntCfgIntEn o then t.signal fn (s.fld F.telfCtrlVector fn) else t
      if 0x40 ≤ ev ∧ ev ≤ 0x43 then t.capture idx else t
  else s

/-- Counts n events of Table 20.10 caused by a function. -/
def State.count (s : State) (fn ev idx : Nat) (n : Nat := 1) : State :=
  if n = 0 then s else (List.range 32).foldl (fun t i => t.countOne fn ev idx n i) s

/-! ### Memory: the HBM of the node -/

/-- The byte of space 0 at an offset; a byte nothing has written reads 0. -/
def readByte (m : List Host.Cell) (a : Nat) : Byte := AMap.look 0#8 m a

/-- Writes a byte, keeping the list sorted and without zero bytes. -/
def writeByte (m : List Host.Cell) (a : Nat) (b : Byte) : List Host.Cell := AMap.save 0#8 m a b

/-- n bytes from a. -/
def readBytes (m : List Host.Cell) (a n : Nat) : List Byte := (List.range n).map fun i => readByte m (a + i)

/-- Writes bytes from a. -/
def writeBytes (m : List Host.Cell) (a : Nat) : List Byte → List Host.Cell
  | [] => m
  | b :: bs => writeBytes (writeByte m a b) (a + 1) bs

/-- The canonical form of a memory: addresses strictly rising, no byte that an unlisted address reads as. -/
def Memory.wf (m : List Host.Cell) : Bool := AMap.sorted m && m.all fun c => c.2 != 0#8

/-- A memory in its canonical form, with the same bytes. -/
def Memory.canon (m : List Host.Cell) : List Host.Cell :=
  if Memory.wf m then m else m.foldr (fun c a => writeByte a c.1 c.2) []

/-- Size of an HBM page: 2 MiB. -/
def pageSize : Nat := 0x200000

/-- The stack of a space 0 offset (R386). -/
def stackOf (off : Nat) : Nat := off >>> 36

/-- The pseudo-channel of a space 0 offset within its stack (R386). -/
def pcOf (off : Nat) : Nat := bits off 13 8

/-- Whether every page that the bytes touch is allocated to the function. -/
def State.ownsBytes (s : State) (fn off len : Nat) : Bool :=
  let p0 := off / pageSize
  let p1 := (off + (len - 1)) / pageSize
  decide (off + len ≤ s.hbmBytes) &&
    (List.range (p1 - p0 + 1)).all fun i => spanFind s.ten.pages (p0 + i) == some fn

/-- A stack's state. -/
def State.stack (s : State) (k : Nat) : Stack := AMap.look {} s.hbm k

/-- Writes a stack's state. -/
def State.setStack (s : State) (k : Nat) (x : Stack) : State := { s with hbm := AMap.save {} s.hbm k x }

/-- The number of a 64-byte line within its stack. -/
def lineOf (off : Nat) : Nat := (off % 2 ^ 36) / 64

/-- Whether a line may be accessed (R49, R393): its stack is DOM_ON, its PC is in service, and it is not poisoned unless
the access writes all of it. -/
def State.lineOk (s : State) (line : Nat) (whole : Bool) : Bool :=
  let k := stackOf (line * 64)
  s.domOn (8 + k) && !bit (s.fld F.hbmPcRetiredMask k) (pcOf (line * 64)) &&
    (whole || !(s.stack k).poison.contains (lineOf (line * 64)))

/-- Whether bytes write the whole of a line. -/
def covers (off len line : Nat) : Bool := decide (off ≤ line * 64) && decide (line * 64 + 64 ≤ off + len)

/-- The residency entry that holds a space 0 offset, if any (R305). -/
def State.resident (s : State) (off : Nat) : Option Resident :=
  (s.res.map (·.2)).find? fun r => decide (r.base ≤ off) && decide (off < r.base + r.len)

/-- Whether every line that the bytes touch may be accessed; a stack without poisoned lines and retired PCs is asked only
for its domain. A line that a Block store serves, or that refuses the write, is not asked of HBM (Table 11.2). -/
def State.stacksOn (s : State) (off len : Nat) (write : Bool := false) : Bool :=
  let a := stackOf off
  let b := stackOf (off + (len - 1))
  ((List.range (b - a + 1)).all fun i => s.domOn (8 + a + i)) &&
  (((List.range (b - a + 1)).all fun i =>
      (s.stack (a + i)).poison.isEmpty && s.fld F.hbmPcRetiredMask (a + i) == 0) ||
   (List.range ((off + (len - 1)) / 64 - off / 64 + 1)).all fun i =>
      s.lineOk (off / 64 + i) (write && covers off len (off / 64 + i)) ||
        (s.resident ((off / 64 + i) * 64)).any fun r => write || r.state != .loading)

/-- Whether the key of every encrypted page that the bytes touch is at hand (R410 to R412): a tag holds the owning function in bits
11:4 and its region slot in bits 3:0, and slot 0 is plaintext. -/
def State.cipherOk (s : State) (off len : Nat) : Bool :=
  s.prot.tags.isEmpty ||
    (List.range ((off + (len - 1)) / pageSize - off / pageSize + 1)).all fun i =>
      match AMap.find s.prot.tags (off / pageSize + i) with
      | none => true
      | some t => t % 16 == 0 || AMap.look .empty s.prot.regions t == .valid

/-! ### Accesses that wait (R396, R397, R410; log entry 137) -/

/-- tREFI in ns at a thermal level (R396, Table 14.6). -/
def refreshEvery (level : Nat) : Nat := if level = 0 then 3900 else 1950

/-- Read and write commands in every two command slots of a PC at a thermal level (Table 14.6). -/
def slotsOfTwo (level : Nat) : Nat := match level with | 0 => 2 | 1 => 2 | 2 => 1 | _ => 0

/-- Whether bytes have one in a PC of a stack: a run of 256 offsets lies in one PC (R386). -/
def pcHit (k pc off len : Nat) : Bool :=
  let lo := max (off / 256) (k * 2 ^ 28)
  let hi := min ((off + (len - 1)) / 256) ((k + 1) * 2 ^ 28 - 1)
  decide (0 < len ∧ lo ≤ hi ∧ (pc + 64 - lo % 64) % 64 ≤ hi - lo)

/-- Whether the controllers issue no command for bytes of space 0: their stack is so hot that only refresh is issued (Table 14.6), or new
commands to their PC are held while a lane of it is repaired (Table 14.7). -/
def State.hbmStalled (s : State) (off len : Nat) : Bool :=
  decide (0 < len) &&
    (((List.range (stackOf (off + (len - 1)) - stackOf off + 1)).any fun i => slotsOfTwo (s.fld F.hbmStatusLevel (stackOf off + i)) == 0) ||
      s.hbm.any fun e => e.2.repairing.any fun r => pcHit e.1 r.1 off len)

/-- Whether new accesses to bytes of space 0 wait: their controllers issue no command for them, a TAG command has their page in its turn
(R410, step 1), or their page has not been zeroed yet (R467). -/
def State.hbmBusy (s : State) (off len : Nat) : Bool :=
  s.hbmStalled off len ||
    (decide (0 < len) &&
      ((s.prot.tagging.any fun e => e.2.pages.head?.any fun p => decide (off / pageSize ≤ p ∧ p ≤ (off + (len - 1)) / pageSize)) ||
        s.ten.zeroing.any fun e => decide (e.1 ≤ (off + (len - 1)) / pageSize ∧ off / pageSize < e.1 + e.2.1)))

/-- Whether anything holds accesses to HBM. -/
def State.hbmHolding (s : State) : Bool :=
  ((List.range 8).any fun k => slotsOfTwo (s.fld F.hbmStatusLevel k) == 0) || (s.hbm.any fun e => !e.2.repairing.isEmpty) || !s.prot.tagging.isEmpty ||
    !s.ten.zeroing.isEmpty

/-- What holds accesses to HBM: the stacks that only refresh, the PCs whose lanes are repaired, the pages that are tagged, and those that are
zeroed. -/
def State.hbmHolds (s : State) : List (Bool × AMap Nat) × List (Option Nat) × AMap (Nat × Nat) :=
  ((List.range 8).map fun k => (slotsOfTwo (s.fld F.hbmStatusLevel k) == 0, (s.stack k).repairing), s.prot.tagging.map (·.2.pages.head?),
    s.ten.zeroing)

/-! ### Resident ranges (R305, R306) -/

/-- Whether bytes touch a resident range, where writes and atomics are refused (Table 11.2). -/
def State.touchesResident (s : State) (off len : Nat) : Bool :=
  s.res.any fun e => decide (off < e.2.base + e.2.len) && decide (e.2.base < off + len)

/-- A range without the bytes of another. -/
def cutOut (r x : Nat × Nat) : List (Nat × Nat) :=
  let e := r.1 + r.2
  [(r.1, min e x.1 - r.1), (max r.1 (x.1 + x.2), e - max r.1 (x.1 + x.2))].filter fun p => decide (0 < p.2)

/-- The parts of a range that lie in none of some ranges. -/
def outside (r : Nat × Nat) (xs : List (Nat × Nat)) : List (Nat × Nat) := xs.foldl (fun rs x => rs.flatMap fun p => cutOut p x) [r]

/-- The resident ranges that bytes touch. -/
def State.resRanges (s : State) (off len : Nat) : List (Nat × Nat) :=
  (s.res.filter fun e => decide (off < e.2.base + e.2.len) && decide (e.2.base < off + len)).map fun e => (e.2.base, e.2.len)

/-- Whether every byte of a write would go to a resident range. -/
def State.allResident (s : State) (off len : Nat) : Bool := s.touchesResident off len && (outside (off, len) (s.resRanges off len)).isEmpty

/-- The status of a write that is served line by line: refused where a line of it lies in a resident range (R306). -/
def State.heldBack (s : State) (off len : Nat) : Status := if s.touchesResident off len ∧ 0 < len then .notPermitted else .ok

/-- The byte that an engine reads at a space 0 offset: from the Block store where a range is live there. -/
def State.readAt (s : State) (off : Nat) : Byte :=
  match s.resident off with
  | some r =>
    if r.state = .loading then readByte s.mem off else readByte (s.blk r.blk).store (r.region + (off - r.base))
  | none => readByte s.mem off

/-- Marks the pages of an HBM write in the active dirty region of the function that holds them (R435, R436). -/
def State.markDirty (s : State) (off len : Nat) : State :=
  if len = 0 then s
  else
    let p0 := off / pageSize
    let p1 := (off + (len - 1)) / pageSize
    (List.range (p1 - p0 + 1)).foldl (fun t i =>
      match spanFind t.ten.pages (p0 + i) with
      | none => t
      | some fn =>
        if t.flag F.fnDlCtrlHbmEn fn then
          let base := if t.flag F.fnDlCtrlActive fn then t.fld F.fnDlBase1Fga fn else t.fld F.fnDlBase0Fga fn
          let a := base % 2 ^ 44 + (p0 + i) / 8
          if !t.cipherOk a 1 then t
          else { t with mem := writeByte t.mem a (readByte t.mem a ||| BitVec.ofNat 8 (2 ^ ((p0 + i) % 8))) }
        else t) s

/-- The first bytes of the 32-byte halves that a write covers in part, each merged in the atomic unit of its stack (R389). -/
def mergesOf (off len : Nat) : List Nat :=
  let e := off + len
  if len = 0 then []
  else if off / 32 = (e - 1) / 32 then (if off % 32 = 0 ∧ e % 32 = 0 then [] else [off])
  else (if off % 32 ≠ 0 then [off] else []) ++ (if e % 32 ≠ 0 then [e - 1] else [])

/-- Counts lines of HBM pages read or written for the functions that hold them (Table 20.10). -/
def State.countLines (s : State) (ev off len : Nat) : State :=
  if len = 0 then s
  else
    let p0 := off / pageSize
    (List.range ((off + (len - 1)) / pageSize - p0 + 1)).foldl (fun t i =>
      match spanFind t.ten.pages (p0 + i) with
      | some fn =>
        let lo := max off ((p0 + i) * pageSize)
        let hi := min (off + len) ((p0 + i + 1) * pageSize)
        t.count fn ev 0 ((hi - 1) / 64 - lo / 64 + 1)
      | none => t) s

/-- Takes the lines that a write covers out of the poison tables (R393). -/
def State.unpoison (s : State) (off len : Nat) : State :=
  { s with hbm := s.hbm.map fun e =>
      (e.1, { e.2 with poison := e.2.poison.filter fun l => !covers off len (e.1 * 2 ^ 30 + l) }) }

/-- Writes bytes to HBM: whole lines are no longer poisoned, merges and lines are counted, and the dirty log is marked (R389, R393, R436). -/
def State.hbmPut (s : State) (off : Nat) (bs : List Byte) : State :=
  let s := ({ s with mem := writeBytes s.mem off bs }).unpoison off bs.length
  let s := (mergesOf off bs.length).foldl (fun (t : State) a => t.countSat F.hbmAtomOps (stackOf a)) s
  (s.countLines 0x51 off bs.length).markDirty off bs.length

/-- The pages of a range whose tag is of a killed slot: nothing is written there (R412). -/
def State.killedPages (s : State) (off len : Nat) : List (Nat × Nat) :=
  if s.cipherOk off len then []
  else ((List.range ((off + (len - 1)) / pageSize - off / pageSize + 1)).map fun i => ((off / pageSize + i) * pageSize, pageSize)).filter fun p =>
    !s.cipherOk p.1 pageSize

/-- Writes the bytes that lie in none of some ranges and in no page of a killed slot. -/
def State.hbmWriteBut (s : State) (skip : List (Nat × Nat)) (off : Nat) (bs : List Byte) : State :=
  (outside (off, bs.length) (skip ++ s.killedPages off bs.length)).foldl (fun (t : State) r => t.hbmPut r.1 ((bs.drop (r.1 - off)).take r.2)) s

/-- Writes bytes to the HBM of the node, by any engine: those of a resident range are left (Table 11.2). -/
def State.hbmWrite (s : State) (off : Nat) (bs : List Byte) : State := s.hbmWriteBut (s.resRanges off bs.length) off bs

/-! ### Windows and QPs, and the device's tables in HBM (R156, R157, R176, R398) -/

/-- Index of a key (R156). -/
def keyIndex (k : Nat) : Nat := bits k 31 10
/-- Generation of a key. -/
def keyGen (k : Nat) : Nat := bits k 9 0
/-- A key from its parts. -/
def mkKey (i g : Nat) : Nat := i * 1024 + g

/-- The window at an index. -/
def State.win (s : State) (i : Nat) : Window := AMap.look {} s.wins i

/-- Writes a window. -/
def State.setWin (s : State) (i : Nat) (w : Window) : State := { s with wins := AMap.save {} s.wins i w }

/-- Number of descriptors of the window table (R157). -/
def winCount : Nat := 4194304

/-- A QP's record. -/
def State.qp (s : State) (q : Nat) : Qp := AMap.look {} s.qps q

/-- Writes a QP's record. -/
def State.setQp (s : State) (q : Nat) (x : Qp) : State := { s with qps := AMap.save {} s.qps q x }

/-- Operations of a QP that have not completed. -/
def Qp.live (x : Qp) : List TpOp := x.ops.filter fun o => !o.ended

/-- Packets outstanding: sent and not acknowledged (R188). -/
def Qp.outstanding (x : Qp) : Nat := (x.out.filter fun k => !k.acked).length

/-- The accesses admitted against a window and not yet drained: Block memory steps, and turnstile operations that wait through its key
(R161). -/
def State.admittedTo (s : State) (i : Nat) : Nat :=
  (s.blks.map fun b => (b.2.outs.filter fun o => o.key != 0 && keyIndex o.key == i).length).sum +
    (s.ts.map fun e => (e.2.waiters.filter fun w => w.key.any fun k => k.1 == i).length).sum

/-- Whether accesses admitted under the old key of a window have not drained (R161). -/
def State.draining (s : State) (i : Nat) : Bool := s.admittedTo i != 0

/-- The bytes of a window descriptor. -/
def descBytes (base len key state flags owner grantFn grantNode qp admitted time : Nat) : List Byte :=
  leBytes base 8 ++ leBytes len 8 ++ leBytes key 4 ++ leBytes state 1 ++ leBytes flags 1 ++ leBytes owner 1 ++ leBytes grantFn 1 ++
    leBytes grantNode 2 ++ leBytes 0 2 ++ leBytes qp 4 ++ leBytes admitted 4 ++ leBytes 0 4 ++ leBytes time 8 ++ leBytes 0 16

/-- The descriptor of an owned window. -/
def State.windowBytes (s : State) (i : Nat) : List Byte :=
  let w := s.win i
  descBytes w.base w.len (mkKey i w.gen) w.state.code (w.grant * 4 + b2n w.w * 2 + b2n w.r) w.owner w.grantFn w.grantNode 0
    (s.admittedTo i) w.time

/-- The descriptor of an import record. -/
def Import.bytes (r : Import) : List Byte :=
  descBytes r.base r.len r.key r.state.code (128 + r.grant * 4 + b2n r.w * 2 + b2n r.r) r.fn 0 0 r.qp 0 r.time

/-- The visible context of a QP (Table 7.2). -/
def Qp.visible (x : Qp) : List Byte :=
  let b1 := b2n x.enc * 32 + b2n x.peerRelaxed * 16 + x.mtu % 4 * 4 + b2n x.relaxed * 2 + b2n x.roce
  leBytes x.state.code 1 ++ leBytes b1 1 ++ leBytes x.profile 1 ++ leBytes x.owner 1 ++ leBytes x.peerNode 2 ++ leBytes x.peerFn 1 ++
    leBytes x.lastStatus 1 ++ leBytes x.peerQp 4 ++ leBytes x.spsn 4 ++ leBytes x.cum 4 ++ leBytes x.alive 2 ++ leBytes x.aliveRel 2 ++
    leBytes x.paths 8 ++ leBytes x.suspect 8 ++ leBytes x.win 2 ++ leBytes x.outstanding 2 ++ leBytes x.tmo 2 ++ leBytes x.rtoMin 2 ++
    leBytes x.nrUs 2 ++ leBytes x.live.length 2 ++ leBytes (min x.srtt 0xFFFFFFFF) 4 ++ leBytes x.time 8

/-- The offset within a reserved region of a byte of space 0, where it lies in the region or in its shadow (R398, R444): 0 is the window
table, 1 the QP context table, 2 the responder cache, 3 the hold area. -/
def State.regionOff (s : State) (k off : Nat) : Option Nat :=
  match s.img.regions[k]? with
  | none => none
  | some (p, n, t) =>
    let q := off / pageSize
    if p ≤ q ∧ q < p + n then some (off - p * pageSize) else if t ≤ q ∧ q < t + n then some (off - t * pageSize) else none

/-- Byte i of the window table: the import record that lies at the index, or the window there (R157). -/
def State.windowByte (s : State) (i : Nat) : Byte :=
  ((match s.imports.find? fun (r : Import) => r.slot == i / 64 with
    | some r => r.bytes
    | none => s.windowBytes (i / 64)).getD (i % 64) 0#8)

/-- Byte i of the QP context table: the visible context, and what only the device knows, which is free (R176, log entry 124). -/
def State.contextByte (s : State) (i : Nat) : Byte :=
  if i % 256 < 64 then (s.qp (i / 256)).visible.getD (i % 256) 0#8 else Config.freeByte s.freeCount i

/-- The byte of a reserved region at an offset of space 0; the contents of the responder cache and of the hold area are the device's own,
and free. -/
def State.tableByte (s : State) (off : Nat) : Option Byte :=
  match s.regionOff 0 off with
  | some i => some (s.windowByte i)
  | none =>
    match s.regionOff 1 off with
    | some i => some (s.contextByte i)
    | none => if (s.regionOff 2 off).isSome ∨ (s.regionOff 3 off).isSome then some (Config.freeByte s.freeCount off) else none

/-- Whether bytes of space 0 touch some of the first n reserved regions of Table 14.8 or their shadows. -/
def State.touchesRegion (s : State) (n off len : Nat) : Bool :=
  let a := off / pageSize
  let b := (off + (len - 1)) / pageSize
  (s.img.regions.take n).any fun r =>
    (decide (a < r.1 + r.2.1) && decide (r.1 ≤ b)) || (decide (a < r.2.2 + r.2.1) && decide (r.2.2 ≤ b))

/-- Reads bytes of the HBM of the node as an engine does. -/
def State.hbmRead (s : State) (off len : Nat) : List Byte :=
  if s.touchesRegion 4 off len then (List.range len).map fun i => (s.tableByte (off + i)).getD (s.readAt (off + i))
  else if s.touchesResident off len then (List.range len).map fun i => s.readAt (off + i)
  else readBytes s.mem off len

/-! ### Fabric Global Addresses (R47) -/

/-- NODE of an FGA. -/
def fgaNode (x : Nat) : Nat := bits x 63 48
/-- SPACE of an FGA. -/
def fgaSpace (x : Nat) : Nat := bits x 47 44
/-- OFFSET of an FGA. -/
def fgaOff (x : Nat) : Nat := bits x 43 0
/-- An FGA from its parts. -/
def mkFga (node space off : Nat) : Nat := node * 2 ^ 48 + space * 2 ^ 44 + off

/-- Bytes of a space of this node (Table 2.2), or none for a reserved one. -/
def State.extent (s : State) (space : Nat) : Option Nat :=
  match space with
  | 0 => some s.hbmBytes
  | 1 => some 0x100000
  | 2 => some 0x0D000000
  | _ => none

/-- The check of R48, R49, R306 and R412 on an access to this node: reserved space, extent (only the offset for length 0),
domain, poisoned lines, killed keys, and for a write the tables that the device alone writes (R157, R176) and resident ranges: one that also
touches other lines is served line by line (R306, `State.heldBack`). -/
def State.spaceCheck (s : State) (space off len : Nat) (write : Bool := false) : Option Status :=
  match s.extent space with
  | none => some .badSpace
  | some n =>
    if (len = 0 ∧ n < off) ∨ (len ≠ 0 ∧ n < off + len) then some .badOffset
    else if space = 0 ∧ len ≠ 0 ∧ !s.stacksOn off len write then some .domainOff
    else if space = 0 ∧ len ≠ 0 ∧ !s.cipherOk off len then some .cipherFault
    else if space = 0 ∧ len ≠ 0 ∧ write ∧ (s.allResident off len || s.touchesRegion 2 off len) then some .notPermitted
    else none

/-! ### Kiosk notices (R431, R433, Table 16.6) -/

/-- Entries of a Kiosk's ring. -/
def Kiosk.entries (k : Kiosk) : Nat := 2 ^ (k.size + 6)

/-- Bytes of a message: the phase is 1 on the first pass of the ring and inverts at each wrap. -/
def kioskMsg (phase : Bool) (type fn seq time status : Nat) (body : List Byte) : List Byte :=
  leBytes type 1 ++ leBytes (b2n phase * 128) 1 ++ leBytes fn 2 ++ leBytes seq 4 ++ leBytes time 8 ++
    leBytes status 1 ++ [0#8, 0#8, 0#8] ++ padTo body 44

/-- The function's Kiosk, if it has one. -/
def State.kiosk (s : State) (fn : Nat) : Option Kiosk := AMap.find s.ten.kiosks fn

/-- Entries of the REQ ring in use. -/
def Kiosk.reqUsed (k : Kiosk) : Nat := subMod 16 k.reqTail k.reqHead

/-- Writes a message to the REQ ring of a function, at its tail, and signals the manager (R431). -/
def State.postReq (s : State) (fn : Nat) (k : Kiosk) (msg : Bool → List Byte) : State :=
  let n := k.entries
  let phase := (k.reqTail / n) % 2 == 0
  let s := s.hbmWrite (k.base + (k.reqTail % n) * 64) (msg phase)
  let k' := { k with reqTail := (k.reqTail + 1) % 2 ^ 16 }
  let s := { s with ten := { s.ten with kiosks := AMap.put s.ten.kiosks fn k' } }
  match s.manager with
  | some m => s.signal m (s.fld F.fnKskCtrlVector)
  | none => s

/-- Counts a notice that found no room (R433). -/
def State.loseNotice (s : State) : State :=
  ({ s with ten := { s.ten with lostNotices := s.ten.lostNotices + 1 } }).countSat F.fnKskCtrlLost

/-- Posts a device notice to the manager's REQ ring, or counts it as lost; the count of lost notices is told before
any later notice (R433). -/
def State.notify (s : State) (x : Notice) : State :=
  match s.manager with
  | none => s.loseNotice
  | some m =>
    match s.kiosk m with
    | none => s.loseNotice
    | some k =>
      let need := if s.ten.lostNotices = 0 then 1 else 2
      if k.entries < k.reqUsed + need then s.loseNotice
      else if s.ten.lostNotices = 0 then s.postReq m k fun ph => kioskMsg ph x.type x.fn 0 s.stamp x.status x.body
      else
        let t := s.postReq m k fun ph => kioskMsg ph 0xE8 0xFFFF 0 s.stamp 0 (leBytes s.ten.lostNotices 4)
        let t := { t with ten := { t.ten with lostNotices := 0 } }
        let k' := { k with reqTail := (k.reqTail + 1) % 2 ^ 16 }
        t.postReq m k' fun ph => kioskMsg ph x.type x.fn 0 s.stamp x.status x.body

/-! ### The Journal (R446, R447) -/

/-- The slice of a record (R446). -/
def sliceOf (i : Nat) : Nat := (i / 16384) % 4

/-- Records of a slice in use. -/
def State.sliceUsed (s : State) (k : Nat) : Nat := (s.jnl.filter fun r => sliceOf r.1 == k).length

/-- The slice with the most free records, the lowest-numbered on a tie (R446). -/
def State.emptiest (s : State) : Nat :=
  (List.range 4).foldl (fun b k => if s.sliceUsed k < s.sliceUsed b then k else b) 0

/-- The lowest free record index of a slice, looking at n candidates. -/
def State.freeRec (s : State) (k : Nat) : Option Nat :=
  if 65536 ≤ s.sliceUsed k then none
  else
    (List.range (s.sliceUsed k + 1)).map (fun n => (n / 16384) * 65536 + k * 16384 + n % 16384)
      |>.find? fun i => (AMap.find s.jnl i).isNone

/-- Takes a record of a slice and notes the high-water mark. -/
def State.takeRec (s : State) (k : Nat) (r : JRec) : Option (Nat × State) :=
  match s.freeRec k with
  | none => none
  | some i =>
    let t := { s with jnl := AMap.put s.jnl i { r with time := s.stamp } }
    let used := t.sliceUsed k
    let t := if t.fld F.jnlSliceHwm k < used then t.setFld F.jnlSliceHwm used k else t
    some (i, t)

/-- Frees a record. -/
def State.freeJrec (s : State) (i : Option Nat) : State :=
  match i with
  | some i => { s with jnl := AMap.drop s.jnl i }
  | none => s

/-- Changes a record. -/
def State.updJrec (s : State) (i : Option Nat) (f : JRec → JRec) : State :=
  match i with
  | some i => (match AMap.find s.jnl i with
    | some r => { s with jnl := AMap.put s.jnl i (f r) }
    | none => s)
  | none => s

/-! ### ECN (R213) -/

/-- The ECN codepoint of CC.CFG.ECT: 0b11 acts as 0b10 (Table 8.5). -/
def State.ect (s : State) : Nat := min 2 (s.fld F.ccCfgEct)

/-! ### Work queues (chapter 5) -/

/-- The object number of a function's queue among the QF registers. -/
def qObj (fn q : Nat) : Nat := fn * 4096 + q

/-- A queue's context. -/
def State.queue (s : State) (fn q : Nat) : Queue := AMap.look {} s.queues (qObj fn q)

/-- Writes a queue's context. -/
def State.setQueue (s : State) (fn q : Nat) (x : Queue) : State :=
  { s with queues := AMap.save {} s.queues (qObj fn q) x }

/-- Whether an operation has started; one that has been admitted and is held for its host has (R112). -/
def Op.started (o : Op) : Bool := o.phase != .armed && (o.phase != .ready || o.jrec.isSome)

/-! ### FAULT (R455) -/

/-- Pin numbers of the outputs the model drives (Table 21.3). -/
def pinTrayFaultN : Nat := 0
/-- THERM_TRIP_N. -/
def pinThermTripN : Nat := 1

/-- Enters FAULT with a cause of Table 17.7, unless the device is off, in standby or in FAULT already (R26, R455). -/
def State.enterFault (s : State) (cause : Nat) : State :=
  match s.dev.state with
  | .off => s
  | .standby => s
  | .fault => s
  | _ =>
    let s := { s with dev := { s.dev with state := .fault } }
    let s := s.setFld F.jnlRstatusFaultCause cause
    s.emit (.pin pinTrayFaultN false)

end Machine
end Sys2Proof
end

