-- ==== Sys2Proof/Machine/Xlate.lean ====
section
/-! DEFINITION. Address translation (chapter 3): the TLBs, lookups and table walks, the fault batch ring, access counters, and the ranges of
local buffers. -/

namespace Sys2Proof
namespace Machine

/-! ### The TLBs (R74, R75, Tables 3.1 and 3.2) -/

/-- Entries of a TLB (Table 3.2). -/
def TlbLoc.cap : TlbLoc → Nat
  | .block _ => 64 | .dma _ => 128 | .pipe _ => 256 | .stlb => 65536

/-- Whether two entries bear the same tag, or translate overlapping ranges of a function. -/
def XlEntry.clashes : XlEntry → XlEntry → Bool
  | .ha e, .ha x => e.fn == x.fn && decide (x.ha < e.ha + e.size) && decide (e.ha < x.ha + x.size)
  | .win i _ _ _ _ _, .win j _ _ _ _ _ => i == j
  | .own f p, .own g q => f == g && p == q
  | _, _ => false

/-- The number by which an entry's set in the STLB is found: kind, then window, page or HA. -/
def XlEntry.setKey : XlEntry → Nat
  | .ha e => 4 * (e.ha / e.size * 256 + e.fn)
  | .win i _ _ _ _ _ => 4 * i + 1
  | .own f p => 4 * (p * 256 + f) + 2

/-- The list without the last element that meets a test. -/
def dropLastOf {α : Type} (p : α → Bool) (l : List α) : List α := (l.reverse.eraseP p).reverse

/-- Whether two entries compete for a place: any two of one micro-TLB; two of one set of the STLB, whose index the spec does not give
(log entry 34). -/
def competes (loc : TlbLoc) (x y : XlEntry) : Bool :=
  match loc with
  | .stlb => Config.stlbSet x.setKey % 4096 == Config.stlbSet y.setKey % 4096
  | _ => true

/-- Puts an entry into a TLB as the one used last, in place of any that clashes with it; where there is no room the one that has not been
used for longest goes. -/
def State.tlbPut (s : State) (loc : TlbLoc) (x : XlEntry) : State :=
  let rest := s.tlb.filter fun y => !(y.1 == loc && y.2.clashes x)
  let ways := if loc = .stlb then 16 else loc.cap
  let mine := rest.filter fun y => y.1 == loc
  let full := decide (ways ≤ mine.length) && decide (ways ≤ (mine.filter fun y => competes loc x y.2).length)
  { s with tlb := (loc, x) :: (if full then dropLastOf (fun y => y.1 == loc && competes loc x y.2) rest else rest) }

/-- Whether a TLB holds an entry. -/
def State.tlbHolds (s : State) (loc : TlbLoc) (x : XlEntry) : Bool := s.tlb.contains (loc, x)

/-- Uses an entry that an engine has looked up: its micro-TLB takes it, from the STLB or, with the STLB, from what it is filled from. -/
def State.tlbUse (s : State) (loc : TlbLoc) (x : XlEntry) : State :=
  if s.tlbHolds loc x then s.tlbPut loc x else (s.tlbPut .stlb x).tlbPut loc x

/-- Removes the entries that meet a test from every TLB. -/
def State.tlbRemove (s : State) (p : XlEntry → Bool) : State := { s with tlb := s.tlb.filter fun y => !p y.2 }

/-- Whether an entry is the translation of a page of one of some functions that overlaps the HAs lo to hi - 1. -/
def XlEntry.inRange (fns : List Nat) (lo hi : Nat) : XlEntry → Bool
  | .ha e => fns.contains e.fn && decide (e.ha < hi) && decide (lo < e.ha + e.size)
  | _ => false

/-- Removes the HA translations of functions whose pages overlap a range (R86, R88). -/
def State.tlbDrop (s : State) (fns : List Nat) (lo hi : Nat) : State := s.tlbRemove (XlEntry.inRange fns lo hi)

/-- Whether an entry depends on one of n HBM pages from lo on being allocated to a function other than the manager (R80, Table 3.1). -/
def XlEntry.onPages (mgr : Nat → Bool) (lo n : Nat) : XlEntry → Bool
  | .ha e => e.hbm && !mgr e.fn && decide (e.addr % 2 ^ 44 < (lo + n) * pageSize) && decide (lo * pageSize < e.addr % 2 ^ 44 + e.size)
  | .own _ p => decide (lo ≤ p ∧ p < lo + n)
  | .win _ _ _ _ _ _ => false

/-- Whether the end of a translation that is held is one of a page that meets a test of entries. -/
def XlDone.meets (d : XlDone) (p : XlEntry → Bool) : Bool :=
  match d.out with
  | .ok e => p (.ha e)
  | _ => false

/-- Removes the entries that meet a test from every TLB, and from what operations and QPs hold of translations. -/
def State.xlRemove (s : State) (p : XlEntry → Bool) : State :=
  let keep := fun (l : List XlDone) => l.filter fun d => !d.meets p
  { s.tlbRemove p with ops := s.ops.map fun o => { o with xl := keep o.xl }
                       qps := s.qps.map fun e => (e.1, { e.2 with xl := keep e.2.xl }) }

/-- Pages leave a function: so do the entries that target them, wherever they are held (R80, Table 3.1). -/
def State.tlbLoses (s : State) (lo n : Nat) : State := s.xlRemove (XlEntry.onPages s.isManager lo n)

/-- Whether an entry is the one that a function's HA, HBM offset or window index finds. -/
def XlEntry.names (fn a : Nat) : XlEntry → Bool
  | .ha e => e.fn == fn && decide (e.ha ≤ a) && decide (a < e.ha + e.size)
  | .own f p => f == fn && p == a / pageSize
  | .win i _ _ _ _ _ => i == a

/-- A word of one TLB is lost: its entry is removed, and filled again when it is needed (Table 17.2). -/
def State.tlbLost (s : State) (loc : TlbLoc) (fn a : Nat) : State :=
  { s with tlb := s.tlb.filter fun y => !(y.1 == loc && y.2.names fn a) }

/-- The pages of HBM of a range that a function's engine has checked, as OWN entries (Table 3.1); the manager's accesses need none. -/
def State.ownUse (s : State) (fn : Nat) (loc : TlbLoc) (fga len : Nat) : State :=
  if s.isManager fn ∨ fgaSpace fga ≠ 0 ∨ len = 0 ∨ !s.ownsBytes fn (fgaOff fga) len then s
  else
    let p := fgaOff fga / pageSize
    (List.range ((fgaOff fga + (len - 1)) / pageSize - p + 1)).foldl (fun t i => t.tlbUse loc (.own fn (p + i))) s

/-- A window is revoked: its entries are removed (Table 3.1). -/
def State.tlbRevoke (s : State) (i : Nat) : State :=
  s.tlbRemove fun x => match x with
    | .win j _ _ _ _ _ => j == i
    | _ => false

/-! ### Engines and lookups -/

/-- Outcome of a lookup (Table 3.13). -/
inductive XlRes where
  | ok (e : TlbEntry)
  /-- No cached translation with the right: a table walk is needed. -/
  | miss
  /-- A fault reason of Table 3.13. -/
  | fault (reason : Nat)
  | err (st : Status)
  deriving DecidableEq, Repr

/-- An engine that translates: the function it works for, its micro-TLB, and the ends of translations that its operation holds. -/
structure Engine where
  fn : Nat
  loc : TlbLoc
  xl : List XlDone := []
  deriving DecidableEq, Repr

/-- The DMA engine of a function's host port, which also reads rings and writes completions and fault entries (DESIGN CHOICE, log entry
34). -/
def State.hostEng (s : State) (fn : Nat) : Engine := { fn := fn, loc := .dma (s.linkOf fn).port }

/-- Whether a translation is of a function's HA. -/
def TlbEntry.holds (e : TlbEntry) (fn ha : Nat) : Bool := e.fn == fn && decide (e.ha ≤ ha) && decide (ha < e.ha + e.size)

/-- The translation of a function's HA in one TLB. -/
def State.tlbAt (s : State) (loc : TlbLoc) (fn ha : Nat) : Option TlbEntry :=
  s.tlb.findSome? fun y =>
    match y with
    | (l, .ha e) => if l = loc ∧ e.holds fn ha then some e else none
    | _ => none

/-- The translation of a function's HA that an engine finds: in its micro-TLB, else in the STLB (R75). -/
def State.tlbFind (s : State) (loc : TlbLoc) (fn ha : Nat) : Option TlbEntry := (s.tlbAt loc fn ha).or (s.tlbAt .stlb fn ha)

/-- The fault reason an access meets at a leaf, if any (Table 3.13): W is tested before R. -/
def rightFault (e : TlbEntry) : Access → Option Nat
  | .read => if e.r then none else some 3
  | .write => if e.w then none else some 2
  | .atomic => if !e.w then some 2 else if !e.r then some 3 else none

/-- The address a translation gives. -/
def TlbEntry.at (e : TlbEntry) (ha : Nat) : Nat := e.addr + (ha - e.ha)

/-- Applies the rights of a translation to an access. -/
def XlRes.need (r : XlRes) (acc : Access) : XlRes :=
  match r with
  | .ok e => (match rightFault e acc with | none => .ok e | some f => .fault f)
  | x => x

/-- The checks made before any lookup (R77, Table 3.8). -/
def State.haCheck (s : State) (fn ha : Nat) : Option Status :=
  if !s.flag F.xlCtxCtrlEnable fn then some .xlDisabled
  else if (s.flag F.xlCtxCtrlLevels fn && decide (bits ha 63 48 ≠ 0)) ||
          (!s.flag F.xlCtxCtrlLevels fn && decide (bits ha 63 57 ≠ 0)) then some .badAddress
  else none

/-- Whether the tables of a function lie in HBM (R81). -/
def State.tablesInHbm (s : State) (fn : Nat) : Bool := s.flag F.xlCtxRootMedium fn

/-- The end of a translation that an engine's operation holds for an access to a page; a translation with the right serves its whole
page. -/
def Engine.done (g : Engine) (ha : Nat) (acc : Access) : Option XlOut :=
  (g.xl.find? fun d =>
    d.acc == acc &&
      (match d.out with
       | .ok e => e.holds g.fn ha
       | _ => d.page == ha / 4096)).map (·.out)

/-- Whether a function's tables may not be walked because they lie in the memory of a host that has crashed (R97). -/
def State.noWalk (s : State) (fn : Nat) : Bool := !s.tablesInHbm fn && (s.fn fn).state == .orphaned

/-- Looks an HA up (R75, R88): the end of a walk that the operation has waited for, a cached translation with the right, or a miss; an
orphaned function walks no host table, and its operation parks as NOT_PRESENT (R97). -/
def State.lookup (s : State) (g : Engine) (ha : Nat) (acc : Access) : XlRes :=
  match s.haCheck g.fn ha with
  | some st => .err st
  | none =>
    match g.done ha acc with
    | some (.ok e) => .ok e
    | some (.fault r) => .fault r
    | some (.err st) => .err st
    | none =>
      match (s.tlbFind g.loc g.fn ha).filter fun e => (rightFault e acc).isNone with
      | some e => .ok e
      | none => if s.noWalk g.fn then .fault 1 else .miss

/-- The translation that an access is issued with: one that the operation holds, whatever has become of the context since, or that of a
lookup. -/
def State.xlated (s : State) (g : Engine) (ha : Nat) (acc : Access) : XlRes :=
  match g.done ha acc with
  | some (.ok e) => .ok e
  | _ => s.lookup g ha acc

/-- An engine uses a translation: a lookup that misses the micro-TLB is counted, and the micro-TLB takes the entry of the STLB. -/
def State.xlUse (s : State) (g : Engine) (e : TlbEntry) : State :=
  if s.tlbHolds g.loc (.ha e) then s.tlbPut g.loc (.ha e)
  else if s.tlbHolds .stlb (.ha e) then (s.tlbUse g.loc (.ha e)).count g.fn 0x30 0
  else s

/-! ### Walks (R76 to R85) -/

/-- The page size of a leaf, as a power of two: levels L2, L1, L0, and a G64 group (Table 3.3, R79). -/
def leafBits (level : Nat) (g64 : Bool) : Nat := if level = 2 ∧ g64 then 36 else 12 + 9 * level

/-- Checks a valid leaf and forms its translation (R78 to R82). -/
def State.leaf (s : State) (fn ha level pte : Nat) : XlRes :=
  let g64 := bit pte 6
  let tgt := bit pte 4
  let n := leafBits level g64
  let addr := bits pte 51 12 * 4096
  if level ≥ 3 then .err .xlTableError
  else if g64 ∧ (level ≠ 2 ∨ !tgt) then .err .xlTableError
  else if tgt ∧ bits pte 51 44 ≠ 0 then .err .xlTableError
  else if addr % 2 ^ n ≠ 0 then .err .xlTableError
  else if tgt ∧ !s.isManager fn ∧ !s.ownsBytes fn (addr % 2 ^ 44) (2 ^ n) then .err .notPermitted
  else .ok { fn := fn, ha := ha / 2 ^ n * 2 ^ n, size := 2 ^ n, hbm := tgt, addr := addr, r := bit pte 2, w := bit pte 3, ns := bit pte 5 }

/-- What a walk comes to: its outcome, the addresses of the entries read, and the non-leaf entries met. -/
structure Walked where
  res : XlRes
  reads : List Nat := []
  mids : List WalkEntry := []
  deriving DecidableEq, Repr

/-- The levels of a function's table (R76). -/
def State.levels (s : State) (fn : Nat) : List Nat :=
  if s.flag F.xlCtxCtrlLevels fn then [3, 2, 1, 0] else [4, 3, 2, 1, 0]

/-- The address of the entry that an HA indexes in a table of a level (Table 3.3). -/
def pteAddr (table level ha : Nat) : Nat := table + bits ha (20 + 9 * level) (12 + 9 * level) * 8

/-- Reads a table entry in HBM, which must lie in pages of the port's PF and be readable (R81, R82). -/
def State.readPte (s : State) (fn a : Nat) : Option Nat :=
  if s.ownsBytes (linkPf (s.linkOf fn)) a 8 ∧ (s.spaceCheck 0 a 8).isNone then some (leNat (s.hbmRead a 8)) else none

/-- Walks the levels listed from a table on: entries in HBM are read there, those in host memory are the words listed, of which none is a
failed read (R76, R82). An entry with V = 0 is one that is not present, whatever its other bits (DESIGN CHOICE, log entry 113). -/
def State.walkLevels (s : State) (fn ha : Nat) (hbm : Bool) : List Nat → Nat → List (Option Nat) → Walked
  | [], _, _ => { res := .err .xlTableError }
  | l :: ls, table, ws =>
    let a := pteAddr table l ha
    match (if hbm then s.readPte fn a else ws.headD none) with
    | none => { res := .err .xlTableError, reads := [a] }
    | some pte =>
      if !bit pte 0 then { res := .fault 1, reads := [a] }
      else if bits pte 63 52 ≠ 0 ∨ bits pte 11 7 ≠ 0 then { res := .err .xlTableError, reads := [a] }
      else if bit pte 1 then { res := s.leaf fn ha l pte, reads := [a] }
      else if l = 0 then { res := .err .xlTableError, reads := [a] }
      else
        let next := bits pte 51 12 * 4096
        let r := s.walkLevels fn ha hbm ls next ws.tail
        { r with reads := a :: r.reads, mids := { fn := fn, level := l, pre := ha / 2 ^ (12 + 9 * l), table := next } :: r.mids }

/-- Where a walk begins: below the lowest level that the walk cache holds for the HA, else at the root (R85). -/
def State.walkFrom (s : State) (fn ha : Nat) : List Nat × Nat :=
  let ls := s.levels fn
  match [2, 3, 4].findSome? fun l =>
      (s.walkCache.find? fun e => ls.contains l && e.fn == fn && e.level == l && e.pre == ha / 2 ^ (12 + 9 * l)).map fun e => (l, e.table) with
  | some (l, table) => (ls.filter fun k => decide (k < l), table)
  | none => (ls, s.fld F.xlCtxRootRoot fn * 4096)

/-- Whether two entries of the walk cache compete for a place: its set index is not given (log entry 34). -/
def WalkEntry.competes (x y : WalkEntry) : Bool :=
  Config.walkSet (x.pre * 2048 + x.level * 256 + x.fn) % 512 == Config.walkSet (y.pre * 2048 + y.level * 256 + y.fn) % 512

/-- Puts a non-leaf entry of levels L4 to L2 into the walk cache of 4,096 entries, 8 to a set (Table 3.2). -/
def State.walkCachePut (s : State) (x : WalkEntry) : State :=
  if x.level < 2 then s
  else
    let rest := s.walkCache.filter fun y => !(y.fn == x.fn && y.level == x.level && y.pre == x.pre)
    let full := decide (8 ≤ rest.length) && decide (8 ≤ (rest.filter x.competes).length)
    { s with walkCache := x :: (if full then dropLastOf x.competes rest else rest) }

/-- Somebody waits for the translation of a page, as a lookup that missed the micro-TLB: the walk of the page that is in flight or waits
to start serves him too (R85), or another is to start. A cached entry that lacks the right is removed (R88). -/
def State.wantWalk (s : State) (fn ha : Nat) (w : XlWait) : State :=
  let page := ha / 4096
  let lacks := fun (x : XlEntry) => x.inRange [fn] (page * 4096) (page * 4096 + 4096) &&
    (match x with
     | .ha e => (rightFault e w.acc).isSome
     | _ => false)
  let s := (s.tlbRemove lacks).count fn 0x30 0
  if s.walks.any fun k => k.fn == fn && k.page == page then
    { s with walks := s.walks.map fun k =>
        if k.fn = fn ∧ k.page = page ∧ !k.waits.contains w then { k with waits := k.waits ++ [w] } else k }
  else { s with walks := s.walks ++ [{ fn := fn, page := page, waits := [w] }] }

/-! ### Host reads and writes -/

/-- Marks a host write in the host bitmap of the function's dirty log, or counts it outside the range (R436). -/
def State.markHost (s : State) (fn ha len : Nat) : State :=
  if !s.flag F.fnDlCtrlHostEn fn ∨ len = 0 then s
  else
    let base := s.fld F.fnDlHaBaseHa fn * 4096
    let p := (ha - base) / 4096
    if ha < base ∨ s.fld F.fnDlCtrlPages fn ≤ p then s.countSat F.fnDlCntMiss fn
    else
      let reg := if s.flag F.fnDlCtrlActive fn then s.fld F.fnDlBase1Fga fn else s.fld F.fnDlBase0Fga fn
      let a := reg % 2 ^ 44 + 32768 + p / 8
      if !s.cipherOk a 1 then s
      else { s with mem := writeByte s.mem a (readByte s.mem a ||| BitVec.ofNat 8 (2 ^ (p % 8))) }

/-- The lengths of the pieces of a buffer that lie in one 4 KiB page each. -/
def pagePieces (a : Nat) : Nat → Nat → List (Nat × Nat)
  | 0, _ => []
  | n + 1, len =>
    if len = 0 then []
    else
      let k := min len (4096 - a % 4096)
      (a, k) :: pagePieces (a + k) n (len - k)

/-- The pieces of a buffer. -/
def pieces (a len : Nat) : List (Nat × Nat) := pagePieces a (len / 4096 + 2) len

/-- The No Snoop bit of an access through a translation (Tables 3.4 and 3.8). -/
def State.noSnoop (s : State) (e : TlbEntry) : Bool := e.ns && s.flag F.xlCtxCtrlNsEn e.fn

/-- A range cut into pieces of at most m bytes: at most n pieces. -/
def cutPieces (m : Nat) : Nat → Nat → Nat → List (Nat × Nat)
  | 0, _, _ => []
  | n + 1, a, len => if len ≤ m then [(a, len)] else (a, m) :: cutPieces m n (a + m) (len - m)

/-- The pieces of at most m bytes of a range. -/
def sizedPieces (m a len : Nat) : List (Nat × Nat) := cutPieces m (len / m + 1) a len

/-- Max_Payload_Size in bytes: that of the PF of the function's link, and at most 512 (R100; log entry 122). -/
def State.maxPayload (s : State) (fn : Nat) : Nat := 128 * 2 ^ min 2 (s.fn (linkPf (s.linkOf fn))).mps

/-- Max_Read_Request_Size in bytes: that of the PF of the function's link, and at most 4,096 (R100; log entry 122). -/
def State.maxRead (s : State) (fn : Nat) : Nat := 128 * 2 ^ min 5 (s.fn (linkPf (s.linkOf fn))).mrrs

/-- Memory Writes of bytes to a function's host, each of at most Max_Payload_Size (R100). -/
def State.hostPut (s : State) (fn addr : Nat) (bs : List Byte) (relaxed ns : Bool) : State :=
  (sizedPieces (s.maxPayload fn) 0 bs.length).foldl (fun t p => t.emit (.hostWrite fn (addr + p.1) ((bs.drop p.1).take p.2) relaxed ns)) s

/-- Writes bytes through a translation of their page (R108): to HBM, or to the host; none where HBM cannot take them. -/
def State.haPut (s : State) (g : Engine) (e : TlbEntry) (ha : Nat) (bs : List Byte) (relaxed : Bool) : Option State :=
  let s := s.xlUse g e
  if e.hbm then
    (if (s.spaceCheck 0 (e.at ha % 2 ^ 44) bs.length true).isSome then none else some (s.hbmWrite (e.at ha % 2 ^ 44) bs))
  else some ((s.hostPut g.fn (e.at ha) bs relaxed (s.noSnoop e)).markHost g.fn ha bs.length)

/-- Writes bytes at an HA within one page; none where there is no translation. -/
def State.haWrite1 (s : State) (g : Engine) (ha : Nat) (bs : List Byte) (relaxed : Bool) : Option State :=
  match s.xlated g ha .write with
  | .ok e => s.haPut g e ha bs relaxed
  | _ => none

/-- Writes bytes at an HA, page by page; none where a page fails. -/
def State.haWrite (s : State) (g : Engine) (ha : Nat) (bs : List Byte) (relaxed : Bool := false) : Option State :=
  (pieces ha bs.length).foldl (fun o p =>
    match o with
    | none => none
    | some t => t.haWrite1 g p.1 ((bs.drop (p.1 - ha)).take p.2) relaxed) (some s)

/-! ### Counting accesses (R98, R99) -/

/-- The counter table of a function, if it lies in its HBM: offset and counters. -/
def State.acTable (s : State) (fn : Nat) : Option (Nat × Nat) :=
  let tab := s.fld F.xlfAcTableTableFga fn
  let n := s.fld F.xlfAcRangeRcount fn + 1
  if fgaNode tab = s.nodeId ∧ fgaSpace tab = 0 ∧ s.ownsBytes fn (fgaOff tab) (2 * n) then some (fgaOff tab, n) else none

/-- Counting stops where the counter table does not lie in the function's HBM: ENABLE reads 0 (R98). -/
def State.acStop (s : State) (fn : Nat) : State :=
  if s.flag F.xlfAcCtrlEnable fn ∧ (s.acTable fn).isNone then s.setFlag F.xlfAcCtrlEnable false fn else s

/-- What is left of a function's fault ring's work. -/
def State.setFaultQ (s : State) (fn : Nat) (l : List FaultItem) : State := { s with faultQ := AMap.save [] s.faultQ fn l }

/-- Counts the 64-byte lines that an access through an HA translation touches (R98); at the threshold the hint joins the work of the
function's fault ring (R99). -/
def State.acCount (s : State) (fn ha len : Nat) (hbm : Bool) : State :=
  if !s.flag F.xlfAcCtrlEnable fn ∨ len = 0 then s
  else
    let base := s.fld F.xlfAcRangeBaseHa fn * pageSize
    let i := (ha - base) / pageSize
    if ha < base ∨ s.fld F.xlfAcRangeRcount fn < i then s
    else
      match s.acTable fn with
      | none => s.setFlag F.xlfAcCtrlEnable false fn
      | some (tab, _) =>
        let a := tab + 2 * i
        let old := leNat (s.hbmRead a 2)
        let lines := (ha + len - 1) / 64 - ha / 64 + 1
        let new := satAdd 0xFFFF old lines
        let s := s.hbmWrite a (leBytes new 2)
        let th := s.fld F.xlfAcCtrlThresh fn
        let st := AMap.look {} s.acs fn
        if th ≠ 0 ∧ old < th ∧ th ≤ new ∧ !hbm ∧ s.flag F.xlfFbCtrlHotEn fn ∧ !st.hinted.contains i then
          let hint : FaultRec := { ref := none, eng := .counter, source := 0, jrec := 0xFFFFFFFF, page := base + i * pageSize, reason := 0x10,
                                   write := false, count := new }
          let t := s.setFaultQ fn (AMap.look [] s.faultQ fn ++ [.fault hint])
          { t with acs := AMap.save {} t.acs fn { hinted := i :: st.hinted } }
        else s

/-- Counts an access of an engine through HA translations, page by page, as `State.acCount` does. -/
def State.acPages (s : State) (g : Engine) (ha len : Nat) (acc : Access) : State :=
  (pieces ha len).foldl (fun t p =>
    match t.xlated g p.1 acc with
    | .ok e => t.acCount g.fn p.1 p.2 e.hbm
    | _ => t) s

/-- A write of the host-port DMA engine to a ring in host addresses, which is counted (R98): each of its parts as one access (log entry 132);
none where a page fails. -/
def State.ringPut (s : State) (fn ha : Nat) (bs : List Byte) : Option State :=
  (s.haWrite (s.hostEng fn) ha bs).map fun t => t.acPages (t.hostEng fn) ha bs.length .write

/-! ### The fault batch ring (R92 to R94) -/

/-- Entries of the ring (Table 3.17). -/
def State.fbSize (s : State) (fn : Nat) : Nat := 2 ^ (min (s.fld F.xlfFbBaseSize fn) 10 + 6)

/-- The batch of a function. -/
def State.batchOf (s : State) (fn : Nat) : FaultBatch := AMap.look {} s.batches fn

/-- Writes a function's batch and shows whether it is open. -/
def State.setBatch (s : State) (fn : Nat) (b : FaultBatch) : State :=
  ({ s with batches := AMap.save {} s.batches fn b }).setFlag F.xlfFbStatusOpen b.isOpen fn

/-- The address of a ring entry. -/
def State.fbAddr (s : State) (fn i : Nat) : Nat := s.fld F.xlfFbBaseBase fn * 4096 + i * 32

/-- The code of an engine in byte 9. -/
def engineCode : XlEngine → Nat
  | .hostDma => 0 | .requester => 1 | .receive => 2 | .counter => 3

/-- Bytes 0 to 8 of a fault entry (Table 3.15). -/
def fbHead (page reason : Nat) : List Byte := leBytes page 8 ++ leBytes reason 1

/-- Bytes 10 to 31. -/
def fbTail (count batch source jrec time : Nat) : List Byte :=
  leBytes count 2 ++ leBytes batch 2 ++ leBytes 0 2 ++ leBytes source 4 ++ leBytes jrec 4 ++ leBytes time 8

/-- Writes entry i of the ring: bytes 0 to 8 and 10 to 31, then byte 9 (R93); none where a write fails. -/
def State.putEntry (s : State) (fn i b9 : Nat) (head rest : List Byte) : Option State :=
  (s.ringPut fn (s.fbAddr fn i) head).bind fun t =>
    (t.ringPut fn (t.fbAddr fn i + 10) rest).bind fun u => u.ringPut fn (u.fbAddr fn i + 9) [BitVec.ofNat 8 b9]

/-- Whether the ring entry i of a function may be written now. -/
inductive RingAt where
  | yes
  /-- The host may not be written now. -/
  | held
  /-- The ring's own translation is to be walked for. -/
  | walk
  | failed
  deriving DecidableEq, Repr

/-- Whether the ring entry i of a function may be written now (R92, R94, R97, R112). Where its link carries no TLPs the write fails on the
host port (R94; DEDUCED, log entry 132). -/
def State.ringAt (s : State) (fn i : Nat) : RingAt :=
  match s.lookup (s.hostEng fn) (s.fbAddr fn i) .write with
  | .ok e => if e.hbm || s.hostOpen fn then .yes else if s.linkUp (s.linkOf fn) then .held else .failed
  | .miss => .walk
  | _ => .failed

/-- Closes the open batch: LAST_BATCH, and the vector once (R93). -/
def State.batchEnds (s : State) (fn : Nat) : State :=
  let b := s.batchOf fn
  let s := s.setFld F.xlfFbStatusLastBatch b.number fn
  let s := s.setBatch fn { b with number := (b.number + 1) % 65536, isOpen := false, entries := [] }
  s.signal fn (s.fld F.xlfFbCtrlVector fn)

/-- What a step of the fault ring comes to: it is done, or it waits for the ring. -/
inductive RingStep where
  | done (s : State)
  | held
  | walk (i : Nat)
  deriving DecidableEq, Repr

/-- Closes the open batch, with LAST written into its last entry (R93); a write that fails sets RING_ERR (R94), and an orphaned function's
entry is not written (R97). -/
def State.ringClose (s : State) (fn : Nat) : RingStep :=
  let b := s.batchOf fn
  if !b.isOpen then .done s
  else
    match b.entries.getLast? with
    | none => .done (s.batchEnds fn)
    | some e =>
      if (s.fn fn).state = .orphaned then .done (s.batchEnds fn)
      else
        match s.ringAt fn e.idx with
        | .held => .held
        | .walk => .walk e.idx
        | .failed => .done ((s.setFlag F.xlfFbStatusRingErr true fn).batchEnds fn)
        | .yes =>
          .done (((s.ringPut fn (s.fbAddr fn e.idx + 9) [BitVec.ofNat 8 (e.b9 + 2)]).getD
            (s.setFlag F.xlfFbStatusRingErr true fn)).batchEnds fn)

/-- The operation that a fault parked is known by the batch of its entry, or as one without an entry; of several pages the last one counts
(DESIGN CHOICE, log entry 115). -/
def State.parkedAs (s : State) (f : FaultRec) (k : ParkKind) : State :=
  match f.ref with
  | none => s
  | some r => { s with ops := s.ops.map fun o =>
      if o.ref = r then
        (match o.phase with
         | .parked .behind => o
         | .parked _ => { o with phase := .parked k }
         | _ => o)
      else o }

/-- Whether a fault is still to be recorded: the operation that it parked is parked. -/
def State.faultStands (s : State) (f : FaultRec) : Bool :=
  match f.ref with
  | none => true
  | some r => s.ops.any fun o => o.ref == r && (match o.phase with | .parked _ => true | _ => false)

/-- Records a fault: coalesces it, writes an entry, or leaves it without one (R93, R94, R97). A hint is never coalesced (R99), and one that
cannot be written is no fault and is dropped (log entry 33). The Boolean says that the batch is full and closes. -/
def State.ringFault (s : State) (fn : Nat) (f : FaultRec) : RingStep × Bool :=
  let b := s.batchOf fn
  let hint := decide (f.eng = .counter)
  let quiet := if hint then s else ({ s with batches := AMap.save {} s.batches fn { b with lost := true } }).parkedAs f .silent
  let full := if hint then s else quiet.setFlag F.xlfFbStatusOvf true fn
  if !s.faultStands f then (.done s, false)
  else if (s.fn fn).state == .orphaned then (.done quiet, false)
  else if s.flag F.xlfFbStatusRingErr fn then (.done quiet, false)
  else
  match (if hint then none else b.entries.find? fun e => e.page == f.page && e.reason == f.reason && e.write == f.write) with
  | some e =>
    (match s.ringAt fn e.idx with
     | .held => (.held, false)
     | .walk => (.walk e.idx, false)
     | .failed => (.done (quiet.setFlag F.xlfFbStatusRingErr true fn), false)
     | .yes =>
       let e' := { e with count := satAdd 0xFFFF e.count f.count }
       let t := (s.ringPut fn (s.fbAddr fn e.idx + 10) (leBytes e'.count 2)).getD (s.setFlag F.xlfFbStatusRingErr true fn)
       (.done ((t.setBatch fn { b with entries := b.entries.map fun x => if x.idx = e.idx then e' else x }).parkedAs f (.batch b.number)), false))
  | none =>
    if !s.flag F.xlfFbCtrlEnable fn then (.done full, false)
    else
      let n := s.fbSize fn
      let tail := s.fld F.xlfFbTailTail fn
      let next := (tail + 1) % n
      if next = s.fld F.xlfFbHeadHead fn % n then (.done full, false)
      else
        match s.ringAt fn tail with
        | .held => (.held, false)
        | .walk => (.walk tail, false)
        | .failed => (.done (quiet.setFlag F.xlfFbStatusRingErr true fn), false)
        | .yes =>
          let phase := s.fld F.xlfFbTailPhase fn
          let b9 := engineCode f.eng * 16 + b2n b.lost * 8 + phase * 4 + b2n f.write
          match s.putEntry fn tail b9 (fbHead f.page f.reason) (fbTail f.count b.number f.source f.jrec s.stamp) with
          | none => (.done (quiet.setFlag F.xlfFbStatusRingErr true fn), false)
          | some t =>
            let t := (t.count fn 0x12 0).setFld F.xlfFbTailTail next fn
            let t := if next = 0 then t.setFld F.xlfFbTailPhase (1 - phase) fn else t
            let e : FbEntry := { idx := tail, page := f.page, reason := f.reason, write := f.write, count := f.count, b9 := b9 }
            let t := t.setBatch fn { b with isOpen := true, entries := b.entries ++ [e], lost := false }
            (.done (t.parkedAs f (.batch b.number)), decide (max 1 (s.fld F.xlfFbCtrlBatchMax fn) ≤ b.entries.length + 1))

/-- The function's fault ring works on, at most n items, until it has to wait for its translation or its host. -/
def State.ringGo (s : State) (fn : Nat) : Nat → State
  | 0 => s
  | n + 1 =>
    match AMap.look [] s.faultQ fn with
    | [] => s
    | it :: _ =>
      let (r, closes) := match it with
        | .fault f => s.ringFault fn f
        | .close => (s.ringClose fn, false)
      match r with
      | .done t =>
        let left := (AMap.look [] t.faultQ fn).drop 1
        (t.setFaultQ fn (if closes then .close :: left else left)).ringGo fn n
      | .held => s
      | .walk i => s.wantWalk fn (s.fbAddr fn i) { who := .faults, acc := .write, loc := (s.hostEng fn).loc }

/-- The function's fault ring works on as far as it can. -/
def State.ringRun (s : State) (fn : Nat) : State := s.ringGo fn (3 * (AMap.look [] s.faultQ fn).length + 4)

/-- A translation of the fault ring itself has ended without a translation: what was first to be done sets RING_ERR (R94). -/
def State.ringFails (s : State) (fn : Nat) : State :=
  let s := s.setFlag F.xlfFbStatusRingErr true fn
  (match AMap.look [] s.faultQ fn with
   | .close :: rest => (s.batchEnds fn).setFaultQ fn rest
   | _ => s).ringRun fn

/-- A fault is recorded once those before it have been. -/
def State.recordFault (s : State) (fn : Nat) (f : FaultRec) : State :=
  (s.setFaultQ fn (AMap.look [] s.faultQ fn ++ [.fault f])).ringRun fn

/-- The open batch closes, before any fault that is still to be recorded. -/
def State.closeBatch (s : State) (fn : Nat) : State :=
  if (s.batchOf fn).isOpen then (s.setFaultQ fn (.close :: AMap.look [] s.faultQ fn)).ringRun fn else s

/-! ### Access counters (R98, R99) -/

/-- Lets the fault ring take up what has come to wait for it since a state. -/
def State.hintsSince (t s : State) (fn : Nat) : State :=
  if (AMap.look [] t.faultQ fn).length = (AMap.look [] s.faultQ fn).length then t else t.ringRun fn

/-- Counts an access of an engine through HA translations, page by page, and hints at the threshold. -/
def State.countPages (s : State) (g : Engine) (ha len : Nat) (acc : Access) : State := (s.acPages g ha len acc).hintsSince s g.fn

/-! ### Ranges of a local buffer -/

/-- How far a range translates: all of it, up to a page that has to be walked for, up to a segment with faults, or an error. Bytes before
the first 2 MiB segment with a problem are usable (R90). -/
inductive RangeRes where
  | ok
  | walk (done ha : Nat)
  | faults (done : Nat) (pages : List (Nat × Nat))
  | err (done : Nat) (st : Status)
  deriving DecidableEq, Repr

/-- The start of the 2 MiB segment of ha, as a count of bytes from the buffer's base. -/
def segStart (base ha : Nat) : Nat := (ha / pageSize * pageSize) - base

/-- Translates every page of a range from its pieces; at most 16 faulting pages of the first segment that has one. An error in a segment
that has met a fault before it is met again when the operation is replayed (DESIGN CHOICE, log entry 114). -/
def State.rangeGo (s : State) (g : Engine) (base : Nat) (acc : Access) : List (Nat × Nat) → List (Nat × Nat) → RangeRes
  | [], [] => .ok
  | [], (h, r) :: fs => .faults (segStart base h) ((h, r) :: fs).reverse
  | (ha, n) :: ps, fs =>
    let other := match fs with
      | [] => false
      | (h, _) :: _ => decide (h / pageSize ≠ ha / pageSize)
    if other then .faults (segStart base (match fs with | (h, _) :: _ => h | [] => ha)) fs.reverse
    else
      match s.lookup g ha acc with
      | .ok e =>
        (match (if e.hbm then s.spaceCheck 0 (e.at ha % 2 ^ 44) n (acc != .read) else none) with
         | none => s.rangeGo g base acc ps fs
         | some st => if fs.isEmpty then .err (segStart base ha) st else s.rangeGo g base acc ps fs)
      | .miss => .walk (segStart base ha) ha
      | .fault r => if fs.length < 16 then s.rangeGo g base acc ps ((ha / 4096 * 4096, r) :: fs)
                    else s.rangeGo g base acc ps fs
      | .err st => if fs.isEmpty then .err (segStart base ha) st else s.rangeGo g base acc ps fs

/-- Translates a range of a function's host addresses. -/
def State.range (s : State) (g : Engine) (ha len : Nat) (acc : Access) : RangeRes :=
  s.rangeGo g ha acc (pieces ha len) []

/-- The translations that an operation holds from now on for the accesses to a range that translates. -/
def State.holdRange (s : State) (g : Engine) (ha len : Nat) (acc : Access) : List XlDone :=
  (pieces ha len).filterMap fun p =>
    match s.lookup g p.1 acc with
    | .ok e => some { page := p.1 / 4096, acc := acc, out := .ok e }
    | _ => none

/-- The check of a plain FGA in a field that names a local address (R55): this node; space 0 in the function's pages,
or any space for the manager. -/
def State.plainCheck (s : State) (fn fga len : Nat) (write : Bool := false) : Option Status :=
  if fgaNode fga ≠ s.nodeId then some .notPermitted
  else
    match s.spaceCheck (fgaSpace fga) (fgaOff fga) len write with
    | some st => some st
    | none =>
      if s.isManager fn then (if fgaSpace fga = 0 then none else some .notPermitted)
      else if fgaSpace fga = 0 ∧ (len = 0 ∨ s.ownsBytes fn (fgaOff fga) len) then none
      else some .notPermitted

/-- The check of a plain FGA that names a local buffer (R50, R51, R55): the manager may name space 1 for a read of 8 aligned bytes, and
space 2, whose accesses are those of the device control space; any other is checked as `State.plainCheck` says. -/
def State.bufferCheck (s : State) (fn fga len : Nat) (write : Bool) : Option Status :=
  if !s.isManager fn ∨ fgaNode fga ≠ s.nodeId ∨ (fgaSpace fga ≠ 1 ∧ fgaSpace fga ≠ 2) then s.plainCheck fn fga len write
  else
    match s.spaceCheck (fgaSpace fga) (fgaOff fga) len write with
    | some st => some st
    | none =>
      if fgaSpace fga = 2 then none
      else if write then some .notPermitted
      else if len = 8 ∧ fgaOff fga % 8 = 0 then none
      else some .badOffset

/-- Reads a range of host addresses that translates to HBM throughout. -/
def State.haReadHbm (s : State) (g : Engine) (ha len : Nat) : Option (List Byte) :=
  (pieces ha len).foldr (fun p o =>
    match o, s.xlated g p.1 .read with
    | some bs, .ok e => if e.hbm then some (s.hbmRead (e.at p.1 % 2 ^ 44) p.2 ++ bs) else none
    | _, _ => none) (some [])

end Machine
end Sys2Proof
end

