-- ==== Sys2Proof/Machine/Keys.lean ====
section
/-! DEFINITION. Window keys (chapter 6): the window table, grants, rights and bounds, and what a key names. -/

namespace Sys2Proof
namespace Machine

/-- Whether a user satisfies the grant of a window (R158, Table 6.3); the manager of the window's own node does. -/
def State.granted (s : State) (w : Window) (u : User) : Bool :=
  (!u.roce && u.node == s.nodeId && (u.fn == w.owner || s.isManager u.fn)) ||
  (match w.grant with
   | 0 => false
   | 1 => !u.roce && u.node == w.grantNode && u.fn == w.grantFn
   | 2 => u.node == w.grantNode && !(u.roce && u.node == 0xFFFF)
   | _ => true)

/-- What an access does to a window (R158). -/
inductive Use where
  /-- A write or an atomic. -/
  | data
  /-- A read; of a space 1 window it is one of 8 bytes, naturally aligned (R50). -/
  | read
  /-- A turnstile operation or the arming of a trigger. -/
  | turnstile
  deriving DecidableEq, Repr

/-- Whether a user may access register space 2 of this node (R51): its manager, or the manager of a node that the structure image
trusts, which that node has checked. -/
def State.mayDcs (s : State) (u : User) : Bool :=
  if u.node = s.nodeId then s.isManager u.fn else s.img.trusted.contains u.node

/-- Whether the operation suits the window's space (R158, R51): space 2 is the manager's. -/
def State.suits (s : State) (space : Nat) (u : User) : Use → Bool
  | .data => space == 0 || (space == 2 && s.mayDcs u)
  | .read => space == 0 || space == 1 || (space == 2 && s.mayDcs u)
  | .turnstile => space == 1

/-- Whether bytes off to off + len - 1 lie in a window of n bytes; for length 0 only the offset counts (R142). -/
def inWindow (n off len : Nat) : Bool := if len = 0 then decide (off ≤ n) else decide (off + len ≤ n)

/-- The offset of an address in a window; an address before the window's base has one that lies in no window. -/
def offsetIn (base a : Nat) : Nat := if a < base then 2 ^ 64 else a - base

/-- The check of a key for a window of this node (R55, R158, R160): key, bounds and rights in the order of R55 (log entry 30); the FGA,
or the status of the failure. -/
def State.ownedCheck (s : State) (u : User) (key off len : Nat) (needR needW : Bool) (use : Use) : Except Status Nat :=
  let i := keyIndex key
  let w := s.win i
  if i = 0 ∨ winCount ≤ i ∨ w.state = .free then .error .keyInvalid
  else if w.state ≠ .valid ∨ keyGen key ≠ w.gen then .error .keyStale
  else if !inWindow w.len off len then .error .windowBounds
  else if !s.granted w u then .error .notPermitted
  else if (needR ∧ !w.r) ∨ (needW ∧ !w.w) then .error .notPermitted
  else if !s.suits (fgaSpace w.base) u use then .error .notPermitted
  else .ok (w.base + off)

/-- An engine that has checked the key of a window holds its WIN entry (Table 3.1). -/
def State.winUse (s : State) (loc : TlbLoc) (key : Nat) : State :=
  let w := s.win (keyIndex key)
  if key = 0 ∨ w.state ≠ .valid ∨ keyGen key ≠ w.gen then s else s.tlbUse loc (.win (keyIndex key) w.gen w.base w.len w.r w.w)

/-- The import record of a function for a node and an index. -/
def State.importOf (s : State) (fn node i : Nat) : Option Import :=
  s.imports.find? fun r => r.fn == fn && r.node == node && r.index == i

/-- The requester's check of a key against its import record (R159): the FGA on the owner node. A window in space 2 is used by the manager
function of its node only (R51). -/
def State.importCheck (s : State) (fn node key off len : Nat) (needR needW : Bool) : Except Status Nat :=
  match s.importOf fn node (keyIndex key) with
  | none => .error .keyInvalid
  | some r =>
    if r.state = .importing then .error .keyInvalid
    else if r.state = .stale ∨ r.key ≠ key then .error .keyStale
    else if !inWindow r.len off len then .error .windowBounds
    else if (needR ∧ !r.r) ∨ (needW ∧ !r.w) then .error .notPermitted
    else if fgaSpace r.base = 2 ∧ !s.isManager fn then .error .notPermitted
    else .ok (r.base + off)

/-- Whether the structure image gives a route to a node (Table 2.4): to one of another rack, a next hop and an IP address (log entry 135). -/
def State.hasRoute (s : State) (node : Nat) : Bool :=
  if node = s.nodeId then true
  else if node / 256 = s.nodeId / 256 then bit (AMap.look 0 s.vl.route (node % 256)) 63
  else (AMap.find s.img.racks (node / 256)).isSome && (AMap.find s.img.nodeIps node).isSome

/-- Counts a connection that a QP enters. -/
def State.newConn (s : State) : State := { s with conns := s.conns + 1 }

/-- The connected state of a QP (R182). -/
def Qp.up (q : Qp) : Bool := q.state == .connected || q.state == .closing

/-- Whether a QP belongs to a function and is not free (R541). -/
def State.ownsQp (s : State) (fn q : Nat) : Bool := (s.qp q).state != .free && (s.qp q).owner == fn

/-- What the key of a descriptor names (R541). -/
inductive KeyTarget where
  /-- The owned window at the key's index on this node, or a plain FGA where the key is 0. -/
  | owned
  | imported (node : Nat)
  | roce
  deriving DecidableEq, Repr

/-- The window a key names with a QP (R541); key 0 is no key (R56). -/
def State.keyTarget (s : State) (fn q key : Nat) : KeyTarget :=
  if key = 0 then .owned
  else if s.ownsQp fn q then (if (s.qp q).roce then .roce else .imported (s.qp q).peerNode)
  else .owned

/-- The plain FGA of an operation's target, formed at admission for its Journal record (R57, Table 2.6): the base of the window that the
key names, here or at the peer, and the offset; a plain FGA as it is. -/
def State.formed (s : State) (fn q key off : Nat) : Nat :=
  if key = 0 then off
  else
    match s.keyTarget fn q key with
    | .owned => ((s.win (keyIndex key)).base + off) % 2 ^ 64
    | .imported node => (match s.importOf fn node (keyIndex key) with
      | some r => (r.base + off) % 2 ^ 64
      | none => off)
    | .roce => (Config.foreignTarget key off).toNat

/-- A read of space 1 that is not a naturally aligned one of 8 bytes, the second check of R50. -/
def oddTsRead (fga len : Nat) (use : Use) : Bool :=
  decide (use = .read) && fgaSpace fga == 1 && !(len == 8 && fgaOff fga % 8 == 0)

/-- The FGA of a target on this node, named by a key or plainly (R55, R142): the check of key, rights and bounds, and
of the space. A plain FGA of a tenant that is neither its own nor within the extent, or that lies in a stack that is off, ends with
NOT_PERMITTED; as a local buffer (`State.plainCheck`) it ends with BAD_OFFSET or DOMAIN_OFF (DESIGN CHOICE, log entry 112: the spec does
not order R48, R49 and R55). -/
def State.localTarget (s : State) (u : User) (key off len : Nat) (needR needW : Bool) (use : Use) : Except Status Nat :=
  let r :=
    if key ≠ 0 then s.ownedCheck u key off len needR needW use
    else if fgaNode off ≠ s.nodeId then .error .notPermitted
    else if (s.extent (fgaSpace off)).isNone then .error .badSpace
    else if s.isManager u.fn ∧ u.node = s.nodeId then (if s.suits (fgaSpace off) u use then .ok off else .error .notPermitted)
    else if use = .turnstile then .error .notPermitted
    else if fgaSpace off = 0 ∧ (len = 0 ∨ s.ownsBytes u.fn (fgaOff off) len) then .ok off
    else .error .notPermitted
  match r with
  | .error st => .error st
  | .ok fga =>
    if oddTsRead fga len use then .error .badOffset
    else
      match s.spaceCheck (fgaSpace fga) (fgaOff fga) len needW with
      | some st => .error st
      | none => .ok fga

end Machine
end Sys2Proof
end

