-- ==== Sys2Proof/Machine/AptMap.lean ====
section
/-! DEFINITION. The aperture map of a function (R58 to R65) and the conversions of pointers through it (R71 to R73). -/

namespace Sys2Proof
namespace Machine

/-- Size of an aperture slot: 2 MiB. -/
def slotSize : Nat := 0x200000

/-- The aperture of a function. -/
def State.apt (s : State) (fn : Nat) : Aperture := AMap.look {} s.apts fn

/-- Writes the aperture of a function. -/
def State.setApt (s : State) (fn : Nat) (x : Aperture) : State := { s with apts := AMap.save {} s.apts fn x }

/-- The committed entry of a slot. -/
def State.slotOf (s : State) (fn slot : Nat) : AptEntry := AMap.look {} (s.apt fn).slots slot

/-- A function of this node as a user of windows. -/
def State.user (s : State) (fn : Nat) : User := { node := s.nodeId, fn := fn }

/-- Base, length and rights of the window that an entry's key names, if the key is current (R64, R71); it was when the entry was
committed, so a window or record that is gone is a key no longer current (R66, Table 2.17). -/
def State.aptWindow (s : State) (fn : Nat) (e : AptEntry) : Except Status (Nat × Nat × Bool × Bool) :=
  match e.home with
  | .owned =>
    let w := s.win (keyIndex e.wkey)
    if w.state ≠ .valid ∨ keyGen e.wkey ≠ w.gen then .error .keyStale else .ok (w.base, w.len, w.r, w.w)
  | .imported node =>
    match s.importOf fn node (keyIndex e.wkey) with
    | none => .error .keyStale
    | some r =>
      if r.state = .importing ∨ r.state = .stale ∨ r.key ≠ e.wkey then .error .keyStale else .ok (r.base, r.len, r.r, r.w)

/-- Resolves an aperture access (R58, R59, Table 2.17), the checks in the order of R58 (log entry 30): the entry and the FGA, or the
status of the failure. -/
def State.aptResolve (s : State) (fn ao len : Nat) (needR needW : Bool) : Except Status (AptEntry × Nat) :=
  let e := s.slotOf fn (ao / slotSize)
  let off := e.woff * slotSize + ao % slotSize
  if !s.flag F.aptCtrlEnable fn ∨ !e.v then .error .aptUnmapped
  else
    match s.aptWindow fn e with
    | .error st => .error st
    | .ok (base, n, r, w) =>
      if !inWindow n off len then .error .windowBounds
      else if (needR ∧ !e.r) ∨ (needW ∧ !e.w) ∨ (needR ∧ !r) ∨ (needW ∧ !w) then .error .notPermitted
      else if fgaSpace base = 2 then .error .notPermitted
      else if fgaSpace base = 1 ∧ needW then .error .notPermitted
      else
        let fga := base + off
        match e.home with
        | .imported node =>
          let q := s.qp e.qp
          if !q.up ∨ q.conn ≠ e.conn ∨ q.owner ≠ fn ∨ q.peerNode ≠ node then .error .qpError
          else if !s.hasRoute node then .error .unreachable
          else .ok (e, fga)
        | .owned =>
          if fgaSpace fga = 1 ∧ (len ≠ 8 ∨ fgaOff fga % 8 ≠ 0) then .error .badOffset
          else
            match s.spaceCheck (fgaSpace fga) (fgaOff fga) len needW with
            | some st => .error st
            | none => .ok (e, fga)

/-- CVT_A2F of one aperture offset (R71, R72): the FGA and the key. Rights are not checked. -/
def State.cvtA2f (s : State) (fn ao : Nat) : Option (Nat × Nat) :=
  let e := s.slotOf fn (ao / slotSize)
  let off := e.woff * slotSize + ao % slotSize
  if 2 ^ 36 ≤ ao ∨ !s.flag F.aptCtrlEnable fn ∨ !e.v then none
  else
    match s.aptWindow fn e with
    | .error _ => none
    | .ok (base, n, _, _) => if off < n then some (base + off, e.wkey) else none

/-- Whether a slot's entry bears a key and its range within the window contains an FGA; the offset in the slot (R72). -/
def State.slotHolds (s : State) (fn fga key : Nat) (e : AptEntry) : Option Nat :=
  if !e.v ∨ e.wkey ≠ key then none
  else
    match s.aptWindow fn e with
    | .error _ => none
    | .ok (base, n, _, _) =>
      let lo := base + e.woff * slotSize
      if lo ≤ fga ∧ fga < lo + slotSize ∧ fga < base + n then some (fga - lo) else none

/-- CVT_F2A of one keyed FGA (R72): the aperture offset through the lowest-numbered slot that fits. -/
def State.cvtF2a (s : State) (fn fga key : Nat) : Option Nat :=
  (s.apt fn).slots.findSome? fun x => (s.slotHolds fn fga key x.2).map (x.1 * slotSize + ·)

/-- What a pointer that is not convertible is replaced by (R73). -/
def notConvertible : Nat := 0xFFFFFFFFFFFFFFFF

/-- The keyed FGA of 16 bytes that an array element converts to (Table 2.18), and whether it failed. -/
def State.a2fElem (s : State) (fn ao : Nat) : List Byte × Bool :=
  match s.cvtA2f fn ao with
  | some (fga, key) => (leBytes fga 8 ++ leBytes key 4 ++ leBytes 0 4, false)
  | none => (leBytes notConvertible 8 ++ leBytes 0 8, true)

/-- The aperture offset of 8 bytes that an array element converts to, and whether it failed. -/
def State.f2aElem (s : State) (fn : Nat) (bs : List Byte) : List Byte × Bool :=
  match s.cvtF2a fn (leAt bs 0 8) (leAt bs 8 4) with
  | some ao => (leBytes ao 8, false)
  | none => (leBytes notConvertible 8, true)

/-- A converted array: its bytes and the number of elements that failed. -/
def joinElems (xs : List (List Byte × Bool)) : List Byte × Nat :=
  (xs.foldr (fun x bs => x.1 ++ bs) [], (xs.filter (·.2)).length)

/-- CVT_A2F of n aperture offsets (R73). -/
def State.a2fArray (s : State) (fn n : Nat) (bs : List Byte) : List Byte × Nat :=
  joinElems ((List.range n).map fun i => s.a2fElem fn (leAt bs (8 * i) 8))

/-- CVT_F2A of n keyed FGAs (R73). -/
def State.f2aArray (s : State) (fn n : Nat) (bs : List Byte) : List Byte × Nat :=
  joinElems ((List.range n).map fun i => s.f2aElem fn ((bs.drop (16 * i)).take 16))

end Machine
end Sys2Proof
end

