-- ==== Sys2Proof/Machine/Channels.lean ====
section
/-! DEFINITION. The integrity channels (R413 to R417): the two CRCs, units and expectations, and the streams they snoop. -/

namespace Sys2Proof
namespace Machine

/-! ### The CRCs (Table 15.7) -/

/-- One bit of CRC-32C, reflected. -/
def crc32cBit (c : Nat) : Nat := if c % 2 = 1 then (c / 2) ^^^ 0x82F63B78 else c / 2

/-- One byte of CRC-32C. -/
def crc32cByte (c : Nat) (b : Byte) : Nat := (List.range 8).foldl (fun x _ => crc32cBit x) (c ^^^ b.toNat)

/-- One bit of CRC-64, not reflected. -/
def crc64Bit (c : Nat) : Nat :=
  if 2 ^ 63 ≤ c then ((c * 2) % 2 ^ 64) ^^^ 0x42F0E1EBA9EA3693 else c * 2

/-- One byte of CRC-64. -/
def crc64Byte (c : Nat) (b : Byte) : Nat := (List.range 8).foldl (fun x _ => crc64Bit x) (c ^^^ (b.toNat * 2 ^ 56))

/-- The initial register of a CRC; POLY 1 is CRC-64. -/
def crcInit (poly : Bool) : Nat := if poly then 0 else 0xFFFFFFFF

/-- One byte of the selected CRC. -/
def crcByte (poly : Bool) (c : Nat) (b : Byte) : Nat := if poly then crc64Byte c b else crc32cByte (c % 2 ^ 32) b

/-- The result of a register. -/
def crcOut (poly : Bool) (c : Nat) : Nat := if poly then c else c ^^^ 0xFFFFFFFF

/-! ### Units and expectations (R416) -/

/-- A channel. -/
def State.chan (s : State) (ch : Nat) : Chan := AMap.look {} s.prot.chans ch

/-- Writes a channel, and shows its state and the depth of its queue. -/
def State.setChan (s : State) (ch : Nat) (x : Chan) : State :=
  (({ s with prot := { s.prot with chans := AMap.save {} s.prot.chans ch x } }).setFld
    F.intIcStatusState x.state.code ch).setFld F.intIcStatusExpDepth x.exps.length ch

/-- Sets a sticky flag of a channel, signals its vector, and halts it where HALT is set or the event always halts. -/
def State.icFlag (s : State) (ch : Nat) (f : Fld) (halts : Bool) : State :=
  let s := s.setFlag f true ch
  let s := match AMap.find s.ten.chans ch with
    | some fn => s.signal fn (s.fld F.intIcCtrlVector ch)
    | none => s
  let x := s.chan ch
  if (halts || s.flag F.intIcCtrlHalt ch) && x.state == .run then s.setChan ch { x with state := .halt } else s

/-- Checks the alive counter of a unit (R416). -/
def State.icAlive (s : State) (ch v : Nat) : State :=
  let last := s.fld F.intIcCountLastAlive ch
  let valid := s.flag F.intIcCountAliveValid ch
  let s := (s.setFld F.intIcCountLastAlive v ch).setFlag F.intIcCountAliveValid true ch
  if !valid ∨ v = (last + 1) % 65536 then s
  else s.icFlag ch (if v = last then F.intIcStatusRepeat else F.intIcStatusGap) false

/-- Ends a unit: its result is compared with the expectation at the head, or reported as unchecked. -/
def State.icUnit (s : State) (ch reg : Nat) : State :=
  let poly := s.flag F.intIcCtrlPoly ch
  let r := crcOut poly reg
  let s := (s.setFld F.intIcRunningRunning (crcInit poly) ch).setFld F.intIcCountBytes 0 ch
  let x := s.chan ch
  match x.exps with
  | [] => s.icFlag ch F.intIcStatusUnchecked false
  | (_, v) :: es =>
    let s := (s.setChan ch { x with exps := es }).setFld F.intIcResultResult r ch
    let s := s.countSat F.intIcStatusUnits ch
    if r = (if poly then v else v % 2 ^ 32) then s else s.icFlag ch F.intIcStatusMismatch false

/-- Takes one byte of the stream; a halted channel only counts it. -/
def State.icByte (s : State) (ch : Nat) (b : Byte) : State :=
  let x := s.chan ch
  let n := s.fld F.intIcCountBytes ch
  if x.state ≠ .run then s.setFld F.intIcCountBytes (n + 1) ch
  else
    let poly := s.flag F.intIcCtrlPoly ch
    let reg := crcByte poly (if n = 0 then crcInit poly else s.fld F.intIcRunningRunning ch) b
    let len := match x.exps with
      | [] => 2 ^ 32
      | (l, _) :: _ => max (if s.flag F.intIcCtrlAliveEn ch then 3 else 1) l
    let s := (s.setFld F.intIcRunningRunning reg ch).setChan ch { x with prev := b.toNat }
    if n + 1 < len then s.setFld F.intIcCountBytes (n + 1) ch
    else
      let s := if s.flag F.intIcCtrlAliveEn ch then s.icAlive ch (x.prev + 256 * b.toNat) else s
      s.icUnit ch reg

/-! ### Streams (R415) -/

/-- Folds the completed operations at the head of a channel's stream; ready tells which may be folded yet. -/
def State.icFoldN (s : State) (ch : Nat) (ready : Nat → Bool) : Nat → State
  | 0 => s
  | n + 1 =>
    let x := s.chan ch
    match x.ops with
    | { id := id, bytes := some bs, .. } :: os =>
      if ready id then (bs.foldl (fun t b => t.icByte ch b) (s.setChan ch { x with ops := os })).icFoldN ch ready n else s
    | _ => s

/-- Folds what may be folded; a channel that was stopped is off once nothing is left, and one with more than 64 operations
that wait for an older one is overrun. -/
def State.icFold (s : State) (ch : Nat) (ready : Nat → Bool) : State :=
  let s := s.icFoldN ch ready (s.chan ch).ops.length
  let x := s.chan ch
  if x.stopping ∧ x.ops.isEmpty then s.setChan ch { x with state := .off, stopping := false }
  else if 64 < (x.ops.filter (·.bytes.isSome)).length ∧ x.state = .run then
    s.icFlag ch F.intIcStatusOverrun true
  else s

/-- The channels that snoop a source of a function: kind and index of Table 15.8. -/
def State.icOn (s : State) (kind fn idx : Nat) : List Nat :=
  (s.prot.chans.filter fun c =>
    c.2.state != .off && s.fld F.intIcSrcSrcKind c.1 == kind &&
      (if kind = 4 then s.fld F.intIcSrcIndex c.1 % 256 else s.fld F.intIcSrcIndex c.1) == idx &&
      AMap.find s.ten.chans c.1 == some fn).map (·.1)

/-- Puts an operation into a stream by its number, before those with a later one (numbers modulo 2^n). -/
def icInsert (n id : Nat) : List IcOp → List IcOp
  | [] => [{ id := id }]
  | o :: os =>
    if o.id = id then o :: os
    else if subMod n o.id id < 2 ^ (n - 1) then { id := id } :: o :: os
    else o :: icInsert n id os

/-- An operation of a source is admitted: the channels that are not being stopped take it (R417). Operations of a QP are
numbered by ALIVE, those applied here by the peer's ALIVE, those of a queue by position, and MSTORE steps by issue. -/
def State.icAdmit (s : State) (kind fn idx id : Nat) : State :=
  (s.icOn kind fn idx).foldl (fun t ch =>
    let x := t.chan ch
    if x.stopping then t else t.setChan ch { x with ops := icInsert (if kind = 1 ∨ kind = 2 then 16 else 32) id x.ops }) s

/-- Changes an operation of the channels of a source. -/
def State.icUpd (s : State) (kind fn idx id : Nat) (ready : Nat → Bool) (f : IcOp → IcOp) : State :=
  (s.icOn kind fn idx).foldl (fun t ch =>
    let x := t.chan ch
    (t.setChan ch { x with ops := x.ops.map fun o => if o.id = id then f o else o }).icFold ch ready) s

/-- An operation of a source has completed with OK and moved these bytes. -/
def State.icDone (s : State) (kind fn idx id : Nat) (bs : List Byte) : State :=
  s.icUpd kind fn idx id (fun _ => true) fun o => { o with bytes := some bs }

/-- An operation of a source has failed: it contributes nothing. -/
def State.icDrop (s : State) (kind fn idx id : Nat) : State :=
  (s.icOn kind fn idx).foldl (fun t ch =>
    let x := t.chan ch
    (t.setChan ch { x with ops := x.ops.filter fun o => o.id != id }).icFold ch fun _ => true) s

/-- A piece of an operation applied at this node (kind 2). -/
def State.icPiece (s : State) (fn qp id off : Nat) (bs : List Byte) : State :=
  s.icUpd 2 fn qp id (fun _ => false) fun o => { o with got := AMap.put o.got off bs }

/-- An operation applied at this node is complete: its bytes are the pieces in order. -/
def State.icApplied (s : State) (fn qp id : Nat) : State :=
  s.icUpd 2 fn qp id (fun _ => false) fun o => { o with bytes := some (o.got.foldr (fun e bs => e.2 ++ bs) []) }

/-- Folds what was applied on a QP and has no earlier operation of the peer to come: ready tells which by ALIVE. -/
def State.icHorizon (s : State) (fn qp : Nat) (ready : Nat → Bool) : State :=
  (s.icOn 2 fn qp).foldl (fun t ch => t.icFold ch ready) s

/-- The source of channels ends (R417). -/
def State.icGone (s : State) (p : Nat → Nat → Bool) : State :=
  s.prot.chans.foldl (fun t c =>
    if c.2.state ≠ .off ∧ p (t.fld F.intIcSrcSrcKind c.1) (t.fld F.intIcSrcIndex c.1) then
      let t := t.icFlag c.1 F.intIcStatusSrcGone true
      t.setChan c.1 { t.chan c.1 with state := .halt, ops := [] }
    else t) s

/-- A channel back at reset, when the function that holds it is reset or the channel leaves it. -/
def State.icReset (s : State) (ch : Nat) : State :=
  let fn := s.fld F.intIcCtrlFn ch
  let s := { s with prot := { s.prot with chans := AMap.drop s.prot.chans ch } }
  (s.resetRegs [.intIcCtrl, .intIcSrc, .intIcExpLen, .intIcRunning, .intIcCount, .intIcStatus, .intIcResult] ch).setFld
    F.intIcCtrlFn fn ch

end Machine
end Sys2Proof
end

