-- ==== Sys2Proof/Machine/Packets.lean ====
section
/-! DEFINITION. The Sloale Transport's packets on the wire (R184, R185, R187, Tables 7.7 to 7.10): every field big-endian, bytes in wire
order; the layout of what is sent, and the reading of what is received. -/

namespace Sys2Proof
namespace Machine

/-! ### Bytes of frames -/

/-- A big-endian number of n bytes at i. -/
def beAt (bs : List Byte) (i n : Nat) : Nat := ((bs.drop i).take n).foldl (fun a b => a * 256 + b.toNat) 0

/-- One bit of the CRC-32 of IEEE 802.3, reflected. -/
def crc32Bit (c : Nat) : Nat := if c % 2 = 1 then (c / 2) ^^^ 0xEDB88320 else c / 2

/-- One byte of it. -/
def crc32Byte (c : Nat) (b : Byte) : Nat := (List.range 8).foldl (fun x _ => crc32Bit x) (c ^^^ b.toNat)

/-- The FCS of a frame, as the number its four bytes spell, least significant first. -/
def fcsOf (bs : List Byte) : Nat := (bs.foldl crc32Byte 0xFFFFFFFF) ^^^ 0xFFFFFFFF

/-- The ones' complement sum of big-endian 16-bit words. -/
def onesSum : List Byte → Nat
  | [] => 0
  | [a] => a.toNat * 256
  | a :: b :: r => a.toNat * 256 + b.toNat + onesSum r

/-- Folds the carries of a ones' complement sum. -/
def fold16 (n : Nat) : Nat :=
  let a := n % 65536 + n / 65536
  let b := a % 65536 + a / 65536
  b % 65536 + b / 65536

/-! ### Packets -/

/-- A number as n bytes, most significant first. -/
def beBytes (x n : Nat) : List Byte := (leBytes x n).reverse

/-- TYPE of a packet kind. -/
def sltType : SltOp → Nat
  | .write => 0 | .readReq => 0 | .send => 0 | .fadd => 0 | .cas64 => 0 | .cas128 => 0 | .tsOp => 0
  | .readResp => 1 | .atomicResp => 1 | .cas128Resp => 1
  | .ack => 2 | .nak => 2 | .waiting => 2
  | _ => 3

/-- OP of a packet (Table 7.8). -/
def pktOp (p : SltPkt) : Nat :=
  match p.op with
  | .write => 0x10 | .readReq => 0x11 | .send => 0x12 | .fadd => 0x14 | .cas64 => 0x15 | .cas128 => 0x16 | .tsOp => 0x18
  | .readResp => 0x11 | .atomicResp => p.rop | .cas128Resp => 0x16
  | .ack => 0x01 | .nak => 0x02 | .waiting => 0x03
  | .connect => 0x01 | .accept => 0x02 | .refuse => 0x03 | .close => 0x04 | .resetNotice => 0x05 | .winQuery => 0x06 | .winInfo => 0x07
  | .pathProbe => 0x08

/-- The packet kind of a TYPE and an OP; none for another combination. -/
def sltKind (type op : Nat) : Option SltOp :=
  match type, op with
  | 0, 0x10 => some .write | 0, 0x11 => some .readReq | 0, 0x12 => some .send | 0, 0x14 => some .fadd | 0, 0x15 => some .cas64
  | 0, 0x16 => some .cas128 | 0, 0x18 => some .tsOp
  | 1, 0x11 => some .readResp | 1, 0x14 => some .atomicResp | 1, 0x15 => some .atomicResp | 1, 0x18 => some .atomicResp
  | 1, 0x16 => some .cas128Resp
  | 2, 0x01 => some .ack | 2, 0x02 => some .nak | 2, 0x03 => some .waiting
  | 3, 0x01 => some .connect | 3, 0x02 => some .accept | 3, 0x03 => some .refuse | 3, 0x04 => some .close | 3, 0x05 => some .resetNotice
  | 3, 0x06 => some .winQuery | 3, 0x07 => some .winInfo | 3, 0x08 => some .pathProbe
  | _, _ => none

/-- Bytes of the operation extension. -/
def sltExt : SltOp → Nat
  | .fadd => 8 | .cas64 => 16 | .cas128 => 32 | .tsOp => 16
  | .atomicResp => 8 | .cas128Resp => 16
  | .ack => 80 | .nak => 8 | .waiting => 8 | .connect => 8 | .accept => 8 | .winInfo => 24
  | _ => 0

/-- PAYLEN: payload bytes, or the extension bytes of an acknowledgement. -/
def payLen (p : SltPkt) : Nat := if sltType p.op = 2 then sltExt p.op else p.payload.length

/-- The base header (Table 7.7). -/
def sltHeader (p : SltPkt) : List Byte :=
  let flags := b2n p.first * 128 + b2n p.last * 64 + b2n p.notify * 32 + b2n p.ackReq * 16 + b2n p.retx * 8 + b2n p.enc * 4 +
    b2n p.ceEcho * 2 + b2n p.probe.isSome
  beBytes (0x10 + sltType p.op) 1 ++ beBytes (pktOp p) 1 ++ beBytes flags 1 ++ beBytes (p.path * 4 + p.epoch) 1 ++
    beBytes (p.txcnt * 2 ^ 24 + p.dstQp) 4 ++ beBytes p.srcQp 4 ++ beBytes p.psn 4 ++ beBytes p.alive 2 ++ beBytes p.aliveRel 2 ++
    beBytes (payLen p) 2 ++ beBytes p.status 1 ++ beBytes p.var 1 ++ beBytes p.key 4 ++ beBytes p.mlen 4 ++ beBytes p.offset 8

/-- The selective-acknowledgement bitmap (Table 7.9): bit i is bit i mod 8 of its byte i / 8. -/
def sackBytes (sack : List Nat) : List Byte :=
  (List.range 64).map fun i => BitVec.ofNat 8 (((List.range 8).map fun j => b2n (sack.contains (8 * i + j)) * 2 ^ j).sum)

/-- The operation extension (Tables 7.8 to 7.10). -/
def sltExtBytes (p : SltPkt) : List Byte :=
  let hello := beBytes p.fn 1 ++ beBytes (b2n p.enc * 4 + p.mode % 2) 1 ++ beBytes p.mtu 1 ++ beBytes 0 1 ++ beBytes p.win 2 ++ beBytes 0 2
  match p.op with
  | .fadd => beBytes p.a 8
  | .cas64 => beBytes p.a 8 ++ beBytes p.b 8
  | .cas128 => beBytes p.a 16 ++ beBytes p.b 16
  | .tsOp => beBytes p.a 8 ++ beBytes p.b 8
  | .atomicResp => beBytes p.a 8
  | .cas128Resp => beBytes p.a 16
  | .ack => beBytes p.a 8 ++ beBytes 0 8 ++ sackBytes p.sack
  | .nak => beBytes p.a 4 ++ beBytes 0 4
  | .waiting => beBytes p.a 4 ++ beBytes 0 4
  | .connect => hello
  | .accept => hello
  | .winInfo => beBytes p.a 8 ++ beBytes p.b 8 ++ beBytes (p.mode % 16) 8
  | _ => []

/-- The additional authenticated data (R187): the base header and the extensions. -/
def sltAad (p : SltPkt) : List Byte :=
  sltHeader p ++ (match p.probe with | some t => beBytes t 8 | none => []) ++ sltExtBytes p

/-- A packet's bytes (R184). -/
def sltWire (p : SltPkt) : List Byte := sltAad p ++ p.payload ++ p.tag

/-- The operands of an extension and what else it holds, put into a packet. -/
def withExt (p : SltPkt) (e : List Byte) : SltPkt :=
  let hello : SltPkt := { p with fn := beAt e 0 1, mode := beAt e 1 1 % 2, mtu := beAt e 2 1, win := beAt e 4 2 }
  match p.op with
  | .fadd => { p with a := beAt e 0 8 }
  | .cas64 => { p with a := beAt e 0 8, b := beAt e 8 8 }
  | .cas128 => { p with a := beAt e 0 16, b := beAt e 16 16 }
  | .tsOp => { p with a := beAt e 0 8, b := beAt e 8 8 }
  | .atomicResp => { p with a := beAt e 0 8 }
  | .cas128Resp => { p with a := beAt e 0 16 }
  | .ack => { p with a := beAt e 0 8, sack := (List.range 512).filter fun i => bit (beAt e (16 + i / 8) 1) (i % 8) }
  | .nak => { p with a := beAt e 0 4 }
  | .waiting => { p with a := beAt e 0 4 }
  | .connect => hello
  | .accept => hello
  | .winInfo => { p with a := beAt e 0 8, b := beAt e 8 8, mode := beAt e 16 8 % 16 }
  | _ => p

/-- Reads a packet's bytes; none where VER, TYPE or OP is not one of the tables', or PAYLEN does not fit the bytes (Table 7.15,
DROP_MALFORMED). -/
def sltRead (srcNode dstNode : Nat) (bs : List Byte) : Option SltPkt :=
  let vt := beAt bs 0 1
  match sltKind (vt % 16) (beAt bs 1 1) with
  | none => none
  | some op =>
    let fl := beAt bs 2 1
    let enc := bit fl 2
    let n := 40 + 8 * b2n (bit fl 0)
    let e := sltExt op
    let len := beAt bs 20 2 % 8192
    let pay := if vt % 16 = 2 then 0 else len
    if bs.length < 40 ∨ vt / 16 ≠ 1 ∨ bs.length ≠ n + e + pay + 16 * b2n enc ∨ 4096 < pay ∨ (vt % 16 = 2 ∧ len ≠ e) then none
    else
      let p : SltPkt :=
        { op := op, rop := if op = .atomicResp then beAt bs 1 1 else 0x14, srcNode := srcNode, dstNode := dstNode, first := bit fl 7, last := bit fl 6, notify := bit fl 5,
          ackReq := bit fl 4, retx := bit fl 3, enc := enc, ceEcho := bit fl 1, probe := if bit fl 0 then some (beAt bs 40 8) else none,
          path := beAt bs 3 1 / 4, epoch := beAt bs 3 1 % 4, txcnt := beAt bs 4 1, dstQp := beAt bs 4 4 % 2 ^ 20,
          srcQp := beAt bs 8 4 % 2 ^ 20, psn := beAt bs 12 4, alive := beAt bs 16 2, aliveRel := beAt bs 18 2, status := beAt bs 22 1,
          var := beAt bs 23 1, key := beAt bs 24 4, mlen := beAt bs 28 4, offset := beAt bs 32 8,
          payload := (bs.drop (n + e)).take pay, tag := (bs.drop (n + e + pay)).take 16 }
      some (withExt p ((bs.drop n).take e))

/-- Bytes of a packet on the router-core path (R174): header, extensions, payload, trailer. -/
def sltBytes (p : SltPkt) : Nat :=
  40 + (if p.probe.isSome then 8 else 0) + sltExt p.op + p.payload.length + (if p.enc then 16 else 0)

end Machine
end Sys2Proof
end

