-- ==== Sys2Proof/Machine/Aes.lean ====
section
/-! DEFINITION. The cipher of connections, regions and key blobs: AES-256 (FIPS 197), GCM (R405), XTS with a data unit of 32 bytes (R411),
and the unwrapping of RFC 3394 (R403). A byte is a number here; byte 0 of a block or key comes first. -/

namespace Sys2Proof
namespace Machine

/-! ### The S-boxes -/

/-- The S-box, 32 bytes a number, the lowest first. -/
def aesSbox : List Nat :=
  [0xC072A49CAFA2D4ADF04759FA7DC982CA76ABD7FE2B670130C56F6BF27B777C63, 0x75B227EBE28012079A059618C323C7041531D871F1E5A534CCF73F362693FDB7,
   0xCF584C4A39BECB6A5BB1FC20ED00D153842FE329B3D63B52A05A6E1B1A2C8309, 0xD2F3FF1021DAB6BCF5389D928F40A351A89F3C507F02F94585334D43FBAAEFD0,
   0xDB0B5EDE14B8EE4688902A22DC4F816073195D643D7EA7C41744975FEC130CCD, 0x08AE7A65EAF4566CA94ED58D6D37C8E779E4959162ACD3C25C2406490A3A32E0,
   0x9E1DC186B95735610EF6034866B53E708A8BBD4B1F74DDE8C6B4A61C2E2578BA, 0x16BB54B00F2D99416842E6BF0D89A18CDF2855CEE9871E9B948ED9691198F8E1]

/-- The inverse S-box. -/
def aesInvSbox : List Nat :=
  [0xCBE9DEC444438E3487FF2F9B8239E37CFBD7F3819EA340BF38A53630D56A0952, 0x25D18B6D49A25B76B224D92866A12E084EC3FA420B954CEE3D23C2A632947B54,
   0x849D8DA75746155EDAB9EDFD5048706C92B6655DCC5CA4D41698688664F6F872, 0x6B8A130103BDAFC1020F3FCA8F1E2CD00645B3B80558E4F70AD3BC8C00ABD890,
   0x6EDF751CE837F9E28535ADE72274AC9673E6B4F0CECFF297EADC674F4111913A, 0xF45ACD78FEC0DB9A2079D2C64B3E56FC1BBE18AA0E62B76F89C5291D711AF147,
   0xEF9CC9939F7AE52D0D4AB519A97F51605FEC8027591012B131C7078833A8DD1F, 0x7D0C2155631469E126D677BA7E042B17619953833CBBEBC8B0F52AAE4D3BE0A0]

/-- An entry of a table of 32 bytes a number. -/
def byteAt (t : List Nat) (x : Nat) : Nat := (t.getD (x / 32) 0 >>> (8 * (x % 32))) % 256

/-! ### Blocks -/

/-- Twice an element of GF(2^8), modulo x^8 + x^4 + x^3 + x + 1. -/
def aesDouble (a : Nat) : Nat := if a < 128 then 2 * a else (2 * a) ^^^ 0x11B

/-- Lists of bytes added in GF(2). -/
def xorBytes (a b : List Nat) : List Nat := List.zipWith (fun x y => x ^^^ y) a b

/-- A column multiplied by the matrix of MixColumns. -/
def mixColumn (c : List Nat) : List Nat :=
  match c with
  | [a, b, d, e] =>
    let t := a ^^^ b ^^^ d ^^^ e
    [a ^^^ t ^^^ aesDouble (a ^^^ b), b ^^^ t ^^^ aesDouble (b ^^^ d), d ^^^ t ^^^ aesDouble (d ^^^ e), e ^^^ t ^^^ aesDouble (e ^^^ a)]
  | _ => c

/-- A column multiplied by the inverse matrix. -/
def unmixColumn (c : List Nat) : List Nat :=
  match c with
  | [a, b, d, e] =>
    let u := aesDouble (aesDouble (a ^^^ d))
    let v := aesDouble (aesDouble (b ^^^ e))
    mixColumn [a ^^^ u, b ^^^ v, d ^^^ u, e ^^^ v]
  | _ => c

/-- The columns of a block, each passed through f. -/
def eachColumn (f : List Nat → List Nat) (b : List Nat) : List Nat :=
  f (b.take 4) ++ f ((b.drop 4).take 4) ++ f ((b.drop 8).take 4) ++ f ((b.drop 12).take 4)

/-- SubBytes and ShiftRows: byte i comes from the column i mod 4 places on. -/
def subShift (b : List Nat) : List Nat := (List.range 16).map fun i => byteAt aesSbox (b.getD ((i + 4 * (i % 4)) % 16) 0)

/-- Their inverses. -/
def unsubShift (b : List Nat) : List Nat := (List.range 16).map fun i => byteAt aesInvSbox (b.getD ((i + 12 * (i % 4)) % 16) 0)

/-- The next word of the key schedule, number i, from the words before it, the latest first. -/
def aesWord (i : Nat) (ws : List (List Nat)) : List Nat :=
  let w := ws.getD 0 []
  let t :=
    if i % 8 = 0 then xorBytes ((w.drop 1 ++ w.take 1).map (byteAt aesSbox)) [2 ^ (i / 8 - 1), 0, 0, 0]
    else if i % 8 = 4 then w.map (byteAt aesSbox)
    else w
  xorBytes (ws.getD 7 []) t

/-- n further words of the key schedule. -/
def aesExpand : Nat → List (List Nat) → List (List Nat)
  | 0, ws => ws
  | n + 1, ws => aesExpand n (aesWord ws.length ws :: ws)

/-- The 15 round keys of a 32-byte key. -/
def aesKeys (key : List Nat) : List (List Nat) :=
  let ws := ((aesExpand 52 ((List.range 8).map fun i => (key.drop (4 * i)).take 4).reverse)).reverse
  (List.range 15).map fun r => ((ws.drop (4 * r)).take 4).flatten

/-- Rounds of encryption with the keys left. -/
def aesRounds (b : List Nat) : List (List Nat) → List Nat
  | [] => b
  | [k] => xorBytes (subShift b) k
  | k :: ks => aesRounds (xorBytes (eachColumn mixColumn (subShift b)) k) ks

/-- Encrypts a block under round keys. -/
def aesEncrypt (ks : List (List Nat)) (b : List Nat) : List Nat :=
  match ks with
  | [] => b
  | k :: ks => aesRounds (xorBytes b k) ks

/-- Rounds of decryption with the keys left, the last round key first. -/
def aesUnrounds (b : List Nat) : List (List Nat) → List Nat
  | [] => b
  | [k] => xorBytes b k
  | k :: ks => aesUnrounds (unsubShift (eachColumn unmixColumn (xorBytes b k))) ks

/-- Decrypts a block under round keys. -/
def aesDecrypt (ks : List (List Nat)) (b : List Nat) : List Nat :=
  match ks.reverse with
  | [] => b
  | k :: ks => aesUnrounds (unsubShift (xorBytes b k)) ks

/-! ### Bytes and numbers -/

/-- The n bytes of a number, most significant first. -/
def natBytes (x n : Nat) : List Nat := (beBytes x n).map (·.toNat)

/-- The number of bytes, most significant first. -/
def bytesNat (bs : List Nat) : Nat := bs.foldl (fun t b => t * 256 + b) 0

/-- Bytes as numbers. -/
def toNats (bs : List Byte) : List Nat := bs.map (·.toNat)

/-- Numbers as bytes. -/
def ofNats (bs : List Nat) : List Byte := bs.map (BitVec.ofNat 8)

/-- Bytes filled with zeros to a multiple of 16. -/
def padBlock (bs : List Nat) : List Nat := bs ++ List.replicate ((16 - bs.length % 16) % 16) 0

/-! ### GCM (R405, R187) -/

/-- The product of two elements of GF(2^128), bit 0 of the standard being the most significant. -/
def ghMul (x y : Nat) : Nat :=
  ((List.range 128).foldl (fun (t : Nat × Nat) i =>
    (if bit x (127 - i) then t.1 ^^^ t.2 else t.1, if t.2 % 2 = 1 then (t.2 / 2) ^^^ (0xE1 * 2 ^ 120) else t.2 / 2)) (0, y)).1

/-- GHASH over blocks. -/
def ghash (h y : Nat) (bs : List Nat) : Nat :=
  (List.range (bs.length / 16)).foldl (fun t i => ghMul (t ^^^ bytesNat ((bs.drop (16 * i)).take 16)) h) y

/-- The key stream: counter blocks from number 2 on. -/
def gcmStream (ks : List (List Nat)) (iv n : Nat) : List Nat :=
  ((List.range ((n + 15) / 16)).flatMap fun i => aesEncrypt ks (natBytes (iv * 2 ^ 32 + (i + 2) % 2 ^ 32) 16)).take n

/-- Encrypts, or decrypts, under an IV of 96 bits. -/
def gcmCrypt (key : BitVec 256) (iv : Nat) (bs : List Byte) : List Byte :=
  ofNats (xorBytes (toNats bs) (gcmStream (aesKeys (natBytes key.toNat 32)) iv bs.length))

/-- The tag over the additional authenticated data and the ciphertext. -/
def gcmTag (key : BitVec 256) (iv : Nat) (aad ct : List Byte) : List Byte :=
  let ks := aesKeys (natBytes key.toNat 32)
  let h := bytesNat (aesEncrypt ks (List.replicate 16 0))
  let y := ghash h 0 (padBlock (toNats aad) ++ padBlock (toNats ct) ++ natBytes (8 * aad.length) 8 ++ natBytes (8 * ct.length) 8)
  ofNats (xorBytes (aesEncrypt ks (natBytes (iv * 2 ^ 32 + 1) 16)) (natBytes y 16))

/-! ### XTS (R411) -/

/-- The tweak of the next block: multiplied by the primitive element, byte 0 least significant. -/
def xtsNext (t : List Nat) : List Nat :=
  let n := 2 * bytesNat t.reverse
  (natBytes (if 2 ^ 128 ≤ n then (n % 2 ^ 128) ^^^ 0x87 else n) 16).reverse

/-- Key1 and Key2 of a slot, as round keys. -/
def xtsKeys (key : BitVec 256 × BitVec 256) : List (List Nat) × List (List Nat) :=
  (aesKeys (natBytes key.1.toNat 32), aesKeys (natBytes key.2.toNat 32))

/-- A data unit of 32 bytes through a block function: the tweak is bits 43:5 of its offset, as a little-endian number. -/
def xtsUnit (f : List Nat → List Nat) (k2 : List (List Nat)) (off : Nat) (bs : List Nat) : List Nat :=
  let t0 := aesEncrypt k2 (natBytes (bits off 43 5) 16).reverse
  let t1 := xtsNext t0
  xorBytes (f (xorBytes (bs.take 16) t0)) t0 ++ xorBytes (f (xorBytes ((bs.drop 16).take 16) t1)) t1

/-- Encrypts the data unit at an offset. -/
def xtsEncrypt (key : BitVec 256 × BitVec 256) (off : Nat) (bs : List Byte) : List Byte :=
  let k := xtsKeys key
  ofNats (xtsUnit (aesEncrypt k.1) k.2 off (toNats bs))

/-- Decrypts the data unit at an offset. -/
def xtsDecrypt (key : BitVec 256 × BitVec 256) (off : Nat) (bs : List Byte) : List Byte :=
  let k := xtsKeys key
  ofNats (xtsUnit (aesDecrypt k.1) k.2 off (toNats bs))

/-! ### Key blobs (R403) -/

/-- One step of unwrapping: the integrity register, and the words with the last first and those done after them. -/
def unwrapStep (ks : List (List Nat)) (n j : Nat) (t : Nat × List Nat) (i : Nat) : Nat × List Nat :=
  let k := n - 1 - i
  let b := bytesNat (aesDecrypt ks (natBytes (t.1 ^^^ (n * j + k + 1)) 8 ++ natBytes (t.2.getD k 0) 8))
  (b / 2 ^ 64, t.2.set k (b % 2 ^ 64))

/-- The content of a blob under a key-encryption key, or none where its integrity check fails. -/
def unwrapBlob (kek : BitVec 256) (blob : List Byte) : Option Nat :=
  let ks := aesKeys (natBytes kek.toNat 32)
  let word := fun i => bytesNat (toNats ((blob.drop (8 * i)).take 8))
  let n := blob.length / 8 - 1
  let (a, rs) := (List.range 6).foldl (fun t r => (List.range n).foldl (unwrapStep ks n (5 - r)) t)
    (word 0, (List.range n).map fun i => word (i + 1))
  if a = 0xA6A6A6A6A6A6A6A6 then some (rs.foldl (fun x r => x * 2 ^ 64 + r) 0) else none

end Machine
end Sys2Proof
end

