-- ==== Sys2Proof/Machine/Frames.lean ====
section
/-! DEFINITION. What the MAC builds and reads (R184, R187, R208, R291): Ethernet, IP and UDP headers with their checksums, the bytes of a RoCEv2 packet
with its iCRC, the protection of an SLT packet, padding and FCS. -/

namespace Sys2Proof
namespace Machine

/-! ### The protection of SLT packets (R187, R405) -/

/-- The number that names a side of a connection (R181). -/
def sideNo (node qp : Nat) : Nat := node * 2 ^ 20 + qp

/-- The IV of a packet as a number of 96 bits, byte 0 most significant (Table 15.5), by the numbers of its sender's side and of the other. -/
def sltIv (me other : Nat) (p : SltPkt) : Nat :=
  let side := b2n (decide (other < me))
  let kind := b2n (decide (2 ≤ sltType p.op))
  let st := p.probe.getD 0
  let mid := if kind = 0 then p.txcnt * 2 ^ 24 else st / 2 ^ 32
  let low := if kind = 0 then p.psn else st % 2 ^ 32
  (p.epoch * 64 + side * 32 + kind * 16) * 2 ^ 88 + me % 2 ^ 20 * 2 ^ 64 + mid % 2 ^ 32 * 2 ^ 32 + low % 2 ^ 32

/-- The protection of a side's packets. -/
def Seal.iv (x : Seal) (p : SltPkt) : Nat := sltIv x.me x.other p

/-- A packet as it leaves: the payload of a protected one is the ciphertext, and the trailer is its tag (R187). -/
def sltSealed (x : Option Seal) (p : SltPkt) : SltPkt :=
  match x with
  | none => p
  | some k =>
    let ct := gcmCrypt k.key (k.iv p) p.payload
    { p with payload := ct, tag := gcmTag k.key (k.iv p) (sltAad p) ct }

/-! ### IP and UDP (R184, R213, R289, Table 10.7) -/

/-- Whether an address is an IPv4 one, in IPv4-mapped form. -/
def isV4 (a : Nat) : Bool := a / 2 ^ 32 == 0xFFFF

/-- The IP header before a UDP datagram of n bytes, the checksum of IPv4 computed (log entry 135: the fields no rule gives). -/
def ipHeader (c : Encap) (n : Nat) : List Byte :=
  let tos := c.dscp * 4 + c.ecn
  let ttl := c.hopLim.getD Config.sltHops.toNat
  if isV4 c.dst then
    let h := fun (sum : Nat) =>
      beBytes 0x45 1 ++ beBytes tos 1 ++ beBytes (20 + n) 2 ++ beBytes c.ident 2 ++ beBytes (b2n Config.ipDf * 0x4000) 2 ++ beBytes ttl 1 ++
        beBytes 17 1 ++ beBytes sum 2 ++ beBytes c.src 4 ++ beBytes c.dst 4
    h (0xFFFF - fold16 (onesSum (h 0)))
  else
    beBytes (6 * 2 ^ 28 + tos * 2 ^ 20 + Config.flowLabel.toNat) 4 ++ beBytes n 2 ++ beBytes 17 1 ++ beBytes ttl 1 ++ beBytes c.src 16 ++
      beBytes c.dst 16

/-- A UDP datagram: its checksum is 0 over IPv4, and computed over IPv6 (R184). -/
def udpBytes (c : Encap) (body : List Byte) : List Byte :=
  let n := 8 + body.length
  let d := fun (sum : Nat) => beBytes c.sport 2 ++ beBytes c.dport 2 ++ beBytes n 2 ++ beBytes sum 2 ++ body
  if isV4 c.dst then d 0
  else
    let x := 0xFFFF - fold16 (onesSum (beBytes c.src 16 ++ beBytes c.dst 16) + n + 17 + onesSum (d 0))
    d (if x = 0 then 0xFFFF else x)

/-- An IP packet with a transport packet in it. -/
def ipBytes (c : Encap) (body : List Byte) : List Byte := ipHeader c (8 + body.length) ++ udpBytes c body

/-- The frame around it, without FCS: MAC addresses, C-tag with DEI 0, EtherType. -/
def ethBytes (c : Encap) (body : List Byte) : List Byte :=
  beBytes c.mac 6 ++ beBytes c.smac 6 ++ (match c.vlan with | some (pcp, vid) => beBytes 0x8100 2 ++ beBytes (pcp * 2 ^ 13 + vid) 2 | none => []) ++
    beBytes (if isV4 c.dst then 0x0800 else 0x86DD) 2 ++ ipBytes c body

/-- A frame on the wire with its padding and FCS. -/
def wireBytes (body : List Byte) : List Byte :=
  let b := if body.length < 60 then padTo body 60 else body
  b ++ leBytes (fcsOf b) 4

/-- A frame that is ended after n of its bytes: zeros up to 60 bytes, and a stomped FCS (R292). -/
def cutBytes (body : List Byte) (n : Nat) : List Byte :=
  let b := if n < 60 then padTo (body.take n) 60 else body.take n
  b ++ leBytes (fcsOf b ^^^ 0xFFFFFFFF) 4

/-! ### RoCEv2 packets (R208; log entry 25) -/

/-- Bytes of a RoCEv2 packet from BTH to iCRC: BTH 12, RETH 16, AtomicETH 28, AETH 4, AtomicAckETH 8, iCRC 4. -/
def roceBytes (p : RocePkt) : Nat :=
  let ext := match p.op with
    | .write => if p.first then 16 else 0
    | .readReq => 16
    | .readResp => if p.first ∨ p.last then 4 else 0
    | .cas => 28 | .fadd => 28
    | .ack => 4 | .nakSeq => 4 | .nakInvalid => 4 | .nakAccess => 4 | .nakOp => 4 | .rnr => 4
    | .atomicAck => 12
    | .cnp => 16
    | _ => 0
  12 + ext + (p.payload.length + 3) / 4 * 4 + 4

/-- The opcode of a RoCEv2 packet. -/
def roceCode (p : RocePkt) : Nat :=
  let k := fun (a m z o : Nat) => if p.first ∧ p.last then o else if p.first then a else if p.last then z else m
  match p.op with
  | .send => k 0x00 0x01 0x02 0x04
  | .write => k 0x06 0x07 0x08 0x0A
  | .readReq => 0x0C
  | .readResp => k 0x0D 0x0E 0x0F 0x10
  | .atomicAck => 0x12
  | .cas => 0x13
  | .fadd => 0x14
  | .cnp => 0x81
  | _ => 0x11

/-- The AETH: what an answer says, and MSN. -/
def aeth (p : RocePkt) : List Byte :=
  let syn := match p.op with
    | .rnr => 0x20 + p.timer
    | .nakSeq => 0x60
    | .nakInvalid => 0x61
    | .nakAccess => 0x62
    | .nakOp => 0x63
    | _ => 0x1F
  beBytes syn 1 ++ beBytes p.msn 3

/-- The extension headers of a packet. -/
def roceExt (p : RocePkt) : List Byte :=
  let reth := beBytes p.va 8 ++ beBytes p.rkey 4 ++ beBytes p.len 4
  match p.op with
  | .write => if p.first then reth else []
  | .readReq => reth
  | .readResp => if p.first ∨ p.last then aeth p else []
  | .cas => beBytes p.va 8 ++ beBytes p.rkey 4 ++ beBytes p.b 8 ++ beBytes p.a 8
  | .fadd => beBytes p.va 8 ++ beBytes p.rkey 4 ++ beBytes p.a 8 ++ beBytes 0 8
  | .atomicAck => aeth p ++ beBytes p.a 8
  | .ack => aeth p
  | .nakSeq => aeth p
  | .nakInvalid => aeth p
  | .nakAccess => aeth p
  | .nakOp => aeth p
  | .rnr => aeth p
  | .cnp => beBytes 0 16
  | _ => []

/-- A packet from its BTH to its padding. -/
def roceBody (p : RocePkt) : List Byte :=
  let pad := (4 - p.payload.length % 4) % 4
  beBytes (roceCode p) 1 ++ beBytes (0x40 + pad * 16) 1 ++ beBytes 0xFFFF 2 ++ beBytes (if p.op = .cnp then 0x40 else 0) 1 ++ beBytes p.dstQp 3 ++
    beBytes (b2n p.ackReq * 0x80) 1 ++ beBytes p.psn 3 ++ roceExt p ++ p.payload ++ List.replicate pad 0#8

/-- The iCRC over an IP packet up to it, its BTH at bth: the fields that a router may change count as ones. -/
def icrcOf (bs : List Byte) (ip udp bth : Nat) (v6 : Bool) : Nat :=
  let ones := (if v6 then [ip + 1, ip + 2, ip + 3, ip + 7] else [ip + 1, ip + 8, ip + 10, ip + 11]) ++ [udp + 6, udp + 7, bth + 4]
  let masked := (bs.zip (List.range bs.length)).map fun e =>
    if ones.contains e.2 then 0xFF#8 else if v6 ∧ e.2 = ip then e.1 ||| 0x0F#8 else e.1
  fcsOf (List.replicate 8 0xFF#8 ++ masked.drop ip)

/-- A packet from its BTH to its iCRC, as it is sent in an IP packet. -/
def roceWire (c : Encap) (p : RocePkt) : List Byte :=
  let b := roceBody p
  let x := ipBytes c (b ++ List.replicate 4 0#8)
  let udp := if isV4 c.dst then 20 else 40
  b ++ leBytes (icrcOf (x.take (x.length - 4)) 0 udp (udp + 8) (!isV4 c.dst)) 4

/-- The kind of a packet by its opcode and syndrome, and whether it is the first and the last of its message; none of another service, or of
an answer that is none of Table 7.14. -/
def roceKind (code syn : Nat) : Option (RoceOp × Bool × Bool) :=
  match code with
  | 0x00 => some (.send, true, false) | 0x01 => some (.send, false, false) | 0x02 => some (.send, false, true) | 0x04 => some (.send, true, true)
  | 0x06 => some (.write, true, false) | 0x07 => some (.write, false, false) | 0x08 => some (.write, false, true) | 0x0A => some (.write, true, true)
  | 0x0C => some (.readReq, true, true)
  | 0x0D => some (.readResp, true, false) | 0x0E => some (.readResp, false, false) | 0x0F => some (.readResp, false, true)
  | 0x10 => some (.readResp, true, true)
  | 0x11 =>
    if syn / 32 % 4 = 0 then some (.ack, true, true)
    else if syn / 32 % 4 = 1 then some (.rnr, true, true)
    else (match syn % 128 with
      | 0x60 => some (.nakSeq, true, true) | 0x61 => some (.nakInvalid, true, true) | 0x62 => some (.nakAccess, true, true)
      | 0x63 => some (.nakOp, true, true) | _ => none)
  | 0x12 => some (.atomicAck, true, true)
  | 0x13 => some (.cas, true, true)
  | 0x14 => some (.fadd, true, true)
  | 0x81 => some (.cnp, true, true)
  | n => if n < 0x20 then some (.unsupported, true, true) else none

/-- Reads a RoCEv2 packet whose BTH lies at bth of an IP packet, and checks its iCRC (R208). -/
def roceAt (bs : List Byte) (ip udp bth : Nat) (v6 : Bool) : Option RocePkt :=
  let n := bs.length
  let pad := beAt bs (bth + 1) 1 / 16 % 4
  let e := bth + 12
  match roceKind (beAt bs bth 1) (beAt bs e 1) with
  | none => none
  | some (op, first, last) =>
    let p : RocePkt :=
      { op := op, first := first, last := last, dstQp := beAt bs (bth + 5) 3, ackReq := bit (beAt bs (bth + 8) 1) 7, psn := beAt bs (bth + 9) 3 }
    let ext := (roceExt p).length
    if n < e + ext + pad + 4 then none
    else
      let p := { p with payload := (bs.drop (e + ext)).take (n - 4 - pad - e - ext)
                        icrcOk := leAt bs (n - 4) 4 == icrcOf (bs.take (n - 4)) ip udp bth v6 }
      match op with
      | .write => some (if first then { p with va := beAt bs e 8, rkey := beAt bs (e + 8) 4, len := beAt bs (e + 12) 4 } else p)
      | .readReq => some { p with va := beAt bs e 8, rkey := beAt bs (e + 8) 4, len := beAt bs (e + 12) 4 }
      | .cas => some { p with va := beAt bs e 8, rkey := beAt bs (e + 8) 4, b := beAt bs (e + 12) 8, a := beAt bs (e + 20) 8 }
      | .fadd => some { p with va := beAt bs e 8, rkey := beAt bs (e + 8) 4, a := beAt bs (e + 12) 8 }
      | .atomicAck => some { p with msn := beAt bs (e + 1) 3, a := beAt bs (e + 4) 8 }
      | .rnr => some { p with msn := beAt bs (e + 1) 3, timer := beAt bs e 1 % 32 }
      | .readResp => some (if first ∨ last then { p with msn := beAt bs (e + 1) 3 } else p)
      | .send => some p
      | .cnp => some p
      | .unsupported => some p
      | _ => some { p with msn := beAt bs (e + 1) 3 }

end Machine
end Sys2Proof
end

