-- ==== Sys2Proof/Machine/ReedSolomon.lean ====
section
/-! DEFINITION. The Reed-Solomon codes over GF(2^10): of the codewords of Valir links, and of those of Ethernet lanes. -/

namespace Sys2Proof
namespace Machine

/-! ### The field GF(2^10) and its Reed-Solomon codes: RS(272,257) of Valir links (R244) and
RS(544,514) of Ethernet lanes (R278); log entry 127 -/

/-- Twice an element, modulo x^10 + x^3 + 1. -/
def gfDouble (a : Nat) : Nat := if 512 ≤ a then (2 * a) ^^^ 0x409 else 2 * a

/-- The product of two elements. -/
def gfMul (a b : Nat) : Nat :=
  ((List.range 10).foldl (fun (t : Nat × Nat) i => (if bit b i then t.1 ^^^ t.2 else t.1, gfDouble t.2)) (0, a)).1

/-- The n-th power of an element. -/
def gfPow (a n : Nat) : Nat :=
  ((List.range 10).foldl (fun (t : Nat × Nat) i => (if bit n i then gfMul t.1 t.2 else t.1, gfMul t.2 t.2)) (1, a)).1

/-- The inverse of an element other than 0. -/
def gfInv (a : Nat) : Nat := gfPow a 1022

/-- The value of a polynomial, highest coefficient first. -/
def gfEval (p : List Nat) (x : Nat) : Nat := p.foldl (fun t c => gfMul t x ^^^ c) 0

/-- The sum of two polynomials, lowest coefficient first. -/
def gfAdd : List Nat → List Nat → List Nat
  | [], q => q
  | p, [] => p
  | a :: p, b :: q => (a ^^^ b) :: gfAdd p q

/-- A polynomial times an element. -/
def gfScale (k : Nat) (p : List Nat) : List Nat := p.map (gfMul k)

/-- The product of two polynomials, lowest coefficient first. -/
def gfPolyMul : List Nat → List Nat → List Nat
  | [], _ => []
  | a :: p, q => gfAdd (gfScale a q) (0 :: gfPolyMul p q)

/-- The generator polynomial of r parity symbols without its leading 1, highest coefficient first: its roots are the powers 0 to r - 1 of 2. -/
def rsGen (r : Nat) : List Nat := (((List.range r).foldl (fun g i => gfPolyMul [gfPow 2 i, 1] g) [1]).take r).reverse

/-- One message symbol enters the encoder of a generator: the parity symbols so far, highest first. -/
def rsShift (g p : List Nat) (m : Nat) : List Nat := gfAdd (p.drop 1 ++ [0]) (gfScale (m ^^^ p.headD 0) g)

/-- A codeword: the message, then r parity symbols. -/
def rsEncode (r : Nat) (msg : List Nat) : List Nat :=
  let g := rsGen r
  msg ++ msg.foldl (rsShift g) (List.replicate r 0)

/-- The syndromes of a received word with r parity symbols. -/
def rsSyndromes (r : Nat) (w : List Nat) : List Nat := (List.range r).map fun j => gfEval w (gfPow 2 j)

/-- The state of the search for the error locator (Berlekamp and Massey). -/
structure RsSearch where
  c : List Nat := [1]
  b : List Nat := [1]
  len : Nat := 0
  m : Nat := 1
  d : Nat := 1
  deriving DecidableEq, Repr

/-- One syndrome enters the search. -/
def rsStep (syn : List Nat) (t : RsSearch) (n : Nat) : RsSearch :=
  let d := (List.range (t.len + 1)).foldl (fun a i => a ^^^ gfMul (t.c.getD i 0) (syn.getD (n - i) 0)) 0
  if d = 0 then { t with m := t.m + 1 }
  else
    let c := gfAdd t.c (gfScale (gfMul d (gfInv t.d)) (List.replicate t.m 0 ++ t.b))
    if 2 * t.len ≤ n then { c := c, b := t.c, len := n + 1 - t.len, m := 1, d := d } else { t with c := c, m := t.m + 1 }

/-- The error at the symbol whose place from the end is p, by the error locator c and the evaluator o. -/
def rsErrorAt (c o : List Nat) (p : Nat) : Nat :=
  let x := gfPow 2 p
  let y := gfInv x
  let slope := (c.zip (List.range c.length)).foldl (fun a e => if e.2 % 2 = 1 then a ^^^ gfMul e.1 (gfPow y (e.2 - 1)) else a) 0
  gfMul x (gfMul (gfEval o.reverse y) (gfInv slope))

/-- A received word of n symbols, r of them parity, corrected, with the number of symbols that were wrong; none where more than r / 2 are, as
far as that can be told. -/
def rsDecode (n r : Nat) (w : List Nat) : Option (List Nat × Nat) :=
  let syn := rsSyndromes r w
  if w.length ≠ n then none
  else if syn.all (· == 0) then some (w, 0)
  else
    let t := (List.range r).foldl (rsStep syn) {}
    let places := (List.range n).filter fun p => gfEval t.c.reverse (gfInv (gfPow 2 p)) == 0
    if r / 2 < t.len ∨ places.length ≠ t.len then none
    else
      let o := (gfPolyMul syn t.c).take r
      let fixed := (w.zip (List.range n)).map fun e =>
        if places.contains (n - 1 - e.2) then e.1 ^^^ rsErrorAt t.c o (n - 1 - e.2) else e.1
      if (rsSyndromes r fixed).all (· == 0) then some (fixed, t.len) else none

/-- The codeword of an Ethernet lane: 514 message symbols and 30 of parity (R278). -/
def ethEncode (msg : List Nat) : List Nat := rsEncode 30 msg

/-- A received codeword of an Ethernet lane, corrected (R278). -/
def ethDecode (w : List Nat) : Option (List Nat × Nat) := rsDecode 544 30 w

end Machine
end Sys2Proof
end

