-- ==== Sys2Proof/Machine/Ethernet.lean ====
section
/-! DEFINITION. Ethernet ports (chapter 10): link states, the receive path and parser, the exception rings, transmit queues
and gates, Low Power Idle, and the meanings of the commands on them. -/

namespace Sys2Proof
namespace Machine

/-! ### Ports -/

/-- Lanes per port of a lane group (Table 10.1). -/
def State.enLanes (s : State) (p : Nat) : Nat := 8 >>> (bits (s.fld F.enCfgLgMode) (2 * (p / 8) + 1) (2 * (p / 8)))

/-- Whether a port exists in its lane group's mode (R300). -/
def State.enExists (s : State) (p : Nat) : Bool :=
  decide (p < 32) && bit (s.fld F.enCfgLgEth) (p / 8) && s.domPresent (16 + p / 8) && (p % 8) % s.enLanes p == 0

/-- A port. -/
def State.eport (s : State) (p : Nat) : EPort := AMap.look {} s.en p

/-- Writes a port and shows its state. -/
def State.setEport (s : State) (p : Nat) (x : EPort) : State :=
  ({ s with en := AMap.save {} s.en p x }).setFld F.enPortStatusState x.state.code p

/-- Counter i of a port (Table 10.8). -/
def State.enCount (s : State) (p i : Nat) (n : Nat := 1) : State := s.countSat F.enStatCount (p * 22 + i) n

/-- Whether a port may train (R281). -/
def State.enMayTrain (s : State) (p : Nat) : Bool :=
  s.enExists p && s.domOn (16 + p / 8) && s.flag F.enPortCfgEnable p &&
    (match s.dev.state with | .equalShare => true | .service => true | .drain => true | _ => false)

/-- MAX_FRAME within its limits (Table 10.9). -/
def State.maxFrame (s : State) (p : Nat) : Nat := min 9216 (max 1518 (s.fld F.enPortCfgMaxFrame p))

/-! ### Entries of the exception rings (R287, R288) -/

/-- Entries of an exception ring. -/
def excSize (v : Nat) : Nat := 2 ^ (min v 10 + 6)

/-- The address of an exception transmit entry. -/
def State.extAddr (s : State) (i : Nat) : Nat := fgaOff (s.fld F.enExtBaseFga) + i * 512

/-- Rewrites bytes 0 to 15 of an entry with OWN = 0, and moves the head past it. -/
def State.extDone (s : State) (i : Nat) (st : Status) (time : Nat) : State :=
  let a := s.extAddr i
  let flags := (leNat (s.hbmRead (a + 1) 1)) % 128
  let s := s.hbmWrite a (leBytes st.code 1 ++ leBytes flags 1)
  let s := s.hbmWrite (a + 8) (leBytes time 8)
  s.setFld F.enExtHeadHead ((i + 1) % excSize (s.fld F.enExtCtrlSize))

/-! ### Link states (R280, R281) -/

/-- Whether a frame comes from the exception transmit ring. -/
def FrameKind.isExc : FrameKind → Bool
  | .exc _ _ _ => true
  | _ => false

/-- The frame being sent on a port is ended with a stomped FCS, after a number of its bytes, of at least min, that nothing else fixes
(R292). -/
def State.enStomp (s : State) (p : Nat) (w : WireFrame) (min : Nat) : State :=
  let (x, s) := s.draw
  let low := if min < w.body.length then min else 0
  s.emit (.frame p (cutBytes w.body (low + x.toNat % (w.body.length + 1 - low))) true)

/-- A port leaves E_UP for a state: every queued frame is discarded, and one being sent is ended with a stomped FCS (R280, R292). The
entry of an exception frame ends with UNREACHABLE, as one for a port that is not E_UP (log entry 50). -/
def State.enDown (s : State) (p : Nat) (st : EState) : State :=
  let x := s.eport p
  let n := x.queue.length + x.wire.toList.length
  let s := if x.state = .up ∧ 0 < n then s.enCount p 16 n else s
  let s := match x.wire with
    | some w =>
      (match w.f.kind with
       | .exc i _ _ => (s.enStomp p w 0).extDone i .unreachable 0
       | _ => s.enStomp p w 0)
    | none => s
  let s := x.queue.foldl (fun t f => match f.kind with
    | .exc i _ _ => t.extDone i .unreachable 0
    | _ => t) s
  ((s.setEport p { x with state := st, queue := [], wire := none }).setFlag F.enPortStatusLpiTx false p).setFlag F.enPortStatusLpiRx false p

/-- E_OFF with training allowed starts at once (Table 10.3). -/
def State.enStart (s : State) (p : Nat) : State :=
  let x := s.eport p
  if s.enMayTrain p ∧ x.state = .off then
    s.setEport p { x with state := if s.flag F.enPortCfgPhy p then .align else .an }
  else s

/-- Every port takes the state its permission to train gives (R281). -/
def State.enRefresh (s : State) : State :=
  (List.range 32).foldl (fun t p =>
    if t.enMayTrain p then t.enStart p
    else if (t.eport p).state = .off then t
    else t.enDown p .off) s

/-- AN_RESOLVED (R281): a common PHY type, 0 CR or 1 KR, or none. -/
def execAnResolved (port : Nat) (phy : Option Nat) (s : State) : Result :=
  let x := s.eport port
  if x.state ≠ .an then .next s
  else
    match phy with
    | some m => .next ((s.setEport port { x with state := .train }).setFld F.enPortStatusMedium (m % 2) port)
    | none => .next (s.setEport port { x with state := .hold })

/-- Moves a port from one state to another. -/
def State.enMove (s : State) (p : Nat) (a b : EState) : State :=
  let x := s.eport p
  if x.state = a then s.setEport p { x with state := b } else s

/-- AN_TIMEOUT (R281). -/
def execAnTimeout (port : Nat) (s : State) : Result := .next (s.enMove port .an .hold)

/-- LINK_TRAINING_DONE (R281). -/
def execLinkTrainingDone (port : Nat) (s : State) : Result := .next (s.enMove port .train .align)

/-- LINK_TRAINING_TIMEOUT (R281). -/
def execLinkTrainingTimeout (port : Nat) (s : State) : Result := .next (s.enMove port .train .hold)

/-- ALIGN_LOCK (R281, R296): the port is up; whether the trained PHY type defines LPI is IEEE 802.3's to say. -/
def execAlignLock (port : Nat) (lpi : Bool) (s : State) : Result :=
  if (s.eport port).state ≠ .align then .next s
  else
    let s := s.enMove port .align .up
    let s := if s.flag F.enPortCfgPhy port then s.setFld F.enPortStatusMedium 2 port else s
    .next (s.setFlag F.enPortStatusLpiCap lpi port)

/-- ALIGN_TIMEOUT (R281). -/
def execAlignTimeout (port : Nat) (s : State) : Result := .next (s.enMove port .align .hold)

/-- Records a lane fault of a port in Ethernet mode as a single fault of kind 1 (Table 17.1). -/
def State.enSingle (s : State) (p : Nat) : State :=
  let s := s.countSat F.jnlFcntCount 0 1 1
  if s.flag F.jnlFlogValid then s
  else
    let (w, s) := s.draw
    ((((((s.setFlag F.jnlFlogValid true).setFld F.jnlFlogKind 1).setFld F.jnlFlogInst 0).setFld F.jnlFlogUnit p).setFld
      F.jnlFlogResumeUs (w.toNat % 65536)).setFld F.jnlFlogReplayed 0)

/-- A local fault of a port (Table 10.3). -/
def State.enFault (s : State) (p : Nat) : State :=
  match (s.eport p).state with
  | .up => (s.enDown p .align).enSingle p
  | .rfault => s.enDown p .align
  | _ => s

/-- LOCAL_FAULT (R281). -/
def execLocalFault (port : Nat) (s : State) : Result := .next (s.enFault port)

/-- A codeword is received on a port (R278, R299): counted where it was corrected, or could not be; more than 64 of those within a millisecond
of fabric time are a local fault (Table 10.3; log entry 135). -/
def State.enCodeword (s : State) (p : Nat) (w : List Nat) : State :=
  if (s.eport p).state ≠ .up ∧ (s.eport p).state ≠ .rfault then s
  else
    match ethDecode w with
    | some (_, n) => if 0 < n then s.enCount p 18 else s
    | none =>
      let s := s.enCount p 19
      let x := s.eport p
      let ms := s.nowNs / 1000000
      let n := if x.badMs = ms then x.bad + 1 else 1
      let s := s.setEport p { x with badMs := ms, bad := n }
      if 64 < n then s.enFault p else s

/-- REMOTE_FAULT (R281): a port that leaves E_UP discards its queues. -/
def execRemoteFault (port : Nat) (s : State) : Result :=
  if (s.eport port).state = .up then .next (s.enDown port .rfault) else .next s

/-- REMOTE_FAULT_CLEAR (R281). -/
def execRemoteFaultClear (port : Nat) (s : State) : Result := .next (s.enMove port .rfault .up)

/-- EN_HOLD_EXPIRY (R281): back to E_OFF, from which training starts again while it is allowed. -/
def execEnHoldExpiry (port : Nat) (s : State) : Result :=
  if (s.eport port).state = .hold then .next ((s.enMove port .hold .off).enStart port) else .next s

/-! ### The parser (R283 to R285) -/

/-- Where the parse of an accepted frame ends. -/
inductive ParseEnd where
  | slt (ip udp off : Nat) (v6 : Bool)
  | bth (ip udp off : Nat) (v6 : Bool)
  | exc (reason : Nat)
  | macCtrl
  | short
  deriving DecidableEq, Repr

/-- The header the parser reads next. -/
inductive Hd where
  | tag | ip4 | ip6 | ext (ip : Nat) | udp (ip : Nat) (v6 : Bool) | slt (ip udp : Nat) (v6 : Bool) | bth (ip udp : Nat) (v6 : Bool)
  deriving DecidableEq, Repr

/-- What follows an EtherType. -/
def etherNext (t : Nat) : Hd ⊕ ParseEnd :=
  match t with
  | 0x8100 => .inl .tag
  | 0x88A8 => .inl .tag
  | 0x0800 => .inl .ip4
  | 0x86DD => .inl .ip6
  | 0x0806 => .inr (.exc 2)
  | 0x88CC => .inr (.exc 4)
  | 0x88F7 => .inr (.exc 5)
  | 0x8808 => .inr .macCtrl
  | _ => .inr (.exc 7)

/-- What follows a Next Header of IPv6. -/
def nextHeader (ip n : Nat) : Hd ⊕ ParseEnd :=
  match n with
  | 0 => .inl (.ext ip)
  | 43 => .inl (.ext ip)
  | 60 => .inl (.ext ip)
  | 44 => .inr (.exc 6)
  | 17 => .inl (.udp ip true)
  | 58 => .inr (.exc 3)
  | _ => .inr (.exc 7)

/-- Bytes of a header at an offset. -/
def Hd.len (bs : List Byte) (off : Nat) : Hd → Nat
  | .tag => 4
  | .ip4 => (beAt bs off 1 % 16) * 4
  | .ip6 => 40
  | .ext _ => (beAt bs (off + 1) 1 + 1) * 8
  | .udp _ _ => 8
  | .slt _ _ _ => 40
  | .bth _ _ _ => 12

/-- Bytes of a header from its first that the parser needs to see what follows; of a transport header, all of it. -/
def Hd.need : Hd → Nat
  | .tag => 4
  | .ip4 => 10
  | .ip6 => 7
  | .ext _ => 2
  | .udp _ _ => 4
  | .slt _ _ _ => 40
  | .bth _ _ _ => 12

/-- What a header leads to. -/
def Hd.next (bs : List Byte) (port off : Nat) : Hd → Hd ⊕ ParseEnd
  | .tag => etherNext (beAt bs (off + 2) 2)
  | .ip4 =>
    let fr := beAt bs (off + 6) 2
    if fr % 16384 ≠ 0 then .inr (.exc 6)
    else (match beAt bs (off + 9) 1 with
      | 17 => .inl (.udp off false)
      | 1 => .inr (.exc 3)
      | _ => .inr (.exc 7))
  | .ip6 => nextHeader off (beAt bs (off + 6) 1)
  | .ext ip => nextHeader ip (beAt bs off 1)
  | .udp ip v6 =>
    let d := beAt bs (off + 2) 2
    if d = port then .inl (.slt ip off v6)
    else if d = 4791 then .inl (.bth ip off v6)
    else if d = 319 ∨ d = 320 then .inr (.exc 5)
    else .inr (.exc 7)
  | .slt ip u v6 => .inr (.slt ip u off v6)
  | .bth ip u v6 => .inr (.bth ip u off v6)

/-- Reads headers from the n-th on; the 9th, or a byte beyond 256 that the parser needs, is too deep (log entry 63). -/
def parseFrom (bs : List Byte) (port : Nat) : Nat → Nat → Nat → Hd → ParseEnd
  | 0, _, _, _ => .exc 1
  | fuel + 1, n, off, h =>
    let e := off + h.len bs off
    if 8 < n ∨ 256 < off + h.need then .exc 1
    else if bs.length < e then .short
    else
      match h.next bs port off with
      | .inr r => r
      | .inl h' => parseFrom bs port fuel (n + 1) e h'

/-- Parses a frame without its FCS (Table 10.4). -/
def parse (bs : List Byte) (port : Nat) : ParseEnd :=
  match etherNext (beAt bs 12 2) with
  | .inr r => r
  | .inl h => parseFrom bs port 10 2 14 h

/-- The pseudo-header sum of a UDP datagram. -/
def pseudoSum (bs : List Byte) (ip len : Nat) (v6 : Bool) : Nat :=
  if v6 then onesSum ((bs.drop (ip + 8)).take 32) + len + 17
  else onesSum ((bs.drop (ip + 12)).take 8) + len + 17

/-- The address of the destination, an IPv4 one in IPv4-mapped form. -/
def ipDst (bs : List Byte) (ip : Nat) (v6 : Bool) : Nat :=
  if v6 then beAt bs (ip + 24) 16 else 0xFFFF * 2 ^ 32 + beAt bs (ip + 16) 4

/-- The checks of R284 on a parsed frame without its FCS, in order: 7 malformed, 6 filtered, or none. -/
def State.ipChecks (s : State) (p : Nat) (bs : List Byte) (ip udp : Nat) (v6 : Bool) : Option Nat :=
  let avail := bs.length - ip
  let iplen := if v6 then beAt bs (ip + 4) 2 + 40 else beAt bs (ip + 2) 2
  let hlen := udp - ip
  let ulen := beAt bs (udp + 4) 2
  let dgram := (bs.drop udp).take ulen
  if !v6 ∧ fold16 (onesSum ((bs.drop ip).take hlen)) ≠ 0xFFFF then some 7
  else if avail < iplen then some 7
  else if iplen < avail ∧ bs.length + 4 ≠ 64 then some 7
  else if ulen + hlen ≠ iplen then some 7
  else if beAt bs (udp + 6) 2 ≠ 0 ∧ fold16 (pseudoSum bs ip ulen v6 + onesSum dgram) ≠ 0xFFFF then some 7
  else if !s.img.addrs.contains (p, ipDst bs ip v6) then some 6
  else none

/-! ### The exception rings (R287, R288) -/

/-- Whether an exception ring's entry lies in HBM of the manager function. -/
def State.mgrBytes (s : State) (fga len : Nat) : Bool :=
  match s.manager with
  | some m => fgaNode fga == s.nodeId && fgaSpace fga == 0 && s.ownsBytes m (fgaOff fga) len
  | none => false

/-- Offers a frame, without FCS, to the exception receive ring (R287). -/
def State.excRx (s : State) (p reason : Nat) (bs : List Byte) : State :=
  let s := s.enCount p 9
  let s := if reason = 1 then s.enCount p 8 else s
  let n := excSize (s.fld F.enExcCtrlSize)
  let tail := s.fld F.enExcTailTail
  let next := (tail + 1) % n
  let a := s.fld F.enExcBaseFga + (tail % n) * 512
  if !s.flag F.enExcCtrlEnable ∨ next = s.fld F.enExcHeadHead % n ∨ !s.mgrBytes a 512 then s.countSat F.enExcDropFrames
  else
    let ph := s.fld F.enExcTailPhase
    let copied := min bs.length 496
    let e := leBytes reason 1 ++ leBytes (ph * 128) 1 ++ leBytes p 2 ++ leBytes bs.length 2 ++ leBytes copied 2 ++
      leBytes s.stamp 8 ++ padTo bs 496
    let s := s.hbmWrite (fgaOff a) e
    let s := s.setFld F.enExcTailTail next
    let s := if next = 0 then s.setFld F.enExcTailPhase (1 - ph) else s
    let s := (s.enCount p 0).enCount p 1 (bs.length + 4)
    match s.manager with
    | some m => s.signal m (s.fld F.enExcCtrlVector)
    | none => s

/-- Whether a destination MAC address is accepted, and whether it is MAC Control (R282). -/
def State.macAccepts (s : State) (p d : Nat) : Bool :=
  d == s.fld F.enMacAddrAddr p || d == 0xFFFFFFFFFFFF || d == 0x0180C200000E || d == 0x011B19000000

/-- A port's share of the 512 KiB of receive buffer of its lane group, in proportion to its rate (R286). -/
def State.rxShare (s : State) (p : Nat) : Nat := 524288 * s.enLanes p / 8

/-- Whether the receive buffer has room for a frame (R286). -/
def State.rxRoom (s : State) (p n : Nat) : Bool := decide ((s.eport p).rx + n ≤ s.rxShare p)

/-- A frame is delivered to a pipeline: counted, and held in the receive buffer until the router core has taken it (R279, R284, R286). -/
def State.rxDeliver (s : State) (p n : Nat) : State :=
  let s := (s.enCount p 0).enCount p 1 n
  s.setEport p { s.eport p with rx := (s.eport p).rx + n }

/-- The router core takes 64 bytes a cycle on each of the ports that an Ethernet port shares (R279). -/
def State.rxDrain (s : State) (p : Nat) : State :=
  let x := s.eport p
  if x.rx = 0 then s else s.setEport p { x with rx := x.rx - 32 * s.enLanes p }

/-- FRAME_RECEIVED (R282 to R286): codewords, a frame with its FCS, and whether the receive buffer takes it; it is also dropped where the
frames that the port's share holds leave no room (log entry 135). -/
def execFrameReceived (port : Nat) (rx : EthRx) (room : Bool) (s : State) : Result :=
  let s := rx.cws.foldl (fun (t : State) w => t.enCodeword port w) s
  let data := rx.bytes
  let st := (s.eport port).state
  if st ≠ .up ∧ st ≠ .rfault then .next s
  else if !room ∨ !s.rxRoom port data.length then .next (s.enCount port 11)
  else
    let bs := data.take (data.length - 4)
    let fcs := leAt data (data.length - 4) 4
    let good := fcsOf bs
    if fcs ≠ good then .next (if fcs = good ^^^ 0xFFFFFFFF then s.enCount port 3 else s.enCount port 2)
    else if data.length < 64 then .next (s.enCount port 4)
    else if s.maxFrame port < data.length then .next (s.enCount port 5)
    else
      let d := beAt bs 0 6
      if d = 0x0180C2000001 then .next (s.enCount port 10)
      else if !s.macAccepts port d then .next (s.enCount port 6)
      else
        match parse bs (s.fld F.tpCfgSltPort) with
        | .exc r => .next (s.excRx port r bs)
        | .macCtrl => .next (s.enCount port 10)
        | .short => .next (s.enCount port 7)
        | .slt ip udp off v6 =>
          (match s.ipChecks port bs ip udp v6 with
           | some i => .next (s.enCount port i)
           | none =>
             .next ((s.rxDeliver port data.length).emit (.ethDeliver port (beAt bs (off + 4) 4 % 2 ^ 20) false)))
        | .bth ip udp off v6 =>
          (match s.ipChecks port bs ip udp v6 with
           | some i => .next (s.enCount port i)
           | none =>
             let q := beAt bs (off + 5) 3
             let s := s.rxDeliver port data.length
             if 2 ^ 20 ≤ q then .next (s.countSat F.tpPipeCntDropMatch (q % 4))
             else .next (s.emit (.ethDeliver port q true)))

/-! ### Gates (R293 to R295) -/

/-- The administrative list of a port. -/
def State.adminList (s : State) (p : Nat) : List (Nat × Nat) :=
  let n := min 256 (max 1 (s.fld F.enGateCtrlAdminLen p))
  (List.range n).map fun i =>
    let e := AMap.look (0xFF * 2 ^ 32 + 0xF4240) (s.eport p).admin i
    (e / 2 ^ 32, max 64 (e % 2 ^ 32))

/-- The administrative cycle of a port. -/
def State.adminCycle (s : State) (p : Nat) : Nat := max 64 (s.fld F.enGateCycleCycleNs p)

/-- The operational entries as they apply within a cycle: cut off at its end, or the last one stretched to it. -/
def gateSpans (cycle : Nat) : List (Nat × Nat) → List (Nat × Nat)
  | [] => []
  | [(g, _)] => [(g, cycle)]
  | (g, i) :: r => if cycle ≤ i then [(g, cycle)] else (g, i) :: gateSpans (cycle - i) r

/-- Nanoseconds from the start of a list of spans until queue q's gate first closes. -/
def openRun (q : Nat) : List (Nat × Nat) → Nat
  | [] => 0
  | (g, i) :: r => if bit g q then i + openRun q r else 0

/-- The total time of a list of spans. -/
def spansNs (l : List (Nat × Nat)) : Nat := (l.map (·.2)).sum

/-- The first d nanoseconds of a list of spans. -/
def spansCut (d : Nat) : List (Nat × Nat) → List (Nat × Nat)
  | [] => []
  | (g, i) :: r => if d ≤ i then [(g, d)] else (g, i) :: spansCut (d - i) r

/-- The spans of the cycles of a schedule up to a change d nanoseconds ahead: the last entry is stretched over a remainder shorter
than the extension (R295). -/
def spansTo (ext d : Nat) : List (List (Nat × Nat)) → List (Nat × Nat)
  | [] => []
  | c :: cs =>
    let n := spansNs c
    if d ≤ n then spansCut d c
    else if d - n < ext then c ++ [((c.getLastD (0, 0)).1, d - n)]
    else c ++ spansTo ext (d - n) cs

/-- The rest of the cycle that runs, the time already passed taken off; up to the restart after a step of fabric time, the entry in
force. -/
def EPort.restNow (x : EPort) (now : Nat) : List (Nat × Nat) :=
  match (gateSpans x.cycle x.oper).drop x.idx with
  | (g, i) :: r =>
    (match x.restart with
     | some t => [(g, t - now)]
     | none => (g, i - (now - x.since)) :: r)
  | [] => []

/-- Cycles of a schedule enough for a time. -/
def cyclesFor (ns : Nat) (c : List (Nat × Nat)) : List (List (Nat × Nat)) := List.replicate (ns / max 1 (spansNs c) + 1) c

/-- The spans from now on, over at least a time: of the schedule in force, and from the change time of a pending change on those of the
administrative list (R294). -/
def EPort.spansNow (x : EPort) (now ns : Nat) (next : List (Nat × Nat)) : List (Nat × Nat) :=
  let old := x.restNow now :: cyclesFor ns (gateSpans x.cycle x.oper)
  match x.change with
  | none => old.flatten
  | some t =>
    let l := spansTo x.ext (t - now) old
    if spansNs l < t - now then l else l ++ (cyclesFor ns next).flatten

/-- The spans of a port from now on, over at least a time. -/
def State.spansAhead (s : State) (p ns : Nat) : List (Nat × Nat) :=
  (s.eport p).spansNow s.nowNs ns (gateSpans (s.adminCycle p) (s.adminList p))

/-- Whether a queue's gate is open (R293). -/
def State.gateOpen (s : State) (p q : Nat) : Bool :=
  !s.flag F.enGateCtrlEnable p ||
    (match (gateSpans (s.eport p).cycle (s.eport p).oper).drop (s.eport p).idx with
     | (g, _) :: _ => bit g q
     | [] => true)

/-- Whether a queue's gate is open for a time from some point before a limit on (R294). -/
def openWithin (q need : Nat) : Nat → List (Nat × Nat) → Bool
  | _, [] => false
  | limit, (g, i) :: r =>
    (bit g q && decide (need ≤ openRun q ((g, i) :: r))) || (decide (i < limit) && openWithin q need (limit - i) r)

/-- Nanoseconds a frame takes, preamble and gap included, rounded up (R294). -/
def State.frameNs (s : State) (p len : Nat) : Nat := ((len + 20) * 8 + (200 * s.enLanes p - 1)) / (200 * s.enLanes p)

/-- Whether a frame of a length can start in some open interval of its queue within one whole cycle from now, a pending change included
(R288, R294). -/
def State.gateFits (s : State) (p q len : Nat) : Bool :=
  let c := (s.eport p).cycle
  !s.flag F.enGateCtrlEnable p || openWithin q (s.frameNs p len) c (s.spansAhead p (c + s.frameNs p len))

/-- Whether a frame may start now (R294). -/
def State.gateStart (s : State) (p : Nat) (f : TxFrame) : Bool :=
  let n := s.frameNs p f.len
  !s.flag F.enGateCtrlEnable p || (s.gateOpen p f.q && decide (n ≤ openRun f.q (s.spansAhead p n)))

/-! ### Transmission (R289 to R292) -/

/-- Bytes in a transmit queue. -/
def EPort.queued (x : EPort) (q : Nat) : Nat := (x.queue.filter fun f => f.q == q).foldl (fun n f => n + f.len) 0

/-- The head frames of the queues, highest queue first. -/
def EPort.heads (x : EPort) : List TxFrame :=
  [7, 6, 5, 4, 3, 2, 1, 0].filterMap fun q => x.queue.find? fun f => f.q == q

/-- An SLT packet with the fabric timestamp at transmission in its probe extension (Table 10.7); the stamp of an acknowledgement or control
packet of an encrypted connection is that of R406. -/
def State.stamped (s : State) (k : Option Seal) (p : SltPkt) : SltPkt :=
  if p.probe.isSome ∧ (k.isNone ∨ sltType p.op < 2) then { p with probe := some s.stamp } else p

/-- What a frame holds when the MAC builds it, without padding and FCS (R291, Table 10.7). -/
def State.frameBody (s : State) (f : TxFrame) : List Byte :=
  match f.kind with
  | .exc _ body _ => body
  | .slt p k => ethBytes f.cap (sltWire (sltSealed k (s.stamped k p)))
  | .roce _ p => ethBytes f.cap (roceWire f.cap p)

/-- A path probe that is sent with another stamp than it was formed with is known by it (R197). -/
def State.reprobe (s : State) (f : TxFrame) : State :=
  match f.kind with
  | .slt p k =>
    if p.op ≠ .pathProbe then s
    else
      let x := s.qp p.srcQp
      let st := ((s.stamped k p).probe).getD 0
      s.setQp p.srcQp { x with probes := x.probes.map fun e => if e = (p.path, p.probe.getD 0) then (e.1, st) else e }
  | _ => s

/-- Starts a frame: it is on the wire, once min(T_EFF, its length) bytes of it are in the transmit buffer (R292). -/
def State.enSend1 (s : State) (p : Nat) (f : TxFrame) : State :=
  let x := s.eport p
  let s := if x.reload then (s.setFld F.enTxThreshCur (max 64 (s.fld F.enTxThreshBase p)) p) else s
  let w : WireFrame := { f := f, body := s.frameBody f, held := min (s.fld F.enTxThreshCur p) f.len, time := s.stamp }
  (s.setEport p { x with queue := x.queue.erase f, reload := false, wire := some w }).reprobe f

/-- Whether an exception frame is on the wire, whose end is a command (R288). -/
def EPort.excOut (x : EPort) : Bool :=
  match x.wire with
  | some w => w.f.kind.isExc
  | none => false

/-- The frame on the wire has been sent complete (Table 10.8). -/
def State.wireDone (s : State) (p : Nat) (w : WireFrame) : State :=
  let x := s.eport p
  (((s.setEport p { x with wire := none, good := x.good + 1 }).enCount p 12).enCount p 13 w.f.len).emit (.frame p (wireBytes w.body) false)

/-- A transport frame on the wire of a port has been sent complete (log entry 129). -/
def State.wireSent (s : State) (p : Nat) : State :=
  match (s.eport p).wire with
  | some w => if w.f.kind.isExc then s else s.wireDone p w
  | none => s

/-- Every transport frame on a wire has been sent complete, at an edge of CLK_T (log entry 129), and the router core takes what was received. -/
def State.wiresSent (s : State) : State := s.en.foldl (fun t p => (t.wireSent p.1).rxDrain p.1) s

/-- Starts frames while the wire can take one and a head frame may start (R290, R294): a transport frame before it has then been sent. -/
def State.enPumpN (s : State) (p : Nat) : Nat → State
  | 0 => s
  | n + 1 =>
    let x := s.eport p
    if x.state ≠ .up ∨ x.excOut then s
    else
      match x.heads.find? (s.gateStart p) with
      | none => s
      | some f => ((s.wireSent p).enSend1 p f).enPumpN p n

/-- Starts what may start on a port. -/
def State.enPump (s : State) (p : Nat) : State := s.enPumpN p (s.eport p).queue.length

/-- Assigns a frame to its queue (R289, R214, R294, R296): LPI ends; a frame no interval can hold is discarded. A mark is CE in the ECN
field. -/
def State.enAssign (s : State) (p cls : Nat) (f : TxFrame) : State :=
  let x := s.eport p
  let th := s.fld F.ccMarkThresh 0 cls
  let transport := !f.kind.isExc
  let mark := transport && f.cap.ecn != 0 && decide (th ≠ 0) && decide (th * 4096 ≤ x.queued f.q)
  let s := if mark then s.enCount p 17 else s
  let s := s.setFlag F.enPortStatusLpiTx false p
  if !s.gateFits p f.q f.len then s.enCount p 15
  else (s.setEport p { x with queue := x.queue ++ [if mark then { f with cap := { f.cap with ecn := 3 } } else f] }).enPump p

/-! ### The exception transmit ring (R288) -/

/-- The checks of R288 on an entry. -/
def State.extCheck (s : State) (e : List Byte) : Option Status :=
  let p := leAt e 2 2
  let len := leAt e 4 2
  let ext := bit (leAt e 1 1) 1
  let q := leAt e 6 1 % 8
  if !s.enExists p ∨ (s.eport p).state ≠ .up then some .unreachable
  else if len < 14 ∨ s.maxFrame p - 4 < len then some .badLength
  else if !ext ∧ 496 < len then some .badLength
  else if !s.gateFits p q (max 64 (len + 4)) then some .badLength
  else if ext ∧ !s.mgrBytes (leAt e 16 8) len then some .notPermitted
  else none

/-- Takes entries from the head to the tail until one waits to be sent (R288): entries go in ring order. -/
def State.extRun (s : State) : Nat → State
  | 0 => s
  | n + 1 =>
    let i := s.fld F.enExtHeadHead
    let busy := s.en.any fun p =>
      p.2.excOut || p.2.queue.any fun f => f.kind.isExc
    if !s.flag F.enExtCtrlEnable ∨ i = s.fld F.enExtTailTail ∨ busy ∨ !s.mgrBytes (s.fld F.enExtBaseFga + i * 512) 512 then s
    else
      let e := s.hbmRead (s.extAddr i) 512
      match s.extCheck e with
      | some st => (s.extDone i st 0).extRun n
      | none =>
        let p := leAt e 2 2
        let len := leAt e 4 2
        let body := if bit (leAt e 1 1) 1 then s.hbmRead (fgaOff (leAt e 16 8)) len else (e.drop 16).take len
        let f : TxFrame := { q := leAt e 6 1 % 8, len := max 64 (len + 4), kind := .exc i body (bit (leAt e 1 1) 0) }
        s.enAssign p 0 f

/-- Runs the exception transmit ring as far as it goes. -/
def State.extPump (s : State) : State := s.extRun (excSize (s.fld F.enExtCtrlSize))

/-- EXT_TAIL (R288): the write of the tail by a commanding origin. -/
def execExtTail (org : Origin) (tail : Nat) (s : State) : Result :=
  if s.dcsOpen org 0x4000000 then .next (s.setFld F.enExtTailTail (tail % excSize (s.fld F.enExtCtrlSize))).extPump else .next s

/-- The entry of an exception frame that has left the wire is done, with the timestamp taken at its start, and the port and the ring go on (R288,
R298). -/
def State.wireNext (s : State) (p : Nat) (w : WireFrame) : State :=
  match w.f.kind with
  | .exc i _ ts => ((s.extDone i .ok (if ts then w.time else 0)).enPump p).extPump
  | _ => s.enPump p

/-- EXCEPTION_FRAME_SENT (R288, R298). -/
def execExceptionFrameSent (port : Nat) (s : State) : Result :=
  match (s.eport port).wire with
  | none => .next s
  | some w => if w.f.kind.isExc then .next ((s.wireDone port w).wireNext port w) else .next s

/-- TX_UNDERRUN (R292): the frame being sent ends with a stomped FCS, not before the bytes that were held at its start, and T_EFF rises. -/
def execTxUnderrun (port : Nat) (s : State) : Result :=
  let x := s.eport port
  match x.wire with
  | none => .next s
  | some w =>
    let s := s.enCount port 14
    let s := s.setFld F.enTxThreshCur (min (s.maxFrame port) (s.fld F.enTxThreshCur port + 1024)) port
    let s := s.setEport port { x with wire := none, good := 0 }
    .next ((s.enStomp port w w.held).wireNext port w)

/-- TX_THRESH_DECAY (R292): after 1,024 frames without underrun. -/
def execTxThreshDecay (port : Nat) (s : State) : Result :=
  let x := s.eport port
  if x.good < 1024 then .next s
  else
    let cur := s.fld F.enTxThreshCur port
    .next ((s.setEport port { x with good := x.good - 1024 }).setFld F.enTxThreshCur
      (max (max 64 (s.fld F.enTxThreshBase port)) (cur - 64)) port)

/-! ### Gate configuration (R295) -/

/-- CONFIG_CHANGE (R295): PENDING, and the change time; discarded while the port's domain is not on (R36). -/
def execConfigChange (org : Origin) (port : Nat) (s : State) : Result :=
  if !s.dcsOpen org 0x4000000 ∨ !s.enExists port ∨ !s.domOn (16 + port / 8) then .next s
  else
    let base := s.fld F.enGateBaseSSec port * 1000000000 + s.fld F.enGateBaseNsNs port
    let cyc := s.adminCycle port
    let t := if s.nowNs < base then base else base + ((s.nowNs - base) / cyc + 1) * cyc
    .next ((s.setEport port { s.eport port with change := some t }).setFlag F.enGateCtrlPending true port)

/-- Discards the queued frames that no open interval of the schedule in force can hold (R294); an exception entry of such a length ends
with BAD_LENGTH (R288). -/
def State.gateSweep (s : State) (p : Nat) : State :=
  let x := s.eport p
  let bad := x.queue.filter fun f => !s.gateFits p f.q f.len
  if bad.isEmpty then s
  else
    let s := (s.setEport p { x with queue := x.queue.filter fun f => s.gateFits p f.q f.len }).enCount p 15 bad.length
    bad.foldl (fun t f => match f.kind with
      | .exc i _ _ => t.extDone i .badLength 0
      | _ => t) s

/-- GATE_CHANGE_TIME (R295): the administrative list becomes operational. -/
def execGateChangeTime (port : Nat) (s : State) : Result :=
  let x := s.eport port
  match x.change with
  | none => .next s
  | some _ =>
    let l := s.adminList port
    let y := { x with oper := l, cycle := s.adminCycle port, idx := 0, since := s.nowNs, change := none, restart := none }
    let base := s.fld F.enGateBaseSSec port * 1000000000 + s.fld F.enGateBaseNsNs port
    let s := s.setEport port { y with ext := s.fld F.enGateCycleExtNs port, base := base }
    let s := (s.setFlag F.enGateCtrlPending false port).setFld F.enGateCtrlOperLen l.length port
    .next ((s.gateSweep port).enPump port)

/-- GATE_INTERVAL_END (R293): the next entry of the cycle applies. -/
def execGateIntervalEnd (port : Nat) (s : State) : Result :=
  if !s.enExists port then .next s
  else
    let x := s.eport port
    let n := (gateSpans x.cycle x.oper).length
    let stretched := match x.change with | some t => decide (t - s.nowNs < x.ext) | none => false
    let i := if x.restart.isSome then 0 else if x.idx + 1 < n then x.idx + 1 else if stretched then x.idx else 0
    .next ((s.setEport port { x with idx := i, since := s.nowNs, restart := none }).enPump port)

/-! ### Low Power Idle (R296, R297) -/

/-- Nanoseconds until a queue's gate next opens, if it is closed now. -/
def toOpen (q : Nat) : List (Nat × Nat) → Option Nat
  | [] => none
  | (g, i) :: r => if bit g q then some 0 else (toOpen q r).map (i + ·)

/-- Nanoseconds until the next opening of a queue's gate: if it is open now, after its next closing. -/
def nextOpening (q : Nat) : List (Nat × Nat) → Option Nat
  | [] => none
  | (g, i) :: r => if bit g q then (nextOpening q r).map (i + ·) else toOpen q ((g, i) :: r)

/-- Whether an opening of a gate in WAKE_MASK falls within a time (R297). -/
def State.wakeSoon (s : State) (p ns : Nat) : Bool :=
  s.flag F.enGateCtrlEnable p &&
    (onesOf (s.fld F.enLpiWakeMask p) 8).any fun q =>
      match nextOpening q (s.spansAhead p ns) with
      | some t => decide (t ≤ ns)
      | none => false

/-- LPI_ENTRY (R296, R297). -/
def execLpiEntry (port : Nat) (s : State) : Result :=
  let s := s.wireSent port
  let x := s.eport port
  let tw := s.fld F.enLpiTwTx port
  if s.flag F.enLpiEnable port ∧ s.flag F.enPortStatusLpiCap port ∧ tw ≠ 0 ∧ x.queue = [] ∧ x.wire = none ∧
      x.state = .up ∧ !s.flag F.enPortStatusLpiTx port ∧ !s.wakeSoon port ((tw + s.fld F.enLpiIdleUs port) * 1000) then
    .next ((s.setFlag F.enPortStatusLpiTx true port).enCount port 20)
  else .next s

/-- LPI_WAKE (R297). -/
def execLpiWake (port : Nat) (s : State) : Result := .next (s.setFlag F.enPortStatusLpiTx false port)

/-- RECEIVE_LPI (R296): the partner enters LPI. -/
def execReceiveLpi (port : Nat) (s : State) : Result :=
  let st := (s.eport port).state
  if st = .up ∨ st = .rfault then .next ((s.setFlag F.enPortStatusLpiRx true port).enCount port 21) else .next s

end Machine
end Sys2Proof
end

