-- ==== Sys2Proof/Machine/TurnstileOps.lean ====
section
/-! DEFINITION. The turnstile store (R167 to R171): values, locks and waiters, and the triggers that watch values. -/

namespace Sys2Proof
namespace Machine

/-- A turnstile. -/
def State.turn (s : State) (n : Nat) : Turnstile := AMap.look {} s.ts n

/-- Writes a turnstile. -/
def State.setTurn (s : State) (n : Nat) (t : Turnstile) : State := { s with ts := AMap.save {} s.ts n t }

/-- LSTATE of an owner field (Table 6.9a): 0 free, 1 held, 2 abandoned. -/
def lstate (o : Nat) : Nat := bits o 33 32
/-- The holder in an owner field. -/
def holder (o : Nat) : User := { node := bits o 63 48, fn := bits o 47 40 }
/-- An owner field from its parts. -/
def mkOwner (u : User) (st waiters : Nat) : Nat :=
  u.node % 65536 * 2 ^ 48 + u.fn % 256 * 2 ^ 40 + st * 2 ^ 32 + min waiters 0xFFFF

/-- Lock waiters of a turnstile. -/
def Turnstile.lockWaiters (t : Turnstile) : Nat := (t.waiters.filter fun w => w.want == .lock).length

/-- The owner field as it reads: WAITERS counts the ACQUIRE operations that wait. -/
def Turnstile.ownerField (t : Turnstile) : Nat :=
  t.owner / 65536 * 65536 + min t.lockWaiters 0xFFFF

/-- A turnstile operation that has ended: where it came from, its status, RESULT and ABANDONED. -/
structure TsDone where
  src : TsSource
  st : Status := .ok
  result : Nat := 0
  abandoned : Bool := false
  deriving DecidableEq, Repr

/-- Gives the lock to a user. -/
def Turnstile.give (t : Turnstile) (u : User) : Turnstile := { t with owner := mkOwner u 1 0 }

/-- Takes the first waiter that meets a test out of a list. -/
def takeFirst {α : Type} (p : α → Bool) : List α → Option (α × List α)
  | [] => none
  | x :: xs => if p x then some (x, xs) else (takeFirst p xs).map fun r => (r.1, x :: r.2)

/-- Passes a lock that its holder gives up to the oldest waiter, or frees or abandons it (Table 6.10). -/
def Turnstile.pass (t : Turnstile) (abandon : Bool) : Turnstile × List TsDone :=
  match takeFirst (fun w : TsWaiter => w.want == .lock) t.waiters with
  | some (w, ws) =>
    let before := t.ownerField
    (({ t with waiters := ws }).give w.user, [{ src := w.src, result := before, abandoned := abandon }])
  | none =>
    if abandon then ({ t with owner := mkOwner (holder t.owner) 2 0 }, [])
    else ({ t with owner := 0 }, [])

/-- The waiters whose threshold the value has reached leave, oldest first (R169). -/
def Turnstile.wake (t : Turnstile) : Turnstile × List TsDone :=
  let met := fun w : TsWaiter => match w.want with
    | .value th _ => decide (th ≤ t.value)
    | .lock => false
  ({ t with waiters := t.waiters.filter fun w => !met w },
   (t.waiters.filter met).map fun w =>
     { src := w.src, result := match w.want with | .value _ (some r) => r | _ => t.value })

/-- A turnstile operation on one turnstile (Table 6.9, Table 6.10): the turnstile afterwards, the operations that end, and
whether the operation itself waits. Waiting operations are appended in order of arrival. -/
def Turnstile.apply (t : Turnstile) (code opa opb : Nat) (u : User) (src : TsSource) (key : Option (Nat × Nat))
    (manager : Bool) : Turnstile × List TsDone × Bool :=
  let v := t.value
  let o := t.ownerField
  let done := fun (r : Nat) => [({ src := src, result := r } : TsDone)]
  let fail := fun (st : Status) => [({ src := src, st := st } : TsDone)]
  let changed := fun (x : Nat) =>
    let (t', ds) := ({ t with value := x % 2 ^ 64 }).wake
    (t', done v ++ ds, false)
  let wait := fun (t : Turnstile) (w : TsWant) =>
    ({ t with waiters := t.waiters ++ [{ src := src, user := u, want := w, key := key }] })
  match code with
  | 0x01 => (t, done v, false)
  | 0x02 => changed opa
  | 0x03 => changed (v + opa)
  | 0x04 => if v = opa then changed opb else (t, done v, false)
  | 0x05 => if opa ≤ v then (t, done v, false) else (wait t (.value opa none), [], true)
  | 0x06 =>
    let (t', ds) := ({ t with value := (v + opa) % 2 ^ 64 }).wake
    if opb ≤ t'.value then (t', done v ++ ds, false) else (wait t' (.value opb (some v)), ds, true)
  | 0x08 =>
    match lstate o with
    | 0 => (t.give u, done o, false)
    | 1 => if holder o = u then (t, done o, false) else (wait t .lock, [], true)
    | _ => (t.give u, [{ src := src, result := o, abandoned := true }], false)
  | 0x09 =>
    match lstate o with
    | 0 => (t.give u, done o, false)
    | 1 => (t, done o, false)
    | _ => (t.give u, [{ src := src, result := o, abandoned := true }], false)
  | 0x0A =>
    if lstate o = 1 ∧ holder o = u then
      let (t', ds) := t.pass false
      (t', done o ++ ds, false)
    else (t, fail .tsNotOwner, false)
  | 0x0B =>
    if lstate o = 1 ∧ holder o = u then
      let g : User := { node := bits opa 23 8, fn := bits opa 7 0 }
      let t' := t.give g
      match takeFirst (fun w : TsWaiter => w.want == .lock && w.user == g) t'.waiters with
      | some (w, ws) => ({ t' with waiters := ws }, done o ++ [{ src := w.src, result := o }], false)
      | none => (t', done o, false)
    else (t, fail .tsNotOwner, false)
  | 0x0C =>
    if !manager then (t, fail .notPermitted, false)
    else if lstate o = 1 then
      let (t', ds) := t.pass true
      (t', done o ++ ds, false)
    else (t, done o, false)
  | _ => (t, fail .badDescriptor, false)

/-- The rights a turnstile operation needs: R, and W but for TS_READ and TS_WAIT (Table 6.9). -/
def tsNeedsW (code : Nat) : Bool := !(code == 0x01 || code == 0x05)

/-- Whether a VAR selects a turnstile operation (Table 6.9). -/
def tsCodeOk (code : Nat) : Bool := [1, 2, 3, 4, 5, 6, 8, 9, 0x0A, 0x0B, 0x0C].contains code

/-- The position of the first entry of a queue that has neither started nor been armed. -/
def State.firstWaiting (s : State) (fn q : Nat) : Nat :=
  let x := s.queue fn q
  (s.ops.filter fun o => o.ref.fn == fn && o.ref.q == q && o.phase != .armed && !o.started).foldl
    (fun p o => if subMod 32 o.ref.pos x.oldest < subMod 32 p x.oldest then o.ref.pos else p) x.fetch

/-- Starts second entries: they may start, and the record of the trigger is freed; from now on they count as posted (R154). -/
def State.startSeconds (s : State) (rs : List OpRef) : State :=
  let hit := fun (o : Op) => rs.contains o.ref && o.phase == .armed
  let s := (s.ops.filter hit).foldl (fun t o => t.freeJrec o.jrec) s
  let fire := fun (o : Op) => { o with phase := .ready, triggered := true, jrec := none, firedAt := s.firstWaiting o.ref.fn o.ref.q }
  { s with ops := s.ops.map fun o => if hit o then fire o else o }

/-- Fires the armed threshold triggers of a turnstile whose value reaches them: their second entries may start
(R152, R154). -/
def State.fireThreshold (s : State) (n : Nat) : State :=
  let v := (s.turn n).value
  let met := fun a : Armed => match a.cond with
    | .threshold k th _ => k == n && decide (th ≤ v)
    | .tag _ => false
  let seconds := (s.armed.filter met).map (·.second)
  { s with armed := s.armed.filter fun a => !met a }.startSeconds seconds

/-- Fires the oldest armed tag trigger of a function for a tag (R152). -/
def State.fireTag (s : State) (fn tag : Nat) : State :=
  match takeFirst (fun a : Armed => a.second.fn == fn && a.cond == .tag tag) s.armed with
  | none => s
  | some (a, rest) => { s with armed := rest }.startSeconds [a.second]

/-- Performs a turnstile operation on turnstile n: the operations that end, and whether it waits. -/
def State.tsPerform (s : State) (n code opa opb : Nat) (u : User) (src : TsSource) (key : Option (Nat × Nat)) :
    State × List TsDone × Bool :=
  let mgr := u.node == s.nodeId && s.isManager u.fn
  let (t, ds, w) := (s.turn n).apply code opa opb u src key mgr
  ((s.setTurn n t).fireThreshold n, ds, w)

/-- Abandons every lock held by a user (R170): the waiters that are granted. -/
def State.abandonLocks (s : State) (p : User → Bool) : State × List TsDone :=
  s.ts.foldl (fun acc e =>
    let t := e.2
    if lstate t.owner = 1 ∧ p (holder t.owner) then
      let (t', ds) := t.pass true
      (acc.1.setTurn e.1 t', acc.2 ++ ds)
    else acc) (s, [])

/-- Removes the waiters that meet a test, with a status (R164 step 3, R169). -/
def State.dropWaiters (s : State) (p : TsWaiter → Bool) (st : Status) : State × List TsDone :=
  s.ts.foldl (fun acc e =>
    let gone := e.2.waiters.filter p
    if gone.isEmpty then acc
    else
      (acc.1.setTurn e.1 { e.2 with waiters := e.2.waiters.filter fun w => !p w },
       acc.2 ++ gone.map fun w => { src := w.src, st := st })) (s, [])

end Machine
end Sys2Proof
end

