-- ==== Sys2Proof/Machine/Queues.lean ====
section
/-! DEFINITION. Work queues (chapter 5): rings, descriptors, the checks of Table 5.5, dispatch, and completion in place. -/

namespace Sys2Proof
namespace Machine

/-- The allocation of a function. -/
def State.alloc (s : State) (fn : Nat) : Alloc := AMap.look {} s.ten.alloc fn

/-- A limit in force: the allocation, or the equal share of the pool (R422, R426). -/
def State.limitOf (s : State) (own pool : Nat) : Nat :=
  match s.ten.equal with
  | some (d, _) => if d = 0 then 0 else pool / d
  | none => own

/-- Limits in force of a function: windows, Square units of 64 KiB, rate in MB/s (Table 16.4). -/
def State.windowLimit (s : State) (fn : Nat) : Nat := s.limitOf (s.alloc fn).window 4194303
/-- The Square share of a function. -/
def State.squareLimit (s : State) (fn : Nat) : Nat := s.limitOf (s.alloc fn).square 768
/-- The rate limit of a function. -/
def State.rateLimit (s : State) (fn : Nat) : Nat := s.limitOf (s.alloc fn).rate (s.fld F.fnRateTotalTotal)

/-- TAIL moves to a position: when it did is kept for the entries it passes. -/
def Queue.pass (x : Queue) (tail now : Nat) : Queue := { x with tail := tail, passed := x.passed ++ [(tail, now)] }

/-- Entries of a queue's ring (R119). -/
def State.ringSize (s : State) (fn q : Nat) : Nat := 2 ^ (min (s.fld F.qfCfgSize (qObj fn q)) 10 + 6)

/-- Whether a queue's ring lies in HBM. -/
def State.ringInHbm (s : State) (fn q : Nat) : Bool := s.flag F.qfCfgMedium (qObj fn q)

/-- Whether a queue is privileged. -/
def State.privileged (s : State) (fn q : Nat) : Bool := s.flag F.qfCfgPriv (qObj fn q)

/-- The address of the entry at a position: an HA or a plain FGA (R120). -/
def State.entryAddr (s : State) (fn q pos : Nat) : Nat :=
  s.fld F.qfBaseBase (qObj fn q) * 64 + (pos % s.ringSize fn q) * 64

/-- Stops the fetch of a queue after a failed ring access, or a last try (R131, R137). -/
def State.stall (s : State) (fn q : Nat) : State :=
  (s.setFlag F.qfStatusStalled true (qObj fn q)).signal fn (s.fld F.qfCfgVector (qObj fn q))

/-- A failed ring access (R137). -/
def State.ringFail (s : State) (fn q : Nat) (st : Status) : State :=
  ((s.setFlag F.qfStatusFetchErr true (qObj fn q)).setFld F.qfStatusCode st.code (qObj fn q)).stall fn q

/-! ### Descriptors -/

/-- Decodes the 64 bytes of an entry (Tables 5.1 and 5.2). -/
def Desc.ofBytes (bs : List Byte) : Desc :=
  let fl := leAt bs 1 1
  let qw := leAt bs 4 4
  { opcode := leAt bs 0 1, flags := fl, var := leAt bs 2 1,
    rsvd := leAt bs 3 1 + qw / 2 ^ 20 + b2n (bit fl 7) + b2n (bit fl 3) + b2n (bit fl 2),
    qp := qw % 2 ^ 20, len := leAt bs 8 4, rkey := leAt bs 12 4, laddr := leAt bs 16 8, opx := leAt bs 32 8,
    opa := leAt bs 40 8, opb := leAt bs 48 8, own := bit (leAt bs 63 1) 7 }

/-- FENCE. -/
def Desc.fence (d : Desc) : Bool := bit d.flags 0
/-- IRQ. -/
def Desc.irq (d : Desc) : Bool := bit d.flags 1
/-- LKIND: 1 is a plain FGA. -/
def Desc.lkind (d : Desc) : Bool := bit d.flags 4
/-- DKIND: 1 is a plain FGA. -/
def Desc.dkind (d : Desc) : Bool := bit d.flags 5
/-- NOTIFY. -/
def Desc.notify (d : Desc) : Bool := bit d.flags 6

/-- The opcodes of Table 5.3. -/
def opcodeOk (n : Nat) : Bool :=
  [0x00, 0x01, 0x04, 0x05, 0x08, 0x09, 0x0A, 0x0B, 0x10, 0x11, 0x12, 0x13, 0x14, 0x15, 0x16, 0x18, 0x20, 0x28, 0x29,
   0x30].contains n

/-- VAR is valid for the opcode (Table 5.4, R168). Table 5.4 has no row for NOP: any VAR of it is valid (DESIGN CHOICE, log entry 117). -/
def varOk (d : Desc) : Bool :=
  match d.opcode with
  | 0x00 => true
  | 0x18 => tsCodeOk d.var
  | 0x28 => decide (d.var < 160)
  | 0x29 => decide (d.var < 160)
  | 0x30 => decide (d.var < 2)
  | _ => d.var == 0

/-- LEN is within the opcode's limits (Table 5.4); a NOP, which the table does not list, has none (log entry 117). -/
def lenOk (d : Desc) : Bool :=
  match d.opcode with
  | 0x04 => d.len == 0
  | 0x05 => d.len == 0
  | 0x08 => d.len == 0
  | 0x09 => d.len == 0
  | 0x0A => decide (1 ≤ d.len ∧ d.len ≤ 4096)
  | 0x0B => decide (1 ≤ d.len ∧ d.len ≤ 4096)
  | 0x14 => d.len == 8
  | 0x15 => d.len == 8
  | 0x16 => d.len == 16
  | 0x18 => d.len == 0
  | 0x30 => d.len == 0
  | _ => true

/-- Operations that name their target by RKEY. -/
def remoteOp (n : Nat) : Bool := [0x10, 0x11, 0x14, 0x15, 0x16, 0x18].contains n

/-- The first failing check of Table 5.5, in its order (R125). On a RoCEv2 QP the opcodes of R209 are refused: the refusal stands between
checks 2 and 3, and is made only of a QP that the function owns (DESIGN CHOICE, log entry 118: R209 gives the status and no place). -/
def State.descCheck (s : State) (fn : Nat) (d : Desc) : Option Status :=
  let onQp := d.opcode == 0x12 || d.opcode == 0x13 || (remoteOp d.opcode && s.keyTarget fn d.qp d.rkey != .owned)
  let roce := onQp && (s.qp d.qp).roce && s.ownsQp fn d.qp
  if d.rsvd ≠ 0 then some .badDescriptor
  else if !opcodeOk d.opcode then some .badOpcode
  else if roce ∧ (d.opcode = 0x16 ∨ d.opcode = 0x18 ∨ (d.opcode = 0x12 ∧ d.opa % 2 ^ 32 ≠ 0)) then some .badOpcode
  else if d.notify ∧ d.opcode ≠ 0x10 then some .badDescriptor
  else if (d.opcode = 0x04 ∨ d.opcode = 0x05) ∧ d.lkind then some .badDescriptor
  else if !varOk d then some .badDescriptor
  else if !lenOk d then some .badLength
  else if (d.opcode = 0x14 ∨ d.opcode = 0x15) ∧ d.opx % 8 ≠ 0 then some .misaligned
  else if d.opcode = 0x16 ∧ (d.opx % 16 ≠ 0 ∨ d.laddr % 16 ≠ 0) then some .misaligned
  else if (d.opcode = 0x28 ∨ d.opcode = 0x29) ∧ s.blockCount ≤ d.var then some .unitAbsent
  else if (d.opcode = 0x28 ∨ d.opcode = 0x29) ∧ !s.domOn (d.var / 20) then some .domainOff
  else if onQp ∧ !s.ownsQp fn d.qp then some .notPermitted
  else if onQp ∧ !(s.qp d.qp).up then some .qpError
  else none

/-! ### Completion (R126 to R128) -/

/-- Bytes 32 to 63 of a completed entry (Table 5.6). -/
def cplHalf (op : Op) (st : Status) (count result aux time : Nat) (abandoned : Bool) : List Byte :=
  let fl := b2n op.wasParked * 8 + b2n op.reissued * 4 + b2n op.triggered * 2 + b2n abandoned
  leBytes st.code 1 ++ leBytes fl 1 ++ leBytes 0 2 ++ leBytes count 4 ++ leBytes result 8 ++ leBytes aux 4 ++
    leBytes (op.jrec.getD 0xFFFFFFFF) 4 ++ leBytes time 7 ++ [0#8]

/-- The status of a ring access whose translation ends as given (Table 3.13). -/
def XlRes.status : XlRes → Status
  | .fault _ => .pageFault
  | .err st => st
  | _ => .xlTableError

/-- The status of a write of len bytes at an HA of one page that fails. -/
def State.haFailure (s : State) (fn ha len : Nat) : Status :=
  match s.lookup (s.hostEng fn) ha .write with
  | .ok e => if e.hbm then (s.spaceCheck 0 (e.at ha % 2 ^ 44) len true).getD .xlTableError else .xlTableError
  | r => r.status

/-- Writes a completion half to its ring and signals its vector (R127); a write that fails is told in QF.STATUS, with the vector signalled
once (R137). -/
def State.writeCpl (s : State) (r : OpRef) (bs : List Byte) (irq : Bool) : State :=
  let a := s.entryAddr r.fn r.q r.pos
  let put : Except Status State :=
    if s.ringInHbm r.fn r.q then
      match s.spaceCheck 0 (a % 2 ^ 44 + 32) bs.length true with
      | none => .ok (s.hbmWrite (a % 2 ^ 44 + 32) bs)
      | some st => .error st
    else
      match (s.ringPut r.fn (a + 32) (bs.take 31)).bind fun t => t.ringPut r.fn (a + 63) (bs.drop 31) with
      | some t => .ok (t.hintsSince s r.fn)
      | none => .error (s.haFailure r.fn (a + 32) 32)
  match put with
  | .ok t => if irq then t.signal r.fn (t.fld F.qfCfgVector (qObj r.fn r.q)) else t
  | .error st => s.ringFail r.fn r.q st

/-- Takes a run of numbers that starts at n out of a list. -/
def runFrom (fin : List Nat) : Nat → Nat → Nat
  | 0, n => n
  | k + 1, n => if fin.contains n then runFrom fin k ((n + 1) % 2 ^ 32) else n

/-- Marks a position completed: OLDEST moves past each run of completed entries (R128). -/
def State.retirePos (s : State) (r : OpRef) : State :=
  let q := s.queue r.fn r.q
  let fin := r.pos :: q.finished
  let o := runFrom fin fin.length q.oldest
  s.setQueue r.fn r.q { q with oldest := o, finished := fin.filter (fun p => subMod 32 p o < 2 ^ 31),
                               passed := q.passed.filter fun e => decide (0 < subMod 32 e.1 o ∧ subMod 32 e.1 o < 2 ^ 31) }

/-- Whether a queue's completion writes are held (R112, R137): its ring is in host memory and the host may not be
written, or the queue is held. -/
def State.cplHeld (s : State) (fn q : Nat) : Bool :=
  (s.queue fn q).state == .held || (!s.ringInHbm fn q && !s.hostOpen fn)

/-- Whether a function's writes of data to registers, which are performed at the end of the command (log entry 111), are still to be
made. -/
def State.putsRegisters (s : State) (fn : Nat) : Bool :=
  s.dcsIn.any fun x => match x with
    | .put f _ _ => f == fn
    | _ => false

/-- Whether HBM holds the write of a completion half to its ring. -/
def State.cplBusy (s : State) (r : OpRef) : Bool :=
  let a := s.entryAddr r.fn r.q r.pos + 32
  if s.ringInHbm r.fn r.q then s.hbmBusy (a % 2 ^ 44) 32
  else
    match s.lookup (s.hostEng r.fn) a .write with
    | .ok e => e.hbm && s.hbmBusy (e.at a % 2 ^ 44) 32
    | _ => false

/-- Writes a completion half now, or keeps it until it may be written: while its queue or host holds it (R112, R137), while HBM does, and while
the translation of its ring has to be walked for. -/
def State.landCpl (s : State) (h : HeldCpl) : State :=
  let a := s.entryAddr h.ref.fn h.ref.q h.ref.pos + 32
  let keep := { s with heldCpls := s.heldCpls ++ [h] }
  if s.cplHeld h.ref.fn h.ref.q || s.cplBusy h.ref then keep
  else if !s.ringInHbm h.ref.fn h.ref.q ∧ s.lookup (s.hostEng h.ref.fn) a .write = .miss then
    keep.wantWalk h.ref.fn a { who := .cpl h.ref, acc := .write, loc := (s.hostEng h.ref.fn).loc }
  else s.writeCpl h.ref h.bytes h.irq

/-- Writes a completion half once the data that were written to registers before it have been (R127). -/
def State.postCpl (s : State) (h : HeldCpl) : State :=
  if s.putsRegisters h.ref.fn then { s with dcsIn := s.dcsIn ++ [.cpl h] } else s.landCpl h

/-- The buffer in HBM that an operation has written, address and bytes; COUNT is that of its completion. -/
def Op.wrote (o : Op) (count : Nat) : Option (Nat × Nat) :=
  match o.d.opcode with
  | 0x01 => if o.d.dkind then some (o.d.opx, o.d.len) else none
  | 0x0A => if o.d.dkind then some (o.d.opx, 16 * o.d.len) else none
  | 0x0B => if o.d.dkind then some (o.d.opx, 8 * o.d.len) else none
  | 0x11 => if o.d.lkind then some (o.d.laddr, o.d.len) else none
  | 0x13 => if o.d.lkind then some (o.d.laddr, count) else none
  | _ => none

/-- The status of an operation that has ended well: of one whose writes were served line by line, and some refused, that is NOT_PERMITTED (R306). -/
def State.servedAs (s : State) (o : Op) (count : Nat) : Status :=
  match o.wrote count with
  | some (a, n) => if fgaSpace a = 0 then s.heldBack (fgaOff a) n else .ok
  | none => .ok

/-- Counts a COLL that has completed, for the node and for its function (Tables 13.12, 13.13). -/
def State.collCount (s : State) (fn : Nat) (ok : Bool) : State :=
  if ok then (s.countSat F.sqCntDone).countSat F.sqfCntDone fn
  else (s.countSat F.sqCntFailed).countSat F.sqfCntFailed fn

/-- Completes an operation: the completion half in place, the interrupt, the Journal record freed, and the position
retired. A privileged entry completes in place too. OLDEST advances past the entry at once, also while its completion half is held or its
ring's translation is walked for (DESIGN CHOICE, log entry 132). -/
def State.complete (s : State) (op : Op) (st : Status) (count : Nat := 0) (result : Nat := 0) (aux : Nat := 0)
    (abandoned : Bool := false) : State :=
  let st := if st = .ok then s.servedAs op count else st
  let bs := cplHalf op st count result aux s.stamp abandoned
  let s := { s with ops := s.ops.filter fun o => o.ref != op.ref }
  let s := s.freeJrec op.jrec
  let s := s.count op.ref.fn 0x10 op.ref.q
  let s := if st = .ok then s else s.count op.ref.fn 0x11 op.ref.q
  let s := if op.d.opcode = 0x20 then s.collCount op.ref.fn (st == .ok) else s
  (s.postCpl { ref := op.ref, bytes := bs, irq := op.d.irq }).retirePos op.ref

/-- The operation of a reference. -/
def State.op (s : State) (r : OpRef) : Option Op := s.ops.find? fun o => o.ref == r

/-- Rewrites an operation. -/
def State.updOp (s : State) (r : OpRef) (f : Op → Op) : State :=
  { s with ops := s.ops.map fun o => if o.ref = r then f o else o }

/-- Completes the operation of a reference, if it is there. -/
def State.completeRef (s : State) (r : OpRef) (st : Status) (count : Nat := 0) (result : Nat := 0) (aux : Nat := 0)
    (abandoned : Bool := false) : State :=
  match s.op r with
  | some o => s.complete o st count result aux abandoned
  | none => s

/-- Shows how many operations of a function are parked (Table 3.21). -/
def State.showParked (s : State) (fn : Nat) : State :=
  s.setFld F.xlfFbStatusParked
    (s.ops.filter fun o => o.ref.fn == fn && (match o.phase with | .parked _ => true | _ => false)).length fn

/-! ### Start (R128) -/

/-- Whether the state of the device lets an operation run: in DRAIN only one that has been admitted (R457), and none in FAULT (R455). -/
def State.workOpen (s : State) (o : Op) : Bool :=
  match s.dev.state with
  | .equalShare => true
  | .service => true
  | .drain => o.jrec.isSome
  | _ => false

/-- Whether the descriptors of a function are worked on: none is while it is in a reset or WEDGED (R115, R138). -/
def State.fnRuns (s : State) (fn : Nat) : Bool := (s.fn fn).state == .active || (s.fn fn).state == .orphaned

/-- Whether an operation may start now: its function runs, in position order within its queue, with FENCE only after every earlier entry
has completed, and not past a FENCE_HOST that has not completed (R110, R128). An armed second entry starts on its own. -/
def State.mayStart (s : State) (o : Op) : Bool :=
  let q := s.queue o.ref.fn o.ref.q
  let earlier := s.ops.filter fun x =>
    x.ref.fn == o.ref.fn && x.ref.q == o.ref.q && decide (subMod 32 x.ref.pos q.oldest < subMod 32 o.ref.pos q.oldest)
  o.phase == .ready && s.fnRuns o.ref.fn && s.workOpen o &&
    (o.triggered || earlier.all fun x => x.phase == .armed || x.started) &&
    (!o.d.fence || q.oldest == o.ref.pos) &&
    (earlier.all fun x => x.d.opcode != 0x05)

/-- The 2 MiB segments of a buffer (R90). -/
def segments (a len : Nat) : Nat := if len = 0 then 0 else (a + (len - 1)) / pageSize - a / pageSize + 1

/-- The Journal record of an operation when it is admitted (R175, R446, R447): from the emptiest slice, or from the
pipeline of its QP. -/
def Op.jrecOf (o : Op) (role target : Nat) : JRec :=
  { role := role, nunits := if role = 2 then segments o.d.laddr o.d.len % 65536 else 0, lkind := o.d.lkind, opcode := o.d.opcode, fn := o.ref.fn, qp := if role = 0 then o.d.qp else 0,
    target := target, loc := o.d.laddr, len := o.d.len, rkey := o.d.rkey, pos := o.ref.pos, queue := o.ref.q,
    notify := o.d.notify, nonIdem := [0x12, 0x14, 0x15, 0x16].contains o.d.opcode || (o.d.opcode == 0x18 && tsNeedsW o.d.var) }

/-- Gives an operation its Journal record; none when no record is free (R175). -/
def State.admitOp (s : State) (o : Op) (slice role target : Nat) : Option (Op × State) :=
  if o.jrec.isSome then some (o, s)
  else
    match s.takeRec slice (o.jrecOf role target) with
    | none => none
    | some (i, t) =>
      let o' := { o with jrec := some i }
      some (o', t.updOp o.ref fun _ => o')

/-! ### Fetch (R120, R125, R131 to R134) -/

/-- An operation for a relaxed QP that fails a check of dispatch: it is kept with its queue until a later operation of the queue on that
QP is started, so that the notify write of its batch is not sent (R150). -/
def State.noteFailed (s : State) (o : Op) (st : Status) : State :=
  let fn := o.ref.fn
  let y := s.qp o.d.qp
  let onQp := o.d.opcode == 0x12 || (remoteOp o.d.opcode && s.keyTarget fn o.d.qp o.d.rkey != .owned)
  if onQp ∧ s.ownsQp fn o.d.qp ∧ y.up ∧ y.relaxed then
    let x := s.queue fn o.ref.q
    s.setQueue fn o.ref.q { x with failed := x.failed ++ [(o.ref.pos, o.d.qp, y.conn, o.d.notify || o.d.opcode != 0x10, st)] }
  else s

/-- The checks of Table 5.5 on an entry just dispatched; a failing ARM takes its second entry along (R155), and a failing second entry
leaves its ARM alone: its error completes its own descriptor only (R137). -/
def State.dispatchCheck (s : State) (fn q pos : Nat) (o : Op) : State :=
  match s.descCheck fn o.d with
  | some st =>
    let s := (s.noteFailed o st).complete o st
    let prev : OpRef := { fn := fn, q := q, pos := subMod 32 pos 1 }
    let s := if o.phase = .armed then
        { s with ops := s.ops.map fun (x : Op) => if x.ref = prev then { x with alone := true } else x }
      else s
    if o.d.opcode = 0x30 then s.setQueue fn q { s.queue fn q with armFail := some ((pos + 1) % 2 ^ 32, st) } else s
  | none => s

/-- Dispatches an entry: the checks of Table 5.5, then to its engine, or completed with the status of the check that
failed. The entry after an ARM is armed, and shares the failure of its ARM (R133, R155). -/
def State.dispatch (s : State) (fn q pos : Nat) (d : Desc) : State :=
  let r : OpRef := { fn := fn, q := q, pos := pos }
  let prev : OpRef := { fn := fn, q := q, pos := subMod 32 pos 1 }
  let second := (s.op prev).any fun o => o.d.opcode == 0x30 && o.phase == .ready
  let o : Op := { ref := r, d := d, phase := if second then .armed else .ready }
  let s := { s with ops := s.ops ++ [o] }
  let x := s.queue fn q
  match x.armFail with
  | some (p, st) =>
    if p = pos then (s.setQueue fn q { x with armFail := none }).complete o st
    else s.dispatchCheck fn q pos o
  | none => s.dispatchCheck fn q pos o

/-- Whether the entry at a position may be fetched (R120); none is kept that lies behind a FENCE_HOST (R110). -/
def State.fetchable (s : State) (fn q pos : Nat) : Bool :=
  decide (subMod 32 pos (s.queue fn q).oldest < s.ringSize fn q) &&
    !s.ops.any fun o => o.ref.fn == fn && o.ref.q == q && o.d.opcode == 0x05

/-- Takes the entries that a ring read returned from the fetch position on: posted ones with OWN 1 are dispatched, one
with OWN 0 below TAIL is read again later, and one at TAIL or beyond stops the prefetch (R131, R132). -/
def State.takeEntries (s : State) (fn q : Nat) : List (List Byte) → State
  | [] => s
  | e :: es =>
    let x := s.queue fn q
    let pos := x.fetch
    let d := Desc.ofBytes e
    let below := subMod 32 pos x.oldest < subMod 32 x.tail x.oldest
    if !s.fetchable fn q pos then s
    else if d.own then
      let y := if below then x else x.pass ((pos + 1) % 2 ^ 32) s.nowNs
      let t := s.setQueue fn q { y with fetch := (pos + 1) % 2 ^ 32, tries := 0, prefetchStop := false }
      (t.dispatch fn q pos d).takeEntries fn q es
    else if below then s.setQueue fn q { x with tries := x.tries + 1 }
    else s.setQueue fn q { x with prefetchStop := true }

/-- The bytes of the next n entries of a ring in HBM. -/
def State.hbmEntries (s : State) (fn q n : Nat) : List (List Byte) :=
  (List.range n).map fun i =>
    s.hbmRead (s.entryAddr fn q ((s.queue fn q).fetch + i) % 2 ^ 44) 64

/-- Key of a slot of the privileged descriptor cache (R134). -/
def dcKey (q slot : Nat) : Nat := q * 256 + slot % 256

/-- Whether the slot of a position of a privileged queue is one of an invalidation in progress (R135). -/
def State.slotBlocked (s : State) (fn q pos : Nat) : Bool :=
  match s.qinval with
  | none => false
  | some (.slot a b) => a == q && b == pos % s.ringSize fn q
  | some (.queue a) => a == q
  | some .all => true

/-- Executes a privileged entry from its cached copy, reading it from memory first where there is none (R134, R135):
OWN is not examined. -/
def State.takePriv (s : State) (fn q : Nat) : List (List Byte) → State
  | [] => s
  | e :: es =>
    let x := s.queue fn q
    let pos := x.fetch
    let slot := pos % s.ringSize fn q
    if !s.fetchable fn q pos ∨ s.slotBlocked fn q pos ∨ subMod 32 x.tail x.oldest ≤ subMod 32 pos x.oldest then s
    else
      let copy := (AMap.find s.dcache (dcKey q slot)).getD e
      let t := { s with dcache := AMap.put s.dcache (dcKey q slot) copy }
      let t := t.setQueue fn q { x with fetch := (pos + 1) % 2 ^ 32, tries := 0 }
      (t.dispatch fn q pos (Desc.ofBytes copy)).takePriv fn q es

/-- Whether a queue is fetched: its function is not in a reset, and it is enabled, not held, and not stopped (R131, R137, R138,
Table 4.13). -/
def State.fetching (s : State) (fn q : Nat) : Bool :=
  let x := s.queue fn q
  s.fnRuns fn && (x.state == .active || x.state == .parked) && !s.flag F.qfStatusStalled (qObj fn q) &&
    (s.ringInHbm fn q || s.hostOpen fn)

end Machine
end Sys2Proof
end

