-- ==== Sys2Proof/Machine/Shaping.lean ====
section
/-! DEFINITION. Shapers, meters and rate control (chapter 8), as the operations that transport and the refill tick use. -/

namespace Sys2Proof
namespace Machine

/-- Object number of a shaper among the CC.SHP_* registers and in the map: KIND and INDEX of CC.SHP_SEL. -/
def shpObj (fnKind : Bool) (i : Nat) : Nat := if fnKind then 2 ^ 20 + i else i

/-- A shaper. -/
def State.shaper (s : State) (o : Nat) : Shaper := AMap.look {} s.cc.shapers o

/-- Writes a shaper. -/
def State.setShaper (s : State) (o : Nat) (x : Shaper) : State :=
  { s with cc := { s.cc with shapers := AMap.save {} s.cc.shapers o x } }

/-- BURST of a field value: units of 256 B, at least 0x20 of them (Table 8.5). -/
def burstBytes (v : Nat) : Nat := max 0x20 v * 256

/-- Limits a credit to plus or minus a burst, both in 1/8 byte. -/
def clipCredit (c : Int) (burst : Nat) : Int :=
  let b := (burst * 8 : Nat)
  if c < -(b : Int) then -(b : Int) else if (b : Int) < c then b else c

/-- Steps 1 to 3 of a refill tick of a shaper (Table 8.2). -/
def Shaper.settle (x : Shaper) (ceil burst rate : Nat) : Shaper :=
  let c := clipCredit x.credit burst
  { ceil := ceil, burst := burst, rate := rate, credit := if x.clear ∧ c < 0 then 0 else c, clear := false }

/-- One refill tick of a shaper (Table 8.2). -/
def Shaper.refill (x : Shaper) (ceil burst rate : Nat) : Shaper :=
  let y := x.settle ceil burst rate
  { y with credit := clipCredit (y.credit + rate) burst }

/-- Whether a shaper lets a charge pass: the credit less the charge is not below −BURST (R224). -/
def Shaper.allows (x : Shaper) (bytes : Nat) : Bool :=
  decide (-((x.burst * 8 : Nat) : Int) ≤ x.credit - ((bytes * 8 : Nat) : Int))

/-- Charges a shaper. -/
def Shaper.charge (x : Shaper) (bytes : Nat) : Shaper := { x with credit := x.credit - ((bytes * 8 : Nat) : Int) }

/-- Object number of a meter. -/
def mtrObj (fn kind : Nat) : Nat := fn * 2 + kind

/-- A meter. -/
def State.meter (s : State) (fn kind : Nat) : Meter := AMap.look {} s.cc.meters (mtrObj fn kind)

/-- Colours of RFC 4115. -/
inductive Colour where
  | green | yellow | red
  deriving DecidableEq, Repr

/-- A colour of a two-bit register field (Table 8.5). -/
def colourOf (n : Nat) : Colour := match n with | 1 => .yellow | 2 => .red | _ => .green

/-- Colours a quantity of bytes and charges the buckets (Table 8.4). -/
def Meter.colour (m : Meter) (pre : Colour) (bytes : Nat) : Colour × Meter :=
  let p := if m.aware then pre else .green
  let n := bytes * 8
  match p with
  | .green =>
    if n ≤ m.tc then (.green, { m with tc := m.tc - n })
    else if n ≤ m.te then (.yellow, { m with te := m.te - n })
    else (.red, m)
  | .yellow => if n ≤ m.te then (.yellow, { m with te := m.te - n }) else (.red, m)
  | .red => (.red, m)

/-- Colours a quantity by a function's meter, counting the item; a disabled meter colours green and counts nothing
charged (R237). -/
def State.police (s : State) (fn kind : Nat) (pre : Colour) (bytes : Nat) : Colour × State :=
  let m := s.meter fn kind
  let o := mtrObj fn kind
  if !m.enable then (.green, s.countSat F.ccMtrGreenPkts o)
  else
    let (c, m') := m.colour pre bytes
    let s := { s with cc := { s.cc with meters := AMap.save {} s.cc.meters o m' } }
    (c, match c with
      | .green => s.countSat F.ccMtrGreenPkts o
      | .yellow => s.countSat F.ccMtrYellowPkts o
      | .red => s.countSat F.ccMtrRedPkts o)

/-- Rate-control state of a QP. -/
def State.rateCtl (s : State) (q : Nat) : RateCtl := AMap.look {} s.cc.rate q

/-- Writes it. -/
def State.setRate (s : State) (q : Nat) (x : RateCtl) : State :=
  { s with cc := { s.cc with rate := AMap.save {} s.cc.rate q x } }

/-- CEIL of a QP's shaper in force. -/
def State.qpCeil (s : State) (q : Nat) : Nat := (s.shaper (shpObj false q)).ceil

/-- RC held in its range (R218). -/
def clampRc (rc rmin ceil : Nat) : Nat := min ceil (max (min rmin ceil) rc)

/-- What the registers of a QP's profile hold now of what governs it. -/
def State.readProf (s : State) (q : Nat) : Prof :=
  let p := (s.qp q).profile
  { rmin := s.fld F.ccProfRateRMin p, ecnEn := s.flag F.ccProfCtrlEcnEn p, rttEn := s.flag F.ccProfCtrlRttEn p,
    rttHigh := s.fld F.ccProfRttRttHigh p, overhead := s.fld F.ccProfCtrlOverhead p, cls := s.fld F.ccProfCtrlClass p }

/-- The profile that governs a QP: of a connected one as its last epoch end read it (R221). -/
def State.prof (s : State) (q : Nat) : Prof := if (s.qp q).up then (s.rateCtl q).prof else s.readProf q

/-- Refill ticks of an epoch of a QP that starts now (R219). -/
def State.epochTicks (s : State) (q : Nat) : Nat := 8 * max 1 (s.fld F.ccProfTimeTEpoch (s.qp q).profile)

/-- Rate control and credit at the entry to QP_CONNECTED (R218, R228), by the CEIL and BURST in force: what has been written since the last
refill tick takes effect at the next (R226). -/
def State.startRate (s : State) (q : Nat) : State :=
  let p := (s.qp q).profile
  let x := s.shaper (shpObj false q)
  let ceil := x.ceil
  let init := s.fld F.ccProfRateInit p
  let rc := if init = 0 ∨ ceil < init then ceil else init
  let prof := s.readProf q
  let s := s.setRate q { rc := clampRc rc prof.rmin ceil, prof := prof, timer := s.epochTicks q }
  s.setShaper (shpObj false q) { x with credit := ((x.burst * 8 : Nat) : Int) }

/-- Counts an acknowledgement event and a congestion mark of a QP (Table 8.1): toward the next epoch once the refill tick has come at which
this one ends (R220). -/
def State.rateEvent (s : State) (q : Nat) (ack mark : Bool) : State :=
  let x := s.rateCtl q
  if x.timer = 0 then s.setRate q { x with aNext := satAdd 65535 x.aNext (b2n ack), mNext := satAdd 65535 x.mNext (b2n mark) }
  else s.setRate q { x with a := satAdd 65535 x.a (b2n ack), m := satAdd 65535 x.m (b2n mark) }

/-- The end of a QP's epoch (Table 8.8, R221). -/
def State.epochEnd (s : State) (q : Nat) : State :=
  let x := s.rateCtl q
  let p := (s.qp q).profile
  let ceil := s.qpCeil q
  let prof := s.readProf q
  let rmin := prof.rmin
  let inBand : Bool := match x.rtt with
    | some r => decide (s.fld F.ccProfRttRttLow p ≤ r) && decide (r < prof.rttHigh)
    | none => false
  let y :=
    if x.a = 0 then x
    else if 0 < x.m then
      { x with rc := clampRc (x.rc - x.rc * min x.m x.a * s.fld F.ccProfCtrlDec p / (x.a * 256)) rmin ceil,
               grow := 0, hold := s.fld F.ccProfTimeHold p }
    else if 0 < x.hold then { x with hold := x.hold - 1 }
    else if prof.rttEn && inBand then x
    else
      let g := min (x.grow + 1) (max 1 (s.fld F.ccProfCtrlGrowMax p))
      { x with grow := g, rc := clampRc (x.rc + g * s.fld F.ccProfRateRStep p) rmin ceil }
  s.setRate q { y with m := x.mNext, a := x.aNext, mNext := 0, aNext := 0, rtt := x.rttNext, rttNext := none, prof := prof, timer := s.epochTicks q }

end Machine
end Sys2Proof
end

