-- ==== Sys2Proof/Machine/LocalData.lean ====
section
/-! DEFINITION. How an engine reaches the local buffers of an operation (R55, R90, R91, R104): host reads under tags, parking on
page faults, and writes to a local buffer. -/

namespace Sys2Proof
namespace Machine

/-! ### Host tags (R104, R114) -/

/-- Tags a link may have outstanding (Table 4.1). -/
def State.tagLimit (s : State) (l : LinkId) : Nat :=
  if s.flag F.hpLinkStatusFlit l.port (b2n l.sub) then (if s.bifurcated l.port then 2048 else 4096) else 768

/-- A tag of the link that is not in use. -/
def State.freeTag (s : State) (l : LinkId) : Option Nat :=
  let used := (s.tags.filter fun t => t.port == l.port && t.sub == l.sub).map (·.tag)
  if s.tagLimit l ≤ used.length then none
  else (List.range (used.length + 1)).find? fun i => !used.contains i

/-- Issues a non-posted read of the host under a tag; none while no tag is free. -/
def State.sendRead (s : State) (fn : Nat) (h : HeldRead) (use : TagUse) : Option State :=
  let l := s.linkOf fn
  match s.freeTag l with
  | none => none
  | some i =>
    let t : Tag := { port := l.port, sub := l.sub, tag := i, fn := fn, use := use, via := h.via }
    some (({ s with tags := s.tags ++ [t] }).emit (.hostRead fn i h.addr h.len h.noSnoop))

/-- Puts down the held reads of a function. -/
def State.setHeld (s : State) (fn : Nat) (hs : List HeldRead) : State :=
  { s with heldReads := if hs.isEmpty then AMap.drop s.heldReads fn else AMap.put s.heldReads fn hs }

/-- Takes a read past a function's host-port meter (R232, R236): it may be issued, or it is held, where the meter colours it red or an
earlier one is held. -/
def State.meterRead (s : State) (fn : Nat) (h : HeldRead) : State × Bool :=
  let held := AMap.look [] s.heldReads fn
  let hold := fun (s : State) => s.setHeld fn (held ++ [h])
  if !held.isEmpty then (hold s, false)
  else
    let (c, t) := s.police fn 0 .green h.len
    if c = .red then (hold t, false) else (t, true)

/-- Issues a read of the host for an operation through a translation; the read is held while the meter holds reads, or no tag is free
(R104, R236). -/
def State.issueRead (s : State) (e : TlbEntry) (addr len : Nat) (ns : Bool) (use : TagUse) : State :=
  let h : HeldRead := { addr := addr, len := len, noSnoop := ns, use := .op use, via := some e }
  match s.meterRead e.fn h with
  | (t, true) => (t.sendRead e.fn h use).getD (t.setHeld e.fn (AMap.look [] t.heldReads e.fn ++ [{ h with paid := true }]))
  | (t, false) => t

/-- Whether the host-port meter holds a read of a function for a use. -/
def State.heldFor (s : State) (fn : Nat) (u : HeldUse) : Bool := (AMap.look [] s.heldReads fn).any fun h => h.use == u

/-- A walk starts: its context is that of now (R84), and a walk of host tables sends its first read. One whose context does not allow it
reads nothing, and ends with the status that says so (R89). -/
def State.walkStarts (s : State) (fn page : Nat) : State :=
  match s.walks.find? fun k => k.fn == fn && k.page == page && !k.started with
  | none => s
  | some k =>
    let ha := page * 4096
    let (ls, table) := if (s.haCheck fn ha).isSome then ([], 0) else s.walkFrom fn ha
    let w := { k with started := true, hbm := s.tablesInHbm fn, levels := ls, table := table, refused := s.haCheck fn ha, sent := 1 }
    let s := { s with walks := s.walks.map fun x => if x = k then w else x }
    let s := s.count fn 0x31 0
    if w.hbm ∨ ls.isEmpty then s else s.emit (.tableRead fn (pteAddr table (ls.headD 0) ha))

/-- Whether one more walk of a function may be in flight (R85). -/
def State.walkRoom (s : State) (fn : Nat) : Bool :=
  let going := s.walks.filter (·.started)
  decide (going.length < 128) && decide ((going.filter fun k => k.fn == fn).length < 16)

/-- Starts a walk that waits, where there is room for it and its tables may be read; the reads of host tables pass the function's host-port
meter, and wait behind those that it holds (R232, R236). -/
def State.startWalk (s : State) (k : Walk) : State :=
  if !s.walkRoom k.fn ∨ s.heldFor k.fn (.table k.page) then s
  else if s.tablesInHbm k.fn ∨ (s.haCheck k.fn (k.page * 4096)).isSome then s.walkStarts k.fn k.page
  else if !s.hostOpen k.fn then s
  else
    match s.meterRead k.fn { addr := 0, len := 8, noSnoop := false, use := .table k.page } with
    | (t, true) => t.walkStarts k.fn k.page
    | (t, false) => t

/-- Starts the walks that wait and may start, oldest first. -/
def State.startWalks (s : State) : State :=
  s.walks.foldl (fun t k => if k.started then t else t.startWalk k) s

/-- What a walk of host tables comes to with the entries that its end has brought. -/
def State.walked (s : State) (k : Walk) : Walked := s.walkLevels k.fn (k.page * 4096) k.hbm k.levels k.table k.words

/-- Rewrites the walk of a page that is in flight. -/
def State.updWalk (s : State) (fn page : Nat) (f : Walk → Walk) : State :=
  { s with walks := s.walks.map fun k => if k.fn = fn ∧ k.page = page ∧ k.started then f k else k }

/-- Whether every read of a walk has left. -/
def State.walkSent (s : State) (k : Walk) : Bool := k.hbm || k.levels.isEmpty || decide ((s.walked k).reads.length ≤ k.sent)

/-- The next read of a walk of host tables leaves (R81). -/
def State.walkRead (s : State) (fn page : Nat) : State :=
  match s.walks.find? fun k => k.fn == fn && k.page == page && k.started && k.ended with
  | some k => (s.emit (.tableRead fn ((s.walked k).reads.getD k.sent 0))).updWalk fn page fun k => { k with sent := k.sent + 1 }
  | none => s

/-- The reads of a walk of host tables after its first leave, at most n: each passes the function's host-port meter, and waits behind the
reads that it holds (R232, R236). -/
def State.walkReads (s : State) (fn page : Nat) : Nat → State
  | 0 => s
  | n + 1 =>
    match s.walks.find? fun k => k.fn == fn && k.page == page && k.started && k.ended with
    | none => s
    | some k =>
      if s.walkSent k ∨ s.heldFor fn (.table page) then s
      else
        match s.meterRead fn { addr := 0, len := 8, noSnoop := false, use := .table page } with
        | (t, true) => (t.walkRead fn page).walkReads fn page n
        | (t, false) => t

/-- The read of a walk that its meter held may leave: it is the walk's first, or a later one, and the walk goes on. -/
def State.walkReleased (s : State) (fn page : Nat) : State :=
  if s.walks.any fun k => k.fn == fn && k.page == page && k.started && k.ended then (s.walkRead fn page).walkReads fn page 5
  else s.walkStarts fn page

/-- Issues the held reads of a function, from the oldest on, at most n, while its meter does not colour them red and there is a tag. -/
def State.releaseReads (s : State) (fn : Nat) : Nat → State
  | 0 => s
  | n + 1 =>
    match AMap.look [] s.heldReads fn with
    | [] => s
    | h :: hs =>
      let (c, t) := if h.paid then (Colour.green, s) else s.police fn 0 .green h.len
      if c = .red then t
      else
        match h.use with
        | .op u =>
          (match (t.setHeld fn hs).sendRead fn h u with
           | some u => u.releaseReads fn n
           | none => t.setHeld fn ({ h with paid := true } :: hs))
        | .table page => ((t.setHeld fn hs).walkReleased fn page).releaseReads fn n
        | .ring q =>
          let t := t.setHeld fn hs
          (if (t.queue fn q).state = .off then t else t.setQueue fn q { t.queue fn q with granted := true }).releaseReads fn n

/-- Issues the reads of a link that waited for a tag, and what stands behind them. -/
def State.tagsFreed (s : State) (l : LinkId) : State :=
  s.heldReads.foldl (fun t e =>
    if s.linkOf e.1 = l ∧ (e.2.head?.any fun h => h.paid) ∧ t.hostOpen e.1 then t.releaseReads e.1 (e.2.length + 8) else t) s

/-- The operation a tag belongs to. -/
def TagUse.owner : TagUse → OpRef
  | .data r _ _ => r
  | .flush r => r

/-- Tags of an operation whose completions are still awaited. -/
def State.tagsOf (s : State) (r : OpRef) : List Tag :=
  s.tags.filter fun t => t.use.owner == r && !t.dead && !t.timedOut

/-- Whether a held read is one of an operation. -/
def HeldUse.isOf (u : HeldUse) (r : OpRef) : Bool :=
  match u with
  | .op u => u.owner == r
  | _ => false

/-- Reads of an operation that are held. -/
def State.heldOf (s : State) (r : OpRef) : List HeldRead :=
  (AMap.look [] s.heldReads r.fn).filter fun h => h.use.isOf r

/-- Marks the tags that meet a test so that their completions are discarded. -/
def State.killTags (s : State) (p : Tag → Bool) : State :=
  { s with tags := s.tags.map fun (t : Tag) => if p t then { t with dead := true } else t }

/-! ### Parking (R89 to R91) -/

/-- Whether a descriptor is one of the host-port DMA engine: the local operations of Table 5.3, and a STEP_LOAD or STEP_START, whose
source that engine reads (R332). -/
def Desc.dma (d : Desc) : Bool := decide (d.opcode < 0x10) || d.opcode == 0x28 || d.opcode == 0x29

/-- The engine and source number of an operation's faults (Table 3.15): DMA operations by queue, transport by QP. A COLL is named as the
transport requester's, with the QP field of the descriptor (DESIGN CHOICE, log entry 116). -/
def Op.engine (o : Op) : XlEngine × Nat :=
  if o.d.dma then (.hostDma, o.ref.q) else (.requester, o.d.qp)

/-- The engine that translates for an operation: that of its host port, or the pipeline in whose Journal slice it is recorded. -/
def State.opEng (s : State) (o : Op) : Engine :=
  { fn := o.ref.fn, loc := if o.d.dma then .dma (s.linkOf o.ref.fn).port else .pipe (sliceOf (o.jrec.getD 0)), xl := o.xl }

/-- The engine that places what a QP receives in a function's buffers. -/
def State.recvEng (s : State) (fn q : Nat) : Engine := { fn := fn, loc := .pipe (q % 4), xl := (s.qp q).xl }

/-- The address of the buffer that an operation reads, or of the one that it writes. -/
def Op.buffer (o : Op) (write : Bool) : Nat :=
  if write ∧ (o.d.opcode = 0x01 ∨ o.d.opcode = 0x0A ∨ o.d.opcode = 0x0B) then o.d.opx else o.d.laddr

/-- Bytes of an element of the input and of the output array of a conversion (R73). -/
def cvtSizes (opcode : Nat) : Nat × Nat := if opcode = 0x0A then (8, 16) else (16, 8)

/-- Bytes of that buffer that an operation has done with. -/
def Op.bytesDone (o : Op) (write : Bool) (seg : Nat) : Nat :=
  if o.d.opcode = 0x0A ∨ o.d.opcode = 0x0B then (if write then (cvtSizes o.d.opcode).2 else (cvtSizes o.d.opcode).1) * seg else seg

/-- An operation waits for the walk of a page. -/
def State.opWalks (s : State) (o : Op) (ha : Nat) (acc : Access) : State :=
  (s.wantWalk o.ref.fn ha { who := .op o.ref, acc := acc, loc := (s.opEng o).loc }).updOp o.ref fun y => { y with phase := .walking ha }

/-- Puts an operation back where it waits to be started. -/
def State.holdOp (s : State) (r : OpRef) : State := s.updOp r fun y => { y with phase := .ready, buf := [], xl := [] }

/-- Whether no older descriptor of an operation's queue has started. -/
def State.oldestStarted (s : State) (o : Op) : Bool :=
  let old := (s.queue o.ref.fn o.ref.q).oldest
  !s.ops.any fun x => x.ref.fn == o.ref.fn && x.ref.q == o.ref.q && x.started && decide (subMod 32 x.ref.pos old < subMod 32 o.ref.pos old)

/-- An operation goes behind those that have parked before it: the list of operations has the parked ones in the order in which they
parked (R95). -/
def State.parkLast (s : State) (r : OpRef) : State :=
  { s with ops := s.ops.filter (fun o => o.ref != r) ++ s.ops.filter fun o => o.ref == r }

/-- Parks an operation on the faults of a segment, recording each page (R90, R91); the translations that it holds are given up. The queue
is shown as parked where its oldest started descriptor is (Table 5.11). -/
def State.park (s : State) (o : Op) (seg : Nat) (pages : List (Nat × Nat)) (write : Bool) : State :=
  let (eng, src) := o.engine
  let s := s.updOp o.ref fun x => { x with phase := .parked .silent, seg := seg, buf := [], xl := [] }
  let base := o.buffer write
  let s := s.updJrec o.jrec fun j => { j with state := .parked, parked := true, resume := (base + o.bytesDone write seg) / pageSize - base / pageSize }
  let x := s.queue o.ref.fn o.ref.q
  let s := if s.oldestStarted o ∧ x.state = .active then s.setQueue o.ref.fn o.ref.q { x with state := .parked } else s
  let s := pages.foldl (fun t p => t.recordFault o.ref.fn { ref := some o.ref, eng := eng, source := src, jrec := o.jrec.getD 0xFFFFFFFF,
                                                            page := p.1, reason := p.2, write := write || p.2 == 2 }) (s.parkLast o.ref)
  s.showParked o.ref.fn

/-- Whether an operation of the transport requester is one on a QP. -/
def State.onQp (s : State) (o : Op) : Bool := o.d.opcode == 0x12 || (remoteOp o.d.opcode && s.keyTarget o.ref.fn o.d.qp o.d.rkey != .owned)

/-- The place of an operation among those that its QP has admitted. -/
def Qp.placeOf (x : Qp) (r : OpRef) : Option Nat := x.ops.findIdx? fun t => t.owner == .queue r && !t.ended

/-- Whether an operation is parked. -/
def Op.isParked (o : Op) : Bool :=
  match o.phase with
  | .parked _ => true
  | _ => false

/-- Whether a descriptor of the host-port DMA engine that stands earlier in the same queue is parked: every later descriptor of the queue is
parked behind it (Table 3.14). -/
def State.behindQueue (s : State) (o : Op) : Bool :=
  let old := (s.queue o.ref.fn o.ref.q).oldest
  s.ops.any fun x => x.isParked && x.d.dma && x.ref.fn == o.ref.fn && x.ref.q == o.ref.q &&
    decide (subMod 32 x.ref.pos old < subMod 32 o.ref.pos old)

/-- Whether an earlier descriptor of the same queue (DMA), or an earlier operation of the same strict QP whatever its queue (transport), is
parked (Table 3.14). -/
def State.behindParked (s : State) (o : Op) : Bool :=
  s.behindQueue o || s.ops.any fun x =>
    x.isParked && x.ref != o.ref &&
      (!o.d.dma && s.onQp o && s.onQp x && x.d.qp == o.d.qp && !(s.qp o.d.qp).relaxed &&
          (match (s.qp o.d.qp).placeOf x.ref, (s.qp o.d.qp).placeOf o.ref with
           | some i, some j => decide (i < j)
           | none, some _ => false
           | _, none => true))

/-- Parks an operation behind a parked one, without an entry. -/
def State.parkBehind (s : State) (o : Op) : State :=
  ((s.updOp o.ref fun x => { x with phase := .parked .behind, xl := [] }).parkLast o.ref).showParked o.ref.fn

/-! ### Reading a local buffer -/

/-- The bytes of an aligned 8-byte read of the turnstile space (R50): a value, or an owner field. -/
def State.tsWord (s : State) (off : Nat) : List Byte :=
  leBytes (if off % 16 = 8 then (s.turn (off / 16)).ownerField else (s.turn (off / 16)).value) 8

/-- Outcome of the wish to have bytes of a local buffer. -/
inductive Gather where
  /-- The bytes are at hand. -/
  | data (s : State) (bs : List Byte)
  /-- Reads of the host have been issued; what is already at hand is kept with the operation. -/
  | reads (s : State)
  /-- The function may not read its host now, or HBM holds accesses to the buffer: nothing has happened. -/
  | wait
  deriving DecidableEq, Repr

/-- Reads one piece of a buffer in one page: from HBM into the operation's buffer, or by host reads under tags, each of at most
Max_Read_Request_Size (R100). -/
def State.gatherPiece (g : Engine) (r : OpRef) (base : Nat) (acc : Option State) (p : Nat × Nat) : Option State :=
  match acc with
  | none => none
  | some s =>
    match s.xlated g p.1 .read with
    | .ok e =>
      let s := s.xlUse g e
      if e.hbm then
        let s := s.countLines 0x50 (e.at p.1 % 2 ^ 44) p.2
        some (s.updOp r fun o => { o with buf := AMap.put o.buf (p.1 - base) (s.hbmRead (e.at p.1 % 2 ^ 44) p.2) })
      else some ((sizedPieces (s.maxRead g.fn) 0 p.2).foldl (fun t c =>
        t.issueRead e (e.at p.1 + c.1) c.2 (s.noSnoop e) (.data r (p.1 - base + c.1) c.2)) s)
    | _ => none

/-- Counts the lines of a buffer of host addresses that lies in HBM (Table 20.10). -/
def State.countHa (s : State) (g : Engine) (ha len : Nat) : State :=
  (pieces ha len).foldl (fun t p =>
    match t.xlated g p.1 .read with
    | .ok e => (t.xlUse g e).countLines 0x50 (e.at p.1 % 2 ^ 44) p.2
    | _ => t) s

/-- Whether new accesses to a local buffer wait, as far as it lies in HBM (R396, R397, R410). -/
def State.bufBusy (s : State) (g : Engine) (kind : Bool) (addr len : Nat) (acc : Access) : Bool :=
  if kind then fgaSpace addr == 0 && s.hbmBusy (fgaOff addr) len
  else s.hbmHolding && (pieces addr len).any fun p =>
    match s.xlated g p.1 acc with
    | .ok e => e.hbm && s.hbmBusy (e.at p.1 % 2 ^ 44) p.2
    | _ => false

/-- Reads len bytes of a local buffer that translates throughout; offsets in the operation's buffer count from base. A read of registers
is performed at the end of the command (log entry 111). -/
def State.gather (s : State) (o : Op) (kind : Bool) (addr len : Nat) : Gather :=
  if s.bufBusy (s.opEng o) kind addr len .read then .wait
  else if kind ∧ fgaSpace addr = 1 then .data s (s.tsWord (fgaOff addr))
  else if kind ∧ fgaSpace addr = 2 then
    .reads { (s.updOp o.ref fun x => { x with phase := .gather, buf := [] }) with dcsIn := s.dcsIn ++ [.fetch o.ref (fgaOff addr) len] }
  else if kind then .data ((s.ownUse o.ref.fn (s.opEng o).loc addr len).countLines 0x50 (fgaOff addr) len) (s.hbmRead (fgaOff addr) len)
  else
    let g := s.opEng o
    match s.haReadHbm g addr len with
    | some bs => .data ((s.countHa g addr len).countPages g addr len .read) bs
    | none =>
      if !s.hostOpen o.ref.fn then .wait
      else
        let held := s.holdRange g addr len .read
        match (pieces addr len).foldl (State.gatherPiece g o.ref addr) (some (s.updOp o.ref fun x => { x with buf := [] })) with
        | some t => .reads ((t.updOp o.ref fun x => { x with phase := .gather, xl := x.xl ++ held }).countPages g addr len .read)
        | none => .wait

/-- The bytes an operation has gathered, in order of their offsets. -/
def Op.bytes (o : Op) : List Byte := o.buf.foldr (fun e bs => e.2 ++ bs) []

/-- Writes bytes to a receive buffer of a kind: HBM, registers at the end of the command (log entry 111), or by host address; none where a
translation fails. -/
def State.putRecv (s : State) (g : Engine) (kind : Bool) (addr : Nat) (bs : List Byte) : Option State :=
  if kind ∧ fgaSpace addr = 2 then some { s with dcsIn := s.dcsIn ++ [.put g.fn (fgaOff addr) bs] }
  else if kind then some ((s.ownUse g.fn g.loc addr bs.length).hbmWrite (fgaOff addr) bs) else s.haWrite g addr bs (s.fn g.fn).relaxed

/-- Writes bytes to a local buffer, as a host-port DMA engine or a transport requester, whose accesses are counted (R98). -/
def State.putLocal (s : State) (g : Engine) (kind : Bool) (addr : Nat) (bs : List Byte) : Option State :=
  (s.putRecv g kind addr bs).map fun t => if kind then t else t.countPages g addr bs.length .write

/-- How far a local range of a kind may be used: its check of R55, or its translation. -/
def State.localRange (s : State) (g : Engine) (kind : Bool) (addr len : Nat) (acc : Access) : RangeRes :=
  if kind then (match s.bufferCheck g.fn addr len (acc != .read) with | some st => .err 0 st | none => .ok)
  else if len = 0 then .ok
  else s.range g addr len acc

/-- Bytes a range result leaves usable out of len. -/
def RangeRes.usable (r : RangeRes) (len : Nat) : Nat :=
  match r with
  | .ok => len
  | .walk d _ => d
  | .faults d _ => d
  | .err d _ => d

/-- Deals with a problem of a local range: a table to be read, a fault, or an error, told to k. -/
def State.meetRange (s : State) (o : Op) (res : RangeRes) (write : Bool) (k : State → Status → State) : State :=
  match res with
  | .ok => s
  | .walk _ ha => s.opWalks o ha (if write then .write else .read)
  | .faults _ pages => s.park o o.seg pages write
  | .err _ st => k s st

/-- Whether every page of a buffer of host addresses translates to HBM. -/
def State.allHbm (s : State) (g : Engine) (ha len : Nat) : Bool :=
  (pieces ha len).all fun p => match s.xlated g p.1 .write with
    | .ok e => e.hbm
    | _ => false

/-- Whether a local buffer may be written now: in host memory while the host may be reached (R112), in HBM while it holds no accesses to it. -/
def State.mayPut (s : State) (g : Engine) (kind : Bool) (addr len : Nat) : Bool :=
  (kind || s.hostOpen g.fn || s.allHbm g addr len) && !s.bufBusy g kind addr len .write

/-- Leaves a local buffer undefined, as far as it may be written: free bytes where that lies in HBM; a buffer in host memory is the
host's, and nothing is sent to it, nor to registers. -/
def State.leaveUnknown (s : State) (g : Engine) (kind : Bool) (addr len : Nat) : State :=
  let n := min len ((s.localRange g kind addr len .write).usable len)
  if n = 0 ∨ (kind ∧ fgaSpace addr ≠ 0) then s
  else if kind || s.allHbm g addr n then
    let t := { s with freeCount := s.freeCount + 1 }
    (t.putLocal g kind addr ((List.range n).map (Config.freeByte s.freeCount))).getD t
  else s

end Machine
end Sys2Proof
end

