-- ==== Sys2Proof/Machine/Flits.lean ====
section
/-! DEFINITION. What a Valir link carries (R244 to R248, R258): the codeword and its code, its symbols on the lanes, and the layouts of
link flits, packet headers and management bodies. -/

namespace Sys2Proof
namespace Machine

/-! ### The codeword (Table 9.2) and the lanes (R245) -/

/-- The 257 message symbols of five slots, VC and DMASK; DMASK has a bit for each slot. -/
def cwMessage (slots : List (List Byte)) (vc dmask : Nat) : List Nat :=
  let n := beAt slots.flatten 0 320
  ((List.range 256).map fun k => bits n (2559 - 10 * k) (2550 - 10 * k)) ++ [vc * 128 + dmask * 4]

/-- The bytes of slot i of a decoded codeword. -/
def cwSlot (w : List Nat) (i : Nat) : List Byte :=
  ((beBytes ((w.take 256).foldl (fun a x => a * 1024 + x) 0) 320).drop (64 * i)).take 64

/-- VC of a decoded codeword. -/
def cwVc (w : List Nat) : Nat := w.getD 256 0 / 128

/-- Whether slot i of a decoded codeword carries a data flit. -/
def cwData (w : List Nat) (i : Nat) : Bool := bit (w.getD 256 0) (2 + i)

/-- A codeword on the lanes in use: even-numbered symbols on lane A and odd-numbered ones on lane B, or all on the lane that is left. -/
def cwLanes (lanes : Nat) (w : List Nat) : List Nat × List Nat :=
  let e := w.zip (List.range w.length)
  if lanes % 4 = 3 then ((e.filter fun x => x.2 % 2 == 0).map (·.1), (e.filter fun x => x.2 % 2 == 1).map (·.1))
  else if lanes % 4 = 1 then (w, [])
  else ([], w)

/-- The symbols of two lanes in turn. -/
def interleave : List Nat → List Nat → List Nat
  | a :: as, b :: bs => a :: b :: interleave as bs
  | _, _ => []

/-- Whether a receiver can correct what it finds: a skew of at most 64 symbols between the lanes. -/
def laneOk (k : LaneLock) : Bool := decide (max k.lagA k.lagB - min k.lagA k.lagB ≤ 64)

/-- The codeword in what reaches the two lanes: polarity, skew and a reversal of the lanes corrected. -/
def cwReceived (k : LaneLock) (lanes : Nat) (c : List Nat × List Nat) : List Nat :=
  let turn := fun (inv : Bool) (x : List Nat) => if inv then x.map fun v => 1023 - v else x
  let a := turn k.invA (c.1.drop k.lagA)
  let b := turn k.invB (c.2.drop k.lagB)
  if lanes % 4 = 3 then (if k.swapped then interleave (b.take 136) (a.take 136) else interleave (a.take 136) (b.take 136))
  else if lanes % 4 = 1 then a.take 272
  else b.take 272

/-! ### Link flits (Tables 9.3 and 9.15) -/

/-- The 64 bytes of a link flit. -/
def flitBytes (f : LinkFlit) : List Byte :=
  beBytes f.ltype 1 ++ beBytes 0 1 ++ beBytes f.ack 2 ++ beBytes (if f.ltype = 1 ∨ f.ltype = 2 then f.req else 0) 2 ++
    beBytes (b2n f.ready + 2 * b2n f.img) 1 ++ beBytes 0 1 ++ ((List.range 8).map fun v => beBytes (f.credit.getD v 0) 2).flatten ++
    (if f.ltype = 3 then
       beBytes f.node 2 ++ beBytes f.link 1 ++ beBytes f.lanes 1 ++ beBytes f.topo 4 ++ beBytes f.ts 8 ++ beBytes f.echo 8 ++ beBytes 0 16
     else if f.ltype = 4 then beBytes f.secs 6 ++ beBytes f.ns 4 ++ beBytes (b2n f.sync) 1 ++ beBytes 0 29
     else beBytes 0 40)

/-- Reads a link flit. -/
def flitRead (b : List Byte) : LinkFlit :=
  { ltype := beAt b 0 1, ack := beAt b 2 2 % 4096, req := beAt b 4 2 % 4096, ready := bit (beAt b 6 1) 0, img := bit (beAt b 6 1) 1,
    credit := (List.range 8).map fun v => beAt b (8 + 2 * v) 2, node := beAt b 24 2, link := beAt b 26 1, lanes := beAt b 27 1 % 4,
    topo := beAt b 28 4, ts := beAt b 32 8, echo := beAt b 40 8, secs := beAt b 24 6, ns := beAt b 30 4, sync := bit (beAt b 34 1) 0 }

/-! ### Packets (R258, Tables 9.7 and 9.10) -/

/-- Flits of a packet whose body has a number of bytes (Table 9.7). -/
def flitsOf (bytes : Nat) : Nat := (16 + bytes + 63) / 64

/-- Bytes 0 to 11 of a header. -/
def hdrFields (h : VHdr) : List Byte :=
  beBytes h.dst 2 ++ beBytes h.src 2 ++
    beBytes (h.cls * 32 + b2n h.ect * 16 + b2n h.ce * 8 + b2n h.adapt * 4 + b2n h.resp * 2 + b2n h.det) 1 ++
    beBytes (h.proto * 16 + h.hops) 1 ++ beBytes (h.path * 4) 1 ++ beBytes h.len 1 ++ beBytes h.bytes 2 ++
    beBytes (if h.proto = 0 then h.wepoch else 0) 1 ++ beBytes 0 1

/-- CRC of a packet: over its header with CE, DET and HOPS taken as 0, and its body. -/
def hdrCrc (h : VHdr) : Nat :=
  crcOut false ((hdrFields { h with ce := false, det := false, hops := 0 } ++ h.body).foldl (crcByte false) (crcInit false))

/-- A packet with its CRC formed (R259). -/
def withCrc (h : VHdr) : VHdr := { h with crc := hdrCrc h }

/-- Flit i of a packet: the header before the body, and zeros after it. -/
def dataBytes (f : VFlit) : List Byte :=
  let all := hdrFields f.h ++ beBytes f.h.crc 4 ++ f.h.body
  let p := (all.drop (64 * f.i)).take 64
  p ++ List.replicate (64 - p.length) 0#8

/-- Reads a header from its first flit. -/
def hdrRead (b : List Byte) : VHdr :=
  let c := beAt b 4 1
  { dst := beAt b 0 2, src := beAt b 2 2, cls := c / 32, ect := bit c 4, ce := bit c 3, adapt := bit c 2, resp := bit c 1, det := bit c 0,
    proto := beAt b 5 1 / 16, hops := beAt b 5 1 % 16, path := beAt b 6 1 / 4, len := beAt b 7 1 % 64, bytes := beAt b 8 2 % 8192,
    wepoch := beAt b 10 1, crc := beAt b 12 4 }

/-- A packet with n more bytes of its flits: the body runs for BYTES bytes. -/
def withBody (h : VHdr) (b : List Byte) : VHdr := { h with body := (h.body ++ b).take h.bytes }

/-- The body of a management packet (Table 9.10). -/
def mgmtBody (mtype reason dropDst count epoch : Nat) (fresh : Bool) : List Byte :=
  beBytes mtype 1 ++ beBytes reason 1 ++ beBytes dropDst 2 ++ beBytes count 4 ++ beBytes epoch 1 ++ beBytes (b2n fresh) 1 ++ beBytes 0 38

/-- Reads the body of a management packet that has come in codewords. -/
def withMgmt (h : VHdr) : VHdr :=
  if h.proto ≠ 1 then h
  else { h with mtype := beAt h.body 0 1, reason := beAt h.body 1 1, dropDst := beAt h.body 2 2, count := beAt h.body 4 4,
                wepoch := beAt h.body 8 1, fresh := bit (beAt h.body 9 1) 0 }

/-- Whether LEN and CRC of a packet are good (R263). -/
def hdrGood (h : VHdr) : Bool := h.len == flitsOf h.bytes && h.crc == hdrCrc h

end Machine
end Sys2Proof
end

