-- ==== Sys2Proof/Machine/Valir.lean ====
section
/-! DEFINITION. The Valir fabric (chapter 9): links and their training, flits, credits and replay, routing, the end-to-end
window, and the meanings of its commands. -/

namespace Sys2Proof
namespace Machine

/-- Captures a single fault (R439, R459): counts its kind, and fills JNL.FLOG while it is armed. The time to resumed
service is measured by the device and is free here. -/
def State.singleFault (s : State) (kind unit inst : Nat) (replayed : Nat := 0) (resumed : Bool := true) : State :=
  let s := s.countSat F.jnlFcntCount 0 1 kind
  if s.flag F.jnlFlogValid then s
  else
    let (w, s) := s.draw
    let us := if resumed then w.toNat % 65536 else 0
    ((((((s.setFlag F.jnlFlogValid true).setFld F.jnlFlogKind kind).setFld F.jnlFlogInst inst).setFld F.jnlFlogUnit
      unit).setFld F.jnlFlogResumeUs us).setFld F.jnlFlogReplayed (min replayed 0xFFFFFF))

/-! ### Links -/

/-- A Valir link. -/
def State.vlink (s : State) (l : Nat) : VLink := AMap.look {} s.vl.links l

/-- Writes a Valir link; LINK_STATUS and VL.LIVE show its state (R272). -/
def State.setVlink (s : State) (l : Nat) (x : VLink) : State :=
  let s := { s with vl := { s.vl with links := AMap.save {} s.vl.links l x } }
  let live := x.state == .active || x.state == .degraded
  let s := (s.setFld F.vlLinkStatusState x.state.code l).setFld F.vlLinkStatusLanes (if live then x.lanes else 0) l
  s.setFld F.vlLiveLive (putBit (s.fld F.vlLiveLive) l live)

/-- Whether a link is in the live set (R262). -/
def State.vlLive (s : State) (l : Nat) : Bool := (s.vlink l).state == .active || (s.vlink l).state == .degraded

/-- Whether a link may train (R254): its lane group in Valir mode and on, ENABLE, and a device state of Table 9.4. -/
def State.vlMayTrain (s : State) (l : Nat) : Bool :=
  decide (l < 16) && bit (s.fld F.vlCfgLgValir) (l / 4) && s.domOn (16 + l / 4) && s.flag F.vlLinkCtrlEnable l &&
    (match s.dev.state with | .equalShare => true | .service => true | .drain => true | _ => false)

/-- The window to a destination position. -/
def State.ewin (s : State) (d : Nat) : EWin := AMap.look {} s.vl.wins d

/-- Writes it. -/
def State.setEwin (s : State) (d : Nat) (w : EWin) : State := { s with vl := { s.vl with wins := AMap.save {} s.vl.wins d w } }

/-- Packets outstanding, 0 where the difference is negative as a signed 32-bit number (R268, R271). -/
def EWin.out (w : EWin) : Nat :=
  let n := (w.inj + 2 * 2 ^ 32 - w.seen - w.dropped) % 2 ^ 32
  if n < 2 ^ 31 then n else 0

/-- The node's window epoch (R271). -/
def State.wepoch (s : State) : Nat := s.fld F.vlE2eCntWepoch

/-- Adds packets to the pending drop notice for their source (R266, R271). -/
def addDrop (d : EDrop) : List EDrop → List EDrop
  | [] => [d]
  | e :: es =>
    if e.src = d.src ∧ e.dst = d.dst ∧ e.reason = d.reason ∧ e.epoch = d.epoch then
      { e with count := e.count + d.count } :: es
    else e :: addDrop d es

/-- The counter of a reason (Table 9.14). -/
def dropField (reason : Nat) : Fld :=
  match reason with
  | 1 => F.vlDropCntNoRoute
  | 2 => F.vlDropCntHopLimit
  | 3 => F.vlDropCntLinkDown
  | _ => F.vlDropCntCrc

/-- Drops a packet under a reason (R266): counted, and its source told, or the own window adjusted. -/
def State.vlDrop (s : State) (h : VHdr) (reason : Nat) : State :=
  let s := s.countSat (dropField reason)
  if h.proto ≠ 0 then s
  else if h.src = s.nodeId then
    let w := s.ewin (h.dst % 256)
    if h.wepoch = s.wepoch then s.setEwin (h.dst % 256) { w with dropped := (w.dropped + 1) % 2 ^ 32 } else s
  else
    { s with vl := { s.vl with
        drops := addDrop { src := h.src, dst := h.dst, reason := reason, epoch := h.wepoch, count := 1 } s.vl.drops } }

/-- Flits of a class assigned to a link and not yet sent (R261). -/
def VLink.classFlits (x : VLink) (c : Nat) : Nat :=
  x.queue.foldl (fun n p => if p.h.cls = c then n + (p.h.len - p.sent) else n) 0

/-- Flits assigned to a link and not yet sent. -/
def VLink.load (x : VLink) : Nat := x.queue.foldl (fun n p => n + (p.h.len - p.sent)) 0

/-- Flits of a VC sent and not returned (R249). -/
def VLink.unreturned (x : VLink) (vc : Nat) : Nat :=
  subMod 16 (AMap.look 0 x.sent vc) (AMap.look 0 x.credit vc)

/-- FSEQ of the oldest flit held for replay (R250). -/
def VLink.held (x : VLink) : Nat := subMod 12 x.nextFseq x.buf.length

/-- The first packet queued on a VC. -/
def VLink.first (x : VLink) (vc : Nat) : Option VPkt := x.queue.find? fun p => p.vc == vc

/-- Whether a VC has a flit ready and a credit for it (R246). -/
def VLink.canSend (x : VLink) (vc : Nat) : Bool :=
  (match x.first vc with | some p => decide (p.sent < p.got) | none => false) && decide (x.unreturned vc < 256)

/-- The VC of the next codeword's data flits (R246). -/
def VLink.chooseVc (x : VLink) : Option Nat :=
  let hi := ([1, 2, 3, 4].map fun k => 4 + (x.lastHi - 4 + k) % 4).find? x.canSend
  match hi with
  | some v => some v
  | none => ([1, 2, 3, 4].map fun k => (x.lastLo + k) % 4).find? x.canSend

/-- Counts one flit of the first packet queued on a VC as sent. A packet leaves the queue with its last flit. -/
def sendFirst (vc : Nat) : List VPkt → List VPkt
  | [] => []
  | p :: ps =>
    if p.vc ≠ vc then p :: sendFirst vc ps
    else if p.h.len ≤ p.sent + 1 then ps
    else { p with sent := p.sent + 1 } :: ps

/-- The first slot that has not begun at a CLK_T count: five slots to a codeword of 2,720 bits, 224 Gb/s on each lane in use (R242; log
entry 61). -/
def VLink.slotAt (x : VLink) (cycles : Nat) : Nat :=
  let b := cycles * 224 * (if x.state = .degraded then 1 else 2)
  b / 2720 * 5 + min 5 ((b % 2720 + 511) / 512)

/-- The slots that have gone by since the last flit have carried STATUS flits. -/
def VLink.reach (x : VLink) (cycles : Nat) : VLink :=
  if x.slot < x.slotAt cycles then { x with slot := x.slotAt cycles, run := 0 } else x

/-- The VC of the data flits that the codeword in progress carries already, if it carries any. -/
def VLink.cwVc (x : VLink) : Option Nat :=
  match x.cw with
  | some (c, v) => if c = x.slot / 5 ∧ x.slot % 5 ≠ 0 then some v else none
  | none => none

/-- The slot after the last codeword that begins before the next edge of CLK_T: up to it slots are filled now, and what a later codeword
carries is chosen at its start (R246; log entry 61). -/
def VLink.horizon (x : VLink) (cycles : Nat) : Nat := ((cycles + 1) * 224 * (if x.state = .degraded then 1 else 2) - 1) / 2720 * 5 + 5

/-- The flit of the retry buffer that a replay in progress sends next, and its FSEQ (R252). -/
def VLink.again (x : VLink) : Option (VFlit × Nat) :=
  match x.replay with
  | some (_, n) =>
    let i := subMod 12 n x.held
    let i := if i < 2048 then i else 0
    (x.buf[i]?).map fun f => (f, (x.held + i) % 4096)
  | none => none

/-- What the next data flit is: one that is replayed, or else a new one, where the retry buffer has room for it; with its VC: that of the
codeword in progress while it can send, else the one chosen for a codeword (R246, R250, R252). -/
def VLink.nextData (x : VLink) : Option (Option (VFlit × Nat) × Nat) :=
  match x.again with
  | some e => some (some e, e.1.vc)
  | none =>
    if 512 ≤ x.buf.length then none
    else
      (match x.cwVc with
       | some v => if x.canSend v then some v else x.chooseVc
       | none => x.chooseVc).map fun v => (none, v)

/-- What a link flit of this node carries. -/
def State.ownFlit (s : State) (l : Nat) : LinkFlit :=
  let x := s.vlink l
  { ack := x.rxFseq, ready := s.dev.state == .service, img := s.flag F.imgStatusAccepted,
    credit := (List.range 8).map fun v => AMap.look 0 x.freed v }

/-- A link after a link flit in its next free slot. -/
def VLink.flitSent (x : VLink) (cycles : Nat) : VLink := { x.reach cycles with slot := (x.reach cycles).slot + 1, run := 0 }

/-- Sends a link flit in the next free slot. -/
def State.vlLink (s : State) (l : Nat) (f : LinkFlit) : State :=
  (s.setVlink l ((s.vlink l).flitSent s.clk.cycles)).emit (.vlFlit l ((s.vlink l).reach s.clk.cycles).slot f)

/-- Sends a STATUS flit (R247). -/
def State.vlStatus (s : State) (l : Nat) : State := s.vlLink l (s.ownFlit l)

/-- Whether a slot can be filled now. -/
def State.vlRoom (s : State) (l : Nat) : Bool :=
  decide (((s.vlink l).reach s.clk.cycles).slot < ((s.vlink l).reach s.clk.cycles).horizon s.clk.cycles)

/-- Sends a STATUS flit where a slot can be filled now; what it would tell, every later link flit tells too. -/
def State.vlTell (s : State) (l : Nat) : State := if s.vlRoom l then s.vlStatus l else s

/-- The slots that a codeword has left beside another VC's data flits carry link flits (R246). -/
def VLink.nextCw (x : VLink) : VLink := { x with slot := (x.slot + 4) / 5 * 5, run := 0 }

/-- Sends a data flit in the next free slot. -/
def State.vlPlace (s : State) (l : Nat) (f : VFlit) : State :=
  let x := (s.vlink l).reach s.clk.cycles
  let y := { x with slot := x.slot + 1, run := x.run + 1, cw := some (x.slot / 5, f.vc) }
  (s.setVlink l (if f.vc < 4 then { y with lastLo := f.vc } else { y with lastHi := f.vc })).emit (.vlData l x.slot f)

/-- Frees flits of a VC from the ingress buffer of a link: their credits go back (R249). -/
def State.vlFreed (s : State) (l vc n : Nat) : State :=
  if s.vlLive l then
    let x := s.vlink l
    (s.setVlink l { x with freed := AMap.put x.freed vc ((AMap.look 0 x.freed vc + n) % 65536) }).vlTell l
  else s

/-- Sends a new data flit of a VC: the next of the first packet queued on it, which takes an FSEQ and lies in the retry buffer from then on
(R250). -/
def State.vlSendFlit (s : State) (l vc : Nat) : State :=
  let x := s.vlink l
  match x.first vc with
  | none => s
  | some p =>
    let f : VFlit := { h := p.h, i := p.sent, vc := vc }
    let s := (s.setVlink l { x with
        queue := sendFirst vc x.queue, buf := x.buf ++ [f], nextFseq := (x.nextFseq + 1) % 4096,
        sent := AMap.put x.sent vc ((AMap.look 0 x.sent vc + 1) % 65536) }).vlPlace l f
    match p.port with
    | some (k, v) => s.vlFreed k v 1
    | none => s

/-- Sends a flit of the retry buffer again (R252). -/
def State.vlAgain (s : State) (l : Nat) (f : VFlit) (n : Nat) : State :=
  let x := s.vlink l
  (s.setVlink l { x with replay := x.replay.map fun r => (r.1, (n + 1) % 4096) }).vlPlace l f

/-- Sends data flits in the slots that can be filled now, at most n of them: one slot in 40 carries a link flit (R247), and a codeword
carries data flits of one VC (R246). -/
def State.vlPump (s : State) (l : Nat) : Nat → State
  | 0 => s
  | n + 1 =>
    let x := (s.vlink l).reach s.clk.cycles
    if !s.vlRoom l then s
    else
      match x.nextData with
      | none => s
      | some (again, vc) =>
        if x.cwVc.any (· != vc) then (s.setVlink l x.nextCw).vlPump l n
        else if 39 ≤ x.run then (s.vlStatus l).vlPump l n
        else
          match again with
          | some (f, i) => (s.vlAgain l f i).vlPump l n
          | none => (s.vlSendFlit l vc).vlPump l n

/-- A replay whose last flit has been sent is over (R252). -/
def VLink.replayed (x : VLink) : VLink := if x.again.isNone then { x with replay := none } else x

/-- Sends what the link may send now. -/
def State.vlSend (s : State) (l : Nat) : State :=
  let s := s.vlPump l 24
  if (s.vlink l).replay.isSome then s.setVlink l (s.vlink l).replayed else s

/-- Assigns a packet to a link and VC (R214, R261, R263), as many of its flits as are at hand: the congestion mark is decided here, HOPS
rises. -/
def State.vlAssign (s : State) (h : VHdr) (l vc got : Nat) (port : Option (Nat × Nat)) : State :=
  let x := s.vlink l
  let th := s.fld F.ccMarkThresh 0 h.cls
  let mark := h.ect && decide (th ≠ 0) && decide (th * 4096 ≤ x.classFlits h.cls * 64)
  let h' := { h with ce := h.ce || mark, hops := h.hops + 1 }
  (s.setVlink l { x with queue := x.queue ++ [{ h := h', vc := vc, got := got, port := port }] }).vlSend l

/-! ### Routing (R262 to R264) -/

/-- Candidate k of an entry: link, LVL, USE (Table 9.9). -/
def cand (e k : Nat) : Nat × Nat × Bool := (bits e (8 * k + 7) (8 * k + 4), bits e (8 * k + 3) (8 * k + 2), bit e (8 * k))

/-- The live list of an entry: links and level actions. -/
def State.liveList (s : State) (e : Nat) : List (Nat × Nat) :=
  ((List.range 4).map (cand e)).filterMap fun c => if c.2.2 ∧ s.vlLive c.1 then some (c.1, c.2.1) else none

/-- The level after a level action. -/
def applyLvl (lvl level : Nat) : Nat := match lvl with | 1 => 1 | 2 => 0 | _ => level

/-- The VC of a packet (R260). -/
def State.vcOf (s : State) (h : VHdr) (level : Nat) : Nat :=
  let p := if h.proto = 1 then 1 else b2n (bit (s.fld F.vlCfgClassPri) h.cls)
  4 * p + 2 * b2n h.resp + level

/-- The choice of a candidate (R264). -/
def State.vlChoose (s : State) (h : VHdr) (level : Nat) (c : List (Nat × Nat)) : Option (Nat × Nat) :=
  if !h.adapt then (c.drop (((h.path >>> (2 * (h.hops % 3))) % 4) % c.length)).head?
  else
    c.foldl (fun best k =>
      match best with
      | none => some k
      | some b =>
        let lb := (s.vlink b.1).load
        let lk := (s.vlink k.1).load
        let fb := (s.vlink b.1).unreturned (s.vcOf h (applyLvl b.2 level))
        let fk := (s.vlink k.1).unreturned (s.vcOf h (applyLvl k.2 level))
        if lk < lb ∨ (lk = lb ∧ fk < fb) then some k else some b) none

/-- Where a packet for another node goes (R263): a link, a VC and its header from there, or the reason it is dropped. -/
def State.vlRoute (s : State) (h : VHdr) (level : Nat) : Except Nat (Nat × Nat × VHdr) :=
  let e := AMap.look 0 s.vl.route (h.dst % 256)
  if h.dst / 256 ≠ s.nodeId / 256 ∨ !bit e 63 then .error 1
  else if max 1 (s.fld F.vlCfgHopMax) ≤ h.hops then .error 2
  else
    let live := s.liveList e
    let d := AMap.look 0 s.vl.detour (h.dst % 256)
    let (c, h', bad) :=
      if live ≠ [] then (live, h, false)
      else (s.liveList d, { h with det := true }, h.det || !bit d 63 || (s.liveList d).isEmpty)
    if bad then .error 1
    else
      match s.vlChoose h' level c with
      | none => .error 1
      | some (l, lvl) =>
        let lv := applyLvl lvl level
        .ok (l, s.vcOf h' lv, h')

/-- A received E2E_CREDIT (R269, R271). -/
def State.vlGotCredit (s : State) (src count epoch : Nat) (fresh : Bool) : State :=
  if epoch ≠ s.wepoch then s
  else
    let w := s.ewin (src % 256)
    if fresh then
      (s.setEwin (src % 256) { w with seen := count, dropped := subMod 32 w.inj count }).countSat F.vlE2eCntTmoResets
    else s.setEwin (src % 256) { w with seen := count }

/-- A received E2E_DROP (R269, R271). -/
def State.vlGotDrop (s : State) (dst count epoch : Nat) : State :=
  if epoch ≠ s.wepoch then s
  else
    let w := s.ewin (dst % 256)
    s.setEwin (dst % 256) { w with dropped := (w.dropped + count) % 2 ^ 32 }

/-- A management packet for this node is consumed (R263, Table 9.10). -/
def State.vlConsume (s : State) (h : VHdr) : State :=
  match h.mtype with
  | 1 => s.vlGotCredit h.src h.count h.wepoch h.fresh
  | 2 => s.vlGotDrop h.dropDst h.count h.wepoch
  | _ => s

/-- Sends a packet of this node on. -/
def State.vlForward (s : State) (h : VHdr) (level : Nat) : State :=
  match s.vlRoute h level with
  | .error r => s.vlDrop h r
  | .ok (l, vc, h') => s.vlAssign h' l vc h.len none

/-- Sends a management packet (Table 9.10): one to this node itself is consumed here (R263). -/
def State.vlMgmt (s : State) (dst mtype reason dropDst count epoch : Nat) (fresh : Bool) : State :=
  let send (h : VHdr) : State := if dst = s.nodeId then s.vlConsume h else s.vlForward h 0
  send (withCrc { dst := dst, src := s.nodeId, resp := true, adapt := true, proto := 1, len := 1, bytes := 48, mtype := mtype,
                         reason := reason, dropDst := dropDst, count := count, wepoch := epoch, fresh := fresh,
                         body := mgmtBody mtype reason dropDst count epoch fresh })

/-! ### The end-to-end window (R268 to R271) -/

/-- Reports the count kept for a source. -/
def State.vlCredit (s : State) (src : Nat) : State :=
  match AMap.find s.vl.recs (src % 256) with
  | none => s
  | some r =>
    let s := { s with vl := { s.vl with recs := AMap.put s.vl.recs (src % 256) { r with told := r.count, fresh := false } } }
    s.vlMgmt src 1 0 0 r.count r.epoch r.fresh

/-- Counts a packet ejected or dropped under CRC (R269, R271); 16 of them bring a credit. -/
def State.vlCount (s : State) (src epoch : Nat) : State :=
  let k := src % 256
  let old := AMap.find s.vl.recs k
  let r : Option ERec :=
    match old with
    | none => some { epoch := epoch, count := 1 }
    | some r =>
      let d := subMod 8 epoch r.epoch
      if d = 0 then some { r with count := (r.count + 1) % 2 ^ 32 }
      else if d < 128 then some { r with epoch := epoch, count := 1, told := 0 }
      else none
  match r with
  | none => s
  | some r =>
    let s := { s with vl := { s.vl with recs := AMap.put s.vl.recs k r } }
    if 16 ≤ subMod 32 r.count r.told then s.vlCredit src else s

/-! ### Packets that arrive (R249, R263) -/

/-- A whole packet for this node (R263, Table 9.10): a management packet is consumed, another is ejected where its LEN and CRC are good. -/
def State.vlHere (s : State) (h : VHdr) (intact : Bool) : State :=
  if h.proto = 1 then s.vlConsume h
  else if h.proto ≠ 0 then s
  else if !(intact && h.len == flitsOf h.bytes) then (s.countSat F.vlDropCntCrc).vlCount h.src h.wepoch
  else (s.emit (.vlEject h.resp h.src)).vlCount h.src h.wepoch

/-- The head of a packet that comes on a link and VC, with n of its flits: where it is led. A packet that is dropped gives its flits back as
they come; one for another node is assigned. -/
def State.vlHead (s : State) (l vc : Nat) (h : VHdr) (n : Nat) : VTo × State :=
  if h.dst = s.nodeId then (.here, s)
  else
    match s.vlRoute h (vc % 2) with
    | .error r => (.gone, (s.vlDrop h r).vlFreed l vc n)
    | .ok (k, v, h') => (.out k v, s.vlAssign h' k v n (some (l, vc)))

/-- n more flits of a packet, with what they hold of its body, are at hand for the link and VC that it goes out on. -/
def State.vlMore (s : State) (l vc k v n : Nat) (b : List Byte) : State :=
  let x := s.vlink k
  let q := x.queue.map fun p =>
    if p.port = some (l, vc) ∧ p.vc = v ∧ p.got < p.h.len then { p with got := p.got + n, h := withBody p.h b } else p
  (s.setVlink k { x with queue := q }).vlSend k

/-- n data flits have been accepted: the FSEQ expected moves past them (R251, R253). -/
def State.vlLanded (s : State) (l n : Nat) : State :=
  let x := s.vlink l
  s.setVlink l { x with retries := 0, rxFseq := (x.rxFseq + n) % 4096 }

/-- n flits of the packet that arrives on a VC of a link, with what they hold of its body; intact is whether its LEN and CRC are good, where
its bytes do not show it. A packet for this node is taken, and its flits are freed, with its last flit. -/
def State.vlArrive (s : State) (l vc : Nat) (h : VHdr) (n : Nat) (b : List Byte) (intact : Option Bool) : State :=
  let known := AMap.find (s.vlink l).rx vc
  let s := s.vlLanded l n
  let (r, s) : VRx × State :=
    match known with
    | none =>
      let (d, s) := s.vlHead l vc h n
      ({ h := h, got := n, dest := d }, s)
    | some r =>
      let r' := { r with got := r.got + n, h := withBody r.h b }
      (match r.dest with
       | .here => (r', s)
       | .gone => (r', s.vlFreed l vc n)
       | .out k v => (r', s.vlMore l vc k v n b))
  let y := s.vlink l
  if r.got < max 1 r.h.len then s.setVlink l { y with rx := AMap.put y.rx vc r }
  else
    let s := if known.isSome then s.setVlink l { y with rx := AMap.drop y.rx vc } else s
    if r.dest = .here then (s.vlFreed l vc r.got).vlHere (match intact with | some _ => r.h | none => withMgmt r.h) (intact.getD (hdrGood r.h))
    else s

/-! ### Training (R254 to R257, R272) -/

/-- A link in a state with none of its counts and buffers: what it keeps is the VC of its last codewords (R246), its slots, how its lanes
were found, and the partner's TS. -/
def VLink.fresh (x : VLink) (st : VState) (lanes : Nat) : VLink :=
  { state := st, lanes := lanes, lock := x.lock, lastLo := x.lastLo, lastHi := x.lastHi, slot := x.slot, peerTs := x.peerTs }

/-- A link enters V_ACTIVE or V_DEGRADED (R249, R250, R255): counts restart and it joins the live set. -/
def State.vlUp (s : State) (l lanes : Nat) : State :=
  s.setVlink l ((s.vlink l).fresh (if lanes = 3 then .active else .degraded) lanes)

/-- A packet that was assigned to a link that leaves the live set (Table 9.13): dropped, and told to its source where its head was not sent.
Its flits at hand give their credits back, and those still to come are discarded as they arrive. -/
def State.vlLost (s : State) (l : Nat) (p : VPkt) : State :=
  let s := if p.sent = 0 then s.vlDrop p.h 3 else s.countSat F.vlDropCntLinkDown
  match p.port with
  | none => s
  | some (k, v) =>
    let x := s.vlink k
    let s := match AMap.find x.rx v with
      | some r => if r.dest = VTo.out l p.vc ∧ p.got < p.h.len then s.setVlink k { x with rx := AMap.put x.rx v { r with dest := .gone } } else s
      | none => s
    s.vlFreed k v (p.got - p.sent)

/-- A packet that was arriving on a VC of a link that leaves the live set (Table 9.13): it is completed with zero flits up to LEN, and fails
CRC at its destination. -/
def State.vlCut (s : State) (l : Nat) (e : Nat × VRx) : State :=
  match e.2.dest with
  | .here => s.vlHere e.2.h false
  | .gone => s
  | .out k v => s.vlMore l e.1 k v (e.2.h.len - e.2.got) (List.replicate (64 * (e.2.h.len - e.2.got)) 0#8)

/-- Whether a packet came on a link. -/
def VPkt.came (p : VPkt) (l : Nat) : Bool := match p.port with | some (k, _) => k == l | none => false

/-- Whether a packet that waits at a link came on link l. -/
def State.vlHolds (s : State) (l : Nat) : Bool := s.vl.links.any fun e => e.2.queue.any fun p => p.came l

/-- No packet of this router lies in the ingress buffer of a link any more. -/
def State.vlUnport (s : State) (l : Nat) : State :=
  if s.vlHolds l then
    { s with vl := { s.vl with links := s.vl.links.map fun e =>
        (e.1, { e.2 with queue := e.2.queue.map fun p => if p.came l then { p with port := none } else p }) } }
  else s

/-- A link leaves the live set for a state (R266, R272, Table 9.13). -/
def State.vlDown (s : State) (l : Nat) (st : VState) (lanes : Nat) : State :=
  let x := s.vlink l
  let wasLive := s.vlLive l
  let s := s.setVlink l (x.fresh st lanes)
  if wasLive then
    let s := s.countSat F.vlLinkRetryDown l
    let s := x.queue.foldl (fun t p => t.vlLost l p) s
    let s := x.rx.foldl (fun t e => t.vlCut l e) s
    s.vlUnport l
  else s

/-- Every link takes the state its permission to train gives (R254). -/
def State.vlRefresh (s : State) : State :=
  (List.range 16).foldl (fun t l =>
    let x := t.vlink l
    if t.vlMayTrain l then (if x.state = .off then t.setVlink l (x.fresh .detect 0) else t)
    else if x.state = .off then t
    else t.vlDown l .off 0) s

/-- VL_SIGNAL_DETECT (R255): signal on the lanes given. -/
def execVlSignalDetect (link lanes : Nat) (s : State) : Result :=
  let x := s.vlink link
  if s.vlMayTrain link ∧ x.state = .detect ∧ lanes % 4 ≠ 0 then
    .next (s.setVlink link { x with state := .sync, lanes := lanes % 4 })
  else .next s

/-- VL_LOCK (R255). -/
def execVlLock (link : Nat) (s : State) : Result :=
  let x := s.vlink link
  if x.state = .sync then .next (s.setVlink link { x with state := .align }) else .next s

/-- Sends a PARAM flit (Table 9.3). -/
def State.vlParam (s : State) (l : Nat) : State :=
  let x := s.vlink l
  s.vlLink l { s.ownFlit l with
    ltype := 3, node := s.nodeId, link := l, lanes := x.lanes, topo := s.img.topo, ts := s.clk.cycles,
    echo := match x.peerTs with | some (t, c) => (t + subMod 64 s.clk.cycles c) % 2 ^ 64 | none => 0 }

/-- CODEWORD_LOCK (R245, R255): where the receiver can correct what it finds, the link sends PARAM flits. -/
def execCodewordLock (link : Nat) (lock : LaneLock) (s : State) : Result :=
  let x := s.vlink link
  if x.state = .align ∧ laneOk lock then
    .next (((s.setVlink link { x with state := .param, lock := lock, peerTs := none }).setFlag F.vlLinkStatusLaneSwap lock.swapped link).vlParam link)
  else .next s

/-- A PARAM flit of the partner (R256): its checks and the state they lead to. -/
def State.vlGotParam (s : State) (link node plink lanes topo rtt : Nat) (ready : Bool) : State :=
  let x := s.vlink link
  if x.state ≠ .param then s
  else
    let s := (((s.setFld F.vlLinkStatusPartnerNode node link).setFld F.vlLinkStatusPartnerLink plink link).setFlag
      F.vlLinkStatusPartnerReady ready link).setFld F.vlLinkStatusRttNs (min rtt 0x3FF) link
    if AMap.find s.img.neigh link ≠ some (node * 16 + plink) ∨ topo ≠ s.img.topo then
      (s.setVlink link { x with state := .miswired }).countSat F.vlLinkRetryMiswire link
    else if 600 < rtt then s.setVlink link { x with state := .hold }
    else
      let both := x.lanes &&& (lanes % 4)
      if both = 3 then s.vlUp link 3
      else if both ≠ 0 ∧ s.flag F.vlLinkCtrlDegradeOk link then s.vlUp link both
      else s.setVlink link { x with state := .hold }

/-- PARAM (R256). -/
def execParam (link node plink lanes topo rtt : Nat) (ready : Bool) (s : State) : Result :=
  .next (s.vlGotParam link node plink lanes topo rtt ready)

/-- VL_STEP_TIMEOUT (R255). -/
def execVlStepTimeout (link : Nat) (s : State) : Result :=
  let x := s.vlink link
  if x.state = .sync ∨ x.state = .align ∨ x.state = .param then .next (s.setVlink link { x with state := .hold })
  else .next s

/-- VL_HOLD_EXPIRY (Table 9.6). -/
def execVlHoldExpiry (link : Nat) (s : State) : Result :=
  let x := s.vlink link
  if x.state = .hold then .next (s.setVlink link (x.fresh .detect 0)) else .next s

/-- A lane or link fault is a single fault of kind 1 or 2 (Table 17.1). -/
def State.laneSingle (s : State) (link lanes : Nat) (all : Bool) : State :=
  if all then s.singleFault 2 link 0
  else s.singleFault 1 (8 * (link / 4) + 2 * (link % 4) + (if bit lanes 0 then 0 else 1)) 0

/-- LANE_FAULT (R257): faults on the lanes given. -/
def execLaneFault (link lanes : Nat) (s : State) : Result :=
  let x := s.vlink link
  let bad := x.lanes &&& (lanes % 4)
  if bad = 0 then .next s
  else
    match x.state with
    | .active =>
      if bad = 3 then .next ((s.vlDown link .hold 0).laneSingle link bad true)
      else .next ((s.vlDown link .retrain (3 - bad)).laneSingle link bad false)
    | .degraded => .next ((s.vlDown link .hold 0).laneSingle link bad true)
    | .miswired =>
      if bad = x.lanes then .next (s.setVlink link (x.fresh .detect 0))
      else .next (s.setVlink link { x with lanes := x.lanes - bad })
    | _ => .next s

/-- RETRAIN (R257, Table 9.6): the write of RETRAIN by a commanding origin. -/
def execRetrain (org : Origin) (link : Nat) (s : State) : Result :=
  let x := s.vlink link
  if !s.dcsOpen org 0x3000000 then .next s
  else
    match x.state with
    | .degraded => .next (s.vlDown link .retrain 3)
    | .miswired => .next (s.setVlink link (x.fresh .detect 0))
    | _ => .next s

/-- LANES_GOOD (R257): the lanes given are good before 150 µs. With both good the link is in V_ACTIVE, also one that R253 brought to V_RETRAIN
from V_DEGRADED with no write of RETRAIN (DESIGN CHOICE, log entry 134: Table 9.6 leads it there, the text of R257 gives full width back on a
write of RETRAIN only). -/
def execLanesGood (link lanes : Nat) (s : State) : Result :=
  let x := s.vlink link
  if x.state ≠ .retrain then .next s
  else if lanes % 4 = 3 then .next (s.vlUp link 3)
  else if lanes % 4 ≠ 0 ∧ s.flag F.vlLinkCtrlDegradeOk link then .next (s.vlUp link (lanes % 4))
  else .next s

/-- RETRAIN_TIMEOUT (R257): at 150 µs the link is settled on the lanes that are good. -/
def execRetrainTimeout (link lanes : Nat) (s : State) : Result :=
  let x := s.vlink link
  if x.state ≠ .retrain then .next s
  else if lanes % 4 = 3 then .next (s.vlUp link 3)
  else if lanes % 4 ≠ 0 ∧ s.flag F.vlLinkCtrlDegradeOk link then .next (s.vlUp link (lanes % 4))
  else .next (s.setVlink link { x with state := .hold, lanes := 0 })

/-! ### Flits (R248 to R253) -/

/-- Takes ACK_FSEQ, the credits and READY of a received link flit (R249, R250). -/
def State.vlTakeFlit (s : State) (l : Nat) (f : LinkFlit) : State :=
  let x := s.vlink l
  let adv := subMod 12 (f.ack % 4096) x.held
  let x := if adv ≤ x.buf.length then { x with buf := x.buf.drop adv } else x
  let x := { x with credit := (List.range 8).foldl (fun c v => AMap.put c v (f.credit.getD v 0 % 65536)) x.credit }
  (s.setVlink l x).setFlag F.vlLinkStatusPartnerReady f.ready l

/-- Sends RETRY_REQ (R251, R253): the eighth in a row without progress retrains the link. -/
def State.vlRetry (s : State) (l : Nat) : State :=
  let s := (s.countSat F.vlLinkRetryRetries l).vlLink l { s.ownFlit l with ltype := 1, req := (s.vlink l).rxFseq }
  let x := s.vlink l
  if 8 ≤ x.retries + 1 then s.vlDown l .retrain x.lanes
  else s.setVlink l { x with waitReplay := true, retries := x.retries + 1 }

/-- A codeword that cannot be corrected (R251, R253): counted, in training too; more than 64 in one millisecond retrain the link. The windows
of 1 ms are the milliseconds of fabric time (DESIGN CHOICE, log entry 134: R253 does not say where a window begins). -/
def State.vlBad (s : State) (link : Nat) : State :=
  let x := s.vlink link
  if x.state = .param then s.countSat F.vlLinkFecUncorrected link
  else if !s.vlLive link then s
  else
    let s := s.countSat F.vlLinkFecUncorrected link
    let x := s.vlink link
    let ms := s.nowNs / 1000000
    let n := if x.badMs = ms then x.badCount + 1 else 1
    let s := s.setVlink link { x with badMs := ms, badCount := n }
    if 64 < n then s.vlDown link .retrain x.lanes else s.vlRetry link

/-- UNCORRECTABLE_CODEWORD (R251). -/
def execUncorrectableCodeword (link : Nat) (s : State) : Result := .next (s.vlBad link)

/-- Whether a replay from an FSEQ is in progress: its flits have not all been sent. -/
def VLink.replaying (x : VLink) (req : Nat) : Bool := x.replay.any fun r => r.1 == req

/-- Begins a replay of the flits held from an FSEQ on (R252): REPLAY_START goes in the next free slot, and those flits follow in FSEQ order,
each on its VC, before any new one. They take no new credit or FSEQ. One that was in progress is abandoned. -/
def State.vlReplay (s : State) (l req : Nat) : State :=
  let s := s.vlLink l { s.ownFlit l with ltype := 2, req := req }
  s.setVlink l { s.vlink l with replay := some (req, req) }

/-- A received RETRY_REQ (R252): a replay from REQ_FSEQ and then new flits, or a protocol error. -/
def State.vlGotRetry (s : State) (link req : Nat) (f : LinkFlit) : State :=
  if !s.vlLive link then s
  else
    let s := s.vlTakeFlit link f
    let x := s.vlink link
    if x.replaying (req % 4096) then s.vlSend link
    else if subMod 12 (req % 4096) x.held < x.buf.length then (s.vlReplay link (req % 4096)).vlSend link
    else s.vlDown link .retrain x.lanes

/-- RETRY_REQ (R252). -/
def execRetryReq (link req : Nat) (f : LinkFlit) (s : State) : Result := .next (s.vlGotRetry link req f)

/-- RETRY_REQ_RESEND (R251). -/
def execRetryReqResend (link : Nat) (s : State) : Result :=
  if s.vlLive link ∧ (s.vlink link).waitReplay then .next (s.vlRetry link) else .next s

/-- A received REPLAY_START (R251): acceptance resumes at the data flit that follows it. -/
def State.vlGotReplay (s : State) (link req : Nat) (f : LinkFlit) : State :=
  if !s.vlLive link then s
  else
    let s := (s.vlTakeFlit link f).vlSend link
    let x := s.vlink link
    if x.waitReplay ∧ req % 4096 = x.rxFseq then s.setVlink link { x with waitReplay := false } else s

/-- REPLAY_START (R251). -/
def execReplayStart (link req : Nat) (f : LinkFlit) (s : State) : Result := .next (s.vlGotReplay link req f)

/-- The link delay from pin to pin (R248): half of the round trip less 66 ns, the fixed receive and transmit latencies of one node. Of an
odd round trip the half is rounded down (DESIGN CHOICE, log entry 69). -/
def linkDelay (rtt : Nat) : Int := (rtt : Int) / 2 - 66

/-- A TIME flit of a live link (R31, R248): on the source link it forms an offset. -/
def State.vlGotTime (s : State) (link secs ns : Nat) (sync : Bool) (f : LinkFlit) : State :=
  if !s.vlLive link then s
  else
    let s := (s.vlTakeFlit link f).vlSend link
    if s.fld F.clkpwrFtCfgSrc ≠ link + 1 then s
    else
      let off : Int := ((secs * 1000000000 + ns : Nat) : Int) + linkDelay (s.fld F.vlLinkStatusRttNs link) - ((s.nowNs : Nat) : Int)
      { s with clk := { s.clk with offSum := s.clk.offSum + off, offCnt := s.clk.offCnt + 1, srcSync := sync } }

/-- TIME (R31, R248). -/
def execTime (link secs ns : Nat) (sync : Bool) (f : LinkFlit) (s : State) : Result := .next (s.vlGotTime link secs ns sync f)

/-- SYNC of the node as TIME flits carry it. -/
def State.timeSync (s : State) : Bool :=
  if s.fld F.clkpwrFtCfgSrc = 0 ∨ 16 < s.fld F.clkpwrFtCfgSrc then s.flag F.clkpwrFtRateSwSync
  else s.clk.within && s.clk.srcSync

/-- TIME_FLIT_SEND (R248): one TIME flit on each live link. -/
def execTimeFlitSend (s : State) : Result :=
  .next ((List.range 16).foldl (fun t l =>
    if t.vlLive l then t.vlLink l { t.ownFlit l with ltype := 4, secs := t.clk.secs, ns := t.clk.ns, sync := t.timeSync } else t) s)

/-! ### Codewords (R244 to R247) -/

/-- A PARAM flit that comes in a codeword: its TS is kept, and one that echoes a TS of this node is checked (log entry 127). -/
def State.vlParamFlit (s : State) (l : Nat) (f : LinkFlit) : State :=
  let x := s.vlink l
  if x.state ≠ .param then s
  else
    let s := s.setVlink l { x with peerTs := some (f.ts, s.clk.cycles) }
    if f.echo = 0 then s
    else s.vlGotParam l f.node f.link f.lanes f.topo (subMod 64 s.clk.cycles f.echo) f.ready

/-- A link flit that arrives (Table 9.3); one with a reserved LTYPE is discarded (R247). -/
def State.vlGotFlit (s : State) (l : Nat) (f : LinkFlit) : State :=
  match f.ltype with
  | 0 => if s.vlLive l then (s.vlTakeFlit l f).vlSend l else s
  | 1 => s.vlGotRetry l f.req f
  | 2 => s.vlGotReplay l f.req f
  | 3 => s.vlParamFlit l f
  | 4 => s.vlGotTime l f.secs f.ns f.sync f
  | _ => s

/-- A data flit that arrives in a codeword (R251): discarded while REPLAY_START is awaited. -/
def State.vlGotData (s : State) (l vc : Nat) (b : List Byte) : State :=
  let x := s.vlink l
  if !s.vlLive l ∨ x.waitReplay then s
  else
    let s := s.bwCount (8 + l) false 64
    match AMap.find x.rx vc with
    | some r => s.vlArrive l vc r.h 1 b none
    | none => s.vlArrive l vc (withBody (hdrRead b) (b.drop 16)) 1 [] none

/-- A codeword that arrives (R244, R245): corrected where at most 7 of its symbols are wrong, and each of its slots taken in order. -/
def State.vlCodeword (s : State) (l : Nat) (c : List Nat × List Nat) : State :=
  let x := s.vlink l
  if x.state ≠ .param ∧ !s.vlLive l then s
  else
    match rsDecode 272 15 (cwReceived x.lock x.lanes c) with
    | none => s.vlBad l
    | some (w, n) =>
      let s := if 0 < n then s.countSat F.vlLinkFecCorrected l else s
      (List.range 5).foldl (fun t i =>
        if cwData w i then t.vlGotData l (cwVc w) (cwSlot w i) else t.vlGotFlit l (flitRead (cwSlot w i))) s

/-- The bytes that left a link in a slot; one that carried no flit of the outputs carried a STATUS flit. -/
def State.slotSent (s : State) (l n : Nat) : Option VFlit × LinkFlit :=
  let d := s.out.findSome? fun o => match o with | .vlData k m f => if k = l ∧ m = n then some f else none | _ => none
  let f := s.out.findSome? fun o => match o with | .vlFlit k m f => if k = l ∧ m = n then some f else none | _ => none
  (d, f.getD (s.ownFlit l))

/-- Codeword n of a link as its symbols leave on the lanes in use (R244, R245). -/
def State.codewordSent (s : State) (l n : Nat) : List Nat × List Nat :=
  let slots := (List.range 5).map fun i => s.slotSent l (5 * n + i)
  let vc := (slots.findSome? fun e => e.1.map (·.vc)).getD 0
  let mask := ((slots.zip (List.range 5)).map fun e => b2n e.1.1.isSome * 2 ^ e.2).sum
  cwLanes (s.vlink l).lanes (rsEncode 15 (cwMessage (slots.map fun e => match e.1 with | some f => dataBytes f | none => flitBytes e.2) vc mask))

/-- STATUS_FLIT (R249): a STATUS flit, a link flit of another LTYPE, or a whole codeword. -/
def execStatusFlit (link : Nat) (f : LinkFlit) (s : State) : Result :=
  match f.cw with
  | some c => .next (s.vlCodeword link c)
  | none => .next (s.vlGotFlit link f)

/-! ### Packets -/

/-- Flits that wait at a pipeline's injection port. -/
def State.injFlits (s : State) (k : Nat) : Nat :=
  ((s.vl.inj.filter fun e => e.1 / 256 == k).map fun e => (e.2.map (·.len)).sum).sum

/-- The packets that wait at a port for a position. -/
def State.injQueue (s : State) (k d : Nat) : List VHdr := AMap.look [] s.vl.inj (k * 256 + d)

/-- Writes them. -/
def State.setInjQueue (s : State) (k d : Nat) (l : List VHdr) : State :=
  { s with vl := { s.vl with inj := AMap.save [] s.vl.inj (k * 256 + d) l } }

/-- A packet enters the router core from a pipeline: INJ counts it, and it carries the window epoch and its CRC (R259, R268, R271). -/
def State.vlEnter (s : State) (h : VHdr) : State :=
  let w := s.ewin (h.dst % 256)
  let s := s.setEwin (h.dst % 256) { w with inj := (w.inj + 1) % 2 ^ 32 }
  let h := withCrc { h with wepoch := s.wepoch }
  if h.dst = s.nodeId then s.vlHere h true else s.vlForward h 0

/-- Packets that wait for a position enter while fewer than 256 are outstanding to it, at most n, the pipelines in ascending order. -/
def State.injTo (s : State) (d : Nat) : Nat → State
  | 0 => s
  | n + 1 =>
    if 256 ≤ (s.ewin d).out then s
    else
      match (List.range 4).find? fun k => !(s.injQueue k d).isEmpty with
      | none => s
      | some k =>
        match s.injQueue k d with
        | [] => s
        | h :: hs => ((s.setInjQueue k d hs).vlEnter h).injTo d n

/-- Packets that a pipeline keeps until its port has room for them. -/
def State.injKept (s : State) (k : Nat) : List VHdr := AMap.look [] s.vl.kept k

/-- A packet that comes to an injection port: it enters, or waits at the port while 256 are outstanding to its destination (R268). -/
def State.vlTake (s : State) (k : Nat) (h : VHdr) : State :=
  let d := h.dst % 256
  if (s.injQueue k d).isEmpty ∧ (s.ewin d).out < 256 then s.vlEnter h else s.setInjQueue k d (s.injQueue k d ++ [h])

/-- Whether an injection port has room for a packet. -/
def State.injRoom (s : State) (k : Nat) (h : VHdr) : Bool := decide (s.injFlits k + h.len ≤ 2048)

/-- The packets that a pipeline keeps come to its port while it has room for the first, at most n. -/
def State.injMore (s : State) (k : Nat) : Nat → State
  | 0 => s
  | n + 1 =>
    match s.injKept k with
    | [] => s
    | h :: hs =>
      if s.injRoom k h then ({ s with vl := { s.vl with kept := AMap.save [] s.vl.kept k hs } }.vlTake k h).injMore k n else s

/-- Packets that wait at the injection ports enter where their windows allow it, and those that wait for room there follow. -/
def State.injAll (s : State) : State :=
  let s := s.vl.inj.foldl (fun t e => t.injTo (e.1 % 256) e.2.length) s
  s.vl.kept.foldl (fun t e => t.injMore e.1 e.2.length) s

/-- A packet that a pipeline injects: its port takes it, or the pipeline keeps it while the port has no room for it (R268). -/
def State.vlInject (s : State) (k : Nat) (h : VHdr) : State :=
  if (s.injKept k).isEmpty ∧ s.injRoom k h then s.vlTake k h
  else { s with vl := { s.vl with kept := AMap.save [] s.vl.kept k (s.injKept k ++ [h]) } }

/-! ### What an edge of CLK_T brings -/

/-- A link in V_PARAM sends a PARAM flit in every slot, at most n (R255). -/
def State.vlParams (s : State) (l : Nat) : Nat → State
  | 0 => s
  | n + 1 => if s.vlRoom l then (s.vlParam l).vlParams l n else s

/-- The slots that an edge of CLK_T brings are filled (R246, R255). -/
def State.vlEdge (s : State) : State :=
  (List.range 16).foldl (fun t l =>
    if (t.vlink l).state = .param then t.vlParams l 24
    else if t.vlLive l then t.vlSend l
    else t) s

/-- PACKET_HEAD (R259, R263, R268): the head of a packet received on a link and VC where no other packet is arriving, the rest of it behind
it, or injected by pipeline vc mod 4. An injected
packet waits at the port while 256 are outstanding to its destination, and is not taken while the port has no room for it; one for another
rack, to which no window leads, is dropped under NO_ROUTE. -/
def execPacketHead (inp : Option Nat) (vc : Nat) (h : VHdr) (intact : Bool) (s : State) : Result :=
  match inp with
  | some l =>
    if !s.vlLive l ∨ (s.vlink l).waitReplay ∨ (AMap.find (s.vlink l).rx (vc % 8)).isSome then .next s
    else .next (s.vlArrive l (vc % 8) h (max 1 h.len) [] (some intact))
  | none =>
    let d := h.dst % 256
    let k := vc % 4
    let h := { h with src := s.nodeId, hops := 0, det := false, ce := false, proto := 0, wepoch := 0,
                      ect := s.ect != 0, adapt := h.resp, len := flitsOf h.bytes }
    if h.dst / 256 ≠ s.nodeId / 256 then .next (s.countSat (dropField 1))
    else if (s.injQueue k d).isEmpty ∧ (s.ewin d).out < 256 then .next (s.vlEnter h)
    else if s.injFlits k + h.len ≤ 2048 then .next (s.setInjQueue k d (s.injQueue k d ++ [h]))
    else .next s

/-- E2E_CREDIT (R269, R271). -/
def execE2eCredit (src count epoch : Nat) (fresh : Bool) (s : State) : Result :=
  .next (s.vlGotCredit src (count % 2 ^ 32) epoch fresh)

/-- E2E_DROP (R269, R271). -/
def execE2eDrop (dst count epoch : Nat) (s : State) : Result := .next (s.vlGotDrop dst count epoch)

/-- E2E_CREDIT_TIMER (R269): 500 ns after the first packet counted since the last credit. -/
def execE2eCreditTimer (src : Nat) (s : State) : Result :=
  match AMap.find s.vl.recs (src % 256) with
  | some r => if r.count = r.told then .next s else .next (s.vlCredit src)
  | none => .next s

/-- E2E_DROP_COALESCE (R266): the oldest pending notice for a source is sent. -/
def execE2eDropCoalesce (src : Nat) (s : State) : Result :=
  match s.vl.drops.find? (fun d => d.src == src) with
  | none => .next s
  | some d =>
    let s := { s with vl := { s.vl with drops := s.vl.drops.erase d } }
    .next ((s.countSat F.vlE2eCntDropSent).vlMgmt d.src 2 d.reason d.dst d.count d.epoch false)

/-- E2E_TIMEOUT (R270). -/
def execE2eTimeout (dst : Nat) (s : State) : Result :=
  let w := s.ewin (dst % 256)
  if w.out = 0 then .next s
  else .next ((s.setEwin (dst % 256) { w with dropped := subMod 32 w.inj w.seen }).countSat F.vlE2eCntTmoResets)

end Machine
end Sys2Proof
end

