-- ==== Sys2Proof/Machine/TpCore.lean ====
section
/-! DEFINITION. The parts of the Sloale Transport that requester and target share (chapter 7): packets and their lengths, delivery
to a route, encryption of what is sent, the context cache, admission, the transmit scheduler, and what happens when a
connection ends. -/

namespace Sys2Proof
namespace Machine

/-! ### Packets (R184, R185, Table 7.8) -/

/-- Whether a packet kind is a request. -/
def roceIsRequest : RoceOp → Bool
  | .send => true
  | .write => true
  | .readReq => true
  | .cas => true
  | .fadd => true
  | .unsupported => true
  | _ => false

/-- The MTU of a QP in bytes (Table 7.2). -/
def Qp.mtuBytes (x : Qp) : Nat := 1024 * 2 ^ x.mtu

/-- Bytes per packet times a number, cut from data. -/
def chunkOf (data : List Byte) (mtu i : Nat) : List Byte := (data.drop (mtu * i)).take mtu

/-- Packets of an operation (R185): a WRITE or SEND has one per MTU of data, every other operation one. -/
def packetsOf (kind : SltOp) (len mtu : Nat) : Nat :=
  match kind with
  | .write => max 1 ((len + mtu - 1) / mtu)
  | .send => max 1 ((len + mtu - 1) / mtu)
  | _ => 1

/-! ### Encryption of what is sent (R405 to R407) -/

/-- Number of a key set among the sets. -/
def setKey (fn h : Nat) : Nat := fn * 64 + h

/-- A key set. -/
def State.keySet (s : State) (fn h : Nat) : KeySet := AMap.look {} s.prot.sets (setKey fn h)

/-- Writes a key set. -/
def State.setKeySet (s : State) (fn h : Nat) (x : KeySet) : State :=
  { s with prot := { s.prot with sets := AMap.save {} s.prot.sets (setKey fn h) x } }

/-- The number of a QP's own side, and that of its peer's. -/
def State.ownSide (s : State) (q : Nat) : Nat := sideNo s.nodeId q

/-- The number of the other side of a QP's connection. -/
def State.peerSide (s : State) (q : Nat) : Nat := sideNo (s.qp q).peerNode (s.qp q).peerQp

/-- The key of an epoch of the set that a QP is bound to. -/
def State.epochKey (s : State) (q epoch : Nat) : BitVec 256 := (s.keySet (s.qp q).owner (s.qp q).keyh).keys.getD epoch 0

/-- Completes a packet of an encrypted QP: ENC, the TX epoch, and on a packet without PSN the stamp (R405, R406). -/
def State.seal (s : State) (q : Nat) (p : SltPkt) : SltPkt × State :=
  let x := s.qp q
  if !x.enc then (p, s)
  else
    let p := { p with enc := true, epoch := (s.keySet x.owner x.keyh).tx }
    if sltType p.op < 2 then (p, s)
    else
      let st := max s.stamp (x.lastStamp + 1)
      ({ p with probe := some st }, s.setQp q { x with lastStamp := st })

/-! ### Delivery (R54, R173, R280, R289) -/

/-- Length of an Ethernet frame that carries n bytes over UDP, with VLAN tag and FCS (R184, R289). -/
def State.frameLen (s : State) (port dst n : Nat) : Nat :=
  max 64 (14 + (if s.flag F.enPortCfgVlanTx port then 4 else 0) + (if isV4 dst then 20 else 40) + 8 + n + 4)

/-- The source address of a port's packets to an address: the first of the port's own of the same family, or one that nothing fixes where the
hall address table gives none (log entry 135). -/
def State.ownIp (s : State) (port dst : Nat) : Nat × State :=
  match s.img.addrs.find? fun a => a.1 == port && isV4 a.2 == isV4 dst with
  | some a => (a.2, s)
  | none =>
    let (w, s) := s.draw
    (if isV4 dst then 0xFFFF * 2 ^ 32 + w.toNat % 2 ^ 32 else w.toNat, s)

/-- Hands a frame to the port that its path selects, or discards it (R280); its DSCP, where its QP names none, is that of its class, and
CC.CFG.ECT is in its ECN field (R213, R289). A pipeline hands over jobs of one packet each (DESIGN CHOICE, log entry 135: R291 leaves between 1
and 16 to it). -/
def State.ethOut (s : State) (h : Hop) (path cls n : Nat) (c : Encap) (dscp : Option Nat) (k : FrameKind) : State :=
  let up := h.ports.filter fun p => (s.eport p).state == .up
  match up[path % up.length]? with
  | some p =>
    let q := s.fld F.enPrioMapPcp p cls
    let vlan := if s.flag F.enPortCfgVlanTx p then some (q, s.fld F.enPortCfgVid p) else none
    let (src, s) := s.ownIp p c.dst
    let c := { c with mac := h.mac, smac := s.fld F.enMacAddrAddr p, vlan := vlan, src := src, ecn := s.ect,
                      dscp := dscp.getD (s.fld F.enDscpMapDscp p cls) }
    s.enAssign p cls { q := q, len := s.frameLen p c.dst n, cap := c, kind := k }
  | none =>
    match h.ports with
    | p :: _ => s.enCount p 16
    | [] => s

/-- The traffic class of a QP (R229). -/
def State.classOf (s : State) (q : Nat) : Nat := (s.prof q).cls

/-- The Valir header that the transport supplies for a packet (R231, R259): DST, CLASS and PATH, and RESP by its TYPE. -/
def State.rackHdr (s : State) (q : Nat) (p : SltPkt) : VHdr :=
  let resp := sltType p.op != 0
  let n := sltBytes p
  { dst := (s.qp q).peerNode, src := s.nodeId, cls := s.classOf q, ect := s.ect != 0, adapt := resp, resp := resp, path := p.path,
    len := flitsOf n, bytes := n }

/-- UDP source port of an SLT packet (R184). -/
def sltPort (q path : Nat) : Nat := 0xC000 + (q % 1024 * 64 + path) % 0x4000

/-- What protects a packet of a QP, if it is encrypted. -/
def State.sealOf (s : State) (q : Nat) (p : SltPkt) : Option Seal :=
  if p.enc then some { key := s.epochKey q p.epoch, me := s.ownSide q, other := s.peerSide q } else none

/-- A packet that arrives from the peer of an encrypted QP: its payload decrypted, and whether its tag is right (R405, R408). -/
def State.opened (s : State) (q : Nat) (p : SltPkt) : SltPkt × Bool :=
  let key := s.epochKey q p.epoch
  let iv := sltIv (s.peerSide q) (s.ownSide q) p
  ({ p with payload := gcmCrypt key iv p.payload }, p.tag == gcmTag key iv (sltAad p) p.payload)

/-- Sends a packet of a QP: sealed, counted, and delivered on the Valir fabric or over Ethernet. -/
def State.sltOut (s : State) (q : Nat) (p : SltPkt) : State :=
  let x := s.qp q
  let p := { p with srcNode := s.nodeId, dstNode := x.peerNode, srcQp := q, dstQp := x.peerQp }
  let (p, s) := s.seal q p
  let s := s.countWrap F.tpPipeTxPkts (q % 4)
  let s := s.count x.owner 0x22 q p.payload.length
  if x.peerNode / 256 = s.nodeId / 256 then
    let wire := sltSealed (s.sealOf q p) p
    let h := { s.rackHdr q p with body := sltWire wire }
    (s.emit (.slt h wire)).vlInject (q % 4) h
  else
    match AMap.find s.img.racks (x.peerNode / 256), AMap.find s.img.nodeIps x.peerNode with
    | some h, some ip =>
      let y := s.qp q
      let s := s.setQp q { y with ident := (y.ident + 1) % 65536 }
      s.ethOut h p.path (s.classOf q) (sltBytes p) { dst := ip, ident := y.ident, sport := sltPort q p.path, dport := s.fld F.tpCfgSltPort } none
        (.slt p (s.sealOf q p))
    | _, _ => s

/-- Sends a RoCEv2 packet of a QP (R208). -/
def State.roceOut (s : State) (q : Nat) (p : RocePkt) : State :=
  let x := s.qp q
  let p := { p with dstQp := x.peerQp }
  let s := (s.countWrap F.tpPipeTxPkts (q % 4)).count x.owner 0x22 q p.payload.length
  match AMap.find s.img.peers x.peerIp with
  | some h =>
    let s := s.setQp q { x with ident := (x.ident + 1) % 65536 }
    s.ethOut h 0 (s.classOf q) (roceBytes p) { dst := x.peerIp, ident := x.ident, sport := x.udpSrc, dport := 4791, hopLim := some x.hopLim } (some (x.tclass / 4))
      (.roce q p)
  | none => s

/-- Whether a QP's peer can be reached by the structure image's routes. -/
def State.qpRoute (s : State) (q : Nat) : Bool :=
  let x := s.qp q
  if x.roce then (AMap.find s.img.peers x.peerIp).isSome else s.hasRoute x.peerNode

/-- ALIVE_REL of a packet sent now (R200). -/
def Qp.relOut (x : Qp) : Nat :=
  match x.live with
  | o :: _ => o.alive
  | [] => x.alive

/-- Counts a NOT_READY refusal sent. -/
def State.nrSent (s : State) (q : Nat) : State := s.countSat F.tpPipeCntNrSent (q % 4)

/-- Sends a NAK for a PSN, CUM beside it. -/
def State.sendNak (s : State) (q psn : Nat) (st : Status) (path : Nat) : State :=
  let s := if st = .notReady then s.nrSent q else s
  s.sltOut q { op := .nak, psn := (s.qp q).cum, a := psn, status := st.code, path := path, aliveRel := (s.qp q).relOut }

/-- Bits of the selective acknowledgement: PSNs received above CUM (Table 7.9). -/
def Qp.sackBits (x : Qp) : List Nat := (List.range 512).filter fun i => x.rcvd.contains ((x.cum + 1 + i) % 2 ^ 32)

/-- Frees the records of operations that are done at the target and whose last acknowledgement and responses have been sent (R175). -/
def State.freeOwed (s : State) (q : Nat) : State :=
  let x := s.qp q
  if x.ackDue ∨ x.owed.isEmpty then s
  else
    let late := fun (o : Nat × Nat) => x.resps.any fun r => r.alive == o.1
    (x.owed.filter fun o => !late o).foldl (fun t o => t.freeJrec (some o.2)) (s.setQp q { x with owed := x.owed.filter late })

/-- Sends an ACK: CUM, SACK, the echo of a probe, and a congestion mark recorded since the last ACK (R193, R215). -/
def State.sendAck (s : State) (q echo path : Nat) : State :=
  let x := s.qp q
  let p : SltPkt := { op := .ack, psn := x.cum, a := echo, sack := if x.rcvd.isEmpty then [] else x.sackBits, ceEcho := x.ceSeen,
                      path := path, aliveRel := x.relOut }
  ((s.setQp q { x with ackDue := false, ceSeen := false }).sltOut q p).freeOwed q

/-! ### Receipt (R188) -/

/-- Marks a PSN received; CUM passes every run of received ones. -/
def Qp.receive (x : Qp) (psn : Nat) : Qp :=
  let r := if x.rcvd.contains psn then x.rcvd else x.rcvd ++ [psn]
  let c := runFrom r r.length x.cum
  { x with cum := c, rcvd := r.filter fun p => decide (subMod 32 p c < 2 ^ 31) }

/-- The classes of Table R188. -/
inductive PsnClass where
  | new | duplicate | old | beyond
  deriving DecidableEq, Repr

/-- The class of a PSN. -/
def Qp.classify (x : Qp) (psn : Nat) : PsnClass :=
  if subMod 32 psn x.cum < 512 then (if x.rcvd.contains psn then .duplicate else .new)
  else if subMod 32 (subMod 32 x.cum 1) psn < 2 ^ 31 then .old
  else .beyond


/-- Acknowledges a packet that was applied: at once if it asks for it, else later (R193). -/
def State.tgtAck (s : State) (q : Nat) (p : SltPkt) : State :=
  if p.ackReq then s.sendAck q (p.probe.getD 0) p.path
  else s.setQp q { s.qp q with ackDue := true }

/-! ### The context cache (R177) -/

/-- A pipeline. -/
def State.pipe (s : State) (k : Nat) : Pipeline := AMap.look {} s.pipes k

/-- Writes a pipeline. -/
def State.setPipe (s : State) (k : Nat) (x : Pipeline) : State := { s with pipes := AMap.save {} s.pipes k x }

/-- Puts a QP first in its set, dropping the least recently used of more than 8. -/
def Pipeline.use (x : Pipeline) (q : Nat) : Pipeline :=
  let i := (q / 4) % 1024
  let l := AMap.look [] x.sets i
  { x with sets := AMap.save [] x.sets i ((q :: l.filter (· != q)).take 8) }

/-- Whether a QP's context is on die. -/
def Pipeline.holds (x : Pipeline) (q : Nat) : Bool := (AMap.look [] x.sets ((q / 4) % 1024)).contains q

/-- Whether a read of the QP's context is outstanding. -/
def State.qpMissing (s : State) (q : Nat) : Bool := (s.pipe (q % 4)).miss.any fun m => m.qp == q

/-- Whether the miss buffer of a QP's pipeline is full: heads are not accepted then. -/
def State.missFull (s : State) (q : Nat) : Bool := decide (64 ≤ (s.pipe (q % 4)).miss.length)

/-- Looks a QP's context up for a packet or an operation: a hit, or an entry in the miss buffer. One that joins a read that is outstanding
counts as neither (DESIGN CHOICE, log entry 133: R177 merges the misses into one read). -/
def State.touch (s : State) (m : MissEntry) : Bool × State :=
  let k := m.qp % 4
  let x := s.pipe k
  if x.miss.any (fun e => e.qp == m.qp) then (false, s.setPipe k { x with miss := x.miss ++ [m] })
  else if x.holds m.qp then (true, (s.setPipe k (x.use m.qp)).countSat F.tpQpcCacheHits)
  else (false, (s.setPipe k { x with miss := x.miss ++ [m] }).countSat F.tpQpcCacheMisses)

/-! ### Admission (R175, R182, R200) -/

/-- Whether a QP's context is on die: it is read for no one. -/
def State.onDie (s : State) (q : Nat) : Bool := (s.pipe (q % 4)).holds q && !s.qpMissing q

/-- Whether a QP may admit one more operation (R182, R200): while the miss buffer is full, only one whose context is on die (R177). -/
def State.mayAdmit (s : State) (q : Nat) : Bool :=
  (s.qp q).up && decide ((s.qp q).live.length < 16384) && (!s.missFull q || s.onDie q)

/-- Whether an operation ends the open batch of its QP (R147, R151). -/
def TpOp.endsBatch (o : TpOp) : Bool := o.notify || o.kind != .write

/-- The opcode of Table 5.3 for an operation of the requester. -/
def sltOpcode : SltOp → Nat
  | .write => 0x10 | .readReq => 0x11 | .send => 0x12 | .fadd => 0x14 | .cas64 => 0x15 | .cas128 => 0x16 | _ => 0x18

/-- Admits an operation on a QP that may admit it: ALIVE, number of packets, batch (R147, R200), and a Journal record for one
that has no descriptor (R175). -/
def State.tpAdmit (s : State) (q : Nat) (o : TpOp) : State :=
  let s := (s.touch { qp := q }).2
  let x := s.qp q
  let (o, s) := match o.owner, o.jrec with
    | .queue _, _ => (o, s)
    | _, some _ => (o, s)
    | _, none =>
      match s.takeRec (q % 4) { role := 0, opcode := sltOpcode o.kind, fn := x.owner, qp := q, 
                                target := if o.kind = SltOp.send then 0 else s.formed x.owner q o.key o.off, len := o.len, rkey := o.key,
                                notify := o.endsBatch } with
      | some (i, t) => ({ o with jrec := some i }, t)
      | none => (o, s)
  let o := { o with alive := x.alive, npkt := packetsOf o.kind o.len x.mtuBytes, batch := x.batch, ends := o.endsBatch }
  let y := { x with ops := x.ops ++ [o], alive := (x.alive + 1) % 65536 }
  let y := if o.ends then { y with batch := x.batch + 1, batchWrites := 0 } else { y with batchWrites := x.batchWrites + 1 }
  let s := s.setQp q y
  if o.kind = .write ∨ o.kind = .send then s.icAdmit 1 x.owner q o.alive else s

/-- Whether a QP may admit an operation that has no descriptor: the slice of its pipeline has a free record too (R175). -/
def State.mayTake (s : State) (q : Nat) : Bool := s.mayAdmit q && (s.freeRec (q % 4)).isSome

/-- Admits an operation that has no descriptor, or lets it wait behind those that do. -/
def State.tpAsk (s : State) (q : Nat) (o : TpOp) : State :=
  let x := s.qp q
  if x.asks.isEmpty && s.mayTake q then s.tpAdmit q o else s.setQp q { x with asks := x.asks ++ [o] }

/-- Admits operations that wait, oldest first, at most n. -/
def State.takeAsks (s : State) (q : Nat) : Nat → State
  | 0 => s
  | n + 1 =>
    let x := s.qp q
    match x.asks with
    | [] => s
    | o :: os => if s.mayTake q then ((s.setQp q { x with asks := os }).tpAdmit q o).takeAsks q n else s

/-! ### Ends of operations -/

/-- Puts an ended operation where its owner will be told. -/
def State.ended (s : State) (d : Done) : State := { s with dones := s.dones ++ [d] }

/-- Puts ended turnstile operations there. -/
def State.tsEnded (s : State) (ds : List TsDone) : State :=
  ds.foldl (fun t d => t.ended { whom := .ts d.src, st := d.st, result := d.result, abandoned := d.abandoned }) s

/-- Whether a kind of operation is answered by a response (Table 7.11). -/
def sltAwaits : SltOp → Bool
  | .write => false
  | .send => false
  | _ => true

/-- Whether an outstanding packet is one of an operation. -/
def OutPkt.isOf (k : OutPkt) (o : TpOp) : Bool := k.resp.isNone && k.alive == o.alive

/-- Drops what an ended operation leaves behind: it is kept while packets it sent are outstanding (R188). -/
def Qp.prune (x : Qp) : Qp :=
  let ops := x.ops.filter fun o => !o.ended || x.out.any fun k => !k.acked && k.isOf o
  let out := x.out.filter fun k => !k.acked || ops.any fun o => !o.ended && k.isOf o
  { x with ops := ops, out := out,
           retx := x.retx.filter fun p => out.any fun k => k.psn == p && (!k.acked || (k.idx == 0 && ops.any fun o => !o.ended && k.isOf o)) }

/-- The packet outstanding with a PSN. -/
def Qp.sentAs (x : Qp) (psn : Nat) : Option OutPkt := x.out.find? fun k => k.psn == psn

/-- The operation that owns a PSN that has been sent. -/
def Qp.ownerOf (x : Qp) (psn : Nat) : Option TpOp :=
  (x.sentAs psn).bind fun k => x.ops.find? fun o => k.isOf o && decide (0 < o.tx)

/-- Ends an operation of a requester with a status: its record is freed, and its owner will be told. -/
def State.tpEnd (s : State) (q alive : Nat) (st : Status) (result : Nat := 0) (data : List Byte := [])
    (abandoned : Bool := false) : State :=
  let x := s.qp q
  match x.ops.find? fun o => o.alive == alive && !o.ended with
  | none => s
  | some o =>
    let ops := x.ops.map fun y => if y.alive = alive ∧ !y.ended then { y with ended := true, npkt := y.tx } else y
    let fails := if o.kind = .write ∧ !o.notify ∧ st ≠ .ok then x.batchFails ++ [(o.batch, o.alive, st)] else x.batchFails
    let s := s.setQp q { x with ops := ops, batchFails := fails }.prune
    let s := match o.owner with
      | .queue _ => s
      | _ => s.freeJrec o.jrec
    let s :=
      if o.kind = .write ∨ o.kind = .send then
        (if st = .ok then s.icDone 1 x.owner q o.alive o.data else s.icDrop 1 x.owner q o.alive)
      else s
    let count := if st = .ok then (match o.kind with | .write => o.len | .send => o.len | .readReq => o.len | _ => 0) else 0
    s.ended { whom := .tp o.owner, st := st, count := count, result := result, data := data, abandoned := abandoned }

/-- The batches in front: a notify write not yet sent whose batch has failed writes ends once every write of it has
(R150), with the status of the first in posting order. -/
def State.batchFail (s : State) (q : Nat) : Nat → State
  | 0 => s
  | n + 1 =>
    let x := s.qp q
    let live := x.live
    match live.find? fun o => o.notify && o.kind == .write && o.tx == 0 && x.relaxed &&
        x.batchFails.any (fun f => f.1 == o.batch) &&
        !live.any (fun w => w.batch == o.batch && w.alive != o.alive) with
    | none => s
    | some o =>
      let st := match (x.batchFails.filter fun f => f.1 == o.batch).foldl
          (fun (b : Option (Nat × Status)) f =>
            match b with
            | none => some (subMod 16 o.alive f.2.1, f.2.2)
            | some (d, st) => if d < subMod 16 o.alive f.2.1 then some (subMod 16 o.alive f.2.1, f.2.2) else some (d, st)) none with
        | some (_, st) => st
        | none => Status.ok
      (s.tpEnd q o.alive st).batchFail q n

/-! ### The scheduler (R229, R230, R543) -/

/-- Whether the next packet of an operation waits: for its bytes, or for an earlier operation of its QP: on a strict QP for any
whose data are not at hand, on a relaxed one the end of a batch does; and a notify write whose batch has a failed write is not sent
(R128, R145, R150, Table 3.14). -/
def Qp.waits (x : Qp) (o : TpOp) : Bool :=
  (!o.ready && (decide (o.len ≤ o.tx * x.mtuBytes) || decide (o.avail < min o.len ((o.tx + 1) * x.mtuBytes)))) ||
  ((!x.relaxed || o.ends) &&
    x.ops.any fun w => !w.ended && !w.ready && decide (0 < subMod 16 o.alive w.alive ∧ subMod 16 o.alive w.alive < 2 ^ 15)) ||
  (x.relaxed && o.notify && o.tx == 0 && x.batchFails.any fun f => f.1 == o.batch)

/-- The place and length of packet i of an operation in the local buffer that its descriptor names. -/
def Op.chunkAt (d : Op) (mtu : Nat) (o : TpOp) (i : Nat) : Nat × Nat := (d.d.laddr + mtu * i, min mtu (o.len - mtu * i))

/-- Whether the data of packet i of an operation can be copied from its local buffer at once: there are none, they came with the operation,
or the buffer is not in host memory (R196). -/
def State.copyNear (s : State) (q : Nat) (o : TpOp) (i : Nat) : Bool :=
  match o.owner with
  | .queue r =>
    (match s.op r with
     | some d =>
       let c := d.chunkAt (s.qp q).mtuBytes o i
       sltAwaits o.kind || c.2 == 0 || (if d.d.lkind then fgaSpace d.d.laddr != 2 else (s.haReadHbm (s.opEng d) c.1 c.2).isSome)
     | none => true)
  | _ => true

/-- Whether a packet that is due for retransmission has its data at hand. -/
def State.copyReady (s : State) (q : Nat) (k : OutPkt) (o : TpOp) : Bool := k.fresh || s.copyNear q o k.idx

/-- The packets due for retransmission of a QP's operations, in order. -/
def Qp.due (x : Qp) : List (OutPkt × TpOp) :=
  x.retx.filterMap fun p => (x.sentAs p).bind fun k => (x.ownerOf p).map fun o => (k, o)

/-- The next packet of a QP: an operation, the packet's number in it, and whether it is a retransmission, which goes first (R230). A
retransmission waits for its data; on RoCEv2 everything behind it does. -/
def State.nextPkt (s : State) (q : Nat) : Option (TpOp × Nat × Bool) :=
  let x := s.qp q
  match x.due.find? fun e => x.roce || s.copyReady q e.1 e.2 with
  | some (k, o) => if s.copyReady q k o then some (o, k.idx, true) else none
  | none =>
    match x.ops.find? fun o => !o.ended && decide (o.tx < o.npkt) && !x.waits o with
    | none => none
    | some o =>
      if x.win ≤ x.outstanding then none
      else if x.enc ∧ 2 ^ 31 ≤ (s.keySet x.owner x.keyh).psns then none
      else some (o, o.tx, false)

/-- Whether the next request packet of a QP carries a probe (R217). -/
def State.probes (s : State) (q : Nat) : Bool := !(s.qp q).roce && (s.qp q).probeDue && (s.prof q).rttEn

/-- The bytes of a packet of an operation on the router-core path, with a probe or without; those of its data, read or not. -/
def State.pktBytes (s : State) (q : Nat) (o : TpOp) (i : Nat) (probe : Bool) : Nat :=
  let x := s.qp q
  let pay := if sltAwaits o.kind then 0 else min x.mtuBytes (o.len - x.mtuBytes * i)
  if x.roce then
    let rp : RocePkt := { op := (match o.kind with | .write => .write | .readReq => .readReq | .fadd => .fadd | .cas64 => .cas | _ => .send),
                          first := i == 0, last := i + 1 == o.npkt }
    roceBytes rp + (pay + 3) / 4 * 4
  else
    40 + (if probe then 8 else 0) + sltExt o.kind + pay + (if x.enc then 16 else 0)

/-- What a packet is charged (R223). -/
def State.chargeOf (s : State) (q : Nat) (o : TpOp) (i : Nat) (probe : Bool) : Nat := s.pktBytes q o i probe + (s.prof q).overhead

/-- What the next packet of a QP is charged. -/
def State.charge (s : State) (q : Nat) (o : TpOp) (i : Nat) : Nat := s.chargeOf q o i (s.probes q)

/-- The eligible packet of a QP, with its charge (R229). -/
def State.eligible (s : State) (q : Nat) : Option Nat :=
  let x := s.qp q
  if !x.up ∨ !s.onDie q ∨ (s.pipe (q % 4)).recovering ≠ 0 then none
  else
    match s.nextPkt q with
    | none => none
    | some (o, i, _) =>
      let n := s.charge q o i
      if (s.shaper (shpObj false q)).allows n ∧ (s.shaper (shpObj true x.owner)).allows n then some n else none

/-- The enabled paths that are not suspect, or every enabled path where none is (R189). -/
def Qp.usable (x : Qp) : List Nat :=
  let ok := (List.range 64).filter fun p => bit x.paths p && !bit x.suspect p
  if ok.isEmpty then (List.range 64).filter (bit x.paths) else ok

/-- The next usable path after one, in turn. -/
def Qp.pathAfter (x : Qp) (p : Nat) : Nat :=
  match x.usable.find? (fun r => decide (p < r)) with
  | some r => r
  | none => x.usable.headD 0

/-- The retransmission timeout of a QP in ns (R196). -/
def Qp.rto (x : Qp) : Nat := max (x.rtoMin * 1000) (x.srtt + 4 * x.rttvar)

/-- A request packet of an operation with its PSN (Tables 7.7 and 7.8); the offset of an atomic and of a TS_OP travels in OFFSET (log
entry 14). -/
def Qp.reqPkt (x : Qp) (o : TpOp) (i psn : Nat) : SltPkt :=
  let p : SltPkt := { op := o.kind, first := i == 0, last := i + 1 == o.npkt, notify := o.notify, psn := psn,
                      alive := o.alive, aliveRel := x.relOut, var := o.var, key := o.key, offset := o.off, a := o.a, b := o.b }
  match o.kind with
  | .write => { p with mlen := o.len, offset := o.off + x.mtuBytes * i, payload := chunkOf o.data x.mtuBytes i }
  | .send => { p with mlen := o.len, key := o.off, offset := x.mtuBytes * i, payload := chunkOf o.data x.mtuBytes i }
  | .readReq => { p with mlen := o.len }
  | _ => p

/-- A RoCEv2 request packet of an operation (R208, R209): R_Key is the window key, the virtual address the offset. -/
def Qp.roceReq (x : Qp) (o : TpOp) (i psn : Nat) (ackReq : Bool) : RocePkt :=
  { op := (match o.kind with | .write => .write | .readReq => .readReq | .fadd => .fadd | .cas64 => .cas | _ => .send),
    first := i == 0, last := i + 1 == o.npkt, psn := psn, ackReq := ackReq, rkey := o.key, va := o.off,
    len := o.len, a := o.a, b := o.b, payload := if sltAwaits o.kind then [] else chunkOf o.data x.mtuBytes i }

/-- PSNs that an operation takes: one a packet, and on RoCEv2 a READ takes one for each response packet. -/
def Qp.psnsOf (x : Qp) (o : TpOp) : Nat :=
  if x.roce ∧ o.kind = .readReq then max 1 ((o.len + x.mtuBytes - 1) / x.mtuBytes) else 1

/-- Puts the bytes of packet i of an operation into its data. -/
def TpOp.withChunk (o : TpOp) (mtu i : Nat) (bs : List Byte) : TpOp :=
  { o with data := o.data.take (mtu * i) ++ bs ++ o.data.drop (mtu * i + bs.length) }

/-- The data of a packet that is sent again are copied again from the local buffer (R196): here where they can be read at once; those of a
buffer in host memory have been read by then. -/
def State.copyAgain (s : State) (q : Nat) (o : TpOp) (i : Nat) : State × TpOp :=
  let x := s.qp q
  match o.owner with
  | .queue r =>
    (match s.op r with
     | some d =>
       let c := d.chunkAt x.mtuBytes o i
       if sltAwaits o.kind || c.2 == 0 || x.out.any (fun k => k.isOf o && k.idx == i && k.fresh) then (s, o)
       else
         (match s.gather d d.d.lkind c.1 c.2 with
          | .data t bs =>
            let o' := o.withChunk x.mtuBytes i bs
            let x := t.qp q
            (t.setQp q { x with ops := x.ops.map fun z => if z.alive = o.alive then { z with data := o'.data } else z }, o')
          | _ => (s, o))
     | none => (s, o))
  | _ => (s, o)

/-- The data of a packet have been read again from host memory: its retransmission may leave. -/
def State.copied (s : State) (o : Op) (i : Nat) (bs : List Byte) : State :=
  let x := s.qp o.d.qp
  let mine := fun (t : TpOp) => t.owner == .queue o.ref && !t.ended
  let put := fun (t : TpOp) => if mine t then t.withChunk x.mtuBytes i bs else t
  let mark := fun (k : OutPkt) => if k.idx = i ∧ x.ops.any (fun t => mine t && k.isOf t) then { k with fresh := true } else k
  (s.setQp o.d.qp { x with ops := x.ops.map put, out := x.out.map mark }).updOp o.ref fun y =>
    { y with phase := .engine, seg := y.d.len, buf := [], xl := [], again := none }

/-- Reads the data of packet i of an operation again from its local buffer in host memory (R196, R90). -/
def State.copyGo (s : State) (o : Op) (i : Nat) : State :=
  let x := s.qp o.d.qp
  match x.ops.find? fun t => t.owner == .queue o.ref && !t.ended with
  | none => s
  | some t =>
    let c := o.chunkAt x.mtuBytes t i
    match s.localRange (s.opEng o) o.d.lkind c.1 c.2 .read with
    | .ok =>
      (match s.gather o o.d.lkind c.1 c.2 with
       | .data u bs => u.copied o i bs
       | .reads u => u
       | .wait => s.holdOp o.ref)
    | res => s.meetRange { o with seg := x.mtuBytes * i } res false fun u st => u.tpEnd o.d.qp t.alive st

/-- The packets due for retransmission whose data lie in host memory are read again, one of an operation at a time. -/
def State.copyDue (s : State) (q : Nat) : State :=
  (s.qp q).due.foldl (fun t e =>
    match e.2.owner with
    | .queue r =>
      (match t.op r with
       | some o =>
         if t.copyReady q e.1 e.2 ∨ o.phase ≠ .engine ∨ o.again.isSome then t
         else (t.updOp r fun y => { y with again := some e.1.idx }).copyGo { o with again := some e.1.idx } e.1.idx
       | none => t)
    | _ => t) s

/-- The context of a QP that has something to send is brought on die, where it is not (R177). -/
def State.fetchCtx (s : State) (q : Nat) : State :=
  let x := s.qp q
  if !x.up ∨ s.onDie q ∨ s.qpMissing q ∨ s.missFull q then s
  else if (s.nextPkt q).isSome || !x.resps.isEmpty || !x.retx.isEmpty then (s.touch { qp := q }).2
  else s

/-- Sends one request packet of a QP: PSN, path, transmission count, probe, charge, and the record of what is outstanding
(R187 to R189, R193, R217, R223, R224). A packet of a re-issued record carries RETX and ACKREQ, sent before or not (R449). -/
def State.sendPkt (s : State) (q : Nat) (o : TpOp) (i : Nat) (again : Bool) : State :=
  let (s, o) := if again then s.copyAgain q o i else (s, o)
  let x := s.qp q
  let n := s.charge q o i
  let old := if again then x.out.find? fun k => k.isOf o && k.idx == i else none
  let psn := (old.map (·.psn)).getD x.spsn
  let o := if i = 0 ∧ !again then { o with psn := psn } else o
  let own := match again, old with
    | true, some k => k.txcnt + 1
    | _, _ => 0
  let txcnt := min 255 (max own (o.redo.getD 0))
  let retx := again || o.redo.isSome
  let path := match again, old with
    | true, some k => x.pathAfter k.path
    | _, _ => x.pathAfter x.lastPath
  let probe := s.probes q
  let last := i + 1 == o.npkt
  let ackReq := last || psn % 32 == 31 || retx || probe
  let k : OutPkt := { psn := psn, alive := o.alive, idx := i, path := path, txcnt := txcnt, sent := s.nowNs, seq := x.txSeq,
                      rto := (match again, old with | true, some k => k.rto | _, _ => x.rto) }
  let out := if again then x.out.map (fun y => if y.psn = psn then k else y) else x.out ++ [k]
  let step := x.psnsOf o
  let y := { x with
    out := out, shapedAt := none, txSeq := x.txSeq + 1, retx := x.retx.filter (· != psn),
    lastPath := if again then x.lastPath else path, probeDue := x.probeDue && !probe,
    spsn := if again then x.spsn else (x.spsn + step) % (if x.roce then 2 ^ 24 else 2 ^ 32),
    ops := x.ops.map fun z => if z.alive = o.alive ∧ z.kind = o.kind ∧ z.tx = o.tx ∧ z.ended = o.ended then
      (if again then z else { z with psn := o.psn, tx := i + 1 }) else z }
  let s := s.setQp q y
  let a := s.shaper (shpObj false q)
  let s := s.setShaper (shpObj false q) (a.charge n)
  let b := s.shaper (shpObj true x.owner)
  let s := s.setShaper (shpObj true x.owner) (b.charge n)
  let s := if x.enc ∧ !again then
      let ks := s.keySet x.owner x.keyh
      s.setKeySet x.owner x.keyh { ks with psns := ks.psns + 1 }
    else s
  let s := s.count x.owner 0x20 q
  let s := if again then s.count x.owner 0x21 q else s
  let mark := fun (j : JRec) =>
    let st := if j.state = .replay then .active else j.state
    { j with firstPsn := o.psn, alive := o.alive, nunits := o.npkt, txmax := max j.txmax txcnt, replayed := j.replayed || retx, state := st }
  let s := s.updJrec o.jrec mark
  let s := match o.owner, retx with
    | .queue r, true => s.updOp r fun y => { y with reissued := true }
    | _, _ => s
  if x.roce then s.roceOut q (y.roceReq o i psn ackReq)
  else
    let p := y.reqPkt o i psn
    s.sltOut q { p with ackReq := ackReq, retx := retx, txcnt := txcnt, path := path,
                        probe := if probe then some s.stamp else none }

/-! ### Responses (R188, R190, R201, R202) -/

/-- Whether a QP's window takes one more packet, and its key one more PSN (R188, R407). -/
def State.respRoom (s : State) (q : Nat) : Bool :=
  let x := s.qp q
  decide (x.outstanding < x.win) && !(x.enc && decide (2 ^ 31 ≤ (s.keySet x.owner x.keyh).psns))

/-- Sends a response: it takes the next PSN of its direction and is outstanding until it is acknowledged (R188, log entry 126); it passes no
shaper (R223). -/
def State.sendResp (s : State) (q : Nat) (r : SltPkt) : State :=
  let x := s.qp q
  let p := { r with psn := x.spsn, ackReq := x.spsn % 32 == 31 }
  let k : OutPkt := { psn := x.spsn, alive := r.alive, resp := some p, path := r.path, sent := s.nowNs, seq := x.txSeq, rto := x.rto }
  let s := s.setQp q { x with out := x.out ++ [k], txSeq := x.txSeq + 1, spsn := (x.spsn + 1) % 2 ^ 32 }
  let s := if x.enc then
      let ks := s.keySet x.owner x.keyh
      s.setKeySet x.owner x.keyh { ks with psns := ks.psns + 1 }
    else s
  s.sltOut q { p with aliveRel := (s.qp q).relOut }

/-- Sends a response of a QP, or keeps it until the window takes it. -/
def State.respond (s : State) (q : Nat) (r : SltPkt) : State :=
  let x := s.qp q
  if x.resps.isEmpty && s.respRoom q then s.sendResp q r else s.setQp q { x with resps := x.resps ++ [r] }

/-- Sends responses that wait for the window, oldest first, at most n. -/
def State.flushResps (s : State) (q : Nat) : Nat → State
  | 0 => s
  | n + 1 =>
    let x := s.qp q
    match x.resps with
    | [] => s
    | r :: rs => if s.respRoom q then (((s.setQp q { x with resps := rs }).sendResp q r).freeOwed q).flushResps q n else s

/-- Whether the next packet of a QP is the first that a record in J_REPLAY issues again (R449). -/
def State.redoes (s : State) (q : Nat) : Bool :=
  match s.nextPkt q with
  | some (o, _, _) => (o.jrec.bind (AMap.find s.jnl)).any fun j => j.state == .replay
  | none => false

/-- The eligible QPs of a pipeline with class and charge, in ascending order: while records are in J_REPLAY, those alone whose next packet is
the first of one (R449). -/
def State.cands (s : State) (k : Nat) : List (Nat × Nat × Nat) :=
  let all := (s.qps.filter fun e => e.1 % 4 == k).filterMap fun e =>
    (s.eligible e.1).map fun n => (e.1, s.classOf e.1, n)
  let first := all.filter fun e => s.redoes e.1
  if first.isEmpty then all else first

/-- The eligible QP of a class whose turn it is, among those whose charge a limit allows. -/
def turnOf (c : List (Nat × Nat × Nat)) (cls : Nat) (last : Option Nat) (limit : Nat) : Option (Nat × Nat) :=
  let l : List (Nat × Nat × Nat) := c.filter fun e => e.2.1 == cls && decide (e.2.2 ≤ limit)
  let after : Option (Nat × Nat × Nat) := match last with
    | some q => l.find? fun e => decide (q < e.1)
    | none => none
  (after.or l.head?).map fun e => (e.1, e.2.2)

/-- The deficit round robin of one decision: at most n visits (R543). The class that is visited as the decision begins goes on with its visit;
each class then becomes visited at most once. -/
def State.drr (s : State) (c : List (Nat × Nat × Nat)) (d : Sched) (strict : Nat) : Nat → Sched × Option Nat
  | 0 => (d, none)
  | n + 1 =>
    let v := if bit strict d.visited then
        ((List.range 8).map fun i => (d.visited + 1 + i) % 8).find? (fun i => !bit strict i) |>.getD d.visited
      else d.visited
    let fresh := !d.entered || v != d.visited
    let def0 := AMap.look 0 d.deficit v + (if fresh then max 1 (s.fld F.ccTxweightQuantum 0 v) * 256 else 0)
    let d := { d with visited := v, entered := true, deficit := AMap.save 0 d.deficit v def0 }
    match turnOf c v (AMap.find d.last v) def0 with
    | some (q, w) =>
      ({ d with deficit := AMap.save 0 d.deficit v (def0 - w), last := AMap.put d.last v q }, some q)
    | none =>
      let d := if c.any (fun e => e.2.1 == v) then d else { d with deficit := AMap.save 0 d.deficit v 0 }
      if n = 0 then (d, none)
      else
        let nx := ((List.range 8).map fun i => (v + 1 + i) % 8).find? (fun i => !bit strict i) |>.getD v
        s.drr c { d with visited := nx, entered := false } strict n

/-- One decision of a pipeline's scheduler: the QP whose packet starts (R230). -/
def State.schedPick (s : State) (k : Nat) (c : List (Nat × Nat × Nat)) : Option Nat × State :=
  let d := AMap.look {} s.cc.scheds k
  let strict := s.fld F.ccTxschedStrict
  match ((List.range 8).reverse.filter (bit strict)).findSome? (fun cls =>
      (turnOf c cls (AMap.find d.last cls) (2 ^ 64)).map fun e => (cls, e.1)) with
  | some (cls, q) =>
    (some q, { s with cc := { s.cc with scheds := AMap.put s.cc.scheds k { d with last := AMap.put d.last cls q } } })
  | none =>
    let m := ((List.range 8).filter fun i => !bit strict i).length + b2n (d.entered && !bit strict d.visited)
    let (d', q) := s.drr c d strict m
    (q, { s with cc := { s.cc with scheds := AMap.put s.cc.scheds k d' } })

/-! ### When a connection ends -/

/-- Locks held by a function of another node are abandoned when no QP of this node is connected to it any more (R170). -/
def State.lastQpGone (s : State) (u : User) : State :=
  if s.qps.any fun e => e.2.up && e.2.peerNode == u.node && e.2.peerFn == u.fn && !e.2.roce then s
  else
    let (s, ds) := s.abandonLocks (· == u)
    s.tsEnded ds

/-- What a QP that leaves the connected state loses (R159, R169, R170, R182, R201, R220): operations and RECVs complete with
a status, waiters that came over it, target records and responder-cache entries, imports made over it, rate control. -/
def State.qpLeaves (s : State) (q : Nat) (st : Status) : State :=
  let x := s.qp q
  let s := x.live.foldl (fun t o => t.tpEnd q o.alive st) s
  let s := x.asks.foldl (fun t o => t.ended { whom := .tp o.owner, st := st }) s
  let s := x.recvs.foldl (fun t r => t.completeRef r.1 st) s
  let s := x.tops.foldl (fun t o => match o.recv with
    | some r => t.completeRef r st
    | none => t) s
  let s := x.owed.foldl (fun t o => t.freeJrec (some o.2)) (x.tops.foldl (fun t o => t.freeJrec o.jrec) s)
  let s := match x.rmsg with
    | some m => s.freeJrec m.jrec
    | none => s
  let (s, _) := s.dropWaiters (fun w => match w.src with | .packet k _ => k == q | _ => false) .unreachable
  let stale := fun (r : Import) =>
    if r.qp = q ∧ r.fn = x.owner ∧ r.state = .imported then { r with state := .stale, time := s.stamp } else r
  let s := { s with imports := s.imports.map stale }
  let y := s.qp q
  let s := s.setQp q { y with
    ops := [], out := [], resps := [], asks := [], probes := [], notReady := [], retx := [], suspect := 0, batchFails := [], holdArea := [], tops := [], owed := [],
    rc := [], recvs := [], tFails := [], seenOps := [], ackDue := false, ceSeen := false, cnpAt := none, rmsg := none, msn := 0, unauth := [], authFails := 0 }
  { s with cc := { s.cc with rate := AMap.drop s.cc.rate q } }

/-- Moves a QP to QP_ERROR (Table 7.6, R182): ends is the status its operations complete with, last the status kept. -/
def State.qpError (s : State) (q : Nat) (ends last : Status) : State :=
  let x := s.qp q
  if !x.up then s
  else
    let s := s.qpLeaves q ends
    let y := s.qp q
    let s := s.setQp q { y with state := .error, lastStatus := last.code, time := s.stamp }
    s.lastQpGone { node := x.peerNode, fn := x.peerFn }

/-- The sequence state of a QP as CREATE and RESET leave it (Table 7.4). -/
def Qp.cleared (x : Qp) : Qp :=
  { x with spsn := x.initPsn, cum := 0, rcvd := [], alive := 0, aliveRel := 0, suspect := 0, lastPath := 63, srtt := 0,
           rttvar := 0, ops := [], out := [], resps := [], asks := [], probes := [], notReady := [], retx := [], txSeq := 0, probeDue := true,
           batch := 0, batchWrites := 0, batchFails := [], holdArea := [], tops := [], owed := [], rc := [], recvs := [], tAlive := 0,
           tFails := [], seenOps := [], ackDue := false, ceSeen := false, cnpAt := none, rmsg := none, msn := 0, unauth := [], authFails := 0 }

/-- Sends a control packet of a QP, on the next of its paths (R189, R197). -/
def State.ctrlOut (s : State) (q : Nat) (p : SltPkt) : State :=
  let x := s.qp q
  let path := x.pathAfter x.lastPath
  (s.setQp q { x with lastPath := path }).sltOut q { p with path := path }

/-- Sends a CLOSE or RESET_NOTICE of a QP that leaves, for the first of three times (R207). -/
def State.leave (s : State) (q : Nat) (p : SltPkt) : State :=
  let s := s.ctrlOut q p
  let x := s.qp q
  let k := s.pipe (q % 4)
  let was := { x.cleared with suspect := x.suspect, lastPath := x.lastPath }
  s.setPipe (q % 4) { k with leaving := k.leaving ++ [{ q := q, pkt := p, left := 2, qp := was }] }

/-- A QP in QP_CLOSING whose operations have all completed sends CLOSE and returns to QP_INIT (Table 7.6, R207). -/
def State.qpClosed (s : State) (q : Nat) : State :=
  let x := s.qp q
  if x.state ≠ .closing ∨ !x.live.isEmpty ∨ !x.asks.isEmpty then s
  else
    let s := if x.roce then s else s.leave q { op := .close, aliveRel := x.relOut }
    let s := s.qpLeaves q .unreachable
    let y := s.qp q
    let s := s.setQp q { y.cleared with state := .init, lastStatus := 0, time := s.stamp }
    s.lastQpGone { node := x.peerNode, fn := x.peerFn }

/-- A packet of an encrypted QP whose transmission count is exhausted is not sent: its operation ends and the QP is in error (R187). -/
def State.txExhausted (s : State) (q alive : Nat) : State :=
  (s.tpEnd q alive .unreachable).qpError q .unreachable .unreachable

/-- Sends a response packet again, on another path, while its transmission count allows it (R187, R189). -/
def State.respAgain (s : State) (q : Nat) (k : OutPkt) (p : SltPkt) : State :=
  let x := s.qp q
  if x.enc ∧ k.txcnt = 255 then s.qpError q .unreachable .unreachable
  else
    let k' := { k with path := x.pathAfter k.path, txcnt := min 255 (k.txcnt + 1), sent := s.nowNs, seq := x.txSeq }
    let s := s.setQp q { x with out := x.out.map (fun y => if y.psn = k.psn then k' else y), txSeq := x.txSeq + 1,
                                retx := x.retx.filter (· != k.psn) }
    (s.count x.owner 0x21 q).sltOut q
      { p with ackReq := true, retx := true, txcnt := k'.txcnt, path := k'.path, aliveRel := (s.qp q).relOut }

/-- Sends what responses of a QP may go: retransmissions that are due, and those that wait. -/
def State.pumpResps (s : State) (q : Nat) : State :=
  let x := s.qp q
  let due := x.retx.filterMap fun p => (x.sentAs p).bind fun k => k.resp.map fun r => (k, r)
  let s := due.foldl (fun t e => if (t.qp q).up then t.respAgain q e.1 e.2 else t) s
  if (s.qp q).up then s.flushResps q (s.qp q).resps.length else s

/-- Whether the router-core path of a pipeline is free: its injection port is not full (R268). -/
def State.pathFree (s : State) (k : Nat) : Bool := (s.injKept k).isEmpty && decide (s.injFlits k < 2048)

/-- Starts packets of a pipeline one after another while one may start. A decision that starts none, because every class visited lacks
the deficit for its packet, is followed by the next (R230, R543). -/
def State.pumpN (s : State) (k : Nat) : Nat → State
  | 0 => s
  | n + 1 =>
    match if s.pathFree k then s.cands k else [] with
    | [] => s
    | c =>
      match s.schedPick k c with
      | (none, t) => t.pumpN k n
      | (some q, t) =>
        match t.nextPkt q with
        | none => t
        | some (o, i, again) =>
          let full := again && (t.qp q).enc && (t.qp q).out.any fun p => p.isOf o && p.idx == i && p.txcnt == 255
          if full then (t.txExhausted q o.alive).pumpN k n
          else (t.sendPkt q o i again).pumpN k n

/-- Decisions that a pipeline takes at most while packets are eligible: a packet of at most 2^14 bytes has its deficit after at most 128
of them, each of which adds 256 bytes or more to its class. -/
def State.pumpFuel (s : State) (k : Nat) : Nat :=
  128 * (s.qps.filter fun e => e.1 % 4 == k).foldl (fun n e => n + e.2.win + e.2.retx.length + e.2.ops.length + 1) 1

/-- Notes since when the next packet of each QP has been held by a shaper alone (R238). -/
def State.noteShaped (s : State) : State :=
  let note := fun (e : Nat × Qp) =>
    let ready := e.2.up && s.onDie e.1 && (s.pipe (e.1 % 4)).recovering == 0 && (s.nextPkt e.1).isSome
    if !ready then (e.1, { e.2 with shapedAt := none })
    else (e.1, { e.2 with shapedAt := some (e.2.shapedAt.getD s.nowNs) })
  { s with qps := s.qps.map note }

/-- Whether packets reach the pipelines and leave them (Table 18.1, R455). -/
def State.netOpen (s : State) : Bool :=
  match s.dev.state with
  | .equalShare => true
  | .service => true
  | .drain => true
  | _ => false

/-- Starts what may start on the four pipelines, and closes what has drained. -/
def State.pump (s : State) : State :=
  if !s.netOpen then s
  else
  let s := s.qps.foldl (fun t e => if e.2.batchFails.isEmpty then t else t.batchFail e.1 e.2.ops.length) s
  let s := s.qps.foldl (fun t e => if e.2.asks.isEmpty then t else t.takeAsks e.1 e.2.asks.length) s
  let s := s.qps.foldl (fun t e => if e.2.up ∧ !e.2.retx.isEmpty then t.copyDue e.1 else t) s
  let s := s.qps.foldl (fun t e => t.fetchCtx e.1) s
  let s := s.qps.foldl (fun (t : State) (e : Nat × Qp) => if e.2.up ∧ t.onDie e.1 ∧ (!e.2.resps.isEmpty ∨ !e.2.retx.isEmpty) then t.pumpResps e.1 else t) s
  let s := ((List.range 4).foldl (fun t k => t.pumpN k (t.pumpFuel k)) s).noteShaped
  s.qps.foldl (fun t e => if e.2.state = .closing then t.qpClosed e.1 else t) s

end Machine
end Sys2Proof
end

