-- ==== Sys2Proof/Machine/LocalTargets.lean ====
section
/-! DEFINITION. What an access does at a target on this node: reads of HBM and of turnstiles, and the atomic unit (R50, R143,
R395). -/

namespace Sys2Proof
namespace Machine

/-- The bytes of a read of space 0 or 1 that has passed its checks; a read of space 1 that is not an aligned one of 8 bytes
completes with BAD_OFFSET (R50). -/
def State.targetRead (s : State) (fga len : Nat) : Except Status (State × List Byte) :=
  if fgaSpace fga = 1 then
    (if len = 8 ∧ fgaOff fga % 8 = 0 then .ok (s, s.tsWord (fgaOff fga)) else .error .badOffset)
  else .ok (s.countLines 0x50 (fgaOff fga) len, s.hbmRead (fgaOff fga) len)

/-- Bytes of an atomic's operand. -/
def atomBytes : SltOp → Nat
  | .cas128 => 16
  | _ => 8

/-- An atomic at an offset of space 0: the prior value, and the state after it (R141, R143). Operands are numbers of 8 or 16
bytes; the atomic unit counts it. -/
def State.atomic (s : State) (kind : SltOp) (off a b : Nat) : Nat × State :=
  let n := atomBytes kind
  let s := s.countLines 0x50 off n
  let old := leNat (s.hbmRead off n)
  match kind with
  | .fadd => (old, s.hbmWrite off (leBytes ((old + a) % 2 ^ 64) 8))
  | _ => if old = a then (old, s.hbmWrite off (leBytes b n)) else (old, s.countSat F.hbmAtomOps (stackOf off))

end Machine
end Sys2Proof
end

