-- ==== Sys2Proof/Machine/Aperture.lean ====
section
/-! DEFINITION. The BAR2 aperture at work (R58 to R70): requests, their parts, answers, failures, fences and commits. -/

namespace Sys2Proof
namespace Machine

/-! ### Failures and answers (R68, Tables 2.9, 2.14, 2.15) -/

/-- Counts a failed access and captures it unless one is captured already. -/
def State.aptFail (s : State) (fn ao : Nat) (write : Bool) (st : Status) : State :=
  let s := s.countSat (if write then F.aptErrCountWrites else F.aptErrCountReads) fn
  if s.flag F.aptErrLogValid fn then s
  else
    let s := (s.setFlag F.aptErrLogValid true fn).setFlag F.aptErrLogWrite write fn
    (s.setFld F.aptErrLogStatus st.code fn).setFld F.aptErrLogAo ao fn

/-- The PCIe answer of a failed read or atomic of n bytes. -/
def State.aptRefusal (s : State) (fn n : Nat) : PcieAns :=
  if s.flag F.aptCtrlErrMode fn then .completerAbort else .success (List.replicate n 0xFF#8)

/-- Answers a request of a function's host on PCIe, where its link carries TLPs (R101). -/
def State.aptAnswer (s : State) (fn tag : Nat) (a : PcieAns) : State := if s.linkUp (s.linkOf fn) then s.emit (.pcie fn tag a) else s

/-- Answers a read or atomic that failed at once. -/
def State.aptRefuse (s : State) (fn tag ao n : Nat) (st : Status) : State :=
  (s.aptFail fn ao false st).aptAnswer fn tag (s.aptRefusal fn n)

/-! ### Parts of a request (R60) -/

/-- The parts of an access: aperture offset and length, cut at the slot boundaries it crosses. -/
def aptParts (ao len : Nat) : List (Nat × Nat) :=
  let n := min len (slotSize - ao % slotSize)
  if n = len then [(ao, len)] else [(ao, n), (ao + n, len - n)]

/-- The failure that decides a read: the first part in address order that failed, once every part before it has been
answered. -/
def aptFailed : List (Nat × AptPart) → Option (Nat × Status)
  | [] => none
  | (ao, .failed st) :: _ => some (ao, st)
  | (_, .got _) :: ps => aptFailed ps
  | (_, .wait) :: _ => none

/-- The bytes of a read whose parts have all been answered. -/
def aptData : List (Nat × AptPart) → Option (List Byte)
  | [] => some []
  | (_, .got bs) :: ps => (aptData ps).map (bs ++ ·)
  | _ :: _ => none

/-- Whether a request is non-posted: it awaits an answer. -/
def AptReq.awaits : AptReq → Bool
  | .write _ _ => false
  | _ => true

/-- Whether a request is an atomic. -/
def AptReq.isAtomic : AptReq → Bool
  | .atomic _ _ _ _ _ => true
  | _ => false

/-- Whether a request is a part of the read with a tag. -/
def AptReq.isRead (tag : Nat) : AptReq → Bool
  | .read t _ _ => t == tag
  | _ => false

/-- Reads and atomics of a function that have been admitted and not answered, the atomics that a commit holds among them; the held parts of a
read belong to it (R60, R63, R65). -/
def Aperture.outstanding (x : Aperture) : Nat := x.reads.length + (x.held.filter fun h => h.1.isAtomic).length

/-- Whether an access waits for the commit of its slot (R65). -/
def Aperture.holds (x : Aperture) (ao : Nat) : Bool := x.commitSlot == some (ao / slotSize)

/-- Whether a part of an access waits: for the commit of its slot (R65), or in HBM on this node, which holds accesses to it (R396, R397,
R410). -/
def State.aptWaits (s : State) (fn ao len : Nat) (r w : Bool) : Bool :=
  (s.apt fn).holds ao || (s.hbmHolding &&
    match s.aptResolve fn ao len r w with
    | .ok (e, fga) => e.home == .owned && fgaSpace fga == 0 && s.hbmBusy (fgaOff fga) len
    | .error _ => false)

/-- Reads and atomics of a port that are outstanding. -/
def State.portReads (s : State) (port : Nat) : Nat :=
  ((s.apts.filter fun e => portOf e.1 == port).map fun e => e.2.outstanding).sum

/-- Whether a limit of R63 is reached. -/
def State.aptFull (s : State) (fn : Nat) : Bool :=
  decide (256 ≤ (s.apt fn).outstanding) || decide (2048 ≤ s.portReads (portOf fn))

/-- Shows the number of outstanding reads. -/
def State.showReads (s : State) (fn : Nat) : State := s.setFld F.aptStatusOutReads (s.apt fn).outstanding fn

/-- Holds a request, or a part of one, until what it waits for is over. -/
def State.aptHold (s : State) (fn : Nat) (r : AptReq) (fenced : Bool) : State :=
  (s.setApt fn { s.apt fn with held := (s.apt fn).held ++ [(r, fenced)] }).showReads fn

/-- Nobody waits any more for the parts of a read that are still on the way (R69). -/
def State.orphanApt (s : State) (fn tag : Nat) : State :=
  let mine := fun (o : TpOp) => match o.owner with
    | .aptRead f t _ => f == fn && t == tag
    | _ => false
  { s with qps := s.qps.map fun (e : Nat × Qp) =>
      (e.1, { e.2 with ops := e.2.ops.map (fun o => if mine o then { o with owner := .none } else o),
                       asks := e.2.asks.map fun o => if mine o then { o with owner := .none } else o }) }

/-- Answers a read whose outcome is known, and takes it off. -/
def State.aptSettle (s : State) (fn tag : Nat) : State :=
  let x := s.apt fn
  match x.reads.find? fun r => r.tag == tag with
  | none => s
  | some r =>
    let drop := (s.setApt fn { x with reads := x.reads.filter (fun y => y.tag != tag),
                                      held := x.held.filter fun h => !h.1.isRead tag }).showReads fn
    let drop := if r.parts.any fun p => p.2 == .wait then drop.orphanApt fn tag else drop
    match aptFailed r.parts with
    | some (ao, st) => drop.aptRefuse fn tag ao r.len st
    | none =>
      match aptData r.parts with
      | some bs => drop.aptAnswer fn tag (.success bs)
      | none => s

/-- Writes the outcome of a part and answers the read if that decides it. -/
def State.aptPart (s : State) (fn tag ao : Nat) (p : AptPart) : State :=
  let x := s.apt fn
  let put := fun (r : AptRead) =>
    if r.tag = tag then { r with parts := r.parts.map fun q => if q.1 = ao then (ao, p) else q } else r
  (s.setApt fn { x with reads := x.reads.map put }).aptSettle fn tag

/-! ### Requests -/

/-- The window offset of an aperture access through an entry. -/
def AptEntry.winOff (e : AptEntry) (ao : Nat) : Nat := e.woff * slotSize + ao % slotSize

/-- Performs one part of a read: served here, issued on the entry's QP, or failed. -/
def State.aptReadPart (s : State) (fn tag : Nat) (p : Nat × Nat) : State :=
  match s.aptResolve fn p.1 p.2 true false with
  | .error st => s.aptPart fn tag p.1 (.failed st)
  | .ok (e, fga) =>
    match e.home with
    | .owned =>
      (match s.targetRead fga p.2 with
       | .ok (t, bs) => t.aptPart fn tag p.1 (.got bs)
       | .error st => s.aptPart fn tag p.1 (.failed st))
    | .imported _ =>
      s.tpAsk e.qp { owner := .aptRead fn tag p.1, kind := .readReq, key := e.wkey, off := e.winOff p.1, len := p.2 }

/-- A Memory Read that is admitted (R58, R60, R63): each part on its own, one that waits being held (R65). -/
def State.aptRead (s : State) (fn tag ao len : Nat) : State :=
  let parts := aptParts ao len
  let x := s.apt fn
  let r : AptRead := { tag := tag, len := len, parts := parts.map fun p => (p.1, .wait) }
  let s := (s.setApt fn { x with reads := x.reads ++ [r] }).showReads fn
  parts.foldl (fun t p =>
    if !(t.apt fn).reads.any (fun r => r.tag == tag) then t
    else if t.aptWaits fn p.1 p.2 true false then t.aptHold fn (.read tag p.1 p.2) false
    else t.aptReadPart fn tag p) s

/-- Performs one part of a write, which the pending fence covers or not: applied here, issued on the entry's QP, or dropped, counted and
captured. -/
def State.aptWritePart (s : State) (fn ao : Nat) (data : List Byte) (fenced : Bool) : State :=
  match s.aptResolve fn ao data.length false true with
  | .error st => s.aptFail fn ao true st
  | .ok (e, fga) =>
    match e.home with
    | .owned =>
      let t := s.hbmWrite (fgaOff fga) data
      if s.heldBack (fgaOff fga) data.length = .ok then t else t.aptFail fn ao true .notPermitted
    | .imported _ =>
      let x := s.apt fn
      let s := s.setApt fn { x with writes := x.writes ++ [(x.nextWrite, fenced)], nextWrite := x.nextWrite + 1 }
      s.tpAsk e.qp { owner := .aptWrite fn x.nextWrite ao, kind := .write, key := e.wkey, off := e.winOff ao,
                       len := data.length, data := data }

/-- A Memory Write that is admitted (R58, R60): each part on its own, one that waits being held (R65). -/
def State.aptWrite (s : State) (fn ao : Nat) (data : List Byte) : State :=
  (aptParts ao data.length).foldl (fun t p =>
    let bs := (data.drop (p.1 - ao)).take p.2
    if t.aptWaits fn p.1 p.2 false true then t.aptHold fn (.write p.1 bs) false else t.aptWritePart fn p.1 bs false) s

/-- Whether BAR2 takes an AtomicOp, as what (Table 2.7). -/
def aptAtomicOp : AtomicKind → Option SltOp
  | .fetchAdd64 => some .fadd
  | .cas64 => some .cas64
  | .cas128 => some .cas128
  | _ => none

/-- An AtomicOp that is admitted (R61). -/
def State.aptAtomic (s : State) (fn tag ao : Nat) (kind : SltOp) (a b : Nat) : State :=
  let n := atomBytes kind
  match s.aptResolve fn ao n true true with
  | .error st => s.aptRefuse fn tag ao n st
  | .ok (e, fga) =>
    match e.home with
    | .owned =>
      let (old, s) := s.atomic kind (fgaOff fga) a b
      s.aptAnswer fn tag (.success (leBytes old n))
    | .imported _ =>
      let x := s.apt fn
      let s := (s.setApt fn { x with reads := x.reads ++ [{ tag := tag, len := n, parts := [(ao, .wait)] }] }).showReads fn
      s.tpAsk e.qp { owner := .aptRead fn tag ao, kind := kind, key := e.wkey, off := e.winOff ao, a := a, b := b,
                       data := if kind = .cas128 then leBytes a 16 ++ leBytes b 16 else [] }

/-- Bytes of a request. -/
def AptReq.bytes : AptReq → Nat
  | .read _ _ len => len
  | .write _ data => data.length
  | .atomic _ _ .cas128 _ _ => 16
  | .atomic _ _ _ _ _ => 8

/-- Whether a read still waits for a part. -/
def State.aptAwaits (s : State) (fn tag ao : Nat) : Bool :=
  (s.apt fn).reads.any fun r => r.tag == tag && r.parts.any fun p => p == (ao, .wait)

/-- An AtomicOp request that is served. -/
def State.aptAtomicReq (s : State) (fn tag ao : Nat) (kind : AtomicKind) (a b : Nat) : State :=
  match aptAtomicOp kind with
  | some k => s.aptAtomic fn tag ao k a b
  | none => s.aptAnswer fn tag .unsupported

/-- Serves a request; an AtomicOp never crosses a slot boundary, and is held as a whole (R60, R65). -/
def State.aptServe (s : State) (fn : Nat) : AptReq → State
  | .read tag ao len => s.aptRead fn tag ao len
  | .write ao data => s.aptWrite fn ao data
  | .atomic tag ao kind a b =>
    if s.aptWaits fn ao (AptReq.atomic tag ao kind a b).bytes true true then s.aptHold fn (.atomic tag ao kind a b) false
    else s.aptAtomicReq fn tag ao kind a b

/-- Whether a held request goes on waiting. -/
def State.reqWaits (s : State) (fn : Nat) : AptReq → Bool
  | .read _ ao len => s.aptWaits fn ao len true false
  | .write ao data => s.aptWaits fn ao data.length false true
  | .atomic tag ao kind a b => s.aptWaits fn ao (AptReq.atomic tag ao kind a b).bytes true true

/-- Serves what has been held: a part of a read or a write, or an AtomicOp; the pending fence covers it or not. -/
def State.aptServeHeld (s : State) (fn : Nat) (fenced : Bool) : AptReq → State
  | .read tag ao len => if s.aptAwaits fn tag ao then s.aptReadPart fn tag (ao, len) else s
  | .write ao data => s.aptWritePart fn ao data fenced
  | .atomic tag ao kind a b => s.aptAtomicReq fn tag ao kind a b

/-- Serves the held requests that need wait no longer, in order. -/
def State.aptRetry (s : State) (fn : Nat) : State :=
  let x := s.apt fn
  let (stay, go) := x.held.partition fun r => s.reqWaits fn r.1
  if go.isEmpty then s
  else (go.foldl (fun t r => t.aptServeHeld fn r.2 r.1) (s.setApt fn { x with held := stay })).showReads fn

/-- Bytes of a request that the host-port meter counts: the payload of a write or an AtomicOp (R232). -/
def AptReq.metered : AptReq → Option Nat
  | .read _ _ _ => none
  | .write _ data => some data.length
  | .atomic _ _ .cas128 _ _ => some 32
  | .atomic _ _ .cas64 _ _ => some 16
  | .atomic _ _ _ _ _ => some 8

/-- The host-port meter colours and charges a request on arrival; one that is red is counted only (R236). -/
def State.aptMeter (s : State) (fn : Nat) (r : AptReq) : State :=
  match r.metered with
  | some n => (s.police fn 0 .green n).2
  | none => s

/-- A read or atomic that arrives while a limit is reached (R63). -/
def State.aptBusy (s : State) (fn : Nat) : AptReq → State
  | .read tag ao len => s.aptRefuse fn tag ao len .aptBusy
  | .atomic tag ao kind a b => s.aptRefuse fn tag ao (AptReq.atomic tag ao kind a b).bytes .aptBusy
  | .write _ _ => s

/-- Takes a request: counted and metered on arrival, answered with APT_BUSY at a limit (R63), and served, its parts held while a commit to
their slot is in progress (R65). -/
def State.aptTake (s : State) (fn : Nat) (r : AptReq) : State :=
  let s := (s.aptMeter fn r).count fn 0x58 0
  if r.awaits ∧ s.aptFull fn then s.aptBusy fn r else s.aptServe fn r

/-! ### Writes that have ended, and the fence (R62, Table 2.16) -/

/-- A remote aperture write has been acknowledged or has failed. -/
def State.aptWritten (s : State) (fn num ao : Nat) (st : Status) : State :=
  let x := s.apt fn
  if x.writes.any fun w => w.1 == num then
    let s := s.setApt fn { x with writes := x.writes.filter fun w => w.1 != num }
    if st = .ok then s else s.aptFail fn ao true st
  else s

/-! ### Commits (R64, R65) -/

/-- What an aperture entry's key names at commit, and the check of Table R64. -/
def State.aptCommitCheck (s : State) (fn key woff q : Nat) : Except Status KeyHome :=
  let u := s.user fn
  match s.keyTarget fn q key with
  | .imported node =>
    match s.importOf fn node (keyIndex key) with
    | none => .error .keyInvalid
    | some r =>
      if r.state = .importing then .error .keyInvalid
      else if r.state = .stale ∨ r.key ≠ key then .error .keyStale
      else if fgaSpace r.base = 2 then .error .notPermitted
      else if r.len ≤ woff * slotSize then .error .windowBounds
      else if (s.qp q).relaxed ∨ !(s.qp q).up then .error .notPermitted
      else .ok (.imported node)
  | .roce => .error .keyInvalid
  | .owned =>
    let w := s.win (keyIndex key)
    if keyIndex key = 0 ∨ winCount ≤ keyIndex key ∨ w.state = .free then .error .keyInvalid
    else if w.state ≠ .valid ∨ keyGen key ≠ w.gen then .error .keyStale
    else if !s.granted w u ∨ fgaSpace w.base = 2 then .error .notPermitted
    else if w.len ≤ woff * slotSize then .error .windowBounds
    else .ok .owned

/-- A write to ENTRY_LO: BUSY, and the entry accepted or refused; an accepted one is in the slot when the BUSY period ends (R65, R73). -/
def State.aptCommit (s : State) (fn v : Nat) : State :=
  let x := s.apt fn
  let slot := s.fld F.aptIndexSlot fn
  let e : AptEntry := { wkey := bits v 63 32, woff := bits v 31 11, w := bit v 2, r := bit v 1, v := bit v 0, qp := x.stagedQp,
                        conn := (s.qp x.stagedQp).conn }
  let busy := fun (s : State) (e : Option AptEntry) =>
    (s.setFlag F.aptStatusBusy true fn).setApt fn { x with commitSlot := some slot, commitEntry := e }
  let told := fun (s : State) (f : Bool) (c : Nat) => (s.setFlag F.aptStatusLastFail f fn).setFld F.aptStatusLastStatus c fn
  if !e.v then told (busy s (some e)) false 0
  else
    match s.aptCommitCheck fn e.wkey e.woff x.stagedQp with
    | .error st => told (busy s none) true st.code
    | .ok home => told (busy s (some { e with home := home })) false 0

/-! ### Function reset (R67) -/

/-- Answers the reads and atomics of a function that are outstanding as its reset demands: not counted or captured. -/
def State.aptAbort (s : State) (fn : Nat) : State :=
  let x := s.apt fn
  let t := x.reads.foldl (fun t r => t.aptAnswer fn r.tag (s.aptRefusal fn r.len)) s
  let t := x.held.foldl (fun t r => match r.1 with
    | .atomic tag _ k _ _ => t.aptAnswer fn tag (s.aptRefusal fn (AptReq.atomic tag 0 k 0 0).bytes)
    | .read _ _ _ => t
    | .write _ _ => t) t
  (t.setApt fn { t.apt fn with reads := [], held := [], commitSlot := none, commitEntry := none }).showReads fn

/-- The link of a function is lost: its host's reads and atomics that are not answered never are (R101; DEDUCED, log entry 132). -/
def State.aptLinkLost (s : State) (fn : Nat) : State :=
  let x := s.apt fn
  let s := x.reads.foldl (fun t r => t.orphanApt fn r.tag) s
  (s.setApt fn { x with reads := [], held := x.held.filter fun h => !h.1.awaits }).showReads fn

end Machine
end Sys2Proof
end

