-- ==== Sys2Proof/Machine/ApertureCmds.lean ====
section
/-! DEFINITION. The aperture's requests, answers and registers as commands (R58 to R70, R455). -/

namespace Sys2Proof
namespace Machine

/-- What a host's request to BAR0 or BAR2 of a function meets (R101, R115, R419, R455, Tables 4.9 and 4.14): it is served; it completes with
Unsupported Request; a VF that the host has enabled but that is not created reads 0 and discards writes; or nothing answers, as on a link
that carries no TLPs. -/
inductive BarAns where
  | served | unsupported | zero | silent
  deriving DecidableEq, Repr

/-- How a request to BAR0 or BAR2 of a function is answered. -/
def State.barAnswer (s : State) (fn : Nat) : BarAns :=
  let f := s.fn fn
  let pf := linkPf (s.linkOf fn)
  if !s.linkUp (s.linkOf fn) then .silent
  else if f.state = .notCreated then
    (if !s.isPf fn ∧ s.vfEnabled fn ∧ (s.fn pf).mse then .zero else .silent)
  else if f.vfHidden then .silent
  else if s.barOpen fn then .served
  else .unsupported

/-- Answers a non-posted request of n bytes, or has it served. -/
def State.barRead (s : State) (fn tag n : Nat) (f : State → State) : State :=
  match s.barAnswer fn with
  | .served => f s
  | .unsupported => s.emit (.pcie fn tag .unsupported)
  | .zero => s.emit (.pcie fn tag (.success (List.replicate n 0#8)))
  | .silent => s

/-- Has a posted request served, or discards it. -/
def State.barWrite (s : State) (fn : Nat) (f : State → State) : State := if s.barAnswer fn = .served then f s else s

/-- Counts the bytes of a request to a BAR for the monitors of its port: 16 of header and the data (R510). -/
def State.bwRx (s : State) (fn n : Nat) : State := s.bwCount (s.hpPort fn) false (16 + n)

/-- APERTURE_READ. -/
def State.aptReadIn (s : State) (fn tag ao len : Nat) : State :=
  (s.bwRx fn 0).barRead fn tag len fun s => s.aptTake fn (.read tag ao len)

/-- APERTURE_WRITE. -/
def State.aptWriteIn (s : State) (fn ao : Nat) (data : List Byte) : State :=
  (s.bwRx fn data.length).barWrite fn fun s => s.aptTake fn (.write ao data)

/-- Bytes of the operands of an AtomicOp request. -/
def atomicBytes : AtomicKind → Nat
  | .fetchAdd64 => 8 | .cas64 => 16 | .cas128 => 32 | .fetchAdd32 => 4 | .cas32 => 8 | .swap => 8
  | .bar0 => 8 | .bar4 => 8 | .other => 0

/-- Whether a host's request reaches BAR4 of a function: it presents one, its memory is enabled and its link carries TLPs (R101, R104). -/
def State.reachesBar4 (s : State) (fn : Nat) : Bool := s.presentsBar4 fn && (s.fn fn).decodes && s.linkUp (s.linkOf fn)

/-- APERTURE_ATOMIC: a request that BAR2 does not take, and an AtomicOp to another BAR, completes with Unsupported Request (R61). -/
def State.aptAtomicIn (s : State) (fn tag ao : Nat) (kind : AtomicKind) (a b : Nat) : State :=
  let s := s.bwRx fn (atomicBytes kind)
  match kind with
  | .bar4 => if s.reachesBar4 fn then s.emit (.pcie fn tag .unsupported) else s
  | _ =>
    s.barRead fn tag 8 fun s =>
      if (aptAtomicOp kind).isNone then s.emit (.pcie fn tag .unsupported) else s.aptTake fn (.atomic tag ao kind a b)

/-- APERTURE_RESPONSE: a response for a part that is still awaited ends it; any other is discarded (R69). -/
def State.aptResponse (s : State) (fn tag ao : Nat) (st : Status) (data : List Byte) : State :=
  if s.aptAwaits fn tag ao then s.aptPart fn tag ao (if st = .ok then .got data else .failed st) else s

/-- READ_DEADLINE: every part that is still awaited fails with APT_DEADLINE, and the read is answered (R69). -/
def State.readDeadline (s : State) (fn tag : Nat) : State :=
  let x := s.apt fn
  let late := fun (r : AptRead) =>
    if r.tag = tag then { r with parts := r.parts.map fun p => if p.2 = .wait then (p.1, AptPart.failed .aptDeadline) else p } else r
  ((s.setApt fn { x with reads := x.reads.map late }).orphanApt fn tag).aptSettle fn tag

/-- APERTURE_COMMIT: a write to APT.ENTRY_LO, discarded while a commit is in progress (R65). -/
def State.aptCommitIn (s : State) (fn v : Nat) : State :=
  s.barWrite fn fun s => if s.flag F.aptStatusBusy fn then s else s.aptCommit fn v

/-- APERTURE_COMMIT_DONE: BUSY clears, the entry is in its slot, and what was held is served in order. -/
def State.aptCommitDone (s : State) (fn : Nat) : State :=
  if !s.flag F.aptStatusBusy fn then s
  else
    let x := s.apt fn
    let slots := match x.commitSlot, x.commitEntry with
      | some n, some e => AMap.save {} x.slots n e
      | _, _ => x.slots
    let s := (s.setFlag F.aptStatusBusy false fn).setApt fn { x with slots := slots, commitSlot := none, commitEntry := none }
    s.aptRetry fn

/-- APT_FENCE: the writes in flight and those that a commit holds are the ones the fence waits for (Table 2.16). -/
def State.aptFence (s : State) (fn : Nat) : State :=
  s.barWrite fn fun s =>
    let x := s.apt fn
    (s.setApt fn { x with writes := x.writes.map fun w => (w.1, true), held := x.held.map fun h => (h.1, true) }).setFlag F.aptStatusFencePend true fn

/-- Whether a write that the fence covers has neither been acknowledged nor failed. -/
def Aperture.fenced (x : Aperture) : Bool := x.writes.any (·.2) || x.held.any fun h => h.2 && !h.1.awaits

/-- APT_FENCE_DONE: once every write the fence covers has been acknowledged or has failed. -/
def State.aptFenceDone (s : State) (fn : Nat) : State :=
  if (s.apt fn).fenced then s else s.setFlag F.aptStatusFencePend false fn

end Machine
end Sys2Proof
end

