-- ==== Sys2Proof/Machine/Floats.lean ====
section
/-! DEFINITION. Number formats and exact arithmetic of the Blocks and the Square (R313 to R317, R322 to R325): values as
exact dyadic numbers, one rounding to a format, and the vector functions, each correctly rounded. -/

namespace Sys2Proof
namespace Machine

/-! ### Values -/

/-- A value of a format: NaN, an infinity, or a finite number (−1)^neg × m × 2^e, whose sign counts when m is 0. -/
inductive FVal where
  | nan
  | inf (neg : Bool)
  | fin (neg : Bool) (m : Nat) (e : Int)
  deriving DecidableEq, Repr

/-- A floating-point format (Table 11.9): exponent and mantissa bits, bias, and whether it has ∞ and NaN as IEEE 754, only
the NaN of E4M3, or neither. -/
structure FFmt where
  eb : Nat
  mb : Nat
  bias : Nat
  ieee : Bool := true
  nanTop : Bool := false
  deriving DecidableEq, Repr

/-- FP32 (binary32). -/
def fp32 : FFmt := { eb := 8, mb := 23, bias := 127 }
/-- BF16. -/
def bf16 : FFmt := { eb := 8, mb := 7, bias := 127 }
/-- FP16 (binary16). -/
def fp16 : FFmt := { eb := 5, mb := 10, bias := 15 }
/-- FP8 E5M2. -/
def e5m2 : FFmt := { eb := 5, mb := 2, bias := 15 }
/-- FP8 E4M3. -/
def e4m3 : FFmt := { eb := 4, mb := 3, bias := 7, ieee := false, nanTop := true }
/-- FP6 E2M3. -/
def e2m3 : FFmt := { eb := 2, mb := 3, bias := 1, ieee := false }
/-- FP6 E3M2. -/
def e3m2 : FFmt := { eb := 3, mb := 2, bias := 3, ieee := false }
/-- FP4 E2M1. -/
def e2m1 : FFmt := { eb := 2, mb := 1, bias := 1, ieee := false }

/-- Bits of a format. -/
def FFmt.width (f : FFmt) : Nat := 1 + f.eb + f.mb

/-- The canonical NaN of a format (R315). -/
def FFmt.nan (f : FFmt) : Nat :=
  if f.ieee then (2 ^ f.eb - 1) * 2 ^ f.mb + 2 ^ (f.mb - 1) else 2 ^ (f.eb + f.mb) - 1

/-- The value an encoding has (R315, Table 11.9). -/
def FFmt.decode (f : FFmt) (x : Nat) : FVal :=
  let s := bit x (f.eb + f.mb)
  let e := bits x (f.eb + f.mb - 1) f.mb
  let m := x % 2 ^ f.mb
  if f.ieee ∧ e = 2 ^ f.eb - 1 then (if m = 0 then .inf s else .nan)
  else if f.nanTop ∧ e = 2 ^ f.eb - 1 ∧ m = 2 ^ f.mb - 1 then .nan
  else if e = 0 then .fin s m (1 - (f.bias : Int) - f.mb)
  else .fin s (2 ^ f.mb + m) ((e : Int) - f.bias - f.mb)

/-- Position of the leading one of a number greater than 0. -/
def lead (m : Nat) : Nat := Nat.log2 m

/-- m × 2^e rounded to an integer, ties to even. -/
def roundInt (m : Nat) (e : Int) : Nat :=
  if 0 ≤ e then m * 2 ^ e.toNat
  else
    let k := (-e).toNat
    let q := m / 2 ^ k
    let r := m % 2 ^ k
    let h := 2 ^ (k - 1)
    if r > h ∨ (r = h ∧ q % 2 = 1) then q + 1 else q

/-- m × 2^e rounded to a format with an unbounded exponent (roundTiesToEven, subnormals kept): an integer below
2^(mb + 1) and its exponent. -/
def FFmt.round (f : FFmt) (m : Nat) (e : Int) : Nat × Int :=
  if m = 0 then (0, 1 - (f.bias : Int) - f.mb)
  else
    let q := max ((lead m : Int) + e - f.mb) (1 - (f.bias : Int) - f.mb)
    let n := roundInt m (e - q)
    if n = 2 ^ (f.mb + 1) then (2 ^ f.mb, q + 1) else (n, q)

/-- The largest finite encoding of a format, without its sign. -/
def FFmt.maxEnc (f : FFmt) : Nat :=
  if f.ieee then (2 ^ f.eb - 1) * 2 ^ f.mb - 1
  else if f.nanTop then 2 ^ (f.eb + f.mb) - 2
  else 2 ^ (f.eb + f.mb) - 1

/-- Encodes a rounded magnitude without its sign; none beyond the largest finite value. -/
def FFmt.pack (f : FFmt) (r : Nat × Int) : Option Nat :=
  let x :=
    if r.1 < 2 ^ f.mb then r.1
    else (r.2 + f.bias + f.mb).toNat * 2 ^ f.mb + (r.1 - 2 ^ f.mb)
  if x ≤ f.maxEnc then some x else none

/-- Sign bit of a format. -/
def FFmt.sign (f : FFmt) (neg : Bool) : Nat := if neg then 2 ^ (f.eb + f.mb) else 0

/-- The flags of BLK.FLAGS that an operation raises. -/
structure FFlags where
  nanGen : Bool := false
  accOvf : Bool := false
  cvtSat : Bool := false
  cvtNan : Bool := false
  deriving DecidableEq, Repr

/-- Both sets of flags. -/
def FFlags.or (a b : FFlags) : FFlags :=
  { nanGen := a.nanGen || b.nanGen, accOvf := a.accOvf || b.accOvf, cvtSat := a.cvtSat || b.cvtSat,
    cvtNan := a.cvtNan || b.cvtNan }

/-- The canonical NaN of FP32. -/
def nan32 : Nat := 0x7FC00000

/-- An FP32 infinity. -/
def inf32 (neg : Bool) : Nat := if neg then 0xFF800000 else 0x7F800000

/-- A value rounded once to FP32 (roundTiesToEven): beyond the largest finite value it becomes ±∞ with ACC_OVF (R313,
R322). -/
def toF32 : FVal → Nat × FFlags
  | .nan => (nan32, {})
  | .inf s => (inf32 s, {})
  | .fin s m e =>
    match fp32.pack (fp32.round m e) with
    | some x => (fp32.sign s + x, {})
    | none => (inf32 s, { accOvf := true })

/-! ### Exact sums and products -/

/-- A signed dyadic number x × 2^e. -/
structure Dyadic where
  x : Int
  e : Int
  deriving DecidableEq, Repr

/-- The exact sum of two dyadic numbers. -/
def Dyadic.add (a b : Dyadic) : Dyadic :=
  let e := min a.e b.e
  { x := a.x * ((2 ^ (a.e - e).toNat : Nat) : Int) + b.x * ((2 ^ (b.e - e).toNat : Nat) : Int), e := e }

/-- The signed number of a finite value. -/
def signed (neg : Bool) (m : Nat) : Int := if neg then -(m : Int) else (m : Int)

/-- A dyadic number as a value; 0 has the sign given. -/
def Dyadic.val (d : Dyadic) (zeroNeg : Bool) : FVal :=
  if d.x = 0 then .fin zeroNeg 0 0 else .fin (decide (d.x < 0)) d.x.natAbs d.e

/-- The product of two values; ∞ × 0 is told apart from an input NaN by none. -/
def mulVal : FVal → FVal → Option FVal
  | .nan, _ => some .nan
  | _, .nan => some .nan
  | .inf s, .inf t => some (.inf (s != t))
  | .inf s, .fin t m _ => if m = 0 then none else some (.inf (s != t))
  | .fin t m _, .inf s => if m = 0 then none else some (.inf (s != t))
  | .fin s m e, .fin t n g => some (.fin (s != t) (m * n) (e + g))

/-- What a list of terms sums to before rounding (Table 11.8). -/
structure SumAcc where
  sum : Dyadic := { x := 0, e := 0 }
  posInf : Bool := false
  negInf : Bool := false
  allNegZero : Bool := true
  deriving DecidableEq, Repr

/-- Adds a term that is not NaN. -/
def SumAcc.term (a : SumAcc) : FVal → SumAcc
  | .nan => a
  | .inf s => { a with posInf := a.posInf || !s, negInf := a.negInf || s, allNegZero := false }
  | .fin s m e =>
    { a with
      sum := if m = 0 then a.sum else a.sum.add { x := signed s m, e := e }
      allNegZero := a.allNegZero && s && m == 0 }

/-- The rounded sum of terms, none of which is NaN; bad tells of a product ∞ × 0 (Table 11.8). -/
def SumAcc.result (a : SumAcc) (bad : Bool) : Nat × FFlags :=
  if bad ∨ (a.posInf ∧ a.negInf) then (nan32, { nanGen := true })
  else if a.posInf then (inf32 false, {})
  else if a.negInf then (inf32 true, {})
  else toF32 (a.sum.val a.allNegZero)

/-- c + Σ of products, rounded once (R313, Table 11.8): pairs are the factors of the products. -/
def accumulate (c : FVal) (ps : List (FVal × FVal)) : Nat × FFlags :=
  if c = .nan ∨ ps.any (fun p => p.1 == .nan || p.2 == .nan) then (nan32, {})
  else
    let prods := ps.map fun p => mulVal p.1 p.2
    let bad := prods.any (·.isNone)
    (prods.foldl (fun a p => match p with | some v => a.term v | none => a) (SumAcc.term {} c)).result bad

/-! ### Vector functions (R322, Tables 11.12 and 11.13) -/

/-- Negates a value. -/
def FVal.neg : FVal → FVal
  | .nan => .nan
  | .inf s => .inf (!s)
  | .fin s m e => .fin (!s) m e

/-- ADD; FMA and SUB use it too. An exact zero is −0 only when both addends are −0. -/
def addVal (a b : FVal) : Nat × FFlags :=
  if a = .nan ∨ b = .nan then (nan32, {}) else ((SumAcc.term {} a).term b).result false

/-- MUL. -/
def mulOp (a b : FVal) : Nat × FFlags :=
  match mulVal a b with
  | some v => toF32 v
  | none => (nan32, { nanGen := true })

/-- FMA: a × b + c, rounded once. -/
def fmaOp (a b c : FVal) : Nat × FFlags :=
  if a = .nan ∨ b = .nan ∨ c = .nan then (nan32, {})
  else
    match mulVal a b with
    | some v => ((SumAcc.term {} v).term c).result false
    | none => (nan32, { nanGen := true })

/-- Whether a is less than b, numbers and infinities; zeros are equal. -/
def ltVal (a b : FVal) : Bool :=
  match a, b with
  | .nan, _ => false
  | _, .nan => false
  | .inf s, .inf t => s && !t
  | .inf s, .fin _ _ _ => s
  | .fin _ _ _, .inf t => !t
  | .fin s m e, .fin t n g =>
    let d := Dyadic.add { x := signed s m, e := e } { x := -(signed t n), e := g }
    decide (d.x < 0)

/-- Whether a equals b as numbers. -/
def eqVal (a b : FVal) : Bool := a != .nan && b != .nan && !ltVal a b && !ltVal b a

/-- The sign of a value. -/
def FVal.isNeg : FVal → Bool
  | .nan => false
  | .inf s => s
  | .fin s _ _ => s

/-- The lesser of two values, with −0 less than +0. -/
def minVal (a b : FVal) : FVal :=
  if a = .nan ∨ b = .nan then .nan
  else if ltVal a b then a
  else if ltVal b a then b
  else if a.isNeg then a else b

/-- The greater of two values. -/
def maxVal (a b : FVal) : FVal :=
  if a = .nan ∨ b = .nan then .nan
  else if ltVal a b then b
  else if ltVal b a then a
  else if a.isNeg then b else a

/-- Guard bits kept for a result that is not dyadic. -/
def guardBits : Nat := 96

/-- m / n × 2^e as a dyadic value for one rounding: guard bits and a sticky bit. -/
def quotVal (neg : Bool) (m n : Nat) (e : Int) : FVal :=
  let k := guardBits + lead n + 1
  let q := m * 2 ^ k / n
  let r := m * 2 ^ k % n
  .fin neg (2 * q + b2n (decide (r ≠ 0))) (e - k - 1)

/-- One step of Newton's iteration for the integer square root. -/
def isqrtGo (n : Nat) : Nat → Nat → Nat
  | 0, x => x
  | f + 1, x =>
    let y := (x + n / x) / 2
    if y < x then isqrtGo n f y else x

/-- The integer square root. -/
def isqrt (n : Nat) : Nat := if n = 0 then 0 else isqrtGo n 64 (2 ^ (lead n / 2 + 1))

/-- √(m × 2^e) for one rounding. -/
def sqrtVal (m : Nat) (e : Int) : FVal :=
  let k := 2 * guardBits + (e % 2).toNat
  let n := m * 2 ^ k
  let r := isqrt n
  .fin false (2 * r + b2n (decide (r * r ≠ n))) ((e - k) / 2 - 1)

/-- 1 / √(m × 2^e) for one rounding. -/
def rsqrtVal (m : Nat) (e : Int) : FVal :=
  let o := (e % 2).toNat
  let k := 2 * (guardBits + lead m + 1) + o
  let r := isqrt (2 ^ k / m)
  .fin false (2 * r + b2n (decide (r * r * m ≠ 2 ^ k))) (-((e + k) / 2) - 1)

/-- Fraction bits of the fixed-point arithmetic of EXP2 and LOG2, enough to decide every rounding. -/
def fracBits : Nat := 320

/-- 2^f in fixed point, for the fraction f / 2^n with n bits, from the top bit: c is 2^(2^-i) at bit i. -/
def exp2Go (f : Nat) : Nat → Nat → Nat → Nat
  | 0, _, acc => acc
  | n + 1, c, acc => exp2Go f n (isqrt (c * 2 ^ fracBits)) (if bit f n then acc * c / 2 ^ fracBits else acc)

/-- 2^(−1)^neg m 2^e for one rounding: exact for an integer, otherwise irrational, with the sticky bit set. -/
def exp2Val (neg : Bool) (m : Nat) (e : Int) : FVal :=
  if 0 ≤ e then
    let k := signed neg (m * 2 ^ (min e.toNat 16))
    .fin false 1 (max (-400) (min 400 k))
  else
    let n := (-e).toNat
    let i := (signed neg m) / ((2 ^ n : Nat) : Int)
    let f := ((signed neg m) % ((2 ^ n : Nat) : Int)).toNat
    if f = 0 then .fin false 1 (max (-400) (min 400 i))
    else
      let x := exp2Go f n (isqrt (2 * 2 ^ (2 * fracBits))) (2 ^ fracBits)
      .fin false (2 * x + 1) (max (-400) (min 400 i) - fracBits - 1)

/-- Binary digits of log2 of x / 2^fracBits in [1, 2), n of them. -/
def log2Go : Nat → Nat → Nat → Nat
  | 0, _, acc => acc
  | n + 1, x, acc =>
    let y := x * x / 2 ^ fracBits
    if 2 ^ (fracBits + 1) ≤ y then log2Go n (y / 2) (2 * acc + 1) else log2Go n y (2 * acc)

/-- log₂(m × 2^e) for one rounding, m > 0: exact for a power of two, otherwise irrational. -/
def log2Val (m : Nat) (e : Int) : FVal :=
  let l := lead m
  let i := (l : Int) + e
  if m = 2 ^ l then .fin (decide (i < 0)) i.natAbs 0
  else
    let f := log2Go 128 (m * 2 ^ (fracBits - l)) 0
    let x : Int := 2 * (i * ((2 ^ 128 : Nat) : Int) + (f : Int)) + 1
    .fin (decide (x < 0)) x.natAbs (-129)

/-- DIV (Table 11.13). -/
def divOp (a b : FVal) : Nat × FFlags :=
  match a, b with
  | .nan, _ => (nan32, {})
  | _, .nan => (nan32, {})
  | .inf _, .inf _ => (nan32, { nanGen := true })
  | .inf s, .fin t _ _ => (inf32 (s != t), {})
  | .fin s _ _, .inf t => (fp32.sign (s != t), {})
  | .fin s m e, .fin t n g =>
    if n = 0 then (if m = 0 then (nan32, { nanGen := true }) else (inf32 (s != t), {}))
    else if m = 0 then (fp32.sign (s != t), {})
    else toF32 (quotVal (s != t) m n (e - g))

/-- SQRT. -/
def sqrtOp : FVal → Nat × FFlags
  | .nan => (nan32, {})
  | .inf s => if s then (nan32, { nanGen := true }) else (inf32 false, {})
  | .fin s m e =>
    if m = 0 then (fp32.sign s, {})
    else if s then (nan32, { nanGen := true })
    else toF32 (sqrtVal m e)

/-- RSQRT. -/
def rsqrtOp : FVal → Nat × FFlags
  | .nan => (nan32, {})
  | .inf s => if s then (nan32, { nanGen := true }) else (0, {})
  | .fin s m e =>
    if m = 0 then (inf32 s, {})
    else if s then (nan32, { nanGen := true })
    else toF32 (rsqrtVal m e)

/-- EXP2. -/
def exp2Op : FVal → Nat × FFlags
  | .nan => (nan32, {})
  | .inf s => if s then (0, {}) else (inf32 false, {})
  | .fin s m e => toF32 (exp2Val s m e)

/-- LOG2. -/
def log2Op : FVal → Nat × FFlags
  | .nan => (nan32, {})
  | .inf s => if s then (nan32, { nanGen := true }) else (inf32 false, {})
  | .fin s m e =>
    if m = 0 then (inf32 true, {})
    else if s then (nan32, { nanGen := true })
    else toF32 (log2Val m e)

/-! ### Formats by code (Table 11.7) -/

/-- What a format code names. -/
inductive FmtKind where
  | int (n : Nat) (sgn : Bool)
  | float (f : FFmt)
  /-- An MX format of floating-point elements. -/
  | mx (f : FFmt)
  | mxInt8
  /-- A table-defined format, T4 or T2. -/
  | table (t4 : Bool)
  deriving DecidableEq, Repr

/-- The format of a code; none for a reserved one. -/
def fmtOf (c : Nat) : Option FmtKind :=
  match c with
  | 0x00 => some (.int 8 true)
  | 0x01 => some (.int 8 false)
  | 0x02 => some (.int 4 true)
  | 0x03 => some (.int 4 false)
  | 0x04 => some (.int 2 true)
  | 0x05 => some (.int 2 false)
  | 0x08 => some (.float e4m3)
  | 0x09 => some (.float e5m2)
  | 0x0A => some (.float e2m3)
  | 0x0B => some (.float e3m2)
  | 0x0C => some (.float e2m1)
  | 0x10 => some (.mx e4m3)
  | 0x11 => some (.mx e5m2)
  | 0x12 => some (.mx e2m3)
  | 0x13 => some (.mx e3m2)
  | 0x14 => some (.mx e2m1)
  | 0x15 => some .mxInt8
  | 0x18 => some (.float bf16)
  | 0x19 => some (.float fp16)
  | 0x1A => some (.float fp32)
  | 0x1C => some (.table true)
  | 0x1D => some (.table false)
  | _ => none

/-- Bits of an element. -/
def FmtKind.width : FmtKind → Nat
  | .int n _ => n
  | .float f => f.width
  | .mx f => f.width
  | .mxInt8 => 8
  | .table t4 => if t4 then 4 else 2

/-- Whether the format carries scales. -/
def FmtKind.isMx : FmtKind → Bool
  | .mx _ => true
  | .mxInt8 => true
  | _ => false

/-- Element i of packed elements of n bits (R314): all of the packings are one little-endian bit string. -/
def elemAt (bs : List Byte) (n i : Nat) : Nat :=
  let b := n * i
  (leAt bs (b / 8) ((b % 8 + n + 7) / 8) >>> (b % 8)) % 2 ^ n

/-- Packs elements of n bits into a bit string (R314). -/
def packBits (n : Nat) : List Nat → Nat
  | [] => 0
  | x :: xs => x % 2 ^ n + 2 ^ n * packBits n xs

/-- The bytes of packed elements. -/
def packElems (n : Nat) (xs : List Nat) : List Byte := leBytes (packBits n xs) (n * xs.length / 8)

/-- The value of an element (R315, R317): of a scale byte where the format has one, of a codebook for a T format. -/
def FmtKind.value (k : FmtKind) (book : List Byte) (scale x : Nat) : FVal :=
  let sc := fun v : FVal =>
    if scale = 0xFF then FVal.nan
    else match v with | .fin s m e => .fin s m (e + (scale : Int) - 127) | v => v
  match k with
  | .int n sgn => let v := if sgn then toSigned n x else (x : Int)
                  .fin (decide (v < 0)) v.natAbs 0
  | .float f => f.decode x
  | .mx f => sc (f.decode x)
  | .mxInt8 => let v := toSigned 8 x
               sc (.fin (decide (v < 0)) v.natAbs (-6))
  | .table _ => bf16.decode (leAt book (2 * x) 2)

/-! ### Conversion (R324, R325, Table 11.14) -/

/-- The greatest and least integer of an integer format, as magnitudes. -/
def intLimit (n : Nat) (sgn neg : Bool) : Nat :=
  if neg then (if sgn then 2 ^ (n - 1) else 0) else (if sgn then 2 ^ (n - 1) - 1 else 2 ^ n - 1)

/-- An integer of a sign and magnitude within range, in n bits. -/
def intEnc (n : Nat) (neg : Bool) (m : Nat) : Nat := ofSigned n (signed neg m)

/-- Conversion to an integer format: to the nearest integer, ties to even, saturating. -/
def cvtInt (n : Nat) (sgn : Bool) : FVal → Nat × FFlags
  | .nan => (0, { cvtNan := true })
  | .inf s => (intEnc n s (intLimit n sgn s), { cvtSat := true })
  | .fin s m e =>
    let r := if m = 0 then 0 else if 64 ≤ (lead m : Int) + e then 2 ^ 64 else roundInt m e
    if r ≤ intLimit n sgn s then (intEnc n s r, {}) else (intEnc n s (intLimit n sgn s), { cvtSat := true })

/-- Conversion to a floating-point format; sat makes E5M2 saturate as an MX element (R325). -/
def cvtFloat (f : FFmt) (sat : Bool) : FVal → Nat × FFlags
  | .nan => if f.ieee ∨ f.nanTop then (f.nan, {}) else (0, { cvtNan := true })
  | .inf s =>
    if f.ieee ∧ !sat then (f.sign s + (2 ^ f.eb - 1) * 2 ^ f.mb, {})
    else (f.sign s + f.maxEnc, { cvtSat := true })
  | .fin s m e =>
    match f.pack (f.round m e) with
    | some x => (f.sign s + x, {})
    | none =>
      if f.ieee ∧ !sat then (f.sign s + (2 ^ f.eb - 1) * 2 ^ f.mb, { accOvf := true })
      else (f.sign s + f.maxEnc, { cvtSat := true })

/-- The distance of two finite values, as a dyadic magnitude. -/
def distVal : FVal → FVal → Dyadic
  | .fin s m e, .fin t n g =>
    let d := Dyadic.add { x := signed s m, e := e } { x := -(signed t n), e := g }
    { d with x := (d.x.natAbs : Int) }
  | _, _ => { x := 0, e := 0 }

/-- Whether one dyadic number is less than another. -/
def Dyadic.lt (a b : Dyadic) : Bool := decide ((a.add { b with x := -b.x }).x < 0)

/-- The code, below n, whose codebook value is best under a test of the candidate against the best so far; ties stay
with the lower code. -/
def bestCode (n : Nat) (better : Nat → Nat → Bool) : Nat :=
  (List.range n).foldl (fun b i => if better i b then i else b) 0

/-- Conversion to a code of a codebook (Table 11.14). -/
def cvtTable (t4 : Bool) (book : List Byte) (v : FVal) : Nat × FFlags :=
  let n := if t4 then 16 else 4
  let val := fun i => bf16.decode (leAt book (2 * i) 2)
  let nearest := fun v => bestCode n fun i b => (distVal v (val i)).lt (distVal v (val b))
  match v with
  | .nan => (nearest (.fin false 0 0), { cvtNan := true })
  | .inf true => (bestCode n fun i b => ltVal (val i) (val b), {})
  | .inf false => (bestCode n fun i b => ltVal (val b) (val i), {})
  | v => (nearest v, {})

/-- Conversion of one lane to a format without scale. -/
def cvtLane (k : FmtKind) (book : List Byte) (v : FVal) : Nat × FFlags :=
  match k with
  | .int n sgn => cvtInt n sgn v
  | .float f => cvtFloat f false v
  | .mx f => cvtFloat f true v
  | .mxInt8 => cvtInt 8 true v
  | .table t4 => cvtTable t4 book v

/-- EMAX of an MX element format (R325). -/
def mxEmax (k : FmtKind) : Int :=
  match k with
  | .mx f => if f = e4m3 then 8 else if f = e5m2 then 15 else if f = e3m2 then 4 else 2
  | _ => 0

/-- The larger of two magnitudes. -/
def magMax (a b : Nat × Int) : Nat × Int :=
  if (Dyadic.mk (a.1 : Int) a.2).lt (Dyadic.mk (b.1 : Int) b.2) then b else a

/-- Quantises a block of 32 values into an MX format (R325): scale, elements, flags. -/
def cvtMxBlock (k : FmtKind) (vs : List FVal) : Nat × List Nat × FFlags :=
  let special := vs.any fun v => match v with | .fin _ _ _ => false | _ => true
  let m := vs.foldl (fun a v => match v with | .fin _ x e => magMax a (x, e) | _ => a) (0, 0)
  if special then (0xFF, vs.map fun _ => 0, { cvtNan := true })
  else if m.1 = 0 then
    (0x00, vs.map (fun v => match k with | .mx f => f.sign v.isNeg | _ => 0), {})
  else
    let s := (lead m.1 : Int) + m.2 - mxEmax k
    let s := min (max s (-127)) 127
    let up : Int := if k = .mxInt8 then 6 else 0
    let rs := vs.map fun v => match v with
      | .fin n x e => cvtLane k [] (.fin n x (e - s + up))
      | v => cvtLane k [] v
    ((s + 127).toNat, rs.map (·.1), rs.foldl (fun a r => a.or r.2) {})

end Machine
end Sys2Proof
end

