-- ==== Sys2Proof/Machine/Blocks.lean ====
section
/-! DEFINITION. Blocks (chapter 11): the Block store, resident ranges, the matrix unit, codebooks and product tables, the
vector unit, and the clearing of a Block. -/

namespace Sys2Proof
namespace Machine

/-- Bytes of a Block store. -/
def storeSize : Nat := 0x200000

/-- Reads bytes of a Block store. -/
def Blk.read (x : Blk) (a n : Nat) : List Byte := readBytes x.store a n

/-- Writes bytes of a Block store. -/
def Blk.write (x : Blk) (a : Nat) (bs : List Byte) : Blk := { x with store := writeBytes x.store a bs }

/-- Whether a Block exists (R301). -/
def State.blkPresent (s : State) (b : Nat) : Bool := decide (b < s.blockCount)

/-- Whether a Block is in service (R327). -/
def State.inService (s : State) (b : Nat) : Bool := bit (s.fld F.blkDistStatusInService (b / 20)) (b % 20)

/-- The function that holds a Block. -/
def State.blkFn (s : State) (b : Nat) : Option Nat := AMap.find s.ten.blocks b

/-- Raises flags of BLK.FLAGS (R330). -/
def State.blkFlags (s : State) (b : Nat) (f : FFlags) : State :=
  let up := fun (s : State) (p : Bool) (fl : Fld) => if p then s.setFlag fl true b else s
  up (up (up (up s f.nanGen F.blkFlagsNanGen) f.accOvf F.blkFlagsAccOvf) f.cvtSat F.blkFlagsCvtSat) f.cvtNan
    F.blkFlagsCvtNan

/-! ### Resident ranges -/

/-- Entries of a Block. -/
def State.resOf (s : State) (b : Nat) : List (Nat × Resident) := s.res.filter fun e => e.2.blk == b

/-- Entries that one Block may hold (Table 11.15). -/
def State.resPerBlk (s : State) : Nat := min 16 (max 1 (s.fld F.blkCfgResPerBlk))

/-- The lowest free index of the residency table. -/
def State.freeRes (s : State) : Option Nat :=
  (List.range (min 1024 (s.res.length + 1))).find? fun i => (AMap.find s.res i).isNone

/-- The checks of a bind, in the order of R305's table: range in HBM, overlaps, alignment and length, room; none where an entry may be
made. Its region has been checked as an address of the Block store (R340). -/
def State.bindCheck (s : State) (fn b base region len : Nat) : Option Status :=
  if !s.ownsBytes fn base len then some .notPermitted
  else if s.touchesResident base len then some .notPermitted
  else if (s.resOf b).any fun e => decide (region < e.2.region + e.2.len) && decide (e.2.region < region + len) then
    some .notPermitted
  else if base % 4096 ≠ 0 ∨ len % 4096 ≠ 0 ∨ len < 4096 ∨ storeSize < len then some .badLength
  else if s.freeRes.isNone ∨ s.resPerBlk ≤ (s.resOf b).length then some .poolExhausted
  else none

/-- Memory steps of all Blocks in flight on a range are served now by f, from the state and the step: the bytes that it moves. -/
def State.serveEarly (s : State) (base len : Nat) (store : Bool) (f : State → Blk → SeqOut → State × List Byte) : State :=
  s.blks.foldl (fun (t : State) e => e.2.outs.foldl (fun (t : State) o =>
    let hit := match o.work with
      | .load off _ n => !store && decide (off < base + len) && decide (base < off + n)
      | .store off _ n => store && decide (off < base + len) && decide (base < off + n)
      | _ => false
    if !hit ∨ o.early.isSome then t
    else
      let (u, bs) := f t (t.blk e.1) o
      let x := u.blk e.1
      u.setBlk e.1 { x with outs := x.outs.map fun y => if y.id = o.id then { y with early := some bs } else y }) t) s

/-- Reads admitted before a range is released complete from the Block store (R308). -/
def State.loadsLand (s : State) (r : Resident) : State :=
  s.serveEarly r.base r.len false fun t _ o =>
    match o.work with
    | .load off _ n => (t, t.hbmRead off n)
    | _ => (t, [])

/-- Writes admitted before a range is bound are applied (step 3 of Table 11.3). -/
def State.storesLand (s : State) (r : Resident) : State :=
  s.serveEarly r.base r.len true fun t x o =>
    match o.work with
    | .store off a n => (t.hbmWriteBut o.cut off (x.read a n), x.read a n)
    | _ => (t, [])

/-- Removes an entry; with WB = 1 its region is copied to the range first (Table 11.4). -/
def State.releaseEntry (s : State) (i : Nat) : State :=
  match AMap.find s.res i with
  | none => s
  | some r =>
    let s := s.loadsLand r
    let s := { s with res := AMap.drop s.res i }
    if r.wb then s.hbmWrite r.base ((s.blk r.blk).read r.region r.len) else s

/-- Releases every entry of a Block, each with its own WB, or removes them without write-back (R309). -/
def State.releaseAll (s : State) (b : Nat) (writeBack : Bool) : State :=
  (s.resOf b).foldl (fun t e =>
    if writeBack then t.releaseEntry e.1 else { t with res := AMap.drop t.res e.1 }) s

/-- Clears a Block that is in service (R326): its state, its slots and its flags are as at reset. One out of service
stays so. -/
def State.clearBlk (s : State) (b : Nat) : State :=
  let x := s.blk b
  let y : Blk := if x.state = .out then { state := .out, lastStatus := x.lastStatus } else {}
  (((s.setBlk b y).resetReg .blkFlags b).resetRegs [.seqfSample, .seqfSampleIter, .seqfCvtFail] b)

/-! ### The matrix unit (R310 to R313) -/

/-- Rate classes (Table 11.5) as widths of an element. -/
def fmtClass : FmtKind → Nat
  | .int n _ => n
  | .float f => if f.width ≤ 4 then 4 else if f.width ≤ 8 then 8 else f.width
  | .mx f => if f.width ≤ 4 then 4 else 8
  | .mxInt8 => 8
  | .table t4 => if t4 then 4 else 2

/-- Class and use of a pair of formats (Table 11.6): none is FORMAT_ERROR. The flag tells that the product table is used. -/
def mmaClass (a b : FmtKind) : Option (Nat × Bool) :=
  match a, b with
  | .table p, .table q => if p = q then some (if p then 4 else 2, true) else none
  | .table _, k => some (if fmtClass k = 32 then 32 else 16, false)
  | k, .table _ => some (if fmtClass k = 32 then 32 else 16, false)
  | k, l => some (max (fmtClass k) (fmtClass l), false)

/-- K of a class (Table 11.5). -/
def classK (c : Nat) : Nat := if c = 32 then 8 else 512 / c

/-- Bytes of a row of A, or of a column of B (R310). -/
def rowBytes (kk : Nat) : Nat := if kk = 8 then 32 else 64

/-- Row r of an operand: its elements' codes and scales. Rows of A and columns of B follow each other, the K elements of each packed from its
first byte on (DEDUCED, log entry 136: elements narrower than the class leave the rest of a row unused). -/
def tileRow (k : FmtKind) (kk : Nat) (tile scales : List Byte) (r : Nat) : List (Nat × Nat) :=
  let row := (tile.drop (r * rowBytes kk)).take (rowBytes kk)
  (List.range kk).map fun i =>
    (elemAt row k.width i, if k.isMx then leAt scales (r * ((kk + 31) / 32) + i / 32) 1 else 127)

/-- Bytes of a tile of 16 rows. -/
def tileBytes (kk : Nat) : Nat := 16 * rowBytes kk

/-- Bytes of the scales of a tile; in the class of K = 8 a row has one scale. -/
def scaleBytes (k : FmtKind) (kk : Nat) : Nat := if k.isMx then 16 * ((kk + 31) / 32) else 0

/-- The entry of a product table for codes i and j (Table 11.10). -/
def ptEntry (img : List Byte) (t4 : Bool) (i j : Nat) : Int :=
  toSigned 16 (leAt img (8 + 2 * (if t4 then i * 16 + j else i * 4 + j)) 2)

/-- One output of a step by product table: the integer sum times 2^E, added to c with one rounding (R321). -/
def ptOutput (img : List Byte) (t4 : Bool) (c : FVal) (as bs : List (Nat × Nat)) : Nat × FFlags :=
  let sum := (as.zip bs).foldl (fun n p => n + ptEntry img t4 p.1.1 p.2.1) 0
  let e := toSigned 8 (leAt img 1 1)
  if c = .nan then (nan32, {})
  else ((SumAcc.term {} c).term (.fin (decide (sum < 0)) sum.natAbs e)).result false

/-- One output of a step on exact products (R312, R313). -/
def mmaOutput (ka kb : FmtKind) (booka bookb : List Byte) (c : FVal) (as bs : List (Nat × Nat)) : Nat × FFlags :=
  accumulate c ((as.zip bs).map fun p => (ka.value booka p.1.2 p.1.1, kb.value bookb p.2.2 p.2.1))

/-- The 256 results of a matrix step: accumulator values by row and column, and the flags. -/
def mmaTile (out : FVal → List (Nat × Nat) → List (Nat × Nat) → Nat × FFlags) (acc : Nat → FVal)
    (rows cols : List (List (Nat × Nat))) : List Nat × FFlags :=
  let rs := (List.range 256).map fun i => out (acc i) (rows.getD (i / 16) []) (cols.getD (i % 16) [])
  (rs.map (·.1), rs.foldl (fun a r => a.or r.2) {})

/-- Writes an accumulator set. -/
def Blk.setAcc (x : Blk) (set : Nat) (vs : List Nat) : Blk :=
  { x with acc := (vs.zip (List.range vs.length)).foldl (fun m p => AMap.save 0 m (set * 256 + p.2) p.1) x.acc }

/-- The image of a codebook slot, if loaded with the kind (R321). -/
def Blk.book (x : Blk) (slot : Nat) (t4 : Bool) : Option (List Byte) :=
  match AMap.find x.books slot with
  | some f => if f.t4 = t4 then some f.image else none
  | none => none

/-- The codebook of an operand: empty for a non-T format; none where the slot was never loaded with its kind. -/
def Blk.bookFor (x : Blk) (k : FmtKind) (slot : Nat) : Option (List Byte) :=
  match k with
  | .table t4 => x.book slot t4
  | _ => some []

/-- Whether bytes of a use lie right in the Block store (R340). -/
def storeCheck (a n align : Nat) : Option Status :=
  if a % align ≠ 0 then some .misaligned else if storeSize < a + n then some .badOffset else none

/-- The first of some checks that fails. -/
def firstFail : List (Option Status) → Option Status
  | [] => none
  | some st :: _ => some st
  | none :: xs => firstFail xs

/-- A matrix step on a Block (R310 to R321): addresses of tiles and scales, format codes, slots, set, and whether the set
is taken as +0. -/
def Blk.mma (x : Blk) (fa fb a b sa sb cba cbb pt set : Nat) (zero : Bool) : Except Status (Blk × FFlags) :=
  match fmtOf fa, fmtOf fb with
  | some ka, some kb =>
    match mmaClass ka kb with
    | none => .error .formatError
    | some (cls, usePt) =>
      let kk := classK cls
      match firstFail [storeCheck a (tileBytes kk) 32, storeCheck b (tileBytes kk) 32,
          if ka.isMx then storeCheck sa (scaleBytes ka kk) 32 else none,
          if kb.isMx then storeCheck sb (scaleBytes kb kk) 32 else none] with
      | some st => .error st
      | none =>
        match x.bookFor ka cba, x.bookFor kb cbb with
        | some booka, some bookb =>
          let rows := (List.range 16).map
            (tileRow ka kk (x.read a (tileBytes kk)) (x.read sa (scaleBytes ka kk)))
          let cols := (List.range 16).map
            (tileRow kb kk (x.read b (tileBytes kk)) (x.read sb (scaleBytes kb kk)))
          let nan := fun (k : FmtKind) (a : Nat) => k.isMx && (x.read a (scaleBytes k kk)).any (· == 0xFF#8)
          let acc := fun i => if zero then .fin false 0 0 else fp32.decode (AMap.look 0 x.acc (set * 256 + i))
          if usePt then
            match AMap.find x.ptabs pt with
            | none => .error .formatError
            | some p =>
              if p.t4 ≠ (ka.width == 4) ∨ leAt p.image 2 1 ≠ cba ∨ leAt p.image 3 1 ≠ cbb then .error .formatError
              else
                let (vs, fl) := mmaTile (ptOutput p.image p.t4) acc rows cols
                .ok (x.setAcc set vs, fl)
          else if nan ka sa || nan kb sb then .ok (x.setAcc set (List.replicate 256 nan32), {})
          else
            let (vs, fl) := mmaTile (mmaOutput ka kb booka bookb) acc rows cols
            .ok (x.setAcc set vs, fl)
        | _, _ => .error .formatError
  | _, _ => .error .formatError

/-! ### Format loads (R319, R320) -/

/-- Whether a codebook image may be loaded: no NaN or ∞, and zeros above entry 3 of a T2 codebook. -/
def bookOk (t4 : Bool) (img : List Byte) : Bool :=
  (List.range 16).all fun i =>
    let e := leAt img (2 * i) 2
    (match bf16.decode e with | .fin _ _ _ => true | _ => false) && (t4 || decide (i < 4) || e == 0)

/-- Whether a product-table image may be loaded. -/
def ptabOk (img : List Byte) : Bool :=
  (leAt img 0 1 == 2 || leAt img 0 1 == 4) && leAt img 4 4 == 0 &&
    (leAt img 0 1 == 4 || leAt img (8 + 32) 480 == 0)

/-- FLOAD: kinds 0 T2, 1 T4, 2 product table. -/
def Blk.fload (x : Blk) (kind a slot : Nat) : Except Status Blk :=
  let n := if kind = 2 then 520 else 32
  match storeCheck a n 64 with
  | some st => .error st
  | none =>
    let img := x.read a n
    if kind = 2 then
      if ptabOk img then .ok { x with ptabs := AMap.put x.ptabs slot { t4 := leAt img 0 1 == 4, image := img } }
      else .error .formatError
    else if bookOk (kind == 1) img then
      .ok { x with books := AMap.put x.books slot { t4 := kind == 1, image := img } }
    else .error .formatError

/-! ### The vector unit (R322 to R325, R339) -/

/-- A lane of a source: its FP32 bits, and its exact value. -/
structure Lane where
  raw : Nat
  v : FVal
  deriving DecidableEq, Repr

/-- A lane of FP32 bits. -/
def lane32 (x : Nat) : Lane := { raw := x, v := fp32.decode x }

/-- An operand of a VOP: kind, index, and for kind 1 the address of its bytes. -/
structure VArg where
  kind : Nat
  idx : Nat
  addr : Nat := 0
  deriving DecidableEq, Repr

/-- The 64 lanes of a source operand; an accumulator quarter counts from the index plus the repetition (R337). Elements of a
narrower format are read at their exact value. -/
def Blk.lanes (x : Blk) (o : VArg) (rep : Nat) (k : FmtKind) (book : List Byte) (scaleAddr : Nat) :
    Except Status (List Lane) :=
  match o.kind with
  | 0 => .ok ((List.range 64).map fun i => lane32 (AMap.look 0 x.vregs (o.idx % 32 * 64 + i)))
  | 1 =>
    let n := 8 * k.width
    match firstFail [storeCheck o.addr n 32, if k.isMx then storeCheck scaleAddr 2 32 else none] with
    | some st => .error st
    | none =>
      let bs := x.read o.addr n
      let sc := x.read scaleAddr 2
      .ok ((List.range 64).map fun i =>
        let e := elemAt bs k.width i
        let v := k.value book (if k.isMx then leAt sc (i / 32) 1 else 127) e
        { raw := if k = .float fp32 then e else (toF32 v).1, v := v })
  | _ =>
    let q := (o.idx % 4 + rep) % 4
    .ok ((List.range 64).map fun i => lane32 (AMap.look 0 x.acc (o.idx / 4 % 4 * 256 + q * 64 + i)))

/-- The lane-wise operations (Table 11.12) by VOPC. -/
def vopLane (op : Nat) (a b c : Lane) (m : Bool) : Nat × FFlags :=
  match op with
  | 0 => addVal a.v b.v
  | 1 => addVal a.v b.v.neg
  | 2 => mulOp a.v b.v
  | 3 => fmaOp a.v b.v c.v
  | 4 => toF32 (minVal a.v b.v)
  | 5 => toF32 (maxVal a.v b.v)
  | 6 => (a.raw % 2 ^ 31, {})
  | 7 => ((a.raw + 2 ^ 31) % 2 ^ 32, {})
  | 11 => (if m then a.raw else b.raw, {})
  | 12 => divOp a.v b.v
  | 13 => sqrtOp a.v
  | 14 => divOp (.fin false 1 0) a.v
  | 15 => rsqrtOp a.v
  | 16 => exp2Op a.v
  | _ => log2Op a.v

/-- The comparisons by VOPC. -/
def vopCmp (op : Nat) (a b : Lane) : Bool :=
  match op with
  | 8 => eqVal a.v b.v
  | 9 => ltVal a.v b.v
  | _ => ltVal a.v b.v || eqVal a.v b.v

/-- One level of the tree of R323: pairs of neighbours combine. -/
def treeLevel (f : FVal → FVal → Nat × FFlags) : List FVal → List (Nat × FFlags)
  | a :: b :: xs => f a b :: treeLevel f xs
  | _ => []

/-- The tree of R323 over a power of two of lanes. -/
def tree (f : FVal → FVal → Nat × FFlags) : Nat → List FVal → FFlags → Nat × FFlags
  | 0, vs, fl => ((toF32 (vs.headD (.fin false 0 0))).1, fl)
  | n + 1, vs, fl =>
    let ys := treeLevel f vs
    tree f n (ys.map fun y => fp32.decode y.1) (ys.foldl (fun a y => a.or y.2) fl)

/-- The step of RED_SUM and RED_MAX. -/
def redStep (max : Bool) (a b : FVal) : Nat × FFlags := if max then toF32 (maxVal a b) else addVal a b

/-- Writes lanes of FP32 to a vector register, or to the Block store. -/
def Blk.putLanes (x : Blk) (d : VArg) (vs : List Nat) : Except Status Blk :=
  if d.kind = 0 then
    let regs := (vs.zip (List.range vs.length)).foldl
      (fun m p => AMap.save 0 m (d.idx % 32 * 64 + p.2) p.1) x.vregs
    .ok { x with vregs := regs }
  else
    match storeCheck d.addr (4 * vs.length) 32 with
    | some st => .error st
    | none => .ok (x.write d.addr (packElems 32 vs))

/-- Sets the words of a vector register from its first bytes on; the words past them hold the free values given, since the
spec states no result there (log entry 10). -/
def Blk.putPacked (x : Blk) (r : Nat) (bs : List Byte) (rest : Nat → Nat) : Blk :=
  let regs := (List.range 64).foldl
    (fun m i => AMap.save 0 m (r % 32 * 64 + i) (if 4 * i < bs.length then leAt bs (4 * i) 4 else rest i)) x.vregs
  { x with vregs := regs }

/-- Writes packed elements of a target format. -/
def Blk.putElems (x : Blk) (d : VArg) (bs : List Byte) (rest : Nat → Nat) : Except Status Blk :=
  if d.kind = 0 then .ok (x.putPacked d.idx bs rest)
  else
    match storeCheck d.addr bs.length 32 with
    | some st => .error st
    | none => .ok (x.write d.addr bs)

/-- CVT of 64 lanes (R324, R325). -/
def Blk.vcvt (x : Blk) (vs : List Lane) (t : FmtKind) (book : List Byte) (d : VArg) (scaleAddr : Nat) (rest : Nat → Nat) :
    Except Status (Blk × FFlags) :=
  if t.isMx then
    match storeCheck scaleAddr 2 32 with
    | some st => .error st
    | none =>
      let b0 := cvtMxBlock t ((vs.take 32).map (·.v))
      let b1 := cvtMxBlock t ((vs.drop 32).map (·.v))
      match x.putElems d (packElems t.width (b0.2.1 ++ b1.2.1)) rest with
      | .error st => .error st
      | .ok y => .ok (y.write scaleAddr (leBytes b0.1 1 ++ leBytes b1.1 1), b0.2.2.or b1.2.2)
  else
    let rs := vs.map fun l => cvtLane t book l.v
    match x.putElems d (packElems t.width (rs.map (·.1))) rest with
    | .error st => .error st
    | .ok y => .ok (y, rs.foldl (fun a r => a.or r.2) {})

/-- The operands of a VOP repetition, addresses formed. -/
structure VopArgs where
  a : VArg
  b : VArg
  c : VArg
  d : VArg
  mask : Nat
  sfmt : Nat
  tfmt : Nat
  cb : Nat
  rep : Nat
  deriving DecidableEq, Repr

/-- Sources an operation reads: 1, 2 or 3. -/
def vopArity (op : Nat) : Nat :=
  if op = 3 then 3 else if op < 6 ∨ (8 ≤ op ∧ op ≤ 12) then 2 else 1

/-- A vector step on a Block. -/
def Blk.vop (x : Blk) (op : Nat) (v : VopArgs) (rest : Nat → Nat) : Except Status (Blk × FFlags) :=
  let uses := v.a.kind == 1 || (2 ≤ vopArity op && v.b.kind == 1) || (3 ≤ vopArity op && v.c.kind == 1)
  match (if uses then fmtOf v.sfmt else some (.float fp32)) with
  | none => .error .formatError
  | some k =>
    match x.bookFor k v.cb with
    | none => .error .formatError
    | some book =>
      let get := fun (o : VArg) (n : Nat) =>
        if n ≤ vopArity op then x.lanes o v.rep k book v.c.addr else .ok (List.replicate 64 (lane32 0))
      match get v.a 1, get v.b 2, get v.c 3 with
      | .error st, _, _ => .error st
      | _, .error st, _ => .error st
      | _, _, .error st => .error st
      | .ok as, .ok bs, .ok cs =>
        let abc := as.zip (bs.zip cs)
        if op = 20 then
          match fmtOf v.tfmt with
          | none => .error .formatError
          | some t =>
            match x.bookFor t v.cb with
            | none => .error .formatError
            | some tb => x.vcvt as t tb v.d v.c.addr rest
        else if 8 ≤ op ∧ op ≤ 10 then
          let m := abc.foldr (fun p n => 2 * n + b2n (vopCmp op p.1 p.2.1)) 0
          .ok ({ x with masks := AMap.save 0 x.masks (v.d.idx % 8) m }, {})
        else if op = 18 ∨ op = 19 then
          let r := tree (redStep (op == 19)) 6 (as.map (·.v)) {}
          let keep := (List.range 64).map fun i =>
            if i = 0 then r.1
            else if v.d.kind = 0 then AMap.look 0 x.vregs (v.d.idx % 32 * 64 + i)
            else leAt (x.read v.d.addr 256) (4 * i) 4
          match x.putLanes v.d keep with
          | .error st => .error st
          | .ok y => .ok (y, r.2)
        else
          let m := AMap.look 0 x.masks v.mask
          let rs := (abc.zip (List.range 64)).map fun p => vopLane op p.1.1 p.1.2.1 p.1.2.2 (bit m p.2)
          match x.putLanes v.d (rs.map (·.1)) with
          | .error st => .error st
          | .ok y => .ok (y, rs.foldl (fun a r => a.or r.2) {})

end Machine
end Sys2Proof
end

