-- ==== Sys2Proof/Machine/Sequencer.lean ====
section
/-! DEFINITION. The sequencer of a Block (chapter 12): images and their validation, the order of issue, the effect of each
step, and the loading and starting of tables. -/

namespace Sys2Proof
namespace Machine

/-! ### Images (R334, R335) -/

/-- A validated image: step words, place of the operand slots, and the registers' values and strides. -/
structure SeqImage where
  steps : List Nat
  slots : Nat
  ars : List Nat
  strides : List (List Nat)
  deriving DecidableEq, Repr

/-- Whether two ranges, given as first byte and length, share a byte. -/
def overlap (a b : Nat × Nat) : Bool :=
  decide (0 < a.2) && decide (0 < b.2) && decide (a.1 < b.1 + b.2) && decide (b.1 < a.1 + a.2)

/-- Whether the header and the address-register block hold legal values (Tables 12.1 and 12.2). -/
def headerOk (img : List Byte) (base : Nat) : Bool :=
  let ns := leAt img 4 4
  let so := leAt img 8 4
  let lo := leAt img 12 4
  let nl := leAt img 16 2
  let il := leAt img 20 4
  leAt img 0 2 == 0x5354 && leAt img 2 1 == 1 && leAt img 3 1 == 0 && decide (1 ≤ ns) && decide (ns ≤ 65535) &&
    so % 16 == 0 && decide (576 ≤ so) && lo % 16 == 0 && decide (nl ≤ 256) && leAt img 18 2 == 0 && leAt img 24 40 == 0 &&
    (List.range 16).all (fun r => leAt img (64 + 32 * r + 5) 3 == 0 && leAt img (64 + 32 * r + 28) 4 == 0) &&
    decide (so + 16 * ns ≤ il) && decide (lo + 16 * nl ≤ il) && decide (576 ≤ il) && decide (base + il ≤ storeSize) &&
    !overlap (so, 16 * ns) (lo, 16 * nl) && !overlap (0, 576) (lo, 16 * nl)

/-- Whether a VOP's operands are legal (Table 12.4, R339). -/
def vopOk (w : Nat) : Bool :=
  let op := bits w 36 32
  let dk := bits w 62 61
  bits w 39 37 == 0 && bits w 127 89 == 0 && decide (op ≤ 20) && bits w 41 40 != 3 &&
    (decide (vopArity op < 2) || bits w 48 47 != 3) && (decide (vopArity op < 3) || bits w 55 54 != 3) &&
    (if 8 ≤ op ∧ op ≤ 10 then dk == 2 else decide (dk ≤ 1))

/-- Whether a step word other than a LOOP's nesting is legal (R335, Tables 12.3 and 12.4); i is its index of n steps. -/
def stepOk (w i n nslots : Nat) : Bool :=
  let op := bits w 7 0
  let rep := bits w 31 16
  let slotOk := decide (bits w 39 32 < nslots)
  bits w 15 9 == 0 && (op == 0x01) == (i + 1 == n) &&
  (match op with
   | 0x00 => bits w 127 32 == 0
   | 0x01 => rep == 0 && bits w 127 32 == 0
   | 0x02 => rep == 0 && bits w 127 96 == 0 && bits w 63 32 != 0 && bits w 79 64 != 0 && bits w 79 64 != 65535
   | 0x03 => rep == 0 && bits w 39 36 == 0 && bits w 127 80 == 0
   | 0x08 => bits w 127 104 == 0 && slotOk
   | 0x09 => bits w 127 104 == 0 && slotOk
   | 0x0A => rep == 0 && bits w 103 97 == 0 && bits w 127 105 == 0 && slotOk
   | 0x0B => rep == 0 && bits w 103 97 == 0 && bits w 127 105 == 0 && slotOk
   | 0x10 => bits w 47 45 == 0 && bits w 127 85 == 0
   | 0x11 => vopOk w
   | 0x12 => rep == 0 && bits w 35 34 == 0 && bits w 127 48 == 0 && bits w 33 32 != 3 &&
       (bits w 33 32 != 2 || decide (bits w 47 40 < 32))
   | 0x18 => rep == 0 && bits w 47 40 == 0 && bits w 127 112 == 0 && slotOk
   | 0x19 => rep == 0 && bits w 47 40 == 0 && bits w 127 112 == 0 && slotOk
   | 0x20 => bits w 127 52 == 0
   | 0x21 => bits w 127 52 == 0
   | _ => false)

/-- The index of the first step that is not legal: ends are the last steps of the loops that are open. -/
def firstBad (n nslots : Nat) : List Nat → Nat → List Nat → Option Nat
  | [], _, _ => none
  | w :: ws, i, ends =>
    let ends := ends.filter fun e => decide (i ≤ e)
    if !stepOk w i n nslots then some i
    else if bits w 7 0 = 0x02 then
      let e := i + bits w 79 64
      if n ≤ e ∨ 4 ≤ ends.length ∨ ends.any (fun x => decide (x < e)) then some i
      else firstBad n nslots ws (i + 1) (e :: ends)
    else firstBad n nslots ws (i + 1) ends

/-- Validates the image at an offset of a Block store (R335): the image, or the index FAULT_PC is to hold. -/
def Blk.validate (x : Blk) (base : Nat) : Except Nat SeqImage :=
  let hd := x.read base 576
  if !headerOk hd base then .error 0xFFFF
  else
    let n := leAt hd 4 4
    let steps := (List.range n).map fun i => leNat (x.read (base + leAt hd 8 4 + 16 * i) 16)
    match firstBad n (leAt hd 16 2) steps 0 [] with
    | some i => .error i
    | none =>
      .ok { steps := steps, slots := base + leAt hd 12 4,
            ars := (List.range 16).map fun r => leAt hd (64 + 32 * r) 5,
            strides := (List.range 16).map fun r => (List.range 5).map fun k => leAt hd (64 + 32 * r + 8 + 4 * k) 4 }

/-! ### Address registers and loops (R337, R338) -/

/-- The value of an address register. -/
def Blk.ar (x : Blk) (r : Nat) : Nat := x.ars.getD r 0

/-- Stride k of a register. -/
def Blk.stride (x : Blk) (r k : Nat) : Int := toSigned 32 ((x.strides.getD r []).getD k 0)

/-- An address of a repetition: register, displacement, and repetition × S0, modulo 2^40. -/
def Blk.addr (x : Blk) (r : Nat) (disp : Int) (rep : Nat) : Nat :=
  ofSigned 40 ((x.ar r : Int) + disp + (rep : Int) * x.stride r 0)

/-- The registers after i iterations of a loop at a level. -/
def Blk.loopRegs (x : Blk) (l : Loop) (level i : Nat) : List Nat :=
  (List.range 16).map fun r =>
    if bit l.mask r then ofSigned 40 ((l.regs.getD r 0 : Int) + (i : Int) * x.stride r level) else x.ar r

/-- Ends the loops whose last step has been issued: the loops left, the registers, and the next step. -/
def Blk.closeLoops (x : Blk) (pc : Nat) : List Loop → List Nat → List Loop × List Nat × Nat
  | [], ars => ([], ars, pc + 1)
  | l :: ls, ars =>
    let y := { x with ars := ars }
    if l.last ≠ pc then (l :: ls, ars, pc + 1)
    else if l.iter + 1 < l.count then
      ({ l with iter := l.iter + 1 } :: ls, y.loopRegs l (ls.length + 1) (l.iter + 1), l.first)
    else x.closeLoops pc ls (y.loopRegs l (ls.length + 1) l.count)

/-- The position after the repetition at the present one has been issued. -/
def Blk.advance (x : Blk) : Blk :=
  let w := x.steps.getD x.pc 0
  if x.rep < bits w 31 16 then { x with rep := x.rep + 1 }
  else
    let (ls, ars, pc) := x.closeLoops x.pc x.loops x.ars
    { x with rep := 0, loops := ls, ars := ars, pc := pc }

/-! ### Order of issue (R341, R342) -/

/-- The bytes that a repetition reads and writes in the Block store and in HBM. -/
structure Foot where
  rd : List (Nat × Nat) := []
  wr : List (Nat × Nat) := []
  hrd : List (Nat × Nat) := []
  hwr : List (Nat × Nat) := []
  deriving DecidableEq, Repr

/-- The bytes of an outstanding step. -/
def SeqWork.foot : SeqWork → Foot
  | .load off st n => { wr := [(st, n)], hrd := [(off, n)] }
  | .store off st n => { rd := [(st, n)], hwr := [(off, n)] }
  | .bind _ => {}
  | .release _ => {}
  | .a2f src dst n => { rd := [(src, 8 * n)], wr := [(dst, 16 * n)] }
  | .f2a src dst n => { rd := [(src, 16 * n)], wr := [(dst, 8 * n)] }

/-- Whether any range of one list shares a byte with any of another. -/
def anyOverlap (a b : List (Nat × Nat)) : Bool := a.any fun x => b.any (overlap x)

/-- Whether an outstanding step holds a later one. -/
def Foot.conflicts (o n : Foot) : Bool :=
  anyOverlap o.wr n.rd || anyOverlap o.wr n.wr || anyOverlap o.rd n.wr ||
    anyOverlap o.hwr n.hrd || anyOverlap o.hwr n.hwr || anyOverlap o.hrd n.hwr

/-- Whether a step's bytes are clear of every outstanding step. -/
def Blk.clearOf (x : Blk) (f : Foot) : Bool := x.outs.all fun o => !o.work.foot.conflicts f

/-- Whether an outstanding step holds every later one. -/
def SeqWork.exclusive : SeqWork → Bool
  | .bind _ => true
  | .release _ => true
  | _ => false

/-- The step word at the position of a running Block, if it is the step op and the sequencer may issue it but for
conflicts of its locations; none while its function is in a reset (R351). -/
def State.seqAt (s : State) (b op : Nat) : Option (Nat × Blk × Nat) :=
  let x := s.blk b
  let w := x.steps.getD x.pc 0
  match s.blkFn b with
  | none => none
  | some fn =>
    if !s.fnRuns fn ∨ x.state ≠ .running ∨ x.pausing ∨ x.tsWait.isSome ∨ x.outs.any (·.work.exclusive) ∨ x.steps.length ≤ x.pc ∨
        bits w 7 0 ≠ op then none
    else if (bit w 8 ∨ op = 0x01 ∨ op = 0x18 ∨ op = 0x19) ∧ !x.outs.isEmpty then none
    else some (fn, x, w)

/-! ### Tables that load, start, end and fail (R332, R333, R350) -/

/-- Whether a Block may take a new table. -/
def Blk.idleNow (x : Blk) : Bool := (x.state == .idle || x.state == .stopped) && x.loading.isNone && x.outs.isEmpty

/-- Stops the sequencer on a failed step (R350). -/
def State.seqFail (s : State) (b pc rep : Nat) (st : Status) : State :=
  let x := s.blk b
  let s := s.setBlk b { x with state := .stopped, pausing := false, faultPc := pc, rep := rep,
                               lastStatus := st.code, start := none }
  match x.start with
  | some r => s.completeRef r .stepFault
  | none => s

/-- The check of STEP_LOAD and STEP_START: the Block's domain is not off (R36), and then in the order of R332's conditions. -/
def State.loadCheck (s : State) (o : Op) : Option Status :=
  let b := o.d.var
  let a := o.d.opx % 2 ^ 21
  let start := o.d.opcode = 0x29 ∧ o.d.len = 0
  if s.dom (blkDomain s.fuses.variant.blkPerDist b) = .off then some .domainOff
  else if 2 ^ 21 ≤ o.d.opx then some .badDescriptor
  else if ¬start ∧ (a % 64 ≠ 0 ∨ o.d.len = 0 ∨ o.d.len % 64 ≠ 0 ∨ storeSize < a + o.d.len) then some .badLength
  else if s.blkFn b ≠ some o.ref.fn ∨ !s.inService b then some .notPermitted
  else if ¬start ∧ ((s.resOf b).any fun e => overlap (e.2.region, e.2.len) (a, o.d.len)) then some .notPermitted
  else none

/-- Starts the image of a STEP_START (R333, R335). -/
def State.startImage (s : State) (o : Op) : State :=
  let b := o.d.var
  let x := s.blk b
  match x.validate (o.d.opx % 2 ^ 21) with
  | .error i => (s.setBlk b { x with faultPc := i }).complete o .badDescriptor
  | .ok im =>
    let s := s.setBlk b { x with
      state := .running, pausing := false, pc := 0, rep := 0, steps := im.steps, slots := im.slots, ars := im.ars,
      strides := im.strides, loops := [], start := some o.ref }
    s.updOp o.ref fun y => { y with phase := .engine }

/-- The bytes of a table are at hand: they are written, and a STEP_START goes on. -/
def State.tableLoaded (s : State) (o : Op) (bs : List Byte) : State :=
  let b := o.d.var
  let x := s.blk b
  let s := s.setBlk b ({ x with loading := none }.write (o.d.opx % 2 ^ 21) bs)
  if o.d.opcode = 0x28 then s.complete o .ok o.d.len else s.startImage o

/-- A table whose load fails is no longer that which its Block loads. -/
def State.tableFails (s : State) (o : Op) (st : Status) : State :=
  let b := o.d.var
  let x := s.blk b
  (if x.loading = some o.ref then s.setBlk b { x with loading := none } else s).complete o st

/-- Reads the source of the table that a Block is loading: from a host address through the DMA engine of the function's host port, where a
page fault parks it (R332, Table 3.14). Until the source has been read, no other table of the Block begins. -/
def State.tableGo (s : State) (o : Op) : State :=
  match s.localRange (s.opEng o) o.d.lkind o.d.laddr o.d.len .read with
  | .err _ st => s.tableFails o st
  | .walk _ ha => s.opWalks o ha .read
  | .faults _ pages => s.park o 0 pages false
  | .ok =>
    match s.gather o o.d.lkind o.d.laddr o.d.len with
    | .data t bs => t.tableLoaded o bs
    | .reads t => t
    | .wait => s.holdOp o.ref

/-- Begins a STEP_LOAD or STEP_START on a Block that may take it (R332, R333). -/
def State.beginTable (s : State) (o : Op) : State :=
  match s.loadCheck o with
  | some st => s.complete o st
  | none =>
    if o.d.len = 0 then s.startImage o
    else (s.setBlk o.d.var { s.blk o.d.var with loading := some o.ref }).tableGo o

/-- Begins the tables that wait for a Block, while it may take them: at most n (R333). -/
def State.drainBlk (s : State) (b : Nat) : Nat → State
  | 0 => s
  | n + 1 =>
    let x := s.blk b
    match x.waiting with
    | [] => s
    | r :: rs =>
      if !x.idleNow then s
      else
        let t := s.setBlk b { x with waiting := rs }
        match t.op r with
        | some o => (t.beginTable o).drainBlk b n
        | none => t.drainBlk b n

/-- Begins what waits for a Block. -/
def State.nextTable (s : State) (b : Nat) : State := s.drainBlk b ((s.blk b).waiting.length + 1)

/-- A table that is to be read from the host has a Journal record, taken when it reaches its District; none while no record is free
(R175, R446). -/
def State.admitTable (s : State) (o : Op) : Option (Op × State) :=
  if o.d.lkind ∨ o.d.len = 0 then some (o, s) else s.admitOp o s.emptiest 2 0

/-- A STEP_LOAD or STEP_START reaches its District, whose domain is on (R36): it begins, or waits for the Block, behind those that wait
already (R333). What has reached its District counts as admitted, and keeps the switch of a domain that is going off shut (R37). One that was
loading when its host could not be read goes on. -/
def State.tableArrives (s : State) (o : Op) : State :=
  let b := o.d.var
  if (s.blk b).loading = some o.ref then (s.tableGo o).nextTable b
  else if !s.domOn (blkDomain s.fuses.variant.blkPerDist b) then s.complete o .domainOff
  else
    match s.loadCheck o with
    | some st => s.complete o st
    | none =>
      match s.admitTable o with
      | none => s
      | some (o, s) =>
        let x := s.blk b
        if x.idleNow ∧ x.waiting.isEmpty then s.beginTable o
        else (s.setBlk b { x with waiting := x.waiting ++ [o.ref] }).updOp o.ref fun y => { y with phase := .engine }

/-! ### The effect of steps -/

/-- Ends a repetition that completed at issue, or stops the sequencer. -/
def State.stepped (s : State) (b : Nat) : Except Status (Blk × FFlags) → State
  | .ok (x, fl) => (s.setBlk b x.advance).blkFlags b fl
  | .error st =>
    let x := s.blk b
    (s.seqFail b x.pc x.rep st).nextTable b

/-- The same for a repetition whose event is counted: the count comes once the Block has moved on (R353). -/
def State.steppedAs (s : State) (fn ev b : Nat) (r : Except Status (Blk × FFlags)) : State :=
  match r with
  | .ok _ => (s.stepped b r).count fn ev b
  | .error _ => (s.count fn ev b).stepped b r

/-- Puts a step among the outstanding ones and moves on; the Block's micro-TLB holds what a memory step was checked by (R304). -/
def State.issue (s : State) (b : Nat) (work : SeqWork) (key : Nat := 0) (cut : List (Nat × Nat) := []) : State :=
  let x := s.blk b
  let s := match work, s.blkFn b with
    | .load off _ n, some fn => if key = 0 then s.ownUse fn (.block b) off n else s.winUse (.block b) key
    | .store off _ n, some fn => if key = 0 then s.ownUse fn (.block b) off n else s.winUse (.block b) key
    | _, _ => s
  let o : SeqOut := { id := x.nextOut, pc := x.pc, rep := x.rep, work := work, key := key, cut := cut }
  let s := match work, s.blkFn b with
    | .store _ _ _, some fn => s.icAdmit 4 fn b o.id
    | _, _ => s
  s.setBlk b { x with outs := x.outs ++ [o], nextOut := x.nextOut + 1 }.advance

/-- The FGA of a step's slot with a register and a displacement in lines (R343); the sum is formed in the low 40 bits of
the offset, the width of the registers (log entry 11). -/
def Blk.stepFga (x : Blk) (w : Nat) : Nat × Nat :=
  let sl := x.read (x.slots + 16 * bits w 39 32) 16
  let fga := leAt sl 0 8
  let t := x.addr (bits w 47 44) (toSigned 24 (bits w 87 64) * 64) x.rep
  (fga / 2 ^ 40 * 2 ^ 40 + (fga % 2 ^ 40 + t) % 2 ^ 40, leAt sl 8 4)

/-- The Block-store address of a memory step. -/
def Blk.stepStore (x : Blk) (w : Nat) : Nat := x.addr (bits w 43 40) (toSigned 16 (bits w 63 48) * 64) x.rep

/-- The check of R304 on a range of HBM: its offset, or the status of the step. A stale key is KEY_STALE (R343, R350), a
stack that is off DOMAIN_OFF, a page under a killed key CIPHER_FAULT (R412), every other failure NOT_PERMITTED. -/
def State.stepCheck (s : State) (fn key fga len : Nat) (needR needW : Bool) : Except Status Nat :=
  if fgaNode fga ≠ s.nodeId ∨ fgaSpace fga ≠ 0 then .error .notPermitted
  else
    let r :=
      if key = 0 then (if s.ownsBytes fn (fgaOff fga) len then .ok fga else .error Status.notPermitted)
      else s.ownedCheck (s.user fn) key (offsetIn (s.win (keyIndex key)).base fga) len needR needW .data
    match r with
    | .error .keyStale => .error .keyStale
    | .error _ => .error .notPermitted
    | .ok _ =>
      match s.spaceCheck 0 (fgaOff fga) len needW with
      | some .domainOff => .error .domainOff
      | some .cipherFault => .error .cipherFault
      | some _ => .error .notPermitted
      | none => .ok (fgaOff fga)

/-- MLOAD and MSTORE (R343): the whole range of the repetition is checked before any byte moves; lines of an MSTORE in a resident range are
refused, and it fails once the others are written (R306). -/
def State.memStep (s : State) (b : Nat) (store : Bool) : State :=
  match s.seqAt b (if store then 0x09 else 0x08) with
  | none => s
  | some (fn, x, w) =>
    let len := (bits w 103 88 + 1) * 64
    let a := x.stepStore w
    let (fga, key) := x.stepFga w
    let work := if store then SeqWork.store (fgaOff fga) a len else SeqWork.load (fgaOff fga) a len
    let f := work.foot
    if 16 ≤ x.outs.length ∨ !x.clearOf { f with rd := (x.slots + 16 * bits w 39 32, 16) :: f.rd } then s
    else
      match storeCheck a len 64 with
      | some st => s.stepped b (.error st)
      | none =>
        match s.stepCheck fn key fga len (!store) store with
        | .error st => s.stepped b (.error st)
        | .ok off =>
          if s.hbmBusy off len then s
          else s.issue b (if store then .store off a len else .load off a len) key (if store then s.resRanges off len else [])

/-- RBIND (R305, R307): the entry is written in R_LOADING. A window that the range comes through grants R where it is loaded (log
entry 73). -/
def State.bindStep (s : State) (b : Nat) : State :=
  match s.seqAt b 0x0A with
  | none => s
  | some (fn, x, w) =>
    let len := (bits w 96 88 + 1) * 4096
    let a := x.stepStore w
    let (fga, key) := x.stepFga w
    let f : Foot := { rd := [(x.slots + 16 * bits w 39 32, 16)], wr := if bit w 104 then [(a, len)] else [],
                      hrd := if bit w 104 then [(fgaOff fga, len)] else [] }
    if 16 ≤ x.outs.length ∨ !x.clearOf f then s
    else
      let chk :=
        match storeCheck a len 4096, s.stepCheck fn key fga len (bit w 104) false with
        | some st, _ => some st
        | none, .error st => some st
        | none, .ok off => s.bindCheck fn b off a len
      match chk, s.freeRes with
      | some st, _ => s.stepped b (.error st)
      | none, none => s.stepped b (.error .poolExhausted)
      | none, some i =>
        if bit w 104 && s.hbmBusy (fgaOff fga) len then s
        else
        let r : Resident := { base := fgaOff fga, region := a, len := len, load := bit w 104, blk := b, fn := fn }
        ({ s with res := AMap.put s.res i r }).issue b (.bind i)

/-- RRELEASE (R308): the entry of the same range and region becomes R_RELEASING; without one the step fails (log entry 12). -/
def State.releaseStep (s : State) (b : Nat) : State :=
  match s.seqAt b 0x0B with
  | none => s
  | some (_, x, w) =>
    let len := (bits w 96 88 + 1) * 4096
    let a := x.stepStore w
    let (fga, _) := x.stepFga w
    let f : Foot := { rd := (x.slots + 16 * bits w 39 32, 16) :: (if bit w 104 then [(a, len)] else []),
                      hwr := if bit w 104 then [(fgaOff fga, len)] else [] }
    if 16 ≤ x.outs.length ∨ !x.clearOf f then s
    else
      match storeCheck a len 4096 with
      | some st => s.stepped b (.error st)
      | none =>
      if bit w 104 ∧ !s.cipherOk (fgaOff fga) len then s.stepped b (.error .cipherFault)
      else
      match s.res.find? fun e => e.2.blk == b && e.2.state == .live && e.2.base == fgaOff fga && e.2.region == a &&
          e.2.len == len && fgaNode fga == s.nodeId && fgaSpace fga == 0 with
      | none => s.stepped b (.error .notPermitted)
      | some (i, r) =>
        ({ s with res := AMap.put s.res i { r with state := .releasing, wb := bit w 104 } }).issue b (.release i)

/-- An outstanding step of a Block by its number. -/
def Blk.outOf (x : Blk) (id : Nat) : Option SeqOut := x.outs.find? fun o => o.id == id

/-- Takes an outstanding step off. -/
def State.dropOut (s : State) (b id : Nat) : State :=
  let x := s.blk b
  s.setBlk b { x with outs := x.outs.filter fun o => o.id != id }

/-- Fails an outstanding step (R350). -/
def State.outFails (s : State) (b : Nat) (o : SeqOut) (st : Status) : State :=
  let s := match s.blkFn b with
    | some fn => s.icDrop 4 fn b o.id
    | none => s
  let s := s.dropOut b o.id
  if (s.blk b).state = .stopped ∨ !(s.blkFn b).any s.fnRuns then s.nextTable b else (s.seqFail b o.pc o.rep st).nextTable b

/-- Moves the bytes of a memory step, unless they have been served by a bind or a release of its range. -/
def State.moveBytes (s : State) (b : Nat) (o : SeqOut) : State :=
  match o.work with
  | .load off a n => (s.countLines 0x50 off n).setBlk b ((s.blk b).write a (match o.early with | some bs => bs.take n | none => s.hbmRead off n))
  | .store off a n => if o.early.isSome then s else s.hbmWriteBut o.cut off ((s.blk b).read a n)
  | _ => s

/-- The part of a memory step that is admitted before the window's revocation: n lines of it. -/
def SeqWork.part (n : Nat) : SeqWork → SeqWork
  | .load off a len => .load off a (min len (64 * n))
  | .store off a len => .store off a (min len (64 * n))
  | w => w

/-- Whether the controllers issue no command for an outstanding step: it cannot complete yet (R396, R397). -/
def State.workStalled (s : State) : SeqWork → Bool
  | .load off _ n => s.hbmStalled off n
  | .store off _ n => s.hbmStalled off n
  | .bind i => (AMap.find s.res i).any fun r => r.load && s.hbmStalled r.base r.len
  | .release i => (AMap.find s.res i).any fun r => r.wb && s.hbmStalled r.base r.len
  | _ => false

/-- Whether an outstanding step still has to access a page of a killed slot (R412). -/
def State.workKilled (s : State) (o : SeqOut) : Bool :=
  match o.work with
  | .load off _ n => o.early.isNone && !s.cipherOk off n
  | .store off _ n => o.early.isNone && !s.cipherOk off n
  | .bind i => (AMap.find s.res i).any fun r => r.load && !s.cipherOk r.base r.len
  | .release i => (AMap.find s.res i).any fun r => r.wb && !s.cipherOk r.base r.len
  | _ => false

/-- Completes an outstanding memory or conversion step (R341, R343, R345); moved tells how many lines were admitted where
a later part is refused because the window is no longer current. -/
def State.stepDone (s : State) (b id : Nat) (moved : Option Nat) : State :=
  match (s.blk b).outOf id, s.blkFn b with
  | some o, some fn =>
    if s.workStalled o.work then s
    else
    let stale := o.key ≠ 0 ∧ ((s.win (keyIndex o.key)).state ≠ .valid ∨ (s.win (keyIndex o.key)).gen ≠ keyGen o.key)
    match o.work, moved with
    | .bind _, _ => s
    | .release _, _ => s
    | .a2f src dst n, _ =>
      let r := s.a2fArray fn n ((s.blk b).read src (8 * n))
      (((s.setBlk b ((s.blk b).write dst r.1)).countSat F.seqfCvtFailCount b r.2).dropOut b id).nextTable b
    | .f2a src dst n, _ =>
      let r := s.f2aArray fn n ((s.blk b).read src (16 * n))
      (((s.setBlk b ((s.blk b).write dst r.1)).countSat F.seqfCvtFailCount b r.2).dropOut b id).nextTable b
    | w, some k => if stale then (s.moveBytes b { o with work := w.part k }).outFails b o .keyStale else s
    | w, none =>
      let s := match w with
        | .store _ a n => if o.cut.isEmpty then s.icDone 4 fn b id (o.early.getD ((s.blk b).read a n)) else s
        | _ => s
      if s.workKilled o then (match w with | .store .. => s.moveBytes b o | _ => s).outFails b o .cipherFault
      else
      let s := s.moveBytes b o
      if o.cut.isEmpty then (s.dropOut b id).nextTable b else s.outFails b o .notPermitted
  | _, _ => s

/-- RBIND_DONE (Table 11.3): writes admitted before are applied, with LOAD = 1 the range is copied, and the entry is R_LIVE. -/
def State.bindDone (s : State) (b : Nat) : State :=
  match (s.blk b).outs.find? fun o => (match o.work with | .bind _ => true | _ => false) with
  | none => s
  | some o =>
    match o.work with
    | .bind i =>
      if s.workStalled o.work then s
      else if s.workKilled o then ({ s with res := AMap.drop s.res i }).outFails b o .cipherFault
      else
        (match AMap.find s.res i with
         | some r =>
           let s := s.storesLand r
           let s := if r.load then s.setBlk b ((s.blk b).write r.region (readBytes s.mem r.base r.len)) else s
           (({ s with res := AMap.put s.res i { r with state := .live } }).dropOut b o.id).nextTable b
         | none => (s.dropOut b o.id).nextTable b)
    | _ => s

/-- RRELEASE_DONE (Table 11.4). -/
def State.releaseDone (s : State) (b : Nat) : State :=
  match (s.blk b).outs.find? fun o => (match o.work with | .release _ => true | _ => false) with
  | none => s
  | some o =>
    match o.work with
    | .release i =>
      if s.workStalled o.work then s
      else if s.workKilled o then (s.releaseEntry i).outFails b o .cipherFault
      else ((s.releaseEntry i).dropOut b o.id).nextTable b
    | _ => s

/-- A conversion step (R345). -/
def State.cvtStep (s : State) (b : Nat) (a2f : Bool) : State :=
  match s.seqAt b (if a2f then 0x20 else 0x21) with
  | none => s
  | some (_, x, w) =>
    let n := bits w 51 40 + 1
    let src := x.addr (bits w 35 32) 0 x.rep
    let dst := x.addr (bits w 39 36) 0 x.rep
    let work := if a2f then SeqWork.a2f src dst n else SeqWork.f2a src dst n
    if 16 ≤ x.outs.length ∨ !x.clearOf work.foot then s
    else
      match firstFail [storeCheck src (if a2f then 8 * n else 16 * n) 64, storeCheck dst (if a2f then 16 * n else 8 * n) 64] with
      | some st => s.stepped b (.error st)
      | none => s.issue b work

/-- MMA (R310, R341). -/
def State.mmaStep (s : State) (b : Nat) : State :=
  match s.seqAt b 0x10 with
  | none => s
  | some (fn, x, w) =>
    let adr := fun hi lo => x.addr (bits w hi lo) 0 x.rep
    let a := adr 51 48
    let bb := adr 55 52
    let sa := adr 59 56
    let sb := adr 63 60
    let fa := bits w 36 32
    let fb := bits w 41 37
    let kk := match fmtOf fa, fmtOf fb with
      | some ka, some kb => (match mmaClass ka kb with | some p => classK p.1 | none => 0)
      | _, _ => 0
    let size := fun (c : Nat) => if (fmtOf c).isSome then tileBytes kk else 0
    let scale := fun (c p : Nat) => match fmtOf c with
      | some k => if k.isMx then ([(p, scaleBytes k kk)] : List (Nat × Nat)) else []
      | none => []
    let f : Foot := { rd := [(a, size fa), (bb, size fb)] ++ scale fa sa ++ scale fb sb }
    if !x.clearOf f then s
    else
      let zero := bit w 44 && x.rep == 0
      s.steppedAs fn 0x40 b
        (x.mma fa fb a bb sa sb (bits w 71 64) (bits w 79 72) (bits w 84 80) (bits w 43 42) zero)

/-- The operands of a VOP repetition. -/
def Blk.vopArgs (x : Blk) (w : Nat) : VopArgs :=
  let arg := fun (k i : Nat) => ({ kind := k, idx := i, addr := x.addr (i % 16) 0 x.rep } : VArg)
  { a := arg (bits w 41 40) (bits w 46 42), b := arg (bits w 48 47) (bits w 53 49), c := arg (bits w 55 54) (bits w 60 56),
    d := arg (bits w 62 61) (bits w 67 63), mask := bits w 70 68, sfmt := bits w 75 71, tfmt := bits w 80 76,
    cb := bits w 88 81, rep := x.rep }

/-- The bytes of 64 elements of a format at an address, and of their scales, which C addresses (R339). -/
def VArg.bytes (o c : VArg) (fmt : Nat) : List (Nat × Nat) :=
  match fmtOf fmt with
  | some k => (o.addr, 8 * k.width) :: (if k.isMx then [(c.addr, 2)] else [])
  | none => []

/-- The Block-store bytes that a repetition of a VOP reads and writes (R339, R341). -/
def VopArgs.foot (v : VopArgs) (op : Nat) : Foot :=
  let src := fun (o : VArg) (n : Nat) => if o.kind = 1 ∧ n ≤ vopArity op then o.bytes v.c v.sfmt else []
  { rd := src v.a 1 ++ src v.b 2 ++ src v.c 3,
    wr := if v.d.kind = 1 then v.d.bytes v.c (if op = 20 then v.tfmt else 0x1A)
          else if op = 20 then (v.d.bytes v.c v.tfmt).drop 1 else [] }

/-- The words of a vector register past packed elements: free values, but functions of the image, the position in it and the Block's vector
registers (R347; log entry 10). -/
def Blk.restWord (x : Blk) (i : Nat) : Nat :=
  (Config.freeLane (x.steps ++ x.pc :: x.rep :: (x.loops.map (·.iter) ++ x.vregs.flatMap fun e => [e.1, e.2])) i).toNat

/-- A VOP of one operation (R322, R341). -/
def State.vopStep (s : State) (b op : Nat) : State :=
  match s.seqAt b 0x11 with
  | none => s
  | some (fn, x, w) =>
    if bits w 36 32 ≠ op then s
    else
      let v := x.vopArgs w
      if !x.clearOf (v.foot op) then s
      else
        s.steppedAs fn 0x41 b (x.vop op v x.restWord)

/-- FLOAD of a kind (R318 to R320). -/
def State.floadStep (s : State) (b kind : Nat) : State :=
  match s.seqAt b 0x12 with
  | none => s
  | some (_, x, w) =>
    if bits w 33 32 ≠ kind then s
    else
      let a := x.addr (bits w 39 36) 0 x.rep
      if !x.clearOf { rd := [(a, if kind = 2 then 520 else 32)] } then s
      else
        s.stepped b (match x.fload kind a (bits w 47 40) with
          | .ok y => .ok (y, {})
          | .error st => .error st)

/-- LOOP (R338). -/
def State.loopStep (s : State) (b : Nat) : State :=
  match s.seqAt b 0x02 with
  | none => s
  | some (_, x, w) =>
    let l : Loop := { first := x.pc + 1, last := x.pc + bits w 79 64, count := bits w 63 32, mask := bits w 95 80, iter := 0,
                      regs := x.ars }
    s.setBlk b { x with loops := l :: x.loops, pc := x.pc + 1, rep := 0 }

/-- SETAR (Table 12.4). -/
def State.setArStep (s : State) (b : Nat) : State :=
  match s.seqAt b 0x03 with
  | none => s
  | some (_, x, w) => s.setBlk b { x with ars := x.ars.set (bits w 35 32) (bits w 79 40) }.advance

/-- NOP. -/
def State.nopStep (s : State) (b : Nat) : State :=
  match s.seqAt b 0x00 with
  | none => s
  | some (_, x, _) => s.setBlk b x.advance

/-- END (R342): the table ends and its STEP_START completes. -/
def State.endTable (s : State) (b : Nat) : State :=
  match s.seqAt b 0x01 with
  | none => s
  | some (_, x, _) =>
    let s := s.setBlk b { x with state := .idle, loops := [], start := none }
    let s := match x.start.bind s.op with
      | some o => s.complete o .ok o.d.len
      | none => s
    s.nextTable b

/-- The turnstile that a step's slot names (R344, R50). -/
def State.stepTurnstile (s : State) (fn : Nat) (x : Blk) (w : Nat) (needW : Bool) : Except Status (Nat × Nat) :=
  let sl := x.read (x.slots + 16 * bits w 39 32) 16
  let fga := leAt sl 0 8
  let key := leAt sl 8 4
  let r :=
    if fgaNode fga ≠ s.nodeId ∨ fgaSpace fga ≠ 1 then .error Status.notPermitted
    else if key = 0 then (if s.isManager fn then .ok fga else .error .notPermitted)
    else s.ownedCheck (s.user fn) key (offsetIn (s.win (keyIndex key)).base fga) 8 true needW .turnstile
  match r with
  | .error .keyStale => .error .keyStale
  | .error .keyInvalid => .error .keyInvalid
  | .error _ => .error .notPermitted
  | .ok _ =>
    if fgaOff fga % 16 ≠ 0 then .error .badOffset
    else
      match s.spaceCheck 1 (fgaOff fga) 16 with
      | some st => .error st
      | none => .ok (fgaOff fga / 16, key)

/-- A TS_WAIT of a Block has ended in the turnstile store (R344, R350). -/
def State.stepWaitEnds (s : State) (b : Nat) (st : Status) : State :=
  let x := s.blk b
  match x.tsWait with
  | none => s
  | some p =>
    let s := s.setBlk b { x with tsWait := none }
    if st = .ok then s else (s.seqFail b p 0 st).nextTable b

end Machine
end Sys2Proof
end

