-- ==== Sys2Proof/Machine/Square.lean ====
section
/-! DEFINITION. The arithmetic and the layouts of the Square (R356 to R376): formats and operators, element states and their
combination, rounding, buffers, transfer headers and bodies. -/

namespace Sys2Proof
namespace Machine

/-! ### Formats and operators (Tables 13.2, 13.3, 13.7) -/

/-- FP64 (binary64). -/
def fp64 : FFmt := { eb := 11, mb := 52, bias := 1023 }

/-- The classes of formats in collectives. -/
inductive CFmt where
  | int (n : Nat) (sgn : Bool)
  | float (k : FmtKind)
  | fp64
  | table (t4 : Bool)
  deriving DecidableEq, Repr

/-- The format of a code in a collective (R358); none for a reserved one. -/
def collFmt (c : Nat) : Option CFmt :=
  match c with
  | 0x06 => some (.int 16 true)
  | 0x07 => some (.int 32 true)
  | 0x0D => some (.int 64 true)
  | 0x0E => some (.int 16 false)
  | 0x0F => some (.int 32 false)
  | 0x16 => some (.int 64 false)
  | 0x1E => some .fp64
  | _ => (fmtOf c).map fun k => match k with
    | .int n s => .int n s
    | .table t => .table t
    | k => .float k

/-- Bits of an element. -/
def CFmt.width : CFmt → Nat
  | .int n _ => n
  | .float k => k.width
  | .fp64 => 64
  | .table t4 => if t4 then 4 else 2

/-- Whether blocks of 32 elements have a scale. -/
def CFmt.isMx : CFmt → Bool
  | .float k => k.isMx
  | _ => false

/-- Bytes of Square state of an element (Table 13.7): BF16, FP32 and MX are wide. -/
def CFmt.stateBytes : CFmt → Nat
  | .float k => if k.isMx ∨ k = .float bf16 ∨ k = .float fp32 then 64 else 8
  | _ => 8

/-- Whether a collective of a kind with an operator accepts a pair of formats (R357, R358, Table 13.2): the table formats are only moved, in
KINDs 3 to 5. -/
def pairOk (kind redop : Nat) (i o : CFmt) (same : Bool) : Bool :=
  if kind = 1 ∨ kind = 2 then
    match redop, i, o with
    | _, .table _, _ => false
    | _, _, .table _ => false
    | 1, .float _, .float _ => true
    | 1, .fp64, .fp64 => true
    | 1, .int _ _, _ => same
    | 2, .float _, .float _ => true
    | 2, .fp64, .float _ => true
    | 2, .fp64, .fp64 => true
    | 2, .int _ _, _ => same
    | 3, .float _, .float _ => true
    | 3, .fp64, .float _ => true
    | 3, .fp64, .fp64 => true
    | 3, .int _ _, _ => same
    | _, .int _ _, _ => same
    | _, _, _ => false
  else if kind = 6 then
    match i with
    | .table _ => false
    | _ => same
  else same

/-! ### Element states (Table 13.8, R372, R373) -/

/-- A value as a state. -/
def Elem.ofVal : FVal → Elem
  | .nan => { cls := 4 }
  | .inf s => { cls := if s then 3 else 2 }
  | .fin s m e => if m = 0 then { cls := if s then 1 else 0 } else { cls := 0, x := signed s m, e := e }

/-- A state as a value; NaN generated is NaN. -/
def Elem.val (a : Elem) : FVal :=
  match a.cls with
  | 2 => .inf false
  | 3 => .inf true
  | 1 => .fin true 0 0
  | 0 => .fin (decide (a.x < 0)) a.x.natAbs a.e
  | _ => .nan

/-- The state an input element has as a term. -/
def CFmt.term (f : CFmt) (scale code : Nat) : Elem :=
  match f with
  | .int _ _ => { cls := 0, x := (code : Int) }
  | .fp64 => Elem.ofVal (Sys2Proof.Machine.fp64.decode code)
  | .float k => Elem.ofVal (k.value [] scale code)
  | .table _ => { cls := 0, x := (code : Int) }

/-- The exact sum of two states with its class. -/
def Elem.add (a b : Elem) : Elem :=
  let is := fun n => a.cls == n || b.cls == n
  if is 4 then { cls := 4 }
  else if is 5 || (is 2 && is 3) then { cls := 5 }
  else if is 2 then { cls := 2 }
  else if is 3 then { cls := 3 }
  else if a.cls = 1 ∧ b.cls = 1 then { cls := 1 }
  else
    let d := Dyadic.add { x := a.x, e := a.e } { x := b.x, e := b.e }
    { cls := 0, x := d.x, e := d.e }

/-- Whether a is below b, −0 below +0. -/
def Elem.below (a b : Elem) : Bool :=
  ltVal a.val b.val || (eqVal a.val b.val && a.cls == 1 && b.cls != 1)

/-- The lesser, or the greater, of two states; a NaN on either side gives NaN. -/
def Elem.pick (max : Bool) (a b : Elem) : Elem :=
  if a.cls ≥ 4 ∨ b.cls ≥ 4 then { cls := 4 }
  else if max then (if a.below b then b else a) else (if b.below a then b else a)

/-- A reduction operator on integers of n bits. -/
def intOp (redop n : Nat) (sgn : Bool) (a b : Nat) : Nat :=
  let lt := fun x y => if sgn then decide (toSigned n x < toSigned n y) else decide (x < y)
  match redop with
  | 1 => (a + b) % 2 ^ n
  | 2 => if lt b a then b else a
  | 3 => if lt a b then b else a
  | 4 => a &&& b
  | 5 => a ||| b
  | _ => a ^^^ b

/-- Combines two states under an operator. -/
def CFmt.combine (f : CFmt) (redop : Nat) (a b : Elem) : Elem :=
  match f with
  | .int n sgn => { cls := 0, x := (intOp redop n sgn a.x.toNat b.x.toNat : Nat) }
  | _ => if redop = 1 then a.add b else a.pick (redop == 3) b

/-- Combines two lists of states; an empty one takes the other. -/
def CFmt.combines (f : CFmt) (redop : Nat) (a b : List Elem) : List Elem :=
  if a.isEmpty then b else List.zipWith (f.combine redop) a b

/-- One FP64 addition (R375) of two encodings: roundTiesToEven, NaN results canonical. -/
def add64 (a b : Elem) : Elem :=
  let read := fun (x : Elem) => Elem.ofVal (fp64.decode x.x.toNat)
  { x := ((cvtFloat fp64 false ((read a).add (read b)).val).1 : Nat) }

/-- A leaf, or a partial, of the tree of R375: the encoding as it stands, which only a combination changes. -/
def leaf64 (code : Nat) : Elem := { x := (code : Int) }

/-- The encoding that a tree partial holds. -/
def Elem.code64 (a : Elem) : Nat := a.x.toNat

/-- The tree of R375 over the inputs of a node, as many as a power of two: neighbours combine. -/
def pairs64 : List (List Elem) → List (List Elem)
  | a :: b :: r => List.zipWith add64 a b :: pairs64 r
  | l => l

/-- The subtree of a node's inputs, with n levels. -/
def tree64 : Nat → List (List Elem) → List Elem
  | 0, l => l.headD []
  | n + 1, l => tree64 n (pairs64 l)

/-! ### Rounding (R374, Table 13.11) -/

/-- The value that is rounded: the exact one times 2^k. -/
def Elem.scaled (a : Elem) (k : Int) : FVal := ({ a with e := a.e + k } : Elem).val

/-- Rounds states that have no block scale. -/
def CFmt.roundOne (f : CFmt) (k : Int) (a : Elem) : Nat × FFlags :=
  match f with
  | .int n _ => (a.x.toNat % 2 ^ n, {})
  | .table _ => (a.x.toNat, {})
  | .fp64 => (cvtFloat Sys2Proof.Machine.fp64 false (a.scaled k)).map id fun fl => { fl with nanGen := a.cls == 5 }
  | .float g => (cvtLane g [] (a.scaled k)).map id fun fl => { fl with nanGen := a.cls == 5 }

/-- Rounds MX blocks of 32: scales, codes, flags. -/
def mxBlocks (g : FmtKind) (k : Int) : Nat → List Elem → List Nat × List Nat × FFlags
  | 0, _ => ([], [], {})
  | n + 1, l =>
    if l.isEmpty then ([], [], {})
    else
      let b := l.take 32
      let (sc, cs, fl) := cvtMxBlock g (b.map fun a => a.scaled k)
      let fl := { fl with nanGen := b.any fun a => a.cls == 5 }
      let (ss, ds, gl) := mxBlocks g k n (l.drop 32)
      (sc :: ss, cs ++ ds, fl.or gl)

/-- Rounds a slice that begins at an element of the chunk, and the flags it raises. -/
def CFmt.round (f : CFmt) (k : Int) (first : Nat) (l : List Elem) : Piece × FFlags :=
  match f with
  | .float g =>
    if g.isMx then
      let (ss, cs, fl) := mxBlocks g k (l.length / 32 + 1) l
      ({ first := first, codes := cs, scales := ss }, fl)
    else
      let r := l.map (f.roundOne k)
      ({ first := first, codes := r.map (·.1) }, r.foldl (fun a x => a.or x.2) {})
  | _ =>
    let r := l.map (f.roundOne k)
    ({ first := first, codes := r.map (·.1) }, r.foldl (fun a x => a.or x.2) {})

/-- The bits of FLAGS in a report (Table 13.10). -/
def FFlags.report (f : FFlags) : Nat := b2n f.cvtNan + 2 * b2n f.cvtSat + 4 * b2n f.accOvf + 8 * b2n f.nanGen

/-! ### Transfers (Table 13.9, R370) -/

/-- The number of zero bits below the lowest set bit of a number, looking at n bits. -/
def ctz : Nat → Nat → Nat
  | 0, _ => 0
  | n + 1, m => if m % 2 = 1 then 0 else ctz n (m / 2) + 1

/-- The lower of the lowest set bit so far and that of a state. -/
def lowerBit (b : Option Int) (a : Elem) : Option Int :=
  if a.cls ≠ 0 ∨ a.x = 0 then b
  else
    let p : Int := a.e + ((ctz (lead a.x.natAbs + 1) a.x.natAbs : Nat) : Int)
    match b with
    | some q => some (min p q)
    | none => some p

/-- The position of the lowest set bit over the finite non-zero values of a slice, 0 where there is none. -/
def lowest (l : List Elem) : Int := (l.foldl lowerBit none).getD 0

/-- Bits that a signed value needs. -/
def bitsFor (v : Int) : Nat := if 0 ≤ v then (if v = 0 then 1 else lead v.natAbs + 2) else (if v = -1 then 1 else lead (v.natAbs - 1) + 2)

/-- The values of a slice divided by 2^lo; a state that is not finite is 0. -/
def valuesOf (lo : Int) (l : List Elem) : List Int :=
  l.map fun a => if a.cls ≠ 0 ∨ a.x = 0 then 0
    else if lo ≤ a.e then a.x * ((2 ^ (a.e - lo).toNat : Nat) : Int) else a.x / ((2 ^ (lo - a.e).toNat : Nat) : Int)

/-- The body of a partial: W, LO, whether it has classes, and its bytes (R370). -/
def CFmt.partialBody (f : CFmt) (l : List Elem) : Nat × Int × Bool × List Byte :=
  if l.isEmpty then (0, 0, false, [])
  else
    match f with
    | .int n _ =>
      let w := (n + 7) / 8 * 8
      (w, 0, false, packElems w (l.map fun a => a.x.toNat))
    | _ =>
      let lo := lowest l
      let vs := valuesOf lo l
      let w := (vs.foldl (fun n v => max n (bitsFor v)) 8 + 7) / 8 * 8
      let cls := l.any fun a => a.cls != 0
      let cs := if cls then leBytes (packBits 4 (l.map (·.cls))) ((l.length + 1) / 2) else []
      (w, lo, cls, packElems w (vs.map (ofSigned w)) ++ cs)

/-- The states a partial's body holds. -/
def CFmt.readPartial (f : CFmt) (w : Nat) (lo : Int) (cls : Bool) (n : Nat) (bs : List Byte) : List Elem :=
  (List.range n).map fun i =>
    let v := elemAt bs w i
    match f with
    | .int _ _ => { cls := 0, x := (v : Int) }
    | _ =>
      let c := if cls then elemAt (bs.drop (w * n / 8)) 4 i else 0
      if c = 0 then { cls := 0, x := toSigned w v, e := lo } else { cls := c }

/-- The body of a piece: codes packed, then scales. -/
def Piece.body (p : Piece) (w : Nat) : List Byte :=
  leBytes (packBits w p.codes) ((w * p.codes.length + 7) / 8) ++ p.scales.map (BitVec.ofNat 8 ·)

/-- The number of MX blocks that n elements from a start touch. -/
def blocksIn (a n : Nat) : Nat := if n = 0 then 0 else (a + n - 1) / 32 - a / 32 + 1

/-- A piece read from a body: n elements of w bits that begin at a, and their scales. -/
def readPiece (w : Nat) (mx : Bool) (a n : Nat) (bs : List Byte) : Piece :=
  { first := a, codes := (List.range n).map fun i => elemAt bs w i,
    scales := if mx then ((bs.drop ((w * n + 7) / 8)).take (blocksIn a n)).map (·.toNat) else [] }

/-- The part of a piece that lies between two elements. -/
def Piece.cut (p : Piece) (a b : Nat) : Piece :=
  let lo := max a p.first
  let hi := min b (p.first + p.codes.length)
  { first := lo, codes := (p.codes.drop (lo - p.first)).take (hi - lo),
    scales := if p.scales.isEmpty then [] else (p.scales.drop (lo / 32 - p.first / 32)).take (blocksIn lo (hi - lo)) }

/-! ### Buffers (R314, R358) -/

/-- Bytes of the elements of a buffer. -/
def codeBytes (w n : Nat) : Nat := (w * n + 7) / 8

/-- Bytes of a buffer of n elements: for an MX format the scales follow the elements (log entry 16). -/
def CFmt.bufBytes (f : CFmt) (n : Nat) : Nat := codeBytes f.width n + (if f.isMx then (n + 31) / 32 else 0)

/-- The byte ranges that elements a to a + n - 1 of a buffer of t elements take, first byte and length, where their m scales stand from
place sc of the buffer's scales on. -/
def CFmt.spansAt (f : CFmt) (t a n sc m : Nat) : List (Nat × Nat) :=
  if n = 0 then []
  else
    let lo := f.width * a / 8
    let hi := (f.width * (a + n) + 7) / 8
    (lo, hi - lo) :: (if f.isMx then [(codeBytes f.width t + sc, m)] else [])

/-- The byte ranges of elements of a buffer whose blocks of 32 begin at its first element. -/
def CFmt.spans (f : CFmt) (t a n : Nat) : List (Nat × Nat) := f.spansAt t a n (a / 32) (blocksIn a n)

/-- Reads elements of a buffer at an offset of HBM. -/
def State.readPieceAt (s : State) (f : CFmt) (off t a n : Nat) : Piece :=
  let lo := f.width * a / 8
  let hi := (f.width * (a + n) + 7) / 8
  let v := leNat (s.hbmRead (off + lo) (hi - lo)) / 2 ^ (f.width * a % 8)
  { first := a, codes := (List.range n).map fun i => v / 2 ^ (f.width * i) % 2 ^ f.width,
    scales := if f.isMx then (s.hbmRead (off + codeBytes f.width t + a / 32) (blocksIn a n)).map (·.toNat) else [] }

/-- Writes elements to a buffer at an offset of HBM; bits of the first and last byte that are not theirs are kept. -/
def State.writePieceAt (s : State) (f : CFmt) (off t a : Nat) (p : Piece) (scaleAt : Nat) : State :=
  let n := p.codes.length
  if n = 0 then s
  else
    let lo := f.width * a / 8
    let hi := (f.width * (a + n) + 7) / 8
    let sh := f.width * a % 8
    let old := leNat (s.hbmRead (off + lo) (hi - lo))
    let low := old % 2 ^ sh
    let high := old / 2 ^ (sh + f.width * n)
    let v := low + 2 ^ sh * (packBits f.width p.codes + 2 ^ (f.width * n) * high)
    let s := s.hbmWrite (off + lo) (leBytes v (hi - lo))
    if p.scales.isEmpty then s else s.hbmWrite (off + codeBytes f.width t + scaleAt) (p.scales.map (BitVec.ofNat 8 ·))

end Machine
end Sys2Proof
end

