-- ==== Sys2Proof/Machine/CollPlan.lean ====
section
/-! DEFINITION. What a COLL descriptor and its group table say, and the geometry of a collective: chunks, slices, peers, landing
slots and transfer headers (R356 to R369, R375, R376). -/

namespace Sys2Proof
namespace Machine

/-! ### The descriptor (R359, Table 13.4) -/

/-- The keyed FGA at a byte. -/
def kfgaAt (bs : List Byte) (i : Nat) : KFga := { fga := leAt bs i 8, key := leAt bs (i + 8) 4 }

/-- The local entry that begins at a byte. -/
def entryAt (bs : List Byte) (i : Nat) : CollEntry :=
  { inp := kfgaAt bs i, out := kfgaAt bs (i + 16), inTs := kfgaAt bs (i + 32), a2a := leAt bs (i + 48) 8 }

/-- A descriptor from its bytes. -/
def CollDesc.ofBytes (bs : List Byte) : CollDesc :=
  { kind := leAt bs 0 1, redop := leAt bs 1 1, ifmt := leAt bs 2 1, ofmt := leAt bs 3 1, scaleExp := leAt bs 4 1,
    nlocal := leAt bs 5 1, chunkLog := if leAt bs 6 1 = 0 then 20 else leAt bs 6 1,
    inflight := if leAt bs 7 1 = 0 then 48 else leAt bs 7 1, count := leAt bs 8 8, comm := leAt bs 16 4,
    seq := leAt bs 20 4, group := leAt bs 24 8, landing := kfgaAt bs 32, tsBase := kfgaAt bs 48, outTs := kfgaAt bs 64,
    report := leAt bs 80 8, root := leAt bs 88 4, inThresh := leAt bs 92 4, tmo := leAt bs 96 2,
    entries := (List.range (leAt bs 5 1)).map fun l => entryAt bs (128 + 64 * l) }

/-- Whether a format is floating-point and not FP64. -/
def CFmt.isFloat : CFmt → Bool
  | .float _ => true
  | _ => false

/-- Whether a collective is a sum of FP64, which is reduced in a tree (R375). -/
def CollDesc.tree (d : CollDesc) : Bool := (d.kind == 1 || d.kind == 2) && d.redop == 1 && d.ifmt == 0x1E

/-- The input format. -/
def CollDesc.inFmt (d : CollDesc) : CFmt := (collFmt d.ifmt).getD (.int 64 false)
/-- The output format. -/
def CollDesc.outFmt (d : CollDesc) : CFmt := (collFmt d.ofmt).getD (.int 64 false)

/-- SCALE_EXP as an integer. -/
def CollDesc.scale (d : CollDesc) : Int := toSigned 8 d.scaleExp

/-- The fields of a descriptor that a value is forbidden for (Tables 13.1, 13.2, 13.4). -/
def CollDesc.fieldsOk (d : CollDesc) (bs : List Byte) : Bool :=
  let red := d.kind == 1 || d.kind == 2
  let scaled := red && d.redop == 1 && d.inFmt.isFloat && !d.inFmt.isMx
  decide (1 ≤ d.kind ∧ d.kind ≤ 6) && (if red then decide (1 ≤ d.redop ∧ d.redop ≤ 6) else d.redop == 0) &&
    (d.scaleExp == 0 || (scaled && decide (-64 ≤ d.scale ∧ d.scale ≤ 63))) &&
    decide (d.nlocal ≤ 16) && (d.nlocal != 0 || d.kind == 6) &&
    (!d.tree || [1, 2, 4, 8, 16].contains d.nlocal) &&
    decide (16 ≤ d.chunkLog ∧ d.chunkLog ≤ 23) && decide (d.inflight ≤ 48) && (d.kind != 6 || d.count == 0) &&
    (d.kind == 4 || d.root == 0) && (bs.drop 98).take 30 == List.replicate 30 0#8 &&
    [44, 60, 76].all (fun i => leAt bs i 4 == 0) &&
    (List.range d.nlocal).all fun l =>
      leAt bs (128 + 64 * l + 56) 8 == 0 && leAt bs (128 + 64 * l + 12) 4 == 0 && leAt bs (128 + 64 * l + 28) 4 == 0 &&
        leAt bs (128 + 64 * l + 44) 4 == 0 && (d.kind == 5 || leAt bs (128 + 64 * l + 48) 8 == 0) &&
        (d.kind != 6 || leAt bs (128 + 64 * l) 16 == 0)

/-- Whether the collective accepts its formats (R357, R358). -/
def CollDesc.formatsOk (d : CollDesc) : Bool :=
  match collFmt d.ifmt, collFmt d.ofmt with
  | some i, some o => pairOk d.kind d.redop i o (d.ifmt == d.ofmt)
  | _, _ => false

/-- Whether the variant lacks the unit that the reduction needs (R357). -/
def CollDesc.unitMissing (d : CollDesc) (v : Variant) : Bool :=
  (d.kind == 1 || d.kind == 2) && decide (1 ≤ d.redop ∧ d.redop ≤ 3) && !v.sqFp &&
    (match d.inFmt with | .float _ => true | .fp64 => true | _ => false)

/-! ### The group table (R361, Table 13.5) -/

/-- Node entry n of a group table. -/
def nodeAt (bs : List Byte) (n : Nat) : GrpNode :=
  { node := leAt bs (16 + 48 * n) 2, qp := leAt bs (16 + 48 * n + 4) 4 % 2 ^ 20, land := kfgaAt bs (16 + 48 * n + 8),
    ts := kfgaAt bs (16 + 48 * n + 24) }

/-- Whether the nodes of each group of r are of one rack and no rack has two groups. -/
def racksOk (r : Nat) (nodes : List GrpNode) : Bool :=
  let rack := fun n => (nodes[n]?.map fun x => x.node / 256).getD 0
  let n := nodes.length
  (List.range n).all fun a => (List.range n).all fun b => (rack a == rack b) == (a / r == b / r)

/-- Whether the reserved bytes of a group table are 0. -/
def groupRsvdOk (bs : List Byte) (n : Nat) : Bool :=
  leAt bs 6 10 == 0 && (List.range n).all fun k =>
    leAt bs (16 + 48 * k + 2) 2 == 0 && leAt bs (16 + 48 * k + 40) 8 == 0 && leAt bs (16 + 48 * k + 20) 4 == 0 &&
      leAt bs (16 + 48 * k + 36) 4 == 0

/-! ### Geometry -/

/-- The function that issued it. -/
def Coll.fn (c : Coll) : Nat := c.ref.fn
/-- Nodes of the group. -/
def Coll.n (c : Coll) : Nat := c.nodes.length
/-- Rack groups. -/
def Coll.groups (c : Coll) : Nat := c.n / c.r
/-- This node's rack group. -/
def Coll.g (c : Coll) : Nat := c.me / c.r
/-- This node's rack rank. -/
def Coll.i (c : Coll) : Nat := c.me % c.r
/-- Inputs of all nodes. -/
def Coll.ranks (c : Coll) : Nat := c.n * c.d.nlocal

/-- ⌈log₂ n⌉. -/
def clog2 (n : Nat) : Nat := if n ≤ 1 then 0 else lead (n - 1) + 1

/-- Levels of the FP64 tree across nodes. -/
def Coll.levels (c : Coll) : Nat := clog2 c.n

/-- Elements of a chunk (R363). -/
def Coll.per (c : Coll) : Nat :=
  let b := 2 ^ c.d.chunkLog
  if c.d.kind = 1 ∨ c.d.kind = 2 then b / c.d.inFmt.stateBytes
  else max 1 (b * 8 / c.d.inFmt.width)

/-- Elements that the chunks run over. -/
def Coll.total (c : Coll) : Nat :=
  match c.d.kind with
  | 2 => c.ranks * c.d.count
  | 6 => 0
  | _ => c.d.count

/-- Chunks of a collective whose chunks are numbered for the whole node; a barrier has one. -/
def Coll.chunkCount (c : Coll) : Nat :=
  if c.d.kind = 6 then 1 else (c.total + c.per - 1) / c.per

/-- First element of a chunk. -/
def Coll.lo (c : Coll) (k : Nat) : Nat := k * c.per
/-- Elements of a chunk. -/
def Coll.size (c : Coll) (k : Nat) : Nat := min c.per (c.total - k * c.per)

/-- First element, within its chunk of n elements, of slice j (R364). -/
def Coll.slice (c : Coll) (n j : Nat) : Nat :=
  let b := (c.per + 31) / 32
  min n (32 * (j * b / c.r))

/-- Number of landing slots per chunk in flight (R366). -/
def Coll.np (c : Coll) : Nat :=
  if c.d.kind = 5 then c.n else if c.d.tree then c.levels + 1 else c.r + c.groups

/-- Bytes of a landing slot (R366). -/
def Coll.slotBytes (c : Coll) : Nat :=
  let r := if c.d.kind = 3 ∨ c.d.kind = 5 ∨ c.d.tree then 1 else c.r
  let b := (2 * 2 ^ c.d.chunkLog + 64 * r + 4096 * r - 1) / (4096 * r) * 4096
  if c.d.kind = 3 then b * c.d.nlocal * c.groups else b

/-- The other nodes of this node's rack. -/
def Coll.rackPeers (c : Coll) : List Nat := (List.range c.r).filterMap fun j => if j = c.i then none else some (c.g * c.r + j)
/-- The nodes of this node's rack rank in the other racks. -/
def Coll.hallPeers (c : Coll) : List Nat :=
  (List.range c.groups).filterMap fun h => if h = c.g then none else some (h * c.r + c.i)

/-- The tree round in which a node rank sends upward: its lowest set bit. -/
def treeRound (n : Nat) : Nat := ctz n n

/-- Node ranks that send to this one in the tree, in the order of their rounds. -/
def Coll.children (c : Coll) : List Nat :=
  (List.range c.levels).filterMap fun k =>
    if c.me % 2 ^ (k + 1) = 0 ∧ c.me + 2 ^ k < c.n then some (c.me + 2 ^ k) else none

/-- The node rank this one sends to in the tree. -/
def Coll.parent (c : Coll) : List Nat := if c.me = 0 then [] else [c.me - 2 ^ treeRound c.me]

/-- The peers of this node. -/
def Coll.peers (c : Coll) : List Nat :=
  if c.d.kind = 5 then (List.range c.n).filter (· != c.me)
  else if c.d.tree then c.parent ++ c.children
  else c.rackPeers ++ c.hallPeers

/-- The peer index by which this node sees node rank q (R366, R375). -/
def Coll.mine (c : Coll) (q : Nat) : Nat :=
  if c.d.kind = 5 then q
  else if c.d.tree then (if q < c.me then c.levels else treeRound q)
  else if q / c.r = c.g then q % c.r else c.r + q / c.r

/-- The peer index by which node rank q sees this node. -/
def Coll.theirs (c : Coll) (q : Nat) : Nat :=
  if c.d.kind = 5 then c.me
  else if c.d.tree then (if q < c.me then treeRound c.me else c.levels)
  else if q / c.r = c.g then c.i else c.r + c.g

/-- Offset of a landing slot: chunk k, peer index p (R366). -/
def Coll.landAt (c : Coll) (k p : Nat) : Nat := ((k % c.d.inflight) * c.np + p) * c.slotBytes

/-! ### Transfer headers (Table 13.9) -/

/-- The 64-byte header of a transfer. -/
def Coll.header (c : Coll) (chunk src phase : Nat) (cls : Bool) (w : Nat) (lo : Int) (nelem first : Nat) : List Byte :=
  leBytes c.d.comm 4 ++ leBytes c.d.seq 4 ++ leBytes chunk 4 ++ leBytes src 2 ++ leBytes c.d.kind 1 ++
    leBytes c.d.redop 1 ++ leBytes c.d.ifmt 1 ++ leBytes c.d.ofmt 1 ++ leBytes c.d.scaleExp 1 ++ leBytes c.d.chunkLog 1 ++
    leBytes c.d.inflight 1 ++ leBytes c.d.nlocal 1 ++ leBytes phase 1 ++ leBytes (b2n cls) 1 ++ leBytes w 2 ++
    leBytes (ofSigned 16 lo) 2 ++ leBytes nelem 4 ++ leBytes first 8 ++ leBytes c.d.count 8 ++ leBytes (c.n - 1) 2 ++
    leBytes 0 14

/-- Whether a header read from the landing area is the one expected (R369). -/
def Coll.headerOk (c : Coll) (bs : List Byte) (chunk src phase nelem first : Nat) : Bool :=
  let e := c.header chunk src phase false 0 0 nelem first
  bs.take 12 == e.take 12 && (bs.drop 14).take 9 == (e.drop 14).take 9 && (bs.drop 28).take 22 == (e.drop 28).take 22

/-! ### Transfers of an all-to-all (R376) -/

/-- A part of a block: input or output of the sender, of the receiver, first element in the block, elements. -/
structure A2aPart where
  src : Nat
  dst : Nat
  at' : Nat
  n : Nat
  deriving DecidableEq, Repr

/-- The transfers from one node to another in their order: block by block in ascending destination order, the inputs in turn, in
chunks of e elements. The transfer that ends a block has fewer than e elements, none where e divides the block's count, so that the receiver
finds every count that differs (R376; log entry 17). -/
def a2aParts (e l : Nat) (cnt : Nat → Nat → Nat) : List A2aPart :=
  (List.range l).flatMap fun b => (List.range l).flatMap fun a =>
    (List.range (cnt a b / e + 1)).map fun t => { src := a, dst := b, at' := t * e, n := min e (cnt a b - t * e) }

/-- SEND of input l for a global rank. -/
def Coll.sendOf (c : Coll) (l r : Nat) : Nat := (c.sends.getD l []).getD r 0
/-- RECV of output l from a global rank. -/
def Coll.recvOf (c : Coll) (l r : Nat) : Nat := (c.recvs.getD l []).getD r 0
/-- Where the block for a rank begins in input l. -/
def Coll.sendAt (c : Coll) (l r : Nat) : Nat := ((c.sends.getD l []).take r).sum
/-- Where the block from a rank begins in output l. -/
def Coll.recvAt (c : Coll) (l r : Nat) : Nat := ((c.recvs.getD l []).take r).sum

/-- The parts that this node sends to a node rank. -/
def Coll.partsTo (c : Coll) (q : Nat) : List A2aPart :=
  a2aParts c.per c.d.nlocal fun a b => c.sendOf a (q * c.d.nlocal + b)

/-- The parts that this node expects from a node rank. -/
def Coll.partsFrom (c : Coll) (q : Nat) : List A2aPart :=
  a2aParts c.per c.d.nlocal fun a b => c.recvOf b (q * c.d.nlocal + a)

/-! ### Inputs and outputs -/

/-- Elements of an input, and of an output. -/
def Coll.inElems (c : Coll) (l : Nat) : Nat :=
  match c.d.kind with
  | 2 => c.ranks * c.d.count
  | 5 => (c.sends.getD l []).sum
  | 6 => 0
  | _ => c.d.count

/-- Elements of output l. -/
def Coll.outElems (c : Coll) (l : Nat) : Nat :=
  match c.d.kind with
  | 3 => c.ranks * c.d.count
  | 5 => (c.recvs.getD l []).sum
  | 6 => 0
  | _ => c.d.count

/-- Bytes of input l. -/
def Coll.inBytes (c : Coll) (l : Nat) : Nat := c.d.inFmt.bufBytes (c.inElems l)
/-- Scales of output l of an MX format: those of the blocks of 32 of its elements in the whole result, for a gather those of every piece
(log entry 16). -/
def Coll.outScales (c : Coll) (l : Nat) : Nat :=
  match c.d.kind with
  | 2 => blocksIn ((c.me * c.d.nlocal + l) * c.d.count) c.d.count
  | 3 => c.ranks * ((c.d.count + 31) / 32)
  | _ => (c.outElems l + 31) / 32

/-- Bytes of output l. -/
def Coll.outBytes (c : Coll) (l : Nat) : Nat :=
  codeBytes c.d.outFmt.width (c.outElems l) + (if c.d.outFmt.isMx then c.outScales l else 0)

/-- A local entry. -/
def Coll.entry (c : Coll) (l : Nat) : CollEntry := c.d.entries.getD l {}

/-- Whether input l of this node is read: for a broadcast only the root's. -/
def Coll.reads (c : Coll) (l : Nat) : Bool :=
  c.d.kind != 6 && (c.d.kind != 4 || c.me * c.d.nlocal + l == c.d.root)

/-- Whether two byte ranges at FGAs share a byte. -/
def fgaOverlap (a n b m : Nat) : Bool := decide (0 < n) && decide (0 < m) && decide (a < b + m) && decide (b < a + n)

/-- Whether inputs and outputs overlap as R360 forbids: an input and an output but the identical ones of one entry in an
all-reduce, two inputs that are read, or two outputs (log entry 17). -/
def Coll.overlaps (c : Coll) : Bool :=
  let l := c.d.nlocal
  (List.range l).any fun a => (List.range l).any fun b =>
    let i := c.entry a
    let o := c.entry b
    (c.reads a && fgaOverlap i.inp.fga (c.inBytes a) o.out.fga (c.outBytes b) &&
      !(a == b && c.d.kind == 1 && i.inp == o.out)) ||
    (decide (a < b) && c.reads a && c.reads b && fgaOverlap i.inp.fga (c.inBytes a) o.inp.fga (c.inBytes b)) ||
    (decide (a < b) && fgaOverlap i.out.fga (c.outBytes a) o.out.fga (c.outBytes b))

end Machine
end Sys2Proof
end

