-- ==== Sys2Proof/Machine/TpRequester.lean ====
section
/-! DEFINITION. The requester of the Sloale Transport (R188 to R199, R203, R206): acknowledgements, refusals, responses, and what
its timers do. -/

namespace Sys2Proof
namespace Machine

/-! ### Round-trip estimation (R196, R217) -/

/-- The nanoseconds between a stamp and now. -/
def State.sinceStamp (s : State) (st : Nat) : Nat :=
  (s.clk.secs % 2 ^ 32 * 1000000000 + s.clk.ns) - (st / 2 ^ 32 * 1000000000 + st % 2 ^ 32)

/-- Updates the estimators with one sample, gains 1/8 and 1/4, RTTVAR first (log entry 20). -/
def Qp.sample (x : Qp) (r : Nat) : Qp :=
  let d := if x.srtt ≤ r then r - x.srtt else x.srtt - r
  { x with rttvar := (3 * x.rttvar + d) / 4, srtt := (7 * x.srtt + r) / 8 }

/-- A congestion mark counted toward M (R219). -/
def State.markEvent (s : State) (q : Nat) (ack mark : Bool) : State :=
  let s := s.rateEvent q ack mark
  if mark then s.count (s.qp q).owner 0x25 q else s

/-- A round-trip sample of an echoed probe: for the estimators, and for rate control. -/
def State.probeSample (s : State) (q r : Nat) : State :=
  let x := s.qp q
  let s := s.setQp q (x.sample r)
  let p := s.prof q
  if !p.rttEn then s
  else
    let x := s.rateCtl q
    let s := s.setRate q (if x.timer = 0 then { x with rttNext := some r } else { x with rtt := some r })
    if p.rttHigh ≠ 0 ∧ p.rttHigh ≤ r then s.markEvent q false true else s

/-! ### Operations and their PSNs -/

/-- Whether every packet of an operation has been sent and acknowledged. -/
def Qp.allAcked (x : Qp) (o : TpOp) : Bool :=
  o.tx == o.npkt && !x.out.any fun k => !k.acked && k.isOf o

/-- Ends, oldest first, the writes and sends whose packets have all been acknowledged (Table 7.11). -/
def State.endAcked (s : State) (q : Nat) : State :=
  let x := s.qp q
  (x.ops.filter fun o => !o.ended && !sltAwaits o.kind && x.allAcked o).foldl (fun t o => t.tpEnd q o.alive .ok) s

/-- Marks packets acknowledged. -/
def Qp.acked (x : Qp) (p : Nat → Bool) : Qp :=
  { x with out := x.out.map (fun k => if p k.psn then { k with acked := true } else k),
           notReady := x.notReady.filter fun n => !p n }

/-! ### ACK (R193, R195, R197) -/

/-- Whether an ACK acknowledges a PSN. -/
def ackCovers (p : SltPkt) (psn : Nat) : Bool :=
  decide (0 < subMod 32 p.psn psn ∧ subMod 32 p.psn psn < 2 ^ 31) ||
    (decide (subMod 32 psn ((p.psn + 1) % 2 ^ 32) < 512) && p.sack.contains (subMod 32 psn ((p.psn + 1) % 2 ^ 32)))

/-- The PSNs that fast retransmission sends again: outstanding, at least REO_PKTS below an acknowledged one that was sent after
their last transmission (R195). -/
def Qp.fast (x : Qp) (reo : Nat) (acked : List OutPkt) : List Nat :=
  (x.out.filter fun k => !k.acked && !x.retx.contains k.psn && !x.notReady.contains k.psn &&
    acked.any fun a => decide (reo ≤ subMod 32 a.psn k.psn ∧ subMod 32 a.psn k.psn < 2 ^ 31) && decide (k.seq < a.seq)).map (·.psn)

/-- An ACK of a QP. -/
def State.reqAck (s : State) (q : Nat) (p : SltPkt) : State :=
  let x := s.qp q
  let fresh := x.out.filter fun k => !k.acked && ackCovers p k.psn
  let acked := x.out.filter fun k => ackCovers p k.psn
  let y := x.acked (ackCovers p)
  let probed := x.probes.contains (p.path, p.a)
  let y := if probed then { y with suspect := putBit y.suspect p.path false, probes := y.probes.erase (p.path, p.a) } else y
  let y := (fresh.filter fun k => k.txcnt == 0).foldl (fun y k => y.sample (s.nowNs - k.sent)) y
  let s := s.setQp q y
  let s := if p.a ≠ 0 ∧ !probed then s.probeSample q (s.sinceStamp p.a) else s
  let s :=
    if fresh.isEmpty then s
    else s.markEvent q true (p.ceEcho && (s.prof q).ecnEn)
  let z := s.qp q
  let re := z.fast (max 1 (s.fld F.tpCfgReoPkts)) acked
  let s := s.setQp q { z with retx := z.retx ++ re }
  let s := s.countSat F.tpPipeRetxFast (q % 4) re.length
  let s := s.endAcked q
  s.setQp q (s.qp q).prune

/-! ### NAK and WAITING (R199, R203, R205, Table 6.8) -/

/-- An import record whose key the owner has refused becomes stale (R159). -/
def State.importRefused (s : State) (q key : Nat) : State :=
  let x := s.qp q
  let stale := fun (r : Import) =>
    if r.fn = x.owner ∧ r.node = x.peerNode ∧ r.index = keyIndex key ∧ r.key = key ∧ r.state = .imported then
      { r with state := .stale, time := s.stamp } else r
  { s with imports := s.imports.map stale }

/-- Ends an operation with the status that its target reported. -/
def State.reqFails (s : State) (q : Nat) (o : TpOp) (st : Status) : State :=
  let s := if st = .keyStale ∨ st = .keyInvalid then s.importRefused q o.key else s
  let s := s.tpEnd q o.alive st
  if st = .qpError then s.qpError q .unreachable .qpError
  else if st = .authFailed then s.qpError q .unreachable .authFailed
  else s

/-- Frees import records: their slots of the window table become W_FREE now (Table 6.2). -/
def State.freeImports (s : State) (p : Import → Bool) : State :=
  let gone := s.imports.filter p
  gone.foldl (fun (t : State) (r : Import) => t.setWin r.slot { t.win r.slot with time := t.stamp })
    { s with imports := s.imports.filter fun r => !p r }

/-- A first import that is refused is freed; a re-import leaves the record (R163). -/
def State.importFails (s : State) (fn : Nat) (r : Import) (st : Status) : State :=
  let me := fun (y : Import) => y.fn == r.fn && y.node == r.node && y.index == r.index
  let s := if r.state = .importing then s.freeImports me
    else { s with imports := s.imports.map fun y => if me y then { y with asked := none } else y }
  let s := (s.setFlag F.wincStatusBusy false fn).setFlag F.wincStatusFail true fn
  (s.setFld F.wincStatusCode st.code fn).setFld F.wincStatusKey 0 fn

/-- The IMPORT of a QP that waits for its answer. -/
def State.asking (s : State) (q : Nat) : Option Import :=
  s.imports.find? fun r => r.askQp == q && r.asked.isSome && r.fn == (s.qp q).owner

/-- A NAK of a QP. One that names no outstanding PSN answers a WIN_QUERY (log entry 21); QP_ERROR and AUTH_FAILED move the QP, whatever they
name (R183, Table 7.6). -/
def State.reqNak (s : State) (q : Nat) (p : SltPkt) : State :=
  let x := s.qp q
  let st := (Status.ofCode? p.status).getD .qpError
  if st = .qpError ∧ (x.ownerOf p.a).all (·.ended) then s.qpError q .unreachable .qpError
  else if st = .authFailed ∧ (x.ownerOf p.a).all (·.ended) then s.qpError q .unreachable .authFailed
  else
  match x.ownerOf p.a with
  | some o =>
    if st = .notReady then
      let s := s.count x.owner 0x24 q
      if (x.out.any fun k => k.psn == p.a && !k.acked) ∧ !x.notReady.contains p.a then
        s.setQp q { x with notReady := x.notReady ++ [p.a] }
      else s
    else
      let s := s.setQp q (x.acked (· == p.a))
      let s := if o.ended then s else s.reqFails q o st
      s.setQp q (s.qp q).prune
  | none =>
    if st = .notReady then s
    else
      match s.asking q with
      | some r => s.importFails r.fn r st
      | none => s

/-- A WAITING of a QP. -/
def State.reqWaiting (s : State) (q : Nat) (p : SltPkt) : State :=
  let x := s.qp q
  match x.ownerOf p.a with
  | some o =>
    let ops := x.ops.map fun y => if y.alive = o.alive ∧ !y.ended then { y with waiting := true } else y
    s.setQp q { x with ops := ops, retx := x.retx.filter (· != p.a), notReady := x.notReady.filter (· != p.a) }
  | none => s

/-! ### Responses (R190, R194) -/

/-- Places a piece of a read response in the local buffer of its descriptor, with the translations that the descriptor holds (R90); none
where the host may not be written now. -/
def State.placeRead (s : State) (r : OpRef) (off : Nat) (bs : List Byte) : Option State :=
  match s.op r with
  | none => some s
  | some o =>
    let g := s.opEng o
    if o.d.lkind then
      (if s.localRange g true (o.d.laddr + off) bs.length .write = .ok then s.putLocal g true (o.d.laddr + off) bs else none)
    else if s.mayPut g false (o.d.laddr + off) bs.length then s.putLocal g false (o.d.laddr + off) bs
    else none

/-- The operation that awaits a response packet, by ALIVE. -/
def Qp.awaits (x : Qp) (p : SltPkt) : Option TpOp :=
  x.ops.find? fun o => !o.ended && decide (0 < o.tx) && o.alive == p.alive && sltAwaits o.kind

/-- What a new response packet of a QP does; none for a read response whose piece cannot be placed, which is dropped. -/
def State.respEffect (s : State) (q : Nat) (p : SltPkt) : Option State :=
  let x := s.qp q
  match x.awaits p with
  | none => some s
  | some o =>
    let st := (Status.ofCode? p.status).getD .qpError
    if st ≠ .ok then some (s.reqFails q o st)
    else
      match p.op with
      | .readResp =>
        let t := match o.owner with
          | .queue r => s.placeRead r p.offset p.payload
          | _ => some s
        (match t with
         | none => none
         | some t =>
           let o' := { o with got := AMap.put o.got p.offset p.payload }
           let y := t.qp q
           let t := t.setQp q { y with ops := y.ops.map fun z => if z.alive = o.alive ∧ !z.ended then o' else z }
           let t := t.count x.owner 0x23 q p.payload.length
           let n := (o'.got.map fun e => e.2.length).sum
           some (if o.len ≤ n then t.tpEnd q o.alive .ok 0 (o'.got.foldr (fun e bs => e.2 ++ bs) []) else t))
      | .cas128Resp => some (s.tpEnd q o.alive .ok 0 (leBytes p.a 16))
      | _ => some (s.tpEnd q o.alive .ok p.a (leBytes p.a 8) (p.b == 1))

/-! ### Timers -/

/-- Whether a PSN still waits for its acknowledgement, or for the response of its operation. -/
def Qp.pendingPsn (x : Qp) (psn : Nat) : Bool :=
  (x.out.any fun k => k.psn == psn) &&
    ((x.out.any fun k => k.psn == psn && !k.acked) || (x.ownerOf psn).any fun o => !o.ended && sltAwaits o.kind) &&
    !(x.ownerOf psn).any fun o => o.waiting

/-- A packet has been outstanding for RTO (R196): it is sent again on another path, its path is suspect, its RTO doubles. -/
def State.rtoExpires (s : State) (q psn : Nat) : State :=
  let x := s.qp q
  match x.out.find? fun k => k.psn == psn with
  | none => s
  | some k =>
    if !x.up ∨ !x.pendingPsn psn ∨ x.retx.contains psn ∨ x.notReady.contains psn then s
    else
      let grow := fun (y : OutPkt) => if y.psn = psn then { y with rto := min (2 * y.rto) (x.tmo * 100000 / 4) } else y
      let behind := if x.roce then (x.out.filter fun y => !y.acked && y.psn != psn && decide (subMod 24 y.psn psn < 2 ^ 23)).map (·.psn) else []
      let y := { x with out := x.out.map grow, suspect := if x.roce then x.suspect else putBit x.suspect k.path true,
                        retx := x.retx ++ psn :: behind.filter fun n => !x.retx.contains n }
      (s.setQp q y).countSat F.tpPipeRetxTimeout (q % 4)

/-- The transport timeout of an operation (R198). -/
def State.opTimeout (s : State) (q alive : Nat) : State :=
  let x := s.qp q
  match x.live.find? fun o => o.alive == alive with
  | none => s
  | some o =>
    if !x.up ∨ o.waiting ∨ (o.tx = 0 ∧ !(x.enc && decide (2 ^ 31 ≤ (s.keySet x.owner x.keyh).psns))) then s
    else (s.tpEnd q alive .unreachable).qpError q .unreachable .unreachable

/-- NR_US after a refusal (R206). -/
def State.retryNotReady (s : State) (q psn : Nat) : State :=
  let x := s.qp q
  if x.notReady.contains psn ∧ x.up then
    s.setQp q { x with notReady := x.notReady.filter (· != psn), retx := if x.retx.contains psn then x.retx else x.retx ++ [psn] }
  else s

/-- Sends a path probe on each suspect path (R197). -/
def State.sendProbes (s : State) (q : Nat) : State :=
  let x := s.qp q
  if !x.up ∨ x.roce then s
  else
    (onesOf x.suspect 64).foldl (fun s path =>
      let s := s.sltOut q { op := .pathProbe, path := path, ackReq := true, probe := some s.stamp }
      let y := s.qp q
      let stamp := if y.enc then y.lastStamp else s.stamp
      s.setQp q { y with probes := y.probes ++ [(path, stamp)] }) s

end Machine
end Sys2Proof
end

