-- ==== Sys2Proof/Machine/TpTarget.lean ====
section
/-! DEFINITION. The target of the Sloale Transport (R185 to R207): matching, classification by PSN, order of application, the
effect of each request, responses, repeats and refusals. -/

namespace Sys2Proof
namespace Machine

/-! ### Order and receipt (R188, R190, R191) -/

/-- PSN of the first packet of a packet's operation, for a kind whose packets say where they lie in it, as it is when they follow one
another. -/
def Qp.firstOf (x : Qp) (p : SltPkt) : Nat :=
  match p.op with
  | .send => subMod 32 p.psn (p.offset / x.mtuBytes)
  | _ => p.psn

/-- Whether every PSN below one has been received. -/
def Qp.below (x : Qp) (psn : Nat) : Bool := decide (subMod 32 x.cum psn < 2 ^ 31)

/-- Whether a request ends a batch on a relaxed QP (R147, R151). -/
def endsBatch (p : SltPkt) : Bool := p.notify || p.op != .write

/-- Whether an ALIVE value lies before another. -/
def aliveBefore (a b : Nat) : Bool := decide (0 < subMod 16 b a ∧ subMod 16 b a < 2 ^ 15)

/-- The record of a packet's operation at the target. -/
def Qp.top (x : Qp) (alive : Nat) : Option TgtOp := x.tops.find? fun o => o.alive == alive

/-- Whether a packet is one of the oldest operation whose packets have not come: every PSN before that operation has been received, so that no
more of an earlier one comes. On a relaxed QP it need not be the operation's first packet (R190). -/
def Qp.heads (x : Qp) (p : SltPkt) : Bool :=
  if x.peerRelaxed then endsBatch p && x.below (x.firstOf p) else p.first && p.psn == x.cum

/-- Whether a new request packet may be applied now. Relaxed: a plain write always, another operation once every PSN below it, or below
its first packet, has been received and no earlier operation waits. Strict: of the oldest operation not yet applied, none waiting; an operation
whose ALIVE is not the one after the last may follow one that its requester ended unsent. -/
def Qp.ready (x : Qp) (p : SltPkt) : Bool :=
  if x.peerRelaxed then
    !endsBatch p || ((x.heads p || (x.top p.alive).isSome) && !x.tops.any fun o => o.waits && aliveBefore o.alive p.alive)
  else (!x.tops.any fun o => o.waits) && (p.alive == x.tAlive || aliveBefore p.alive x.tAlive || (x.top p.alive).isSome || x.heads p)

/-- Whether packets of an operation of the peer have been taken. -/
def Qp.seen (x : Qp) (alive : Nat) : Bool := x.seenOps.contains alive || (x.top alive).isSome

/-- Takes a higher ALIVE_REL: responder-cache entries and marks of operations that it passes are released (R200, R201). A refused write
that lies before a released operation of which nothing was sent belongs to a batch of which no notify write comes. -/
def Qp.release (x : Qp) (rel : Nat) : Qp :=
  if subMod 16 rel x.aliveRel < 2 ^ 15 then
    let keep := fun a => !aliveBefore a rel
    let gaps := if x.tFails.isEmpty then []
      else ((List.range (subMod 16 rel x.aliveRel)).map fun i => (x.aliveRel + i) % 65536).filter fun a => !x.seen a
    { x with aliveRel := rel, rc := x.rc.filter fun e => keep e.alive, seenOps := x.seenOps.filter keep,
             tFails := x.tFails.filter fun f => !gaps.any fun g => aliveBefore f.2.1 g }
  else x

/-- Responder-cache entries of a pipeline (R204). -/
def State.rcUsed (s : State) (k : Nat) : Nat := ((s.qps.filter fun e => e.1 % 4 == k).map fun e => (e.2.rc.filter fun r => !r.free).length).sum

/-- Whether a pipeline's share of the responder cache is full (Table 7.1). -/
def State.rcFull (s : State) (q : Nat) : Bool := decide (32768 ≤ s.rcUsed (q % 4))

/-! ### Keys of requests (R158, R160) -/

/-- Who a request of a QP comes from. -/
def Qp.user (x : Qp) : User := { node := x.peerNode, fn := x.peerFn, roce := x.roce }

/-- The check of a received request's key: every check of R55 and of the space. -/
def State.peerTarget (s : State) (q key off len : Nat) (needR needW : Bool) (use : Use) : Except Status Nat :=
  if key = 0 then .error .keyInvalid else s.localTarget (s.qp q).user key off len needR needW use

/-! ### Answers -/

/-- The response packets of a READ. -/
def readResponses (mtu : Nat) (p : SltPkt) (bs : List Byte) : List SltPkt :=
  let n := packetsOf .write p.mlen mtu
  (List.range n).map fun i =>
    { op := .readResp, alive := p.alive, path := p.path, first := i == 0, last := i + 1 == n,
      mlen := p.mlen, offset := i * mtu, payload := chunkOf bs mtu i }

/-! ### The record of an operation (R175) -/

/-- Rewrites the record of an operation at the target. -/
def State.setTop (s : State) (q : Nat) (o : TgtOp) : State :=
  let x := s.qp q
  s.setQp q { x with tops := x.tops.map fun y => if y.alive = o.alive then o else y }

/-- The SLT OP of a request. -/
def sltOpByte : SltOp → Nat
  | .write => 0x10 | .readReq => 0x11 | .send => 0x12 | .fadd => 0x14 | .cas64 => 0x15 | .cas128 => 0x16 | _ => 0x18

/-- The record a target operation gets; FN is the owner of the window it names, or of the QP. -/
def State.tgtJrec (s : State) (q : Nat) (p : SltPkt) : JRec :=
  let w := s.win (keyIndex p.key)
  { role := 1, opcode := sltOpByte p.op, fn := if p.op = .send then (s.qp q).owner else w.owner, qp := q, firstPsn := (s.qp q).firstOf p,
    alive := p.alive, nunits := packetsOf p.op p.mlen (s.qp q).mtuBytes, target := if p.op = .send then 0 else (w.base + p.offset) % 2 ^ 64,
    len := p.mlen, rkey := if p.op = .send then 0 else p.key, notify := endsBatch p, nonIdem := p.op != .write && p.op != .readReq }

/-- Admits the operation of a packet: a Journal record at its first packet; none when the slice has no free record. -/
def State.tgtAdmit (s : State) (q : Nat) (p : SltPkt) : Option State :=
  let x := s.qp q
  match x.top p.alive with
  | some _ => some s
  | none =>
    match s.takeRec (q % 4) (s.tgtJrec q p) with
    | none => none
    | some (i, t) =>
      let o : TgtOp := { alive := p.alive, kind := p.op, first := x.firstOf p, left := packetsOf p.op p.mlen x.mtuBytes, jrec := some i }
      let t := t.setQp q { t.qp q with tops := (t.qp q).tops ++ [o] }
      some (if p.op = .write ∨ p.op = .send then t.icAdmit 2 x.owner q p.alive else t)

/-- Takes an operation off, and what it holds back; its record is freed once its last acknowledgement or response has been sent (R175). -/
def State.tgtClose (s : State) (q alive : Nat) : State :=
  let x := s.qp q
  match x.top alive with
  | none => s
  | some o =>
    let next := (alive + 1) % 65536
    let y := { x with owed := x.owed ++ (o.jrec.map fun i => (alive, i)).toList,
                      tops := x.tops.filter (fun y => y.alive != alive), seenOps := x.seenOps ++ [alive],
                      tAlive := if subMod 16 next x.tAlive < 2 ^ 15 then next else x.tAlive }
    s.setQp q y

/-- Forgets an operation none of whose packets has been taken. -/
def State.tgtForget (s : State) (q : Nat) (p : SltPkt) : State :=
  let x := s.qp q
  match x.top p.alive with
  | none => s
  | some o =>
    if o.left = packetsOf p.op p.mlen x.mtuBytes ∧ o.recv.isNone ∧ !o.waits then
      (((s.freeJrec o.jrec).setQp q { x with tops := x.tops.filter fun y => y.alive != p.alive }).icDrop 2 x.owner q p.alive)
    else s

/-- Whether every operation of the peer before one has been taken or released. -/
def Qp.noneBefore (x : Qp) (alive : Nat) : Bool :=
  let d := subMod 16 alive x.aliveRel
  2 ^ 15 ≤ d || (List.range d).all fun i => x.seenOps.contains ((x.aliveRel + i) % 65536)

/-- Folds into the integrity channels of a QP what no earlier operation can precede any more. -/
def State.tgtFold (s : State) (q : Nat) : State := s.icHorizon (s.qp q).owner q (s.qp q).noneBefore

/-- Forgets the refused writes before an operation that ends their batch. -/
def Qp.clearFails (x : Qp) (alive : Nat) : Qp := { x with tFails := x.tFails.filter fun f => !aliveBefore f.2.1 alive }

/-- A packet that has been applied or refused ends the batch of its peer, if it is of a kind that does (R149, R151). -/
def State.tgtEnder (s : State) (q : Nat) (p : SltPkt) : State :=
  let x := s.qp q
  if x.peerRelaxed ∧ endsBatch p then s.setQp q (x.clearFails p.alive) else s

/-- A packet has been applied or refused: it is received, and its operation is done once all its packets are. -/
def State.tgtTaken (s : State) (q : Nat) (p : SltPkt) : State :=
  let s := s.tgtEnder q p
  let x := (s.qp q).receive p.psn
  let s := s.setQp q x
  match x.top p.alive with
  | none => s
  | some o =>
    if 1 < o.left then s.setTop q { o with left := o.left - 1, psns := o.psns ++ [p.psn] }
    else
      let s := match o.recv with
        | some r => (s.completeRef r .ok p.mlen).fireTag x.owner p.key
        | none => s
      let s := if p.op = .write ∨ p.op = .send then s.icApplied x.owner q p.alive else s
      (s.tgtClose q p.alive).tgtFold q

/-- Refuses a packet with a status: it counts as received (R188, R199); a write of a batch that is refused is remembered for the
batch's notify write (R149, R150). -/
def State.tgtRefuse (s : State) (q : Nat) (p : SltPkt) (st : Status) : State :=
  let x := s.qp q
  let s := if x.peerRelaxed ∧ p.op = .write ∧ !p.notify then s.setQp q { x with tFails := x.tFails ++ [(p.psn, p.alive, st)] } else s
  let s := s.icDrop 2 x.owner q p.alive
  let s := match (s.qp q).top p.alive with
    | some o => s.setTop q { o with recv := none }
    | none => s
  let s := s.tgtTaken q p
  (s.sendNak q p.psn st p.path).freeOwed q

/-- Refuses a packet with NOT_READY: nothing is applied, and it is not received (R205). -/
def State.tgtNotReady (s : State) (q : Nat) (p : SltPkt) : State := (s.tgtForget q p).sendNak q p.psn .notReady p.path

/-! ### Effects (R141, R144, R168, R190) -/

/-- What applying a packet comes to. -/
inductive TgtRes where
  /-- Applied; the response, if there is one, has been sent. -/
  | done (s : State)
  | refuse (s : State) (st : Status)
  | notReady (s : State)
  /-- A turnstile operation waits. -/
  | waits (s : State)
  /-- The packet waits for a table walk. -/
  | hold (s : State)
  /-- It names register space 2. -/
  | dcs
  deriving DecidableEq, Repr

/-- Whether a write and a later notify write of the peer are of one batch: packets of every operation between them have come. The
requester sends a notify write only after every write of its batch, so one of which nothing has come ended another batch. -/
def Qp.sameBatch (x : Qp) (w n : Nat) : Bool :=
  let a := if aliveBefore w x.aliveRel then x.aliveRel else (w + 1) % 65536
  !aliveBefore a n || (List.range (subMod 16 n a)).all fun i => x.seen ((a + i) % 65536)

/-- The status of the first refused write of a notify write's batch (R150). -/
def Qp.batchFail (x : Qp) (p : SltPkt) : Option Status :=
  ((x.tFails.filter fun f => aliveBefore f.2.1 p.alive && x.sameBatch f.2.1 p.alive).foldl
    (fun (b : Option (Nat × Status)) f =>
      let d := subMod 16 p.alive f.2.1
      match b with
      | some (e, st) => if d ≤ e then some (e, st) else some (d, f.2.2)
      | none => some (d, f.2.2)) none).map (·.2)

/-- WRITE. -/
def State.tgtWrite (s : State) (q : Nat) (p : SltPkt) : TgtRes :=
  let x := s.qp q
  match if p.notify then x.batchFail p else none with
  | some st => .refuse s st
  | none =>
    match s.peerTarget q p.key p.offset p.payload.length false true .data with
    | .error st => .refuse s st
    | .ok a =>
      if fgaSpace a = 2 then .dcs
      else if s.heldBack (fgaOff a) p.payload.length ≠ .ok then .refuse (s.hbmWrite (fgaOff a) p.payload) .notPermitted
      else .done (((s.hbmWrite (fgaOff a) p.payload).count x.owner 0x23 q p.payload.length).icPiece x.owner q p.alive p.offset p.payload)

/-- READ. -/
def State.tgtRead (s : State) (q : Nat) (p : SltPkt) : TgtRes :=
  match s.peerTarget q p.key p.offset p.mlen true false .read with
  | .error st => .refuse s st
  | .ok a =>
    if fgaSpace a = 2 then .dcs
    else
      match s.targetRead a p.mlen with
      | .error st => .refuse s st
      | .ok (s, bs) => .done ((readResponses (s.qp q).mtuBytes p bs).foldl (fun t r => t.respond q r) s)

/-- Adds a responder-cache entry (R201). -/
def State.rcAdd (s : State) (q : Nat) (e : RcEntry) : State :=
  let x := s.qp q
  s.setQp q { x with rc := x.rc.filter (fun r => r.psn != e.psn) ++ [e] }

/-- Caches a response and sends it. -/
def State.rcRespond (s : State) (q : Nat) (p r : SltPkt) (again : Bool) : State :=
  (s.rcAdd q { psn := p.psn, alive := p.alive, resp := some r, again := again }).respond q r

/-- FADD, CAS64 and CAS128. -/
def State.tgtAtomic (s : State) (q : Nat) (p : SltPkt) : TgtRes :=
  let n := atomBytes p.op
  if s.rcFull q then .notReady s
  else
    match s.peerTarget q p.key p.offset n true true .data with
    | .error st => .refuse s st
    | .ok a =>
      if fgaOff a % n ≠ 0 then .refuse s .misaligned
      else if fgaSpace a ≠ 0 then .refuse s .notPermitted
      else
        let (old, s) := s.atomic p.op (fgaOff a) p.a p.b
        let r : SltPkt := { op := if p.op = .cas128 then .cas128Resp else .atomicResp, rop := if p.op = .cas64 then 0x15 else 0x14, alive := p.alive, path := p.path, a := old }
        .done (s.rcRespond q p r false)

/-- The response of a turnstile operation; ABANDONED travels with it (log entry 19). -/
def tsResponse (p : SltPkt) (d : TsDone) : SltPkt :=
  { op := .atomicResp, rop := 0x18, alive := p.alive, path := p.path, status := d.st.code, a := d.result, b := b2n d.abandoned }

/-- TS_OP. -/
def State.tgtTs (s : State) (q : Nat) (p : SltPkt) : TgtRes :=
  let cached := p.var != 0x01 && p.var != 0x05
  if cached ∧ s.rcFull q then .notReady s
  else if !tsCodeOk p.var then .refuse s .badDescriptor
  else
    match s.peerTarget q p.key p.offset 16 true (tsNeedsW p.var) .turnstile with
    | .error st => .refuse s st
    | .ok a =>
      if fgaOff a % 16 ≠ 0 then .refuse s .badOffset
      else
        let src : TsSource := .packet q p.psn
        let (t, ds, w) := s.tsPerform (fgaOff a / 16) p.var p.a p.b (s.qp q).user src (some (keyIndex p.key, keyGen p.key))
        let t := t.tsEnded (ds.filter fun d => d.src != src)
        if w then .waits (if cached then t.rcAdd q { psn := p.psn, alive := p.alive } else t)
        else
          match ds.find? fun d => d.src == src with
          | some d => .done (if cached then t.rcRespond q p (tsResponse p d) false else t.respond q (tsResponse p d))
          | none => .done t

/-- What comes of bytes that a QP receives for a local buffer: they are written, they wait for a table walk, or they are refused as
NOT_READY (Table 3.14) or with the status of the buffer's check. -/
inductive RecvPut where
  | put (s : State)
  | walk (s : State)
  | later (s : State)
  | err (st : Status)
  deriving DecidableEq, Repr

/-- Gives up the ends of translations that a QP holds for what it receives. -/
def State.dropRecvXl (s : State) (q : Nat) : State := s.setQp q { s.qp q with xl := [] }

/-- Puts bytes that a QP receives into a local buffer of a function: page faults are recorded, and park nothing (Table 3.14). -/
def State.recvPut (s : State) (fn q : Nat) (kind : Bool) (a : Nat) (bs : List Byte) : RecvPut :=
  let g := s.recvEng fn q
  match s.localRange g kind a bs.length .write with
  | .walk _ ha => .walk (s.wantWalk fn ha { who := .packet q, acc := .write, loc := g.loc })
  | .faults _ pages =>
    let fault := fun (f : Nat × Nat) =>
      ({ ref := none, eng := .receive, source := q, jrec := 0xFFFFFFFF, page := f.1, reason := f.2, write := true } : FaultRec)
    .later (pages.foldl (fun t f => t.recordFault fn (fault f)) (s.dropRecvXl q))
  | .err _ st => .err st
  | .ok =>
    if !kind ∧ !s.hostOpen fn ∧ !s.allHbm g a bs.length then .later (s.dropRecvXl q)
    else
      match s.putRecv g kind a bs with
      | none => .later (s.dropRecvXl q)
      | some t => .put (t.dropRecvXl q)

/-- Places bytes of a SEND in the buffer of its RECV: what the packet comes to. -/
def State.placeSend (s : State) (q : Nat) (p : SltPkt) (o : Op) : TgtRes :=
  let fn := o.ref.fn
  let a := o.d.laddr + p.offset
  match s.recvPut fn q o.d.lkind a p.payload with
  | .put t => .done ((t.count fn 0x23 q p.payload.length).icPiece fn q p.alive p.offset p.payload)
  | .walk t => .hold t
  | .later t => .notReady t
  | .err st => .notReady (s.completeRef o.ref st)

/-- SEND (R144, R190, R201). One longer than its RECV is refused as such also while the pipeline's share of the responder cache is full (DESIGN
CHOICE, log entry 133: R144 and R204 leave the order of their refusals open). -/
def State.tgtSend (s : State) (q : Nat) (p : SltPkt) : TgtRes :=
  let x := s.qp q
  if p.mlen = 0 then
    if s.rcFull q then .notReady s
    else .done ((s.rcAdd q { psn := x.firstOf p, alive := p.alive }).fireTag x.owner p.key)
  else
    match (x.top p.alive).bind (·.recv) with
    | some r =>
      (match s.op r with
       | some o => s.placeSend q p o
       | none => .notReady s)
    | none =>
      match x.recvs.find? fun e => e.2 == p.key with
      | none => .notReady s
      | some (r, _) =>
        match s.op r with
        | none => .notReady s
        | some o =>
          if o.d.len < p.mlen then .refuse s .recvTooSmall
          else if s.rcFull q then .notReady s
          else
            match s.placeSend q p o with
            | .done t =>
              let y := t.qp q
              let t := t.setQp q { y with recvs := y.recvs.filter fun e => e.1 != r }
              let t := match y.top p.alive with
                | some g => t.setTop q { g with recv := some r }
                | none => t
              .done (t.rcAdd q { psn := x.firstOf p, alive := p.alive, recv := some (r.fn, o.d.lkind, o.d.laddr) })
            | .notReady t =>
              let y := t.qp q
              .notReady (if (t.op r).isSome then t else t.setQp q { y with recvs := y.recvs.filter fun e => e.1 != r })
            | res => res

/-- Applies a request packet. -/
def State.tgtApply (s : State) (q : Nat) (p : SltPkt) : TgtRes :=
  match p.op with
  | .write => s.tgtWrite q p
  | .readReq => s.tgtRead q p
  | .send => s.tgtSend q p
  | .tsOp => s.tgtTs q p
  | _ => s.tgtAtomic q p

/-- Bytes of a pipeline's hold area: a quarter of the region that the structure image reserves (R191, Table 14.8, log entry 54). -/
def State.holdBytes (s : State) : Nat := s.img.holdMib * 2 ^ 18

/-- Bytes held in the hold area of a pipeline: header, extensions and payload of each packet. -/
def State.heldBytes (s : State) (k : Nat) : Nat :=
  ((s.qps.filter fun e => e.1 % 4 == k).map fun e => (e.2.holdArea.map sltBytes).sum).sum

/-- Keeps a packet that waits to be applied, once. -/
def State.tgtKeep (s : State) (q : Nat) (p : SltPkt) : State :=
  let x := s.qp q
  if x.holdArea.any fun y => y.psn == p.psn then s else s.setQp q { x with holdArea := x.holdArea ++ [p] }

/-- Puts an early packet into the hold area, once; it is dropped without being marked received where the area is full (R191). -/
def State.tgtHold (s : State) (q : Nat) (p : SltPkt) : State :=
  if s.heldBytes (q % 4) + sltBytes p ≤ s.holdBytes then s.tgtKeep q p else s

/-- Closes the operations before one with whose packet every earlier PSN has come: nothing more of them does, where their requester ended
them with packets unsent. One that waits, or that has matched a RECV, stays. -/
def State.tgtSweep (s : State) (q : Nat) (p : SltPkt) : State :=
  let x := s.qp q
  if x.heads p then
    (x.tops.filter fun o => aliveBefore o.alive p.alive && !o.waits && o.recv.isNone).foldl (fun t o => (t.icDrop 2 x.owner q o.alive).tgtClose q o.alive) s
  else s

/-- Tells that an operation waits. -/
def State.tellWaiting (s : State) (q : Nat) (p : SltPkt) : State :=
  s.sltOut q { op := .waiting, psn := (s.qp q).cum, a := p.psn, path := p.path, aliveRel := (s.qp q).relOut }

/-- The operation of a packet waits (R203): its record says so. -/
def State.tgtWaits (s : State) (q : Nat) (p : SltPkt) : State :=
  match (s.qp q).top p.alive with
  | some o => (s.setTop q { o with waits := true }).updJrec o.jrec fun j => { j with state := .waiting }
  | none => s

/-- A packet that is next in order: admitted, applied, and answered. -/
def State.tgtNow (s : State) (q : Nat) (p : SltPkt) : State :=
  match (s.tgtSweep q p).tgtAdmit q p with
  | none => s.tgtNotReady q p
  | some s =>
    match (if p.op = .send then s else s.winUse (.pipe (q % 4)) p.key).tgtApply q p with
    | .done s => (s.tgtTaken q p).tgtAck q p
    | .refuse s st => s.tgtRefuse q p st
    | .notReady s => s.tgtNotReady q p
    | .hold s => s.tgtKeep q p
    | .dcs => { s with dcsIn := s.dcsIn ++ [.packet q p] }
    | .waits s =>
      let s := (s.tgtEnder q p).tgtWaits q p
      ((s.setQp q ((s.qp q).receive p.psn)).tellWaiting q p).tgtAck q p

/-- A new packet: applied, or held until those before it have been. -/
def State.tgtNew (s : State) (q : Nat) (p : SltPkt) : State :=
  if (s.qp q).ready p then s.tgtNow q p else s.tgtHold q p

/-! ### Repeats (R202, Table 7.12) -/

/-- Sends a cached response again, under a PSN of its own. -/
def State.rcResend (s : State) (q : Nat) (e : RcEntry) : State :=
  match e.resp with
  | none => s
  | some r => s.respond q r

/-- A repeat that finds its entry: the cached response, or the bytes of a SEND placed again, and acknowledged once they are. -/
def State.tgtCached (s : State) (q : Nat) (p : SltPkt) (e : RcEntry) : State :=
  match e.recv with
  | some (fn, kind, laddr) =>
    (match s.recvPut fn q kind (laddr + p.offset) p.payload with
     | .put t => t.sendAck q (p.probe.getD 0) p.path
     | .walk t => t.tgtKeep q p
     | .later t => t.sendNak q p.psn .notReady p.path
     | .err _ => s.sendNak q p.psn .notReady p.path)
  | none =>
    if p.op = .send then s.sendAck q (p.probe.getD 0) p.path
    else if e.resp.isSome then s.rcResend q e
    else s.tellWaiting q p

/-- A repeated READ, TS_READ or TS_WAIT without an entry is executed again (Table 7.12). One that now waits is an operation at the target as
the first was (R203). -/
def State.tgtAgain (s : State) (q : Nat) (p : SltPkt) : State :=
  match s.tgtApply q p with
  | .done t => t
  | .refuse t st => t.sendNak q p.psn st p.path
  | .waits t =>
    let o : TgtOp := { alive := p.alive, kind := p.op, first := p.psn, left := 1 }
    let t := if ((t.qp q).top p.alive).isSome then t
      else (t.tgtAdmit q p).getD (t.setQp q { t.qp q with tops := (t.qp q).tops ++ [o] })
    (t.tgtWaits q p).tellWaiting q p
  | .notReady t => t.sendNak q p.psn .notReady p.path
  | .hold t => t.tgtKeep q p
  | .dcs => { s with dcsIn := s.dcsIn ++ [.packet q p] }

/-- A duplicate or old packet; its entry is that of its operation's first PSN (R201). An operation that waits is told so again (R203). -/
def State.tgtRepeat (s : State) (q : Nat) (p : SltPkt) (old : Bool) : State :=
  let x := s.qp q
  let idem := p.op == .readReq || (p.op == .tsOp && (p.var == 0x01 || p.var == 0x05))
  let first := x.firstOf p
  let mine := x.rc.find? fun e => e.alive == p.alive && e.psn == first
  let stale := x.rc.find? fun e => e.psn == first && e.alive != p.alive
  if (x.top p.alive).any (fun o => o.waits && o.first == first) then s.tellWaiting q p
  else
  match p.op, mine, stale with
  | .write, _, _ => s.sendAck q (p.probe.getD 0) p.path
  | _, some e, _ => s.tgtCached q p e
  | _, none, some e =>
    if idem then s.tgtAgain q p else ((s.setQp q { x with rc := x.rc.filter fun y => y.psn != e.psn }).tgtNew q p)
  | _, none, none =>
    if idem then s.tgtAgain q p
    else if 0 < subMod 16 x.aliveRel p.alive ∧ subMod 16 x.aliveRel p.alive < 2 ^ 15 then s
    else if old then s.sendNak q p.psn .notReady p.path
    else s

/-- Applies held packets whose turn has come, at most n; one that has been received since is a repeat. -/
def State.tgtHeld (s : State) (q : Nat) : Nat → State
  | 0 => s
  | n + 1 =>
    let x := s.qp q
    match takeFirst x.ready x.holdArea with
    | none => s
    | some (p, rest) =>
      let t := s.setQp q { x with holdArea := rest }
      (match x.classify p.psn with
       | .new => t.tgtNow q p
       | .duplicate => t.tgtRepeat q p false
       | .old => t.tgtRepeat q p true
       | .beyond => t).tgtHeld q n

/-- Applies what is held on a QP and has become ready. -/
def State.tgtDrain (s : State) (q : Nat) : State := s.tgtHeld q (s.qp q).holdArea.length

/-! ### A request (R183, R188, R205) -/

/-- Takes ALIVE_REL of a packet (R200). -/
def State.takeRel (s : State) (q : Nat) (p : SltPkt) : State := (s.setQp q ((s.qp q).release p.aliveRel)).tgtFold q

/-- Whether the node serves remote requests (Table 18.1). -/
def State.serves (s : State) : Bool := s.dev.state == .service

/-- A request packet of a QP that has passed every check before its PSN. -/
def State.tgtRequest (s : State) (q : Nat) (p : SltPkt) : State :=
  let x := s.qp q
  if x.state = .error then (s.takeRel q p).sendNak q p.psn .qpError p.path
  else
    let s := s.takeRel q p
    if !s.serves then s.sendNak q p.psn .notReady p.path
    else
    match (s.qp q).classify p.psn with
    | .beyond => s.countSat F.tpPipeCntDropWindow (q % 4)
    | .new => if (s.qp q).holdArea.any fun y => y.psn == p.psn then s else s.tgtNew q p
    | .duplicate => s.tgtRepeat q p false
    | .old => s.tgtRepeat q p true

/-! ### Waiting operations that have ended (R169, R203) -/

/-- A waiting turnstile operation of a QP has ended: its response is kept, sent, and sent again until ALIVE_REL passes; that of a TS_WAIT takes
no entry of the responder cache (R201, R203). -/
def State.tgtWaitEnds (s : State) (q psn : Nat) (d : TsDone) : State :=
  let x := s.qp q
  match x.tops.find? fun o => o.waits && o.first == psn with
  | none => s
  | some o =>
    let r : SltPkt := { op := .atomicResp, rop := 0x18, alive := o.alive, status := d.st.code, a := d.result, b := b2n d.abandoned }
    let cached := x.rc.any fun e => e.psn == psn && e.alive == o.alive
    let s := s.rcAdd q { psn := psn, alive := o.alive, resp := some r, again := true, free := !cached }
    (((s.tgtClose q o.alive).tgtFold q).respond q r).freeOwed q

end Machine
end Sys2Proof
end

