-- ==== Sys2Proof/Machine/Transport.lean ====
section
/-! DEFINITION. Received SLT packets from the router core to their effect (R173 to R187, R213 to R217, R232 to R235, R405 to R409):
counting, context, match, encryption, metering, and the packets that set connections up and end them. -/

namespace Sys2Proof
namespace Machine

/-! ### Acceptance (R177, R183, R185) -/

/-- Counts a packet dropped under R183. -/
def State.dropMatch (s : State) (q : Nat) : State := s.countSat F.tpPipeCntDropMatch (q % 4)

/-- Counts a malformed packet. -/
def State.dropMalformed (s : State) (q : Nat) : State := s.countSat F.tpPipeCntDropMalformed (q % 4)

/-- Whether a packet comes from the peer of its QP. -/
def Qp.fromPeer (x : Qp) (p : SltPkt) : Bool :=
  x.state != .free && !x.roce && x.peerNode == p.srcNode && x.peerQp == p.srcQp

/-! ### Metering and marks (R215, R216, R234, R235) -/

/-- The pre-colour of an arriving packet. -/
def State.preColour (s : State) (a : Arrival) : Colour :=
  colourOf (if a.eth then (if a.dscp < 32 then s.fld F.ccDscpColour0Colour 0 a.dscp else s.fld F.ccDscpColour1Colour 0 (a.dscp - 32))
            else s.fld F.ccClassColourColour 0 a.cls)

/-- Records a congestion mark: an SLT target echoes it with its next ACK, a RoCEv2 target sends a CNP, at most one in a period. -/
def State.recordMark (s : State) (q : Nat) : State :=
  let x := s.qp q
  if !x.roce then s.setQp q { x with ceSeen := true }
  else
    let due := match x.cnpAt with
      | none => true
      | some t => decide (max 1 (s.fld F.ccCfgCnpUs) * 1000 ≤ s.nowNs - t)
    if due then (s.setQp q { x with cnpAt := some s.nowNs }).roceOut q { op := .cnp } else s

/-- The network meter of a QP's function on a request or response of n bytes; none where it is dropped. -/
def State.netMeter (s : State) (q : Nat) (a : Arrival) (n : Nat) : Option State × State :=
  let fn := (s.qp q).owner
  let (c, t) := s.police fn 1 (s.preColour a) n
  let m := t.meter fn 1
  match c with
  | .green => (some t, t)
  | .yellow => (some (if m.yelMark ∧ m.enable then t.recordMark q else t), t)
  | .red => if m.redPass then (some (t.recordMark q), t) else (none, t)

/-! ### Connection (R180 to R183) -/

/-- Both sides use the smaller MTU and WIN, and learn each other's function and mode (R180). -/
def Qp.learn (x : Qp) (p : SltPkt) : Qp :=
  { x with peerFn := p.fn, peerRelaxed := p.mode == 1, mtu := min x.mtu p.mtu, win := min x.win p.win, cum := p.psn }

/-- A QP becomes connected: its state, and its rate control and credit (R218, R228). -/
def State.connected (s : State) (q : Nat) (p : SltPkt) : State :=
  (s.newConn.setQp q { (s.qp q).learn p with state := .connected, conn := s.conns + 1, lastStatus := 0, time := s.stamp }).startRate q

/-- A CONNECT or ACCEPT of a QP (Table 7.10). -/
def Qp.hello (x : Qp) (op : SltOp) : SltPkt :=
  { op := op, fn := x.owner, mode := b2n x.relaxed, mtu := x.mtu, win := x.win, psn := x.initPsn }

/-- Sends a REFUSE. -/
def State.refuse (s : State) (q : Nat) (st : Status) : State :=
  let s := if st = .notReady then s.nrSent q else s
  s.ctrlOut q { op := .refuse, status := st.code }

/-- A received CONNECT (R180, R181): the conditions in the order listed. One that the side with the higher number discards fails
the first (log entry 22). -/
def State.takeConnect (s : State) (p : SltPkt) : State :=
  let q := p.dstQp
  let x := s.qp q
  let open1 := x.state == .init || (x.state == .connecting && decide (sideNo s.nodeId q < sideNo x.peerNode x.peerQp))
  if !open1 ∨ !x.fromPeer p then s.dropMatch q
  else if s.dev.state ≠ .service then s.refuse q .notReady
  else if x.enc ≠ p.enc then s.refuse q .notPermitted
  else
    let s := s.connected q p
    s.ctrlOut q ((s.qp q).hello .accept)

/-- A received ACCEPT, on a QP in QP_CONNECTING of the packet's sender. -/
def State.takeAccept (s : State) (p : SltPkt) : State := s.connected p.dstQp p

/-- A received REFUSE. -/
def State.takeRefuse (s : State) (p : SltPkt) : State :=
  let x := s.qp p.dstQp
  if p.status = Status.notReady.code then s
  else s.setQp p.dstQp { x with state := .init, lastStatus := p.status % 256, time := s.stamp }

/-! ### Windows asked for (R159, R186) -/

/-- A received WIN_QUERY: WIN_INFO for a permitted user, else a NAK. -/
def State.takeWinQuery (s : State) (q : Nat) (p : SltPkt) : State :=
  let i := keyIndex p.key
  let w := s.win i
  let nak := fun (st : Status) => s.sltOut q { op := .nak, psn := (s.qp q).cum, status := st.code, path := p.path, aliveRel := (s.qp q).relOut }
  if i = 0 ∨ winCount ≤ i ∨ w.state = .free then nak .keyInvalid
  else if w.state ≠ .valid ∨ keyGen p.key ≠ w.gen then nak .keyStale
  else if !s.granted w (s.qp q).user then nak .notPermitted
  else
    s.sltOut q { op := .winInfo, path := p.path, aliveRel := (s.qp q).relOut, a := w.base, b := w.len,
                 mode := w.grant * 4 + b2n w.w * 2 + b2n w.r }

/-- A received WIN_INFO: the import record takes the answer (R159). -/
def State.takeWinInfo (s : State) (q : Nat) (p : SltPkt) : State :=
  match s.asking q with
  | none => s
  | some r =>
    let n : Import := { r with state := .imported, key := r.asked.getD 0, base := p.a, len := p.b, w := bit p.mode 1, r := bit p.mode 0,
                               grant := bits p.mode 3 2, qp := r.askQp, asked := none,
                               time := if r.state = .imported then r.time else s.stamp }
    let put := fun (y : Import) => if y.fn = r.fn ∧ y.node = r.node ∧ y.index = r.index then n else y
    let s := { s with imports := s.imports.map put }
    let s := (s.setFlag F.wincStatusBusy false r.fn).setFlag F.wincStatusFail false r.fn
    (s.setFld F.wincStatusCode 0 r.fn).setFld F.wincStatusKey 0 r.fn

/-! ### Effects -/

/-- The collectives whose group names a QP for a peer fail with UNREACHABLE, also while they wait for that peer (R382). -/
def State.collsLose (s : State) (q : Nat) : State :=
  s.colls.foldl (fun (t : State) (e : Nat × Coll) =>
    match if e.2.fn = (s.qp q).owner then e.2.peers.find? fun p => (e.2.nodes[p]?.map (·.qp)) == some q else none with
    | some p => t.ended { whom := .tp (.coll e.1 p), st := .unreachable }
    | none => t) s

/-- A CLOSE, or a RESET_NOTICE, which abandons the locks of the function that is reset (R170, R207). -/
def State.takeClose (s : State) (q : Nat) (reset : Bool) : State :=
  let u := (s.qp q).user
  let s :=
    if reset then
      let (t, ds) := s.abandonLocks (· == u)
      t.tsEnded ds
    else s
  let up := (s.qp q).up
  let s := s.qpError q .unreachable .unreachable
  if reset && up then s.collsLose q else s

/-- A response packet, classified by its PSN (R188): a new one has its effect, is received and acknowledged; one received before is
acknowledged again. -/
def State.reqResponse (s : State) (q : Nat) (p : SltPkt) : State :=
  match (s.qp q).classify p.psn with
  | .beyond => s.countSat F.tpPipeCntDropWindow (q % 4)
  | .new =>
    (match s.respEffect q p with
     | none => s
     | some t => if (t.qp q).up then (t.setQp q ((t.qp q).receive p.psn)).tgtAck q p else t)
  | .duplicate => s.sendAck q (p.probe.getD 0) p.path
  | .old => s.sendAck q (p.probe.getD 0) p.path

/-- The effect of a packet that has passed every check before its PSN and whose tag is good. -/
def State.sltEffect (s : State) (p : SltPkt) : State :=
  let q := p.dstQp
  let x := s.qp q
  match p.op with
  | .connect => s.takeConnect p
  | .accept => if x.state = .connecting then s.takeAccept p else s
  | .refuse => if x.state = .connecting then s.takeRefuse p else s
  | .readResp => if x.up then (s.takeRel q p).reqResponse q p else s
  | .atomicResp => if x.up then (s.takeRel q p).reqResponse q p else s
  | .cas128Resp => if x.up then (s.takeRel q p).reqResponse q p else s
  | .ack => if x.up then (s.takeRel q p).reqAck q p else s
  | .nak => if x.up then (s.takeRel q p).reqNak q p else s
  | .waiting => if x.up then (s.takeRel q p).reqWaiting q p else s
  | .close => if x.up then (s.takeRel q p).takeClose q false else s.takeClose q false
  | .resetNotice => if x.up then (s.takeRel q p).takeClose q true else s.takeClose q true
  | .winQuery => if x.up then (s.takeRel q p).takeWinQuery q p else s
  | .winInfo => if x.up then (s.takeRel q p).takeWinInfo q p else s
  | .pathProbe => if x.up then s.sendAck q (p.probe.getD 0) p.path else s
  | _ => s.tgtRequest q p

/-! ### Bytes written before their tag is checked (R408) -/

/-- Where the bytes of an encrypted packet are written as it arrives: those of a new write or send that may be applied, and of a
read response. -/
def State.earlyPlace (s : State) (p : SltPkt) : Option (Nat × Bool × Nat) :=
  let q := p.dstQp
  let x := s.qp q
  let fresh := x.up && s.serves && x.classify p.psn == .new && x.ready p
  match p.op with
  | .write =>
    if !fresh ∨ (p.notify ∧ (x.batchFail p).isSome) then none
    else
      (match s.peerTarget q p.key p.offset p.payload.length false true .data with
       | .ok a => if fgaSpace a = 0 then some (x.owner, true, a) else none
       | .error _ => none)
  | .send =>
    if !fresh then none
    else
      let r := ((x.top p.alive).bind (·.recv)).or ((x.recvs.find? fun e => e.2 == p.key).map (·.1))
      (match r.bind s.op with
       | some o => if o.d.len < p.mlen then none else some (o.ref.fn, o.d.lkind, o.d.laddr + p.offset)
       | none => none)
  | .readResp =>
    (match (x.awaits p).filter fun o => o.kind == .readReq && x.classify p.psn == .new with
     | some { owner := .queue r, .. } => (s.op r).map fun o => (r.fn, o.d.lkind, o.d.laddr + p.offset)
     | _ => none)
  | _ => none

/-- The translations that the operation holds whose read response a packet is (R90). -/
def State.placeXl (s : State) (p : SltPkt) : List XlDone :=
  if p.op ≠ .readResp then []
  else
    match ((s.qp p.dstQp).awaits p).filter fun o => o.kind == .readReq with
    | some { owner := .queue r, .. } => ((s.op r).map (·.xl)).getD []
    | _ => []

/-- Writes bytes at such a place, where they can be written, with translations that are held or at hand. Registers are written only once the packet is known to be authentic. -/
def State.putPlace (s : State) (q : Nat) (xl : List XlDone) (a : Nat × Bool × Nat) (bs : List Byte) : Option State :=
  if a.2.1 ∧ fgaSpace a.2.2 ≠ 0 then none
  else
  let g : Engine := { s.recvEng a.1 q with xl := xl }
  match s.localRange g a.2.1 a.2.2 bs.length .write with
  | .ok => if a.2.1 || s.hostOpen a.1 || s.allHbm g a.2.2 bs.length then s.putRecv g a.2.1 a.2.2 bs else none
  | .err 0 _ => if a.2.1 ∧ fgaNode a.2.2 = s.nodeId ∧ (s.spaceCheck 0 (fgaOff a.2.2) bs.length true).isNone then
      some (s.hbmWrite (fgaOff a.2.2) bs) else none
  | _ => none

/-- Admits the operation of a request packet whose bytes are to be written as it arrives (Table 1.13): the place, and the state with its
record; no place where the slice has no free record. -/
def State.earlyAdmit (s : State) (p : SltPkt) : Option (Nat × Bool × Nat) × State :=
  match s.earlyPlace p with
  | none => (none, s)
  | some w =>
    if p.op = .readResp then (some w, s)
    else
      match s.tgtAdmit p.dstQp p with
      | some t => (some w, t)
      | none => (none, s)

/-- An encrypted packet is decrypted and waits for the result of its tag; its bytes may be written already, once its operation has a Journal
record. -/
def State.sltAuth (s : State) (p : SltPkt) : State :=
  let q := p.dstQp
  let (p, good) := s.opened q p
  let (place, s) := s.earlyAdmit p
  let (place, s) := match place.bind fun w => s.putPlace q (s.placeXl p) w p.payload with
    | some t => (place, t)
    | none => (none, s)
  let x := s.qp q
  s.setQp q { x with unauth := x.unauth ++ [{ pkt := p, place := place, good := good }] }

/-- The status that repeated authentication failure ends a QP with: at the target the refusal, at the requester the end of the
operation that awaits the packet (Table 15.6); a QP that is not connected enters QP_ERROR too. -/
def State.authExhausted (s : State) (q : Nat) (p : SltPkt) : State :=
  let x := s.qp q
  let s :=
    if sltType p.op = 0 then s.sendNak q p.psn .authFailed p.path
    else if sltType p.op = 3 then s
    else
      let o := if sltType p.op = 1 then x.awaits p else x.live.head?
      match o with
      | none => s
      | some o =>
        let s := match o.owner, o.kind with
          | .queue r, .readReq =>
            (match s.op r with
             | some d => (s.putPlace q d.xl (r.fn, d.d.lkind, d.d.laddr) (List.replicate d.d.len 0#8)).getD s
             | none => s)
          | _, _ => s
        s.tpEnd q o.alive .authFailed
  if (s.qp q).up then s.qpError q .unreachable .authFailed
  else
    let y := s.qp q
    if y.state = .init ∨ y.state = .connecting then s.setQp q { y with state := .error, lastStatus := Status.authFailed.code, time := s.stamp } else s

/-- The result of the oldest tag of a QP that is not known yet (R408, R409). -/
def State.tagResult (s : State) (q : Nat) : State :=
  let x := s.qp q
  match x.unauth with
  | [] => s
  | u :: us =>
    if u.good then (s.setQp q { x with unauth := us, authFails := 0 }).sltEffect u.pkt
    else
      let s := (s.setQp q { x with unauth := us, authFails := x.authFails + 1 }).countSat F.intCiphCntAuthFail
      let s := match u.place with
        | some w => (s.putPlace q (s.placeXl u.pkt) w (List.replicate u.pkt.payload.length 0#8)).getD s
        | none => s
      let s := if sltType u.pkt.op = 0 then s.tgtForget q u.pkt else s
      if max 1 (s.fld F.intCfgAuthMax) ≤ x.authFails + 1 then s.authExhausted q u.pkt else s

/-- The results of the oldest n tags of a QP, in order. -/
def State.tagResults (s : State) (q : Nat) : Nat → State
  | 0 => s
  | n + 1 => (s.tagResult q).tagResults q n

/-! ### From the pipeline's input to the effect -/

/-- A packet whose context is at hand: match, encryption, meter, tag, effect. Of the packets whose ENC is not the QP's, only a CONNECT is not
dropped: `State.takeConnect` refuses it (R180, R407). -/
def State.sltTake (s : State) (p : SltPkt) (a : Arrival) : State :=
  let q := p.dstQp
  let x := s.qp q
  let matched := x.fromPeer p &&
    (match p.op with
     | .connect => x.state == .init || x.state == .connecting
     | .accept => x.state == .connecting
     | .refuse => x.state == .connecting
     | _ => x.up || x.state == .error)
  if !matched then s.dropMatch q
  else if p.op ≠ .connect ∧ p.enc ≠ x.enc then s.dropMalformed q
  else if p.enc ∧ x.enc ∧ ((s.keySet x.owner x.keyh).slots.getD p.epoch .empty) ≠ .valid then s.countSat F.intCiphCntEpochDrop
  else
    let (t, s) := if sltType p.op < 2 then s.netMeter q a (sltBytes p) else (some s, s)
    match t with
    | none => s
    | some s =>
      let s := if a.ce then s.recordMark q else s
      if p.enc ∧ x.enc then s.sltAuth p else s.sltEffect p

/-- Whether a pipeline accepts heads: its miss buffer has room and it does not recover (R177, R448). -/
def State.takesHeads (s : State) (q : Nat) : Bool := !s.missFull q && (s.pipe (q % 4)).recovering == 0

/-- Whether a head is that of a response, an acknowledgement or a control packet, which no request holds up (R267). -/
def MissEntry.resp (m : MissEntry) : Bool :=
  match m.pkt, m.roce with
  | some (p, _), _ => sltType p.op != 0
  | _, some (p, _) => !roceIsRequest p.op
  | _, _ => false

/-- Whether a head waits before one that comes now: one of its own ejection queue (R267). -/
def State.headBefore (s : State) (m : MissEntry) : Bool := (s.pipe (m.qp % 4)).heads.any fun e => e.resp == m.resp

/-- A head that the router core holds back until its pipeline accepts it. -/
def State.holdHead (s : State) (m : MissEntry) : State :=
  let x := s.pipe (m.qp % 4)
  s.setPipe (m.qp % 4) { x with heads := x.heads ++ [m] }

/-- The packet that arrives: as given, or as its bytes read (R185); none where it is malformed. -/
def arrivingSlt (p : SltPkt) (a : Arrival) : Option SltPkt :=
  match a.wire with
  | some bs => sltRead p.srcNode p.dstNode bs
  | none => if a.malformed then none else some p

/-- A packet is accepted by its pipeline: counted, and taken once the QP's context is at hand. -/
def State.sltAccept (s : State) (p : SltPkt) (a : Arrival) : State :=
  let s := s.countWrap F.tpPipeRxPkts (p.dstQp % 4)
  match arrivingSlt p a with
  | none => s.dropMalformed p.dstQp
  | some p =>
    let (hit, s) := s.touch { qp := p.dstQp, pkt := some (p, a) }
    if hit then s.sltTake p a else s

/-- Whether HBM holds the accesses of a packet: the bytes that it writes, or those that its request reads or changes. -/
def State.pktBusy (s : State) (p : SltPkt) : Bool :=
  let q := p.dstQp
  match s.earlyPlace p with
  | some (fn, kind, a) => s.bufBusy { s.recvEng fn q with xl := s.placeXl p } kind a p.payload.length .write
  | none =>
    let at' := fun (len : Nat) (w : Bool) (use : Use) =>
      match s.peerTarget q p.key p.offset len true w use with
      | .ok a => fgaSpace a == 0 && s.hbmBusy (fgaOff a) len
      | .error _ => false
    match p.op with
    | .readReq => at' p.mlen false .read
    | .fadd => at' 8 true .data
    | .cas64 => at' 8 true .data
    | .cas128 => at' 16 true .data
    | _ => false

/-- Whether HBM holds the accesses of a RoCEv2 request: to its target, or to the buffer of the RECV that its SEND has matched. -/
def State.roceBusy (s : State) (q : Nat) (p : RocePkt) : Bool :=
  let x := s.qp q
  let at' := fun (key va len : Nat) (r w : Bool) =>
    match s.peerTarget q key va len r w .data with
    | .ok a => fgaSpace a == 0 && s.hbmBusy (fgaOff a) len
    | .error _ => false
  match p.op with
  | .readReq => at' p.rkey p.va p.len true false
  | .fadd => at' p.rkey p.va 8 true true
  | .cas => at' p.rkey p.va 8 true true
  | .write =>
    if p.first then at' p.rkey p.va p.payload.length false true
    else x.rmsg.any fun m => at' m.key (m.va + m.got) p.payload.length false true
  | .send =>
    let r := if p.first then (x.recvs.find? fun e => e.2 == 0).map (·.1) else x.rmsg.bind (·.recv)
    p.last && ((r.bind s.op).any fun o => s.bufBusy (s.recvEng o.ref.fn q) o.d.lkind o.d.laddr o.d.len .write)
  | _ => false

/-- Whether HBM holds the accesses of a head. -/
def State.headBusy (s : State) (m : MissEntry) : Bool :=
  s.hbmHolding &&
    (match m.pkt, m.roce with
     | some (p, a), _ => (arrivingSlt p a).any s.pktBusy
     | _, some (p, _) => s.roceBusy m.qp p
     | _, _ => false)

/-- A packet arrives at its pipeline, behind those of its ejection queue that are held back; so is one whose accesses HBM holds. -/
def State.sltArrive (s : State) (p : SltPkt) (a : Arrival) : State :=
  let q := p.dstQp
  if !s.netOpen then s
  else if s.takesHeads q && !s.headBefore { qp := q, pkt := some (p, a) } && !s.headBusy { qp := q, pkt := some (p, a) } then s.sltAccept p a
  else s.holdHead { qp := q, pkt := some (p, a) }

/-- A received packet of one of some kinds; a packet of another kind is no such event. -/
def State.sltOf (s : State) (ok : Bool) (p : SltPkt) (a : Arrival) : State := if ok then s.sltArrive p a else s

end Machine
end Sys2Proof
end

