-- ==== Sys2Proof/Machine/QpCommands.lean ====
section
/-! DEFINITION. The QP commands (R176 to R182) and the timers of the transport (R177, R180, R186, R193 to R198, R203, R207). -/

namespace Sys2Proof
namespace Machine

/-! ### Results of the commands of a function's registers -/

/-- The check that bytes at a plain FGA lie in the HBM of a function. -/
def State.ownHbm (s : State) (fn fga len : Nat) (write : Bool) : Option Status :=
  if fgaNode fga ≠ s.nodeId ∨ fgaSpace fga ≠ 0 ∨ !s.ownsBytes fn (fgaOff fga) len then some .notPermitted
  else s.spaceCheck 0 (fgaOff fga) len write

/-- Shows the number of a function's QPs. -/
def State.showQps (s : State) (fn : Nat) : State :=
  s.setFld F.qpcCountQps (s.qps.filter fun e => e.2.state != .free && e.2.owner == fn).length fn

/-- The end of a QP command (Table 7.5). -/
def State.qpcEnds (s : State) (fn : Nat) (st : Status) (q : Nat := 0) : State :=
  let s := (s.setFld F.qpcStatusQp q fn).setFld F.qpcStatusCode st.code fn
  ((s.setFlag F.qpcStatusFail (st != .ok) fn).setFlag F.qpcStatusBusy false fn).showQps fn

/-! ### CREATE (R178, R179, R404) -/

/-- A set-up block (Table 7.3). -/
structure QpBlock where
  proto : Nat
  mode : Nat
  mtu : Nat
  profile : Nat
  peerNode : Nat
  peerQp : Nat
  initPsn : Nat
  paths : Nat
  win : Nat
  tmo : Nat
  rtoMin : Nat
  nrUs : Nat
  peerIp : Nat
  udpSrc : Nat
  tclass : Nat
  hopLim : Nat
  sec : Nat
  pipe : Nat
  keyh : Nat
  /-- Bytes reserved in every block. -/
  rsvd : Nat
  deriving DecidableEq, Repr

/-- Decodes a set-up block. -/
def QpBlock.ofBytes (bs : List Byte) : QpBlock :=
  { proto := leAt bs 0 1, mode := leAt bs 1 1, mtu := leAt bs 2 1, profile := leAt bs 3 1, peerNode := leAt bs 4 2, peerQp := leAt bs 8 4,
    initPsn := leAt bs 12 4, paths := leAt bs 16 8, win := leAt bs 24 2, tmo := leAt bs 26 2, rtoMin := leAt bs 28 2, nrUs := leAt bs 30 2,
    peerIp := leAt bs 32 16, udpSrc := leAt bs 48 2, tclass := leAt bs 50 1, hopLim := leAt bs 51 1, sec := leAt bs 52 1,
    pipe := leAt bs 53 1, keyh := leAt bs 56 4, rsvd := leAt bs 6 2 + leAt bs 54 2 + leAt bs 60 4 }

/-- Whether a block names RoCEv2. -/
def QpBlock.roce (b : QpBlock) : Bool := b.proto == 1

/-- The checks that give BAD_DESCRIPTOR. -/
def State.qpBlockOk (s : State) (b : QpBlock) : Bool :=
  b.rsvd == 0 && b.tclass % 4 == 0 && decide (b.sec ≤ 1) && decide (b.proto ≤ 1) && decide (b.mode ≤ 1) &&
    !(b.roce && (b.mode == 1 || b.sec == 1 || b.peerNode != 0)) && !(!b.roce && (b.peerIp != 0 || b.udpSrc != 0)) &&
    decide (b.profile ≤ 15) && decide (b.pipe ≤ 4) && decide (b.keyh ≤ 63) && !(b.keyh != 0 && b.sec == 0) &&
    decide (b.peerQp < if b.roce then 2 ^ 24 else 2 ^ 20) && !(!b.roce && b.peerNode == s.nodeId) && b.paths != 0

/-- MTU and WIN are in range; for an SLT peer in the same rack MTU is 0 or 1. -/
def State.qpSizesOk (s : State) (b : QpBlock) : Bool :=
  decide (b.mtu ≤ if !b.roce ∧ b.peerNode / 256 = s.nodeId / 256 then 1 else 2) &&
    decide (1 ≤ b.win ∧ b.win ≤ if b.roce then 128 else 512)

/-- Whether a key set may be bound to a new QP (R404). -/
def State.keyFree (s : State) (fn keyh : Nat) : Bool :=
  !(s.qps.any fun e => e.2.state != .free && e.2.enc && e.2.owner == fn && e.2.keyh == keyh) &&
    (s.keySet fn keyh).slots.any (· == .valid)

/-- The lowest-numbered free QP of the function's allocation on the pipeline asked for. -/
def State.freeQp (s : State) (fn pipe : Nat) : Option Nat :=
  ((List.range (s.alloc fn).qpCount).map ((s.alloc fn).qpBase + ·)).find? fun q =>
    (s.qp q).state == .free && (pipe == 4 || q % 4 == pipe)

/-- The QP a block sets up. A RoCEv2 QP expects the peer's PSN 0 first (DESIGN CHOICE, log entry 133: no field of the block gives it). -/
def State.newQp (s : State) (fn : Nat) (b : QpBlock) : Qp :=
  { state := .init, owner := fn, roce := b.roce, relaxed := b.mode == 1, mtu := b.mtu, enc := b.sec == 1, keyh := b.keyh,
    profile := b.profile,
    peerNode := if b.roce then ((AMap.find s.img.peers b.peerIp).map (·.node)).getD 0xFFFF else b.peerNode,
    peerFn := if b.roce then 0xFF else 0, peerQp := b.peerQp, initPsn := if b.roce then b.initPsn % 2 ^ 24 else b.initPsn,
    spsn := if b.roce then b.initPsn % 2 ^ 24 else b.initPsn, paths := if b.roce then 1 else b.paths, win := b.win,
    tmo := if b.tmo = 0 then 40 else b.tmo, rtoMin := if b.rtoMin = 0 then 20 else b.rtoMin, nrUs := if b.nrUs = 0 then 10 else b.nrUs,
    time := s.stamp, peerIp := b.peerIp, udpSrc := b.udpSrc, tclass := b.tclass, hopLim := b.hopLim }

/-- The registers of a QP's shaper. -/
def shpRegs : List Reg := [.ccShpCfg, .ccShpState, .ccShpCmd]

/-- CREATE. -/
def State.qpCreate (s : State) (fn : Nat) : State :=
  let fga := s.fld F.qpcArg0Fga fn
  match s.ownHbm fn fga 64 false with
  | some st => s.qpcEnds fn st
  | none =>
    let b := QpBlock.ofBytes (s.hbmRead (fgaOff fga) 64)
    if !s.qpBlockOk b then s.qpcEnds fn .badDescriptor
    else if !s.qpSizesOk b then s.qpcEnds fn .badLength
    else if b.sec = 1 ∧ !s.keyFree fn b.keyh then s.qpcEnds fn .notPermitted
    else
      match s.freeQp fn b.pipe with
      | none => s.qpcEnds fn .poolExhausted
      | some q =>
        let o := shpObj false q
        let ceil := s.rateLimit fn
        let s := (s.setQp q (s.newQp fn b)).resetRegs shpRegs o
        let s := (s.setFld F.ccShpCfgCeil ceil o).setFld F.ccShpCfgBurst 0x100 o
        (s.setShaper o { ceil := ceil }).qpcEnds fn .ok q

/-! ### The other commands -/

/-- Whether a QP belongs to a function. -/
def State.holdsQp (s : State) (fn q : Nat) : Bool :=
  decide ((s.alloc fn).qpBase ≤ q ∧ q < (s.alloc fn).qpBase + (s.alloc fn).qpCount)

/-- CONNECT: SLT asks the peer, RoCEv2 is connected at once. -/
def State.qpConnect (s : State) (fn q : Nat) : State :=
  let x := s.qp q
  if !s.holdsQp fn q then s.qpcEnds fn .notPermitted
  else if x.state ≠ .init then s.qpcEnds fn .qpError
  else if x.roce then ((s.newConn.setQp q { x with state := .connected, conn := s.conns + 1, lastStatus := 0, time := s.stamp }).startRate q).qpcEnds fn .ok
  else
    let s := s.setQp q { x with state := .connecting, lastStatus := 0, time := s.stamp }
    (s.ctrlOut q (x.hello .connect)).qpcEnds fn .ok

/-- DISCONNECT. -/
def State.qpDisconnect (s : State) (fn q : Nat) : State :=
  let x := s.qp q
  if !s.holdsQp fn q then s.qpcEnds fn .notPermitted
  else if x.state ≠ .connected then s.qpcEnds fn .qpError
  else (s.setQp q { x with state := .closing, time := s.stamp }).qpcEnds fn .ok

/-- RESET. -/
def State.qpReset (s : State) (fn q : Nat) : State :=
  let x := s.qp q
  if !s.holdsQp fn q then s.qpcEnds fn .notPermitted
  else if x.state = .free ∨ x.up then s.qpcEnds fn .qpError
  else (s.setQp q { x.cleared with state := .init, lastStatus := 0, time := s.stamp}).qpcEnds fn .ok

/-- Frees a QP: its shaper and rate control end, and channels that snoop it lose their
source (R207, R417). -/
def State.freeQpCtx (s : State) (q : Nat) : State :=
  let s := (s.setQp q {}).resetRegs shpRegs (shpObj false q)
  let s := { s with cc := { s.cc with shapers := AMap.drop s.cc.shapers (shpObj false q), rate := AMap.drop s.cc.rate q } }
  s.icGone fun kind i => (kind == 1 || kind == 2) && i == q

/-- DESTROY. -/
def State.qpDestroy (s : State) (fn q : Nat) : State :=
  let x := s.qp q
  if !s.holdsQp fn q then s.qpcEnds fn .notPermitted
  else if x.state ≠ .init ∧ x.state ≠ .error then s.qpcEnds fn .qpError
  else (s.freeQpCtx q).qpcEnds fn .ok

/-- QUERY. -/
def State.qpQuery (s : State) (fn q : Nat) : State :=
  let fga := s.fld F.qpcArg0Fga fn
  if !s.holdsQp fn q then s.qpcEnds fn .notPermitted
  else
    match s.ownHbm fn fga 64 true with
    | some st => s.qpcEnds fn st
    | none => (s.hbmWrite (fgaOff fga) (s.qp q).visible).qpcEnds fn (s.heldBack (fgaOff fga) 64)

/-! ### Timers -/

/-- CONNECT_RESEND: a connecting QP asks again (R180). -/
def State.connectResend (s : State) (q : Nat) : State :=
  let x := s.qp q
  if x.state = .connecting then s.ctrlOut q (x.hello .connect) else s

/-- CONNECT_TIMEOUT. -/
def State.connectTimeout (s : State) (q : Nat) : State :=
  let x := s.qp q
  if x.state = .connecting then s.setQp q { x with state := .init, lastStatus := Status.unreachable.code, time := s.stamp } else s

/-- RTO_EXPIRY; a copy of the local data is made again, which the model keeps with the operation (log entry 23). -/
def State.rtoExpiry (s : State) (q psn : Nat) : State := s.rtoExpires q psn

/-- TRANSPORT_TIMEOUT of an operation, or of the WIN_QUERY that a QP has not had answered (Table 6.5). -/
def State.transportTimeout (s : State) (q : Nat) : Option Nat → State
  | some alive => s.opTimeout q alive
  | none =>
    match s.asking q with
    | some r => s.importFails r.fn r .unreachable
    | none => s

/-- NOT_READY_RETRY; on RoCEv2 what was sent behind it goes again too (Table 7.14). -/
def State.notReadyRetry (s : State) (q psn : Nat) : State :=
  let x := s.qp q
  let was := x.notReady.contains psn ∧ x.up
  let s := s.retryNotReady q psn
  if x.roce ∧ was then
    let y := s.qp q
    let behind := (y.out.filter fun k => !k.acked && decide (0 < subMod 24 k.psn psn ∧ subMod 24 k.psn psn < 2 ^ 23)).map (·.psn)
    s.setQp q { y with retx := y.retx ++ behind.filter fun n => !y.retx.contains n }
  else s

/-- PROBE_TIMER. -/
def State.probeTimer (s : State) (q : Nat) : State := s.sendProbes q

/-- RESPONSE_RESEND: the response of an ended wait is sent again until it is released (R203). -/
def State.responseResend (s : State) (q psn : Nat) : State :=
  if !(s.qp q).up then s
  else
    match (s.qp q).rc.find? fun e => e.psn == psn && e.again with
    | some e => s.rcResend q e
    | none => s

/-- NOTICE_RESEND: CLOSE or RESET_NOTICE again, three times in all (R207). -/
def State.noticeResend (s : State) (q : Nat) : State :=
  let k := s.pipe (q % 4)
  match takeFirst (fun l => l.q == q) k.leaving with
  | none => s
  | some (l, rest) =>
    let now := s.qp q
    let t := (s.setQp q l.qp).ctrlOut q l.pkt
    let l := { l with left := l.left - 1, qp := t.qp q }
    (t.setQp q now).setPipe (q % 4) { t.pipe (q % 4) with leaving := if l.left = 0 then rest else l :: rest }

/-- WIN_QUERY_RESEND (R186). -/
def State.winQueryResend (s : State) (q : Nat) : State :=
  let x := s.qp q
  match s.asking q with
  | some r => if x.up then s.ctrlOut q { op := .winQuery, key := r.asked.getD 0, aliveRel := x.relOut }
    else s.importFails r.fn r .unreachable
  | none => s

end Machine
end Sys2Proof
end

