-- ==== Sys2Proof/Machine/Dma.lean ====
section
/-! DEFINITION. Operations that move bytes between local buffers and targets on this node: COPY, and WRITE and READ of a window of
this node, segment by segment; pointer conversions; FLUSH_HOST and FENCE_HOST (R71 to R73, R90, R91, R109, R110, R124, R151). -/

namespace Sys2Proof
namespace Machine

/-! ### Starting -/

/-- Gives a descriptor of a host-port DMA engine, or with a target on this node, its record (R446). -/
def State.admitLocal (s : State) (o : Op) (role target : Nat) : Option (Op × State) := s.admitOp o s.emptiest role target

/-- Where the prior value of a CAS128 is written: bytes 32 to 47 of its buffer (Table 5.4). -/
def casPrior : Nat := 32

/-- Writes the prior value of a CAS128 that has been performed, and completes it; while its host may not be written the value waits (R112,
R141). -/
def State.priorPut (s : State) (o : Op) (bs : List Byte) : State :=
  let g := s.opEng o
  let a := o.d.laddr + casPrior
  if !s.mayPut g o.d.lkind a 16 then s.updOp o.ref fun y => { y with phase := .prior, buf := [(casPrior, bs)] }
  else
    match s.putLocal g o.d.lkind a bs with
    | some t => t.completeRef o.ref .ok
    | none => s.completeRef o.ref (match s.localRange g o.d.lkind a 16 .write with | .err _ st => st | _ => .pageFault)

/-! ### The mover (R90, R161) -/

/-- A range in a window of this node as a range result, and its address. -/
def State.windowRange (s : State) (o : Op) (len : Nat) (r w : Bool) : RangeRes × (Bool × Nat) :=
  match s.localTarget (s.user o.ref.fn) o.d.rkey (o.d.opx + o.seg) len r w .data with
  | .error st => (.err 0 st, (true, 0))
  | .ok fga => if fgaSpace fga = 0 then (.ok, (true, fga)) else (.err 0 .notPermitted, (true, 0))

/-- The source of what an operation still has to move. -/
def State.moveSrc (s : State) (o : Op) (len : Nat) : RangeRes × (Bool × Nat) :=
  if o.d.opcode = 0x11 then s.windowRange o len true false
  else (s.localRange (s.opEng o) o.d.lkind (o.d.laddr + o.seg) len .read, (o.d.lkind, o.d.laddr + o.seg))

/-- The destination. -/
def State.moveDst (s : State) (o : Op) (len : Nat) : RangeRes × (Bool × Nat) :=
  if o.d.opcode = 0x10 then s.windowRange o len false true
  else
    let (k, a) := if o.d.opcode = 0x11 then (o.d.lkind, o.d.laddr) else (o.d.dkind, o.d.opx)
    (s.localRange (s.opEng o) k (a + o.seg) len .write, (k, a + o.seg))

/-- Leaves the target range of a move on this node undefined. -/
def State.moveUnknown (s : State) (o : Op) : State :=
  let (res, k, a) := s.moveDst { o with seg := 0 } o.d.len
  if 0 < res.usable o.d.len then s.leaveUnknown (s.opEng o) k a o.d.len else s

/-- COUNT of an operation that ends before its end: what a COPY has moved, or the elements of an array conversion that could not be
converted so far (Table 5.6); 0 for a remote operation (Table 6.7). -/
def Op.countNow (o : Op) : Nat :=
  if o.d.opcode = 0x01 then o.seg else if o.d.opcode = 0x0A ∨ o.d.opcode = 0x0B then o.bad else 0

/-- Ends a move with a failure: COUNT is what it has moved (`Op.countNow`); the bytes that a
READ leaves are undefined after KEY_STALE (R164), those that any move leaves are after a lost record (R445, R453). -/
def State.moveFails (s : State) (o : Op) (st : Status) : State :=
  let s := if o.d.opcode = 0x01 then s.icDrop 0 o.ref.fn o.ref.q o.ref.pos else s
  let s :=
    if o.d.opcode = 0x11 ∧ st = .keyStale then s.leaveUnknown (s.opEng o) o.d.lkind o.d.laddr o.d.len
    else if st = .unreachable then s.moveUnknown o
    else s
  s.completeRef o.ref st o.countNow

/-- The status of a WRITE to a window of this node that has ended: refused where lines of it lie in a resident range (R306). -/
def State.moveServed (s : State) (o : Op) : Status :=
  if o.d.opcode ≠ 0x10 then .ok
  else
    let (_, k, a) := s.moveDst { o with seg := 0 } o.d.len
    if k then s.heldBack (fgaOff a) o.d.len else .ok

/-- Ends a move. -/
def State.moveEnds (s : State) (o : Op) : State :=
  let s :=
    if o.d.opcode = 0x01 then
      s.icUpd 0 o.ref.fn o.ref.q o.ref.pos (fun _ => true) fun c => { c with bytes := some (c.got.foldr (fun e bs => e.2 ++ bs) []) }
    else s
  s.completeRef o.ref (s.moveServed o) o.d.len

/-- Whether two ranges of local addresses of the same kind overlap. -/
def moveOverlaps (d : Desc) : Bool :=
  d.opcode == 0x01 && d.lkind == d.dkind && decide (d.laddr < d.opx + d.len) && decide (d.opx < d.laddr + d.len)

/-- Where the bytes of a local range lie, as far as its translation is at hand: in HBM or in host memory, address and length. -/
def State.places (s : State) (g : Engine) (kind : Bool) (addr len : Nat) (acc : Access) : List (Bool × Nat × Nat) :=
  if kind then [(true, fgaOff addr, len)]
  else
    (pieces addr len).filterMap fun p =>
      match s.xlated g p.1 acc with
      | .ok e => some (e.hbm, if e.hbm then e.at p.1 % 2 ^ 44 else e.at p.1, p.2)
      | _ => none

/-- Whether two lists of places share a byte. -/
def placesMeet (xs ys : List (Bool × Nat × Nat)) : Bool :=
  xs.any fun x => ys.any fun y => x.1 == y.1 && decide (x.2.1 < y.2.1 + y.2.2) && decide (y.2.1 < x.2.1 + x.2.2)

/-- Where the bytes of a COPY's next n bytes lie, with all before them: its source and its destination. -/
def State.copyPlaces (s : State) (o : Op) (n : Nat) : List (Bool × Nat × Nat) × List (Bool × Nat × Nat) :=
  (o.from_ ++ s.places (s.opEng o) o.d.lkind (o.d.laddr + o.seg) n .read, o.onto ++ s.places (s.opEng o) o.d.dkind (o.d.opx + o.seg) n .write)

/-- Whether the ranges of a COPY overlap (R124): by address, or by where the bytes lie that it has reached with its next n bytes (log entry
119). -/
def State.copyOverlaps (s : State) (o : Op) (n : Nat) : Bool :=
  o.d.opcode == 0x01 && (moveOverlaps o.d || placesMeet (s.copyPlaces o n).1 (s.copyPlaces o n).2)

/-- Writes free bytes over the places in HBM that a COPY has written. -/
def State.unknownPlaces (s : State) (ps : List (Bool × Nat × Nat)) : State :=
  ps.foldl (fun t p =>
    if p.1 then
      { t.hbmWrite p.2.1 ((List.range p.2.2).map (Config.freeByte t.freeCount)) with freeCount := t.freeCount + 1 }
    else t) s

/-- Writes the bytes of a piece to its destination: the state with the progress, or none where the destination cannot take them. The
translations that the operation held for the piece are given up. -/
def State.movePut (s : State) (o : Op) (bs : List Byte) : Option State :=
  let (res, k, a) := s.moveDst o bs.length
  match res with
  | .ok =>
    if !s.mayPut (s.opEng o) k a bs.length then none
    else
      let (src, dst) := if o.d.opcode = 0x01 then s.copyPlaces o bs.length else ([], [])
      let (bs, s) :=
        if s.copyOverlaps o bs.length then
          ((List.range bs.length).map (Config.freeByte s.freeCount), ({ s with freeCount := s.freeCount + 1 }).unknownPlaces o.onto)
        else (bs, s)
      (s.putLocal (s.opEng o) k a bs).map fun t =>
        let t := if o.d.opcode = 0x01 then
            t.icUpd 0 o.ref.fn o.ref.q o.ref.pos (fun _ => false) fun c => { c with got := AMap.put c.got o.seg bs }
          else t
        t.updOp o.ref fun y => { y with seg := o.seg + bs.length, buf := [], xl := [], phase := .engine, from_ := src, onto := dst }
  | _ => none

/-- Whether the check of a plain FGA or a window refuses a range: such a check comes before any translation (R140). -/
def RangeRes.refused (r : RangeRes) (kind : Bool) : Bool :=
  kind && (match r with
    | .err _ _ => true
    | _ => false)

/-- Bytes from an address to the end of its 2 MiB segment; a plain FGA has none to keep to (R90). -/
def segRoom (kind : Bool) (a len : Nat) : Nat := if kind then len else pageSize - a % pageSize

/-- Moves on as far as it can go, one 2 MiB segment of host addresses after the other, so that a hold or a replay takes up the current
segment from its start (R90, R112): what precedes the first problem is moved, then the problem is dealt with. Where source and destination
both fault, the pages of the source are recorded, and those of the destination when the operation is replayed (DESIGN CHOICE, log entry
132). -/
def State.moveGo (s : State) (r : OpRef) : Nat → State
  | 0 => s.holdOp r
  | n + 1 =>
    match s.op r with
    | none => s
    | some o =>
      let rest := o.d.len - o.seg
      if rest = 0 then s.moveEnds o
      else
        let (rs, ks, as) := s.moveSrc o rest
        let (rd, kd, ad) := s.moveDst o rest
        let u := min (min rest (min (segRoom ks as rest) (segRoom kd ad rest))) (min (rs.usable rest) (rd.usable rest))
        if u = 0 then
          (if rd.refused kd ∧ !rs.refused ks then s.meetRange o rd true fun t st => t.moveFails o st
           else if rs.usable rest = 0 then s.meetRange o rs false fun t st => t.moveFails o st
           else s.meetRange o rd true fun t st => t.moveFails o st)
        else if !s.mayPut (s.opEng o) kd ad u then s.holdOp r
        else
          let held := if kd then [] else s.holdRange (s.opEng o) ad u .write
          let s := s.updOp r fun y => { y with xl := y.xl ++ held }
          let o := { o with xl := o.xl ++ held }
          match s.gather o ks as u with
          | .data t bs =>
            (match t.movePut o bs with
             | some t => t.moveGo r n
             | none => t.holdOp r)
          | .reads t => t
          | .wait => s.holdOp r

/-- Rounds a move can take. -/
def Op.moveFuel (o : Op) : Nat := 2 * (o.d.len / pageSize) + 6

/-- The bytes that a move read from the host have arrived. -/
def State.moveGathered (s : State) (o : Op) : State :=
  match s.movePut o o.bytes with
  | some t => t.moveGo o.ref o.moveFuel
  | none => (s.holdOp o.ref).moveGo o.ref o.moveFuel

/-- COPY (R124). -/
def State.copyStart (s : State) (o : Op) : State :=
  if o.d.len = 0 then s.complete o .ok
  else if s.behindParked o then s.parkBehind o
  else
    let first := o.jrec.isNone
    match s.admitLocal o 2 o.d.opx with
    | none => s
    | some (o, s) =>
      let s := if first then s.icAdmit 0 o.ref.fn o.ref.q o.ref.pos else s
      s.moveGo o.ref o.moveFuel

/-! ### Conversions (R71 to R73) -/

/-- CVT_A2F and CVT_F2A of one pointer. -/
def State.cvtOne (s : State) (o : Op) : State :=
  if s.behindParked o then s.parkBehind o
  else
  match s.admitLocal o 2 o.d.opx with
  | none => s
  | some (o, s) =>
    if o.d.opcode = 0x08 then
      match s.cvtA2f o.ref.fn o.d.opx with
      | some (fga, key) => s.complete o .ok 0 fga key
      | none => s.complete o .notConvertible
    else
      match s.cvtF2a o.ref.fn o.d.opx o.d.rkey with
      | some ao => s.complete o .ok 0 ao
      | none => s.complete o .notConvertible

/-- Converts the elements at hand, in index order, and writes them: the state with the progress, or none where the output array cannot
take them. -/
def State.cvtPut (s : State) (o : Op) (bs : List Byte) : Option State :=
  let (ni, no) := cvtSizes o.d.opcode
  let n := bs.length / ni
  let r := if o.d.opcode = 0x0A then s.a2fArray o.ref.fn n bs else s.f2aArray o.ref.fn n bs
  let a := o.d.opx + no * o.seg
  if s.localRange (s.opEng o) o.d.dkind a r.1.length .write ≠ .ok ∨ !s.mayPut (s.opEng o) o.d.dkind a r.1.length then none
  else
    (s.putLocal (s.opEng o) o.d.dkind a r.1).map fun t =>
      t.updOp o.ref fun y => { y with seg := o.seg + n, bad := o.bad + r.2, buf := [], xl := [], phase := .engine }

/-- An array conversion goes on as far as it can: the elements whose bytes in both arrays lie before the first problem are converted, then
the problem is dealt with (R90). -/
def State.cvtLoop (s : State) (r : OpRef) : Nat → State
  | 0 => s.holdOp r
  | k + 1 =>
    match s.op r with
    | none => s
    | some o =>
      let (ni, no) := cvtSizes o.d.opcode
      let rest := o.d.len - o.seg
      if rest = 0 then s.completeRef r (if o.bad = 0 then .ok else .notConvertible) o.bad
      else
        let ai := o.d.laddr + ni * o.seg
        let ao := o.d.opx + no * o.seg
        let ri := s.localRange (s.opEng o) o.d.lkind ai (ni * rest) .read
        let ro := s.localRange (s.opEng o) o.d.dkind ao (no * rest) .write
        let ui := ri.usable (ni * rest) / ni
        let near := max 1 (min (segRoom o.d.lkind ai (ni * rest) / ni) (segRoom o.d.dkind ao (no * rest) / no))
        let u := min (min rest near) (min ui (ro.usable (no * rest) / no))
        if u = 0 then
          (if ro.refused o.d.dkind ∧ !ri.refused o.d.lkind then s.meetRange o ro true fun t st => t.completeRef r st o.countNow
           else if ui = 0 then s.meetRange o ri false fun t st => t.completeRef r st o.countNow
           else s.meetRange o ro true fun t st => t.completeRef r st o.countNow)
        else if !s.mayPut (s.opEng o) o.d.dkind ao (no * u) then s.holdOp r
        else
          let held := if o.d.dkind then [] else s.holdRange (s.opEng o) ao (no * u) .write
          let s := s.updOp r fun y => { y with xl := y.xl ++ held }
          let o := { o with xl := o.xl ++ held }
          match s.gather o o.d.lkind ai (ni * u) with
          | .data t bs =>
            (match t.cvtPut o bs with
             | some t => t.cvtLoop r k
             | none => t.holdOp r)
          | .reads t => t
          | .wait => s.holdOp r

/-- An array conversion. -/
def State.cvtGo (s : State) (o : Op) : State := s.cvtLoop o.ref (o.moveFuel + 4)

/-- A part of the input array is at hand. -/
def State.cvtWith (s : State) (o : Op) (bs : List Byte) : State :=
  match s.cvtPut o bs with
  | some t => t.cvtGo o
  | none => (s.holdOp o.ref).cvtGo o

/-- Ends an array conversion with a failure; after a lost record its output array is undefined (R453). -/
def State.cvtFails (s : State) (o : Op) (st : Status) : State :=
  (if st = .unreachable then s.leaveUnknown (s.opEng o) o.d.dkind o.d.opx ((cvtSizes o.d.opcode).2 * o.d.len) else s).completeRef o.ref st o.countNow

/-- CVT_A2F_ARRAY and CVT_F2A_ARRAY. -/
def State.cvtStart (s : State) (o : Op) : State :=
  if s.behindParked o then s.parkBehind o
  else
    match s.admitLocal o 2 o.d.opx with
    | none => s
    | some (o, s) => s.cvtGo o

/-! ### FLUSH_HOST and FENCE_HOST (R109, R110) -/

/-- Whether the device writes to its host for an operation, or may: its completion half where its ring is in host memory, and its data where
they go to host addresses. -/
def State.writesHost (s : State) (o : Op) : Bool :=
  !s.ringInHbm o.ref.fn o.ref.q ||
    (match o.d.opcode with
     | 0x01 => !o.d.dkind
     | 0x0A => !o.d.dkind
     | 0x0B => !o.d.dkind
     | 0x11 => !o.d.lkind
     | 0x13 => !o.d.lkind
     | 0x16 => !o.d.lkind
     | 0x20 => true
     | _ => false)

/-- Whether host writes of operations ahead of an operation in its queue are still to be issued (R109, step 1; log entry 123). An armed entry
that has not fired is not posted yet. -/
def State.hostWritesAhead (s : State) (o : Op) : Bool :=
  let q := s.queue o.ref.fn o.ref.q
  let ahead := fun (r : OpRef) => r.fn == o.ref.fn && r.q == o.ref.q && decide (subMod 32 r.pos q.oldest < subMod 32 o.ref.pos q.oldest)
  (s.ops.any fun x => ahead x.ref && x.phase != .armed && s.writesHost x) ||
    (!s.ringInHbm o.ref.fn o.ref.q && s.heldCpls.any fun h => h.ref.fn == o.ref.fn && h.ref.q == o.ref.q &&
      decide (2 ^ 31 ≤ subMod 32 h.ref.pos o.ref.pos))

/-- Issues the flush read, once the host writes of the operations ahead have been issued; a target that translates to HBM needs none (log
entry 26). -/
def State.flushGo (s : State) (o : Op) : State :=
  if s.hostWritesAhead o then s.holdOp o.ref
  else
  let g := s.opEng o
  match s.localRange g false o.d.laddr 1 .read with
  | .ok =>
    (match s.xlated g o.d.laddr .read with
     | .ok e =>
       let held := s.holdRange g o.d.laddr 1 .read
       let s := s.xlUse g e
       if e.hbm then s.completeRef o.ref .ok
       else if !s.hostOpen o.ref.fn then s.holdOp o.ref
       else
         (s.issueRead e (e.at o.d.laddr) 0 (s.noSnoop e) (.flush o.ref)).updOp o.ref fun y => { y with phase := .flushing, xl := held }
     | _ => s)
  | res => s.meetRange o res false fun t st => t.completeRef o.ref st

/-- FLUSH_HOST: it is admitted, and waits for the host writes ahead of it; every host write that an engine had issued has left already. -/
def State.flushStart (s : State) (o : Op) : State :=
  if s.behindParked o then s.parkBehind o
  else
    match s.admitLocal o 2 o.d.laddr with
    | none => s
    | some (o, s) => s.flushGo o

/-- FENCE_HOST: once every earlier descriptor of the queue has completed and every host read issued before
has returned, those of table walks among them (R110). -/
def State.fenceStart (s : State) (o : Op) : State :=
  let reads := s.tags.any (fun t => t.fn == o.ref.fn && !t.timedOut) || s.walks.any fun k => k.fn == o.ref.fn && k.started && !k.hbm
  let clear := (s.queue o.ref.fn o.ref.q).oldest == o.ref.pos && !reads
  if clear then s.flushStart o else s

end Machine
end Sys2Proof
end

