-- ==== Sys2Proof/Machine/RemoteOps.lean ====
section
/-! DEFINITION. The descriptors of the transport requester (chapter 6): WRITE, READ, SEND, RECV, atomics and turnstile operations,
on a QP or on a target of this node, and armed triggers (R141 to R155, R175, R541). -/

namespace Sys2Proof
namespace Machine

/-- The packet kind of an opcode. -/
def opKind (opcode : Nat) : SltOp :=
  match opcode with
  | 0x10 => .write
  | 0x11 => .readReq
  | 0x12 => .send
  | 0x14 => .fadd
  | 0x15 => .cas64
  | 0x16 => .cas128
  | _ => .tsOp

/-- Rights an opcode needs: R and W. -/
def opRights (d : Desc) : Bool × Bool :=
  match d.opcode with
  | 0x10 => (false, true)
  | 0x11 => (true, false)
  | 0x18 => (true, tsNeedsW d.var)
  | _ => (true, true)

/-- Bytes of the target range. -/
def opSpan (d : Desc) : Nat :=
  match d.opcode with
  | 0x14 => 8
  | 0x15 => 8
  | 0x16 => 16
  | 0x18 => 16
  | _ => d.len

/-- The shape of a notify write (R148): 1 to 64 bytes within one 64-byte line. -/
def notifyOk (d : Desc) : Bool := !d.notify || (decide (1 ≤ d.len ∧ d.len ≤ 64) && d.opx / 64 == (d.opx + (d.len - 1)) / 64)

/-! ### Targets on this node -/

/-- Whether a queue position lies before another. -/
def posBefore (a b : Nat) : Bool := decide (0 < subMod 32 b a ∧ subMod 32 b a < 2 ^ 31)

/-- Whether an operation of a queue was posted before another: in position order, but a second entry when its trigger fired, after the
entries that had started then (R154, log entry 125). -/
def Op.postedBefore (x o : Op) : Bool :=
  match x.triggered, o.triggered with
  | false, false => posBefore x.ref.pos o.ref.pos
  | false, true => posBefore x.ref.pos o.firedAt
  | true, false => !posBefore o.ref.pos x.firedAt
  | true, true => posBefore x.firedAt o.firedAt || (x.firedAt == o.firedAt && posBefore x.ref.pos o.ref.pos)

/-- The operation of the queue on a target of this node that was posted earlier and has not completed (R151). -/
def State.localBefore (s : State) (o : Op) : Option Op :=
  s.ops.find? fun x =>
    x.ref != o.ref && x.ref.fn == o.ref.fn && x.ref.q == o.ref.q && x.phase != .armed && remoteOp x.d.opcode &&
      s.keyTarget x.ref.fn x.d.qp x.d.rkey == .owned && x.postedBefore o

/-- The address of an atomic's target on this node, in space 0. -/
def State.atomicTarget (s : State) (o : Op) : Except Status Nat :=
  match s.localTarget (s.user o.ref.fn) o.d.rkey o.d.opx (opSpan o.d) true true .data with
  | .error st => .error st
  | .ok fga => if fgaSpace fga ≠ 0 then .error .notPermitted else .ok (fgaOff fga)

/-- An atomic on a target of this node. A CAS128 is performed only once its prior value can be written. -/
def State.localAtomic (s : State) (o : Op) (a b : Nat) : State :=
  match s.atomicTarget o with
  | .error st => s.completeRef o.ref st
  | .ok off =>
    let perform := s.atomic (opKind o.d.opcode) off a b
    if s.hbmBusy off (opSpan o.d) then s.holdOp o.ref
    else if o.d.opcode ≠ 0x16 then perform.2.completeRef o.ref .ok 0 perform.1
    else
      match s.localRange (s.opEng o) o.d.lkind (o.d.laddr + casPrior) 16 .write with
      | .ok => if s.mayPut (s.opEng o) o.d.lkind (o.d.laddr + casPrior) 16 then perform.2.priorPut o (leBytes perform.1 16) else s.holdOp o.ref
      | res => s.meetRange o res true fun t st => t.completeRef o.ref st

/-- A turnstile operation on this node. -/
def State.localTs (s : State) (o : Op) : State :=
  match s.localTarget (s.user o.ref.fn) o.d.rkey o.d.opx 16 true (tsNeedsW o.d.var) .turnstile with
  | .error st => s.completeRef o.ref st
  | .ok fga =>
    if fgaOff fga % 16 ≠ 0 then s.completeRef o.ref .badOffset
    else
      let key := if o.d.rkey = 0 then none else some (keyIndex o.d.rkey, keyGen o.d.rkey)
      let (t, ds, w) := s.tsPerform (fgaOff fga / 16) o.d.var o.d.opa o.d.opb (s.user o.ref.fn) (.op o.ref) key
      let t := t.tsEnded ds
      if w then (t.updOp o.ref fun y => { y with phase := .engine }).updJrec o.jrec fun j => { j with state := .waiting } else t

/-- How far the buffer of a CAS128 can be read and written: the result of the first problem, and whether it is one of a write. -/
def State.casRange (s : State) (o : Op) : RangeRes × Bool :=
  match s.localRange (s.opEng o) o.d.lkind o.d.laddr 32 .read with
  | .ok => (s.localRange (s.opEng o) o.d.lkind (o.d.laddr + casPrior) 16 .write, true)
  | r => (r, false)

/-- Reads the operands of a CAS128 from its buffer, and goes on with them; the operation holds the translation of the place where the
prior value goes (R90). A problem of the buffer that is an error is told to k. -/
def State.casGo (s : State) (o : Op) (go : State → Op → Nat → Nat → State) (k : State → Status → State) : State :=
  match s.casRange o with
  | (.ok, _) =>
    let g := s.opEng o
    if !s.mayPut g o.d.lkind (o.d.laddr + casPrior) 16 then s.holdOp o.ref
    else
      let o := if o.d.lkind then o else { o with xl := o.xl ++ s.holdRange g (o.d.laddr + casPrior) 16 .write }
      match (s.updOp o.ref fun y => { y with xl := o.xl }).gather o o.d.lkind o.d.laddr 32 with
      | .data t bs => go t o (leAt bs 0 16) (leAt bs 16 16)
      | .reads t => t
      | .wait => s.holdOp o.ref
  | (res, w) => s.meetRange o res w k

/-- A READ of one 8-byte word of the turnstile space on this node (R50). -/
def State.localReadTs (s : State) (o : Op) (fga : Nat) : State :=
  match s.targetRead fga o.d.len with
  | .error st => s.completeRef o.ref st
  | .ok (t, bs) =>
    match t.localRange (t.opEng o) o.d.lkind o.d.laddr o.d.len .write with
    | .ok =>
      if !t.mayPut (t.opEng o) o.d.lkind o.d.laddr o.d.len then s.holdOp o.ref
      else ((t.putLocal (t.opEng o) o.d.lkind o.d.laddr bs).getD t).completeRef o.ref .ok o.d.len
    | res => s.meetRange o res true fun u st => u.completeRef o.ref st

/-- Continues an operation on a target of this node. -/
def State.localGo (s : State) (o : Op) : State :=
  match o.d.opcode with
  | 0x14 => s.localAtomic o o.d.opa o.d.opb
  | 0x15 => s.localAtomic o o.d.opa o.d.opb
  | 0x18 => s.localTs o
  | 0x16 =>
    (match s.atomicTarget o with
     | .error st => s.completeRef o.ref st
     | .ok _ => s.casGo o State.localAtomic fun t st => t.completeRef o.ref st)
  | _ =>
    let (r, w) := opRights o.d
    match s.localTarget (s.user o.ref.fn) o.d.rkey (o.d.opx + o.seg) (o.d.len - o.seg) r w (if r ∧ !w then .read else .data) with
    | .error st => s.moveFails o st
    | .ok fga =>
      if fgaSpace fga = 2 then { (s.updOp o.ref fun y => { y with phase := .engine }) with dcsIn := s.dcsIn ++ [.op o.ref] }
      else if fgaSpace fga = 1 then s.localReadTs o fga
      else s.moveGo o.ref o.moveFuel

/-- Starts an operation on a target of this node: in the order of the queue, with a record of the emptiest slice. -/
def State.localStart (s : State) (o : Op) : State :=
  match s.localBefore o with
  | some b =>
    (match b.phase with
     | .parked _ => s.parkBehind o
     | _ => s)
  | none =>
    if !notifyOk o.d then s.complete o .badLength
    else
      match s.admitLocal o 0 (s.formed o.ref.fn o.d.qp o.d.rkey o.d.opx) with
      | none => s
      | some (o, s) => (s.winUse (s.opEng o).loc o.d.rkey).localGo o

/-! ### Operations on a QP -/

/-- The transport operation of a descriptor. -/
def Qp.opOf (x : Qp) (r : OpRef) : Option TpOp := x.ops.find? fun o => o.owner == .queue r && !o.ended

/-- Rewrites the transport operation of a descriptor. -/
def State.updTp (s : State) (q : Nat) (r : OpRef) (f : TpOp → TpOp) : State :=
  let x := s.qp q
  s.setQp q { x with ops := x.ops.map fun o => if o.owner = .queue r ∧ !o.ended then f o else o }

/-- Ends the transport operation of a descriptor before anything of it has been answered. -/
def State.tpFails (s : State) (o : Op) (st : Status) : State :=
  match (s.qp o.d.qp).opOf o.ref with
  | some t => s.tpEnd o.d.qp t.alive st
  | none => s.completeRef o.ref st

/-- The part of a WRITE's or SEND's source that is at hand goes to the transport. -/
def State.tpData (s : State) (o : Op) (bs : List Byte) : State :=
  let n := o.seg + bs.length
  let s := s.updTp o.d.qp o.ref fun t => { t with data := t.data ++ bs, avail := n, ready := decide (o.d.len ≤ n) }
  s.updOp o.ref fun y => { y with seg := n, buf := [], xl := [], phase := .engine }

/-- Reads the local buffer of an admitted operation as far as it goes (R90). -/
def State.tpGather (s : State) (r : OpRef) : Nat → State
  | 0 => s.holdOp r
  | n + 1 =>
    match s.op r with
    | none => s
    | some o =>
      let rest := o.d.len - o.seg
      if rest = 0 then s.tpData o []
      else
        let res := s.localRange (s.opEng o) o.d.lkind (o.d.laddr + o.seg) rest .read
        let u := min (min rest (segRoom o.d.lkind (o.d.laddr + o.seg) rest)) (res.usable rest)
        if u = 0 then s.meetRange o res false fun t st => t.tpFails o st
        else
          match s.gather o o.d.lkind (o.d.laddr + o.seg) u with
          | .data t bs => (t.tpData o bs).tpGather r n
          | .reads t => t
          | .wait => s.holdOp r

/-- Marks an admitted operation that needs no more local bytes. -/
def State.tpReady (s : State) (o : Op) (a b : Nat) : State :=
  (s.updTp o.d.qp o.ref fun t => { t with ready := true, a := a, b := b }).updOp o.ref fun y => { y with phase := .engine, buf := [] }

/-- Continues an admitted operation with its local buffer, or with the part of it that is copied again for a retransmission: that of a READ is translated before the request leaves (R90). -/
def State.tpGo (s : State) (o : Op) : State :=
  match o.again with
  | some i => s.copyGo o i
  | none =>
  match o.d.opcode with
  | 0x10 => s.tpGather o.ref o.moveFuel
  | 0x12 => s.tpGather o.ref o.moveFuel
  | 0x11 =>
    let g := s.opEng o
    (match s.localRange g o.d.lkind o.d.laddr o.d.len .write with
     | .ok =>
       if !s.mayPut g o.d.lkind o.d.laddr o.d.len then s.holdOp o.ref
       else
         let held := if o.d.lkind then [] else s.holdRange g o.d.laddr o.d.len .write
         (s.updOp o.ref fun y => { y with xl := y.xl ++ held }).tpReady o 0 0
     | res => s.meetRange { o with seg := 0 } res true fun t st => t.tpFails o st)
  | 0x16 => s.casGo o State.tpReady fun t st => t.tpFails o st
  | _ => s.tpReady o o.d.opa o.d.opb

/-- Whether an operation would be the 65,536th write of its batch (R147). -/
def Qp.batchFull (x : Qp) (d : Desc) : Bool := x.relaxed && d.opcode == 0x10 && !d.notify && decide (65535 ≤ x.batchWrites)

/-- The checks of an operation on a QP before its admission (R142, R147, R148, R159). -/
def State.tpCheck (s : State) (o : Op) : Option Status :=
  let q := s.qp o.d.qp
  let (r, w) := opRights o.d
  let key : Option Status :=
    if o.d.opcode = 0x12 then none
    else
      match s.keyTarget o.ref.fn o.d.qp o.d.rkey with
      | .imported node => (match s.importCheck o.ref.fn node o.d.rkey o.d.opx (opSpan o.d) r w with
          | .error st => some st
          | .ok _ => none)
      | _ => none
  if !q.up then some .qpError
  else if key.isSome then key
  else if !notifyOk o.d then some .badLength
  else if q.batchFull o.d then some .badDescriptor
  else if !s.qpRoute o.d.qp then some .unreachable
  else none

/-- The transport operation that a descriptor asks for. -/
def Op.tpOp (o : Op) : TpOp :=
  { owner := .queue o.ref, kind := opKind o.d.opcode, key := if o.d.opcode = 0x12 then 0 else o.d.rkey,
    off := if o.d.opcode = 0x12 then o.d.opa % 2 ^ 32 else o.d.opx, len := opSpan o.d, var := if o.d.opcode = 0x18 then o.d.var else 0,
    a := o.d.opa, b := o.d.opb, notify := o.d.notify, jrec := o.jrec, ready := false }

/-- An operation that fails before it is admitted, and its batch: a write of it has failed and counts among its writes, or it ends here
(R147, R150, R151). One that ends the batch takes an ALIVE value, which the target misses: what follows is of another batch (log entry
125). -/
def Qp.unsent (x : Qp) (ends : Bool) (st : Status) : Qp :=
  if !x.relaxed then x
  else if ends then { x with batch := x.batch + 1, batchWrites := 0, alive := (x.alive + 1) % 65536 }
  else { x with batchFails := x.batchFails ++ [(x.batch, x.alive, st)], batchWrites := x.batchWrites + 1 }

/-- The status of the first write of the open batch that has failed so far. -/
def Qp.openFail (x : Qp) : Option Status :=
  ((x.batchFails.filter fun f => f.1 == x.batch).foldl (fun (b : Option (Nat × Status)) f =>
    match b with
    | some (a, st) => if aliveBefore f.2.1 a then some f.2 else some (a, st)
    | none => some f.2) none).map (·.2)

/-- Takes the failures at dispatch of earlier entries of the queue into the batches of a QP (R150). -/
def State.takeFailed (s : State) (o : Op) : State :=
  let x := s.queue o.ref.fn o.ref.q
  let y := s.qp o.d.qp
  let mine := fun (e : Nat × Nat × Nat × Bool × Status) =>
    e.2.1 == o.d.qp && posBefore e.1 (if o.triggered then o.firedAt else o.ref.pos)
  let put := fun (y : Qp) (e : Nat × Nat × Nat × Bool × Status) => if e.2.2.1 = y.conn then y.unsent e.2.2.2.1 e.2.2.2.2 else y
  if x.failed.any mine then
    (s.setQueue o.ref.fn o.ref.q { x with failed := x.failed.filter fun e => !mine e }).setQp o.d.qp ((x.failed.filter mine).foldl put y)
  else s

/-- Completes an operation that fails before it is admitted, a notify write with the status of the first write of its batch that has failed so
far (R150); the 65,536th write of a batch leaves the batch as it is (R147). -/
def State.tpRefuse (s : State) (o : Op) (st : Status) : State :=
  let x := s.qp o.d.qp
  let st := if x.up ∧ x.relaxed ∧ o.d.notify then x.openFail.getD st else st
  let s := if !x.up ∨ x.batchFull o.d then s else s.setQp o.d.qp (x.unsent (o.d.notify || o.d.opcode != 0x10) st)
  s.complete o st

/-- Starts an operation on a QP: checked, admitted with a record of its pipeline's slice, and its local buffer read. -/
def State.tpStart (s : State) (o : Op) : State :=
  if ((s.qp o.d.qp).opOf o.ref).isSome then s.tpGo o
  else
    let s := s.takeFailed o
    match s.tpCheck o with
    | some st => s.tpRefuse o st
    | none =>
      if s.behindParked o then s.parkBehind o
      else if !s.mayAdmit o.d.qp then s
      else
        match s.admitOp o (o.d.qp % 4) 0 (if o.d.opcode = 0x12 then 0 else s.formed o.ref.fn o.d.qp o.d.rkey o.d.opx) with
        | none => s
        | some (o, s) => (s.tpAdmit o.d.qp o.tpOp).tpGo o

/-- Starts an operation of the transport requester. -/
def State.remoteStart (s : State) (o : Op) : State :=
  if o.d.opcode = 0x12 ∨ s.keyTarget o.ref.fn o.d.qp o.d.rkey ≠ .owned then s.tpStart o else s.localStart o

/-- RECV: the buffer is posted on its QP (R144). -/
def State.recvStart (s : State) (o : Op) : State :=
  let x := s.qp o.d.qp
  if !x.up then s.complete o .qpError
  else
    (s.setQp o.d.qp { x with recvs := x.recvs ++ [(o.ref, o.d.opa % 2 ^ 32)] }).updOp o.ref fun y => { y with phase := .posted }

/-! ### Armed triggers (R133, R152 to R155) -/

/-- The second entry of a pair, once it has been fetched. -/
def State.secondOf (s : State) (o : Op) : Option Op :=
  (s.op ⟨o.ref.fn, o.ref.q, (o.ref.pos + 1) % 2 ^ 32⟩).filter fun x => x.phase == .armed

/-- An ARM that fails: the second entry shares its status. -/
def State.armFails (s : State) (o sec : Op) (st : Status) : State := (s.complete o st).complete sec st

/-- Arms the trigger: the ARM completes, and a threshold that is met already fires. -/
def State.arm (s : State) (o sec : Op) (c : Trigger) : State :=
  let j : JRec := { role := 3, state := .armed, opcode := 0x30, fn := o.ref.fn, target := if o.d.var = 0 then s.formed o.ref.fn o.d.qp o.d.rkey o.d.opx else 0, rkey := o.d.rkey, pos := o.ref.pos,
                    queue := o.ref.q }
  match s.takeRec s.emptiest j with
  | none => s
  | some (i, s) =>
    let s := s.updOp sec.ref fun y => { y with jrec := some i }
    let s := { s with armed := s.armed ++ [({ second := sec.ref, cond := c } : Armed)] }
    let s := s.complete o .ok
    match c with
    | .threshold n _ _ => s.fireThreshold n
    | .tag _ => s

/-- An ARM whose second entry has completed with the status of a check: it is armed for nothing, and completes (R133, R137; DEDUCED, log
entry 132). -/
def State.armAlone (s : State) (o : Op) : State := if o.alone then s.complete o .ok else s

/-- ARM with VAR 0. -/
def State.armThreshold (s : State) (o : Op) : State :=
  match s.secondOf o with
  | none => s.armAlone o
  | some sec =>
    if s.keyTarget o.ref.fn o.d.qp o.d.rkey ≠ .owned then s.armFails o sec .notPermitted
    else
      match s.localTarget (s.user o.ref.fn) o.d.rkey o.d.opx 16 true false .turnstile with
      | .error st => s.armFails o sec st
      | .ok fga =>
        if fgaOff fga % 16 ≠ 0 then s.armFails o sec .badOffset
        else s.arm o sec (.threshold (fgaOff fga / 16) o.d.opa (if o.d.rkey = 0 then none else some (keyIndex o.d.rkey, keyGen o.d.rkey)))

/-- ARM with VAR 1. -/
def State.armTag (s : State) (o : Op) : State :=
  match s.secondOf o with
  | none => s.armAlone o
  | some sec => s.arm o sec (.tag (o.d.opa % 2 ^ 32))

/-! ### Commands -/

/-- Finds the operation a start command names, if it may start, is of the opcode, and does not stand behind a parked descriptor of its
queue. -/
def State.starting (s : State) (r : OpRef) (opcode : Nat) : Option Op :=
  match s.op r with
  | some o => if o.d.opcode = opcode ∧ s.mayStart o ∧ !s.behindQueue o then some o else none
  | none => none

/-- A descriptor that could start, but for one of the host-port DMA engine that is parked ahead of it in its queue, is parked behind that
one (Table 3.14). -/
def State.startLate (s : State) (r : OpRef) (opcode : Nat) (var : Option Nat) : State :=
  match s.op r with
  | some o =>
    if o.d.opcode = opcode ∧ s.mayStart o ∧ s.behindQueue o ∧ (var.isNone ∨ var = some o.d.var) then s.parkBehind o else s
  | none => s

/-- Runs the start of an operation of an opcode, and of a VAR where one is given, that may start. -/
def State.startOf (s : State) (r : OpRef) (opcode : Nat) (var : Option Nat) (f : State → Op → State) : State :=
  match s.starting r opcode with
  | some o => if var.isNone ∨ var = some o.d.var then f s o else s
  | none => s.startLate r opcode var

end Machine
end Sys2Proof
end

