-- ==== Sys2Proof/Machine/QueueCmds.lean ====
section
/-! DEFINITION. Doorbells, ring reads and the queue registers (R119, R120, R130 to R137), and the invalidation of the privileged
descriptor cache (R135). -/

namespace Sys2Proof
namespace Machine

/-- Whether a queue number lies in the function's allocation (R121). -/
def State.hasQueue (s : State) (fn q : Nat) : Bool := decide (q < (s.alloc fn).qCount)

/-! ### Doorbells (R130, R131) -/

/-- A doorbell write that is not discarded restarts a stopped fetch. -/
def State.bellTaken (s : State) (fn q tail : Nat) : State :=
  let x := s.queue fn q
  let y := if tail = x.tail then x else x.pass tail s.nowNs
  (s.setFlag F.qfStatusStalled false (qObj fn q)).setQueue fn q { y with tries := 0, prefetchStop := false }

/-- DOORBELL (Table 5.7). -/
def State.doorbell (s : State) (fn q t : Nat) : State :=
  let x := s.queue fn q
  let t := t % 2 ^ 32
  if !s.barOpen fn ∨ !s.hasQueue fn q ∨ x.state = .off then s
  else if t = x.tail then s.bellTaken fn q t
  else if subMod 32 t x.oldest ≤ s.ringSize fn q then s.bellTaken fn q t
  else s.setFlag F.qfStatusDbErr true (qObj fn q)

/-! ### Ring reads (R120, R131, R132, R134) -/

/-- Entries beyond TAIL that may be read. -/
def State.prefetch (s : State) (fn q : Nat) : Nat :=
  if s.privileged fn q then 0 else min 32 (s.fld F.qfCfgPrefetch (qObj fn q))

/-- Entries of one read from the fetch position: at most 8, in one page, within the ring's first uncompleted pass. -/
def State.readSize (s : State) (fn q : Nat) (beyond : Bool) : Nat :=
  let x := s.queue fn q
  let at' := subMod 32 x.fetch x.oldest
  let last := subMod 32 x.tail x.oldest + if beyond then s.prefetch fn q else 0
  min (min 8 (last - at')) (min (64 - x.fetch % 64) (s.ringSize fn q - at'))

/-- Whether the fetch position lies below TAIL. -/
def Queue.belowTail (x : Queue) : Bool := decide (subMod 32 x.fetch x.oldest < subMod 32 x.tail x.oldest)

/-- n entries of 64 bytes. -/
def entriesOf (bs : List Byte) : Nat → List (List Byte)
  | 0 => []
  | n + 1 => bs.take 64 :: entriesOf (bs.drop 64) n

/-- What comes of a ring read: entries; nothing yet, while the ring's translation is walked for or the host-port meter or HBM holds the read; or
a failure. -/
inductive RingRead where
  | got (s : State) (es : List (List Byte))
  | later (s : State)
  | failed (s : State) (st : Status)
  deriving DecidableEq, Repr

/-- Takes a ring read of a queue past the function's host-port meter, once: true where it may be issued (R232, R236). -/
def State.ringMeter (s : State) (fn q len : Nat) : State × Bool :=
  let x := s.queue fn q
  if x.granted then (s.setQueue fn q { x with granted := false }, true)
  else if s.heldFor fn (.ring q) then (s, false)
  else s.meterRead fn { addr := 0, len := len, noSnoop := false, use := .ring q }

/-- Reads n entries through a translation of the ring; the access is counted (R98), and charged to the meter whatever comes of it (R232). -/
def State.readRingAt (s : State) (fn q n : Nat) (e : TlbEntry) (a : Nat) (data : Option (List Byte)) : RingRead :=
  let s := (s.xlUse (s.hostEng fn) e)
  let seen := fun (t : State) => t.countPages (t.hostEng fn) a (64 * n) .read
  if e.hbm && s.hbmBusy (e.at a % 2 ^ 44) (64 * n) then .later s
  else if e.hbm then
    match s.spaceCheck 0 (e.at a % 2 ^ 44) (64 * n) with
    | some st => .failed s st
    | none => .got (seen (s.countLines 0x50 (e.at a % 2 ^ 44) (64 * n))) (entriesOf (s.hbmRead (e.at a % 2 ^ 44) (64 * n)) n)
  else
    match s.ringMeter fn q (64 * n), data with
    | (t, false), _ => .later t
    | (t, true), some bs => .got (seen t) (entriesOf bs (min n (bs.length / 64)))
    | (t, true), none => .failed (seen t) .hostReadError

/-- Reads n entries of a ring from the fetch position on. A read of positions beyond TAIL alone is issued only through a translation that is
cached, and never walks (R83, R132). -/
def State.readRing (s : State) (fn q n : Nat) (spec : Bool) (data : Option (List Byte)) : RingRead :=
  let a := s.entryAddr fn q (s.queue fn q).fetch
  let g := s.hostEng fn
  if s.ringInHbm fn q && s.hbmBusy (a % 2 ^ 44) (64 * n) then .later s
  else if s.ringInHbm fn q then
    match s.spaceCheck 0 (a % 2 ^ 44) (64 * n) with
    | some st => .failed s st
    | none => .got (s.countLines 0x50 (a % 2 ^ 44) (64 * n)) (s.hbmEntries fn q n)
  else
    match s.lookup g a .read with
    | .ok e => s.readRingAt fn q n e a data
    | .miss => .later (if spec then s else s.wantWalk fn a { who := .ring q, acc := .read, loc := g.loc })
    | r => if spec then .later s else .failed s r.status

/-- Reads entries and takes them. -/
def State.fetchRing (s : State) (fn q : Nat) (beyond spec : Bool) (data : Option (List Byte)) : State :=
  let n := s.readSize fn q beyond
  if n = 0 then s
  else
    match s.readRing fn q n spec data with
    | .failed t st => t.ringFail fn q st
    | .later t => t
    | .got t es => t.takeEntries fn q es

/-- Whether the slot at the fetch position of a privileged queue has a cached copy. -/
def State.cachedSlot (s : State) (fn q : Nat) : Bool :=
  (AMap.find s.dcache (dcKey q ((s.queue fn q).fetch % s.ringSize fn q))).isSome

/-- Executes the entries below TAIL of a privileged queue: those with a cached copy at once, one without from memory. A fetch of a slot whose
invalidation is in progress waits (R135). -/
def State.fetchPriv (s : State) (fn q : Nat) (data : Option (List Byte)) : State :=
  if !(s.queue fn q).belowTail ∨ s.slotBlocked fn q (s.queue fn q).fetch then s
  else if s.cachedSlot fn q then s.takePriv fn q [[]]
  else
    match s.readRing fn q 1 false data with
    | .failed t st => t.ringFail fn q st
    | .later t => t
    | .got t es => t.takePriv fn q es

/-- DESCRIPTOR_FETCH: a ring read returns entries. The data of a host read are the command's; none is a failed read. -/
def State.descriptorFetch (s : State) (fn q : Nat) (data : Option (List Byte)) : State :=
  let x := s.queue fn q
  if !s.fetching fn q ∨ x.tries ≠ 0 then s
  else if s.privileged fn q then s.fetchPriv fn q data
  else
    s.fetchRing fn q (!x.prefetchStop) (!x.belowTail) data

/-- FETCH_RETRY: the ninth reading with OWN 0 stops the fetch (R131). -/
def State.fetchRetry (s : State) (fn q : Nat) (data : Option (List Byte)) : State :=
  let x := s.queue fn q
  if !s.fetching fn q ∨ x.tries = 0 then s
  else
    let s := s.fetchRing fn q false false data
    let y := s.queue fn q
    if 8 < y.tries then (s.setQueue fn q { y with tries := 0 }).stall fn q else s

/-- PREFETCH_POLL. -/
def State.prefetchPoll (s : State) (fn q : Nat) (data : Option (List Byte)) : State :=
  let x := s.queue fn q
  if !s.fetching fn q ∨ !x.prefetchStop ∨ x.fetch ≠ x.tail ∨ s.prefetch fn q = 0 ∨ s.fld F.qfCfgPollUs (qObj fn q) = 0 then s
  else s.fetchRing fn q true true data

/-! ### QF.CFG (R134, R136) -/

/-- Privileged queues that a function has enabled. -/
def State.privQueues (s : State) (fn : Nat) : Nat :=
  (s.queues.filter fun e => e.1 / 4096 == fn && e.2.state != .off && s.privileged fn (e.1 % 4096)).length

/-- The first check of R136 that fails, for the configuration in the registers. -/
def State.enableCheck (s : State) (fn q : Nat) : Option Status :=
  let o := qObj fn q
  let base := s.fld F.qfBaseBase o * 64
  let bytes := s.ringSize fn q * 64
  if s.privileged fn q ∧ (!s.isManager fn ∨ 16 ≤ s.privQueues fn) then some .notPermitted
  else if s.privileged fn q ∧ 2 < s.fld F.qfCfgSize o then some .badLength
  else if base % bytes ≠ 0 then some .badAddress
  else if s.ringInHbm fn q ∧ (fgaNode base ≠ s.nodeId ∨ fgaSpace base ≠ 0 ∨ !s.ownsBytes fn (fgaOff base) bytes) then some .notPermitted
  else none

/-- Writes the fields of QF.CFG but ENABLE; while the queue is enabled only VECTOR and POLL_US. -/
def State.qfFields (s : State) (fn q v : Nat) (all : Bool) : State :=
  let o := qObj fn q
  let s := (s.setFld F.qfCfgVector (bits v 42 32) o).setFld F.qfCfgPollUs (bits v 31 16) o
  if all then
    ((s.setFld F.qfCfgPrefetch (bits v 13 8) o).setFld F.qfCfgSize (bits v 7 4) o).setFlag F.qfCfgPriv (bit v 2) o
      |>.setFlag F.qfCfgMedium (bit v 1) o
  else s

/-- A write to QF.CFG of the selected queue. -/
def State.qfCfgWrite (s : State) (fn v : Nat) : State :=
  let q := s.fld F.qfSelQueue fn
  let o := qObj fn q
  if !s.hasQueue fn q then s
  else if (s.queue fn q).state ≠ .off then s.qfFields fn q v false
  else
    let s := s.qfFields fn q v true
    if !bit v 0 then s
    else
      match s.enableCheck fn q with
      | some st => s.setFld F.qfStatusCode st.code o
      | none => (s.setFlag F.qfCfgEnable true o).setQueue fn q { state := .active }

/-- QUEUE_ENABLE: a write of v to QF.CFG with ENABLE 1 while the selected queue is Q_OFF. -/
def State.queueEnable (s : State) (fn v : Nat) : State :=
  if s.barOpen fn ∧ bit v 0 ∧ (s.queue fn (s.fld F.qfSelQueue fn)).state = .off then s.qfCfgWrite fn v else s

/-! ### Q.INVAL (R135) -/

/-- Whether an invalidation covers a slot of the cache. -/
def QInval.hits (w : QInval) (key : Nat) : Bool :=
  match w with
  | .slot q i => key == dcKey q i
  | .queue q => key / 256 == q
  | .all => true

/-- A write to Q.INVAL; one while BUSY is 1 is discarded. -/
def State.qInval (s : State) (w : QInval) : State :=
  if s.flag F.qInvalStatusBusy then s.setFlag F.qInvalStatusDiscarded true
  else
    ({ s with qinval := some w, dcache := s.dcache.filter fun e => !w.hits e.1 }).setFlag F.qInvalStatusBusy true

/-- Q_INVAL_DONE. -/
def State.qInvalDone (s : State) : State := ({ s with qinval := none }).setFlag F.qInvalStatusBusy false

end Machine
end Sys2Proof
end

