-- ==== Sys2Proof/Machine/Coll.lean ====
section
/-! DEFINITION. The engine of the Square: how collectives start, move their chunks through the phases of Table 13.6, exchange
transfers with their peers, and end (R360 to R384). -/

namespace Sys2Proof
namespace Machine

/-! ### State of collectives, and keys at their use -/

/-- A collective. -/
def State.coll (s : State) (id : Nat) : Option Coll := AMap.find s.colls id

/-- Writes a collective. -/
def State.setColl (s : State) (id : Nat) (c : Coll) : State := { s with colls := AMap.put s.colls id c }

/-- The check of a keyed FGA of the descriptor at its use (R55, R158, R360): the FGA of the bytes from off on. One that names another node
is looked up among the imports of the function first (R541). -/
def State.keyedFga (s : State) (fn : Nat) (k : KFga) (off len : Nat) (needR needW : Bool) (use : Use) : Except Status Nat :=
  let a := k.fga + off
  let base := (s.win (keyIndex k.key)).base
  let r :=
    if fgaNode a ≠ s.nodeId then
      .error (if k.key ≠ 0 ∧ (s.importOf fn (fgaNode a) (keyIndex k.key)).isNone then .keyInvalid else .notPermitted)
    else if k.key = 0 then s.localTarget (s.user fn) 0 a len needR needW use
    else
      s.localTarget (s.user fn) k.key (offsetIn base a) len needR needW use
  match r with
  | .ok f => if use = .data ∧ fgaSpace f ≠ 0 then .error .notPermitted else .ok f
  | .error st => .error st

/-- The turnstile that a keyed FGA with an index names. -/
def State.keyedTs (s : State) (fn : Nat) (k : KFga) (i : Nat) (needW : Bool) : Except Status Nat :=
  match s.keyedFga fn k (16 * i) 16 true needW .turnstile with
  | .error st => .error st
  | .ok a => if a % 16 ≠ 0 then .error .badOffset else .ok (fgaOff a / 16)

/-- The value of a turnstile that a keyed FGA names. -/
def State.keyedVal (s : State) (fn : Nat) (k : KFga) (i : Nat) : Except Status Nat :=
  match s.keyedTs fn k i false with
  | .error st => .error st
  | .ok n => .ok (s.turn n).value

/-- Whether a keyed FGA is absent. -/
def KFga.none (k : KFga) : Bool := k.fga == 0 && k.key == 0

/-- The offset in an imported window of an address given as keyed FGA and displacement (R159). -/
def State.peerOff (s : State) (fn node : Nat) (k : KFga) (off len : Nat) (needR needW : Bool) : Except Status Nat :=
  let a := k.fga + off
  let base := ((s.importOf fn node (keyIndex k.key)).map (·.base)).getD 0
  match s.importCheck fn node k.key (offsetIn base a) len needR needW with
  | .error st => .error st
  | .ok _ => .ok (a - base)

/-- The check of the QP that the group table names for a peer (R362). -/
def State.collQp (s : State) (c : Coll) (p : GrpNode) : Option Status :=
  let x := s.qp p.qp
  if !s.ownsQp c.fn p.qp ∨ x.roce ∨ !x.relaxed ∨ x.peerNode ≠ p.node then some .notPermitted
  else if x.state ≠ .connected then some .qpError
  else if !s.hasRoute p.node then some .unreachable
  else none

/-- Whether a peer's QP may admit a transfer: a WRITE and a turnstile operation. -/
def State.collRoom (s : State) (p : GrpNode) : Bool := s.mayTake p.qp && decide ((s.qp p.qp).live.length + 2 ≤ 16384)

/-! ### Transfers (R366, R367) -/

/-- Outcome of the wish to send. -/
inductive Sent where
  | ok (s : State)
  | wait
  | fail (st : Status)
  deriving DecidableEq, Repr

/-- Adds 1 to a turnstile of a peer's block. -/
def State.collTs (s : State) (id q : Nat) (p : GrpNode) (off n : Nat) : State :=
  s.tpAsk p.qp { owner := .coll id q, kind := .tsOp, key := p.ts.key, off := off, var := 0x03, a := n }

/-- Sends the transfer of chunk k to a peer: header and body into its landing area, then an addition to its ARRIVE. -/
def State.collSend (s : State) (id : Nat) (c : Coll) (q k : Nat) (bytes : List Byte) : Sent :=
  match c.nodes[q]? with
  | none => .fail .badDescriptor
  | some p =>
    let may := if k < c.d.inflight then .ok true
      else (s.keyedVal c.fn c.d.tsBase (2 * c.mine q + 1)).map fun v => decide (k - c.d.inflight + 1 ≤ v)
    match may with
    | .error st => .fail st
    | .ok false => .wait
    | .ok true =>
      match s.collQp c p with
      | some st => .fail st
      | none =>
        if !s.collRoom p then .wait
        else
          match s.peerOff c.fn p.node p.land 0 (c.np * c.d.inflight * c.slotBytes) false true,
              s.peerOff c.fn p.node p.ts (32 * c.theirs q) 16 true true with
          | .error st, _ => .fail st
          | _, .error st => .fail st
          | .ok a, .ok b =>
            let s := s.tpAsk p.qp { owner := .coll id q, kind := .write, key := p.land.key,
                                      off := a + c.landAt k (c.theirs q), len := bytes.length, data := bytes }
            .ok (s.collTs id q p b 1)

/-- Whether a peer's transfers up to a number have landed, and HBM holds no accesses to the landing area. -/
def State.arrived (s : State) (c : Coll) (q n : Nat) : Except Status Bool :=
  (s.keyedVal c.fn c.d.tsBase (2 * c.mine q)).map fun v =>
    decide (n ≤ v % 2 ^ 63) && !s.hbmBusy (fgaOff c.d.landing.fga) (c.np * c.d.inflight * c.slotBytes)

/-- Bytes of the landing area that a transfer with a W is read from: its slot, or more where what it carries is longer than a slot: the
whole chunk of a broadcast, or partials of FP64 of more than 128 bits (log entry 17). -/
def Coll.landLen (c : Coll) (nelem w : Nat) : Nat :=
  if c.d.kind = 4 then max c.slotBytes (64 + c.d.inFmt.bufBytes nelem)
  else if c.d.inFmt = .fp64 ∧ 128 < w then max c.slotBytes (64 + w * nelem / 8 + (nelem + 1) / 2)
  else c.slotBytes

/-- The body of a landed transfer, after its header has been compared (R369). -/
def State.collRecv (s : State) (c : Coll) (q k phase nelem first : Nat) : Except Status (List Byte) :=
  match s.keyedFga c.fn c.d.landing (c.landAt k (c.mine q)) c.slotBytes false false .data with
  | .error st => .error st
  | .ok a =>
    let h := s.hbmRead (fgaOff a) 64
    if !c.headerOk h k q phase nelem first then .error .collMismatch
    else
      let n := c.landLen nelem (leAt h 24 2)
      (s.keyedFga c.fn c.d.landing (c.landAt k (c.mine q)) n false false .data).map fun a => s.hbmRead (fgaOff a) n

/-! ### Outcomes of a stage -/

/-- What trying a chunk's stage gives: the state, whether something moved, and the failure with its peer. -/
structure CRes where
  s : State
  adv : Bool := false
  fail : Option (Status × Option Nat) := none

/-- Rewrites a chunk of a collective. -/
def State.setChunk (s : State) (id : Nat) (k : Chunk) : State :=
  match s.coll id with
  | none => s
  | some c => s.setColl id { c with chunks := c.chunks.map fun x => if x.c = k.c then k else x }

/-- Sends to those peers that can be sent to and have not been, as code × 65536 + rank; the chunk goes to a stage when all
have been. -/
def State.sendPhase (s : State) (id : Nat) (c : Coll) (k : Chunk) (code next : Nat) (peers : List Nat)
    (bytes : Nat → List Byte) : CRes :=
  let (s, k, f) := peers.foldl (fun (acc : State × Chunk × Option (Status × Option Nat)) q =>
    let (s, k, f) := acc
    if f.isSome ∨ k.done.contains (code * 65536 + q) then acc
    else
      match s.collSend id c q k.c (bytes q) with
      | .ok t => (t, { k with done := k.done ++ [code * 65536 + q] }, none)
      | .wait => acc
      | .fail st => (s, k, some (st, some q))) (s, k, none)
  let all := peers.all fun q => k.done.contains (code * 65536 + q)
  let k := if all ∧ f.isNone then { k with stage := next } else k
  { s := s.setChunk id k, adv := all && f.isNone, fail := f }

/-- Takes what has landed from those peers it has not been taken from: count is the number of transfers expected of each. -/
def State.recvPhase (s : State) (c : Coll) (k : Chunk) (code phase count : Nat) (peers : List Nat)
    (want : Nat → Nat × Nat) (take : Chunk → Nat → List Byte → Chunk) : Chunk × Option (Status × Option Nat) :=
  peers.foldl (fun (acc : Chunk × Option (Status × Option Nat)) q =>
    let (k, f) := acc
    if f.isSome ∨ k.done.contains (code * 65536 + q) then acc
    else
      match s.arrived c q count with
      | .error st => (k, some (st, some q))
      | .ok false => acc
      | .ok true =>
        match s.collRecv c q k.c phase (want q).1 (want q).2 with
        | .error st => (k, some (st, some q))
        | .ok bs => (take { k with done := k.done ++ [code * 65536 + q] } q bs, none)) (k, none)

/-- Finishes a receiving phase: the chunk goes to a stage when all peers have been taken from. -/
def State.recvDone (s : State) (id code next : Nat) (peers : List Nat) (r : Chunk × Option (Status × Option Nat)) : CRes :=
  let all := peers.all fun q => r.1.done.contains (code * 65536 + q)
  let ok := all && r.2.isNone
  { s := s.setChunk id (if ok then { r.1 with stage := next } else r.1), adv := ok, fail := r.2 }

/-! ### Inputs and outputs -/

/-- Whether input l may be read up to its chunk k (R365). -/
def State.inReady (s : State) (c : Coll) (l k : Nat) : Except Status Bool :=
  let e := c.entry l
  if e.inTs.none then .ok true
  else (s.keyedVal c.fn e.inTs 0).map fun v => decide (c.d.inThresh + k + 1 ≤ v)

/-- Whether every span of a buffer passes its check. -/
def State.spansOk (s : State) (fn : Nat) (k : KFga) (write : Bool) : List (Nat × Nat) → Option Status
  | [] => none
  | (a, n) :: r =>
    match s.keyedFga fn k a n (!write) write .data with
    | .error st => some st
    | .ok _ => s.spansOk fn k write r

/-- Reads elements of input l. -/
def State.readInput (s : State) (c : Coll) (l a n : Nat) : Except Status Piece :=
  let f := c.d.inFmt
  let e := c.entry l
  match s.spansOk c.fn e.inp false (f.spans (c.inElems l) a n) with
  | some st => .error st
  | none => .ok (s.readPieceAt f (fgaOff e.inp.fga) (c.inElems l) a n)

/-- Writes elements to output l from element a on; scaleAt is the place of the first scale. -/
def State.writeOutput (s : State) (c : Coll) (l a : Nat) (p : Piece) (scaleAt : Nat) : Except Status State :=
  let f := c.d.outFmt
  let e := c.entry l
  match s.spansOk c.fn e.out true (f.spansAt (c.outElems l) a p.codes.length scaleAt p.scales.length) with
  | some st => .error st
  | none => .ok (s.writePieceAt f (fgaOff e.out.fga) (c.outElems l) a p scaleAt)

/-- The states of a piece's elements as terms (R372). -/
def Piece.terms (p : Piece) (f : CFmt) : List Elem :=
  (p.codes.zip (List.range p.codes.length)).map fun x => f.term (p.scales.getD ((p.first + x.2) / 32 - p.first / 32) 0) x.1

/-- The inputs of a chunk, or none while one may not be read yet: its turnstile has not come that far (R365), or HBM holds accesses to it. -/
def State.readInputs (s : State) (c : Coll) (k : Nat) : List Nat → Except Status (Option (List Piece))
  | [] => .ok (some [])
  | l :: ls =>
    match s.inReady c l k with
    | .error st => .error st
    | .ok false => .ok none
    | .ok true =>
      if s.hbmBusy (fgaOff (c.entry l).inp.fga) (c.inBytes l) then .ok none
      else
      match s.readInput c l (c.lo k) (c.size k) with
      | .error st => .error st
      | .ok p =>
        match s.readInputs c k ls with
        | .error st => .error st
        | .ok none => .ok none
        | .ok (some ps) => .ok (some (p :: ps))

/-- Writes a list of pieces: output, element, piece, place of its first scale. -/
def State.writePieces (s : State) (c : Coll) : List (Nat × Nat × Piece × Nat) → Except Status State
  | [] => .ok s
  | (l, a, p, sc) :: r =>
    match s.writeOutput c l a p sc with
    | .error st => .error st
    | .ok t => t.writePieces c r

/-- Whether HBM holds accesses to an output. -/
def State.outBusy (s : State) (c : Coll) : Bool :=
  s.hbmHolding && (List.range c.d.nlocal).any fun l => s.hbmBusy (fgaOff (c.entry l).out.fga) (c.outBytes l)

/-! ### The end of a chunk (R365, R367) -/

/-- Adds 1 to OUT_TS; a barrier has no phase G and leaves it (Table 13.6). -/
def State.outSignal (s : State) (c : Coll) : Except Status State :=
  if c.d.outTs.none ∨ c.d.kind = 6 then .ok s
  else
    match s.keyedTs c.fn c.d.outTs 0 true with
    | .error st => .error st
    | .ok n =>
      let (t, ds, _) := s.tsPerform n 0x03 1 0 (s.user c.fn) .engine none
      .ok (t.tsEnded ds)

/-- Returns a credit to a peer. -/
def State.credit (s : State) (id : Nat) (c : Coll) (q : Nat) : Except Status State :=
  match c.nodes[q]? with
  | none => .error .badDescriptor
  | some p =>
    match s.collQp c p with
    | some st => .error st
    | none => (s.peerOff c.fn p.node p.ts (32 * c.theirs q + 16) 16 true true).map fun b => s.collTs id q p b 1

/-- Credits to several peers. -/
def State.credits (s : State) (id : Nat) (c : Coll) : List Nat → Except (Status × Option Nat) State
  | [] => .ok s
  | q :: qs =>
    match s.credit id c q with
    | .error st => .error (st, some q)
    | .ok t => t.credits id c qs

/-- Phase G: writes the pieces, signals OUT_TS, returns credits to the senders and frees the chunk. -/
def State.chunkEnds (s : State) (id : Nat) (c : Coll) (k : Chunk) (senders : List Nat)
    (ws : List (Nat × Nat × Piece × Nat)) : CRes :=
  if (k.c + c.d.inflight < c.chunkCount ∧ senders.any fun q => (c.nodes[q]?).any fun p => (s.collQp c p).isNone && !s.collRoom p) ∨
      s.outBusy c then { s := s }
  else
    match s.writePieces c ws with
    | .error st => { s := s, fail := some (st, none) }
    | .ok s =>
      match s.outSignal c with
      | .error st => { s := s, fail := some (st, none) }
      | .ok s =>
        match (if k.c + c.d.inflight < c.chunkCount then s.credits id c senders else .ok s) with
        | .error f => { s := s, fail := some f }
        | .ok s =>
          let n := (ws.map fun w => w.2.2.1.codes.length).sum
          let s := match s.coll id with
            | some c => s.setColl id { c with chunks := c.chunks.filter fun x => x.c != k.c, complete := c.complete + 1,
                                              elems := c.elems + n }
            | none => s
          { s := s.count c.fn 0x48 0, adv := true }

/-! ### Reductions and barriers (Table 13.6) -/

/-- The states of slice j of a chunk. -/
def Coll.sliceElems (c : Coll) (k : Chunk) (j : Nat) : List Elem :=
  let n := c.size k.c
  (k.elems.drop (c.slice n j)).take (c.slice n (j + 1) - c.slice n j)

/-- A partial as it travels: header and body (R370). -/
def Coll.partialBytes (c : Coll) (k : Chunk) (phase j : Nat) : List Byte :=
  let l := c.sliceElems k j
  let (w, lo, cls, body) := c.d.inFmt.partialBody l
  c.header k.c c.me phase cls w lo l.length (c.slice (c.size k.c) j) ++ body

/-- A piece as it travels. -/
def Coll.pieceBytes (c : Coll) (k : Nat) (phase : Nat) (f : CFmt) (p : Piece) : List Byte :=
  c.header k c.me phase false 0 0 p.codes.length p.first ++ p.body f.width

/-- Takes a partial of slice i into the chunk's state. -/
def Coll.absorb (c : Coll) (k : Chunk) (bs : List Byte) : Chunk :=
  let n := c.size k.c
  let a := c.slice n c.i
  let b := c.slice n (c.i + 1)
  let got := c.d.inFmt.readPartial (leAt bs 24 2) (toSigned 16 (leAt bs 26 2)) (bit (leAt bs 23 1) 0) (b - a) (bs.drop 64)
  { k with elems := k.elems.take a ++ List.zipWith (c.d.inFmt.combine c.d.redop) ((k.elems.drop a).take (b - a)) got ++ k.elems.drop b }

/-- The elements of a chunk, as first and end, that the outputs of a node rank own. -/
def Coll.owned (c : Coll) (k q : Nat) : Nat × Nat :=
  if c.d.kind = 2 then
    let a := q * c.d.nlocal * c.d.count
    let b := a + c.d.nlocal * c.d.count
    (max a (c.lo k) - c.lo k, min b (c.lo k + c.size k) - c.lo k)
  else (0, c.size k)

/-- A piece cut to what a node's outputs own; one that is empty begins where the slice does (log entry 17). -/
def Coll.cutFor (c : Coll) (k q : Nat) (p : Piece) : Piece :=
  let (a, b) := c.owned k q
  let r := p.cut a b
  if r.codes.isEmpty then { first := p.first } else r

/-- First element and number of elements of the result of slice j that this node's outputs own. -/
def Coll.resultWant (c : Coll) (k j : Nat) : Nat × Nat :=
  let n := c.size k
  let (a, b) := c.owned k c.me
  let lo := max a (c.slice n j)
  let hi := min b (c.slice n (j + 1))
  if hi ≤ lo then (0, c.slice n j) else (hi - lo, lo)

/-- What a chunk's pieces write to the outputs, for reductions and broadcasts. -/
def Coll.writes (c : Coll) (k : Chunk) : List (Nat × Nat × Piece × Nat) :=
  let base := c.lo k.c
  (List.range c.d.nlocal).flatMap fun l => k.pieces.map fun e =>
    if c.d.kind = 2 then
      let a := (c.me * c.d.nlocal + l) * c.d.count
      let p := e.2.cut (a - base) (a + c.d.count - base)
      (l, base + p.first - a, p, (base + p.first) / 32 - a / 32)
    else (l, base + e.2.first, e.2, (base + e.2.first) / 32)

/-- Whether an earlier chunk has not yet sent its results: transfers to a rack peer go in the order of their chunks, since the peer
counts them (R367; log entry 77). -/
def Coll.sendsBefore (c : Coll) (k : Chunk) : Bool :=
  !c.rackPeers.isEmpty && c.chunks.any fun x => decide (x.c < k.c ∧ x.stage ≤ 5)

/-- One stage of a chunk of a reduction or barrier. -/
def State.reduceStage (s : State) (id : Nat) (c : Coll) (k : Chunk) : CRes :=
  let n := c.size k.c
  let j := fun q => q % c.r
  let size := fun q => c.slice n (q + 1) - c.slice n q
  let early := s.recvPhase c k 11 1 (2 * k.c + 1) c.rackPeers (fun _ => (size c.i, c.slice n c.i)) fun k _ bs => c.absorb k bs
  match k.stage with
  | 0 =>
    match s.readInputs c k.c ((List.range c.d.nlocal).filter c.reads) with
    | .error st => { s := s, fail := some (st, none) }
    | .ok none => { s := s }
    | .ok (some ps) =>
      let e := (ps.map fun p => p.terms c.d.inFmt).foldl (c.d.inFmt.combines c.d.redop) []
      { s := s.setChunk id { k with elems := e, stage := 1 }, adv := true }
  | 1 =>
    match early with
    | (k, some f) => { s := s.setChunk id k, fail := some f }
    | (k, none) =>
      if c.sendsBefore k then { s := s.setChunk id k }
      else s.sendPhase id c k 1 2 c.rackPeers fun q => c.partialBytes k 1 (j q)
  | 2 => s.recvDone id 11 3 c.rackPeers early
  | 3 => s.sendPhase id c k 2 4 c.hallPeers fun _ => c.partialBytes k 2 c.i
  | 4 =>
    let (k, f) := s.recvPhase c k 12 2 (k.c + 1) c.hallPeers (fun _ => (size c.i, c.slice n c.i)) fun k _ bs => c.absorb k bs
    if (c.hallPeers.all fun q => k.done.contains (12 * 65536 + q)) ∧ f.isNone then
      let (p, fl) := c.d.outFmt.round c.d.scale (c.slice n c.i) (c.sliceElems k c.i)
      let s := match s.coll id with
        | some c => s.setColl id { c with flags := c.flags ||| (if c.d.kind = 6 then 0 else fl.report) }
        | none => s
      { s := s.setChunk id { k with pieces := [(c.i, p)], stage := 5 }, adv := true }
    else { s := s.setChunk id k, fail := f }
  | 5 =>
    let p := AMap.look {} k.pieces c.i
    s.sendPhase id c k 3 6 c.rackPeers fun q => c.pieceBytes k.c 3 c.d.outFmt (c.cutFor k.c q p)
  | _ =>
    let take := fun (k : Chunk) (q : Nat) (bs : List Byte) =>
      let (m, a) := c.resultWant k.c (j q)
      { k with pieces := AMap.put k.pieces (j q) (readPiece c.d.outFmt.width c.d.outFmt.isMx a m (bs.drop 64)) }
    let (k, f) := s.recvPhase c k 13 3 (2 * k.c + 2) c.rackPeers (fun q => c.resultWant k.c (j q)) take
    if (c.rackPeers.all fun q => k.done.contains (13 * 65536 + q)) ∧ f.isNone then
      let r := s.chunkEnds id c k c.peers (if c.d.kind = 6 then [] else c.writes k)
      if r.adv then r else { r with s := r.s.setChunk id k }
    else { s := s.setChunk id k, fail := f }

/-! ### Sums of FP64 (R375) -/

/-- One stage of a chunk of an FP64 sum: its partials are encodings (`leaf64`), which travel as they stand (Table 13.9). -/
def State.treeStage (s : State) (id : Nat) (c : Coll) (k : Chunk) : CRes :=
  let n := c.size k.c
  let codes := k.elems.map Elem.code64
  let send := fun (phase : Nat) => c.header k.c c.me phase false 64 0 n 0 ++ packElems 64 codes
  let got := fun (bs : List Byte) => (List.range n).map fun i => leaf64 (elemAt (bs.drop 64) 64 i)
  match k.stage with
  | 0 =>
    match s.readInputs c k.c (List.range c.d.nlocal) with
    | .error st => { s := s, fail := some (st, none) }
    | .ok none => { s := s }
    | .ok (some ps) =>
      let e := tree64 (clog2 c.d.nlocal) (ps.map fun p => p.codes.map leaf64)
      { s := s.setChunk id { k with elems := e, stage := 1 }, adv := true }
  | 1 =>
    -- children in the order of their rounds, each after the one before it
    match c.children.find? fun q => !k.done.contains (15 * 65536 + q) with
    | none => { s := s.setChunk id { k with stage := 2 }, adv := true }
    | some q =>
      let (k', e) := s.recvPhase c k 15 5 (k.c + 1) [q] (fun _ => (n, 0)) fun k _ bs =>
        { k with elems := List.zipWith add64 k.elems (got bs) }
      { s := s.setChunk id k', adv := k'.done.length != k.done.length, fail := e }
  | 2 => s.sendPhase id c k 5 3 c.parent fun _ => send 5
  | 3 =>
    s.recvDone id 16 4 c.parent (s.recvPhase c k 16 6 (k.c + 1) c.parent (fun _ => (n, 0)) fun k _ bs => { k with elems := got bs })
  | 4 => s.sendPhase id c k 6 5 c.children.reverse fun _ => send 6
  | _ =>
    let p : Piece := { first := 0, codes := codes }
    s.chunkEnds id c k c.peers (c.writes { k with pieces := [(0, p)] })

/-! ### All-gather and broadcast -/

/-- Pieces of the ranks of a node, joined as one body. -/
def joinPieces (ps : List Piece) : Piece :=
  { first := 0, codes := ps.flatMap (·.codes), scales := ps.flatMap (·.scales) }

/-- Cuts a body into m pieces of n elements that begin at an element a of their inputs. -/
def splitPieces (p : Piece) (mx : Bool) (a n m : Nat) : List Piece :=
  let b := if mx then blocksIn a n else 0
  (List.range m).map fun i => { first := 0, codes := (p.codes.drop (i * n)).take n, scales := (p.scales.drop (i * b)).take b }

/-- Reads m pieces from a transfer. -/
def Coll.readPieces (c : Coll) (k m : Nat) (bs : List Byte) : List Piece :=
  let f := c.d.inFmt
  let n := c.size k
  let body := bs.drop 64
  let b := if f.isMx then m * blocksIn (c.lo k) n else 0
  let q := readPiece f.width false 0 (m * n) body
  splitPieces { q with scales := ((body.drop (codeBytes f.width (m * n))).take b).map (·.toNat) } f.isMx (c.lo k) n m

/-- Puts the pieces of some ranks into a chunk. -/
def Chunk.putPieces (k : Chunk) (ranks : List Nat) (ps : List Piece) : Chunk :=
  { k with pieces := (ranks.zip ps).foldl (fun m x => AMap.put m x.1 x.2) k.pieces }

/-- The ranks of a node. -/
def Coll.ranksOf (c : Coll) (q : Nat) : List Nat := (List.range c.d.nlocal).map (q * c.d.nlocal + ·)

/-- The ranks of the nodes of a rack rank, in ascending order. -/
def Coll.columnRanks (c : Coll) (i : Nat) : List Nat := (List.range c.groups).flatMap fun h => c.ranksOf (h * c.r + i)

/-- One stage of a chunk of an all-gather. -/
def State.gatherStage (s : State) (id : Nat) (c : Coll) (k : Chunk) : CRes :=
  let n := c.size k.c
  let f := c.d.inFmt
  let l := c.d.nlocal
  let held := fun (ranks : List Nat) => joinPieces (ranks.map fun r => AMap.look {} k.pieces r)
  match k.stage with
  | 0 =>
    match s.readInputs c k.c (List.range l) with
    | .error st => { s := s, fail := some (st, none) }
    | .ok none => { s := s }
    | .ok (some ps) => { s := s.setChunk id ({ k with stage := 3 }.putPieces (c.ranksOf c.me) ps), adv := true }
  | 3 => s.sendPhase id c k 4 4 c.hallPeers fun _ => c.pieceBytes k.c 4 f (held (c.ranksOf c.me))
  | 4 =>
    s.recvDone id 14 5 c.hallPeers
      (s.recvPhase c k 14 4 (k.c + 1) c.hallPeers (fun _ => (l * n, 0)) fun k q bs => k.putPieces (c.ranksOf q) (c.readPieces k.c l bs))
  | 5 => s.sendPhase id c k 4 6 c.rackPeers fun _ => c.pieceBytes k.c 4 f (held (c.columnRanks c.i))
  | _ =>
    let (k, e) := s.recvPhase c k 14 4 (k.c + 1) c.rackPeers (fun _ => (c.groups * l * n, 0)) fun k q bs =>
      k.putPieces (c.columnRanks (q % c.r)) (c.readPieces k.c (c.groups * l) bs)
    if (c.rackPeers.all fun q => k.done.contains (14 * 65536 + q)) ∧ e.isNone then
      let ws := (List.range l).flatMap fun o => k.pieces.map fun x =>
        (o, x.1 * c.d.count + c.lo k.c, x.2, x.1 * ((c.d.count + 31) / 32) + c.lo k.c / 32)
      let r := s.chunkEnds id c k c.peers ws
      if r.adv then r else { r with s := r.s.setChunk id k }
    else { s := s.setChunk id k, fail := e }

/-- The node rank that holds the root input. -/
def Coll.rootNode (c : Coll) : Nat := c.d.root / c.d.nlocal

/-- Node ranks that send this one a broadcast's chunk: the root across racks, or the node of the root's rack rank. -/
def Coll.castFrom (c : Coll) : List Nat :=
  if c.me = c.rootNode then []
  else if c.i = c.rootNode % c.r then [c.rootNode]
  else [c.g * c.r + c.rootNode % c.r]

/-- One stage of a chunk of a broadcast. -/
def State.castStage (s : State) (id : Nat) (c : Coll) (k : Chunk) : CRes :=
  let f := c.d.inFmt
  let n := c.size k.c
  let col := c.i == c.rootNode % c.r
  let p := AMap.look {} k.pieces 0
  let take := fun (k : Chunk) (_ : Nat) (bs : List Byte) =>
    { k with pieces := [(0, { readPiece f.width f.isMx (c.lo k.c) n (bs.drop 64) with first := 0 })] }
  match k.stage with
  | 0 =>
    match s.readInputs c k.c ((List.range c.d.nlocal).filter c.reads) with
    | .error st => { s := s, fail := some (st, none) }
    | .ok none => { s := s }
    | .ok (some ps) =>
      let pieces := ps.map fun (p : Piece) => ((0 : Nat), { p with first := 0 })
      { s := s.setChunk id { k with pieces := pieces, stage := 3 }, adv := true }
  | 3 => s.sendPhase id c k 4 4 (if c.me = c.rootNode then c.hallPeers else []) fun _ => c.pieceBytes k.c 4 f p
  | 4 =>
    s.recvDone id 14 5 (if col then c.castFrom else [])
      (s.recvPhase c k 14 4 (k.c + 1) (if col then c.castFrom else []) (fun _ => (n, 0)) take)
  | 5 => s.sendPhase id c k 5 6 (if col then c.rackPeers else []) fun _ => c.pieceBytes k.c 4 f p
  | _ =>
    let (k, e) := s.recvPhase c k 14 4 (k.c + 1) c.castFrom (fun _ => (n, 0)) take
    if (c.castFrom.all fun q => k.done.contains (14 * 65536 + q)) ∧ e.isNone then
      let r := s.chunkEnds id c k c.castFrom (c.writes k)
      if r.adv then r else { r with s := r.s.setChunk id k }
    else { s := s.setChunk id k, fail := e }

/-! ### All-to-all (R376) -/

/-- A part has been placed: OUT_TS, credit to its sender, and the counts; one of no elements is no chunk of its block (log entry 17). -/
def State.partPlaced (s : State) (id : Nat) (c : Coll) (q t n : Nat) (remote : Bool) : CRes :=
  match (if n = 0 then .ok s else s.outSignal c) with
  | .error st => { s := s, fail := some (st, none) }
  | .ok s =>
    let back := remote && decide (t + c.d.inflight < (c.partsFrom q).length)
    match (if back then s.credits id c [q] else .ok s) with
    | .error f => { s := s, fail := some f }
    | .ok s =>
      let s := match s.coll id with
        | some c => s.setColl id { c with rcvd := AMap.save 0 c.rcvd q (t + 1), complete := c.complete + (if n = 0 then 0 else 1),
                                          elems := c.elems + n }
        | none => s
      { s := if n = 0 then s else s.count c.fn 0x48 0, adv := true }

/-- Reads the next part for a node rank, once its input is ready. -/
def State.a2aRead (s : State) (c : Coll) (q : Nat) (p : A2aPart) : Except Status (Option Piece) :=
  let a := c.sendAt p.src (q * c.d.nlocal + p.dst) + p.at'
  if p.n = 0 then .ok (some {})
  else
    match s.inReady c p.src ((a + p.n - 1) / c.per) with
    | .error st => .error st
    | .ok false => .ok none
    | .ok true =>
      if s.hbmBusy (fgaOff (c.entry p.src).inp.fga) (c.inBytes p.src) ∨ s.outBusy c then .ok none
      else (s.readInput c p.src a p.n).map some

/-- Places a part of a node rank in its output. -/
def State.a2aPlace (s : State) (id : Nat) (c : Coll) (q t : Nat) (part : A2aPart) (p : Piece) (remote : Bool) : CRes :=
  let a := c.recvAt part.dst (q * c.d.nlocal + part.src) + part.at'
  match s.writeOutput c part.dst a p (a / 32) with
  | .error st => { s := s, fail := some (st, none) }
  | .ok s => s.partPlaced id c q t part.n remote

/-- Sends or copies the next part for a node rank. -/
def State.a2aSend (s : State) (id : Nat) (c : Coll) (q : Nat) : CRes :=
  let t := AMap.look 0 c.sent q
  match (c.partsTo q)[t]? with
  | none => { s := s }
  | some part =>
    match s.a2aRead c q part with
    | .error st => { s := s, fail := some (st, none) }
    | .ok none => { s := s }
    | .ok (some p) =>
      let c' := { c with sent := AMap.save 0 c.sent q (t + 1) }
      if q = c.me then
        if c.recvOf part.dst (c.me * c.d.nlocal + part.src) ≠ c.sendOf part.src (q * c.d.nlocal + part.dst) then
          { s := s, fail := some (.collMismatch, some q) }
        else (s.setColl id c').a2aPlace id c' q t part p false
      else
        match s.collSend id c q t (c.pieceBytes t 4 c.d.inFmt { p with first := 0 }) with
        | .fail st => { s := s, fail := some (st, some q) }
        | .wait => { s := s }
        | .ok u => { s := u.setColl id c', adv := true }

/-- Places the next part that has landed from a node rank. -/
def State.a2aRecv (s : State) (id : Nat) (c : Coll) (q : Nat) : CRes :=
  let t := AMap.look 0 c.rcvd q
  match (c.partsFrom q)[t]? with
  | none => { s := s }
  | some part =>
    match s.arrived c q (t + 1) with
    | .error st => { s := s, fail := some (st, some q) }
    | .ok false => { s := s }
    | .ok true =>
      if s.outBusy c then { s := s }
      else
      match s.collRecv c q t 4 part.n 0 with
      | .error st => { s := s, fail := some (st, some q) }
      | .ok bs =>
        let f := c.d.inFmt
        let a := c.recvAt part.dst (q * c.d.nlocal + part.src) + part.at'
        s.a2aPlace id c q t part { readPiece f.width f.isMx a part.n (bs.drop 64) with first := a } true

/-- The node rank that the next part goes to: block by block in ascending destination order (R376). -/
def Coll.a2aTo (c : Coll) : Option Nat := (List.range c.n).find? fun q => decide (AMap.look 0 c.sent q < (c.partsTo q).length)

/-- One round of an all-to-all: the next part to go, and the next from every node. -/
def State.a2aRound (s : State) (id : Nat) (c : Coll) : CRes :=
  let step := fun (acc : CRes) (f : State → Coll → CRes) =>
    if acc.fail.isSome then acc
    else
      match acc.s.coll id with
      | none => acc
      | some c => let r := f acc.s c; { r with adv := acc.adv || r.adv }
  let first := match c.a2aTo with
    | some q => s.a2aSend id c q
    | none => { s := s }
  (List.range c.n).foldl (fun acc q => if q = c.me then acc else step acc fun s c => s.a2aRecv id c q) first

/-- Whether every part has been sent and placed. -/
def Coll.a2aDone (c : Coll) : Bool :=
  (List.range c.n).all fun q =>
    AMap.look 0 c.sent q == (c.partsTo q).length && (q == c.me || AMap.look 0 c.rcvd q == (c.partsFrom q).length)

/-! ### The end of a collective (R380, R381) -/

/-- Writes the report record, if there is one (Table 13.10); T_START of a COLL that never had a chunk slot is free (log entry 17). -/
def State.collReport (s : State) (c : Coll) (st : Status) (chunk peer : Nat) : State :=
  if c.d.report = 0 ∨ (s.plainCheck c.fn c.d.report 64 true).isSome then s
  else
    let start := match c.start with
      | some t => leBytes t 8
      | none => (List.range 8).map (Config.freeByte s.freeCount)
    ({ s with freeCount := s.freeCount + 1 }).hbmWrite (fgaOff c.d.report)
      (leBytes st.code 1 ++ leBytes c.flags 1 ++ leBytes 0 2 ++ leBytes c.complete 4 ++ leBytes c.elems 8 ++ start ++
        leBytes s.stamp 8 ++ leBytes chunk 4 ++ leBytes peer 2 ++ leBytes 0 26)

/-- The spans of output l whose bytes are undefined when the collective fails: those of elements whose chunk has not completed
(R381). -/
def Coll.undone (c : Coll) (l : Nat) : List (Nat × Nat) :=
  let f := c.d.outFmt
  let t := c.outElems l
  let e := c.complete * c.per
  match c.d.kind with
  | 2 =>
    let a := (c.me * c.d.nlocal + l) * c.d.count
    f.spansAt t (e - a) (t - (e - a)) (max e a / 32 - a / 32) (blocksIn (max e a) (t - (e - a)))
  | 3 => (List.range c.ranks).flatMap fun r =>
      let lo := min e c.d.count
      f.spansAt t (r * c.d.count + lo) (c.d.count - lo) (r * ((c.d.count + 31) / 32) + lo / 32) (blocksIn lo (c.d.count - lo))
  | 5 => (List.range c.n).flatMap fun q =>
      ((c.partsFrom q).drop (AMap.look 0 (if q = c.me then c.sent else c.rcvd) q)).flatMap fun p =>
        if p.dst = l then f.spans t (c.recvAt l (q * c.d.nlocal + p.src) + p.at') p.n else []
  | 6 => []
  | _ => f.spans t e (t - e)

/-- Leaves free values in the undefined bytes of the outputs. -/
def State.collUndefined (s : State) (c : Coll) : State :=
  (List.range c.d.nlocal).foldl (fun s l =>
    (c.undone l).foldl (fun s sp =>
      let o := (c.entry l).out
      match s.keyedFga c.fn o sp.1 sp.2 false true .data with
      | .error _ => s
      | .ok a =>
        let n := s.freeCount
        ({ s with freeCount := n + 1 }).hbmWrite (fgaOff a) ((List.range sp.2).map fun i => Config.freeByte n i)) s) s

/-- Sends an abort to every peer that can be reached. -/
def State.collAborts (s : State) (id : Nat) (c : Coll) (st : Status) : State :=
  c.peers.foldl (fun s q =>
    match c.nodes[q]? with
    | none => s
    | some p =>
      match s.collQp c p, s.peerOff c.fn p.node p.ts (32 * c.theirs q) 16 true true with
      | none, .ok b => s.collTs id q p b (2 ^ 63 + st.code * 2 ^ 48)
      | _, _ => s) s

/-- Takes a collective off and completes its descriptor. -/
def State.collOver (s : State) (id : Nat) (c : Coll) (st : Status) (count : Nat) : State :=
  ({ s with colls := AMap.drop s.colls id }).completeRef c.ref st (min count 0xFFFFFFFF)

/-- Fails a collective; told is whether the failure came from a peer's abort, which is not answered by one. -/
def State.collFail (s : State) (id : Nat) (st : Status) (peer : Option Nat) (told : Bool) : State :=
  match s.coll id with
  | none => s
  | some c =>
    let s := if told ∨ c.n ≤ 1 then s else s.collAborts id c st
    let s := s.collUndefined c
    let s := s.collReport c st c.complete (peer.getD 0xFFFF)
    (s.icDrop 3 c.fn c.ref.q c.ref.pos).collOver id c st 0

/-- Sets the turnstiles of a block to 0 (R367). -/
def State.zeroBlock (s : State) (c : Coll) : Except Status State :=
  if c.n ≤ 1 then .ok s
  else
    match s.keyedTs c.fn c.d.tsBase 0 true, s.keyedTs c.fn c.d.tsBase (2 * c.np - 1) true with
    | .ok a, .ok _ => .ok ((List.range (2 * c.np)).foldl (fun s i => s.setTurn (a + i) { s.turn (a + i) with value := 0 }) s)
    | .error st, _ => .error st
    | _, .error st => .error st

/-- The bytes of the local outputs, output by output. -/
def State.collOutput (s : State) (c : Coll) : List Byte :=
  (List.range c.d.nlocal).flatMap fun l => s.hbmRead (fgaOff (c.entry l).out.fga) (c.outBytes l)

/-- Completes a collective with OK. -/
def State.collFinish (s : State) (id : Nat) (c : Coll) : State :=
  match s.zeroBlock c with
  | .error st => s.collFail id st none false
  | .ok s =>
    let s := s.collReport c .ok 0xFFFFFFFF 0xFFFF
    let s := s.icDone 3 c.fn c.ref.q c.ref.pos (s.collOutput c)
    s.collOver id c .ok ((List.range c.d.nlocal).map c.outBytes).sum

/-! ### The course of a collective -/

/-- The abort that a peer has left in its ARRIVE, if any (R381). -/
def State.collAbort (s : State) (c : Coll) : Option (Status × Nat) :=
  c.peers.findSome? fun q =>
    match s.keyedVal c.fn c.d.tsBase (2 * c.mine q) with
    | .ok v => if bit v 63 then some ((Status.ofCode? (bits v 55 48)).getD .unreachable, q) else none
    | .error _ => none

/-- One stage of a chunk. -/
def State.chunkStage (s : State) (id : Nat) (c : Coll) (k : Chunk) : CRes :=
  if c.d.tree then s.treeStage id c k
  else
    match c.d.kind with
    | 3 => s.gatherStage id c k
    | 4 => s.castStage id c k
    | _ => s.reduceStage id c k

/-- One round over the chunks in ascending order, each behind the one before it (R367). -/
def State.chunkRound (s : State) (id : Nat) : List Nat → Option Nat → Bool → CRes
  | [], _, adv => { s := s, adv := adv }
  | n :: ns, prev, adv =>
    match s.coll id with
    | none => { s := s, adv := adv }
    | some c =>
      match c.chunks.find? fun k => k.c == n with
      | none => s.chunkRound id ns prev adv
      | some k =>
        let free := match prev with
          | none => true
          | some p => decide (k.stage < p)
        if !free then { s := s, adv := adv }
        else
          let r := s.chunkStage id c k
          if r.fail.isSome then r
          else
            let now := (r.s.coll id).bind fun c => (c.chunks.find? fun k => k.c == n).map (·.stage)
            r.s.chunkRound id ns now (adv || r.adv)

/-- The lowest chunk slot that no chunk holds. -/
def Coll.freeSlot (c : Coll) : Nat :=
  ((List.range (c.chunks.length + 1)).find? fun i => !(c.chunks.any fun k => k.slot == i)).getD 0

/-- Begins n chunks, each in the lowest free chunk slot (log entry 17). -/
def Coll.beginN (c : Coll) : Nat → Coll
  | 0 => c
  | n + 1 => ({ c with chunks := c.chunks ++ [{ c := c.next, slot := c.freeSlot }], next := c.next + 1 } : Coll).beginN n

/-- Begins chunks for which there is Square space. -/
def Coll.begin (c : Coll) : Coll := c.beginN (min (c.slots - c.chunks.length) (c.chunkCount - c.next))

/-- Moves a collective on as far as it can go. -/
def State.collGo (s : State) (id : Nat) : Nat → State
  | 0 => s
  | fuel + 1 =>
    match s.coll id with
    | none => s
    | some c =>
      if c.slots = 0 then s
      else
        match (if c.n ≤ 1 then none else s.collAbort c) with
        | some (st, q) => s.collFail id st (some q) true
        | none =>
          if c.d.kind = 5 then
            if c.a2aDone then s.collFinish id c
            else
              let r := s.a2aRound id c
              match r.fail with
              | some (st, p) => r.s.collFail id st p false
              | none => if r.adv then r.s.collGo id fuel else r.s
          else if c.complete = c.chunkCount then s.collFinish id c
          else
            let c := c.begin
            let r := (s.setColl id c).chunkRound id (c.chunks.map (·.c)) none false
            match r.fail with
            | some (st, p) => r.s.collFail id st p false
            | none => if r.adv then r.s.collGo id fuel else r.s

/-! ### Square space (R377) -/

/-- Units of 64 KiB of a chunk. -/
def Coll.unit (c : Coll) : Nat := 2 ^ (c.d.chunkLog - 16)

/-- Units that the collectives of a function hold. -/
def State.squareUsed (s : State) (fn : Nat) : Nat :=
  ((s.colls.filter fun e => e.2.fn == fn).map fun e => e.2.slots * e.2.unit).sum

/-- Gives the collectives of the node the chunk slots that their functions' shares have free, in the order in which they were
started; one that holds more than its share leaves gives back what its chunks do not use. A COLL starts with its first slot (R377). -/
def State.squareGive (s : State) : State :=
  s.colls.foldl (fun s e =>
    match s.coll e.1 with
    | none => s
    | some c =>
      let share := s.squareLimit c.fn
      let used := s.squareUsed c.fn
      let want := min c.d.inflight 48
      let n := if used ≤ share then min want (c.slots + (share - used) / c.unit) else max c.chunks.length (c.slots - (used - share + c.unit - 1) / c.unit)
      s.setColl e.1 { c with slots := n, start := if c.start.isNone && decide (0 < n) then some s.stamp else c.start }) s

/-- Rounds that a collective can take at most in one go. -/
def Coll.fuel (c : Coll) : Nat :=
  8 * c.chunkCount + 64 +
    (if c.d.kind = 5 then ((List.range c.n).map fun q => (c.partsTo q).length + (c.partsFrom q).length).sum else 0)

/-- Moves every collective on. -/
def State.collPump (s : State) : State :=
  if s.colls.isEmpty then s
  else
    let s := s.squareGive
    s.colls.foldl (fun s e => s.collGo e.1 e.2.fuel) s

/-! ### The start (R359 to R361, R384) -/

/-- Reads the count arrays of an all-to-all. -/
def State.readCounts (s : State) (c : Coll) : Except Status Coll :=
  if c.d.kind ≠ 5 then .ok c
  else
    let m := c.ranks
    match c.d.entries.findSome? fun e => s.plainCheck c.fn e.a2a (8 * m) with
    | some st => .error st
    | none =>
      let row := fun (e : CollEntry) (o : Nat) =>
        (List.range m).map fun r => leNat (s.hbmRead (fgaOff e.a2a + 4 * (o + r)) 4)
      .ok { c with sends := c.d.entries.map fun e => row e 0, recvs := c.d.entries.map fun e => row e m }

/-- The group of a collective, from its table (R361). -/
def State.readGroup (s : State) (ref : OpRef) (d : CollDesc) : Except Status Coll :=
  match s.plainCheck ref.fn d.group 16 with
  | some st => .error st
  | none =>
    let h := s.hbmRead (fgaOff d.group) 16
    let n := leAt h 0 2 + 1
    let r := leAt h 2 2 + 1
    let me := leAt h 4 2
    match s.plainCheck ref.fn d.group (16 + 48 * n) with
    | some st => .error st
    | none =>
      let bs := s.hbmRead (fgaOff d.group) (16 + 48 * n)
      let nodes := (List.range n).map (nodeAt bs)
      if 256 < r ∨ n % r ≠ 0 ∨ !groupRsvdOk bs n ∨ !racksOk r nodes ∨ (nodes[me]?.map (·.node)) ≠ some s.nodeId then
        .error .badDescriptor
      else .ok { ref := ref, d := d, r := r, nodes := nodes, me := me }

/-- The first check of a descriptor that fails, up to its group table (R357 to R359). -/
def State.descFails (s : State) (o : Op) (d : CollDesc) (bs : List Byte) : Option Status :=
  if o.d.len ≠ 128 + 64 * d.nlocal then some .badLength
  else if !d.fieldsOk bs then some .badDescriptor
  else if !d.formatsOk then some .formatError
  else if d.unitMissing s.fuses.variant then some .unitAbsent
  else none

/-- The first check that fails of a collective whose group is known (R360, R377, R384). -/
def State.groupFails (s : State) (c : Coll) : Option Status :=
  if c.d.kind = 4 ∧ c.ranks ≤ c.d.root then some .badDescriptor
  else if c.overlaps then some .badDescriptor
  else if c.d.report ≠ 0 ∧ (s.plainCheck c.fn c.d.report 64 true).isSome then some .notPermitted
  else if s.colls.any fun e => e.2.d.comm == c.d.comm && e.2.d.seq == c.d.seq then some .collMismatch
  else if s.squareLimit c.fn < c.unit then some .sqNoSpace
  else none

/-- The checks of a COLL whose descriptor is at hand: the collective that starts, or the status of the first that fails with what is known
of the collective then. -/
def State.collCheck (s : State) (o : Op) (bs : List Byte) : Except (Status × Coll) Coll :=
  let d := CollDesc.ofBytes bs
  match s.descFails o d bs with
  | some st => .error (st, { ref := o.ref, d := d })
  | none =>
    match s.readGroup o.ref d with
    | .error st => .error (st, { ref := o.ref, d := d })
    | .ok c =>
      match s.readCounts c with
      | .error st => .error (st, c)
      | .ok c =>
        match s.groupFails c with
        | some st => .error (st, c)
        | none => .ok c

/-- A COLL that a check refuses fails as R381 says: once its group is known its peers get an abort, and its report is written. -/
def State.collRefuse (s : State) (o : Op) (c : Coll) (st : Status) : State :=
  let s := if c.n ≤ 1 then s else ({ s with nextColl := s.nextColl + 1 }).collAborts s.nextColl c st
  (s.collReport c st 0 0xFFFF).complete { o with jrec := none } st

/-- A COLL whose descriptor is at hand starts, or fails with the status of the check that failed. -/
def State.collLoaded (s : State) (o : Op) (bs : List Byte) : State :=
  match s.collCheck o bs with
  | .error (st, c) => s.collRefuse o c st
  | .ok c =>
    let s := s.icAdmit 3 o.ref.fn o.ref.q o.ref.pos
    let s := s.freeJrec o.jrec
    let s := s.updOp o.ref fun y => { y with phase := .engine, jrec := none, buf := [] }
    { s with colls := AMap.put s.colls s.nextColl c, nextColl := s.nextColl + 1 }

/-- A COLL begins: its descriptor is read, from HBM or by host reads (R359). -/
def State.collBegin (s : State) (o : Op) : State :=
  if o.d.len < 128 ∨ (o.d.len - 128) % 64 ≠ 0 ∨ 128 + 64 * 16 < o.d.len then
    s.complete o .badLength
  else
    match s.localRange (s.opEng o) o.d.lkind o.d.laddr o.d.len .read with
    | .err _ st => s.complete o st
    | .walk _ ha => s.opWalks o ha .read
    | .faults _ pages => s.park o 0 pages false
    | .ok =>
      match s.gather o o.d.lkind o.d.laddr o.d.len with
      | .data t bs => t.collLoaded o bs
      | .reads t => t
      | .wait => s.holdOp o.ref

end Machine
end Sys2Proof
end

