-- ==== Sys2Proof/Machine/Settle.lean ====
section
/-! DEFINITION. What a command sets going inside the device before it ends: owners are told of operations that have ended, held
packets whose turn has come are applied, collectives move on, and packets that may start are sent. -/

namespace Sys2Proof
namespace Machine

/-- A list of n free bytes. -/
def State.freeBytes (s : State) (n : Nat) : List Byte × State :=
  ((List.range n).map (Config.freeByte s.freeCount), { s with freeCount := s.freeCount + 1 })

/-- A remote operation of a queue has ended: its effect on the local buffer, and its completion (R126, R143, R164, R453). -/
def State.queueEnds (s : State) (r : OpRef) (d : Done) : State :=
  match s.op r with
  | none => s
  | some o =>
    if o.d.opcode = 0x16 ∧ d.st = .ok then s.priorPut o (d.data.take 16)
    else
      let s := if o.d.opcode = 0x11 ∧ (d.st = .keyStale ∨ d.st = .unreachable) then s.leaveUnknown (s.opEng o) o.d.lkind o.d.laddr o.d.len else s
      s.completeRef r d.st d.count d.result 0 d.abandoned

/-- Tells the owner of an operation that it has ended. -/
def State.tell (s : State) (d : Done) : State :=
  match d.whom with
  | .tp (.queue r) => s.queueEnds r d
  | .tp (.aptRead fn tag ao) => s.aptPart fn tag ao (if d.st = .ok then .got d.data else .failed d.st)
  | .tp (.aptWrite fn num ao) => s.aptWritten fn num ao d.st
  | .tp (.step _ _) => s
  | .tp (.coll id peer) => if d.st = .ok then s else s.collFail id d.st (some peer) false
  | .tp .none => s
  | .ts (.op r) => s.completeRef r d.st 0 d.result 0 d.abandoned
  | .ts (.packet q psn) =>
    (s.tgtWaitEnds q psn { src := .packet q psn, st := d.st, result := d.result, abandoned := d.abandoned }).tgtDrain q
  | .ts (.step b) => s.stepWaitEnds b d.st
  | .ts .engine => s

/-- Tells the owners of what has ended, in order, at most n. -/
def State.tellAll (s : State) : Nat → State
  | 0 => s
  | n + 1 =>
    match s.dones with
    | [] => s
    | d :: ds => (({ s with dones := ds }).tell d).tellAll n

/-- How many ends can follow from those at hand. -/
def State.endFuel (s : State) : Nat :=
  s.dones.length + s.ops.length + (s.qps.map fun e => e.2.ops.length + e.2.asks.length + e.2.tops.length + e.2.holdArea.length).sum +
    (s.ts.map fun e => e.2.waiters.length).sum + 16

/-- Applies the held packets of every QP whose turn has come. -/
def State.drainQps (s : State) : State :=
  s.qps.foldl (fun t e => if e.2.holdArea.isEmpty then t else t.tgtDrain e.1) s

/-- One round: owners told, held packets applied, collectives and transmission moved on. -/
def State.round (s : State) : State := (s.tellAll s.endFuel).drainQps.collPump.pump

/-- Rounds until nothing has ended that is not told. -/
def State.settleN (s : State) : Nat → State
  | 0 => s
  | n + 1 =>
    let t := s.round
    if t.dones.isEmpty ∧ t.colls.length = s.colls.length then t else t.settleN n

/-- Whether nothing is to be told or to move on: no operation has ended that is not told, and there is no QP and no collective. -/
def State.quiet (s : State) : Bool := s.dones.isEmpty && s.qps.isEmpty && s.colls.isEmpty

/-- What a command sets going inside the device; at the end the table walks that operations have come to wait for start, where there is
room for them (R85). -/
def State.settle (s : State) : State := (if s.quiet then s else s.settleN (s.qps.length + s.colls.length + 4)).startWalks

end Machine
end Sys2Proof
end

