-- ==== Sys2Proof/Machine/Resume.lean ====
section
/-! DEFINITION. How an operation that waited goes on: after a table walk, a replay, or a completion from the host (R86 to R97, R104,
R114), and the commands of address translation. -/

namespace Sys2Proof
namespace Machine

/-! ### Going on, and failing -/

/-- The table that a Block was loading is no longer awaited. -/
def State.tableDropped (s : State) (o : Op) (st : Status) : State :=
  (s.tableFails o st).nextTable o.d.var

/-- Ends an operation that met a failure while it was reading its local buffer or was parked. -/
def State.opFails (s : State) (o : Op) (st : Status) : State :=
  match o.d.opcode with
  | 0x01 => s.moveFails o st
  | 0x0A => s.cvtFails o st
  | 0x0B => s.cvtFails o st
  | 0x20 => s.completeRef o.ref st
  | 0x28 => s.tableDropped o st
  | 0x29 => s.tableDropped o st
  | 0x10 => if ((s.qp o.d.qp).opOf o.ref).isSome then s.tpFails o st else s.moveFails o st
  | 0x11 => if ((s.qp o.d.qp).opOf o.ref).isSome then s.tpFails o st else s.moveFails o st
  | _ => if ((s.qp o.d.qp).opOf o.ref).isSome then s.tpFails o st else s.completeRef o.ref st

/-- A table goes on: the one that its Block is loading is read on, one that waits for its Block goes on waiting, and one that has not reached
its District waits to be started. -/
def State.tableResumes (s : State) (o : Op) : State :=
  let x := s.blk o.d.var
  if x.loading = some o.ref then (s.tableGo o).nextTable o.d.var
  else if x.waiting.contains o.ref then s.updOp o.ref fun y => { y with phase := .engine }
  else s

/-- Takes up an operation again where it stopped; one that has not been admitted waits to be started. -/
def State.resumeOp (s : State) (r : OpRef) : State :=
  let s := s.updOp r fun y => { y with phase := .ready }
  match s.op r with
  | none => s
  | some o =>
    if s.behindParked o then s.parkBehind o
    else
      let s := s.updJrec o.jrec fun j => { j with state := .active }
      match o.d.opcode with
      | 0x20 => s.collBegin o
      | 0x28 => s.tableResumes o
      | 0x29 => s.tableResumes o
      | 0x04 => if o.jrec.isNone then s else s.flushGo o
      | 0x05 => if o.jrec.isNone then s else s.flushGo o
      | 0x0A => if o.jrec.isNone then s else s.cvtGo o
      | 0x0B => if o.jrec.isNone then s else s.cvtGo o
      | 0x01 => if o.jrec.isNone then s else s.moveGo r o.moveFuel
      | _ =>
        if o.jrec.isNone then s
        else if ((s.qp o.d.qp).opOf r).isSome then s.tpGo o
        else s.localGo o

/-- A queue whose parked descriptors have all been taken up again is active (Table 5.11). -/
def State.unparkQueues (s : State) (fn : Nat) : State :=
  let busy := fun (q : Nat) => s.ops.any fun o =>
    o.ref.fn == fn && o.ref.q == q && (match o.phase with | .parked _ => true | _ => false)
  let free := fun (e : Nat × Queue) =>
    if e.1 / 4096 = fn ∧ !busy (e.1 % 4096) then
      (e.1, { e.2 with state := if e.2.state = .parked then .active else e.2.state,
                       before := if e.2.before = .parked then .active else e.2.before })
    else e
  { s with queues := s.queues.map free }

/-- Takes up operations again, in order; PARKED and the queues follow. -/
def State.resumeAll (s : State) (fn : Nat) (rs : List OpRef) : State :=
  let s := rs.foldl (fun t r => t.updOp r fun y => { y with phase := .ready }) s
  ((rs.foldl State.resumeOp s).unparkQueues fn).showParked fn

/-- Takes up parked operations again, in the order in which they parked (R95): those that were parked on a fault are marked as replayed
(Table 5.6), and what was still to be recorded of their faults no longer is. -/
def State.replayOps (s : State) (fn : Nat) (p : Op → Bool) : State :=
  let mine := s.ops.filter p
  let rs := mine.map (·.ref)
  let s := { s with ops := s.ops.map fun o => if p o && o.phase != OpPhase.parked .behind then { o with wasParked := true } else o }
  let waits := (AMap.look [] s.faultQ fn).filter fun it => match it with
    | .fault f => !(f.ref.any fun r => rs.contains r)
    | .close => true
  (s.setFaultQ fn waits).resumeAll fn rs

/-- Whether a WRITE on this node goes to register space 2. -/
def State.writesDcs (s : State) (o : Op) : Bool :=
  match s.localTarget (s.user o.ref.fn) o.d.rkey o.d.opx o.d.len false true .data with
  | .ok fga => fgaSpace fga == 2
  | .error _ => false

/-- The bytes that an operation read from its host are all at hand. -/
def State.gathered (s : State) (o : Op) : State :=
  match o.again with
  | some i => s.copied o i o.bytes
  | none =>
  match o.d.opcode with
  | 0x0A => s.cvtWith o o.bytes
  | 0x0B => s.cvtWith o o.bytes
  | 0x20 => s.collLoaded o o.bytes
  | 0x28 => (s.tableLoaded o o.bytes).nextTable o.d.var
  | 0x29 => (s.tableLoaded o o.bytes).nextTable o.d.var
  | 0x16 =>
    let a := leAt o.bytes 0 16
    let b := leAt o.bytes 16 16
    if ((s.qp o.d.qp).opOf o.ref).isSome then s.tpReady o a b else s.localAtomic o a b
  | 0x10 => if ((s.qp o.d.qp).opOf o.ref).isSome then (s.tpData o o.bytes).tpGather o.ref o.moveFuel
    else if s.writesDcs o then { (s.updOp o.ref fun y => { y with phase := .engine }) with dcsIn := s.dcsIn ++ [.op o.ref] }
    else s.moveGathered o
  | 0x12 => (s.tpData o o.bytes).tpGather o.ref o.moveFuel
  | _ => s.moveGathered o

/-! ### Completions of the host (R104, R112, R114) -/

/-- Ends the operation whose host read or flush read failed (R109): its other reads are no longer wanted. -/
def State.readFails (s : State) (u : TagUse) : State :=
  let r := u.owner
  let s := s.killTags fun t => t.use.owner == r && !t.timedOut
  let held : AMap (List HeldRead) := s.heldReads.map fun (e : Nat × List HeldRead) => (e.1, e.2.filter fun h => !h.use.isOf r)
  let s := { s with heldReads := held.filter fun e => !e.2.isEmpty }
  match s.op r, u with
  | some o, .data _ _ _ => s.opFails o .hostReadError
  | some o, .flush _ => s.completeRef o.ref .hostFlushFailed
  | none, _ => s

/-- The use of a completion that arrived in time for a tag that is wanted; data is none where it reports an error. -/
def State.useData (s : State) (u : TagUse) (data : Option (List Byte)) : State :=
  match data, u with
  | none, u => s.readFails u
  | some _, .flush r => s.completeRef r .ok
  | some bs, .data r off len =>
    let s := s.updOp r fun o => { o with buf := AMap.put o.buf off (padTo bs len) }
    match s.op r with
    | some o => if (s.tagsOf r).isEmpty ∧ (s.heldOf r).isEmpty ∧ o.phase = .gather then s.gathered o else s
    | none => s

/-- The tag of a link that bears a number. -/
def State.tagAt (s : State) (l : LinkId) (n : Nat) : Option Tag :=
  s.tags.find? fun t => t.port == l.port && t.sub == l.sub && t.tag == n

/-- Bits of the Uncorrectable Error Status of AER (log entry 122). -/
def aerCompletionTimeout : Nat := 14
/-- Unexpected Completion. -/
def aerUnexpectedCompletion : Nat := 16

/-- Logs an error in the AER capability of a function (R114). -/
def State.logAer (s : State) (fn i : Nat) : State := s.setFn fn { s.fn fn with aer := putBit (s.fn fn).aer i true }

/-- A completion for a tag that is awaited gives the tag back, but for one of a WEDGED function, whose tags stay out of use (R115). It is used
unless its data are no longer wanted (R112). -/
def State.tagReturns (s : State) (t : Tag) (data : Option (List Byte)) : State :=
  if (s.fn t.fn).state = .wedged then s
  else
    let s := { s with tags := s.tags.filter fun x => x != t }
    (if t.dead then s else s.useData t.use data).tagsFreed ⟨t.port, t.sub⟩

/-- HOST_COMPLETION: a completion for a tag that is not outstanding, or that has timed out, is discarded and logged as an Unexpected
Completion of the tag's function, or of the link's PF (R114). -/
def State.hostCompletion (s : State) (l : LinkId) (n : Nat) (data : Option (List Byte)) : State :=
  let s := s.bwCount (l.port + if l.sub then 4 else 0) false (12 + (data.getD []).length)
  match s.tagAt l n with
  | none => s.logAer (linkPf l) aerUnexpectedCompletion
  | some t => if t.timedOut then s.logAer t.fn aerUnexpectedCompletion else s.tagReturns t data

/-- COMPLETION_TIMEOUT: the tag stays out of use, and the timeout is logged. -/
def State.tagTimeout (s : State) (l : LinkId) (n : Nat) : State :=
  match s.tagAt l n with
  | none => s
  | some t =>
    if t.timedOut then s
    else
      let s := { s with tags := s.tags.map fun x => if x = t then { x with timedOut := true } else x }
      let s := s.logAer t.fn aerCompletionTimeout
      if t.dead then s else s.readFails t.use

/-- TAG_REUSE: a read that waits for a tag takes it; a tag of a WEDGED function stays out of use (R115). -/
def State.tagReuse (s : State) (l : LinkId) (n : Nat) : State :=
  let t : State := { s with tags := s.tags.filter fun t =>
      !(t.port == l.port && t.sub == l.sub && t.tag == n && t.timedOut && (s.fn t.fn).state != .wedged) }
  t.tagsFreed l

/-! ### Walks (R82 to R89) -/

/-- How a walk ended for an access to its page. -/
def XlRes.out (r : XlRes) (acc : Access) : XlOut :=
  match r.need acc with
  | .ok e => .ok e
  | .fault f => .fault f
  | .err st => .err st
  | .miss => .err .xlTableError

/-- The status of a ring access whose translation ended so. -/
def XlOut.status : XlOut → Status
  | .ok _ => .ok
  | .fault _ => .pageFault
  | .err st => st

/-- A completion half that waited for the translation of its ring: it is written, or its write has failed (R137). -/
def State.cplWalked (s : State) (r : OpRef) (out : XlOut) : State :=
  match s.heldCpls.find? fun h => h.ref == r with
  | none => s
  | some h =>
    let s := { s with heldCpls := s.heldCpls.filter fun x => x.ref != r }
    match out with
    | .ok _ => s.landCpl h
    | o => s.ringFail r.fn r.q o.status

/-- A walk has ended for one who waited for it, other than an operation. -/
def State.tellWaiter (s : State) (fn page : Nat) (w : XlWait) (out : XlOut) : State :=
  match w.who with
  | .op _ => s
  | .ring q => (match out with
      | .ok _ => s
      | o => s.ringFail fn q o.status)
  | .cpl r => s.cplWalked r out
  | .faults => (match out with
      | .ok _ => s.ringRun fn
      | _ => s.ringFails fn)
  | .packet q => (s.setQp q { s.qp q with xl := (s.qp q).xl ++ [{ page := page, acc := w.acc, out := out }] }).tgtDrain q

/-- The operations among those that wait. -/
def waitingOps (ws : List XlWait) : List OpRef :=
  ws.filterMap fun w => match w.who with
    | .op r => some r
    | _ => none

/-- Tells those who waited for a walk how it ended: the micro-TLBs of those whom it serves take the translation, operations hold the end
until they issue their accesses, and go on (R85, R89). -/
def State.walkTells (s : State) (fn page : Nat) (ws : List XlWait) (res : XlRes) : State :=
  let fill := fun (t : State) (w : XlWait) => match res.out w.acc with
    | .ok e => t.tlbUse w.loc (.ha e)
    | _ => t
  let hold := fun (t : State) (w : XlWait) => match w.who with
    | .op r => t.updOp r fun y => { y with xl := y.xl ++ [{ page := page, acc := w.acc, out := res.out w.acc }] }
    | _ => t
  let s := ws.foldl hold (ws.foldl fill s)
  ws.foldl (fun t w => t.tellWaiter fn page w (res.out w.acc)) (s.resumeAll fn (waitingOps ws))

/-- The walk in flight for the page of an HA that an access waits for. -/
def State.walkInFlight (s : State) (fn ha : Nat) (acc : Access) : Option Walk :=
  s.walks.find? fun k => k.fn == fn && k.page == ha / 4096 && k.started && !k.ended && (k.waits.isEmpty || k.waits.any fun w => w.acc == acc)

/-- A walk has ended that no invalidation has met: only one that comes to a valid translation with the right leaves anything in a TLB or the
walk cache (R83). A context that was disabled when it started or has been since, or an HA that was or is out of range, ends it with that
status (R89). -/
def State.walkEnds (s : State) (k : Walk) (w : Walked) : State :=
  let res := match k.refused.or (s.haCheck k.fn (k.page * 4096)) with
    | some st => .err st
    | none => w.res
  let served := k.waits.any fun x => match res.out x.acc with
    | .ok _ => true
    | _ => false
  (if served then w.mids.foldl State.walkCachePut s else s).walkTells k.fn k.page k.waits res

/-- No invalidation waits any more for a walk (R86). -/
def State.walkGone (s : State) (fn page : Nat) : State :=
  { s with invals := s.invals.map fun (e : Nat × Inval) => (e.1, { e.2 with walks := e.2.walks.filter fun w => w != (fn, page) }) }

/-- A walk that has come to its end, all of whose reads have left, is over. The result of one that an invalidation has met is discarded
(R86), and those who wait for it have another made. -/
def State.walkOver (s : State) (fn page : Nat) : State :=
  match s.walks.find? fun k => k.fn == fn && k.page == page && k.ended with
  | none => s
  | some k =>
    if !s.walkSent k then s
    else
      let w := s.walked k
      let s := ({ s with walks := s.walks.filter fun x => x != k }).walkGone fn page
      if !k.stale then s.walkEnds k w
      else if k.waits.isEmpty then s
      else { s with walks := s.walks ++ [{ fn := fn, page := page, waits := k.waits }] }

/-- Ends the walks whose last reads have left. -/
def State.walksOver (s : State) : State := (s.walks.filter (·.ended)).foldl (fun t k => t.walkOver k.fn k.page) s

/-- TABLE_WALK_DONE: the walk of a page that is in flight comes to its end; words are the entries read from tables in host memory, none
where a read failed. While the host-port meter holds one of its reads, it is not over (R236). -/
def State.walkDone (s : State) (fn ha : Nat) (acc : Access) (words : List (Option Nat)) : State :=
  match s.walkInFlight fn ha acc with
  | none => s
  | some k =>
    ((s.updWalk k.fn k.page fun x => { x with words := words, ended := true }).walkReads k.fn k.page 5).walkOver k.fn k.page

/-- The walks of a function's host tables that are in flight lose their reads, and are made again when its host may be read (R112). -/
def State.walksBack (s : State) (fn : Nat) : State :=
  let back := fun (k : Walk) => k.fn == fn && k.started && !k.hbm
  let s := (s.walks.filter back).foldl (fun t k => t.walkGone k.fn k.page) s
  { s with walks := s.walks.map fun k => if back k then { fn := k.fn, page := k.page, waits := k.waits } else k }

/-- A host that has crashed is not walked (R97): the operations that wait for its tables park as NOT_PRESENT without entries. -/
def State.walksOrphaned (s : State) (fn : Nat) : State :=
  if !s.noWalk fn then s
  else
    let (mine, rest) := s.walks.partition fun k => k.fn == fn && (!k.started || !k.hbm)
    let rs := mine.flatMap fun k => waitingOps k.waits
    let s := rs.foldl (fun t r => match t.op r with
      | some o => t.park o o.seg [] false
      | none => t) { s with walks := rest }
    s.ringRun fn

/-! ### Invalidation (R86, R87) -/

/-- The key of an engine, which is also its registers' instance. -/
def engKey : XlPort → Nat
  | .xl => 0
  | .xlp pf => pf + 1

/-- The function that an engine's SEL selects, if it may select it (R102). -/
def State.xlSelected (s : State) : XlPort → Option Nat
  | .xl => some (s.fld F.xlSelFn 0)
  | .xlp pf =>
    let fn := 64 * portOf pf + s.fld F.xlSelFn (pf + 1) % 64
    if s.linkOf fn = s.linkOf pf then some fn else none

/-- Every function an engine of scope 2 acts on. -/
def engFns : XlPort → List Nat
  | .xl => List.range 256
  | .xlp pf => (List.range 64).map (64 * portOf pf + ·)

/-- Whether an engine's registers are reached: those of a PF lie in its BAR0. -/
def State.engOpen (s : State) : XlPort → Bool
  | .xl => true
  | .xlp pf => s.isPf pf && s.barOpen pf

/-- Whether the end of a translation that is held is one of a removed entry. -/
def XlDone.inRange (d : XlDone) (fns : List Nat) (lo hi : Nat) : Bool :=
  match d.out with
  | .ok e => (XlEntry.ha e).inRange fns lo hi
  | _ => false

/-- Whether an operation holds a translation of a removed entry. -/
def Op.holds (o : Op) (fns : List Nat) (lo hi : Nat) : Bool := o.xl.any fun d => d.inRange fns lo hi

/-- Whether an operation has translated accesses that it is issuing, rather than waiting to translate. -/
def Op.issuing (o : Op) : Bool :=
  match o.phase with
  | .gather => true
  | .flushing => true
  | .engine => true
  | .prior => true
  | _ => false

/-- A write to INVAL: one while BUSY is 1 is discarded. Cached translations and walk-cache entries go at once; walks in flight, and accesses
that have been translated but not issued, are waited for (R86). -/
def State.invalStart (s : State) (e : XlPort) (fns : List Nat) (lo hi : Nat) : State :=
  let k := engKey e
  if s.flag F.xlInvalStatusBusy k then s.setFlag F.xlInvalStatusDiscarded true k
  else
    let gone := fun (e : TlbEntry) => (XlEntry.ha e).inRange fns lo hi
    let reads := (s.tags.filter fun t => t.via.any gone && !t.timedOut).map fun t => (t.port, t.sub, t.tag, t.use)
    let users := (s.ops.filter fun o => o.issuing && o.holds fns lo hi).map (·.ref)
    let s := { s with invals := AMap.put s.invals k { fns := fns, lo := lo, hi := hi, reads := reads, ops := users,
                                                            walks := (s.walks.filter fun (w : Walk) => w.started && fns.contains w.fn).map fun (w : Walk) => (w.fn, w.page) }
                      ops := s.ops.map fun (o : Op) => if o.issuing then o else { o with xl := o.xl.filter fun d => !d.inRange fns lo hi }
                      qps := s.qps.map fun (e : Nat × Qp) => (e.1, { e.2 with xl := e.2.xl.filter fun d => !d.inRange fns lo hi })
                      walks := s.walks.map fun (w : Walk) => if w.started ∧ fns.contains w.fn then { w with stale := true } else w
                      walkCache := s.walkCache.filter fun e => !fns.contains e.fn }
    (s.setFlag F.xlInvalStatusBusy true k).tlbDrop fns lo hi

/-- INVAL_RANGE, of pages + 1 pages from INVAL_ADDR. -/
def State.invalRange (s : State) (e : XlPort) (pages : Nat) : State :=
  match s.engOpen e, s.xlSelected e with
  | true, some fn =>
    let lo := s.fld F.xlInvalAddrHa (engKey e) * 4096
    s.invalStart e [fn] lo (lo + (pages % 2 ^ 20 + 1) * 4096)
  | _, _ => s

/-- INVAL_FUNCTION. -/
def State.invalFunction (s : State) (e : XlPort) : State :=
  match s.engOpen e, s.xlSelected e with
  | true, some fn => s.invalStart e [fn] 0 (2 ^ 64)
  | _, _ => s

/-- INVAL_ALL. -/
def State.invalAll (s : State) (e : XlPort) : State :=
  if s.engOpen e then s.invalStart e (engFns e) 0 (2 ^ 64) else s

/-- INVAL_DONE: once the walks that were in flight have ended, and the accesses that were translated with removed entries have been issued
and have returned or failed (R86). -/
def State.invalDone (s : State) (e : XlPort) : State :=
  let k := engKey e
  match AMap.find s.invals k with
  | none => s
  | some v =>
    if (s.tags.any fun t => !t.timedOut && v.reads.contains (t.port, t.sub, t.tag, t.use)) ||
        !v.walks.isEmpty ||
        (s.ops.any fun o => v.ops.contains o.ref && o.issuing && o.holds v.fns v.lo v.hi) then s
    else ({ s with invals := AMap.drop s.invals k }).setFlag F.xlInvalStatusBusy false k

/-! ### The fault ring's commands (R93, R95, R96) -/

/-- Whether an operation is one that a replay up to a batch selects. -/
def selected (fn upto : Nat) (o : Op) : Bool :=
  o.ref.fn == fn &&
    (match o.phase with
     | .parked (.batch b) => decide (subMod 16 upto b < 32768)
     | .parked _ => true
     | _ => false)

/-- Closes the open batch if a write of REPLAY names it. -/
def State.closeNamed (s : State) (fn upto : Nat) : State :=
  let b := s.batchOf fn
  if b.isOpen ∧ b.number = upto then s.closeBatch fn else s

/-- REPLAY. -/
def State.replay (s : State) (fn upto : Nat) : State :=
  if !s.barOpen fn then s
  else
    let u := upto % 65536
    let s := s.closeNamed fn u
    s.replayOps fn (selected fn u)

/-- REPLAY_ABORT: the selected ones that are not parked only behind another end, those behind are taken up again. -/
def State.replayAbort (s : State) (fn upto : Nat) : State :=
  if !s.barOpen fn then s
  else
    let u := upto % 65536
    let s := s.closeNamed fn u
    let gone := s.ops.filter fun o => selected fn u o && o.phase != .parked .behind
    let s := gone.foldl (fun t o => t.opFails o .pageFault) s
    s.replayOps fn fun o => o.ref.fn == fn && o.phase == .parked .behind

/-- FAULT_BATCH_TIMEOUT. -/
def State.batchTimeout (s : State) (fn : Nat) : State := s.closeBatch fn

/-! ### Access counters (R98, R99) -/

/-- AC_CLEAR: a write of v to XLF.AC_CTRL with CLEAR 1. -/
def State.acClear (s : State) (fn v : Nat) : State :=
  if !s.barOpen fn ∨ !bit v 1 then s
  else
    let s := ((s.setFld F.xlfAcCtrlThresh (bits v 63 48) fn).setFld F.xlfAcCtrlDecay (bits v 47 44) fn).setFlag F.xlfAcCtrlEnable (bit v 0) fn
    let s := { s with acs := AMap.drop s.acs fn }
    match s.acTable fn with
    | some (a, n) => s.hbmWrite a (List.replicate (2 * n) 0#8)
    | none => s.setFlag F.xlfAcCtrlEnable false fn

/-- AC_DECAY: every counter is halved; a region whose counter falls below the threshold may be hinted again. -/
def State.acDecay (s : State) (fn : Nat) : State :=
  if !s.flag F.xlfAcCtrlEnable fn ∨ s.fld F.xlfAcCtrlDecay fn = 15 then s
  else
    match s.acTable fn with
    | none => s.setFlag F.xlfAcCtrlEnable false fn
    | some (a, n) =>
      let th := s.fld F.xlfAcCtrlThresh fn
      let vals := (List.range n).map fun i => leNat (s.hbmRead (a + 2 * i) 2) / 2
      let st := AMap.look {} s.acs fn
      let keep := st.hinted.filter fun i => decide (th ≤ vals.getD i 0)
      let s := s.hbmWrite a (vals.flatMap fun v => leBytes v 2)
      { s with acs := AMap.save {} s.acs fn { hinted := keep } }

end Machine
end Sys2Proof
end

