-- ==== Sys2Proof/Machine/Windows.lean ====
section
/-! DEFINITION. The window commands of a function (Tables 6.4 to 6.8, R156 to R166) and revocation. -/

namespace Sys2Proof
namespace Machine

/-- The end of a window command (Table 6.4). -/
def State.wincEnds (s : State) (fn : Nat) (st : Status) (key : Nat := 0) : State :=
  let s := (s.setFld F.wincStatusKey key fn).setFld F.wincStatusCode st.code fn
  (s.setFlag F.wincStatusFail (st != .ok) fn).setFlag F.wincStatusBusy false fn

/-- Whether a window counts as held: W_VALID, W_REVOKING or W_DESTROYING. -/
def Window.held (w : Window) : Bool := w.state == .valid || w.state == .revoking || w.state == .destroying

/-- Owned windows that a function holds (WINC.COUNT.WINDOWS). -/
def State.windowsHeld (s : State) (fn : Nat) : Nat := (s.wins.filter fun e => e.2.held && e.2.owner == fn).length

/-- Import records that a function holds (WINC.COUNT.IMPORTS). -/
def State.importsHeld (s : State) (fn : Nat) : Nat := (s.imports.filter fun r => r.fn == fn).length

/-- Whether a function may take one more window or import record (Table 16.4). -/
def State.windowRoom (s : State) (fn : Nat) : Bool := decide (s.windowsHeld fn + s.importsHeld fn < s.windowLimit fn)

/-- The lowest index of the window table, index 0 aside, that is W_FREE. -/
def State.freeWindow (s : State) : Option Nat :=
  (((List.range (s.wins.length + s.imports.length + 1)).map (· + 1)).find? fun i =>
    (s.win i).state == .free && !s.imports.any fun r => r.slot == i).filter fun i => decide (i < winCount)

/-- The number of bytes that BASE and LENGTH of a window are multiples of. -/
def windowUnit : Nat → Nat
  | 0 => 4096
  | 1 => 16
  | _ => 8

/-- Whether a range of space 0 or 1 lies in the function's pages or turnstiles. -/
def State.holdsRange (s : State) (fn space off len : Nat) : Bool :=
  if space = 0 then s.ownsBytes fn off len
  else decide ((s.alloc fn).tsBase * 16 ≤ off ∧ off + len ≤ ((s.alloc fn).tsBase + (s.alloc fn).tsCount) * 16)

/-- The first check of a CREATE that fails, in the order of Table 6.5. -/
def State.windowCheck (s : State) (fn base len : Nat) : Option Status :=
  let sp := fgaSpace base
  let off := fgaOff base
  if fgaNode base ≠ s.nodeId ∨ 2 < sp then some .badSpace
  else if sp = 2 ∧ !s.isManager fn then some .notPermitted
  else if len = 0 ∨ off % windowUnit sp ≠ 0 ∨ len % windowUnit sp ≠ 0 then some .badLength
  else if sp = 2 ∧ (s.extent 2).getD 0 < off + len then some .badOffset
  else if sp ≠ 2 ∧ !s.holdsRange fn sp off len then some .notPermitted
  else if !s.windowRoom fn then some .poolExhausted
  else none

/-- CREATE. -/
def State.winCreate (s : State) (fn : Nat) : State :=
  let base := s.fld F.wincArg0Value fn
  let len := s.fld F.wincArg1Length fn
  match s.windowCheck fn base len with
  | some st => s.wincEnds fn st
  | none =>
    match s.freeWindow with
    | none => s.wincEnds fn .poolExhausted
    | some i =>
      let g := (s.win i).gen
      let w : Window :=
        { state := .valid, gen := g, base := base, len := len, grant := s.fld F.wincArg2Grant fn, w := s.flag F.wincArg2W fn,
          r := s.flag F.wincArg2R fn, owner := fn, grantFn := s.fld F.wincArg2GrantFn fn, grantNode := s.fld F.wincArg2GrantNode fn,
          time := s.stamp }
      (s.setWin i w).wincEnds fn .ok (mkKey i g)

/-! ### Revocation (R164, R166, Table 6.6) -/

/-- Removes the armed triggers that were armed through a key: their second entries complete KEY_STALE (R155). -/
def State.dropArmed (s : State) (i g : Nat) : State :=
  let gone := fun (a : Armed) => match a.cond with
    | .threshold _ _ (some k) => k == (i, g)
    | _ => false
  let hit := s.armed.filter gone
  let s := { s with armed := s.armed.filter fun a => !gone a }
  hit.foldl (fun t a => t.completeRef a.second .keyStale) s

/-- Step 1 of a revocation, and what loses its key with it: waiting turnstile operations and armed triggers. -/
def State.revoke (s : State) (i : Nat) (destroy : Bool) (cmd : Option Nat) (exhausts : Bool) : State :=
  let w := s.win i
  let w' := { w with state := if destroy then .destroying else .revoking, gen := min 1023 (w.gen + 1), time := s.stamp,
                     cmdFn := cmd, exhausts := exhausts }
  let s := ((s.setWin i w').tlbRevoke i).dropArmed i w.gen
  let (s, ds) := s.dropWaiters (fun x => x.key == some (i, w.gen)) .keyStale
  s.tsEnded ds

/-- REVOKE and DESTROY: the command is BUSY until step 4. -/
def State.winRevoke (s : State) (fn key : Nat) (destroy : Bool) : State :=
  let i := keyIndex key
  let w := s.win i
  if i = 0 ∨ winCount ≤ i ∨ w.state = .free then s.wincEnds fn .keyInvalid
  else if w.state ≠ .valid ∨ keyGen key ≠ w.gen then s.wincEnds fn .keyStale
  else if w.owner ≠ fn ∧ !s.isManager fn then s.wincEnds fn .notPermitted
  else
    let last := decide (w.gen = 1023)
    (s.setFlag F.wincStatusBusy true fn).revoke i (destroy || last) (some fn) (!destroy && last)

/-- REVOCATION_DONE: step 4, once nothing that was admitted is left. -/
def State.revocationDone (s : State) (i : Nat) : State :=
  let w := s.win i
  if (w.state ≠ .revoking ∧ w.state ≠ .destroying) ∨ s.draining i then s
  else
    let st : WState := if w.state = .revoking then .valid else if w.gen = 1023 then .retired else .free
    let w' : Window := if st = .free then { gen := w.gen, time := s.stamp } else { w with state := st, time := s.stamp, cmdFn := none, exhausts := false }
    let s := s.setWin i w'
    match w.cmdFn with
    | some fn => s.wincEnds fn (if w.exhausts then .poolExhausted else .ok) (if st = .valid then mkKey i w.gen else 0)
    | none => s

/-- What a function reset does to the windows and import records of a function (R166). -/
def State.resetWindows (s : State) (fn : Nat) : State :=
  let s := s.freeImports fun r => r.fn == fn
  s.wins.foldl (fun t e =>
    if e.2.owner ≠ fn then t
    else if e.2.state = .valid then t.revoke e.1 true none false
    else if e.2.state = .revoking then t.setWin e.1 { e.2 with state := .destroying, gen := min 1023 (e.2.gen + 1), time := t.stamp }
    else t) s

/-! ### Imports (R159, R163) -/

/-- IMPORT: WIN_QUERY goes to the owner; a first import takes a record. -/
def State.winImport (s : State) (fn key : Nat) : State :=
  let v := s.fld F.wincArg0Value fn
  let node := bits v 63 48
  let q := bits v 19 0
  let x := s.qp q
  if !s.ownsQp fn q ∨ x.roce ∨ x.peerNode ≠ node then s.wincEnds fn .notPermitted
  else if !x.up then s.wincEnds fn .qpError
  else
    let busy := fun (s : State) =>
      (s.setFlag F.wincStatusBusy true fn).ctrlOut q { op := .winQuery, key := key, aliveRel := x.relOut }
    match s.importOf fn node (keyIndex key) with
    | some r =>
      let r' := { r with asked := some key, askQp := q }
      busy { s with imports := s.imports.map fun y => if y = r then r' else y }
    | none =>
      match (if s.windowRoom fn then s.freeWindow else none) with
      | none => s.wincEnds fn .poolExhausted
      | some i =>
        let r : Import := { fn := fn, node := node, index := keyIndex key, state := .importing, key := key, qp := q, slot := i,
                            time := s.stamp, asked := some key, askQp := q }
        busy { s with imports := s.imports ++ [r] }

/-- FORGET. -/
def State.winForget (s : State) (fn key : Nat) : State :=
  let node := bits (s.fld F.wincArg0Value fn) 63 48
  match s.importOf fn node (keyIndex key) with
  | none => s.wincEnds fn .keyInvalid
  | some r => (s.freeImports (· == r)).wincEnds fn .ok

/-! ### QUERY (Table 6.2) -/

/-- QUERY: the function's window at the key's index, else its import record with that key, else one of that index. -/
def State.winQueryCmd (s : State) (fn key : Nat) : State :=
  let i := keyIndex key
  let w := s.win i
  let rec1 := (s.imports.find? fun r => r.fn == fn && r.key == key).or (s.imports.find? fun r => r.fn == fn && r.index == i)
  let found : Option (List Byte) := if w.held ∧ w.owner = fn then some (s.windowBytes i) else rec1.map Import.bytes
  match found with
  | none => s.wincEnds fn .keyInvalid
  | some bs =>
    let fga := s.fld F.wincArg0Value fn
    match s.ownHbm fn fga 64 true with
    | some st => s.wincEnds fn st
    | none => (s.hbmWrite (fgaOff fga) bs).wincEnds fn (s.heldBack (fgaOff fga) 64)

/-- A command of the WINC registers: discarded while the BAR is not served or a command is in progress. -/
def State.wincCmd (s : State) (fn : Nat) (f : State → State) : State :=
  if s.barOpen fn ∧ !s.flag F.wincStatusBusy fn then f s else s

end Machine
end Sys2Proof
end

