-- ==== Sys2Proof/Machine/FnReset.lean ====
section
/-! DEFINITION. Function reset and teardown (R67, R84, R113 to R118, R138, R166, R207, R351, R382, R421, R434, R454; Tables 4.11, 4.14
and 16.2), and the crash of a host (R116, Table 4.13). -/

namespace Sys2Proof
namespace Machine

/-- Sets every field of some registers, for the objects lo to lo + n - 1, back to its reset value. -/
def State.resetRange (s : State) (rs : List Reg) (lo n : Nat) : State :=
  let hit := fun (kv : Nat × Nat) =>
    let k := kv.1 / 64
    decide (lo ≤ k / 512 ∧ k / 512 < lo + n) && rs.any fun r => r.ctorIdx == k % 512
  { s with flds := s.flds.filter fun kv => !hit kv }

/-- The end of a function command (R420). -/
def State.fnEnds (s : State) (st : Status) : State :=
  ((s.setFld F.fnStatusCode st.code).setFlag F.fnStatusFail (st != .ok)).setFlag F.fnStatusBusy false

/-! ### The PCIe configuration state (R112, R113, R116) -/

/-- The configuration space of a function as it is after a reset; with it go Bus Master Enable and the MSI-X enables. A PF's reset
clears VF Enable; a VF that is not created then keeps nothing of its configuration space. -/
def State.resetCfg (s : State) (fn : Nat) : State :=
  let f := s.fn fn
  let s := s.setFn fn { state := f.state, crashed := f.crashed, destroy := f.destroy, vfHidden := f.vfHidden }
  if s.isPf fn then
    (s.linkFns (s.linkOf fn)).foldl (fun t v =>
      if t.isPf v then t
      else if (t.fn v).state = .notCreated then t.setFn v {}
      else t.setFn v { t.fn v with vfHidden := true, mse := false }) s
  else s

/-- Sets the hold of a function's queues when it may no longer reach its host: all of them, or those with rings in host memory. -/
def State.holdQueues (s : State) (fn : Nat) (hostOnly : Bool) : State :=
  let hold := fun (e : Nat × Queue) =>
    if e.1 / 4096 = fn ∧ (e.2.state = .active ∨ e.2.state = .parked) ∧ !(hostOnly && s.ringInHbm fn (e.1 % 4096)) then
      (e.1, { e.2 with state := .held, before := e.2.state, granted := false })
    else e
  { s with queues := s.queues.map hold }

/-- No further request goes to the host of a function: completions of the reads outstanding are discarded, the operations that wait
for them are held at their segment (R112). -/
def State.stopHost (s : State) (fn : Nat) (hostOnly : Bool) : State :=
  let s := s.killTags fun t => t.fn == fn && !t.timedOut
  let s := { s with heldReads := AMap.drop s.heldReads fn }
  let back := (s.ops.filter fun o => o.ref.fn == fn && (o.phase == .gather || o.phase == .flushing)).map (·.ref)
  ((back.foldl State.holdOp s).walksBack fn).holdQueues fn hostOnly

/-- What an operation goes on with when its function may reach its host again. -/
def State.reopenHost (s : State) (fn : Nat) : State :=
  if !s.hostOpen fn then s
  else
    let free := fun (e : Nat × Queue) =>
      if e.1 / 4096 = fn ∧ e.2.state = .held then (e.1, { e.2 with state := e.2.before }) else e
    let s := { s with queues := s.queues.map free }
    let (mine, rest) := s.heldCpls.partition fun h => h.ref.fn == fn && !s.cplHeld fn h.ref.q
    let s := mine.foldl State.landCpl { s with heldCpls := rest }
    let prior := s.ops.filter fun o => o.ref.fn == fn && o.phase == .prior
    let s := prior.foldl (fun t o => t.priorPut o o.bytes) s
    (s.resumeAll fn ((s.ops.filter fun o => o.ref.fn == fn && o.phase == .ready && o.jrec.isSome).map (·.ref))).ringRun fn

/-! ### Steps 1 to 4 of Table 4.11 -/

/-- The bytes of a completion half whose status is ABORTED_BY_RESET. -/
def abortedHalf (bs : List Byte) : List Byte := BitVec.ofNat 8 Status.abortedByReset.code :: bs.drop 1

/-- Takes off the collectives of a function (R382). -/
def State.dropColls (s : State) (fn : Nat) : State := { s with colls := s.colls.filter fun e => e.2.fn != fn }

/-- Disposes of the descriptors of a function (R138): the completion half of one that has started is written where its ring is in
HBM; the others leave nothing. A COLL that completes so counts as failed (Table 13.12). -/
def State.dropOps (s : State) (fn : Nat) : State :=
  let mine := s.ops.filter fun o => o.ref.fn == fn && o.started
  let held := s.heldCpls.filter fun h => h.ref.fn == fn
  let s := { s with ops := s.ops.filter fun o => o.ref.fn != fn
                    heldCpls := s.heldCpls.filter fun h => h.ref.fn != fn
                    armed := s.armed.filter fun a => a.second.fn != fn }
  let s := mine.foldl (fun t o =>
    if t.ringInHbm fn o.ref.q then
      let t := if o.d.opcode = 0x20 then t.collCount fn false else t
      t.writeCpl o.ref (cplHalf o .abortedByReset o.countNow 0 0 t.stamp false) false
    else t) s
  held.foldl (fun t h => if t.ringInHbm fn h.ref.q then t.writeCpl h.ref (abortedHalf h.bytes) false else t) s

/-- The sequencers of a function's Blocks issue nothing from now on (`State.seqAt`): a waiting TS_WAIT and the tables that load or wait are
dropped, what is outstanding drains, and STATE stays as it is until the Block is cleared (R351, Table 12.5). -/
def State.haltBlocks (s : State) (fn : Nat) : State :=
  { s with blks := s.blks.map fun e =>
      if s.blkFn e.1 = some fn ∧ e.2.state ≠ .out then
        (e.1, { e.2 with tsWait := none, start := none, loading := none, waiting := [] })
      else e }

/-- The QPs of a function leave the connected state and become free; one in the connected state first sends RESET_NOTICE (R207, Table 7.6). -/
def State.dropQps (s : State) (fn : Nat) : State :=
  s.qps.foldl (fun t e =>
    if e.2.state = .free ∨ e.2.owner ≠ fn then t
    else if e.2.up then
      let x := t.qp e.1
      let t := if x.roce then t else t.leave e.1 { op := .resetNotice, aliveRel := x.relOut }
      let t := t.qpLeaves e.1 .abortedByReset
      let y := t.qp e.1
      let t := t.setQp e.1 { y with state := .error }
      (t.lastQpGone { node := x.peerNode, fn := x.peerFn }).freeQpCtx e.1
    else t.freeQpCtx e.1) s

/-- Retires the Journal records that are left of a function, counting all that it had (R454). -/
def State.retireJrecs (s : State) (fn n : Nat) : State :=
  ({ s with jnl := s.jnl.filter fun e => e.2.fn != fn }).countSat F.jnlCntAborted 0 n

/-- Accepts a function reset (Table 4.11, steps 1 to 4). -/
def State.fnReset (s : State) (fn : Nat) (destroy : Bool) : State :=
  let f := s.fn fn
  if f.state ≠ .active ∧ f.state ≠ .orphaned then s
  else
    let recs := (s.jnl.filter fun e => e.2.fn == fn).length
    let s := s.setFn fn { f with state := .resetting, crashed := false, destroy := destroy }
    let s := (s.aptAbort fn).killTags fun t => t.fn == fn
    let s := { s with heldReads := AMap.drop s.heldReads fn,
                      walks := s.walks.filter (fun k => k.fn != fn), faultQ := AMap.drop s.faultQ fn }
    let s := (((s.dropColls fn).dropOps fn).haltBlocks fn).resetWindows fn
    let me := s.user fn
    let (s, _) := s.dropWaiters (fun w => w.user == me && (match w.src with | .packet _ _ => false | _ => true)) .abortedByReset
    let s := s.dropQps fn
    let (s, ds) := s.abandonLocks (· == me)
    ((s.tsEnded ds).retireJrecs fn recs).showParked fn

/-! ### Steps 5 to 7 -/

/-- Blocks that a function holds. -/
def State.blocksOf (s : State) (fn : Nat) : List Nat := (s.ten.blocks.filter fun e => e.2 == fn).map (·.1)

/-- Integrity channels that a function holds, in ascending device order. -/
def State.chansOf (s : State) (fn : Nat) : List Nat := (s.ten.chans.filter fun e => e.2 == fn).map (·.1)

/-- Whether a reset still waits: for a tag that neither returned nor timed out, for a window that drains, or for a memory step. -/
def State.resetWaits (s : State) (fn : Nat) : Bool :=
  (s.tags.any fun t => t.fn == fn && !t.timedOut) ||
    (s.wins.any fun e => e.2.owner == fn && (e.2.state == .revoking || e.2.state == .destroying)) ||
    (s.blocksOf fn).any fun b => !(s.blk b).outs.isEmpty

/-- The registers of a function that a reset sets back. The staged message and the control of its Kiosk are kept (R434), and so are
those of its host port. -/
def fnRegs : List Reg :=
  [.aptCtrl, .aptIndex, .aptEntryHi, .aptEntryLo, .aptStatus, .aptErrLog, .aptErrCount, .xlCtxRoot, .xlCtxCtrl, .xlfFbBase, .xlfFbCtrl,
   .xlfFbTail, .xlfFbHead, .xlfFbStatus, .xlfAcCtrl, .xlfAcTable, .xlfAcRange, .qfSel, .wincArg0, .wincArg1, .wincArg2, .wincStatus,
   .qpcArg0, .qpcStatus, .qpcCount, .seqfSel, .sqfCnt, .keyfArg0, .keyfArg1, .keyfStatus,
   .telfCtrl]

/-- The registers of the queues of a function. -/
def queueRegs : List Reg := [.qfBase, .qfCfg, .qfPos, .qfStatus, .qfSample, .qfSampleMax, .qfSampleSum]

/-- The positions of a function's Kiosk, if it has one, become 0, and RESYNC is set (R434). -/
def State.resyncKiosk (s : State) (fn : Nat) : State :=
  let s := match s.kiosk fn with
    | none => s
    | some k =>
      let k' := { k with reqTail := 0, reqHead := 0, rspTail := 0, rspHead := 0 }
      { s with ten := { s.ten with kiosks := AMap.put s.ten.kiosks fn k' } }
  (s.resetRange [.kskRxData] (fn * 8) 8).setFlag F.kskStatusResync true fn

/-- Releases and clears the Blocks of a function (R309, R326). -/
def State.clearBlocks (s : State) (bs : List Nat) : State :=
  bs.foldl (fun t b => (t.releaseAll b true).clearBlk b) s

/-- Step 6 of Table 4.11: the state of the function is cleared. -/
def State.clearFn (s : State) (fn : Nat) : State :=
  let s := { s with queues := s.queues.filter (fun e => e.1 / 4096 != fn)
                    ops := s.ops.filter fun o => o.ref.fn != fn
                    apts := AMap.drop s.apts fn
                    batches := AMap.drop s.batches fn
                    acs := AMap.drop s.acs fn
                    walkCache := s.walkCache.filter (fun e => e.fn != fn)
                    faultQ := AMap.drop s.faultQ fn
                    msix := s.msix.filter fun e => e.1 / 2048 != fn }
  let s := s.tlbRemove fun x => match x with
    | .ha e => e.fn == fn
    | .own f _ => f == fn
    | .win _ _ _ _ _ _ => false
  let s := ((s.resetRegs fnRegs fn).resetRange queueRegs (fn * 4096) 4096).resetRange [.telfCntCfg, .telfCnt] (fn * 32) 32
  let s := { s with prot := { s.prot with sets := s.prot.sets.filter (fun e => e.1 / 64 != fn), tagging := AMap.drop s.prot.tagging fn }
                    wins := s.wins.map fun (e : Nat × Window) => (e.1, if e.2.cmdFn = some fn then { e.2 with cmdFn := none } else e.2) }
  let s := (s.chansOf fn).foldl State.icReset s
  let s := (s.clearBlocks (s.blocksOf fn)).resetCfg fn
  let o := shpObj true fn
  let s := s.setShaper o { s.shaper o with credit := ((s.shaper o).burst * 8 : Nat) }
  if s.isManager fn then
    { (s.created.foldl State.resyncKiosk s) with dcache := [], qinval := none }.setFlag F.qInvalStatusBusy false
  else s.resyncKiosk fn

/-! ### Teardown (R421, Table 16.2) -/

/-- n pages from the page lo leave a function: each is untagged and zeroed, and is neither free nor allocated until that has ended.
Its bytes read 0 at once; nothing reads them before. -/
def State.releasePages (s : State) (lo n : Nat) : State :=
  let out := fun (p : Nat) => !decide (lo ≤ p ∧ p < lo + n)
  { s.tlbLoses lo n with
           mem := s.mem.filter fun c => out (c.1 / pageSize)
           prot := { s.prot with tags := s.prot.tags.filter fun e => out e.1 }
           ten := { s.ten with pages := spanCut s.ten.pages lo n, zeroing := spanPut s.ten.zeroing lo n 0 } }

/-- Turnstiles are set to value 0 and owner field 0. -/
def State.clearTurns (s : State) (base count : Nat) : State :=
  { s with ts := s.ts.filter fun e => !decide (base ≤ e.1 ∧ e.1 < base + count) }

/-- Steps 2 to 6 of Table 16.2, of a function whose reset has reached step 7. -/
def State.tearDown (s : State) (fn : Nat) : State :=
  let a := s.alloc fn
  let pages := s.ten.pages.filter fun e => e.2.2 == fn
  let s := { s with prot := { s.prot with sets := s.prot.sets.filter (fun e => e.1 / 64 != fn)
                                          regions := s.prot.regions.filter (fun e => e.1 / 16 != fn)
                                          regKeys := s.prot.regKeys.filter fun e => e.1 / 16 != fn } }
  let s := (s.chansOf fn).foldl State.icReset s
  let s := s.clearTurns a.tsBase a.tsCount
  let s := { s with ten := { s.ten with blocks := s.ten.blocks.filter (fun e => e.2 != fn), chans := s.ten.chans.filter (fun e => e.2 != fn),
                                        alloc := AMap.drop s.ten.alloc fn, kiosks := AMap.drop s.ten.kiosks fn } }
  let s := s.resetRegs [.fnDlCtrl, .fnDlHa, .fnDlBase0, .fnDlBase1, .fnDlCnt, .hpfStatus, .hpfAttachToken, .kskStatus, .kskCtrl] fn
  let s := (s.resetRange [.kskTxData, .kskRxData] (fn * 8) 8).setFn fn {}
  pages.foldl (fun t e => t.releasePages e.1 e.2.1) s

/-- FUNCTION_RESET_DONE: steps 6 and 7 of Table 4.11, and the teardown that the reset was for. -/
def State.fnResetDone (s : State) (fn : Nat) : State :=
  if (s.fn fn).state ≠ .resetting ∨ s.resetWaits fn then s
  else
    let s := s.clearFn fn
    let f := s.fn fn
    let s := (s.setFn fn { f with state := if f.crashed then .orphaned else .active, crashed := false }).notify { type := 0xE3, fn := fn }
    if !f.destroy then s
    else
      let asked := s.ten.destroying == some fn
      let s := s.tearDown fn
      if asked then ({ s with ten := { s.ten with destroying := none } }).fnEnds .ok else s.notify { type := 0xE2, fn := fn }

/-- FUNCTION_WEDGED (R115, R421). -/
def State.fnWedged (s : State) (fn : Nat) : State :=
  let f := s.fn fn
  if f.state ≠ .resetting then s
  else
    let s := (s.setFn fn { f with state := .wedged, crashed := false, destroy := false }).notify { type := 0xE0, fn := fn }
    if s.ten.destroying = some fn then ({ s with ten := { s.ten with destroying := none } }).fnEnds .fnState else s

/-! ### Resets by PCIe and by the manager (R113, R115, R465, Table 4.13) -/

/-- What a configuration request of a host meets. -/
inductive CfgAns where
  | served | retry | unsupported | silent
  deriving DecidableEq, Repr

/-- How configuration requests to a function are answered (R113, R115, R465, R542). -/
def State.cfgAnswer (s : State) (fn : Nat) : CfgAns :=
  let open' : CfgAns :=
    match (s.fn fn).state with
    | .resetting => .retry
    | .wedged => .unsupported
    | _ => .served
  if !s.linkUp (s.linkOf fn) ∨ 256 ≤ fn ∨ !s.vfEnabled fn then .silent
  else
    match s.dev.state with
    | .off => .silent
    | .standby => .silent
    | .bringup => if s.dev.late then open' else .retry
    | .equalShare => if !s.flag F.fnModeFrom ∧ !s.isManager fn then .retry else open'
    | _ => open'

/-- Whether a configuration request to a function takes effect. -/
def State.cfgServed (s : State) (fn : Nat) : Bool := s.cfgAnswer fn == .served

/-- The function reset of one function by its host, by an FLR or by the clearing of VF Enable; an ORPHANED function has only its
configuration state reset and stays ORPHANED (Table 4.13; for the clearing of VF Enable DESIGN CHOICE, log entry 121: R113 does not say what
becomes of an ORPHANED VF). One that is not created has only its configuration state, which is reset. -/
def State.flrOne (s : State) (fn : Nat) : State :=
  match (s.fn fn).state with
  | .orphaned => (s.stopHost fn true).resetCfg fn
  | .notCreated => s.resetCfg fn
  | _ => s.fnReset fn false

/-- FLR: of a PF, of the PF and every VF of its link. -/
def State.flr (s : State) (fn : Nat) : State :=
  if s.isPf fn then (s.linkFns (s.linkOf fn)).foldl State.flrOne s else s.flrOne fn

/-- VF_ENABLE_CLEAR, as a configuration write that is served: every created VF of a PF's link is reset and is not served until VF Enable is
set again. -/
def State.vfEnableClear (s : State) (pf : Nat) : State :=
  if !s.isPf pf ∨ !(s.fn pf).vfEnable ∨ !s.cfgServed pf then s
  else
    let vfs := (s.linkFns (s.linkOf pf)).filter fun f => !s.isPf f
    let s := s.setFn pf { s.fn pf with vfEnable := false }
    vfs.foldl (fun t f =>
      let t := t.flrOne f
      if (t.fn f).state = .notCreated then t else t.setFn f { t.fn f with vfHidden := true }) s

/-! ### Crash of a host (R116 to R118) -/

/-- A crash event of a link: the PCIe configuration state of every function is reset, and those that are not WEDGED become ORPHANED. -/
def State.crash (s : State) (l : LinkId) : State :=
  let fs := (s.fnsOf l).filter fun f => (s.fn f).state != .wedged
  let s := (s.linkFns l).foldl (fun t f =>
    let x := t.fn f
    match x.state with
    | .resetting => (t.setFn f { x with crashed := true }).resetCfg f
    | .active =>
      let t := (((t.setFn f { x with state := .orphaned }).resetCfg f).stopHost f true).walksOrphaned f
      t.notify { type := 0xE1, fn := f, body := [BitVec.ofNat 8 l.port, BitVec.ofNat 8 (b2n l.sub)] }
    | _ => t.resetCfg f) s
  let x := s.link l
  s.setLink l { x with grace := !fs.isEmpty, graceAt := s.nowNs, badTokens := 0, downWait := false }

/-- A fresh attach token of a link (R116). -/
def State.newToken (s : State) (l : LinkId) : State :=
  let (w, s) := s.draw
  s.setLink l { s.link l with token := w, tokenFresh := true }

/-- ATTACH: a write of a token to HPF.ATTACH (R117). -/
def State.attach (s : State) (fn : Nat) (tok : Word) : State :=
  let l := s.linkOf fn
  let x := s.link l
  if !s.isPf fn ∨ !s.barOpen fn ∨ (s.fn fn).state ≠ .orphaned ∨ s.flag F.hpfStatusAttachLock fn then s
  else if tok = x.token then
    let fs := (s.fnsOf l).filter fun f => (s.fn f).state == .orphaned
    let s := fs.foldl (fun t f => t.setFn f { t.fn f with state := .active }) s
    let s := ((s.setFlag F.hpfStatusAttachOk true fn).setLink l { x with grace := false }).newToken l
    fs.foldl State.reopenHost s
  else
    let n := min 255 (x.badTokens + 1)
    (s.setLink l { x with badTokens := n }).setFlag F.hpfStatusAttachLock (decide (16 ≤ n)) fn

/-- GRACE_EXPIRY: every function of the link that is still ORPHANED is reset and then torn down (R118). -/
def State.graceExpiry (s : State) (l : LinkId) : State :=
  let x := s.link l
  if !x.grace then s
  else
    let fs := (s.fnsOf l).filter fun f => (s.fn f).state == .orphaned
    let s := (s.setLink l { x with grace := false }).setFlag F.hpfStatusAttachLock false (linkPf l)
    fs.foldl (fun t f => t.fnReset f true) s

end Machine
end Sys2Proof
end

