-- ==== Sys2Proof/Machine/HostPorts.lean ====
section
/-! DEFINITION. The links of the host ports, Bus Master Enable, configuration requests and MSI-X (R101 to R104, R112 to R117, R127,
R463, R465, R542). -/

namespace Sys2Proof
namespace Machine

/-! ### Links (R101, R114, R116) -/

/-- Ends every outstanding tag of a link as if each had timed out (R114). -/
def State.endTags (s : State) (l : LinkId) : State :=
  ((s.tags.filter fun t => t.port == l.port && t.sub == l.sub).map (·.tag)).foldl (fun t n => t.tagTimeout l n) s

/-- Shows a link as not up, with a STATE. -/
def State.showDown (s : State) (l : LinkId) (st : Nat) : State :=
  let e := b2n l.sub
  let s := (s.setFld F.hpLinkStatusState st l.port e).setFlag F.hpLinkStatusFlit false l.port e
  (s.setFld F.hpLinkStatusWidth 0 l.port e).setFld F.hpLinkStatusRate 0 l.port e

/-- A link that was up is lost: counted, its tags end, and what its host has asked for is not answered any more. -/
def State.linkLost (s : State) (l : LinkId) (st : Nat) : State :=
  if s.linkUp l then
    (s.fnsOf l).foldl State.aptLinkLost (((s.showDown l st).countSat F.hpLinkStatusDownCount l.port 1 (b2n l.sub)).endTags l)
  else s.showDown l st

/-- Whether a link may train: its PHY is powered and not held in reset. -/
def State.linkMayTrain (s : State) (l : LinkId) : Bool :=
  s.linkPresent l && s.domOn (20 + l.port) && !(s.link l).perst &&
    (match s.dev.state with | .off => false | .standby => false | _ => true) && !s.dev.resetLow && !s.dev.pulse

/-- Starts training on a link that may train and is not up. -/
def State.startTraining (s : State) (l : LinkId) : State :=
  if s.linkMayTrain l ∧ !s.linkUp l then s.showDown l 1 else s

/-- Whether training ended at a rate in service and a width allowed (R101, Table 4.1); rates are coded as in HP.LINK_STATUS. -/
def State.linkAccepted (s : State) (l : LinkId) (rate width : Nat) : Bool :=
  let max := s.fld F.hpPortCfgMaxRate l.port
  let full := if s.bifurcated l.port then 8 else 16
  decide (1 ≤ rate ∧ rate ≤ (if max = 0 then 3 else max)) && (width == full || width == full / 2)

/-- Sends the pending messages of a function that may be sent now, once each (R127). -/
def State.sendPending (s : State) (fn : Nat) : State :=
  let f := s.fn fn
  if !f.msixEn ∨ f.msixMask ∨ !s.hostOpen fn then s
  else
    s.msix.foldl (fun t e =>
      if e.1 / 2048 = fn ∧ e.2.pending ∧ !e.2.mask then
        ({ t with msix := AMap.save ({} : Msix) t.msix e.1 { e.2 with pending := false } }).emit (.msix fn (e.1 % 2048))
      else t) s

/-- A link that has ended its training at a rate and width in service is up (R101). Flit Mode is used at 64 and 128 GT/s. -/
def State.linkAccept (s : State) (l : LinkId) (rate width : Nat) : State :=
  let e := b2n l.sub
  let s := (s.setFlag F.hpLinkStatusBelowMin false l.port e).setFld F.hpLinkStatusState 2 l.port e
  let s := (s.setFlag F.hpLinkStatusFlit (decide (2 ≤ rate)) l.port e).setFld F.hpLinkStatusWidth width l.port e
  (s.setFld F.hpLinkStatusRate rate l.port e).setLink l { s.link l with downWait := false }

/-- A link that is up carries TLPs: its functions send what waited for it and go on. -/
def State.linkOpens (s : State) (l : LinkId) : State := (s.fnsOf l).foldl (fun t f => (t.sendPending f).reopenHost f) s

/-- PCIE_LINK_TRAINED: accepted, or refused and trained again (R101). -/
def State.linkTrained (s : State) (l : LinkId) (rate width : Nat) : State :=
  if !s.linkMayTrain l ∨ s.linkUp l then s
  else if s.linkAccepted l rate width then (s.linkAccept l rate width).linkOpens l
  else
    let e := b2n l.sub
    ((s.showDown l 1).setFlag F.hpLinkStatusBelowMin true l.port e).countSat F.hpLinkStatusDownCount l.port 1 e

/-- PCIE_LINK_DOWN: the wait for an accepted link starts. -/
def State.pcieLinkDown (s : State) (l : LinkId) : State :=
  if !s.linkUp l then s else (s.linkLost l 0).setLink l { s.link l with downWait := true }

/-- LINK_DOWN_TIMEOUT: a crash event (Table 4.12). -/
def State.linkDownTimeout (s : State) (l : LinkId) : State := if (s.link l).downWait then s.crash l else s

/-- FUNDAMENTAL_RESET: the link is held in reset, and its host has crashed. The input of sub-link 1 is followed in either mode of its port,
and acts on its link where there is one (R102). -/
def State.fundamentalReset (s : State) (l : LinkId) : State :=
  if !s.portPresent l.port ∨ (s.link l).perst then s
  else
    let t := s.setLink l { s.link l with perst := true }
    if s.linkPresent l then (t.linkLost l 0).crash l else t

/-- PERST_DEASSERT: the PHY locks and the link leaves Detect.Quiet (Table 18.4, step 3). -/
def State.perstDeassert (s : State) (l : LinkId) : State :=
  if !s.portPresent l.port ∨ !(s.link l).perst then s
  else
    let s := s.setLink l { s.link l with perst := false }
    if s.linkMayTrain l then
      (s.setFld F.clkpwrClkStatusPciePllLock (putBit (s.fld F.clkpwrClkStatusPciePllLock) l.port true)).startTraining l
    else s

/-- HOT_RESET. -/
def State.hotReset (s : State) (l : LinkId) : State := if s.linkUp l then (s.linkLost l 1).crash l else s

/-- HOST_WATCHDOG_EXPIRY: WDOG_MS has passed without a write to HPF.WDOG. -/
def State.watchdogExpiry (s : State) (l : LinkId) : State :=
  if s.linkPresent l ∧ s.fld F.hpCrashWdogMs l.port ≠ 0 then s.crash l else s

/-- WDOG_RESTART: a write to HPF.WDOG from the PF. -/
def State.watchdogRestart (s : State) (fn : Nat) : State :=
  if s.isPf fn ∧ s.barOpen fn then s.setLink (s.linkOf fn) { s.link (s.linkOf fn) with wdogAt := s.nowNs } else s

/-! ### Configuration requests (R112 to R115, R465, R542) -/

/-- MSIX_UNMASK: a function's MSI-X is enabled and unmasked by a configuration write, or a vector by a write to the table. -/
def State.msixUnmask (s : State) (fn : Nat) : Option Nat → State
  | none => if s.cfgServed fn then (s.setFn fn { s.fn fn with msixEn := true, msixMask := false }).sendPending fn else s
  | some v =>
    if s.barOpen fn then
      let k := msixKey fn v
      let x : Msix := AMap.look {} s.msix k
      ({ s with msix := AMap.save {} s.msix k { x with mask := false } }).sendPending fn
    else s

/-- BUS_MASTER_DISABLE (R112). -/
def State.busMasterOff (s : State) (fn : Nat) : State :=
  if s.cfgServed fn ∧ (s.fn fn).bme then (s.setFn fn { s.fn fn with bme := false }).stopHost fn false else s

/-- BUS_MASTER_ENABLE (R112). -/
def State.busMasterOn (s : State) (fn : Nat) : State :=
  if s.cfgServed fn ∧ !(s.fn fn).bme then ((s.setFn fn { s.fn fn with bme := true }).sendPending fn).reopenHost fn else s

/-- FLR as a configuration write. -/
def State.flrRequest (s : State) (fn : Nat) : State := if s.cfgServed fn then s.flr fn else s

/-- Setting VF Enable: the VFs 1 to NumVFs, up to TotalVFs, are served (R542). -/
def State.vfEnableSet (s : State) (pf : Nat) : State :=
  let s := s.setFn pf { s.fn pf with vfEnable := true }
  (s.fnsOf (s.linkOf pf)).foldl (fun t v =>
    if !t.isPf v ∧ t.vfEnabled v then t.setFn v { t.fn v with vfHidden := false } else t) s

/-- Whether a function has a capability (Table 4.1). -/
def State.hasCap (s : State) (fn : Nat) : CfgCap → Bool
  | .pcie => true
  | .msix => true
  | .ari => true
  | .aer => true
  | .sriov => s.isPf fn
  | .msi => false
  | .ats => false
  | .pri => false
  | .pasid => false
  | .tph => false
  | .ide => false
  | .doe => false
  | .resizableBar => false
  | .l1PmSubstates => false

/-- The size of a BAR and the type bits of its low doubleword (Table 4.3): a 64-bit BAR takes two doublewords. -/
def State.barShape (s : State) (fn : Nat) (vf : Bool) (pair : Nat) : Option (Nat × Nat) :=
  match pair with
  | 0 => some (2 ^ 26, 4)
  | 1 => some (2 ^ 36, 12)
  | 2 => if !vf && s.presentsBar4 fn then some (2 ^ 28, 4) else none
  | _ => none

/-- Doubleword n of a function's BARs, or of the VF BARs of a PF: the address bits above the size as they were written, below them 0, and
the type. The BARs of a VF itself read 0, as SR-IOV has it (log entry 122). -/
def State.barDword (s : State) (fn : Nat) (vf : Bool) (n : Nat) : Nat :=
  if !s.isPf fn then 0
  else
    match s.barShape fn vf (n / 2) with
    | none => 0
    | some (size, type) =>
      let w := AMap.look 0 (s.fn fn).bars (n + if vf then 6 else 0)
      if n % 2 = 0 then w - w % min size (2 ^ 32) + type else w - w % (max size (2 ^ 32) / 2 ^ 32)

/-- The value of a field of a function's configuration space (R100, R104, R112, R542); how PCIe codes it is log entry 122. -/
def State.cfgField (s : State) (fn : Nat) (c : CfgField) : Nat :=
  let f := s.fn fn
  let pf := s.isPf fn
  match c with
  | .cap c => b2n (s.hasCap fn c)
  | .bar n => s.barDword fn false n
  | .vfBar n => s.barDword fn true n
  | .expansionRom => 0
  | .interruptPin => 0
  | .aspmSupport => 0
  | .l0pSupport => 1
  | .maxPayloadSupported => 2
  | .maxPayload => f.mps
  | .maxReadRequest => f.mrrs
  | .ctoRanges => 1
  | .ctoDisableSupported => 0
  | .ctoValue => f.cto
  | .memorySpace => b2n f.mse
  | .busMaster => b2n f.bme
  | .relaxedOrdering => b2n f.relaxed
  | .totalVfs => if pf then s.totalVfs fn else 0
  | .initialVfs => if pf then s.totalVfs fn else 0
  | .numVfs => f.numVfs
  | .vfEnable => b2n f.vfEnable
  | .msixTableSize => 2047
  | .msixTable => 0x300000
  | .msixPba => 0x310000
  | .msixEnable => b2n f.msixEn
  | .msixFunctionMask => b2n f.msixMask
  | .aerUncorrectable => f.aer

/-- The field at an offset of the configuration header that the rules fix: the BARs, and the Expansion ROM, which no function has. -/
def cfgHeader (off : Nat) : Option CfgField :=
  if 0x10 ≤ off ∧ off < 0x28 then some (.bar ((off - 0x10) / 4))
  else if off = 0x30 then some .expansionRom
  else none

/-- A configuration request that is served. A read answers four bytes: what the rules fix of the configuration space is given by field and
in the header; the rest is that of PCIe and is left open here. The writes that reach the device's state set it. -/
def State.cfgTake (s : State) (fn : Nat) (r : CfgReq) : State :=
  let f := s.fn fn
  let done := fun (s : State) => s.emit (.pcie fn 0 (.success []))
  let shows := fun (c : CfgField) => s.emit (.pcie fn 0 (.success (leBytes (s.cfgField fn c) 4)))
  match r with
  | .field c => shows c
  | .read off =>
    (match cfgHeader off with
     | some c => shows c
     | none =>
       let (w, s) := s.draw
       s.emit (.pcie fn 0 (.success (leBytes w.toNat 4))))
  | .writeBar n v => done (s.setFn fn { f with bars := AMap.save 0 f.bars n v })
  | .writeVfBar n v => done (if s.isPf fn then s.setFn fn { f with bars := AMap.save 0 f.bars (n + 6) v } else s)
  | .writeAer v => done (s.setFn fn { f with aer := clearBits f.aer v 32 })
  | .writeMse v => done (s.setFn fn { f with mse := v })
  | .writeCto v => done (s.setFn fn { f with cto := v % 16 })
  | .writePayload m r => done (s.setFn fn { f with mps := m % 8, mrrs := r % 8 })
  | .writeRelaxed v => done (s.setFn fn { f with relaxed := v })
  | .writeMsix e m => done ((s.setFn fn { f with msixEn := e, msixMask := m }).sendPending fn)
  | .writeNumVfs n => done (if s.isPf fn ∧ !f.vfEnable then s.setFn fn { f with numVfs := n } else s)
  | .writeVfEnable => done (if s.isPf fn then s.vfEnableSet fn else s)
  | .writeOther _ _ => done s

/-- CONFIG_REQUEST. -/
def State.configRequest (s : State) (fn : Nat) (r : CfgReq) : State :=
  match s.cfgAnswer fn with
  | .silent => s
  | .retry => s.emit (.pcie fn 0 .retry)
  | .unsupported => s.emit (.pcie fn 0 .unsupported)
  | .served => s.cfgTake fn r

end Machine
end Sys2Proof
end

