-- ==== Sys2Proof/Machine/KeyCmds.lean ====
section
/-! DEFINITION. Keys, page tags, cipher parity faults and integrity channels as commands (R402 to R417). -/

namespace Sys2Proof
namespace Machine

/-! ### Key commands (R402 to R404, Table 15.4) -/

/-- A value written to KEYF.CMD. -/
structure KeyCmd where
  epoch : Nat
  region : Bool
  index : Nat
  deriving DecidableEq, Repr

/-- Decodes it. -/
def KeyCmd.ofNat (v : Nat) : KeyCmd := { epoch := bits v 9 8, region := bit v 7, index := bits v 5 0 }

/-- The end of a key command. -/
def State.keyEnds (s : State) (fn : Nat) (st : Status) : State :=
  ((s.setFld F.keyfStatusCode st.code fn).setFlag F.keyfStatusFail (st != .ok) fn).setFlag F.keyfStatusBusy false fn

/-- Whether a connection key set is bound to a QP that is not free (R404). -/
def State.keyBound (s : State) (fn h : Nat) : Bool :=
  s.qps.any fun e => e.2.state != .free && e.2.enc && e.2.owner == fn && e.2.keyh == h

/-- Whether a region slot tags any page. -/
def State.tagsPage (s : State) (fn slot : Nat) : Bool := s.prot.tags.any fun e => e.2 == fn * 16 + slot

/-- State of a region key slot. -/
def State.region (s : State) (fn slot : Nat) : KState := AMap.look .empty s.prot.regions (fn * 16 + slot)

/-- Sets a region key slot. -/
def State.setRegion (s : State) (fn slot : Nat) (k : KState) : State :=
  { s with prot := { s.prot with regions := AMap.save .empty s.prot.regions (fn * 16 + slot) k } }

/-- The key of a region key slot. -/
def State.regionKey (s : State) (fn slot : Nat) : BitVec 256 × BitVec 256 := AMap.look (0, 0) s.prot.regKeys (fn * 16 + slot)

/-- Sets an epoch slot of a connection key set, and its key. -/
def State.setSlot (s : State) (fn h e : Nat) (k : KState) (key : BitVec 256 := 0) : State :=
  let x := s.keySet fn h
  s.setKeySet fn h { x with slots := x.slots.set e k, keys := x.keys.set e key }

/-- Whether an index names a key: a handle from 1 to 63, or a region slot from 1 to 15; and the region commands take no epoch. -/
def KeyCmd.named (c : KeyCmd) : Bool := c.index != 0 && (!c.region || decide (c.index ≤ 15))

/-- A key command at KEYF.CMD: discarded while one is in progress (Table 15.4); it remembers the slots that KEYF.STATE shows. -/
def State.keyCmd (s : State) (fn v : Nat) (f : State → KeyCmd → State) : State :=
  if !s.barOpen fn ∨ s.flag F.keyfStatusBusy fn then s
  else
    let c := KeyCmd.ofNat v
    f (((s.setFld F.keyfCmdIndex c.index fn).setFlag F.keyfCmdRegion c.region fn).setFld F.keyfCmdEpoch c.epoch fn) c

/-- The bytes of a page are read under another key than they were written under: HBM holds the ciphertext, and memory what an access reads
(R411; log entry 80). -/
def rekeyPage (old new : BitVec 256 × BitVec 256) (m : List Host.Cell) (p : Nat) : List Host.Cell :=
  writeBytes m (p * pageSize) ((List.range (pageSize / 32)).flatMap fun i =>
    let a := p * pageSize + 32 * i
    xtsDecrypt new a (xtsEncrypt old a (readBytes m a 32)))

/-- Bytes of the blob that a command names (R403). -/
def KeyCmd.blobLen (c : KeyCmd) : Nat := if c.region then 72 else 40

/-- KEYF.ARG0 is written: discarded while a command is in progress. -/
def State.keyArg0 (s : State) (fn a : Nat) : State :=
  if !s.barOpen fn ∨ s.flag F.keyfStatusBusy fn then s else s.setFld F.keyfArg0Value a fn

/-- The key in the blob at KEYF.ARG0, or none where its integrity check fails (R403). -/
def State.blobKey (s : State) (fn : Nat) (c : KeyCmd) : Option Nat :=
  s.fw.kek.bind fun k => unwrapBlob k (s.hbmRead (fgaOff (s.fld F.keyfArg0Value fn)) c.blobLen)

/-- The checks of INSTALL before the blob is unwrapped. -/
def State.installCheck (s : State) (fn : Nat) (c : KeyCmd) : Option Status :=
  let x := s.keySet fn c.index
  let taken :=
    if c.region then s.region fn c.index == .killed
    else x.slots.getD c.epoch .empty == .killed || (s.keyBound fn c.index && x.tx == c.epoch)
  if s.fw.kek.isNone then some .authFailed
  else if !c.named then some .badDescriptor
  else if taken then some .notPermitted
  else s.ownHbm fn (s.fld F.keyfArg0Value fn) c.blobLen false

/-- A region slot takes a key: pages that it tags hold the ciphertext they held. -/
def State.setRegionKey (s : State) (fn slot : Nat) (key : BitVec 256 × BitVec 256) : State :=
  let old := s.regionKey fn slot
  let pages := (s.prot.tags.filter fun e => e.2 == fn * 16 + slot).map (·.1)
  let s := s.setRegion fn slot .valid
  { s with prot := { s.prot with regKeys := AMap.save (0, 0) s.prot.regKeys (fn * 16 + slot) key }
           mem := if old = key then s.mem else pages.foldl (rekeyPage old key) s.mem }

/-- Key1 and Key2 of the content of a region key blob. -/
def keyHalves (k : Nat) : BitVec 256 × BitVec 256 := (BitVec.ofNat 256 (k / 2 ^ 256), BitVec.ofNat 256 k)

/-- INSTALL, with what the unwrapping of the blob gives. -/
def State.installKey (s : State) (fn : Nat) (c : KeyCmd) (k : Option Nat) : State :=
  match k with
  | none => s.keyEnds fn .authFailed
  | some k =>
    if c.region then
      (if (keyHalves k).1 = (keyHalves k).2 then s.keyEnds fn .badDescriptor
       else (s.setRegionKey fn c.index (keyHalves k)).keyEnds fn .ok)
    else (s.setSlot fn c.index c.epoch .valid (BitVec.ofNat 256 k)).keyEnds fn .ok

/-- INSTALL. -/
def State.keyInstall (s : State) (fn v : Nat) : State :=
  s.keyCmd fn v fun s c =>
    match s.installCheck fn c with
    | some st => s.keyEnds fn st
    | none => s.installKey fn c (s.blobKey fn c)

/-- SET_TX: the count of PSNs sent under the TX epoch starts again (R407). -/
def State.keySetTx (s : State) (fn v : Nat) : State :=
  s.keyCmd fn v fun s c =>
    let x := s.keySet fn c.index
    if !c.named ∨ c.region then s.keyEnds fn .badDescriptor
    else if x.slots.getD c.epoch .empty ≠ .valid then s.keyEnds fn .notPermitted
    else (s.setKeySet fn c.index { x with tx := c.epoch, psns := if c.epoch = x.tx then x.psns else 0 }).keyEnds fn .ok

/-- RETIRE. -/
def State.keyRetire (s : State) (fn v : Nat) : State :=
  s.keyCmd fn v fun s c =>
    let x := s.keySet fn c.index
    if !c.named ∨ c.region then s.keyEnds fn .badDescriptor
    else if x.tx = c.epoch then s.keyEnds fn .notPermitted
    else if x.slots.getD c.epoch .empty = .killed then s.keyEnds fn .ok
    else (s.setSlot fn c.index c.epoch .empty).keyEnds fn .ok

/-- ERASE: a killed region slot is emptied although it tags pages, so that its key can be installed again (R412, log entry 27). -/
def State.keyErase (s : State) (fn v : Nat) : State :=
  s.keyCmd fn v fun s c =>
    if !c.named then s.keyEnds fn .badDescriptor
    else if c.region then
      (if s.tagsPage fn c.index ∧ s.region fn c.index ≠ .killed then s.keyEnds fn .notPermitted
       else (s.setRegion fn c.index .empty).keyEnds fn .ok)
    else if s.keyBound fn c.index then s.keyEnds fn .notPermitted
    else (s.setKeySet fn c.index {}).keyEnds fn .ok

/-! ### Page tags (R410) -/

/-- The pages that a TAG command names. -/
def State.tagPages (s : State) (fn : Nat) : List Nat :=
  (List.range (s.fld F.keyfArg1Pages fn)).map (s.fld F.keyfArg0Value fn / pageSize + ·)

/-- The check of TAG. -/
def State.tagCheck (s : State) (fn : Nat) (c : KeyCmd) : Option Status :=
  let a := s.fld F.keyfArg0Value fn
  let n := s.fld F.keyfArg1Pages fn
  if s.hbmBytes < a + n * pageSize then some .notPermitted
  else if !(s.tagPages fn).all fun p => spanFind s.ten.pages p == some fn && !s.touchesResident (p * pageSize) pageSize then
    some .notPermitted
  else if 15 < c.index then some .badDescriptor
  else if c.index ≠ 0 ∧ s.region fn c.index ≠ .valid then some .notPermitted
  else if n = 0 ∨ a % pageSize ≠ 0 then some .badLength
  else none

/-- Overwrites a page with zeros, line by line. -/
def State.zeroPage (s : State) (p : Nat) : State :=
  ({ s with mem := s.mem.filter fun c => c.1 / pageSize != p }).unpoison (p * pageSize) pageSize

/-- Whether an access of a Block to a page that was admitted has not completed. -/
def State.pageAdmitted (s : State) (p : Nat) : Bool :=
  s.blks.any fun e => e.2.outs.any fun o => match o.work with
    | .load off _ n => decide (off / pageSize ≤ p ∧ p ≤ (off + (n - 1)) / pageSize)
    | .store off _ n => decide (off / pageSize ≤ p ∧ p ≤ (off + (n - 1)) / pageSize)
    | _ => false

/-- TAG: it is BUSY until the last page has its tag; new accesses to the page in its turn wait (`State.hbmBusy`), the first page's from now
on. -/
def State.keyTag (s : State) (fn v : Nat) : State :=
  s.keyCmd fn v fun s c =>
    match s.tagCheck fn c with
    | some st => s.keyEnds fn st
    | none =>
      let ps := s.tagPages fn
      ({ s with prot := { s.prot with tagging := AMap.put s.prot.tagging fn { slot := c.index, pages := ps } } }).setFlag F.keyfStatusBusy true fn

/-- TAG_PAGE_DONE: the turn of a page ends. Once the accesses that were admitted have completed, the page is overwritten with zeros and takes
its tag, if it is still the function's; the accesses that it held go on at the end of the command (`State.hbmFreed`), and the turn of
the next page begins. -/
def State.tagPageDone (s : State) (fn : Nat) : State :=
  match AMap.find s.prot.tagging fn with
  | none => s
  | some g =>
    match g.pages with
    | [] => s
    | p :: ps =>
      if s.pageAdmitted p then s
      else
      let s := if spanFind s.ten.pages p = some fn then s.zeroPage p else s
      let tag := if g.slot = 0 ∨ spanFind s.ten.pages p ≠ some fn then 0 else fn * 16 + g.slot
      let s := { s with prot := { s.prot with tags := AMap.save 0 s.prot.tags p tag } }
      match ps with
      | [] => ({ s with prot := { s.prot with tagging := AMap.drop s.prot.tagging fn } }).keyEnds fn .ok
      | _ :: _ => { s with prot := { s.prot with tagging := AMap.put s.prot.tagging fn { g with pages := ps } } }

/-! ### Parity faults (R412) -/

/-- Zeroes what the packets of a QP whose tags are not checked yet have written. -/
def State.zeroUnauth (s : State) (q : Nat) : State :=
  let x := s.qp q
  let s := x.unauth.foldl (fun t u => match u.place with
    | some w => (t.putPlace u.pkt.dstQp (t.placeXl u.pkt) w (List.replicate u.pkt.payload.length 0#8)).getD t
    | none => t) s
  s.setQp q { s.qp q with unauth := [] }

/-- A QP enters QP_ERROR with CIPHER_FAULT, in whatever state it is (R412). -/
def State.qpKilled (s : State) (q : Nat) : State :=
  if (s.qp q).up then s.qpError q .cipherFault .cipherFault
  else s.setQp q { s.qp q with state := .error, lastStatus := Status.cipherFault.code, time := s.stamp }

/-- A key that a GCM engine used is killed, and every QP bound to it enters QP_ERROR. -/
def State.killSet (s : State) (fn h : Nat) : State :=
  let s := s.setKeySet fn h { s.keySet fn h with slots := [.killed, .killed, .killed, .killed] }
  s.qps.foldl (fun t e =>
    if e.2.enc ∧ e.2.owner = fn ∧ e.2.keyh = h ∧ e.2.state ≠ .free then (t.zeroUnauth e.1).qpKilled e.1
    else t) s

/-- CIPHER_PARITY_FAULT: of a GCM engine with a connection key set, or of an XTS engine with a region slot. -/
def State.cipherParity (s : State) (xts : Bool) (fn idx : Nat) : State :=
  let used := if xts then s.region fn idx == .valid else (s.keySet fn idx).slots.any (· == .valid)
  if !used then s
  else
    let s := if xts then s.setRegion fn idx .killed else s.killSet fn idx
    (s.countSat F.intCiphCntCipherFaults).notify
      { type := 0xE6, fn := fn, body := [BitVec.ofNat 8 (b2n xts), BitVec.ofNat 8 idx] }

/-! ### Integrity channels (R413 to R417) -/

/-- The channel that an access to its registers reaches: the device's number over the DCS, or a function's own one by its order. -/
def State.icTarget (s : State) (org : Origin) (sp : Space) (ch : Nat) : Option Nat :=
  match sp with
  | .bar0 fn => if org = .host fn ∧ s.barOpen fn then (s.chansOf fn)[ch]? else none
  | .dcs => if s.dcsOpen org 0x7801000 ∧ ch < 64 then some ch else none

/-- Whether the source that a channel names belongs to a function (R417). -/
def State.icSourceOk (s : State) (fn kind idx : Nat) : Bool :=
  match kind with
  | 0 => decide (idx < (s.alloc fn).qCount)
  | 3 => decide (idx < (s.alloc fn).qCount)
  | 1 => s.ownsQp fn idx
  | 2 => s.ownsQp fn idx
  | _ => s.blkFn (idx % 256) == some fn

/-- IC_ENABLE: snoops what is admitted from now on, or is refused. -/
def State.icEnable (s : State) (org : Origin) (sp : Space) (ch : Nat) : State :=
  match s.icTarget org sp ch with
  | none => s
  | some c =>
    let x := s.chan c
    let kind := s.fld F.intIcSrcSrcKind c
    let idx := s.fld F.intIcSrcIndex c
    let refuse := fun (st : Status) => s.setFld F.intIcStatusCode st.code c
    if x.state ≠ .off then s
    else if 5 ≤ kind then refuse .badDescriptor
    else
      match AMap.find s.ten.chans c with
      | none => refuse .notPermitted
      | some fn =>
        if !s.icSourceOk fn kind idx then refuse .notPermitted
        else (s.setFlag F.intIcCtrlEnable true c).setChan c { x with state := .run, stopping := false }

/-- IC_DISABLE: what was admitted before is folded in, and the channel is off once nothing is left. -/
def State.icDisable (s : State) (org : Origin) (sp : Space) (ch : Nat) : State :=
  match s.icTarget org sp ch with
  | none => s
  | some c =>
    let x := s.chan c
    if x.state = .off then s
    else ((s.setFlag F.intIcCtrlEnable false c).setChan c { x with stopping := true }).icFold c fun _ => true

/-- IC_EXPECTATION_PUSH. -/
def State.icPush (s : State) (org : Origin) (sp : Space) (ch val : Nat) : State :=
  match s.icTarget org sp ch with
  | none => s
  | some c =>
    let x := s.chan c
    if 4 ≤ x.exps.length then s.setFlag F.intIcStatusExpOvf true c
    else s.setChan c { x with exps := x.exps ++ [(s.fld F.intIcExpLenLen c, val)] }

end Machine
end Sys2Proof
end

