-- ==== Sys2Proof/Machine/BlockCmds.lean ====
section
/-! DEFINITION. The sequencer's control registers and Blocks that leave service (R349, R351, R352, R354, R355, R327, R443). -/

namespace Sys2Proof
namespace Machine

/-- The Block that a write to SEQF.CTRL or BLK.SEQ_CTRL acts on (R354, R355): the one that SEQF.SEL of the function selects and that is
allocated to it, or the one at a Block's registers, whose District is on. -/
def State.seqTarget (s : State) (org : Origin) (sp : Space) (b : Nat) : Option Nat :=
  match sp with
  | .bar0 fn =>
    let k := s.fld F.seqfSelBlock fn
    if org = .host fn ∧ s.barOpen fn ∧ s.blkPresent k ∧ s.blkFn k = some fn then some k else none
  | .dcs => if s.dcsOpen org 0x5010000 ∧ s.blkPresent b ∧ s.domOn (b / 20) then some b else none

/-- Whether anything but a waiting TS_WAIT is outstanding on a pausing Block (R349). -/
def Blk.drained (x : Blk) : Bool := x.pausing && x.outs.isEmpty && x.state == .running

/-- PAUSE: taken while the sequencer runs, ignored in any other state. -/
def State.pauseBlk (s : State) (org : Origin) (sp : Space) (b : Nat) : State :=
  match s.seqTarget org sp b with
  | none => s
  | some k => if (s.blk k).state = .running then s.setBlk k { s.blk k with pausing := true } else s

/-- PAUSE_DRAINED: the sequencer is paused. -/
def State.pauseDrained (s : State) (b : Nat) : State :=
  let x := s.blk b
  if x.drained then s.setBlk b { x with state := .paused, pausing := false } else s

/-- RESUME: from paused, or before the pause has been reached. -/
def State.resumeBlk (s : State) (org : Origin) (sp : Space) (b : Nat) : State :=
  match s.seqTarget org sp b with
  | none => s
  | some k =>
    let x := s.blk k
    if x.state = .paused ∨ (x.state = .running ∧ x.pausing) then s.setBlk k { x with state := .running, pausing := false } else s

/-- Takes a waiter of a Block's TS_WAIT out of the turnstile store. -/
def State.dropBlkWait (s : State) (b : Nat) : State :=
  (s.dropWaiters (fun w => w.src == .step b) .abortedByReset).1

/-- BLOCK_OUT_OF_SERVICE: the Block stops without completing its steps, its residency entries are removed without write-back, it is
cleared and leaves its function; its STEP_START completes with STEP_FAULT, tables that wait for it with NOT_PERMITTED, and the manager is
notified (R309, R327, R352, R443). -/
def State.blockOut (s : State) (b : Nat) : State :=
  let x := s.blk b
  if !s.blkPresent b ∨ !s.inService b then s
  else
    let holder := s.blkFn b
    let s := (s.dropBlkWait b).releaseAll b false
    let s := (s.setBlk b { state := .out, lastStatus := x.lastStatus }).resetRegs [.blkFlags, .seqfSample, .seqfSampleIter, .seqfCvtFail] b
    let d := b / 20
    let s := s.setFld F.blkDistStatusInService (putBit (s.fld F.blkDistStatusInService d) (b % 20) false) d
    let s := s.icGone fun kind i => kind == 4 && i % 256 == b
    let s := { s with ten := { s.ten with blocks := AMap.drop s.ten.blocks b } }
    let s := match x.start with
      | some r => s.completeRef r .stepFault
      | none => s
    let late := (match x.loading with | some r => [r] | none => []) ++ x.waiting
    let s := late.foldl (fun t r => (t.killTags fun g => g.use.owner == r).completeRef r .notPermitted) s
    (s.singleFault 5 b 0).notify { type := 0xE7, fn := holder.getD 0xFFFF, body := [BitVec.ofNat 8 b] }

end Machine
end Sys2Proof
end

