-- ==== Sys2Proof/Machine/Clocks.lean ====
section
/-! DEFINITION. Clocks and fabric time (R26 to R32, R522): the meanings of the commands of chapter 1 on them. -/

namespace Sys2Proof
namespace Machine

/-- Fabric time advances by one CLK_T edge: 1 ns plus the rate correction, the remainder kept (R28, R30). -/
def State.tick (s : State) : State :=
  let rate := toSigned 32 (s.fld F.clkpwrFtRateRate)
  let acc := (s.clk.frac : Int) + (2 ^ 32 : Nat) + rate
  let whole := acc / ((2 ^ 32 : Nat) : Int)
  let c := s.clk.move whole
  let t := { s with clk := { c with
      frac := (acc % ((2 ^ 32 : Nat) : Int)).toNat, cycles := (c.cycles + 1) % 2 ^ 64 } }
  t.created.foldl (fun u fn => u.count fn 0x01 0) t

/-- The source of fabric time: 0 software, 1 to 16 a Valir link; other values act as 0 (Table 1.15). -/
def State.ftSource (s : State) : Nat :=
  let v := s.fld F.clkpwrFtCfgSrc
  if v ≤ 16 then v else 0

/-- STEP_NS; 0 acts as 1. -/
def State.ftStepNs (s : State) : Nat := max 1 (s.fld F.clkpwrFtCfgStepNs)

/-- The first cycle boundary of a gate schedule after a time, from its base time (R295). -/
def EPort.boundary (x : EPort) (now : Nat) : Nat :=
  if now < x.base then x.base else x.base + ((now - x.base) / x.cycle + 1) * x.cycle

/-- A gate schedule after a step of fabric time by more than one of its cycles: it restarts at its next cycle boundary, and the entry
in force holds until then (R295). -/
def EPort.stepped (x : EPort) (d : Int) (now : Nat) : EPort :=
  if x.cycle < d.natAbs then { x with restart := some (x.boundary now), since := now } else x

/-- A step of fabric time, counted in STEPS (R30). -/
def State.ftStep (s : State) (d : Int) : State :=
  let t := ({ s with clk := s.clk.move d }).countSat F.clkpwrFtStatusSteps
  { t with en := t.en.map fun (e : Nat × EPort) => (e.1, e.2.stepped d t.nowNs) }

/-- SYNC (R30, R31): the software bit with no link source, else the last mean within STEP_NS and the source's SYNC. -/
def State.ftSync (s : State) : Bool :=
  if s.ftSource = 0 then s.flag F.clkpwrFtRateSwSync else s.clk.within && s.clk.srcSync

/-- FT_S_READ (R32): answers the seconds and latches the nanoseconds. -/
def execFtSRead (s : State) : Result :=
  .next ((s.setFld F.clkpwrFtNsNs s.clk.ns).emit (.regData (BitVec.ofNat 64 (s.clk.secs % 2 ^ 48))))

/-- FT_STEP (R30): adds a signed offset, unless a link is the source (R31); only a commanding origin may (R106). -/
def execFtStep (org : Origin) (off : Word) (s : State) : Result :=
  if s.dcsOpen org 0x20000 ∧ s.ftSource = 0 then .next (s.ftStep off.toInt) else .next s

/-- FT_DISCIPLINE_PERIOD (R31): the mean of the period's offsets steps fabric time or corrects RATE. -/
def execFtDisciplinePeriod (s : State) : Result :=
  let n := s.clk.offCnt
  let sum := s.clk.offSum
  let cleared := { s with clk := { s.clk with offSum := 0, offCnt := 0 } }
  if s.ftSource = 0 ∨ n = 0 then .next cleared
  else
    let mean := sum / (n : Int)
    let big := (s.ftStepNs * n : Nat) < sum.natAbs
    let t :=
      if big then cleared.ftStep mean
      else
        let add := (sum * ((2 ^ 32 : Nat) : Int)) / ((n * 4000000 : Nat) : Int)
        let r := toSigned 32 (s.fld F.clkpwrFtRateRate) + add
        let lim := ((2 ^ 31 : Nat) : Int)
        let r := if r < -lim then -lim else if lim - 1 < r then lim - 1 else r
        cleared.setFld F.clkpwrFtRateRate (ofSigned 32 r)
    let t := { t with clk := { t.clk with within := !big } }
    let lim := ((2 ^ 31 : Nat) : Int)
    let shown := if mean < -lim then -lim else if lim - 1 < mean then lim - 1 else mean
    .next (t.setFld F.clkpwrFtStatusOffsetNs (ofSigned 32 shown))

/-- FT_SYNC_TIMEOUT (R31): without TIME flits for 10 ms SYNC reads 0 and RATE is held. -/
def execFtSyncTimeout (s : State) : Result :=
  .next { s with clk := { s.clk with srcSync := false } }

/-- The FAULT cause of a loss of master lock (R26): 0x01 only while REFCLK_OK reads 1. -/
def State.lockLossCause (s : State) : Nat := if s.flag F.clkpwrClkStatusRefclkOk then 0x01 else 0x02

/-- MASTER_LOCK_LOST (R26, R27). -/
def execMasterLockLost (s : State) : Result :=
  let t := (s.setFlag F.clkpwrClkStatusMasterLock false).setFlag F.clkpwrClkStatusMasterLockLost true
  .next (t.enterFault s.lockLossCause)

/-- REFCLK_LOST (R26, R522): REFCLK_OK falls and the device enters FAULT with cause 0x02. -/
def execRefclkLost (s : State) : Result :=
  .next ((s.setFlag F.clkpwrClkStatusRefclkOk false).enterFault 0x02)

/-- The PHY PLLs whose lock bits CLK_STATUS shows (Table 1.7). -/
def pllField (kind : Nat) : Fld :=
  match kind with
  | 0 => F.clkpwrClkStatusHbmPllLock
  | 1 => F.clkpwrClkStatusSerdesPllLock
  | _ => F.clkpwrClkStatusPciePllLock

/-- The domain of a PHY PLL: kind 0 a stack, 1 a lane group, 2 a host port; a number that no unit has names no domain. -/
def pllDomain (kind n : Nat) : Nat :=
  match kind with
  | 0 => if n < 8 then 8 + n else 24
  | 1 => if n < 4 then 16 + n else 24
  | _ => 20 + n

/-- PHY_PLL_LOCK_LOST (R27): a PHY PLL loses or regains lock; the bit of an absent unit stays 0. -/
def execPhyPllLockLost (kind n : Nat) (locked : Bool) (s : State) : Result :=
  if s.domPresent (pllDomain kind n) then
    .next (s.setFld (pllField kind) (putBit (s.fld (pllField kind)) n locked))
  else .next s

end Machine
end Sys2Proof
end

