-- ==== Sys2Proof/Machine/Congestion.lean ====
section
/-! DEFINITION. The refill tick, the end of an epoch, the sampling of queues and CLEAR_DEBT (chapter 8). -/

namespace Sys2Proof
namespace Machine

/-! ### The refill tick (R225, R233, R236, R237) -/

/-- The tick of a QP's shaper and of its epoch timer: the CEIL that takes effect holds RC in its range (R212, R218, R225). The credit of a QP
that is not connected is not refilled (R228). -/
def State.refillQp (s : State) (q : Nat) : State :=
  let o := shpObj false q
  let ceil := s.fld F.ccShpCfgCeil o
  let burst := burstBytes (s.fld F.ccShpCfgBurst o)
  if (s.qp q).up then
    let x := s.rateCtl q
    let rc := clampRc x.rc x.prof.rmin ceil
    (s.setRate q { x with rc := rc, timer := x.timer - 1 }).setShaper o ((s.shaper o).refill ceil burst (min ceil rc))
  else s.setShaper o ((s.shaper o).settle ceil burst 0)

/-- The tick of a function's shaper: its CEIL is the limit in force for RATE (R222, R422). -/
def State.refillFn (s : State) (fn : Nat) : State :=
  let o := shpObj true fn
  let ceil := s.rateLimit fn
  s.setShaper o ((s.shaper o).refill ceil (burstBytes (s.fld F.ccShpCfgBurst o)) ceil)

/-- Bytes of a burst field of a meter in 1/8 byte. -/
def meterBurst (v : Nat) : Nat := max 4 v * 1024 * 8

/-- The tick of a meter: new settings, buckets clipped, then refilled; setting ENABLE fills both. -/
def State.refillMeter (s : State) (fn kind : Nat) : State :=
  let o := mtrObj fn kind
  let m := s.meter fn kind
  let on := s.flag F.ccMtrCtrlEnable o
  let cbs := meterBurst (s.fld F.ccMtrBurstCbs o)
  let ebs := meterBurst (s.fld F.ccMtrBurstEbs o)
  let cir := s.fld F.ccMtrRateCir o
  let eir := s.fld F.ccMtrRateEir o
  let fresh := on && !m.enable
  let m' : Meter :=
    { enable := on, aware := s.flag F.ccMtrCtrlAware o,
      yelMark := s.flag F.ccMtrCtrlYelMark o, redPass := s.flag F.ccMtrCtrlRedPass o,
      tc := if fresh then cbs else min cbs (min cbs m.tc + cir), te := if fresh then ebs else min ebs (min ebs m.te + eir) }
  { s with cc := { s.cc with meters := AMap.save {} s.cc.meters o m' } }

/-- REFILL_TICK. -/
def State.refillTick (s : State) : State :=
  let s := { s with cc := { s.cc with ticks := s.cc.ticks + 1 } }
  let s := s.qps.foldl (fun t e => if e.2.state = .free then t else t.refillQp e.1) s
  let s := s.created.foldl (fun t fn => ((t.refillFn fn).refillMeter fn 0).refillMeter fn 1) s
  s.heldReads.foldl (fun t e => if t.hostOpen e.1 then t.releaseReads e.1 (e.2.length + 8) else t) s

/-! ### Rate control (R217, R219) -/

/-- EPOCH_END of a QP, once the refill ticks of its epoch have come: the rate follows Table 8.8, and the first request packet of the next
epoch is a probe. -/
def State.epochEnds (s : State) (q : Nat) : State :=
  if !(s.qp q).up ∨ (s.rateCtl q).timer ≠ 0 then s else (s.epochEnd q).setQp q { s.qp q with probeDue := true }

/-! ### Sampling (R238, R240) -/

/-- The oldest entry that TAIL has passed and that has not started, as its distance from OLDEST. -/
def State.oldestUnstarted (s : State) (fn q : Nat) : Option Nat :=
  let x := s.queue fn q
  let tail := subMod 32 x.tail x.oldest
  let waiting := (s.ops.filter fun o => o.ref.fn == fn && o.ref.q == q && !o.started).map fun o => subMod 32 o.ref.pos x.oldest
  let all := (if subMod 32 x.fetch x.oldest < tail then [subMod 32 x.fetch x.oldest] else []) ++ waiting.filter fun p => decide (p < tail)
  all.foldl (fun m p => some (match m with | none => p | some y => min y p)) none

/-- The delay of a work queue in ns. -/
def State.queueDelay (s : State) (fn q : Nat) : Nat :=
  let x := s.queue fn q
  match s.oldestUnstarted fn q with
  | none => 0
  | some p =>
    match x.passed.find? fun e => decide (p < subMod 32 e.1 x.oldest) with
    | some e => s.nowNs - e.2
    | none => 0

/-- A sample of a work queue. -/
def State.sampleQueue (s : State) (fn q : Nat) : State :=
  let o := qObj fn q
  let x := s.queue fn q
  let depth := min 65536 (subMod 32 x.tail x.oldest)
  let delay := min 0xFFFFFFFF (s.queueDelay fn q)
  let s := (s.setFld F.qfSampleDelayNs delay o).setFld F.qfSampleDepth depth o
  let s := (s.setFld F.qfSampleMaxDelayMax (max delay (s.fld F.qfSampleMaxDelayMax o)) o).setFld F.qfSampleMaxDepthMax
    (max depth (s.fld F.qfSampleMaxDepthMax o)) o
  let n := s.fld F.qfSampleSumCount o
  if n = 2 ^ 24 - 1 then s
  else (s.setFld F.qfSampleSumCount (n + 1) o).setFld F.qfSampleSumDepthSum (s.fld F.qfSampleSumDepthSum o + depth) o

/-- The packets of a QP that have window room and wait: retransmissions due, and new ones within the window. -/
def State.waitingPkts (s : State) (q : Nat) : List (TpOp × Nat) :=
  let x := s.qp q
  let due := x.retx.filterMap fun p =>
    (x.sentAs p).bind fun k => (x.ownerOf p).map fun o => (o, k.idx)
  let new := (x.ops.filter fun o => !o.ended && !x.waits o).flatMap fun o => (List.range (o.npkt - o.tx)).map fun i => (o, o.tx + i)
  due ++ new.take (x.win - x.outstanding)

/-- The charged bytes of a QP's waiting packets: the first of them carries the probe that is due. -/
def State.waitingBytes (s : State) (q : Nat) : Nat :=
  match s.waitingPkts q with
  | [] => 0
  | w :: ws => s.charge q w.1 w.2 + (ws.map fun w => s.chargeOf q w.1 w.2 false).sum

/-- A sample of a transmit class of a pipeline. -/
def State.sampleClass (s : State) (k c : Nat) : State :=
  let qs := (s.qps.filter fun e => e.2.up && e.1 % 4 == k && s.classOf e.1 == c).map (·.1)
  let depth := (qs.map s.waitingBytes).sum
  let ages := qs.filterMap fun q => (s.qp q).shapedAt.map fun t => s.nowNs - t
  let delay := min 0xFFFFFFFF (ages.foldl max 0)
  let o := k * 8 + c
  let depth := min 0xFFFFFFFF depth
  let s := (s.setFld F.ccTxqSampleDelayNs delay o).setFld F.ccTxqSampleDepth depth o
  (s.setFld F.ccTxqMaxDelayMax (max delay (s.fld F.ccTxqMaxDelayMax o)) o).setFld F.ccTxqMaxDepthMax
    (max depth (s.fld F.ccTxqMaxDepthMax o)) o

/-- QUEUE_SAMPLE: every work queue of every created function, and every transmit class of every pipeline (R238). -/
def State.queueSample (s : State) : State :=
  let s := s.created.foldl (fun t fn => (List.range (s.alloc fn).qCount).foldl (fun u q => u.sampleQueue fn q) t) s
  (List.range 4).foldl (fun t k => (List.range 8).foldl (fun u c => u.sampleClass k c) t) s

/-! ### CLEAR_DEBT (R227, R239) -/

/-- The shaper that CC.SHP_SEL selects, if it names one. -/
def State.shpSelected (s : State) : Option Nat :=
  let i := s.fld F.ccShpSelIndex
  if s.flag F.ccShpSelKind then
    let fn := i % 256
    if (s.fn fn).state = .notCreated then none else some (shpObj true fn)
  else if (s.qp i).state = .free then none
  else some (shpObj false i)

/-- CLEAR_DEBT: a write of 1 to CC.SHP_CMD. -/
def State.clearDebt (s : State) (org : Origin) : State :=
  if !s.dcsOpen org 0x2000000 then s
  else
    match s.shpSelected with
    | none => s
    | some o => s.setShaper o { s.shaper o with clear := true }

end Machine
end Sys2Proof
end

