-- ==== Sys2Proof/Machine/Settings.lean ====
section
/-! DEFINITION. What the device keeps in flash outside the banks, and calibration: the settings areas (R489), the repairs recorded in them
(R506), and the user calibration record (R473 to R475). -/

namespace Sys2Proof
namespace Machine

/-! ### The settings areas (R489; log entry 100) -/

/-- A settings area. -/
def Firmware.area (f : Firmware) (k : Nat) : Option SettingsArea := if k = 0 then f.area0 else f.area1

/-- Writes or erases a settings area. -/
def Firmware.setArea (f : Firmware) (k : Nat) (a : Option SettingsArea) : Firmware :=
  if k = 0 then { f with area0 := a } else { f with area1 := a }

/-- The bytes of an area before its CRC: the format number and the entries. -/
def settingsBytes (fmt : Nat) (d : Settings) : List Byte :=
  leBytes fmt 2 ++ (d.soft.map fun r => leBytes r.1 1 ++ leBytes r.2.1 4 ++ leBytes r.2.2 4).flatten ++ (d.cleared.map fun n => leBytes n 1).flatten

/-- The CRC-32C of an area. -/
def settingsCrc (fmt : Nat) (d : Settings) : Nat := crcOut false ((settingsBytes fmt d).foldl (crcByte false) (crcInit false))

/-- An area as firmware of a format writes it. -/
def areaOf (fmt : Nat) (d : Settings) : SettingsArea := { fmt := fmt, data := d, crc := settingsCrc fmt d }

/-- An area that exists: its CRC is good. -/
def SettingsArea.good (a : SettingsArea) : Bool := a.crc == settingsCrc a.fmt a.data

/-- The settings in use: those of the area that the running firmware reads and writes. -/
def State.settings (s : State) : Settings :=
  match s.fw.area s.fw.cur with
  | some a => a.data
  | none => {}

/-- Writes the settings in use. -/
def State.setSettings (s : State) (d : Settings) : State := { s with fw := s.fw.setArea s.fw.cur (some (areaOf s.fw.fmt d)) }

/-- Records a soft repair (R506). -/
def State.recordRepair (s : State) (r : Nat × Nat × Nat) : State :=
  s.setSettings { s.settings with soft := s.settings.soft ++ [r] }

/-- Firmware of a format starts (R489): it takes the area of its own format; with none it converts the newest older area into the other
one; with no older one either it begins an empty area, beside one that a newer firmware has written (DESIGN CHOICE, log entry 100). -/
def Firmware.openSettings (f : Firmware) (fmt : Nat) : Firmware :=
  let goodAt := fun k => match f.area k with | some a => if a.good then some a else none | none => none
  let f := { f with fmt := fmt }
  match [0, 1].find? fun k => (goodAt k).any fun a => a.fmt == fmt with
  | some k => { f with cur := k }
  | none =>
    let older := fun k => (goodAt k).filter fun a => decide (a.fmt < fmt)
    let convert := fun k (a : SettingsArea) => { f.setArea (1 - k) (some (areaOf fmt a.data)) with cur := 1 - k }
    match older 0, older 1 with
    | some a, some b => if a.fmt < b.fmt then convert 1 b else convert 0 a
    | some a, none => convert 0 a
    | none, some b => convert 1 b
    | none, none =>
      let k := if (goodAt 0).isSome then 1 else 0
      { f.setArea k (some (areaOf fmt {})) with cur := k }

/-- Erases the area that holds the older format (R488). -/
def Firmware.eraseOlder (f : Firmware) : Firmware :=
  match f.area (1 - f.cur) with
  | some a => if a.fmt < f.fmt then f.setArea (1 - f.cur) none else f
  | none => f

/-! ### Repairs (R397, R506, R507) -/

/-- A repair in force: a spare row, a spare wire group, or a spare lane of a stack. -/
def State.repaired (s : State) (r : Nat × Nat × Nat) : State :=
  match r.1 with
  | 1 => { s with bist := { s.bist with rows := AMap.put s.bist.rows r.2.1 (AMap.look 0 s.bist.rows r.2.1 + 1) } }
  | 2 => { s with bist := { s.bist with groups := s.bist.groups ++ [r.2.1] } }
  | 3 =>
    let k := r.2.1 / 64
    let x := s.stack k
    s.setStack k { x with spares := x.spares ++ [(r.2.1 % 64, r.2.2)] }
  | _ => s

/-- Puts repairs into force. -/
def State.repairAll (s : State) (rs : List (Nat × Nat × Nat)) : State := rs.foldl State.repaired s

/-! ### The user calibration record (R474, R475, R480) -/

/-- Whether the unit that a sensor lies beside is present (Table 20.1). -/
def State.sensorPresent (s : State) (n : Nat) : Bool :=
  if n < 24 then s.domPresent n
  else if n < 32 then true
  else if n < 40 then s.domPresent (8 + (n - 32))
  else false

/-- Whether the unit of an item that INDEX names is present (Table 18.11). -/
def State.calUnit (s : State) (item index : Nat) : Bool :=
  match item with
  | 1 => decide (index % 8 < 5) && decide (index / 64 < 4) && s.domPresent (16 + index / 64)
  | 2 => decide (index / 8 < 4) && s.domPresent (16 + index / 8)
  | 3 => decide (index / 16 < 4) && s.portPresent (index / 16)
  | 4 => decide (index / 64 < 8) && s.domPresent (8 + index / 64)
  | 5 => decide (index / 64 < 8) && s.domPresent (8 + index / 64)
  | 6 => s.sensorPresent index
  | _ => false

/-- The largest magnitude of an item's delta (Table 18.11); the factory record may set a smaller one. -/
def calBound (bounds : List (Nat × Nat)) (item : Nat) : Nat :=
  let most := match item with | 1 => 8 | 2 => 3 | 3 => 4 | 4 => 16 | 5 => 16 | _ => 8
  (bounds.filter fun b => b.1 == item).foldl (fun m b => min m b.2) most

/-- Entry i of a record: ITEM, INDEX and DELTA. -/
def calEntry (bs : List Byte) (i : Nat) : Nat × Nat × Int :=
  let e := (bs.drop (16 + 8 * i)).take 8
  (leNat (e.take 1), leNat ((e.drop 2).take 2), toSigned 16 (leNat ((e.drop 4).take 2)))

/-- Why an entry is refused, after those before it: the codes of IMG.UCAL.REASON. -/
def State.calRefused (s : State) (bounds : List (Nat × Nat)) (before : List (Nat × Nat × Int)) (e : Nat × Nat × Int) : Option Nat :=
  if e.1 = 0 ∨ 6 < e.1 then some 3
  else if !s.calUnit e.1 e.2.1 then some 4
  else if calBound bounds e.1 < e.2.2.natAbs then some 5
  else if before.any fun b => b.1 == e.1 && b.2.1 == e.2.1 then some 6
  else none

/-- The entries of a record from entry i on, n of them: all of them, or the reason and the number of the first that fails. -/
def State.calEntries (s : State) (bounds : List (Nat × Nat)) (bs : List Byte) (i : Nat) (before : List (Nat × Nat × Int)) :
    Nat → Except (Nat × Nat) (List (Nat × Nat × Int))
  | 0 => .ok before
  | n + 1 =>
    let e := calEntry bs i
    match s.calRefused bounds before e with
    | some r => .error (r, i)
    | none => s.calEntries bounds bs (i + 1) (before ++ [e]) n

/-- A user record, applied whole or not at all: whether its signature and SVN are accepted, its header, its entries. -/
def State.calRead (s : State) (signed : Bool) (bounds : List (Nat × Nat)) (bs : List Byte) :
    Except (Nat × Nat) (List (Nat × Nat × Int)) :=
  let count := leNat ((bs.drop 2).take 2)
  if !signed then .error (1, 0)
  else if bs.length < 16 + 8 * count ∨ leNat (bs.take 2) ≠ 0x5543 ∨ 256 < count ∨ ((bs.drop 4).take 12).any (· != 0#8) then .error (2, 0)
  else s.calEntries bounds bs 0 [] count

/-- The user delta of an instance of an item; 0 without an entry. -/
def State.calDelta (s : State) (item index : Nat) : Int :=
  match s.fw.cal.find? fun e => e.1 == item && e.2.1 == index with
  | some e => e.2.2
  | none => 0

end Machine
end Sys2Proof
end

