-- ==== Sys2Proof/Machine/Tenancy.lean ====
section
/-! DEFINITION. Functions, pools, equal shares, Kiosks and dirty logging (chapter 16). -/

namespace Sys2Proof
namespace Machine

/-! ### Pools (Table 16.4, R398, R399) -/

/-- Whether a page lies in a reserved region or in its shadow (R398, R444). -/
def State.reservedPage (s : State) (p : Nat) : Bool :=
  s.img.regions.any fun r => decide (r.1 ≤ p ∧ p < r.1 + r.2.1) || decide (r.2.2 ≤ p ∧ p < r.2.2 + r.2.1)

/-- The stack of a page. -/
def pageStack (p : Nat) : Nat := p / 32768

/-- Whether a page belongs to the HBM pool. -/
def State.poolPage (s : State) (p : Nat) : Bool :=
  bit s.fuses.variant.stacks (pageStack p) && s.domOn (8 + pageStack p) && !s.reservedPage p

/-- Whether poison or a retired PC keeps a page out of the pool while it is free. -/
def State.keptOut (s : State) (p : Nat) : Bool :=
  let k := pageStack p
  s.fld F.hbmPcRetiredMask k != 0 || (s.stack k).poison.any fun l => l / 32768 == p % 32768

/-- Whether a page is free. -/
def State.freePage (s : State) (p : Nat) : Bool :=
  s.poolPage p && !s.keptOut p && (spanFind s.ten.pages p).isNone && (spanFind s.ten.zeroing p).isNone

/-- Whether a Block is in the pool: in service, in a District placed there. -/
def State.poolBlock (s : State) (b : Nat) : Bool :=
  s.blkPresent b && s.inService b && s.img.districts.contains (b / 20)

/-- Whether a Block is free. -/
def State.freeBlock (s : State) (b : Nat) : Bool := s.poolBlock b && (s.blkFn b).isNone

/-- Takes the numbers of some runs out. -/
def spanLess (m runs : AMap (Nat × Nat)) : AMap (Nat × Nat) := runs.foldl (fun m e => spanCut m e.1 e.2.1) m

/-- The pages that hold a poisoned line or lie in a stack with a retired PC, as runs (R399). -/
def State.badPages (s : State) : AMap (Nat × Nat) :=
  (List.range 8).foldl (fun m k =>
    if s.fld F.hbmPcRetiredMask k ≠ 0 then spanPut m (k * 32768) 32768 0
    else (s.stack k).poison.foldl (fun m l => spanPut m (k * 32768 + l / 32768) 1 0) m) []

/-- The pages of the pool, as runs: such a page is in it only while a function holds it (R398, R399). -/
def State.poolPages (s : State) : AMap (Nat × Nat) :=
  let m := (List.range 8).foldl (fun m k => if s.domOn (8 + k) then spanPut m (k * 32768) 32768 0 else m) []
  let m := s.img.regions.foldl (fun m r => spanCut (spanCut m r.1 r.2.1) r.2.2 r.2.1) m
  spanLess m (spanLess s.badPages s.ten.pages)

/-- The pages of the pool that no function holds. -/
def State.openPages (s : State) : AMap (Nat × Nat) := spanLess s.poolPages s.ten.pages

/-- The free pages, as runs. -/
def State.freePages (s : State) : AMap (Nat × Nat) := spanLess s.openPages s.ten.zeroing

/-- The size of a pool. -/
def State.poolSize (s : State) (r : Nat) : Nat :=
  match r with
  | 0 => 65536
  | 1 => 1048576
  | 2 => 65536
  | 3 => 4194303
  | 4 => spanTotal s.poolPages
  | 5 => ((List.range 160).filter s.poolBlock).length
  | 6 => 768
  | 7 => s.fld F.fnRateTotalTotal
  | 8 => 64
  | _ => 0

/-- The granule of a resource. -/
def granule (r : Nat) : Nat := match r with | 1 => 4 | 2 => 16 | _ => 1

/-- The equal share of a pool among d functions (R426). -/
def State.equalShare (s : State) (d r : Nat) : Nat :=
  if d = 0 then 0
  else
    let e := s.poolSize r / d / granule r * granule r
    if r = 0 then min e s.img.queueMax else e

/-- The equal share of a resource that is in force (R426). -/
def State.share (s : State) (r : Nat) : Nat := s.ten.shares.getD r 0

/-- Writes a function's entry of the allocation table. -/
def State.setAlloc (s : State) (fn : Nat) (a : Alloc) : State :=
  { s with ten := { s.ten with alloc := AMap.save {} s.ten.alloc fn a } }

/-- The limit of a resource, or the count of its range, in the allocation table. -/
def Alloc.limit (a : Alloc) (r : Nat) : Nat :=
  match r with
  | 0 => a.qCount | 1 => a.qpCount | 2 => a.tsCount | 3 => a.window | 6 => a.square | 7 => a.rate | _ => 0

/-- Sets a limit. -/
def Alloc.setLimit (a : Alloc) (r v : Nat) : Alloc :=
  match r with
  | 3 => { a with window := v } | 6 => { a with square := v } | 7 => { a with rate := v } | _ => a

/-- The base of a range. -/
def Alloc.base (a : Alloc) (r : Nat) : Nat :=
  match r with | 0 => a.qBase | 1 => a.qpBase | 2 => a.tsBase | _ => 0

/-- Sets a range. -/
def Alloc.setRange (a : Alloc) (r base count : Nat) : Alloc :=
  match r with
  | 0 => { a with qBase := base, qCount := count }
  | 1 => { a with qpBase := base, qpCount := count }
  | 2 => { a with tsBase := base, tsCount := count }
  | _ => a

/-! ### Equal shares (R426 to R429) -/

/-- Gives e free pages to each of the functions, in ascending order. -/
def carvePages (free : AMap (Nat × Nat)) (e : Nat) : List Nat → AMap (Nat × Nat) → AMap (Nat × Nat)
  | [], m => m
  | fn :: fns, m =>
    let (x, y) := spanTake free e
    carvePages y e fns (x.foldl (fun m r => spanPut m r.1 r.2.1 fn) m)

/-- Gives e free objects to each of the functions, in ascending order. -/
def carve (free : List Nat) (e : Nat) : List Nat → AMap Nat → AMap Nat
  | [], m => m
  | fn :: fns, m => carve (free.drop e) e fns ((free.take e).foldl (fun m p => AMap.put m p fn) m)

/-- Enters EQUAL_SHARE: after reset every kind is carved, from SERVICE only the limits in force change (Table 16.5). -/
def State.enterEqual (s : State) (fromService : Bool) : State :=
  let fns := s.created
  let d := fns.length
  let s := (s.setFld F.fnModeD d).setFlag F.fnModeFrom fromService |>.setFlag F.fnModeEqual true
  let s := { s with ten := { s.ten with equal := some (d, fromService), shares := (List.range 9).map (s.equalShare d) } }
  if fromService then s
  else
    let e := s.share
    let s := (fns.zip (List.range d)).foldl (fun t x =>
      t.setAlloc x.1 { window := e 3, square := e 6, rate := e 7, qBase := x.2 * e 0, qCount := e 0, qpBase := x.2 * e 1, qpCount := e 1,
                       tsBase := x.2 * e 2, tsCount := e 2 }) s
    let blocks := (List.range 160).filter s.freeBlock
    let chans := (List.range 64).filter fun c => (AMap.find s.ten.chans c).isNone
    let s := { s with ten := { s.ten with pages := carvePages s.openPages (e 4) fns s.ten.pages, blocks := carve blocks (e 5) fns s.ten.blocks,
                                          chans := carve chans (e 8) fns s.ten.chans } }
    s.ten.chans.foldl (fun t c => t.setFld F.intIcCtrlFn c.2 c.1) s

/-- Leaves EQUAL_SHARE: the limits of the allocation table are in force again (R429). -/
def State.leaveEqual (s : State) : State :=
  let s := ((s.setFld F.fnModeD 0).setFlag F.fnModeFrom false).setFlag F.fnModeEqual false
  { s with ten := { s.ten with equal := none, shares := [] } }

/-! ### Kiosks (R420, R430 to R434) -/

/-- The check of a Kiosk area (Table 16.1). -/
def State.kioskCheck (s : State) (arg : Nat) : Option Status :=
  let size := arg % 8
  let fga := arg - size
  match s.manager with
  | none => some .notPermitted
  | some m =>
    if fgaNode fga ≠ s.nodeId ∨ fgaSpace fga ≠ 0 ∨ !s.ownsBytes m (fgaOff fga) (2 * 64 * 2 ^ (size + 6)) then some .notPermitted
    else if fga % 4096 ≠ 0 ∨ 4 < size then some .badAddress
    else none

/-- Places a Kiosk, with both rings empty. -/
def State.placeKiosk (s : State) (fn arg : Nat) : State :=
  let k : Kiosk := { base := fgaOff (arg - arg % 8), size := arg % 8 }
  ({ s with ten := { s.ten with kiosks := AMap.put s.ten.kiosks fn k } }).resetRange [.kskRxData] (fn * 8) 8

/-- Presents the message at the head of the RSP ring, or zeros where none waits (R432). -/
def State.present (s : State) (fn : Nat) (k : Kiosk) : State :=
  let s := s.resetRange [.kskRxData] (fn * 8) 8
  if k.rspHead = k.rspTail then s
  else
    let bs := s.hbmRead (k.base + k.entries * 64 + (k.rspHead % k.entries) * 64) 64
    (List.range 8).foldl (fun t i => t.setFld F.kskRxDataData (leAt bs (8 * i) 8) (fn * 8 + i)) s

/-- Writes a function's Kiosk. -/
def State.setKiosk (s : State) (fn : Nat) (k : Kiosk) : State :=
  { s with ten := { s.ten with kiosks := AMap.put s.ten.kiosks fn k } }

/-- The bytes that a function has staged. -/
def State.staged (s : State) (fn : Nat) : List Byte :=
  (List.range 8).flatMap fun i => leBytes (s.fld F.kskTxDataData (fn * 8 + i)) 8

/-- KIOSK_POST (R431). -/
def State.kioskPost (s : State) (fn : Nat) : State :=
  if !s.barOpen fn then s
  else
    let bs := s.staged fn
    match s.kiosk fn with
    | none => s.setFlag F.kskStatusTxRefused true fn
    | some k =>
      if 0xE0 ≤ leAt bs 0 1 ∨ k.entries ≤ k.reqUsed then s.setFlag F.kskStatusTxRefused true fn
      else
        s.postReq fn k fun ph =>
          bs.take 1 ++ leBytes (b2n ph * 128) 1 ++ leBytes fn 2 ++ (bs.drop 4).take 4 ++ leBytes s.stamp 8 ++ bs.drop 16

/-- RSP_TAIL_DOORBELL (R432). -/
def State.rspTail (s : State) (org : Origin) (fn idx : Nat) : State :=
  if !s.dcsOpen org 0x200058 then s
  else
    match s.kiosk fn with
    | none => s
    | some k =>
      let t := idx % 65536
      if k.entries < subMod 16 t k.rspHead then s.setFlag F.fnKskCtrlDbErr true
      else
        let k' := { k with rspTail := t }
        let s := (s.setKiosk fn k').present fn k'
        if s.flag F.kskCtrlIrqEn fn ∧ k'.rspHead ≠ k'.rspTail then s.signal fn (s.fld F.kskCtrlVector fn) else s

/-- REQ_HEAD_DOORBELL: entries are returned, and a count of lost notices is told where it now finds room (R431, R433). -/
def State.reqHead (s : State) (org : Origin) (fn idx : Nat) : State :=
  if !s.dcsOpen org 0x200058 then s
  else
    match s.kiosk fn with
    | none => s
    | some k =>
      let k' := { k with reqHead := idx % 65536 }
      let s := s.setKiosk fn k'
      if s.isManager fn ∧ s.ten.lostNotices ≠ 0 ∧ k'.reqUsed < k'.entries then
        let n := s.ten.lostNotices
        let s := s.postReq fn k' fun ph => kioskMsg ph 0xE8 0xFFFF 0 s.stamp 0 (leBytes n 4)
        { s with ten := { s.ten with lostNotices := 0 } }
      else s

/-- RX_POP (R432). -/
def State.rxPop (s : State) (fn : Nat) : State :=
  if !s.barOpen fn then s
  else
    match s.kiosk fn with
    | none => s
    | some k =>
      if k.rspHead = k.rspTail then s
      else
        let k' := { k with rspHead := (k.rspHead + 1) % 65536 }
        (s.setKiosk fn k').present fn k'

/-! ### Function commands (R420, Table 16.1) -/

/-- Whether a function exists for the commands that name it. -/
def State.fnIsCreated (s : State) (fn : Nat) : Bool := (s.fn fn).state != .notCreated

/-- A command of FN.CMD: discarded while one is in progress, or where the registers are not reached. -/
def State.fnCmd (s : State) (org : Origin) (f : State → State) : State :=
  if s.dcsOpen org 0x200018 ∧ !s.flag F.fnStatusBusy then f s else s

/-- Ends a command with the first check that fails, or does it. -/
def State.fnDo (s : State) (c : Option Status) (f : State → State) : State :=
  match c with
  | some st => s.fnEnds st
  | none => (f s).fnEnds .ok

/-- The check of CREATE. -/
def State.createCheck (s : State) (fn : Nat) : Option Status :=
  let pf := linkPf (s.linkOf fn)
  if s.fnIsCreated fn ∨ s.ten.equal.isSome then some .fnState
  else if !s.portPresent (portOf fn) then some .unitAbsent
  else if !s.isPf fn ∧ AMap.look 0 s.img.totalVfs (linkKey (s.linkOf fn)) < fn - pf then some .notPermitted
  else if s.img.fnMax ≤ s.created.length then some .poolExhausted
  else s.kioskCheck (s.fld F.fnArg0Value)

/-- A function comes into being, with every limit 0 (R419, R420). The link's first token is generated with its PF (R116). -/
def State.makeFn (s : State) (fn : Nat) : State :=
  let f := s.fn fn
  let s := s.setFn fn { f with state := .active, vfHidden := !s.vfEnabled fn }
  let o := shpObj true fn
  let s := (s.resetRegs shpRegs o).setShaper o { burst := 65536, credit := 65536 * 8 }
  if s.isPf fn then s.newToken (s.linkOf fn) else s

/-- FN_CREATE. -/
def State.fnCreate (s : State) (fn : Nat) : State :=
  s.fnDo (s.createCheck fn) fun s => ((s.makeFn fn).setAlloc fn {}).placeKiosk fn (s.fld F.fnArg0Value)

/-- FN_DESTROY: the command is BUSY until step 5 of Table 16.2. -/
def State.fnDestroy (s : State) (fn : Nat) : State :=
  let f := s.fn fn
  let vfs := s.isPf fn && (s.fnsOf (s.linkOf fn)).any fun v => !s.isPf v
  if s.isManager fn then s.fnEnds .notPermitted
  else if f.state = .notCreated ∨ f.state = .wedged ∨ vfs then s.fnEnds .fnState
  else
    let s := ({ s with ten := { s.ten with destroying := some fn } }).setFlag F.fnStatusBusy true
    if f.state = .resetting then s.setFn fn { f with destroy := true } else s.fnReset fn true

/-- The sum of the other functions' limits of a resource. -/
def State.otherLimits (s : State) (fn r : Nat) : Nat :=
  ((s.created.filter (· != fn)).map fun f => (s.alloc f).limit r).sum

/-- Whether a number leaves a range. -/
def leaves (n base count : Nat) : Bool := !decide (base ≤ n ∧ n < base + count)

/-- The check of a new range (R423). -/
def State.rangeCheck (s : State) (fn r base count : Nat) : Option Status :=
  let g := granule r
  let a := s.alloc fn
  let clash := s.created.any fun f =>
    f != fn && decide (base < (s.alloc f).base r + (s.alloc f).limit r ∧ (s.alloc f).base r < base + count)
  let busyQueue := s.queues.any fun e => e.1 / 4096 == fn && e.2.state != .off && leaves (a.qBase + e.1 % 4096) base count
  let busyQp := s.qps.any fun e => e.2.state != .free && e.2.owner == fn && leaves e.1 base count
  let covered := s.wins.any fun e =>
    let lo := max a.tsBase (fgaOff e.2.base / 16)
    let hi := min (a.tsBase + a.tsCount) ((fgaOff e.2.base + e.2.len + 15) / 16)
    e.2.held && fgaSpace e.2.base == 1 && decide (lo < hi) && (leaves lo base count || leaves (hi - 1) base count)
  if base % g ≠ 0 ∨ count % g ≠ 0 then some .badLength
  else if s.poolSize r < base + count ∨ (r = 0 ∧ s.img.queueMax < count) then some .badLength
  else if count ≠ 0 ∧ clash then some .notPermitted
  else if (r = 0 ∧ busyQueue) ∨ (r = 1 ∧ busyQp) then some .fnState
  else if r = 2 ∧ covered then some .notPermitted
  else none

/-- The check of SET_LIMIT. -/
def State.limitCheck (s : State) (fn r : Nat) : Option Status :=
  let v := s.fld F.fnArg0Value
  if !s.fnIsCreated fn then some .fnState
  else if r = 4 ∨ r = 5 ∨ r = 8 ∨ 9 ≤ r then some .badDescriptor
  else if r ≤ 2 then
    if s.ten.equal.any (·.2) then some .fnState else s.rangeCheck fn r v (s.fld F.fnArg1Value)
  else if r ≠ 3 ∧ s.poolSize r < s.otherLimits fn r + v then some .poolExhausted
  else none

/-- SET_LIMIT: turnstiles that leave a range are set to 0. -/
def State.setLimit (s : State) (fn r : Nat) : State :=
  s.fnDo (s.limitCheck fn r) fun s =>
    let v := s.fld F.fnArg0Value
    let n := s.fld F.fnArg1Value
    let a := s.alloc fn
    if r ≤ 2 then
      let s := if r = 2 then { s with ts := s.ts.filter fun e => leaves e.1 a.tsBase a.tsCount || !leaves e.1 v n } else s
      s.setAlloc fn (a.setRange r v n)
    else s.setAlloc fn (a.setLimit r v)

/-- The numbers that GIVE and TAKE name: pages, Blocks or channels. -/
def State.named (s : State) (r : Nat) : List Nat :=
  let a := s.fld F.fnArg0Value
  (List.range (s.fld F.fnArg1Value)).map ((if r = 4 then a / pageSize else a) + ·)

/-- How many of a set resource there are by number, absent ones included. -/
def State.setTotal (s : State) (r : Nat) : Nat := match r with | 4 => s.hbmBytes / pageSize | 5 => s.blockCount | _ => 64

/-- The check of GIVE (R424, R428). -/
def State.giveCheck (s : State) (fn r : Nat) : Option Status :=
  let a := s.fld F.fnArg0Value
  if !s.fnIsCreated fn then some .fnState
  else if r ≠ 4 ∧ r ≠ 5 ∧ r ≠ 8 then some .badDescriptor
  else if s.ten.equal.isSome then some .fnState
  else if (if r = 4 then s.setTotal r * pageSize < a + s.fld F.fnArg1Value * pageSize else s.setTotal r < a + s.fld F.fnArg1Value) then
    some .unitAbsent
  else if r = 4 ∧ a % pageSize ≠ 0 then some .badAddress
  else if !(s.named r).all fun n =>
      (match r with | 4 => s.freePage n | 5 => s.freeBlock n | _ => (AMap.find s.ten.chans n).isNone) then some .notPermitted
  else none

/-- GIVE. -/
def State.fnGive (s : State) (fn r : Nat) : State :=
  s.fnDo (s.giveCheck fn r) fun s =>
    let put := fun (m : AMap Nat) => (s.named r).foldl (fun m n => AMap.put m n fn) m
    match r with
    | 4 => { s with ten := { s.ten with pages := spanPut s.ten.pages (s.fld F.fnArg0Value / pageSize) (s.fld F.fnArg1Value) fn } }
    | 5 => { s with ten := { s.ten with blocks := put s.ten.blocks } }
    | _ =>
      let s := { s with ten := { s.ten with chans := put s.ten.chans } }
      (s.named r).foldl (fun t n => t.setFld F.intIcCtrlFn fn n) s

/-- Whether a page is pinned by a window or a residency entry, or holds a Kiosk area (R162, R309, R424). -/
def State.pinned (s : State) (p : Nat) : Bool :=
  let hits := fun (off len : Nat) => decide (off < (p + 1) * pageSize ∧ p * pageSize < off + len)
  (s.wins.any fun e => e.2.held && fgaSpace e.2.base == 0 && hits (fgaOff e.2.base) e.2.len) ||
    (s.res.any fun e => hits e.2.base e.2.len) || s.ten.kiosks.any fun e => hits e.2.base (2 * 64 * e.2.entries)

/-- The check of TAKE. -/
def State.takeCheck (s : State) (fn r : Nat) : Option Status :=
  let a := s.fld F.fnArg0Value
  let ns := s.named r
  let held := fun (n : Nat) =>
    (match r with | 4 => spanFind s.ten.pages n | 5 => s.blkFn n | _ => AMap.find s.ten.chans n) == some fn
  if !s.fnIsCreated fn then some .fnState
  else if r ≠ 4 ∧ r ≠ 5 ∧ r ≠ 8 then some .badDescriptor
  else if r = 4 ∧ a % pageSize ≠ 0 then some .badAddress
  else if s.setTotal r < (if r = 4 then a / pageSize else a) + s.fld F.fnArg1Value ∨ !ns.all held then some .notPermitted
  else if r = 4 ∧ ns.any s.pinned then some .notPermitted
  else if r = 5 ∧ ns.any (fun b => (s.blk b).state == .running || (s.blk b).state == .paused) then some .fnState
  else if r = 8 ∧ ns.any (fun c => (s.chan c).state != .off) then some .fnState
  else none

/-- TAKE. -/
def State.fnTake (s : State) (fn r : Nat) : State :=
  s.fnDo (s.takeCheck fn r) fun s =>
    let ns := s.named r
    match r with
    | 4 => (s.releasePages (s.fld F.fnArg0Value / pageSize) (s.fld F.fnArg1Value)).acStop fn
    | 5 =>
      let s := (s.clearBlocks ns).icGone fun kind i => kind == 4 && ns.contains (i % 256)
      { s with ten := { s.ten with blocks := s.ten.blocks.filter fun e => !ns.contains e.1 } }
    | _ =>
      let s := ns.foldl State.icReset s
      let s := ns.foldl (fun t c => t.setFld F.intIcCtrlFn 0 c) s
      { s with ten := { s.ten with chans := s.ten.chans.filter fun e => !ns.contains e.1 } }

/-- VF_RESET: the function reset of a VF, an ORPHANED one too (DESIGN CHOICE, log entry 120). -/
def State.vfReset (s : State) (fn : Nat) : State :=
  let st := (s.fn fn).state
  let c : Option Status :=
    if s.isPf fn then some .notPermitted else if st = .notCreated ∨ st = .wedged then some .fnState else none
  s.fnDo c fun s => s.fnReset fn false

/-- DL_SWAP (R437). -/
def State.dlSwap (s : State) (fn : Nat) : State :=
  let on := s.flag F.fnDlCtrlHostEn fn || s.flag F.fnDlCtrlHbmEn fn
  s.fnDo (if !s.fnIsCreated fn ∨ !on then some .fnState else none) fun s =>
    s.setFlag F.fnDlCtrlActive (!s.flag F.fnDlCtrlActive fn) fn

/-- KSK_SET. -/
def State.kskSet (s : State) (fn : Nat) : State :=
  let v := s.fld F.fnArg0Value
  s.fnDo (if !s.fnIsCreated fn then some .fnState else s.kioskCheck v) fun s => s.placeKiosk fn v

/-- PAGE_ZEROED: the page joins the free pool, unless a function holds it by then (R467). -/
def State.pageZeroed (s : State) (p : Nat) : State :=
  { s with ten := { s.ten with zeroing := spanCut s.ten.zeroing p 1 } }

end Machine
end Sys2Proof
end

