-- ==== Sys2Proof/Machine/Faults.lean ====
section
/-! DEFINITION. HBM errors, retirement and lane repair (R386 to R400), and faults of the device's own memories, pipelines and links
(R439 to R455). -/

namespace Sys2Proof
namespace Machine

/-! ### Poison and retirement (R392 to R394, R444) -/

/-- Where the twin of a line of a reserved region lies: the line of its shadow, or of its region (R444); by space 0 offset. -/
def State.twin (s : State) (off : Nat) : Option Nat :=
  let p := off / pageSize
  s.img.regions.findSome? fun r =>
    if r.1 ≤ p ∧ p < r.1 + r.2.1 then some ((r.2.2 + (p - r.1)) * pageSize + off % pageSize)
    else if r.2.2 ≤ p ∧ p < r.2.2 + r.2.1 then some ((r.1 + (p - r.2.2)) * pageSize + off % pageSize)
    else none

/-- Whether a line can no longer be read: poisoned, or of a retired PC. -/
def State.lineLost (s : State) (off : Nat) : Bool :=
  bit (s.fld F.hbmPcRetiredMask (stackOf off)) (pcOf off) || (s.stack (stackOf off)).poison.contains (lineOf off)

/-- The pages of the reserved regions and their shadows. -/
def State.regionPages (s : State) : List Nat :=
  s.img.regions.flatMap fun r => (List.range r.2.1).flatMap fun i => [r.1 + i, r.2.2 + i]

/-- Whether some line of a reserved region in a PC of a stack has lost its twin too. -/
def State.regionLost (s : State) (k pc : Nat) : Bool :=
  s.regionPages.any fun p =>
    pageStack p == k &&
      (match s.twin (p * pageSize) with
       | some t =>
         bit (s.fld F.hbmPcRetiredMask (stackOf t)) pc ||
           (s.stack (stackOf t)).poison.any fun l => decide (lineOf t ≤ l ∧ l < lineOf t + pageSize / 64) && l / 4 % 64 == pc
       | none => false)

/-- Retires a PC: a single fault of kind 4, told to the manager; lines of a reserved region lost in both places are a cause of FAULT. -/
def State.retirePc (s : State) (k pc : Nat) : State :=
  let m := s.fld F.hbmPcRetiredMask k
  if bit m pc then s
  else
    let s := s.setFld F.hbmPcRetiredMask (putBit m pc true) k
    let x := s.stack k
    let s := s.setStack k { x with repairing := AMap.drop x.repairing pc, rescrub := AMap.drop x.rescrub pc }
    let s := (s.singleFault 4 ((k * 64 + pc) % 256) k).notify
      { type := 0xE5, fn := 0xFFFF, body := [BitVec.ofNat 8 k, BitVec.ofNat 8 pc] }
    if s.regionLost k pc then s.enterFault 0x07 else s

/-- Captures an ECC event unless one is captured already. -/
def State.eccLog (s : State) (k line : Nat) (beyond scrub : Bool) (lane : Nat) : State :=
  if s.flag F.hbmEccLogValid k then s
  else
    let s := ((s.setFlag F.hbmEccLogValid true k).setFlag F.hbmEccLogBeyond beyond k).setFlag F.hbmEccLogScrub scrub k
    ((s.setFld F.hbmEccLogPc (line / 4 % 64) k).setFld F.hbmEccLogLane lane k).setFld F.hbmEccLogLine line k

/-- The times of a list that lie within the last millisecond. -/
def State.lastMs (s : State) (ts : List Nat) : List Nat := ts.filter fun t => decide (t ≤ s.nowNs ∧ s.nowNs < t + 1000000)

/-- A line is poisoned, once (R393): its stack's table takes it, or its PC is retired where the table is full, and so it is after more
than 16 lines within 1 ms. A poisoned line of a reserved region is written again from its twin. -/
def State.poisonLine (s : State) (k line : Nat) (scrub : Bool) : State :=
  let off := k * 2 ^ 36 + line * 64
  let pc := line / 4 % 64
  if s.lineLost off then s
  else
    let s := (s.countSat F.hbmEccCntUncorrected k).eccLog k line true scrub 0
    let owner := (spanFind s.ten.pages (off / pageSize)).getD 0xFFFF
    let s := s.notify { type := 0xE4, fn := owner, body := BitVec.ofNat 8 k :: [0#8, 0#8, 0#8] ++ leBytes off 8 }
    let x := s.stack k
    let recent := (x.recent.filter fun r => (s.lastMs [r.2]) != []) ++ [(line, s.nowNs)]
    let many := decide (16 < (recent.filter fun r => r.1 / 4 % 64 == pc).length)
    let full := decide (4096 ≤ x.poison.length)
    let s := s.setStack k { x with recent := recent, poison := if full then x.poison else x.poison ++ [line] }
    let s := match s.twin off with
      | none => s
      | some t =>
        if s.lineLost t then s.enterFault 0x07
        else s.setStack k { s.stack k with poison := (s.stack k).poison.filter (· != line) }
    if full ∨ many then s.retirePc k pc else s

/-- Lanes of a PC that are mapped to spares. -/
def Stack.sparesOf (x : Stack) (pc : Nat) : Nat := (x.spares.filter fun r => r.1 == pc).length

/-- A lane needs repair (R394, R397): new commands to its PC are held, and a spare lane is mapped in its place, unless both are in use or
another lane of the PC is being repaired, when the PC is retired. -/
def State.laneFails (s : State) (k pc lane : Nat) : State :=
  let x := s.stack k
  if bit (s.fld F.hbmPcRetiredMask k) pc then s
  else
  match AMap.find x.repairing pc with
  | some l => if l = lane then s else s.retirePc k pc
  | none => if 2 ≤ x.sparesOf pc then s.retirePc k pc else s.setStack k { x with repairing := AMap.put x.repairing pc lane }

/-- A corrected burst counts for its lane, which fails at 16 in 1 ms. -/
def State.corrected (s : State) (k line lane : Nat) (scrub : Bool) : State :=
  let pc := line / 4 % 64
  let s := (s.countSat F.hbmEccCntCorrected k).eccLog k line false scrub lane
  let x := s.stack k
  let ts := s.lastMs (AMap.look [] x.errors (pc * 64 + lane)) ++ [s.nowNs]
  let s := s.setStack k { x with errors := AMap.save [] x.errors (pc * 64 + lane) ts }
  if 16 ≤ ts.length then s.laneFails k pc lane else s

/-- The lines of a PC. -/
def pcLines : Nat := 2 ^ 24

/-- The scrubber has read a line: in its pass, and in the scrub of the line's PC after a lane repair, which ends with the PC's last line. -/
def Stack.mark (x : Stack) (line : Nat) : Stack :=
  let pc := line / 4 % 64
  let add := fun (m : AMap (Nat × Nat)) => spanPut m (line / 256 * 4 + line % 4) 1 0
  let y := { x with scrubbed := AMap.put x.scrubbed pc (add (AMap.look [] x.scrubbed pc)) }
  match AMap.find x.rescrub pc with
  | none => y
  | some m => { y with rescrub := if spanTotal (add m) = pcLines then AMap.drop x.rescrub pc else AMap.put x.rescrub pc (add m) }

/-- Whether a pass has read every line of a stack but those of its retired PCs (R391). -/
def Stack.passed (x : Stack) (retired : Nat) : Bool :=
  (List.range 64).all fun pc => bit retired pc || spanTotal (AMap.look [] x.scrubbed pc) == pcLines

/-- The scrubber has read a line; with the last of the stack a pass is complete. -/
def State.scrubRead (s : State) (k line : Nat) : State :=
  let x := (s.stack k).mark line
  if x.passed (s.fld F.hbmPcRetiredMask k) then (s.setStack k { x with scrubbed := [] }).countWrap F.hbmScrubPasses k else s.setStack k x

/-- SCRUB: a line of a stack is read, by the scrubber or on demand, with an outcome of Table 14.4 (R391 to R394). At thermal level 3 nothing
is read, and the scrubber reads nothing in a PC that holds new commands (R396, R397). -/
def State.scrub (s : State) (k line : Nat) (o : EccOutcome) (byScrub : Bool) : State :=
  let line := line % 2 ^ 30
  let pc := line / 4 % 64
  if 8 ≤ k ∨ !s.domOn (8 + k) ∨ bit (s.fld F.hbmPcRetiredMask k) pc then s
  else if slotsOfTwo (s.fld F.hbmStatusLevel k) = 0 ∨ (byScrub ∧ (AMap.find (s.stack k).repairing pc).isSome) then s
  else
    let s := if byScrub then s.scrubRead k line else s
    match o with
    | .clean => s
    | .corrected lane => s.corrected k line (lane % 36) byScrub
    | .beyond => s.poisonLine k line byScrub

/-- REFRESH: a bank, numbered stack × 4,096 + PC × 64 + bank, is refreshed (R396). -/
def State.refreshBank (s : State) (n : Nat) : State :=
  let k := n / 4096
  if k < 8 ∧ s.domOn (8 + k) then s.setStack k { s.stack k with refreshed := AMap.put (s.stack k).refreshed (n % 4096) s.nowNs } else s

/-- LANE_REPAIR_DONE (Table 14.7): the spare is in use, the scrub of the PC starts, and the repair is recorded as a soft one. The commands
that the PC held go on at the end of the command (`State.hbmFreed`). -/
def State.laneRepaired (s : State) (k pc : Nat) : State :=
  let x := s.stack k
  match AMap.find x.repairing pc with
  | none => s
  | some lane =>
    let s := s.setStack k { x with repairing := AMap.drop x.repairing pc, spares := x.spares ++ [(pc, lane)],
                                   errors := AMap.drop x.errors (pc * 64 + lane), rescrub := AMap.put x.rescrub pc [] }
    s.recordRepair (3, k * 64 + pc, lane)

/-- COMMAND_INTERFACE_FAILURE (R394). -/
def State.interfaceFails (s : State) (k pc : Nat) : State :=
  if k < 8 ∧ pc < 64 ∧ s.domOn (8 + k) then s.retirePc k pc else s

/-! ### Replay (R448 to R450) -/

/-- Marks a record for re-issue from a packet or segment on. -/
def State.markReplay (s : State) (i resume : Nat) : State :=
  (s.updJrec (some i) fun j => { j with state := .replay, replayed := true, resume := resume }).countSat F.jnlCntReplayed

/-- The PSNs of a transport operation that have been sent and are not acknowledged, or whose response is awaited. -/
def Qp.unacked (x : Qp) (o : TpOp) : List Nat :=
  (x.out.filter fun k => k.isOf o && !o.ended && !x.retx.contains k.psn &&
    (!k.acked || sltAwaits o.kind)).map (·.psn)

/-- The failure of the check that a re-issued transport operation meets afresh: the key it names has been revoked since (R159, R449). -/
def State.replayKey (s : State) (x : Qp) (o : TpOp) : Option Status :=
  if x.roce ∨ o.key = 0 then none
  else
    match s.importOf x.owner x.peerNode (keyIndex o.key) with
    | some r => if r.state = .imported ∧ r.key = o.key then none else some .keyStale
    | none => some .keyStale

/-- Re-issues a transport operation from its first packet that is not acknowledged; whether it had any, sent or still to be sent. Its packets
take a TXCNT of TXMAX + 1 from now on. -/
def State.replayTp (s : State) (q : Nat) (o : TpOp) : State × Bool :=
  let x := s.qp q
  let ps := x.unacked o
  match o.jrec with
  | none => (s, false)
  | some i =>
    if o.ended ∨ (ps.isEmpty ∧ o.npkt ≤ o.tx) then (s, false)
    else
      let resume := match ps.head?.bind x.sentAs with | some k => k.idx | none => o.tx
      let txmax := ((AMap.find s.jnl i).map (·.txmax)).getD 0
      let s := s.markReplay i resume
      match s.replayKey x o with
      | some st => (s.tpEnd q o.alive st, true)
      | none =>
        if !x.roce ∧ 255 ≤ txmax then (s.txExhausted q o.alive, true)
        else
          let ops := x.ops.map fun z => if z.alive = o.alive ∧ !z.ended then { z with redo := some (txmax + 1) } else z
          (s.setQp q { x with ops := ops, retx := x.retx ++ ps, notReady := x.notReady.filter fun n => !ps.contains n }, true)

/-- Re-issues a DMA or local operation that waits for the host, from the start of its segment; whether it did. -/
def State.replayLocal (s : State) (o : Op) : State × Bool :=
  match o.jrec with
  | none => (s, false)
  | some i =>
    if (o.phase == .gather || o.phase == .flushing) && ((AMap.find s.jnl i).map (·.role)) != some 1 then
      let s := (s.markReplay i ((o.d.laddr % pageSize + o.seg) / pageSize)).killTags fun t => t.use.owner == o.ref && !t.timedOut
      let s := (s.holdOp o.ref).updOp o.ref fun y => { y with reissued := true }
      (s.resumeOp o.ref, true)
    else (s, false)

/-- Re-issues every operation whose record meets a test; how many there were. -/
def State.replayAll (s : State) (p : Nat → Bool) : State × Nat :=
  let hit := fun (j : Option Nat) => (j.map p).getD false
  let tp := s.qps.flatMap fun e => (e.2.ops.filter fun o => hit o.jrec).map fun o => (e.1, o)
  let (s, n) := tp.foldl (fun (a : State × Nat) x => let r := a.1.replayTp x.1 x.2; (r.1, a.2 + b2n r.2)) (s, 0)
  (s.ops.filter fun o => hit o.jrec).foldl (fun (a : State × Nat) o => let r := a.1.replayLocal o; (r.1, a.2 + b2n r.2)) (s, n)

/-- PIPELINE_PARITY_EVENT: what lies in the stages of a pipeline is lost, its records are re-issued, and it takes no heads for the cycles
of steps 1 to 5; while the steps of an earlier event still run it is a cause of FAULT (Tables 17.5 and 17.7). -/
def State.pipeParity (s : State) (k : Nat) (again : Bool) : State :=
  if 4 ≤ k ∨ !s.netOpen then s
  else if again ∨ (s.pipe k).recovering ≠ 0 then s.enterFault 0x04
  else
    let s := s.qps.foldl (fun t e => if e.1 % 4 = k ∧ !e.2.unauth.isEmpty then t.zeroUnauth e.1 else t) s
    let x := s.pipe k
    let s := s.setPipe k { x with miss := x.miss.filter (fun m => m.pkt.isNone && m.roce.isNone), recovering := 4353 }
    let s := { s with qps := s.qps.map fun (e : Nat × Qp) => if e.1 % 4 = k then (e.1, { e.2 with resps := [] }) else e }
    let (s, n) := s.replayAll fun i => sliceOf i == k
    s.singleFault 7 k 0 n

/-! ### Lost words (R444, R445, Table 17.2) -/

/-- The packets of an operation at the target that have not been acknowledged are not received any more; its record is gone. -/
def State.tgtLost (s : State) (q : Nat) (o : TgtOp) : State :=
  let x := s.qp q
  let lost := x.rcvd.filter o.psns.contains
  let put := fun (y : TgtOp) =>
    if y.alive = o.alive then { y with left := y.left + lost.length, psns := y.psns.filter (fun p => !lost.contains p), jrec := none } else y
  s.setQp q { x with rcvd := x.rcvd.filter fun p => !lost.contains p, tops := x.tops.map put }

/-- A waiting turnstile operation ends with UNREACHABLE; the turnstile is unchanged by it. -/
def State.waiterLost (s : State) (src : TsSource) : State :=
  let (s, ds) := s.dropWaiters (fun w => w.src == src) .unreachable
  s.tsEnded ds

/-- The operation whose record is lost (R445, R453). -/
def State.recordLost (s : State) (i : Nat) (j : JRec) : State :=
  match s.ops.find? fun o => o.jrec == some i with
  | some o =>
    if o.phase = .armed then
      ({ s with armed := s.armed.filter fun a => a.second != o.ref }).complete o .unreachable
    else if j.state = .waiting then s.waiterLost (.op o.ref)
    else
      let q := o.d.qp
      let strict := match (s.qp q).opOf o.ref with
        | some t => !(s.qp q).relaxed && !((s.qp q).unacked t).isEmpty
        | none => false
      let s := (s.killTags fun t => t.use.owner == o.ref && !t.timedOut).opFails o .unreachable
      if strict then s.qpError q .unreachable .unreachable else s
  | none =>
    match s.qps.findSome? fun e => (e.2.tops.find? fun o => o.jrec == some i).map fun o => (e.1, o) with
    | some (q, o) =>
      if o.waits then s.waiterLost (.packet q o.first)
      else (s.tgtLost q o).freeJrec (some i)
    | none =>
      match s.qps.findSome? fun e => (e.2.ops.find? fun o => o.jrec == some i && !o.ended).map fun o => (e.1, o) with
      | some (q, o) => s.tpEnd q o.alive .unreachable
      | none => s.freeJrec (some i)

/-- JOURNAL_RECORD_BEYOND_ECC: a single fault of kind 6; a free record is written again as free. -/
def State.journalLost (s : State) (i : Nat) : State :=
  if 262144 ≤ i then s
  else
    match AMap.find s.jnl i with
    | none => s.singleFault 6 0x05 (sliceOf i) 0 false
    | some j => (s.recordLost i j).singleFault 6 0x05 (sliceOf i)

/-- Instances of an on-die memory by code (Table 17.12). -/
def memInstances (mem : Nat) : Nat :=
  match mem with
  | 0x01 => 4 | 0x02 => 4 | 0x03 => 1 | 0x04 => 1 | 0x07 => 16 | 0x08 => 160 | 0x09 => 4 | 0x0A => 4 | 0x0B => 1 | 0x0C => 1 | 0x0D => 1
  | 0x0E => 16 | 0x0F => 16 | 0x10 => 4 | 0x11 => 4 | 0x12 => 4 | _ => 0

/-- The n-th packet of the lists of a map that a test selects, taken out. -/
def dropNth {α : Type} (p : Nat → Bool) : Nat → AMap (List α) → AMap (List α)
  | _, [] => []
  | n, (k, l) :: m => if !p k then (k, l) :: dropNth p n m
    else if n < l.length then (if l.length = 1 then m else (k, l.eraseIdx n) :: m) else (k, l) :: dropNth p (n - l.length) m

/-- A packet that waits at a link and came on another holds a word beyond ECC in the ingress buffer: it is dropped as one is whose link
leaves the live set, and one whose head has been sent is completed with zeros and fails CRC (log entry 138). -/
def State.ingressLost (s : State) (l n : Nat) : State :=
  let all : List (Nat × VPkt) := s.vl.links.flatMap fun e => (e.2.queue.filter (·.came l)).map fun p => (e.1, p)
  match all[n]? with
  | none => s
  | some (k, p) =>
    let x := s.vlink k
    let cut := { p with h := { p.h with body := p.h.body.take (64 * p.sent - 16) ++ List.replicate (p.h.bytes - (64 * p.sent - 16)) 0#8 } }
    if p.sent = 0 then (s.setVlink k { x with queue := x.queue.erase p }).vlLost k p
    else s.setVlink k { x with queue := x.queue.map fun y => if y = p then cut else y }

/-- A packet that an on-die buffer holds is dropped (Table 17.2): of a link's ingress buffer, or of the injection or ejection queues of a
pipeline. -/
def State.packetLost (s : State) (mem inst n : Nat) : State :=
  match mem with
  | 0x0F => s.ingressLost inst n
  | 0x11 => { s with vl := { s.vl with inj := dropNth (fun k => k / 256 == inst) n s.vl.inj } }
  | 0x12 =>
    let x := s.pipe inst
    s.setPipe inst { x with heads := x.heads.eraseIdx n }
  | _ => s

/-- SRAM_WORD_BEYOND_ECC of a memory of Table 17.12 that has no row of its own: the Journal, the Square and the Block stores have. -/
def State.sramLost (s : State) (mem inst : Nat) (w : SramLoss) : State :=
  if memInstances mem ≤ inst then s
  else
    let fault := fun (s : State) (n : Nat) => s.singleFault 6 mem inst n
    match mem, w with
    | 0x01, .bothCopies => s.enterFault 0x03
    | 0x02, .bothCopies => s.enterFault 0x03
    | 0x03, .bothCopies => s.enterFault 0x03
    | 0x04, .bothCopies => s.enterFault 0x03
    | 0x07, .transfer i =>
      let (t, n) := s.replayAll fun k => k == i
      fault t n
    | 0x08, .translation fn a => fault (s.tlbLost (.block inst) fn a) 0
    | 0x09, .translation fn a => fault (s.tlbLost (.dma inst) fn a) 0
    | 0x0A, .translation fn a => fault (s.tlbLost (.pipe inst) fn a) 0
    | 0x0B, .translation fn a => fault (s.tlbLost .stlb fn a) 0
    | 0x0C, .translation fn a =>
      fault { s with walkCache := s.walkCache.filter fun e => !(e.fn == fn && e.pre == a / 2 ^ (12 + 9 * e.level)) } 0
    | 0x0D, .key xts fn idx => fault (s.cipherParity xts fn idx) 0
    | _, .packet n => fault (s.packetLost mem inst n) 0
    | 0x0E, _ => fault (if s.vlLive inst then s.vlDown inst .retrain (s.vlink inst).lanes else s) 0
    | _, _ => fault s 0

/-! ### Other faults of the device -/

/-- ROUTER_PARITY_EVENT (Table 17.7). -/
def State.routerParity (s : State) : State := s.enterFault 0x05

/-- AVENUE_STOP_FAULT (Table 17.7). -/
def State.stopFault (s : State) : State := s.enterFault 0x06

/-- The links of each bundle of Table 1.3, the bundles numbered from 0 in the table's order (DESIGN CHOICE, log 29: the spec does not
number them): 0–7 between D and A of one number, 8–11 between two Districts of a die, 12–17 along the hub rows, 18–21 between the rows,
22–29 between A and the HBM controller of one number. A bundle past 29 has none. -/
def bundleLinks (bundle : Nat) : Nat :=
  if bundle < 8 then 20 else if bundle < 12 then 8 else if bundle < 22 then 16 else if bundle < 30 then 20 else 0

/-- AVENUE_LINK_FAILED: the link of a bundle is out of service, a single fault of kind 3; nothing is lost (R442, R450). -/
def State.avenueLink (s : State) (bundle link : Nat) : State :=
  let n := bundle * 20 + link
  if bundleLinks bundle ≤ link ∨ s.bist.linksOut.contains n then s
  else ({ s with bist := { s.bist with linksOut := s.bist.linksOut ++ [n] } }).singleFault 3 link 0

/-- SQUARE_WORD_BEYOND_ECC: the chunk is computed again from inputs that are unchanged, to the same bits (R383). The word lies in the slice of
the chunk's slot (R378). -/
def State.squareWord (s : State) (slice : Nat) (id chunk : Nat) : State :=
  match AMap.find s.colls id with
  | none => s
  | some c =>
    if !(c.chunks.any fun k => k.c == chunk && k.slot % 8 == slice) then s
    else (s.countSat F.sqRecompChunks).singleFault 6 0x06 slice

/-! ### Reading the Journal (R447, R459) -/

/-- The bytes of a record (Table 17.3). -/
def JRec.bytes (j : JRec) : List Byte :=
  let flags := j.role * 64 + b2n j.nonIdem * 32 + b2n j.notify * 16 + b2n j.lkind * 8 + b2n j.replayed * 4 + b2n j.parked * 2
  leBytes j.state.code 1 ++ leBytes flags 1 ++ leBytes j.opcode 1 ++ leBytes j.fn 1 ++ leBytes (j.qp % 2 ^ 20) 4 ++ leBytes j.firstPsn 4 ++
    leBytes j.alive 2 ++ leBytes j.nunits 2 ++ leBytes j.target 8 ++ leBytes j.loc 8 ++ leBytes j.len 4 ++ leBytes j.rkey 4 ++
    leBytes j.pos 4 ++ leBytes j.queue 2 ++ leBytes j.resume 1 ++ leBytes j.txmax 1 ++ leBytes j.time 8 ++ leBytes 0 8

/-- REC_SEL: a snapshot of a record; of a free one only STATE is given. -/
def State.recSel (s : State) (org : Origin) (i : Nat) : State :=
  if !s.dcsOpen org 0x9000040 then s
  else
    let i := i % 2 ^ 18
    let s := s.setFld F.jnlRecSelIndex i
    let (bs, s) := match AMap.find s.jnl i with
      | some j => (j.bytes, s)
      | none =>
        let (f, t) := s.freeBytes 55
        ((0#8 :: f) ++ leBytes 0 8, t)
    (List.range 8).foldl (fun t k => t.setFld F.jnlRecDataData (leAt bs (8 * k) 8) k) s

end Machine
end Sys2Proof
end

