-- ==== Sys2Proof/Machine/Digest.lean ====
section
/-! DEFINITION. What signatures and measurements rest on (R479, R491): SHA-384 (FIPS 180-4), and the verification of ECDSA with the curve
P-384 (FIPS 186-5). -/

namespace Sys2Proof
namespace Machine

/-! ### SHA-384 -/

/-- The constants of rounds 0 to 39, and of rounds 40 to 79. -/
def shaKsLow : List Nat :=
  [0x428A2F98D728AE22, 0x7137449123EF65CD, 0xB5C0FBCFEC4D3B2F, 0xE9B5DBA58189DBBC,
   0x3956C25BF348B538, 0x59F111F1B605D019, 0x923F82A4AF194F9B, 0xAB1C5ED5DA6D8118,
   0xD807AA98A3030242, 0x12835B0145706FBE, 0x243185BE4EE4B28C, 0x550C7DC3D5FFB4E2,
   0x72BE5D74F27B896F, 0x80DEB1FE3B1696B1, 0x9BDC06A725C71235, 0xC19BF174CF692694,
   0xE49B69C19EF14AD2, 0xEFBE4786384F25E3, 0x0FC19DC68B8CD5B5, 0x240CA1CC77AC9C65,
   0x2DE92C6F592B0275, 0x4A7484AA6EA6E483, 0x5CB0A9DCBD41FBD4, 0x76F988DA831153B5,
   0x983E5152EE66DFAB, 0xA831C66D2DB43210, 0xB00327C898FB213F, 0xBF597FC7BEEF0EE4,
   0xC6E00BF33DA88FC2, 0xD5A79147930AA725, 0x06CA6351E003826F, 0x142929670A0E6E70,
   0x27B70A8546D22FFC, 0x2E1B21385C26C926, 0x4D2C6DFC5AC42AED, 0x53380D139D95B3DF,
   0x650A73548BAF63DE, 0x766A0ABB3C77B2A8, 0x81C2C92E47EDAEE6, 0x92722C851482353B]

/-- The constants of rounds 40 to 79. -/
def shaKsHigh : List Nat :=
  [0xA2BFE8A14CF10364, 0xA81A664BBC423001, 0xC24B8B70D0F89791, 0xC76C51A30654BE30,
   0xD192E819D6EF5218, 0xD69906245565A910, 0xF40E35855771202A, 0x106AA07032BBD1B8,
   0x19A4C116B8D2D0C8, 0x1E376C085141AB53, 0x2748774CDF8EEB99, 0x34B0BCB5E19B48A8,
   0x391C0CB3C5C95A63, 0x4ED8AA4AE3418ACB, 0x5B9CCA4F7763E373, 0x682E6FF3D6B2B8A3,
   0x748F82EE5DEFB2FC, 0x78A5636F43172F60, 0x84C87814A1F0AB72, 0x8CC702081A6439EC,
   0x90BEFFFA23631E28, 0xA4506CEBDE82BDE9, 0xBEF9A3F7B2C67915, 0xC67178F2E372532B,
   0xCA273ECEEA26619C, 0xD186B8C721C0C207, 0xEADA7DD6CDE0EB1E, 0xF57D4F7FEE6ED178,
   0x06F067AA72176FBA, 0x0A637DC5A2C898A6, 0x113F9804BEF90DAE, 0x1B710B35131C471B,
   0x28DB77F523047D84, 0x32CAAB7B40C72493, 0x3C9EBE0A15C9BEBC, 0x431D67C49C100D4C,
   0x4CC5D4BECB3E42B6, 0x597F299CFC657E2A, 0x5FCB6FAB3AD6FAEC, 0x6C44198C4A475817]

/-- The constants of the 80 rounds. -/
def shaKs : List Nat := shaKsLow ++ shaKsHigh

/-- The initial hash value. -/
def shaInit : List Nat :=
  [0xCBBB9D5DC1059ED8, 0x629A292A367CD507, 0x9159015A3070DD17, 0x152FECD8F70E5939,
   0x67332667FFC00B31, 0x8EB44A8768581511, 0xDB0C2E0D64F98FA7, 0x47B5481DBEFA4FA4]

/-- Rotates a word of 64 bits right. -/
def ror64 (x n : Nat) : Nat := x >>> n ||| (x <<< (64 - n)) % 2 ^ 64

/-- The next word of the message schedule, from the words before it, the latest first. -/
def shaWord (w : List Nat) : Nat :=
  let a := w.getD 1 0
  let b := w.getD 14 0
  ((ror64 a 19 ^^^ ror64 a 61 ^^^ a >>> 6) + w.getD 6 0 + (ror64 b 1 ^^^ ror64 b 8 ^^^ b >>> 7) + w.getD 15 0) % 2 ^ 64

/-- n further words of the schedule. -/
def shaExpand : Nat → List Nat → List Nat
  | 0, w => w
  | n + 1, w => shaExpand n (shaWord w :: w)

/-- One round. -/
def shaRound (v : List Nat) (kw : Nat × Nat) : List Nat :=
  match v with
  | [a, b, c, d, e, f, g, h] =>
    let t1 := h + (ror64 e 14 ^^^ ror64 e 18 ^^^ ror64 e 41) + ((e &&& f) ^^^ ((2 ^ 64 - 1 - e) &&& g)) + kw.1 + kw.2
    let t2 := (ror64 a 28 ^^^ ror64 a 34 ^^^ ror64 a 39) + ((a &&& b) ^^^ (a &&& c) ^^^ (b &&& c))
    [(t1 + t2) % 2 ^ 64, a, b, c, (d + t1) % 2 ^ 64, e, f, g]
  | _ => v

/-- A block of 16 words into the hash value. -/
def shaBlock (h m : List Nat) : List Nat :=
  let ws := (shaExpand 64 m.reverse).reverse
  List.zipWith (fun a b => (a + b) % 2 ^ 64) h ((shaKs.zip ws).foldl shaRound h)

/-- The number of bytes, most significant first. -/
def beNat (bs : List Byte) : Nat := bs.foldl (fun t b => t * 256 + b.toNat) 0

/-- The padded message. -/
def shaPad (bs : List Byte) : List Byte :=
  bs ++ [0x80#8] ++ List.replicate ((239 - bs.length % 128) % 128) 0#8 ++ beBytes (8 * bs.length) 16

/-- The SHA-384 digest of bytes, 48 bytes. -/
def sha384 (bs : List Byte) : List Byte :=
  let m := shaPad bs
  let h := (List.range (m.length / 128)).foldl (fun h i =>
    shaBlock h ((List.range 16).map fun j => beNat ((m.drop (128 * i + 8 * j)).take 8))) shaInit
  (h.take 6).flatMap fun w => beBytes w 8

/-! ### The curve P-384 -/

/-- The prime of the field. -/
def ecP : Nat := 0xFFFFFFFFFFFFFFFFFFFFFFFFFFFFFFFFFFFFFFFFFFFFFFFFFFFFFFFFFFFFFFFEFFFFFFFF0000000000000000FFFFFFFF

/-- The coefficient b; a is -3. -/
def ecB : Nat := 0xB3312FA7E23EE7E4988E056BE3F82D19181D9C6EFE8141120314088F5013875AC656398D8A2ED19D2A85C8EDD3EC2AEF

/-- The order of the base point. -/
def ecN : Nat := 0xFFFFFFFFFFFFFFFFFFFFFFFFFFFFFFFFFFFFFFFFFFFFFFFFC7634D81F4372DDF581A0DB248B0A77AECEC196ACCC52973

/-- A point in Jacobian coordinates; Z is 0 at infinity. -/
structure EcPoint where
  x : Nat
  y : Nat
  z : Nat
  deriving DecidableEq, Repr

/-- The base point. -/
def ecG : EcPoint :=
  { x := 0xAA87CA22BE8B05378EB1C71EF320AD746E1D3B628BA79B9859F741E082542A385502F25DBF55296C3A545E3872760AB7
    y := 0x3617DE4A96262C6F5D9E98BF9292DC29F8F41DBD289A147CE9DA3113B5F0B8C00A60B1CE1D7E819D7A431D7C90EA0E5F
    z := 1 }

/-- A difference modulo p. -/
def ecSub (a b : Nat) : Nat := (a + ecP - b % ecP) % ecP

/-- The double of a point. -/
def EcPoint.double (a : EcPoint) : EcPoint :=
  let yy := a.y * a.y % ecP
  let s := 4 * a.x * yy % ecP
  let zz := a.z * a.z % ecP
  let m := 3 * ecSub a.x zz * (a.x + zz) % ecP
  let x := ecSub (m * m) (2 * s)
  { x := x, y := ecSub (m * ecSub s x) (8 * yy * yy), z := 2 * a.y * a.z % ecP }

/-- The sum of two points. -/
def EcPoint.add (a b : EcPoint) : EcPoint :=
  if a.z = 0 then b
  else if b.z = 0 then a
  else
    let za := a.z * a.z % ecP
    let zb := b.z * b.z % ecP
    let u := a.x * zb % ecP
    let s := a.y * zb * b.z % ecP
    let h := ecSub (b.x * za) u
    let r := ecSub (b.y * za * a.z) s
    if h = 0 then (if r = 0 then a.double else { x := 1, y := 1, z := 0 })
    else
      let hh := h * h % ecP
      let hhh := hh * h % ecP
      let v := u * hh % ecP
      let x := ecSub (ecSub (r * r) hhh) (2 * v)
      { x := x, y := ecSub (r * ecSub v x) (s * hhh), z := a.z * b.z * h % ecP }

/-- The point u of the base point and w of another. -/
def ecCombine (u w : Nat) (q : EcPoint) : EcPoint :=
  let both := ecG.add q
  (List.range 384).foldl (fun t i =>
    let t := t.double
    match bit u (383 - i), bit w (383 - i) with
    | true, true => t.add both
    | true, false => t.add ecG
    | false, true => t.add q
    | false, false => t) { x := 1, y := 1, z := 0 }

/-- An inverse modulo n: the power n - 2. -/
def ecInv (a : Nat) : Nat := (List.range 384).foldl (fun t i => if bit (ecN - 2) (383 - i) then t * t % ecN * a % ecN else t * t % ecN) 1

/-- Whether coordinates name a point of the curve. -/
def ecOnCurve (x y : Nat) : Bool := decide (x < ecP ∧ y < ecP ∧ y * y % ecP = (x * x * x + ecB + (ecP - 3) * x) % ecP)

/-- Whether (r, s) is a signature of a digest under the key (x, y). -/
def ecdsaOk (x y : Nat) (digest : List Byte) (r s : Nat) : Bool :=
  if !ecOnCurve x y ∨ r = 0 ∨ ecN ≤ r ∨ s = 0 ∨ ecN ≤ s then false
  else
    let w := ecInv s
    let t := ecCombine (beNat digest * w % ecN) (r * w % ecN) { x := x, y := y, z := 1 }
    let zz := t.z * t.z % ecP
    t.z != 0 && (r * zz % ecP == t.x || (decide (r + ecN < ecP) && (r + ecN) * zz % ecP == t.x))

end Machine
end Sys2Proof
end

