-- ==== Sys2Proof/Machine/Images.lean ====
section
/-! DEFINITION. Signed objects as they are read from flash: the signature block (R479, R480), the firmware package (Table 19.3), and the
header and directory of a structure image (R468 to R470). -/

namespace Sys2Proof
namespace Machine

/-- n bytes from byte a on. -/
def slice (bs : List Byte) (a n : Nat) : List Byte := (bs.drop a).take n

/-! ### Signatures (R478 to R480; Tables 19.1 and 19.2) -/

/-- The key slots that sign objects of a kind. -/
def State.slotsOf (s : State) (kind : Nat) : List KeySlot := if kind = 1 ∨ kind = 4 then s.fuses.mehreg else s.fw.owner

/-- Whether a signature block is well formed and signs an object of a kind: its key is that of the slot it names, and it verifies over the
object and its own first 160 bytes. -/
def State.sigOk (s : State) (kind : Nat) (body sig : List Byte) : Bool :=
  if sig.length ≠ 256 ∨ leAt sig 0 4 ≠ 0x314E4753 ∨ leAt sig 4 1 ≠ 1 ∨ leAt sig 5 1 ≠ kind ∨ leAt sig 7 1 ≠ 0 ∨
      (slice sig 12 52).any (· != 0#8) then false
  else
    match (s.slotsOf kind)[leAt sig 6 1]? with
    | some k =>
      k.set && !k.revoked && k.hash == sha384 (slice sig 64 96) &&
        ecdsaOk (beNat (slice sig 64 48)) (beNat (slice sig 112 48)) (sha384 (body ++ sig.take 160)) (beNat (slice sig 160 48))
          (beNat (slice sig 208 48))
    | none => false

/-- The lowest SVN that an object of a kind may have: the counter of its kind; a factory record is not compared. -/
def State.svnFloor (s : State) (kind : Nat) : Nat :=
  match kind with
  | 1 => s.fld F.imgSvnFwFused
  | 4 => 0
  | _ => s.fld F.imgSvnImgFused

/-- The SVN of a signed object of len bytes, if its signature and its SVN are accepted. -/
def State.signedSvn (s : State) (kind len : Nat) (bytes : List Byte) : Option Nat :=
  let svn := leAt (slice bytes len 256) 8 4
  if s.sigOk kind (bytes.take len) (slice bytes len 256) ∧ s.svnFloor kind ≤ svn ∧ svn ≤ 64 then some svn else none

/-! ### The firmware package (Table 19.3) -/

/-- Bytes of a firmware package before its signature block. -/
def fwLen (bytes : List Byte) : Nat := leAt bytes 8 4

/-- A firmware package that is accepted: its SVN and its SETTINGS_FMT. -/
def State.fwRead (s : State) (bytes : List Byte) : Option (Nat × Nat) :=
  let len := fwLen bytes
  if bytes.length < len + 256 ∨ len = 0 ∨ len % 4096 ≠ 0 ∨ 0x2000000 < len ∨ leAt bytes 0 4 ≠ 0x57465843 ∨ leAt bytes 4 2 ≠ 1 ∨
      (slice bytes 24 40).any (· != 0#8) then none
  else
    match s.signedSvn 1 len bytes with
    | some svn => if svn = leAt bytes 12 4 then some (svn, leAt bytes 6 2) else none
    | none => none

/-! ### The structure image (R468 to R470; Tables 18.7 to 18.10) -/

/-- An entry of the section directory. -/
structure DirEntry where
  type : Nat
  ver : Nat
  rsvd : Nat
  off : Nat
  len : Nat
  crc : Nat
  deriving DecidableEq, Repr

/-- The directory of an image. -/
def imgDir (bytes : List Byte) : List DirEntry :=
  (List.range (leAt bytes 6 2)).map fun k =>
    let a := 64 + 16 * k
    { type := leAt bytes a 1, ver := leAt bytes (a + 1) 1, rsvd := leAt bytes (a + 2) 2, off := leAt bytes (a + 4) 4,
      len := leAt bytes (a + 8) 4, crc := leAt bytes (a + 12) 4 }

/-- IMAGE_LEN. -/
def imgLen (bytes : List Byte) : Nat := leAt bytes 8 4

/-- Check 0x01: the header is valid. -/
def imgHeaderOk (bytes : List Byte) : Bool :=
  let n := leAt bytes 6 2
  let len := imgLen bytes
  leAt bytes 0 4 == 0x49585443 && leAt bytes 4 2 == 1 && decide (1 ≤ n ∧ n ≤ 32) &&
    decide (64 + 16 * n ≤ len ∧ len % 4096 = 0 ∧ len ≤ 0x1000000 ∧ len ≤ bytes.length) && leAt bytes 20 4 / 2 ^ 28 == 0 &&
    !(slice bytes 32 32).any (· != 0#8)

/-- Whether two sections share a byte. -/
def dirMeets (a b : DirEntry) : Bool := decide (a.off < b.off + b.len) && decide (b.off < a.off + a.len)

/-- Check 0x03: the TYPE of the first entry that is wrong, after those before it. -/
def dirWrong (n len : Nat) (before : List DirEntry) : List DirEntry → Option Nat
  | [] => none
  | e :: es =>
    if e.type = 0 ∨ 0xB < e.type ∨ e.ver ≠ 1 ∨ e.rsvd ≠ 0 ∨ (before.any fun b => b.type == e.type || dirMeets b e) ∨ e.off % 64 ≠ 0 ∨
        e.off < 64 + 16 * n ∨ len < e.off + e.len then some e.type
    else dirWrong n len (before ++ [e]) es

/-- The CRC-32C of bytes. -/
def crc32c (bs : List Byte) : Nat := crcOut false (bs.foldl (crcByte false) (crcInit false))

/-- Check 0x04: the TYPE of the first section that does not match its CRC. -/
def dirBadCrc (bytes : List Byte) (es : List DirEntry) : Option Nat :=
  (es.find? fun e => crc32c (slice bytes e.off e.len) != e.crc).map (·.type)

/-- Whether the condition of a section's Required column holds (Table 18.9); TUNING is optional. -/
def State.sectNeeded (s : State) (v : ImageValues) (type : Nat) : Bool :=
  match type with
  | 4 => (List.range 4).any fun g => s.domPresent (16 + g) && !bit v.lgEth g
  | 5 => v.lgEth != 0
  | 7 => s.fuses.variant.districts != 0
  | 9 => false
  | _ => true

/-- Check 0x05: the lowest TYPE that is required and absent. -/
def State.sectMissing (s : State) (v : ImageValues) (es : List DirEntry) : Option Nat :=
  [1, 2, 3, 4, 5, 6, 7, 8, 0xA, 0xB].find? fun t => s.sectNeeded v t && !es.any fun e => e.type == t

/-- The section that sets a register's RWL fields. -/
def sectOf (r : Reg) : Nat :=
  match r with
  | .rstCfg => 1 | .clkpwrFtCfg => 1
  | .hpPortCfg => 2
  | .enPortCfg => 3 | .enMacAddr => 3 | .enPrioMap => 3 | .enDscpMap => 3
  | .vlCfg => 4
  | .blkCfg => 7
  | .clkpwrGovCfg => 8
  | _ => 9

/-- The values of the sections that count (R469): a section that is absent, or whose condition is false, sets nothing; and the values of
the header. -/
def State.imgKept (s : State) (bytes : List Byte) (v : ImageValues) : ImageValues :=
  let has := fun (t : Nat) => (imgDir bytes).any (fun e => e.type == t) && (t == 9 || s.sectNeeded v t)
  { v with
    topo := leAt bytes 12 4, svn := leAt bytes 16 4, len4k := imgLen bytes / 4096, nsect := leAt bytes 6 2, capReq := leAt bytes 20 4
    route := if has 4 then v.route else [], detour := if has 4 then v.detour else []
    racks := if has 5 then v.racks else [], peers := if has 5 then v.peers else [], addrs := if has 5 then v.addrs else []
    nodeIps := if has 5 then v.nodeIps else []
    districts := if has 7 then v.districts else []
    rwl := v.rwl.filter fun x => has (sectOf x.1) }

/-- Checks 0x01 to 0x05 of Table 18.10: REASON and SECTION of the first that fails, or the values of the image. -/
def State.imgRead (s : State) (bytes : List Byte) (v : ImageValues) : Except (Nat × Nat) ImageValues :=
  let es := imgDir bytes
  if !imgHeaderOk bytes then .error (0x01, 0x00)
  else if s.signedSvn 2 (imgLen bytes) bytes ≠ some (leAt bytes 16 4) then .error (0x02, 0x00)
  else
    match dirWrong es.length (imgLen bytes) [] es with
    | some t => .error (0x03, t)
    | none =>
      match dirBadCrc bytes es with
      | some t => .error (0x04, t)
      | none =>
        match s.sectMissing v es with
        | some t => .error (0x05, t)
        | none => .ok (s.imgKept bytes v)

/-! ### The user calibration record (R474, R475) -/

/-- Bytes of a record before its signature block. -/
def calLen (bytes : List Byte) : Nat := 16 + 8 * leAt bytes 2 2

/-- A user record with its signature block: the entries, or IMG.UCAL.REASON and the first entry that fails. -/
def State.ucalEntries (s : State) (bytes : List Byte) (bounds : List (Nat × Nat)) : Except (Nat × Nat) (List (Nat × Nat × Int)) :=
  s.calRead (s.signedSvn 3 (calLen bytes) bytes).isSome bounds (bytes.take (calLen bytes))

end Machine
end Sys2Proof
end

