-- ==== Sys2Proof/Machine/Device.lean ====
section
/-! DEFINITION. Device states, resets and the start sequence, the structure image, recovery transitions, and the flash banks that a
start boots (R33 to R37, R456 to R477, R484 to R488; chapters 17 to 19). -/

namespace Sys2Proof
namespace Machine

/-! ### Flash banks (R484 to R488) -/

/-- A bank. -/
def Firmware.bank (f : Firmware) (n : Nat) : Bank := if n = 0 then f.bank0 else f.bank1

/-- Writes a bank. -/
def Firmware.setBank (f : Firmware) (n : Nat) (b : Bank) : Firmware := if n = 0 then { f with bank0 := b } else { f with bank1 := b }

/-- Moves a bank to a state. -/
def Firmware.move (f : Firmware) (n : Nat) (st : BankState) : Firmware := f.setBank n { f.bank n with state := st }

/-- The bank in a state, if there is one. -/
def Firmware.find (f : Firmware) (st : BankState) : Option Nat := [0, 1].find? fun n => (f.bank n).state == st

/-- The bank that commands act on (R483). -/
def Firmware.other (f : Firmware) : Nat := if f.runBank = 0 then 1 else 0

/-- The running bank is on trial. -/
def Firmware.onTrial (f : Firmware) : Bool := (f.bank f.runBank).state == .trial

/-- A rollback (Table 19.6): the trial bank becomes B_INVALID, the fallback bank B_ACTIVE. -/
def Firmware.rolledBack (f : Firmware) (reason : Nat) : Firmware :=
  let f := match f.find .trial with | some n => f.move n .invalid | none => f
  let f := match f.find .fallback with | some n => f.move n .active | none => f
  { f with rbReason := reason, tries := 0, tried := none }

/-- The activation reset (R486): the armed bank becomes B_TRIAL, the former running bank B_FALLBACK. -/
def Firmware.activated (f : Firmware) : Firmware :=
  match f.find .armed with
  | some n => { (f.move f.runBank .fallback).move n .trial with tries := 3, tried := none, activate := false }
  | none => { f with activate := false }

/-- Arming never survives a start (R484). -/
def Firmware.disarmed (f : Firmware) : Firmware :=
  match f.find .armed with
  | some n => { f.move n .staged with activate := false }
  | none => { f with activate := false }

/-! ### Resets (R458, R464; Tables 17.9 and 18.5) -/

/-- Keeps a field over a reset. -/
def State.carry (s t : State) (f : Fld) (o : Nat := 0) : State := t.setFld f (s.fld f o) o

/-- Blocks out of service stay so over a device reset and a power-down of their District (Table 12.5; over a cold reset they do not: DESIGN
CHOICE, log entry 136). -/
def State.keepOut (s t : State) : State :=
  let out := s.blks.filter fun e => e.2.state == .out
  let t := out.foldl (fun (u : State) e => u.setBlk e.1 { state := .out, lastStatus := e.2.lastStatus }) t
  (List.range 8).foldl (fun (u : State) d => s.carry u F.blkDistStatusInService d) t

/-- The state of the device after a reset, cold or not, before a start: everything is as at reset but what Table 17.9 keeps, the
inputs of the device, and the settings held in flash and fuses. -/
def State.restart (s : State) (cold : Bool) : State :=
  let links := s.links.foldl (fun m e => AMap.save ({} : HostLink) m e.1 { perst := e.2.perst }) []
  let dev : DevCtl := { starting := false, porLow := s.dev.porLow, resetLow := s.dev.resetLow }
  let fw : Firmware := if cold then { s.fw with kek := none, loaded := none } else s.fw
  let clk : ClockState := if cold then {} else s.clk
  let gov : Gov := { trip := s.gov.trip }
  let bist : Bist := { s.bist with defers := [], linksOut := [], rows := [], groups := [] }
  let r := State.reset
  let t := { r with fuses := s.fuses, dev := dev, clk := clk, links := links, gov := gov, bist := bist, fw := fw,
                    tap := s.tap, out := s.out, freeCount := s.freeCount, pending := s.pending }
  let t := (s.carry (s.carry t F.imgSvnFwFused) F.imgSvnImgFused).repairAll bist.fused
  if cold then t
  else
    let t := s.keepOut t
    let t := s.carry (s.carry (s.carry t F.jnlRstatusFaultCause) F.clkpwrClkStatusMasterLock) F.clkpwrClkStatusRefclkOk
    (List.range 4).foldl (fun u n => s.carry (s.carry u F.hpPortCfgBifurcate n) F.hpPortCfgClassStrap n) t

/-- A device reset (R464): the cause is recorded, everything is lost, and the internal pulse runs unless RESET_N holds the reset. -/
def State.deviceReset (s : State) (cause : Nat) : State :=
  match s.dev.state with
  | .off => s
  | .standby => s
  | _ =>
    let s := if s.fw.activate then { s with fw := s.fw.activated } else s
    let t := s.restart false
    let t := { t with dev := { t.dev with pulse := !t.dev.resetLow } }
    (t.setFld F.rstStateCause cause).emit (.pin pinTrayFaultN false)

/-- A trial ends (R487), and a device reset with CAUSE 6 follows. -/
def State.rollBack (s : State) (reason : Nat) : State := ({ s with fw := s.fw.rolledBack reason }).deviceReset 6

/-- t0 of a start: the boot bank is chosen (R484, R485), and the sequence begins. -/
def State.startBegins (s : State) : State :=
  let f := s.fw.disarmed
  match f.find .trial with
  | some n =>
    if f.tries = 0 then ({ s with fw := f }).rollBack 2
    else { s with fw := { f with tries := f.tries - 1, runBank := n }, dev := { s.dev with starting := true } }
  | none => { s with fw := { f with runBank := (f.find .active).getD 0 }, dev := { s.dev with starting := true } }

/-- Enters STANDBY: only the always-on region is powered. -/
def State.toStandby (s : State) (lost : Bool) : State :=
  let t := s.restart true
  ({ t with dev := { t.dev with state := .standby, railLost := lost } }).emit (.pin pinTrayFaultN false)

/-- VAON_UP: VAON reaches tolerance with POR_N asserted. -/
def State.vaonUp (s : State) : State :=
  match s.dev.state with
  | .off => ({ s with dev := { s.dev with porLow := true } }).toStandby false
  | _ => s

/-- VAON_LOSS: nothing is powered. -/
def State.vaonLoss (s : State) : State :=
  let t := s.restart true
  { t with dev := { t.dev with state := .off, porLow := s.dev.porLow, resetLow := s.dev.resetLow }, gov := {} }

/-- POR_N_ASSERT: a cold reset; it releases THERM_TRIP_N (R501). -/
def State.porAssert (s : State) : State :=
  let s := { s with dev := { s.dev with porLow := true } }
  match s.dev.state with
  | .off => s
  | _ =>
    let s := if s.gov.trip then s.emit (.pin pinThermTripN true) else s
    let t := s.toStandby false
    { t with gov := {} }

/-- POR_N_DEASSERT: a cold start, unless RESET_N holds it. -/
def State.porDeassert (s : State) : State :=
  if !s.dev.porLow then s
  else
    let s := { s with dev := { s.dev with porLow := false } }
    match s.dev.state with
    | .standby =>
      let s := { s with dev := { s.dev with state := .bringup } }
      if s.dev.resetLow then s else s.startBegins
    | _ => s

/-- RAIL_OUT_OF_TOLERANCE: a group other than VAON, while POR_N is deasserted (R462). -/
def State.railOut (s : State) : State :=
  match s.dev.state with
  | .off => s
  | .standby => if s.dev.porLow then s else { s with dev := { s.dev with railLost := true } }
  | _ => s.toStandby true

/-- RESET_N_ASSERT. -/
def State.resetAssert (s : State) : State :=
  if s.dev.resetLow then s else ({ s with dev := { s.dev with resetLow := true } }).deviceReset 1

/-- RESET_N_DEASSERT: t0 of the device start. -/
def State.resetDeassert (s : State) : State :=
  if !s.dev.resetLow then s
  else
    let s := { s with dev := { s.dev with resetLow := false } }
    match s.dev.state with
    | .bringup => s.startBegins
    | _ => s

/-- INTERNAL_RESET_PULSE_END: t0 of the device start. -/
def State.pulseEnd (s : State) : State :=
  if !s.dev.pulse then s else ({ s with dev := { s.dev with pulse := false } }).startBegins

/-! ### Power domains that a start or a request switches (R27, R36) -/

/-- Writes the RWL fields of registers, of those for which p holds (R471). -/
def State.applyRwl (s : State) (rs : List (Reg × Nat × Nat)) (p : Reg → Nat → Bool) : State :=
  rs.foldl (fun t x =>
    if p x.1 x.2.1 then
      (x.1.fields.filter fun f => f.acc == .rwl).foldl (fun t f =>
        (List.range f.n).foldl (fun t e => t.setFld f (bits x.2.2 (f.pos e + f.width - 1) (f.pos e)) x.2.1 e) t) t
    else t) s

/-- The residency table lies on the hub die and reads on every variant that has Districts (R328). -/
def tableDomain (blkPer : Nat) : Option Nat := if blkPer = 0 then some noDomain else none

/-- The domain whose unit a register belongs to, by instance (R36): none for registers of parts that are not switched. BLK.CFG is none of an
absent unit on a variant without Blocks, where R328 speaks of the District, Block and residency registers only: it reads as on any other
(DESIGN CHOICE, log entry 132). -/
def regDomain (blkPer : Nat) (r : Reg) (i : Nat) : Option Nat :=
  match r with
  | .blkDistStatus => some i
  | .blkStatus => some (blkDomain blkPer i) | .blkFlags => some (blkDomain blkPer i) | .blkFmtSel => some (blkDomain blkPer i)
  | .blkFmtData => some (blkDomain blkPer i) | .blkResUsed => some (blkDomain blkPer i) | .blkSeqCtrl => some (blkDomain blkPer i)
  | .blkSeqPc => some (blkDomain blkPer i)
  | .blkResCount => tableDomain blkPer | .blkResSel => tableDomain blkPer | .blkResEntry => tableDomain blkPer
  | .blkResOwner => tableDomain blkPer
  | .hbmStatus => some (8 + i) | .hbmPcRetired => some (8 + i) | .hbmEccCnt => some (8 + i) | .hbmEccLog => some (8 + i)
  | .hbmScrub => some (8 + i) | .hbmAtom => some (8 + i)
  | .vlLinkCtrl => some (16 + i / 4) | .vlLinkStatus => some (16 + i / 4) | .vlLinkFec => some (16 + i / 4)
  | .vlLinkRetry => some (16 + i / 4) | .vlLinkQueue => some (16 + i / 4)
  | .enPortCfg => some (16 + i / 8) | .enPortStatus => some (16 + i / 8) | .enMacAddr => some (16 + i / 8)
  | .enPrioMap => some (16 + i / 8) | .enDscpMap => some (16 + i / 8) | .enTxThresh => some (16 + i / 8)
  | .enLpi => some (16 + i / 8) | .enTxqOcc => some (16 + i / 8) | .enGateCtrl => some (16 + i / 8)
  | .enGateBaseS => some (16 + i / 8) | .enGateBaseNs => some (16 + i / 8) | .enGateCycle => some (16 + i / 8)
  | .enGclSel => some (16 + i / 8) | .enGclEntry => some (16 + i / 8) | .enStat => some (16 + i / 22 / 8)
  | .hpPortCfg => some (20 + i) | .hpLinkStatus => some (20 + i) | .hpCrash => some (20 + i) | .hpFnSel => some (20 + i)
  | .hpFnInfo => some (20 + i)
  | _ => none

/-- Sets the registers of a domain back to their reset values; the configuration of a host port is read by the rest of the device and
is taken from the image again at once. -/
def State.resetDomRegs (s : State) (d : Nat) : State :=
  let per := s.fuses.variant.blkPerDist
  let gone := fun (kv : Nat × Nat) =>
    let k := kv.1 / 64
    dcsLocs.any fun l => l.reg.ctorIdx == k % 512 && l.reg != .hpPortCfg && regDomain per l.reg (k / 512) == some d
  { s with flds := s.flds.filter fun kv => !gone kv }

/-- The lock bits of a domain's PLL. -/
def State.setPll (s : State) (d : Nat) (v : Bool) : State :=
  if d < 8 then s
  else if d < 16 then s.setFld F.clkpwrClkStatusHbmPllLock (putBit (s.fld F.clkpwrClkStatusHbmPllLock) (d - 8) v)
  else if d < 20 then s.setFld F.clkpwrClkStatusSerdesPllLock (putBit (s.fld F.clkpwrClkStatusSerdesPllLock) (d - 16) v)
  else s.setFld F.clkpwrClkStatusPciePllLock (putBit (s.fld F.clkpwrClkStatusPciePllLock) (d - 20) v)

/-- Both links of a port. -/
def portLinks (n : Nat) : List LinkId := [{ port := n, sub := false }, { port := n, sub := true }]

/-- A domain is on: its PLL is locked, the settings of the image are in its registers, and the links of a host port train. -/
def State.domUp (s : State) (d : Nat) : State :=
  let s := (s.setDom d .on).setPll d true
  let s := s.applyRwl s.img.rwl fun r i => regDomain s.fuses.variant.blkPerDist r i == some d
  if 20 ≤ d then (portLinks (d - 20)).foldl State.startTraining s else s

/-! ### The structure image (R468 to R472) -/

/-- The lane group in Valir mode that a link belongs to exists. -/
def State.valirLink (s : State) (v : ImageValues) (l : Nat) : Bool :=
  decide (l < 16) && s.domPresent (16 + l / 4) && !bit v.lgEth (l / 4)

/-- Candidates of a route entry that are defined: their links and level actions. -/
def routeUses (e : Nat) : List (Nat × Nat) := ((List.range 4).map (cand e)).filterMap fun c => if c.2.2 then some (c.1, c.2.1) else none

/-- The value of a field in the image. -/
def rwlOf (v : ImageValues) (f : Fld) (i : Nat) : Nat :=
  match v.rwl.find? fun x => x.1 == f.reg && x.2.1 == i with
  | some x => bits x.2.2 f.hi f.lo
  | none => f.reset 0

/-- Whether the image switches on a link or a port of a lane group that is absent (R7). -/
def State.lanesAbsent (s : State) (v : ImageValues) : Bool :=
  ((List.range 16).any fun l => rwlOf v F.vlLinkCtrlEnable l == 1 && !s.domPresent (16 + l / 4)) ||
    ((List.range 32).any fun p => rwlOf v F.enPortCfgEnable p == 1 && !s.domPresent (16 + p / 8))

/-- The units that a section names beyond those present (check 0x06): the section's TYPE. -/
def State.absentUnit (s : State) (v : ImageValues) : Option Nat :=
  let x := s.fuses.variant
  let units := x.districts + 2 ^ 8 * x.stacks + 2 ^ 16 * x.laneGroups + 2 ^ 20 * x.ports + 2 ^ 24 * b2n x.sqFp + 7 * 2 ^ 25
  let bad := fun (p : Bool) (sect : Nat) => if p then some sect else none
  let port := fun (p : Nat) => !s.domPresent (16 + p / 8)
  let hops := (v.racks.map (·.2)) ++ v.peers.map (·.2)
  firstSome [
    bad (v.capReq &&& units != v.capReq) 0x00,
    bad (!s.portPresent v.mgrPort || v.vfs.any fun e => e.2 != 0 && !s.portPresent (e.1 / 2)) 0x02,
    bad (v.lgEth &&& x.laneGroups != v.lgEth || s.lanesAbsent v || v.neigh.any fun e => !s.domPresent (16 + e.1 / 4)) 0x03,
    bad ((v.route ++ v.detour).any fun e => (routeUses e.2).any fun c => !s.domPresent (16 + c.1 / 4)) 0x04,
    bad (v.addrs.any (fun e => port e.1) || hops.any fun h => h.ports.any port) 0x05,
    bad (v.districts.any fun d => !s.domPresent d || decide (8 ≤ d)) 0x07,
    bad ((v.mayOn ++ v.onAtStart).any fun d => !s.domPresent d) 0x08]
where
  firstSome : List (Option Nat) → Option Nat
    | [] => none
    | some n :: _ => some n
    | none :: xs => firstSome xs

/-- Whether two ranges of bytes overlap. -/
def rangesMeet (a b : Nat × Nat) : Bool := decide (a.1 < b.1 + b.2) && decide (b.1 < a.1 + a.2)

/-- Whether no two of a list of ranges overlap. -/
def rangesApart : List (Nat × Nat) → Bool
  | [] => true
  | r :: rs => (rs.all fun q => !rangesMeet r q) && rangesApart rs

/-- The sizes of the reserved regions, in the order of Table 14.8. -/
def regionSizes (v : ImageValues) : List Nat := [2 ^ 28, 2 ^ 28, 2 ^ 23, v.holdMib * 2 ^ 20]

/-- Check 0x09 (R398, R444): the four regions of Table 14.8 are there, each of its size. A reserved region that lies in an absent stack fails
here, with REASON 0x09, and not with 0x06 (DESIGN CHOICE, log entry 132: R7 and Table 18.10 would let either stand). -/
def State.regionsOk (s : State) (v : ImageValues) : Bool :=
  let all := v.regions.flatMap fun r => [(r.1, r.2.1), (r.2.2, r.2.1)]
  v.regions.map (fun r => r.2.1) == regionSizes v &&
    (all.all fun r => decide (r.1 % pageSize = 0 ∧ r.1 + r.2 ≤ s.hbmBytes)) && rangesApart all &&
    (v.regions.all fun r =>
      decide (stackOf r.1 = stackOf (r.1 + r.2.1 - 1) ∧ stackOf r.2.2 = stackOf (r.2.2 + r.2.1 - 1) ∧ stackOf r.1 ≠ stackOf r.2.2)) &&
    decide (16 ≤ v.holdMib ∧ v.holdMib ≤ 1024)

/-- Check 0x0A, as far as the values are those of this model: the section's TYPE. -/
def State.valueWrong (v : ImageValues) : Option Nat :=
  let split := fun (l : Nat) => rwlOf v F.hpPortCfgBifurcate (l / 2) = 1
  if 256 ≤ v.rack ∨ (∃ p ∈ v.pos, 256 ≤ p) ∨ 16 < v.trusted.length then some 0x01
  else if (v.vfs.any fun e => decide (8 ≤ e.1 ∨ 63 < e.2) || (decide (split e.1) && decide (31 < e.2)) ||
      (!decide (split e.1) && e.1 % 2 == 1 && e.2 != 0)) ∨ v.fnMax < (v.vfs.map (·.2)).sum then some 0x02
  else if 16 ≤ v.lgEth ∨ 256 ≤ v.lgMode then some 0x03
  else if v.fnMax = 0 ∨ 256 < v.fnMax ∨ v.queueMax = 0 ∨ 4096 < v.queueMax then some 0x0A
  else if 1 < v.telMode ∨ (v.telMode = 0 ∧ 64 < v.fnMax) then some 0x0B
  else none

/-- The checks 0x06 to 0x0A of Table 18.10, in order: REASON and SECTION of the first that fails. -/
def State.imageCheck (s : State) (v : ImageValues) : Option (Nat × Nat) :=
  let classOf := fun (n : Nat) => rwlOf v F.hpPortCfgClassImg n == 1
  match s.absentUnit v with
  | some sect => some (0x06, sect)
  | none =>
      if ((List.range 4).any fun n => classOf n && !s.fuses.hpClass.getD n false) ∨ !classOf v.mgrPort then some (0x07, 0x02)
      else if ((v.route ++ v.detour).any fun e => (routeUses e.2).any fun c => c.2 == 3 || !s.valirLink v c.1) ∨
          (v.route.any fun e => bit e.2 62 && v.pos.getD s.fuses.posStraps != e.1) ∨ (v.detour.any fun e => bit e.2 62) then
        some (0x08, 0x04)
      else if !s.regionsOk v then some (0x09, 0x06)
      else
        match State.valueWrong v with
        | some sect => some (0x0A, sect)
        | none => none

/-- The checks 0x01 to 0x0A on an image as read: REASON and SECTION of the first that fails, or the values of the image. -/
def State.imageOf (s : State) (bytes : List Byte) (v : ImageValues) : Except (Nat × Nat) ImageValues :=
  match s.imgRead bytes v with
  | .error e => .error e
  | .ok v =>
    match s.imageCheck v with
    | some e => .error e
    | none => .ok v

/-- The image is refused (R470, R472); a trial from its bank ends. -/
def State.imageRefused (s : State) (reason sect : Nat) : State :=
  let s := ((s.resetReg .imgStatus 0).setFld F.imgStatusBank s.fw.runBank).setFld F.imgStatusReason reason
  let s := ((s.setFld F.imgStatusSection sect).setFld F.imgStatusCode Status.imgRejected.code).resetReg .imgInfo 0
  let s := { s with img := {}, dev := { s.dev with starting := false } }
  if s.fw.onTrial then s.rollBack 1 else s

/-- The image is accepted at step 6. -/
def State.imageAccepted (s : State) (v : ImageValues) : State :=
  let n := s.fw.runBank
  let s := ((s.resetReg .imgStatus 0).setFld F.imgStatusBank n).setFld F.imgStatusTopoId v.topo
  let s := (((s.setFlag F.imgStatusAccepted true).setFld F.imgInfoLen4k v.len4k).setFld F.imgInfoNsect v.nsect).setFld F.imgInfoFormat 1
  let s := s.setFld F.imgSvnImgRun v.svn
  { s with img := { staged := some v }, fw := s.fw.setBank n { s.fw.bank n with imgSvn := v.svn } }

/-- A map from a list of entries. -/
def mapOf {α : Type} (es : List (Nat × α)) : AMap α := es.foldl (fun m e => AMap.put m e.1 e.2) []

/-- The LOCKED bits outside the host ports (R471). -/
def lockFields : List Fld :=
  [F.rstCfgLocked, F.clkpwrGovCfgLocked, F.clkpwrFtCfgLocked, F.tpCfgLocked, F.ccCfgLocked, F.vlCfgLocked, F.enCfgLocked,
   F.blkCfgLocked, F.sqCfgLocked, F.intCfgLocked]

/-- A PC that failed training is retired (R394); it is no single fault. -/
def State.trainingFailed (s : State) (n : Nat) : State :=
  let k := n / 64
  (s.setFld F.hbmPcRetiredMask (putBit (s.fld F.hbmPcRetiredMask k) (n % 64) true) k).notify
    { type := 0xE5, fn := 0xFFFF, body := [BitVec.ofNat 8 k, BitVec.ofNat 8 (n % 64)] }

/-- Whether a stack failed training: none of its PCs is left. -/
def stackFailed (bad : List Nat) (k : Nat) : Bool := (List.range 64).all fun p => bad.contains (k * 64 + p)

/-- The image is applied and locked (Table 18.4, step 7). -/
def State.applyImage (s : State) (v : ImageValues) : State :=
  let was := (List.range 4).map s.bifurcated
  let pages := v.regions.map fun r => (r.1 / pageSize, (r.2.1 + pageSize - 1) / pageSize, r.2.2 / pageSize)
  let s := { s with
    img := { topo := v.topo, neigh := mapOf v.neigh, trusted := v.trusted, racks := mapOf v.racks, peers := mapOf v.peers,
             addrs := v.addrs, nodeIps := mapOf v.nodeIps, mgrPort := v.mgrPort, totalVfs := mapOf v.vfs, regions := pages, holdMib := v.holdMib, districts := v.districts,
             mayOn := v.mayOn, onAtStart := v.onAtStart, fnMax := v.fnMax, queueMax := v.queueMax, rwl := v.rwl }
    vl := { s.vl with route := mapOf v.route, detour := mapOf v.detour } }
  let s := s.applyRwl v.rwl fun _ _ => true
  let s := lockFields.foldl (fun t f => t.setFlag f true) s
  let s := (List.range 4).foldl (fun t n => if t.portPresent n then t.setFlag F.hpPortCfgLocked true n else t) s
  let s := s.setFlag F.hpPortCfgMgrActive true v.mgrPort
  let s := ((s.setFld F.idNodeIdRack v.rack).setFld F.idNodeIdPos (v.pos.getD s.fuses.posStraps)).setFlag F.idNodeIdPosSrc v.pos.isNone
  let s := s.setFlag F.idNodeIdValid true
  let s := s.setFld F.vlCfgLgValir ((List.range 4).foldl (fun m n => putBit m n (s.domPresent (16 + n) && !bit v.lgEth n)) 0)
  let s := ((s.setFld F.enCfgLgEth v.lgEth).setFld F.enCfgLgMode v.lgMode).setFld F.telCfgMode v.telMode
  let s := (List.range 4).foldl (fun t n =>
    if t.portPresent n ∧ was.getD n false ≠ t.bifurcated n then
      (portLinks n).foldl (fun t l => (t.showDown l 0).startTraining l) t
    else t) s
  (v.onAtStart.filter fun d => s.domPresent d && (decide (8 ≤ d) || v.districts.contains d)).foldl State.domUp s

/-! ### The start sequence (R463; Table 18.4) -/

/-- The counters are blown up to the SVNs of the active bank (R488). -/
def State.blowSvn (s : State) (n : Nat) : State :=
  let b := s.fw.bank n
  let s := if s.fld F.imgSvnFwFused < b.fwSvn then (s.setFld F.imgSvnFwFused b.fwSvn).emit (.fuseSvn 0 b.fwSvn) else s
  if s.fld F.imgSvnImgFused < b.imgSvn then (s.setFld F.imgSvnImgFused b.imgSvn).emit (.fuseSvn 1 b.imgSvn) else s

/-- Records a measurement block of 48 bytes (R491). -/
def State.setMeas (s : State) (i : Nat) (bs : List Byte) : State := { s with spdm := { s.spdm with meas := AMap.put s.spdm.meas i bs } }

/-- Measures bytes: their SHA-384 digest. -/
def State.measure (s : State) (i : Nat) (bytes : List Byte) : State := s.setMeas i (sha384 bytes)

/-- Measures what the model does not hold as bytes, or what the spec gives no bytes for: a free digest. -/
def State.measureFree (s : State) (i : Nat) : State :=
  { s.setMeas i ((List.range 48).map (Config.freeByte s.freeCount)) with freeCount := s.freeCount + 1 }

/-- Step 1: straps as sampled, and the fuses of the active bank. -/
def State.startFuses (s : State) : State :=
  let s := (List.range 4).foldl (fun t n =>
    if t.portPresent n then t.setFlag F.hpPortCfgClassStrap (t.fuses.hpClass.getD n false) n else t) s
  match s.fw.find .active with
  | some n => s.blowSvn n
  | none => s

/-- Step 2: clocks run and fabric time is 0 (R29). -/
def State.startClocks (s : State) : State :=
  let s := (s.setFlag F.clkpwrClkStatusRefclkOk true).setFlag F.clkpwrClkStatusMasterLock true
  { s with clk := {}, fw := { s.fw with tried := s.fw.tried.map (· - (s.clk.secs : Int)) } }

/-- Step 3: the PHYs of the host ports. -/
def State.startPorts (s : State) : State :=
  (List.range 4).foldl (fun t n => if t.portPresent n then t.domUp (20 + n) else t) s

/-- Step 4: the firmware of the boot bank (R481, R485). -/
def State.startFirmware (s : State) (x : StepInfo) : State :=
  let n := s.fw.runBank
  let refused : Bool := match x with
    | .firmware bytes => (s.fwRead bytes).isNone
    | _ => s.fw.loaded != some n
  if refused then
    if s.fw.onTrial then s.rollBack 1
    else if n = 0 ∧ (s.fw.find .active).isNone then { s with fw := { s.fw with runBank := 1 } }
    else { s with dev := { s.dev with starting := false } }
  else
    let b := s.fw.bank n
    let (svn, fmt) := match x with | .firmware bytes => (s.fwRead bytes).getD (0, 0) | _ => (b.fwSvn, s.fw.fmt)
    let s := { s with fw := { (s.fw.setBank n { b with fwSvn := svn }).openSettings fmt with loaded := some n } }
    let s := match x with | .firmware bytes => s.measure 2 (bytes.take (fwLen bytes + 256)) | _ => s
    [1, 6, 7].foldl State.measureFree ((s.setFld F.imgSvnFwRun svn).setFld F.rstStateStep 4)

/-- Step 5: calibration (R473 to R475). -/
def State.startCalibration (s : State) (x : StepInfo) : State :=
  let s := (s.resetReg .imgUcal 0).measureFree 4
  let s := ({ s with fw := { s.fw with cal := [] } }).setMeas 5 (List.replicate 48 0#8)
  match x with
  | .ucal (.record bs bounds) =>
    if s.settings.cleared.contains s.fw.runBank then s
    else
      (match s.ucalEntries bs bounds with
       | .ok es => ((({ s with fw := { s.fw with cal := es } }).setFld F.imgUcalState 1).setFld F.imgUcalEntries es.length).measure 5
           (bs.take (calLen bs + 256))
       | .error (r, e) => ((s.setFld F.imgUcalState 2).setFld F.imgUcalReason r).setFld F.imgUcalBadEntry e)
  | _ => s

/-- Step 6: the structure image is read and checked. -/
def State.startStructure (s : State) (x : StepInfo) : State :=
  match x with
  | .image (.read bs v) =>
    (match s.imageOf bs v with
     | .error (r, sect) => s.imageRefused r sect
     | .ok v => ((s.imageAccepted v).measure 3 (bs.take (imgLen bs + 256))).setFld F.rstStateStep 6)
  | _ => s.imageRefused 0x0C 0x00

/-- Step 7: the image is applied, domains are on, soft repairs are applied again (R506), and HBM is trained: PCs that fail are retired (R394),
and a lane that fails in a PC is repaired (R397). -/
def State.startApply (s : State) (x : StepInfo) : State :=
  match s.img.staged with
  | none => s
  | some v =>
    let (bad, lanes) := match x with | .training ns ls => (ns, ls) | _ => ([], [])
    if v.regions.any fun r => stackFailed bad (stackOf r.1) && stackFailed bad (stackOf r.2.2) then s.imageRefused 0x0B 0x06
    else
      let s := ((s.applyImage v).setFld F.rstStateStep 7).repairAll s.settings.soft
      let trained := fun (n : Nat) => decide (n < 512) && s.domOn (8 + n / 64)
      let s := (bad.filter trained).foldl State.trainingFailed s
      let s := (lanes.filter fun e => trained e.1).foldl (fun (t : State) (e : Nat × Nat) => t.laneFails (e.1 / 64) (e.1 % 64) (e.2 % 36)) s
      if bad.any fun n => s.regionLost (n / 64) (n % 64) then s.enterFault 0x07 else s

/-- Step 8: HBM is zeroed, page by page; its bytes read 0 from here on (R467). -/
def State.startMemory (s : State) : State :=
  { s with mem := [], wins := [], prot := { s.prot with tags := [] }, ten := { s.ten with pages := [], zeroing := s.poolPages } }

/-- The end-to-end windows count from 0 (R270, R271), in the epoch given. -/
def State.newWindowEpoch (s : State) (e : Nat) : State := ({ s with vl := { s.vl with wins := [] } }).setFld F.vlE2eCntWepoch (e % 256)

/-- Links and ports take the state their permission to train gives. -/
def State.refreshLinks (s : State) : State := s.vlRefresh.enRefresh

/-- Step 9: PFs, equal shares, and the network (R419, R426). -/
def State.startShares (s : State) (ms : Nat) : State :=
  let s := (List.range 4).foldl (fun t n =>
    if t.portPresent n then
      let t := t.makeFn (64 * n)
      if t.bifurcated n then t.makeFn (64 * n + 32) else t
    else t) s
  let e := (Config.freeEpoch s.freeCount).toNat
  let s := { s with freeCount := s.freeCount + 1 }
  let s := ((s.enterEqual false).newWindowEpoch e).setFld F.rstStateEqMs (min ms 0xFFFF)
  ({ s with dev := { s.dev with state := .equalShare, starting := false } }.refreshLinks).emit (.pin pinTrayFaultN true)

/-- START_STEP_COMPLETE: step n ends, ms milliseconds after t0. Only the next step of a start in progress can end. -/
def State.startStep (s : State) (n ms : Nat) (x : StepInfo) : State :=
  if s.dev.state ≠ .bringup ∨ !s.dev.starting ∨ s.dev.resetLow ∨ s.dev.pulse ∨ n ≠ s.fld F.rstStateStep + 1 then s
  else
    let ended := fun (t : State) => t.setFld F.rstStateStep n
    match n with
    | 1 => ended s.startFuses
    | 2 => ended s.startClocks
    | 3 => ended s.startPorts
    | 4 => s.startFirmware x
    | 5 => ended (s.startCalibration x)
    | 6 => s.startStructure x
    | 7 => s.startApply x
    | 8 => ended s.startMemory
    | 9 => ended (s.startShares ms)
    | _ => s

/-- Enters SERVICE from EQUAL_SHARE after a start (step 10). -/
def State.enterService (s : State) (ms : Nat) : State :=
  let s := ((s.leaveEqual.setFld F.rstStateSvcMs (min ms 0xFFFF)).setFld F.rstStateStep 10)
  let s := { s with dev := { s.dev with state := .service } }
  if s.fw.onTrial ∧ s.fw.tried.isNone then { s with fw := { s.fw with tried := some (s.clk.secs : Int) } } else s

/-- Makes a transition into or out of EQUAL_SHARE (R426, R429, R456). -/
def State.eqTurn (s : State) : EqTurn → State
  | .enter =>
    let s := (s.enterEqual true).newWindowEpoch (s.wepoch + 1)
    { s with dev := { s.dev with state := .equalShare } }
  | .leave =>
    let s := s.leaveEqual
    { s with dev := { s.dev with state := .service } }
  | .service ms => s.enterService ms

/-- Makes a transition, or has it wait for the function command in progress (R428). -/
def State.eqTurnSoon (s : State) (x : EqTurn) : State :=
  if s.flag F.fnStatusBusy then { s with ten := { s.ten with eqDue := some x } } else s.eqTurn x

/-- Makes the transition that waited, once no function command is in progress, if the device is still in the state that it leaves. -/
def State.eqTurnDue (s : State) : State :=
  match s.ten.eqDue with
  | none => s
  | some x =>
    if s.flag F.fnStatusBusy then s
    else
      let s := { s with ten := { s.ten with eqDue := none } }
      let from_ := match x with | .enter => DevState.service | _ => DevState.equalShare
      if s.dev.state = from_ then s.eqTurn x else s

/-- Whether the device shares equally after a start. -/
def State.afterStart (s : State) : Bool := s.dev.state == .equalShare && !s.flag F.fnModeFrom

/-- The status of an RST command (Table 18.13). -/
def State.rstEnds (s : State) (st : Status) : State := (s.setFld F.rstCmdStatusCode st.code).setFlag F.rstCmdStatusFail (st != .ok)

/-- RELEASE by an origin. -/
def State.release (s : State) (org : Origin) (ms : Nat) : State :=
  if !s.dcsOpen org 0x10008 then s
  else if s.afterStart then (s.eqTurnSoon (.service ms)).rstEnds .ok
  else s.rstEnds .fnState

/-- RELEASE_TIMEOUT: RELEASE_MS after t0; 1,000 ms after it in BRINGUP without an image, configuration requests are answered (R465). -/
def State.releaseTimeout (s : State) (ms : Nat) : State :=
  if s.afterStart then s.eqTurnSoon (.service ms)
  else if s.dev.state = .bringup ∧ !s.imaged then { s with dev := { s.dev with late := true } }
  else s

/-- DEVICE_RESET by an origin, with its CONFIRM. -/
def State.deviceResetCmd (s : State) (org : Origin) (confirm : Nat) : State :=
  if !s.dcsOpen org 0x10008 ∨ s.dev.resetLow then s
  else if confirm ≠ 0xC940 then s.rstEnds .notPermitted
  else s.deviceReset (match org with | .oob => 4 | .oobSecure => 4 | _ => 2)

/-! ### Recovery transitions (R456, R457) -/

/-- The status of a JNL.RECOVER command. -/
def State.recoverEnds (s : State) (st : Status) : State := (s.setFld F.jnlRstatusCode st.code).setFlag F.jnlRstatusFail (st != .ok)

/-- A JNL.RECOVER command: refused in other states. -/
def State.recoverCmd (s : State) (org : Origin) (may : Bool) (f : State → State) : State :=
  if !s.dcsOpen org 0x9000000 then s
  else if may then (f s).recoverEnds .ok
  else s.recoverEnds .fnState

/-- ENTER_EQUAL. -/
def State.enterEqualCmd (s : State) (org : Origin) : State :=
  s.recoverCmd org (s.dev.state == .service) fun s => s.eqTurnSoon .enter

/-- LEAVE_EQUAL. -/
def State.leaveEqualCmd (s : State) (org : Origin) : State :=
  s.recoverCmd org (s.dev.state == .equalShare && s.flag F.fnModeFrom) fun s => s.eqTurnSoon .leave

/-- The device drains: the reset at its end records a CAUSE. -/
def State.enterDrain (s : State) (cause : Nat) : State :=
  let s := if s.ten.equal.isSome then s.leaveEqual else s
  { s with dev := { s.dev with state := .drain, drainCause := cause, drainSent := 0 } }

/-- DRAIN. -/
def State.drainCmd (s : State) (org : Origin) : State :=
  s.recoverCmd org (s.dev.state == .service || (s.dev.state == .equalShare && s.flag F.fnModeFrom)) fun s => s.enterDrain 3

/-- Whether every record whose function is not WEDGED is free. -/
def State.drained (s : State) : Bool := s.jnl.all fun e => (s.fn e.2.fn).state == .wedged

/-- RESET_NOTICE goes out on every connected QP, and twice again. -/
def State.tellReset (s : State) : State :=
  s.qps.foldl (fun t e =>
    if e.2.up ∧ !e.2.roce then t.leave e.1 { op := .resetNotice, aliveRel := e.2.relOut } else t) s

/-- DRAIN_END: every record is free, or 100 ms have passed (R457). -/
def State.drainEnd (s : State) (timeout : Bool) : State :=
  if s.dev.state = .drain ∧ s.dev.drainSent = 0 ∧ (timeout ∨ s.drained) then
    let s := s.tellReset
    { s with dev := { s.dev with drainSent := 1 } }
  else s

/-- DRAIN_RESET_TIMER: 20 µs after the last notice. -/
def State.drainReset (s : State) : State :=
  if s.dev.state = .drain ∧ s.dev.drainSent ≠ 0 then s.deviceReset s.dev.drainCause else s

/-- FAULT during a start from a trial bank ends the trial (R487). -/
def State.trialFault (s : State) : State :=
  if s.dev.state = .fault ∧ s.fw.onTrial ∧ s.fld F.rstStateStep < 10 then s.rollBack 1 else s

end Machine
end Sys2Proof
end

