-- ==== Sys2Proof/Machine/Firmware.lean ====
section
/-! DEFINITION. Firmware and trust commands, activation and trials, and the SPDM responder (R473 to R494; chapters 18 and 19). -/

namespace Sys2Proof
namespace Machine

/-! ### Image commands (R475, R483) -/

/-- The status of an IMG.CMD command. -/
def State.imgEnds (s : State) (st : Status) : State := (s.setFld F.imgCmdStatusCode st.code).setFlag F.imgCmdStatusFail (st != .ok)

/-- The status of an IMG.FW_CMD command. -/
def State.fwEnds (s : State) (st : Status) : State := (s.setFld F.imgFwCmdStatusCode st.code).setFlag F.imgFwCmdStatusFail (st != .ok)

/-- CLEAR_UCAL: the record of the running bank is marked cleared in the settings store; the values in use stay. -/
def State.clearUcal (s : State) (org : Origin) : State :=
  if !s.dcsOpen org 0x40018 then s
  else
    let n := s.fw.runBank
    let s := if s.settings.cleared.contains n then s else s.setSettings { s.settings with cleared := s.settings.cleared ++ [n] }
    ((s.setFld F.imgUcalState 3).emit .flashUcal).imgEnds .ok

/-- Bytes of a component's region in a bank (Table 19.4): firmware, structure image, user calibration. -/
def componentSize (kind : Nat) : Nat :=
  match kind with
  | 1 => 0x2000000
  | 2 => 0x1001000
  | 3 => 0x10000
  | _ => 0

/-- The failures of STAGE (Table 19.5). -/
def State.stageCheck (s : State) (kind off len : Nat) (src : Bool) : Option Status :=
  if s.fw.onTrial then some .fnState
  else if !src then some .notPermitted
  else if componentSize kind < off + len ∨ len % 4096 ≠ 0 then some .badLength
  else none

/-- The inactive bank takes a component; the first one into it erases it. -/
def State.stageInto (s : State) (o : Nat → Output) : State :=
  let n := s.fw.other
  let s :=
    if (s.fw.bank n).state = .staging then s
    else
      let s := if s.settings.cleared.contains n then s.setSettings { s.settings with cleared := s.settings.cleared.filter (· != n) } else s
      ({ s with fw := s.fw.setBank n { state := .staging } }).emit (.flashErase n)
  s.emit (o n)

/-- STAGE by an origin, as IMG.STAGE_SRC and IMG.STAGE_ARG say. -/
def State.stageCmd (s : State) (org : Origin) : State :=
  let src := s.fld F.imgStageSrcFga
  let kind := s.fld F.imgStageArgKind
  let off := s.fld F.imgStageArgOffset4k * 4096
  let len := s.fld F.imgStageArgLen
  if !s.dcsOpen org 0x40130 then s
  else
    match s.stageCheck kind off len (src == 0 || s.mgrBytes src len) with
    | some st => s.fwEnds st
    | none =>
      let data := s.hbmRead (fgaOff src) len
      (s.stageInto fun n => if src = 0 then .flashCopy n kind off len else .flashWrite n kind off data).fwEnds .ok

/-- The check of the inactive bank's components: what failed of them, as REASON and SECTION, or none; and their SVNs. -/
def State.verifyBank (s : State) (outcome : Option (Nat × Nat)) (fwSvn imgSvn : Nat) : State × Status :=
  if (s.fw.bank s.fw.other).state ≠ .staging then (s, .fnState)
  else
    match outcome with
    | some (r, sect) =>
      (((s.setFld F.imgStatusReason r).setFld F.imgStatusSection sect).setFld F.imgStatusCode Status.imgRejected.code, .imgRejected)
    | none =>
      let n := s.fw.other
      ({ s with fw := s.fw.setBank n { s.fw.bank n with state := .staged, fwSvn := fwSvn, imgSvn := imgSvn } }, .ok)

/-- What a VERIFY finds in the components as read (R479, R480, R470): REASON and SECTION of what fails, and the SVNs of the firmware and the
image. Firmware, image and record are checked in this order; a bank without a record lacks none. -/
def State.bankFault (s : State) (fw : List Byte) (img : ImgRead) (ucal : UcalRead) : Option (Nat × Nat) × Nat × Nat :=
  match s.fwRead fw with
  | none => (some (0x02, 0x00), 0, 0)
  | some (fwSvn, _) =>
    match img with
    | .absent => (some (0x01, 0x00), 0, 0)
    | .read bs v =>
      match s.imageOf bs v with
      | .error e => (some e, 0, 0)
      | .ok v =>
        match ucal with
        | .absent => (none, fwSvn, v.svn)
        | .record rs _ => if (s.signedSvn 3 (calLen rs) rs).isSome then (none, fwSvn, v.svn) else (some (0x02, 0x00), 0, 0)

/-- VERIFY of the components as read. -/
def State.verifyRead (s : State) (fw : List Byte) (img : ImgRead) (ucal : UcalRead) : State × Status :=
  let x := s.bankFault fw img ucal
  s.verifyBank x.1 x.2.1 x.2.2

/-- VERIFY by an origin. -/
def State.verifyCmd (s : State) (org : Origin) (f : State → State × Status) : State :=
  if !s.dcsOpen org 0x40130 then s
  else
    let (t, st) := f s
    t.fwEnds st

/-- Arms the staged bank for a fabric time at least 100 ms away. -/
def State.armBank (s : State) (secs ns : Nat) (drain : Bool) : State × Status :=
  if (s.fw.bank s.fw.other).state ≠ .staged then (s, .fnState)
  else if secs * 1000000000 + ns < s.nowNs + 100000000 then (s, .badDescriptor)
  else ({ s with fw := { s.fw.move s.fw.other .armed with armS := secs, armNs := ns, armDrain := drain } }, .ok)

/-- ARM by an origin, at the time of IMG.ACT_S and IMG.ACT_NS. -/
def State.fwArmCmd (s : State) (org : Origin) : State :=
  if !s.dcsOpen org 0x40130 then s
  else
    let (t, st) := s.armBank (s.fld F.imgActSSec) (s.fld F.imgActNsNs) (s.flag F.imgActNsDrain)
    t.fwEnds st

/-- CANCEL by an origin. -/
def State.cancelCmd (s : State) (org : Origin) : State :=
  if !s.dcsOpen org 0x40130 then s
  else if (s.fw.bank s.fw.other).state ≠ .armed then s.fwEnds .fnState
  else ({ s with fw := s.fw.move s.fw.other .staged }).fwEnds .ok

/-- CONFIRM by an origin (R488): the SVN fuses, then the older settings area. -/
def State.confirmCmd (s : State) (org : Origin) : State :=
  if !s.dcsOpen org 0x40130 then s
  else if !s.fw.onTrial ∨ s.dev.state ≠ .service then s.fwEnds .fnState
  else
    let n := s.fw.runBank
    let s := { s with fw := { s.fw.move n .active with tries := 0, tried := none } }
    let s := s.blowSvn n
    ({ s with fw := s.fw.eraseOlder }).fwEnds .ok

/-- ROLLBACK by an origin (R487). -/
def State.rollbackCmd (s : State) (org : Origin) : State :=
  if !s.dcsOpen org 0x40130 then s
  else if !s.fw.onTrial then s.fwEnds .fnState
  else s.rollBack 4

/-- ACTIVATION: fabric time has reached T (R486). -/
def State.activation (s : State) : State :=
  if (s.fw.bank s.fw.other).state ≠ .armed ∨ s.fw.activate ∨ s.nowNs < s.fw.armS * 1000000000 + s.fw.armNs then s
  else
    let t := { s with fw := { s.fw with activate := true } }
    match s.dev.state with
    | .service => if s.fw.armDrain then t.enterDrain 5 else t.deviceReset 5
    | .equalShare => if s.fw.armDrain then t.enterDrain 5 else t.deviceReset 5
    | .drain => t
    | .fault => t
    | _ => s

/-- CONFIRM_TIMEOUT: the confirmation period has passed in the trial. -/
def State.confirmTimeout (s : State) : State := if s.fw.onTrial ∧ s.fw.tried.isSome then s.rollBack 3 else s

/-- Seconds of the confirmation period that are left (Table 19.9). -/
def State.confirmLeft (s : State) : Nat :=
  let all := max 1 (s.fld F.imgFwCfgConfirmS)
  if !s.fw.onTrial then 0
  else
    match s.fw.tried with
    | none => all
    | some t => ((all : Int) - ((s.clk.secs : Int) - t)).toNat

/-! ### SPDM (R491, R492) -/

/-- A session, if it is established. -/
def State.sessionUp (s : State) (id : Nat) : Option SpdmSession := s.spdm.sessions.find? fun x => x.id == id && x.up

/-- Whether a message came in an established session. -/
def State.inSession (s : State) (sess : Option Nat) : Bool :=
  match sess with
  | some id => (s.sessionUp id).isSome
  | none => false

/-- Whether it came in one whose requester's certificates chain to a programmed owner key slot that is not revoked. -/
def State.byOwner (s : State) (sess : Option Nat) : Bool :=
  match sess.bind s.sessionUp with
  | some x =>
    (match x.owner with
     | some k => (match s.fw.owner[k]? with | some o => o.set && !o.revoked | none => false)
     | none => false)
  | none => false

/-- Answers on the out-of-band interface. -/
def State.oobAnswer (s : State) (st : Status) : State := s.emit (.oob [BitVec.ofNat 8 st.code])

/-- A secured-session command (Table 19.5): the message must reach the device and come from the owner. -/
def State.secured (s : State) (sess : Option Nat) (f : State → State × Status) : State :=
  if !s.oobUp then s
  else if !s.byOwner sess then s.oobAnswer .notPermitted
  else
    let (t, st) := f s
    t.oobAnswer st

/-- SET_MANAGER_PORT (R494); a host port that is absent answers UNIT_ABSENT (R6). -/
def State.setManagerPort (s : State) (sess : Option Nat) (port : Nat) : State :=
  s.secured sess fun s =>
    if port < 4 ∧ s.portPresent port ∧ s.flag F.hpPortCfgClassImg port ∧ s.flag F.hpPortCfgClassStrap port then
      ((List.range 4).foldl (fun t n => t.setFlag F.hpPortCfgMgrActive (n == port) n) s, .ok)
    else (s, if port < 4 ∧ !s.portPresent port then .unitAbsent else .notPermitted)

/-- Changes an owner key slot. -/
def State.setOwner (s : State) (k : Nat) (o : KeySlot) : State := { s with fw := { s.fw with owner := s.fw.owner.set k o } }

/-- FUSE_OWNER_KEY: programs the hash of a key into a slot. While no slot is programmed any secured session may program the first one
(R478). -/
def State.fuseOwnerKey (s : State) (sess : Option Nat) (m : FuseMsg) : State :=
  let k := m.slot
  let go := fun (s : State) =>
    match s.fw.owner[k]? with
    | some o =>
      if o.set || o.revoked then (s, Status.notPermitted)
      else ((s.setOwner k { o with set := true, hash := m.hash }).emit (.fuseKey k false), .ok)
    | none => (s, .notPermitted)
  if s.oobUp ∧ s.inSession sess ∧ s.fw.owner.all (fun o => !o.set) then
    let (t, st) := go s
    t.oobAnswer st
  else s.secured sess go

/-- REVOKE_OWNER_KEY. -/
def State.revokeOwnerKey (s : State) (sess : Option Nat) (k : Nat) : State :=
  s.secured sess fun s =>
    match s.fw.owner[k]? with
    | some o => if o.revoked then (s, .notPermitted) else ((s.setOwner k { o with revoked := true }).emit (.fuseKey k true), .ok)
    | none => (s, .notPermitted)

/-- SET_KEK (R493). -/
def State.setKek (s : State) (m : KekMsg) : State :=
  s.secured m.sess fun s => ({ s with fw := { s.fw with kek := some m.key } }, .ok)

/-- SPDM error codes: InvalidRequest, InvalidSession, UnexpectedRequest, SessionLimitExceeded. -/
def spdmInvalid : Nat := 0x01
def spdmNoSession : Nat := 0x02
def spdmUnexpected : Nat := 0x04
def spdmSessionLimit : Nat := 0x0A

/-- Answers an SPDM request: an error, or data. -/
def State.spdmSay (s : State) (code err : Nat) (data : List Byte := []) : State := s.emit (.spdm code err data)

/-- A request that needs the negotiation to have come to a stage. -/
def State.spdmAt (s : State) (code stage : Nat) (f : State → State) : State :=
  if !s.oobUp then s else if s.spdm.stage < stage then s.spdmSay code spdmUnexpected else f s

/-- Says yes, with bytes that a hash, a certificate or a signature makes. -/
def State.spdmFree (s : State) (code : Nat) : State :=
  let t := { s with freeCount := s.freeCount + 1 }
  t.spdmSay code 0 ((List.range 48).map (Config.freeByte s.freeCount))

/-- GET_VERSION starts the negotiation again. -/
def State.spdmVersion (s : State) : State :=
  if !s.oobUp then s else ({ s with spdm := { s.spdm with stage := 1 } }).spdmSay 0x84 0 [0x12#8, 0x13#8]

/-- GET_CAPABILITIES. -/
def State.spdmCapabilities (s : State) : State :=
  s.spdmAt 0xE1 1 fun s => ({ s with spdm := { s.spdm with stage := max 2 s.spdm.stage } }).spdmSay 0xE1 0

/-- NEGOTIATE_ALGORITHMS. -/
def State.spdmAlgorithms (s : State) : State :=
  s.spdmAt 0xE3 2 fun s => ({ s with spdm := { s.spdm with stage := 3 } }).spdmSay 0xE3 0

/-- GET_DIGESTS. -/
def State.spdmDigests (s : State) : State := s.spdmAt 0x81 3 fun s => s.spdmFree 0x81

/-- GET_CERTIFICATE and CHALLENGE name certificate slot 0. -/
def State.spdmOfSlot (s : State) (code slot : Nat) : State :=
  s.spdmAt code 3 fun s => if slot = 0 then s.spdmFree code else s.spdmSay code spdmInvalid

/-- GET_MEASUREMENTS: the number of blocks, one of them, or all. -/
def State.spdmMeasurements (s : State) (idx : Nat) : State :=
  s.spdmAt 0xE0 3 fun s =>
    if idx = 0 then s.spdmSay 0xE0 0 [7#8]
    else if idx = 0xFF then s.spdmSay 0xE0 0 (s.spdm.meas.flatMap (·.2))
    else if idx ≤ 7 then s.spdmSay 0xE0 0 (AMap.look [] s.spdm.meas idx)
    else s.spdmSay 0xE0 spdmInvalid

/-- KEY_EXCHANGE: a session begins, unless two exist. -/
def State.spdmKeyExchange (s : State) (id slot : Nat) : State :=
  s.spdmAt 0xE4 3 fun s =>
    if slot ≠ 0 ∨ (s.spdm.sessions.any fun x => x.id == id) then s.spdmSay 0xE4 spdmInvalid
    else if 2 ≤ s.spdm.sessions.length then s.spdmSay 0xE4 spdmSessionLimit
    else
      let x : SpdmSession := { id := id }
      ({ s with spdm := { s.spdm with sessions := s.spdm.sessions ++ [x] } }).spdmFree 0xE4

/-- FINISH: the session is established, if the requester's proof is good; the owner key slot that its certificates chain to. -/
def State.spdmFinish (s : State) (id : Nat) (good : Bool) (owner : Option Nat) : State :=
  if !s.oobUp then s
  else if !s.spdm.sessions.any (fun x => x.id == id && !x.up) then s.spdmSay 0xE5 spdmNoSession
  else if !good then
    ({ s with spdm := { s.spdm with sessions := s.spdm.sessions.filter fun x => x.id != id } }).spdmSay 0xE5 spdmInvalid
  else
    let up := fun (x : SpdmSession) => if x.id = id then { x with up := true, owner := owner } else x
    ({ s with spdm := { s.spdm with sessions := s.spdm.sessions.map up } }).spdmSay 0xE5 0

/-- HEARTBEAT and KEY_UPDATE of an established session. -/
def State.spdmInSession (s : State) (code id : Nat) : State :=
  if !s.oobUp then s else s.spdmSay code (if (s.sessionUp id).isSome then 0 else spdmNoSession)

/-- END_SESSION. -/
def State.spdmEnd (s : State) (id : Nat) : State :=
  if !s.oobUp then s
  else if (s.sessionUp id).isNone then s.spdmSay 0xEC spdmNoSession
  else ({ s with spdm := { s.spdm with sessions := s.spdm.sessions.filter fun x => x.id != id } }).spdmSay 0xEC 0

end Machine
end Sys2Proof
end

