-- ==== Sys2Proof/Machine/Manage.lean ====
section
/-! DEFINITION. Power domains, the governor and sensors, self-test, bandwidth windows, the out-of-band interface, the console UART and
the test access port (R33 to R41, R496 to R513, R526; chapters 1, 20 and 21). -/

namespace Sys2Proof
namespace Machine

/-! ### Power domains (R35 to R38, R502) -/

/-- The end of a domain request (Table 20.4). -/
def State.domEnds (s : State) (st : Status) : State :=
  (s.setFld F.clkpwrDomReqStatusCode st.code).setFlag F.clkpwrDomReqStatusFail (st != .ok)

/-- Whether the domain of the last request is still changing. -/
def State.domBusy (s : State) : Bool :=
  let d := s.fld F.clkpwrDomReqDomain
  s.domPresent d && (match s.dom d with | .changing _ => true | _ => false)

/-- A page of a stack is allocated to a function, or mapped by a window (R38). -/
def State.stackInUse (s : State) (k : Nat) : Bool :=
  (s.ten.pages.any fun e => decide (pageStack e.1 ≤ k ∧ k ≤ pageStack (e.1 + e.2.1 - 1))) ||
    s.wins.any fun e => e.2.held && fgaSpace e.2.base == 0 && decide (stackOf (fgaOff e.2.base) ≤ k ∧ k ≤ stackOf (fgaOff e.2.base + (e.2.len - 1)))

/-- A Block of a District runs or is paused, or holds a residency entry (R309, R351). -/
def State.districtInUse (s : State) (d : Nat) : Bool :=
  let per := s.fuses.variant.blkPerDist
  (List.range per).any fun i =>
    let b := d * per + i
    (s.blk b).state == .running || (s.blk b).state == .paused || !(s.resOf b).isEmpty

/-- Whether a power-down is refused (R37, R38, R103, R309, R351). -/
def State.keepsOn (s : State) (d : Nat) : Bool :=
  if d < 8 then s.districtInUse d
  else if d < 16 then s.stackInUse (d - 8)
  else if d < 20 then false
  else s.created.any fun f => portOf f == d - 20

/-- The check of a domain request, in the order of Table 20.4. -/
def State.domCheck (s : State) (d : Nat) (up : Bool) : Option Status :=
  if 24 ≤ d then some .badDescriptor
  else if !s.domPresent d then some .unitAbsent
  else if (up ∧ !s.img.mayOn.contains d) ∨ (!up ∧ s.dom d = .on ∧ s.keepsOn d) then some .notPermitted
  else if s.dom d ≠ (if up then .off else .on) then some .fnState
  else none

/-- District steps of the ladder: none while no D domain is on. -/
def State.dSteps (s : State) : Nat :=
  if (List.range 8).any s.domOn then 16 - min 16 (max 1 (s.fld F.clkpwrGovCfgDFloor)) else 0

/-- HBM steps of the ladder. -/
def State.hSteps (s : State) : Nat := 8 - min 8 (max 1 (s.fld F.clkpwrGovCfgHFloor))

/-- STAGE_MAX. -/
def State.stageMax (s : State) : Nat := s.dSteps + s.hSteps + 1

/-- Applies a STAGE: the three actuators of Table 20.2. -/
def State.setStage (s : State) (n : Nat) : State :=
  let n := min n s.stageMax
  let d := 16 - min n s.dSteps
  let x := n - s.dSteps
  let h := 8 - min x s.hSteps
  let t := (s.setFld F.clkpwrGovStatusStage n).setFld F.clkpwrGovStatusDDuty d
  (t.setFld F.clkpwrGovStatusHAllow h).setFlag F.clkpwrGovStatusPHalf (decide (s.hSteps < x))

/-- The actuators after a D domain has begun or ended a switch: the ladder has District steps while some D domain is on (R498). -/
def State.restage (s : State) (d : Nat) : State := if d < 8 then s.setStage (s.fld F.clkpwrGovStatusStage) else s

/-- A power-up or power-down request by an origin; discarded while BUSY is 1. -/
def State.domRequest (s : State) (org : Origin) (d : Nat) (up : Bool) : State :=
  if !s.dcsOpen org 0x20010 ∨ s.domBusy then s
  else
    let s := s.setFld F.clkpwrDomReqDomain d
    match s.domCheck d up with
    | some st => s.domEnds st
    | none =>
      let s := ((s.setDom d (.changing up)).domEnds .ok).restage d
      if 16 ≤ d ∧ d < 20 ∧ !up then s.refreshLinks
      else if 20 ≤ d ∧ !up then (portLinks (d - 20)).foldl (fun t l => t.linkLost l 3) s
      else s

/-- POWER_DOWN by an origin, with the origin whose power-up of the same domain arrives in the same CLK_T cycle, if one does: the power-down
is applied and the power-up discarded (R37, R502). -/
def State.downRequest (s : State) (req : DownReq) (d : Nat) : State :=
  if s.dcsOpen req.org 0x20010 then s.domRequest req.org d false
  else match req.pair with
    | some o => s.domRequest o d true
    | none => s

/-- What a domain that is switched off loses: its registers are reset, its Blocks are cleared but for those out of service, the bytes, poison and tags of its stack
and the queues and gate lists of its Ethernet ports are gone. -/
def State.domLoses (s : State) (d : Nat) : State :=
  let old := s
  let s := (s.resetDomRegs d).setPll d false
  if d < 8 then
    let per := s.fuses.variant.blkPerDist
    let t := (List.range per).foldl (fun (t : State) i => t.resetRegs [.seqfSample, .seqfSampleIter, .seqfCvtFail] (d * per + i)) s
    old.keepOut { t with blks := t.blks.filter fun e => !decide (d * per ≤ e.1 ∧ e.1 < (d + 1) * per) }
  else if d < 16 then
    let k := d - 8
    let s := (s.setStack k { spares := (s.stack k).spares }).setFld F.hbmPcRetiredMask (old.fld F.hbmPcRetiredMask k) k
    { s with mem := s.mem.filter (fun c => stackOf c.1 != k)
             prot := { s.prot with tags := s.prot.tags.filter fun e => pageStack e.1 != k }
             ten := { s.ten with zeroing := spanCut s.ten.zeroing (k * 32768) 32768 } }
  else if d < 20 then { s with en := s.en.filter fun e => !decide (16 + e.1 / 8 = d) }
  else s

/-- Whether a Block has work that was admitted before a power-down: steps outstanding, a table that loads or waits, or an image whose
STEP_START has not completed. -/
def State.blkWorks (s : State) (x : Blk) : Bool :=
  !x.outs.isEmpty || x.loading.isSome || !x.waiting.isEmpty || (x.start.bind s.op).isSome

/-- A Block of a D domain has work that was admitted before the power-down; it completes before the switch opens (R37). -/
def State.domWorks (s : State) (d : Nat) : Bool :=
  decide (d < 8) && s.blks.any fun e => decide (blkDomain s.fuses.variant.blkPerDist e.1 = d) && s.blkWorks e.2

/-- DOMAIN_SETTLED: the switch has settled and the domain's logic has been reset (R35, R36). The pages of a stack are zeroed before
they are free. -/
def State.domSettled (s : State) (d : Nat) : State :=
  if !s.domPresent d then s
  else
    match s.dom d with
    | .changing true =>
      let s := (s.domUp d).restage d
      if 8 ≤ d ∧ d < 16 then
        let new := spanCut (spanCut s.poolPages 0 ((d - 8) * 32768)) ((d - 7) * 32768) 262144
        { s with ten := { s.ten with zeroing := new.foldl (fun m e => spanPut m e.1 e.2.1 0) s.ten.zeroing } }
      else if 16 ≤ d ∧ d < 20 then s.refreshLinks
      else s
    | .changing false =>
      if s.domWorks d then s
      else
      let s := (s.setDom d .off).domLoses d
      if 20 ≤ d then (portLinks (d - 20)).foldl (fun t l => t.showDown l 3) s else s
    | _ => s

/-! ### Sensors (R496, R500, R501; values in 0.25 °C) -/

/-- The die of a sensor: a compute die carries two Districts; the hub die is 4. -/
def sensorDie (n : Nat) : Nat := if n < 8 then n / 2 else 4

/-- The last value of a sensor. -/
def State.sensor (s : State) (n : Nat) : Int := toSigned 16 (s.fld F.clkpwrTempTemp n)

/-- The greatest of a list of values. -/
def maxOf : List Int → Option Int
  | [] => none
  | x :: xs => some (xs.foldl max x)

/-- The value that the governor uses for a sensor (Table 20.8, kind 5). -/
def State.sensorUsed (s : State) (n : Nat) : Int :=
  if n < 32 ∧ s.flag F.clkpwrTempFailed n then
    let others := (List.range 32).filter fun m => s.sensorPresent m && sensorDie m == sensorDie n && !s.flag F.clkpwrTempFailed m
    match maxOf (others.map s.sensor) with
    | some v => v + 20
    | none => s.sensor n
  else s.sensor n

/-- The threshold of a sensor. -/
def State.sensorLimit (s : State) (n : Nat) : Int :=
  if n < 32 then (4 * min 100 (s.fld F.clkpwrGovCfgTjThrottle) : Nat) else (4 * min 84 (s.fld F.clkpwrGovCfgHbmThrottle) : Nat)

/-- Whether some sensor exceeds its threshold less a margin. -/
def State.anyAbove (s : State) (margin : Int) : Bool :=
  (List.range 40).any fun n => s.sensorPresent n && decide (s.sensorLimit n - margin < s.sensorUsed n)

/-- Whether a sensor of the dies exceeds a temperature in °C. -/
def State.dieAbove (s : State) (deg : Nat) : Bool :=
  (List.range 32).any fun n => s.sensorPresent n && decide (((4 * deg : Nat) : Int) < s.sensorUsed n)

/-! ### The governor (R497 to R501) -/

/-- Whether the governor runs: from step 7 of a start until the next reset. -/
def State.governs (s : State) : Bool := decide (7 ≤ s.fld F.rstStateStep)

/-- Signals the manager's vector of the governor. -/
def State.govSignal (s : State) : State :=
  match s.manager with
  | some m => s.signal m (s.fld F.clkpwrGovCfgVector)
  | none => s

/-- THERM_TRIP_N is asserted and held (R501). -/
def State.thermTrip (s : State) : State :=
  match s.dev.state with
  | .off => s
  | _ => if s.gov.trip then s else ({ s with gov := { s.gov with trip := true } }).emit (.pin pinThermTripN false)

/-- What follows from the sensors' values: THERMAL, HOTTEST, CRIT and the trip. -/
def State.judgeHeat (s : State) : State :=
  let hot := s.anyAbove 0
  let s := s.setFlag F.clkpwrGovStatusThermal hot
  let wins := if hot then some (s.gov.hotWins.getD 0) else none
  let s := { s with gov := { s.gov with hotWins := wins } }
  let top := (maxOf (((List.range 32).filter s.sensorPresent).map s.sensor)).getD 0
  let s := s.setFld F.clkpwrGovStatusHottest (min 255 (top / 4).toNat)
  let s :=
    if s.governs ∧ s.dieAbove 105 then
      let t := s.setStage s.stageMax
      if t.flag F.clkpwrGovStatusCrit then t else (t.setFlag F.clkpwrGovStatusCrit true).govSignal
    else s
  if s.dieAbove 115 then s.thermTrip else s

/-- The thermal level of a stack (Table 14.6): it falls only 3 °C below the threshold that raised it (R396). -/
def stackLevel (old : Nat) (t : Int) : Nat :=
  let up := if 105 < t then 3 else if 95 < t then 2 else if 85 < t then 1 else 0
  let keep := if 102 < t then 3 else if 92 < t then 2 else if 82 < t then 1 else 0
  if old ≤ up then up else max up (min old keep)

/-- Whether more than the always-on region is powered. -/
def State.powered (s : State) : Bool := match s.dev.state with | .off => false | .standby => false | _ => true

/-- The user offset of a sensor: those of item 0x06 apply to S0 to S31 (R496). -/
def State.sensorOffset (s : State) (n : Nat) : Int := if n < 32 then s.calDelta 6 n else 0

/-- SENSOR_UPDATE: a sensor reads a value in 0.25 °C, to which its offset is added. -/
def State.sensorUpdate (s : State) (n : Nat) (v : Int) : State :=
  if !s.sensorPresent n ∨ !s.powered then s
  else
    let v := v + s.sensorOffset n
    let w := ofSigned 16 v
    let top := toSigned 16 (s.fld F.clkpwrTempMax n)
    let s := s.setFld F.clkpwrTempTemp w n
    let s := s.setFld F.clkpwrTempMax (if s.gov.fresh.contains n then ofSigned 16 (max top v) else w) n
    let s := { s with gov := { s.gov with fresh := if s.gov.fresh.contains n then s.gov.fresh else s.gov.fresh ++ [n] } }
    let s :=
      if 32 ≤ n then
        let k := n - 32
        let c := v / 4
        (s.setFld F.hbmStatusTemp (min 255 c.toNat) k).setFld F.hbmStatusLevel (stackLevel (s.fld F.hbmStatusLevel k) c) k
      else s
    s.judgeHeat

/-- GOVERNOR_WINDOW_END: a window's mean package power, in W (R499). -/
def State.governorWindow (s : State) (p : Nat) : State :=
  if !s.governs then s
  else
    let lim := min (s.fld F.clkpwrGovCfgPkgLimitW) s.fuses.variant.limitW
    let stage := s.fld F.clkpwrGovStatusStage
    let s := s.setFld F.clkpwrGovStatusPkgW (min p 0xFFFF)
    let s := if lim < p then s.countSat F.clkpwrGovCntOver else s
    let s := if 0 < stage then s.countSat F.clkpwrGovCntThrottled else s
    let wins := s.gov.hotWins.map (· + 1)
    let heat := match wins with | some n => b2n (n % 100 == 0) | none => 0
    let up := (p - lim + 9) / 10 + heat
    let s := { s with gov := { s.gov with hotWins := wins } }
    if 0 < up then
      let s := { s with gov := { s.gov with calm := 0 } }
      s.setStage (min (stage + up) s.stageMax)
    else if p ≤ lim - lim / 50 ∧ !s.anyAbove 12 then
      let c := s.gov.calm + 1
      if c = 100 ∧ 0 < stage then
        let s := { s with gov := { s.gov with calm := 0 } }
        s.setStage (stage - 1)
      else
        { s with gov := { s.gov with calm := c } }
    else { s with gov := { s.gov with calm := 0 } }

/-- AT_FLOOR_TIMEOUT: STAGE_MAX with a hot sensor for 10 ms (R501). -/
def State.atFloor (s : State) : State :=
  if s.governs ∧ s.fld F.clkpwrGovStatusStage = s.stageMax ∧ s.flag F.clkpwrGovStatusThermal ∧ !s.flag F.clkpwrGovStatusAtFloor then
    (s.setFlag F.clkpwrGovStatusAtFloor true).govSignal
  else s

/-! ### Self-test (R504 to R507) -/

/-- Whether slices of a kind run. -/
def State.slicesRun (s : State) (kind : Nat) : Bool :=
  decide (1 ≤ kind ∧ kind ≤ 5) && s.netOpen && s.flag F.bistCtrlEnable && bit (s.fld F.bistCtrlKindEn) (kind - 1)

/-- Captures a failure unless one is captured. -/
def State.bistLog (s : State) (kind action unit detail : Nat) : State :=
  if s.flag F.bistLogValid then s
  else
    let s := ((s.setFlag F.bistLogValid true).setFld F.bistLogKind kind).setFld F.bistLogAction action
    (s.setFld F.bistLogUnit unit).setFld F.bistLogDetail detail

/-- What a failed slice does (Table 20.8). The target of kind 1 is 256 × memory code + instance, that of kind 2 is 20 × bundle + link. -/
def State.sliceFails (s : State) (kind target : Nat) (e : SliceEnd) : State :=
  match kind, e with
  | 1, .row bank row loss =>
    let key := target * 256 + bank % 256
    let used := AMap.look 0 s.bist.rows key
    if used < 2 then
      ((s.repaired (1, key, row)).recordRepair (1, key, row)).bistLog 1 0 target row
    else (s.bistLog 1 1 target row).sramLost (target / 256) (target % 256) loss
  | 2, .group g =>
    if s.bist.groups.contains target then (s.bistLog 2 1 target g).avenueLink (target / 20) (target % 20)
    else
      ((s.repaired (2, target, g)).recordRepair (2, target, g)).bistLog 2 0 target g
  | 3, .margin m => s.bistLog 3 3 target m
  | 4, .pll => s.bistLog 4 3 target 0
  | 5, .sensor => ((s.setFlag F.clkpwrTempFailed true target).bistLog 5 2 target 0).judgeHeat
  | _, _ => s

/-- Whether an end of a slice is a failure of its kind; a margin of 15 % or more is none. -/
def sliceFailed (kind : Nat) (e : SliceEnd) : Bool :=
  match kind, e with
  | 1, .row _ _ _ => true
  | 2, .group _ => true
  | 3, .margin m => decide (m < 150)
  | 4, .pll => true
  | 5, .sensor => true
  | _, _ => false

/-- A slice runs. -/
def State.sliceRuns (s : State) (kind target : Nat) (e : SliceEnd) : State :=
  let s := s.countSat F.bistCntRun
  if sliceFailed kind e then (s.countSat F.bistCntFailed).sliceFails kind target e else s

/-- A try of a slice: an intrusive one whose target is in use is put off, and after 64 times in a row it is forced (R505). -/
def State.slice (s : State) (kind target : Nat) (busy : Bool) (e : SliceEnd) : State :=
  if !s.slicesRun kind then s
  else
    let key := kind * 65536 + target
    let n := AMap.look 0 s.bist.defers key
    if kind ≤ 2 ∧ busy ∧ n < 64 then
      ({ s with bist := { s.bist with defers := AMap.put s.bist.defers key (n + 1) } }).countSat F.bistDeferDeferred
    else
      let s := if kind ≤ 2 ∧ busy then s.countSat F.bistCntForced else s
      ({ s with bist := { s.bist with defers := AMap.drop s.bist.defers key } }).sliceRuns kind target e

/-- SLICE_RETRY: of a slice that was put off. -/
def State.sliceRetry (s : State) (kind target : Nat) (busy : Bool) (e : SliceEnd) : State :=
  if AMap.look 0 s.bist.defers (kind * 65536 + target) = 0 then s else s.slice kind target busy e

/-- The status of a BIST command. -/
def State.bistEnds (s : State) (st : Status) : State := (s.setFld F.bistCmdStatusCode st.code).setFlag F.bistCmdStatusFail (st != .ok)

/-- FUSE by an origin (R507): every soft repair or none; repairs of HBM lanes use the fuses of their stacks. -/
def State.fuseCmd (s : State) (org : Origin) (confirm : Nat) : State :=
  let soft := s.settings.soft
  let die := (soft.filter fun r => r.1 != 3).length
  if !s.dcsOpen org 0xB000028 then s
  else if s.dev.state = .fault then s.bistEnds .fnState
  else if confirm ≠ 0xF05E then s.bistEnds .notPermitted
  else if s.bist.fusesFree < die then s.bistEnds .poolExhausted
  else
    let n := soft.length
    let s := s.setSettings { s.settings with soft := [] }
    let s := { s with bist := { s.bist with fused := s.bist.fused ++ soft, hard := s.bist.hard + n, fusesFree := s.bist.fusesFree - die } }
    (s.emit (.fuseRepair n)).bistEnds .ok

/-! ### Bandwidth windows (R510) -/

/-- WIN_US of a monitor. -/
def State.winUs (s : State) (m : Nat) : Nat := min 1000000 (max 1 (s.fld F.telBwCfgWinUs m))

/-- BW_WINDOW_END. -/
def State.bwWindow (s : State) (m : Nat) : State :=
  if 16 ≤ m ∨ !s.flag F.telBwCfgEnable m then s
  else
    let x := AMap.look (0, 0) s.bw m
    let mean := fun (n : Nat) => min 0xFFFFFFFF (n / s.winUs m)
    let s := { s with bw := AMap.drop s.bw m }
    let s := (s.setFld F.telBwRxBytes x.1 m).countWrap F.telBwRxSeq m
    let s := (s.setFld F.telBwTxBytes x.2 m).countWrap F.telBwTxSeq m
    let s := s.setFld F.telBwPeakRxPeak (max (s.fld F.telBwPeakRxPeak m) (mean x.1)) m
    s.setFld F.telBwPeakTxPeak (max (s.fld F.telBwPeakTxPeak m) (mean x.2)) m

/-! ### The out-of-band interface (R511) -/

/-- The code of a device state (Tables 18.1 and 18.13). -/
def DevState.code : DevState → Nat
  | .off => 0 | .standby => 1 | .bringup => 2 | .equalShare => 3 | .service => 4 | .drain => 5 | .fault => 6

/-- The values of the PLDM state sensors: device state, STAGE, THERMAL, AT_FLOOR, CRIT. -/
def State.stateSensors (s : State) : List Nat :=
  [s.dev.state.code, s.fld F.clkpwrGovStatusStage, s.fld F.clkpwrGovStatusThermal, s.fld F.clkpwrGovStatusAtFloor,
   s.fld F.clkpwrGovStatusCrit]

/-- Sends a PlatformEventMessage for each state sensor that differs from before. -/
def State.platformEvents (t s : State) : State :=
  if !t.oobUp then t
  else
    (List.range 5).foldl (fun u i =>
      if t.stateSensors.getD i 0 = s.stateSensors.getD i 0 then u
      else u.emit (.oob [0x0A#8, BitVec.ofNat 8 i, BitVec.ofNat 8 (t.stateSensors.getD i 0)])) t

/-- PLDM_REQUEST: monitoring, and firmware update. -/
def State.pldm (s : State) (r : PldmReq) : State :=
  if !s.oobUp then s
  else
    match r with
    | .numeric n =>
      if n = 40 then s.emit (.oob (0#8 :: leBytes (s.fld F.clkpwrGovStatusPkgW) 2))
      else if n < 40 then s.emit (.oob (0#8 :: leBytes (s.fld F.clkpwrTempTemp n) 2))
      else s.oobAnswer .badDescriptor
    | .stateSensor n =>
      if n < 5 then s.emit (.oob [0#8, BitVec.ofNat 8 (s.stateSensors.getD n 0)]) else s.oobAnswer .badDescriptor
    | .stage kind off data =>
      (match s.stageCheck kind off data.length true with
       | some st => s.oobAnswer st
       | none => (s.stageInto fun n => .flashWrite n kind off data).oobAnswer .ok)
    | .verify fw img ucal =>
      let (t, st) := s.verifyRead fw img ucal
      t.oobAnswer st
    | .arm secs ns drain =>
      let (t, st) := s.armBank secs ns drain
      t.oobAnswer st
    | .other type _ => s.oobAnswer (if type = 0 ∨ type = 2 ∨ type = 5 then .ok else .badOpcode)

/-- I3C_DYNAMIC_ADDRESS: SETDASA or ENTDAA. -/
def State.i3cAddress (s : State) (addr : Nat) : State :=
  if !s.oobUp ∨ s.flag F.mgtI3cStatusAssigned then s
  else (s.setFld F.mgtI3cStatusDynAddr addr).setFlag F.mgtI3cStatusAssigned true

/-- MCTP_CONTROL: the bus owner assigns or reads the endpoint ID; 0 and 0xFF name no endpoint. -/
def State.mctp (s : State) (r : MctpReq) : State :=
  if !s.oobUp then s
  else
    match r with
    | .setEid eid =>
      if eid = 0 ∨ 0xFF ≤ eid then s.emit (.oob [2#8])
      else (s.setFld F.mgtI3cStatusEid eid).emit (.oob [0#8, BitVec.ofNat 8 eid])
    | .getEid => s.emit (.oob [0#8, BitVec.ofNat 8 (s.fld F.mgtI3cStatusEid)])
    | .other _ => s.emit (.oob [5#8])

/-! ### The console UART (R512, R513) -/

/-- Whether the management part runs. -/
def State.mgtRuns (s : State) : Bool :=
  !s.dev.resetLow && !s.dev.pulse && s.powered

/-- The majority of the samples at ticks i, i + 1 and i + 2; the line is high where no sample is given. -/
def uartMajority (samples : List Bool) (i : Nat) : Bool :=
  let x := fun (k : Nat) => samples.getD (i + k) true
  (x 0 && x 1) || (x 0 && x 2) || (x 1 && x 2)

/-- The byte that the data bits of a frame spell. -/
def uartByte (samples : List Bool) : Nat := ((List.range 8).map fun k => b2n (uartMajority samples (16 * (k + 1) + 7)) * 2 ^ k).sum

/-- Samples of the line from the tick at which a hunting receiver first sees it low; one that waits needs a high sample before. -/
def uartHunt (wait : Bool) (samples : List Bool) : List Bool := (if wait then samples.dropWhile (!·) else samples).dropWhile id

/-- A frame from its first low sample on. -/
def State.uartTake (s : State) (samples : List Bool) : State :=
  if uartMajority samples 7 then s
  else
  let s := { s with uart := { s.uart with wait := !uartMajority samples 151 } }
  if (List.range 154).all fun i => !samples.getD i true then s.countSat F.mgtUartStatusBreaks
  else
    let fe := !uartMajority samples 151
    let s := if fe then s.countSat F.mgtUartStatusFraming else s
    if !s.flag F.mgtUartCfgHost then s
    else if 64 ≤ s.uart.rx.length then s.countSat F.mgtUartStatusOverruns
    else { s with uart := { s.uart with rx := s.uart.rx ++ [(uartByte samples, fe)] } }

/-- What the receiver makes of samples, one a tick: it hunts again after a start bit that is none, from its tick 10 on, and after a frame,
from its tick 154 on (R513); at most n times. -/
def State.uartRun (s : State) (samples : List Bool) : Nat → State
  | 0 => s
  | n + 1 =>
    let s' := { s with uart := { s.uart with wait := s.uart.wait && !samples.any id } }
    match uartHunt s.uart.wait samples with
    | [] => s'
    | b :: bs => (s'.uartTake (b :: bs)).uartRun ((b :: bs).drop (if uartMajority (b :: bs) 7 then 10 else 154)) n

/-- UART_FRAME: samples of the line, one a tick. -/
def State.uartFrame (s : State) (samples : List Bool) : State := if s.mgtRuns then s.uartRun samples samples.length else s

/-- UART_TX by an origin: discarded when HOST is 0 or the FIFO is full. -/
def State.uartTx (s : State) (org : Origin) (b : Nat) : State :=
  if s.dcsOpen org 0xC000018 ∧ s.flag F.mgtUartCfgHost ∧ s.uart.tx.length < 64 then
    { s with uart := { s.uart with tx := s.uart.tx ++ [b % 256] } }
  else s

/-! ### The test access port (R526) -/

/-- The next state of the port (IEEE 1149.1). -/
def tapNext (t : TapState) (tms : Bool) : TapState :=
  match t with
  | .reset => if tms then .reset else .idle
  | .idle => if tms then .selDr else .idle
  | .selDr => if tms then .selIr else .capDr
  | .capDr => if tms then .ex1Dr else .shDr
  | .shDr => if tms then .ex1Dr else .shDr
  | .ex1Dr => if tms then .updDr else .pauDr
  | .pauDr => if tms then .ex2Dr else .pauDr
  | .ex2Dr => if tms then .updDr else .shDr
  | .updDr => if tms then .selDr else .idle
  | .selIr => if tms then .reset else .capIr
  | .capIr => if tms then .ex1Ir else .shIr
  | .shIr => if tms then .ex1Ir else .shIr
  | .ex1Ir => if tms then .updIr else .pauIr
  | .pauIr => if tms then .ex2Ir else .pauIr
  | .ex2Ir => if tms then .updIr else .shIr
  | .updIr => if tms then .selDr else .idle

/-- The instruction that four bits select, least significant first; every other code selects BYPASS. -/
def tapDecode (ir : List Bool) : TapInstr :=
  match ir with
  | [false, false, false, false] => .extest
  | [true, false, false, false] => .sample
  | [false, true, false, false] => .extestPulse
  | [true, true, false, false] => .extestTrain
  | _ => .bypass

/-- The instruction in effect: the EXTEST instructions act as BYPASS unless RESET_N is held low. -/
def State.tapInstr (s : State) : TapInstr :=
  match s.tap.instr with
  | .extest => if s.dev.resetLow then .extest else .bypass
  | .extestPulse => if s.dev.resetLow then .extestPulse else .bypass
  | .extestTrain => if s.dev.resetLow then .extestTrain else .bypass
  | i => i

/-- Whether the boundary register is selected. -/
def TapInstr.scans : TapInstr → Bool
  | .bypass => false
  | _ => true

/-- One rising edge of TCK. -/
def State.tapClock (s : State) (tms tdi : Bool) : State :=
  let x := s.tap
  let i := s.tapInstr
  let n := tapNext x.st tms
  match x.st with
  | .capIr => { s with tap := { x with st := n, ir := [true, false, false, false] } }
  | .shIr => ({ s with tap := { x with st := n, ir := x.ir.drop 1 ++ [tdi] } }).emit (.tdo (x.ir.headD true))
  | .updIr => { s with tap := { x with st := n, instr := tapDecode x.ir } }
  | .capDr =>
    if i.scans then
      let cells := (List.range Config.scanCells).map fun k => bit (Config.freeByte s.freeCount k).toNat 0
      { s with tap := { x with st := n, dr := cells }, freeCount := s.freeCount + 1 }
    else { s with tap := { x with st := n, byp := false } }
  | .shDr =>
    if i.scans then ({ s with tap := { x with st := n, dr := x.dr.drop 1 ++ [tdi] } }).emit (.tdo (x.dr.headD tdi))
    else ({ s with tap := { x with st := n, byp := tdi } }).emit (.tdo x.byp)
  | .updDr => { s with tap := { x with st := n, driven := if i.scans then x.dr else x.driven } }
  | _ => { s with tap := { x with st := n, instr := if n = .reset then .bypass else x.instr } }

/-- BOUNDARY_SCAN. While TRST_N is low the port is held in Test-Logic-Reset. -/
def State.boundaryScan (s : State) (i : TapInput) : State :=
  match i with
  | .trst true => { s with tap := { low := true } }
  | .trst false => { s with tap := { s.tap with low := false } }
  | .clock tms tdi => if s.tap.low then s else s.tapClock tms tdi

end Machine
end Sys2Proof
end

