-- ==== Sys2Proof/Machine/RegView.lean ====
section
/-! DEFINITION. What a read of a register returns and does (R10 to R14, R36; Tables 22.1 and 22.2): fields that show other state of the
device, fields that a read clears, and which object a register shows. -/

namespace Sys2Proof
namespace Machine

/-! ### Fields that show other state -/

/-- Sets several elements of a field. -/
def State.setElems (s : State) (f : Fld) (o n : Nat) (v : Nat → Nat) : State :=
  (List.range n).foldl (fun t e => t.setFld f (v e) o e) s

/-- The states of the domains from d0 on (Table 1.10). -/
def State.domCodes (s : State) (d0 n : Nat) : Nat := ((List.range n).map fun i => s.domCode (d0 + i) * 4 ^ i).sum

/-- Lanes of a Square share that a function's collectives hold, in 64 KiB units, and how many are in progress. -/
def State.collsOf (s : State) (fn : Nat) : Nat := (s.colls.filter fun e => e.2.fn == fn).length

/-- What a function holds of a resource (Table 16.4). -/
def State.heldOfRes (s : State) (fn r : Nat) : Nat :=
  match r with
  | 0 => (s.queues.filter fun e => e.1 / 4096 == fn && e.2.state != .off).length
  | 1 => (s.qps.filter fun e => e.2.owner == fn && e.2.state != .free).length
  | 2 => (s.alloc fn).tsCount
  | 3 => s.windowsHeld fn + s.importsHeld fn
  | 4 => spanTotal (s.ten.pages.filter fun e => e.2.2 == fn)
  | 5 => (s.ten.blocks.filter fun e => e.2 == fn).length
  | 6 => s.squareUsed fn
  | 8 => (s.ten.chans.filter fun e => e.2 == fn).length
  | _ => 0

/-- How much of a resource is free; for limits, the pool less the sum of the limits. -/
def State.freeOfRes (s : State) (r : Nat) : Nat :=
  let given := (s.created.map fun fn => (s.alloc fn).limit r).sum
  match r with
  | 4 => spanTotal s.freePages
  | 5 => ((List.range 160).filter s.freeBlock).length
  | 8 => 64 - s.ten.chans.length
  | _ => s.poolSize r - given

/-- The function that HP.FN_SEL of a port selects. -/
def State.hpSelected (s : State) (port : Nat) : Nat := 64 * port + s.fld F.hpFnSelIndex port

/-- Seconds of grace that are left to an ORPHANED function's link: a second that has begun counts whole (DESIGN CHOICE, log entry 132: R118
and Table 4.9 do not say how a part of a second is rounded). -/
def State.graceLeft (s : State) (fn : Nat) : Nat :=
  if (s.fn fn).state = .orphaned then
    let g := max 1 (s.fld F.hpCrashGraceS (portOf fn))
    g - (s.nowNs - (s.link (s.linkOf fn)).graceAt) / 1000000000
  else 0

/-- Bits 8h + 7 to 8h of KEYF.STATE for a region slot (Table 15.3). -/
def State.regionByte (s : State) (fn slot : Nat) : Nat :=
  if slot = 0 then 0 else (s.region fn slot).code + 4 * b2n (s.tagsPage fn slot)

/-- The 16 bits of KEYF.STATE for a key handle. -/
def State.handleBits (s : State) (fn h : Nat) : Nat :=
  if h = 0 then 0
  else
    let k := s.keySet fn h
    k.tx + ((List.range 4).map fun e => (k.slots.getD e .empty).code * 4 ^ (e + 1)).sum + 2 ^ 10 * b2n (s.keyBound fn h)

/-- KEYF.STATE: the slots near the one that the last command named. -/
def State.keyState (s : State) (fn : Nat) : Nat :=
  let i := s.fld F.keyfCmdIndex fn
  if s.flag F.keyfCmdRegion fn then ((List.range 8).map fun h => s.regionByte fn (i / 8 % 2 * 8 + h) * 2 ^ (8 * h)).sum
  else ((List.range 4).map fun h => s.handleBits fn (i / 4 * 4 + h) * 2 ^ (16 * h)).sum

/-- A word of a loaded format slot, as BLK.FMT_SEL of a Block selects (Table 11.15). -/
def State.fmtWord (s : State) (b : Nat) : Nat :=
  let x := s.blk b
  let slot := AMap.find (if s.flag F.blkFmtSelKind b then x.ptabs else x.books) (s.fld F.blkFmtSelSlot b)
  leAt ((slot.map (·.image)).getD []) (8 * s.fld F.blkFmtSelWord b) 8

/-- The registers' view of a sequencer's place (Table 12.6). -/
def State.showSeq (s : State) (pc fault rep : Fld) (b o : Nat) : State :=
  let x := s.blk b
  ((s.setFld pc x.pc o).setFld fault x.faultPc o).setFld rep x.rep o

/-- The entry of the gate list that EN.GCL_SEL of a port selects, as GATES × 2^32 + INTERVAL_NS. -/
def State.gclEntry (s : State) (p : Nat) : Nat :=
  let i := s.fld F.enGclSelIndex p
  if s.flag F.enGclSelList p then
    match (s.eport p).oper[i]? with
    | some e => e.1 * 2 ^ 32 + e.2
    | none => 0
  else AMap.look (0xFF * 2 ^ 32 + 0xF4240) (s.eport p).admin i

/-- The committed entry of the aperture slot that APT.INDEX selects. -/
def State.aptShown (s : State) (fn : Nat) : AptEntry := s.slotOf fn (s.fld F.aptIndexSlot fn)

/-- The state with the fields of a register's object set to what they show. -/
def State.shown (s : State) (r : Reg) (o : Nat) : State :=
  let v := s.fuses.variant
  match r with
  | .idCapUnits =>
    let t := ((s.setFld F.idCapUnitsTransport 1).setFld F.idCapUnitsRouter 1).setFld F.idCapUnitsSqInt 1
    ((((t.setFld F.idCapUnitsSqFp (b2n v.sqFp)).setFld F.idCapUnitsHostPorts v.ports).setFld F.idCapUnitsLaneGroups v.laneGroups).setFld
      F.idCapUnitsHbmStacks v.stacks).setFld F.idCapUnitsDistricts v.districts
  | .idCapSizes =>
    let t := ((s.setFld F.idCapSizesFnPerPort 64).setFld F.idCapSizesTpipes 4).setFld F.idCapSizesSqMib 48
    ((t.setFld F.idCapSizesHbmGibStack 64).setFld F.idCapSizesLanes v.lanes).setFld F.idCapSizesBlkPerDist v.blkPerDist
  | .rstState => s.setFld F.rstStateState s.dev.state.code
  | .clkpwrDomState =>
    (((s.setFld F.clkpwrDomStateDState (s.domCodes 0 8)).setFld F.clkpwrDomStateHState (s.domCodes 8 8)).setFld
      F.clkpwrDomStateLState (s.domCodes 16 4)).setFld F.clkpwrDomStatePState (s.domCodes 20 4)
  | .clkpwrDomReqStatus => s.setFlag F.clkpwrDomReqStatusBusy s.domBusy
  | .clkpwrGovCfg => if s.imaged then s else s.setFld F.clkpwrGovCfgPkgLimitW v.limitW
  | .clkpwrFtS => s.setFld F.clkpwrFtSSec s.clk.secs
  | .clkpwrFtStatus => s.setFlag F.clkpwrFtStatusSync s.ftSync
  | .imgFwStatus =>
    let f := s.fw
    let t := (s.setFld F.imgFwStatusConfirmLeftS s.confirmLeft).setFld F.imgFwStatusRbReason f.rbReason
    let t := (t.setFld F.imgFwStatusBank1 f.bank1.state.code).setFld F.imgFwStatusBank0 f.bank0.state.code
    ((t.setFld F.imgFwStatusTriesLeft f.tries).setFlag F.imgFwStatusTrial f.onTrial).setFld F.imgFwStatusRunBank f.runBank
  | .secStatus =>
    let slots := fun (p : KeySlot → Bool) => ((List.range 4).map fun i => b2n (p (s.fw.owner.getD i {})) * 2 ^ i).sum
    (((s.setFld F.secStatusMehregRevoked (((List.range 4).map fun i => b2n (s.fuses.mehreg.getD i {}).revoked * 2 ^ i).sum)).setFld F.secStatusOwnerRevoked (slots (·.revoked))).setFld
      F.secStatusOwnerSet (slots (·.set))).setFlag F.secStatusKekValid s.fw.kek.isSome
  | .hpLinkStatus =>
    if s.domOn (20 + o) then s
    else
      let t := (s.resetReg .hpLinkStatus o).setFld F.hpLinkStatusState 3 o
      if s.bifurcated o then t.setFld F.hpLinkStatusState 3 o 1 else t
  | .hpFnInfo =>
    let fn := s.hpSelected o
    let l := s.link (s.linkOf fn)
    let tags := (s.tags.filter fun t => t.fn == fn && !t.timedOut).length
    let t := (s.setFld F.hpFnInfoBadTokens (if s.isPf fn then l.badTokens else 0) o).setFld F.hpFnInfoGraceLeft (s.graceLeft fn) o
    ((t.setFld F.hpFnInfoOutTags (min 4096 tags) o).setFlag F.hpFnInfoBme (s.fn fn).bme o).setFld F.hpFnInfoState (s.fn fn).state.code o
  | .fnUse =>
    let fn := s.fld F.fnSelFn
    let r := s.fld F.fnSelRes
    (s.setFld F.fnUseLimit ((s.alloc fn).limit r)).setFld F.fnUseHeld (s.heldOfRes fn r)
  | .fnEq =>
    s.setFld F.fnEqEq (if s.ten.equal.isSome then s.share (s.fld F.fnSelRes) else 0)
  | .fnBase => s.setFld F.fnBaseBase ((s.alloc (s.fld F.fnSelFn)).base (s.fld F.fnSelRes))
  | .fnPool =>
    let r := s.fld F.fnSelRes
    (s.setFld F.fnPoolTotal (s.poolSize r)).setFld F.fnPoolFree (s.freeOfRes r)
  | .fnKskBase =>
    (match s.kiosk (s.fld F.fnSelFn) with
     | some k => (s.setFld F.fnKskBaseBase (mkFga s.nodeId 0 k.base / 8)).setFld F.fnKskBaseSize k.size
     | none => s)
  | .fnKskPos =>
    (match s.kiosk (s.fld F.fnSelFn) with
     | some k => (((s.setFld F.fnKskPosReqTail k.reqTail).setFld F.fnKskPosReqHead k.reqHead).setFld
         F.fnKskPosRspTail k.rspTail).setFld F.fnKskPosRspHead k.rspHead
     | none => s)
  | .tpRcStatus => s.setFld F.tpRcStatusUsed ((List.range 4).map fun k => s.rcUsed k * 2 ^ (16 * k)).sum
  | .ccShpCfg => if 2 ^ 20 ≤ o then s.setFld F.ccShpCfgCeil (s.rateLimit (o - 2 ^ 20)) o else s
  | .ccShpState =>
    if o < 2 ^ 20 ∧ !(s.qp o).up then (s.setFld F.ccShpStateRate 0 o).setFld F.ccShpStateCredit 0 o
    else
    let x := s.shaper o
    (s.setFld F.ccShpStateRate x.rate o).setFld F.ccShpStateCredit (ofSigned 32 x.credit) o
  | .vlRouteEntry =>
    let m := if s.flag F.vlRouteSelDetour then s.vl.detour else s.vl.route
    s.setFld F.vlRouteEntryEntry (AMap.look 0 m (s.fld F.vlRouteSelPos))
  | .vlLive => s.setFld F.vlLiveLive ((List.range 16).map fun l => b2n (s.vlLive l) * 2 ^ l).sum
  | .vlE2eState =>
    let w := s.ewin (s.fld F.vlE2eSelPos)
    (s.setFld F.vlE2eStateOut w.out).setFld F.vlE2eStateInj w.inj
  | .vlLinkQueue => s.setElems F.vlLinkQueueOcc o 8 fun c => min 0xFF ((s.vlink o).classFlits c * 64 / 4096)
  | .enTxqOcc => s.setElems F.enTxqOccOcc o 8 fun q => min 0xFF ((s.eport o).queued q / 4096)
  | .enGclEntry =>
    let e := s.gclEntry o
    (s.setFld F.enGclEntryGates (e / 2 ^ 32) o).setFld F.enGclEntryIntervalNs (e % 2 ^ 32) o
  | .blkResCount => s.setFld F.blkResCountUsed s.res.length
  | .blkResEntry =>
    (match AMap.find s.res (s.fld F.blkResSelIndex) with
     | some e =>
       let t := ((s.setFld F.blkResEntryBase4k (e.base / 4096)).setFld F.blkResEntryStore4k (e.region / 4096)).setFld
         F.blkResEntryPages (e.len / 4096 - 1)
       (((t.setFld F.blkResEntryState e.state.code).setFlag F.blkResEntryLoad e.load).setFlag F.blkResEntryWb e.wb).setFld
         F.blkResEntryBlock e.blk
     | none => s)
  | .blkResOwner => s.setFld F.blkResOwnerFn ((AMap.find s.res (s.fld F.blkResSelIndex)).map (·.fn) |>.getD 0)
  | .blkStatus =>
    let x := s.blk o
    let t := (s.setFld F.blkStatusLastStatus x.lastStatus o).setFld F.blkStatusState x.state.code o
    (match s.blkFn o with
     | some fn => (t.setFld F.blkStatusFn fn o).setFlag F.blkStatusAlloc true o
     | none => t)
  | .blkFmtData => s.setFld F.blkFmtDataData (s.fmtWord o) o
  | .blkResUsed => s.setFld F.blkResUsedEntries (s.res.filter fun e => e.2.blk == o).length o
  | .blkSeqPc => s.showSeq F.blkSeqPcPc F.blkSeqPcFaultPc F.blkSeqPcRep o o
  | .sqUse => (s.setFld F.sqUseActive s.colls.length).setFld F.sqUseUsed (s.colls.map fun e => e.2.slots * e.2.unit).sum
  | .sqFnUse =>
    let fn := s.fld F.sqFnSelFn
    ((s.setFld F.sqFnUseShare (s.squareLimit fn)).setFld F.sqFnUseUsed (s.squareUsed fn)).setFld F.sqFnUseActive (s.collsOf fn)
  | .sqfStatus =>
    ((s.setFld F.sqfStatusShare (s.squareLimit o) o).setFld F.sqfStatusUsed (s.squareUsed o) o).setFld F.sqfStatusActive (s.collsOf o) o
  | .hbmPool => (s.setFld F.hbmPoolTotal (spanTotal s.poolPages)).setFld F.hbmPoolFree (spanTotal s.freePages)
  | .hbmStatus =>
    let x := s.stack o
    (s.setFld F.hbmStatusPoisoned x.poison.length o).setFld F.hbmStatusRepairs x.spares.length o
  | .intIcStatus => (s.setFld F.intIcStatusState (s.chan o).state.code o).setFld F.intIcStatusExpDepth (s.chan o).exps.length o
  | .intIcRunning => if s.flag F.intIcCtrlPoly o then s else s.setFld F.intIcRunningRunning (s.fld F.intIcRunningRunning o % 2 ^ 32) o
  | .intIcResult => if s.flag F.intIcCtrlPoly o then s else s.setFld F.intIcResultResult (s.fld F.intIcResultResult o % 2 ^ 32) o
  | .jnlRstatus =>
    (s.setFlag F.jnlRstatusDraining (s.dev.state == .drain)).setFlag F.jnlRstatusRecovering (s.pipes.any fun e => e.2.recovering != 0)
  | .jnlSlice =>
    (s.setFld F.jnlSliceFree (65536 - s.sliceUsed o) o).setFld F.jnlSliceHwm (max (s.fld F.jnlSliceHwm o) (s.sliceUsed o)) o
  | .bistRepair =>
    let n := s.settings.soft.length
    (((s.setFld F.bistRepairFusesFree s.bist.fusesFree).setFld F.bistRepairPending n).setFld F.bistRepairHard s.bist.hard).setFld
      F.bistRepairSoft n
  | .mgtI3cStatus => s.setFld F.mgtI3cStatusStaticAddr (0x30 + s.fuses.i3cAddr)
  | .mgtUartStatus => (s.setFld F.mgtUartStatusRxLevel s.uart.rx.length).setFld F.mgtUartStatusTxLevel s.uart.tx.length
  | .mgtUartRx =>
    (match s.flag F.mgtUartCfgHost, s.uart.rx with
     | true, (b, fe) :: _ => ((s.setFld F.mgtUartRxData b).setFlag F.mgtUartRxValid true).setFlag F.mgtUartRxFe fe
     | _, _ => s)
  | .aptEntryHi => s.setFld F.aptEntryHiQp (s.aptShown o).qp o
  | .aptEntryLo =>
    let e := s.aptShown o
    let t := (s.setFld F.aptEntryLoWkey e.wkey o).setFld F.aptEntryLoWoff e.woff o
    ((t.setFlag F.aptEntryLoW e.w o).setFlag F.aptEntryLoR e.r o).setFlag F.aptEntryLoV e.v o
  | .hpfStatus => s.setFld F.hpfStatusState (s.fn o).state.code o
  | .hpfAttachToken =>
    let l := s.link (s.linkOf o)
    s.setFld F.hpfAttachTokenToken (if l.tokenFresh then l.token.toNat else 0) o
  | .qfPos =>
    let x := s.queue (o / 4096) (o % 4096)
    (s.setFld F.qfPosOldest x.oldest o).setFld F.qfPosTail x.tail o
  | .qfStatus => s.setFld F.qfStatusState (s.queue (o / 4096) (o % 4096)).state.code o
  | .wincCount => (s.setFld F.wincCountImports (s.importsHeld o) o).setFld F.wincCountWindows (s.windowsHeld o) o
  | .seqfState =>
    let b := s.fld F.seqfSelBlock o
    let x := s.blk b
    ((s.showSeq F.seqfStatePc F.seqfStateFaultPc F.seqfStateRep b o).setFld F.seqfStateLastStatus x.lastStatus o).setFld
      F.seqfStateState x.state.code o
  | .keyfState => s.setFld F.keyfStateState (s.keyState o) o
  | .kskStatus =>
    (match s.kiosk o with
     | some k =>
       let n := subMod 16 k.rspTail k.rspHead
       let t := (s.setFld F.kskStatusRxCount n o).setFld F.kskStatusTxFree (k.entries - k.reqUsed) o
       (t.setFlag F.kskStatusNoKiosk false o).setFlag F.kskStatusRxReady (n != 0) o
     | none => s.setFlag F.kskStatusNoKiosk true o)
  | _ => s

/-! ### Reads -/

/-- The value of a register's fields as they are stored: write-only fields and reserved bits read 0 (R12, Table 0.9). -/
def State.stored (s : State) (r : Reg) (o : Nat) : Nat :=
  ((r.fields.filter fun f => f.acc != .wo).map fun f =>
    ((List.range f.n).map fun e => s.fld f o e * 2 ^ f.pos e).sum).sum

/-- What a read of a register of an object returns. -/
def State.regValue (s : State) (r : Reg) (o : Nat) : Nat := (s.shown r o).stored r o

/-- Clears the RC fields of a register (R14). -/
def State.clearRc (s : State) (r : Reg) (o : Nat) : State :=
  (r.fields.filter fun f => f.acc == .rc).foldl (fun t f => t.setElems f o f.n fun _ => 0) s

/-- What a read of a register does (R14, R32, R116, R496, R512). -/
def State.readEffect (s : State) (r : Reg) (o : Nat) : State :=
  match r with
  | .clkpwrFtS => s.setFld F.clkpwrFtNsNs s.clk.ns
  | .clkpwrTemp => { s.clearRc r o with gov := { s.gov with fresh := s.gov.fresh.filter (· != o) } }
  | .hpfAttachToken =>
    let l := s.linkOf o
    s.setLink l { s.link l with tokenFresh := false }
  | .mgtUartRx => if s.flag F.mgtUartCfgHost then { s with uart := { s.uart with rx := s.uart.rx.drop 1 } } else s
  | _ => s.clearRc r o

/-- A read of a register of an object: the value, and the state after it. -/
def State.regRead (s : State) (r : Reg) (o : Nat) : Nat × State := (s.regValue r o, s.readEffect r o)

/-! ### Which object a register shows -/

/-- The object of a register of the device control space, by its instance: none while it reads 0 and discards writes, because the unit
is absent or not powered (R5, R36), the port does not exist in its lane group's mode (R300), or the selection names nothing. -/
def State.dcsObj (s : State) (r : Reg) (i : Nat) : Option Nat :=
  let created := fun (fn : Nat) => if (s.fn fn).state = .notCreated then none else some fn
  match r with
  | .clkpwrTemp =>
    let n := s.fld F.clkpwrTempSelSensor
    if s.sensorPresent n then some n else none
  | .fnDlCtrl => some (s.fld F.fnSelFn)
  | .fnDlHa => some (s.fld F.fnSelFn)
  | .fnDlBase0 => some (s.fld F.fnSelFn)
  | .fnDlBase1 => some (s.fld F.fnSelFn)
  | .fnDlCnt => some (s.fld F.fnSelFn)
  | .xlCtxRoot => some (s.fld F.xlSelFn)
  | .xlCtxCtrl => some (s.fld F.xlSelFn)
  | .ccShpCfg => s.shpSelected
  | .ccShpState => s.shpSelected
  | .ccShpCmd => s.shpSelected
  | .ccMtrRate => (created (s.fld F.ccMtrSelFn)).map (mtrObj · (s.fld F.ccMtrSelKind))
  | .ccMtrBurst => (created (s.fld F.ccMtrSelFn)).map (mtrObj · (s.fld F.ccMtrSelKind))
  | .ccMtrCtrl => (created (s.fld F.ccMtrSelFn)).map (mtrObj · (s.fld F.ccMtrSelKind))
  | .ccMtrGreen => (created (s.fld F.ccMtrSelFn)).map (mtrObj · (s.fld F.ccMtrSelKind))
  | .ccMtrYellow => (created (s.fld F.ccMtrSelFn)).map (mtrObj · (s.fld F.ccMtrSelKind))
  | .ccMtrRed => (created (s.fld F.ccMtrSelFn)).map (mtrObj · (s.fld F.ccMtrSelKind))
  | _ =>
    match regDomain s.fuses.variant.blkPerDist r i with
    | none => some i
    | some d =>
      let port := match r with
        | .enStat => some (i / 22)
        | .enPortCfg => some i | .enPortStatus => some i | .enMacAddr => some i | .enPrioMap => some i | .enDscpMap => some i
        | .enTxThresh => some i | .enLpi => some i | .enTxqOcc => some i | .enGateCtrl => some i | .enGateBaseS => some i
        | .enGateBaseNs => some i | .enGateCycle => some i | .enGclSel => some i | .enGclEntry => some i
        | _ => none
      if s.domOn d && (match port with | some p => s.enExists p | none => true) || (r == .hpLinkStatus && s.domPresent d) then some i
      else none

/-- The object of a register of a function's BAR0, by its instance: none while the selection names no queue or Block of the function
(R121, R354), or the register is not the PF's (Table 4.10). -/
def State.bar0Obj (s : State) (fn : Nat) (r : Reg) (i : Nat) : Option Nat :=
  let q := s.fld F.qfSelQueue fn
  let queue := if q < (s.alloc fn).qCount then some (qObj fn q) else none
  let sel := s.fld F.seqfSelBlock fn
  let mine := decide (s.blkFn sel = some fn)
  let block := if mine then some fn else none
  let ofBlk := if mine then some sel else none
  match r with
  | .qfBase => queue | .qfCfg => queue | .qfPos => queue | .qfStatus => queue | .qfSample => queue | .qfSampleMax => queue
  | .qfSampleSum => queue
  | .seqfCtrl => block | .seqfState => block | .seqfSample => ofBlk | .seqfSampleIter => ofBlk | .seqfCvtFail => ofBlk
  | .kskTxData => some (fn * 8 + i)
  | .kskRxData => some (fn * 8 + i)
  | .telfCntCfg => some (fn * 32 + i)
  | .telfCnt => some (fn * 32 + i)
  | .hpfAttachToken => if s.isPf fn then some fn else none
  | _ => some fn

/-- The eight registers of an integrity channel, in the order of their offsets (Table 15.9). -/
def icRegs : List Reg :=
  [.intIcCtrl, .intIcSrc, .intIcExpLen, .intIcExpVal, .intIcRunning, .intIcCount, .intIcStatus, .intIcResult]

/-- The registers of an invalidation engine, in the order of their offsets (Table 3.5). -/
def xlRegs : List Reg := [.xlSel, .xlCtxRoot, .xlCtxCtrl, .xlInvalAddr, .xlInval, .xlInvalStatus]

/-- A register that an offset of BAR0 names: one of the function's own, one of its integrity channels, or its PF's invalidation engine
with the object it shows. -/
inductive BarReg where
  | own (r : Reg) (i : Nat)
  | chan (r : Reg) (j : Nat)
  | xlp (r : Reg)
  | none
  deriving DecidableEq, Repr

/-- The register at an offset of a function's BAR0. -/
def State.barReg (s : State) (fn off : Nat) : BarReg :=
  if 0x2A0000 ≤ off ∧ off < 0x2A1000 then
    match icRegs[off % 0x40 / 8]? with
    | some r => .chan r ((off - 0x2A0000) / 0x40)
    | none => .none
  else if 0x220000 ≤ off ∧ off < 0x220030 then
    match s.isPf fn, xlRegs[(off - 0x220000) / 8]? with
    | true, some r => .xlp r
    | _, _ => .none
  else
    match locate bar0Locs off with
    | some (r, i) => .own r i
    | none => .none

/-- The object that a register of an invalidation engine of a PF shows: the selected function's context, or the engine's own. -/
def State.xlpObj (s : State) (pf : Nat) (r : Reg) : Option Nat :=
  match r with
  | .xlCtxRoot => s.xlSelected (.xlp pf)
  | .xlCtxCtrl => s.xlSelected (.xlp pf)
  | _ => some (pf + 1)

end Machine
end Sys2Proof
end

