-- ==== Sys2Proof/Machine/RegWrite.lean ====
section
/-! DEFINITION. What a write to a register does (R10 to R14, R36; Tables 0.9, 22.1 and 22.2): fields by their access codes, and the
registers whose write starts something. -/

namespace Sys2Proof
namespace Machine

/-! ### Plain fields (Table 0.9) -/

/-- The LOCKED bit that holds for a register's RWL fields; none for a block without one, whose fields the image locks (R471). -/
def lockOf : Reg → Option Fld
  | .rstCfg => some F.rstCfgLocked
  | .clkpwrGovCfg => some F.clkpwrGovCfgLocked
  | .clkpwrFtCfg => some F.clkpwrFtCfgLocked
  | .tpCfg => some F.tpCfgLocked
  | .ccCfg => some F.ccCfgLocked | .ccMark => some F.ccCfgLocked | .ccTxsched => some F.ccCfgLocked
  | .ccTxweight => some F.ccCfgLocked | .ccProfRate => some F.ccCfgLocked | .ccProfTime => some F.ccCfgLocked
  | .ccProfCtrl => some F.ccCfgLocked | .ccProfRtt => some F.ccCfgLocked
  | .vlCfg => some F.vlCfgLocked | .vlLinkCtrl => some F.vlCfgLocked
  | .enPortCfg => some F.enCfgLocked | .enMacAddr => some F.enCfgLocked | .enPrioMap => some F.enCfgLocked
  | .enDscpMap => some F.enCfgLocked
  | .blkCfg => some F.blkCfgLocked
  | .sqCfg => some F.sqCfgLocked
  | .intCfg => some F.intCfgLocked
  | _ => none

/-- Whether a register's RWL fields are locked. -/
def State.locked (s : State) (r : Reg) (o : Nat) : Bool :=
  match r with
  | .hpPortCfg => s.flag F.hpPortCfgLocked o
  | _ => match lockOf r with | some f => s.flag f | none => s.imaged

/-- Writes one element of a field by its access code. -/
def State.putElem (s : State) (f : Fld) (lock : Bool) (o v e : Nat) : State :=
  let x := bits v (f.pos e + f.width - 1) (f.pos e)
  match f.acc with
  | .rw => s.setFld f x o e
  | .rwl => if lock then s else s.setFld f x o e
  | .w1c => if x = 1 then s.setFld f 0 o e else s
  | .w1s => if x = 1 then s.setFld f 1 o e else s
  | _ => s

/-- Writes the fields of a register of an object that satisfy p, by their access codes (R12, Table 0.9). -/
def State.putFields (s : State) (r : Reg) (o v : Nat) (p : Fld → Bool) : State :=
  let lock := s.locked r o
  (r.fields.filter p).foldl (fun t f => (List.range f.n).foldl (fun t e => t.putElem f lock o v e) t) s

/-- Writes every field of a register. -/
def State.putReg (s : State) (r : Reg) (o v : Nat) : State := s.putFields r o v fun _ => true

/-- Writes a register unless a condition has its write discarded. -/
def State.putUnless (s : State) (c : Bool) (r : Reg) (o v : Nat) : State := if c then s else s.putReg r o v

/-- The state that a meaning answers. -/
def State.taken (s : State) (r : Result) : State :=
  match r with
  | .next t => t
  | _ => s

/-! ### Command registers of the device control space -/

/-- RST.CMD (Table 18.13). The time since t0 that RELEASE shows is a free value here. -/
def State.rstWrite (s : State) (org : Origin) (v : Nat) : State :=
  match bits v 1 0 with
  | 1 => s.deviceResetCmd org (bits v 63 48)
  | 2 =>
    let (w, s) := s.draw
    s.release org w.toNat
  | _ => s.rstEnds .badOpcode

/-- CLKPWR.DOM_REQ (R502). -/
def State.domWrite (s : State) (org : Origin) (v : Nat) : State :=
  match bits v 1 0 with
  | 1 => s.domRequest org (bits v 12 8) true
  | 2 => s.domRequest org (bits v 12 8) false
  | _ => if s.domBusy then s else (s.setFld F.clkpwrDomReqDomain (bits v 12 8)).domEnds .badOpcode

/-- IMG.FW_CMD (Table 19.5). What a check of the bank's components finds is a free value here. -/
def State.fwWrite (s : State) (org : Origin) (v : Nat) : State :=
  match bits v 2 0 with
  | 1 => s.stageCmd org
  | 2 =>
    let (a, s) := s.draw
    let (b, s) := s.draw
    let fwSvn := b.toNat % 256
    let imgSvn := b.toNat / 256 % 256
    let good := a.toNat % 2 = 0 ∧ s.fld F.imgSvnFwFused ≤ fwSvn ∧ fwSvn ≤ 64 ∧ s.fld F.imgSvnImgFused ≤ imgSvn ∧ imgSvn ≤ 64
    s.verifyCmd org fun s => s.verifyBank (if good then none else some (1 + a.toNat / 2 % 10, a.toNat / 32 % 256)) fwSvn imgSvn
  | 3 => s.fwArmCmd org
  | 4 => s.cancelCmd org
  | 5 => s.confirmCmd org
  | 6 => s.rollbackCmd org
  | _ => s.fwEnds .badOpcode

/-- FN.CMD (Table 16.1). -/
def State.fnWrite (s : State) (org : Origin) (v : Nat) : State :=
  let fn := bits v 7 0
  let r := bits v 11 8
  s.fnCmd org fun s =>
    match bits v 35 32 with
    | 1 => s.fnCreate fn
    | 2 => s.fnDestroy fn
    | 3 => s.setLimit fn r
    | 4 => s.fnGive fn r
    | 5 => s.fnTake fn r
    | 6 => s.vfReset fn
    | 7 => s.dlSwap fn
    | 8 => s.kskSet fn
    | _ => s.fnEnds .badOpcode

/-- FN.KSK_DB (R431, R432). -/
def State.kskDbWrite (s : State) (org : Origin) (v : Nat) : State :=
  if bit v 63 then s.reqHead org (bits v 39 32) (bits v 15 0) else s.rspTail org (bits v 39 32) (bits v 15 0)

/-- A write to INVAL of an engine (Table 3.10); SCOPE 3 is discarded. -/
def State.invalWrite (s : State) (e : XlPort) (v : Nat) : State :=
  match bits v 63 62 with
  | 0 => s.invalRange e (bits v 19 0)
  | 1 => s.invalFunction e
  | 2 => s.invalAll e
  | _ => s

/-- Q.INVAL (R135); a write of the reserved scope is discarded, and tells so only while BUSY is 1. -/
def State.qInvalWrite (s : State) (v : Nat) : State :=
  match bits v 63 62 with
  | 0 => s.qInval (.slot (bits v 19 8) (bits v 7 0))
  | 1 => s.qInval (.queue (bits v 19 8))
  | 2 => s.qInval .all
  | _ => if s.flag F.qInvalStatusBusy then s.setFlag F.qInvalStatusDiscarded true else s

/-- JNL.RECOVER (R456). -/
def State.recoverWrite (s : State) (org : Origin) (v : Nat) : State :=
  match bits v 2 0 with
  | 1 => s.enterEqualCmd org
  | 2 => s.leaveEqualCmd org
  | 3 => s.drainCmd org
  | _ => s.recoverEnds .badOpcode

/-- A sequencer command (R349). -/
def State.seqWrite (s : State) (org : Origin) (sp : Space) (b v : Nat) : State :=
  match bits v 1 0 with
  | 1 => s.pauseBlk org sp b
  | 2 => s.resumeBlk org sp b
  | _ => s

/-- CC.SHP_CFG of a shaper: a function shaper's ceiling is the function's RATE limit (R222), so only BURST is taken. -/
def State.shpWrite (s : State) (o v : Nat) : State :=
  s.putFields .ccShpCfg o v fun f => f != F.ccShpCfgCeil || decide (o < 2 ^ 20)

/-- EN.GATE_CTRL of a port: ENABLE and, unless a change is pending, ADMIN_LEN; then CONFIG_CHANGE (R293, R295). A write that sets CONFIG_CHANGE
takes its own ADMIN_LEN first, and the change uses it (DESIGN CHOICE, log entry 132). -/
def State.gateWrite (s : State) (org : Origin) (p v : Nat) : State :=
  let pend := s.flag F.enGateCtrlPending p
  let t := s.putFields .enGateCtrl p v fun f => f != F.enGateCtrlAdminLen || !pend
  let t := if bit v 63 then t.taken (execConfigChange org p t) else t
  (t.gateSweep p).enPump p

/-- EN.GCL_ENTRY: an entry of the administrative list, while no change is pending (R295). -/
def State.gclWrite (s : State) (p v : Nat) : State :=
  if s.flag F.enGclSelList p ∨ s.flag F.enGateCtrlPending p then s
  else
    let x := s.eport p
    s.setEport p { x with admin := AMap.save (0xFF * 2 ^ 32 + 0xF4240) x.admin (s.fld F.enGclSelIndex p) (v % 2 ^ 40) }

/-- TEL.BW_CFG: while the monitor runs only ENABLE is taken; a start begins the first window (R510). -/
def State.bwWrite (s : State) (m v : Nat) : State :=
  if s.flag F.telBwCfgEnable m then s.putFields .telBwCfg m v (· == F.telBwCfgEnable)
  else { s.putReg .telBwCfg m v with bw := AMap.drop s.bw m }

/-- VL.LINK_CTRL: RETRAIN, then the fields (R14, R257). -/
def State.linkWrite (s : State) (org : Origin) (l v : Nat) : State :=
  let t := if bit v 2 then s.taken (execRetrain org l s) else s
  (t.putReg .vlLinkCtrl l v).refreshLinks

/-! ### Integrity channels (R416, R417) -/

/-- A write to a register of channel c, reached through a space under number j. -/
def State.icWrite (s : State) (org : Origin) (sp : Space) (r : Reg) (c j v : Nat) : State :=
  let own := match sp with | .bar0 _ => true | .dcs => false
  match r with
  | .intIcCtrl =>
    let t := s.putFields r c v fun f => f != F.intIcCtrlEnable && (f != F.intIcCtrlFn || !own)
    if bit v 0 then t.icEnable org sp j else t.icDisable org sp j
  | .intIcSrc => s.putUnless ((s.chan c).state != .off) r c v
  | .intIcRunning => s.putUnless ((s.chan c).state != .off) r c v
  | .intIcCount => s.putUnless ((s.chan c).state != .off) r c v
  | .intIcExpVal => s.icPush org sp j v
  | _ => s.putReg r c v

/-! ### Writes to the device control space -/

/-- A write of v to a register of an object in the device control space, at instance i, by an origin that reaches it. -/
def State.dcsRegWrite (s : State) (org : Origin) (r : Reg) (i o v : Nat) : State :=
  match r with
  | .rstCmd => s.rstWrite org v
  | .clkpwrDomReq => s.domWrite org v
  | .clkpwrFtStep => if s.ftSource = 0 then s.ftStep (toSigned 64 v) else s
  | .clkpwrFtRate => s.putFields r o v fun f => f != F.clkpwrFtRateRate || s.ftSource == 0
  | .imgCmd => if bits v 1 0 = 1 then s.clearUcal org else s.imgEnds .badOpcode
  | .imgStageSrc => s.putUnless (s.flag F.imgFwCmdStatusBusy) r o v
  | .imgStageArg => s.putUnless (s.flag F.imgFwCmdStatusBusy) r o v
  | .imgActS => s.putUnless (s.flag F.imgFwCmdStatusBusy) r o v
  | .imgActNs => s.putUnless (s.flag F.imgFwCmdStatusBusy) r o v
  | .imgFwCmd => if s.flag F.imgFwCmdStatusBusy then s else s.fwWrite org v
  | .fnArg0 => s.putUnless (s.flag F.fnStatusBusy) r o v
  | .fnArg1 => s.putUnless (s.flag F.fnStatusBusy) r o v
  | .fnCmd => s.fnWrite org v
  | .fnKskDb => s.kskDbWrite org v
  | .fnDlCtrl => s.putUnless (s.flag F.fnDlCtrlHostEn o || s.flag F.fnDlCtrlHbmEn o) r o v
  | .fnDlHa => s.putUnless (s.flag F.fnDlCtrlHostEn o || s.flag F.fnDlCtrlHbmEn o) r o v
  | .fnDlBase0 => s.putUnless (s.flag F.fnDlCtrlHostEn o || s.flag F.fnDlCtrlHbmEn o) r o v
  | .fnDlBase1 => s.putUnless (s.flag F.fnDlCtrlHostEn o || s.flag F.fnDlCtrlHbmEn o) r o v
  | .xlInval => s.invalWrite .xl v
  | .qInval => s.qInvalWrite v
  | .ccShpCfg => s.shpWrite o v
  | .ccShpCmd => if bit v 0 then s.clearDebt org else s
  | .vlLinkCtrl => s.linkWrite org o v
  | .enPortCfg => (s.putReg r o v).refreshLinks
  | .enExtTail => s.taken (execExtTail org v s)
  | .enTxThresh => (s.putReg r o v).setEport o { s.eport o with reload := true }
  | .enGateCtrl => s.gateWrite org o v
  | .enGateBaseS => s.putUnless (s.flag F.enGateCtrlPending o) r o v
  | .enGateBaseNs => s.putUnless (s.flag F.enGateCtrlPending o) r o v
  | .enGateCycle => s.putUnless (s.flag F.enGateCtrlPending o) r o v
  | .enGclEntry => s.gclWrite o v
  | .blkSeqCtrl => s.seqWrite org .dcs o v
  | .intIcCtrl => s.icWrite org .dcs r o i v
  | .intIcSrc => s.icWrite org .dcs r o i v
  | .intIcRunning => s.icWrite org .dcs r o i v
  | .intIcCount => s.icWrite org .dcs r o i v
  | .intIcExpVal => s.icWrite org .dcs r o i v
  | .jnlRecover => s.recoverWrite org v
  | .jnlRecSel => s.recSel org (bits v 17 0)
  | .telBwCfg => s.bwWrite o v
  | .bistCmd => if bits v 1 0 = 1 then s.fuseCmd org (bits v 63 48) else s.bistEnds .badOpcode
  | .mgtUartTx => s.uartTx org (bits v 7 0)
  | _ => s.putReg r o v

/-! ### Command registers of BAR0 -/

/-- WINC.CMD (Table 6.5). -/
def State.wincWrite (s : State) (fn v : Nat) : State :=
  let key := bits v 31 0
  s.wincCmd fn fun s =>
    match bits v 34 32 with
    | 1 => s.winCreate fn
    | 2 => s.winRevoke fn key false
    | 3 => s.winRevoke fn key true
    | 4 => s.winImport fn key
    | 5 => s.winForget fn key
    | 6 => s.winQueryCmd fn key
    | _ => s.wincEnds fn .badOpcode

/-- A command of the QPC registers: discarded while the BAR is not served or a command is in progress. -/
def State.qpcCmd (s : State) (fn : Nat) (f : State → State) : State :=
  if s.barOpen fn ∧ !s.flag F.qpcStatusBusy fn then f s else s

/-- QPC.CMD (Table 7.4). -/
def State.qpcWrite (s : State) (fn v : Nat) : State :=
  let q := bits v 19 0
  s.qpcCmd fn fun s =>
    match bits v 34 32 with
    | 1 => s.qpCreate fn
    | 2 => s.qpConnect fn q
    | 3 => s.qpDisconnect fn q
    | 4 => s.qpReset fn q
    | 5 => s.qpDestroy fn q
    | 6 => s.qpQuery fn q
    | _ => s.qpcEnds fn .badOpcode

/-- KEYF.CMD (Table 15.4). -/
def State.keyfWrite (s : State) (fn v : Nat) : State :=
  match bits v 35 32 with
  | 1 => s.keyInstall fn v
  | 2 => s.keySetTx fn v
  | 3 => s.keyRetire fn v
  | 4 => s.keyErase fn v
  | 5 => s.keyTag fn v
  | _ => s.keyCmd fn v fun s _ => s.keyEnds fn .badOpcode

/-- XLF.FB_CTRL: clearing ENABLE closes the open batch (Table 3.18). -/
def State.fbWrite (s : State) (fn v : Nat) : State :=
  let was := s.flag F.xlfFbCtrlEnable fn
  let t := s.putReg .xlfFbCtrl fn v
  if was ∧ !bit v 0 then t.closeBatch fn else t

/-- APT.ENTRY_HI: staged, while no commit is in progress (R65). -/
def State.stageEntry (s : State) (fn v : Nat) : State :=
  if s.flag F.aptStatusBusy fn then s else s.setApt fn { s.apt fn with stagedQp := bits v 19 0 }

/-- A write of v to a register of a function's BAR0, of object o, at instance i, by its host. -/
def State.bar0RegWrite (s : State) (fn : Nat) (r : Reg) (i o v : Nat) : State :=
  match r with
  | .aptIndex => s.putUnless (s.flag F.aptStatusBusy fn) r o v
  | .aptEntryHi => s.stageEntry fn v
  | .aptEntryLo => s.aptCommitIn fn v
  | .aptFence => s.aptFence fn
  | .xlfFbCtrl => s.fbWrite fn v
  | .xlfReplay => if bit v 63 then s.replayAbort fn (bits v 15 0) else s.replay fn (bits v 15 0)
  | .xlfAcCtrl => (if bit v 1 then s.acClear fn v else s.putReg r o v).acStop fn
  | .xlfAcTable => (s.putReg r o v).acStop fn
  | .xlfAcRange => (s.putReg r o v).acStop fn
  | .hpfAttach => s.attach fn (BitVec.ofNat 64 v)
  | .hpfWdog => s.watchdogRestart fn
  | .qfBase => s.putUnless ((s.queue fn (o % 4096)).state != .off) r o v
  | .qfCfg => s.qfCfgWrite fn v
  | .wincArg0 => s.putUnless (s.flag F.wincStatusBusy fn) r o v
  | .wincArg1 => s.putUnless (s.flag F.wincStatusBusy fn) r o v
  | .wincArg2 => s.putUnless (s.flag F.wincStatusBusy fn) r o v
  | .wincCmd => s.wincWrite fn v
  | .qpcArg0 => s.putUnless (s.flag F.qpcStatusBusy fn) r o v
  | .qpcCmd => s.qpcWrite fn v
  | .seqfCtrl => s.seqWrite (.host fn) (.bar0 fn) 0 v
  | .keyfArg0 => s.putUnless (s.flag F.keyfStatusBusy fn) r o v
  | .keyfArg1 => s.putUnless (s.flag F.keyfStatusBusy fn) r o v
  | .keyfCmd => s.keyfWrite fn v
  | .kskTxPost => s.kioskPost fn
  | .kskRxPop => s.rxPop fn
  | .qdbTail => s.doorbell fn i v
  | _ => s.putReg r o v

/-- A write to a register of a PF's invalidation engine; bits 7:6 of its SEL are reserved (Table 3.6). -/
def State.xlpWrite (s : State) (pf : Nat) (r : Reg) (o v : Nat) : State :=
  match r with
  | .xlInval => s.invalWrite (.xlp pf) v
  | .xlSel => s.putReg r o (v % 64)
  | _ => s.putReg r o v

end Machine
end Sys2Proof
end

