-- ==== Sys2Proof/Machine/Roce.lean ====
section
/-! DEFINITION. RoCEv2 reliable connections (R208 to R210, R216): the responder, the requester, and congestion notification. What
the spec leaves to the InfiniBand specification is listed in log entry 25. -/

namespace Sys2Proof
namespace Machine

/-! ### Answers -/

/-- RNR timers of the InfiniBand specification in µs, by code from 1 on; code 0 is 655.36 ms. -/
def rnrTimers : List Nat :=
  [10, 20, 30, 40, 60, 80, 120, 160, 240, 320, 480, 640, 960, 1280, 1920, 2560, 3840, 5120, 7680, 10240, 15360, 20480, 30720,
   40960, 61440, 81920, 122880, 163840, 245760, 327680, 491520]

/-- The code of the smallest timer that is not below a time (R210). -/
def rnrCode (us : Nat) : Nat :=
  match (rnrTimers.zip (List.range 31)).find? fun e => decide (us ≤ e.1) with
  | some (_, i) => i + 1
  | none => 0

/-- Sends an RNR NAK for a PSN. -/
def State.roceRnr (s : State) (q psn : Nat) : State :=
  (s.nrSent q).roceOut q { op := .rnr, psn := psn, msn := (s.qp q).msn % 2 ^ 24, timer := rnrCode (s.qp q).nrUs }

/-- Sends an acknowledgement of everything below CUM. -/
def State.roceAck (s : State) (q : Nat) : State :=
  let x := s.qp q
  (s.setQp q { x with ackDue := false }).roceOut q { op := .ack, psn := subMod 24 x.cum 1, msn := x.msn % 2 ^ 24 }

/-- Sends a NAK of a kind. -/
def State.roceNak (s : State) (q : Nat) (k : RoceOp) (psn : Nat) : State :=
  s.roceOut q { op := k, psn := psn, msn := (s.qp q).msn % 2 ^ 24 }

/-- The NAK that a failed check is answered with. -/
def roceNakOf : Status → RoceOp
  | .misaligned => .nakInvalid
  | .recvTooSmall => .nakInvalid
  | .domainOff => .nakOp
  | _ => .nakAccess

/-! ### The responder -/

/-- The check of R_Key, virtual address and length (R50, R158, R209); registers are no peer's. -/
def State.roceTarget (s : State) (q key va len : Nat) (r w : Bool) : Except Status Nat :=
  match s.peerTarget q key va len r w (if r ∧ !w then .read else .data) with
  | .ok a => if fgaSpace a = 2 then .error .notPermitted else .ok a
  | .error st => .error st

/-- Moves CUM past n PSNs; responder-cache entries 2^22 PSNs behind are released (R210). -/
def State.roceAdvance (s : State) (q n : Nat) : State :=
  let x := s.qp q
  let cum := (x.cum + n) % 2 ^ 24
  s.setQp q { x with cum := cum, rc := x.rc.filter fun e => decide (subMod 24 cum e.psn ≤ 2 ^ 22) }

/-- Acknowledges a request that asks for it, at once; any other later. -/
def State.roceTold (s : State) (q : Nat) (p : RocePkt) : State :=
  if p.ackReq then s.roceAck q else s.setQp q { s.qp q with ackDue := true }

/-- Counts a message completed. -/
def State.roceMsgDone (s : State) (q : Nat) : State := s.setQp q { s.qp q with msn := (s.qp q).msn + 1 }

/-- Ends the arriving message with a NAK; a RECV that it matched stays posted (R144). -/
def State.roceBreak (s : State) (q psn : Nat) (m : RoceMsg) (st : Status) : State :=
  let s := (s.freeJrec m.jrec).icDrop 2 (s.qp q).owner q m.id
  (s.setQp q { s.qp q with rmsg := none }).roceNak q (roceNakOf st) psn

/-- The number of the message that a QP's peer begins, as its integrity channels count it (R415). -/
def Qp.msgId (x : Qp) : Nat := x.msn % 2 ^ 16

/-- A message begins: its record, and the channels that snoop the QP (R175, R415); none when the slice has no free record. -/
def State.roceBegin (s : State) (q : Nat) (j : JRec) (m : RoceMsg) : Option (RoceMsg × State) :=
  match s.takeRec (q % 4) j with
  | some (i, t) => some ({ m with jrec := some i, id := (s.qp q).msgId }, t.icAdmit 2 (s.qp q).owner q (s.qp q).msgId)
  | none => none

/-- The arriving message is complete: counted, its record freed, its bytes taken by the channels. -/
def State.roceEnd (s : State) (q : Nat) (m : RoceMsg) : State :=
  let s := ((s.freeJrec m.jrec).setQp q { s.qp q with rmsg := none }).icApplied (s.qp q).owner q m.id
  (s.icHorizon (s.qp q).owner q fun _ => true).roceMsgDone q

/-- An operation of one packet that is answered at once: it holds a record until then (R175); without one, RNR. -/
def State.roceWithRec (s : State) (q psn : Nat) (j : JRec) (f : State → State) : State :=
  match s.takeRec (q % 4) j with
  | some (i, t) => (f t).freeJrec (some i)
  | none => s.roceRnr q psn

/-- The record of a message. -/
def State.roceJrec (s : State) (q : Nat) (p : RocePkt) (opc : Nat) : JRec :=
  { role := 1, opcode := opc, fn := (s.qp q).owner, qp := q, firstPsn := p.psn, 
    target := if p.rkey = 0 then 0 else ((s.win (keyIndex p.rkey)).base + p.va) % 2 ^ 64, len := p.len, rkey := p.rkey,
    nonIdem := opc != 0x10 && opc != 0x11 }

/-- One packet of an RDMA WRITE. -/
def State.roceWrite (s : State) (q : Nat) (p : RocePkt) : State :=
  let begin1 : Option (RoceMsg × State) :=
    if p.first then
      s.roceBegin q (s.roceJrec q p 0x10) { send := false, key := p.rkey, va := p.va, len := p.len }
    else ((s.qp q).rmsg.map fun m => (m, s))
  match begin1 with
  | none => if p.first then s.roceRnr q p.psn else s.roceNak q .nakInvalid p.psn
  | some (m, t) =>
    let n := p.payload.length
    if m.send ∨ m.len < m.got + n ∨ (p.last ∧ m.got + n ≠ m.len) then t.roceBreak q p.psn m .recvTooSmall
    else
      match (if p.first then t.roceTarget q m.key m.va m.len false true else .ok 0), t.roceTarget q m.key (m.va + m.got) n false true with
      | .error st, _ => t.roceBreak q p.psn m st
      | _, .error st => t.roceBreak q p.psn m st
      | .ok _, .ok a =>
        if t.heldBack (fgaOff a) n ≠ .ok then (t.hbmWrite (fgaOff a) p.payload).roceBreak q p.psn m .notPermitted
        else
        let t := ((t.hbmWrite (fgaOff a) p.payload).count (s.qp q).owner 0x23 q n).icPiece (s.qp q).owner q m.id m.got p.payload
        let t :=
          if p.last then t.roceEnd q m
          else t.setQp q { t.qp q with rmsg := some { m with got := m.got + n } }
        (t.roceAdvance q 1).roceTold q p

/-- One packet of a SEND: it matches the oldest RECV posted with tag 0 (R209), and takes a responder-cache entry (R201, R204). Its bytes are
placed with its last packet, once they are known to fit; of one that does not, nothing is written, and the RECV stays posted (R144). -/
def State.roceSend (s : State) (q : Nat) (p : RocePkt) : State :=
  let x := s.qp q
  let n := p.payload.length
  if p.first ∧ s.rcFull q then s.roceRnr q p.psn
  else
  let entry := fun (t : State) => if p.first then t.rcAdd q { psn := p.psn, alive := 0 } else t
  if p.first ∧ p.last ∧ n = 0 then
    s.roceWithRec q p.psn (s.roceJrec q p 0x12) fun t => (((((entry t).fireTag x.owner 0).roceMsgDone q).roceAdvance q 1).roceTold q p)
  else
    let begin1 : Option (RoceMsg × State) :=
      if p.first then
        (match x.recvs.find? fun e => e.2 == 0 with
         | some (r, _) =>
           s.roceBegin q (s.roceJrec q p 0x12) { send := true, recv := some r }
         | none => none)
      else (x.rmsg.map fun m => (m, s))
    match begin1 with
    | none => if p.first then s.roceRnr q p.psn else s.roceNak q .nakInvalid p.psn
    | some (m, t) =>
      match m.recv.bind t.op with
      | none => t.roceBreak q p.psn m .recvTooSmall
      | some o =>
        if !m.send then t.roceBreak q p.psn m .recvTooSmall
        else if o.d.len < m.got + n then t.roceBreak q p.psn m .recvTooSmall
        else
          let all := m.data ++ p.payload
          let taken := fun (u : State) => entry (u.count o.ref.fn 0x23 q n)
          if !p.last then
            let t := taken t
            ((t.setQp q { t.qp q with rmsg := some { m with got := m.got + n, data := all } }).roceAdvance q 1).roceTold q p
          else
            let back := fun (u : State) =>
              (if p.first then (u.freeJrec m.jrec).icDrop 2 x.owner q m.id else u).roceRnr q p.psn
            match t.recvPut o.ref.fn q o.d.lkind o.d.laddr all with
            | .walk u => back u
            | .later u => back u
            | .err st => (t.completeRef o.ref st).roceBreak q p.psn m st
            | .put t =>
              let t := (taken t).icPiece x.owner q m.id 0 all
              let y := t.qp q
              let t := ((t.setQp q { y with recvs := y.recvs.filter (fun e => e.1 != o.ref) }).roceEnd q m).completeRef o.ref .ok (m.got + n)
              ((t.fireTag x.owner 0).roceAdvance q 1).roceTold q p

/-- The response packets of an RDMA READ. -/
def roceReadResp (mtu psn msn : Nat) (bs : List Byte) : List RocePkt :=
  let n := max 1 ((bs.length + mtu - 1) / mtu)
  (List.range n).map fun i =>
    { op := .readResp, psn := (psn + i) % 2 ^ 24, msn := msn, first := i == 0, last := i + 1 == n, payload := chunkOf bs mtu i }

/-- An RDMA READ; fresh is whether its PSN is the expected one. -/
def State.roceRead (s : State) (q : Nat) (p : RocePkt) (fresh : Bool) : State :=
  match s.roceTarget q p.rkey p.va p.len true false with
  | .error st => s.roceNak q (roceNakOf st) p.psn
  | .ok a =>
    match s.targetRead a p.len with
    | .error st => s.roceNak q (roceNakOf st) p.psn
    | .ok (s, bs) =>
    let rs := roceReadResp (s.qp q).mtuBytes p.psn ((s.qp q).msn + b2n fresh) bs
    let s := if fresh then (s.roceMsgDone q).roceAdvance q rs.length else s
    rs.foldl (fun t r => t.roceOut q r) s

/-- Sends the response of an atomic. -/
def State.roceAtomicAck (s : State) (q psn old : Nat) : State :=
  s.roceOut q { op := .atomicAck, psn := psn, msn := (s.qp q).msn % 2 ^ 24, a := old }

/-- An atomic with the expected PSN. -/
def State.roceAtomic (s : State) (q : Nat) (p : RocePkt) : State :=
  if s.rcFull q then s.roceRnr q p.psn
  else
    match s.roceTarget q p.rkey p.va 8 true true with
    | .error st => s.roceNak q (roceNakOf st) p.psn
    | .ok a =>
      if fgaOff a % 8 ≠ 0 then s.roceNak q .nakInvalid p.psn
      else
        let (old, s) := s.atomic (if p.op = .fadd then .fadd else .cas64) (fgaOff a) p.a p.b
        let s := s.rcAdd q { psn := p.psn, alive := 0, resp := some { op := .atomicResp, psn := p.psn, a := old } }
        ((s.roceMsgDone q).roceAdvance q 1).roceAtomicAck q p.psn old

/-- Whether a packet goes on with a message of several packets. -/
def goesOn (p : RocePkt) : Bool := !p.first && (p.op == .write || p.op == .send)

/-- A request with the expected PSN; one that does not go on with the message that is arriving ends it (log entry 25). -/
def State.roceNew (s : State) (q : Nat) (p : RocePkt) : State :=
  match (s.qp q).rmsg.filter fun _ => !goesOn p with
  | some m => s.roceBreak q p.psn m .recvTooSmall
  | none =>
  match p.op with
  | .write => s.roceWrite q p
  | .send => s.roceSend q p
  | .readReq => s.roceWithRec q p.psn (s.roceJrec q p 0x11) fun t => t.roceRead q p true
  | .cas => s.roceWithRec q p.psn (s.roceJrec q p 0x15) fun t => t.roceAtomic q p
  | .fadd => s.roceWithRec q p.psn (s.roceJrec q p 0x14) fun t => t.roceAtomic q p
  | _ => s.roceNak q .nakInvalid p.psn

/-- A repeated request: a READ is executed again, an atomic answered from the cache, any other acknowledged (R210). -/
def State.roceOld (s : State) (q : Nat) (p : RocePkt) : State :=
  let cached := match (s.qp q).rc.find? fun e => e.psn == p.psn with
    | some { resp := some r, .. } => s.roceAtomicAck q p.psn r.a
    | _ => s
  match p.op with
  | .readReq => s.roceRead q p false
  | .cas => cached
  | .fadd => cached
  | _ => s.roceAck q

/-- A request packet of a connected QP: go-back-N by PSN, and RNR before SERVICE (R208, R210). -/
def State.roceRequest (s : State) (q : Nat) (p : RocePkt) : State :=
  let x := s.qp q
  if !x.up then s
  else if !s.serves then s.roceRnr q p.psn
  else
    let d := subMod 24 p.psn x.cum
    if d = 0 then s.roceNew q p
    else if d < 2 ^ 23 then s.roceNak q .nakSeq x.cum
    else s.roceOld q p

/-! ### The requester -/

/-- Marks acknowledged what lies at or before a PSN, or before it only; an Acknowledge or Atomic Acknowledge is told to rate control
(Table 8.1). -/
def State.roceAcked (s : State) (q psn : Nat) (incl told : Bool) : State :=
  let x := s.qp q
  let hit := fun (n : Nat) => decide (subMod 24 psn n < 2 ^ 23) && (incl || subMod 24 psn n != 0)
  let fresh := x.out.any fun k => !k.acked && hit k.psn
  let s := s.setQp q (x.acked hit)
  let s := if fresh ∧ told then s.markEvent q true false else s
  let s := s.endAcked q
  s.setQp q (s.qp q).prune

/-- Puts what was sent from a PSN on among what is sent again. -/
def State.roceGoBack (s : State) (q psn : Nat) : State :=
  let x := s.qp q
  let again := (x.out.filter fun k => !k.acked && decide (subMod 24 k.psn psn < 2 ^ 23) && !x.retx.contains k.psn).map (·.psn)
  s.setQp q { x with retx := x.retx ++ again }

/-- The operation that a response or NAK names. -/
def Qp.roceOwner (x : Qp) (psn : Nat) : Option TpOp :=
  x.ops.find? fun o => !o.ended && decide (0 < o.tx) && decide (subMod 24 psn o.psn < max o.tx (x.psnsOf o))

/-- The status that a NAK ends an operation with (log entry 25). -/
def roceStatusOf : RoceOp → Status
  | .nakInvalid => .badDescriptor
  | .nakAccess => .notPermitted
  | _ => .qpError

/-- A response, acknowledgement or NAK of a connected QP; a read response out of sequence is dropped (Table 7.14). A NAK that acknowledges what
lies before it is no acknowledgement event (DESIGN CHOICE, log entry 133: R219 names Acknowledge packets, whose opcode a NAK has). -/
def State.roceResponse (s : State) (q : Nat) (p : RocePkt) : State :=
  let x := s.qp q
  if !x.up then s
  else
    match p.op with
    | .ack => s.roceAcked q p.psn true true
    | .nakSeq => (s.roceAcked q p.psn false false).roceGoBack q p.psn
    | .rnr =>
      let s := (s.roceAcked q p.psn false false).count x.owner 0x24 q
      let y := s.qp q
      (match y.out.find? fun k => !k.acked && subMod 24 k.psn p.psn == 0 with
       | some k => if y.notReady.contains k.psn then s else s.setQp q { y with notReady := y.notReady ++ [k.psn] }
       | none => s)
    | .atomicAck =>
      let s := s.roceAcked q p.psn true true
      (match (s.qp q).roceOwner p.psn with
       | some o => if o.kind = .fadd ∨ o.kind = .cas64 then s.tpEnd q o.alive .ok p.a (leBytes p.a 8) else s
       | none => s)
    | .readResp =>
      let s := s.roceAcked q p.psn false false
      (match (s.qp q).roceOwner p.psn with
       | none => s
       | some o =>
         let off := subMod 24 p.psn o.psn * x.mtuBytes
         if o.kind ≠ .readReq ∨ off ≠ (o.got.map fun e => e.2.length).sum then s
         else
           let t := match o.owner with
             | .queue r => s.placeRead r off p.payload
             | _ => some s
           match t with
           | none => s
           | some t =>
             let o' := { o with got := AMap.put o.got off p.payload }
             let y := t.qp q
             let t := t.setQp q { y with ops := y.ops.map fun z => if z.alive = o.alive ∧ !z.ended then o' else z }
             let t := t.count x.owner 0x23 q p.payload.length
             if o.len ≤ (o'.got.map fun e => e.2.length).sum then
               (t.tpEnd q o.alive .ok 0 (o'.got.foldr (fun e bs => e.2 ++ bs) [])).roceAcked q o.psn true false
             else t)
    | .nakInvalid => (match x.roceOwner p.psn with
        | some o => (s.tpEnd q o.alive (roceStatusOf p.op)).qpError q .unreachable .qpError
        | none => s)
    | .nakAccess => (match x.roceOwner p.psn with
        | some o => (s.tpEnd q o.alive (roceStatusOf p.op)).qpError q .unreachable .qpError
        | none => s)
    | .nakOp => (match x.roceOwner p.psn with
        | some o => (s.tpEnd q o.alive (roceStatusOf p.op)).qpError q .unreachable .qpError
        | none => s)
    | _ => s

/-- A CNP for a QP (Table 8.1). -/
def State.takeCnp (s : State) (q : Nat) : State :=
  if (s.qp q).up ∧ (s.prof q).ecnEn then s.markEvent q true true else s

/-! ### From the pipeline's input to the effect -/

/-- A packet whose context is at hand. -/
def State.roceTake (s : State) (p : RocePkt) (a : Arrival) : State :=
  let q := p.dstQp
  let x := s.qp q
  if !x.roce ∨ !x.up then s.dropMatch q
  else if !p.icrcOk then s
  else if p.op = .cnp then s.takeCnp q
  else
    let metered := roceIsRequest p.op || p.op == .readResp || p.op == .atomicAck
    let (t, s) := if metered then s.netMeter q a (roceBytes p) else (some s, s)
    match t with
    | none => s
    | some s =>
      let s := if a.ce ∧ roceIsRequest p.op then s.recordMark q else s
      if roceIsRequest p.op then s.roceRequest q p else s.roceResponse q p

/-- Reads the RoCEv2 packet in the bytes of an IP packet (R208). -/
def roceRead (bs : List Byte) : Option RocePkt :=
  match parseFrom bs 0 8 1 0 (if beAt bs 0 1 / 16 = 4 then .ip4 else .ip6) with
  | .bth ip udp off v6 => roceAt bs ip udp off v6
  | _ => none

/-- The packet that arrives: as given, or as the bytes of its IP packet read; none where it is malformed. -/
def arrivingRoce (p : RocePkt) (a : Arrival) : Option RocePkt :=
  match a.wire with
  | some bs => roceRead bs
  | none => if a.malformed then none else some p

/-- A RoCEv2 packet is accepted by its pipeline. -/
def State.roceAccept (s : State) (p : RocePkt) (a : Arrival) : State :=
  let s := s.countWrap F.tpPipeRxPkts (p.dstQp % 4)
  match arrivingRoce p a with
  | none => s.dropMalformed p.dstQp
  | some p =>
    let (hit, s) := s.touch { qp := p.dstQp, roce := some (p, a) }
    if hit then s.roceTake p a else s

/-- A RoCEv2 packet arrives at its pipeline, behind those of its ejection queue that are held back; so is one whose accesses HBM holds. -/
def State.roceArrive (s : State) (p : RocePkt) (a : Arrival) : State :=
  let q := p.dstQp
  if !s.netOpen then s
  else if s.takesHeads q && !s.headBefore { qp := q, roce := some (p, a) } && !s.headBusy { qp := q, roce := some (p, a) } then s.roceAccept p a
  else s.holdHead { qp := q, roce := some (p, a) }

/-- A received RoCEv2 packet of one of some kinds. -/
def State.roceOf (s : State) (ok : Bool) (p : RocePkt) (a : Arrival) : State := if ok then s.roceArrive p a else s

/-! ### The context cache, and the acknowledgement timer -/

/-- ACK_TIMER (R193). -/
def State.ackTimer (s : State) (q : Nat) : State :=
  let x := s.qp q
  if !x.ackDue ∨ !x.up then s
  else if x.roce then s.roceAck q
  else s.sendAck q 0 (x.pathAfter x.lastPath)

/-- Heads that are held back are accepted while their pipeline takes them, at most n: responses before requests, and the oldest of a queue
first, which waits while HBM holds its accesses (R177, R267). -/
def State.takeHeads (s : State) (k : Nat) : Nat → State
  | 0 => s
  | n + 1 =>
    let x := s.pipe k
    let next := fun (resp : Bool) => (takeFirst (fun (m : MissEntry) => m.resp == resp) x.heads).filter fun r => !s.headBusy r.1
    match (next true).or (next false) with
    | none => s
    | some (m, ms) =>
      if !s.takesHeads k then s
      else
        let s := s.setPipe k { x with heads := ms }
        let s := match m.pkt, m.roce with
          | some (p, a), _ => s.sltAccept p a
          | _, some (p, a) => s.roceAccept p a
          | _, _ => s
        s.takeHeads k n

/-- QPC_MISS_FILL: a context arrives; the packets that wait for it go on in their order, and heads that were held back are accepted
(R177). -/
def State.missFill (s : State) (q : Nat) : State :=
  let k := q % 4
  let x := s.pipe k
  if !s.qpMissing q ∨ x.recovering ≠ 0 then s
  else
    let mine := x.miss.filter fun e => e.qp == q
    let s := s.setPipe k ({ x with miss := x.miss.filter fun e => e.qp != q }.use q)
    let s := mine.foldl (fun t e =>
      match e.pkt, e.roce with
      | some (p, a), _ => t.sltTake p a
      | _, some (p, a) => t.roceTake p a
      | _, _ => t) s
    s.takeHeads k x.heads.length

end Machine
end Sys2Proof
end

