-- ==== Sys2Proof/Machine/DcsAccess.lean ====
section
/-! DEFINITION. Accesses to the two register spaces by offset (R10 to R13, R51, R104, R508, R534 to R540), accesses to the device
control space that packets and local operations ask for, and the end of every command. -/

namespace Sys2Proof
namespace Machine

/-! ### The device control space (Table 22.1) -/

/-- The register of a function's telemetry bank at an offset of the TEL bank window, with its object (R508). -/
def State.telAt (s : State) (off : Nat) : Option (Reg × Nat) :=
  if 0xA001000 ≤ off ∧ off < 0xA002000 then
    let fn := s.fld F.telFnSelFn
    match locate bar0Locs (0x2C0000 + (off - 0xA001000)) with
    | some (.telfCtrl, _) => some (.telfCtrl, fn)
    | some (r, i) => some (r, fn * 32 + i)
    | none => none
  else none

/-- Whether an offset lies in the turnstile window (R538). -/
def inTsWindow (off : Nat) : Bool := decide (0x8000000 ≤ off ∧ off < 0x8100000)

/-- A read of an aligned register of the device control space: the value, and the state after it. -/
def State.dcsRead (s : State) (off : Nat) : Nat × State :=
  if inTsWindow off then (leNat (s.tsWord (off - 0x8000000)), s)
  else
    match s.telAt off with
    | some (r, o) => s.regRead r o
    | none =>
      match locate dcsLocs off with
      | none => (0, s)
      | some (r, i) =>
        match s.dcsObj r i with
        | none => (0, s)
        | some o => s.regRead r o

/-- A write of an aligned register of the device control space by an origin. -/
def State.dcsWrite (s : State) (org : Origin) (off v : Nat) : State :=
  if inTsWindow off then s
  else
    match s.telAt off with
    | some (r, o) => s.putReg r o v
    | none =>
      match locate dcsLocs off with
      | none => s
      | some (r, i) =>
        match s.dcsObj r i with
        | none => s
        | some o => s.dcsRegWrite org r i o v

/-- Whether an access is a naturally aligned one of 64 bits (R10). -/
def regular (off len : Nat) : Bool := len == 8 && off % 8 == 0

/-- A read of any size of the device control space: all ones where it is not regular (R11). -/
def State.dcsLoad (s : State) (off len : Nat) : List Byte × State :=
  if regular off len then
    let (v, t) := s.dcsRead off
    (leBytes v 8, t)
  else (List.replicate len 0xFF#8, s)

/-- A write of any size: discarded where it is not regular (R11). -/
def State.dcsStore (s : State) (org : Origin) (off : Nat) (bs : List Byte) : State :=
  if regular off bs.length then s.dcsWrite org off (leNat bs) else s

/-! ### BAR0 of a function (Table 22.2) -/

/-- An aligned read of a register of BAR0. -/
def State.bar0Read (s : State) (fn off : Nat) : Nat × State :=
  match s.barReg fn off with
  | .none => (0, s)
  | .own r i =>
    (match s.bar0Obj fn r i with
     | none => (0, s)
     | some o => s.regRead r o)
  | .chan r j =>
    (match (s.chansOf fn)[j]? with
     | none => (0, s)
     | some c => (s.setFld F.intIcCtrlFn fn c).regRead r c)
  | .xlp r =>
    (match s.xlpObj fn r with
     | none => (0, s)
     | some o => s.regRead r o)

/-- An aligned write of a register of BAR0 by the function's host. -/
def State.bar0Write (s : State) (fn off v : Nat) : State :=
  match s.barReg fn off with
  | .none => s
  | .own r i =>
    (match s.bar0Obj fn r i with
     | none => s
     | some o => s.bar0RegWrite fn r i o v)
  | .chan r j =>
    (match (s.chansOf fn)[j]? with
     | none => s
     | some c => s.icWrite (.host fn) (.bar0 fn) r c j v)
  | .xlp r =>
    (match s.xlpObj fn r with
     | none => s
     | some o => s.xlpWrite fn r o v)

/-! ### The MSI-X table and Pending Bit Array (R539) -/

/-- The four dwords of an entry of the MSI-X table: address, data, and the mask bit. -/
def State.msixDword (s : State) (fn vec k : Nat) : Nat :=
  let x := AMap.look ({} : Msix) s.msix (msixKey fn vec)
  match k with
  | 0 => x.addr % 2 ^ 32
  | 1 => x.addr / 2 ^ 32
  | 2 => x.data
  | _ => b2n x.mask

/-- A dword of the Pending Bit Array. -/
def State.pbaDword (s : State) (fn i : Nat) : Nat :=
  ((List.range 32).map fun b => b2n (AMap.look ({} : Msix) s.msix (msixKey fn (32 * i + b))).pending * 2 ^ b).sum

/-- A dword of the two tables, by the offset in BAR0. -/
def State.msixLoad (s : State) (fn off : Nat) : Nat :=
  if off < 0x308000 then s.msixDword fn ((off - 0x300000) / 16) (off % 16 / 4) else s.pbaDword fn ((off - 0x310000) / 4)

/-- A write of a dword of the MSI-X table; a mask bit written 0 lets a pending message go. The Pending Bit Array is not written. -/
def State.msixStore (s : State) (fn off v : Nat) : State :=
  if 0x308000 ≤ off then s
  else
    let vec := (off - 0x300000) / 16
    let k := msixKey fn vec
    let x := AMap.look ({} : Msix) s.msix k
    let put := fun (x : Msix) => { s with msix := AMap.save ({} : Msix) s.msix k x }
    match off % 16 / 4 with
    | 0 => put { x with addr := x.addr / 2 ^ 32 * 2 ^ 32 + v % 2 ^ 32 / 4 * 4 }
    | 1 => put { x with addr := x.addr % 2 ^ 32 + v % 2 ^ 32 * 2 ^ 32 }
    | 2 => put { x with data := v % 2 ^ 32 }
    | _ => if bit v 0 then put { x with mask := true } else s.msixUnmask fn (some vec)

/-- Whether an access is one that the MSI-X table or the Pending Bit Array accepts: aligned, of 32 or 64 bits. -/
def msixAccess (off len : Nat) : Bool :=
  decide ((0x300000 ≤ off ∧ off < 0x308000) ∨ (0x310000 ≤ off ∧ off < 0x310100)) && (len == 4 || len == 8) && off % len == 0

/-- A read of any size of BAR0 (R11, R539). -/
def State.bar0Load (s : State) (fn off len : Nat) : List Byte × State :=
  if msixAccess off len then ((List.range (len / 4)).flatMap fun i => leBytes (s.msixLoad fn (off + 4 * i)) 4, s)
  else if regular off len then
    let (v, t) := s.bar0Read fn off
    (leBytes v 8, t)
  else (List.replicate len 0xFF#8, s)

/-- A write of any size of BAR0. -/
def State.bar0Store (s : State) (fn off : Nat) (bs : List Byte) : State :=
  if msixAccess off bs.length then
    (List.range (bs.length / 4)).foldl (fun t i => t.msixStore fn (off + 4 * i) (leAt bs (4 * i) 4)) s
  else if regular off bs.length then s.bar0Write fn off (leNat bs)
  else s

/-! ### Accesses of the origins (R104, R455, R465, R490) -/

/-- The answer of a register read to its origin. -/
def State.answerRead (s : State) (org : Origin) (tag : Nat) (bs : List Byte) : State :=
  match org with
  | .host fn => s.emit (.pcie fn tag (.success bs))
  | .space2 _ _ => if bs.length = 8 then s.emit (.regData (BitVec.ofNat 64 (leNat bs))) else s.emit (.rawData bs)
  | _ => s.emit (.oob bs)

/-- A read of len bytes of a register space by an origin. In the device control space a host that holds no manager role, or an offset
that is not served, reads 0 (R104, R455, R465); a WEDGED one is answered with Unsupported Request (R115). -/
def State.load (s : State) (org : Origin) (sp : Space) (off len tag : Nat) : State :=
  match sp, org with
  | .bar0 fn, .host h =>
    if h ≠ fn then s
    else (s.bwRx fn 0).barRead fn tag len fun s =>
      let (bs, t) := s.bar0Load fn off len
      t.answerRead org tag bs
  | .dcs, .host h =>
    let s := s.bwRx h 0
    if s.dcsOpen org off then
      let (bs, t) := s.dcsLoad off len
      t.answerRead org tag bs
    else if !s.reachesBar4 h then s
    else if (s.fn h).state = .wedged then s.emit (.pcie h tag .unsupported)
    else s.answerRead org tag (List.replicate len 0#8)
  | .dcs, _ =>
    if s.dcsOpen org off then
      let (bs, t) := s.dcsLoad off len
      t.answerRead org tag bs
    else s
  | _, _ => s

/-- A write of bytes to a register space by an origin. -/
def State.store (s : State) (org : Origin) (sp : Space) (off : Nat) (bs : List Byte) : State :=
  match sp, org with
  | .bar0 fn, .host h =>
    if h ≠ fn then s else (s.bwRx fn bs.length).barWrite fn fun s => s.bar0Store fn off bs
  | .dcs, .host h =>
    let s := s.bwRx h bs.length
    if s.dcsOpen org off then s.dcsStore org off bs else s
  | .dcs, _ => if s.dcsOpen org off then s.dcsStore org off bs else s
  | _, _ => s

/-- REGISTER_WRITE: a naturally aligned write of 64 bits. -/
def State.registerWrite (s : State) (org : Origin) (sp : Space) (off : Nat) (v : Word) : State :=
  if off % 8 = 0 then s.store org sp off (leBytes v.toNat 8) else s

/-- RC_READ: a naturally aligned read of 64 bits. -/
def State.rcReadCmd (s : State) (org : Origin) (sp : Space) (off tag : Nat) : State :=
  if off % 8 = 0 then s.load org sp off 8 tag else s

/-- IRREGULAR_ACCESS: an access of another size or alignment; a write carries its bytes. -/
def State.irregular (s : State) (org : Origin) (sp : Space) (off len tag : Nat) (write : Option (List Byte)) : State :=
  match write with
  | some bs => if regular off bs.length then s else s.store org sp off bs
  | none => if regular off len then s else s.load org sp off len tag

/-- OOB_DCS_ACCESS: a vendor-defined message over the out-of-band interface (R490, R511); writes are answered with a status. -/
def State.oobAccess (s : State) (off : Nat) (write : Option Word) : State :=
  match write with
  | none => s.rcReadCmd .oob .dcs off 0
  | some v =>
    if s.oobUp then (s.registerWrite .oob .dcs off v).emit (.oob (leBytes Status.ok.code 1)) else s

/-! ### Space 2 (R51) -/

/-- A packet that names the device control space: its target is checked again and the access performed. A repeat is answered again but is
not received again. -/
def State.servePacket (s : State) (q : Nat) (p : SltPkt) : State :=
  let x := s.qp q
  let org := Origin.space2 x.peerNode x.peerFn
  let fresh := x.classify p.psn == .new
  let (n, r) := if p.op = .write then (p.payload.length, false) else (p.mlen, true)
  match s.peerTarget q p.key p.offset n r (!r) (if r then .read else .data) with
  | .error st => if fresh then s.tgtRefuse q p st else s.sendNak q p.psn st p.path
  | .ok fga =>
    let t :=
      if r then
        let (bs, t) := s.dcsLoad (fgaOff fga) n
        (readResponses (t.qp q).mtuBytes p bs).foldl (fun t r => t.respond q r) t
      else (s.dcsStore org (fgaOff fga) p.payload).icPiece x.owner q p.alive p.offset p.payload
    if fresh ∧ (t.qp q).up then (t.tgtTaken q p).tgtAck q p else t

/-- A local operation of the manager that names the device control space. -/
def State.serveOp (s : State) (ref : OpRef) : State :=
  match s.op ref with
  | none => s
  | some o =>
    let (r, w) := opRights o.d
    match s.localTarget (s.user ref.fn) o.d.rkey o.d.opx o.d.len r w (if r then .read else .data) with
    | .error st => s.completeRef ref st
    | .ok fga =>
      let fails := fun (u : State) (st : Status) => u.completeRef ref st
      if r then
        match s.localRange (s.opEng o) o.d.lkind o.d.laddr o.d.len .write with
        | .ok =>
          if !s.mayPut (s.opEng o) o.d.lkind o.d.laddr o.d.len then s.holdOp ref
          else
            let (bs, t) := s.dcsLoad (fgaOff fga) o.d.len
            ((t.putLocal (s.opEng o) o.d.lkind o.d.laddr bs).getD t).completeRef ref .ok o.d.len
        | res => s.meetRange o res true fails
      else
        let store := fun (u : State) (bs : List Byte) =>
          (u.dcsStore (.space2 u.nodeId ref.fn) (fgaOff fga) bs).completeRef ref .ok o.d.len
        if !o.buf.isEmpty then store s o.bytes
        else
          match s.localRange (s.opEng o) o.d.lkind o.d.laddr o.d.len .read with
          | .ok =>
            (match s.gather o o.d.lkind o.d.laddr o.d.len with
             | .data t bs => store t bs
             | .reads t => t
             | .wait => s.holdOp ref)
          | res => s.meetRange o res false fails

/-- The bytes of a local buffer of the manager that lies in space 2 are read, and its operation goes on. -/
def State.serveFetch (s : State) (ref : OpRef) (off len : Nat) : State :=
  match s.op ref with
  | none => s
  | some o =>
    if o.phase ≠ .gather then s
    else
      let (bs, t) := s.dcsLoad off len
      let t := t.updOp ref fun y => { y with buf := [(0, bs)] }
      match t.op ref with
      | some o => t.gathered o
      | none => t

/-- Performs an access that waits. -/
def State.serveDcs (s : State) : DcsReq → State
  | .packet q p => s.servePacket q p
  | .op r => s.serveOp r
  | .fetch r off len => s.serveFetch r off len
  | .put fn off bs => s.dcsStore (.space2 s.nodeId fn) off bs
  | .cpl h => s.landCpl h

/-- Performs the accesses that wait, each with all that it sets going, at most n. -/
def State.serveAll (s : State) : Nat → State
  | 0 => s
  | n + 1 =>
    match s.dcsIn with
    | [] => s
    | x :: rest => (({ s with dcsIn := rest }).serveDcs x).settle.serveAll n

/-! ### The end of a command -/

/-- Links train only while the device is in a state that lets them (R256, R281): in any other they fall. -/
def State.linksFall (s : State) : State :=
  let on := match s.dev.state with
    | .equalShare => true
    | .service => true
    | .drain => true
    | _ => false
  if on || (s.vl.links.all fun e => e.2.state == .off) && (s.en.all fun e => e.2.state == .off) then s else s.refreshLinks

/-- What a command sets going is carried out before the command ends: owners are told, packets sent, accesses to registers performed,
a fault in a trial start is counted (R487), packets at the injection ports enter the router core (R268), and posted exception
entries are taken (R288). -/
def State.finish (s : State) : State :=
  let t := s.settle
  let t := if t.walks.any (fun k => k.ended && t.walkSent k) then t.walksOver.settle else t
  let t := if t.dcsIn.isEmpty then t else t.serveAll (2 * t.dcsIn.length + t.qps.length + 16)
  t.trialFault.linksFall.injAll.extPump

/-- The state that a command from s answers where its effect is t: nothing that a command does touches the queue of commands or the
fuses that no command blows, and the memory is listed in its canonical form. -/
def State.after (s t : State) : State :=
  { t with pending := s.pending, fuses := s.fuses, mem := Memory.canon t.mem }

/-- The answer of a command whose effect is t and which sets nothing going. -/
def State.answer (s t : State) : Result := .next (s.after t)

/-- What waited for HBM goes on, as far as it is held no longer: completion halves, operations, aperture requests and packets (R396, R397,
R410, log entry 137). -/
def State.hbmFreed (s : State) : State :=
  let (go, stay) := s.heldCpls.partition fun h => !s.cplHeld h.ref.fn h.ref.q &&
    (s.ringInHbm h.ref.fn h.ref.q || s.lookup (s.hostEng h.ref.fn) (s.entryAddr h.ref.fn h.ref.q h.ref.pos + 32) .write != .miss)
  let s := go.foldl State.landCpl { s with heldCpls := stay }
  let s := (s.ops.filter fun o => o.phase == .prior).foldl (fun t o => t.priorPut o o.bytes) s
  let held := s.ops.filter fun o => o.phase == .ready && o.jrec.isSome
  let s := (held.map (·.ref.fn)).eraseDups.foldl (fun t fn => t.resumeAll fn ((held.filter fun o => o.ref.fn == fn).map (·.ref))) s
  let s := s.apts.foldl (fun t e => t.aptRetry e.1) s
  (List.range 4).foldl (fun t k => t.takeHeads k (t.pipe k).heads.length) s

/-- The state after an effect t of a command from s, with what waited for HBM where t holds other accesses than s. -/
def State.freed (s t : State) : State := if s.hbmHolds = t.hbmHolds then t else t.hbmFreed

/-- The state that a command from s answers where its own effect is t: what the effect sets going is carried out, and the out-of-band
interface tells of changes of the device's state (R511). -/
def State.finished (s t : State) : State := s.after ((s.freed t).finish.platformEvents s)

/-- The answer of a command whose own effect is t. -/
def State.ends (s t : State) : Result := .next (s.finished t)

end Machine
end Sys2Proof
end

