-- ==== Sys2Proof/Machine/Ends.lean ====
section
/-! DEFINITION. What several commands share in how they begin and end: the kinds of packets, the start of collectives, which origin
reaches an invalidation engine, bytes received, and the idle tick. -/

namespace Sys2Proof
namespace Machine

/-- The packet kinds that are requests (Table 7.8). -/
def sltRequest : SltOp → Bool
  | .write => true
  | .readReq => true
  | .send => true
  | .fadd => true
  | .cas64 => true
  | .cas128 => true
  | .tsOp => true
  | _ => false

/-- The packet kinds that are responses with a result (Table 7.8). -/
def sltResponse : SltOp → Bool
  | .readResp => true
  | .atomicResp => true
  | .cas128Resp => true
  | _ => false

/-- The RoCEv2 packet kinds that answer a requester: responses, acknowledgements and NAKs (Table 7.14). -/
def roceIsAnswer (o : RoceOp) : Bool := !roceIsRequest o && o != .cnp

/-- KIND of the descriptor of a COLL, where its bytes are at hand (Table 13.4). -/
def State.collKind (s : State) (o : Op) : Option Nat :=
  match s.localRange (s.opEng o) o.d.lkind o.d.laddr o.d.len .read with
  | .ok =>
    (match s.gather o o.d.lkind o.d.laddr o.d.len with
     | .data _ bs => some (leAt bs 0 1)
     | _ => none)
  | _ => none

/-- Starts the COLL of a descriptor as a collective of a kind (R356). One whose descriptor says another kind of Table 13.1 is left
as it is; while the descriptor is not at hand, or names no kind, it begins all the same. -/
def State.collStart (s : State) (r : OpRef) (kind : Nat) : State :=
  s.startOf r 0x20 none fun s o =>
    match s.collKind o with
    | some k => if 1 ≤ k ∧ k ≤ 6 ∧ k ≠ kind then s else s.collBegin o
    | none => s.collBegin o

/-- COLL_TIMEOUT: the collective of a descriptor fails with UNREACHABLE and aborts its peers (R381); one that still waits for its
first chunk of the Square has not started. -/
def State.collTimeout (s : State) (r : OpRef) : State :=
  match s.colls.find? fun e => e.2.ref == r with
  | some e => if e.2.slots = 0 ∧ e.2.complete = 0 then s else s.collFail e.1 .unreachable none false
  | none => s

/-- A write to INVAL by an origin that reaches the engine: its PF's own BAR0, or the device control space (Table 3.6). -/
def State.invalBy (s : State) (org : Origin) (e : XlPort) (f : State → State) : State :=
  match e with
  | .xl => if s.dcsOpen org 0x400000 then f s else s
  | .xlp pf => if org = .host pf then f s else s

/-- A write to Q.INVAL by an origin that reaches it (R135). -/
def State.qInvalBy (s : State) (org : Origin) (w : QInval) : State := if s.dcsOpen org 0x800000 then s.qInval w else s

/-- Counts the bytes of a packet received on a Valir link for the monitors of the link (R510). -/
def State.vlBytes (s : State) (inp : Option Nat) (h : VHdr) : State :=
  match inp with
  | some l => if s.vlLive l ∧ l < 16 then s.bwCount (8 + l) false (64 * h.len) else s
  | none => s

/-- A frame arrives on an Ethernet port: its octets count for the monitors of the port (R510), and the partner's Low Power Idle has
ended (R296). -/
def State.frameBytes (s : State) (port : Nat) (data : List Byte) : State :=
  if port < 32 then (s.bwCount (24 + port) false data.length).setFlag F.enPortStatusLpiRx false port else s

/-- The decisions that the schedulers of the pipelines take in a cycle in which no packet is eligible (R230, R543): classes are visited,
and nothing starts. -/
def State.idlePicks (s : State) : State := (List.range 4).foldl (fun t k => (t.schedPick k []).2) s

/-- The frame of a byte, 8N1 (R512): a start bit, the bits with the least significant first, and a stop bit. -/
def uartLine (b : Nat) : List Bool := false :: (List.range 8).map (bit b) ++ [true]

/-- An edge of CLK_T in the recovery of a pipeline (R448): with the last it takes heads again, those first that were held back, and sends. -/
def State.recoverPipe (s : State) (k : Nat) : State :=
  let x := s.pipe k
  let t := s.setPipe k { x with recovering := x.recovering - 1 }
  if x.recovering = 0 then s
  else if x.recovering = 1 ∧ s.netOpen then (t.takeHeads k x.heads.length).finish
  else t

/-- What the block does while no command waits: fabric time advances by one edge of CLK_T, the schedulers find nothing to start, and the
UART sends a byte that is queued (R28, R230, R512; log entries 4 and 28). A pipeline that recovers comes one cycle nearer to its end (R448). Valir links fill the slots that the edge brings (R246). Transport frames on the wires of Ethernet ports have been sent
(log entry 129). -/
def State.idle (s : State) : State :=
  let t := s.tick.wiresSent.vlEdge
  let t := if t.netOpen then t.idlePicks else t
  let t := (List.range 4).foldl State.recoverPipe t
  match t.uart.tx with
  | [] => t
  | b :: rest => ({ t with uart := { t.uart with tx := rest } }).emit (.uart (uartLine b))

end Machine
end Sys2Proof
end

