-- ==== Sys2Proof/Machine/ApertureExec.lean ====
section
/-! DEFINITION. The commands of one family: The aperture (R58 to R73). -/

namespace Sys2Proof
namespace Machine

/-- APERTURE_READ (R58). -/
def runApertureRead (fn tag ao len : Nat) (s : State) : Result :=
  s.ends (s.aptReadIn fn tag ao len)

/-- APERTURE_WRITE (R58). -/
def runApertureWrite (fn ao : Nat) (data : List Byte) (s : State) : Result :=
  s.ends (s.aptWriteIn fn ao data)

/-- APERTURE_ATOMIC (R61). -/
def runApertureAtomic (fn tag ao : Nat) (kind : AtomicKind) (a b : Nat) (s : State) : Result :=
  s.ends (s.aptAtomicIn fn tag ao kind a b)

/-- APERTURE_RESPONSE (R69). -/
def runApertureResponse (fn tag ao : Nat) (st : Status) (data : List Byte) (s : State) : Result :=
  s.ends (s.aptResponse fn tag ao st data)

/-- READ_DEADLINE (R69). -/
def runReadDeadline (fn tag : Nat) (s : State) : Result :=
  s.ends (s.readDeadline fn tag)

/-- APERTURE_COMMIT (R64). -/
def runApertureCommit (fn v : Nat) (s : State) : Result :=
  s.ends (s.aptCommitIn fn v)

/-- APERTURE_COMMIT_DONE (R65). -/
def runApertureCommitDone (fn : Nat) (s : State) : Result :=
  s.ends (s.aptCommitDone fn)

/-- APT_FENCE (R62). -/
def runAptFence (fn : Nat) (s : State) : Result :=
  s.answer (s.aptFence fn)

/-- APT_FENCE_DONE (R62). -/
def runAptFenceDone (fn : Nat) (s : State) : Result :=
  s.answer (s.aptFenceDone fn)

end Machine
end Sys2Proof
end

