-- ==== Sys2Proof/Machine/SeqTurnstile.lean ====
section
/-! DEFINITION. The turnstile steps of a table (R344): TS_WAIT and TS_ADD. -/

namespace Sys2Proof
namespace Machine

/-- Performs a turnstile step of a Block on the turnstile its slot names: whether it waits, or the status it fails with. -/
def State.turnStep (s : State) (fn b : Nat) (x : Blk) (w code : Nat) : Except Status (State × Bool) :=
  match s.stepTurnstile fn x w (tsNeedsW code) with
  | .error st => .error st
  | .ok (n, key) =>
    let k := if key = 0 then none else some (keyIndex key, keyGen key)
    let (t, ds, waits) := s.tsPerform n code (bits w 111 48) 0 (s.user fn) (.step b) k
    .ok ((t.winUse (.block b) key).tsEnded ds, waits)

/-- TS_WAIT: a threshold that is not reached leaves the step waiting in the turnstile store, and it holds every later step (R342, R344). -/
def State.tsWaitStep (s : State) (b : Nat) : State :=
  match s.seqAt b 0x18 with
  | none => s
  | some (fn, x, w) =>
    match s.turnStep fn b x w 0x05 with
    | .error st => s.stepped b (.error st)
    | .ok (t, waits) => t.setBlk b { x.advance with tsWait := if waits then some x.pc else none }

/-- TS_ADD: it is issued after every earlier step has completed, and completes when the store has added (R342, R344). -/
def State.tsAddStep (s : State) (b : Nat) : State :=
  match s.seqAt b 0x19 with
  | none => s
  | some (fn, x, w) =>
    match s.turnStep fn b x w 0x03 with
    | .error st => s.stepped b (.error st)
    | .ok (t, _) => t.setBlk b x.advance

end Machine
end Sys2Proof
end

