-- ==== Sys2Proof/Machine/BlockExec.lean ====
section
/-! DEFINITION. The commands of one family: Blocks and their sequencers (R298 to R353). -/

namespace Sys2Proof
namespace Machine

/-- STEP_NOP (R336). -/
def runStepNop (b : Nat) (s : State) : Result :=
  s.ends (s.nopStep b)

/-- END (R342). -/
def runEnd (b : Nat) (s : State) : Result :=
  s.ends (s.endTable b)

/-- LOOP (R338). -/
def runLoop (b : Nat) (s : State) : Result :=
  s.ends (s.loopStep b)

/-- SETAR (R338). -/
def runSetar (b : Nat) (s : State) : Result :=
  s.ends (s.setArStep b)

/-- MLOAD (R343). -/
def runMload (b : Nat) (s : State) : Result :=
  s.ends (s.memStep b false)

/-- MSTORE (R343). -/
def runMstore (b : Nat) (s : State) : Result :=
  s.ends (s.memStep b true)

/-- MEMORY_STEP_DONE (R341). -/
def runMemoryStepDone (b id : Nat) (moved : Option Nat) (s : State) : Result :=
  s.ends (s.stepDone b id moved)

/-- RBIND (R307). -/
def runRbind (b : Nat) (s : State) : Result :=
  s.ends (s.bindStep b)

/-- RBIND_DONE (R307). -/
def runRbindDone (b : Nat) (s : State) : Result :=
  s.ends (s.bindDone b)

/-- RRELEASE (R308). -/
def runRrelease (b : Nat) (s : State) : Result :=
  s.ends (s.releaseStep b)

/-- RRELEASE_DONE (R308). -/
def runRreleaseDone (b : Nat) (s : State) : Result :=
  s.ends (s.releaseDone b)

/-- MMA (R310). -/
def runMma (b : Nat) (s : State) : Result :=
  s.ends (s.mmaStep b)

/-- VOP_ADD (R322). -/
def runVopAdd (b : Nat) (s : State) : Result :=
  s.ends (s.vopStep b 0)

/-- VOP_SUB (R322). -/
def runVopSub (b : Nat) (s : State) : Result :=
  s.ends (s.vopStep b 1)

/-- VOP_MUL (R322). -/
def runVopMul (b : Nat) (s : State) : Result :=
  s.ends (s.vopStep b 2)

/-- VOP_FMA (R322). -/
def runVopFma (b : Nat) (s : State) : Result :=
  s.ends (s.vopStep b 3)

/-- VOP_MIN (R322). -/
def runVopMin (b : Nat) (s : State) : Result :=
  s.ends (s.vopStep b 4)

/-- VOP_MAX (R322). -/
def runVopMax (b : Nat) (s : State) : Result :=
  s.ends (s.vopStep b 5)

/-- VOP_ABS (R322). -/
def runVopAbs (b : Nat) (s : State) : Result :=
  s.ends (s.vopStep b 6)

/-- VOP_NEG (R322). -/
def runVopNeg (b : Nat) (s : State) : Result :=
  s.ends (s.vopStep b 7)

/-- VOP_CMP_EQ (R322). -/
def runVopCmpEq (b : Nat) (s : State) : Result :=
  s.ends (s.vopStep b 8)

/-- VOP_CMP_LT (R322). -/
def runVopCmpLt (b : Nat) (s : State) : Result :=
  s.ends (s.vopStep b 9)

/-- VOP_CMP_LE (R322). -/
def runVopCmpLe (b : Nat) (s : State) : Result :=
  s.ends (s.vopStep b 10)

/-- VOP_SEL (R322). -/
def runVopSel (b : Nat) (s : State) : Result :=
  s.ends (s.vopStep b 11)

/-- VOP_DIV (R322). -/
def runVopDiv (b : Nat) (s : State) : Result :=
  s.ends (s.vopStep b 12)

/-- VOP_SQRT (R322). -/
def runVopSqrt (b : Nat) (s : State) : Result :=
  s.ends (s.vopStep b 13)

/-- VOP_RCP (R322). -/
def runVopRcp (b : Nat) (s : State) : Result :=
  s.ends (s.vopStep b 14)

/-- VOP_RSQRT (R322). -/
def runVopRsqrt (b : Nat) (s : State) : Result :=
  s.ends (s.vopStep b 15)

/-- VOP_EXP2 (R322). -/
def runVopExp2 (b : Nat) (s : State) : Result :=
  s.ends (s.vopStep b 16)

/-- VOP_LOG2 (R322). -/
def runVopLog2 (b : Nat) (s : State) : Result :=
  s.ends (s.vopStep b 17)

/-- VOP_RED_SUM (R323). -/
def runVopRedSum (b : Nat) (s : State) : Result :=
  s.ends (s.vopStep b 18)

/-- VOP_RED_MAX (R323). -/
def runVopRedMax (b : Nat) (s : State) : Result :=
  s.ends (s.vopStep b 19)

/-- VOP_CVT (R324). -/
def runVopCvt (b : Nat) (s : State) : Result :=
  s.ends (s.vopStep b 20)

/-- FLOAD_T2_CODEBOOK (R319). -/
def runFloadT2Codebook (b : Nat) (s : State) : Result :=
  s.ends (s.floadStep b 0)

/-- FLOAD_T4_CODEBOOK (R319). -/
def runFloadT4Codebook (b : Nat) (s : State) : Result :=
  s.ends (s.floadStep b 1)

/-- FLOAD_PRODUCT_TABLE (R320). -/
def runFloadProductTable (b : Nat) (s : State) : Result :=
  s.ends (s.floadStep b 2)

/-- STEP_TS_WAIT (R344). -/
def runStepTsWait (b : Nat) (s : State) : Result :=
  s.ends (s.tsWaitStep b)

/-- STEP_TS_ADD (R344). -/
def runStepTsAdd (b : Nat) (s : State) : Result :=
  s.ends (s.tsAddStep b)

/-- STEP_CVT_A2F (R345). -/
def runStepCvtA2f (b : Nat) (s : State) : Result :=
  s.ends (s.cvtStep b true)

/-- STEP_CVT_F2A (R345). -/
def runStepCvtF2a (b : Nat) (s : State) : Result :=
  s.ends (s.cvtStep b false)

/-- PAUSE (R349). -/
def runPause (org : Origin) (sp : Space) (b : Nat) (s : State) : Result :=
  s.ends (s.pauseBlk org sp b)

/-- PAUSE_DRAINED (R349). -/
def runPauseDrained (b : Nat) (s : State) : Result :=
  s.ends (s.pauseDrained b)

/-- RESUME (R349). -/
def runResume (org : Origin) (sp : Space) (b : Nat) (s : State) : Result :=
  s.ends (s.resumeBlk org sp b)

/-- BLOCK_OUT_OF_SERVICE (R352). -/
def runBlockOutOfService (b : Nat) (s : State) : Result :=
  s.ends (s.blockOut b)

end Machine
end Sys2Proof
end

