-- ==== Sys2Proof/Machine/ClockExec.lean ====
section
/-! DEFINITION. The commands of one family: Clocks and fabric time (R26 to R32, R522). -/

namespace Sys2Proof
namespace Machine

/-- FT_S_READ (R32). -/
def runFtSRead (s : State) : Result :=
  s.answer (s.taken (execFtSRead s))

/-- FT_STEP (R30). -/
def runFtStep (org : Origin) (off : Word) (s : State) : Result :=
  s.answer (s.taken (execFtStep org off s))

/-- FT_DISCIPLINE_PERIOD (R31). -/
def runFtDisciplinePeriod (s : State) : Result :=
  s.answer (s.taken (execFtDisciplinePeriod s))

/-- FT_SYNC_TIMEOUT (R31). -/
def runFtSyncTimeout (s : State) : Result :=
  s.answer (s.taken (execFtSyncTimeout s))

/-- MASTER_LOCK_LOST (R26). -/
def runMasterLockLost (s : State) : Result :=
  s.ends (s.taken (execMasterLockLost s))

/-- REFCLK_LOST (R522). -/
def runRefclkLost (s : State) : Result :=
  s.ends (s.taken (execRefclkLost s))

/-- PHY_PLL_LOCK_LOST (R27). -/
def runPhyPllLockLost (kind n : Nat) (locked : Bool) (s : State) : Result :=
  s.answer (s.taken (execPhyPllLockLost kind n locked s))

end Machine
end Sys2Proof
end

