-- ==== Sys2Proof/Machine/EthernetExec.lean ====
section
/-! DEFINITION. The commands of one family: Ethernet ports (R278 to R297). -/

namespace Sys2Proof
namespace Machine

/-- FRAME_RECEIVED (R282). -/
def runFrameReceived (port : Nat) (data : EthRx) (room : Bool) (s : State) : Result :=
  s.ends (s.taken (execFrameReceived port data room (s.frameBytes port data.bytes)))

/-- AN_RESOLVED (R281). -/
def runAnResolved (port : Nat) (phy : Option Nat) (s : State) : Result :=
  s.ends (s.taken (execAnResolved port phy s))

/-- AN_TIMEOUT (R281). -/
def runAnTimeout (port : Nat) (s : State) : Result :=
  s.ends (s.taken (execAnTimeout port s))

/-- LINK_TRAINING_DONE (R281). -/
def runLinkTrainingDone (port : Nat) (s : State) : Result :=
  s.ends (s.taken (execLinkTrainingDone port s))

/-- LINK_TRAINING_TIMEOUT (R281). -/
def runLinkTrainingTimeout (port : Nat) (s : State) : Result :=
  s.ends (s.taken (execLinkTrainingTimeout port s))

/-- ALIGN_LOCK (R281). -/
def runAlignLock (port : Nat) (lpi : Bool) (s : State) : Result :=
  s.ends (s.taken (execAlignLock port lpi s))

/-- ALIGN_TIMEOUT (R281). -/
def runAlignTimeout (port : Nat) (s : State) : Result :=
  s.ends (s.taken (execAlignTimeout port s))

/-- LOCAL_FAULT (R281). -/
def runLocalFault (port : Nat) (s : State) : Result :=
  s.ends (s.taken (execLocalFault port s))

/-- REMOTE_FAULT (R281). -/
def runRemoteFault (port : Nat) (s : State) : Result :=
  s.ends (s.taken (execRemoteFault port s))

/-- REMOTE_FAULT_CLEAR (R281). -/
def runRemoteFaultClear (port : Nat) (s : State) : Result :=
  s.ends (s.taken (execRemoteFaultClear port s))

/-- EN_HOLD_EXPIRY (R281). -/
def runEnHoldExpiry (port : Nat) (s : State) : Result :=
  s.ends (s.taken (execEnHoldExpiry port s))

/-- EXT_TAIL (R288). -/
def runExtTail (org : Origin) (tail : Nat) (s : State) : Result :=
  s.ends (s.taken (execExtTail org tail s))

/-- EXCEPTION_FRAME_SENT (R288). -/
def runExceptionFrameSent (port : Nat) (s : State) : Result :=
  s.ends (s.taken (execExceptionFrameSent port s))

/-- TX_UNDERRUN (R292). -/
def runTxUnderrun (port : Nat) (s : State) : Result :=
  s.ends (s.taken (execTxUnderrun port s))

/-- TX_THRESH_DECAY (R292). -/
def runTxThreshDecay (port : Nat) (s : State) : Result :=
  s.answer (s.taken (execTxThreshDecay port s))

/-- CONFIG_CHANGE (R295). -/
def runConfigChange (org : Origin) (port : Nat) (s : State) : Result :=
  s.ends (s.taken (execConfigChange org port s))

/-- GATE_CHANGE_TIME (R295). -/
def runGateChangeTime (port : Nat) (s : State) : Result :=
  s.ends (s.taken (execGateChangeTime port s))

/-- GATE_INTERVAL_END (R293). -/
def runGateIntervalEnd (port : Nat) (s : State) : Result :=
  s.ends (s.taken (execGateIntervalEnd port s))

/-- LPI_ENTRY (R296). -/
def runLpiEntry (port : Nat) (s : State) : Result :=
  s.ends (s.taken (execLpiEntry port s))

/-- LPI_WAKE (R297). -/
def runLpiWake (port : Nat) (s : State) : Result :=
  s.ends (s.taken (execLpiWake port s))

/-- RECEIVE_LPI (R296). -/
def runReceiveLpi (port : Nat) (s : State) : Result :=
  s.answer (s.taken (execReceiveLpi port s))

end Machine
end Sys2Proof
end

