-- ==== Sys2Proof/Machine/FirmwareExec.lean ====
section
/-! DEFINITION. The commands of one family: Firmware, trust and the out-of-band interface (R477 to R494, R511 to R513, R526). -/

namespace Sys2Proof
namespace Machine

/-- STAGE (R483). -/
def runStage (org : Origin) (s : State) : Result :=
  s.answer (s.stageCmd org)

/-- VERIFY (R483). -/
def runVerify (org : Origin) (fw : List Byte) (img : ImgRead) (ucal : UcalRead) (s : State) : Result :=
  s.answer (s.verifyCmd org fun s => s.verifyRead fw img ucal)

/-- FW_ARM (R486). -/
def runFwArm (org : Origin) (s : State) : Result :=
  s.answer (s.fwArmCmd org)

/-- CANCEL (R483). -/
def runCancel (org : Origin) (s : State) : Result :=
  s.answer (s.cancelCmd org)

/-- CONFIRM (R488). -/
def runConfirm (org : Origin) (s : State) : Result :=
  s.answer (s.confirmCmd org)

/-- ROLLBACK (R487). -/
def runRollback (org : Origin) (s : State) : Result :=
  s.ends (s.rollbackCmd org)

/-- ACTIVATION (R486). -/
def runActivation (s : State) : Result :=
  s.ends (s.activation)

/-- CONFIRM_TIMEOUT (R487). -/
def runConfirmTimeout (s : State) : Result :=
  s.ends (s.confirmTimeout)

/-- SET_MANAGER_PORT (R494). -/
def runSetManagerPort (sess : Option Nat) (port : Nat) (s : State) : Result :=
  s.ends (s.setManagerPort sess port)

/-- FUSE_OWNER_KEY (R478). -/
def runFuseOwnerKey (sess : Option Nat) (m : FuseMsg) (s : State) : Result :=
  s.answer (s.fuseOwnerKey sess m)

/-- REVOKE_OWNER_KEY (R478). -/
def runRevokeOwnerKey (sess : Option Nat) (slot : Nat) (s : State) : Result :=
  s.answer (s.revokeOwnerKey sess slot)

/-- SET_KEK (R493). -/
def runSetKek (m : KekMsg) (s : State) : Result :=
  s.answer (s.setKek m)

/-- GET_VERSION (R492). -/
def runGetVersion (s : State) : Result :=
  s.answer (s.spdmVersion)

/-- GET_CAPABILITIES (R492). -/
def runGetCapabilities (s : State) : Result :=
  s.answer (s.spdmCapabilities)

/-- NEGOTIATE_ALGORITHMS (R492). -/
def runNegotiateAlgorithms (s : State) : Result :=
  s.answer (s.spdmAlgorithms)

/-- GET_DIGESTS (R492). -/
def runGetDigests (s : State) : Result :=
  s.answer (s.spdmDigests)

/-- GET_CERTIFICATE (R492). -/
def runGetCertificate (slot : Nat) (s : State) : Result :=
  s.answer (s.spdmOfSlot 0x82 slot)

/-- CHALLENGE (R492). -/
def runChallenge (slot : Nat) (s : State) : Result :=
  s.answer (s.spdmOfSlot 0x83 slot)

/-- GET_MEASUREMENTS (R491). -/
def runGetMeasurements (idx : Nat) (s : State) : Result :=
  s.answer (s.spdmMeasurements idx)

/-- KEY_EXCHANGE (R492). -/
def runKeyExchange (id slot : Nat) (s : State) : Result :=
  s.answer (s.spdmKeyExchange id slot)

/-- FINISH (R492). -/
def runFinish (id : Nat) (good : Bool) (owner : Option Nat) (s : State) : Result :=
  s.answer (s.spdmFinish id good owner)

/-- HEARTBEAT (R492). -/
def runHeartbeat (id : Nat) (s : State) : Result :=
  s.answer (s.spdmInSession 0xE8 id)

/-- KEY_UPDATE (R492). -/
def runKeyUpdate (id : Nat) (s : State) : Result :=
  s.answer (s.spdmInSession 0xE9 id)

/-- END_SESSION (R492). -/
def runEndSession (id : Nat) (s : State) : Result :=
  s.answer (s.spdmEnd id)

/-- PLDM_REQUEST (R511). -/
def runPldmRequest (r : PldmReq) (s : State) : Result :=
  s.ends (s.pldm r)

/-- I3C_DYNAMIC_ADDRESS (R511). -/
def runI3cDynamicAddress (addr : Nat) (s : State) : Result :=
  s.answer (s.i3cAddress addr)

/-- MCTP_CONTROL (R511). -/
def runMctpControl (r : MctpReq) (s : State) : Result :=
  s.answer (s.mctp r)

/-- UART_FRAME (R513). -/
def runUartFrame (samples : List Bool) (s : State) : Result :=
  s.answer (s.uartFrame samples)

/-- UART_TX (R512). -/
def runUartTx (org : Origin) (b : Nat) (s : State) : Result :=
  s.answer (s.uartTx org b)

/-- BOUNDARY_SCAN (R526). -/
def runBoundaryScan (x : TapInput) (s : State) : Result :=
  s.answer (s.boundaryScan x)

end Machine
end Sys2Proof
end

