-- ==== Sys2Proof/Machine/HostExec.lean ====
section
/-! DEFINITION. The commands of one family: Host ports, functions' resets and completions (R100 to R118, R465). -/

namespace Sys2Proof
namespace Machine

/-- PCIE_LINK_TRAINED (R101). -/
def runPcieLinkTrained (l : LinkId) (rate width : Nat) (s : State) : Result :=
  s.ends (s.linkTrained l rate width)

/-- PCIE_LINK_DOWN (R116). -/
def runPcieLinkDown (l : LinkId) (s : State) : Result :=
  s.ends (s.pcieLinkDown l)

/-- LINK_DOWN_TIMEOUT (R116). -/
def runLinkDownTimeout (l : LinkId) (s : State) : Result :=
  s.ends (s.linkDownTimeout l)

/-- FUNDAMENTAL_RESET (R116). -/
def runFundamentalReset (l : LinkId) (s : State) : Result :=
  s.ends (s.fundamentalReset l)

/-- PERST_DEASSERT (R463). -/
def runPerstDeassert (l : LinkId) (s : State) : Result :=
  s.ends (s.perstDeassert l)

/-- HOT_RESET (R116). -/
def runHotReset (l : LinkId) (s : State) : Result :=
  s.ends (s.hotReset l)

/-- HOST_WATCHDOG_EXPIRY (R116). -/
def runHostWatchdogExpiry (l : LinkId) (s : State) : Result :=
  s.ends (s.watchdogExpiry l)

/-- WDOG_RESTART (R116). -/
def runWdogRestart (fn : Nat) (s : State) : Result :=
  s.answer (s.watchdogRestart fn)

/-- BUS_MASTER_DISABLE (R112). -/
def runBusMasterDisable (fn : Nat) (s : State) : Result :=
  s.ends (s.busMasterOff fn)

/-- BUS_MASTER_ENABLE (R112). -/
def runBusMasterEnable (fn : Nat) (s : State) : Result :=
  s.ends (s.busMasterOn fn)

/-- FLR (R113). -/
def runFlr (fn : Nat) (s : State) : Result :=
  s.ends (s.flrRequest fn)

/-- VF_ENABLE_CLEAR (R113). -/
def runVfEnableClear (pf : Nat) (s : State) : Result :=
  s.ends (s.vfEnableClear pf)

/-- FUNCTION_RESET_DONE (R113). -/
def runFunctionResetDone (fn : Nat) (s : State) : Result :=
  s.ends (s.fnResetDone fn).eqTurnDue

/-- FUNCTION_WEDGED (R115). -/
def runFunctionWedged (fn : Nat) (s : State) : Result :=
  s.ends (s.fnWedged fn).eqTurnDue

/-- COMPLETION_TIMEOUT (R104). -/
def runCompletionTimeout (l : LinkId) (tag : Nat) (s : State) : Result :=
  s.ends (s.tagTimeout l tag)

/-- HOST_COMPLETION (R114). -/
def runHostCompletion (l : LinkId) (tag : Nat) (data : Option (List Byte)) (s : State) : Result :=
  s.ends (s.hostCompletion l tag data)

/-- TAG_REUSE (R114). -/
def runTagReuse (l : LinkId) (tag : Nat) (s : State) : Result :=
  s.ends (s.tagReuse l tag)

/-- GRACE_EXPIRY (R118). -/
def runGraceExpiry (l : LinkId) (s : State) : Result :=
  s.ends (s.graceExpiry l)

/-- ATTACH (R117). -/
def runAttach (fn : Nat) (token : Word) (s : State) : Result :=
  s.ends (s.attach fn token)

/-- CONFIG_REQUEST (R465). -/
def runConfigRequest (fn : Nat) (r : CfgReq) (s : State) : Result :=
  s.ends (s.configRequest fn r)

/-- MSIX_UNMASK (R127). -/
def runMsixUnmask (fn : Nat) (vec : Option Nat) (s : State) : Result :=
  s.answer (s.msixUnmask fn vec)

end Machine
end Sys2Proof
end

