-- ==== Sys2Proof/Machine/MemoryExec.lean ====
section
/-! DEFINITION. The commands of one family: The HBM subsystem and the faults of on-die parts (R386 to R400, R441 to R459). -/

namespace Sys2Proof
namespace Machine

/-- SCRUB (R391). -/
def runScrub (stack line : Nat) (o : EccOutcome) (byScrub : Bool) (s : State) : Result :=
  s.ends (s.scrub stack line o byScrub)

/-- REFRESH (R396). -/
def runRefresh (bank : Nat) (s : State) : Result :=
  s.answer (s.refreshBank bank)

/-- LANE_REPAIR_DONE (R397). -/
def runLaneRepairDone (stack pc : Nat) (s : State) : Result :=
  s.ends (s.laneRepaired stack pc)

/-- COMMAND_INTERFACE_FAILURE (R394). -/
def runCommandInterfaceFailure (stack pc : Nat) (s : State) : Result :=
  s.ends (s.interfaceFails stack pc)

/-- AVENUE_LINK_FAILED (R442). -/
def runAvenueLinkFailed (bundle link : Nat) (s : State) : Result :=
  s.ends (s.avenueLink bundle link)

/-- SRAM_WORD_BEYOND_ECC (R444). -/
def runSramWordBeyondEcc (mem inst : Nat) (w : SramLoss) (s : State) : Result :=
  s.ends (s.sramLost mem inst w)

/-- JOURNAL_RECORD_BEYOND_ECC (R445). -/
def runJournalRecordBeyondEcc (n : Nat) (s : State) : Result :=
  s.ends (s.journalLost n)

/-- PIPELINE_PARITY_EVENT (R448). -/
def runPipelineParityEvent (k : Nat) (again : Bool) (s : State) : Result :=
  s.ends (s.pipeParity k again)

/-- ROUTER_PARITY_EVENT (R455). -/
def runRouterParityEvent (s : State) : Result :=
  s.ends (s.routerParity)

/-- AVENUE_STOP_FAULT (R455). -/
def runAvenueStopFault (s : State) : Result :=
  s.ends (s.stopFault)

/-- REC_SEL (R459). -/
def runRecSel (org : Origin) (n : Nat) (s : State) : Result :=
  s.answer (s.recSel org n)

end Machine
end Sys2Proof
end

