-- ==== Sys2Proof/Machine/PowerExec.lean ====
section
/-! DEFINITION. The commands of one family: Power domains, the governor, sensors, self-test and bandwidth windows (R33 to R41, R496 to R510). -/

namespace Sys2Proof
namespace Machine

/-- POWER_UP (R502). -/
def runPowerUp (org : Origin) (d : Nat) (s : State) : Result :=
  s.ends (s.domRequest org d true)

/-- POWER_DOWN (R37, R502). -/
def runPowerDown (req : DownReq) (d : Nat) (s : State) : Result :=
  s.ends (s.downRequest req d)

/-- DOMAIN_SETTLED (R35). -/
def runDomainSettled (d : Nat) (s : State) : Result :=
  s.ends (s.domSettled d)

/-- SENSOR_UPDATE (R501). -/
def runSensorUpdate (n : Nat) (t : Int) (s : State) : Result :=
  s.ends (s.sensorUpdate n t)

/-- THERMAL_TRIP (R501). -/
def runThermalTrip (s : State) : Result :=
  s.ends (s.thermTrip)

/-- GOVERNOR_WINDOW_END (R499). -/
def runGovernorWindowEnd (power : Nat) (s : State) : Result :=
  s.ends (s.governorWindow power)

/-- AT_FLOOR_TIMEOUT (R501). -/
def runAtFloorTimeout (s : State) : Result :=
  s.ends (s.atFloor)

/-- SELF_TEST_SLICE (R504). -/
def runSelfTestSlice (kind target : Nat) (busy : Bool) (e : SliceEnd) (s : State) : Result :=
  s.ends (s.slice kind target busy e)

/-- SLICE_RETRY (R505). -/
def runSliceRetry (kind target : Nat) (busy : Bool) (e : SliceEnd) (s : State) : Result :=
  s.ends (s.sliceRetry kind target busy e)

/-- FUSE (R507). -/
def runFuse (org : Origin) (confirm : Nat) (s : State) : Result :=
  s.ends (s.fuseCmd org confirm)

/-- BW_WINDOW_END (R510). -/
def runBwWindowEnd (m : Nat) (s : State) : Result :=
  s.answer (s.bwWindow m)

end Machine
end Sys2Proof
end

