-- ==== Sys2Proof/Machine/ProtectionExec.lean ====
section
/-! DEFINITION. The commands of one family: Keys, encryption and integrity channels (R401 to R417). -/

namespace Sys2Proof
namespace Machine

/-- INSTALL (R403). -/
def runInstall (fn v arg0 : Nat) (s : State) : Result :=
  s.ends ((s.keyArg0 fn arg0).keyInstall fn v)

/-- SET_TX (R407). -/
def runSetTx (fn v : Nat) (s : State) : Result :=
  s.ends (s.keySetTx fn v)

/-- RETIRE (R407). -/
def runRetire (fn v : Nat) (s : State) : Result :=
  s.ends (s.keyRetire fn v)

/-- ERASE (R402). -/
def runErase (fn v : Nat) (s : State) : Result :=
  s.ends (s.keyErase fn v)

/-- TAG (R410). -/
def runTag (fn v : Nat) (s : State) : Result :=
  s.ends (s.keyTag fn v)

/-- TAG_PAGE_DONE (R410). -/
def runTagPageDone (fn : Nat) (s : State) : Result :=
  s.ends (s.tagPageDone fn)

/-- AUTH_TAG_RESULT (R408). -/
def runAuthTagResult (q n : Nat) (s : State) : Result :=
  s.ends (s.tagResults q n)

/-- CIPHER_PARITY_FAULT (R412). -/
def runCipherParityFault (xts : Bool) (fn idx : Nat) (s : State) : Result :=
  s.ends (s.cipherParity xts fn idx)

/-- IC_ENABLE (R417). -/
def runIcEnable (org : Origin) (sp : Space) (ch : Nat) (s : State) : Result :=
  s.ends (s.icEnable org sp ch)

/-- IC_DISABLE (R417). -/
def runIcDisable (org : Origin) (sp : Space) (ch : Nat) (s : State) : Result :=
  s.ends (s.icDisable org sp ch)

/-- IC_EXPECTATION_PUSH (R416). -/
def runIcExpectationPush (org : Origin) (sp : Space) (ch val : Nat) (s : State) : Result :=
  s.ends (s.icPush org sp ch val)

end Machine
end Sys2Proof
end

