-- ==== Sys2Proof/Machine/QueueExec.lean ====
section
/-! DEFINITION. The commands of one family: Work queues (R119 to R139). -/

namespace Sys2Proof
namespace Machine

/-- DOORBELL (R130). -/
def runDoorbell (fn q t : Nat) (s : State) : Result :=
  s.ends (s.doorbell fn q t)

/-- DESCRIPTOR_FETCH (R125). -/
def runDescriptorFetch (fn q : Nat) (data : Option (List Byte)) (s : State) : Result :=
  s.ends (s.descriptorFetch fn q data)

/-- FETCH_RETRY (R131). -/
def runFetchRetry (fn q : Nat) (data : Option (List Byte)) (s : State) : Result :=
  s.ends (s.fetchRetry fn q data)

/-- PREFETCH_POLL (R132). -/
def runPrefetchPoll (fn q : Nat) (data : Option (List Byte)) (s : State) : Result :=
  s.ends (s.prefetchPoll fn q data)

/-- QUEUE_ENABLE (R136). -/
def runQueueEnable (fn v : Nat) (s : State) : Result :=
  s.ends (s.queueEnable fn v)

/-- Q_INVAL_SLOT (R135). -/
def runQInvalSlot (org : Origin) (q slot : Nat) (s : State) : Result :=
  s.answer (s.qInvalBy org (.slot q slot))

/-- Q_INVAL_QUEUE (R135). -/
def runQInvalQueue (org : Origin) (q : Nat) (s : State) : Result :=
  s.answer (s.qInvalBy org (.queue q))

/-- Q_INVAL_ALL (R135). -/
def runQInvalAll (org : Origin) (s : State) : Result :=
  s.answer (s.qInvalBy org .all)

/-- Q_INVAL_DONE (R135). -/
def runQInvalDone (s : State) : Result :=
  s.answer (s.qInvalDone)

/-- NOP (R125). -/
def runNop (r : OpRef) (s : State) : Result :=
  s.ends (s.startOf r 0x00 none fun s o => s.complete o .ok)

/-- COPY (R124). -/
def runCopy (r : OpRef) (s : State) : Result :=
  s.ends (s.startOf r 0x01 none State.copyStart)

/-- FLUSH_HOST (R109). -/
def runFlushHost (r : OpRef) (s : State) : Result :=
  s.ends (s.startOf r 0x04 none State.flushStart)

/-- FENCE_HOST (R110). -/
def runFenceHost (r : OpRef) (s : State) : Result :=
  s.ends (s.startOf r 0x05 none State.fenceStart)

/-- CVT_A2F (R72). -/
def runCvtA2f (r : OpRef) (s : State) : Result :=
  s.ends (s.startOf r 0x08 none State.cvtOne)

/-- CVT_F2A (R72). -/
def runCvtF2a (r : OpRef) (s : State) : Result :=
  s.ends (s.startOf r 0x09 none State.cvtOne)

/-- CVT_A2F_ARRAY (R73). -/
def runCvtA2fArray (r : OpRef) (s : State) : Result :=
  s.ends (s.startOf r 0x0A none State.cvtStart)

/-- CVT_F2A_ARRAY (R73). -/
def runCvtF2aArray (r : OpRef) (s : State) : Result :=
  s.ends (s.startOf r 0x0B none State.cvtStart)

end Machine
end Sys2Proof
end

