-- ==== Sys2Proof/Machine/RegisterExec.lean ====
section
/-! DEFINITION. The commands of one family: Register accesses (R10 to R14, R490, R511). -/

namespace Sys2Proof
namespace Machine

/-- REGISTER_WRITE (R10). -/
def runRegisterWrite (org : Origin) (sp : Space) (off : Nat) (v : Word) (s : State) : Result :=
  s.ends (s.registerWrite org sp off v)

/-- IRREGULAR_ACCESS (R11). -/
def runIrregularAccess (org : Origin) (sp : Space) (off len tag : Nat) (write : Option (List Byte)) (s : State) : Result :=
  s.ends (s.irregular org sp off len tag write)

/-- RC_READ (R14). -/
def runRcRead (org : Origin) (sp : Space) (off tag : Nat) (s : State) : Result :=
  s.ends (s.rcReadCmd org sp off tag)

/-- OOB_DCS_ACCESS (R490). -/
def runOobDcsAccess (off : Nat) (write : Option Word) (s : State) : Result :=
  s.ends (s.oobAccess off write)

end Machine
end Sys2Proof
end

