-- ==== Sys2Proof/Machine/RemoteExec.lean ====
section
/-! DEFINITION. The commands of one family: Remote operations, turnstiles, armed entries and windows (R140 to R171). -/

namespace Sys2Proof
namespace Machine

/-- WRITE (R141). -/
def runWrite (r : OpRef) (s : State) : Result :=
  s.ends (s.startOf r 0x10 none State.remoteStart)

/-- READ (R141). -/
def runRead (r : OpRef) (s : State) : Result :=
  s.ends (s.startOf r 0x11 none State.remoteStart)

/-- SEND (R144). -/
def runSend (r : OpRef) (s : State) : Result :=
  s.ends (s.startOf r 0x12 none State.remoteStart)

/-- RECV (R144). -/
def runRecv (r : OpRef) (s : State) : Result :=
  s.ends (s.startOf r 0x13 none State.recvStart)

/-- FADD (R141). -/
def runFadd (r : OpRef) (s : State) : Result :=
  s.ends (s.startOf r 0x14 none State.remoteStart)

/-- CAS64 (R141). -/
def runCas64 (r : OpRef) (s : State) : Result :=
  s.ends (s.startOf r 0x15 none State.remoteStart)

/-- CAS128 (R143). -/
def runCas128 (r : OpRef) (s : State) : Result :=
  s.ends (s.startOf r 0x16 none State.remoteStart)

/-- TS_READ (R168). -/
def runTsRead (r : OpRef) (s : State) : Result :=
  s.ends (s.startOf r 0x18 (some 0x1) State.remoteStart)

/-- TS_SET (R168). -/
def runTsSet (r : OpRef) (s : State) : Result :=
  s.ends (s.startOf r 0x18 (some 0x2) State.remoteStart)

/-- TS_ADD (R168). -/
def runTsAdd (r : OpRef) (s : State) : Result :=
  s.ends (s.startOf r 0x18 (some 0x3) State.remoteStart)

/-- TS_CAS (R168). -/
def runTsCas (r : OpRef) (s : State) : Result :=
  s.ends (s.startOf r 0x18 (some 0x4) State.remoteStart)

/-- TS_WAIT (R169). -/
def runTsWait (r : OpRef) (s : State) : Result :=
  s.ends (s.startOf r 0x18 (some 0x5) State.remoteStart)

/-- TS_ADD_WAIT (R168). -/
def runTsAddWait (r : OpRef) (s : State) : Result :=
  s.ends (s.startOf r 0x18 (some 0x6) State.remoteStart)

/-- TS_ACQUIRE (R168). -/
def runTsAcquire (r : OpRef) (s : State) : Result :=
  s.ends (s.startOf r 0x18 (some 0x8) State.remoteStart)

/-- TS_TRY (R168). -/
def runTsTry (r : OpRef) (s : State) : Result :=
  s.ends (s.startOf r 0x18 (some 0x9) State.remoteStart)

/-- TS_RELEASE (R168). -/
def runTsRelease (r : OpRef) (s : State) : Result :=
  s.ends (s.startOf r 0x18 (some 0xA) State.remoteStart)

/-- TS_HANDOVER (R168). -/
def runTsHandover (r : OpRef) (s : State) : Result :=
  s.ends (s.startOf r 0x18 (some 0xB) State.remoteStart)

/-- TS_ABANDON (R168). -/
def runTsAbandon (r : OpRef) (s : State) : Result :=
  s.ends (s.startOf r 0x18 (some 0xC) State.remoteStart)

/-- ARM_THRESHOLD (R152). -/
def runArmThreshold (r : OpRef) (s : State) : Result :=
  s.ends (s.startOf r 0x30 (some 0) State.armThreshold)

/-- ARM_SEND_TAG (R152). -/
def runArmSendTag (r : OpRef) (s : State) : Result :=
  s.ends (s.startOf r 0x30 (some 1) State.armTag)

/-- STEP_LOAD (R332). -/
def runStepLoad (r : OpRef) (s : State) : Result :=
  s.ends (s.startOf r 0x28 none State.tableArrives)

/-- STEP_START (R333). -/
def runStepStart (r : OpRef) (s : State) : Result :=
  s.ends (s.startOf r 0x29 none State.tableArrives)

/-- WIN_CREATE (R163). -/
def runWinCreate (fn : Nat) (s : State) : Result :=
  s.ends (s.wincCmd fn fun s => s.winCreate fn)

/-- WIN_REVOKE (R164). -/
def runWinRevoke (fn key : Nat) (s : State) : Result :=
  s.ends (s.wincCmd fn fun s => s.winRevoke fn key false)

/-- WIN_DESTROY (R164). -/
def runWinDestroy (fn key : Nat) (s : State) : Result :=
  s.ends (s.wincCmd fn fun s => s.winRevoke fn key true)

/-- WIN_IMPORT (R159). -/
def runWinImport (fn key : Nat) (s : State) : Result :=
  s.ends (s.wincCmd fn fun s => s.winImport fn key)

/-- WIN_FORGET (R163). -/
def runWinForget (fn key : Nat) (s : State) : Result :=
  s.ends (s.wincCmd fn fun s => s.winForget fn key)

/-- WIN_QUERY_CMD (R163). -/
def runWinQueryCmd (fn key : Nat) (s : State) : Result :=
  s.ends (s.wincCmd fn fun s => s.winQueryCmd fn key)

/-- REVOCATION_DONE (R164). -/
def runRevocationDone (n : Nat) (s : State) : Result :=
  s.ends (s.revocationDone n)

end Machine
end Sys2Proof
end

