-- ==== Sys2Proof/Machine/ShapingExec.lean ====
section
/-! DEFINITION. The commands of one family: Congestion control and shaping (R211 to R241). -/

namespace Sys2Proof
namespace Machine

/-- REFILL_TICK (R225). -/
def runRefillTick (s : State) : Result :=
  s.ends (s.refillTick)

/-- EPOCH_END (R219). -/
def runEpochEnd (q : Nat) (s : State) : Result :=
  s.ends (s.epochEnds q)

/-- QUEUE_SAMPLE (R238). -/
def runQueueSample (s : State) : Result :=
  s.ends (s.queueSample)

/-- CLEAR_DEBT (R227). -/
def runClearDebt (org : Origin) (s : State) : Result :=
  s.answer (s.clearDebt org)

end Machine
end Sys2Proof
end

