-- ==== Sys2Proof/Machine/SquareExec.lean ====
section
/-! DEFINITION. The commands of one family: Collectives (R354 to R385). -/

namespace Sys2Proof
namespace Machine

/-- ALL_REDUCE (R356). -/
def runAllReduce (r : OpRef) (s : State) : Result :=
  s.ends (s.collStart r 1)

/-- REDUCE_SCATTER (R356). -/
def runReduceScatter (r : OpRef) (s : State) : Result :=
  s.ends (s.collStart r 2)

/-- ALL_GATHER (R356). -/
def runAllGather (r : OpRef) (s : State) : Result :=
  s.ends (s.collStart r 3)

/-- BROADCAST (R356). -/
def runBroadcast (r : OpRef) (s : State) : Result :=
  s.ends (s.collStart r 4)

/-- ALL_TO_ALL (R376). -/
def runAllToAll (r : OpRef) (s : State) : Result :=
  s.ends (s.collStart r 5)

/-- BARRIER (R356). -/
def runBarrier (r : OpRef) (s : State) : Result :=
  s.ends (s.collStart r 6)

/-- COLL_TIMEOUT (R381). -/
def runCollTimeout (r : OpRef) (s : State) : Result :=
  s.ends (s.collTimeout r)

/-- SQUARE_WORD_BEYOND_ECC (R383). -/
def runSquareWordBeyondEcc (slice id chunk : Nat) (s : State) : Result :=
  s.ends (s.squareWord slice id chunk)

end Machine
end Sys2Proof
end

