-- ==== Sys2Proof/Machine/StartExec.lean ====
section
/-! DEFINITION. The commands of one family: Recovery, power, reset and start (R456 to R476). -/

namespace Sys2Proof
namespace Machine

/-- ENTER_EQUAL (R456). -/
def runEnterEqual (org : Origin) (s : State) : Result :=
  s.ends (s.enterEqualCmd org)

/-- LEAVE_EQUAL (R429). -/
def runLeaveEqual (org : Origin) (s : State) : Result :=
  s.ends (s.leaveEqualCmd org)

/-- DRAIN (R457). -/
def runDrain (org : Origin) (s : State) : Result :=
  s.ends (s.drainCmd org)

/-- DRAIN_END (R457). -/
def runDrainEnd (timeout : Bool) (s : State) : Result :=
  s.ends (s.drainEnd timeout)

/-- DRAIN_RESET_TIMER (R457). -/
def runDrainResetTimer (s : State) : Result :=
  s.ends (s.drainReset)

/-- VAON_UP (R460). -/
def runVaonUp (s : State) : Result :=
  s.ends (s.vaonUp)

/-- VAON_LOSS (R460). -/
def runVaonLoss (s : State) : Result :=
  s.ends (s.vaonLoss)

/-- POR_N_ASSERT (R460). -/
def runPorNAssert (s : State) : Result :=
  s.ends (s.porAssert)

/-- POR_N_DEASSERT (R463). -/
def runPorNDeassert (s : State) : Result :=
  s.ends (s.porDeassert)

/-- RAIL_OUT_OF_TOLERANCE (R462). -/
def runRailOutOfTolerance (s : State) : Result :=
  s.ends (s.railOut)

/-- RESET_N_ASSERT (R464). -/
def runResetNAssert (s : State) : Result :=
  s.ends (s.resetAssert)

/-- RESET_N_DEASSERT (R464). -/
def runResetNDeassert (s : State) : Result :=
  s.ends (s.resetDeassert)

/-- INTERNAL_RESET_PULSE_END (R464). -/
def runInternalResetPulseEnd (s : State) : Result :=
  s.ends (s.pulseEnd)

/-- START_STEP_COMPLETE (R463). -/
def runStartStepComplete (n ms : Nat) (x : StepInfo) (s : State) : Result :=
  s.ends (s.startStep n ms x)

/-- DEVICE_RESET (R476). -/
def runDeviceReset (org : Origin) (confirm : Nat) (s : State) : Result :=
  s.ends (s.deviceResetCmd org confirm)

/-- RELEASE (R466). -/
def runRelease (org : Origin) (ms : Nat) (s : State) : Result :=
  s.ends (s.release org ms)

/-- RELEASE_TIMEOUT (R463). -/
def runReleaseTimeout (ms : Nat) (s : State) : Result :=
  s.ends (s.releaseTimeout ms)

/-- CLEAR_UCAL (R475). -/
def runClearUcal (org : Origin) (s : State) : Result :=
  s.answer (s.clearUcal org)

end Machine
end Sys2Proof
end

