-- ==== Sys2Proof/Machine/TenancyExec.lean ====
section
/-! DEFINITION. The commands of one family: Functions, limits and Kiosks (R418 to R440). -/

namespace Sys2Proof
namespace Machine

/-- FN_CREATE (R420). -/
def runFnCreate (org : Origin) (fn : Nat) (s : State) : Result :=
  s.ends (s.fnCmd org fun s => s.fnCreate fn)

/-- FN_DESTROY (R421). -/
def runFnDestroy (org : Origin) (fn : Nat) (s : State) : Result :=
  s.ends (s.fnCmd org fun s => s.fnDestroy fn)

/-- SET_LIMIT (R423). -/
def runSetLimit (org : Origin) (fn res : Nat) (s : State) : Result :=
  s.ends (s.fnCmd org fun s => s.setLimit fn res)

/-- GIVE (R424). -/
def runGive (org : Origin) (fn res : Nat) (s : State) : Result :=
  s.ends (s.fnCmd org fun s => s.fnGive fn res)

/-- TAKE (R424). -/
def runTake (org : Origin) (fn res : Nat) (s : State) : Result :=
  s.ends (s.fnCmd org fun s => s.fnTake fn res)

/-- VF_RESET (R420). -/
def runVfReset (org : Origin) (fn : Nat) (s : State) : Result :=
  s.ends (s.fnCmd org fun s => s.vfReset fn)

/-- DL_SWAP (R437). -/
def runDlSwap (org : Origin) (fn : Nat) (s : State) : Result :=
  s.ends (s.fnCmd org fun s => s.dlSwap fn)

/-- KSK_SET (R420). -/
def runKskSet (org : Origin) (fn : Nat) (s : State) : Result :=
  s.ends (s.fnCmd org fun s => s.kskSet fn)

/-- PAGE_ZEROED (R467). -/
def runPageZeroed (page : Nat) (s : State) : Result :=
  s.ends (s.pageZeroed page)

/-- KIOSK_POST (R431). -/
def runKioskPost (fn : Nat) (s : State) : Result :=
  s.ends (s.kioskPost fn)

/-- RSP_TAIL_DOORBELL (R432). -/
def runRspTailDoorbell (org : Origin) (fn idx : Nat) (s : State) : Result :=
  s.ends (s.rspTail org fn idx)

/-- REQ_HEAD_DOORBELL (R431). -/
def runReqHeadDoorbell (org : Origin) (fn idx : Nat) (s : State) : Result :=
  s.ends (s.reqHead org fn idx)

/-- RX_POP (R432). -/
def runRxPop (fn : Nat) (s : State) : Result :=
  s.ends (s.rxPop fn)

end Machine
end Sys2Proof
end

