-- ==== Sys2Proof/Machine/TranslationExec.lean ====
section
/-! DEFINITION. The commands of one family: Address translation (R74 to R99). -/

namespace Sys2Proof
namespace Machine

/-- TABLE_WALK_DONE (R89). -/
def runTableWalkDone (fn ha : Nat) (acc : Access) (words : List (Option Nat)) (s : State) : Result :=
  s.ends (s.walkDone fn ha acc words)

/-- INVAL_RANGE (R86). -/
def runInvalRange (org : Origin) (e : XlPort) (pages : Nat) (s : State) : Result :=
  s.answer (s.invalBy org e fun s => s.invalRange e pages)

/-- INVAL_FUNCTION (R86). -/
def runInvalFunction (org : Origin) (e : XlPort) (s : State) : Result :=
  s.answer (s.invalBy org e fun s => s.invalFunction e)

/-- INVAL_ALL (R86). -/
def runInvalAll (org : Origin) (e : XlPort) (s : State) : Result :=
  s.answer (s.invalBy org e fun s => s.invalAll e)

/-- INVAL_DONE (R86). -/
def runInvalDone (e : XlPort) (s : State) : Result :=
  s.answer (s.invalDone e)

/-- FAULT_BATCH_TIMEOUT (R93). -/
def runFaultBatchTimeout (fn : Nat) (s : State) : Result :=
  s.ends (s.batchTimeout fn)

/-- REPLAY (R95). -/
def runReplay (fn upto : Nat) (s : State) : Result :=
  s.ends (s.replay fn upto)

/-- REPLAY_ABORT (R96). -/
def runReplayAbort (fn upto : Nat) (s : State) : Result :=
  s.ends (s.replayAbort fn upto)

/-- AC_CLEAR (R99). -/
def runAcClear (fn v : Nat) (s : State) : Result :=
  s.ends (s.acClear fn v)

/-- AC_DECAY (R98). -/
def runAcDecay (fn : Nat) (s : State) : Result :=
  s.ends (s.acDecay fn)

end Machine
end Sys2Proof
end

