-- ==== Sys2Proof/Machine/TransportExec.lean ====
section
/-! DEFINITION. The commands of one family: The transport (R172 to R210, R216). -/

namespace Sys2Proof
namespace Machine

/-- REQUEST_PACKET (R188). -/
def runRequestPacket (p : SltPkt) (a : Arrival) (s : State) : Result :=
  s.ends (s.sltOf (sltRequest p.op) p a)

/-- RESPONSE_PACKET (R194). -/
def runResponsePacket (p : SltPkt) (a : Arrival) (s : State) : Result :=
  s.ends (s.sltOf (sltResponse p.op) p a)

/-- ACK (R193). -/
def runAck (p : SltPkt) (a : Arrival) (s : State) : Result :=
  s.ends (s.sltOf (p.op == .ack) p a)

/-- NAK (R199). -/
def runNak (p : SltPkt) (a : Arrival) (s : State) : Result :=
  s.ends (s.sltOf (p.op == .nak) p a)

/-- WAITING (R203). -/
def runWaiting (p : SltPkt) (a : Arrival) (s : State) : Result :=
  s.ends (s.sltOf (p.op == .waiting) p a)

/-- CONNECT (R180). -/
def runConnect (p : SltPkt) (a : Arrival) (s : State) : Result :=
  s.ends (s.sltOf (p.op == .connect) p a)

/-- ACCEPT (R180). -/
def runAccept (p : SltPkt) (a : Arrival) (s : State) : Result :=
  s.ends (s.sltOf (p.op == .accept) p a)

/-- REFUSE (R180). -/
def runRefuse (p : SltPkt) (a : Arrival) (s : State) : Result :=
  s.ends (s.sltOf (p.op == .refuse) p a)

/-- CLOSE (R207). -/
def runClose (p : SltPkt) (a : Arrival) (s : State) : Result :=
  s.ends (s.sltOf (p.op == .close) p a)

/-- RESET_NOTICE (R207). -/
def runResetNotice (p : SltPkt) (a : Arrival) (s : State) : Result :=
  s.ends (s.sltOf (p.op == .resetNotice) p a)

/-- WIN_QUERY (R186). -/
def runWinQuery (p : SltPkt) (a : Arrival) (s : State) : Result :=
  s.ends (s.sltOf (p.op == .winQuery) p a)

/-- WIN_INFO (R159). -/
def runWinInfo (p : SltPkt) (a : Arrival) (s : State) : Result :=
  s.ends (s.sltOf (p.op == .winInfo) p a)

/-- PATH_PROBE (R197). -/
def runPathProbe (p : SltPkt) (a : Arrival) (s : State) : Result :=
  s.ends (s.sltOf (p.op == .pathProbe) p a)

/-- WIN_QUERY_RESEND (R186). -/
def runWinQueryResend (q : Nat) (s : State) : Result :=
  s.ends (s.winQueryResend q)

/-- QP_CREATE (R179). -/
def runQpCreate (fn : Nat) (s : State) : Result :=
  s.ends (s.qpcCmd fn fun s => s.qpCreate fn)

/-- QP_CONNECT (R179). -/
def runQpConnect (fn q : Nat) (s : State) : Result :=
  s.ends (s.qpcCmd fn fun s => s.qpConnect fn q)

/-- QP_DISCONNECT (R179). -/
def runQpDisconnect (fn q : Nat) (s : State) : Result :=
  s.ends (s.qpcCmd fn fun s => s.qpDisconnect fn q)

/-- QP_RESET (R179). -/
def runQpReset (fn q : Nat) (s : State) : Result :=
  s.ends (s.qpcCmd fn fun s => s.qpReset fn q)

/-- QP_DESTROY (R179). -/
def runQpDestroy (fn q : Nat) (s : State) : Result :=
  s.ends (s.qpcCmd fn fun s => s.qpDestroy fn q)

/-- QP_QUERY (R179). -/
def runQpQuery (fn q : Nat) (s : State) : Result :=
  s.ends (s.qpcCmd fn fun s => s.qpQuery fn q)

/-- CONNECT_RESEND (R180). -/
def runConnectResend (q : Nat) (s : State) : Result :=
  s.ends (s.connectResend q)

/-- CONNECT_TIMEOUT (R180). -/
def runConnectTimeout (q : Nat) (s : State) : Result :=
  s.ends (s.connectTimeout q)

/-- RTO_EXPIRY (R196). -/
def runRtoExpiry (q psn : Nat) (s : State) : Result :=
  s.ends (s.rtoExpiry q psn)

/-- TRANSPORT_TIMEOUT (R198). -/
def runTransportTimeout (q : Nat) (alive : Option Nat) (s : State) : Result :=
  s.ends (s.transportTimeout q alive)

/-- NOT_READY_RETRY (R206). -/
def runNotReadyRetry (q psn : Nat) (s : State) : Result :=
  s.ends (s.notReadyRetry q psn)

/-- PROBE_TIMER (R197). -/
def runProbeTimer (q : Nat) (s : State) : Result :=
  s.ends (s.probeTimer q)

/-- ACK_TIMER (R193). -/
def runAckTimer (q : Nat) (s : State) : Result :=
  s.ends (s.ackTimer q)

/-- RESPONSE_RESEND (R203). -/
def runResponseResend (q psn : Nat) (s : State) : Result :=
  s.ends (s.responseResend q psn)

/-- NOTICE_RESEND (R207). -/
def runNoticeResend (q : Nat) (s : State) : Result :=
  s.ends (s.noticeResend q)

/-- QPC_MISS_FILL (R177). -/
def runQpcMissFill (q : Nat) (s : State) : Result :=
  s.ends (s.missFill q)

/-- ROCE_REQUEST (R208). -/
def runRoceRequest (p : RocePkt) (a : Arrival) (s : State) : Result :=
  s.ends (s.roceOf (roceIsRequest p.op) p a)

/-- ROCE_RESPONSE (R208). -/
def runRoceResponse (p : RocePkt) (a : Arrival) (s : State) : Result :=
  s.ends (s.roceOf (roceIsAnswer p.op) p a)

/-- CNP (R216). -/
def runCnp (p : RocePkt) (a : Arrival) (s : State) : Result :=
  s.ends (s.roceOf (p.op == .cnp) p a)

end Machine
end Sys2Proof
end

