-- ==== Sys2Proof/Machine/ValirExec.lean ====
section
/-! DEFINITION. The commands of one family: The Valir fabric (R242 to R277). -/

namespace Sys2Proof
namespace Machine

/-- VL_SIGNAL_DETECT (R255). -/
def runVlSignalDetect (link lanes : Nat) (s : State) : Result :=
  s.ends (s.taken (execVlSignalDetect link lanes s))

/-- VL_LOCK (R255). -/
def runVlLock (link : Nat) (s : State) : Result :=
  s.ends (s.taken (execVlLock link s))

/-- CODEWORD_LOCK (R255). -/
def runCodewordLock (link : Nat) (lock : LaneLock) (s : State) : Result :=
  s.ends (s.taken (execCodewordLock link lock s))

/-- PARAM (R256). -/
def runParam (link node plink lanes topo rtt : Nat) (ready : Bool) (s : State) : Result :=
  s.ends (s.taken (execParam link node plink lanes topo rtt ready s))

/-- VL_STEP_TIMEOUT (R255). -/
def runVlStepTimeout (link : Nat) (s : State) : Result :=
  s.ends (s.taken (execVlStepTimeout link s))

/-- VL_HOLD_EXPIRY (R255). -/
def runVlHoldExpiry (link : Nat) (s : State) : Result :=
  s.ends (s.taken (execVlHoldExpiry link s))

/-- LANE_FAULT (R257). -/
def runLaneFault (link lanes : Nat) (s : State) : Result :=
  s.ends (s.taken (execLaneFault link lanes s))

/-- RETRAIN (R257). -/
def runRetrain (org : Origin) (link : Nat) (s : State) : Result :=
  s.ends (s.taken (execRetrain org link s))

/-- RETRAIN_TIMEOUT (R257). -/
def runRetrainTimeout (link lanes : Nat) (s : State) : Result :=
  s.ends (s.taken (execRetrainTimeout link lanes s))

/-- LANES_GOOD (R257). -/
def runLanesGood (link lanes : Nat) (s : State) : Result :=
  s.ends (s.taken (execLanesGood link lanes s))

/-- UNCORRECTABLE_CODEWORD (R251). -/
def runUncorrectableCodeword (link : Nat) (s : State) : Result :=
  s.ends (s.taken (execUncorrectableCodeword link s))

/-- STATUS_FLIT (R249). -/
def runStatusFlit (link : Nat) (f : LinkFlit) (s : State) : Result :=
  s.ends (s.taken (execStatusFlit link f s))

/-- RETRY_REQ (R252). -/
def runRetryReq (link req : Nat) (f : LinkFlit) (s : State) : Result :=
  s.ends (s.taken (execRetryReq link req f s))

/-- RETRY_REQ_RESEND (R251). -/
def runRetryReqResend (link : Nat) (s : State) : Result :=
  s.ends (s.taken (execRetryReqResend link s))

/-- REPLAY_START (R251). -/
def runReplayStart (link req : Nat) (f : LinkFlit) (s : State) : Result :=
  s.ends (s.taken (execReplayStart link req f s))

/-- TIME (R248). -/
def runTime (link secs ns : Nat) (sync : Bool) (f : LinkFlit) (s : State) : Result :=
  s.ends (s.taken (execTime link secs ns sync f s))

/-- TIME_FLIT_SEND (R248). -/
def runTimeFlitSend (s : State) : Result :=
  s.ends (s.taken (execTimeFlitSend s))

/-- PACKET_HEAD (R263). -/
def runPacketHead (inp : Option Nat) (vc : Nat) (h : VHdr) (intact : Bool) (s : State) : Result :=
  s.ends (s.taken (execPacketHead inp vc h intact (s.vlBytes inp h)))

/-- E2E_CREDIT (R269). -/
def runE2eCredit (src count epoch : Nat) (fresh : Bool) (s : State) : Result :=
  s.ends (s.taken (execE2eCredit src count epoch fresh s))

/-- E2E_DROP (R269). -/
def runE2eDrop (dst count epoch : Nat) (s : State) : Result :=
  s.ends (s.taken (execE2eDrop dst count epoch s))

/-- E2E_CREDIT_TIMER (R269). -/
def runE2eCreditTimer (src : Nat) (s : State) : Result :=
  s.ends (s.taken (execE2eCreditTimer src s))

/-- E2E_DROP_COALESCE (R266). -/
def runE2eDropCoalesce (src : Nat) (s : State) : Result :=
  s.ends (s.taken (execE2eDropCoalesce src s))

/-- E2E_TIMEOUT (R270). -/
def runE2eTimeout (dst : Nat) (s : State) : Result :=
  s.ends (s.taken (execE2eTimeout dst s))

end Machine
end Sys2Proof
end

