-- ==== Sys2Proof/Machine/Meanings.lean ====
section
/-! DEFINITION. Every family of commands, for the dispatch. -/
end

