-- ==== Sys2Proof/Machine/Dispatch.lean ====
section
/-! DEFINITION. One arm per command: the effect of a command on everything but the queue. -/

namespace Sys2Proof
namespace Machine

/-- The meaning of every command. -/
def exec (i : Instr) (s : State) : Host.Outcome State Fault Refusal :=
  match i with
  | .registerWrite org sp off v => Sys2Proof.Machine.runRegisterWrite org sp off v s
  | .irregularAccess org sp off len tag write => Sys2Proof.Machine.runIrregularAccess org sp off len tag write s
  | .rcRead org sp off tag => Sys2Proof.Machine.runRcRead org sp off tag s
  | .ftSRead => Sys2Proof.Machine.runFtSRead s
  | .ftStep org off => Sys2Proof.Machine.runFtStep org off s
  | .ftDisciplinePeriod => Sys2Proof.Machine.runFtDisciplinePeriod s
  | .ftSyncTimeout => Sys2Proof.Machine.runFtSyncTimeout s
  | .masterLockLost => Sys2Proof.Machine.runMasterLockLost s
  | .refclkLost => Sys2Proof.Machine.runRefclkLost s
  | .powerUp org d => Sys2Proof.Machine.runPowerUp org d s
  | .powerDown req d => Sys2Proof.Machine.runPowerDown req d s
  | .domainSettled d => Sys2Proof.Machine.runDomainSettled d s
  | .avenueLinkFailed bundle link => Sys2Proof.Machine.runAvenueLinkFailed bundle link s
  | .apertureRead fn tag ao len => Sys2Proof.Machine.runApertureRead fn tag ao len s
  | .apertureWrite fn ao data => Sys2Proof.Machine.runApertureWrite fn ao data s
  | .apertureAtomic fn tag ao kind a b => Sys2Proof.Machine.runApertureAtomic fn tag ao kind a b s
  | .apertureResponse fn tag ao st data => Sys2Proof.Machine.runApertureResponse fn tag ao st data s
  | .readDeadline fn tag => Sys2Proof.Machine.runReadDeadline fn tag s
  | .apertureCommit fn v => Sys2Proof.Machine.runApertureCommit fn v s
  | .apertureCommitDone fn => Sys2Proof.Machine.runApertureCommitDone fn s
  | .aptFence fn => Sys2Proof.Machine.runAptFence fn s
  | .aptFenceDone fn => Sys2Proof.Machine.runAptFenceDone fn s
  | .tableWalkDone fn ha acc words => Sys2Proof.Machine.runTableWalkDone fn ha acc words s
  | .invalRange org e pages => Sys2Proof.Machine.runInvalRange org e pages s
  | .invalFunction org e => Sys2Proof.Machine.runInvalFunction org e s
  | .invalAll org e => Sys2Proof.Machine.runInvalAll org e s
  | .invalDone e => Sys2Proof.Machine.runInvalDone e s
  | .faultBatchTimeout fn => Sys2Proof.Machine.runFaultBatchTimeout fn s
  | .replay fn upto => Sys2Proof.Machine.runReplay fn upto s
  | .replayAbort fn upto => Sys2Proof.Machine.runReplayAbort fn upto s
  | .acClear fn v => Sys2Proof.Machine.runAcClear fn v s
  | .acDecay fn => Sys2Proof.Machine.runAcDecay fn s
  | .pcieLinkTrained l rate width => Sys2Proof.Machine.runPcieLinkTrained l rate width s
  | .pcieLinkDown l => Sys2Proof.Machine.runPcieLinkDown l s
  | .linkDownTimeout l => Sys2Proof.Machine.runLinkDownTimeout l s
  | .fundamentalReset l => Sys2Proof.Machine.runFundamentalReset l s
  | .perstDeassert l => Sys2Proof.Machine.runPerstDeassert l s
  | .hotReset l => Sys2Proof.Machine.runHotReset l s
  | .hostWatchdogExpiry l => Sys2Proof.Machine.runHostWatchdogExpiry l s
  | .wdogRestart fn => Sys2Proof.Machine.runWdogRestart fn s
  | .busMasterDisable fn => Sys2Proof.Machine.runBusMasterDisable fn s
  | .busMasterEnable fn => Sys2Proof.Machine.runBusMasterEnable fn s
  | .flr fn => Sys2Proof.Machine.runFlr fn s
  | .vfEnableClear pf => Sys2Proof.Machine.runVfEnableClear pf s
  | .functionResetDone fn => Sys2Proof.Machine.runFunctionResetDone fn s
  | .functionWedged fn => Sys2Proof.Machine.runFunctionWedged fn s
  | .completionTimeout l tag => Sys2Proof.Machine.runCompletionTimeout l tag s
  | .hostCompletion l tag data => Sys2Proof.Machine.runHostCompletion l tag data s
  | .graceExpiry l => Sys2Proof.Machine.runGraceExpiry l s
  | .attach fn token => Sys2Proof.Machine.runAttach fn token s
  | .configRequest fn r => Sys2Proof.Machine.runConfigRequest fn r s
  | .msixUnmask fn vec => Sys2Proof.Machine.runMsixUnmask fn vec s
  | .doorbell fn q t => Sys2Proof.Machine.runDoorbell fn q t s
  | .descriptorFetch fn q data => Sys2Proof.Machine.runDescriptorFetch fn q data s
  | .fetchRetry fn q data => Sys2Proof.Machine.runFetchRetry fn q data s
  | .prefetchPoll fn q data => Sys2Proof.Machine.runPrefetchPoll fn q data s
  | .queueEnable fn v => Sys2Proof.Machine.runQueueEnable fn v s
  | .qInvalSlot org q slot => Sys2Proof.Machine.runQInvalSlot org q slot s
  | .qInvalQueue org q => Sys2Proof.Machine.runQInvalQueue org q s
  | .qInvalAll org => Sys2Proof.Machine.runQInvalAll org s
  | .qInvalDone => Sys2Proof.Machine.runQInvalDone s
  | .nop r => Sys2Proof.Machine.runNop r s
  | .copy r => Sys2Proof.Machine.runCopy r s
  | .flushHost r => Sys2Proof.Machine.runFlushHost r s
  | .fenceHost r => Sys2Proof.Machine.runFenceHost r s
  | .cvtA2f r => Sys2Proof.Machine.runCvtA2f r s
  | .cvtF2a r => Sys2Proof.Machine.runCvtF2a r s
  | .cvtA2fArray r => Sys2Proof.Machine.runCvtA2fArray r s
  | .cvtF2aArray r => Sys2Proof.Machine.runCvtF2aArray r s
  | .write r => Sys2Proof.Machine.runWrite r s
  | .read r => Sys2Proof.Machine.runRead r s
  | .send r => Sys2Proof.Machine.runSend r s
  | .recv r => Sys2Proof.Machine.runRecv r s
  | .fadd r => Sys2Proof.Machine.runFadd r s
  | .cas64 r => Sys2Proof.Machine.runCas64 r s
  | .cas128 r => Sys2Proof.Machine.runCas128 r s
  | .tsRead r => Sys2Proof.Machine.runTsRead r s
  | .tsSet r => Sys2Proof.Machine.runTsSet r s
  | .tsAdd r => Sys2Proof.Machine.runTsAdd r s
  | .tsCas r => Sys2Proof.Machine.runTsCas r s
  | .tsWait r => Sys2Proof.Machine.runTsWait r s
  | .tsAddWait r => Sys2Proof.Machine.runTsAddWait r s
  | .tsAcquire r => Sys2Proof.Machine.runTsAcquire r s
  | .tsTry r => Sys2Proof.Machine.runTsTry r s
  | .tsRelease r => Sys2Proof.Machine.runTsRelease r s
  | .tsHandover r => Sys2Proof.Machine.runTsHandover r s
  | .tsAbandon r => Sys2Proof.Machine.runTsAbandon r s
  | .armThreshold r => Sys2Proof.Machine.runArmThreshold r s
  | .armSendTag r => Sys2Proof.Machine.runArmSendTag r s
  | .stepLoad r => Sys2Proof.Machine.runStepLoad r s
  | .stepStart r => Sys2Proof.Machine.runStepStart r s
  | .winCreate fn => Sys2Proof.Machine.runWinCreate fn s
  | .winRevoke fn key => Sys2Proof.Machine.runWinRevoke fn key s
  | .winDestroy fn key => Sys2Proof.Machine.runWinDestroy fn key s
  | .winImport fn key => Sys2Proof.Machine.runWinImport fn key s
  | .winForget fn key => Sys2Proof.Machine.runWinForget fn key s
  | .winQueryCmd fn key => Sys2Proof.Machine.runWinQueryCmd fn key s
  | .revocationDone n => Sys2Proof.Machine.runRevocationDone n s
  | .requestPacket p a => Sys2Proof.Machine.runRequestPacket p a s
  | .responsePacket p a => Sys2Proof.Machine.runResponsePacket p a s
  | .ack p a => Sys2Proof.Machine.runAck p a s
  | .nak p a => Sys2Proof.Machine.runNak p a s
  | .waiting p a => Sys2Proof.Machine.runWaiting p a s
  | .connect p a => Sys2Proof.Machine.runConnect p a s
  | .accept p a => Sys2Proof.Machine.runAccept p a s
  | .refuse p a => Sys2Proof.Machine.runRefuse p a s
  | .close p a => Sys2Proof.Machine.runClose p a s
  | .resetNotice p a => Sys2Proof.Machine.runResetNotice p a s
  | .winQuery p a => Sys2Proof.Machine.runWinQuery p a s
  | .winInfo p a => Sys2Proof.Machine.runWinInfo p a s
  | .winQueryResend q => Sys2Proof.Machine.runWinQueryResend q s
  | .pathProbe p a => Sys2Proof.Machine.runPathProbe p a s
  | .qpCreate fn => Sys2Proof.Machine.runQpCreate fn s
  | .qpConnect fn q => Sys2Proof.Machine.runQpConnect fn q s
  | .qpDisconnect fn q => Sys2Proof.Machine.runQpDisconnect fn q s
  | .qpReset fn q => Sys2Proof.Machine.runQpReset fn q s
  | .qpDestroy fn q => Sys2Proof.Machine.runQpDestroy fn q s
  | .qpQuery fn q => Sys2Proof.Machine.runQpQuery fn q s
  | .connectResend q => Sys2Proof.Machine.runConnectResend q s
  | .connectTimeout q => Sys2Proof.Machine.runConnectTimeout q s
  | .rtoExpiry q psn => Sys2Proof.Machine.runRtoExpiry q psn s
  | .transportTimeout q alive => Sys2Proof.Machine.runTransportTimeout q alive s
  | .notReadyRetry q psn => Sys2Proof.Machine.runNotReadyRetry q psn s
  | .probeTimer q => Sys2Proof.Machine.runProbeTimer q s
  | .ackTimer q => Sys2Proof.Machine.runAckTimer q s
  | .responseResend q psn => Sys2Proof.Machine.runResponseResend q psn s
  | .noticeResend q => Sys2Proof.Machine.runNoticeResend q s
  | .qpcMissFill q => Sys2Proof.Machine.runQpcMissFill q s
  | .roceRequest p a => Sys2Proof.Machine.runRoceRequest p a s
  | .roceResponse p a => Sys2Proof.Machine.runRoceResponse p a s
  | .cnp p a => Sys2Proof.Machine.runCnp p a s
  | .refillTick => Sys2Proof.Machine.runRefillTick s
  | .epochEnd q => Sys2Proof.Machine.runEpochEnd q s
  | .queueSample => Sys2Proof.Machine.runQueueSample s
  | .clearDebt org => Sys2Proof.Machine.runClearDebt org s
  | .vlSignalDetect link lanes => Sys2Proof.Machine.runVlSignalDetect link lanes s
  | .vlLock link => Sys2Proof.Machine.runVlLock link s
  | .codewordLock link lock => Sys2Proof.Machine.runCodewordLock link lock s
  | .param link node plink lanes topo rtt ready => Sys2Proof.Machine.runParam link node plink lanes topo rtt ready s
  | .vlStepTimeout link => Sys2Proof.Machine.runVlStepTimeout link s
  | .vlHoldExpiry link => Sys2Proof.Machine.runVlHoldExpiry link s
  | .laneFault link lanes => Sys2Proof.Machine.runLaneFault link lanes s
  | .retrain org link => Sys2Proof.Machine.runRetrain org link s
  | .retrainTimeout link lanes => Sys2Proof.Machine.runRetrainTimeout link lanes s
  | .uncorrectableCodeword link => Sys2Proof.Machine.runUncorrectableCodeword link s
  | .statusFlit link f => Sys2Proof.Machine.runStatusFlit link f s
  | .retryReq link req f => Sys2Proof.Machine.runRetryReq link req f s
  | .retryReqResend link => Sys2Proof.Machine.runRetryReqResend link s
  | .replayStart link req f => Sys2Proof.Machine.runReplayStart link req f s
  | .time link secs ns sync f => Sys2Proof.Machine.runTime link secs ns sync f s
  | .timeFlitSend => Sys2Proof.Machine.runTimeFlitSend s
  | .packetHead inp vc h intact => Sys2Proof.Machine.runPacketHead inp vc h intact s
  | .e2eCredit src count epoch fresh => Sys2Proof.Machine.runE2eCredit src count epoch fresh s
  | .e2eDrop dst count epoch => Sys2Proof.Machine.runE2eDrop dst count epoch s
  | .e2eCreditTimer src => Sys2Proof.Machine.runE2eCreditTimer src s
  | .e2eDropCoalesce src => Sys2Proof.Machine.runE2eDropCoalesce src s
  | .e2eTimeout dst => Sys2Proof.Machine.runE2eTimeout dst s
  | .frameReceived port data room => Sys2Proof.Machine.runFrameReceived port data room s
  | .anResolved port phy => Sys2Proof.Machine.runAnResolved port phy s
  | .anTimeout port => Sys2Proof.Machine.runAnTimeout port s
  | .linkTrainingDone port => Sys2Proof.Machine.runLinkTrainingDone port s
  | .linkTrainingTimeout port => Sys2Proof.Machine.runLinkTrainingTimeout port s
  | .alignLock port lpi => Sys2Proof.Machine.runAlignLock port lpi s
  | .alignTimeout port => Sys2Proof.Machine.runAlignTimeout port s
  | .localFault port => Sys2Proof.Machine.runLocalFault port s
  | .remoteFault port => Sys2Proof.Machine.runRemoteFault port s
  | .remoteFaultClear port => Sys2Proof.Machine.runRemoteFaultClear port s
  | .enHoldExpiry port => Sys2Proof.Machine.runEnHoldExpiry port s
  | .extTail org tail => Sys2Proof.Machine.runExtTail org tail s
  | .exceptionFrameSent port => Sys2Proof.Machine.runExceptionFrameSent port s
  | .txUnderrun port => Sys2Proof.Machine.runTxUnderrun port s
  | .txThreshDecay port => Sys2Proof.Machine.runTxThreshDecay port s
  | .configChange org port => Sys2Proof.Machine.runConfigChange org port s
  | .gateChangeTime port => Sys2Proof.Machine.runGateChangeTime port s
  | .gateIntervalEnd port => Sys2Proof.Machine.runGateIntervalEnd port s
  | .lpiEntry port => Sys2Proof.Machine.runLpiEntry port s
  | .stepNop b => Sys2Proof.Machine.runStepNop b s
  | .endStep b => Sys2Proof.Machine.runEnd b s
  | .loop b => Sys2Proof.Machine.runLoop b s
  | .setar b => Sys2Proof.Machine.runSetar b s
  | .mload b => Sys2Proof.Machine.runMload b s
  | .mstore b => Sys2Proof.Machine.runMstore b s
  | .memoryStepDone b id moved => Sys2Proof.Machine.runMemoryStepDone b id moved s
  | .rbind b => Sys2Proof.Machine.runRbind b s
  | .rbindDone b => Sys2Proof.Machine.runRbindDone b s
  | .rrelease b => Sys2Proof.Machine.runRrelease b s
  | .rreleaseDone b => Sys2Proof.Machine.runRreleaseDone b s
  | .mma b => Sys2Proof.Machine.runMma b s
  | .vopAdd b => Sys2Proof.Machine.runVopAdd b s
  | .vopSub b => Sys2Proof.Machine.runVopSub b s
  | .vopMul b => Sys2Proof.Machine.runVopMul b s
  | .vopFma b => Sys2Proof.Machine.runVopFma b s
  | .vopMin b => Sys2Proof.Machine.runVopMin b s
  | .vopMax b => Sys2Proof.Machine.runVopMax b s
  | .vopAbs b => Sys2Proof.Machine.runVopAbs b s
  | .vopNeg b => Sys2Proof.Machine.runVopNeg b s
  | .vopCmpEq b => Sys2Proof.Machine.runVopCmpEq b s
  | .vopCmpLt b => Sys2Proof.Machine.runVopCmpLt b s
  | .vopCmpLe b => Sys2Proof.Machine.runVopCmpLe b s
  | .vopSel b => Sys2Proof.Machine.runVopSel b s
  | .vopDiv b => Sys2Proof.Machine.runVopDiv b s
  | .vopSqrt b => Sys2Proof.Machine.runVopSqrt b s
  | .vopRcp b => Sys2Proof.Machine.runVopRcp b s
  | .vopRsqrt b => Sys2Proof.Machine.runVopRsqrt b s
  | .vopExp2 b => Sys2Proof.Machine.runVopExp2 b s
  | .vopLog2 b => Sys2Proof.Machine.runVopLog2 b s
  | .vopRedSum b => Sys2Proof.Machine.runVopRedSum b s
  | .vopRedMax b => Sys2Proof.Machine.runVopRedMax b s
  | .vopCvt b => Sys2Proof.Machine.runVopCvt b s
  | .floadT2Codebook b => Sys2Proof.Machine.runFloadT2Codebook b s
  | .floadT4Codebook b => Sys2Proof.Machine.runFloadT4Codebook b s
  | .floadProductTable b => Sys2Proof.Machine.runFloadProductTable b s
  | .stepTsWait b => Sys2Proof.Machine.runStepTsWait b s
  | .stepTsAdd b => Sys2Proof.Machine.runStepTsAdd b s
  | .stepCvtA2f b => Sys2Proof.Machine.runStepCvtA2f b s
  | .stepCvtF2a b => Sys2Proof.Machine.runStepCvtF2a b s
  | .pause org sp b => Sys2Proof.Machine.runPause org sp b s
  | .pauseDrained b => Sys2Proof.Machine.runPauseDrained b s
  | .resume org sp b => Sys2Proof.Machine.runResume org sp b s
  | .blockOutOfService b => Sys2Proof.Machine.runBlockOutOfService b s
  | .allReduce r => Sys2Proof.Machine.runAllReduce r s
  | .reduceScatter r => Sys2Proof.Machine.runReduceScatter r s
  | .allGather r => Sys2Proof.Machine.runAllGather r s
  | .broadcast r => Sys2Proof.Machine.runBroadcast r s
  | .allToAll r => Sys2Proof.Machine.runAllToAll r s
  | .barrier r => Sys2Proof.Machine.runBarrier r s
  | .collTimeout r => Sys2Proof.Machine.runCollTimeout r s
  | .squareWordBeyondEcc slice id chunk => Sys2Proof.Machine.runSquareWordBeyondEcc slice id chunk s
  | .scrub stack line o byScrub => Sys2Proof.Machine.runScrub stack line o byScrub s
  | .refresh bank => Sys2Proof.Machine.runRefresh bank s
  | .laneRepairDone stack pc => Sys2Proof.Machine.runLaneRepairDone stack pc s
  | .install fn v arg0 => Sys2Proof.Machine.runInstall fn v arg0 s
  | .setTx fn v => Sys2Proof.Machine.runSetTx fn v s
  | .retire fn v => Sys2Proof.Machine.runRetire fn v s
  | .erase fn v => Sys2Proof.Machine.runErase fn v s
  | .tag fn v => Sys2Proof.Machine.runTag fn v s
  | .tagPageDone fn => Sys2Proof.Machine.runTagPageDone fn s
  | .authTagResult q n => Sys2Proof.Machine.runAuthTagResult q n s
  | .cipherParityFault xts fn idx => Sys2Proof.Machine.runCipherParityFault xts fn idx s
  | .icEnable org sp ch => Sys2Proof.Machine.runIcEnable org sp ch s
  | .icDisable org sp ch => Sys2Proof.Machine.runIcDisable org sp ch s
  | .icExpectationPush org sp ch val => Sys2Proof.Machine.runIcExpectationPush org sp ch val s
  | .fnCreate org fn => Sys2Proof.Machine.runFnCreate org fn s
  | .fnDestroy org fn => Sys2Proof.Machine.runFnDestroy org fn s
  | .setLimit org fn res => Sys2Proof.Machine.runSetLimit org fn res s
  | .give org fn res => Sys2Proof.Machine.runGive org fn res s
  | .take org fn res => Sys2Proof.Machine.runTake org fn res s
  | .vfReset org fn => Sys2Proof.Machine.runVfReset org fn s
  | .dlSwap org fn => Sys2Proof.Machine.runDlSwap org fn s
  | .kskSet org fn => Sys2Proof.Machine.runKskSet org fn s
  | .pageZeroed page => Sys2Proof.Machine.runPageZeroed page s
  | .kioskPost fn => Sys2Proof.Machine.runKioskPost fn s
  | .rspTailDoorbell org fn idx => Sys2Proof.Machine.runRspTailDoorbell org fn idx s
  | .reqHeadDoorbell org fn idx => Sys2Proof.Machine.runReqHeadDoorbell org fn idx s
  | .rxPop fn => Sys2Proof.Machine.runRxPop fn s
  | .sramWordBeyondEcc mem inst w => Sys2Proof.Machine.runSramWordBeyondEcc mem inst w s
  | .journalRecordBeyondEcc n => Sys2Proof.Machine.runJournalRecordBeyondEcc n s
  | .pipelineParityEvent k again => Sys2Proof.Machine.runPipelineParityEvent k again s
  | .routerParityEvent => Sys2Proof.Machine.runRouterParityEvent s
  | .avenueStopFault => Sys2Proof.Machine.runAvenueStopFault s
  | .enterEqual org => Sys2Proof.Machine.runEnterEqual org s
  | .leaveEqual org => Sys2Proof.Machine.runLeaveEqual org s
  | .drain org => Sys2Proof.Machine.runDrain org s
  | .drainEnd timeout => Sys2Proof.Machine.runDrainEnd timeout s
  | .drainResetTimer => Sys2Proof.Machine.runDrainResetTimer s
  | .recSel org n => Sys2Proof.Machine.runRecSel org n s
  | .vaonUp => Sys2Proof.Machine.runVaonUp s
  | .vaonLoss => Sys2Proof.Machine.runVaonLoss s
  | .porNAssert => Sys2Proof.Machine.runPorNAssert s
  | .porNDeassert => Sys2Proof.Machine.runPorNDeassert s
  | .railOutOfTolerance => Sys2Proof.Machine.runRailOutOfTolerance s
  | .resetNAssert => Sys2Proof.Machine.runResetNAssert s
  | .resetNDeassert => Sys2Proof.Machine.runResetNDeassert s
  | .startStepComplete n ms x => Sys2Proof.Machine.runStartStepComplete n ms x s
  | .deviceReset org confirm => Sys2Proof.Machine.runDeviceReset org confirm s
  | .release org ms => Sys2Proof.Machine.runRelease org ms s
  | .releaseTimeout ms => Sys2Proof.Machine.runReleaseTimeout ms s
  | .clearUcal org => Sys2Proof.Machine.runClearUcal org s
  | .stage org => Sys2Proof.Machine.runStage org s
  | .verify org fw img ucal => Sys2Proof.Machine.runVerify org fw img ucal s
  | .fwArm org => Sys2Proof.Machine.runFwArm org s
  | .cancel org => Sys2Proof.Machine.runCancel org s
  | .confirm org => Sys2Proof.Machine.runConfirm org s
  | .rollback org => Sys2Proof.Machine.runRollback org s
  | .setManagerPort sess port => Sys2Proof.Machine.runSetManagerPort sess port s
  | .fuseOwnerKey sess m => Sys2Proof.Machine.runFuseOwnerKey sess m s
  | .revokeOwnerKey sess slot => Sys2Proof.Machine.runRevokeOwnerKey sess slot s
  | .setKek m => Sys2Proof.Machine.runSetKek m s
  | .activation => Sys2Proof.Machine.runActivation s
  | .confirmTimeout => Sys2Proof.Machine.runConfirmTimeout s
  | .getVersion => Sys2Proof.Machine.runGetVersion s
  | .getCapabilities => Sys2Proof.Machine.runGetCapabilities s
  | .negotiateAlgorithms => Sys2Proof.Machine.runNegotiateAlgorithms s
  | .getDigests => Sys2Proof.Machine.runGetDigests s
  | .getCertificate slot => Sys2Proof.Machine.runGetCertificate slot s
  | .challenge slot => Sys2Proof.Machine.runChallenge slot s
  | .getMeasurements idx => Sys2Proof.Machine.runGetMeasurements idx s
  | .keyExchange id slot => Sys2Proof.Machine.runKeyExchange id slot s
  | .finish id good owner => Sys2Proof.Machine.runFinish id good owner s
  | .heartbeat id => Sys2Proof.Machine.runHeartbeat id s
  | .keyUpdate id => Sys2Proof.Machine.runKeyUpdate id s
  | .endSession id => Sys2Proof.Machine.runEndSession id s
  | .oobDcsAccess off write => Sys2Proof.Machine.runOobDcsAccess off write s
  | .pldmRequest r => Sys2Proof.Machine.runPldmRequest r s
  | .i3cDynamicAddress addr => Sys2Proof.Machine.runI3cDynamicAddress addr s
  | .sensorUpdate n t => Sys2Proof.Machine.runSensorUpdate n t s
  | .thermalTrip => Sys2Proof.Machine.runThermalTrip s
  | .governorWindowEnd power => Sys2Proof.Machine.runGovernorWindowEnd power s
  | .atFloorTimeout => Sys2Proof.Machine.runAtFloorTimeout s
  | .selfTestSlice kind target busy e => Sys2Proof.Machine.runSelfTestSlice kind target busy e s
  | .sliceRetry kind target busy e => Sys2Proof.Machine.runSliceRetry kind target busy e s
  | .fuse org confirm => Sys2Proof.Machine.runFuse org confirm s
  | .bwWindowEnd m => Sys2Proof.Machine.runBwWindowEnd m s
  | .uartFrame samples => Sys2Proof.Machine.runUartFrame samples s
  | .uartTx org b => Sys2Proof.Machine.runUartTx org b s
  | .lanesGood link lanes => Sys2Proof.Machine.runLanesGood link lanes s
  | .internalResetPulseEnd => Sys2Proof.Machine.runInternalResetPulseEnd s
  | .tagReuse l tag => Sys2Proof.Machine.runTagReuse l tag s
  | .commandInterfaceFailure stack pc => Sys2Proof.Machine.runCommandInterfaceFailure stack pc s
  | .mctpControl r => Sys2Proof.Machine.runMctpControl r s
  | .receiveLpi port => Sys2Proof.Machine.runReceiveLpi port s
  | .lpiWake port => Sys2Proof.Machine.runLpiWake port s
  | .phyPllLockLost kind n locked => Sys2Proof.Machine.runPhyPllLockLost kind n locked s
  | .boundaryScan x => Sys2Proof.Machine.runBoundaryScan x s

end Machine
end Sys2Proof
end

