-- ==== Sys2Proof/Safety.lean ====
section
/-! DEFINITION. What a safe run keeps, and the words in which statements say what a command leaves unchanged. -/

namespace Sys2Proof
namespace Machine

/-- The invariant of the block: the memory is listed in its canonical form. -/
def State.Inv (s : State) : Prop := Memory.wf s.mem = true

/-- A step is safe when it answers a next state: the block neither faults nor refuses. -/
def answersNext (r : Result) : Prop := ∃ t, r = .next t

/-- Every byte of HBM reads in t as in s. -/
def memKept (s t : State) : Prop := ∀ a, readByte t.mem a = readByte s.mem a

/-- Every byte of HBM outside the n bytes from a reads in t as in s. -/
def memKeptBut (a n : Nat) (s t : State) : Prop := ∀ c, c < a ∨ a + n ≤ c → readByte t.mem c = readByte s.mem c

/-- Every field of every register but those named reads in t as in s. -/
def regsKept (rs : List Reg) (s t : State) : Prop :=
  ∀ (f : Fld) (o e : Nat), f.pos e < 64 → f.reg ∉ rs → t.fld f o e = s.fld f o e

/-- An invalidation by an engine has begun: BUSY is set; of the cached translations those of the functions named that overlap the range from
lo to hi are gone, no other, and with them the walk-cache entries of the functions; their walks in flight are marked to be discarded; and
nothing else changes but that operations and QPs may hold fewer translations (R86). -/
def invalidates (s t : State) (e : XlPort) (fns : List Nat) (lo hi : Nat) : Prop :=
  t.flag F.xlInvalStatusBusy (engKey e) = true ∧
    (∀ l e, (l, .ha e) ∈ t.tlb ↔ (l, .ha e) ∈ s.tlb ∧ ¬(e.fn ∈ fns ∧ e.ha < hi ∧ lo < e.ha + e.size)) ∧
    (∀ l x, (∀ e, x ≠ .ha e) → ((l, x) ∈ t.tlb ↔ (l, x) ∈ s.tlb)) ∧
    (∀ x, x ∈ t.walkCache ↔ x ∈ s.walkCache ∧ x.fn ∉ fns) ∧
    t.walks = s.walks.map (fun w => if w.started ∧ fns.contains w.fn then { w with stale := true } else w) ∧
    t.ops.map (fun o => { o with xl := [] }) = s.ops.map (fun o => { o with xl := [] }) ∧
    t.qps.map (fun e => (e.1, { e.2 with xl := [] })) = s.qps.map (fun e => (e.1, { e.2 with xl := [] })) ∧
    (∃ v, AMap.find t.invals (engKey e) = some v ∧ v.fns = fns ∧ v.lo = lo ∧ v.hi = hi) ∧ regsKept [.xlInvalStatus] s t ∧ memKept s t ∧
    t = { s with flds := t.flds, tlb := t.tlb, invals := t.invals, mem := t.mem, walkCache := t.walkCache, walks := t.walks, ops := t.ops,
                 qps := t.qps }

/-- The walk k in flight for a page as TABLE_WALK_DONE ends it, with the entries that were read from host tables. -/
def Walk.over (k : Walk) (words : List (Option Nat)) : Walk := { k with words := words, ended := true }

/-- TABLE_WALK_DONE names the walk k, the only one of its page, and every read that it needs with these entries has left (R81, R236). -/
def State.walkComes (s : State) (fn ha : Nat) (acc : Access) (words : List (Option Nat)) (k : Walk) : Prop :=
  s.walkInFlight fn ha acc = some k ∧ (∀ x, x ∈ s.walks → x.fn = k.fn → x.page = k.page → x = k) ∧ s.walkSent (k.over words) = true

/-- The state without a walk that is over: no invalidation waits for it any more. -/
def State.walkLess (s : State) (k : Walk) : State := State.walkGone { s with walks := s.walks.filter fun x => x != k } k.fn k.page

/-- No operation waits at a turnstile whose condition holds: thresholds lie above the value, and operations wait for the lock only while
it is held (R169, R170). -/
def Turnstile.sound (t : Turnstile) : Prop :=
  (∀ w, w ∈ t.waiters → ∀ th res, w.want = .value th res → t.value < th) ∧
    ((∃ w, w ∈ t.waiters ∧ w.want = .lock) → lstate t.owner = 1)

/-- The state in which a request to the aperture of a function is taken: its n bytes have been counted for the monitors of its port, its
payload by the host-port meter, and the request as an event (R232, R508, R510). -/
def State.aptSeen (s : State) (fn n : Nat) (r : AptReq) : State := ((s.bwRx fn n).aptMeter fn r).count fn 0x58 0

/-- What leaves the device from s to t is messages of vectors alone. -/
def onlySignals (s t : State) : Prop := ∃ es : List Output, t.out = es ++ s.out ∧ ∀ e ∈ es, ∃ fn vec, e = .msix fn vec

/-- A packet of a QP that arrives is taken at once: the receive path is open, its pipeline neither recovers nor has a full miss buffer nor
heads that are held back, the packet comes well formed, and the QP's context is on die (R177, R183). -/
def State.takes (s : State) (q : Nat) (a : Arrival) : Prop :=
  s.netOpen = true ∧ s.missFull q = false ∧ (s.pipe (q % 4)).recovering = 0 ∧ (s.pipe (q % 4)).heads = [] ∧ a.malformed = false ∧
    a.wire = none ∧ s.qpMissing q = false ∧ (s.pipe (q % 4)).holds q = true

/-- The state in which such a packet is taken: it has been counted, and its QP's context is the most recently used. -/
def State.contextUsed (s : State) (q : Nat) : State := ((s.countWrap F.tpPipeRxPkts (q % 4)).touch { qp := q }).2

/-- A plain SLT packet from the QP's peer, without encryption and without a congestion mark, that is taken at once: HBM holds none of its
accesses. -/
def State.takesSlt (s : State) (p : SltPkt) (a : Arrival) : Prop :=
  s.takes p.dstQp a ∧ s.headBusy { qp := p.dstQp, pkt := some (p, a) } = false ∧ (s.qp p.dstQp).fromPeer p = true ∧ p.enc = false ∧ (s.qp p.dstQp).enc = false ∧ a.ce = false

/-- A whole RoCEv2 packet for a QP that is up, without a congestion mark, that is taken at once: HBM holds none of its accesses. -/
def State.takesRoce (s : State) (p : RocePkt) (a : Arrival) : Prop :=
  s.takes p.dstQp a ∧ s.headBusy { qp := p.dstQp, roce := some (p, a) } = false ∧ (s.qp p.dstQp).roce = true ∧ (s.qp p.dstQp).up = true ∧ p.icrcOk = true ∧ a.ce = false

/-- The registers of a function's commands are open to it and its QP commands idle (R179). -/
def State.qpcOpen (s : State) (fn : Nat) : Prop := s.barOpen fn = true ∧ s.flag F.qpcStatusBusy fn = false

/-- A QP command has ended with a status (R179). -/
def State.qpcEnded (u : State) (fn : Nat) (st : Status) : Prop :=
  u.fld F.qpcStatusCode fn = st.code ∧ u.flag F.qpcStatusFail fn = (st != .ok) ∧ u.flag F.qpcStatusBusy fn = false

/-- No packet waits at a Valir link, is arriving on it, or lies in its ingress buffer (R249, R272). -/
def State.vlClear (s : State) (l : Nat) : Prop := (s.vlink l).queue = [] ∧ (s.vlink l).rx = [] ∧ s.vlHolds l = false

/-- A Valir link comes to a state: that link alone changes, and LINK_STATUS and LIVE show it (R255, R272). -/
def vlMoves (s u : State) (l : Nat) (x : VLink) : Prop :=
  u.vlink l = x ∧ (∀ k, k ≠ l → u.vlink k = s.vlink k) ∧ u.fld F.vlLinkStatusState l = x.state.code ∧
    bit (u.fld F.vlLiveLive) l = (x.state == .active || x.state == .degraded) ∧
    (∀ k, k < 16 → k ≠ l → bit (u.fld F.vlLiveLive) k = bit (s.fld F.vlLiveLive) k) ∧ memKept s u

/-- The state in which a frame that arrives on an Ethernet port is judged: its octets have counted for the monitors of the port, and the
codewords that come with it have been received (R278, R510). -/
def State.frameSeen (s : State) (p : Nat) (rx : EthRx) : State :=
  rx.cws.foldl (fun t w => t.enCodeword p w) (s.frameBytes p rx.bytes)

/-- An Ethernet port receives frames: it is in E_UP or E_RFAULT (Table 10.3). -/
def State.enHears (s : State) (p : Nat) : Prop := (s.eport p).state = .up ∨ (s.eport p).state = .rfault

/-- An Ethernet port comes to a state, which PORT_STATUS shows; its queue and its gates stay (R281). -/
def enMoves (s u : State) (p : Nat) (st : EState) : Prop :=
  u.eport p = { s.eport p with state := st } ∧ (∀ k, k ≠ p → u.eport k = s.eport k) ∧ u.fld F.enPortStatusState p = st.code ∧
    regsKept [.enPortStatus] s u ∧ u = { s with flds := u.flds, en := u.en }

/-- An Ethernet port that was up leaves E_UP for a state: its queue and its wire are empty and LPI_TX is 0 (R280, R281, R292). -/
def enFalls (s u : State) (p : Nat) (st : EState) : Prop :=
  (u.eport p).state = st ∧ (u.eport p).queue = [] ∧ (u.eport p).wire = none ∧ (∀ k, k ≠ p → u.eport k = s.eport k) ∧
    u.fld F.enPortStatusState p = st.code ∧ u.flag F.enPortStatusLpiTx p = false ∧ memKept s u

/-- The state in which a VOP of an operation code has been issued on a Block (R322, R341). -/
def State.vopIssued (s : State) (fn b : Nat) (x : Blk) (w op : Nat) : State :=
  s.steppedAs fn 0x41 b (x.vop op (x.vopArgs w) x.restWord)

/-- A Block that holds back no step: none of its outstanding steps shares a location with it (R341). -/
def Blk.holdsNone (x : Blk) : Prop := ∀ f, x.clearOf f = true

/-- The registers of a function's key commands are open to it and its key commands idle (R402). -/
def State.keyOpen (s : State) (fn : Nat) : Prop := s.barOpen fn = true ∧ s.flag F.keyfStatusBusy fn = false

/-- A key command has ended with a status (R402). -/
def State.keyEnded (u : State) (fn : Nat) (st : Status) : Prop :=
  u.fld F.keyfStatusCode fn = st.code ∧ u.flag F.keyfStatusFail fn = (st != .ok) ∧ u.flag F.keyfStatusBusy fn = false

/-- The function commands are open to an origin and idle (R420). -/
def State.fnOpen (s : State) (org : Origin) : Prop := s.dcsOpen org 0x200018 = true ∧ s.flag F.fnStatusBusy = false

/-- A function command has ended with a status (R420). -/
def State.fnEnded (u : State) (st : Status) : Prop :=
  u.fld F.fnStatusCode = st.code ∧ u.flag F.fnStatusFail = (st != .ok) ∧ u.flag F.fnStatusBusy = false

/-- A counter field has counted one more, up to its greatest value. -/
def counted (s u : State) (f : Fld) (o : Nat) (e : Nat := 0) : Prop :=
  u.fld f o e = satAdd (2 ^ f.width - 1) (s.fld f o e) 1 % 2 ^ f.width

end Machine
end Sys2Proof
end

