-- ==== Sys2Proof/Certificates/Slice0/Obligations.lean ====
section
/-! DEFINITION. The statements for the provers. Where a command's effect may set more going inside the device, its completion is stated as
exec c s = .next (s.finished u) with what u holds: u is the state that the command's own effect leaves, and finished carries out what
that effect sets going (owners told, packets sent, accesses to registers performed) before the command ends; after alone lists the
memory in its canonical form. -/

open Sys2Proof Sys2Proof.Machine

/-- For an origin that reaches the register: REGISTER_WRITE at an aligned offset writes the 64 bits to the register there; RC_READ
answers its origin with the eight bytes that the register shows, least significant first, and leaves what the read leaves;
IRREGULAR_ACCESS of any other size or alignment answers a read with all ones and has no effect as a write; OOB_DCS_ACCESS while the
out-of-band interface answers reads and writes as the management controller, a write being answered with the status OK. The origins here
are those outside PCIe; a host's bytes are counted for the bandwidth monitors first. -/
def Obligations.RegisterCommandsReachTheirRegister : Prop :=
  (∀ (s : State) (org : Origin) (off : Nat) (v : Word), (∀ fn, org ≠ .host fn) → s.dcsOpen org off = true → off % 8 = 0 →
    exec (.registerWrite org .dcs off v) s = .next (s.finished (s.dcsWrite org off v.toNat))) ∧
  (∀ (s : State) (fn off : Nat) (v : Word), s.dcsOpen (.host fn) off = true → off % 8 = 0 →
    exec (.registerWrite (.host fn) .dcs off v) s = .next (s.finished ((s.bwRx fn 8).dcsWrite (.host fn) off v.toNat))) ∧
  (∀ (s : State) (org : Origin) (off tag : Nat), (∀ fn, org ≠ .host fn) → s.dcsOpen org off = true → off % 8 = 0 →
    ∃ u, exec (.rcRead org .dcs off tag) s = .next (s.finished u) ∧
      u = (s.dcsRead off).2.answerRead org tag (leBytes (s.dcsRead off).1 8)) ∧
  (∀ (s : State) (org : Origin) (off len tag : Nat), (∀ fn, org ≠ .host fn) → s.dcsOpen org off = true → regular off len = false →
    exec (.irregularAccess org .dcs off len tag none) s = .next (s.finished (s.answerRead org tag (List.replicate len 0xFF#8)))) ∧
  (∀ (s : State) (org : Origin) (off len tag : Nat) (bs : List Byte), (∀ fn, org ≠ .host fn) → regular off bs.length = false →
    exec (.irregularAccess org .dcs off len tag (some bs)) s = .next (s.finished s)) ∧
  (∀ (s : State) (off : Nat), s.oobUp = true → off % 8 = 0 →
    exec (.oobDcsAccess off none) s = .next (s.finished ((s.dcsRead off).2.emit (.oob (leBytes (s.dcsRead off).1 8))))) ∧
  (∀ (s : State) (off : Nat) (v : Word), s.oobUp = true → off % 8 = 0 →
    exec (.oobDcsAccess off (some v)) s = .next (s.finished ((s.dcsWrite .oob off v.toNat).emit (.oob (leBytes Status.ok.code 1)))))

/-- For an origin outside PCIe that reaches it and with software as the source of fabric time, a write of v to FT_RATE (0x020118) sets
RATE and SW_SYNC to the bits of v that they take; a read of the register gives exactly those bits, the reserved bits reading 0; every
field of every other register, and all of HBM, is as before. -/
def Obligations.FtRateWriteReadsBack : Prop :=
  ∀ (s : State) (org : Origin) (v : Word), (∀ fn, org ≠ .host fn) → s.dcsOpen org 0x20118 = true → s.ftSource = 0 →
    ∃ u, exec (.registerWrite org .dcs 0x20118 v) s = .next (s.finished u) ∧
      u.fld F.clkpwrFtRateRate = v.toNat % 2 ^ 32 ∧ u.fld F.clkpwrFtRateSwSync = bits v.toNat 63 63 ∧
      (u.dcsRead 0x20118).1 = v.toNat % 2 ^ 32 + bits v.toNat 63 63 * 2 ^ 63 ∧ regsKept [.clkpwrFtRate] s u ∧ memKept s u

/-- FT_S_READ answers the seconds and latches the nanoseconds of the same instant in FT_NS. FT_STEP by an origin that reaches the
register, with no link as the source, moves fabric time by the signed offset modulo 2^48 s and counts STEPS. FT_DISCIPLINE_PERIOD with a
link source and offsets formed ends the period: a mean beyond STEP_NS steps fabric time by the mean, counts STEPS and leaves RATE; any
other leaves fabric time and STEPS and adds a quarter of the mean's rate, the mean times 2^32 over 4,000,000 rounded down, to RATE, held
within 32 bits; and both show the mean in OFFSET_NS, held within 32 bits, and clear the sum and the count. With no link source or no
offset it does nothing but clear them. FT_SYNC_TIMEOUT clears the source's SYNC, so that SYNC reads 0 with a link source, and leaves RATE.
Each leaves all of HBM, and every register but those named, as it is. -/
def Obligations.FabricTimeCommandsComplete : Prop :=
  (∀ s : State, ∃ t, exec .ftSRead s = .next t ∧ t.out = .regData (BitVec.ofNat 64 (s.clk.secs % 2 ^ 48)) :: s.out ∧
    t.fld F.clkpwrFtNsNs = s.clk.ns % 2 ^ 30 ∧ regsKept [.clkpwrFtNs] s t ∧ memKept s t ∧
    t = { s with flds := t.flds, out := t.out, mem := t.mem }) ∧
  (∀ (s : State) (org : Origin) (off : Word), s.dcsOpen org 0x20000 = true → s.ftSource = 0 →
    ∃ t, exec (.ftStep org off) s = .next t ∧
      (t.nowNs : Int) = ((s.nowNs : Int) + off.toInt) % ((2 ^ 48 * 1000000000 : Nat) : Int) ∧
      t.fld F.clkpwrFtStatusSteps = satAdd (2 ^ 16 - 1) (s.fld F.clkpwrFtStatusSteps) 1 % 2 ^ 16 ∧
      regsKept [.clkpwrFtStatus] s t ∧ memKept s t ∧ t = { s with flds := t.flds, clk := t.clk, en := t.en, mem := t.mem }) ∧
  (∀ s : State, s.ftSource ≠ 0 → s.clk.offCnt ≠ 0 →
    ∃ t, exec .ftDisciplinePeriod s = .next t ∧ t.clk.offCnt = 0 ∧ t.clk.offSum = 0 ∧
      (t.clk.within = true ↔ s.clk.offSum.natAbs ≤ s.ftStepNs * s.clk.offCnt) ∧
      (s.clk.offSum.natAbs ≤ s.ftStepNs * s.clk.offCnt →
        t.nowNs = s.nowNs ∧ t.fld F.clkpwrFtStatusSteps = s.fld F.clkpwrFtStatusSteps ∧
        toSigned 32 (t.fld F.clkpwrFtRateRate) = max (-2 ^ 31) (min (2 ^ 31 - 1) (toSigned 32 (s.fld F.clkpwrFtRateRate) +
          s.clk.offSum * 2 ^ 32 / (s.clk.offCnt * 4000000 : Int)))) ∧
      (s.ftStepNs * s.clk.offCnt < s.clk.offSum.natAbs →
        (t.nowNs : Int) = ((s.nowNs : Int) + s.clk.offSum / (s.clk.offCnt : Int)) % ((2 ^ 48 * 1000000000 : Nat) : Int) ∧
        t.fld F.clkpwrFtStatusSteps = satAdd (2 ^ 16 - 1) (s.fld F.clkpwrFtStatusSteps) 1 % 2 ^ 16 ∧
        t.fld F.clkpwrFtRateRate = s.fld F.clkpwrFtRateRate) ∧
      toSigned 32 (t.fld F.clkpwrFtStatusOffsetNs) = max (-2 ^ 31) (min (2 ^ 31 - 1) (s.clk.offSum / (s.clk.offCnt : Int))) ∧
      t.fld F.clkpwrFtRateSwSync = s.fld F.clkpwrFtRateSwSync ∧
      regsKept [.clkpwrFtStatus, .clkpwrFtRate] s t ∧ memKept s t ∧ t = { s with flds := t.flds, clk := t.clk, en := t.en, mem := t.mem }) ∧
  (∀ s : State, s.ftSource = 0 ∨ s.clk.offCnt = 0 →
    exec .ftDisciplinePeriod s = .next (s.after { s with clk := { s.clk with offSum := 0, offCnt := 0 } })) ∧
  (∀ s : State, exec .ftSyncTimeout s = .next (s.after { s with clk := { s.clk with srcSync := false } }) ∧
    (s.ftSource ≠ 0 → State.ftSync { s with clk := { s.clk with srcSync := false } } = false))

/-- In BRINGUP, EQUAL_SHARE, SERVICE or DRAIN, MASTER_LOCK_LOST clears MASTER_LOCK, sets MASTER_LOCK_LOST and enters FAULT with cause
0x01 while REFCLK_OK reads 1 and 0x02 while it reads 0, and REFCLK_LOST clears REFCLK_OK and enters FAULT with cause 0x02; both drive TRAY_FAULT_N low. PHY_PLL_LOCK_LOST sets or clears
the lock bit of the unit's PLL where the unit is present, and leaves the other bits of that field. -/
def Obligations.ClockLossCommandsComplete : Prop :=
  (∀ s : State, s.dev.state = .bringup ∨ s.dev.state = .equalShare ∨ s.dev.state = .service ∨ s.dev.state = .drain →
    (∃ u, exec .masterLockLost s = .next (s.finished u) ∧ u.dev.state = .fault ∧
      u.fld F.jnlRstatusFaultCause = (if s.fld F.clkpwrClkStatusRefclkOk = 1 then 0x01 else 0x02) ∧
      u.fld F.clkpwrClkStatusMasterLock = 0 ∧ u.fld F.clkpwrClkStatusMasterLockLost = 1 ∧ .pin pinTrayFaultN false ∈ u.out ∧
      regsKept [.clkpwrClkStatus, .jnlRstatus] s u ∧ memKept s u) ∧
    (∃ u, exec .refclkLost s = .next (s.finished u) ∧ u.dev.state = .fault ∧ u.fld F.jnlRstatusFaultCause = 0x02 ∧
      u.fld F.clkpwrClkStatusRefclkOk = 0 ∧ .pin pinTrayFaultN false ∈ u.out ∧
      regsKept [.clkpwrClkStatus, .jnlRstatus] s u ∧ memKept s u)) ∧
  (∀ (s : State) (kind n : Nat) (locked : Bool), kind < 3 → s.domPresent (pllDomain kind n) = true →
    s.fld (pllField kind) < 2 ^ (pllField kind).width →
    ∃ t, exec (.phyPllLockLost kind n locked) s = .next t ∧ bit (t.fld (pllField kind)) n = locked ∧
      (∀ i, i ≠ n → bit (t.fld (pllField kind)) i = bit (s.fld (pllField kind)) i) ∧
      regsKept [.clkpwrClkStatus] s t ∧ memKept s t ∧ t = { s with flds := t.flds, mem := t.mem })

/-- POWER_UP of an off domain that the image allows, and POWER_DOWN of an on domain that nothing keeps on, move the domain to
DOM_CHANGING with status OK (a lane group and a host port also take their links down), also where a power-up of the same domain arrives in
the same cycle, which is discarded; a power-down of an absent unit ends with UNIT_ABSENT and moves none. DOMAIN_SETTLED ends the change:
DOM_ON after a power-up, DOM_OFF after a power-down, once no work admitted before is outstanding. SENSOR_UPDATE of a present sensor of a
powered device stores the temperature, with the sensor's user offset. THERMAL_TRIP drives THERM_TRIP_N low and holds it. GOVERNOR_WINDOW_END of a running governor raises
STAGE by a step for each 10 W begun beyond the limit and by one more at every hundredth window of heat, up to STAGE_MAX. AT_FLOOR_TIMEOUT at STAGE_MAX with a hot
sensor sets AT_FLOOR. -/
def Obligations.PowerAndThermalCommandsComplete : Prop :=
  (∀ (s : State) (org : Origin) (d : Nat), s.dcsOpen org 0x20010 = true → s.domBusy = false → s.domPresent d = true → d < 24 →
    d ∈ s.img.mayOn → s.dom d = .off →
    ∃ u, exec (.powerUp org d) s = .next (s.finished u) ∧ u.dom d = .changing true ∧ u.fld F.clkpwrDomReqStatusCode = Status.ok.code ∧
      (∀ i, i ≠ d → u.dom i = s.dom i) ∧ memKept s u) ∧
  (∀ (s : State) (org : Origin) (d : Nat) (pair : Option Origin), s.dcsOpen org 0x20010 = true → s.domBusy = false →
    s.domPresent d = true → d < 16 →
    s.keepsOn d = false → s.dom d = .on →
    ∃ u, exec (.powerDown ⟨org, pair⟩ d) s = .next (s.finished u) ∧ u.dom d = .changing false ∧ u.fld F.clkpwrDomReqStatusCode = Status.ok.code ∧
      (∀ i, i ≠ d → u.dom i = s.dom i) ∧ memKept s u) ∧
  (∀ (s : State) (org : Origin) (d : Nat) (pair : Option Origin), s.dcsOpen org 0x20010 = true → s.domBusy = false →
    s.domPresent d = true → 16 ≤ d → d < 24 →
    s.keepsOn d = false → s.dom d = .on →
    exec (.powerDown ⟨org, pair⟩ d) s = .next (s.finished
      (let t := ((s.setFld F.clkpwrDomReqDomain d).setDom d (.changing false)).domEnds .ok
       if d < 20 then t.refreshLinks else (portLinks (d - 20)).foldl (fun t l => t.linkLost l 3) t))) ∧
  (∀ (s : State) (org : Origin) (d : Nat) (pair : Option Origin), s.dcsOpen org 0x20010 = true → s.domBusy = false →
    s.domPresent d = false → d < 24 →
    ∃ u, exec (.powerDown ⟨org, pair⟩ d) s = .next (s.finished u) ∧ u.fld F.clkpwrDomReqStatusCode = Status.unitAbsent.code ∧
      (∀ i, u.dom i = s.dom i) ∧ regsKept [.clkpwrDomReq, .clkpwrDomReqStatus] s u ∧ u = { s with flds := u.flds }) ∧
  (∀ (s : State) (d : Nat), s.domPresent d = true → d < 16 → s.dom d = .changing true →
    ∃ u, exec (.domainSettled d) s = .next (s.finished u) ∧ u.domOn d = true ∧ memKept s u) ∧
  (∀ (s : State) (d : Nat), s.domPresent d = true → 16 ≤ d → d < 20 → s.dom d = .changing true →
    exec (.domainSettled d) s = .next (s.finished (s.domUp d).refreshLinks) ∧ (s.domUp d).dom d = .on) ∧
  (∀ (s : State) (d : Nat), s.domPresent d = true → 20 ≤ d → s.dom d = .changing true →
    exec (.domainSettled d) s = .next (s.finished (s.domUp d)) ∧ (s.domUp d).dom d = .on) ∧
  (∀ (s : State) (d : Nat), s.domPresent d = true → d < 20 → s.dom d = .changing false → s.domWorks d = false →
    ∃ u, exec (.domainSettled d) s = .next (s.finished u) ∧ u.dom d = .off ∧
      (∀ c, (d < 8 ∨ 16 ≤ d ∨ stackOf c ≠ d - 8) → readByte u.mem c = readByte s.mem c)) ∧
  (∀ (s : State) (d : Nat), s.domPresent d = true → 20 ≤ d → s.dom d = .changing false →
    exec (.domainSettled d) s =
      .next (s.finished ((portLinks (d - 20)).foldl (fun t l => t.showDown l 3) ((s.setDom d .off).domLoses d))) ∧
      ((s.setDom d .off).domLoses d).dom d = .off) ∧
  (∀ (s : State) (n : Nat) (v : Int), s.sensorPresent n = true → s.powered = true → n < 40 →
    ∃ u, exec (.sensorUpdate n v) s = .next (s.finished u) ∧ u.fld F.clkpwrTempTemp n = ofSigned 16 (v + s.sensorOffset n) ∧ memKept s u) ∧
  (∀ s : State, s.dev.state ≠ .off → s.gov.trip = false →
    ∃ u, exec .thermalTrip s = .next (s.finished u) ∧ u.gov.trip = true ∧ u.out = .pin pinThermTripN false :: s.out ∧
      u = { s with gov := u.gov, out := u.out }) ∧
  (∀ (s : State) (p lim heat : Nat), s.governs = true → lim = min (s.fld F.clkpwrGovCfgPkgLimitW) s.fuses.variant.limitW →
    heat = (match s.gov.hotWins with | some n => if (n + 1) % 100 = 0 then 1 else 0 | none => 0) → 0 < (p - lim + 9) / 10 + heat →
    ∃ u, exec (.governorWindowEnd p) s = .next (s.finished u) ∧
      u.fld F.clkpwrGovStatusStage = min (s.fld F.clkpwrGovStatusStage + ((p - lim + 9) / 10 + heat)) s.stageMax ∧
      u.gov.hotWins = s.gov.hotWins.map (· + 1) ∧ u.fld F.clkpwrGovStatusPkgW = min p 0xFFFF ∧
      regsKept [.clkpwrGovStatus, .clkpwrGovCnt] s u ∧ memKept s u) ∧
  (∀ s : State, s.governs = true → s.fld F.clkpwrGovStatusStage = s.stageMax → s.flag F.clkpwrGovStatusThermal = true →
    s.flag F.clkpwrGovStatusAtFloor = false →
    ∃ u, exec .atFloorTimeout s = .next (s.finished u) ∧ u.flag F.clkpwrGovStatusAtFloor = true ∧ regsKept [.clkpwrGovStatus] s u ∧ memKept s u)

/-- A slice of a kind that runs, whose target is not in use and which finds nothing, is counted as run; a slice of kind 1 or 2 whose
target is in use and which has been put off less than 64 times in a row is put off once more and counted; a slice that fails is counted as run and as failed; SLICE_RETRY of a slice that was
put off does what SELF_TEST_SLICE does, and of one that was not nothing. FUSE with its CONFIRM outside FAULT and with fuses enough makes every soft repair hard, blowing
one fuse for each but the repairs of HBM lanes. BW_WINDOW_END of a running monitor shows the bytes of the window that ended, counts the
window and begins the next. -/
def Obligations.SelfTestAndBandwidthCommandsComplete : Prop :=
  (∀ (s : State) (kind target : Nat) (e : SliceEnd), s.slicesRun kind = true → sliceFailed kind e = false →
    ∃ u, exec (.selfTestSlice kind target false e) s = .next (s.finished u) ∧
      u.fld F.bistCntRun = satAdd (2 ^ 32 - 1) (s.fld F.bistCntRun) 1 % 2 ^ 32 ∧
      AMap.look 0 u.bist.defers (kind * 65536 + target) = 0 ∧ regsKept [.bistCnt] s u ∧ u = { s with flds := u.flds, bist := u.bist }) ∧
  (∀ (s : State) (kind target : Nat) (e : SliceEnd), s.slicesRun kind = true → kind ≤ 2 →
    AMap.look 0 s.bist.defers (kind * 65536 + target) < 64 →
    ∃ u, exec (.selfTestSlice kind target true e) s = .next (s.finished u) ∧
      AMap.look 0 u.bist.defers (kind * 65536 + target) = AMap.look 0 s.bist.defers (kind * 65536 + target) + 1 ∧
      u.fld F.bistDeferDeferred = satAdd (2 ^ 32 - 1) (s.fld F.bistDeferDeferred) 1 % 2 ^ 32 ∧ regsKept [.bistDefer] s u ∧
      u = { s with flds := u.flds, bist := u.bist }) ∧
  (∀ (s : State) (kind target : Nat) (e : SliceEnd), s.slicesRun kind = true → sliceFailed kind e = true →
    exec (.selfTestSlice kind target false e) s = .next (s.finished (State.sliceFails ((State.countSat { s with bist :=
      { s.bist with defers := AMap.drop s.bist.defers (kind * 65536 + target) } } F.bistCntRun).countSat F.bistCntFailed) kind target e))) ∧
  (∀ (s : State) (kind target : Nat) (busy : Bool) (e : SliceEnd),
    (AMap.look 0 s.bist.defers (kind * 65536 + target) ≠ 0 → exec (.sliceRetry kind target busy e) s = exec (.selfTestSlice kind target busy e) s) ∧
    (AMap.look 0 s.bist.defers (kind * 65536 + target) = 0 → exec (.sliceRetry kind target busy e) s = .next (s.finished s))) ∧
  (∀ (s : State) (kind target : Nat) (e : SliceEnd), s.slicesRun kind = true → sliceFailed kind e = false →
    AMap.look 0 s.bist.defers (kind * 65536 + target) ≠ 0 →
    ∃ u, exec (.sliceRetry kind target false e) s = .next (s.finished u) ∧
      u.fld F.bistCntRun = satAdd (2 ^ 32 - 1) (s.fld F.bistCntRun) 1 % 2 ^ 32 ∧
      AMap.look 0 u.bist.defers (kind * 65536 + target) = 0 ∧ u = { s with flds := u.flds, bist := u.bist }) ∧
  (∀ (s : State) (org : Origin), s.dcsOpen org 0xB000028 = true → s.dev.state ≠ .fault →
    (s.settings.soft.filter fun r => r.1 != 3).length ≤ s.bist.fusesFree →
    ∃ u, exec (.fuse org 0xF05E) s = .next (s.finished u) ∧ u.settings.soft = [] ∧ u.bist.hard = s.bist.hard + s.settings.soft.length ∧
      u.bist.fused = s.bist.fused ++ s.settings.soft ∧
      u.bist.fusesFree + (s.settings.soft.filter fun r => r.1 != 3).length = s.bist.fusesFree ∧
      u.fld F.bistCmdStatusCode = Status.ok.code ∧ u.out = .fuseRepair s.settings.soft.length :: s.out ∧ regsKept [.bistCmdStatus] s u ∧
      u = { s with flds := u.flds, bist := u.bist, fw := u.fw, out := u.out }) ∧
  (∀ (s : State) (m : Nat), m < 16 → s.flag F.telBwCfgEnable m = true →
    ∃ t, exec (.bwWindowEnd m) s = .next t ∧ t.fld F.telBwRxBytes m = (AMap.look (0, 0) s.bw m).1 % 2 ^ 48 ∧
      t.fld F.telBwTxBytes m = (AMap.look (0, 0) s.bw m).2 % 2 ^ 48 ∧ t.fld F.telBwRxSeq m = (s.fld F.telBwRxSeq m + 1) % 2 ^ 16 ∧
      AMap.look (0, 0) t.bw m = (0, 0) ∧ regsKept [.telBwRx, .telBwTx, .telBwPeak] s t ∧ memKept s t ∧
      t = { s with flds := t.flds, bw := t.bw, mem := t.mem })

/-- For a function whose BARs are served, a request's bytes, its payload and the request are counted first (State.aptSeen). Then
APERTURE_READ that meets no limit and APERTURE_WRITE are performed part by part as State.aptRead and State.aptWrite say, and
APERTURE_ATOMIC of a kind that BAR2 takes, which waits for no commit and no HBM and meets no limit, as State.aptAtomic says. A read that
lies within the slot under commit is outstanding and held behind what is held already, and so is a write; neither does anything more.
A read that meets a limit fails at once with APT_BUSY, its failure is captured where none is, and it is answered at once. An atomic of a
kind that BAR2 does not take is answered with Unsupported Request. A request to a function that is in reset or wedged changes nothing but
the count of bytes, and a read or atomic of it is answered with Unsupported Request. -/
def Obligations.ApertureRequestsComplete : Prop :=
  (∀ (s : State) (fn tag ao len : Nat), s.barAnswer fn = .served → s.aptFull fn = false →
    exec (.apertureRead fn tag ao len) s = .next (s.finished ((s.aptSeen fn 0 (.read tag ao len)).aptRead fn tag ao len))) ∧
  (∀ (s : State) (fn ao : Nat) (data : List Byte), s.barAnswer fn = .served →
    exec (.apertureWrite fn ao data) s = .next (s.finished ((s.aptSeen fn data.length (.write ao data)).aptWrite fn ao data))) ∧
  (∀ (s t : State) (fn tag ao : Nat) (kind : AtomicKind) (k : SltOp) (a b : Nat), s.barAnswer fn = .served → aptAtomicOp kind = some k →
    t = s.aptSeen fn (atomicBytes kind) (.atomic tag ao kind a b) →
    t.aptWaits fn ao (AptReq.atomic tag ao kind a b).bytes true true = false → s.aptFull fn = false →
    exec (.apertureAtomic fn tag ao kind a b) s = .next (s.finished (t.aptAtomic fn tag ao k a b))) ∧
  (∀ (s : State) (fn tag ao : Nat) (kind : AtomicKind) (a b : Nat), s.barAnswer fn = .served → aptAtomicOp kind = none → kind ≠ .bar4 →
    exec (.apertureAtomic fn tag ao kind a b) s =
      .next (s.finished ((s.bwRx fn (atomicBytes kind)).emit (.pcie fn tag .unsupported)))) ∧
  (∀ (s : State) (fn tag ao len : Nat), s.barAnswer fn = .served → (s.apt fn).commitSlot = some (ao / slotSize) →
    ao % slotSize + len ≤ slotSize → s.aptFull fn = false →
    ∃ u, exec (.apertureRead fn tag ao len) s = .next (s.finished u) ∧ (u.apt fn).held = (s.apt fn).held ++ [(.read tag ao len, false)] ∧
      (u.apt fn).reads = (s.apt fn).reads ++ [{ tag := tag, len := len, parts := [(ao, .wait)] }] ∧
      (u.apt fn).slots = (s.apt fn).slots ∧ u.qps = s.qps ∧ onlySignals s u ∧ memKept s u) ∧
  (∀ (s : State) (fn ao : Nat) (data : List Byte), s.barAnswer fn = .served → (s.apt fn).commitSlot = some (ao / slotSize) →
    ao % slotSize + data.length ≤ slotSize →
    ∃ u, exec (.apertureWrite fn ao data) s = .next (s.finished u) ∧ (u.apt fn).held = (s.apt fn).held ++ [(.write ao data, false)] ∧
      (u.apt fn).writes = (s.apt fn).writes ∧ (u.apt fn).slots = (s.apt fn).slots ∧ u.qps = s.qps ∧ onlySignals s u ∧ memKept s u) ∧
  (∀ (s : State) (fn tag ao len : Nat), s.barAnswer fn = .served → s.aptFull fn = true →
    ∃ u, exec (.apertureRead fn tag ao len) s = .next (s.finished u) ∧ u.apts = s.apts ∧ u.flag F.aptErrLogValid fn = true ∧
      (s.flag F.aptErrLogValid fn = false → u.flag F.aptErrLogWrite fn = false ∧ u.fld F.aptErrLogStatus fn = Status.aptBusy.code ∧
        u.fld F.aptErrLogAo fn = ao % 2 ^ F.aptErrLogAo.width) ∧
      .pcie fn tag (s.aptRefusal fn len) ∈ u.out ∧ memKept s u) ∧
  (∀ (s : State) (fn tag ao len : Nat), s.barAnswer fn = .unsupported →
    exec (.apertureRead fn tag ao len) s = .next (s.finished ((s.bwRx fn 0).emit (.pcie fn tag .unsupported)))) ∧
  (∀ (s : State) (fn ao : Nat) (data : List Byte), s.barAnswer fn = .unsupported →
    exec (.apertureWrite fn ao data) s = .next (s.finished (s.bwRx fn data.length))) ∧
  (∀ (s : State) (fn tag ao : Nat) (kind : AtomicKind) (a b : Nat), s.barAnswer fn = .unsupported → kind ≠ .bar4 →
    exec (.apertureAtomic fn tag ao kind a b) s =
      .next (s.finished ((s.bwRx fn (atomicBytes kind)).emit (.pcie fn tag .unsupported))))

/-- APERTURE_RESPONSE for a part that is still awaited puts the outcome into the read (State.aptPart), and one that nobody awaits is
discarded. READ_DEADLINE fails every part of the read that is still awaited with APT_DEADLINE and settles the read (State.aptSettle); a read
of one part, on a link that is up, is answered with its failure captured. APERTURE_COMMIT of an entry with V = 0, or of one that passes its
check, for a served function with no commit in progress, takes the slot that INDEX names under commit with the entry and BUSY set, and
clears LAST_FAIL, and of an entry whose check fails sets BUSY and LAST_FAIL with the status; the slots are as they were until
APERTURE_COMMIT_DONE, which clears BUSY, puts the accepted entry into its slot and no other, and lets what was held go on
(State.aptRetry). APT_FENCE marks every write in flight and every request that is held and sets FENCE_PEND, and APT_FENCE_DONE clears it
once no marked write is left. -/
def Obligations.ApertureCommitsAndFencesComplete : Prop :=
  (∀ (s : State) (fn tag ao : Nat) (data : List Byte), s.aptAwaits fn tag ao = true →
    exec (.apertureResponse fn tag ao .ok data) s = .next (s.finished (s.aptPart fn tag ao (.got data)))) ∧
  (∀ (s : State) (fn tag ao : Nat) (st : Status) (data : List Byte), s.aptAwaits fn tag ao = true → st ≠ .ok →
    exec (.apertureResponse fn tag ao st data) s = .next (s.finished (s.aptPart fn tag ao (.failed st)))) ∧
  (∀ (s : State) (fn tag ao : Nat) (st : Status) (data : List Byte), s.aptAwaits fn tag ao = false →
    exec (.apertureResponse fn tag ao st data) s = .next (s.finished s)) ∧
  (∀ (s : State) (fn tag : Nat),
    ∃ v : State, exec (.readDeadline fn tag) s = .next (s.finished ((v.orphanApt fn tag).aptSettle fn tag)) ∧
      (v.apt fn).reads = (s.apt fn).reads.map (fun r => if r.tag = tag then
        { r with parts := r.parts.map fun p => if p.2 = .wait then (p.1, .failed .aptDeadline) else p } else r) ∧
      v = { s with apts := v.apts }) ∧
  (∀ (s : State) (fn tag ao len : Nat), (s.apt fn).reads = [{ tag := tag, len := len, parts := [(ao, .wait)] }] →
    s.flag F.aptErrLogValid fn = false → s.linkUp (s.linkOf fn) = true →
    ∃ u, exec (.readDeadline fn tag) s = .next (s.finished u) ∧ (u.apt fn).reads = [] ∧
      u.fld F.aptErrLogStatus fn = Status.aptDeadline.code ∧ u.fld F.aptErrLogAo fn = ao % 2 ^ F.aptErrLogAo.width ∧
      .pcie fn tag (s.aptRefusal fn len) ∈ u.out ∧ memKept s u) ∧
  (∀ (s : State) (fn v : Nat), s.barAnswer fn = .served → s.flag F.aptStatusBusy fn = false → bit v 0 = false →
    ∃ u, exec (.apertureCommit fn v) s = .next (s.finished u) ∧ u.flag F.aptStatusBusy fn = true ∧
      (u.apt fn).commitSlot = some (s.fld F.aptIndexSlot fn) ∧ u.flag F.aptStatusLastFail fn = false ∧
      u.fld F.aptStatusLastStatus fn = 0 ∧ (∃ e, (u.apt fn).commitEntry = some e ∧ e.v = false) ∧
      (∀ i, u.slotOf fn i = s.slotOf fn i) ∧ regsKept [.aptStatus] s u ∧ memKept s u) ∧
  (∀ (s : State) (fn v : Nat) (h : KeyHome), s.barAnswer fn = .served → s.flag F.aptStatusBusy fn = false → bit v 0 = true →
    s.aptCommitCheck fn (bits v 63 32) (bits v 31 11) (s.apt fn).stagedQp = .ok h →
    ∃ u, exec (.apertureCommit fn v) s = .next (s.finished u) ∧ u.flag F.aptStatusBusy fn = true ∧
      (u.apt fn).commitSlot = some (s.fld F.aptIndexSlot fn) ∧ u.flag F.aptStatusLastFail fn = false ∧
      u.fld F.aptStatusLastStatus fn = 0 ∧
      (u.apt fn).commitEntry = some
        { wkey := bits v 63 32, woff := bits v 31 11, w := bit v 2, r := bit v 1, v := true,
          qp := (s.apt fn).stagedQp, conn := (s.qp (s.apt fn).stagedQp).conn, home := h } ∧
      (∀ i, u.slotOf fn i = s.slotOf fn i) ∧ regsKept [.aptStatus] s u ∧ memKept s u) ∧
  (∀ (s : State) (fn v : Nat) (st : Status), s.barAnswer fn = .served → s.flag F.aptStatusBusy fn = false → bit v 0 = true →
    s.aptCommitCheck fn (bits v 63 32) (bits v 31 11) (s.apt fn).stagedQp = .error st →
    ∃ u, exec (.apertureCommit fn v) s = .next (s.finished u) ∧ u.flag F.aptStatusBusy fn = true ∧ u.flag F.aptStatusLastFail fn = true ∧
      u.fld F.aptStatusLastStatus fn = st.code % 2 ^ F.aptStatusLastStatus.width ∧ (u.apt fn).commitEntry = none ∧
      (∀ i, u.slotOf fn i = s.slotOf fn i) ∧ memKept s u) ∧
  (∀ (s : State) (fn : Nat), s.flag F.aptStatusBusy fn = true →
    ∃ v : State, exec (.apertureCommitDone fn) s = .next (s.finished (v.aptRetry fn)) ∧ v.flag F.aptStatusBusy fn = false ∧
      (v.apt fn).commitSlot = none ∧ (v.apt fn).held = (s.apt fn).held ∧
      (∀ i e, (s.apt fn).commitSlot = some i → (s.apt fn).commitEntry = some e → v.slotOf fn i = e ∧
        ∀ j, j ≠ i → v.slotOf fn j = s.slotOf fn j) ∧
      ((s.apt fn).commitEntry = none → (v.apt fn).slots = (s.apt fn).slots) ∧ regsKept [.aptStatus] s v ∧
      v = { s with flds := v.flds, apts := v.apts }) ∧
  (∀ (s : State) (fn i : Nat) (e : AptEntry), s.flag F.aptStatusBusy fn = true → (s.apt fn).held = [] →
    (s.apt fn).commitSlot = some i → (s.apt fn).commitEntry = some e →
    ∃ u, exec (.apertureCommitDone fn) s = .next (s.finished u) ∧ u.flag F.aptStatusBusy fn = false ∧ (u.apt fn).commitSlot = none ∧
      u.slotOf fn i = e ∧ (∀ j, j ≠ i → u.slotOf fn j = s.slotOf fn j) ∧ regsKept [.aptStatus] s u ∧ memKept s u) ∧
  (∀ (s : State) (fn : Nat), s.flag F.aptStatusBusy fn = true → (s.apt fn).held = [] → (s.apt fn).commitEntry = none →
    ∃ u, exec (.apertureCommitDone fn) s = .next (s.finished u) ∧ u.flag F.aptStatusBusy fn = false ∧ (u.apt fn).commitSlot = none ∧
      (u.apt fn).slots = (s.apt fn).slots ∧ regsKept [.aptStatus] s u ∧ memKept s u) ∧
  (∀ (s : State) (fn : Nat), s.barAnswer fn = .served →
    ∃ t, exec (.aptFence fn) s = .next t ∧ t.flag F.aptStatusFencePend fn = true ∧
      (t.apt fn).writes = (s.apt fn).writes.map (fun w => (w.1, true)) ∧
      (t.apt fn).held = (s.apt fn).held.map (fun h => (h.1, true)) ∧ regsKept [.aptStatus] s t ∧ memKept s t ∧
      t = { s with flds := t.flds, apts := t.apts, mem := t.mem }) ∧
  (∀ (s : State) (fn : Nat), (s.apt fn).fenced = false →
    ∃ t, exec (.aptFenceDone fn) s = .next t ∧ t.flag F.aptStatusFencePend fn = false ∧ regsKept [.aptStatus] s t ∧ memKept s t ∧
      t = { s with flds := t.flds, mem := t.mem })

/-- TABLE_WALK_DONE with no such walk in flight changes nothing. Where it names the only walk of its page and the walk's reads have left:
a walk that no invalidation has met is taken off, and those who waited are told how it ended (State.walkEnds); a translation with the right
goes into the micro-TLB of a queue's fetch that waited for it, and a fault leaves nothing in any TLB or the walk cache and ends the fetch
with FETCH_ERR and the queue stalled. The result of one that an invalidation has met is discarded, and another is to be made for those who
wait. INVAL_RANGE, INVAL_FUNCTION and INVAL_ALL by an origin that reaches
the engine, while it is not busy, start an invalidation of the selected function's pages from INVAL_ADDR, of all its pages, or of every
function of the engine. INVAL_DONE with no read outstanding, no walk in flight and no operation issuing accesses that the invalidation
waits for clears BUSY and changes nothing else but the engine. -/
def Obligations.WalksAndInvalidationsComplete : Prop :=
  (∀ (s : State) (fn ha : Nat) (acc : Access) (words : List (Option Nat)), s.walkInFlight fn ha acc = none →
    exec (.tableWalkDone fn ha acc words) s = .next (s.finished s)) ∧
  (∀ (s : State) (fn ha : Nat) (acc : Access) (words : List (Option Nat)) (k : Walk), s.walkComes fn ha acc words k → k.stale = false →
    exec (.tableWalkDone fn ha acc words) s =
      .next (s.finished ((s.walkLess k).walkEnds (k.over words) (s.walked (k.over words))))) ∧
  (∀ (s : State) (fn ha q : Nat) (acc : Access) (words : List (Option Nat)) (k : Walk) (loc : TlbLoc) (e : TlbEntry),
    s.walkComes fn ha acc words k → k.stale = false → k.refused = none → k.waits = [{ who := .ring q, acc := acc, loc := loc }] →
    s.haCheck fn (k.page * 4096) = none → (s.walked (k.over words)).res = .ok e →
    rightFault e acc = none →
    ∃ u, exec (.tableWalkDone fn ha acc words) s = .next (s.finished u) ∧ (loc, .ha e) ∈ u.tlb ∧
      u.walks = s.walks.filter (fun x => x != k)) ∧
  (∀ (s : State) (fn ha q r : Nat) (acc : Access) (words : List (Option Nat)) (k : Walk) (loc : TlbLoc),
    s.walkComes fn ha acc words k → k.stale = false → k.refused = none → k.waits = [{ who := .ring q, acc := acc, loc := loc }] →
    s.haCheck fn (k.page * 4096) = none → (s.walked (k.over words)).res.need acc = .fault r →
    ∃ u, exec (.tableWalkDone fn ha acc words) s = .next (s.finished u) ∧ u.tlb = s.tlb ∧ u.walkCache = s.walkCache ∧
      u.flag F.qfStatusFetchErr (qObj fn q) = true ∧ u.fld F.qfStatusCode (qObj fn q) = Status.pageFault.code ∧
      u.flag F.qfStatusStalled (qObj fn q) = true ∧ u.walks = s.walks.filter (fun x => x != k)) ∧
  (∀ (s : State) (fn ha : Nat) (acc : Access) (words : List (Option Nat)) (k : Walk), s.walkComes fn ha acc words k → k.stale = true →
    k.waits ≠ [] →
    ∃ u, exec (.tableWalkDone fn ha acc words) s = .next (s.finished u) ∧ u.tlb = s.tlb ∧ u.walkCache = s.walkCache ∧
      u.walks = s.walks.filter (fun x => x != k) ++ [{ fn := fn, page := k.page, waits := k.waits }]) ∧
  (∀ (s : State) (org : Origin) (pages fn : Nat), s.dcsOpen org 0x400000 = true → s.xlSelected .xl = some fn →
    s.flag F.xlInvalStatusBusy 0 = false →
    ∃ t, exec (.invalRange org .xl pages) s = .next t ∧ invalidates s t .xl [fn] (s.fld F.xlInvalAddrHa 0 * 4096)
      (s.fld F.xlInvalAddrHa 0 * 4096 + (pages % 2 ^ 20 + 1) * 4096)) ∧
  (∀ (s : State) (pf pages fn : Nat), s.engOpen (.xlp pf) = true → s.xlSelected (.xlp pf) = some fn →
    s.flag F.xlInvalStatusBusy (pf + 1) = false →
    ∃ t, exec (.invalRange (.host pf) (.xlp pf) pages) s = .next t ∧ invalidates s t (.xlp pf) [fn] (s.fld F.xlInvalAddrHa (pf + 1) * 4096)
      (s.fld F.xlInvalAddrHa (pf + 1) * 4096 + (pages % 2 ^ 20 + 1) * 4096)) ∧
  (∀ (s : State) (org : Origin) (fn : Nat), s.dcsOpen org 0x400000 = true → s.xlSelected .xl = some fn →
    s.flag F.xlInvalStatusBusy 0 = false →
    ∃ t, exec (.invalFunction org .xl) s = .next t ∧ invalidates s t .xl [fn] 0 (2 ^ 64)) ∧
  (∀ (s : State) (pf fn : Nat), s.engOpen (.xlp pf) = true → s.xlSelected (.xlp pf) = some fn →
    s.flag F.xlInvalStatusBusy (pf + 1) = false →
    ∃ t, exec (.invalFunction (.host pf) (.xlp pf)) s = .next t ∧ invalidates s t (.xlp pf) [fn] 0 (2 ^ 64)) ∧
  (∀ (s : State) (org : Origin), s.dcsOpen org 0x400000 = true → s.flag F.xlInvalStatusBusy 0 = false →
    ∃ t, exec (.invalAll org .xl) s = .next t ∧ invalidates s t .xl (engFns .xl) 0 (2 ^ 64)) ∧
  (∀ (s : State) (pf : Nat), s.engOpen (.xlp pf) = true → s.flag F.xlInvalStatusBusy (pf + 1) = false →
    ∃ t, exec (.invalAll (.host pf) (.xlp pf)) s = .next t ∧ invalidates s t (.xlp pf) (engFns (.xlp pf)) 0 (2 ^ 64)) ∧
  (∀ (s : State) (e : XlPort) (v : Inval), AMap.find s.invals (engKey e) = some v →
    (s.tags.any fun t => !t.timedOut && v.reads.contains (t.port, t.sub, t.tag, t.use)) = false →
    v.walks = [] →
    (s.ops.any fun o => v.ops.contains o.ref && o.issuing && o.holds v.fns v.lo v.hi) = false →
    ∃ t, exec (.invalDone e) s = .next t ∧ t.flag F.xlInvalStatusBusy (engKey e) = false ∧ AMap.find t.invals (engKey e) = none ∧
      regsKept [.xlInvalStatus] s t ∧ memKept s t ∧ t = { s with flds := t.flds, invals := t.invals, mem := t.mem })

/-- FAULT_BATCH_TIMEOUT with no open batch changes nothing and with one closes it (State.closeBatch); where no fault waits to be recorded,
the batch's last entry may be written and no counter gives a hint meanwhile, LAST_BATCH then shows the batch and no batch is open. REPLAY
of a served function closes the batch it names if that is open, and takes up the parked operations of the function that it selects
(State.replayOps): those whose batch is the one named or up to 32,767 before it, modulo 2^16, those parked without an entry, and those
parked behind another; every other one stays parked. REPLAY_ABORT ends those of them that are not parked only behind another with
PAGE_FAULT (State.opFails) and takes up those parked behind another. AC_CLEAR takes THRESH, DECAY and ENABLE, forgets the hints, and
writes zeros over the counter table where it lies in the function's HBM, clearing ENABLE where it does not: outside resident ranges and
with no dirty log in HBM the table then reads 0 and all other bytes as before. AC_DECAY with the counters enabled and a table in the
function's HBM writes the half of every counter over it. -/
def Obligations.FaultBatchesAndCountersComplete : Prop :=
  (∀ (s : State) (fn : Nat), (s.batchOf fn).isOpen = false → exec (.faultBatchTimeout fn) s = .next (s.finished s)) ∧
  (∀ (s : State) (fn : Nat), (s.batchOf fn).isOpen = true → exec (.faultBatchTimeout fn) s = .next (s.finished (s.closeBatch fn))) ∧
  (∀ (s : State) (fn : Nat) (e : FbEntry), (s.batchOf fn).isOpen = true → AMap.look [] s.faultQ fn = [] →
    (s.batchOf fn).entries.getLast? = some e → (s.fn fn).state ≠ .orphaned → s.ringAt fn e.idx = .yes →
    s.flag F.xlfAcCtrlEnable fn = false →
    ∃ u, exec (.faultBatchTimeout fn) s = .next (s.finished u) ∧ (u.batchOf fn).isOpen = false ∧ (u.batchOf fn).entries = [] ∧
      u.fld F.xlfFbStatusLastBatch fn = (s.batchOf fn).number % 2 ^ F.xlfFbStatusLastBatch.width) ∧
  (∀ (s : State) (fn upto : Nat), s.barOpen fn = true →
    ∃ u, exec (.replay fn upto) s = .next (s.finished u) ∧
      u = (s.closeNamed fn (upto % 65536)).replayOps fn (selected fn (upto % 65536))) ∧
  (∀ (s : State) (fn upto : Nat),
    s.closeNamed fn upto = (if (s.batchOf fn).isOpen = true ∧ (s.batchOf fn).number = upto then s.closeBatch fn else s)) ∧
  (∀ (fn upto : Nat) (o : Op), selected fn upto o = true ↔ o.ref.fn = fn ∧
    ((∃ b, o.phase = .parked (.batch b) ∧ subMod 16 upto b < 32768) ∨ o.phase = .parked .silent ∨ o.phase = .parked .behind)) ∧
  (∀ (s : State) (fn upto : Nat), s.barOpen fn = true →
    ∃ u, exec (.replayAbort fn upto) s = .next (s.finished u) ∧
      (∀ v, v = ((s.closeNamed fn (upto % 65536)).ops.filter fun o => selected fn (upto % 65536) o && o.phase != .parked .behind).foldl
          (fun t o => t.opFails o .pageFault) (s.closeNamed fn (upto % 65536)) →
        u = v.replayOps fn fun o => o.ref.fn == fn && o.phase == .parked .behind)) ∧
  (∀ (s : State) (fn v : Nat), s.barOpen fn = true → bit v 1 = true → s.acTable fn = none →
    ∃ u, exec (.acClear fn v) s = .next (s.finished u) ∧ u.flag F.xlfAcCtrlEnable fn = false ∧
      u.fld F.xlfAcCtrlThresh fn = bits v 63 48 ∧ u.fld F.xlfAcCtrlDecay fn = bits v 47 44 ∧ AMap.look {} u.acs fn = {} ∧
      regsKept [.xlfAcCtrl] s u ∧ memKept s u) ∧
  (∀ (s : State) (fn v a n : Nat), s.barOpen fn = true → bit v 1 = true → s.acTable fn = some (a, n) →
    ∃ u, exec (.acClear fn v) s = .next (s.finished u) ∧
      u.fld F.xlfAcCtrlThresh fn = bits v 63 48 ∧ u.fld F.xlfAcCtrlDecay fn = bits v 47 44 ∧ u.flag F.xlfAcCtrlEnable fn = bit v 0 ∧
      AMap.look {} u.acs fn = {} ∧
      ∃ w : State, u = w.hbmWrite a (List.replicate (2 * n) 0#8) ∧ w = { s with flds := w.flds, acs := w.acs }) ∧
  (∀ (s : State) (fn v a n : Nat), s.barOpen fn = true → bit v 1 = true → s.acTable fn = some (a, n) → s.res = [] →
    s.cipherOk a (2 * n) = true → (∀ f, s.flag F.fnDlCtrlHbmEn f = false) →
    ∃ u, exec (.acClear fn v) s = .next (s.finished u) ∧ (∀ i, i < 2 * n → readByte u.mem (a + i) = 0#8) ∧ memKeptBut a (2 * n) s u) ∧
  (∀ (s : State) (fn a n : Nat), s.flag F.xlfAcCtrlEnable fn = true → s.fld F.xlfAcCtrlDecay fn ≠ 15 → s.acTable fn = some (a, n) →
    ∃ u, exec (.acDecay fn) s = .next (s.finished u) ∧
      (∀ w, w = s.hbmWrite a ((List.range n).flatMap fun i => leBytes (leNat (s.hbmRead (a + 2 * i) 2) / 2) 2) →
        u = { w with acs := u.acs } ∧ ∀ f, f ≠ fn → AMap.look {} u.acs f = AMap.look {} s.acs f))

/-- A link that may train and is not up comes up at an accepted rate and width, and is counted down and trained again at a refused one.
PCIE_LINK_DOWN of a link that is up takes it down and starts the wait; LINK_DOWN_TIMEOUT while that wait runs, FUNDAMENTAL_RESET of a
present link not held in reset, HOT_RESET of a link that is up, and HOST_WATCHDOG_EXPIRY with a watchdog set are crash events of the
link's host, which open its grace period where the link has functions that are not WEDGED. PERST_DEASSERT releases the link and a link
that may train leaves Detect.Quiet. WDOG_RESTART by a served PF notes the time. ATTACH with the token that was drawn makes every ORPHANED
function of the link ACTIVE and ends the grace period; a wrong token is counted and the 16th locks. GRACE_EXPIRY in a grace period resets
every function that is still ORPHANED for its teardown. -/
def Obligations.HostLinkCommandsComplete : Prop :=
  (∀ (s : State) (l : LinkId) (rate width : Nat), s.linkMayTrain l = true → s.linkUp l = false → s.linkAccepted l rate width = true →
    ∃ u, exec (.pcieLinkTrained l rate width) s = .next (s.finished (u.linkOpens l)) ∧ u.linkUp l = true ∧ (u.link l).downWait = false ∧
      regsKept [.hpLinkStatus] s u ∧ memKept s u) ∧
  (∀ (s : State) (l : LinkId) (rate width : Nat), s.linkMayTrain l = true → s.linkUp l = false → s.linkAccepted l rate width = false →
    ∃ u, exec (.pcieLinkTrained l rate width) s = .next (s.finished u) ∧ u.linkUp l = false ∧
      u.flag F.hpLinkStatusBelowMin l.port (b2n l.sub) = true ∧ u.fld F.hpLinkStatusState l.port (b2n l.sub) = 1 ∧
      counted s u F.hpLinkStatusDownCount l.port (b2n l.sub) ∧ regsKept [.hpLinkStatus] s u ∧ memKept s u) ∧
  (∀ (s : State) (l : LinkId), s.linkUp l = true → exec (.pcieLinkDown l) s =
    .next (s.finished ((s.linkLost l 0).setLink l { s.link l with downWait := true }))) ∧
  (∀ (s : State) (l : LinkId), (s.link l).downWait = true → exec (.linkDownTimeout l) s = .next (s.finished (s.crash l))) ∧
  (∀ (s : State) (l : LinkId), s.linkPresent l = true → (s.link l).perst = false → exec (.fundamentalReset l) s =
    .next (s.finished (((s.setLink l { s.link l with perst := true }).linkLost l 0).crash l))) ∧
  (∀ (s : State) (l : LinkId), s.portPresent l.port = true → s.linkPresent l = false → (s.link l).perst = false →
    exec (.fundamentalReset l) s = .next (s.finished (s.setLink l { s.link l with perst := true }))) ∧
  (∀ (s : State) (l : LinkId), s.linkUp l = true → exec (.hotReset l) s = .next (s.finished ((s.linkLost l 1).crash l))) ∧
  (∀ (s : State) (l : LinkId), s.linkPresent l = true → s.fld F.hpCrashWdogMs l.port ≠ 0 →
    exec (.hostWatchdogExpiry l) s = .next (s.finished (s.crash l))) ∧
  (∀ (s : State) (l : LinkId), (s.crash l).link l = { s.link l with
      grace := !((s.fnsOf l).filter fun f => (s.fn f).state != .wedged).isEmpty, graceAt := s.nowNs, badTokens := 0, downWait := false }) ∧
  (∀ (s : State) (l : LinkId), s.portPresent l.port = true → (s.link l).perst = true →
    ∃ u, exec (.perstDeassert l) s = .next (s.finished u) ∧ (u.link l).perst = false ∧
      ((s.setLink l { s.link l with perst := false }).linkMayTrain l = true → s.linkUp l = false →
        u.fld F.hpLinkStatusState l.port (b2n l.sub) = 1) ∧
      regsKept [.hpLinkStatus, .clkpwrClkStatus] s u ∧ memKept s u) ∧
  (∀ (s : State) (fn : Nat), s.isPf fn = true → s.barOpen fn = true →
    ∃ t, exec (.wdogRestart fn) s = .next t ∧ (t.link (s.linkOf fn)).wdogAt = s.nowNs ∧ memKept s t ∧
      t = { s with links := t.links, mem := t.mem }) ∧
  (∀ (s : State) (fn : Nat) (tok : Word), s.isPf fn = true → s.barOpen fn = true → (s.fn fn).state = .orphaned →
    s.flag F.hpfStatusAttachLock fn = false → tok ≠ (s.link (s.linkOf fn)).token →
    ∃ u, exec (.attach fn tok) s = .next (s.finished u) ∧
      (u.link (s.linkOf fn)).badTokens = min 255 ((s.link (s.linkOf fn)).badTokens + 1) ∧
      (u.flag F.hpfStatusAttachLock fn = true ↔ 16 ≤ min 255 ((s.link (s.linkOf fn)).badTokens + 1)) ∧ u.fns = s.fns ∧ memKept s u) ∧
  (∀ (s : State) (fn : Nat), s.isPf fn = true → s.barOpen fn = true → (s.fn fn).state = .orphaned →
    s.flag F.hpfStatusAttachLock fn = false → ∀ x fs, x = s.link (s.linkOf fn) →
    fs = (s.fnsOf (s.linkOf fn)).filter (fun f => (s.fn f).state == .orphaned) → exec (.attach fn x.token) s =
      .next (s.finished (fs.foldl State.reopenHost ((((fs.foldl (fun t f => t.setFn f { t.fn f with state := .active }) s).setFlag
        F.hpfStatusAttachOk true fn).setLink (s.linkOf fn) { x with grace := false }).newToken (s.linkOf fn))))) ∧
  (∀ (s : State) (l : LinkId), (s.link l).grace = true → exec (.graceExpiry l) s =
    .next (s.finished (((s.fnsOf l).filter fun f => (s.fn f).state == .orphaned).foldl (fun t f => t.fnReset f true)
      ((s.setLink l { s.link l with grace := false }).setFlag F.hpfStatusAttachLock false (linkPf l)))))

/-- With configuration requests served, BUS_MASTER_DISABLE and BUS_MASTER_ENABLE change Bus Master Enable, the first stopping the
function's host requests and the second sending what was held; FLR of a VF resets it, and FLR of a PF every function of its link
(State.flrOne). VF_ENABLE_CLEAR clears VF Enable of the PF, resets every VF of its link and hides the created ones.
FUNCTION_RESET_DONE of a function in reset that nothing delays clears it and makes it ACTIVE, or ORPHANED where its host has crashed
meanwhile, and FUNCTION_WEDGED makes it WEDGED, each with its device notice, and a change of the device's state that waited for a function
command to end is made (State.eqTurnDue). COMPLETION_TIMEOUT marks a tag timed out and logs it; TAG_REUSE gives it back, but for a WEDGED
function's. HOST_COMPLETION for a tag that is awaited gives the tag back and, unless its data are no longer wanted, fails its operation on
an error, completes a flush, and keeps the bytes of a data read, after the last of which the operation goes on; one for a tag that has timed
out or is not outstanding is logged as an Unexpected Completion, and one for a WEDGED function's tag has no effect but on the bytes counted.
A tag that is given back lets the reads that waited for one of its link go (State.tagsFreed). CONFIG_REQUEST is answered with
data, a retry, or Unsupported Request as the function's state asks, a field of the configuration space with its value.
MSIX_UNMASK of a vector clears its mask and sends what is pending. -/
def Obligations.HostFunctionCommandsComplete : Prop :=
  (∀ (s : State) (fn : Nat), s.cfgServed fn = true → (s.fn fn).bme = true →
    exec (.busMasterDisable fn) s = .next (s.finished ((s.setFn fn { s.fn fn with bme := false }).stopHost fn false))) ∧
  (∀ (s : State) (fn : Nat), s.cfgServed fn = true → (s.fn fn).bme = false →
    exec (.busMasterEnable fn) s = .next (s.finished (((s.setFn fn { s.fn fn with bme := true }).sendPending fn).reopenHost fn))) ∧
  (∀ (s : State) (fn : Nat), s.cfgServed fn = true → s.isPf fn = false → (s.fn fn).state = .active →
    exec (.flr fn) s = .next (s.finished (s.fnReset fn false))) ∧
  (∀ (s : State) (fn : Nat), s.cfgServed fn = true → s.isPf fn = true →
    exec (.flr fn) s = .next (s.finished ((s.linkFns (s.linkOf fn)).foldl State.flrOne s))) ∧
  (∀ (s : State) (pf : Nat), s.isPf pf = true → (s.fn pf).vfEnable = true → s.cfgServed pf = true →
    exec (.vfEnableClear pf) s = .next (s.finished (((s.linkFns (s.linkOf pf)).filter fun f => !s.isPf f).foldl
      (fun (t : State) f => if ((t.flrOne f).fn f).state = .notCreated then t.flrOne f
        else (t.flrOne f).setFn f { (t.flrOne f).fn f with vfHidden := true })
      (s.setFn pf { s.fn pf with vfEnable := false })))) ∧
  (∀ (s : State) (fn : Nat), (s.fn fn).state = .resetting → s.resetWaits fn = false → (s.fn fn).destroy = false →
    exec (.functionResetDone fn) s = .next (s.finished (((s.clearFn fn).setFn fn { (s.clearFn fn).fn fn with
      state := if ((s.clearFn fn).fn fn).crashed then .orphaned else .active, crashed := false }).notify { type := 0xE3, fn := fn }).eqTurnDue)) ∧
  (∀ (s : State) (fn : Nat), (s.fn fn).state = .resetting → s.ten.destroying ≠ some fn →
    exec (.functionWedged fn) s = .next (s.finished
      ((s.setFn fn { s.fn fn with state := .wedged, crashed := false, destroy := false }).notify { type := 0xE0, fn := fn }).eqTurnDue)) ∧
  (∀ (s : State) (l : LinkId) (n : Nat) (t : Tag), s.tagAt l n = some t → t.timedOut = false → t.dead = true →
    ∃ u : State, exec (.completionTimeout l n) s = .next (s.finished (u.logAer t.fn aerCompletionTimeout)) ∧ u = { s with tags := u.tags } ∧
      { t with timedOut := true } ∈ u.tags) ∧
  (∀ (s : State) (l : LinkId) (n : Nat) (t : Tag), s.tagAt l n = some t → t.timedOut = false → t.dead = false →
    exec (.completionTimeout l n) s = .next (s.finished
      ((({ s with tags := s.tags.map fun x => if x = t then { x with timedOut := true } else x }).logAer t.fn
        aerCompletionTimeout).readFails t.use))) ∧
  (∀ (s : State) (l : LinkId) (n : Nat) (t : Tag) (data : Option (List Byte)), s.tagAt l n = some t → t.timedOut = false → t.dead = true →
    (s.fn t.fn).state ≠ .wedged → s.heldReads = [] →
    ∃ u, exec (.hostCompletion l n data) s = .next (s.finished u) ∧ u.tags = s.tags.filter (fun x => x != t) ∧ u.ops = s.ops ∧ memKept s u) ∧
  (∀ (s b : State) (l : LinkId) (n : Nat) (data : Option (List Byte)),
    b = s.bwCount (l.port + if l.sub then 4 else 0) false (12 + (data.getD []).length) →
    (s.tagAt l n = none → exec (.hostCompletion l n data) s = .next (s.finished (b.logAer (linkPf l) aerUnexpectedCompletion))) ∧
    (∀ t, s.tagAt l n = some t →
      (t.timedOut = true → exec (.hostCompletion l n data) s = .next (s.finished (b.logAer t.fn aerUnexpectedCompletion))) ∧
      (t.timedOut = false → (s.fn t.fn).state = .wedged → exec (.hostCompletion l n data) s = .next (s.finished b)) ∧
      (t.timedOut = false → (s.fn t.fn).state ≠ .wedged → t.dead = false → ∀ u, u = { b with tags := b.tags.filter fun x => x != t } →
        (data = none → exec (.hostCompletion l n data) s = .next (s.finished ((u.readFails t.use).tagsFreed ⟨t.port, t.sub⟩))) ∧
        (∀ bs r, data = some bs → t.use = .flush r →
          exec (.hostCompletion l n data) s = .next (s.finished ((u.completeRef r .ok).tagsFreed ⟨t.port, t.sub⟩))) ∧
        (∀ bs r off len o v, data = some bs → t.use = .data r off len →
          v = u.updOp r (fun o => { o with buf := AMap.put o.buf off (padTo bs len) }) → v.op r = some o →
          ((v.tagsOf r).isEmpty = true → (v.heldOf r).isEmpty = true → o.phase = .gather →
            exec (.hostCompletion l n data) s = .next (s.finished ((v.gathered o).tagsFreed ⟨t.port, t.sub⟩))) ∧
          (¬((v.tagsOf r).isEmpty = true ∧ (v.heldOf r).isEmpty = true ∧ o.phase = .gather) →
            exec (.hostCompletion l n data) s = .next (s.finished (v.tagsFreed ⟨t.port, t.sub⟩))))))) ∧
  (∀ (s : State) (l : LinkId) (n : Nat),
    ∃ u : State, exec (.tagReuse l n) s = .next (s.finished (u.tagsFreed l)) ∧ u = { s with tags := u.tags } ∧
      ∀ t, t ∈ u.tags ↔ t ∈ s.tags ∧
        ¬(t.port = l.port ∧ t.sub = l.sub ∧ t.tag = n ∧ t.timedOut = true ∧ (s.fn t.fn).state ≠ .wedged)) ∧
  (∀ (s : State) (fn : Nat) (v : Bool), s.cfgAnswer fn = .served →
    ∃ u, exec (.configRequest fn (.writeMse v)) s = .next (s.finished u) ∧ (u.fn fn).mse = v ∧
      u.out = .pcie fn 0 (.success []) :: s.out ∧ (∀ f, f ≠ fn → u.fn f = s.fn f) ∧ memKept s u) ∧
  (∀ (s : State) (fn : Nat) (c : CfgField), s.cfgAnswer fn = .served →
    exec (.configRequest fn (.field c)) s = .next (s.finished (s.emit (.pcie fn 0 (.success (leBytes (s.cfgField fn c) 4)))))) ∧
  (∀ (s : State) (fn : Nat) (r : CfgReq), s.cfgAnswer fn = .retry →
    exec (.configRequest fn r) s = .next (s.finished (s.emit (.pcie fn 0 .retry)))) ∧
  (∀ (s : State) (fn : Nat) (r : CfgReq), s.cfgAnswer fn = .unsupported →
    exec (.configRequest fn r) s = .next (s.finished (s.emit (.pcie fn 0 .unsupported)))) ∧
  (∀ (s : State) (fn vec : Nat), s.barOpen fn = true → (s.fn fn).msixEn = true → (s.fn fn).msixMask = false → s.hostOpen fn = true →
    s.msix = [(msixKey fn vec, { pending := true })] →
    ∃ t, exec (.msixUnmask fn (some vec)) s = .next t ∧ t.out = .msix fn (vec % 2048) :: s.out ∧
      AMap.look {} t.msix (msixKey fn vec) = { mask := false } ∧ memKept s t)

/-- DOORBELL with the position of TAIL, or one from the oldest entry up to a whole ring beyond it, moves TAIL there and restarts a stopped
fetch, and any other position sets DB_ERR and moves nothing. DESCRIPTOR_FETCH, FETCH_RETRY and PREFETCH_POLL run a ring read of the queue
where its state asks for one; the ninth FETCH_RETRY in a row that finds no entry stops the fetch. QUEUE_ENABLE of a selected Q_OFF queue whose configuration passes the checks makes it Q_ACTIVE with empty positions, and one
that fails a check leaves it off with the code of the check. Q_INVAL_SLOT, Q_INVAL_QUEUE and Q_INVAL_ALL while idle drop the cached
copies they name and set BUSY, and Q_INVAL_DONE clears it. -/
def Obligations.WorkQueueCommandsComplete : Prop :=
  (∀ (s : State) (fn q t : Nat), s.barOpen fn = true → s.hasQueue fn q = true → (s.queue fn q).state ≠ .off →
    t % 2 ^ 32 = (s.queue fn q).tail ∨ subMod 32 (t % 2 ^ 32) (s.queue fn q).oldest ≤ s.ringSize fn q →
    ∃ u, exec (.doorbell fn q t) s = .next (s.finished u) ∧ (u.queue fn q).tail = t % 2 ^ 32 ∧ (u.queue fn q).tries = 0 ∧
      (u.queue fn q).prefetchStop = false ∧ (u.queue fn q).oldest = (s.queue fn q).oldest ∧ u.flag F.qfStatusStalled (qObj fn q) = false ∧
      (∀ k, k ≠ qObj fn q → AMap.find u.queues k = AMap.find s.queues k) ∧ regsKept [.qfStatus] s u ∧ memKept s u ∧ u.ops = s.ops) ∧
  (∀ (s : State) (fn q t : Nat), s.barOpen fn = true → s.hasQueue fn q = true → (s.queue fn q).state ≠ .off →
    t % 2 ^ 32 ≠ (s.queue fn q).tail → s.ringSize fn q < subMod 32 (t % 2 ^ 32) (s.queue fn q).oldest →
    ∃ u, exec (.doorbell fn q t) s = .next (s.finished u) ∧ u.flag F.qfStatusDbErr (qObj fn q) = true ∧ u.queues = s.queues ∧
      regsKept [.qfStatus] s u ∧ memKept s u) ∧
  (∀ (s : State) (fn q : Nat) (data : Option (List Byte)), s.fetching fn q = true → (s.queue fn q).tries = 0 → s.privileged fn q = false →
    exec (.descriptorFetch fn q data) s = .next (s.finished
      (s.fetchRing fn q (!(s.queue fn q).prefetchStop) (!(s.queue fn q).belowTail) data))) ∧
  (∀ (s : State) (fn q : Nat) (data : Option (List Byte)), s.fetching fn q = true → (s.queue fn q).tries = 0 → s.privileged fn q = true →
    exec (.descriptorFetch fn q data) s = .next (s.finished (s.fetchPriv fn q data))) ∧
  (∀ (s : State) (fn q : Nat) (data : Option (List Byte)), s.fetching fn q = true → (s.queue fn q).tries ≠ 0 →
    ((s.fetchRing fn q false false data).queue fn q).tries ≤ 8 →
    exec (.fetchRetry fn q data) s = .next (s.finished (s.fetchRing fn q false false data))) ∧
  (∀ (s t : State) (fn q : Nat) (data : Option (List Byte)), s.fetching fn q = true → (s.queue fn q).tries ≠ 0 →
    t = s.fetchRing fn q false false data → 8 < (t.queue fn q).tries →
    exec (.fetchRetry fn q data) s = .next (s.finished ((t.setQueue fn q { t.queue fn q with tries := 0 }).stall fn q)) ∧
      ((t.setQueue fn q { t.queue fn q with tries := 0 }).stall fn q).flag F.qfStatusStalled (qObj fn q) = true) ∧
  (∀ (s : State) (fn q : Nat) (data : Option (List Byte)), s.fetching fn q = true → (s.queue fn q).prefetchStop = true →
    (s.queue fn q).fetch = (s.queue fn q).tail → s.prefetch fn q ≠ 0 → s.fld F.qfCfgPollUs (qObj fn q) ≠ 0 →
    exec (.prefetchPoll fn q data) s = .next (s.finished (s.fetchRing fn q true true data))) ∧
  (∀ (s : State) (fn v q : Nat), q = s.fld F.qfSelQueue fn → s.barOpen fn = true → bit v 0 = true → s.hasQueue fn q = true →
    (s.queue fn q).state = .off → (s.qfFields fn q v true).enableCheck fn q = none →
    ∃ u, exec (.queueEnable fn v) s = .next (s.finished u) ∧ u.queue fn q = { state := .active } ∧
      u.flag F.qfCfgEnable (qObj fn q) = true ∧ (∀ k, k ≠ qObj fn q → AMap.find u.queues k = AMap.find s.queues k) ∧
      regsKept [.qfCfg] s u ∧ memKept s u) ∧
  (∀ (s : State) (fn v q : Nat) (st : Status), q = s.fld F.qfSelQueue fn → s.barOpen fn = true → bit v 0 = true → s.hasQueue fn q = true →
    (s.queue fn q).state = .off → (s.qfFields fn q v true).enableCheck fn q = some st →
    ∃ u, exec (.queueEnable fn v) s = .next (s.finished u) ∧ u.queues = s.queues ∧
      u.fld F.qfStatusCode (qObj fn q) = st.code % 2 ^ F.qfStatusCode.width ∧ regsKept [.qfCfg, .qfStatus] s u ∧ memKept s u) ∧
  (∀ (s : State) (org : Origin) (q slot : Nat), s.dcsOpen org 0x800000 = true → s.flag F.qInvalStatusBusy = false →
    ∃ t, exec (.qInvalSlot org q slot) s = .next t ∧ t.flag F.qInvalStatusBusy = true ∧
      t.dcache = s.dcache.filter (fun e => e.1 != dcKey q slot) ∧ regsKept [.qInvalStatus] s t ∧ memKept s t) ∧
  (∀ (s : State) (org : Origin) (q : Nat), s.dcsOpen org 0x800000 = true → s.flag F.qInvalStatusBusy = false →
    ∃ t, exec (.qInvalQueue org q) s = .next t ∧ t.flag F.qInvalStatusBusy = true ∧
      t.dcache = s.dcache.filter (fun e => e.1 / 256 != q) ∧ regsKept [.qInvalStatus] s t ∧ memKept s t) ∧
  (∀ (s : State) (org : Origin), s.dcsOpen org 0x800000 = true → s.flag F.qInvalStatusBusy = false →
    ∃ t, exec (.qInvalAll org) s = .next t ∧ t.flag F.qInvalStatusBusy = true ∧ t.dcache = [] ∧ regsKept [.qInvalStatus] s t ∧ memKept s t) ∧
  (∀ s : State, ∃ t, exec .qInvalDone s = .next t ∧ t.flag F.qInvalStatusBusy = false ∧ t.qinval = none ∧
      regsKept [.qInvalStatus] s t ∧ memKept s t ∧ t = { s with flds := t.flds, qinval := t.qinval, mem := t.mem })

/-- For a descriptor that may start: NOP completes with OK; COPY of no bytes completes with OK, and of some bytes, behind no parked
operation, takes a record and moves on as far as its buffers allow; FLUSH_HOST takes a record and issues its flush read; FENCE_HOST does
so once every earlier descriptor has completed and no host read of its function, of data or of page tables, is outstanding, and waits
until then; CVT_A2F ends with the keyed FGA
that the aperture slot names and CVT_F2A with the aperture offset of the lowest slot that fits, each NOT_CONVERTIBLE where there is none;
the array conversions, behind no parked operation, take a record and convert as far as their buffers allow. -/
def Obligations.DmaOperationsComplete : Prop :=
  (∀ (s : State) (r : OpRef) (o : Op), s.starting r 0x00 = some o → exec (.nop r) s = .next (s.finished (s.complete o .ok))) ∧
  (∀ (s : State) (r : OpRef) (o : Op), s.starting r 0x01 = some o → o.d.len = 0 →
    exec (.copy r) s = .next (s.finished (s.complete o .ok))) ∧
  (∀ (s t : State) (r : OpRef) (o o' : Op), s.starting r 0x01 = some o → o.d.len ≠ 0 → s.behindParked o = false → o.jrec ≠ none →
    s.admitLocal o 2 o.d.opx = some (o', t) → exec (.copy r) s = .next (s.finished (t.moveGo o'.ref o'.moveFuel))) ∧
  (∀ (s t : State) (r : OpRef) (o o' : Op), s.starting r 0x01 = some o → o.d.len ≠ 0 → s.behindParked o = false → o.jrec = none →
    s.admitLocal o 2 o.d.opx = some (o', t) →
    exec (.copy r) s = .next (s.finished ((t.icAdmit 0 o'.ref.fn o'.ref.q o'.ref.pos).moveGo o'.ref o'.moveFuel))) ∧
  (∀ (s t : State) (r : OpRef) (o o' : Op), s.starting r 0x04 = some o → s.behindParked o = false →
    s.admitLocal o 2 o.d.laddr = some (o', t) → exec (.flushHost r) s = .next (s.finished (t.flushGo o'))) ∧
  (∀ (s t : State) (r : OpRef) (o o' : Op), s.starting r 0x05 = some o → (s.queue o.ref.fn o.ref.q).oldest = o.ref.pos →
    (s.tags.any fun t => t.fn == o.ref.fn && !t.timedOut) = false →
    (s.walks.any fun k => k.fn == o.ref.fn && k.started && !k.hbm) = false → s.behindParked o = false →
    s.admitLocal o 2 o.d.laddr = some (o', t) → exec (.fenceHost r) s = .next (s.finished (t.flushGo o'))) ∧
  (∀ (s : State) (r : OpRef) (o : Op), s.starting r 0x05 = some o →
    (s.queue o.ref.fn o.ref.q).oldest ≠ o.ref.pos ∨ (s.tags.any fun t => t.fn == o.ref.fn && !t.timedOut) = true ∨
      (s.walks.any fun k => k.fn == o.ref.fn && k.started && !k.hbm) = true →
    exec (.fenceHost r) s = .next (s.finished s)) ∧
  (∀ (s t : State) (r : OpRef) (o o' : Op) (fga key : Nat), s.starting r 0x08 = some o → s.admitLocal o 2 o.d.opx = some (o', t) →
    o'.d = o.d → t.cvtA2f o'.ref.fn o.d.opx = some (fga, key) →
    exec (.cvtA2f r) s = .next (s.finished (t.complete o' .ok 0 fga key))) ∧
  (∀ (s t : State) (r : OpRef) (o o' : Op), s.starting r 0x08 = some o → s.admitLocal o 2 o.d.opx = some (o', t) →
    o'.d = o.d → t.cvtA2f o'.ref.fn o.d.opx = none → exec (.cvtA2f r) s = .next (s.finished (t.complete o' .notConvertible))) ∧
  (∀ (s t : State) (r : OpRef) (o o' : Op) (ao : Nat), s.starting r 0x09 = some o → s.admitLocal o 2 o.d.opx = some (o', t) →
    o'.d = o.d → t.cvtF2a o'.ref.fn o.d.opx o.d.rkey = some ao → exec (.cvtF2a r) s = .next (s.finished (t.complete o' .ok 0 ao))) ∧
  (∀ (s t : State) (r : OpRef) (o o' : Op), s.starting r 0x0A = some o → s.behindParked o = false →
    s.admitLocal o 2 o.d.opx = some (o', t) → exec (.cvtA2fArray r) s = .next (s.finished (t.cvtGo o'))) ∧
  (∀ (s t : State) (r : OpRef) (o o' : Op), s.starting r 0x0B = some o → s.behindParked o = false →
    s.admitLocal o 2 o.d.opx = some (o', t) → exec (.cvtF2aArray r) s = .next (s.finished (t.cvtGo o')))

/-- A NOP that may start, whose ring lies in HBM that takes the write and whose queue is not held, where no register write of its function
is still to be made, with no resident range and no dirty log running, writes the 32 bytes of its completion half, with status OK, COUNT 0 and RESULT 0 and its seven bytes of time, over bytes 32 to 63 of its own entry;
every other byte of HBM reads as before; the operation is no longer in progress; and where it was the oldest position and no later one
had completed, OLDEST moves past it. -/
def Obligations.NopCompletesInPlace : Prop :=
  ∀ (s : State) (r : OpRef) (o : Op), s.starting r 0x00 = some o → s.ringInHbm r.fn r.q = true → (s.queue r.fn r.q).state ≠ .held →
    s.putsRegisters r.fn = false → s.cplBusy r = false → s.spaceCheck 0 (s.entryAddr r.fn r.q r.pos % 2 ^ 44 + 32) 32 true = none →
    s.res = [] → (∀ fn, s.flag F.fnDlCtrlHbmEn fn = false) →
    ∃ u, exec (.nop r) s = .next (s.finished u) ∧
      (∀ i, i < 32 → readByte u.mem (s.entryAddr r.fn r.q r.pos % 2 ^ 44 + 32 + i) = (cplHalf o .ok 0 0 0 s.stamp false).getD i 0#8) ∧
      memKeptBut (s.entryAddr r.fn r.q r.pos % 2 ^ 44 + 32) 32 s u ∧ u.op r = none ∧
      ((s.queue r.fn r.q).oldest = r.pos → (s.queue r.fn r.q).finished = [] → (u.queue r.fn r.q).oldest = (r.pos + 1) % 2 ^ 32)

/-- For a descriptor that may start: WRITE, READ, FADD, CAS64, CAS128 and each TS_OP run on this node where their key names a window of
this node, and are sent over their QP otherwise; SEND is sent over its QP; RECV on a QP that is up is posted with its tag behind those
posted before; ARM waits while its second entry has not been fetched, is armed for it once it has, and completes with OK where that
entry has completed with a failed check; STEP_LOAD and STEP_START whose District is on, that pass their checks and have a record, begin on an
idle Block for which none waits, and wait behind those that wait for a Block that is not idle. -/
def Obligations.RemoteOperationsStart : Prop :=
  (∀ (s : State) (r : OpRef) (o : Op), s.keyTarget o.ref.fn o.d.qp o.d.rkey = .owned →
    (s.starting r 0x10 = some o → exec (.write r) s = .next (s.finished (s.localStart o))) ∧
    (s.starting r 0x11 = some o → exec (.read r) s = .next (s.finished (s.localStart o))) ∧
    (s.starting r 0x14 = some o → exec (.fadd r) s = .next (s.finished (s.localStart o))) ∧
    (s.starting r 0x15 = some o → exec (.cas64 r) s = .next (s.finished (s.localStart o))) ∧
    (s.starting r 0x16 = some o → exec (.cas128 r) s = .next (s.finished (s.localStart o))) ∧
    (s.starting r 0x18 = some o → o.d.var = 0x1 → exec (.tsRead r) s = .next (s.finished (s.localStart o))) ∧
    (s.starting r 0x18 = some o → o.d.var = 0x2 → exec (.tsSet r) s = .next (s.finished (s.localStart o))) ∧
    (s.starting r 0x18 = some o → o.d.var = 0x3 → exec (.tsAdd r) s = .next (s.finished (s.localStart o))) ∧
    (s.starting r 0x18 = some o → o.d.var = 0x4 → exec (.tsCas r) s = .next (s.finished (s.localStart o))) ∧
    (s.starting r 0x18 = some o → o.d.var = 0x5 → exec (.tsWait r) s = .next (s.finished (s.localStart o))) ∧
    (s.starting r 0x18 = some o → o.d.var = 0x6 → exec (.tsAddWait r) s = .next (s.finished (s.localStart o))) ∧
    (s.starting r 0x18 = some o → o.d.var = 0x8 → exec (.tsAcquire r) s = .next (s.finished (s.localStart o))) ∧
    (s.starting r 0x18 = some o → o.d.var = 0x9 → exec (.tsTry r) s = .next (s.finished (s.localStart o))) ∧
    (s.starting r 0x18 = some o → o.d.var = 0xA → exec (.tsRelease r) s = .next (s.finished (s.localStart o))) ∧
    (s.starting r 0x18 = some o → o.d.var = 0xB → exec (.tsHandover r) s = .next (s.finished (s.localStart o))) ∧
    (s.starting r 0x18 = some o → o.d.var = 0xC → exec (.tsAbandon r) s = .next (s.finished (s.localStart o)))) ∧
  (∀ (s : State) (r : OpRef) (o : Op), s.keyTarget o.ref.fn o.d.qp o.d.rkey ≠ .owned →
    (s.starting r 0x10 = some o → exec (.write r) s = .next (s.finished (s.tpStart o))) ∧
    (s.starting r 0x11 = some o → exec (.read r) s = .next (s.finished (s.tpStart o))) ∧
    (s.starting r 0x14 = some o → exec (.fadd r) s = .next (s.finished (s.tpStart o))) ∧
    (s.starting r 0x15 = some o → exec (.cas64 r) s = .next (s.finished (s.tpStart o))) ∧
    (s.starting r 0x16 = some o → exec (.cas128 r) s = .next (s.finished (s.tpStart o))) ∧
    (s.starting r 0x18 = some o → o.d.var = 0x1 → exec (.tsRead r) s = .next (s.finished (s.tpStart o))) ∧
    (s.starting r 0x18 = some o → o.d.var = 0x2 → exec (.tsSet r) s = .next (s.finished (s.tpStart o))) ∧
    (s.starting r 0x18 = some o → o.d.var = 0x3 → exec (.tsAdd r) s = .next (s.finished (s.tpStart o))) ∧
    (s.starting r 0x18 = some o → o.d.var = 0x4 → exec (.tsCas r) s = .next (s.finished (s.tpStart o))) ∧
    (s.starting r 0x18 = some o → o.d.var = 0x5 → exec (.tsWait r) s = .next (s.finished (s.tpStart o))) ∧
    (s.starting r 0x18 = some o → o.d.var = 0x6 → exec (.tsAddWait r) s = .next (s.finished (s.tpStart o))) ∧
    (s.starting r 0x18 = some o → o.d.var = 0x8 → exec (.tsAcquire r) s = .next (s.finished (s.tpStart o))) ∧
    (s.starting r 0x18 = some o → o.d.var = 0x9 → exec (.tsTry r) s = .next (s.finished (s.tpStart o))) ∧
    (s.starting r 0x18 = some o → o.d.var = 0xA → exec (.tsRelease r) s = .next (s.finished (s.tpStart o))) ∧
    (s.starting r 0x18 = some o → o.d.var = 0xB → exec (.tsHandover r) s = .next (s.finished (s.tpStart o))) ∧
    (s.starting r 0x18 = some o → o.d.var = 0xC → exec (.tsAbandon r) s = .next (s.finished (s.tpStart o)))) ∧
  (∀ (s : State) (r : OpRef) (o : Op), s.starting r 0x12 = some o → exec (.send r) s = .next (s.finished (s.tpStart o))) ∧
  (∀ (s : State) (r : OpRef) (o : Op), s.starting r 0x13 = some o → (s.qp o.d.qp).up = true →
    ∃ u, exec (.recv r) s = .next (s.finished u) ∧ (u.qp o.d.qp).recvs = (s.qp o.d.qp).recvs ++ [(o.ref, o.d.opa % 2 ^ 32)] ∧
      (∀ q, q ≠ o.d.qp → u.qp q = s.qp q) ∧ u = { s with qps := u.qps, ops := u.ops }) ∧
  (∀ (s : State) (r : OpRef) (o sec : Op), s.starting r 0x30 = some o → o.d.var = 1 → s.secondOf o = some sec →
    exec (.armSendTag r) s = .next (s.finished (s.arm o sec (.tag (o.d.opa % 2 ^ 32))))) ∧
  (∀ (s : State) (r : OpRef) (o sec : Op) (fga : Nat), s.starting r 0x30 = some o → o.d.var = 0 → s.secondOf o = some sec →
    s.keyTarget o.ref.fn o.d.qp o.d.rkey = .owned → s.localTarget (s.user o.ref.fn) o.d.rkey o.d.opx 16 true false .turnstile = .ok fga →
    fgaOff fga % 16 = 0 → exec (.armThreshold r) s = .next (s.finished (s.arm o sec (.threshold (fgaOff fga / 16) o.d.opa
      (if o.d.rkey = 0 then none else some (keyIndex o.d.rkey, keyGen o.d.rkey)))))) ∧
  (∀ (s : State) (r : OpRef) (o : Op), s.starting r 0x30 = some o → s.secondOf o = none →
    (o.d.var = 0 → exec (.armThreshold r) s = .next (s.finished (if o.alone then s.complete o .ok else s))) ∧
    (o.d.var = 1 → exec (.armSendTag r) s = .next (s.finished (if o.alone then s.complete o .ok else s)))) ∧
  (∀ (s t : State) (r : OpRef) (o o' : Op), (s.blk o.d.var).loading ≠ some o.ref →
    s.domOn (blkDomain s.fuses.variant.blkPerDist o.d.var) = true → s.loadCheck o = none → s.admitTable o = some (o', t) →
    ((t.blk o.d.var).idleNow = true → (t.blk o.d.var).waiting = [] →
      (s.starting r 0x28 = some o → exec (.stepLoad r) s = .next (s.finished (t.beginTable o'))) ∧
      (s.starting r 0x29 = some o → exec (.stepStart r) s = .next (s.finished (t.beginTable o')))) ∧
    ((t.blk o.d.var).idleNow = false ∨ (t.blk o.d.var).waiting ≠ [] →
      ∃ u, (s.starting r 0x28 = some o → exec (.stepLoad r) s = .next (s.finished u)) ∧
        (s.starting r 0x29 = some o → exec (.stepStart r) s = .next (s.finished u)) ∧
        u.blk o.d.var = { t.blk o.d.var with waiting := (t.blk o.d.var).waiting ++ [o'.ref] } ∧
        (∀ k, k ≠ o.d.var → u.blk k = t.blk k) ∧ u = { t with blks := u.blks, ops := u.ops }))

/-- While WINC of a served function is idle: CREATE with arguments that pass the checks makes the lowest free window index W_VALID with
the arguments' range, rights and grant, and shows its key with OK; REVOKE and DESTROY by the owner of a valid window whose key is current
and whose generation is not the last start its revocation with BUSY set, and with a key of another generation end KEY_STALE; IMPORT of
an import record that the function holds, over a QP of its own to the owner that is up, sends WIN_QUERY on the QP's next path and stays
BUSY; FORGET of an import record drops it and leaves every window of another index; QUERY of a window that the function owns writes its
64-byte descriptor to the place that ARG0 names, and ends with OK, or with NOT_PERMITTED where a line of it lies in a resident range.
REVOCATION_DONE with nothing left that was admitted makes a revoked window W_VALID and a destroyed one W_FREE, or W_RETIRED where its
generation is the last, and ends the command that waits for it. -/
def Obligations.WindowCommandsComplete : Prop :=
  (∀ (s : State) (fn i : Nat), s.barOpen fn = true → s.flag F.wincStatusBusy fn = false →
    s.windowCheck fn (s.fld F.wincArg0Value fn) (s.fld F.wincArg1Length fn) = none → s.freeWindow = some i →
    ∃ u, exec (.winCreate fn) s = .next (s.finished u) ∧ (u.win i).state = .valid ∧ (u.win i).gen = (s.win i).gen ∧
      (u.win i).base = s.fld F.wincArg0Value fn ∧ (u.win i).len = s.fld F.wincArg1Length fn ∧ (u.win i).owner = fn ∧
      (u.win i).r = s.flag F.wincArg2R fn ∧ (u.win i).w = s.flag F.wincArg2W fn ∧ (u.win i).grant = s.fld F.wincArg2Grant fn ∧
      (∀ j, j ≠ i → u.win j = s.win j) ∧ u.flag F.wincStatusFail fn = false ∧ u.fld F.wincStatusCode fn = Status.ok.code ∧
      u.fld F.wincStatusKey fn = mkKey i (s.win i).gen % 2 ^ 32 ∧ regsKept [.wincStatus] s u ∧ memKept s u) ∧
  (∀ (s : State) (fn key : Nat), s.barOpen fn = true → s.flag F.wincStatusBusy fn = false → keyIndex key ≠ 0 → keyIndex key < winCount →
    (s.win (keyIndex key)).state = .valid → keyGen key = (s.win (keyIndex key)).gen → (s.win (keyIndex key)).owner = fn →
    (s.win (keyIndex key)).gen < 1023 →
    exec (.winRevoke fn key) s = .next (s.finished ((s.setFlag F.wincStatusBusy true fn).revoke (keyIndex key) false (some fn) false)) ∧
    exec (.winDestroy fn key) s = .next (s.finished ((s.setFlag F.wincStatusBusy true fn).revoke (keyIndex key) true (some fn) false))) ∧
  (∀ (s : State) (fn key : Nat), s.barOpen fn = true → s.flag F.wincStatusBusy fn = false → keyIndex key ≠ 0 → keyIndex key < winCount →
    (s.win (keyIndex key)).state = .valid → keyGen key ≠ (s.win (keyIndex key)).gen →
    exec (.winRevoke fn key) s = .next (s.finished (s.wincEnds fn .keyStale)) ∧
    exec (.winDestroy fn key) s = .next (s.finished (s.wincEnds fn .keyStale))) ∧
  (∀ (s : State) (fn key q : Nat) (m : Import), s.barOpen fn = true → s.flag F.wincStatusBusy fn = false →
    q = bits (s.fld F.wincArg0Value fn) 19 0 → s.ownsQp fn q = true → (s.qp q).roce = false →
    (s.qp q).peerNode = bits (s.fld F.wincArg0Value fn) 63 48 → (s.qp q).up = true →
    s.importOf fn (s.qp q).peerNode (keyIndex key) = some m →
    exec (.winImport fn key) s = .next (s.finished
      ((({ s with imports := s.imports.map fun y => if y = m then { m with asked := some key, askQp := q } else y }).setFlag
        F.wincStatusBusy true fn).ctrlOut q { op := .winQuery, key := key, aliveRel := (s.qp q).relOut }))) ∧
  (∀ (s : State) (fn key : Nat) (m : Import), s.barOpen fn = true → s.flag F.wincStatusBusy fn = false →
    s.importOf fn (bits (s.fld F.wincArg0Value fn) 63 48) (keyIndex key) = some m →
    ∃ u, exec (.winForget fn key) s = .next (s.finished u) ∧ u.imports = s.imports.filter (fun y => y != m) ∧
      (∀ j, j ≠ m.slot → u.win j = s.win j) ∧ u.fld F.wincStatusCode fn = Status.ok.code ∧ regsKept [.wincStatus] s u ∧ memKept s u) ∧
  (∀ (s : State) (fn key : Nat), s.barOpen fn = true → s.flag F.wincStatusBusy fn = false →
    (s.win (keyIndex key)).held = true → (s.win (keyIndex key)).owner = fn → s.ownHbm fn (s.fld F.wincArg0Value fn) 64 true = none →
    exec (.winQueryCmd fn key) s = .next (s.finished
      ((s.hbmWrite (fgaOff (s.fld F.wincArg0Value fn)) (s.windowBytes (keyIndex key))).wincEnds fn
        (s.heldBack (fgaOff (s.fld F.wincArg0Value fn)) 64)))) ∧
  (∀ (s : State) (i fn : Nat), (s.win i).state = .revoking → s.draining i = false → (s.win i).cmdFn = some fn → (s.win i).exhausts = false →
    ∃ u, exec (.revocationDone i) s = .next (s.finished u) ∧ (u.win i).state = .valid ∧ (u.win i).gen = (s.win i).gen ∧
      (∀ j, j ≠ i → u.win j = s.win j) ∧ u.flag F.wincStatusBusy fn = false ∧ u.fld F.wincStatusCode fn = Status.ok.code ∧
      u.fld F.wincStatusKey fn = mkKey i (s.win i).gen % 2 ^ 32 ∧ regsKept [.wincStatus] s u ∧ memKept s u) ∧
  (∀ (s : State) (i : Nat), (s.win i).state = .destroying → s.draining i = false → (s.win i).cmdFn = none →
    ∃ u, exec (.revocationDone i) s = .next (s.finished u) ∧
      (u.win i).state = (if (s.win i).gen = 1023 then .retired else .free) ∧ (∀ j, j ≠ i → u.win j = s.win j) ∧ u.flds = s.flds ∧ memKept s u) ∧
  (∀ (s : State) (i fn : Nat), (s.win i).state = .destroying → s.draining i = false → (s.win i).cmdFn = some fn →
    ∃ u, exec (.revocationDone i) s = .next (s.finished u) ∧
      (u.win i).state = (if (s.win i).gen = 1023 then .retired else .free) ∧ (∀ j, j ≠ i → u.win j = s.win j) ∧
      u.flag F.wincStatusBusy fn = false ∧ u.flag F.wincStatusFail fn = (s.win i).exhausts ∧
      u.fld F.wincStatusCode fn = (if (s.win i).exhausts then Status.poolExhausted else Status.ok).code ∧
      regsKept [.wincStatus] s u ∧ memKept s u)

/-- For each of TS_READ, TS_SET, TS_ADD, TS_CAS, TS_WAIT, TS_ADD_WAIT, TS_ACQUIRE, TS_TRY, TS_RELEASE, TS_HANDOVER and TS_ABANDON: a
descriptor that may start, with no earlier operation on a target of this node in its queue, whose record is taken and whose target passes
the checks at a multiple of 16, leaves the turnstile of that offset as the operation of Table 6.9 and Table 6.10 makes it, every other
turnstile as it was, and all of HBM as it was; and where the operation waits, the descriptor stays in progress. -/
def Obligations.LocalTurnstileOperationsTakeEffect : Prop :=
  ∀ (r : OpRef) (c : Instr) (code : Nat), (c, code) ∈ [(.tsRead r, 0x1), (.tsSet r, 0x2), (.tsAdd r, 0x3), (.tsCas r, 0x4), (.tsWait r, 0x5),
      (.tsAddWait r, 0x6), (.tsAcquire r, 0x8), (.tsTry r, 0x9), (.tsRelease r, 0xA), (.tsHandover r, 0xB), (.tsAbandon r, 0xC)] →
    ∀ (s t : State) (o o' : Op) (fga : Nat), s.starting r 0x18 = some o → o.d.var = code →
      s.keyTarget o.ref.fn o.d.qp o.d.rkey = .owned → s.localBefore o = none → o.d.notify = false →
      s.admitLocal o 0 (s.formed o.ref.fn o.d.qp o.d.rkey o.d.opx) = some (o', t) →
      t.localTarget (t.user r.fn) o.d.rkey o.d.opx 16 true (tsNeedsW code) .turnstile = .ok fga → fgaOff fga % 16 = 0 →
      ∃ u, exec c s = .next (s.finished u) ∧
        u.turn (fgaOff fga / 16) = ((s.turn (fgaOff fga / 16)).apply code o.d.opa o.d.opb (s.user r.fn) (.op r)
          (if o.d.rkey = 0 then none else some (keyIndex o.d.rkey, keyGen o.d.rkey)) (s.isManager r.fn)).1 ∧
        (∀ n, n ≠ fgaOff fga / 16 → u.turn n = s.turn n) ∧
        (((s.turn (fgaOff fga / 16)).apply code o.d.opa o.d.opb (s.user r.fn) (.op r)
          (if o.d.rkey = 0 then none else some (keyIndex o.d.rkey, keyGen o.d.rkey)) (s.isManager r.fn)).2.2 = true →
          ∃ y, u.op r = some y ∧ y.phase = .engine) ∧
        memKept s u

/-- TS_READ leaves the turnstile and gives its value. TS_SET makes the value its operand, TS_ADD adds it modulo 2^64, and TS_CAS replaces
the value where it equals the first operand; each gives the value before. TS_WAIT ends at once with the value where that is at or above
the threshold, and else waits behind those that wait. TS_ADD_WAIT adds, and ends at once with the value before where the new value
reaches the threshold, and else waits. -/
def Obligations.TurnstileValueOperations : Prop :=
  ∀ (t : Turnstile) (a b : Nat) (u : User) (src : TsSource) (key : Option (Nat × Nat)) (m : Bool),
    t.apply 0x1 a b u src key m = (t, [{ src := src, result := t.value }], false) ∧
    (t.apply 0x2 a b u src key m).1.value = a % 2 ^ 64 ∧
    (t.apply 0x3 a b u src key m).1.value = (t.value + a) % 2 ^ 64 ∧
    (t.value = a → (t.apply 0x4 a b u src key m).1.value = b % 2 ^ 64) ∧
    (t.value ≠ a → (t.apply 0x4 a b u src key m).1 = t) ∧
    (∀ code, code ∈ [0x2, 0x3, 0x4] → (t.apply code a b u src key m).2.1.head? = some { src := src, result := t.value } ∧
      (t.apply code a b u src key m).2.2 = false) ∧
    (a ≤ t.value → t.apply 0x5 a b u src key m = (t, [{ src := src, result := t.value }], false)) ∧
    (t.value < a → t.apply 0x5 a b u src key m =
      ({ t with waiters := t.waiters ++ [{ src := src, user := u, want := .value a none, key := key }] }, [], true)) ∧
    (t.apply 0x6 a b u src key m).1.value = (t.value + a) % 2 ^ 64 ∧
    ((t.apply 0x6 a b u src key m).2.2 = true ↔ (t.value + a) % 2 ^ 64 < b)

/-- A turnstile is sound when every operation that waits for a threshold has one above the value and operations wait for the lock only
while it is held. Every operation of Tables 6.9 and 6.10, by any user and with any operands, keeps a sound turnstile sound: a value that
reaches a threshold leaves no waiter for it behind, and a lock that is released, handed over or abandoned is either held again or has no
waiter. -/
def Obligations.TurnstileOperationsKeepWaitersUnmet : Prop :=
  ∀ (t : Turnstile) (code a b : Nat) (u : User) (src : TsSource) (key : Option (Nat × Nat)) (m : Bool),
    t.sound → (t.apply code a b u src key m).1.sound

/-- Where the holder of a held turnstile releases it and operations wait for the lock, the first of them in order of arrival leaves the
waiters, holds the lock, and ends with status OK, with the owner field before the release as its result and not ABANDONED; the other
waiters keep their order, the value is unchanged, and the release itself ends with the same owner field. Where the manager abandons it,
the first waiter holds it and its ABANDONED is set. -/
def Obligations.ReleasedLockPassesToTheOldestWaiter : Prop :=
  ∀ (t : Turnstile) (pre post : List TsWaiter) (w : TsWaiter) (u : User) (src : TsSource) (key : Option (Nat × Nat)) (a b : Nat) (m : Bool),
    t.waiters = pre ++ w :: post → (∀ x, x ∈ pre → x.want ≠ .lock) → w.want = .lock → lstate t.ownerField = 1 →
    (holder t.ownerField = u →
      t.apply 0xA a b u src key m = ({ t with waiters := pre ++ post, owner := mkOwner w.user 1 0 },
        [{ src := src, result := t.ownerField }, { src := w.src, result := t.ownerField }], false)) ∧
    (t.apply 0xC a b u src key true = ({ t with waiters := pre ++ post, owner := mkOwner w.user 1 0 },
        [{ src := src, result := t.ownerField }, { src := w.src, result := t.ownerField, abandoned := true }], false)) ∧
    (w.user.node < 65536 → w.user.fn < 256 → holder (mkOwner w.user 1 0) = w.user ∧ lstate (mkOwner w.user 1 0) = 1)

/-- A plain packet of each kind that arrives from the peer of its QP, with its context on die, is counted and used, and then: requests
are classified and applied by the target, responses, ACK, NAK and WAITING take ALIVE_REL and reach the requester; CONNECT on QP_INIT in
SERVICE connects and answers ACCEPT, and in another state answers REFUSE with NOT_READY; ACCEPT on QP_CONNECTING connects; REFUSE with
another status than NOT_READY returns it to QP_INIT and keeps the status; CLOSE and RESET_NOTICE, once ALIVE_REL is taken, end the
connection; WIN_QUERY by a permitted user of a valid window is answered by WIN_INFO with its range and rights, and one with index 0 or
whose window does not exist or is free by a NAK with KEY_INVALID, each with the ALIVE_REL that stands once that of the packet is taken;
WIN_INFO completes the import that waits; PATH_PROBE is echoed on its path. Requests and responses pass the function's
network meter first. A packet that is not from the peer is counted in DROP_MATCH and changes no QP. -/
def Obligations.TransportPacketsTakeEffect : Prop :=
  (∀ (s v : State) (p : SltPkt) (a : Arrival), sltRequest p.op = true → s.takesSlt p a → (s.qp p.dstQp).up = true →
    ((s.contextUsed p.dstQp).netMeter p.dstQp a (sltBytes p)).1 = some v →
    exec (.requestPacket p a) s = .next (s.finished (v.tgtRequest p.dstQp p))) ∧
  (∀ (s v : State) (p : SltPkt) (a : Arrival), sltResponse p.op = true → s.takesSlt p a → (s.qp p.dstQp).up = true →
    ((s.contextUsed p.dstQp).netMeter p.dstQp a (sltBytes p)).1 = some v →
    exec (.responsePacket p a) s = .next (s.finished ((v.takeRel p.dstQp p).reqResponse p.dstQp p))) ∧
  (∀ (s : State) (p : SltPkt) (a : Arrival), s.takesSlt p a → (s.qp p.dstQp).up = true →
    (p.op = .ack → exec (.ack p a) s = .next (s.finished (((s.contextUsed p.dstQp).takeRel p.dstQp p).reqAck p.dstQp p))) ∧
    (p.op = .nak → exec (.nak p a) s = .next (s.finished (((s.contextUsed p.dstQp).takeRel p.dstQp p).reqNak p.dstQp p))) ∧
    (p.op = .waiting → exec (.waiting p a) s = .next (s.finished (((s.contextUsed p.dstQp).takeRel p.dstQp p).reqWaiting p.dstQp p))) ∧
    (p.op = .close → exec (.close p a) s = .next (s.finished
      (((s.contextUsed p.dstQp).takeRel p.dstQp p).qpError p.dstQp .unreachable .unreachable))) ∧
    (p.op = .resetNotice → exec (.resetNotice p a) s = .next (s.finished
      (((s.contextUsed p.dstQp).takeRel p.dstQp p).takeClose p.dstQp true))) ∧
    (p.op = .pathProbe → exec (.pathProbe p a) s = .next (s.finished ((s.contextUsed p.dstQp).sendAck p.dstQp (p.probe.getD 0) p.path)))) ∧
  (∀ (s : State) (p : SltPkt) (a : Arrival), p.op = .connect → s.takesSlt p a → (s.qp p.dstQp).state = .init → s.dev.state = .service →
    exec (.connect p a) s = .next (s.finished (((s.contextUsed p.dstQp).connected p.dstQp p).ctrlOut p.dstQp
      ((((s.contextUsed p.dstQp).connected p.dstQp p).qp p.dstQp).hello .accept)))) ∧
  (∀ (s : State) (p : SltPkt) (a : Arrival), p.op = .connect → s.takesSlt p a → (s.qp p.dstQp).state = .init → s.dev.state ≠ .service →
    exec (.connect p a) s = .next (s.finished ((s.contextUsed p.dstQp).refuse p.dstQp .notReady))) ∧
  (∀ (s : State) (p : SltPkt) (a : Arrival), p.op = .accept → s.takesSlt p a → (s.qp p.dstQp).state = .connecting →
    exec (.accept p a) s = .next (s.finished ((s.contextUsed p.dstQp).connected p.dstQp p))) ∧
  (∀ (s : State) (p : SltPkt) (a : Arrival), p.op = .refuse → s.takesSlt p a → (s.qp p.dstQp).state = .connecting →
    p.status ≠ Status.notReady.code →
    ∃ u, exec (.refuse p a) s = .next (s.finished u) ∧ (u.qp p.dstQp).state = .init ∧ (u.qp p.dstQp).lastStatus = p.status % 256 ∧
      (∀ q, q ≠ p.dstQp → u.qp q = s.qp q) ∧ memKept s u) ∧
  (∀ (s t : State) (p : SltPkt) (a : Arrival), p.op = .winQuery → s.takesSlt p a → (s.qp p.dstQp).up = true →
    t = (s.contextUsed p.dstQp).takeRel p.dstQp p → keyIndex p.key ≠ 0 → keyIndex p.key < winCount → (s.win (keyIndex p.key)).state = .valid →
    keyGen p.key = (s.win (keyIndex p.key)).gen → s.granted (s.win (keyIndex p.key)) (s.qp p.dstQp).user = true →
    exec (.winQuery p a) s = .next (s.finished (t.sltOut p.dstQp
      { op := .winInfo, path := p.path, aliveRel := (t.qp p.dstQp).relOut, a := (s.win (keyIndex p.key)).base,
        b := (s.win (keyIndex p.key)).len,
        mode := (s.win (keyIndex p.key)).grant * 4 + b2n (s.win (keyIndex p.key)).w * 2 + b2n (s.win (keyIndex p.key)).r }))) ∧
  (∀ (s t : State) (p : SltPkt) (a : Arrival), p.op = .winQuery → s.takesSlt p a → (s.qp p.dstQp).up = true →
    t = (s.contextUsed p.dstQp).takeRel p.dstQp p →
    keyIndex p.key = 0 ∨ winCount ≤ keyIndex p.key ∨ (s.win (keyIndex p.key)).state = .free →
    exec (.winQuery p a) s = .next (s.finished (t.sltOut p.dstQp
      { op := .nak, psn := (s.qp p.dstQp).cum, status := Status.keyInvalid.code, path := p.path,
        aliveRel := (t.qp p.dstQp).relOut }))) ∧
  (∀ (s : State) (p : SltPkt) (a : Arrival) (r : Import), p.op = .winInfo → s.takesSlt p a → (s.qp p.dstQp).up = true →
    s.asking p.dstQp = some r →
    ∃ u, exec (.winInfo p a) s = .next (s.finished u) ∧ u.flag F.wincStatusBusy r.fn = false ∧ u.fld F.wincStatusCode r.fn = Status.ok.code ∧
      (∀ y, y ∈ s.imports → ¬(y.fn = r.fn ∧ y.node = r.node ∧ y.index = r.index) → y ∈ u.imports) ∧
      (∃ y, y ∈ u.imports ∧ y.fn = r.fn ∧ y.node = r.node ∧ y.index = r.index ∧ y.state = .imported ∧ y.base = p.a ∧ y.len = p.b ∧
        y.r = bit p.mode 0 ∧ y.w = bit p.mode 1 ∧ y.asked = none) ∧ memKept s u) ∧
  (∀ (s : State) (p : SltPkt) (a : Arrival), p.op = .ack → s.takes p.dstQp a → (s.qp p.dstQp).fromPeer p = false →
    ∃ u, exec (.ack p a) s = .next (s.finished u) ∧
      u.fld F.tpPipeCntDropMatch (p.dstQp % 4) =
        satAdd (2 ^ F.tpPipeCntDropMatch.width - 1) (s.fld F.tpPipeCntDropMatch (p.dstQp % 4)) 1 % 2 ^ F.tpPipeCntDropMatch.width ∧
      u.qps = s.qps ∧ memKept s u)

/-- A whole RoCEv2 packet for a RoCEv2 QP that is up, with its context on die, is counted and used, and then: a request that passes the
function's network meter reaches the responder, an acknowledgement, NAK or RNR reaches the requester, a READ or atomic response does so
after the meter, and a CNP counts as a mark where the profile that governs the QP has ECN_EN set. -/
def Obligations.RocePacketsTakeEffect : Prop :=
  (∀ (s v : State) (p : RocePkt) (a : Arrival), roceIsRequest p.op = true → s.takesRoce p a →
    ((s.contextUsed p.dstQp).netMeter p.dstQp a (roceBytes p)).1 = some v →
    exec (.roceRequest p a) s = .next (s.finished (v.roceRequest p.dstQp p))) ∧
  (∀ (s : State) (p : RocePkt) (a : Arrival), roceIsAnswer p.op = true → p.op ≠ .readResp → p.op ≠ .atomicAck → s.takesRoce p a →
    exec (.roceResponse p a) s = .next (s.finished ((s.contextUsed p.dstQp).roceResponse p.dstQp p))) ∧
  (∀ (s v : State) (p : RocePkt) (a : Arrival), p.op = .readResp ∨ p.op = .atomicAck → s.takesRoce p a →
    ((s.contextUsed p.dstQp).netMeter p.dstQp a (roceBytes p)).1 = some v →
    exec (.roceResponse p a) s = .next (s.finished (v.roceResponse p.dstQp p))) ∧
  (∀ (s : State) (p : RocePkt) (a : Arrival), p.op = .cnp → s.takesRoce p a → (s.prof p.dstQp).ecnEn = true →
    exec (.cnp p a) s = .next (s.finished ((s.contextUsed p.dstQp).markEvent p.dstQp true true)))

/-- While QPC of a function is open and not BUSY: CREATE with a set-up block that passes the checks, and a key set that may be bound where it
asks for encryption, makes the lowest free QP of the
function QP_INIT with the block's settings and shows its number with OK; CONNECT of an SLT QP in QP_INIT makes it QP_CONNECTING and sends
CONNECT, and of a RoCEv2 QP makes it QP_CONNECTED; CONNECT in another state ends with QP_ERROR and changes no QP; DISCONNECT of a
connected QP makes it QP_CLOSING; RESET of a QP that is not free and not up returns it to QP_INIT; DESTROY of a QP in QP_INIT or QP_ERROR
frees it; QUERY writes its visible context to ARG0 and ends with OK, or with NOT_PERMITTED where a line of it lies in a resident range.
QUERY, RESET and CONNECT for a QP outside the function's allocation end with NOT_PERMITTED. CONNECT and its repetition go on the QP's next
path. CONNECT_RESEND of a connecting QP sends CONNECT again, and CONNECT_TIMEOUT returns it to QP_INIT with UNREACHABLE. -/
def Obligations.QpCommandsComplete : Prop :=
  (∀ (s : State) (fn q : Nat) (b : QpBlock), s.qpcOpen fn → s.ownHbm fn (s.fld F.qpcArg0Fga fn) 64 false = none →
    b = QpBlock.ofBytes (s.hbmRead (fgaOff (s.fld F.qpcArg0Fga fn)) 64) → s.qpBlockOk b = true → s.qpSizesOk b = true →
    b.sec = 0 ∨ s.keyFree fn b.keyh = true → s.freeQp fn b.pipe = some q →
    ∃ u, exec (.qpCreate fn) s = .next (s.finished u) ∧ u.qp q = s.newQp fn b ∧ (∀ x, x ≠ q → u.qp x = s.qp x) ∧
      u.qpcEnded fn .ok ∧ u.fld F.qpcStatusQp fn = q % 2 ^ F.qpcStatusQp.width ∧ memKept s u) ∧
  (∀ (s : State) (fn q : Nat), s.qpcOpen fn → s.holdsQp fn q = true → (s.qp q).state = .init → (s.qp q).roce = false →
    exec (.qpConnect fn q) s = .next (s.finished (((s.setQp q { s.qp q with state := .connecting, lastStatus := 0, time := s.stamp }).ctrlOut q
      ((s.qp q).hello .connect)).qpcEnds fn .ok))) ∧
  (∀ (s : State) (fn q : Nat), s.qpcOpen fn → s.holdsQp fn q = true → (s.qp q).state = .init → (s.qp q).roce = true →
    exec (.qpConnect fn q) s = .next (s.finished
      (((s.newConn.setQp q { s.qp q with state := .connected, conn := s.conns + 1, lastStatus := 0, time := s.stamp }).startRate q).qpcEnds fn .ok))) ∧
  (∀ (s : State) (fn q : Nat), s.qpcOpen fn → s.holdsQp fn q = true → (s.qp q).state ≠ .init →
    ∃ u, exec (.qpConnect fn q) s = .next (s.finished u) ∧ u.qpcEnded fn .qpError ∧ u.qps = s.qps ∧
      regsKept [.qpcStatus, .qpcCount] s u ∧ memKept s u) ∧
  (∀ (s : State) (fn q : Nat), s.qpcOpen fn → s.holdsQp fn q = true → (s.qp q).state = .connected →
    ∃ u, exec (.qpDisconnect fn q) s = .next (s.finished u) ∧ u.qp q = { s.qp q with state := .closing, time := s.stamp } ∧
      (∀ x, x ≠ q → u.qp x = s.qp x) ∧ u.qpcEnded fn .ok ∧ regsKept [.qpcStatus, .qpcCount] s u ∧ memKept s u) ∧
  (∀ (s : State) (fn q : Nat), s.qpcOpen fn → s.holdsQp fn q = true → (s.qp q).state ≠ .free → (s.qp q).up = false →
    ∃ u, exec (.qpReset fn q) s = .next (s.finished u) ∧ (u.qp q).state = .init ∧ (u.qp q).spsn = (s.qp q).initPsn ∧ (u.qp q).ops = [] ∧
      (u.qp q).out = [] ∧ (u.qp q).cum = 0 ∧ (∀ x, x ≠ q → u.qp x = s.qp x) ∧ u.qpcEnded fn .ok ∧
      regsKept [.qpcStatus, .qpcCount] s u ∧ memKept s u) ∧
  (∀ (s : State) (fn q : Nat), s.qpcOpen fn → s.holdsQp fn q = true → (s.qp q).state = .init ∨ (s.qp q).state = .error →
    ∃ u, exec (.qpDestroy fn q) s = .next (s.finished u) ∧ u = (s.freeQpCtx q).qpcEnds fn .ok ∧ (u.qp q).state = .free ∧
      u.pipes = s.pipes ∧ (∀ x, x ≠ q → u.qp x = s.qp x) ∧ u.qpcEnded fn .ok) ∧
  (∀ (s : State) (fn q : Nat), s.qpcOpen fn → s.holdsQp fn q = true → s.ownHbm fn (s.fld F.qpcArg0Fga fn) 64 true = none →
    exec (.qpQuery fn q) s = .next (s.finished
      ((s.hbmWrite (fgaOff (s.fld F.qpcArg0Fga fn)) (s.qp q).visible).qpcEnds fn
        (s.heldBack (fgaOff (s.fld F.qpcArg0Fga fn)) 64)))) ∧
  (∀ (s : State) (fn q : Nat), s.qpcOpen fn → s.holdsQp fn q = false →
    ∃ u, exec (.qpQuery fn q) s = .next (s.finished u) ∧ exec (.qpReset fn q) s = .next (s.finished u) ∧
      exec (.qpConnect fn q) s = .next (s.finished u) ∧ u.qpcEnded fn .notPermitted ∧ u.qps = s.qps ∧ memKept s u) ∧
  (∀ (s : State) (q : Nat), (s.qp q).state = .connecting →
    exec (.connectResend q) s = .next (s.finished (s.ctrlOut q ((s.qp q).hello .connect)))) ∧
  (∀ (s : State) (q : Nat), (s.qp q).state = .connecting →
    ∃ u, exec (.connectTimeout q) s = .next (s.finished u) ∧ (u.qp q).state = .init ∧ (u.qp q).lastStatus = Status.unreachable.code ∧
      (∀ x, x ≠ q → u.qp x = s.qp x) ∧ u = { s with qps := u.qps })

/-- RTO_EXPIRY of an outstanding PSN that is awaited puts it among what is sent again, doubles its RTO up to a quarter of the transport
timeout, marks its path suspect on an SLT QP and counts it. TRANSPORT_TIMEOUT of an operation with packets sent ends it with UNREACHABLE and the
connection with it; of an import that waits it fails the import. NOT_READY_RETRY moves the PSN back to what is sent again. PROBE_TIMER
sends a probe on the suspect path, with a stamp that it keeps. ACK_TIMER with an acknowledgement due sends ACK. RESPONSE_RESEND sends the
response of an ended wait again. NOTICE_RESEND sends the notice again with the QP as it left, counts it down, and leaves the QP that has
the number now. WIN_QUERY_RESEND asks again on the next path. QPC_MISS_FILL puts the context on die and takes the packet that waits, and
then the heads that are held back. -/
def Obligations.TransportTimersTakeEffect : Prop :=
  (∀ (s : State) (q psn : Nat) (k : OutPkt), (s.qp q).out.find? (fun k => k.psn == psn) = some k → (s.qp q).up = true →
    (s.qp q).pendingPsn psn = true → psn ∉ (s.qp q).retx → psn ∉ (s.qp q).notReady →
    ∃ u, exec (.rtoExpiry q psn) s = .next (s.finished u) ∧ 
      (∃ l, (u.qp q).retx = (s.qp q).retx ++ psn :: l ∧ ((s.qp q).roce = false → l = [])) ∧
      (u.qp q).suspect = (if (s.qp q).roce then (s.qp q).suspect else putBit (s.qp q).suspect k.path true) ∧
      (∀ y, y ∈ (s.qp q).out → y.psn = psn → { y with rto := min (2 * y.rto) ((s.qp q).tmo * 100000 / 4) } ∈ (u.qp q).out) ∧
      (∀ y, y ∈ (s.qp q).out → y.psn ≠ psn → y ∈ (u.qp q).out) ∧
      u.fld F.tpPipeRetxTimeout (q % 4) =
        satAdd (2 ^ F.tpPipeRetxTimeout.width - 1) (s.fld F.tpPipeRetxTimeout (q % 4)) 1 % 2 ^ F.tpPipeRetxTimeout.width ∧
      (∀ x, x ≠ q → u.qp x = s.qp x) ∧ u = { s with qps := u.qps, flds := u.flds }) ∧
  (∀ (s : State) (q alive : Nat) (o : TpOp), (s.qp q).live.find? (fun o => o.alive == alive) = some o → (s.qp q).up = true →
    o.waiting = false → o.tx ≠ 0 →
    exec (.transportTimeout q (some alive)) s =
      .next (s.finished ((s.tpEnd q alive .unreachable).qpError q .unreachable .unreachable))) ∧
  (∀ (s : State) (q : Nat) (r : Import), s.asking q = some r →
    ∃ u, exec (.transportTimeout q none) s = .next (s.finished u) ∧ u.flag F.wincStatusBusy r.fn = false ∧
      u.flag F.wincStatusFail r.fn = true ∧ u.fld F.wincStatusCode r.fn = Status.unreachable.code ∧ regsKept [.wincStatus] s u ∧ memKept s u) ∧
  (∀ (s : State) (q psn : Nat), psn ∈ (s.qp q).notReady → (s.qp q).up = true →
    ∃ u, exec (.notReadyRetry q psn) s = .next (s.finished u) ∧ psn ∈ (u.qp q).retx ∧
      (u.qp q).notReady = (s.qp q).notReady.filter (fun n => n != psn) ∧ (∀ x, x ≠ q → u.qp x = s.qp x) ∧ u = { s with qps := u.qps }) ∧
  (∀ (s : State) (q path : Nat), (s.qp q).up = true → (s.qp q).roce = false → onesOf (s.qp q).suspect 64 = [path] →
    ∃ u, exec (.probeTimer q) s = .next (s.finished u) ∧
      u = (s.sltOut q { op := .pathProbe, path := path, ackReq := true, probe := some s.stamp }).setQp q (u.qp q) ∧
      (u.qp q).probes = (s.qp q).probes ++ [(path, if (s.qp q).enc then max s.stamp ((s.qp q).lastStamp + 1) else s.stamp)]) ∧
  (∀ (s : State) (q : Nat), (s.qp q).ackDue = true → (s.qp q).up = true →
    exec (.ackTimer q) s = .next (s.finished
      (if (s.qp q).roce then s.roceAck q else s.sendAck q 0 ((s.qp q).pathAfter (s.qp q).lastPath)))) ∧
  (∀ (s : State) (q psn : Nat) (e : RcEntry), (s.qp q).up = true → (s.qp q).rc.find? (fun e => e.psn == psn && e.again) = some e →
    exec (.responseResend q psn) s = .next (s.finished (s.rcResend q e))) ∧
  (∀ (s t : State) (q : Nat) (l : Leaving) (rest : List Leaving), takeFirst (fun l => l.q == q) (s.pipe (q % 4)).leaving = some (l, rest) →
    t = (s.setQp q l.qp).ctrlOut q l.pkt →
    exec (.noticeResend q) s = .next (s.finished ((t.setQp q (s.qp q)).setPipe (q % 4)
      { t.pipe (q % 4) with leaving := if l.left - 1 = 0 then rest else { l with left := l.left - 1, qp := t.qp q } :: rest }))) ∧
  (∀ (s : State) (q : Nat) (r : Import), s.asking q = some r → (s.qp q).up = true →
    exec (.winQueryResend q) s = .next (s.finished (s.ctrlOut q
      { op := .winQuery, key := r.asked.getD 0, aliveRel := (s.qp q).relOut }))) ∧
  (∀ (s : State) (q : Nat) (p : SltPkt) (a : Arrival), (s.pipe (q % 4)).recovering = 0 →
    (s.pipe (q % 4)).miss.filter (fun e => e.qp == q) = [{ qp := q, pkt := some (p, a) }] →
    ∃ t : State, exec (.qpcMissFill q) s = .next (s.finished ((t.sltTake p a).takeHeads (q % 4) (s.pipe (q % 4)).heads.length)) ∧ (t.pipe (q % 4)).holds q = true ∧ t.qpMissing q = false ∧
      t = { s with pipes := t.pipes })

/-- VL_SIGNAL_DETECT in V_DETECT of a link that may train leads to V_SYNC on the lanes with signal, VL_LOCK from V_SYNC to V_ALIGN,
CODEWORD_LOCK from V_ALIGN to V_PARAM with LANE_SWAP shown and a PARAM flit sent, where the skew is at most 64 symbols, and nowhere
otherwise. PARAM in V_PARAM shows the partner, and leads to V_MISWIRED where the partner
or the topology is not the image's, to V_HOLD where the round trip is beyond 600 ns, and to V_ACTIVE on both lanes. VL_STEP_TIMEOUT of a
training step leads to V_HOLD, VL_HOLD_EXPIRY to V_DETECT. While no packet is on the link, LANE_FAULT of one lane in V_ACTIVE leads to
V_RETRAIN on the other, and RETRAIN of a degraded link to V_RETRAIN on both; LANES_GOOD and RETRAIN_TIMEOUT with both lanes good lead to V_ACTIVE, and RETRAIN_TIMEOUT
with none to V_HOLD. LINK_STATUS and LIVE show the state, and no other link changes. -/
def Obligations.ValirTrainingCommandsComplete : Prop :=
  (∀ (s : State) (l n : Nat), s.vlMayTrain l = true → (s.vlink l).state = .detect → n % 4 ≠ 0 →
    ∃ u, exec (.vlSignalDetect l n) s = .next (s.finished u) ∧ vlMoves s u l { s.vlink l with state := .sync, lanes := n % 4 }) ∧
  (∀ (s : State) (l : Nat), l < 16 → (s.vlink l).state = .sync →
    ∃ u, exec (.vlLock l) s = .next (s.finished u) ∧ vlMoves s u l { s.vlink l with state := .align }) ∧
  (∀ (s : State) (l : Nat) (k : LaneLock), l < 16 → (s.vlink l).state = .align → max k.lagA k.lagB - min k.lagA k.lagB ≤ 64 →
    ∃ u, exec (.codewordLock l k) s = .next (s.finished u) ∧
      vlMoves s u l (VLink.flitSent { s.vlink l with state := .param, lock := k, peerTs := none } s.clk.cycles) ∧
      u.flag F.vlLinkStatusLaneSwap l = k.swapped ∧
      (∃ n, .vlFlit l n { s.ownFlit l with ltype := 3, node := s.nodeId, link := l, lanes := (s.vlink l).lanes, topo := s.img.topo,
                                           ts := s.clk.cycles } ∈ u.out)) ∧
  (∀ (s : State) (l : Nat) (k : LaneLock), 64 < max k.lagA k.lagB - min k.lagA k.lagB → exec (.codewordLock l k) s = .next (s.finished s)) ∧
  (∀ (s : State) (l node plink lanes topo rtt : Nat) (ready : Bool), l < 16 → (s.vlink l).state = .param →
    AMap.find s.img.neigh l ≠ some (node * 16 + plink) ∨ topo ≠ s.img.topo →
    ∃ u, exec (.param l node plink lanes topo rtt ready) s = .next (s.finished u) ∧ vlMoves s u l { s.vlink l with state := .miswired } ∧
      u.fld F.vlLinkStatusPartnerNode l = node % 2 ^ 16 ∧ u.fld F.vlLinkStatusPartnerLink l = plink % 2 ^ 4) ∧
  (∀ (s : State) (l node plink lanes rtt : Nat) (ready : Bool), l < 16 → (s.vlink l).state = .param →
    AMap.find s.img.neigh l = some (node * 16 + plink) → 600 < rtt →
    ∃ u, exec (.param l node plink lanes s.img.topo rtt ready) s = .next (s.finished u) ∧
      vlMoves s u l { s.vlink l with state := .hold }) ∧
  (∀ (s : State) (l node plink rtt : Nat) (ready : Bool), l < 16 → (s.vlink l).state = .param → (s.vlink l).lanes = 3 →
    AMap.find s.img.neigh l = some (node * 16 + plink) → rtt ≤ 600 →
    ∃ u, exec (.param l node plink 3 s.img.topo rtt ready) s = .next (s.finished u) ∧ vlMoves s u l ((s.vlink l).fresh .active 3) ∧
      u.fld F.vlLinkStatusRttNs l = rtt ∧ u.flag F.vlLinkStatusPartnerReady l = ready) ∧
  (∀ (s : State) (l : Nat), l < 16 → (s.vlink l).state = .sync ∨ (s.vlink l).state = .align ∨ (s.vlink l).state = .param →
    ∃ u, exec (.vlStepTimeout l) s = .next (s.finished u) ∧ vlMoves s u l { s.vlink l with state := .hold }) ∧
  (∀ (s : State) (l : Nat), l < 16 → (s.vlink l).state = .hold →
    ∃ u, exec (.vlHoldExpiry l) s = .next (s.finished u) ∧ vlMoves s u l ((s.vlink l).fresh .detect 0)) ∧
  (∀ (s : State) (l lane : Nat), l < 16 → lane = 1 ∨ lane = 2 → (s.vlink l).state = .active → (s.vlink l).lanes = 3 → s.vlClear l →
    ∃ u, exec (.laneFault l lane) s = .next (s.finished u) ∧ vlMoves s u l ((s.vlink l).fresh .retrain (3 - lane))) ∧
  (∀ (s : State) (org : Origin) (l : Nat), s.dcsOpen org 0x3000000 = true → l < 16 → (s.vlink l).state = .degraded → s.vlClear l →
    ∃ u, exec (.retrain org l) s = .next (s.finished u) ∧ vlMoves s u l ((s.vlink l).fresh .retrain 3)) ∧
  (∀ (s : State) (l : Nat), l < 16 → (s.vlink l).state = .retrain →
    (∃ u, exec (.lanesGood l 3) s = .next (s.finished u) ∧ vlMoves s u l ((s.vlink l).fresh .active 3)) ∧
    (∃ u, exec (.retrainTimeout l 3) s = .next (s.finished u) ∧ vlMoves s u l ((s.vlink l).fresh .active 3)) ∧
    (∃ u, exec (.retrainTimeout l 0) s = .next (s.finished u) ∧ vlMoves s u l { s.vlink l with state := .hold, lanes := 0 }))

/-- On a live link: UNCORRECTABLE_CODEWORD is counted and sends RETRY_REQ with the FSEQ expected, and where it is beyond the 64th of a
millisecond of fabric time (the model's choice of the window, log entry 134) retrains the link while no packet is on it; STATUS_FLIT takes
the acknowledgement, which frees flits of the retry buffer, the credits and READY, and the link then sends what it may (State.vlSend): nothing where no packet waits
and no replay is in progress. A link flit of a reserved LTYPE is discarded, and a codeword that cannot be corrected acts as
UNCORRECTABLE_CODEWORD does. RETRY_REQ takes the same from its flit; from an FSEQ that is held it sends REPLAY_START and has the flits held
from there on sent again from then on, one that was in progress abandoned, at no new credit or FSEQ; one that repeats the FSEQ of a replay in progress changes nothing more; and one whose
FSEQ is not held retrains the link while no packet is on it. RETRY_REQ_RESEND repeats the request while REPLAY_START is awaited;
REPLAY_START at the FSEQ expected ends the wait; TIME on the source link adds its offset, the sent time plus half of the round trip and
less 66 ns, to the sum of the period. TIME_FLIT_SEND sends the fabric time once on each live link, in its next free slot, with the
acknowledgement and credits that every link flit carries, and nothing on a link that is not live. -/
def Obligations.ValirFlitCommandsComplete : Prop :=
  (∀ (s : State) (l : Nat), s.vlLive l = true → ((s.vlink l).badMs = s.nowNs / 1000000 → (s.vlink l).badCount < 64) →
    (s.vlink l).retries < 7 →
    ∃ u, exec (.uncorrectableCodeword l) s = .next (s.finished u) ∧
      u.vlink l = { (s.vlink l).flitSent s.clk.cycles with
        badMs := s.nowNs / 1000000, badCount := if (s.vlink l).badMs = s.nowNs / 1000000 then (s.vlink l).badCount + 1 else 1,
        waitReplay := true, retries := (s.vlink l).retries + 1 } ∧
      .vlFlit l ((s.vlink l).reach s.clk.cycles).slot { s.ownFlit l with ltype := 1, req := (s.vlink l).rxFseq } ∈ u.out ∧
      u.fld F.vlLinkFecUncorrected l = satAdd (2 ^ F.vlLinkFecUncorrected.width - 1) (s.fld F.vlLinkFecUncorrected l) 1 %
        2 ^ F.vlLinkFecUncorrected.width ∧ (∀ k, k ≠ l → u.vlink k = s.vlink k) ∧ memKept s u) ∧
  (∀ (s : State) (l : Nat), s.vlLive l = true → (s.vlink l).badMs = s.nowNs / 1000000 → 64 ≤ (s.vlink l).badCount → s.vlClear l →
    ∃ u, exec (.uncorrectableCodeword l) s = .next (s.finished u) ∧
      u.vlink l = (s.vlink l).fresh .retrain (s.vlink l).lanes ∧ (∀ k, k ≠ l → u.vlink k = s.vlink k) ∧ memKept s u) ∧
  (∀ (s : State) (l : Nat) (f : LinkFlit), s.vlLive l = true → f.cw = none → f.ltype = 0 →
    ∃ u, exec (.statusFlit l f) s = .next (s.finished (u.vlSend l)) ∧ ((s.vlink l).queue = [] → (s.vlink l).replay = none → u.vlSend l = u) ∧
      u.flag F.vlLinkStatusPartnerReady l = f.ready ∧
      (∀ v, v < 8 → AMap.look 0 (u.vlink l).credit v = f.credit.getD v 0 % 65536) ∧
      (subMod 12 (f.ack % 4096) (s.vlink l).held ≤ (s.vlink l).buf.length →
        (u.vlink l).buf = (s.vlink l).buf.drop (subMod 12 (f.ack % 4096) (s.vlink l).held)) ∧ (u.vlink l).replay = (s.vlink l).replay ∧
      (∀ k, k ≠ l → u.vlink k = s.vlink k) ∧ memKept s u) ∧
  (∀ (s : State) (l : Nat) (f : LinkFlit), f.cw = none → 4 < f.ltype → exec (.statusFlit l f) s = .next (s.finished s)) ∧
  (∀ (s : State) (l : Nat) (f : LinkFlit) (c : List Nat × List Nat), f.cw = some c → s.vlLive l = true →
    rsDecode 272 15 (cwReceived (s.vlink l).lock (s.vlink l).lanes c) = none →
    exec (.statusFlit l f) s = exec (.uncorrectableCodeword l) s) ∧
  (∀ (s t : State) (l req : Nat) (f : LinkFlit), s.vlLive l = true → t = s.vlTakeFlit l f →
    (t.vlink l).replaying (req % 4096) = false → subMod 12 (req % 4096) (t.vlink l).held < (t.vlink l).buf.length →
    ∃ u, exec (.retryReq l req f) s = .next (s.finished (u.vlSend l)) ∧
      (u.vlink l).replay = some (req % 4096, req % 4096) ∧ (u.vlink l).buf = (t.vlink l).buf ∧
      (u.vlink l).nextFseq = (t.vlink l).nextFseq ∧ (u.vlink l).sent = (t.vlink l).sent ∧
      .vlFlit l ((t.vlink l).reach t.clk.cycles).slot { t.ownFlit l with ltype := 2, req := req % 4096 } ∈ u.out ∧
      (∀ k, k ≠ l → u.vlink k = t.vlink k) ∧ memKept t u) ∧
  (∀ (s t : State) (l req : Nat) (f : LinkFlit), s.vlLive l = true → t = s.vlTakeFlit l f → (t.vlink l).replaying (req % 4096) = true →
    exec (.retryReq l req f) s = .next (s.finished (t.vlSend l))) ∧
  (∀ (s t : State) (l req : Nat) (f : LinkFlit), s.vlLive l = true → t = s.vlTakeFlit l f →
    (t.vlink l).replaying (req % 4096) = false → (t.vlink l).buf.length ≤ subMod 12 (req % 4096) (t.vlink l).held →
    t.vlClear l →
    ∃ u, exec (.retryReq l req f) s = .next (s.finished u) ∧ u.vlink l = (t.vlink l).fresh .retrain (t.vlink l).lanes ∧
      (∀ k, k ≠ l → u.vlink k = t.vlink k) ∧ memKept t u) ∧
  (∀ (s : State) (l : Nat), s.vlLive l = true → (s.vlink l).waitReplay = true → (s.vlink l).retries < 7 →
    ∃ u, exec (.retryReqResend l) s = .next (s.finished u) ∧
      u.vlink l = { (s.vlink l).flitSent s.clk.cycles with retries := (s.vlink l).retries + 1 } ∧
      .vlFlit l ((s.vlink l).reach s.clk.cycles).slot { s.ownFlit l with ltype := 1, req := (s.vlink l).rxFseq } ∈ u.out ∧
      (∀ k, k ≠ l → u.vlink k = s.vlink k) ∧ memKept s u) ∧
  (∀ (s t : State) (l req : Nat) (f : LinkFlit), s.vlLive l = true → t = (s.vlTakeFlit l f).vlSend l → (t.vlink l).waitReplay = true →
    req % 4096 = (t.vlink l).rxFseq →
    ∃ u, exec (.replayStart l req f) s = .next (s.finished u) ∧ u.vlink l = { t.vlink l with waitReplay := false } ∧
      (∀ k, k ≠ l → u.vlink k = t.vlink k) ∧ memKept t u) ∧
  (∀ (s t : State) (l secs ns : Nat) (sync : Bool) (f : LinkFlit), s.vlLive l = true → t = (s.vlTakeFlit l f).vlSend l →
    t.fld F.clkpwrFtCfgSrc = l + 1 →
    ∃ u, exec (.time l secs ns sync f) s = .next (s.finished u) ∧ u.clk.offCnt = t.clk.offCnt + 1 ∧ u.clk.srcSync = sync ∧
      u.clk.offSum = t.clk.offSum + (((secs * 1000000000 + ns : Nat) : Int) +
        (((t.fld F.vlLinkStatusRttNs l : Nat) : Int) / 2 - 66) - ((t.nowNs : Nat) : Int)) ∧ u = { t with clk := u.clk }) ∧
  (∀ s : State, ∃ u, exec .timeFlitSend s = .next (s.finished u) ∧
    (∀ l, l < 16 → s.vlLive l = true → u.vlink l = (s.vlink l).flitSent s.clk.cycles ∧
      .vlFlit l ((s.vlink l).reach s.clk.cycles).slot
        { s.ownFlit l with ltype := 4, secs := s.clk.secs, ns := s.clk.ns, sync := s.timeSync } ∈ u.out) ∧
    (∀ l, l < 16 → s.vlLive l = false → u.vlink l = s.vlink l) ∧
    u.out.length = s.out.length + ((List.range 16).filter s.vlLive).length ∧ u = { s with out := u.out, vl := u.vl, flds := u.flds })

/-- A packet received on a live link, where no other is arriving on its VC, moves the FSEQ expected past its flits and is led on as its head
says; one for this node whose LEN and CRC are good is ejected, and its flits are freed. A packet injected towards another position of the
rack for which no route is valid, while none waits for that position and fewer than 256 are outstanding, is counted as injected, and dropped
and counted under NO_ROUTE; while 256 are outstanding it waits at its pipeline's injection port, or is not taken where the port has no room
for it. E2E_CREDIT and E2E_DROP of the node's window epoch move what was seen and dropped, a fresh count with nothing left outstanding and
counted, and of another epoch change nothing.
E2E_CREDIT_TIMER reports the count kept for a source with a packet not yet told. E2E_DROP_COALESCE sends the oldest notice for a source
and counts it. E2E_TIMEOUT of a window with packets outstanding gives them up, so that none is outstanding, and counts it. -/
def Obligations.ValirPacketCommandsComplete : Prop :=
  (∀ (s : State) (l vc : Nat) (h : VHdr) (intact : Bool), s.vlLive l = true → (s.vlink l).waitReplay = false →
    AMap.find (s.vlink l).rx (vc % 8) = none →
    exec (.packetHead (some l) vc h intact) s =
      .next (s.finished ((s.vlBytes (some l) h).vlArrive l (vc % 8) h (max 1 h.len) [] (some intact)))) ∧
  (∀ (s : State) (l vc : Nat) (h : VHdr), s.vlLive l = true → (s.vlink l).waitReplay = false → AMap.find (s.vlink l).rx (vc % 8) = none →
    h.dst = s.nodeId → h.proto = 0 → h.len = flitsOf h.bytes →
    exec (.packetHead (some l) vc h true) s = .next (s.finished
      (((((s.vlBytes (some l) h).vlLanded l (max 1 h.len)).vlFreed l (vc % 8) (max 1 h.len)).emit (.vlEject h.resp h.src)).vlCount
        h.src h.wepoch))) ∧
  (∀ (s : State) (h : VHdr) (vc : Nat), h.dst / 256 = s.nodeId / 256 → h.dst ≠ s.nodeId → (s.ewin (h.dst % 256)).out < 256 →
    (s.injQueue (vc % 4) (h.dst % 256)).isEmpty = true → bit (AMap.look 0 s.vl.route (h.dst % 256)) 63 = false →
    ∃ u, exec (.packetHead none vc h true) s = .next (s.finished u) ∧
      u.ewin (h.dst % 256) = { s.ewin (h.dst % 256) with inj := ((s.ewin (h.dst % 256)).inj + 1) % 2 ^ 32,
                                                         dropped := ((s.ewin (h.dst % 256)).dropped + 1) % 2 ^ 32 } ∧
      u.fld F.vlDropCntNoRoute = satAdd (2 ^ F.vlDropCntNoRoute.width - 1) (s.fld F.vlDropCntNoRoute) 1 % 2 ^ F.vlDropCntNoRoute.width ∧
      memKept s u) ∧
  (∀ (s : State) (h : VHdr) (vc : Nat), h.dst / 256 = s.nodeId / 256 → h.dst ≠ s.nodeId → 256 ≤ (s.ewin (h.dst % 256)).out →
    s.injFlits (vc % 4) + flitsOf h.bytes ≤ 2048 →
    ∃ u g, exec (.packetHead none vc h true) s = .next (s.finished u) ∧ g.dst = h.dst ∧ g.len = flitsOf h.bytes ∧ g.resp = h.resp ∧
      u.injQueue (vc % 4) (h.dst % 256) = s.injQueue (vc % 4) (h.dst % 256) ++ [g] ∧ (∀ k, u.ewin k = s.ewin k) ∧
      u = { s with vl := u.vl }) ∧
  (∀ (s : State) (h : VHdr) (vc : Nat), h.dst / 256 = s.nodeId / 256 → 256 ≤ (s.ewin (h.dst % 256)).out →
    2048 < s.injFlits (vc % 4) + flitsOf h.bytes → exec (.packetHead none vc h true) s = .next (s.finished s)) ∧
  (∀ (s : State) (src count : Nat), ∃ u, exec (.e2eCredit src count s.wepoch false) s = .next (s.finished u) ∧
    u.ewin (src % 256) = { s.ewin (src % 256) with seen := count % 2 ^ 32 } ∧ (∀ k, k ≠ src % 256 → u.ewin k = s.ewin k) ∧
    u = { s with vl := u.vl }) ∧
  (∀ (s : State) (src count : Nat), ∃ u, exec (.e2eCredit src count s.wepoch true) s = .next (s.finished u) ∧
    u.ewin (src % 256) = { s.ewin (src % 256) with
      seen := count % 2 ^ 32, dropped := subMod 32 (s.ewin (src % 256)).inj (count % 2 ^ 32) } ∧ (u.ewin (src % 256)).out = 0 ∧
    u.fld F.vlE2eCntTmoResets = satAdd (2 ^ F.vlE2eCntTmoResets.width - 1) (s.fld F.vlE2eCntTmoResets) 1 % 2 ^ F.vlE2eCntTmoResets.width ∧
    (∀ k, k ≠ src % 256 → u.ewin k = s.ewin k) ∧ u = { s with vl := u.vl, flds := u.flds }) ∧
  (∀ (s : State) (dst count : Nat), ∃ u, exec (.e2eDrop dst count s.wepoch) s = .next (s.finished u) ∧
    u.ewin (dst % 256) = { s.ewin (dst % 256) with dropped := ((s.ewin (dst % 256)).dropped + count) % 2 ^ 32 } ∧
    (∀ k, k ≠ dst % 256 → u.ewin k = s.ewin k) ∧ u = { s with vl := u.vl }) ∧
  (∀ (s : State) (a count epoch : Nat) (fresh : Bool), epoch ≠ s.wepoch →
    exec (.e2eCredit a count epoch fresh) s = .next (s.finished s) ∧ exec (.e2eDrop a count epoch) s = .next (s.finished s)) ∧
  (∀ (s : State) (src : Nat) (r : ERec), AMap.find s.vl.recs (src % 256) = some r → r.count ≠ r.told →
    ∃ t : State, exec (.e2eCreditTimer src) s = .next (s.finished (t.vlMgmt src 1 0 0 r.count r.epoch r.fresh)) ∧
      AMap.find t.vl.recs (src % 256) = some { r with told := r.count, fresh := false } ∧
      (∀ k, k ≠ src % 256 → AMap.find t.vl.recs k = AMap.find s.vl.recs k) ∧ t = { s with vl := t.vl }) ∧
  (∀ (s : State) (src : Nat) (d : EDrop), s.vl.drops.find? (fun d => d.src == src) = some d →
    ∃ t : State, exec (.e2eDropCoalesce src) s = .next (s.finished (t.vlMgmt src 2 d.reason d.dst d.count d.epoch false)) ∧
      t.vl.drops = s.vl.drops.erase d ∧
      t.fld F.vlE2eCntDropSent = satAdd (2 ^ F.vlE2eCntDropSent.width - 1) (s.fld F.vlE2eCntDropSent) 1 % 2 ^ F.vlE2eCntDropSent.width ∧
      t = { s with vl := t.vl, flds := t.flds }) ∧
  (∀ (s : State) (dst : Nat), (s.ewin (dst % 256)).out ≠ 0 →
    ∃ u, exec (.e2eTimeout dst) s = .next (s.finished u) ∧ (u.ewin (dst % 256)).out = 0 ∧
      (u.ewin (dst % 256)).inj = (s.ewin (dst % 256)).inj ∧ (u.ewin (dst % 256)).seen = (s.ewin (dst % 256)).seen ∧
      (∀ k, k ≠ dst % 256 → u.ewin k = s.ewin k) ∧
      u.fld F.vlE2eCntTmoResets = satAdd (2 ^ F.vlE2eCntTmoResets.width - 1) (s.fld F.vlE2eCntTmoResets) 1 % 2 ^ F.vlE2eCntTmoResets.width ∧
      u = { s with vl := u.vl, flds := u.flds })

/-- AN_RESOLVED with a PHY type leads from E_AN to E_TRAIN and shows the medium, with none to E_HOLD; AN_TIMEOUT, LINK_TRAINING_TIMEOUT
and ALIGN_TIMEOUT of their steps lead to E_HOLD, LINK_TRAINING_DONE to E_ALIGN, ALIGN_LOCK to E_UP with LPI_CAP as resolved,
REMOTE_FAULT_CLEAR from E_RFAULT to E_UP. LOCAL_FAULT in E_UP leads to E_ALIGN and REMOTE_FAULT to E_RFAULT, and both discard what is
queued; an exception frame being sent then is ended with a stomped FCS and its entry with UNREACHABLE. EN_HOLD_EXPIRY of a port that may
not train leads to E_OFF. LPI_ENTRY of an idle port with LPI enabled and negotiated, no wake near, sets LPI_TX and counts it, LPI_WAKE
clears LPI_TX, RECEIVE_LPI sets LPI_RX and counts it. -/
def Obligations.EthernetPortCommandsComplete : Prop :=
  (∀ (s : State) (p m : Nat), (s.eport p).state = .an →
    ∃ u, exec (.anResolved p (some m)) s = .next (s.finished u) ∧ enMoves s u p .train ∧ u.fld F.enPortStatusMedium p = m % 2) ∧
  (∀ (s : State) (p : Nat), (s.eport p).state = .an →
    (∃ u, exec (.anResolved p none) s = .next (s.finished u) ∧ enMoves s u p .hold) ∧
    (∃ u, exec (.anTimeout p) s = .next (s.finished u) ∧ enMoves s u p .hold)) ∧
  (∀ (s : State) (p : Nat), (s.eport p).state = .train →
    (∃ u, exec (.linkTrainingDone p) s = .next (s.finished u) ∧ enMoves s u p .align) ∧
    (∃ u, exec (.linkTrainingTimeout p) s = .next (s.finished u) ∧ enMoves s u p .hold)) ∧
  (∀ (s : State) (p : Nat) (lpi : Bool), (s.eport p).state = .align →
    (∃ u, exec (.alignLock p lpi) s = .next (s.finished u) ∧ enMoves s u p .up ∧ u.flag F.enPortStatusLpiCap p = lpi) ∧
    (∃ u, exec (.alignTimeout p) s = .next (s.finished u) ∧ enMoves s u p .hold)) ∧
  (∀ (s : State) (p i : Nat) (f : WireFrame) (body : List Byte) (ts : Bool), (s.eport p).state = .up → (s.eport p).queue = [] →
    (s.eport p).wire = some f → f.f.kind = .exc i body ts →
    ∃ u t : State, exec (.localFault p) s = .next (s.finished u) ∧ (u.eport p).state = .align ∧ (u.eport p).wire = none ∧
      (∃ n, n ≤ f.body.length ∧ .frame p (cutBytes f.body n) true ∈ u.out) ∧ u.mem = (t.extDone i .unreachable 0).mem ∧ t.mem = s.mem ∧
      t.fld F.enExtBaseFga = s.fld F.enExtBaseFga) ∧
  (∀ (s : State) (p : Nat), (s.eport p).state = .up →
    ((s.eport p).wire.toList.map (·.f) ++ (s.eport p).queue).all (fun f => !f.kind.isExc) = true →
    (∃ u, exec (.localFault p) s = .next (s.finished u) ∧ enFalls s u p .align) ∧
    (∃ u, exec (.remoteFault p) s = .next (s.finished u) ∧ enFalls s u p .rfault)) ∧
  (∀ (s : State) (p : Nat), (s.eport p).state = .rfault →
    ∃ u, exec (.remoteFaultClear p) s = .next (s.finished u) ∧ enMoves s u p .up) ∧
  (∀ (s : State) (p : Nat), (s.eport p).state = .hold → s.enMayTrain p = false →
    ∃ u, exec (.enHoldExpiry p) s = .next (s.finished u) ∧ enMoves s u p .off) ∧
  (∀ (s : State) (p : Nat), s.flag F.enLpiEnable p = true → s.flag F.enPortStatusLpiCap p = true → s.fld F.enLpiTwTx p ≠ 0 →
    (s.eport p).queue = [] → (s.eport p).wire = none → (s.eport p).state = .up → s.flag F.enPortStatusLpiTx p = false →
    s.wakeSoon p ((s.fld F.enLpiTwTx p + s.fld F.enLpiIdleUs p) * 1000) = false →
    ∃ u, exec (.lpiEntry p) s = .next (s.finished u) ∧ u.flag F.enPortStatusLpiTx p = true ∧ regsKept [.enPortStatus, .enStat] s u ∧
      u = { s with flds := u.flds }) ∧
  (∀ (s : State) (p : Nat), ∃ u, exec (.lpiWake p) s = .next (s.finished u) ∧ u.flag F.enPortStatusLpiTx p = false ∧
    regsKept [.enPortStatus] s u ∧ u = { s with flds := u.flds }) ∧
  (∀ (s : State) (p : Nat), (s.eport p).state = .up →
    ∃ t, exec (.receiveLpi p) s = .next t ∧ t.flag F.enPortStatusLpiRx p = true ∧ regsKept [.enPortStatus, .enStat] s t ∧ memKept s t ∧
      t = { s with flds := t.flds, mem := t.mem })

/-- FRAME_RECEIVED on a port that is in E_UP or E_RFAULT once the codewords that come with it are received: a frame for which there is no
room, with a wrong or a stomped FCS, shorter than 64 octets, longer than MAX_FRAME, or not for the port's addresses is counted under its
own counter and goes no further, and a good one that the parser gives to the exception path goes to the exception receive ring. EXT_TAIL by an origin that reaches the register moves the tail of the exception
transmit ring and runs it; EXCEPTION_FRAME_SENT ends the exception frame on the wire and its entry. TX_UNDERRUN stomps the frame on the wire
and raises T_EFF by 1,024 up to MAX_FRAME; TX_THRESH_DECAY after 1,024 good frames lowers it by 64 down to BASE. CONFIG_CHANGE of a port that is on sets PENDING and the change time, base time or the
next cycle boundary after now; GATE_CHANGE_TIME with no frame queued makes the administrative list operational and clears
PENDING; GATE_INTERVAL_END of an unchanged cycle with no frame queued goes to the next entry. -/
def Obligations.EthernetFrameCommandsComplete : Prop :=
  (∀ (s t : State) (p : Nat) (rx : EthRx) (room : Bool), t = s.frameSeen p rx → t.enHears p →
    room = false ∨ t.rxRoom p rx.bytes.length = false →
    exec (.frameReceived p rx room) s = .next (s.finished (t.enCount p 11))) ∧
  (∀ (s t : State) (p fcs : Nat) (rx : EthRx) (data : List Byte), t = s.frameSeen p rx → t.enHears p → t.rxRoom p rx.bytes.length = true →
    data = rx.bytes.take (rx.bytes.length - 4) → fcs = leAt rx.bytes (rx.bytes.length - 4) 4 → fcs ≠ fcsOf data →
    exec (.frameReceived p rx true) s = .next (s.finished (t.enCount p (if fcs = fcsOf data ^^^ 0xFFFFFFFF then 3 else 2)))) ∧
  (∀ (s t : State) (p : Nat) (rx : EthRx) (data : List Byte), t = s.frameSeen p rx → t.enHears p → t.rxRoom p rx.bytes.length = true →
    data = rx.bytes.take (rx.bytes.length - 4) → leAt rx.bytes (rx.bytes.length - 4) 4 = fcsOf data →
    (rx.bytes.length < 64 → exec (.frameReceived p rx true) s = .next (s.finished (t.enCount p 4))) ∧
    (64 ≤ rx.bytes.length → s.maxFrame p < rx.bytes.length →
      exec (.frameReceived p rx true) s = .next (s.finished (t.enCount p 5))) ∧
    (64 ≤ rx.bytes.length → rx.bytes.length ≤ s.maxFrame p → beAt data 0 6 ≠ 0x0180C2000001 → s.macAccepts p (beAt data 0 6) = false →
      exec (.frameReceived p rx true) s = .next (s.finished (t.enCount p 6))) ∧
    (∀ r, 64 ≤ rx.bytes.length → rx.bytes.length ≤ s.maxFrame p → beAt data 0 6 ≠ 0x0180C2000001 →
      s.macAccepts p (beAt data 0 6) = true → parse data (s.fld F.tpCfgSltPort) = .exc r →
      exec (.frameReceived p rx true) s = .next (s.finished (t.excRx p r data)))) ∧
  (∀ (s : State) (org : Origin) (tail : Nat), s.dcsOpen org 0x4000000 = true →
    exec (.extTail org tail) s = .next (s.finished ((s.setFld F.enExtTailTail (tail % excSize (s.fld F.enExtCtrlSize))).extPump))) ∧
  (∀ (s : State) (p i : Nat) (f : WireFrame) (body : List Byte) (ts : Bool), (s.eport p).wire = some f → f.f.kind = .exc i body ts →
    ∃ t : State, exec (.exceptionFrameSent p) s = .next (s.finished (((t.extDone i .ok (if ts then f.time else 0)).enPump p).extPump)) ∧
      t.eport p = { s.eport p with wire := none, good := (s.eport p).good + 1 } ∧ .frame p (wireBytes f.body) false ∈ t.out ∧
      (∀ k, k ≠ p → t.eport k = s.eport k) ∧ memKept s t) ∧
  (∀ (s : State) (p : Nat) (f : WireFrame), (s.eport p).wire = some f →
    ∃ v : State, exec (.txUnderrun p) s = .next (s.finished ((v.enStomp p f f.held).wireNext p f)) ∧
      v.fld F.enTxThreshCur p = min (s.maxFrame p) (s.fld F.enTxThreshCur p + 1024) % 2 ^ F.enTxThreshCur.width ∧
      v.eport p = { s.eport p with wire := none, good := 0 } ∧ (∀ k, k ≠ p → v.eport k = s.eport k) ∧
      regsKept [.enPortStatus, .enStat, .enTxThresh] s v ∧ v = { s with flds := v.flds, en := v.en }) ∧
  (∀ (s : State) (p : Nat), 1024 ≤ (s.eport p).good →
    ∃ t, exec (.txThreshDecay p) s = .next t ∧
      t.fld F.enTxThreshCur p = max (max 64 (s.fld F.enTxThreshBase p)) (s.fld F.enTxThreshCur p - 64) % 2 ^ F.enTxThreshCur.width ∧
      t.eport p = { s.eport p with good := (s.eport p).good - 1024 } ∧ (∀ k, k ≠ p → t.eport k = s.eport k) ∧
      regsKept [.enPortStatus, .enTxThresh] s t ∧
      memKept s t ∧ t = { s with flds := t.flds, en := t.en, mem := t.mem }) ∧
  (∀ (s : State) (org : Origin) (p base : Nat), s.dcsOpen org 0x4000000 = true → s.enExists p = true →
    s.domOn (16 + p / 8) = true → base = s.fld F.enGateBaseSSec p * 1000000000 + s.fld F.enGateBaseNsNs p →
    ∃ u t, exec (.configChange org p) s = .next (s.finished u) ∧ u.eport p = { s.eport p with change := some t } ∧
      s.nowNs < t ∧ base ≤ t ∧ (t - base) % s.adminCycle p = 0 ∧ (s.nowNs < base → t = base) ∧ (base ≤ s.nowNs → t ≤ s.nowNs + s.adminCycle p) ∧
      u.flag F.enGateCtrlPending p = true ∧ (∀ k, k ≠ p → u.eport k = s.eport k) ∧ u = { s with flds := u.flds, en := u.en }) ∧
  (∀ (s : State) (p t : Nat), (s.eport p).change = some t → (s.eport p).queue = [] →
    ∃ u, exec (.gateChangeTime p) s = .next (s.finished u) ∧ (u.eport p).oper = s.adminList p ∧ (u.eport p).cycle = s.adminCycle p ∧
      (u.eport p).idx = 0 ∧ (u.eport p).change = none ∧ u.flag F.enGateCtrlPending p = false ∧
      u.fld F.enGateCtrlOperLen p = (s.adminList p).length % 2 ^ F.enGateCtrlOperLen.width ∧ (∀ k, k ≠ p → u.eport k = s.eport k) ∧
      regsKept [.enPortStatus, .enGateCtrl] s u ∧ u = { s with flds := u.flds, en := u.en }) ∧
  (∀ (s : State) (p : Nat), s.enExists p = true → (s.eport p).change = none → (s.eport p).restart = none → (s.eport p).queue = [] →
    ∃ u, exec (.gateIntervalEnd p) s = .next (s.finished u) ∧ (u.eport p).since = s.nowNs ∧
      (u.eport p).idx = (if (s.eport p).idx + 1 < (gateSpans (s.eport p).cycle (s.eport p).oper).length then (s.eport p).idx + 1 else 0) ∧
      (∀ k, k ≠ p → u.eport k = s.eport k) ∧ u = { s with flds := u.flds, en := u.en })

/-- REFILL_TICK counts the tick; with one QP up, or one function created, and no host read held it refills that QP's shaper with the lower of
its CEIL and its rate held in its range, under the settings in its registers, and counts a tick of its epoch, or refills that function's
shaper with the limit in force. EPOCH_END of a QP that is up, once the ticks of
its epoch have come: with acknowledgements and marks the rate falls by RC times the marked share times DEC over 256, held between RMIN and
CEIL, GROW restarts and HOLD is loaded; without marks while HOLD lasts it counts down and leaves the rate; without marks
and HOLD it grows by RSTEP times GROW, unless a round trip in the band holds it; and with none acknowledged the rate stays; each way the counts and the epoch timer restart, the profile is read, and the next request is a probe. Before those ticks
nothing ends. QUEUE_SAMPLE shows the depth of every work queue of a function that is the one created, and changes nothing but sample
registers. CLEAR_DEBT by an origin that reaches the register marks the shaper selected, to be cleared at the next tick, and changes
nothing else. -/
def Obligations.ShapingCommandsComplete : Prop :=
  (∀ s : State, s.heldReads = [] → s.qps = [] → s.created = [] →
    ∃ u, exec .refillTick s = .next (s.finished u) ∧ u.cc.ticks = s.cc.ticks + 1 ∧ u = { s with cc := u.cc }) ∧
  (∀ (s : State) (q : Nat) (x : Qp), s.heldReads = [] → s.qps = [(q, x)] → x.up = true → s.created = [] →
    ∃ u, exec .refillTick s = .next (s.finished u) ∧ u.cc.ticks = s.cc.ticks + 1 ∧
      u.shaper (shpObj false q) = (s.shaper (shpObj false q)).refill (s.fld F.ccShpCfgCeil (shpObj false q))
        (burstBytes (s.fld F.ccShpCfgBurst (shpObj false q))) (min (s.fld F.ccShpCfgCeil (shpObj false q))
          (clampRc (s.rateCtl q).rc (s.rateCtl q).prof.rmin (s.fld F.ccShpCfgCeil (shpObj false q)))) ∧
      u.rateCtl q = { s.rateCtl q with
        rc := clampRc (s.rateCtl q).rc (s.rateCtl q).prof.rmin (s.fld F.ccShpCfgCeil (shpObj false q)),
        timer := (s.rateCtl q).timer - 1 } ∧
      (∀ o, o ≠ shpObj false q → u.shaper o = s.shaper o) ∧ u = { s with cc := u.cc }) ∧
  (∀ (s : State) (fn : Nat), s.heldReads = [] → s.qps = [] → s.created = [fn] →
    ∃ u, exec .refillTick s = .next (s.finished u) ∧ u.cc.ticks = s.cc.ticks + 1 ∧
      u.shaper (shpObj true fn) = (s.shaper (shpObj true fn)).refill (s.rateLimit fn) (burstBytes (s.fld F.ccShpCfgBurst (shpObj true fn)))
        (s.rateLimit fn) ∧
      (∀ o, o ≠ shpObj true fn → u.shaper o = s.shaper o) ∧ u = { s with cc := u.cc }) ∧
  (∀ (s : State) (q p : Nat) (x : RateCtl), p = (s.qp q).profile → x = s.rateCtl q → (s.qp q).up = true → x.timer = 0 → x.a ≠ 0 →
    0 < x.m → ∃ u, exec (.epochEnd q) s = .next (s.finished u) ∧
      u.rateCtl q = { rc := clampRc (x.rc - x.rc * min x.m x.a * s.fld F.ccProfCtrlDec p / (x.a * 256)) (s.fld F.ccProfRateRMin p)
                        (s.qpCeil q), grow := 0, hold := s.fld F.ccProfTimeHold p, m := x.mNext, a := x.aNext, rtt := x.rttNext,
                      prof := s.readProf q, timer := 8 * max 1 (s.fld F.ccProfTimeTEpoch p) } ∧
      u.qp q = { s.qp q with probeDue := true } ∧ (∀ k, k ≠ q → u.rateCtl k = s.rateCtl k ∧ u.qp k = s.qp k) ∧
      u = { s with cc := u.cc, qps := u.qps }) ∧
  (∀ (s : State) (q : Nat) (x : RateCtl), x = s.rateCtl q → (s.qp q).up = true → x.timer = 0 → x.a ≠ 0 → x.m = 0 → 0 < x.hold →
    ∃ u, exec (.epochEnd q) s = .next (s.finished u) ∧
      u.rateCtl q = { rc := x.rc, grow := x.grow, hold := x.hold - 1, m := x.mNext, a := x.aNext, rtt := x.rttNext, prof := s.readProf q,
                      timer := 8 * max 1 (s.fld F.ccProfTimeTEpoch (s.qp q).profile) } ∧
      (u.qp q).probeDue = true ∧ u = { s with cc := u.cc, qps := u.qps }) ∧
  (∀ (s : State) (q p g : Nat) (x : RateCtl), p = (s.qp q).profile → x = s.rateCtl q → (s.qp q).up = true → x.timer = 0 → x.a ≠ 0 →
    x.m = 0 → x.hold = 0 → s.flag F.ccProfCtrlRttEn p = false ∨ x.rtt = none →
    g = min (x.grow + 1) (max 1 (s.fld F.ccProfCtrlGrowMax p)) →
    ∃ u, exec (.epochEnd q) s = .next (s.finished u) ∧
      u.rateCtl q = { rc := clampRc (x.rc + g * s.fld F.ccProfRateRStep p) (s.fld F.ccProfRateRMin p) (s.qpCeil q), grow := g, hold := 0,
                      m := x.mNext, a := x.aNext, rtt := x.rttNext, prof := s.readProf q,
                      timer := 8 * max 1 (s.fld F.ccProfTimeTEpoch p) } ∧
      (u.qp q).probeDue = true ∧ u = { s with cc := u.cc, qps := u.qps }) ∧
  (∀ (s : State) (q : Nat) (x : RateCtl), x = s.rateCtl q → (s.qp q).up = true → x.timer = 0 → x.a = 0 →
    ∃ u, exec (.epochEnd q) s = .next (s.finished u) ∧
      u.rateCtl q = { rc := x.rc, grow := x.grow, hold := x.hold, m := x.mNext, a := x.aNext, rtt := x.rttNext, prof := s.readProf q,
                      timer := 8 * max 1 (s.fld F.ccProfTimeTEpoch (s.qp q).profile) } ∧
      (u.qp q).probeDue = true ∧ u = { s with cc := u.cc, qps := u.qps }) ∧
  (∀ (s : State) (q : Nat), (s.rateCtl q).timer ≠ 0 → exec (.epochEnd q) s = .next (s.finished s)) ∧
  (∀ s : State, ∃ u, exec .queueSample s = .next (s.finished u) ∧ u = { s with flds := u.flds } ∧
    regsKept [.qfSample, .qfSampleMax, .qfSampleSum, .ccTxqSample, .ccTxqMax] s u) ∧
  (∀ (s : State) (fn q : Nat), s.created = [fn] → q < (s.alloc fn).qCount →
    ∃ u, exec .queueSample s = .next (s.finished u) ∧
      u.fld F.qfSampleDepth (qObj fn q) = min 65536 (subMod 32 (s.queue fn q).tail (s.queue fn q).oldest) % 2 ^ 17) ∧
  (∀ (s : State) (org : Origin) (o : Nat), s.dcsOpen org 0x2000000 = true → s.shpSelected = some o →
    ∃ t, exec (.clearDebt org) s = .next t ∧ t.shaper o = { s.shaper o with clear := true } ∧
      (∀ k, k ≠ o → t.shaper k = s.shaper k) ∧ memKept s t ∧ t = { s with cc := t.cc, mem := t.mem })

/-- Whatever credit a shaper has, after a refill tick its credit lies between minus and plus its burst; a refill never lowers a credit
that lies within the burst, and with the clear mark it ends at 0 or more. A charge that the shaper lets pass leaves the credit at minus
the burst or above. -/
def Obligations.ShaperCreditStaysWithinItsBurst : Prop :=
  (∀ (x : Shaper) (ceil burst rate : Nat),
    -((burst * 8 : Nat) : Int) ≤ (x.refill ceil burst rate).credit ∧ (x.refill ceil burst rate).credit ≤ ((burst * 8 : Nat) : Int) ∧
      (-((burst * 8 : Nat) : Int) ≤ x.credit → x.credit ≤ ((burst * 8 : Nat) : Int) → x.credit ≤ (x.refill ceil burst rate).credit) ∧
      (x.clear = true → 0 ≤ (x.refill ceil burst rate).credit) ∧ (x.refill ceil burst rate).clear = false) ∧
  (∀ (x : Shaper) (n : Nat), x.allows n = true → -((x.burst * 8 : Nat) : Int) ≤ (x.charge n).credit)

/-- For every meter, pre-colour and quantity: green takes the quantity from the committed bucket and leaves the other, yellow takes it
from the excess bucket and leaves the other, red takes nothing; a bucket is charged only what it holds; a colour-aware meter never
improves on the pre-colour, and a meter that is not colour-aware does not look at it. -/
def Obligations.MeterChargesOneBucket : Prop :=
  ∀ (m : Meter) (pre : Colour) (n : Nat),
    ((m.colour pre n).1 = .green → (m.colour pre n).2 = { m with tc := m.tc - n * 8 } ∧ n * 8 ≤ m.tc) ∧
    ((m.colour pre n).1 = .yellow → (m.colour pre n).2 = { m with te := m.te - n * 8 } ∧ n * 8 ≤ m.te) ∧
    ((m.colour pre n).1 = .red → (m.colour pre n).2 = m) ∧
    (m.aware = true → (pre = .red → (m.colour pre n).1 = .red) ∧ (pre = .yellow → (m.colour pre n).1 ≠ .green)) ∧
    (m.aware = false → m.colour pre n = m.colour .green n)

/-- Where the sequencer of a Block is at a step that it may issue: NOP moves on; END makes the sequencer idle with no loop open and
completes the STEP_START with OK and the image's length; LOOP opens its loop at the next step; SETAR gives its register the immediate and
moves on; TS_ADD and TS_WAIT on the turnstile of their slot perform ADD and WAIT there and move on, the wait held back while its
threshold is not reached, and a TS_ADD that fails its check stops the sequencer with the status; a conversion whose store ranges are right
is put among the outstanding steps, and an A2F whose source is misaligned or outside the store stops the sequencer. The steps that act on
the Block alone change no other. -/
def Obligations.SequencerStepsTakeEffect : Prop :=
  (∀ (s : State) (b fn w : Nat) (x : Blk), s.seqAt b 0x00 = some (fn, x, w) →
    ∃ u, exec (.stepNop b) s = .next (s.finished u) ∧ u.blk b = x.advance ∧ (∀ k, k ≠ b → u.blk k = s.blk k) ∧
      u = { s with blks := u.blks }) ∧
  (∀ (s : State) (b fn w : Nat) (x : Blk), s.seqAt b 0x01 = some (fn, x, w) → x.start.bind s.op = none → x.waiting = [] →
    ∃ u, exec (.endStep b) s = .next (s.finished u) ∧ u.blk b = { x with state := .idle, loops := [], start := none } ∧
      (∀ k, k ≠ b → u.blk k = s.blk k) ∧ u = { s with blks := u.blks }) ∧
  (∀ (s : State) (b fn w : Nat) (x : Blk) (o : Op), s.seqAt b 0x01 = some (fn, x, w) → x.start.bind s.op = some o →
    exec (.endStep b) s = .next (s.finished
      (((s.setBlk b { x with state := .idle, loops := [], start := none }).complete o .ok o.d.len).nextTable b))) ∧
  (∀ (s : State) (b fn w : Nat) (x : Blk), s.seqAt b 0x02 = some (fn, x, w) →
    ∃ u, exec (.loop b) s = .next (s.finished u) ∧ (u.blk b).pc = x.pc + 1 ∧
      (u.blk b).loops = { first := x.pc + 1, last := x.pc + bits w 79 64, count := bits w 63 32, mask := bits w 95 80, iter := 0,
                          regs := x.ars } :: x.loops ∧
      (u.blk b).ars = x.ars ∧ (∀ k, k ≠ b → u.blk k = s.blk k) ∧ u = { s with blks := u.blks }) ∧
  (∀ (s : State) (b fn w : Nat) (x : Blk), s.seqAt b 0x03 = some (fn, x, w) →
    ∃ u, exec (.setar b) s = .next (s.finished u) ∧
      u.blk b = Blk.advance { x with ars := x.ars.set (bits w 35 32) (bits w 79 40) } ∧
      (∀ k, k ≠ b → u.blk k = s.blk k) ∧ u = { s with blks := u.blks }) ∧
  (∀ (s t : State) (b fn w : Nat) (x : Blk) (waits : Bool), s.seqAt b 0x18 = some (fn, x, w) → s.turnStep fn b x w 0x05 = .ok (t, waits) →
    exec (.stepTsWait b) s = .next (s.finished (t.setBlk b { x.advance with tsWait := if waits then some x.pc else none }))) ∧
  (∀ (s t : State) (b fn w : Nat) (x : Blk) (waits : Bool), s.seqAt b 0x19 = some (fn, x, w) → s.turnStep fn b x w 0x03 = .ok (t, waits) →
    exec (.stepTsAdd b) s = .next (s.finished (t.setBlk b x.advance))) ∧
  (∀ (s : State) (b fn w : Nat) (x : Blk) (st : Status), s.seqAt b 0x19 = some (fn, x, w) → s.turnStep fn b x w 0x03 = .error st →
    exec (.stepTsAdd b) s = .next (s.finished ((s.seqFail b x.pc x.rep st).nextTable b))) ∧
  (∀ (s : State) (b fn w : Nat) (x : Blk), s.seqAt b 0x20 = some (fn, x, w) → x.holdsNone → x.outs.length < 16 →
    storeCheck (x.addr (bits w 35 32) 0 x.rep) (8 * (bits w 51 40 + 1)) 64 = none →
    storeCheck (x.addr (bits w 39 36) 0 x.rep) (16 * (bits w 51 40 + 1)) 64 = none →
    exec (.stepCvtA2f b) s = .next (s.finished
      (s.issue b (.a2f (x.addr (bits w 35 32) 0 x.rep) (x.addr (bits w 39 36) 0 x.rep) (bits w 51 40 + 1))))) ∧
  (∀ (s : State) (b fn w : Nat) (x : Blk), s.seqAt b 0x21 = some (fn, x, w) → x.holdsNone → x.outs.length < 16 →
    storeCheck (x.addr (bits w 35 32) 0 x.rep) (16 * (bits w 51 40 + 1)) 64 = none →
    storeCheck (x.addr (bits w 39 36) 0 x.rep) (8 * (bits w 51 40 + 1)) 64 = none →
    exec (.stepCvtF2a b) s = .next (s.finished
      (s.issue b (.f2a (x.addr (bits w 35 32) 0 x.rep) (x.addr (bits w 39 36) 0 x.rep) (bits w 51 40 + 1))))) ∧
  (∀ (s : State) (b fn w : Nat) (x : Blk) (st : Status), s.seqAt b 0x20 = some (fn, x, w) → x.holdsNone → x.outs.length < 16 →
    storeCheck (x.addr (bits w 35 32) 0 x.rep) (8 * (bits w 51 40 + 1)) 64 = some st →
    exec (.stepCvtA2f b) s = .next (s.finished ((s.seqFail b x.pc x.rep st).nextTable b)))

/-- Where the sequencer of a Block is at a memory step that it may issue, with room for it and no conflict: MLOAD and MSTORE whose store
range and whose slot pass their checks and whose accesses HBM does not hold are put among the outstanding steps and the sequencer moves on,
an MSTORE with the resident ranges that it leaves; RBIND that passes the checks writes an entry in R_LOADING for the range at the lowest
free index; RRELEASE of a live entry of the same range and region makes it R_RELEASING; an MLOAD that fails the check of its slot stops
the sequencer with the status. MEMORY_STEP_DONE of a load that no bind or release of its range has served puts the bytes of HBM into the
store and takes the step off, and of such a store, with no dirty log and no integrity channel, puts the store's bytes into HBM; RBIND_DONE
applies the stores admitted before to the range and makes the entry R_LIVE, with LOAD after copying the range, and RRELEASE_DONE removes
the entry, with WB after copying the region back (State.releaseEntry). None of them completes while the controllers issue no command for
its bytes, and those of a killed slot fail; both are shut out here. -/
def Obligations.MemoryStepsTakeEffect : Prop :=
  (∀ (s : State) (b fn w off : Nat) (x : Blk), s.seqAt b 0x08 = some (fn, x, w) → x.holdsNone → x.outs.length < 16 →
    storeCheck (x.stepStore w) ((bits w 103 88 + 1) * 64) 64 = none →
    s.stepCheck fn (x.stepFga w).2 (x.stepFga w).1 ((bits w 103 88 + 1) * 64) true false = .ok off →
    s.hbmBusy off ((bits w 103 88 + 1) * 64) = false →
    exec (.mload b) s = .next (s.finished (s.issue b (.load off (x.stepStore w) ((bits w 103 88 + 1) * 64)) (x.stepFga w).2))) ∧
  (∀ (s : State) (b fn w off : Nat) (x : Blk), s.seqAt b 0x09 = some (fn, x, w) → x.holdsNone → x.outs.length < 16 →
    storeCheck (x.stepStore w) ((bits w 103 88 + 1) * 64) 64 = none →
    s.stepCheck fn (x.stepFga w).2 (x.stepFga w).1 ((bits w 103 88 + 1) * 64) false true = .ok off →
    s.hbmBusy off ((bits w 103 88 + 1) * 64) = false →
    exec (.mstore b) s = .next (s.finished (s.issue b (.store off (x.stepStore w) ((bits w 103 88 + 1) * 64)) (x.stepFga w).2
      (s.resRanges off ((bits w 103 88 + 1) * 64))))) ∧
  (∀ (s : State) (b fn w : Nat) (x : Blk) (st : Status), s.seqAt b 0x08 = some (fn, x, w) → x.holdsNone → x.outs.length < 16 →
    storeCheck (x.stepStore w) ((bits w 103 88 + 1) * 64) 64 = none →
    s.stepCheck fn (x.stepFga w).2 (x.stepFga w).1 ((bits w 103 88 + 1) * 64) true false = .error st →
    exec (.mload b) s = .next (s.finished ((s.seqFail b x.pc x.rep st).nextTable b))) ∧
  (∀ (s : State) (b id fn off a n : Nat) (o : SeqOut), (s.blk b).outOf id = some o → s.blkFn b = some fn → o.work = .load off a n →
    s.workStalled o.work = false → s.workKilled o = false → o.early = none → o.cut = [] →
    ∃ t : State, exec (.memoryStepDone b id none) s = .next (s.finished (t.nextTable b)) ∧ (t.blk b).read a n = s.hbmRead off n ∧
      (∀ c, c < a ∨ a + n ≤ c → readByte (t.blk b).store c = readByte (s.blk b).store c) ∧
      (t.blk b).outs = (s.blk b).outs.filter (fun y => y.id != id) ∧ (∀ k, k ≠ b → t.blk k = s.blk k) ∧ memKept s t) ∧
  (∀ (s : State) (b id fn off a n : Nat) (o : SeqOut), (s.blk b).outOf id = some o → s.blkFn b = some fn → o.work = .store off a n →
    s.workStalled o.work = false → s.workKilled o = false → o.early = none → o.cut = [] →
    (∀ f, s.flag F.fnDlCtrlHbmEn f = false) → s.prot.chans = [] →
    ∃ t : State, exec (.memoryStepDone b id none) s = .next (s.finished (t.nextTable b)) ∧
      (∀ i, i < n → readByte t.mem (off + i) = readByte (s.blk b).store (a + i)) ∧ memKeptBut off n s t ∧
      (t.blk b).outs = (s.blk b).outs.filter (fun y => y.id != id) ∧ (∀ k, k ≠ b → t.blk k = s.blk k)) ∧
  (∀ (s : State) (b fn w off i : Nat) (x : Blk), s.seqAt b 0x0A = some (fn, x, w) → x.holdsNone → x.outs.length < 16 →
    storeCheck (x.stepStore w) ((bits w 96 88 + 1) * 4096) 4096 = none →
    s.stepCheck fn (x.stepFga w).2 (x.stepFga w).1 ((bits w 96 88 + 1) * 4096) (bit w 104) false = .ok off →
    s.bindCheck fn b off (x.stepStore w) ((bits w 96 88 + 1) * 4096) = none → s.freeRes = some i →
    (bit w 104 = true → s.hbmBusy off ((bits w 96 88 + 1) * 4096) = false) →
    ∃ t : State, exec (.rbind b) s = .next (s.finished (t.issue b (.bind i))) ∧
      AMap.find t.res i = some { base := fgaOff (x.stepFga w).1, region := x.stepStore w, len := (bits w 96 88 + 1) * 4096,
                                 load := bit w 104, blk := b, fn := fn } ∧
      (∀ k, k ≠ i → AMap.find t.res k = AMap.find s.res k) ∧ t = { s with res := t.res }) ∧
  (∀ (s v : State) (b i : Nat) (r : Resident) (o : SeqOut), (s.blk b).outs = [o] → o.work = .bind i → s.workStalled o.work = false →
    s.workKilled o = false → AMap.find s.res i = some r → v = s.storesLand r →
    ∃ t : State, exec (.rbindDone b) s = .next (s.finished (t.nextTable b)) ∧ AMap.find t.res i = some { r with state := .live } ∧
      (∀ k, k ≠ i → AMap.find t.res k = AMap.find s.res k) ∧ (t.blk b).outs = [] ∧
      (r.load = true → ∀ c, c < r.len → readByte (t.blk b).store (r.region + c) = readByte v.mem (r.base + c)) ∧
      (r.load = false → (t.blk b).store = (s.blk b).store) ∧ t = { v with res := t.res, blks := t.blks }) ∧
  (∀ (s : State) (b fn w i : Nat) (x : Blk) (r : Resident), s.seqAt b 0x0B = some (fn, x, w) → x.holdsNone → x.outs.length < 16 →
    s.res = [(i, r)] → r.blk = b → r.state = .live → r.base = fgaOff (x.stepFga w).1 → r.region = x.stepStore w →
    r.len = (bits w 96 88 + 1) * 4096 → fgaNode (x.stepFga w).1 = s.nodeId → fgaSpace (x.stepFga w).1 = 0 →
    storeCheck (x.stepStore w) r.len 4096 = none → (bit w 104 = true → s.cipherOk r.base r.len = true) →
    ∃ t : State, exec (.rrelease b) s = .next (s.finished (t.issue b (.release i))) ∧
      AMap.find t.res i = some { r with state := .releasing, wb := bit w 104 } ∧ t = { s with res := t.res }) ∧
  (∀ (s : State) (b i : Nat) (o : SeqOut), (s.blk b).outs = [o] → o.work = .release i → s.workStalled o.work = false →
    s.workKilled o = false → exec (.rreleaseDone b) s = .next (s.finished (((s.releaseEntry i).dropOut b o.id).nextTable b)))

/-- Where the sequencer of a Block that holds nothing back is at an MMA, a VOP or an FLOAD: MMA does the step on the tiles at its registers'
addresses and counts a matrix step; a VOP with each operation code, from ADD to CVT, does that operation on the operands its word names
and counts a vector step; each moves on with its flags raised before it is counted, or stops the sequencer with the status of the check
that fails (State.steppedAs). An FLOAD of each kind that passes its check loads its slot and moves on, and one of a T2 codebook that fails it stops
the sequencer. -/
def Obligations.ComputeStepsTakeEffect : Prop :=
  (∀ (s : State) (b fn w : Nat) (x : Blk), s.seqAt b 0x10 = some (fn, x, w) → x.holdsNone →
    exec (.mma b) s = .next (s.finished (s.steppedAs fn 0x40 b
      (x.mma (bits w 36 32) (bits w 41 37) (x.addr (bits w 51 48) 0 x.rep) (x.addr (bits w 55 52) 0 x.rep)
        (x.addr (bits w 59 56) 0 x.rep) (x.addr (bits w 63 60) 0 x.rep) (bits w 71 64) (bits w 79 72) (bits w 84 80) (bits w 43 42)
        (bit w 44 && x.rep == 0))))) ∧
  (∀ (s : State) (b fn w : Nat) (x : Blk), s.seqAt b 0x11 = some (fn, x, w) → x.holdsNone →
    (bits w 36 32 = 0 → exec (.vopAdd b) s = .next (s.finished (s.vopIssued fn b x w 0))) ∧
    (bits w 36 32 = 1 → exec (.vopSub b) s = .next (s.finished (s.vopIssued fn b x w 1))) ∧
    (bits w 36 32 = 2 → exec (.vopMul b) s = .next (s.finished (s.vopIssued fn b x w 2))) ∧
    (bits w 36 32 = 3 → exec (.vopFma b) s = .next (s.finished (s.vopIssued fn b x w 3))) ∧
    (bits w 36 32 = 4 → exec (.vopMin b) s = .next (s.finished (s.vopIssued fn b x w 4))) ∧
    (bits w 36 32 = 5 → exec (.vopMax b) s = .next (s.finished (s.vopIssued fn b x w 5))) ∧
    (bits w 36 32 = 6 → exec (.vopAbs b) s = .next (s.finished (s.vopIssued fn b x w 6))) ∧
    (bits w 36 32 = 7 → exec (.vopNeg b) s = .next (s.finished (s.vopIssued fn b x w 7))) ∧
    (bits w 36 32 = 8 → exec (.vopCmpEq b) s = .next (s.finished (s.vopIssued fn b x w 8))) ∧
    (bits w 36 32 = 9 → exec (.vopCmpLt b) s = .next (s.finished (s.vopIssued fn b x w 9))) ∧
    (bits w 36 32 = 10 → exec (.vopCmpLe b) s = .next (s.finished (s.vopIssued fn b x w 10))) ∧
    (bits w 36 32 = 11 → exec (.vopSel b) s = .next (s.finished (s.vopIssued fn b x w 11))) ∧
    (bits w 36 32 = 12 → exec (.vopDiv b) s = .next (s.finished (s.vopIssued fn b x w 12))) ∧
    (bits w 36 32 = 13 → exec (.vopSqrt b) s = .next (s.finished (s.vopIssued fn b x w 13))) ∧
    (bits w 36 32 = 14 → exec (.vopRcp b) s = .next (s.finished (s.vopIssued fn b x w 14))) ∧
    (bits w 36 32 = 15 → exec (.vopRsqrt b) s = .next (s.finished (s.vopIssued fn b x w 15))) ∧
    (bits w 36 32 = 16 → exec (.vopExp2 b) s = .next (s.finished (s.vopIssued fn b x w 16))) ∧
    (bits w 36 32 = 17 → exec (.vopLog2 b) s = .next (s.finished (s.vopIssued fn b x w 17))) ∧
    (bits w 36 32 = 18 → exec (.vopRedSum b) s = .next (s.finished (s.vopIssued fn b x w 18))) ∧
    (bits w 36 32 = 19 → exec (.vopRedMax b) s = .next (s.finished (s.vopIssued fn b x w 19))) ∧
    (bits w 36 32 = 20 → exec (.vopCvt b) s = .next (s.finished (s.vopIssued fn b x w 20)))) ∧
  (∀ (s : State) (b fn w : Nat) (x y : Blk), s.seqAt b 0x12 = some (fn, x, w) → x.holdsNone →
    x.fload (bits w 33 32) (x.addr (bits w 39 36) 0 x.rep) (bits w 47 40) = .ok y →
    (bits w 33 32 = 0 → ∃ u, exec (.floadT2Codebook b) s = .next (s.finished u) ∧ u.blk b = y.advance ∧
      (∀ k, k ≠ b → u.blk k = s.blk k) ∧ u = { s with blks := u.blks }) ∧
    (bits w 33 32 = 1 → ∃ u, exec (.floadT4Codebook b) s = .next (s.finished u) ∧ u.blk b = y.advance ∧
      (∀ k, k ≠ b → u.blk k = s.blk k) ∧ u = { s with blks := u.blks }) ∧
    (bits w 33 32 = 2 → ∃ u, exec (.floadProductTable b) s = .next (s.finished u) ∧ u.blk b = y.advance ∧
      (∀ k, k ≠ b → u.blk k = s.blk k) ∧ u = { s with blks := u.blks })) ∧
  (∀ (s : State) (b fn w : Nat) (x : Blk) (st : Status), s.seqAt b 0x12 = some (fn, x, w) → x.holdsNone → bits w 33 32 = 0 →
    x.fload 0 (x.addr (bits w 39 36) 0 x.rep) (bits w 47 40) = .error st →
    exec (.floadT2Codebook b) s = .next (s.finished ((s.seqFail b x.pc x.rep st).nextTable b)))

/-- With every source a vector register: an operation on lanes leaves in each lane of the destination register the result of the
operation on that lane of the sources, with SEL under the mask's bit, and leaves every other register, the masks, the accumulators and
the store; a comparison leaves in the destination mask bit i the outcome on lane i, and leaves all registers; RED_SUM and RED_MAX write
lane 0 only. -/
def Obligations.VopRegisterResults : Prop :=
  (∀ (x : Blk) (op : Nat) (v : VopArgs) (rest : Nat → Nat), op < 8 ∨ (11 ≤ op ∧ op < 18) → v.a.kind = 0 → v.b.kind = 0 → v.c.kind = 0 →
    v.d.kind = 0 →
    ∃ y fl, x.vop op v rest = .ok (y, fl) ∧
      (∀ i, i < 64 → AMap.look 0 y.vregs (v.d.idx % 32 * 64 + i) =
        (vopLane op (lane32 (AMap.look 0 x.vregs (v.a.idx % 32 * 64 + i)))
          (lane32 (if vopArity op < 2 then 0 else AMap.look 0 x.vregs (v.b.idx % 32 * 64 + i)))
          (lane32 (if vopArity op < 3 then 0 else AMap.look 0 x.vregs (v.c.idx % 32 * 64 + i)))
          (bit (AMap.look 0 x.masks v.mask) i)).1) ∧
      (∀ k, k / 64 ≠ v.d.idx % 32 → AMap.look 0 y.vregs k = AMap.look 0 x.vregs k) ∧ y = { x with vregs := y.vregs }) ∧
  (∀ (x : Blk) (op : Nat) (v : VopArgs) (rest : Nat → Nat), 8 ≤ op → op < 11 → v.a.kind = 0 → v.b.kind = 0 →
    ∃ y, x.vop op v rest = .ok (y, {}) ∧
      (∀ i, i < 64 → bit (AMap.look 0 y.masks (v.d.idx % 8)) i =
        vopCmp op (lane32 (AMap.look 0 x.vregs (v.a.idx % 32 * 64 + i))) (lane32 (AMap.look 0 x.vregs (v.b.idx % 32 * 64 + i)))) ∧
      (∀ k, k ≠ v.d.idx % 8 → AMap.look 0 y.masks k = AMap.look 0 x.masks k) ∧ y = { x with masks := y.masks }) ∧
  (∀ (x : Blk) (op : Nat) (v : VopArgs) (rest : Nat → Nat), op = 18 ∨ op = 19 → v.a.kind = 0 → v.d.kind = 0 →
    ∃ y fl, x.vop op v rest = .ok (y, fl) ∧ (∀ k, k ≠ v.d.idx % 32 * 64 → AMap.look 0 y.vregs k = AMap.look 0 x.vregs k) ∧
      y = { x with vregs := y.vregs })

/-- PAUSE of a running sequencer by an origin that reaches it begins the pause, PAUSE_DRAINED with nothing outstanding ends it in paused,
and RESUME of a paused sequencer, or before the pause is reached, makes it running without a pause; a PAUSE in another state changes
nothing. BLOCK_OUT_OF_SERVICE of a Block in service for which no descriptor waits puts it out of service, keeps its last status, and
takes it from its function; every other Block keeps all it holds and its function. -/
def Obligations.BlockControlCommandsComplete : Prop :=
  (∀ (s : State) (org : Origin) (sp : Space) (b k : Nat), s.seqTarget org sp b = some k → (s.blk k).state = .running →
    ∃ u, exec (.pause org sp b) s = .next (s.finished u) ∧ u.blk k = { s.blk k with pausing := true } ∧
      (∀ j, j ≠ k → u.blk j = s.blk j) ∧ u = { s with blks := u.blks }) ∧
  (∀ (s : State) (org : Origin) (sp : Space) (b k : Nat), s.seqTarget org sp b = some k → (s.blk k).state ≠ .running →
    exec (.pause org sp b) s = .next (s.finished s)) ∧
  (∀ (s : State) (b : Nat), (s.blk b).state = .running → (s.blk b).pausing = true → (s.blk b).outs = [] →
    ∃ u, exec (.pauseDrained b) s = .next (s.finished u) ∧ u.blk b = { s.blk b with state := .paused, pausing := false } ∧
      (∀ j, j ≠ b → u.blk j = s.blk j) ∧ u = { s with blks := u.blks }) ∧
  (∀ (s : State) (org : Origin) (sp : Space) (b k : Nat), s.seqTarget org sp b = some k →
    (s.blk k).state = .paused ∨ ((s.blk k).state = .running ∧ (s.blk k).pausing = true) →
    ∃ u, exec (.resume org sp b) s = .next (s.finished u) ∧ u.blk k = { s.blk k with state := .running, pausing := false } ∧
      (∀ j, j ≠ k → u.blk j = s.blk j) ∧ u = { s with blks := u.blks }) ∧
  (∀ (s : State) (b : Nat), s.blkPresent b = true → s.inService b = true → (s.blk b).start = none → (s.blk b).loading = none →
    (s.blk b).waiting = [] →
    ∃ u, exec (.blockOutOfService b) s = .next (s.finished u) ∧ u.blk b = { state := .out, lastStatus := (s.blk b).lastStatus } ∧
      u.blkFn b = none ∧ (∀ j, j ≠ b → u.blk j = s.blk j ∧ u.blkFn j = s.blkFn j))

/-- A COLL that may start, whose descriptor is at hand and names the kind of the command or is not at hand or names no kind, begins:
ALL_REDUCE, REDUCE_SCATTER, ALL_GATHER, BROADCAST, ALL_TO_ALL and BARRIER each with their code of Table 13.1; an ALL_REDUCE whose
descriptor is shorter than 128 bytes completes with BAD_LENGTH. COLL_TIMEOUT of a collective that holds a slot of the Square or has
finished a chunk fails it with UNREACHABLE, its peers told. SQUARE_WORD_BEYOND_ECC on the slice of the slot of a chunk in progress counts
a recomputed chunk and a single fault of kind 6, and the collective is as before. -/
def Obligations.CollectiveCommandsComplete : Prop :=
  (∀ (s : State) (r : OpRef) (o : Op) (k : Nat), s.starting r 0x20 = some o → s.collKind o = some k →
    (k = 1 → exec (.allReduce r) s = .next (s.finished (s.collBegin o))) ∧
    (k = 2 → exec (.reduceScatter r) s = .next (s.finished (s.collBegin o))) ∧
    (k = 3 → exec (.allGather r) s = .next (s.finished (s.collBegin o))) ∧
    (k = 4 → exec (.broadcast r) s = .next (s.finished (s.collBegin o))) ∧
    (k = 5 → exec (.allToAll r) s = .next (s.finished (s.collBegin o))) ∧
    (k = 6 → exec (.barrier r) s = .next (s.finished (s.collBegin o)))) ∧
  (∀ (s : State) (r : OpRef) (o : Op), s.starting r 0x20 = some o → o.d.len < 128 →
    s.collKind o = none ∨ s.collKind o = some 1 →
    exec (.allReduce r) s = .next (s.finished (s.complete o .badLength))) ∧
  (∀ (s : State) (r : OpRef) (id : Nat) (c : Coll), s.colls.find? (fun e => e.2.ref == r) = some (id, c) →
    c.slots ≠ 0 ∨ c.complete ≠ 0 →
    exec (.collTimeout r) s = .next (s.finished (s.collFail id .unreachable none false))) ∧
  (∀ (s : State) (slice id chunk : Nat) (c : Coll), AMap.find s.colls id = some c →
    c.chunks.any (fun k => k.c == chunk && k.slot % 8 == slice) = true →
    ∃ u, exec (.squareWordBeyondEcc slice id chunk) s = .next (s.finished u) ∧ counted s u F.sqRecompChunks 0 ∧
      counted s u F.jnlFcntCount 0 6 ∧ regsKept [.sqRecomp, .jnlFcnt, .jnlFlog] s u ∧
      u = { s with flds := u.flds, freeCount := u.freeCount })

/-- SCRUB of a line of a stack that is on and below thermal level 3, in a PC in service: a clean one changes nothing on demand, and when the
scrubber reads it, in a PC with no lane under repair, it is marked as read, or ends the pass where it is the last line to read; a
corrected one on demand, not the 16th of its lane in 1 ms, is counted and, with no event captured, captured with its lane; one beyond
repair on demand, with no reserved region, no other in the last millisecond and a table that is not full, is counted and poisoned, and
reading it then fails. REFRESH of a bank of a stack that is on keeps when it was refreshed. LANE_REPAIR_DONE of a lane being repaired puts
a spare in its place, starts the scrub of its PC and records a soft repair. COMMAND_INTERFACE_FAILURE retires the PC of a stack that is
on. -/
def Obligations.HbmCommandsComplete : Prop :=
  (∀ (s : State) (k line : Nat), k < 8 → s.domOn (8 + k) = true → line < 2 ^ 30 → slotsOfTwo (s.fld F.hbmStatusLevel k) ≠ 0 →
    bit (s.fld F.hbmPcRetiredMask k) (line / 4 % 64) = false →
    exec (.scrub k line .clean false) s = .next (s.finished s) ∧
    (AMap.find (s.stack k).repairing (line / 4 % 64) = none →
      (((s.stack k).mark line).passed (s.fld F.hbmPcRetiredMask k) = false →
        exec (.scrub k line .clean true) s = .next (s.finished (s.setStack k ((s.stack k).mark line)))) ∧
      (((s.stack k).mark line).passed (s.fld F.hbmPcRetiredMask k) = true →
        exec (.scrub k line .clean true) s =
          .next (s.finished ((s.setStack k { (s.stack k).mark line with scrubbed := [] }).countWrap F.hbmScrubPasses k))))) ∧
  (∀ (s : State) (k line lane : Nat), k < 8 → s.domOn (8 + k) = true → line < 2 ^ 30 →
    slotsOfTwo (s.fld F.hbmStatusLevel k) ≠ 0 → bit (s.fld F.hbmPcRetiredMask k) (line / 4 % 64) = false → s.flag F.hbmEccLogValid k = false →
    (s.lastMs (AMap.look [] (s.stack k).errors (line / 4 % 64 * 64 + lane))).length < 15 → lane < 36 →
    ∃ u, exec (.scrub k line (.corrected lane) false) s = .next (s.finished u) ∧ counted s u F.hbmEccCntCorrected k ∧
      u.flag F.hbmEccLogValid k = true ∧ u.flag F.hbmEccLogBeyond k = false ∧ u.flag F.hbmEccLogScrub k = false ∧
      u.fld F.hbmEccLogLane k = lane ∧ u.fld F.hbmEccLogPc k = line / 4 % 64 ∧ u.fld F.hbmEccLogLine k = line ∧
      regsKept [.hbmEccCnt, .hbmEccLog] s u ∧ u = { s with flds := u.flds, hbm := u.hbm }) ∧
  (∀ (s : State) (k line : Nat), k < 8 → s.domOn (8 + k) = true → slotsOfTwo (s.fld F.hbmStatusLevel k) ≠ 0 → line < 2 ^ 30 →
    s.lineLost (k * 2 ^ 36 + line * 64) = false →
    s.img.regions = [] → (s.stack k).recent = [] → (s.stack k).poison.length < 4096 →
    ∃ u, exec (.scrub k line .beyond false) s = .next (s.finished u) ∧ line ∈ (u.stack k).poison ∧
      counted s u F.hbmEccCntUncorrected k ∧ u.lineOk (k * 2 ^ 30 + line) false = false) ∧
  (∀ (s : State) (n k : Nat), k = n / 4096 → k < 8 → s.domOn (8 + k) = true →
    ∃ t, exec (.refresh n) s = .next t ∧
      t.stack k = { s.stack k with refreshed := AMap.put (s.stack k).refreshed (n % 4096) s.nowNs } ∧
      (∀ j, j ≠ k → t.stack j = s.stack j) ∧ memKept s t ∧ t = { s with hbm := t.hbm, mem := t.mem }) ∧
  (∀ (s : State) (k pc lane : Nat), AMap.find (s.stack k).repairing pc = some lane →
    ∃ u, exec (.laneRepairDone k pc) s = .next (s.finished u) ∧ (u.stack k).spares = (s.stack k).spares ++ [(pc, lane)] ∧
      AMap.find (u.stack k).repairing pc = none ∧ AMap.find (u.stack k).rescrub pc = some [] ∧ u.settings.soft = s.settings.soft ++ [(3, k * 64 + pc, lane)] ∧
      (∀ j, j ≠ k → u.stack j = s.stack j) ∧ u = { s with hbm := u.hbm, fw := u.fw }) ∧
  (∀ (s : State) (k pc : Nat), k < 8 → pc < 64 → s.domOn (8 + k) = true →
    exec (.commandInterfaceFailure k pc) s = .next (s.finished (s.retirePc k pc)))

/-- In BRINGUP, EQUAL_SHARE, SERVICE or DRAIN ROUTER_PARITY_EVENT enters FAULT with cause 0x05, AVENUE_STOP_FAULT with cause 0x06, and a
word of memory 0x01 lost in both copies with 0x03; a second parity event of a pipeline while it recovers enters it with 0x04 where packets
are taken. There PIPELINE_PARITY_EVENT with no QP and no operation counts a single fault of kind 7, and the pipeline takes no heads for the
4,353 cycles of steps 1 to 5. AVENUE_LINK_FAILED of a link of a bundle that is in service takes it out of service and counts a single
fault of kind 3. SRAM_WORD_BEYOND_ECC of a translation in memory 0x0B drops the translation of that address and counts one of kind 6, as
JOURNAL_RECORD_BEYOND_ECC of a free record does; that of a record in use loses its operation (State.recordLost) and is such a fault. REC_SEL by an origin that reaches the register shows the
eight words of the record in use that it selects. -/
def Obligations.FaultCommandsComplete : Prop :=
  (∀ s : State, s.dev.state = .bringup ∨ s.dev.state = .equalShare ∨ s.dev.state = .service ∨ s.dev.state = .drain →
    (∃ u, exec .routerParityEvent s = .next (s.finished u) ∧ u.dev.state = .fault ∧ u.fld F.jnlRstatusFaultCause = 0x05 ∧
      .pin pinTrayFaultN false ∈ u.out ∧ regsKept [.jnlRstatus] s u ∧ memKept s u) ∧
    (∃ u, exec .avenueStopFault s = .next (s.finished u) ∧ u.dev.state = .fault ∧ u.fld F.jnlRstatusFaultCause = 0x06 ∧
      .pin pinTrayFaultN false ∈ u.out ∧ regsKept [.jnlRstatus] s u ∧ memKept s u) ∧
    (∀ n, n < 4 → ∃ u, exec (.sramWordBeyondEcc 0x01 n .bothCopies) s = .next (s.finished u) ∧ u.dev.state = .fault ∧
      u.fld F.jnlRstatusFaultCause = 0x03 ∧ regsKept [.jnlRstatus] s u ∧ memKept s u)) ∧
  (∀ (s : State) (k : Nat), s.netOpen = true → k < 4 →
    ∃ u, exec (.pipelineParityEvent k true) s = .next (s.finished u) ∧ u.dev.state = .fault ∧ u.fld F.jnlRstatusFaultCause = 0x04 ∧
      regsKept [.jnlRstatus] s u ∧ memKept s u) ∧
  (∀ (s : State) (k : Nat) (again : Bool), s.netOpen = true → k < 4 → (s.pipe k).recovering ≠ 0 →
    ∃ u, exec (.pipelineParityEvent k again) s = .next (s.finished u) ∧ u.dev.state = .fault ∧ u.fld F.jnlRstatusFaultCause = 0x04) ∧
  (∀ (s : State) (k : Nat), s.netOpen = true → k < 4 → s.qps = [] → s.ops = [] → (s.pipe k).recovering = 0 →
    ∃ u, exec (.pipelineParityEvent k false) s = .next (s.finished u) ∧ counted s u F.jnlFcntCount 0 7 ∧
      (∀ m, m ∈ (u.pipe k).miss → m.pkt = none ∧ m.roce = none) ∧ (u.pipe k).recovering = 4353 ∧ regsKept [.jnlFcnt, .jnlFlog] s u ∧
      u = { s with flds := u.flds, pipes := u.pipes, freeCount := u.freeCount }) ∧
  (∀ (s : State) (bundle link : Nat), link < bundleLinks bundle → bundle * 20 + link ∉ s.bist.linksOut →
    ∃ u, exec (.avenueLinkFailed bundle link) s = .next (s.finished u) ∧ u.bist.linksOut = s.bist.linksOut ++ [bundle * 20 + link] ∧
      counted s u F.jnlFcntCount 0 3 ∧ regsKept [.jnlFcnt, .jnlFlog] s u ∧
      u = { s with flds := u.flds, bist := u.bist, freeCount := u.freeCount }) ∧
  (∀ (s : State) (fn ha : Nat), ∃ u, exec (.sramWordBeyondEcc 0x0B 0 (.translation fn ha)) s = .next (s.finished u) ∧
    u.tlb = (s.tlbLost .stlb fn ha).tlb ∧ counted s u F.jnlFcntCount 0 6 ∧ regsKept [.jnlFcnt, .jnlFlog] s u ∧ memKept s u) ∧
  (∀ (s : State) (n : Nat), n < 262144 → AMap.find s.jnl n = none →
    ∃ u, exec (.journalRecordBeyondEcc n) s = .next (s.finished u) ∧ counted s u F.jnlFcntCount 0 6 ∧
      regsKept [.jnlFcnt, .jnlFlog] s u ∧ u = { s with flds := u.flds, freeCount := u.freeCount }) ∧
  (∀ (s : State) (n : Nat) (j : JRec), n < 262144 → AMap.find s.jnl n = some j →
    exec (.journalRecordBeyondEcc n) s = .next (s.finished ((s.recordLost n j).singleFault 6 0x05 (sliceOf n)))) ∧
  (∀ (s : State) (org : Origin) (n : Nat) (j : JRec), s.dcsOpen org 0x9000040 = true → n < 2 ^ 18 → AMap.find s.jnl n = some j →
    ∃ t, exec (.recSel org n) s = .next t ∧ t.fld F.jnlRecSelIndex = n ∧
      (∀ k, k < 8 → t.fld F.jnlRecDataData k = leAt j.bytes (8 * k) 8) ∧ regsKept [.jnlRecSel, .jnlRecData] s t ∧ memKept s t ∧
      t = { s with flds := t.flds, mem := t.mem })

/-- While KEYF of a served function is not BUSY: INSTALL that passes the checks makes the epoch slot VALID with the key that the blob at
KEYF.ARG0 unwraps to, or the region slot, unless the blob fails its check (AUTH_FAILED) or the halves are equal (BAD_DESCRIPTOR); without a
KEK it ends with AUTH_FAILED; SET_TX of a VALID slot makes it the TX epoch; RETIRE of another epoch than TX that is not killed empties
its slot; ERASE of an unbound key set empties it, and of a bound one ends with NOT_PERMITTED; TAG of pages that pass the checks is BUSY,
and HBM holds accesses to the first. TAG_PAGE_DONE of a page of the function to which no Block's access is in flight overwrites it with
zeros and gives it its tag, and ends the command with OK after the last. AUTH_TAG_RESULT of the oldest packet that waits: one whose tag is
right takes effect; another, with nothing written and the limit not reached, is counted, and a request is forgotten (State.tgtForget); of
n packets, their results come in order. CIPHER_PARITY_FAULT of an XTS engine with a region slot in use kills the slot, counts and
notifies. -/
def Obligations.KeyCommandsComplete : Prop :=
  (∀ (s : State) (fn v a k : Nat) (c : KeyCmd), s.keyOpen fn → c = KeyCmd.ofNat v → c.region = false →
    (s.keyArg0 fn a).installCheck fn c = none → (s.keyArg0 fn a).blobKey fn c = some k →
    ∃ t : State, exec (.install fn v a) s = .next (s.finished t) ∧
      t.keySet fn c.index = { s.keySet fn c.index with
        slots := (s.keySet fn c.index).slots.set c.epoch .valid
        keys := (s.keySet fn c.index).keys.set c.epoch (BitVec.ofNat 256 k) } ∧
      t.keyEnded fn .ok ∧ regsKept [.keyfArg0, .keyfCmd, .keyfStatus] s t ∧ memKept s t ∧ t = { s with flds := t.flds, prot := t.prot }) ∧
  (∀ (s : State) (fn v a : Nat) (c : KeyCmd), s.keyOpen fn → c = KeyCmd.ofNat v → c.region = true →
    (s.keyArg0 fn a).installCheck fn c = none →
    ∃ t : State, exec (.install fn v a) s = .next (s.finished t) ∧ t.prot.tags = s.prot.tags ∧ t.prot.sets = s.prot.sets ∧
      (match (s.keyArg0 fn a).blobKey fn c with
       | none => t.keyEnded fn .authFailed ∧ t.prot = s.prot ∧ memKept s t
       | some k =>
         if (keyHalves k).1 = (keyHalves k).2 then t.keyEnded fn .badDescriptor ∧ t.prot = s.prot ∧ memKept s t
         else t.keyEnded fn .ok ∧ t.region fn c.index = .valid ∧ t.regionKey fn c.index = keyHalves k ∧
           (s.regionKey fn c.index = keyHalves k → memKept s t))) ∧
  (∀ (s : State) (fn v a : Nat), s.keyOpen fn → s.fw.kek = none →
    ∃ t : State, exec (.install fn v a) s = .next (s.finished t) ∧ t.keyEnded fn .authFailed ∧ t.prot = s.prot ∧ memKept s t) ∧
  (∀ (s : State) (fn v : Nat) (c : KeyCmd), s.keyOpen fn → c = KeyCmd.ofNat v → c.named = true → c.region = false →
    (s.keySet fn c.index).slots.getD c.epoch .empty = .valid →
    ∃ t : State, exec (.setTx fn v) s = .next (s.finished t) ∧ (t.keySet fn c.index).tx = c.epoch ∧
      (c.epoch ≠ (s.keySet fn c.index).tx → (t.keySet fn c.index).psns = 0) ∧ (t.keySet fn c.index).slots = (s.keySet fn c.index).slots ∧
      t.keyEnded fn .ok ∧ t = { s with flds := t.flds, prot := t.prot }) ∧
  (∀ (s : State) (fn v : Nat) (c : KeyCmd), s.keyOpen fn → c = KeyCmd.ofNat v → c.named = true → c.region = false →
    (s.keySet fn c.index).tx ≠ c.epoch → (s.keySet fn c.index).slots.getD c.epoch .empty ≠ .killed →
    ∃ t : State, exec (.retire fn v) s = .next (s.finished t) ∧
      t.keySet fn c.index = { s.keySet fn c.index with
        slots := (s.keySet fn c.index).slots.set c.epoch .empty, keys := (s.keySet fn c.index).keys.set c.epoch 0 } ∧
      t.keyEnded fn .ok ∧ t = { s with flds := t.flds, prot := t.prot }) ∧
  (∀ (s : State) (fn v : Nat) (c : KeyCmd), s.keyOpen fn → c = KeyCmd.ofNat v → c.named = true → c.region = false →
    s.keyBound fn c.index = false →
    ∃ t : State, exec (.erase fn v) s = .next (s.finished t) ∧ t.keySet fn c.index = {} ∧ t.keyEnded fn .ok ∧
      t = { s with flds := t.flds, prot := t.prot }) ∧
  (∀ (s : State) (fn v : Nat) (c : KeyCmd), s.keyOpen fn → c = KeyCmd.ofNat v → c.named = true → c.region = false →
    s.keyBound fn c.index = true →
    ∃ t : State, exec (.erase fn v) s = .next (s.finished t) ∧ t.keyEnded fn .notPermitted ∧ t = { s with flds := t.flds }) ∧
  (∀ (s : State) (fn v : Nat), s.keyOpen fn → s.tagCheck fn (KeyCmd.ofNat v) = none →
    ∃ t : State, exec (.tag fn v) s = .next (s.finished t) ∧ t.flag F.keyfStatusBusy fn = true ∧
      AMap.find t.prot.tagging fn = some { slot := (KeyCmd.ofNat v).index, pages := s.tagPages fn } ∧ t.prot.tags = s.prot.tags ∧
      t.hbmBusy ((s.tagPages fn).headD 0 * pageSize) pageSize = true ∧ t = { s with flds := t.flds, prot := t.prot }) ∧
  (∀ (s : State) (fn p : Nat) (ps : List Nat) (g : Tagging), AMap.find s.prot.tagging fn = some g → g.pages = p :: ps →
    s.pageAdmitted p = false → spanFind s.ten.pages p = some fn →
    ∃ t : State, exec (.tagPageDone fn) s = .next (s.finished t) ∧ AMap.look 0 t.prot.tags p = (if g.slot = 0 then 0 else fn * 16 + g.slot) ∧
      (∀ q, q ≠ p → AMap.look 0 t.prot.tags q = AMap.look 0 s.prot.tags q) ∧
      AMap.find t.prot.tagging fn = (if ps = [] then none else some { g with pages := ps }) ∧ (ps = [] → t.keyEnded fn .ok) ∧
      (∀ a, a / pageSize = p → readByte t.mem a = 0#8) ∧ (∀ a, a / pageSize ≠ p → readByte t.mem a = readByte s.mem a) ∧
      t = { s with flds := t.flds, prot := t.prot, mem := t.mem, hbm := t.hbm }) ∧
  (∀ (s : State) (q n : Nat), exec (.authTagResult q n) s = .next (s.finished (s.tagResults q n))) ∧
  (∀ (s : State) (q n : Nat), s.tagResults q (n + 1) = (s.tagResults q 1).tagResults q n) ∧
  (∀ (s : State) (q : Nat) (u : Unauth) (us : List Unauth), (s.qp q).unauth = u :: us → u.good = true →
    exec (.authTagResult q 1) s =
      .next (s.finished ((s.setQp q { s.qp q with unauth := us, authFails := 0 }).sltEffect u.pkt))) ∧
  (∀ (s : State) (q : Nat) (u : Unauth) (us : List Unauth), (s.qp q).unauth = u :: us → u.good = false → u.place = none →
    (s.qp q).authFails + 1 < max 1 (s.fld F.intCfgAuthMax) →
    ∃ t : State, exec (.authTagResult q 1) s = .next (s.finished (if sltType u.pkt.op = 0 then t.tgtForget q u.pkt else t)) ∧
      t.qp q = { s.qp q with unauth := us, authFails := (s.qp q).authFails + 1 } ∧ counted s t F.intCiphCntAuthFail 0 ∧
      t = { s with flds := t.flds, qps := t.qps }) ∧
  (∀ (s : State) (fn idx : Nat), s.region fn idx = .valid →
    ∃ t : State, exec (.cipherParityFault true fn idx) s = .next (s.finished
        (t.notify { type := 0xE6, fn := fn, body := [1#8, BitVec.ofNat 8 idx] })) ∧ t.region fn idx = .killed ∧
      counted s t F.intCiphCntCipherFaults 0 ∧ t = { s with flds := t.flds, prot := t.prot })

/-- IC_ENABLE at a channel that is off, held by a function to which the source of IC_SRC belongs, sets ENABLE and makes it run; with a
source kind of 5 or more it answers BAD_DESCRIPTOR, with no holder NOT_PERMITTED, and the channel stays off. IC_DISABLE of a running
channel with nothing left to fold clears ENABLE and makes it off. IC_EXPECTATION_PUSH puts the length in IC_EXP_LEN and the value behind
fewer than four expectations, and behind four sets EXP_OVF and drops it. -/
def Obligations.IntegrityChannelCommandsComplete : Prop :=
  (∀ (s : State) (org : Origin) (sp : Space) (ch c fn : Nat), s.icTarget org sp ch = some c → (s.chan c).state = .off →
    s.fld F.intIcSrcSrcKind c < 5 → AMap.find s.ten.chans c = some fn →
    s.icSourceOk fn (s.fld F.intIcSrcSrcKind c) (s.fld F.intIcSrcIndex c) = true →
    ∃ u, exec (.icEnable org sp ch) s = .next (s.finished u) ∧ u.chan c = { s.chan c with state := .run, stopping := false } ∧
      u.flag F.intIcCtrlEnable c = true ∧ u.fld F.intIcStatusState c = IcState.run.code ∧ (∀ k, k ≠ c → u.chan k = s.chan k) ∧
      regsKept [.intIcCtrl, .intIcStatus] s u ∧ u = { s with flds := u.flds, prot := u.prot }) ∧
  (∀ (s : State) (org : Origin) (sp : Space) (ch c : Nat), s.icTarget org sp ch = some c → (s.chan c).state = .off →
    (5 ≤ s.fld F.intIcSrcSrcKind c → ∃ u, exec (.icEnable org sp ch) s = .next (s.finished u) ∧
      u.fld F.intIcStatusCode c = Status.badDescriptor.code ∧ u.prot = s.prot ∧ regsKept [.intIcStatus] s u) ∧
    (s.fld F.intIcSrcSrcKind c < 5 → AMap.find s.ten.chans c = none → ∃ u, exec (.icEnable org sp ch) s = .next (s.finished u) ∧
      u.fld F.intIcStatusCode c = Status.notPermitted.code ∧ u.prot = s.prot ∧ regsKept [.intIcStatus] s u)) ∧
  (∀ (s : State) (org : Origin) (sp : Space) (ch c : Nat), s.icTarget org sp ch = some c → (s.chan c).state ≠ .off → (s.chan c).ops = [] →
    ∃ u, exec (.icDisable org sp ch) s = .next (s.finished u) ∧ u.chan c = { s.chan c with state := .off, stopping := false } ∧
      u.flag F.intIcCtrlEnable c = false ∧ (∀ k, k ≠ c → u.chan k = s.chan k) ∧ regsKept [.intIcCtrl, .intIcStatus] s u ∧
      u = { s with flds := u.flds, prot := u.prot }) ∧
  (∀ (s : State) (org : Origin) (sp : Space) (ch c val : Nat), s.icTarget org sp ch = some c → (s.chan c).exps.length < 4 →
    ∃ u, exec (.icExpectationPush org sp ch val) s = .next (s.finished u) ∧
      u.chan c = { s.chan c with exps := (s.chan c).exps ++ [(s.fld F.intIcExpLenLen c, val)] } ∧
      u.fld F.intIcStatusExpDepth c = (s.chan c).exps.length + 1 ∧ (∀ k, k ≠ c → u.chan k = s.chan k) ∧ regsKept [.intIcStatus] s u ∧
      u = { s with flds := u.flds, prot := u.prot }) ∧
  (∀ (s : State) (org : Origin) (sp : Space) (ch c val : Nat), s.icTarget org sp ch = some c → 4 ≤ (s.chan c).exps.length →
    ∃ u, exec (.icExpectationPush org sp ch val) s = .next (s.finished u) ∧ u.flag F.intIcStatusExpOvf c = true ∧
      regsKept [.intIcStatus] s u ∧ u = { s with flds := u.flds })

/-- While FN is open to an origin and not BUSY, a command that passes its checks has its effect and ends with OK: FN_CREATE makes the
function active with an empty allocation and places its Kiosk, SET_LIMIT sets the range of work queues or a limit that is no range, GIVE
gives the pages, Blocks or channels named to the function, TAKE takes pages from it that then read 0 and are untagged, DL_SWAP with the
host log on swaps the active log, KSK_SET places the Kiosk, VF_RESET starts the reset of an active VF; an FN_CREATE, SET_LIMIT, GIVE or
TAKE that fails its check ends with the status of the check. FN_DESTROY of an active VF starts its reset with BUSY set, and of the manager
ends with NOT_PERMITTED. PAGE_ZEROED takes the page from those to be zeroed. -/
def Obligations.FunctionCommandsComplete : Prop :=
  (∀ (s : State) (org : Origin) (fn : Nat), s.fnOpen org → s.createCheck fn = none →
    ∃ u, exec (.fnCreate org fn) s = .next (s.finished u) ∧ (u.fn fn).state = .active ∧ u.alloc fn = {} ∧
      u.kiosk fn = some { base := fgaOff (s.fld F.fnArg0Value - s.fld F.fnArg0Value % 8), size := s.fld F.fnArg0Value % 8 } ∧
      u.fnEnded .ok ∧ (∀ g, g ≠ fn → u.fn g = s.fn g ∧ u.alloc g = s.alloc g) ∧ memKept s u) ∧
  (∀ (s : State) (org : Origin) (fn : Nat) (st : Status), s.fnOpen org →
    (s.createCheck fn = some st → ∃ u, exec (.fnCreate org fn) s = .next (s.finished u) ∧ u.fnEnded st ∧ u = { s with flds := u.flds }) ∧
    (∀ r, s.limitCheck fn r = some st → ∃ u, exec (.setLimit org fn r) s = .next (s.finished u) ∧ u.fnEnded st ∧
      u = { s with flds := u.flds }) ∧
    (∀ r, s.giveCheck fn r = some st → ∃ u, exec (.give org fn r) s = .next (s.finished u) ∧ u.fnEnded st ∧ u = { s with flds := u.flds }) ∧
    (∀ r, s.takeCheck fn r = some st → ∃ u, exec (.take org fn r) s = .next (s.finished u) ∧ u.fnEnded st ∧
      u = { s with flds := u.flds })) ∧
  (∀ (s : State) (org : Origin) (fn : Nat), s.fnOpen org → s.isManager fn = true →
    ∃ u, exec (.fnDestroy org fn) s = .next (s.finished u) ∧ u.fnEnded .notPermitted ∧ u = { s with flds := u.flds }) ∧
  (∀ (s : State) (org : Origin) (fn : Nat), s.fnOpen org → s.isManager fn = false → s.isPf fn = false → (s.fn fn).state = .active →
    exec (.fnDestroy org fn) s = .next (s.finished
      ((({ s with ten := { s.ten with destroying := some fn } }).setFlag F.fnStatusBusy true).fnReset fn true))) ∧
  (∀ (s : State) (org : Origin) (fn r : Nat), s.fnOpen org → s.limitCheck fn r = none → 2 < r →
    ∃ u, exec (.setLimit org fn r) s = .next (s.finished u) ∧ u.alloc fn = (s.alloc fn).setLimit r (s.fld F.fnArg0Value) ∧
      (∀ g, g ≠ fn → u.alloc g = s.alloc g) ∧ u.fnEnded .ok ∧ regsKept [.fnStatus] s u ∧ u = { s with flds := u.flds, ten := u.ten }) ∧
  (∀ (s : State) (org : Origin) (fn : Nat), s.fnOpen org → s.limitCheck fn 0 = none →
    ∃ u, exec (.setLimit org fn 0) s = .next (s.finished u) ∧ (u.alloc fn).qBase = s.fld F.fnArg0Value ∧
      (u.alloc fn).qCount = s.fld F.fnArg1Value ∧ (∀ g, g ≠ fn → u.alloc g = s.alloc g) ∧ u.fnEnded .ok ∧
      u = { s with flds := u.flds, ten := u.ten }) ∧
  (∀ (s : State) (org : Origin) (fn : Nat), s.fnOpen org → s.giveCheck fn 5 = none →
    ∃ u, exec (.give org fn 5) s = .next (s.finished u) ∧ (∀ b, b ∈ s.named 5 → u.blkFn b = some fn) ∧
      (∀ b, b ∉ s.named 5 → u.blkFn b = s.blkFn b) ∧ u.fnEnded .ok ∧ u = { s with flds := u.flds, ten := u.ten }) ∧
  (∀ (s : State) (org : Origin) (fn : Nat), s.fnOpen org → s.giveCheck fn 4 = none →
    ∃ u, exec (.give org fn 4) s = .next (s.finished u) ∧
      u.ten.pages = spanPut s.ten.pages (s.fld F.fnArg0Value / pageSize) (s.fld F.fnArg1Value) fn ∧ u.fnEnded .ok ∧
      u = { s with flds := u.flds, ten := u.ten }) ∧
  (∀ (s : State) (org : Origin) (fn : Nat), s.fnOpen org → s.giveCheck fn 8 = none →
    ∃ u, exec (.give org fn 8) s = .next (s.finished u) ∧ (∀ c, c ∈ s.named 8 → AMap.find u.ten.chans c = some fn) ∧
      (∀ c, c ∉ s.named 8 → AMap.find u.ten.chans c = AMap.find s.ten.chans c) ∧ u.fnEnded .ok ∧
      regsKept [.fnStatus, .intIcCtrl] s u ∧ u = { s with flds := u.flds, ten := u.ten }) ∧
  (∀ (s : State) (org : Origin) (fn : Nat), s.fnOpen org → s.takeCheck fn 4 = none →
    ∃ u, exec (.take org fn 4) s = .next (s.finished u) ∧
      (∀ a, a / pageSize ∈ s.named 4 → readByte u.mem a = 0#8 ∧ AMap.look 0 u.prot.tags (a / pageSize) = 0) ∧
      (∀ a, a / pageSize ∉ s.named 4 → readByte u.mem a = readByte s.mem a) ∧ u.fnEnded .ok ∧
      u.ten.pages = spanCut s.ten.pages (s.fld F.fnArg0Value / pageSize) (s.fld F.fnArg1Value)) ∧
  (∀ (s : State) (org : Origin) (fn : Nat), s.fnOpen org → s.isPf fn = false → (s.fn fn).state = .active →
    exec (.vfReset org fn) s = .next (s.finished ((s.fnReset fn false).fnEnds .ok))) ∧
  (∀ (s : State) (org : Origin) (fn : Nat), s.fnOpen org → s.fnIsCreated fn = true → s.flag F.fnDlCtrlHostEn fn = true →
    ∃ u, exec (.dlSwap org fn) s = .next (s.finished u) ∧ u.flag F.fnDlCtrlActive fn = !s.flag F.fnDlCtrlActive fn ∧ u.fnEnded .ok ∧
      regsKept [.fnDlCtrl, .fnStatus] s u ∧ u = { s with flds := u.flds }) ∧
  (∀ (s : State) (org : Origin) (fn : Nat), s.fnOpen org → s.fnIsCreated fn = true → s.kioskCheck (s.fld F.fnArg0Value) = none →
    ∃ u, exec (.kskSet org fn) s = .next (s.finished u) ∧
      u.kiosk fn = some { base := fgaOff (s.fld F.fnArg0Value - s.fld F.fnArg0Value % 8), size := s.fld F.fnArg0Value % 8 } ∧
      u.fnEnded .ok ∧ u = { s with flds := u.flds, ten := u.ten }) ∧
  (∀ (s : State) (p : Nat), ∃ u, exec (.pageZeroed p) s = .next (s.finished u) ∧ u.ten.zeroing = spanCut s.ten.zeroing p 1 ∧
    u.ten.pages = s.ten.pages ∧ u = { s with ten := u.ten })

/-- KIOSK_POST of a served function: with room in its REQ ring and a type below 0xE0 it posts the message staged, with phase, function
and time, and moves the tail; with a type from 0xE0 or a full ring, or without a Kiosk, it sets TX_REFUSED and posts nothing.
RSP_TAIL_DOORBELL by an origin that reaches it moves the tail of a response ring, presents the message at its head, and signals the
function's vector where it is enabled and a message waits; a position more than the ring ahead sets DB_ERR and moves nothing.
REQ_HEAD_DOORBELL with no notice lost moves the head. RX_POP of a waiting response moves the head on by
one and presents the next. -/
def Obligations.KioskCommandsComplete : Prop :=
  (∀ (s : State) (fn : Nat) (k : Kiosk), s.barOpen fn = true → s.kiosk fn = some k → leAt (s.staged fn) 0 1 < 0xE0 → k.reqUsed < k.entries →
    exec (.kioskPost fn) s = .next (s.finished (s.postReq fn k fun ph => (s.staged fn).take 1 ++ leBytes (b2n ph * 128) 1 ++
      leBytes fn 2 ++ ((s.staged fn).drop 4).take 4 ++ leBytes s.stamp 8 ++ (s.staged fn).drop 16))) ∧
  (∀ (s : State) (fn : Nat), s.barOpen fn = true →
    (s.kiosk fn = none ∨ ∃ k, s.kiosk fn = some k ∧ (0xE0 ≤ leAt (s.staged fn) 0 1 ∨ k.entries ≤ k.reqUsed)) →
    ∃ u, exec (.kioskPost fn) s = .next (s.finished u) ∧ u.flag F.kskStatusTxRefused fn = true ∧ regsKept [.kskStatus] s u ∧
      u = { s with flds := u.flds }) ∧
  (∀ (s : State) (org : Origin) (fn idx : Nat) (k : Kiosk), s.dcsOpen org 0x200058 = true → s.kiosk fn = some k →
    k.entries < subMod 16 (idx % 65536) k.rspHead →
    ∃ u, exec (.rspTailDoorbell org fn idx) s = .next (s.finished u) ∧ u.flag F.fnKskCtrlDbErr = true ∧ u.ten = s.ten ∧
      regsKept [.fnKskCtrl] s u) ∧
  (∀ (s : State) (org : Origin) (fn idx : Nat) (k : Kiosk), s.dcsOpen org 0x200058 = true → s.kiosk fn = some k →
    subMod 16 (idx % 65536) k.rspHead ≤ k.entries →
    ∃ u, exec (.rspTailDoorbell org fn idx) s = .next (s.finished
        (if s.flag F.kskCtrlIrqEn fn = true ∧ k.rspHead ≠ idx % 65536 then u.signal fn (s.fld F.kskCtrlVector fn) else u)) ∧
      u.kiosk fn = some { k with rspTail := idx % 65536 } ∧
      u = (s.setKiosk fn { k with rspTail := idx % 65536 }).present fn { k with rspTail := idx % 65536 }) ∧
  (∀ (s : State) (org : Origin) (fn idx : Nat) (k : Kiosk), s.dcsOpen org 0x200058 = true → s.kiosk fn = some k → s.ten.lostNotices = 0 →
    ∃ u, exec (.reqHeadDoorbell org fn idx) s = .next (s.finished u) ∧ u.kiosk fn = some { k with reqHead := idx % 65536 } ∧
      (∀ g, g ≠ fn → u.kiosk g = s.kiosk g) ∧ u = { s with ten := u.ten }) ∧
  (∀ (s : State) (fn : Nat) (k : Kiosk), s.barOpen fn = true → s.kiosk fn = some k → k.rspHead ≠ k.rspTail →
    ∃ u, exec (.rxPop fn) s = .next (s.finished u) ∧ u.kiosk fn = some { k with rspHead := (k.rspHead + 1) % 65536 } ∧
      u = (s.setKiosk fn { k with rspHead := (k.rspHead + 1) % 65536 }).present fn { k with rspHead := (k.rspHead + 1) % 65536 }) ∧
  (∀ (s : State) (fn : Nat) (k : Kiosk), s.barOpen fn = true → s.kiosk fn = some k → k.rspHead = k.rspTail →
    exec (.rxPop fn) s = .next (s.finished s))

/-- VAON_UP without power leads to STANDBY with POR_N asserted, VAON_LOSS to off; POR_N_ASSERT and a rail out of tolerance lead to
STANDBY with memory, windows and QPs gone, and POR_N_DEASSERT from STANDBY begins the start, or BRINGUP where RESET_N is low.
RESET_N_DEASSERT and INTERNAL_RESET_PULSE_END begin the start. A step of a start in progress can end only when the step before has ended,
and STEP then reads its number: step 2 sets fabric time to 0, step 8 leaves HBM reading 0 and no window. RELEASE in EQUAL_SHARE after a
start, or RELEASE_TIMEOUT there, leads to SERVICE at step 10. ENTER_EQUAL from SERVICE leads to EQUAL_SHARE and a new window epoch,
LEAVE_EQUAL back, DRAIN to DRAIN; in other states the three end with FN_STATE. While a function command is in progress, ENTER_EQUAL waits
for its end. DRAIN_END by the time limit sends RESET_NOTICE, and DRAIN_RESET_TIMER resets the device with the cause of the drain. -/
def Obligations.DeviceStateCommandsComplete : Prop :=
  (∀ s : State, s.dev.state = .off → ∃ u, exec .vaonUp s = .next (s.finished u) ∧ u.dev.state = .standby ∧ u.dev.porLow = true ∧ u.mem = []) ∧
  (∀ s : State, ∃ u, exec .vaonLoss s = .next (s.finished u) ∧ u.dev.state = .off ∧ u.mem = [] ∧ u.wins = [] ∧ u.qps = []) ∧
  (∀ s : State, s.dev.state ≠ .off →
    ∃ u, exec .porNAssert s = .next (s.finished u) ∧ u.dev.state = .standby ∧ u.dev.porLow = true ∧ u.dev.railLost = false ∧
      u.gov.trip = false ∧ u.mem = [] ∧ u.wins = [] ∧ u.qps = []) ∧
  (∀ s : State, s.dev.porLow = true → s.dev.state = .standby → s.dev.resetLow = false →
    exec .porNDeassert s = .next (s.finished
      (State.startBegins { s with dev := { s.dev with porLow := false, state := .bringup } }))) ∧
  (∀ s : State, s.dev.porLow = true → s.dev.state = .standby → s.dev.resetLow = true →
    exec .porNDeassert s = .next (s.finished { s with dev := { s.dev with porLow := false, state := .bringup } })) ∧
  (∀ s : State, s.dev.state ≠ .off → s.dev.state ≠ .standby →
    ∃ u, exec .railOutOfTolerance s = .next (s.finished u) ∧ u.dev.state = .standby ∧ u.dev.railLost = true ∧ u.mem = [] ∧ u.wins = [] ∧
      u.qps = []) ∧
  (∀ s : State, s.dev.resetLow = true → s.dev.state = .bringup →
    exec .resetNDeassert s = .next (s.finished (State.startBegins { s with dev := { s.dev with resetLow := false } }))) ∧
  (∀ s : State, s.dev.pulse = true →
    exec .internalResetPulseEnd s = .next (s.finished (State.startBegins { s with dev := { s.dev with pulse := false } }))) ∧
  (∀ (s : State) (n ms : Nat) (x : StepInfo), s.dev.state = .bringup → s.dev.starting = true → s.dev.resetLow = false →
    s.dev.pulse = false → n = s.fld F.rstStateStep + 1 →
    (n = 1 → exec (.startStepComplete n ms x) s = .next (s.finished (s.startFuses.setFld F.rstStateStep 1))) ∧
    (n = 2 → ∃ u, exec (.startStepComplete n ms x) s = .next (s.finished u) ∧ u.nowNs = 0 ∧ u.fld F.rstStateStep = 2 ∧
      u.flag F.clkpwrClkStatusRefclkOk = true ∧ u.flag F.clkpwrClkStatusMasterLock = true ∧ memKept s u) ∧
    (n = 3 → exec (.startStepComplete n ms x) s = .next (s.finished (s.startPorts.setFld F.rstStateStep 3))) ∧
    (n = 4 → exec (.startStepComplete n ms x) s = .next (s.finished (s.startFirmware x))) ∧
    (n = 5 → exec (.startStepComplete n ms x) s = .next (s.finished ((s.startCalibration x).setFld F.rstStateStep 5))) ∧
    (n = 6 → exec (.startStepComplete n ms x) s = .next (s.finished (s.startStructure x))) ∧
    (n = 7 → exec (.startStepComplete n ms x) s = .next (s.finished (s.startApply x))) ∧
    (n = 8 → ∃ u, exec (.startStepComplete n ms x) s = .next (s.finished u) ∧ u.mem = [] ∧ u.wins = [] ∧ u.ten.pages = [] ∧
      u.fld F.rstStateStep = 8) ∧
    (n = 9 → exec (.startStepComplete n ms x) s = .next (s.finished ((s.startShares ms).setFld F.rstStateStep 9)))) ∧
  (∀ (s : State) (n ms : Nat) (x : StepInfo), n ≠ s.fld F.rstStateStep + 1 → exec (.startStepComplete n ms x) s = .next (s.finished s)) ∧
  (∀ (s : State) (ms : Nat), s.dev.state = .equalShare → s.flag F.fnModeFrom = false → s.flag F.fnStatusBusy = false →
    (∀ org, s.dcsOpen org 0x10008 = true → ∃ u, exec (.release org ms) s = .next (s.finished u) ∧ u.dev.state = .service ∧
      u.ten.equal = none ∧ u.fld F.rstStateStep = 10 ∧ u.fld F.rstStateSvcMs = min ms 0xFFFF ∧
      u.fld F.rstCmdStatusCode = Status.ok.code ∧ memKept s u) ∧
    (∃ u, exec (.releaseTimeout ms) s = .next (s.finished u) ∧ u.dev.state = .service ∧ u.ten.equal = none ∧ u.fld F.rstStateStep = 10 ∧
      memKept s u)) ∧
  (∀ (s : State) (org : Origin), s.dcsOpen org 0x9000000 = true → s.dev.state = .service →
    (s.flag F.fnStatusBusy = false →
      ∃ u, exec (.enterEqual org) s = .next (s.finished u) ∧ u.dev.state = .equalShare ∧ u.ten.equal = some (s.created.length, true) ∧
        u.vl.wins = [] ∧ u.wepoch = (s.wepoch + 1) % 256 ∧ u.fld F.jnlRstatusCode = Status.ok.code ∧ memKept s u) ∧
    (s.flag F.fnStatusBusy = true →
      ∃ u, exec (.enterEqual org) s = .next (s.finished u) ∧ u.dev = s.dev ∧ u.ten = { s.ten with eqDue := some .enter } ∧
        u.fld F.jnlRstatusCode = Status.ok.code ∧ regsKept [.jnlRstatus] s u ∧ memKept s u) ∧
    (∃ u, exec (.drain org) s = .next (s.finished u) ∧ u.dev.state = .drain ∧ u.dev.drainCause = 3 ∧ u.dev.drainSent = 0 ∧
      u.fld F.jnlRstatusCode = Status.ok.code ∧ memKept s u)) ∧
  (∀ (s : State) (org : Origin) (c : Instr), s.dcsOpen org 0x9000000 = true →
    ((c = .enterEqual org ∧ s.dev.state ≠ .service) ∨
      (c = .leaveEqual org ∧ (s.dev.state ≠ .equalShare ∨ s.flag F.fnModeFrom = false)) ∨
      (c = .drain org ∧ s.dev.state ≠ .service ∧ (s.dev.state ≠ .equalShare ∨ s.flag F.fnModeFrom = false))) →
    ∃ u, exec c s = .next (s.finished u) ∧ u.fld F.jnlRstatusCode = Status.fnState.code ∧ u.flag F.jnlRstatusFail = true ∧
      regsKept [.jnlRstatus] s u ∧ u = { s with flds := u.flds }) ∧
  (∀ (s : State) (org : Origin), s.dcsOpen org 0x9000000 = true → s.dev.state = .equalShare → s.flag F.fnModeFrom = true →
    s.flag F.fnStatusBusy = false →
    ∃ u, exec (.leaveEqual org) s = .next (s.finished u) ∧ u.dev.state = .service ∧ u.ten.equal = none ∧
      u.fld F.jnlRstatusCode = Status.ok.code ∧ memKept s u) ∧
  (∀ s : State, s.dev.state = .drain → s.dev.drainSent = 0 →
    exec (.drainEnd true) s = .next (s.finished { s.tellReset with dev := { s.tellReset.dev with drainSent := 1 } })) ∧
  (∀ s : State, s.dev.state = .drain → s.dev.drainSent ≠ 0 →
    exec .drainResetTimer s = .next (s.finished (s.deviceReset s.dev.drainCause)))

/-- RESET_N_ASSERT of a started device, and DEVICE_RESET by an origin that reaches RST with the CONFIRM value 0xC940, lead to BRINGUP
with CAUSE 1, or 2 from a host and 4 from the out-of-band interface; memory, windows, turnstiles, QPs, queues and the Journal are
empty, and so is every Block that was not out of service; fabric time, FAULT_CAUSE, the clock locks and the fused SVNs are kept; TRAY_FAULT_N is driven low; and the internal pulse runs
unless RESET_N is low. With another CONFIRM value nothing is reset and the command ends with NOT_PERMITTED. -/
def Obligations.DeviceResetLosesEverythingButWhatIsKept : Prop :=
  (∀ s : State, s.dev.resetLow = false → s.dev.state ≠ .off → s.dev.state ≠ .standby →
    (∃ u, exec .resetNAssert s = .next (s.finished u) ∧ u.fld F.rstStateCause = 1 ∧ u.dev.resetLow = true ∧ u.dev.pulse = false ∧
      u.dev.state = .bringup ∧ u.mem = [] ∧ u.wins = [] ∧ u.ts = [] ∧ u.qps = [] ∧ u.queues = [] ∧ u.jnl = [] ∧
      (∀ b, (∀ e ∈ s.blks, e.1 = b → e.2.state ≠ .out) → u.blk b = {}) ∧
      u.clk = s.clk ∧ u.fuses = s.fuses ∧ u.out = .pin pinTrayFaultN false :: s.out ∧
      (∀ f, f ∈ [F.jnlRstatusFaultCause, F.clkpwrClkStatusMasterLock, F.clkpwrClkStatusRefclkOk, F.imgSvnFwFused, F.imgSvnImgFused] →
        u.fld f = s.fld f % 2 ^ f.width)) ∧
    (∀ org, s.dcsOpen org 0x10008 = true → ∃ u, exec (.deviceReset org 0xC940) s = .next (s.finished u) ∧
      u.fld F.rstStateCause = (match org with | .oob => 4 | .oobSecure => 4 | _ => 2) ∧ u.dev.pulse = true ∧ u.dev.state = .bringup ∧
      u.mem = [] ∧ u.wins = [] ∧ u.qps = [] ∧ u.clk = s.clk ∧ u.fuses = s.fuses)) ∧
  (∀ (s : State) (org : Origin) (c : Nat), s.dcsOpen org 0x10008 = true → s.dev.resetLow = false → c ≠ 0xC940 →
    ∃ u, exec (.deviceReset org c) s = .next (s.finished u) ∧ u.fld F.rstCmdStatusCode = Status.notPermitted.code ∧
      u.flag F.rstCmdStatusFail = true ∧ regsKept [.rstCmdStatus] s u ∧ u = { s with flds := u.flds })

/-- CLEAR_UCAL by an origin that reaches it marks the record of the running bank cleared and shows it. STAGE that passes its checks makes
the inactive bank B_STAGING and writes flash, from the area of the manager's transfers or from memory; VERIFY of a staging bank whose components pass the checks makes it
B_STAGED with their SVNs, and otherwise ends with IMG_REJECTED and shows what failed; ARM of a staged bank for a time at least 100 ms away makes it B_ARMED,
CANCEL of an armed one B_STAGED; ACTIVATION at the time of an armed bank in SERVICE with DRAIN begins the drain, and without it resets
the device; CONFIRM of a trial in SERVICE makes the running bank B_ACTIVE; ROLLBACK, and the end of the confirmation period, roll the
trial back. A command in the wrong state of its bank ends with FN_STATE. -/
def Obligations.FlashBankCommandsComplete : Prop :=
  (∀ (s : State) (org : Origin), s.dcsOpen org 0x40018 = true →
    ∃ t, exec (.clearUcal org) s = .next t ∧ s.fw.runBank ∈ t.settings.cleared ∧ t.settings.soft = s.settings.soft ∧ t.fld F.imgUcalState = 3 ∧
      t.fld F.imgCmdStatusCode = Status.ok.code ∧ t.out = .flashUcal :: s.out ∧ regsKept [.imgUcal, .imgCmdStatus] s t ∧ memKept s t) ∧
  (∀ (s : State) (org : Origin), s.dcsOpen org 0x40130 = true →
    s.stageCheck (s.fld F.imgStageArgKind) (s.fld F.imgStageArgOffset4k * 4096) (s.fld F.imgStageArgLen)
      (s.fld F.imgStageSrcFga == 0 || s.mgrBytes (s.fld F.imgStageSrcFga) (s.fld F.imgStageArgLen)) = none →
    ∃ t, exec (.stage org) s = .next t ∧ (t.fw.bank s.fw.other).state = .staging ∧ t.fld F.imgFwCmdStatusCode = Status.ok.code ∧
      (if s.fld F.imgStageSrcFga = 0 then
          Output.flashCopy s.fw.other (s.fld F.imgStageArgKind) (s.fld F.imgStageArgOffset4k * 4096) (s.fld F.imgStageArgLen)
        else
          Output.flashWrite s.fw.other (s.fld F.imgStageArgKind) (s.fld F.imgStageArgOffset4k * 4096)
            (s.hbmRead (fgaOff (s.fld F.imgStageSrcFga)) (s.fld F.imgStageArgLen))) ∈ t.out ∧
      regsKept [.imgFwCmdStatus] s t ∧ memKept s t) ∧
  (∀ (s : State) (org : Origin) (fw : List Byte) (img : ImgRead) (ucal : UcalRead), s.dcsOpen org 0x40130 = true →
    (s.fw.bank s.fw.other).state = .staging →
    ∃ t, exec (.verify org fw img ucal) s = .next t ∧ memKept s t ∧
      (match s.bankFault fw img ucal with
       | (none, fwSvn, imgSvn) => (t.fw.bank s.fw.other).state = .staged ∧ (t.fw.bank s.fw.other).fwSvn = fwSvn ∧
           (t.fw.bank s.fw.other).imgSvn = imgSvn ∧ t.fld F.imgFwCmdStatusCode = Status.ok.code ∧ regsKept [.imgFwCmdStatus] s t
       | (some (r, sect), _) => t.fw = s.fw ∧ t.fld F.imgStatusReason = r % 2 ^ F.imgStatusReason.width ∧
           t.fld F.imgStatusSection = sect % 2 ^ F.imgStatusSection.width ∧ t.fld F.imgFwCmdStatusCode = Status.imgRejected.code ∧
           regsKept [.imgFwCmdStatus, .imgStatus] s t)) ∧
  (∀ (s : State) (org : Origin) (secs ns : Nat), s.dcsOpen org 0x40130 = true → (s.fw.bank s.fw.other).state = .staged →
    secs = s.fld F.imgActSSec → ns = s.fld F.imgActNsNs → s.nowNs + 100000000 ≤ secs * 1000000000 + ns →
    ∃ t, exec (.fwArm org) s = .next t ∧ (t.fw.bank s.fw.other).state = .armed ∧ t.fw.armS = secs ∧ t.fw.armNs = ns ∧
      t.fw.armDrain = s.flag F.imgActNsDrain ∧ t.fld F.imgFwCmdStatusCode = Status.ok.code ∧ memKept s t) ∧
  (∀ (s : State) (org : Origin), s.dcsOpen org 0x40130 = true →
    ((s.fw.bank s.fw.other).state = .armed → ∃ t, exec (.cancel org) s = .next t ∧ (t.fw.bank s.fw.other).state = .staged ∧
      t.fld F.imgFwCmdStatusCode = Status.ok.code ∧ memKept s t) ∧
    ((s.fw.bank s.fw.other).state ≠ .armed → ∃ t, exec (.cancel org) s = .next t ∧ t.fw = s.fw ∧
      t.fld F.imgFwCmdStatusCode = Status.fnState.code ∧ memKept s t)) ∧
  (∀ (s : State) (org : Origin), s.dcsOpen org 0x40130 = true → s.fw.onTrial = true → s.dev.state = .service →
    ∃ t, exec (.confirm org) s = .next t ∧ (t.fw.bank s.fw.runBank).state = .active ∧ t.fw.tries = 0 ∧ t.fw.tried = none ∧
      t.fld F.imgFwCmdStatusCode = Status.ok.code ∧ regsKept [.imgFwCmdStatus, .imgSvn] s t ∧ memKept s t) ∧
  (∀ (s : State) (org : Origin), s.dcsOpen org 0x40130 = true → s.fw.onTrial = true →
    exec (.rollback org) s = .next (s.finished (s.rollBack 4))) ∧
  (∀ s : State, (s.fw.bank s.fw.other).state = .armed → s.fw.activate = false → s.fw.armS * 1000000000 + s.fw.armNs ≤ s.nowNs →
    s.dev.state = .service →
    (s.fw.armDrain = true → ∃ u, exec .activation s = .next (s.finished u) ∧ u.dev.state = .drain ∧ u.dev.drainCause = 5 ∧
      u.fw = { s.fw with activate := true }) ∧
    (s.fw.armDrain = false → exec .activation s = .next (s.finished
      (State.deviceReset { s with fw := { s.fw with activate := true } } 5)))) ∧
  (∀ s : State, s.fw.onTrial = true → s.fw.tried ≠ none → exec .confirmTimeout s = .next (s.finished (s.rollBack 3)))

/-- While the out-of-band interface is up: GET_VERSION starts the negotiation, GET_CAPABILITIES and NEGOTIATE_ALGORITHMS take it on;
after it GET_DIGESTS, GET_CERTIFICATE and CHALLENGE of slot 0, GET_MEASUREMENTS and KEY_EXCHANGE answer, KEY_EXCHANGE adding a session
while fewer than two exist; FINISH with a good proof establishes the session, HEARTBEAT and KEY_UPDATE of an established session answer,
END_SESSION ends it. In a session established with the owner: SET_MANAGER_PORT moves the manager role to a present port of the class,
FUSE_OWNER_KEY programs an unused slot, REVOKE_OWNER_KEY revokes one, SET_KEK sets the KEK; from any other session SET_MANAGER_PORT, REVOKE_OWNER_KEY and SET_KEK answer
NOT_PERMITTED and change nothing. SET_MANAGER_PORT to an absent port answers UNIT_ABSENT. While no slot is programmed, FUSE_OWNER_KEY in
any established session programs one. -/
def Obligations.TrustCommandsComplete : Prop :=
  (∀ s : State, s.oobUp = true → ∃ t, exec .getVersion s = .next t ∧ t.spdm.stage = 1 ∧ t.spdm.sessions = s.spdm.sessions ∧
    t.out = .spdm 0x84 0 [0x12#8, 0x13#8] :: s.out ∧ memKept s t) ∧
  (∀ s : State, s.oobUp = true → 1 ≤ s.spdm.stage →
    ∃ t, exec .getCapabilities s = .next t ∧ t.spdm.stage = max 2 s.spdm.stage ∧ t.out = .spdm 0xE1 0 [] :: s.out ∧ memKept s t) ∧
  (∀ s : State, s.oobUp = true → 2 ≤ s.spdm.stage →
    ∃ t, exec .negotiateAlgorithms s = .next t ∧ t.spdm.stage = 3 ∧ t.out = .spdm 0xE3 0 [] :: s.out ∧ memKept s t) ∧
  (∀ s : State, s.oobUp = true → 3 ≤ s.spdm.stage →
    (∃ t d, exec .getDigests s = .next t ∧ t.out = .spdm 0x81 0 d :: s.out ∧ t.spdm = s.spdm ∧ t.flds = s.flds) ∧
    (∃ t d, exec (.getCertificate 0) s = .next t ∧ t.out = .spdm 0x82 0 d :: s.out ∧ t.spdm = s.spdm ∧ t.flds = s.flds) ∧
    (∃ t d, exec (.challenge 0) s = .next t ∧ t.out = .spdm 0x83 0 d :: s.out ∧ t.spdm = s.spdm ∧ t.flds = s.flds) ∧
    (∀ i, 1 ≤ i → i ≤ 7 → ∃ t, exec (.getMeasurements i) s = .next t ∧ t.out = .spdm 0xE0 0 (AMap.look [] s.spdm.meas i) :: s.out ∧
      t.spdm = s.spdm ∧ t.flds = s.flds) ∧
    (∀ id, s.spdm.sessions.length < 2 → s.spdm.sessions.any (fun x => x.id == id) = false →
      ∃ t d, exec (.keyExchange id 0) s = .next t ∧ t.out = .spdm 0xE4 0 d :: s.out ∧
        t.spdm.sessions = s.spdm.sessions ++ [{ id := id }] ∧ t.flds = s.flds) ∧
    (∀ id, 2 ≤ s.spdm.sessions.length → s.spdm.sessions.any (fun x => x.id == id) = false →
      ∃ t, exec (.keyExchange id 0) s = .next t ∧ t.out = .spdm 0xE4 spdmSessionLimit [] :: s.out ∧ t.spdm = s.spdm)) ∧
  (∀ (s : State) (id : Nat) (owner : Option Nat), s.oobUp = true → s.spdm.sessions = [{ id := id }] →
    ∃ t, exec (.finish id true owner) s = .next t ∧ t.spdm.sessions = [{ id := id, up := true, owner := owner }] ∧
      t.out = .spdm 0xE5 0 [] :: s.out) ∧
  (∀ (s : State) (id : Nat), s.oobUp = true → s.sessionUp id ≠ none →
    (∃ t, exec (.heartbeat id) s = .next t ∧ t.out = .spdm 0xE8 0 [] :: s.out ∧ t.spdm = s.spdm) ∧
    (∃ t, exec (.keyUpdate id) s = .next t ∧ t.out = .spdm 0xE9 0 [] :: s.out ∧ t.spdm = s.spdm) ∧
    (∃ t, exec (.endSession id) s = .next t ∧ t.sessionUp id = none ∧ t.out = .spdm 0xEC 0 [] :: s.out)) ∧
  (∀ (s : State) (sess : Option Nat) (p : Nat), s.oobUp = true → s.byOwner sess = true → p < 4 → s.portPresent p = true →
    s.flag F.hpPortCfgClassImg p = true → s.flag F.hpPortCfgClassStrap p = true →
    ∃ u, exec (.setManagerPort sess p) s = .next (s.finished u) ∧ (∀ n, n < 4 → u.flag F.hpPortCfgMgrActive n = (n == p)) ∧
      u.manager = some (64 * p) ∧ u.out = .oob [0#8] :: s.out ∧ regsKept [.hpPortCfg] s u ∧ memKept s u) ∧
  (∀ (s : State) (sess : Option Nat) (k : Nat), s.oobUp = true → s.byOwner sess = true → s.fw.owner[k]? = some {} →
    ∀ h, ∃ t, exec (.fuseOwnerKey sess { slot := k, hash := h }) s = .next t ∧ t.fw.owner = s.fw.owner.set k { set := true, hash := h } ∧
      .fuseKey k false ∈ t.out ∧ memKept s t) ∧
  (∀ (s : State) (sess : Option Nat) (p : Nat), s.oobUp = true → s.byOwner sess = true → p < 4 → s.portPresent p = false →
    ∃ u, exec (.setManagerPort sess p) s = .next (s.finished u) ∧ u = s.oobAnswer .unitAbsent) ∧
  (∀ (s : State) (sess : Option Nat) (k : Nat), s.oobUp = true → s.inSession sess = true → (s.fw.owner.all fun o => !o.set) = true →
    s.fw.owner[k]? = some {} →
    ∀ h, ∃ t, exec (.fuseOwnerKey sess { slot := k, hash := h }) s = .next t ∧ t.fw.owner = s.fw.owner.set k { set := true, hash := h } ∧
      .fuseKey k false ∈ t.out ∧ memKept s t) ∧
  (∀ (s : State) (sess : Option Nat) (k : Nat) (o : KeySlot), s.oobUp = true → s.byOwner sess = true → s.fw.owner[k]? = some o →
    o.revoked = false →
    ∃ t, exec (.revokeOwnerKey sess k) s = .next t ∧ t.fw.owner = s.fw.owner.set k { o with revoked := true } ∧ .fuseKey k true ∈ t.out ∧
      memKept s t) ∧
  (∀ (s : State) (sess : Option Nat), s.oobUp = true → s.byOwner sess = true →
    ∀ k, ∃ t, exec (.setKek { sess := sess, key := k }) s = .next t ∧ t.fw = { s.fw with kek := some k } ∧ memKept s t) ∧
  (∀ (s : State) (sess : Option Nat) (p : Nat), s.oobUp = true → s.byOwner sess = false →
    (∃ u, exec (.setManagerPort sess p) s = .next (s.finished u) ∧ u = s.oobAnswer .notPermitted) ∧
    (∃ t, exec (.revokeOwnerKey sess p) s = .next t ∧ t.fw = s.fw ∧ t.flds = s.flds) ∧
    (∀ k, ∃ t, exec (.setKek { sess := sess, key := k }) s = .next t ∧ t.fw = s.fw ∧ t.flds = s.flds))

/-- While the out-of-band interface is up, PLDM_REQUEST of the package power or of a state sensor answers its value, and STAGE through it
that passes the checks makes the inactive bank B_STAGING; I3C_DYNAMIC_ADDRESS assigns the address once; MCTP_CONTROL sets and reads the
endpoint ID. UART_FRAME whose start bit holds and after which the line stays high, with HOST set and room in the FIFO, adds its byte and its
framing error; UART_TX by an
origin that reaches it with HOST set and room queues its byte. BOUNDARY_SCAN: TRST_N low puts the port in Test-Logic-Reset with BYPASS, a
rising edge in a state that shifts nothing moves the port along the diagram of IEEE 1149.1, and one in Shift-DR under BYPASS answers the
bypass bit. -/
def Obligations.ManagementCommandsComplete : Prop :=
  (∀ s : State, s.oobUp = true →
    (∃ u, exec (.pldmRequest (.numeric 40)) s = .next (s.finished u) ∧ u.out = .oob (0#8 :: leBytes (s.fld F.clkpwrGovStatusPkgW) 2) :: s.out ∧
      u = { s with out := u.out }) ∧
    (∀ n, n < 5 → ∃ u, exec (.pldmRequest (.stateSensor n)) s = .next (s.finished u) ∧
      u.out = .oob [0#8, BitVec.ofNat 8 (s.stateSensors.getD n 0)] :: s.out ∧ u = { s with out := u.out }) ∧
    (∀ kind off data, s.stageCheck kind off data.length true = none →
      ∃ u, exec (.pldmRequest (.stage kind off data)) s = .next (s.finished u) ∧ (u.fw.bank s.fw.other).state = .staging ∧
        .flashWrite s.fw.other kind off data ∈ u.out ∧ u.flds = s.flds ∧ memKept s u)) ∧
  (∀ (s : State) (addr : Nat), s.oobUp = true → s.flag F.mgtI3cStatusAssigned = false →
    ∃ t, exec (.i3cDynamicAddress addr) s = .next t ∧ t.flag F.mgtI3cStatusAssigned = true ∧
      t.fld F.mgtI3cStatusDynAddr = addr % 2 ^ F.mgtI3cStatusDynAddr.width ∧ regsKept [.mgtI3cStatus] s t ∧ memKept s t) ∧
  (∀ (s : State) (addr : Nat), s.oobUp = true → s.flag F.mgtI3cStatusAssigned = true →
    ∃ t, exec (.i3cDynamicAddress addr) s = .next t ∧ t.flds = s.flds ∧ memKept s t) ∧
  (∀ (s : State) (eid : Nat), s.oobUp = true → 0 < eid → eid < 0xFF →
    (∃ t, exec (.mctpControl (.setEid eid)) s = .next t ∧ t.fld F.mgtI3cStatusEid = eid ∧ regsKept [.mgtI3cStatus] s t ∧
      t.out = .oob [0#8, BitVec.ofNat 8 eid] :: s.out) ∧
    (∃ t, exec (.mctpControl .getEid) s = .next t ∧ t.flds = s.flds ∧
      t.out = .oob [0#8, BitVec.ofNat 8 (s.fld F.mgtI3cStatusEid)] :: s.out)) ∧
  (∀ (s : State) (ys xs : List Bool), s.mgtRuns = true → uartHunt s.uart.wait ys = xs → xs ≠ [] → uartMajority xs 7 = false →
    (∃ i, i < 154 ∧ xs.getD i true = true) → (xs.drop 154).all id = true → s.flag F.mgtUartCfgHost = true → s.uart.rx.length < 64 →
    ∃ t, exec (.uartFrame ys) s = .next t ∧ t.uart = { s.uart with
        rx := s.uart.rx ++ [(uartByte xs, !uartMajority xs 151)], wait := !uartMajority xs 151 && (xs.drop 154).isEmpty } ∧
      regsKept [.mgtUartStatus] s t ∧ memKept s t) ∧
  (∀ (s : State) (org : Origin) (b : Nat), s.dcsOpen org 0xC000018 = true → s.flag F.mgtUartCfgHost = true → s.uart.tx.length < 64 →
    ∃ t, exec (.uartTx org b) s = .next t ∧ t.uart = { s.uart with tx := s.uart.tx ++ [b % 256] } ∧ t.flds = s.flds ∧ memKept s t) ∧
  (∀ s : State, ∃ t, exec (.boundaryScan (.trst true)) s = .next t ∧ t.tap.st = .reset ∧ t.tap.instr = .bypass ∧ t.tap.low = true ∧
    t.flds = s.flds ∧ t.out = s.out ∧ memKept s t) ∧
  (∀ (s : State) (tms tdi : Bool), s.tap.low = false → s.tap.st ∈ [TapState.reset, .idle, .selDr, .ex1Dr, .pauDr, .ex2Dr, .selIr, .ex1Ir, .pauIr, .ex2Ir] →
    ∃ t, exec (.boundaryScan (.clock tms tdi)) s = .next t ∧ t.tap.st = tapNext s.tap.st tms ∧ t.out = s.out ∧ t.flds = s.flds ∧
      t.tap.dr = s.tap.dr ∧ t.tap.driven = s.tap.driven) ∧
  (∀ (s : State) (tms tdi : Bool), s.tap.low = false → s.tap.st = .shDr → s.tap.instr = .bypass →
    ∃ t, exec (.boundaryScan (.clock tms tdi)) s = .next t ∧ t.out = .tdo s.tap.byp :: s.out ∧ t.tap.byp = tdi ∧
      t.tap.st = tapNext .shDr tms ∧ t.flds = s.flds)

/-- For every command c at the front of the queue, a step is exec of c on the state with the queue's rest. With an empty queue (the
model's own idle step, log entries 4 and 28) and no pipeline in recovery, a step answers a next state in which fabric time, with its
fraction in units of 2^-32 ns, has advanced by 2^32 plus the signed rate correction, modulo 2^48 s; a byte queued in the UART has left it;
and memory, windows, QPs, queues and the device's state are as before. With no Ethernet port in use and no Valir link that is live or
exchanging parameters, that byte is sent, with nothing else sent but messages of event counters that run over. -/
def Obligations.StepRunsFrontCommand : Prop :=
  (∀ (s : State) (c : Instr) (rest : List Instr), s.pending = c :: rest → step s = exec c { s with pending := rest }) ∧
  (∀ s : State, s.pending = [] → (∀ k, k < 4 → (s.pipe k).recovering = 0) →
    ∃ t, step s = .next t ∧
      ((t.nowNs : Int) * 2 ^ 32 + t.clk.frac =
        ((s.nowNs : Int) * 2 ^ 32 + s.clk.frac + 2 ^ 32 + toSigned 32 (s.fld F.clkpwrFtRateRate)) % (2 ^ 48 * 1000000000 * 2 ^ 32)) ∧
      t.uart = { s.uart with tx := s.uart.tx.tail } ∧ memKept s t ∧ t.wins = s.wins ∧ t.qps = s.qps ∧ t.queues = s.queues ∧
      t.dev = s.dev ∧ t.pending = []) ∧
  (∀ s : State, s.pending = [] → (∀ k, k < 4 → (s.pipe k).recovering = 0) → s.en = [] →
    (∀ l, l < 16 → (s.vlink l).state ≠ .param ∧ s.vlLive l = false) →
    ∃ t, step s = .next t ∧
      (∃ es : List Output, (∀ e ∈ es, ∃ fn vec, e = .msix fn vec) ∧
        t.out = (s.uart.tx.take 1).map (fun b => .uart (uartLine b)) ++ (es ++ s.out)))

/-- For every state whose memory is listed in its canonical form (addresses strictly rising, no byte that an unlisted address reads as),
whatever command stands at the front of the queue, and with an empty queue as well, a step answers a next state: it neither faults nor
refuses. In it the memory is again in canonical form, the fuses are as before, and the queue has lost its front command and nothing else. -/
def Obligations.EveryStepAnswersAndKeepsMemoryCanonical : Prop :=
  ∀ s : State, s.Inv → ∃ t, step s = .next t ∧ t.Inv ∧ t.fuses = s.fuses ∧ t.pending = s.pending.tail

/-- At reset the invariant of the memory holds, no command waits, the device is off, fabric time is 0, every byte of HBM reads 0 (the
model's choice, log entry 2), every window index is free with generation 1, every turnstile has value 0 and owner field 0, and there is
no QP, queue, Block content, collective or Journal record. -/
def Obligations.ResetState : Prop :=
  State.reset.Inv ∧ State.reset.pending = [] ∧ State.reset.dev.state = .off ∧ State.reset.nowNs = 0 ∧
    (∀ a, readByte State.reset.mem a = 0#8) ∧ (∀ i, (State.reset.win i).state = .free ∧ (State.reset.win i).gen = 1) ∧
    (∀ n, State.reset.turn n = { value := 0, owner := 0, waiters := [] }) ∧ State.reset.qps = [] ∧ State.reset.queues = [] ∧
    State.reset.blks = [] ∧ State.reset.colls = [] ∧ State.reset.jnl = []

/-- In every state, a read of ID.CAP_UNITS (0x8) and of ID.CAP_SIZES (0x10) gives, in the variant-dependent fields, the values of Table
0.4 for the variant that the fuses name, and the functions per port times the ports present are 256, 256 and 128; the reads change
nothing. -/
def Obligations.CapabilitiesOfTheVariant : Prop :=
  ∀ s : State,
    let u := (s.dcsRead 0x8).1
    let z := (s.dcsRead 0x10).1
    (bits u 7 0, bits u 15 8, bits u 19 16, bits u 23 20, bits u 24 24) =
        (match s.fuses.variant with
         | .cx940 => (0xFF, 0xFF, 0xF, 0xF, 1) | .cx920 => (0x0F, 0x0F, 0xF, 0xF, 1) | .cx900 => (0x00, 0x03, 0x3, 0x3, 0)) ∧
      (bits z 29 24, bits z 7 0) = (match s.fuses.variant with | .cx940 => (32, 20) | .cx920 => (32, 20) | .cx900 => (16, 0)) ∧
      bits z 46 40 * ((List.range 4).filter fun n => bit (bits u 23 20) n).length =
        (match s.fuses.variant with | .cx940 => 256 | .cx920 => 256 | .cx900 => 128)

/-- Whatever the command and the state, when exec answers a next state, a read of ID.CAP_UNITS and a read of ID.CAP_SIZES give in it what
they gave before: resets of the device and of functions, repairs and the activation of an image leave them unchanged. The model takes the
fuses they are loaded from as fixed (log entry 5), so a cold reset leaves them unchanged too. -/
def Obligations.CapabilitiesNeverChange : Prop :=
  ∀ (c : Instr) (s t : State), exec c s = .next t →
    (t.dcsRead 0x8).1 = (s.dcsRead 0x8).1 ∧ (t.dcsRead 0x10).1 = (s.dcsRead 0x10).1

/-- An access that is not naturally aligned and 64 bits wide, to the device control space by an origin that reaches it or to BAR0 of a
function that serves it (outside the MSI-X table and the Pending Bit Array, which take accesses of their own sizes): a read is answered
with every byte 0xFF, a host's read being counted for the bandwidth monitors first, and changes nothing else; a write has no effect. -/
def Obligations.IrregularAccessesReadOnesAndWriteNothing : Prop :=
  (∀ (s : State) (org : Origin) (off len tag : Nat), s.dcsOpen org off = true → regular off len = false → (∀ fn, org ≠ .host fn) →
    exec (.irregularAccess org .dcs off len tag none) s = .next (s.finished (s.answerRead org tag (List.replicate len 0xFF#8)))) ∧
  (∀ (s : State) (fn off len tag : Nat), (s.bwRx fn 0).dcsOpen (.host fn) off = true → regular off len = false →
    exec (.irregularAccess (.host fn) .dcs off len tag none) s =
      .next (s.finished ((s.bwRx fn 0).emit (.pcie fn tag (.success (List.replicate len 0xFF#8)))))) ∧
  (∀ (s : State) (fn off len tag : Nat), (s.bwRx fn 0).barAnswer fn = .served → regular off len = false → msixAccess off len = false →
    exec (.irregularAccess (.host fn) (.bar0 fn) off len tag none) s =
      .next (s.finished ((s.bwRx fn 0).emit (.pcie fn tag (.success (List.replicate len 0xFF#8)))))) ∧
  (∀ (s : State) (org : Origin) (off len tag : Nat) (bs : List Byte), regular off bs.length = false → (∀ fn, org ≠ .host fn) →
    exec (.irregularAccess org .dcs off len tag (some bs)) s = .next (s.finished s)) ∧
  (∀ (s : State) (fn off len tag : Nat) (bs : List Byte), regular off bs.length = false →
    exec (.irregularAccess (.host fn) .dcs off len tag (some bs)) s = .next (s.finished (s.bwRx fn bs.length))) ∧
  (∀ (s : State) (fn off len tag : Nat) (bs : List Byte), regular off bs.length = false → msixAccess off bs.length = false →
    exec (.irregularAccess (.host fn) (.bar0 fn) off len tag (some bs)) s = .next (s.finished (s.bwRx fn bs.length)))

/-- After RESET_N_ASSERT of a started device, DEVICE_RESET with its CONFIRM value by an origin that reaches RST, DRAIN_RESET_TIMER at the
end of a drain, POR_N_ASSERT and VAON_LOSS of a powered device, and RAIL_OUT_OF_TOLERANCE of a started one, every turnstile of the node
has value 0, owner field 0 and no waiter. -/
def Obligations.ResetsClearEveryTurnstile : Prop :=
  (∀ s : State, s.dev.state ≠ .off → s.dev.state ≠ .standby →
    (s.dev.resetLow = false → ∃ t : State, exec .resetNAssert s = .next t ∧ ∀ n, t.turn n = { value := 0, owner := 0, waiters := [] }) ∧
    (∀ org, s.dcsOpen org 0x10008 = true → s.dev.resetLow = false →
      ∃ t : State, exec (.deviceReset org 0xC940) s = .next t ∧ ∀ n, t.turn n = { value := 0, owner := 0, waiters := [] }) ∧
    (s.dev.state = .drain → s.dev.drainSent ≠ 0 →
      ∃ t : State, exec .drainResetTimer s = .next t ∧ ∀ n, t.turn n = { value := 0, owner := 0, waiters := [] }) ∧
    (∃ t : State, exec .railOutOfTolerance s = .next t ∧ ∀ n, t.turn n = { value := 0, owner := 0, waiters := [] })) ∧
  (∀ s : State, s.dev.state ≠ .off →
    (∃ t : State, exec .porNAssert s = .next t ∧ ∀ n, t.turn n = { value := 0, owner := 0, waiters := [] }) ∧
    (∃ t : State, exec .vaonLoss s = .next t ∧ ∀ n, t.turn n = { value := 0, owner := 0, waiters := [] }))

/-- For a present H domain that is on, and no other domain request in progress, POWER_DOWN by an origin that reaches the register is
refused with NOT_PERMITTED while a run of allocated pages has a page on the stack, or while a held window of space 0 maps an offset on
it: the domain stays DOM_ON, and beside the request and status registers nothing changes. -/
def Obligations.StackInUseStaysPowered : Prop :=
  ∀ (s : State) (org : Origin) (k : Nat), s.dcsOpen org 0x20010 = true → s.domBusy = false → k < 8 → s.domPresent (8 + k) = true →
    s.dom (8 + k) = .on →
    ((∃ e, e ∈ s.ten.pages ∧ ∃ p, e.1 ≤ p ∧ p < e.1 + e.2.1 ∧ pageStack p = k) ∨
      (∃ e, e ∈ s.wins ∧ e.2.held = true ∧ fgaSpace e.2.base = 0 ∧
        ∃ a, fgaOff e.2.base ≤ a ∧ a < fgaOff e.2.base + e.2.len ∧ stackOf a = k)) →
    ∃ u, exec (.powerDown { org := org } (8 + k)) s = .next (s.finished u) ∧ u.dom (8 + k) = .on ∧
      u.fld F.clkpwrDomReqStatusCode = Status.notPermitted.code ∧ u.flag F.clkpwrDomReqStatusFail = true ∧
      regsKept [.clkpwrDomReq, .clkpwrDomReqStatus] s u ∧ u = { s with flds := u.flds }

/-- When a command's own effect leaves no ended operation untold, no QP, no collective, no table walk, no access waiting for a register, no
packet waiting at or for an injection port, the same accesses to HBM held as before, no exception transmit ring enabled and no trial that meets FAULT, and links are in E_OFF and V_OFF or the
device's state lets them train, what the command ends with is that effect: only the messages of the out-of-band interface about the state
of the device follow, none where that interface is down, and the memory is listed in its canonical form. -/
def Obligations.QuietCommandsEndWithTheirOwnEffect : Prop :=
  ∀ s u : State, u.dones = [] → u.qps = [] → u.colls = [] → u.walks = [] → u.dcsIn = [] → u.vl.inj = [] → u.vl.kept = [] →
    s.hbmHolds = u.hbmHolds → u.flag F.enExtCtrlEnable = false →
    (u.dev.state = .fault → u.fw.onTrial = false) →
    (u.dev.state = .equalShare ∨ u.dev.state = .service ∨ u.dev.state = .drain ∨ (u.vl.links = [] ∧ u.en = [])) →
    ∃ es : List Output, s.finished u =
        { u with out := es ++ u.out, pending := s.pending, fuses := s.fuses, mem := Memory.canon u.mem } ∧
      (∀ e ∈ es, ∃ b, e = .oob b) ∧ (u.oobUp = false → es = []) ∧ ∀ a, readByte (Memory.canon u.mem) a = readByte u.mem a

/-- Writing a list of bytes from an address leaves them to be read from there, in order, and every byte outside that range reads as
before; a memory in canonical form stays in it, and two memories in canonical form that read alike at every address are equal. -/
def Obligations.MemoryWritesReadBack : Prop :=
  (∀ (m : List Host.Cell) (a : Nat) (bs : List Byte),
    readBytes (writeBytes m a bs) a bs.length = bs ∧
      (∀ c, c < a ∨ a + bs.length ≤ c → readByte (writeBytes m a bs) c = readByte m c) ∧
      (Memory.wf m = true → Memory.wf (writeBytes m a bs) = true)) ∧
  (∀ m n : List Host.Cell, Memory.wf m = true → Memory.wf n = true → (∀ a, readByte m a = readByte n a) → m = n)
end

