-- ==== Sys2Proof/Laws/Bytes.lean ====
section
/-! SUPPORT. Byte order: the bytes of a number and the number of bytes are inverse to each other; the check sequence of a frame has 32
bits. -/

namespace Sys2Proof
namespace Machine

@[simp] theorem leBytes_length (x n : Nat) : (leBytes x n).length = n := by
  induction n generalizing x with
  | zero => rfl
  | succ n ih => simp [leBytes, ih]

/-- The number that the n bytes of x stand for is x cut to n bytes. -/
@[simp] theorem leNat_leBytes (x n : Nat) : leNat (leBytes x n) = x % 256 ^ n := by
  induction n generalizing x with
  | zero => simp [leBytes, leNat, Nat.mod_one]
  | succ n ih =>
    simp only [leBytes, leNat, ih, BitVec.toNat_ofNat]
    rw [show 256 ^ (n + 1) = 256 * 256 ^ n by rw [Nat.pow_succ'], Nat.mod_mul (a := 256)]

/-- The bytes of the number that bytes stand for are those bytes. -/
@[simp] theorem leBytes_leNat (bs : List Byte) : leBytes (leNat bs) bs.length = bs := by
  induction bs with
  | nil => rfl
  | cons b bs ih =>
    have hb := b.isLt
    simp only [List.length_cons, leBytes, leNat]
    congr 1
    · apply BitVec.eq_of_toNat_eq; simp; omega
    · rw [show (b.toNat + 256 * leNat bs) / 256 = leNat bs by omega]; exact ih

/-- A number put at the end of a list of bytes is read back there. -/
theorem leAt_append (bs : List Byte) (x n : Nat) : leAt (bs ++ leBytes x n) bs.length n = x % 256 ^ n := by
  have h : List.take n (leBytes x n) = leBytes x n := List.take_of_length_le (by simp)
  simp [leAt, h]

theorem crc32Bit_lt {c : Nat} (h : c < 2 ^ 32) : crc32Bit c < 2 ^ 32 := by
  unfold crc32Bit
  have h1 : c / 2 < 2 ^ 32 := by omega
  split
  · exact Nat.xor_lt_two_pow h1 (by decide)
  · omega

theorem foldl_lt {α : Type} (f : Nat → α → Nat) (n : Nat) (h : ∀ c a, c < n → f c a < n) (l : List α) (c : Nat) (hc : c < n) :
    l.foldl f c < n := by
  induction l generalizing c with
  | nil => exact hc
  | cons a l ih => exact ih _ (h _ _ hc)

/-- The check sequence of a frame has 32 bits. -/
theorem fcsOf_lt (bs : List Byte) : fcsOf bs < 2 ^ 32 := by
  refine Nat.xor_lt_two_pow (foldl_lt _ _ (fun c b hc => ?_) _ _ (by decide)) (by decide)
  refine foldl_lt _ _ (fun c _ hc => crc32Bit_lt hc) _ _ (Nat.xor_lt_two_pow hc ?_)
  have := b.isLt; omega

end Machine
end Sys2Proof
end

