-- ==== Sys2Proof/Laws/Maps.lean ====
section
/-! SUPPORT. What reading a sorted map gives after a write, and that writes keep the keys in rising order. -/

namespace Sys2Proof

variable {α : Type}

@[simp] theorem AMap.find_put_self (m : AMap α) (i : Nat) (x : α) : (m.put i x).find i = some x := by
  induction m with
  | nil => simp [put, find]
  | cons e m ih =>
    obtain ⟨k, v⟩ := e
    by_cases h1 : i < k
    · simp [put, find, h1]
    · by_cases h2 : i = k
      · simp [put, find, h2]
      · simp [put, find, h1, h2, ih]

theorem AMap.find_put_ne (m : AMap α) {i j : Nat} (x : α) (h : j ≠ i) : (m.put i x).find j = m.find j := by
  induction m with
  | nil => simp [put, find, h]
  | cons e m ih =>
    obtain ⟨k, v⟩ := e
    by_cases h1 : i < k
    · simp [put, find, h1, h]
    · by_cases h2 : i = k
      · subst h2; simp [put, find, h]
      · simp only [put, h1, h2, if_false, find, ih]

@[simp] theorem AMap.find_drop_self (m : AMap α) (i : Nat) : (m.drop i).find i = none := by
  induction m with
  | nil => rfl
  | cons e m ih =>
    obtain ⟨k, v⟩ := e
    by_cases h : i = k
    · simpa [drop, h] using h ▸ ih
    · simp [drop, find, h, ih]

theorem AMap.find_drop_ne (m : AMap α) {i j : Nat} (h : j ≠ i) : (m.drop i).find j = m.find j := by
  induction m with
  | nil => rfl
  | cons e m ih =>
    obtain ⟨k, v⟩ := e
    by_cases h1 : i = k
    · subst h1; simp [drop, find, h, ih]
    · simp only [drop, h1, if_false, find, ih]

variable [DecidableEq α]

@[simp] theorem AMap.look_save_self (d : α) (m : AMap α) (i : Nat) (x : α) : AMap.look d (AMap.save d m i x) i = x := by
  unfold look save; split <;> simp_all

theorem AMap.find_save_ne (d : α) (m : AMap α) {i j : Nat} (x : α) (h : j ≠ i) : (AMap.save d m i x).find j = m.find j := by
  unfold save; split
  · exact find_drop_ne m h
  · exact find_put_ne m x h

theorem AMap.look_save_ne (d e : α) (m : AMap α) {i j : Nat} (x : α) (h : j ≠ i) :
    AMap.look e (AMap.save d m i x) j = AMap.look e m j := by
  simp [look, find_save_ne d m x h]

theorem AMap.look_save (d : α) (m : AMap α) (i j : Nat) (x : α) :
    AMap.look d (AMap.save d m i x) j = if j = i then x else AMap.look d m j := by
  split
  · next h => subst h; simp
  · next h => exact look_save_ne d d m x h

/-! ### Rising keys -/

/-- Every key of the map is above a bound. -/
def AMap.above (b : Nat) (m : AMap α) : Prop := ∀ e ∈ m, b < e.1

omit [DecidableEq α] in
theorem AMap.sorted_cons (k : Nat) (v : α) (m : AMap α) : AMap.sorted ((k, v) :: m) = true ↔ AMap.above k m ∧ AMap.sorted m = true := by
  induction m generalizing k v with
  | nil => simp [sorted, above]
  | cons e m ih =>
    obtain ⟨k', v'⟩ := e
    simp only [sorted, Bool.and_eq_true, decide_eq_true_eq, ih, above, List.mem_cons, forall_eq_or_imp]
    constructor
    · rintro ⟨h, h1, h2⟩; exact ⟨⟨h, fun e he => lt_trans h (h1 e he)⟩, h1, h2⟩
    · rintro ⟨⟨h, _⟩, h1, h2⟩; exact ⟨h, h1, h2⟩

omit [DecidableEq α] in
theorem AMap.above_put {b i : Nat} {m : AMap α} (x : α) (hb : b < i) (h : AMap.above b m) : AMap.above b (m.put i x) := by
  induction m with
  | nil => simp [put, above, hb]
  | cons e m ih =>
    obtain ⟨k, v⟩ := e
    simp only [above, List.mem_cons, forall_eq_or_imp] at h
    have ht : above b (AMap.put m i x) := ih h.2
    unfold put
    split
    · simp only [above, List.mem_cons, forall_eq_or_imp]; exact ⟨hb, h.1, h.2⟩
    · split
      · simp only [above, List.mem_cons, forall_eq_or_imp]; exact ⟨hb, h.2⟩
      · simp only [above, List.mem_cons, forall_eq_or_imp]; exact ⟨h.1, ht⟩

omit [DecidableEq α] in
theorem AMap.above_drop {b i : Nat} {m : AMap α} (h : AMap.above b m) : AMap.above b (m.drop i) := by
  induction m with
  | nil => exact h
  | cons e m ih =>
    obtain ⟨k, v⟩ := e
    simp only [above, List.mem_cons, forall_eq_or_imp] at h
    unfold drop
    split
    · exact ih h.2
    · simp only [above, List.mem_cons, forall_eq_or_imp]; exact ⟨h.1, ih h.2⟩

omit [DecidableEq α] in
theorem AMap.above_mono {a b : Nat} {m : AMap α} (h : b ≤ a) (hm : AMap.above a m) : AMap.above b m :=
  fun e he => lt_of_le_of_lt h (hm e he)

omit [DecidableEq α] in
theorem AMap.sorted_put {m : AMap α} (h : AMap.sorted m = true) (i : Nat) (x : α) : AMap.sorted (m.put i x) = true := by
  induction m with
  | nil => rfl
  | cons e m ih =>
    obtain ⟨k, v⟩ := e
    obtain ⟨ha, hs⟩ := (sorted_cons k v m).1 h
    unfold put
    split
    · next hlt =>
      refine (sorted_cons _ _ _).2 ⟨?_, h⟩
      simp only [above, List.mem_cons, forall_eq_or_imp]; exact ⟨hlt, above_mono hlt.le ha⟩
    · split
      · next he => subst he; exact (sorted_cons _ _ _).2 ⟨ha, hs⟩
      · next h1 h2 => exact (sorted_cons _ _ _).2 ⟨above_put x (by omega) ha, ih hs⟩

omit [DecidableEq α] in
theorem AMap.sorted_drop {m : AMap α} (h : AMap.sorted m = true) (i : Nat) : AMap.sorted (m.drop i) = true := by
  induction m with
  | nil => rfl
  | cons e m ih =>
    obtain ⟨k, v⟩ := e
    obtain ⟨ha, hs⟩ := (sorted_cons k v m).1 h
    unfold drop
    split
    · exact ih hs
    · exact (sorted_cons _ _ _).2 ⟨above_drop ha, ih hs⟩

theorem AMap.sorted_save (d : α) {m : AMap α} (h : AMap.sorted m = true) (i : Nat) (x : α) : AMap.sorted (AMap.save d m i x) = true := by
  unfold save; split
  · exact sorted_drop h i
  · exact sorted_put h i x

end Sys2Proof
end

