-- ==== Sys2Proof/Laws/Fields.lean ====
section
/-! SUPPORT. Register fields: what a field reads after a field is set, and which other parts of the state that leaves alone. -/

namespace Sys2Proof
namespace Machine

theorem Reg.ctorIdx_lt (r : Reg) : r.ctorIdx < 512 := by cases r <;> decide

theorem Reg.ctorIdx_inj {r r' : Reg} (h : r.ctorIdx = r'.ctorIdx) : r = r' := by
  rw [← Reg.ofNat_ctorIdx r, h, Reg.ofNat_ctorIdx]

theorem fld_eq_look (s : State) (f : Fld) (o e : Nat) : s.fld f o e = AMap.look (f.reset e) s.flds (f.key o e) := rfl

@[simp] theorem fld_setFld_self (s : State) (f : Fld) (v o e : Nat) : (s.setFld f v o e).fld f o e = v % 2 ^ f.width := by
  simp [fld_eq_look, State.setFld]

/-- Elements of fields that lie in different registers, or at different bits of one. -/
def Fld.apart (f : Fld) (e : Nat) (g : Fld) (e' : Nat) : Bool :=
  (f.reg != g.reg || f.pos e != g.pos e') && decide (f.pos e < 64) && decide (g.pos e' < 64)

theorem Fld.key_ne {f g : Fld} {e e' : Nat} (h : f.apart e g e' = true) (o o' : Nat) : g.key o' e' ≠ f.key o e := by
  simp only [Fld.apart, Bool.and_eq_true, Bool.or_eq_true, bne_iff_ne, decide_eq_true_eq, ne_eq] at h
  obtain ⟨⟨h, h1⟩, h2⟩ := h
  have hf := f.reg.ctorIdx_lt
  have hg := g.reg.ctorIdx_lt
  intro hk
  simp only [Fld.key] at hk
  have hp : g.pos e' = f.pos e := by omega
  have hc : g.reg.ctorIdx = f.reg.ctorIdx := by omega
  rcases h with h | h
  · exact h (Reg.ctorIdx_inj hc).symm
  · exact h hp.symm

theorem Fld.key_ne_obj (f : Fld) (e e' : Nat) {o o' : Nat} (h : o' ≠ o) (h1 : f.pos e < 64) (h2 : f.pos e' < 64) : f.key o' e' ≠ f.key o e := by
  have := f.reg.ctorIdx_lt
  simp only [Fld.key]; omega

/-- A field set leaves every field of another register, or at other bits, alone. -/
theorem fld_setFld_ne {f g : Fld} {e e' : Nat} (h : f.apart e g e' = true) (s : State) (v o o' : Nat) :
    (s.setFld f v o e).fld g o' e' = s.fld g o' e' := by
  simp only [fld_eq_look, State.setFld]
  exact AMap.look_save_ne _ _ _ _ (Fld.key_ne h o o')

theorem fld_setFld_obj (s : State) (f : Fld) (v : Nat) {o o' : Nat} (h : o' ≠ o) (e : Nat) (h1 : f.pos e < 64) :
    (s.setFld f v o e).fld f o' e = s.fld f o' e := by
  simp only [fld_eq_look, State.setFld]
  exact AMap.look_save_ne _ _ _ _ (Fld.key_ne_obj f e e h h1 h1)

/-- A field set changes the register fields alone. -/
theorem setFld_rest (s : State) (f : Fld) (v o e : Nat) : s.setFld f v o e = { s with flds := (s.setFld f v o e).flds } := rfl

/-- Every register field but those of the registers named reads in t as in s. -/
theorem setFld_kept {f : Fld} {e : Nat} (h : f.pos e < 64) (s : State) (v o : Nat) (g : Fld) (o' e' : Nat) (hg : g.pos e' < 64)
    (hr : g.reg ≠ f.reg) : (s.setFld f v o e).fld g o' e' = s.fld g o' e' :=
  fld_setFld_ne (by simp [Fld.apart, h, hg, hr.symm]) s v o o'

end Machine
end Sys2Proof
end

