-- ==== Sys2Proof/Laws/Memory.lean ====
section
/-! SUPPORT. The memory: what a read gives after a write, and that every operation keeps the canonical form. -/

namespace Sys2Proof
namespace Machine

@[simp] theorem readByte_writeByte_self (m : List Host.Cell) (a : Nat) (b : Byte) : readByte (writeByte m a b) a = b :=
  AMap.look_save_self _ _ _ _

theorem readByte_writeByte_ne (m : List Host.Cell) {a c : Nat} (b : Byte) (h : c ≠ a) : readByte (writeByte m a b) c = readByte m c :=
  AMap.look_save_ne _ _ _ _ h

theorem readByte_writeByte (m : List Host.Cell) (a c : Nat) (b : Byte) :
    readByte (writeByte m a b) c = if c = a then b else readByte m c :=
  AMap.look_save _ _ _ _ _

/-- The bytes written read back, and every other address reads as before. -/
theorem readByte_writeBytes (bs : List Byte) (m : List Host.Cell) (a c : Nat) :
    readByte (writeBytes m a bs) c = if a ≤ c ∧ c < a + bs.length then bs.getD (c - a) 0#8 else readByte m c := by
  induction bs generalizing m a with
  | nil => simp only [writeBytes, List.length_nil, Nat.add_zero]; rw [if_neg (by omega)]
  | cons b bs ih =>
    simp only [writeBytes, ih, readByte_writeByte, List.length_cons]
    by_cases h : c = a
    · subst h
      rw [if_neg (by omega), if_pos rfl, if_pos (by omega), Nat.sub_self]; rfl
    · by_cases h2 : a + 1 ≤ c ∧ c < a + 1 + bs.length
      · rw [if_pos h2, if_pos (by omega)]
        obtain ⟨k, rfl⟩ : ∃ k, c = a + 1 + k := ⟨c - (a + 1), by omega⟩
        rw [show a + 1 + k - (a + 1) = k by omega, show a + 1 + k - a = k + 1 by omega]; rfl
      · rw [if_neg h2, if_neg h, if_neg (by omega)]

theorem readByte_writeBytes_out (bs : List Byte) (m : List Host.Cell) (a c : Nat) (h : c < a ∨ a + bs.length ≤ c) :
    readByte (writeBytes m a bs) c = readByte m c := by
  rw [readByte_writeBytes, if_neg (by omega)]

/-! ### The canonical form -/

theorem all_put {p : Nat × Byte → Bool} {m : List Host.Cell} (h : m.all p = true) {i : Nat} {x : Byte} (hx : p (i, x) = true) :
    (AMap.put m i x).all p = true := by
  induction m with
  | nil => simp [AMap.put, hx]
  | cons e m ih =>
    obtain ⟨k, v⟩ := e
    simp only [List.all_cons, Bool.and_eq_true] at h
    unfold AMap.put
    split
    · simp only [List.all_cons, Bool.and_eq_true]; exact ⟨hx, h.1, h.2⟩
    · split
      · simp only [List.all_cons, Bool.and_eq_true]; exact ⟨hx, h.2⟩
      · simp only [List.all_cons, Bool.and_eq_true]; exact ⟨h.1, ih h.2⟩

theorem all_drop {p : Nat × Byte → Bool} {m : List Host.Cell} (h : m.all p = true) (i : Nat) : (AMap.drop m i).all p = true := by
  induction m with
  | nil => exact h
  | cons e m ih =>
    obtain ⟨k, v⟩ := e
    simp only [List.all_cons, Bool.and_eq_true] at h
    unfold AMap.drop
    split
    · exact ih h.2
    · simp only [List.all_cons, Bool.and_eq_true]; exact ⟨h.1, ih h.2⟩

theorem writeByte_wf {m : List Host.Cell} (h : Memory.wf m = true) (a : Nat) (b : Byte) : Memory.wf (writeByte m a b) = true := by
  simp only [Memory.wf, Bool.and_eq_true] at h ⊢
  refine ⟨AMap.sorted_save _ h.1 _ _, ?_⟩
  unfold writeByte AMap.save
  split
  · exact all_drop h.2 _
  · next hb => exact all_put h.2 (by simpa using hb)

theorem writeBytes_wf (bs : List Byte) {m : List Host.Cell} (h : Memory.wf m = true) (a : Nat) : Memory.wf (writeBytes m a bs) = true := by
  induction bs generalizing m a with
  | nil => exact h
  | cons b bs ih => exact ih (writeByte_wf h a b) _

theorem canon_wf (m : List Host.Cell) : Memory.wf (Memory.canon m) = true := by
  unfold Memory.canon
  split
  · assumption
  · clear *-
    induction m with
    | nil => rfl
    | cons e m ih => exact writeByte_wf ih _ _

@[simp] theorem readByte_canon (m : List Host.Cell) (a : Nat) : readByte (Memory.canon m) a = readByte m a := by
  unfold Memory.canon
  split
  · rfl
  · clear *-
    induction m with
    | nil => rfl
    | cons e m ih =>
      obtain ⟨k, v⟩ := e
      simp only [List.foldr_cons, readByte_writeByte, ih]
      by_cases h : a = k
      · subst h; simp [readByte, AMap.look, AMap.find]
      · simp [readByte, AMap.look, AMap.find, h]

end Machine
end Sys2Proof
end

