-- ==== Sys2Proof/Laws/State.lean ====
section
/-! SUPPORT. What each named update of the state leaves unchanged, field by field, and what reading gives after a write. -/

namespace Sys2Proof
namespace Machine

/-- setFld writes only flds. -/
@[simp] theorem State.setFld_frame (s : State) (f : Fld) (v o e : Nat) :
    (s.setFld f v o e).fuses = s.fuses ∧ (s.setFld f v o e).dev = s.dev ∧ (s.setFld f v o e).clk = s.clk ∧
    (s.setFld f v o e).mem = s.mem ∧ (s.setFld f v o e).apts = s.apts ∧ (s.setFld f v o e).tlb = s.tlb ∧
    (s.setFld f v o e).batches = s.batches ∧ (s.setFld f v o e).invals = s.invals ∧
    (s.setFld f v o e).acs = s.acs ∧ (s.setFld f v o e).fns = s.fns ∧ (s.setFld f v o e).links = s.links ∧
    (s.setFld f v o e).tags = s.tags ∧ (s.setFld f v o e).msix = s.msix ∧ (s.setFld f v o e).queues = s.queues ∧
    (s.setFld f v o e).ops = s.ops ∧ (s.setFld f v o e).heldCpls = s.heldCpls ∧ (s.setFld f v o e).dcache = s.dcache ∧
    (s.setFld f v o e).qinval = s.qinval ∧ (s.setFld f v o e).wins = s.wins ∧ (s.setFld f v o e).imports = s.imports ∧
    (s.setFld f v o e).ts = s.ts ∧ (s.setFld f v o e).armed = s.armed ∧ (s.setFld f v o e).qps = s.qps ∧
    (s.setFld f v o e).pipes = s.pipes ∧ (s.setFld f v o e).prot = s.prot ∧ (s.setFld f v o e).vl = s.vl ∧ (s.setFld f v o e).en = s.en ∧
    (s.setFld f v o e).img = s.img ∧ (s.setFld f v o e).cc = s.cc ∧ (s.setFld f v o e).ten = s.ten ∧ (s.setFld f v o e).jnl = s.jnl ∧
    (s.setFld f v o e).blks = s.blks ∧ (s.setFld f v o e).res = s.res ∧ (s.setFld f v o e).hbm = s.hbm ∧
    (s.setFld f v o e).colls = s.colls ∧ (s.setFld f v o e).nextColl = s.nextColl ∧ (s.setFld f v o e).bw = s.bw ∧
    (s.setFld f v o e).gov = s.gov ∧ (s.setFld f v o e).bist = s.bist ∧ (s.setFld f v o e).uart = s.uart ∧ (s.setFld f v o e).fw = s.fw ∧
    (s.setFld f v o e).spdm = s.spdm ∧ (s.setFld f v o e).tap = s.tap ∧ (s.setFld f v o e).dones = s.dones ∧
    (s.setFld f v o e).dcsIn = s.dcsIn ∧ (s.setFld f v o e).heldReads = s.heldReads ∧ (s.setFld f v o e).out = s.out ∧
    (s.setFld f v o e).freeCount = s.freeCount ∧ (s.setFld f v o e).conns = s.conns ∧ (s.setFld f v o e).walkCache = s.walkCache ∧ (s.setFld f v o e).walks = s.walks ∧ (s.setFld f v o e).faultQ = s.faultQ ∧ (s.setFld f v o e).pending = s.pending :=
  ⟨rfl, rfl, rfl, rfl, rfl, rfl, rfl, rfl, rfl, rfl, rfl, rfl, rfl, rfl, rfl, rfl, rfl, rfl, rfl, rfl, rfl, rfl, rfl, rfl, rfl, rfl, rfl, rfl, rfl, rfl, rfl, rfl, rfl, rfl, rfl, rfl, rfl, rfl, rfl, rfl, rfl, rfl, rfl, rfl, rfl, rfl, rfl, rfl, rfl, rfl, rfl, rfl, rfl⟩

/-- setFlag writes only flds. -/
@[simp] theorem State.setFlag_frame (s : State) (f : Fld) (v : Bool) (o e : Nat) :
    (s.setFlag f v o e).fuses = s.fuses ∧ (s.setFlag f v o e).dev = s.dev ∧ (s.setFlag f v o e).clk = s.clk ∧
    (s.setFlag f v o e).mem = s.mem ∧ (s.setFlag f v o e).apts = s.apts ∧ (s.setFlag f v o e).tlb = s.tlb ∧
    (s.setFlag f v o e).batches = s.batches ∧ (s.setFlag f v o e).invals = s.invals ∧
    (s.setFlag f v o e).acs = s.acs ∧ (s.setFlag f v o e).fns = s.fns ∧ (s.setFlag f v o e).links = s.links ∧
    (s.setFlag f v o e).tags = s.tags ∧ (s.setFlag f v o e).msix = s.msix ∧ (s.setFlag f v o e).queues = s.queues ∧
    (s.setFlag f v o e).ops = s.ops ∧ (s.setFlag f v o e).heldCpls = s.heldCpls ∧ (s.setFlag f v o e).dcache = s.dcache ∧
    (s.setFlag f v o e).qinval = s.qinval ∧ (s.setFlag f v o e).wins = s.wins ∧ (s.setFlag f v o e).imports = s.imports ∧
    (s.setFlag f v o e).ts = s.ts ∧ (s.setFlag f v o e).armed = s.armed ∧ (s.setFlag f v o e).qps = s.qps ∧
    (s.setFlag f v o e).pipes = s.pipes ∧ (s.setFlag f v o e).prot = s.prot ∧ (s.setFlag f v o e).vl = s.vl ∧
    (s.setFlag f v o e).en = s.en ∧ (s.setFlag f v o e).img = s.img ∧ (s.setFlag f v o e).cc = s.cc ∧ (s.setFlag f v o e).ten = s.ten ∧
    (s.setFlag f v o e).jnl = s.jnl ∧ (s.setFlag f v o e).blks = s.blks ∧ (s.setFlag f v o e).res = s.res ∧
    (s.setFlag f v o e).hbm = s.hbm ∧ (s.setFlag f v o e).colls = s.colls ∧ (s.setFlag f v o e).nextColl = s.nextColl ∧
    (s.setFlag f v o e).bw = s.bw ∧ (s.setFlag f v o e).gov = s.gov ∧ (s.setFlag f v o e).bist = s.bist ∧
    (s.setFlag f v o e).uart = s.uart ∧ (s.setFlag f v o e).fw = s.fw ∧ (s.setFlag f v o e).spdm = s.spdm ∧
    (s.setFlag f v o e).tap = s.tap ∧ (s.setFlag f v o e).dones = s.dones ∧ (s.setFlag f v o e).dcsIn = s.dcsIn ∧
    (s.setFlag f v o e).heldReads = s.heldReads ∧ (s.setFlag f v o e).out = s.out ∧ (s.setFlag f v o e).freeCount = s.freeCount ∧
    (s.setFlag f v o e).conns = s.conns ∧ (s.setFlag f v o e).walkCache = s.walkCache ∧ (s.setFlag f v o e).walks = s.walks ∧ (s.setFlag f v o e).faultQ = s.faultQ ∧ (s.setFlag f v o e).pending = s.pending :=
  ⟨rfl, rfl, rfl, rfl, rfl, rfl, rfl, rfl, rfl, rfl, rfl, rfl, rfl, rfl, rfl, rfl, rfl, rfl, rfl, rfl, rfl, rfl, rfl, rfl, rfl, rfl, rfl, rfl, rfl, rfl, rfl, rfl, rfl, rfl, rfl, rfl, rfl, rfl, rfl, rfl, rfl, rfl, rfl, rfl, rfl, rfl, rfl, rfl, rfl, rfl, rfl, rfl, rfl⟩

/-- setDom writes only dev. -/
@[simp] theorem State.setDom_frame (s : State) (i : Nat) (x : DomState) :
    (s.setDom i x).fuses = s.fuses ∧ (s.setDom i x).flds = s.flds ∧ (s.setDom i x).clk = s.clk ∧ (s.setDom i x).mem = s.mem ∧
    (s.setDom i x).apts = s.apts ∧ (s.setDom i x).tlb = s.tlb ∧ (s.setDom i x).batches = s.batches ∧ (s.setDom i x).invals = s.invals ∧ (s.setDom i x).acs = s.acs ∧ (s.setDom i x).fns = s.fns ∧
    (s.setDom i x).links = s.links ∧ (s.setDom i x).tags = s.tags ∧ (s.setDom i x).msix = s.msix ∧ (s.setDom i x).queues = s.queues ∧
    (s.setDom i x).ops = s.ops ∧ (s.setDom i x).heldCpls = s.heldCpls ∧ (s.setDom i x).dcache = s.dcache ∧
    (s.setDom i x).qinval = s.qinval ∧ (s.setDom i x).wins = s.wins ∧ (s.setDom i x).imports = s.imports ∧ (s.setDom i x).ts = s.ts ∧
    (s.setDom i x).armed = s.armed ∧ (s.setDom i x).qps = s.qps ∧ (s.setDom i x).pipes = s.pipes ∧ (s.setDom i x).prot = s.prot ∧
    (s.setDom i x).vl = s.vl ∧ (s.setDom i x).en = s.en ∧ (s.setDom i x).img = s.img ∧ (s.setDom i x).cc = s.cc ∧
    (s.setDom i x).ten = s.ten ∧ (s.setDom i x).jnl = s.jnl ∧ (s.setDom i x).blks = s.blks ∧ (s.setDom i x).res = s.res ∧
    (s.setDom i x).hbm = s.hbm ∧ (s.setDom i x).colls = s.colls ∧ (s.setDom i x).nextColl = s.nextColl ∧ (s.setDom i x).bw = s.bw ∧
    (s.setDom i x).gov = s.gov ∧ (s.setDom i x).bist = s.bist ∧ (s.setDom i x).uart = s.uart ∧ (s.setDom i x).fw = s.fw ∧
    (s.setDom i x).spdm = s.spdm ∧ (s.setDom i x).tap = s.tap ∧ (s.setDom i x).dones = s.dones ∧ (s.setDom i x).dcsIn = s.dcsIn ∧
    (s.setDom i x).heldReads = s.heldReads ∧ (s.setDom i x).out = s.out ∧ (s.setDom i x).freeCount = s.freeCount ∧
    (s.setDom i x).conns = s.conns ∧ (s.setDom i x).walkCache = s.walkCache ∧ (s.setDom i x).walks = s.walks ∧ (s.setDom i x).faultQ = s.faultQ ∧ (s.setDom i x).pending = s.pending :=
  ⟨rfl, rfl, rfl, rfl, rfl, rfl, rfl, rfl, rfl, rfl, rfl, rfl, rfl, rfl, rfl, rfl, rfl, rfl, rfl, rfl, rfl, rfl, rfl, rfl, rfl, rfl, rfl, rfl, rfl, rfl, rfl, rfl, rfl, rfl, rfl, rfl, rfl, rfl, rfl, rfl, rfl, rfl, rfl, rfl, rfl, rfl, rfl, rfl, rfl, rfl, rfl, rfl, rfl⟩

@[simp] theorem State.fld_setDom (s : State) (i : Nat) (x : DomState) (fd : Fld) (ob el : Nat) : (s.setDom i x).fld fd ob el = s.fld fd ob el := rfl
@[simp] theorem State.flag_setDom (s : State) (i : Nat) (x : DomState) (fd : Fld) (ob el : Nat) : (s.setDom i x).flag fd ob el = s.flag fd ob el := rfl

/-- setFn writes only fns. -/
@[simp] theorem State.setFn_frame (s : State) (f : Nat) (x : Fn) :
    (s.setFn f x).fuses = s.fuses ∧ (s.setFn f x).flds = s.flds ∧ (s.setFn f x).dev = s.dev ∧ (s.setFn f x).clk = s.clk ∧
    (s.setFn f x).mem = s.mem ∧ (s.setFn f x).apts = s.apts ∧ (s.setFn f x).tlb = s.tlb ∧ (s.setFn f x).batches = s.batches ∧ (s.setFn f x).invals = s.invals ∧ (s.setFn f x).acs = s.acs ∧ (s.setFn f x).links = s.links ∧
    (s.setFn f x).tags = s.tags ∧ (s.setFn f x).msix = s.msix ∧ (s.setFn f x).queues = s.queues ∧ (s.setFn f x).ops = s.ops ∧
    (s.setFn f x).heldCpls = s.heldCpls ∧ (s.setFn f x).dcache = s.dcache ∧ (s.setFn f x).qinval = s.qinval ∧
    (s.setFn f x).wins = s.wins ∧ (s.setFn f x).imports = s.imports ∧ (s.setFn f x).ts = s.ts ∧ (s.setFn f x).armed = s.armed ∧
    (s.setFn f x).qps = s.qps ∧ (s.setFn f x).pipes = s.pipes ∧ (s.setFn f x).prot = s.prot ∧ (s.setFn f x).vl = s.vl ∧
    (s.setFn f x).en = s.en ∧ (s.setFn f x).img = s.img ∧ (s.setFn f x).cc = s.cc ∧ (s.setFn f x).ten = s.ten ∧
    (s.setFn f x).jnl = s.jnl ∧ (s.setFn f x).blks = s.blks ∧ (s.setFn f x).res = s.res ∧ (s.setFn f x).hbm = s.hbm ∧
    (s.setFn f x).colls = s.colls ∧ (s.setFn f x).nextColl = s.nextColl ∧ (s.setFn f x).bw = s.bw ∧ (s.setFn f x).gov = s.gov ∧
    (s.setFn f x).bist = s.bist ∧ (s.setFn f x).uart = s.uart ∧ (s.setFn f x).fw = s.fw ∧ (s.setFn f x).spdm = s.spdm ∧
    (s.setFn f x).tap = s.tap ∧ (s.setFn f x).dones = s.dones ∧ (s.setFn f x).dcsIn = s.dcsIn ∧ (s.setFn f x).heldReads = s.heldReads ∧
    (s.setFn f x).out = s.out ∧ (s.setFn f x).freeCount = s.freeCount ∧ (s.setFn f x).conns = s.conns ∧ (s.setFn f x).walkCache = s.walkCache ∧ (s.setFn f x).walks = s.walks ∧ (s.setFn f x).faultQ = s.faultQ ∧ (s.setFn f x).pending = s.pending :=
  ⟨rfl, rfl, rfl, rfl, rfl, rfl, rfl, rfl, rfl, rfl, rfl, rfl, rfl, rfl, rfl, rfl, rfl, rfl, rfl, rfl, rfl, rfl, rfl, rfl, rfl, rfl, rfl, rfl, rfl, rfl, rfl, rfl, rfl, rfl, rfl, rfl, rfl, rfl, rfl, rfl, rfl, rfl, rfl, rfl, rfl, rfl, rfl, rfl, rfl, rfl, rfl, rfl, rfl⟩

@[simp] theorem State.fld_setFn (s : State) (f : Nat) (x : Fn) (fd : Fld) (ob el : Nat) : (s.setFn f x).fld fd ob el = s.fld fd ob el := rfl
@[simp] theorem State.flag_setFn (s : State) (f : Nat) (x : Fn) (fd : Fld) (ob el : Nat) : (s.setFn f x).flag fd ob el = s.flag fd ob el := rfl

@[simp] theorem State.fn_setFn (s : State) (f : Nat) (x : Fn) : (s.setFn f x).fn f = x := by
  simp [State.fn, State.setFn]

theorem State.fn_setFn_ne (s : State) (f : Nat) (x : Fn) {g : Nat} (h : g ≠ f) : (s.setFn f x).fn g = s.fn g := by
  simp [State.fn, State.setFn, AMap.look_save, h]

/-- setLink writes only links. -/
@[simp] theorem State.setLink_frame (s : State) (l : LinkId) (x : HostLink) :
    (s.setLink l x).fuses = s.fuses ∧ (s.setLink l x).flds = s.flds ∧ (s.setLink l x).dev = s.dev ∧ (s.setLink l x).clk = s.clk ∧
    (s.setLink l x).mem = s.mem ∧ (s.setLink l x).apts = s.apts ∧ (s.setLink l x).tlb = s.tlb ∧
    (s.setLink l x).batches = s.batches ∧ (s.setLink l x).invals = s.invals ∧
    (s.setLink l x).acs = s.acs ∧ (s.setLink l x).fns = s.fns ∧ (s.setLink l x).tags = s.tags ∧ (s.setLink l x).msix = s.msix ∧
    (s.setLink l x).queues = s.queues ∧ (s.setLink l x).ops = s.ops ∧ (s.setLink l x).heldCpls = s.heldCpls ∧
    (s.setLink l x).dcache = s.dcache ∧ (s.setLink l x).qinval = s.qinval ∧ (s.setLink l x).wins = s.wins ∧
    (s.setLink l x).imports = s.imports ∧ (s.setLink l x).ts = s.ts ∧ (s.setLink l x).armed = s.armed ∧ (s.setLink l x).qps = s.qps ∧
    (s.setLink l x).pipes = s.pipes ∧ (s.setLink l x).prot = s.prot ∧ (s.setLink l x).vl = s.vl ∧ (s.setLink l x).en = s.en ∧
    (s.setLink l x).img = s.img ∧ (s.setLink l x).cc = s.cc ∧ (s.setLink l x).ten = s.ten ∧ (s.setLink l x).jnl = s.jnl ∧
    (s.setLink l x).blks = s.blks ∧ (s.setLink l x).res = s.res ∧ (s.setLink l x).hbm = s.hbm ∧ (s.setLink l x).colls = s.colls ∧
    (s.setLink l x).nextColl = s.nextColl ∧ (s.setLink l x).bw = s.bw ∧ (s.setLink l x).gov = s.gov ∧ (s.setLink l x).bist = s.bist ∧
    (s.setLink l x).uart = s.uart ∧ (s.setLink l x).fw = s.fw ∧ (s.setLink l x).spdm = s.spdm ∧ (s.setLink l x).tap = s.tap ∧
    (s.setLink l x).dones = s.dones ∧ (s.setLink l x).dcsIn = s.dcsIn ∧ (s.setLink l x).heldReads = s.heldReads ∧
    (s.setLink l x).out = s.out ∧ (s.setLink l x).freeCount = s.freeCount ∧ (s.setLink l x).conns = s.conns ∧ (s.setLink l x).walkCache = s.walkCache ∧ (s.setLink l x).walks = s.walks ∧ (s.setLink l x).faultQ = s.faultQ ∧ (s.setLink l x).pending = s.pending :=
  ⟨rfl, rfl, rfl, rfl, rfl, rfl, rfl, rfl, rfl, rfl, rfl, rfl, rfl, rfl, rfl, rfl, rfl, rfl, rfl, rfl, rfl, rfl, rfl, rfl, rfl, rfl, rfl, rfl, rfl, rfl, rfl, rfl, rfl, rfl, rfl, rfl, rfl, rfl, rfl, rfl, rfl, rfl, rfl, rfl, rfl, rfl, rfl, rfl, rfl, rfl, rfl, rfl, rfl⟩

@[simp] theorem State.fld_setLink (s : State) (l : LinkId) (x : HostLink) (fd : Fld) (ob el : Nat) : (s.setLink l x).fld fd ob el = s.fld fd ob el := rfl
@[simp] theorem State.flag_setLink (s : State) (l : LinkId) (x : HostLink) (fd : Fld) (ob el : Nat) : (s.setLink l x).flag fd ob el = s.flag fd ob el := rfl

/-- setBlk writes only blks. -/
@[simp] theorem State.setBlk_frame (s : State) (b : Nat) (x : Blk) :
    (s.setBlk b x).fuses = s.fuses ∧ (s.setBlk b x).flds = s.flds ∧ (s.setBlk b x).dev = s.dev ∧ (s.setBlk b x).clk = s.clk ∧
    (s.setBlk b x).mem = s.mem ∧ (s.setBlk b x).apts = s.apts ∧ (s.setBlk b x).tlb = s.tlb ∧ (s.setBlk b x).batches = s.batches ∧ (s.setBlk b x).invals = s.invals ∧ (s.setBlk b x).acs = s.acs ∧ (s.setBlk b x).fns = s.fns ∧
    (s.setBlk b x).links = s.links ∧ (s.setBlk b x).tags = s.tags ∧ (s.setBlk b x).msix = s.msix ∧ (s.setBlk b x).queues = s.queues ∧
    (s.setBlk b x).ops = s.ops ∧ (s.setBlk b x).heldCpls = s.heldCpls ∧ (s.setBlk b x).dcache = s.dcache ∧
    (s.setBlk b x).qinval = s.qinval ∧ (s.setBlk b x).wins = s.wins ∧ (s.setBlk b x).imports = s.imports ∧ (s.setBlk b x).ts = s.ts ∧
    (s.setBlk b x).armed = s.armed ∧ (s.setBlk b x).qps = s.qps ∧ (s.setBlk b x).pipes = s.pipes ∧ (s.setBlk b x).prot = s.prot ∧
    (s.setBlk b x).vl = s.vl ∧ (s.setBlk b x).en = s.en ∧ (s.setBlk b x).img = s.img ∧ (s.setBlk b x).cc = s.cc ∧
    (s.setBlk b x).ten = s.ten ∧ (s.setBlk b x).jnl = s.jnl ∧ (s.setBlk b x).res = s.res ∧ (s.setBlk b x).hbm = s.hbm ∧
    (s.setBlk b x).colls = s.colls ∧ (s.setBlk b x).nextColl = s.nextColl ∧ (s.setBlk b x).bw = s.bw ∧ (s.setBlk b x).gov = s.gov ∧
    (s.setBlk b x).bist = s.bist ∧ (s.setBlk b x).uart = s.uart ∧ (s.setBlk b x).fw = s.fw ∧ (s.setBlk b x).spdm = s.spdm ∧
    (s.setBlk b x).tap = s.tap ∧ (s.setBlk b x).dones = s.dones ∧ (s.setBlk b x).dcsIn = s.dcsIn ∧
    (s.setBlk b x).heldReads = s.heldReads ∧ (s.setBlk b x).out = s.out ∧ (s.setBlk b x).freeCount = s.freeCount ∧
    (s.setBlk b x).conns = s.conns ∧ (s.setBlk b x).walkCache = s.walkCache ∧ (s.setBlk b x).walks = s.walks ∧ (s.setBlk b x).faultQ = s.faultQ ∧ (s.setBlk b x).pending = s.pending :=
  ⟨rfl, rfl, rfl, rfl, rfl, rfl, rfl, rfl, rfl, rfl, rfl, rfl, rfl, rfl, rfl, rfl, rfl, rfl, rfl, rfl, rfl, rfl, rfl, rfl, rfl, rfl, rfl, rfl, rfl, rfl, rfl, rfl, rfl, rfl, rfl, rfl, rfl, rfl, rfl, rfl, rfl, rfl, rfl, rfl, rfl, rfl, rfl, rfl, rfl, rfl, rfl, rfl, rfl⟩

@[simp] theorem State.fld_setBlk (s : State) (b : Nat) (x : Blk) (fd : Fld) (ob el : Nat) : (s.setBlk b x).fld fd ob el = s.fld fd ob el := rfl
@[simp] theorem State.flag_setBlk (s : State) (b : Nat) (x : Blk) (fd : Fld) (ob el : Nat) : (s.setBlk b x).flag fd ob el = s.flag fd ob el := rfl

@[simp] theorem State.blk_setBlk (s : State) (b : Nat) (x : Blk) : (s.setBlk b x).blk b = x := by
  simp [State.blk, State.setBlk]

theorem State.blk_setBlk_ne (s : State) (b : Nat) (x : Blk) {c : Nat} (h : c ≠ b) : (s.setBlk b x).blk c = s.blk c := by
  simp [State.blk, State.setBlk, AMap.look_save, h]

/-- setStack writes only hbm. -/
@[simp] theorem State.setStack_frame (s : State) (k : Nat) (x : Stack) :
    (s.setStack k x).fuses = s.fuses ∧ (s.setStack k x).flds = s.flds ∧ (s.setStack k x).dev = s.dev ∧ (s.setStack k x).clk = s.clk ∧
    (s.setStack k x).mem = s.mem ∧ (s.setStack k x).apts = s.apts ∧ (s.setStack k x).tlb = s.tlb ∧
    (s.setStack k x).batches = s.batches ∧ (s.setStack k x).invals = s.invals ∧
    (s.setStack k x).acs = s.acs ∧ (s.setStack k x).fns = s.fns ∧ (s.setStack k x).links = s.links ∧ (s.setStack k x).tags = s.tags ∧
    (s.setStack k x).msix = s.msix ∧ (s.setStack k x).queues = s.queues ∧ (s.setStack k x).ops = s.ops ∧
    (s.setStack k x).heldCpls = s.heldCpls ∧ (s.setStack k x).dcache = s.dcache ∧ (s.setStack k x).qinval = s.qinval ∧
    (s.setStack k x).wins = s.wins ∧ (s.setStack k x).imports = s.imports ∧ (s.setStack k x).ts = s.ts ∧
    (s.setStack k x).armed = s.armed ∧ (s.setStack k x).qps = s.qps ∧ (s.setStack k x).pipes = s.pipes ∧ (s.setStack k x).prot = s.prot ∧
    (s.setStack k x).vl = s.vl ∧ (s.setStack k x).en = s.en ∧ (s.setStack k x).img = s.img ∧ (s.setStack k x).cc = s.cc ∧
    (s.setStack k x).ten = s.ten ∧ (s.setStack k x).jnl = s.jnl ∧ (s.setStack k x).blks = s.blks ∧ (s.setStack k x).res = s.res ∧
    (s.setStack k x).colls = s.colls ∧ (s.setStack k x).nextColl = s.nextColl ∧ (s.setStack k x).bw = s.bw ∧
    (s.setStack k x).gov = s.gov ∧ (s.setStack k x).bist = s.bist ∧ (s.setStack k x).uart = s.uart ∧ (s.setStack k x).fw = s.fw ∧
    (s.setStack k x).spdm = s.spdm ∧ (s.setStack k x).tap = s.tap ∧ (s.setStack k x).dones = s.dones ∧ (s.setStack k x).dcsIn = s.dcsIn ∧
    (s.setStack k x).heldReads = s.heldReads ∧ (s.setStack k x).out = s.out ∧ (s.setStack k x).freeCount = s.freeCount ∧
    (s.setStack k x).conns = s.conns ∧ (s.setStack k x).walkCache = s.walkCache ∧ (s.setStack k x).walks = s.walks ∧ (s.setStack k x).faultQ = s.faultQ ∧ (s.setStack k x).pending = s.pending :=
  ⟨rfl, rfl, rfl, rfl, rfl, rfl, rfl, rfl, rfl, rfl, rfl, rfl, rfl, rfl, rfl, rfl, rfl, rfl, rfl, rfl, rfl, rfl, rfl, rfl, rfl, rfl, rfl, rfl, rfl, rfl, rfl, rfl, rfl, rfl, rfl, rfl, rfl, rfl, rfl, rfl, rfl, rfl, rfl, rfl, rfl, rfl, rfl, rfl, rfl, rfl, rfl, rfl, rfl⟩

@[simp] theorem State.fld_setStack (s : State) (k : Nat) (x : Stack) (fd : Fld) (ob el : Nat) : (s.setStack k x).fld fd ob el = s.fld fd ob el := rfl
@[simp] theorem State.flag_setStack (s : State) (k : Nat) (x : Stack) (fd : Fld) (ob el : Nat) : (s.setStack k x).flag fd ob el = s.flag fd ob el := rfl

@[simp] theorem State.stack_setStack (s : State) (k : Nat) (x : Stack) : (s.setStack k x).stack k = x := by
  simp [State.stack, State.setStack]

theorem State.stack_setStack_ne (s : State) (k : Nat) (x : Stack) {j : Nat} (h : j ≠ k) : (s.setStack k x).stack j = s.stack j := by
  simp [State.stack, State.setStack, AMap.look_save, h]

/-- setQueue writes only queues. -/
@[simp] theorem State.setQueue_frame (s : State) (fn q : Nat) (x : Queue) :
    (s.setQueue fn q x).fuses = s.fuses ∧ (s.setQueue fn q x).flds = s.flds ∧ (s.setQueue fn q x).dev = s.dev ∧
    (s.setQueue fn q x).clk = s.clk ∧ (s.setQueue fn q x).mem = s.mem ∧ (s.setQueue fn q x).apts = s.apts ∧
    (s.setQueue fn q x).tlb = s.tlb ∧ (s.setQueue fn q x).batches = s.batches ∧
    (s.setQueue fn q x).invals = s.invals ∧ (s.setQueue fn q x).acs = s.acs ∧ (s.setQueue fn q x).fns = s.fns ∧
    (s.setQueue fn q x).links = s.links ∧ (s.setQueue fn q x).tags = s.tags ∧ (s.setQueue fn q x).msix = s.msix ∧
    (s.setQueue fn q x).ops = s.ops ∧ (s.setQueue fn q x).heldCpls = s.heldCpls ∧ (s.setQueue fn q x).dcache = s.dcache ∧
    (s.setQueue fn q x).qinval = s.qinval ∧ (s.setQueue fn q x).wins = s.wins ∧ (s.setQueue fn q x).imports = s.imports ∧
    (s.setQueue fn q x).ts = s.ts ∧ (s.setQueue fn q x).armed = s.armed ∧ (s.setQueue fn q x).qps = s.qps ∧
    (s.setQueue fn q x).pipes = s.pipes ∧ (s.setQueue fn q x).prot = s.prot ∧ (s.setQueue fn q x).vl = s.vl ∧
    (s.setQueue fn q x).en = s.en ∧ (s.setQueue fn q x).img = s.img ∧ (s.setQueue fn q x).cc = s.cc ∧ (s.setQueue fn q x).ten = s.ten ∧
    (s.setQueue fn q x).jnl = s.jnl ∧ (s.setQueue fn q x).blks = s.blks ∧ (s.setQueue fn q x).res = s.res ∧
    (s.setQueue fn q x).hbm = s.hbm ∧ (s.setQueue fn q x).colls = s.colls ∧ (s.setQueue fn q x).nextColl = s.nextColl ∧
    (s.setQueue fn q x).bw = s.bw ∧ (s.setQueue fn q x).gov = s.gov ∧ (s.setQueue fn q x).bist = s.bist ∧
    (s.setQueue fn q x).uart = s.uart ∧ (s.setQueue fn q x).fw = s.fw ∧ (s.setQueue fn q x).spdm = s.spdm ∧
    (s.setQueue fn q x).tap = s.tap ∧ (s.setQueue fn q x).dones = s.dones ∧ (s.setQueue fn q x).dcsIn = s.dcsIn ∧
    (s.setQueue fn q x).heldReads = s.heldReads ∧ (s.setQueue fn q x).out = s.out ∧ (s.setQueue fn q x).freeCount = s.freeCount ∧
    (s.setQueue fn q x).conns = s.conns ∧ (s.setQueue fn q x).walkCache = s.walkCache ∧ (s.setQueue fn q x).walks = s.walks ∧ (s.setQueue fn q x).faultQ = s.faultQ ∧ (s.setQueue fn q x).pending = s.pending :=
  ⟨rfl, rfl, rfl, rfl, rfl, rfl, rfl, rfl, rfl, rfl, rfl, rfl, rfl, rfl, rfl, rfl, rfl, rfl, rfl, rfl, rfl, rfl, rfl, rfl, rfl, rfl, rfl, rfl, rfl, rfl, rfl, rfl, rfl, rfl, rfl, rfl, rfl, rfl, rfl, rfl, rfl, rfl, rfl, rfl, rfl, rfl, rfl, rfl, rfl, rfl, rfl, rfl, rfl⟩

@[simp] theorem State.fld_setQueue (s : State) (fn q : Nat) (x : Queue) (fd : Fld) (ob el : Nat) : (s.setQueue fn q x).fld fd ob el = s.fld fd ob el := rfl
@[simp] theorem State.flag_setQueue (s : State) (fn q : Nat) (x : Queue) (fd : Fld) (ob el : Nat) : (s.setQueue fn q x).flag fd ob el = s.flag fd ob el := rfl

/-- setApt writes only apts. -/
@[simp] theorem State.setApt_frame (s : State) (fn : Nat) (x : Aperture) :
    (s.setApt fn x).fuses = s.fuses ∧ (s.setApt fn x).flds = s.flds ∧ (s.setApt fn x).dev = s.dev ∧ (s.setApt fn x).clk = s.clk ∧
    (s.setApt fn x).mem = s.mem ∧ (s.setApt fn x).tlb = s.tlb ∧ (s.setApt fn x).batches = s.batches ∧ (s.setApt fn x).invals = s.invals ∧ (s.setApt fn x).acs = s.acs ∧ (s.setApt fn x).fns = s.fns ∧
    (s.setApt fn x).links = s.links ∧ (s.setApt fn x).tags = s.tags ∧ (s.setApt fn x).msix = s.msix ∧ (s.setApt fn x).queues = s.queues ∧
    (s.setApt fn x).ops = s.ops ∧ (s.setApt fn x).heldCpls = s.heldCpls ∧ (s.setApt fn x).dcache = s.dcache ∧
    (s.setApt fn x).qinval = s.qinval ∧ (s.setApt fn x).wins = s.wins ∧ (s.setApt fn x).imports = s.imports ∧ (s.setApt fn x).ts = s.ts ∧
    (s.setApt fn x).armed = s.armed ∧ (s.setApt fn x).qps = s.qps ∧ (s.setApt fn x).pipes = s.pipes ∧ (s.setApt fn x).prot = s.prot ∧
    (s.setApt fn x).vl = s.vl ∧ (s.setApt fn x).en = s.en ∧ (s.setApt fn x).img = s.img ∧ (s.setApt fn x).cc = s.cc ∧
    (s.setApt fn x).ten = s.ten ∧ (s.setApt fn x).jnl = s.jnl ∧ (s.setApt fn x).blks = s.blks ∧ (s.setApt fn x).res = s.res ∧
    (s.setApt fn x).hbm = s.hbm ∧ (s.setApt fn x).colls = s.colls ∧ (s.setApt fn x).nextColl = s.nextColl ∧ (s.setApt fn x).bw = s.bw ∧
    (s.setApt fn x).gov = s.gov ∧ (s.setApt fn x).bist = s.bist ∧ (s.setApt fn x).uart = s.uart ∧ (s.setApt fn x).fw = s.fw ∧
    (s.setApt fn x).spdm = s.spdm ∧ (s.setApt fn x).tap = s.tap ∧ (s.setApt fn x).dones = s.dones ∧ (s.setApt fn x).dcsIn = s.dcsIn ∧
    (s.setApt fn x).heldReads = s.heldReads ∧ (s.setApt fn x).out = s.out ∧ (s.setApt fn x).freeCount = s.freeCount ∧
    (s.setApt fn x).conns = s.conns ∧ (s.setApt fn x).walkCache = s.walkCache ∧ (s.setApt fn x).walks = s.walks ∧ (s.setApt fn x).faultQ = s.faultQ ∧ (s.setApt fn x).pending = s.pending :=
  ⟨rfl, rfl, rfl, rfl, rfl, rfl, rfl, rfl, rfl, rfl, rfl, rfl, rfl, rfl, rfl, rfl, rfl, rfl, rfl, rfl, rfl, rfl, rfl, rfl, rfl, rfl, rfl, rfl, rfl, rfl, rfl, rfl, rfl, rfl, rfl, rfl, rfl, rfl, rfl, rfl, rfl, rfl, rfl, rfl, rfl, rfl, rfl, rfl, rfl, rfl, rfl, rfl, rfl⟩

@[simp] theorem State.fld_setApt (s : State) (fn : Nat) (x : Aperture) (fd : Fld) (ob el : Nat) : (s.setApt fn x).fld fd ob el = s.fld fd ob el := rfl
@[simp] theorem State.flag_setApt (s : State) (fn : Nat) (x : Aperture) (fd : Fld) (ob el : Nat) : (s.setApt fn x).flag fd ob el = s.flag fd ob el := rfl

@[simp] theorem State.apt_setApt (s : State) (fn : Nat) (x : Aperture) : (s.setApt fn x).apt fn = x := by
  simp [State.apt, State.setApt]

theorem State.apt_setApt_ne (s : State) (fn : Nat) (x : Aperture) {g : Nat} (h : g ≠ fn) : (s.setApt fn x).apt g = s.apt g := by
  simp [State.apt, State.setApt, AMap.look_save, h]

/-- setWin writes only wins. -/
@[simp] theorem State.setWin_frame (s : State) (i : Nat) (x : Window) :
    (s.setWin i x).fuses = s.fuses ∧ (s.setWin i x).flds = s.flds ∧ (s.setWin i x).dev = s.dev ∧ (s.setWin i x).clk = s.clk ∧
    (s.setWin i x).mem = s.mem ∧ (s.setWin i x).apts = s.apts ∧ (s.setWin i x).tlb = s.tlb ∧ (s.setWin i x).batches = s.batches ∧ (s.setWin i x).invals = s.invals ∧ (s.setWin i x).acs = s.acs ∧ (s.setWin i x).fns = s.fns ∧
    (s.setWin i x).links = s.links ∧ (s.setWin i x).tags = s.tags ∧ (s.setWin i x).msix = s.msix ∧ (s.setWin i x).queues = s.queues ∧
    (s.setWin i x).ops = s.ops ∧ (s.setWin i x).heldCpls = s.heldCpls ∧ (s.setWin i x).dcache = s.dcache ∧
    (s.setWin i x).qinval = s.qinval ∧ (s.setWin i x).imports = s.imports ∧ (s.setWin i x).ts = s.ts ∧ (s.setWin i x).armed = s.armed ∧
    (s.setWin i x).qps = s.qps ∧ (s.setWin i x).pipes = s.pipes ∧ (s.setWin i x).prot = s.prot ∧ (s.setWin i x).vl = s.vl ∧
    (s.setWin i x).en = s.en ∧ (s.setWin i x).img = s.img ∧ (s.setWin i x).cc = s.cc ∧ (s.setWin i x).ten = s.ten ∧
    (s.setWin i x).jnl = s.jnl ∧ (s.setWin i x).blks = s.blks ∧ (s.setWin i x).res = s.res ∧ (s.setWin i x).hbm = s.hbm ∧
    (s.setWin i x).colls = s.colls ∧ (s.setWin i x).nextColl = s.nextColl ∧ (s.setWin i x).bw = s.bw ∧ (s.setWin i x).gov = s.gov ∧
    (s.setWin i x).bist = s.bist ∧ (s.setWin i x).uart = s.uart ∧ (s.setWin i x).fw = s.fw ∧ (s.setWin i x).spdm = s.spdm ∧
    (s.setWin i x).tap = s.tap ∧ (s.setWin i x).dones = s.dones ∧ (s.setWin i x).dcsIn = s.dcsIn ∧
    (s.setWin i x).heldReads = s.heldReads ∧ (s.setWin i x).out = s.out ∧ (s.setWin i x).freeCount = s.freeCount ∧
    (s.setWin i x).conns = s.conns ∧ (s.setWin i x).walkCache = s.walkCache ∧ (s.setWin i x).walks = s.walks ∧ (s.setWin i x).faultQ = s.faultQ ∧ (s.setWin i x).pending = s.pending :=
  ⟨rfl, rfl, rfl, rfl, rfl, rfl, rfl, rfl, rfl, rfl, rfl, rfl, rfl, rfl, rfl, rfl, rfl, rfl, rfl, rfl, rfl, rfl, rfl, rfl, rfl, rfl, rfl, rfl, rfl, rfl, rfl, rfl, rfl, rfl, rfl, rfl, rfl, rfl, rfl, rfl, rfl, rfl, rfl, rfl, rfl, rfl, rfl, rfl, rfl, rfl, rfl, rfl, rfl⟩

@[simp] theorem State.fld_setWin (s : State) (i : Nat) (x : Window) (fd : Fld) (ob el : Nat) : (s.setWin i x).fld fd ob el = s.fld fd ob el := rfl
@[simp] theorem State.flag_setWin (s : State) (i : Nat) (x : Window) (fd : Fld) (ob el : Nat) : (s.setWin i x).flag fd ob el = s.flag fd ob el := rfl

@[simp] theorem State.win_setWin (s : State) (i : Nat) (x : Window) : (s.setWin i x).win i = x := by
  simp [State.win, State.setWin]

theorem State.win_setWin_ne (s : State) (i : Nat) (x : Window) {j : Nat} (h : j ≠ i) : (s.setWin i x).win j = s.win j := by
  simp [State.win, State.setWin, AMap.look_save, h]

/-- setQp writes only qps. -/
@[simp] theorem State.setQp_frame (s : State) (q : Nat) (x : Qp) :
    (s.setQp q x).fuses = s.fuses ∧ (s.setQp q x).flds = s.flds ∧ (s.setQp q x).dev = s.dev ∧ (s.setQp q x).clk = s.clk ∧
    (s.setQp q x).mem = s.mem ∧ (s.setQp q x).apts = s.apts ∧ (s.setQp q x).tlb = s.tlb ∧ (s.setQp q x).batches = s.batches ∧ (s.setQp q x).invals = s.invals ∧ (s.setQp q x).acs = s.acs ∧ (s.setQp q x).fns = s.fns ∧
    (s.setQp q x).links = s.links ∧ (s.setQp q x).tags = s.tags ∧ (s.setQp q x).msix = s.msix ∧ (s.setQp q x).queues = s.queues ∧
    (s.setQp q x).ops = s.ops ∧ (s.setQp q x).heldCpls = s.heldCpls ∧ (s.setQp q x).dcache = s.dcache ∧ (s.setQp q x).qinval = s.qinval ∧
    (s.setQp q x).wins = s.wins ∧ (s.setQp q x).imports = s.imports ∧ (s.setQp q x).ts = s.ts ∧ (s.setQp q x).armed = s.armed ∧
    (s.setQp q x).pipes = s.pipes ∧ (s.setQp q x).prot = s.prot ∧ (s.setQp q x).vl = s.vl ∧ (s.setQp q x).en = s.en ∧
    (s.setQp q x).img = s.img ∧ (s.setQp q x).cc = s.cc ∧ (s.setQp q x).ten = s.ten ∧ (s.setQp q x).jnl = s.jnl ∧
    (s.setQp q x).blks = s.blks ∧ (s.setQp q x).res = s.res ∧ (s.setQp q x).hbm = s.hbm ∧ (s.setQp q x).colls = s.colls ∧
    (s.setQp q x).nextColl = s.nextColl ∧ (s.setQp q x).bw = s.bw ∧ (s.setQp q x).gov = s.gov ∧ (s.setQp q x).bist = s.bist ∧
    (s.setQp q x).uart = s.uart ∧ (s.setQp q x).fw = s.fw ∧ (s.setQp q x).spdm = s.spdm ∧ (s.setQp q x).tap = s.tap ∧
    (s.setQp q x).dones = s.dones ∧ (s.setQp q x).dcsIn = s.dcsIn ∧ (s.setQp q x).heldReads = s.heldReads ∧ (s.setQp q x).out = s.out ∧
    (s.setQp q x).freeCount = s.freeCount ∧ (s.setQp q x).conns = s.conns ∧ (s.setQp q x).walkCache = s.walkCache ∧ (s.setQp q x).walks = s.walks ∧ (s.setQp q x).faultQ = s.faultQ ∧ (s.setQp q x).pending = s.pending :=
  ⟨rfl, rfl, rfl, rfl, rfl, rfl, rfl, rfl, rfl, rfl, rfl, rfl, rfl, rfl, rfl, rfl, rfl, rfl, rfl, rfl, rfl, rfl, rfl, rfl, rfl, rfl, rfl, rfl, rfl, rfl, rfl, rfl, rfl, rfl, rfl, rfl, rfl, rfl, rfl, rfl, rfl, rfl, rfl, rfl, rfl, rfl, rfl, rfl, rfl, rfl, rfl, rfl, rfl⟩

@[simp] theorem State.fld_setQp (s : State) (q : Nat) (x : Qp) (fd : Fld) (ob el : Nat) : (s.setQp q x).fld fd ob el = s.fld fd ob el := rfl
@[simp] theorem State.flag_setQp (s : State) (q : Nat) (x : Qp) (fd : Fld) (ob el : Nat) : (s.setQp q x).flag fd ob el = s.flag fd ob el := rfl

@[simp] theorem State.qp_setQp (s : State) (q : Nat) (x : Qp) : (s.setQp q x).qp q = x := by
  simp [State.qp, State.setQp]

theorem State.qp_setQp_ne (s : State) (q : Nat) (x : Qp) {p : Nat} (h : p ≠ q) : (s.setQp q x).qp p = s.qp p := by
  simp [State.qp, State.setQp, AMap.look_save, h]

/-- setTurn writes only ts. -/
@[simp] theorem State.setTurn_frame (s : State) (n : Nat) (x : Turnstile) :
    (s.setTurn n x).fuses = s.fuses ∧ (s.setTurn n x).flds = s.flds ∧ (s.setTurn n x).dev = s.dev ∧ (s.setTurn n x).clk = s.clk ∧
    (s.setTurn n x).mem = s.mem ∧ (s.setTurn n x).apts = s.apts ∧ (s.setTurn n x).tlb = s.tlb ∧
    (s.setTurn n x).batches = s.batches ∧ (s.setTurn n x).invals = s.invals ∧
    (s.setTurn n x).acs = s.acs ∧ (s.setTurn n x).fns = s.fns ∧ (s.setTurn n x).links = s.links ∧ (s.setTurn n x).tags = s.tags ∧
    (s.setTurn n x).msix = s.msix ∧ (s.setTurn n x).queues = s.queues ∧ (s.setTurn n x).ops = s.ops ∧
    (s.setTurn n x).heldCpls = s.heldCpls ∧ (s.setTurn n x).dcache = s.dcache ∧ (s.setTurn n x).qinval = s.qinval ∧
    (s.setTurn n x).wins = s.wins ∧ (s.setTurn n x).imports = s.imports ∧ (s.setTurn n x).armed = s.armed ∧ (s.setTurn n x).qps = s.qps ∧
    (s.setTurn n x).pipes = s.pipes ∧ (s.setTurn n x).prot = s.prot ∧ (s.setTurn n x).vl = s.vl ∧ (s.setTurn n x).en = s.en ∧
    (s.setTurn n x).img = s.img ∧ (s.setTurn n x).cc = s.cc ∧ (s.setTurn n x).ten = s.ten ∧ (s.setTurn n x).jnl = s.jnl ∧
    (s.setTurn n x).blks = s.blks ∧ (s.setTurn n x).res = s.res ∧ (s.setTurn n x).hbm = s.hbm ∧ (s.setTurn n x).colls = s.colls ∧
    (s.setTurn n x).nextColl = s.nextColl ∧ (s.setTurn n x).bw = s.bw ∧ (s.setTurn n x).gov = s.gov ∧ (s.setTurn n x).bist = s.bist ∧
    (s.setTurn n x).uart = s.uart ∧ (s.setTurn n x).fw = s.fw ∧ (s.setTurn n x).spdm = s.spdm ∧ (s.setTurn n x).tap = s.tap ∧
    (s.setTurn n x).dones = s.dones ∧ (s.setTurn n x).dcsIn = s.dcsIn ∧ (s.setTurn n x).heldReads = s.heldReads ∧
    (s.setTurn n x).out = s.out ∧ (s.setTurn n x).freeCount = s.freeCount ∧ (s.setTurn n x).conns = s.conns ∧ (s.setTurn n x).walkCache = s.walkCache ∧ (s.setTurn n x).walks = s.walks ∧ (s.setTurn n x).faultQ = s.faultQ ∧ (s.setTurn n x).pending = s.pending :=
  ⟨rfl, rfl, rfl, rfl, rfl, rfl, rfl, rfl, rfl, rfl, rfl, rfl, rfl, rfl, rfl, rfl, rfl, rfl, rfl, rfl, rfl, rfl, rfl, rfl, rfl, rfl, rfl, rfl, rfl, rfl, rfl, rfl, rfl, rfl, rfl, rfl, rfl, rfl, rfl, rfl, rfl, rfl, rfl, rfl, rfl, rfl, rfl, rfl, rfl, rfl, rfl, rfl, rfl⟩

@[simp] theorem State.fld_setTurn (s : State) (n : Nat) (x : Turnstile) (fd : Fld) (ob el : Nat) : (s.setTurn n x).fld fd ob el = s.fld fd ob el := rfl
@[simp] theorem State.flag_setTurn (s : State) (n : Nat) (x : Turnstile) (fd : Fld) (ob el : Nat) : (s.setTurn n x).flag fd ob el = s.flag fd ob el := rfl

@[simp] theorem State.turn_setTurn (s : State) (n : Nat) (x : Turnstile) : (s.setTurn n x).turn n = x := by
  simp [State.turn, State.setTurn]

theorem State.turn_setTurn_ne (s : State) (n : Nat) (x : Turnstile) {m : Nat} (h : m ≠ n) : (s.setTurn n x).turn m = s.turn m := by
  simp [State.turn, State.setTurn, AMap.look_save, h]

/-- setPipe writes only pipes. -/
@[simp] theorem State.setPipe_frame (s : State) (k : Nat) (x : Pipeline) :
    (s.setPipe k x).fuses = s.fuses ∧ (s.setPipe k x).flds = s.flds ∧ (s.setPipe k x).dev = s.dev ∧ (s.setPipe k x).clk = s.clk ∧
    (s.setPipe k x).mem = s.mem ∧ (s.setPipe k x).apts = s.apts ∧ (s.setPipe k x).tlb = s.tlb ∧
    (s.setPipe k x).batches = s.batches ∧ (s.setPipe k x).invals = s.invals ∧
    (s.setPipe k x).acs = s.acs ∧ (s.setPipe k x).fns = s.fns ∧ (s.setPipe k x).links = s.links ∧ (s.setPipe k x).tags = s.tags ∧
    (s.setPipe k x).msix = s.msix ∧ (s.setPipe k x).queues = s.queues ∧ (s.setPipe k x).ops = s.ops ∧
    (s.setPipe k x).heldCpls = s.heldCpls ∧ (s.setPipe k x).dcache = s.dcache ∧ (s.setPipe k x).qinval = s.qinval ∧
    (s.setPipe k x).wins = s.wins ∧ (s.setPipe k x).imports = s.imports ∧ (s.setPipe k x).ts = s.ts ∧ (s.setPipe k x).armed = s.armed ∧
    (s.setPipe k x).qps = s.qps ∧ (s.setPipe k x).prot = s.prot ∧ (s.setPipe k x).vl = s.vl ∧ (s.setPipe k x).en = s.en ∧
    (s.setPipe k x).img = s.img ∧ (s.setPipe k x).cc = s.cc ∧ (s.setPipe k x).ten = s.ten ∧ (s.setPipe k x).jnl = s.jnl ∧
    (s.setPipe k x).blks = s.blks ∧ (s.setPipe k x).res = s.res ∧ (s.setPipe k x).hbm = s.hbm ∧ (s.setPipe k x).colls = s.colls ∧
    (s.setPipe k x).nextColl = s.nextColl ∧ (s.setPipe k x).bw = s.bw ∧ (s.setPipe k x).gov = s.gov ∧ (s.setPipe k x).bist = s.bist ∧
    (s.setPipe k x).uart = s.uart ∧ (s.setPipe k x).fw = s.fw ∧ (s.setPipe k x).spdm = s.spdm ∧ (s.setPipe k x).tap = s.tap ∧
    (s.setPipe k x).dones = s.dones ∧ (s.setPipe k x).dcsIn = s.dcsIn ∧ (s.setPipe k x).heldReads = s.heldReads ∧
    (s.setPipe k x).out = s.out ∧ (s.setPipe k x).freeCount = s.freeCount ∧ (s.setPipe k x).conns = s.conns ∧ (s.setPipe k x).walkCache = s.walkCache ∧ (s.setPipe k x).walks = s.walks ∧ (s.setPipe k x).faultQ = s.faultQ ∧ (s.setPipe k x).pending = s.pending :=
  ⟨rfl, rfl, rfl, rfl, rfl, rfl, rfl, rfl, rfl, rfl, rfl, rfl, rfl, rfl, rfl, rfl, rfl, rfl, rfl, rfl, rfl, rfl, rfl, rfl, rfl, rfl, rfl, rfl, rfl, rfl, rfl, rfl, rfl, rfl, rfl, rfl, rfl, rfl, rfl, rfl, rfl, rfl, rfl, rfl, rfl, rfl, rfl, rfl, rfl, rfl, rfl, rfl, rfl⟩

@[simp] theorem State.fld_setPipe (s : State) (k : Nat) (x : Pipeline) (fd : Fld) (ob el : Nat) : (s.setPipe k x).fld fd ob el = s.fld fd ob el := rfl
@[simp] theorem State.flag_setPipe (s : State) (k : Nat) (x : Pipeline) (fd : Fld) (ob el : Nat) : (s.setPipe k x).flag fd ob el = s.flag fd ob el := rfl

/-- setShaper writes only cc. -/
@[simp] theorem State.setShaper_frame (s : State) (n : Nat) (x : Shaper) :
    (s.setShaper n x).fuses = s.fuses ∧ (s.setShaper n x).flds = s.flds ∧ (s.setShaper n x).dev = s.dev ∧ (s.setShaper n x).clk = s.clk ∧
    (s.setShaper n x).mem = s.mem ∧ (s.setShaper n x).apts = s.apts ∧ (s.setShaper n x).tlb = s.tlb ∧
    (s.setShaper n x).batches = s.batches ∧ (s.setShaper n x).invals = s.invals ∧
    (s.setShaper n x).acs = s.acs ∧ (s.setShaper n x).fns = s.fns ∧ (s.setShaper n x).links = s.links ∧ (s.setShaper n x).tags = s.tags ∧
    (s.setShaper n x).msix = s.msix ∧ (s.setShaper n x).queues = s.queues ∧ (s.setShaper n x).ops = s.ops ∧
    (s.setShaper n x).heldCpls = s.heldCpls ∧ (s.setShaper n x).dcache = s.dcache ∧ (s.setShaper n x).qinval = s.qinval ∧
    (s.setShaper n x).wins = s.wins ∧ (s.setShaper n x).imports = s.imports ∧ (s.setShaper n x).ts = s.ts ∧
    (s.setShaper n x).armed = s.armed ∧ (s.setShaper n x).qps = s.qps ∧ (s.setShaper n x).pipes = s.pipes ∧
    (s.setShaper n x).prot = s.prot ∧ (s.setShaper n x).vl = s.vl ∧ (s.setShaper n x).en = s.en ∧ (s.setShaper n x).img = s.img ∧
    (s.setShaper n x).ten = s.ten ∧ (s.setShaper n x).jnl = s.jnl ∧ (s.setShaper n x).blks = s.blks ∧ (s.setShaper n x).res = s.res ∧
    (s.setShaper n x).hbm = s.hbm ∧ (s.setShaper n x).colls = s.colls ∧ (s.setShaper n x).nextColl = s.nextColl ∧
    (s.setShaper n x).bw = s.bw ∧ (s.setShaper n x).gov = s.gov ∧ (s.setShaper n x).bist = s.bist ∧ (s.setShaper n x).uart = s.uart ∧
    (s.setShaper n x).fw = s.fw ∧ (s.setShaper n x).spdm = s.spdm ∧ (s.setShaper n x).tap = s.tap ∧ (s.setShaper n x).dones = s.dones ∧
    (s.setShaper n x).dcsIn = s.dcsIn ∧ (s.setShaper n x).heldReads = s.heldReads ∧ (s.setShaper n x).out = s.out ∧
    (s.setShaper n x).freeCount = s.freeCount ∧ (s.setShaper n x).conns = s.conns ∧ (s.setShaper n x).walkCache = s.walkCache ∧ (s.setShaper n x).walks = s.walks ∧ (s.setShaper n x).faultQ = s.faultQ ∧ (s.setShaper n x).pending = s.pending :=
  ⟨rfl, rfl, rfl, rfl, rfl, rfl, rfl, rfl, rfl, rfl, rfl, rfl, rfl, rfl, rfl, rfl, rfl, rfl, rfl, rfl, rfl, rfl, rfl, rfl, rfl, rfl, rfl, rfl, rfl, rfl, rfl, rfl, rfl, rfl, rfl, rfl, rfl, rfl, rfl, rfl, rfl, rfl, rfl, rfl, rfl, rfl, rfl, rfl, rfl, rfl, rfl, rfl, rfl⟩

@[simp] theorem State.fld_setShaper (s : State) (n : Nat) (x : Shaper) (fd : Fld) (ob el : Nat) : (s.setShaper n x).fld fd ob el = s.fld fd ob el := rfl
@[simp] theorem State.flag_setShaper (s : State) (n : Nat) (x : Shaper) (fd : Fld) (ob el : Nat) : (s.setShaper n x).flag fd ob el = s.flag fd ob el := rfl

@[simp] theorem State.shaper_setShaper (s : State) (n : Nat) (x : Shaper) : (s.setShaper n x).shaper n = x := by
  simp [State.shaper, State.setShaper]

theorem State.shaper_setShaper_ne (s : State) (n : Nat) (x : Shaper) {m : Nat} (h : m ≠ n) : (s.setShaper n x).shaper m = s.shaper m := by
  simp [State.shaper, State.setShaper, AMap.look_save, h]

/-- setRate writes only cc. -/
@[simp] theorem State.setRate_frame (s : State) (q : Nat) (x : RateCtl) :
    (s.setRate q x).fuses = s.fuses ∧ (s.setRate q x).flds = s.flds ∧ (s.setRate q x).dev = s.dev ∧ (s.setRate q x).clk = s.clk ∧
    (s.setRate q x).mem = s.mem ∧ (s.setRate q x).apts = s.apts ∧ (s.setRate q x).tlb = s.tlb ∧
    (s.setRate q x).batches = s.batches ∧ (s.setRate q x).invals = s.invals ∧
    (s.setRate q x).acs = s.acs ∧ (s.setRate q x).fns = s.fns ∧ (s.setRate q x).links = s.links ∧ (s.setRate q x).tags = s.tags ∧
    (s.setRate q x).msix = s.msix ∧ (s.setRate q x).queues = s.queues ∧ (s.setRate q x).ops = s.ops ∧
    (s.setRate q x).heldCpls = s.heldCpls ∧ (s.setRate q x).dcache = s.dcache ∧ (s.setRate q x).qinval = s.qinval ∧
    (s.setRate q x).wins = s.wins ∧ (s.setRate q x).imports = s.imports ∧ (s.setRate q x).ts = s.ts ∧ (s.setRate q x).armed = s.armed ∧
    (s.setRate q x).qps = s.qps ∧ (s.setRate q x).pipes = s.pipes ∧ (s.setRate q x).prot = s.prot ∧ (s.setRate q x).vl = s.vl ∧
    (s.setRate q x).en = s.en ∧ (s.setRate q x).img = s.img ∧ (s.setRate q x).ten = s.ten ∧ (s.setRate q x).jnl = s.jnl ∧
    (s.setRate q x).blks = s.blks ∧ (s.setRate q x).res = s.res ∧ (s.setRate q x).hbm = s.hbm ∧ (s.setRate q x).colls = s.colls ∧
    (s.setRate q x).nextColl = s.nextColl ∧ (s.setRate q x).bw = s.bw ∧ (s.setRate q x).gov = s.gov ∧ (s.setRate q x).bist = s.bist ∧
    (s.setRate q x).uart = s.uart ∧ (s.setRate q x).fw = s.fw ∧ (s.setRate q x).spdm = s.spdm ∧ (s.setRate q x).tap = s.tap ∧
    (s.setRate q x).dones = s.dones ∧ (s.setRate q x).dcsIn = s.dcsIn ∧ (s.setRate q x).heldReads = s.heldReads ∧
    (s.setRate q x).out = s.out ∧ (s.setRate q x).freeCount = s.freeCount ∧ (s.setRate q x).conns = s.conns ∧ (s.setRate q x).walkCache = s.walkCache ∧ (s.setRate q x).walks = s.walks ∧ (s.setRate q x).faultQ = s.faultQ ∧ (s.setRate q x).pending = s.pending :=
  ⟨rfl, rfl, rfl, rfl, rfl, rfl, rfl, rfl, rfl, rfl, rfl, rfl, rfl, rfl, rfl, rfl, rfl, rfl, rfl, rfl, rfl, rfl, rfl, rfl, rfl, rfl, rfl, rfl, rfl, rfl, rfl, rfl, rfl, rfl, rfl, rfl, rfl, rfl, rfl, rfl, rfl, rfl, rfl, rfl, rfl, rfl, rfl, rfl, rfl, rfl, rfl, rfl, rfl⟩

@[simp] theorem State.fld_setRate (s : State) (q : Nat) (x : RateCtl) (fd : Fld) (ob el : Nat) : (s.setRate q x).fld fd ob el = s.fld fd ob el := rfl
@[simp] theorem State.flag_setRate (s : State) (q : Nat) (x : RateCtl) (fd : Fld) (ob el : Nat) : (s.setRate q x).flag fd ob el = s.flag fd ob el := rfl

@[simp] theorem State.rateCtl_setRate (s : State) (q : Nat) (x : RateCtl) : (s.setRate q x).rateCtl q = x := by
  simp [State.rateCtl, State.setRate]

theorem State.rateCtl_setRate_ne (s : State) (q : Nat) (x : RateCtl) {p : Nat} (h : p ≠ q) : (s.setRate q x).rateCtl p = s.rateCtl p := by
  simp [State.rateCtl, State.setRate, AMap.look_save, h]

/-- setVlink writes only vl and flds. -/
@[simp] theorem State.setVlink_frame (s : State) (l : Nat) (x : VLink) :
    (s.setVlink l x).fuses = s.fuses ∧ (s.setVlink l x).dev = s.dev ∧ (s.setVlink l x).clk = s.clk ∧ (s.setVlink l x).mem = s.mem ∧
    (s.setVlink l x).apts = s.apts ∧ (s.setVlink l x).tlb = s.tlb ∧ (s.setVlink l x).batches = s.batches ∧ (s.setVlink l x).invals = s.invals ∧ (s.setVlink l x).acs = s.acs ∧
    (s.setVlink l x).fns = s.fns ∧ (s.setVlink l x).links = s.links ∧ (s.setVlink l x).tags = s.tags ∧ (s.setVlink l x).msix = s.msix ∧
    (s.setVlink l x).queues = s.queues ∧ (s.setVlink l x).ops = s.ops ∧ (s.setVlink l x).heldCpls = s.heldCpls ∧
    (s.setVlink l x).dcache = s.dcache ∧ (s.setVlink l x).qinval = s.qinval ∧ (s.setVlink l x).wins = s.wins ∧
    (s.setVlink l x).imports = s.imports ∧ (s.setVlink l x).ts = s.ts ∧ (s.setVlink l x).armed = s.armed ∧ (s.setVlink l x).qps = s.qps ∧
    (s.setVlink l x).pipes = s.pipes ∧ (s.setVlink l x).prot = s.prot ∧ (s.setVlink l x).en = s.en ∧ (s.setVlink l x).img = s.img ∧
    (s.setVlink l x).cc = s.cc ∧ (s.setVlink l x).ten = s.ten ∧ (s.setVlink l x).jnl = s.jnl ∧ (s.setVlink l x).blks = s.blks ∧
    (s.setVlink l x).res = s.res ∧ (s.setVlink l x).hbm = s.hbm ∧ (s.setVlink l x).colls = s.colls ∧
    (s.setVlink l x).nextColl = s.nextColl ∧ (s.setVlink l x).bw = s.bw ∧ (s.setVlink l x).gov = s.gov ∧ (s.setVlink l x).bist = s.bist ∧
    (s.setVlink l x).uart = s.uart ∧ (s.setVlink l x).fw = s.fw ∧ (s.setVlink l x).spdm = s.spdm ∧ (s.setVlink l x).tap = s.tap ∧
    (s.setVlink l x).dones = s.dones ∧ (s.setVlink l x).dcsIn = s.dcsIn ∧ (s.setVlink l x).heldReads = s.heldReads ∧
    (s.setVlink l x).out = s.out ∧ (s.setVlink l x).freeCount = s.freeCount ∧ (s.setVlink l x).conns = s.conns ∧ (s.setVlink l x).walkCache = s.walkCache ∧ (s.setVlink l x).walks = s.walks ∧ (s.setVlink l x).faultQ = s.faultQ ∧ (s.setVlink l x).pending = s.pending :=
  ⟨rfl, rfl, rfl, rfl, rfl, rfl, rfl, rfl, rfl, rfl, rfl, rfl, rfl, rfl, rfl, rfl, rfl, rfl, rfl, rfl, rfl, rfl, rfl, rfl, rfl, rfl, rfl, rfl, rfl, rfl, rfl, rfl, rfl, rfl, rfl, rfl, rfl, rfl, rfl, rfl, rfl, rfl, rfl, rfl, rfl, rfl, rfl, rfl, rfl, rfl, rfl, rfl⟩

@[simp] theorem State.vlink_setVlink (s : State) (l : Nat) (x : VLink) : (s.setVlink l x).vlink l = x := by
  simp [State.vlink, State.setVlink]

theorem State.vlink_setVlink_ne (s : State) (l : Nat) (x : VLink) {k : Nat} (h : k ≠ l) : (s.setVlink l x).vlink k = s.vlink k := by
  simp [State.vlink, State.setVlink, AMap.look_save, h]

/-- setEwin writes only vl. -/
@[simp] theorem State.setEwin_frame (s : State) (d : Nat) (x : EWin) :
    (s.setEwin d x).fuses = s.fuses ∧ (s.setEwin d x).flds = s.flds ∧ (s.setEwin d x).dev = s.dev ∧ (s.setEwin d x).clk = s.clk ∧
    (s.setEwin d x).mem = s.mem ∧ (s.setEwin d x).apts = s.apts ∧ (s.setEwin d x).tlb = s.tlb ∧
    (s.setEwin d x).batches = s.batches ∧ (s.setEwin d x).invals = s.invals ∧
    (s.setEwin d x).acs = s.acs ∧ (s.setEwin d x).fns = s.fns ∧ (s.setEwin d x).links = s.links ∧ (s.setEwin d x).tags = s.tags ∧
    (s.setEwin d x).msix = s.msix ∧ (s.setEwin d x).queues = s.queues ∧ (s.setEwin d x).ops = s.ops ∧
    (s.setEwin d x).heldCpls = s.heldCpls ∧ (s.setEwin d x).dcache = s.dcache ∧ (s.setEwin d x).qinval = s.qinval ∧
    (s.setEwin d x).wins = s.wins ∧ (s.setEwin d x).imports = s.imports ∧ (s.setEwin d x).ts = s.ts ∧ (s.setEwin d x).armed = s.armed ∧
    (s.setEwin d x).qps = s.qps ∧ (s.setEwin d x).pipes = s.pipes ∧ (s.setEwin d x).prot = s.prot ∧ (s.setEwin d x).en = s.en ∧
    (s.setEwin d x).img = s.img ∧ (s.setEwin d x).cc = s.cc ∧ (s.setEwin d x).ten = s.ten ∧ (s.setEwin d x).jnl = s.jnl ∧
    (s.setEwin d x).blks = s.blks ∧ (s.setEwin d x).res = s.res ∧ (s.setEwin d x).hbm = s.hbm ∧ (s.setEwin d x).colls = s.colls ∧
    (s.setEwin d x).nextColl = s.nextColl ∧ (s.setEwin d x).bw = s.bw ∧ (s.setEwin d x).gov = s.gov ∧ (s.setEwin d x).bist = s.bist ∧
    (s.setEwin d x).uart = s.uart ∧ (s.setEwin d x).fw = s.fw ∧ (s.setEwin d x).spdm = s.spdm ∧ (s.setEwin d x).tap = s.tap ∧
    (s.setEwin d x).dones = s.dones ∧ (s.setEwin d x).dcsIn = s.dcsIn ∧ (s.setEwin d x).heldReads = s.heldReads ∧
    (s.setEwin d x).out = s.out ∧ (s.setEwin d x).freeCount = s.freeCount ∧ (s.setEwin d x).conns = s.conns ∧ (s.setEwin d x).walkCache = s.walkCache ∧ (s.setEwin d x).walks = s.walks ∧ (s.setEwin d x).faultQ = s.faultQ ∧ (s.setEwin d x).pending = s.pending :=
  ⟨rfl, rfl, rfl, rfl, rfl, rfl, rfl, rfl, rfl, rfl, rfl, rfl, rfl, rfl, rfl, rfl, rfl, rfl, rfl, rfl, rfl, rfl, rfl, rfl, rfl, rfl, rfl, rfl, rfl, rfl, rfl, rfl, rfl, rfl, rfl, rfl, rfl, rfl, rfl, rfl, rfl, rfl, rfl, rfl, rfl, rfl, rfl, rfl, rfl, rfl, rfl, rfl, rfl⟩

@[simp] theorem State.fld_setEwin (s : State) (d : Nat) (x : EWin) (fd : Fld) (ob el : Nat) : (s.setEwin d x).fld fd ob el = s.fld fd ob el := rfl
@[simp] theorem State.flag_setEwin (s : State) (d : Nat) (x : EWin) (fd : Fld) (ob el : Nat) : (s.setEwin d x).flag fd ob el = s.flag fd ob el := rfl

@[simp] theorem State.ewin_setEwin (s : State) (d : Nat) (x : EWin) : (s.setEwin d x).ewin d = x := by
  simp [State.ewin, State.setEwin]

theorem State.ewin_setEwin_ne (s : State) (d : Nat) (x : EWin) {c : Nat} (h : c ≠ d) : (s.setEwin d x).ewin c = s.ewin c := by
  simp [State.ewin, State.setEwin, AMap.look_save, h]

/-- setEport writes only en and flds. -/
@[simp] theorem State.setEport_frame (s : State) (p : Nat) (x : EPort) :
    (s.setEport p x).fuses = s.fuses ∧ (s.setEport p x).dev = s.dev ∧ (s.setEport p x).clk = s.clk ∧ (s.setEport p x).mem = s.mem ∧
    (s.setEport p x).apts = s.apts ∧ (s.setEport p x).tlb = s.tlb ∧ (s.setEport p x).batches = s.batches ∧ (s.setEport p x).invals = s.invals ∧ (s.setEport p x).acs = s.acs ∧
    (s.setEport p x).fns = s.fns ∧ (s.setEport p x).links = s.links ∧ (s.setEport p x).tags = s.tags ∧ (s.setEport p x).msix = s.msix ∧
    (s.setEport p x).queues = s.queues ∧ (s.setEport p x).ops = s.ops ∧ (s.setEport p x).heldCpls = s.heldCpls ∧
    (s.setEport p x).dcache = s.dcache ∧ (s.setEport p x).qinval = s.qinval ∧ (s.setEport p x).wins = s.wins ∧
    (s.setEport p x).imports = s.imports ∧ (s.setEport p x).ts = s.ts ∧ (s.setEport p x).armed = s.armed ∧ (s.setEport p x).qps = s.qps ∧
    (s.setEport p x).pipes = s.pipes ∧ (s.setEport p x).prot = s.prot ∧ (s.setEport p x).vl = s.vl ∧ (s.setEport p x).img = s.img ∧
    (s.setEport p x).cc = s.cc ∧ (s.setEport p x).ten = s.ten ∧ (s.setEport p x).jnl = s.jnl ∧ (s.setEport p x).blks = s.blks ∧
    (s.setEport p x).res = s.res ∧ (s.setEport p x).hbm = s.hbm ∧ (s.setEport p x).colls = s.colls ∧
    (s.setEport p x).nextColl = s.nextColl ∧ (s.setEport p x).bw = s.bw ∧ (s.setEport p x).gov = s.gov ∧ (s.setEport p x).bist = s.bist ∧
    (s.setEport p x).uart = s.uart ∧ (s.setEport p x).fw = s.fw ∧ (s.setEport p x).spdm = s.spdm ∧ (s.setEport p x).tap = s.tap ∧
    (s.setEport p x).dones = s.dones ∧ (s.setEport p x).dcsIn = s.dcsIn ∧ (s.setEport p x).heldReads = s.heldReads ∧
    (s.setEport p x).out = s.out ∧ (s.setEport p x).freeCount = s.freeCount ∧ (s.setEport p x).conns = s.conns ∧ (s.setEport p x).walkCache = s.walkCache ∧ (s.setEport p x).walks = s.walks ∧ (s.setEport p x).faultQ = s.faultQ ∧ (s.setEport p x).pending = s.pending :=
  ⟨rfl, rfl, rfl, rfl, rfl, rfl, rfl, rfl, rfl, rfl, rfl, rfl, rfl, rfl, rfl, rfl, rfl, rfl, rfl, rfl, rfl, rfl, rfl, rfl, rfl, rfl, rfl, rfl, rfl, rfl, rfl, rfl, rfl, rfl, rfl, rfl, rfl, rfl, rfl, rfl, rfl, rfl, rfl, rfl, rfl, rfl, rfl, rfl, rfl, rfl, rfl, rfl⟩

@[simp] theorem State.eport_setEport (s : State) (p : Nat) (x : EPort) : (s.setEport p x).eport p = x := by
  simp [State.eport, State.setEport]

theorem State.eport_setEport_ne (s : State) (p : Nat) (x : EPort) {q : Nat} (h : q ≠ p) : (s.setEport p x).eport q = s.eport q := by
  simp [State.eport, State.setEport, AMap.look_save, h]

/-- setChan writes only prot and flds. -/
@[simp] theorem State.setChan_frame (s : State) (c : Nat) (x : Chan) :
    (s.setChan c x).fuses = s.fuses ∧ (s.setChan c x).dev = s.dev ∧ (s.setChan c x).clk = s.clk ∧ (s.setChan c x).mem = s.mem ∧
    (s.setChan c x).apts = s.apts ∧ (s.setChan c x).tlb = s.tlb ∧ (s.setChan c x).batches = s.batches ∧ (s.setChan c x).invals = s.invals ∧ (s.setChan c x).acs = s.acs ∧ (s.setChan c x).fns = s.fns ∧
    (s.setChan c x).links = s.links ∧ (s.setChan c x).tags = s.tags ∧ (s.setChan c x).msix = s.msix ∧ (s.setChan c x).queues = s.queues ∧
    (s.setChan c x).ops = s.ops ∧ (s.setChan c x).heldCpls = s.heldCpls ∧ (s.setChan c x).dcache = s.dcache ∧
    (s.setChan c x).qinval = s.qinval ∧ (s.setChan c x).wins = s.wins ∧ (s.setChan c x).imports = s.imports ∧ (s.setChan c x).ts = s.ts ∧
    (s.setChan c x).armed = s.armed ∧ (s.setChan c x).qps = s.qps ∧ (s.setChan c x).pipes = s.pipes ∧ (s.setChan c x).vl = s.vl ∧
    (s.setChan c x).en = s.en ∧ (s.setChan c x).img = s.img ∧ (s.setChan c x).cc = s.cc ∧ (s.setChan c x).ten = s.ten ∧
    (s.setChan c x).jnl = s.jnl ∧ (s.setChan c x).blks = s.blks ∧ (s.setChan c x).res = s.res ∧ (s.setChan c x).hbm = s.hbm ∧
    (s.setChan c x).colls = s.colls ∧ (s.setChan c x).nextColl = s.nextColl ∧ (s.setChan c x).bw = s.bw ∧ (s.setChan c x).gov = s.gov ∧
    (s.setChan c x).bist = s.bist ∧ (s.setChan c x).uart = s.uart ∧ (s.setChan c x).fw = s.fw ∧ (s.setChan c x).spdm = s.spdm ∧
    (s.setChan c x).tap = s.tap ∧ (s.setChan c x).dones = s.dones ∧ (s.setChan c x).dcsIn = s.dcsIn ∧
    (s.setChan c x).heldReads = s.heldReads ∧ (s.setChan c x).out = s.out ∧ (s.setChan c x).freeCount = s.freeCount ∧
    (s.setChan c x).conns = s.conns ∧ (s.setChan c x).walkCache = s.walkCache ∧ (s.setChan c x).walks = s.walks ∧ (s.setChan c x).faultQ = s.faultQ ∧ (s.setChan c x).pending = s.pending :=
  ⟨rfl, rfl, rfl, rfl, rfl, rfl, rfl, rfl, rfl, rfl, rfl, rfl, rfl, rfl, rfl, rfl, rfl, rfl, rfl, rfl, rfl, rfl, rfl, rfl, rfl, rfl, rfl, rfl, rfl, rfl, rfl, rfl, rfl, rfl, rfl, rfl, rfl, rfl, rfl, rfl, rfl, rfl, rfl, rfl, rfl, rfl, rfl, rfl, rfl, rfl, rfl, rfl⟩

@[simp] theorem State.chan_setChan (s : State) (c : Nat) (x : Chan) : (s.setChan c x).chan c = x := by
  simp [State.chan, State.setChan]

theorem State.chan_setChan_ne (s : State) (c : Nat) (x : Chan) {d : Nat} (h : d ≠ c) : (s.setChan c x).chan d = s.chan d := by
  simp [State.chan, State.setChan, AMap.look_save, h]

/-- setColl writes only colls. -/
@[simp] theorem State.setColl_frame (s : State) (n : Nat) (x : Coll) :
    (s.setColl n x).fuses = s.fuses ∧ (s.setColl n x).flds = s.flds ∧ (s.setColl n x).dev = s.dev ∧ (s.setColl n x).clk = s.clk ∧
    (s.setColl n x).mem = s.mem ∧ (s.setColl n x).apts = s.apts ∧ (s.setColl n x).tlb = s.tlb ∧
    (s.setColl n x).batches = s.batches ∧ (s.setColl n x).invals = s.invals ∧
    (s.setColl n x).acs = s.acs ∧ (s.setColl n x).fns = s.fns ∧ (s.setColl n x).links = s.links ∧ (s.setColl n x).tags = s.tags ∧
    (s.setColl n x).msix = s.msix ∧ (s.setColl n x).queues = s.queues ∧ (s.setColl n x).ops = s.ops ∧
    (s.setColl n x).heldCpls = s.heldCpls ∧ (s.setColl n x).dcache = s.dcache ∧ (s.setColl n x).qinval = s.qinval ∧
    (s.setColl n x).wins = s.wins ∧ (s.setColl n x).imports = s.imports ∧ (s.setColl n x).ts = s.ts ∧ (s.setColl n x).armed = s.armed ∧
    (s.setColl n x).qps = s.qps ∧ (s.setColl n x).pipes = s.pipes ∧ (s.setColl n x).prot = s.prot ∧ (s.setColl n x).vl = s.vl ∧
    (s.setColl n x).en = s.en ∧ (s.setColl n x).img = s.img ∧ (s.setColl n x).cc = s.cc ∧ (s.setColl n x).ten = s.ten ∧
    (s.setColl n x).jnl = s.jnl ∧ (s.setColl n x).blks = s.blks ∧ (s.setColl n x).res = s.res ∧ (s.setColl n x).hbm = s.hbm ∧
    (s.setColl n x).nextColl = s.nextColl ∧ (s.setColl n x).bw = s.bw ∧ (s.setColl n x).gov = s.gov ∧ (s.setColl n x).bist = s.bist ∧
    (s.setColl n x).uart = s.uart ∧ (s.setColl n x).fw = s.fw ∧ (s.setColl n x).spdm = s.spdm ∧ (s.setColl n x).tap = s.tap ∧
    (s.setColl n x).dones = s.dones ∧ (s.setColl n x).dcsIn = s.dcsIn ∧ (s.setColl n x).heldReads = s.heldReads ∧
    (s.setColl n x).out = s.out ∧ (s.setColl n x).freeCount = s.freeCount ∧ (s.setColl n x).conns = s.conns ∧ (s.setColl n x).walkCache = s.walkCache ∧ (s.setColl n x).walks = s.walks ∧ (s.setColl n x).faultQ = s.faultQ ∧ (s.setColl n x).pending = s.pending :=
  ⟨rfl, rfl, rfl, rfl, rfl, rfl, rfl, rfl, rfl, rfl, rfl, rfl, rfl, rfl, rfl, rfl, rfl, rfl, rfl, rfl, rfl, rfl, rfl, rfl, rfl, rfl, rfl, rfl, rfl, rfl, rfl, rfl, rfl, rfl, rfl, rfl, rfl, rfl, rfl, rfl, rfl, rfl, rfl, rfl, rfl, rfl, rfl, rfl, rfl, rfl, rfl, rfl, rfl⟩

@[simp] theorem State.fld_setColl (s : State) (n : Nat) (x : Coll) (fd : Fld) (ob el : Nat) : (s.setColl n x).fld fd ob el = s.fld fd ob el := rfl
@[simp] theorem State.flag_setColl (s : State) (n : Nat) (x : Coll) (fd : Fld) (ob el : Nat) : (s.setColl n x).flag fd ob el = s.flag fd ob el := rfl

/-- setQueue writes the context of one queue. -/
@[simp] theorem State.queue_setQueue (s : State) (fn q : Nat) (x : Queue) : (s.setQueue fn q x).queue fn q = x := by
  simp [State.queue, State.setQueue]

/-- setDom writes one domain. -/
@[simp] theorem State.dom_setDom (s : State) (i j : Nat) (x : DomState) : (s.setDom i x).dom j = if j = i then x else s.dom j := by
  simp [State.dom, State.setDom, AMap.look_save]

end Machine
end Sys2Proof
end

