-- ==== Sys2Proof/Laws/Ops.lean ====
section
/-! SUPPORT. What each shared operation may change, said once: every other field of the state is left as it is. A lemma named _rest says it
as one equation, and one named _frame field by field. -/

namespace Sys2Proof
namespace Machine

/-- What every step of a fold keeps, the fold keeps. -/
theorem foldl_keeps {α β : Type} (p : State → β) {f : State → α → State} (h : ∀ t x, p (f t x) = p t) (l : List α) (s : State) :
    p (l.foldl f s) = p s := by
  induction l generalizing s with
  | nil => rfl
  | cons x l ih => exact (ih (f s x)).trans (h s x)

/-- Counting bytes for the bandwidth monitors writes their counts only (R510). -/
theorem State.bwCount_rest (s : State) (p : Nat) (tx : Bool) (n : Nat) :
    ({ s.bwCount p tx n with bw := [] } : State) = { s with bw := [] } := by
  unfold State.bwCount
  apply foldl_keeps (fun t : State => ({ t with bw := [] } : State))
  intro t m
  dsimp only
  split <;> rfl

@[simp] theorem State.bwCount_frame (s : State) (p : Nat) (tx : Bool) (n : Nat) :
    (s.bwCount p tx n).fuses = s.fuses ∧ (s.bwCount p tx n).flds = s.flds ∧ (s.bwCount p tx n).dev = s.dev ∧
    (s.bwCount p tx n).clk = s.clk ∧ (s.bwCount p tx n).mem = s.mem ∧ (s.bwCount p tx n).apts = s.apts ∧ (s.bwCount p tx n).tlb = s.tlb ∧
    (s.bwCount p tx n).batches = s.batches ∧ (s.bwCount p tx n).invals = s.invals ∧
    (s.bwCount p tx n).acs = s.acs ∧ (s.bwCount p tx n).fns = s.fns ∧ (s.bwCount p tx n).links = s.links ∧
    (s.bwCount p tx n).tags = s.tags ∧ (s.bwCount p tx n).msix = s.msix ∧ (s.bwCount p tx n).queues = s.queues ∧
    (s.bwCount p tx n).ops = s.ops ∧ (s.bwCount p tx n).heldCpls = s.heldCpls ∧ (s.bwCount p tx n).dcache = s.dcache ∧
    (s.bwCount p tx n).qinval = s.qinval ∧ (s.bwCount p tx n).wins = s.wins ∧ (s.bwCount p tx n).imports = s.imports ∧
    (s.bwCount p tx n).ts = s.ts ∧ (s.bwCount p tx n).armed = s.armed ∧ (s.bwCount p tx n).qps = s.qps ∧
    (s.bwCount p tx n).pipes = s.pipes ∧ (s.bwCount p tx n).prot = s.prot ∧ (s.bwCount p tx n).vl = s.vl ∧ (s.bwCount p tx n).en = s.en ∧
    (s.bwCount p tx n).img = s.img ∧ (s.bwCount p tx n).cc = s.cc ∧ (s.bwCount p tx n).ten = s.ten ∧ (s.bwCount p tx n).jnl = s.jnl ∧
    (s.bwCount p tx n).blks = s.blks ∧ (s.bwCount p tx n).res = s.res ∧ (s.bwCount p tx n).hbm = s.hbm ∧
    (s.bwCount p tx n).colls = s.colls ∧ (s.bwCount p tx n).nextColl = s.nextColl ∧ (s.bwCount p tx n).gov = s.gov ∧
    (s.bwCount p tx n).bist = s.bist ∧ (s.bwCount p tx n).uart = s.uart ∧ (s.bwCount p tx n).fw = s.fw ∧
    (s.bwCount p tx n).spdm = s.spdm ∧ (s.bwCount p tx n).tap = s.tap ∧ (s.bwCount p tx n).dones = s.dones ∧
    (s.bwCount p tx n).dcsIn = s.dcsIn ∧ (s.bwCount p tx n).heldReads = s.heldReads ∧ (s.bwCount p tx n).out = s.out ∧
    (s.bwCount p tx n).freeCount = s.freeCount ∧ (s.bwCount p tx n).conns = s.conns ∧ (s.bwCount p tx n).walkCache = s.walkCache ∧ (s.bwCount p tx n).walks = s.walks ∧ (s.bwCount p tx n).faultQ = s.faultQ ∧ (s.bwCount p tx n).pending = s.pending := by
  have h := s.bwCount_rest p tx n
  simp only [State.mk.injEq] at h
  simp only [h, and_self]

@[simp] theorem State.fld_bwCount (s : State) (p : Nat) (tx : Bool) (n : Nat) (fd : Fld) (ob el : Nat) : (s.bwCount p tx n).fld fd ob el = s.fld fd ob el := by
  simp [State.fld]

@[simp] theorem State.flag_bwCount (s : State) (p : Nat) (tx : Bool) (n : Nat) (fd : Fld) (ob el : Nat) : (s.bwCount p tx n).flag fd ob el = s.flag fd ob el := by
  simp [State.flag]

/-- What leaves the device is recorded, and counted for the monitors, and nothing else changes. -/
theorem State.emit_rest (s : State) (o : Output) :
    ({ s.emit o with out := [], bw := [] } : State) = { s with out := [], bw := [] } := by
  unfold State.emit
  dsimp only
  split
  · next p n _ =>
    have h := State.bwCount_rest { s with out := o :: s.out } p true n
    simp only [State.mk.injEq] at h ⊢
    simp only [h, and_self]
  · rfl

@[simp] theorem State.emit_frame (s : State) (o : Output) :
    (s.emit o).fuses = s.fuses ∧ (s.emit o).flds = s.flds ∧ (s.emit o).dev = s.dev ∧ (s.emit o).clk = s.clk ∧ (s.emit o).mem = s.mem ∧
    (s.emit o).apts = s.apts ∧ (s.emit o).tlb = s.tlb ∧ (s.emit o).batches = s.batches ∧
    (s.emit o).invals = s.invals ∧ (s.emit o).acs = s.acs ∧ (s.emit o).fns = s.fns ∧ (s.emit o).links = s.links ∧
    (s.emit o).tags = s.tags ∧ (s.emit o).msix = s.msix ∧ (s.emit o).queues = s.queues ∧ (s.emit o).ops = s.ops ∧
    (s.emit o).heldCpls = s.heldCpls ∧ (s.emit o).dcache = s.dcache ∧ (s.emit o).qinval = s.qinval ∧ (s.emit o).wins = s.wins ∧
    (s.emit o).imports = s.imports ∧ (s.emit o).ts = s.ts ∧ (s.emit o).armed = s.armed ∧ (s.emit o).qps = s.qps ∧
    (s.emit o).pipes = s.pipes ∧ (s.emit o).prot = s.prot ∧ (s.emit o).vl = s.vl ∧ (s.emit o).en = s.en ∧ (s.emit o).img = s.img ∧
    (s.emit o).cc = s.cc ∧ (s.emit o).ten = s.ten ∧ (s.emit o).jnl = s.jnl ∧ (s.emit o).blks = s.blks ∧ (s.emit o).res = s.res ∧
    (s.emit o).hbm = s.hbm ∧ (s.emit o).colls = s.colls ∧ (s.emit o).nextColl = s.nextColl ∧ (s.emit o).gov = s.gov ∧
    (s.emit o).bist = s.bist ∧ (s.emit o).uart = s.uart ∧ (s.emit o).fw = s.fw ∧ (s.emit o).spdm = s.spdm ∧ (s.emit o).tap = s.tap ∧
    (s.emit o).dones = s.dones ∧ (s.emit o).dcsIn = s.dcsIn ∧ (s.emit o).heldReads = s.heldReads ∧ (s.emit o).freeCount = s.freeCount ∧
    (s.emit o).conns = s.conns ∧ (s.emit o).walkCache = s.walkCache ∧ (s.emit o).walks = s.walks ∧ (s.emit o).faultQ = s.faultQ ∧ (s.emit o).pending = s.pending := by
  have h := s.emit_rest o
  simp only [State.mk.injEq] at h
  simp only [h, and_self]

@[simp] theorem State.fld_emit (s : State) (o : Output) (fd : Fld) (ob el : Nat) : (s.emit o).fld fd ob el = s.fld fd ob el := by
  simp [State.fld]

@[simp] theorem State.flag_emit (s : State) (o : Output) (fd : Fld) (ob el : Nat) : (s.emit o).flag fd ob el = s.flag fd ob el := by
  simp [State.flag]

/-- What is emitted is recorded in front. -/
@[simp] theorem State.emit_out (s : State) (o : Output) : (s.emit o).out = o :: s.out := by
  unfold State.emit
  dsimp only
  split <;> simp

/-- An output that is no TLP, no packet and no frame counts for no monitor. -/
theorem State.emit_plain (s : State) (o : Output) (h : s.bwOf o = none) : s.emit o = { s with out := o :: s.out } := by
  simp [State.emit, h]

/-- Several outputs. -/
theorem State.emits_rest (s : State) (os : List Output) :
    ({ s.emits os with out := [], bw := [] } : State) = { s with out := [], bw := [] } := by
  unfold State.emits
  exact foldl_keeps (fun t : State => ({ t with out := [], bw := [] } : State)) (fun t o => State.emit_rest t o) os s

@[simp] theorem State.emits_frame (s : State) (os : List Output) :
    (s.emits os).fuses = s.fuses ∧ (s.emits os).flds = s.flds ∧ (s.emits os).dev = s.dev ∧ (s.emits os).clk = s.clk ∧
    (s.emits os).mem = s.mem ∧ (s.emits os).apts = s.apts ∧ (s.emits os).tlb = s.tlb ∧ (s.emits os).batches = s.batches ∧ (s.emits os).invals = s.invals ∧ (s.emits os).acs = s.acs ∧ (s.emits os).fns = s.fns ∧
    (s.emits os).links = s.links ∧ (s.emits os).tags = s.tags ∧ (s.emits os).msix = s.msix ∧ (s.emits os).queues = s.queues ∧
    (s.emits os).ops = s.ops ∧ (s.emits os).heldCpls = s.heldCpls ∧ (s.emits os).dcache = s.dcache ∧ (s.emits os).qinval = s.qinval ∧
    (s.emits os).wins = s.wins ∧ (s.emits os).imports = s.imports ∧ (s.emits os).ts = s.ts ∧ (s.emits os).armed = s.armed ∧
    (s.emits os).qps = s.qps ∧ (s.emits os).pipes = s.pipes ∧ (s.emits os).prot = s.prot ∧ (s.emits os).vl = s.vl ∧
    (s.emits os).en = s.en ∧ (s.emits os).img = s.img ∧ (s.emits os).cc = s.cc ∧ (s.emits os).ten = s.ten ∧ (s.emits os).jnl = s.jnl ∧
    (s.emits os).blks = s.blks ∧ (s.emits os).res = s.res ∧ (s.emits os).hbm = s.hbm ∧ (s.emits os).colls = s.colls ∧
    (s.emits os).nextColl = s.nextColl ∧ (s.emits os).gov = s.gov ∧ (s.emits os).bist = s.bist ∧ (s.emits os).uart = s.uart ∧
    (s.emits os).fw = s.fw ∧ (s.emits os).spdm = s.spdm ∧ (s.emits os).tap = s.tap ∧ (s.emits os).dones = s.dones ∧
    (s.emits os).dcsIn = s.dcsIn ∧ (s.emits os).heldReads = s.heldReads ∧ (s.emits os).freeCount = s.freeCount ∧
    (s.emits os).conns = s.conns ∧ (s.emits os).walkCache = s.walkCache ∧ (s.emits os).walks = s.walks ∧ (s.emits os).faultQ = s.faultQ ∧ (s.emits os).pending = s.pending := by
  have h := s.emits_rest os
  simp only [State.mk.injEq] at h
  simp only [h, and_self]

@[simp] theorem State.fld_emits (s : State) (os : List Output) (fd : Fld) (ob el : Nat) : (s.emits os).fld fd ob el = s.fld fd ob el := by
  simp [State.fld]

@[simp] theorem State.flag_emits (s : State) (os : List Output) (fd : Fld) (ob el : Nat) : (s.emits os).flag fd ob el = s.flag fd ob el := by
  simp [State.flag]

/-- Signalling a vector sends its message or sets its pending bit (R127). -/
theorem State.signal_rest (s : State) (fn vec : Nat) :
    ({ s.signal fn vec with msix := [], out := [], bw := [] } : State) = { s with msix := [], out := [], bw := [] } := by
  unfold State.signal
  dsimp only
  split
  · have h := s.emit_rest (.msix fn (vec % 2048))
    simp only [State.mk.injEq] at h ⊢
    simp only [h, and_self]
  · rfl

@[simp] theorem State.signal_frame (s : State) (fn vec : Nat) :
    (s.signal fn vec).fuses = s.fuses ∧ (s.signal fn vec).flds = s.flds ∧ (s.signal fn vec).dev = s.dev ∧ (s.signal fn vec).clk = s.clk ∧
    (s.signal fn vec).mem = s.mem ∧ (s.signal fn vec).apts = s.apts ∧ (s.signal fn vec).tlb = s.tlb ∧
    (s.signal fn vec).batches = s.batches ∧ (s.signal fn vec).invals = s.invals ∧
    (s.signal fn vec).acs = s.acs ∧ (s.signal fn vec).fns = s.fns ∧ (s.signal fn vec).links = s.links ∧ (s.signal fn vec).tags = s.tags ∧
    (s.signal fn vec).queues = s.queues ∧ (s.signal fn vec).ops = s.ops ∧ (s.signal fn vec).heldCpls = s.heldCpls ∧
    (s.signal fn vec).dcache = s.dcache ∧ (s.signal fn vec).qinval = s.qinval ∧ (s.signal fn vec).wins = s.wins ∧
    (s.signal fn vec).imports = s.imports ∧ (s.signal fn vec).ts = s.ts ∧ (s.signal fn vec).armed = s.armed ∧
    (s.signal fn vec).qps = s.qps ∧ (s.signal fn vec).pipes = s.pipes ∧ (s.signal fn vec).prot = s.prot ∧ (s.signal fn vec).vl = s.vl ∧
    (s.signal fn vec).en = s.en ∧ (s.signal fn vec).img = s.img ∧ (s.signal fn vec).cc = s.cc ∧ (s.signal fn vec).ten = s.ten ∧
    (s.signal fn vec).jnl = s.jnl ∧ (s.signal fn vec).blks = s.blks ∧ (s.signal fn vec).res = s.res ∧ (s.signal fn vec).hbm = s.hbm ∧
    (s.signal fn vec).colls = s.colls ∧ (s.signal fn vec).nextColl = s.nextColl ∧ (s.signal fn vec).gov = s.gov ∧
    (s.signal fn vec).bist = s.bist ∧ (s.signal fn vec).uart = s.uart ∧ (s.signal fn vec).fw = s.fw ∧ (s.signal fn vec).spdm = s.spdm ∧
    (s.signal fn vec).tap = s.tap ∧ (s.signal fn vec).dones = s.dones ∧ (s.signal fn vec).dcsIn = s.dcsIn ∧
    (s.signal fn vec).heldReads = s.heldReads ∧ (s.signal fn vec).freeCount = s.freeCount ∧ (s.signal fn vec).conns = s.conns ∧ (s.signal fn vec).walkCache = s.walkCache ∧ (s.signal fn vec).walks = s.walks ∧ (s.signal fn vec).faultQ = s.faultQ ∧ (s.signal fn vec).pending = s.pending := by
  have h := s.signal_rest fn vec
  simp only [State.mk.injEq] at h
  simp only [h, and_self]

@[simp] theorem State.fld_signal (s : State) (fn vec : Nat) (fd : Fld) (ob el : Nat) : (s.signal fn vec).fld fd ob el = s.fld fd ob el := by
  simp [State.fld]

@[simp] theorem State.flag_signal (s : State) (fn vec : Nat) (fd : Fld) (ob el : Nat) : (s.signal fn vec).flag fd ob el = s.flag fd ob el := by
  simp [State.flag]

/-- Capturing the position of a sequencer writes registers (R353). -/
theorem State.capture_rest (s : State) (b : Nat) :
    ({ s.capture b with flds := [] } : State) = { s with flds := [] } := by
  unfold State.capture
  split
  · rfl
  · dsimp only
    refine (foldl_keeps (fun t : State => ({ t with flds := [] } : State)) ?_ _ _).trans ?_
    · intro t i
      rfl
    · rfl

@[simp] theorem State.capture_frame (s : State) (b : Nat) :
    (s.capture b).fuses = s.fuses ∧ (s.capture b).dev = s.dev ∧ (s.capture b).clk = s.clk ∧ (s.capture b).mem = s.mem ∧
    (s.capture b).apts = s.apts ∧ (s.capture b).tlb = s.tlb ∧ (s.capture b).batches = s.batches ∧ (s.capture b).invals = s.invals ∧ (s.capture b).acs = s.acs ∧
    (s.capture b).fns = s.fns ∧ (s.capture b).links = s.links ∧ (s.capture b).tags = s.tags ∧ (s.capture b).msix = s.msix ∧
    (s.capture b).queues = s.queues ∧ (s.capture b).ops = s.ops ∧ (s.capture b).heldCpls = s.heldCpls ∧
    (s.capture b).dcache = s.dcache ∧ (s.capture b).qinval = s.qinval ∧ (s.capture b).wins = s.wins ∧
    (s.capture b).imports = s.imports ∧ (s.capture b).ts = s.ts ∧ (s.capture b).armed = s.armed ∧ (s.capture b).qps = s.qps ∧
    (s.capture b).pipes = s.pipes ∧ (s.capture b).prot = s.prot ∧ (s.capture b).vl = s.vl ∧ (s.capture b).en = s.en ∧
    (s.capture b).img = s.img ∧ (s.capture b).cc = s.cc ∧ (s.capture b).ten = s.ten ∧ (s.capture b).jnl = s.jnl ∧
    (s.capture b).blks = s.blks ∧ (s.capture b).res = s.res ∧ (s.capture b).hbm = s.hbm ∧ (s.capture b).colls = s.colls ∧
    (s.capture b).nextColl = s.nextColl ∧ (s.capture b).bw = s.bw ∧ (s.capture b).gov = s.gov ∧ (s.capture b).bist = s.bist ∧
    (s.capture b).uart = s.uart ∧ (s.capture b).fw = s.fw ∧ (s.capture b).spdm = s.spdm ∧ (s.capture b).tap = s.tap ∧
    (s.capture b).dones = s.dones ∧ (s.capture b).dcsIn = s.dcsIn ∧ (s.capture b).heldReads = s.heldReads ∧
    (s.capture b).out = s.out ∧ (s.capture b).freeCount = s.freeCount ∧ (s.capture b).conns = s.conns ∧ (s.capture b).walkCache = s.walkCache ∧ (s.capture b).walks = s.walks ∧ (s.capture b).faultQ = s.faultQ ∧ (s.capture b).pending = s.pending := by
  have h := s.capture_rest b
  simp only [State.mk.injEq] at h
  simp only [h, and_self]

/-- One event counter (R508, R509). -/
theorem State.countOne_rest (s : State) (fn ev idx n i : Nat) :
    ({ s.countOne fn ev idx n i with flds := [], msix := [], out := [], bw := [] } : State) = { s with flds := [], msix := [], out := [], bw := [] } := by
  unfold State.countOne
  dsimp only
  split
  · split
    · rfl
    · split
      · rfl
      · split <;> split <;> simp
  · rfl

@[simp] theorem State.countOne_frame (s : State) (fn ev idx n i : Nat) :
    (s.countOne fn ev idx n i).fuses = s.fuses ∧ (s.countOne fn ev idx n i).dev = s.dev ∧ (s.countOne fn ev idx n i).clk = s.clk ∧
    (s.countOne fn ev idx n i).mem = s.mem ∧ (s.countOne fn ev idx n i).apts = s.apts ∧ (s.countOne fn ev idx n i).tlb = s.tlb ∧
    (s.countOne fn ev idx n i).batches = s.batches ∧
    (s.countOne fn ev idx n i).invals = s.invals ∧ (s.countOne fn ev idx n i).acs = s.acs ∧ (s.countOne fn ev idx n i).fns = s.fns ∧
    (s.countOne fn ev idx n i).links = s.links ∧ (s.countOne fn ev idx n i).tags = s.tags ∧ (s.countOne fn ev idx n i).queues = s.queues ∧
    (s.countOne fn ev idx n i).ops = s.ops ∧ (s.countOne fn ev idx n i).heldCpls = s.heldCpls ∧
    (s.countOne fn ev idx n i).dcache = s.dcache ∧ (s.countOne fn ev idx n i).qinval = s.qinval ∧
    (s.countOne fn ev idx n i).wins = s.wins ∧ (s.countOne fn ev idx n i).imports = s.imports ∧ (s.countOne fn ev idx n i).ts = s.ts ∧
    (s.countOne fn ev idx n i).armed = s.armed ∧ (s.countOne fn ev idx n i).qps = s.qps ∧ (s.countOne fn ev idx n i).pipes = s.pipes ∧
    (s.countOne fn ev idx n i).prot = s.prot ∧ (s.countOne fn ev idx n i).vl = s.vl ∧ (s.countOne fn ev idx n i).en = s.en ∧
    (s.countOne fn ev idx n i).img = s.img ∧ (s.countOne fn ev idx n i).cc = s.cc ∧ (s.countOne fn ev idx n i).ten = s.ten ∧
    (s.countOne fn ev idx n i).jnl = s.jnl ∧ (s.countOne fn ev idx n i).blks = s.blks ∧ (s.countOne fn ev idx n i).res = s.res ∧
    (s.countOne fn ev idx n i).hbm = s.hbm ∧ (s.countOne fn ev idx n i).colls = s.colls ∧
    (s.countOne fn ev idx n i).nextColl = s.nextColl ∧ (s.countOne fn ev idx n i).gov = s.gov ∧ (s.countOne fn ev idx n i).bist = s.bist ∧
    (s.countOne fn ev idx n i).uart = s.uart ∧ (s.countOne fn ev idx n i).fw = s.fw ∧ (s.countOne fn ev idx n i).spdm = s.spdm ∧
    (s.countOne fn ev idx n i).tap = s.tap ∧ (s.countOne fn ev idx n i).dones = s.dones ∧ (s.countOne fn ev idx n i).dcsIn = s.dcsIn ∧
    (s.countOne fn ev idx n i).heldReads = s.heldReads ∧ (s.countOne fn ev idx n i).freeCount = s.freeCount ∧
    (s.countOne fn ev idx n i).conns = s.conns ∧ (s.countOne fn ev idx n i).walkCache = s.walkCache ∧ (s.countOne fn ev idx n i).walks = s.walks ∧ (s.countOne fn ev idx n i).faultQ = s.faultQ ∧ (s.countOne fn ev idx n i).pending = s.pending := by
  have h := s.countOne_rest fn ev idx n i
  simp only [State.mk.injEq] at h
  simp only [h, and_self]

/-- Counting events writes counters and may signal a vector (R508, R509). -/
theorem State.count_rest (s : State) (fn ev idx n : Nat) :
    ({ s.count fn ev idx n with flds := [], msix := [], out := [], bw := [] } : State) = { s with flds := [], msix := [], out := [], bw := [] } := by
  unfold State.count
  split
  · rfl
  · exact foldl_keeps (fun t : State => ({ t with flds := [], msix := [], out := [], bw := [] } : State)) (fun t i => State.countOne_rest t fn ev idx n i) _ s

@[simp] theorem State.count_frame (s : State) (fn ev idx n : Nat) :
    (s.count fn ev idx n).fuses = s.fuses ∧ (s.count fn ev idx n).dev = s.dev ∧ (s.count fn ev idx n).clk = s.clk ∧
    (s.count fn ev idx n).mem = s.mem ∧ (s.count fn ev idx n).apts = s.apts ∧ (s.count fn ev idx n).tlb = s.tlb ∧
    (s.count fn ev idx n).batches = s.batches ∧
    (s.count fn ev idx n).invals = s.invals ∧ (s.count fn ev idx n).acs = s.acs ∧ (s.count fn ev idx n).fns = s.fns ∧
    (s.count fn ev idx n).links = s.links ∧ (s.count fn ev idx n).tags = s.tags ∧ (s.count fn ev idx n).queues = s.queues ∧
    (s.count fn ev idx n).ops = s.ops ∧ (s.count fn ev idx n).heldCpls = s.heldCpls ∧ (s.count fn ev idx n).dcache = s.dcache ∧
    (s.count fn ev idx n).qinval = s.qinval ∧ (s.count fn ev idx n).wins = s.wins ∧ (s.count fn ev idx n).imports = s.imports ∧
    (s.count fn ev idx n).ts = s.ts ∧ (s.count fn ev idx n).armed = s.armed ∧ (s.count fn ev idx n).qps = s.qps ∧
    (s.count fn ev idx n).pipes = s.pipes ∧ (s.count fn ev idx n).prot = s.prot ∧ (s.count fn ev idx n).vl = s.vl ∧
    (s.count fn ev idx n).en = s.en ∧ (s.count fn ev idx n).img = s.img ∧ (s.count fn ev idx n).cc = s.cc ∧
    (s.count fn ev idx n).ten = s.ten ∧ (s.count fn ev idx n).jnl = s.jnl ∧ (s.count fn ev idx n).blks = s.blks ∧
    (s.count fn ev idx n).res = s.res ∧ (s.count fn ev idx n).hbm = s.hbm ∧ (s.count fn ev idx n).colls = s.colls ∧
    (s.count fn ev idx n).nextColl = s.nextColl ∧ (s.count fn ev idx n).gov = s.gov ∧ (s.count fn ev idx n).bist = s.bist ∧
    (s.count fn ev idx n).uart = s.uart ∧ (s.count fn ev idx n).fw = s.fw ∧ (s.count fn ev idx n).spdm = s.spdm ∧
    (s.count fn ev idx n).tap = s.tap ∧ (s.count fn ev idx n).dones = s.dones ∧ (s.count fn ev idx n).dcsIn = s.dcsIn ∧
    (s.count fn ev idx n).heldReads = s.heldReads ∧ (s.count fn ev idx n).freeCount = s.freeCount ∧
    (s.count fn ev idx n).conns = s.conns ∧ (s.count fn ev idx n).walkCache = s.walkCache ∧ (s.count fn ev idx n).walks = s.walks ∧ (s.count fn ev idx n).faultQ = s.faultQ ∧ (s.count fn ev idx n).pending = s.pending := by
  have h := s.count_rest fn ev idx n
  simp only [State.mk.injEq] at h
  simp only [h, and_self]

/-- Counting lines of HBM (Table 20.10). -/
theorem State.countLines_rest (s : State) (ev off len : Nat) :
    ({ s.countLines ev off len with flds := [], msix := [], out := [], bw := [] } : State) = { s with flds := [], msix := [], out := [], bw := [] } := by
  unfold State.countLines
  split
  · rfl
  · apply foldl_keeps (fun t : State => ({ t with flds := [], msix := [], out := [], bw := [] } : State))
    intro t i
    dsimp only
    split
    · exact State.count_rest t _ _ _ _
    · rfl

@[simp] theorem State.countLines_frame (s : State) (ev off len : Nat) :
    (s.countLines ev off len).fuses = s.fuses ∧ (s.countLines ev off len).dev = s.dev ∧ (s.countLines ev off len).clk = s.clk ∧
    (s.countLines ev off len).mem = s.mem ∧ (s.countLines ev off len).apts = s.apts ∧ (s.countLines ev off len).tlb = s.tlb ∧
    (s.countLines ev off len).batches = s.batches ∧
    (s.countLines ev off len).invals = s.invals ∧ (s.countLines ev off len).acs = s.acs ∧ (s.countLines ev off len).fns = s.fns ∧
    (s.countLines ev off len).links = s.links ∧ (s.countLines ev off len).tags = s.tags ∧ (s.countLines ev off len).queues = s.queues ∧
    (s.countLines ev off len).ops = s.ops ∧ (s.countLines ev off len).heldCpls = s.heldCpls ∧
    (s.countLines ev off len).dcache = s.dcache ∧ (s.countLines ev off len).qinval = s.qinval ∧ (s.countLines ev off len).wins = s.wins ∧
    (s.countLines ev off len).imports = s.imports ∧ (s.countLines ev off len).ts = s.ts ∧ (s.countLines ev off len).armed = s.armed ∧
    (s.countLines ev off len).qps = s.qps ∧ (s.countLines ev off len).pipes = s.pipes ∧ (s.countLines ev off len).prot = s.prot ∧
    (s.countLines ev off len).vl = s.vl ∧ (s.countLines ev off len).en = s.en ∧ (s.countLines ev off len).img = s.img ∧
    (s.countLines ev off len).cc = s.cc ∧ (s.countLines ev off len).ten = s.ten ∧ (s.countLines ev off len).jnl = s.jnl ∧
    (s.countLines ev off len).blks = s.blks ∧ (s.countLines ev off len).res = s.res ∧ (s.countLines ev off len).hbm = s.hbm ∧
    (s.countLines ev off len).colls = s.colls ∧ (s.countLines ev off len).nextColl = s.nextColl ∧ (s.countLines ev off len).gov = s.gov ∧
    (s.countLines ev off len).bist = s.bist ∧ (s.countLines ev off len).uart = s.uart ∧ (s.countLines ev off len).fw = s.fw ∧
    (s.countLines ev off len).spdm = s.spdm ∧ (s.countLines ev off len).tap = s.tap ∧ (s.countLines ev off len).dones = s.dones ∧
    (s.countLines ev off len).dcsIn = s.dcsIn ∧ (s.countLines ev off len).heldReads = s.heldReads ∧
    (s.countLines ev off len).freeCount = s.freeCount ∧ (s.countLines ev off len).conns = s.conns ∧ (s.countLines ev off len).walkCache = s.walkCache ∧ (s.countLines ev off len).walks = s.walks ∧ (s.countLines ev off len).faultQ = s.faultQ ∧ (s.countLines ev off len).pending = s.pending := by
  have h := s.countLines_rest ev off len
  simp only [State.mk.injEq] at h
  simp only [h, and_self]

/-- Marking dirty pages writes HBM alone (R436). -/
theorem State.markDirty_rest (s : State) (off len : Nat) :
    ({ s.markDirty off len with mem := [] } : State) = { s with mem := [] } := by
  unfold State.markDirty
  split
  · rfl
  · apply foldl_keeps (fun t : State => ({ t with mem := [] } : State))
    intro t i
    dsimp only
    split
    · rfl
    · split
      · split <;> split <;> rfl
      · rfl

@[simp] theorem State.markDirty_frame (s : State) (off len : Nat) :
    (s.markDirty off len).fuses = s.fuses ∧ (s.markDirty off len).flds = s.flds ∧ (s.markDirty off len).dev = s.dev ∧
    (s.markDirty off len).clk = s.clk ∧ (s.markDirty off len).apts = s.apts ∧ (s.markDirty off len).tlb = s.tlb ∧
    (s.markDirty off len).batches = s.batches ∧
    (s.markDirty off len).invals = s.invals ∧ (s.markDirty off len).acs = s.acs ∧ (s.markDirty off len).fns = s.fns ∧
    (s.markDirty off len).links = s.links ∧ (s.markDirty off len).tags = s.tags ∧ (s.markDirty off len).msix = s.msix ∧
    (s.markDirty off len).queues = s.queues ∧ (s.markDirty off len).ops = s.ops ∧ (s.markDirty off len).heldCpls = s.heldCpls ∧
    (s.markDirty off len).dcache = s.dcache ∧ (s.markDirty off len).qinval = s.qinval ∧ (s.markDirty off len).wins = s.wins ∧
    (s.markDirty off len).imports = s.imports ∧ (s.markDirty off len).ts = s.ts ∧ (s.markDirty off len).armed = s.armed ∧
    (s.markDirty off len).qps = s.qps ∧ (s.markDirty off len).pipes = s.pipes ∧ (s.markDirty off len).prot = s.prot ∧
    (s.markDirty off len).vl = s.vl ∧ (s.markDirty off len).en = s.en ∧ (s.markDirty off len).img = s.img ∧
    (s.markDirty off len).cc = s.cc ∧ (s.markDirty off len).ten = s.ten ∧ (s.markDirty off len).jnl = s.jnl ∧
    (s.markDirty off len).blks = s.blks ∧ (s.markDirty off len).res = s.res ∧ (s.markDirty off len).hbm = s.hbm ∧
    (s.markDirty off len).colls = s.colls ∧ (s.markDirty off len).nextColl = s.nextColl ∧ (s.markDirty off len).bw = s.bw ∧
    (s.markDirty off len).gov = s.gov ∧ (s.markDirty off len).bist = s.bist ∧ (s.markDirty off len).uart = s.uart ∧
    (s.markDirty off len).fw = s.fw ∧ (s.markDirty off len).spdm = s.spdm ∧ (s.markDirty off len).tap = s.tap ∧
    (s.markDirty off len).dones = s.dones ∧ (s.markDirty off len).dcsIn = s.dcsIn ∧ (s.markDirty off len).heldReads = s.heldReads ∧
    (s.markDirty off len).out = s.out ∧ (s.markDirty off len).freeCount = s.freeCount ∧ (s.markDirty off len).conns = s.conns ∧ (s.markDirty off len).walkCache = s.walkCache ∧ (s.markDirty off len).walks = s.walks ∧ (s.markDirty off len).faultQ = s.faultQ ∧ (s.markDirty off len).pending = s.pending := by
  have h := s.markDirty_rest off len
  simp only [State.mk.injEq] at h
  simp only [h, and_self]

@[simp] theorem State.fld_markDirty (s : State) (off len : Nat) (fd : Fld) (ob el : Nat) : (s.markDirty off len).fld fd ob el = s.fld fd ob el := by
  simp [State.fld]

@[simp] theorem State.flag_markDirty (s : State) (off len : Nat) (fd : Fld) (ob el : Nat) : (s.markDirty off len).flag fd ob el = s.flag fd ob el := by
  simp [State.flag]

/-- Poisoned lines are in the HBM tables alone (R393). -/
theorem State.unpoison_rest (s : State) (off len : Nat) :
    ({ s.unpoison off len with hbm := [] } : State) = { s with hbm := [] } := by
  rfl

@[simp] theorem State.unpoison_frame (s : State) (off len : Nat) :
    (s.unpoison off len).fuses = s.fuses ∧ (s.unpoison off len).flds = s.flds ∧ (s.unpoison off len).dev = s.dev ∧
    (s.unpoison off len).clk = s.clk ∧ (s.unpoison off len).mem = s.mem ∧ (s.unpoison off len).apts = s.apts ∧
    (s.unpoison off len).tlb = s.tlb ∧ (s.unpoison off len).batches = s.batches ∧
    (s.unpoison off len).invals = s.invals ∧ (s.unpoison off len).acs = s.acs ∧ (s.unpoison off len).fns = s.fns ∧
    (s.unpoison off len).links = s.links ∧ (s.unpoison off len).tags = s.tags ∧ (s.unpoison off len).msix = s.msix ∧
    (s.unpoison off len).queues = s.queues ∧ (s.unpoison off len).ops = s.ops ∧ (s.unpoison off len).heldCpls = s.heldCpls ∧
    (s.unpoison off len).dcache = s.dcache ∧ (s.unpoison off len).qinval = s.qinval ∧ (s.unpoison off len).wins = s.wins ∧
    (s.unpoison off len).imports = s.imports ∧ (s.unpoison off len).ts = s.ts ∧ (s.unpoison off len).armed = s.armed ∧
    (s.unpoison off len).qps = s.qps ∧ (s.unpoison off len).pipes = s.pipes ∧ (s.unpoison off len).prot = s.prot ∧
    (s.unpoison off len).vl = s.vl ∧ (s.unpoison off len).en = s.en ∧ (s.unpoison off len).img = s.img ∧ (s.unpoison off len).cc = s.cc ∧
    (s.unpoison off len).ten = s.ten ∧ (s.unpoison off len).jnl = s.jnl ∧ (s.unpoison off len).blks = s.blks ∧
    (s.unpoison off len).res = s.res ∧ (s.unpoison off len).colls = s.colls ∧ (s.unpoison off len).nextColl = s.nextColl ∧
    (s.unpoison off len).bw = s.bw ∧ (s.unpoison off len).gov = s.gov ∧ (s.unpoison off len).bist = s.bist ∧
    (s.unpoison off len).uart = s.uart ∧ (s.unpoison off len).fw = s.fw ∧ (s.unpoison off len).spdm = s.spdm ∧
    (s.unpoison off len).tap = s.tap ∧ (s.unpoison off len).dones = s.dones ∧ (s.unpoison off len).dcsIn = s.dcsIn ∧
    (s.unpoison off len).heldReads = s.heldReads ∧ (s.unpoison off len).out = s.out ∧ (s.unpoison off len).freeCount = s.freeCount ∧
    (s.unpoison off len).conns = s.conns ∧ (s.unpoison off len).walkCache = s.walkCache ∧ (s.unpoison off len).walks = s.walks ∧ (s.unpoison off len).faultQ = s.faultQ ∧ (s.unpoison off len).pending = s.pending := by
  have h := s.unpoison_rest off len
  simp only [State.mk.injEq] at h
  simp only [h, and_self]

@[simp] theorem State.fld_unpoison (s : State) (off len : Nat) (fd : Fld) (ob el : Nat) : (s.unpoison off len).fld fd ob el = s.fld fd ob el := by
  simp [State.fld]

@[simp] theorem State.flag_unpoison (s : State) (off len : Nat) (fd : Fld) (ob el : Nat) : (s.unpoison off len).flag fd ob el = s.flag fd ob el := by
  simp [State.flag]

/-- Counting the merges of a write writes the counters of HBM alone. -/
theorem State.countMerges_rest (s : State) (l : List Nat) :
    ({ l.foldl (fun (t : State) a => t.countSat F.hbmAtomOps (stackOf a)) s with flds := [] } : State) = { s with flds := [] } := by
  apply foldl_keeps (fun t : State => ({ t with flds := [] } : State))
  intro t a
  rfl

/-- A write to HBM changes memory, its poison tables, counters, and what counters signal (R389, R393, R436). -/
theorem State.hbmPut_rest (s : State) (off : Nat) (bs : List Byte) :
    ({ s.hbmPut off bs with mem := [], hbm := [], flds := [], msix := [], out := [], bw := [] } : State) = { s with mem := [], hbm := [], flds := [], msix := [], out := [], bw := [] } := by
  have h := fun (t : State) l => t.countMerges_rest l
  simp only [State.mk.injEq] at h
  unfold State.hbmPut
  simp [h]

/-- A write leaves out ranges, and writes each part that is left. -/
theorem State.hbmWriteBut_rest (s : State) (skip : List (Nat × Nat)) (off : Nat) (bs : List Byte) :
    ({ s.hbmWriteBut skip off bs with mem := [], hbm := [], flds := [], msix := [], out := [], bw := [] } : State) = { s with mem := [], hbm := [], flds := [], msix := [], out := [], bw := [] } := by
  unfold State.hbmWriteBut
  exact foldl_keeps (fun t : State => ({ t with mem := [], hbm := [], flds := [], msix := [], out := [], bw := [] } : State))
    (fun t r => State.hbmPut_rest t r.1 _) _ s

theorem State.hbmWrite_rest (s : State) (off : Nat) (bs : List Byte) :
    ({ s.hbmWrite off bs with mem := [], hbm := [], flds := [], msix := [], out := [], bw := [] } : State) = { s with mem := [], hbm := [], flds := [], msix := [], out := [], bw := [] } :=
  s.hbmWriteBut_rest _ off bs

@[simp] theorem State.hbmWrite_frame (s : State) (off : Nat) (bs : List Byte) :
    (s.hbmWrite off bs).fuses = s.fuses ∧ (s.hbmWrite off bs).dev = s.dev ∧ (s.hbmWrite off bs).clk = s.clk ∧
    (s.hbmWrite off bs).apts = s.apts ∧ (s.hbmWrite off bs).tlb = s.tlb ∧ (s.hbmWrite off bs).batches = s.batches ∧ (s.hbmWrite off bs).invals = s.invals ∧ (s.hbmWrite off bs).acs = s.acs ∧
    (s.hbmWrite off bs).fns = s.fns ∧ (s.hbmWrite off bs).links = s.links ∧ (s.hbmWrite off bs).tags = s.tags ∧
    (s.hbmWrite off bs).queues = s.queues ∧ (s.hbmWrite off bs).ops = s.ops ∧ (s.hbmWrite off bs).heldCpls = s.heldCpls ∧
    (s.hbmWrite off bs).dcache = s.dcache ∧ (s.hbmWrite off bs).qinval = s.qinval ∧ (s.hbmWrite off bs).wins = s.wins ∧
    (s.hbmWrite off bs).imports = s.imports ∧ (s.hbmWrite off bs).ts = s.ts ∧ (s.hbmWrite off bs).armed = s.armed ∧
    (s.hbmWrite off bs).qps = s.qps ∧ (s.hbmWrite off bs).pipes = s.pipes ∧ (s.hbmWrite off bs).prot = s.prot ∧
    (s.hbmWrite off bs).vl = s.vl ∧ (s.hbmWrite off bs).en = s.en ∧ (s.hbmWrite off bs).img = s.img ∧ (s.hbmWrite off bs).cc = s.cc ∧
    (s.hbmWrite off bs).ten = s.ten ∧ (s.hbmWrite off bs).jnl = s.jnl ∧ (s.hbmWrite off bs).blks = s.blks ∧
    (s.hbmWrite off bs).res = s.res ∧ (s.hbmWrite off bs).colls = s.colls ∧ (s.hbmWrite off bs).nextColl = s.nextColl ∧
    (s.hbmWrite off bs).gov = s.gov ∧ (s.hbmWrite off bs).bist = s.bist ∧ (s.hbmWrite off bs).uart = s.uart ∧
    (s.hbmWrite off bs).fw = s.fw ∧ (s.hbmWrite off bs).spdm = s.spdm ∧ (s.hbmWrite off bs).tap = s.tap ∧
    (s.hbmWrite off bs).dones = s.dones ∧ (s.hbmWrite off bs).dcsIn = s.dcsIn ∧ (s.hbmWrite off bs).heldReads = s.heldReads ∧
    (s.hbmWrite off bs).freeCount = s.freeCount ∧ (s.hbmWrite off bs).conns = s.conns ∧ (s.hbmWrite off bs).walkCache = s.walkCache ∧ (s.hbmWrite off bs).walks = s.walks ∧ (s.hbmWrite off bs).faultQ = s.faultQ ∧ (s.hbmWrite off bs).pending = s.pending := by
  have h := s.hbmWrite_rest off bs
  simp only [State.mk.injEq] at h
  simp only [h, and_self]

/-- A message to a REQ ring is written to HBM, moves the ring and signals the manager (R431). -/
theorem State.postReq_rest (s : State) (fn : Nat) (k : Kiosk) (msg : Bool → List Byte) :
    ({ s.postReq fn k msg with mem := [], hbm := [], flds := [], msix := [], out := [], bw := [], ten := {} } : State) = { s with mem := [], hbm := [], flds := [], msix := [], out := [], bw := [], ten := {} } := by
  unfold State.postReq
  dsimp only
  split <;> simp

@[simp] theorem State.postReq_frame (s : State) (fn : Nat) (k : Kiosk) (msg : Bool → List Byte) :
    (s.postReq fn k msg).fuses = s.fuses ∧ (s.postReq fn k msg).dev = s.dev ∧ (s.postReq fn k msg).clk = s.clk ∧
    (s.postReq fn k msg).apts = s.apts ∧ (s.postReq fn k msg).tlb = s.tlb ∧ (s.postReq fn k msg).batches = s.batches ∧ (s.postReq fn k msg).invals = s.invals ∧ (s.postReq fn k msg).acs = s.acs ∧
    (s.postReq fn k msg).fns = s.fns ∧ (s.postReq fn k msg).links = s.links ∧ (s.postReq fn k msg).tags = s.tags ∧
    (s.postReq fn k msg).queues = s.queues ∧ (s.postReq fn k msg).ops = s.ops ∧ (s.postReq fn k msg).heldCpls = s.heldCpls ∧
    (s.postReq fn k msg).dcache = s.dcache ∧ (s.postReq fn k msg).qinval = s.qinval ∧ (s.postReq fn k msg).wins = s.wins ∧
    (s.postReq fn k msg).imports = s.imports ∧ (s.postReq fn k msg).ts = s.ts ∧ (s.postReq fn k msg).armed = s.armed ∧
    (s.postReq fn k msg).qps = s.qps ∧ (s.postReq fn k msg).pipes = s.pipes ∧ (s.postReq fn k msg).prot = s.prot ∧
    (s.postReq fn k msg).vl = s.vl ∧ (s.postReq fn k msg).en = s.en ∧ (s.postReq fn k msg).img = s.img ∧ (s.postReq fn k msg).cc = s.cc ∧
    (s.postReq fn k msg).jnl = s.jnl ∧ (s.postReq fn k msg).blks = s.blks ∧ (s.postReq fn k msg).res = s.res ∧
    (s.postReq fn k msg).colls = s.colls ∧ (s.postReq fn k msg).nextColl = s.nextColl ∧ (s.postReq fn k msg).gov = s.gov ∧
    (s.postReq fn k msg).bist = s.bist ∧ (s.postReq fn k msg).uart = s.uart ∧ (s.postReq fn k msg).fw = s.fw ∧
    (s.postReq fn k msg).spdm = s.spdm ∧ (s.postReq fn k msg).tap = s.tap ∧ (s.postReq fn k msg).dones = s.dones ∧
    (s.postReq fn k msg).dcsIn = s.dcsIn ∧ (s.postReq fn k msg).heldReads = s.heldReads ∧ (s.postReq fn k msg).freeCount = s.freeCount ∧
    (s.postReq fn k msg).conns = s.conns ∧ (s.postReq fn k msg).walkCache = s.walkCache ∧ (s.postReq fn k msg).walks = s.walks ∧ (s.postReq fn k msg).faultQ = s.faultQ ∧ (s.postReq fn k msg).pending = s.pending := by
  have h := s.postReq_rest fn k msg
  simp only [State.mk.injEq] at h
  simp only [h, and_self]

/-- A notice without room is counted (R433). -/
theorem State.loseNotice_rest (s : State)  :
    ({ s.loseNotice  with ten := {}, flds := [] } : State) = { s with ten := {}, flds := [] } := by
  rfl

@[simp] theorem State.loseNotice_frame (s : State)  :
    (s.loseNotice ).fuses = s.fuses ∧ (s.loseNotice ).dev = s.dev ∧ (s.loseNotice ).clk = s.clk ∧ (s.loseNotice ).mem = s.mem ∧
    (s.loseNotice ).apts = s.apts ∧ (s.loseNotice ).tlb = s.tlb ∧ (s.loseNotice ).batches = s.batches ∧ (s.loseNotice ).invals = s.invals ∧ (s.loseNotice ).acs = s.acs ∧ (s.loseNotice ).fns = s.fns ∧
    (s.loseNotice ).links = s.links ∧ (s.loseNotice ).tags = s.tags ∧ (s.loseNotice ).msix = s.msix ∧ (s.loseNotice ).queues = s.queues ∧
    (s.loseNotice ).ops = s.ops ∧ (s.loseNotice ).heldCpls = s.heldCpls ∧ (s.loseNotice ).dcache = s.dcache ∧
    (s.loseNotice ).qinval = s.qinval ∧ (s.loseNotice ).wins = s.wins ∧ (s.loseNotice ).imports = s.imports ∧ (s.loseNotice ).ts = s.ts ∧
    (s.loseNotice ).armed = s.armed ∧ (s.loseNotice ).qps = s.qps ∧ (s.loseNotice ).pipes = s.pipes ∧ (s.loseNotice ).prot = s.prot ∧
    (s.loseNotice ).vl = s.vl ∧ (s.loseNotice ).en = s.en ∧ (s.loseNotice ).img = s.img ∧ (s.loseNotice ).cc = s.cc ∧
    (s.loseNotice ).jnl = s.jnl ∧ (s.loseNotice ).blks = s.blks ∧ (s.loseNotice ).res = s.res ∧ (s.loseNotice ).hbm = s.hbm ∧
    (s.loseNotice ).colls = s.colls ∧ (s.loseNotice ).nextColl = s.nextColl ∧ (s.loseNotice ).bw = s.bw ∧ (s.loseNotice ).gov = s.gov ∧
    (s.loseNotice ).bist = s.bist ∧ (s.loseNotice ).uart = s.uart ∧ (s.loseNotice ).fw = s.fw ∧ (s.loseNotice ).spdm = s.spdm ∧
    (s.loseNotice ).tap = s.tap ∧ (s.loseNotice ).dones = s.dones ∧ (s.loseNotice ).dcsIn = s.dcsIn ∧
    (s.loseNotice ).heldReads = s.heldReads ∧ (s.loseNotice ).out = s.out ∧ (s.loseNotice ).freeCount = s.freeCount ∧
    (s.loseNotice ).conns = s.conns ∧ (s.loseNotice ).walkCache = s.walkCache ∧ (s.loseNotice ).walks = s.walks ∧ (s.loseNotice ).faultQ = s.faultQ ∧ (s.loseNotice ).pending = s.pending := by
  have h := s.loseNotice_rest 
  simp only [State.mk.injEq] at h
  simp only [h, and_self]

/-- A device notice (R433). -/
theorem State.notify_rest (s : State) (x : Notice) :
    ({ s.notify x with mem := [], hbm := [], flds := [], msix := [], out := [], bw := [], ten := {} } : State) = { s with mem := [], hbm := [], flds := [], msix := [], out := [], bw := [], ten := {} } := by
  unfold State.notify
  split
  · rfl
  · split
    · rfl
    · dsimp only
      repeat' split
      all_goals first | rfl | simp

@[simp] theorem State.notify_frame (s : State) (x : Notice) :
    (s.notify x).fuses = s.fuses ∧ (s.notify x).dev = s.dev ∧ (s.notify x).clk = s.clk ∧ (s.notify x).apts = s.apts ∧
    (s.notify x).tlb = s.tlb ∧ (s.notify x).batches = s.batches ∧
    (s.notify x).invals = s.invals ∧ (s.notify x).acs = s.acs ∧ (s.notify x).fns = s.fns ∧ (s.notify x).links = s.links ∧
    (s.notify x).tags = s.tags ∧ (s.notify x).queues = s.queues ∧ (s.notify x).ops = s.ops ∧ (s.notify x).heldCpls = s.heldCpls ∧
    (s.notify x).dcache = s.dcache ∧ (s.notify x).qinval = s.qinval ∧ (s.notify x).wins = s.wins ∧ (s.notify x).imports = s.imports ∧
    (s.notify x).ts = s.ts ∧ (s.notify x).armed = s.armed ∧ (s.notify x).qps = s.qps ∧ (s.notify x).pipes = s.pipes ∧
    (s.notify x).prot = s.prot ∧ (s.notify x).vl = s.vl ∧ (s.notify x).en = s.en ∧ (s.notify x).img = s.img ∧ (s.notify x).cc = s.cc ∧
    (s.notify x).jnl = s.jnl ∧ (s.notify x).blks = s.blks ∧ (s.notify x).res = s.res ∧ (s.notify x).colls = s.colls ∧
    (s.notify x).nextColl = s.nextColl ∧ (s.notify x).gov = s.gov ∧ (s.notify x).bist = s.bist ∧ (s.notify x).uart = s.uart ∧
    (s.notify x).fw = s.fw ∧ (s.notify x).spdm = s.spdm ∧ (s.notify x).tap = s.tap ∧ (s.notify x).dones = s.dones ∧
    (s.notify x).dcsIn = s.dcsIn ∧ (s.notify x).heldReads = s.heldReads ∧ (s.notify x).freeCount = s.freeCount ∧
    (s.notify x).conns = s.conns ∧ (s.notify x).walkCache = s.walkCache ∧ (s.notify x).walks = s.walks ∧ (s.notify x).faultQ = s.faultQ ∧ (s.notify x).pending = s.pending := by
  have h := s.notify_rest x
  simp only [State.mk.injEq] at h
  simp only [h, and_self]

/-- Entering FAULT writes the state of the device, the cause and a pin (R455). -/
theorem State.enterFault_rest (s : State) (cause : Nat) :
    ({ s.enterFault cause with dev := {}, flds := [], out := [], bw := [] } : State) = { s with dev := {}, flds := [], out := [], bw := [] } := by
  unfold State.enterFault
  split <;> simp

@[simp] theorem State.enterFault_frame (s : State) (cause : Nat) :
    (s.enterFault cause).fuses = s.fuses ∧ (s.enterFault cause).clk = s.clk ∧ (s.enterFault cause).mem = s.mem ∧
    (s.enterFault cause).apts = s.apts ∧ (s.enterFault cause).tlb = s.tlb ∧ (s.enterFault cause).batches = s.batches ∧ (s.enterFault cause).invals = s.invals ∧ (s.enterFault cause).acs = s.acs ∧
    (s.enterFault cause).fns = s.fns ∧ (s.enterFault cause).links = s.links ∧ (s.enterFault cause).tags = s.tags ∧
    (s.enterFault cause).msix = s.msix ∧ (s.enterFault cause).queues = s.queues ∧ (s.enterFault cause).ops = s.ops ∧
    (s.enterFault cause).heldCpls = s.heldCpls ∧ (s.enterFault cause).dcache = s.dcache ∧ (s.enterFault cause).qinval = s.qinval ∧
    (s.enterFault cause).wins = s.wins ∧ (s.enterFault cause).imports = s.imports ∧ (s.enterFault cause).ts = s.ts ∧
    (s.enterFault cause).armed = s.armed ∧ (s.enterFault cause).qps = s.qps ∧ (s.enterFault cause).pipes = s.pipes ∧
    (s.enterFault cause).prot = s.prot ∧ (s.enterFault cause).vl = s.vl ∧ (s.enterFault cause).en = s.en ∧
    (s.enterFault cause).img = s.img ∧ (s.enterFault cause).cc = s.cc ∧ (s.enterFault cause).ten = s.ten ∧
    (s.enterFault cause).jnl = s.jnl ∧ (s.enterFault cause).blks = s.blks ∧ (s.enterFault cause).res = s.res ∧
    (s.enterFault cause).hbm = s.hbm ∧ (s.enterFault cause).colls = s.colls ∧ (s.enterFault cause).nextColl = s.nextColl ∧
    (s.enterFault cause).gov = s.gov ∧ (s.enterFault cause).bist = s.bist ∧ (s.enterFault cause).uart = s.uart ∧
    (s.enterFault cause).fw = s.fw ∧ (s.enterFault cause).spdm = s.spdm ∧ (s.enterFault cause).tap = s.tap ∧
    (s.enterFault cause).dones = s.dones ∧ (s.enterFault cause).dcsIn = s.dcsIn ∧ (s.enterFault cause).heldReads = s.heldReads ∧
    (s.enterFault cause).freeCount = s.freeCount ∧ (s.enterFault cause).conns = s.conns ∧ (s.enterFault cause).walkCache = s.walkCache ∧ (s.enterFault cause).walks = s.walks ∧ (s.enterFault cause).faultQ = s.faultQ ∧ (s.enterFault cause).pending = s.pending := by
  have h := s.enterFault_rest cause
  simp only [State.mk.injEq] at h
  simp only [h, and_self]

/-- Freeing a Journal record. -/
theorem State.freeJrec_rest (s : State) (i : Option Nat) :
    ({ s.freeJrec i with jnl := [] } : State) = { s with jnl := [] } := by
  unfold State.freeJrec
  split <;> rfl

@[simp] theorem State.freeJrec_frame (s : State) (i : Option Nat) :
    (s.freeJrec i).fuses = s.fuses ∧ (s.freeJrec i).flds = s.flds ∧ (s.freeJrec i).dev = s.dev ∧ (s.freeJrec i).clk = s.clk ∧
    (s.freeJrec i).mem = s.mem ∧ (s.freeJrec i).apts = s.apts ∧ (s.freeJrec i).tlb = s.tlb ∧ (s.freeJrec i).batches = s.batches ∧ (s.freeJrec i).invals = s.invals ∧ (s.freeJrec i).acs = s.acs ∧ (s.freeJrec i).fns = s.fns ∧
    (s.freeJrec i).links = s.links ∧ (s.freeJrec i).tags = s.tags ∧ (s.freeJrec i).msix = s.msix ∧ (s.freeJrec i).queues = s.queues ∧
    (s.freeJrec i).ops = s.ops ∧ (s.freeJrec i).heldCpls = s.heldCpls ∧ (s.freeJrec i).dcache = s.dcache ∧
    (s.freeJrec i).qinval = s.qinval ∧ (s.freeJrec i).wins = s.wins ∧ (s.freeJrec i).imports = s.imports ∧ (s.freeJrec i).ts = s.ts ∧
    (s.freeJrec i).armed = s.armed ∧ (s.freeJrec i).qps = s.qps ∧ (s.freeJrec i).pipes = s.pipes ∧ (s.freeJrec i).prot = s.prot ∧
    (s.freeJrec i).vl = s.vl ∧ (s.freeJrec i).en = s.en ∧ (s.freeJrec i).img = s.img ∧ (s.freeJrec i).cc = s.cc ∧
    (s.freeJrec i).ten = s.ten ∧ (s.freeJrec i).blks = s.blks ∧ (s.freeJrec i).res = s.res ∧ (s.freeJrec i).hbm = s.hbm ∧
    (s.freeJrec i).colls = s.colls ∧ (s.freeJrec i).nextColl = s.nextColl ∧ (s.freeJrec i).bw = s.bw ∧ (s.freeJrec i).gov = s.gov ∧
    (s.freeJrec i).bist = s.bist ∧ (s.freeJrec i).uart = s.uart ∧ (s.freeJrec i).fw = s.fw ∧ (s.freeJrec i).spdm = s.spdm ∧
    (s.freeJrec i).tap = s.tap ∧ (s.freeJrec i).dones = s.dones ∧ (s.freeJrec i).dcsIn = s.dcsIn ∧
    (s.freeJrec i).heldReads = s.heldReads ∧ (s.freeJrec i).out = s.out ∧ (s.freeJrec i).freeCount = s.freeCount ∧
    (s.freeJrec i).conns = s.conns ∧ (s.freeJrec i).walkCache = s.walkCache ∧ (s.freeJrec i).walks = s.walks ∧ (s.freeJrec i).faultQ = s.faultQ ∧ (s.freeJrec i).pending = s.pending := by
  have h := s.freeJrec_rest i
  simp only [State.mk.injEq] at h
  simp only [h, and_self]

@[simp] theorem State.fld_freeJrec (s : State) (i : Option Nat) (fd : Fld) (ob el : Nat) : (s.freeJrec i).fld fd ob el = s.fld fd ob el := by
  simp [State.fld]

@[simp] theorem State.flag_freeJrec (s : State) (i : Option Nat) (fd : Fld) (ob el : Nat) : (s.freeJrec i).flag fd ob el = s.flag fd ob el := by
  simp [State.flag]

/-- Changing a Journal record. -/
theorem State.updJrec_rest (s : State) (i : Option Nat) (f : JRec → JRec) :
    ({ s.updJrec i f with jnl := [] } : State) = { s with jnl := [] } := by
  unfold State.updJrec
  split
  · split <;> rfl
  · rfl

@[simp] theorem State.updJrec_frame (s : State) (i : Option Nat) (f : JRec → JRec) :
    (s.updJrec i f).fuses = s.fuses ∧ (s.updJrec i f).flds = s.flds ∧ (s.updJrec i f).dev = s.dev ∧ (s.updJrec i f).clk = s.clk ∧
    (s.updJrec i f).mem = s.mem ∧ (s.updJrec i f).apts = s.apts ∧ (s.updJrec i f).tlb = s.tlb ∧
    (s.updJrec i f).batches = s.batches ∧ (s.updJrec i f).invals = s.invals ∧
    (s.updJrec i f).acs = s.acs ∧ (s.updJrec i f).fns = s.fns ∧ (s.updJrec i f).links = s.links ∧ (s.updJrec i f).tags = s.tags ∧
    (s.updJrec i f).msix = s.msix ∧ (s.updJrec i f).queues = s.queues ∧ (s.updJrec i f).ops = s.ops ∧
    (s.updJrec i f).heldCpls = s.heldCpls ∧ (s.updJrec i f).dcache = s.dcache ∧ (s.updJrec i f).qinval = s.qinval ∧
    (s.updJrec i f).wins = s.wins ∧ (s.updJrec i f).imports = s.imports ∧ (s.updJrec i f).ts = s.ts ∧ (s.updJrec i f).armed = s.armed ∧
    (s.updJrec i f).qps = s.qps ∧ (s.updJrec i f).pipes = s.pipes ∧ (s.updJrec i f).prot = s.prot ∧ (s.updJrec i f).vl = s.vl ∧
    (s.updJrec i f).en = s.en ∧ (s.updJrec i f).img = s.img ∧ (s.updJrec i f).cc = s.cc ∧ (s.updJrec i f).ten = s.ten ∧
    (s.updJrec i f).blks = s.blks ∧ (s.updJrec i f).res = s.res ∧ (s.updJrec i f).hbm = s.hbm ∧ (s.updJrec i f).colls = s.colls ∧
    (s.updJrec i f).nextColl = s.nextColl ∧ (s.updJrec i f).bw = s.bw ∧ (s.updJrec i f).gov = s.gov ∧ (s.updJrec i f).bist = s.bist ∧
    (s.updJrec i f).uart = s.uart ∧ (s.updJrec i f).fw = s.fw ∧ (s.updJrec i f).spdm = s.spdm ∧ (s.updJrec i f).tap = s.tap ∧
    (s.updJrec i f).dones = s.dones ∧ (s.updJrec i f).dcsIn = s.dcsIn ∧ (s.updJrec i f).heldReads = s.heldReads ∧
    (s.updJrec i f).out = s.out ∧ (s.updJrec i f).freeCount = s.freeCount ∧ (s.updJrec i f).conns = s.conns ∧ (s.updJrec i f).walkCache = s.walkCache ∧ (s.updJrec i f).walks = s.walks ∧ (s.updJrec i f).faultQ = s.faultQ ∧ (s.updJrec i f).pending = s.pending := by
  have h := s.updJrec_rest i f
  simp only [State.mk.injEq] at h
  simp only [h, and_self]

@[simp] theorem State.fld_updJrec (s : State) (i : Option Nat) (f : JRec → JRec) (fd : Fld) (ob el : Nat) : (s.updJrec i f).fld fd ob el = s.fld fd ob el := by
  simp [State.fld]

@[simp] theorem State.flag_updJrec (s : State) (i : Option Nat) (f : JRec → JRec) (fd : Fld) (ob el : Nat) : (s.updJrec i f).flag fd ob el = s.flag fd ob el := by
  simp [State.flag]

/-- What a command answers is its effect, with the queue and the fuses as they were. -/
@[simp] theorem State.after_frame (s t : State) :
    (s.after t).flds = t.flds ∧ (s.after t).dev = t.dev ∧ (s.after t).clk = t.clk ∧ (s.after t).apts = t.apts ∧ (s.after t).tlb = t.tlb ∧
    (s.after t).batches = t.batches ∧ (s.after t).invals = t.invals ∧ (s.after t).acs = t.acs ∧
    (s.after t).fns = t.fns ∧ (s.after t).links = t.links ∧ (s.after t).tags = t.tags ∧ (s.after t).msix = t.msix ∧
    (s.after t).queues = t.queues ∧ (s.after t).ops = t.ops ∧ (s.after t).heldCpls = t.heldCpls ∧ (s.after t).dcache = t.dcache ∧
    (s.after t).qinval = t.qinval ∧ (s.after t).wins = t.wins ∧ (s.after t).imports = t.imports ∧ (s.after t).ts = t.ts ∧
    (s.after t).armed = t.armed ∧ (s.after t).qps = t.qps ∧ (s.after t).pipes = t.pipes ∧ (s.after t).prot = t.prot ∧
    (s.after t).vl = t.vl ∧ (s.after t).en = t.en ∧ (s.after t).img = t.img ∧ (s.after t).cc = t.cc ∧ (s.after t).ten = t.ten ∧
    (s.after t).jnl = t.jnl ∧ (s.after t).blks = t.blks ∧ (s.after t).res = t.res ∧ (s.after t).hbm = t.hbm ∧
    (s.after t).colls = t.colls ∧ (s.after t).nextColl = t.nextColl ∧ (s.after t).bw = t.bw ∧ (s.after t).gov = t.gov ∧
    (s.after t).bist = t.bist ∧ (s.after t).uart = t.uart ∧ (s.after t).fw = t.fw ∧ (s.after t).spdm = t.spdm ∧ (s.after t).tap = t.tap ∧
    (s.after t).dones = t.dones ∧ (s.after t).dcsIn = t.dcsIn ∧ (s.after t).heldReads = t.heldReads ∧ (s.after t).out = t.out ∧
    (s.after t).freeCount = t.freeCount ∧ (s.after t).conns = t.conns ∧ (s.after t).walkCache = t.walkCache ∧ (s.after t).walks = t.walks ∧ (s.after t).faultQ = t.faultQ ∧ (s.after t).pending = s.pending ∧ (s.after t).fuses = s.fuses ∧
    (s.after t).mem = Memory.canon t.mem :=
  ⟨rfl, rfl, rfl, rfl, rfl, rfl, rfl, rfl, rfl, rfl, rfl, rfl, rfl, rfl, rfl, rfl, rfl, rfl, rfl, rfl, rfl, rfl, rfl, rfl, rfl, rfl, rfl, rfl, rfl, rfl, rfl, rfl, rfl, rfl, rfl, rfl, rfl, rfl, rfl, rfl, rfl, rfl, rfl, rfl, rfl, rfl, rfl, rfl, rfl, rfl, rfl, rfl, rfl, rfl⟩

@[simp] theorem State.fld_after (s t : State) (fd : Fld) (ob el : Nat) : (s.after t).fld fd ob el = t.fld fd ob el := rfl
@[simp] theorem State.flag_after (s t : State) (fd : Fld) (ob el : Nat) : (s.after t).flag fd ob el = t.flag fd ob el := rfl

end Machine
end Sys2Proof
end

