-- ==== Sys2Proof/Machine/HbmCode.lean ====
section
/-! DEFINITION. Inside an HBM stack, as functions beside the machine (R386, R387, R390, R395, R396): where an offset lies, what a scheduler
chooses next, the code of a burst, and the intervals of refresh and of atomics. No command waits for them (log entry 6). -/

namespace Sys2Proof
namespace Machine

/-! ### Placement (R386) -/

/-- Byte within its row of an offset. -/
def colOf (off : Nat) : Nat := bits off 15 14 * 256 + bits off 7 0

/-- Bank of an offset. -/
def bankOf (off : Nat) : Nat := bits off 21 16 ^^^ bits off 27 22

/-- Row of an offset. -/
def rowOf (off : Nat) : Nat := bits off 35 22

/-- Channel of an offset. -/
def channelOf (off : Nat) : Nat := pcOf off / 2

/-! ### The scheduler of a pseudo-channel (R387) -/

/-- A queued request: its bank, its row, and the CLK_T cycles it has been queued. -/
structure HbmReq where
  bank : Nat
  row : Nat
  age : Nat
  deriving DecidableEq, Repr

/-- The requests that may be issued, of a queue with the oldest first: none of a bank that has an older one queued for 1,024 cycles. -/
def hbmMay (blocked : List Nat) : List HbmReq → List HbmReq
  | [] => []
  | r :: q =>
    if blocked.contains r.bank then hbmMay blocked q
    else r :: hbmMay (if 1024 ≤ r.age then r.bank :: blocked else blocked) q

/-- The request that is issued next: the oldest to a row that its bank has open, else the oldest. -/
def hbmPick (opened : Nat → Option Nat) (q : List HbmReq) : Option HbmReq :=
  let l := hbmMay [] q
  match l.find? fun r => opened r.bank == some r.row with
  | some r => some r
  | none => l.head?

/-! ### The code of a burst, RS(36,32) over GF(2^8) (R390; log entry 131) -/

/-- Twice an element, modulo x^8 + x^4 + x^3 + x^2 + 1. -/
def ecDouble (a : Nat) : Nat := if 128 ≤ a then (2 * a) ^^^ 0x11D else 2 * a

/-- The product of two elements. -/
def ecMul (a b : Nat) : Nat :=
  ((List.range 8).foldl (fun (t : Nat × Nat) i => (if bit b i then t.1 ^^^ t.2 else t.1, ecDouble t.2)) (0, a)).1

/-- The n-th power of 2. -/
def ecPow (n : Nat) : Nat := (List.range n).foldl (fun a _ => ecDouble a) 1

/-- The value of a polynomial, highest coefficient first. -/
def ecEval (p : List Nat) (x : Nat) : Nat := p.foldl (fun t c => ecMul t x ^^^ c) 0

/-- The symbols of offset bits 35:6 of a line, which the code covers without their being stored. -/
def ecLine (line : Nat) : List Nat := (List.range 4).map fun i => line / 256 ^ (3 - i) % 256

/-- The generator polynomial without its leading 1, highest coefficient first: its roots are the powers 0 to 3 of 2. -/
def ecGen : List Nat := [ecPow 0 ^^^ ecPow 1 ^^^ ecPow 2 ^^^ ecPow 3,
  ecPow 1 ^^^ ecPow 2 ^^^ ecPow 3 ^^^ ecPow 3 ^^^ ecPow 4 ^^^ ecPow 5,
  ecPow 3 ^^^ ecPow 4 ^^^ ecPow 5 ^^^ ecPow 6, ecPow 6]

/-- One symbol enters the encoder: the check symbols so far, highest first. -/
def ecShift (r : List Nat) (m : Nat) : List Nat :=
  let k := m ^^^ r.headD 0
  List.zipWith (· ^^^ ·) (r.drop 1 ++ [0]) (ecGen.map (ecMul k))

/-- The 36 symbols of a burst of a line: lanes 0 to 31 carry its 32 bytes, lanes 32 to 35 the check symbols. -/
def eccWrite (line : Nat) (data : List Nat) : List Nat :=
  data ++ (ecLine line ++ data).foldl ecShift [0, 0, 0, 0]

/-- A burst read for a line: the outcome of Table 14.4 and the bytes that it delivers. One symbol in error is found and corrected; two
or three, or a burst of another line, are beyond the code. -/
def eccRead (line : Nat) (burst : List Nat) : EccOutcome × List Nat :=
  let syn := fun j => ecEval (ecLine line ++ burst) (ecPow j)
  let (a, b, c, d) := (syn 0, syn 1, syn 2, syn 3)
  if a = 0 ∧ b = 0 ∧ c = 0 ∧ d = 0 then (.clean, burst.take 32)
  else
    match (List.range 36).find? fun i =>
        let x := ecPow (35 - i)
        a != 0 && ecMul a x == b && ecMul b x == c && ecMul c x == d with
    | some i => (.corrected i, ((burst.zip (List.range 36)).map fun e => if e.2 = i then e.1 ^^^ a else e.1).take 32)
    | none => (.beyond, [])

/-! ### Intervals (R395, R396, Tables 14.3, 14.5 and 14.6) -/

/-- When a bank, PC × 64 + bank, was refreshed last: by its last REFRESH, or later by the controller itself, which postpones a refresh that
falls due by no more than eight tREFI (R396). -/
def State.lastRefresh (s : State) (k bank : Nat) : Nat :=
  let t := AMap.look 0 (s.stack k).refreshed bank
  let most := 9 * refreshEvery (s.fld F.hbmStatusLevel k)
  t + (s.nowNs - t) / most * most

/-- Whether a bank is busy with its refresh, for tRFCpb. -/
def State.refreshing (s : State) (k bank : Nat) : Bool := decide (s.nowNs < s.lastRefresh k bank + 160)

/-- CLK_T cycles from an atomic's insertion into the queue to its result: its line is held, or its row open, or neither. -/
def atomicCycles (held rowOpen : Bool) : Nat := if held then 6 else if rowOpen then 44 else 44 + 14 + 14

end Machine
end Sys2Proof
end

