-- ==== Sys2Proof/Machine/Paths.lean ====
section
/-! DEFINITION. The shortest paths through the device, as functions: clock edges and alignment waits (R22 to R24), the Avenue's links,
routes and hop times (R15 to R21), and the cycle counts of R43 to R46. No command waits for them: the model has commands for what
happens, not for the time between (log entry 6). -/

namespace Sys2Proof
namespace Machine

/-! ### Clocks (R22 to R24) -/

/-- The core clocks (Table 1.5). -/
inductive CoreClock where
  | c | f | t | m
  deriving DecidableEq, Repr

/-- Period in ticks of 0.125 ns (Table 1.5). -/
def CoreClock.ticks : CoreClock → Nat
  | .c => 4 | .f => 5 | .t => 8 | .m => 16

/-- Whether a clock has a rising edge at a tick. -/
def CoreClock.edge (k : CoreClock) (tick : Nat) : Bool := tick % k.ticks == 0

/-- The tick at which what is launched at tick m is captured: the first edge of the receiving clock at or after m + 2 (R23). -/
def CoreClock.capture (k : CoreClock) (m : Nat) : Nat := (m + 2 + (k.ticks - 1)) / k.ticks * k.ticks

/-- The alignment wait (R23). -/
def CoreClock.wait (k : CoreClock) (m : Nat) : Nat := k.capture m - m

/-! ### The Avenue (R15 to R21) -/

/-- A stop: the port of a District, or a stop of the hub rows, A0 to A3 in row 1 and A4 to A7 in row 2. -/
inductive Stop where
  | district (n : Nat)
  | hub (n : Nat)
  deriving DecidableEq, Repr

/-- The hub stop at which a stop's traffic is in the hub rows (R20). -/
def Stop.column : Stop → Nat
  | .district n => n
  | .hub n => n

/-- The hub stops passed along a row from column a to column b, the first left out. -/
def rowPath (row a b : Nat) : List Stop :=
  if a ≤ b then (List.range (b - a)).map fun i => .hub (4 * row + a + i + 1)
  else (List.range (a - b)).map fun i => .hub (4 * row + a - i - 1)

/-- The hub stops passed from A a to A b, the first left out: along the row to the column, then to the other row (R20). -/
def hubPath (a b : Nat) : List Stop :=
  rowPath (a / 4) (a % 4) (b % 4) ++ (if a / 4 = b / 4 then [] else [.hub b])

/-- The stops of a route, its first left out (R20): the other District of the compute die is reached directly. -/
def avenueRoute (x y : Stop) : List Stop :=
  if x = y then []
  else
    match x, y with
    | .district n, .district m =>
      if n / 2 = m / 2 then [.district m] else .hub n :: hubPath n m ++ [.district m]
    | .district n, .hub m => .hub n :: hubPath n m
    | .hub n, .district m => hubPath n m ++ [.district m]
    | .hub n, .hub m => hubPath n m

/-- CLK_F cycles of a hop between neighbouring stops (R21): 4 across a die boundary, 2 on a die. -/
def hopCycles (x y : Stop) : Nat :=
  match x, y with
  | .district _, .hub _ => 4
  | .hub _, .district _ => 4
  | _, _ => 2

/-- CLK_F cycles of the hops of a route from a stop. -/
def pathCycles (x : Stop) : List Stop → Nat
  | [] => 0
  | y :: ys => hopCycles x y + pathCycles y ys

/-- CLK_F cycles from stop to stop with no contention. -/
def avenueCycles (x y : Stop) : Nat := pathCycles x (avenueRoute x y)

/-- What a bundle carries per direction, in units of 0.1 GB/s: each link in service carries 102.4 GB/s (R15, R18). -/
def State.bundleRate (s : State) (bundle : Nat) : Nat :=
  1024 * ((List.range (bundleLinks bundle)).filter fun i => !s.bist.linksOut.contains (bundle * 20 + i)).length

/-! ### Remote operations (R42 to R46) -/

/-- CLK_T cycles of a remote turnstile atomic, step by step (Table 1.12). -/
def turnstileCycles : List Nat := [6, 10, 6, 8, 6]

/-- CLK_T cycles of a remote write up to the first HBM write command (Table 1.13). -/
def remoteWriteCycles : List Nat := [6, 10, 4, 3, 18]

/-- CLK_T cycles of a remote read hit before its request is launched onto the Avenue, and after its data are captured (Table 1.14). -/
def readHitBefore : Nat := 17
/-- See readHitBefore. -/
def readHitAfter : Nat := 12

/-- CLK_F cycles of a remote read hit served by pipeline k from a Block of District n: there, the port and the store, and back (R45,
R46). -/
def readHitAvenue (k n : Nat) : Nat := avenueCycles (.hub k) (.district n) + 4 + avenueCycles (.district n) (.hub k)

/-- The tick at which a remote read hit presents its first response flit, for a head flit at a tick (R23, R24, R45). -/
def readHitDone (k n tick : Nat) : Nat :=
  let captured := CoreClock.f.capture (tick + 8 * readHitBefore)
  CoreClock.t.capture (captured + 5 * readHitAvenue k n) + 8 * readHitAfter

end Machine
end Sys2Proof
end

