-- ==== Sys2Proof/Machine/Pins.lean ====
section
/-! DEFINITION. What the pins show of a state, and when inputs count, as functions beside the machine: the pin states (R527 to R529, R526),
the rail monitor (R517), the reference-clock monitor (R522) and the filter of RESET_N (R524). The commands bring the events that these
monitors find (log entry 6). -/

namespace Sys2Proof
namespace Machine

/-- What a pin or a group of pins shows (Table 21.8). -/
inductive Drive where
  /-- Not driven, and a receiver not terminated. -/
  | highZ
  /-- Electrical idle, with its receiver terminated. -/
  | idle
  /-- Driven or terminated as the state of a link has it. -/
  | live
  | level (v : Bool)
  deriving DecidableEq, Repr

/-- The device is held in reset: RESET_N is low or the internal pulse runs. -/
def State.held (s : State) : Bool := s.dev.resetLow || s.dev.pulse

/-- Nothing but the always-on region, or not even that, is powered. -/
def State.bare (s : State) : Bool := match s.dev.state with | .off => true | .standby => true | _ => false

/-- The device serves: EQUAL_SHARE, SERVICE or DRAIN. -/
def State.serving (s : State) : Bool := match s.dev.state with | .equalShare => true | .service => true | .drain => true | _ => false

/-- Whether the link or the port that a network lane belongs to may drive it. -/
def State.laneLive (s : State) (n : Nat) : Bool :=
  let g := n / 8
  if bit (s.fld F.enCfgLgEth) g then (List.range 8).any fun k => (s.eport (8 * g + k)).state != .off
  else (s.vlink (n / 2)).state != .off

/-- The transmitter of a network lane. -/
def State.laneTx (s : State) (n : Nat) : Drive :=
  if !s.domPresent (16 + n / 8) ∨ s.bare then .highZ
  else if s.serving ∧ !s.held ∧ s.laneLive n then .live
  else .idle

/-- The receiver of a network lane. -/
def State.laneRx (s : State) (n : Nat) : Drive := if !s.domPresent (16 + n / 8) ∨ s.bare then .highZ else .live

/-- The lanes of a host port: in a reset they are idle with the termination off, and from step 3 of a start they train. -/
def State.hostLanes (s : State) (n : Nat) : Drive :=
  if !s.portPresent n ∨ s.bare then .highZ
  else if s.held ∨ !s.domOn (20 + n) then .idle
  else .live

/-- TRAY_FAULT_N: low while the device does not serve; in OFF by the tray's pull-down (R528). -/
def State.trayFaultN (s : State) : Bool := s.serving && !s.held

/-- THERM_TRIP_N: low while it is held (R501); in OFF high by the tray's pull-up. -/
def State.thermTripN (s : State) : Bool := match s.dev.state with | .off => true | _ => !s.gov.trip

/-- XSPI_CS_N and XSPI_RESET_N; none while they belong to the transfers of the flash. -/
def State.xspi (s : State) : Drive × Drive :=
  if s.bare then (.highZ, .highZ)
  else if s.held ∨ (s.dev.state = .bringup ∧ s.fld F.rstStateStep < 3) then (.level true, .level false)
  else (.live, .level true)

/-- The I3C pins: the device answers from step 4 of a start on. -/
def State.i3cPins (s : State) : Drive := if s.oobUp then .live else .highZ

/-- UART_TX. -/
def State.uartPin (s : State) : Drive :=
  if s.bare then .highZ else if s.held ∨ (s.dev.state = .bringup ∧ s.fld F.rstStateStep < 4) then .level true else .live

/-- TDO: driven only while data is shifted (R526). -/
def State.tdoDriven (s : State) : Bool := !s.tap.low && (s.tap.st == .shDr || s.tap.st == .shIr)

/-- Whether HPn_PERST_N[b] is looked at: not of an absent port, and bit 1 only of a bifurcated one (R529, Table 21.3). -/
def State.perstUsed (s : State) (n b : Nat) : Bool := s.portPresent n && (b == 0 || s.bifurcated n)

/-- A rail lies within the monitor's band of 7 % about its nominal value, in mV (R517). -/
def railIn (nominal mv : Nat) : Bool := decide (100 * nominal ≤ 100 * mv + 7 * nominal ∧ 100 * mv ≤ 107 * nominal)

/-- A group of rails is in tolerance: each was outside the band for less than 2 µs (R517). -/
def groupIn (outNs : List Nat) : Bool := outNs.all fun t => decide (t < 2000)

/-- REFCLK_OK: an edge within the last 50 ns, and a frequency over 10 µs within 1,000 ppm of 100 MHz (R522). -/
def refclkOk (sinceEdgeNs hz : Nat) : Bool := decide (sinceEdgeNs < 50 ∧ 99900000 ≤ hz ∧ hz ≤ 100100000)

/-- A low time of RESET_N, in ns: ignored, taken, or left open between 200 ns and 1 µs (R524). -/
def resetTaken (lowNs : Nat) : Option Bool := if lowNs ≤ 200 then some false else if 1000 ≤ lowNs then some true else none

end Machine
end Sys2Proof
end

