-- ==== Sys2Proof/WellFormed.lean ====
section
/-! DEFINITION. Which commands can be: every operand fits the field or the number of objects that the spec gives it. A command that
cannot be is no event of the device; its meaning is total all the same. -/

namespace Sys2Proof

/-- An aperture offset: 32,768 slots of 2 MiB (R58). -/
def okAo (n : Nat) : Bool :=
  decide (n < 2 ^ 36)

/-- A Block number. -/
def okBlk (n : Nat) : Bool :=
  decide (n < 160)

/-- Bytes that a request carries. -/
def okData (d : List Byte) : Bool :=
  decide (d.length ≤ 4096)

/-- A power domain (R33). -/
def okDom (n : Nat) : Bool :=
  decide (n < 24)

/-- The engine is one of a function that can be (R87). -/
def okEngine (e : XlPort) : Bool :=
  match e with
  | .xl => true
  | .xlp pf => decide (pf < 256)

/-- A codeword has 272 symbols of 10 bits, of which at most 64 symbols of skew are seen before it on a lane (R244, R245). -/
def okCodeword (c : List Nat × List Nat) : Bool :=
  decide (c.1.length ≤ 336) && decide (c.2.length ≤ 336) && (c.1 ++ c.2).all fun x => decide (x < 1024)

/-- Every field fits its bits, and there is at most a credit of 16 bits for each VC (Tables 9.3 and 9.15). -/
def okFlit (f : LinkFlit) : Bool :=
  decide (f.ltype < 256) && decide (f.ack < 4096) && decide (f.req < 4096) && decide (f.credit.length ≤ 8) &&
    (f.credit.all fun c => decide (c < 65536)) && decide (f.node < 65536) && decide (f.link < 256) && decide (f.lanes < 4) &&
    decide (f.topo < 2 ^ 32) && decide (f.ts < 2 ^ 64) && decide (f.echo < 2 ^ 64) && decide (f.secs < 2 ^ 48) && decide (f.ns < 2 ^ 32) &&
    (match f.cw with | some c => okCodeword c | none => true)

/-- A function number (Table 4.2). -/
def okFn (n : Nat) : Bool :=
  decide (n < 256)

/-- A field of a configuration space: BARs have six doublewords. -/
def okCfgField : CfgField → Bool
  | .bar n => decide (n < 6)
  | .vfBar n => decide (n < 6)
  | _ => true

/-- A configuration request: doublewords at multiples of 4, and values of their width. -/
def okCfg : CfgReq → Bool
  | .read off => decide (off < 4096) && off % 4 == 0
  | .field f => okCfgField f
  | .writeBar n v => decide (n < 6) && decide (v < 2 ^ 32)
  | .writeVfBar n v => decide (n < 6) && decide (v < 2 ^ 32)
  | .writeAer v => decide (v < 2 ^ 32)
  | .writeCto v => decide (v < 16)
  | .writeNumVfs n => decide (n < 2 ^ 16)
  | .writeOther off _ => decide (off < 4096) && off % 4 == 0
  | .writeMse _ => true
  | .writePayload m r => decide (m < 8) && decide (r < 8)
  | .writeRelaxed _ => true
  | .writeMsix _ _ => true
  | .writeVfEnable => true

/-- Octets of an Ethernet frame, and symbols of its codewords. -/
def okFrame (d : EthRx) : Bool :=
  decide (d.bytes.length < 2 ^ 16) && d.cws.all fun w => w.length == 544 && w.all fun x => decide (x < 1024)

/-- Every field fits its bits (Table 9.7). -/
def okHdr (h : VHdr) : Bool :=
  decide (h.dst < 65536) && decide (h.src < 65536) && decide (h.cls < 8) && decide (h.path < 64) &&
    decide (h.hops < 16) && decide (h.proto < 16) && decide (h.len < 64) && decide (h.bytes < 2 ^ 13) && decide (h.wepoch < 256) &&
    decide (h.crc < 2 ^ 32) && decide (h.body.length ≤ 2288)

/-- The link a packet came on, or none for a packet of this node. -/
def okInp (n : Option Nat) : Bool :=
  match n with
  | some l => decide (l < 16)
  | none => true

/-- Bytes of a PCIe request. -/
def okLen (n : Nat) : Bool :=
  decide (n ≤ 4096)

/-- A link of one of the four host ports (Table 4.2). -/
def okLink (l : LinkId) : Bool :=
  decide (l.port < 4)

/-- A bandwidth monitor (R510). -/
def okMon (n : Nat) : Bool :=
  decide (n < 16)

/-- Nanoseconds of a second (R28). -/
def okNs (n : Nat) : Bool :=
  decide (n < 1000000000)

/-- An offset in a register space. -/
def okOff (n : Nat) : Bool :=
  decide (n < 2 ^ 28)

/-- The origin names a node and functions of it that can be. -/
def okOrg (o : Origin) : Bool :=
  match o with
  | .host fn => decide (fn < 256)
  | .space2 node fn => decide (node < 65536) && decide (fn < 256)
  | .oob => true
  | .oobSecure => true

/-- A 2 MiB page of HBM. -/
def okPage (n : Nat) : Bool :=
  decide (n < 262144)

/-- The kind of a PHY PLL (Table 1.7). -/
def okPll (n : Nat) : Bool :=
  decide (n < 3)

/-- An Ethernet port (R278). -/
def okPort (n : Nat) : Bool :=
  decide (n < 32)

/-- A QP number (R173). -/
def okQp (n : Nat) : Bool :=
  decide (n < 2 ^ 20)

/-- A queue number (R121). -/
def okQueue (n : Nat) : Bool :=
  decide (n < 4096)

/-- A descriptor: function, queue and a position of 32 bits (R120, R121). -/
def okRef (r : OpRef) : Bool :=
  decide (r.fn < 256) && decide (r.q < 4096) && decide (r.pos < 2 ^ 32)

/-- The number of a resource (Table 16.3). -/
def okRes (n : Nat) : Bool :=
  decide (n < 16)

/-- QP number, PSN and payload fit their fields (R208). -/
def okRoce (p : RocePkt) : Bool :=
  decide (p.dstQp < 2 ^ 24) && decide (p.psn < 2 ^ 24) && decide (p.payload.length ≤ 4096)

/-- The samples of a UART frame (R513). -/
def okSamples (l : List Bool) : Bool :=
  decide (l.length ≤ 160)

/-- A temperature sensor (R496). -/
def okSensor (n : Nat) : Bool :=
  decide (n < 40)

/-- A slot of a privileged queue (R134). -/
def okSlot (n : Nat) : Bool :=
  decide (n < 256)

/-- Every field of the base header fits its bits (Table 7.7). -/
def okSlt (p : SltPkt) : Bool :=
  decide (p.srcQp < 2 ^ 20) && decide (p.dstQp < 2 ^ 20) && decide (p.psn < 2 ^ 32) && decide (p.payload.length ≤ 4096) &&
    decide (p.path < 64) && decide (p.epoch < 4) && decide (p.txcnt < 256) && decide (p.alive < 65536) && decide (p.aliveRel < 65536) &&
    decide (p.status < 256) && decide (p.var < 256) && decide (p.key < 2 ^ 32) && decide (p.mlen < 2 ^ 32) && decide (p.offset < 2 ^ 64)

/-- The register space is one of a function that can be. -/
def okSpace (s : Space) : Bool :=
  match s with
  | .dcs => true
  | .bar0 fn => decide (fn < 256)

/-- A step of the start sequence (Table 18.4). -/
def okStep (n : Nat) : Bool :=
  decide (1 ≤ n ∧ n ≤ 10)

/-- A PCIe tag. -/
def okTag (n : Nat) : Bool :=
  decide (n < 2 ^ 14)

/-- A Valir link. -/
def okVl (n : Nat) : Bool :=
  decide (n < 16)

/-- The width of a PCIe link. -/
def okWidth (n : Nat) : Bool :=
  decide (n ≤ 16)

/-- A value of 2 bits. -/
def ok2 (n : Nat) : Bool :=
  decide (n < 2 ^ 2)

/-- A value of 3 bits. -/
def ok3 (n : Nat) : Bool :=
  decide (n < 2 ^ 3)

/-- A value of 6 bits. -/
def ok6 (n : Nat) : Bool :=
  decide (n < 2 ^ 6)

/-- A value of 7 bits. -/
def ok7 (n : Nat) : Bool :=
  decide (n < 2 ^ 7)

/-- A value of 8 bits. -/
def ok8 (n : Nat) : Bool :=
  decide (n < 2 ^ 8)

/-- A value of 15 bits. -/
def ok15 (n : Nat) : Bool :=
  decide (n < 2 ^ 15)

/-- A value of 16 bits. -/
def ok16 (n : Nat) : Bool :=
  decide (n < 2 ^ 16)

/-- A value of 18 bits. -/
def ok18 (n : Nat) : Bool :=
  decide (n < 2 ^ 18)

/-- A value of 20 bits. -/
def ok20 (n : Nat) : Bool :=
  decide (n < 2 ^ 20)

/-- A value of 22 bits. -/
def ok22 (n : Nat) : Bool :=
  decide (n < 2 ^ 22)

/-- A value of 30 bits. -/
def ok30 (n : Nat) : Bool :=
  decide (n < 2 ^ 30)

/-- A value of 32 bits. -/
def ok32 (n : Nat) : Bool :=
  decide (n < 2 ^ 32)

/-- A value of 48 bits. -/
def ok48 (n : Nat) : Bool :=
  decide (n < 2 ^ 48)

/-- A value of 64 bits. -/
def ok64 (n : Nat) : Bool :=
  decide (n < 2 ^ 64)

/-- A value of 128 bits. -/
def ok128 (n : Nat) : Bool :=
  decide (n < 2 ^ 128)

/-- Whether every operand of a command fits. -/
def wellFormed (i : Instr) : Bool :=
  match i with
  | .registerWrite org sp off _ => okOrg org && okSpace sp && okOff off
  | .irregularAccess org sp off len tag _ => okOrg org && okSpace sp && okOff off && okLen len && okTag tag
  | .rcRead org sp off tag => okOrg org && okSpace sp && okOff off && okTag tag
  | .oobDcsAccess off _ => okOff off
  | .ftSRead => true
  | .ftStep org _ => okOrg org
  | .ftDisciplinePeriod => true
  | .ftSyncTimeout => true
  | .masterLockLost => true
  | .refclkLost => true
  | .phyPllLockLost kind _ _ => okPll kind
  | .powerUp org d => okOrg org && okDom d
  | .powerDown req d => okOrg req.org && okDom d && (match req.pair with | some o => okOrg o | none => true)
  | .domainSettled d => okDom d
  | .sensorUpdate n _ => okSensor n
  | .thermalTrip => true
  | .governorWindowEnd _ => true
  | .atFloorTimeout => true
  | .selfTestSlice _ _ _ _ => true
  | .sliceRetry _ _ _ _ => true
  | .fuse org confirm => okOrg org && ok16 confirm
  | .bwWindowEnd m => okMon m
  | .apertureRead fn tag ao len => okFn fn && okTag tag && okAo ao && okLen len
  | .apertureWrite fn ao data => okFn fn && okAo ao && okData data
  | .apertureAtomic fn tag ao _ a b => okFn fn && okTag tag && okAo ao && ok128 a && ok128 b
  | .apertureResponse fn tag ao _ data => okFn fn && okTag tag && okAo ao && okData data
  | .readDeadline fn tag => okFn fn && okTag tag
  | .apertureCommit fn v => okFn fn && ok64 v
  | .apertureCommitDone fn => okFn fn
  | .aptFence fn => okFn fn
  | .aptFenceDone fn => okFn fn
  | .tableWalkDone fn ha _ _ => okFn fn && ok64 ha
  | .invalRange org e pages => okOrg org && okEngine e && ok20 pages
  | .invalFunction org e => okOrg org && okEngine e
  | .invalAll org e => okOrg org && okEngine e
  | .invalDone e => okEngine e
  | .faultBatchTimeout fn => okFn fn
  | .replay fn upto => okFn fn && ok16 upto
  | .replayAbort fn upto => okFn fn && ok16 upto
  | .acClear fn v => okFn fn && ok64 v
  | .acDecay fn => okFn fn
  | .pcieLinkTrained l rate width => okLink l && ok3 rate && okWidth width
  | .pcieLinkDown l => okLink l
  | .linkDownTimeout l => okLink l
  | .fundamentalReset l => okLink l
  | .perstDeassert l => okLink l
  | .hotReset l => okLink l
  | .hostWatchdogExpiry l => okLink l
  | .wdogRestart fn => okFn fn
  | .busMasterDisable fn => okFn fn
  | .busMasterEnable fn => okFn fn
  | .flr fn => okFn fn
  | .vfEnableClear pf => okFn pf
  | .functionResetDone fn => okFn fn
  | .functionWedged fn => okFn fn
  | .completionTimeout l tag => okLink l && okTag tag
  | .hostCompletion l tag _ => okLink l && okTag tag
  | .tagReuse l tag => okLink l && okTag tag
  | .graceExpiry l => okLink l
  | .attach fn _ => okFn fn
  | .configRequest fn r => okFn fn && okCfg r
  | .msixUnmask fn _ => okFn fn
  | .doorbell fn q t => okFn fn && okQueue q && ok32 t
  | .descriptorFetch fn q _ => okFn fn && okQueue q
  | .fetchRetry fn q _ => okFn fn && okQueue q
  | .prefetchPoll fn q _ => okFn fn && okQueue q
  | .queueEnable fn v => okFn fn && ok64 v
  | .qInvalSlot org q slot => okOrg org && okQueue q && okSlot slot
  | .qInvalQueue org q => okOrg org && okQueue q
  | .qInvalAll org => okOrg org
  | .qInvalDone => true
  | .nop r => okRef r
  | .copy r => okRef r
  | .flushHost r => okRef r
  | .fenceHost r => okRef r
  | .cvtA2f r => okRef r
  | .cvtF2a r => okRef r
  | .cvtA2fArray r => okRef r
  | .cvtF2aArray r => okRef r
  | .write r => okRef r
  | .read r => okRef r
  | .send r => okRef r
  | .recv r => okRef r
  | .fadd r => okRef r
  | .cas64 r => okRef r
  | .cas128 r => okRef r
  | .tsRead r => okRef r
  | .tsSet r => okRef r
  | .tsAdd r => okRef r
  | .tsCas r => okRef r
  | .tsWait r => okRef r
  | .tsAddWait r => okRef r
  | .tsAcquire r => okRef r
  | .tsTry r => okRef r
  | .tsRelease r => okRef r
  | .tsHandover r => okRef r
  | .tsAbandon r => okRef r
  | .armThreshold r => okRef r
  | .armSendTag r => okRef r
  | .stepLoad r => okRef r
  | .stepStart r => okRef r
  | .winCreate fn => okFn fn
  | .winRevoke fn key => okFn fn && ok32 key
  | .winDestroy fn key => okFn fn && ok32 key
  | .winImport fn key => okFn fn && ok32 key
  | .winForget fn key => okFn fn && ok32 key
  | .winQueryCmd fn key => okFn fn && ok32 key
  | .revocationDone n => ok22 n
  | .requestPacket p _ => okSlt p
  | .responsePacket p _ => okSlt p
  | .ack p _ => okSlt p
  | .nak p _ => okSlt p
  | .waiting p _ => okSlt p
  | .connect p _ => okSlt p
  | .accept p _ => okSlt p
  | .refuse p _ => okSlt p
  | .close p _ => okSlt p
  | .resetNotice p _ => okSlt p
  | .winQuery p _ => okSlt p
  | .winInfo p _ => okSlt p
  | .pathProbe p _ => okSlt p
  | .winQueryResend q => okQp q
  | .qpCreate fn => okFn fn
  | .qpConnect fn q => okFn fn && okQp q
  | .qpDisconnect fn q => okFn fn && okQp q
  | .qpReset fn q => okFn fn && okQp q
  | .qpDestroy fn q => okFn fn && okQp q
  | .qpQuery fn q => okFn fn && okQp q
  | .connectResend q => okQp q
  | .connectTimeout q => okQp q
  | .rtoExpiry q psn => okQp q && ok32 psn
  | .transportTimeout q _ => okQp q
  | .notReadyRetry q psn => okQp q && ok32 psn
  | .probeTimer q => okQp q
  | .ackTimer q => okQp q
  | .responseResend q psn => okQp q && ok32 psn
  | .noticeResend q => okQp q
  | .qpcMissFill q => okQp q
  | .roceRequest p _ => okRoce p
  | .roceResponse p _ => okRoce p
  | .cnp p _ => okRoce p
  | .refillTick => true
  | .epochEnd q => okQp q
  | .queueSample => true
  | .clearDebt org => okOrg org
  | .vlSignalDetect link lanes => okVl link && ok2 lanes
  | .vlLock link => okVl link
  | .codewordLock link _ => okVl link
  | .param link node plink lanes topo _ _ => okVl link && ok16 node && okVl plink && ok2 lanes && ok32 topo
  | .vlStepTimeout link => okVl link
  | .vlHoldExpiry link => okVl link
  | .laneFault link lanes => okVl link && ok2 lanes
  | .retrain org link => okOrg org && okVl link
  | .retrainTimeout link lanes => okVl link && ok2 lanes
  | .lanesGood link lanes => okVl link && ok2 lanes
  | .uncorrectableCodeword link => okVl link
  | .statusFlit link f => okVl link && okFlit f
  | .retryReq link req f => okVl link && ok32 req && okFlit f
  | .retryReqResend link => okVl link
  | .replayStart link req f => okVl link && ok32 req && okFlit f
  | .time link secs ns _ f => okVl link && ok48 secs && okNs ns && okFlit f
  | .timeFlitSend => true
  | .packetHead inp vc h _ => okInp inp && ok3 vc && okHdr h
  | .e2eCredit src count epoch _ => ok16 src && ok32 count && ok8 epoch
  | .e2eDrop dst count epoch => ok16 dst && ok32 count && ok8 epoch
  | .e2eCreditTimer src => ok16 src
  | .e2eDropCoalesce src => ok16 src
  | .e2eTimeout dst => ok16 dst
  | .frameReceived port data _ => okPort port && okFrame data
  | .anResolved port _ => okPort port
  | .anTimeout port => okPort port
  | .linkTrainingDone port => okPort port
  | .linkTrainingTimeout port => okPort port
  | .alignLock port _ => okPort port
  | .alignTimeout port => okPort port
  | .localFault port => okPort port
  | .remoteFault port => okPort port
  | .remoteFaultClear port => okPort port
  | .enHoldExpiry port => okPort port
  | .extTail org tail => okOrg org && ok16 tail
  | .exceptionFrameSent port => okPort port
  | .txUnderrun port => okPort port
  | .txThreshDecay port => okPort port
  | .configChange org port => okOrg org && okPort port
  | .gateChangeTime port => okPort port
  | .gateIntervalEnd port => okPort port
  | .lpiEntry port => okPort port
  | .lpiWake port => okPort port
  | .receiveLpi port => okPort port
  | .stepNop b => okBlk b
  | .endStep b => okBlk b
  | .loop b => okBlk b
  | .setar b => okBlk b
  | .mload b => okBlk b
  | .mstore b => okBlk b
  | .memoryStepDone b _ _ => okBlk b
  | .rbind b => okBlk b
  | .rbindDone b => okBlk b
  | .rrelease b => okBlk b
  | .rreleaseDone b => okBlk b
  | .mma b => okBlk b
  | .vopAdd b => okBlk b
  | .vopSub b => okBlk b
  | .vopMul b => okBlk b
  | .vopFma b => okBlk b
  | .vopMin b => okBlk b
  | .vopMax b => okBlk b
  | .vopAbs b => okBlk b
  | .vopNeg b => okBlk b
  | .vopCmpEq b => okBlk b
  | .vopCmpLt b => okBlk b
  | .vopCmpLe b => okBlk b
  | .vopSel b => okBlk b
  | .vopDiv b => okBlk b
  | .vopSqrt b => okBlk b
  | .vopRcp b => okBlk b
  | .vopRsqrt b => okBlk b
  | .vopExp2 b => okBlk b
  | .vopLog2 b => okBlk b
  | .vopRedSum b => okBlk b
  | .vopRedMax b => okBlk b
  | .vopCvt b => okBlk b
  | .floadT2Codebook b => okBlk b
  | .floadT4Codebook b => okBlk b
  | .floadProductTable b => okBlk b
  | .stepTsWait b => okBlk b
  | .stepTsAdd b => okBlk b
  | .stepCvtA2f b => okBlk b
  | .stepCvtF2a b => okBlk b
  | .pause org sp b => okOrg org && okSpace sp && okBlk b
  | .pauseDrained b => okBlk b
  | .resume org sp b => okOrg org && okSpace sp && okBlk b
  | .blockOutOfService b => okBlk b
  | .allReduce r => okRef r
  | .reduceScatter r => okRef r
  | .allGather r => okRef r
  | .broadcast r => okRef r
  | .allToAll r => okRef r
  | .barrier r => okRef r
  | .collTimeout r => okRef r
  | .squareWordBeyondEcc slice _ _ => ok3 slice
  | .scrub stack line _ _ => ok3 stack && ok30 line
  | .refresh bank => ok15 bank
  | .laneRepairDone stack pc => ok3 stack && ok6 pc
  | .commandInterfaceFailure stack pc => ok3 stack && ok6 pc
  | .avenueLinkFailed _ _ => true
  | .sramWordBeyondEcc _ _ _ => true
  | .journalRecordBeyondEcc n => ok18 n
  | .pipelineParityEvent k _ => ok2 k
  | .routerParityEvent => true
  | .avenueStopFault => true
  | .recSel org n => okOrg org && ok18 n
  | .install fn v a => okFn fn && ok64 v && ok64 a
  | .setTx fn v => okFn fn && ok64 v
  | .retire fn v => okFn fn && ok64 v
  | .erase fn v => okFn fn && ok64 v
  | .tag fn v => okFn fn && ok64 v
  | .tagPageDone fn => okFn fn
  | .authTagResult q _ => okQp q
  | .cipherParityFault _ fn idx => okFn fn && ok6 idx
  | .icEnable org sp ch => okOrg org && okSpace sp && ok6 ch
  | .icDisable org sp ch => okOrg org && okSpace sp && ok6 ch
  | .icExpectationPush org sp ch val => okOrg org && okSpace sp && ok6 ch && ok64 val
  | .fnCreate org fn => okOrg org && okFn fn
  | .fnDestroy org fn => okOrg org && okFn fn
  | .setLimit org fn res => okOrg org && okFn fn && okRes res
  | .give org fn res => okOrg org && okFn fn && okRes res
  | .take org fn res => okOrg org && okFn fn && okRes res
  | .vfReset org fn => okOrg org && okFn fn
  | .dlSwap org fn => okOrg org && okFn fn
  | .kskSet org fn => okOrg org && okFn fn
  | .pageZeroed page => okPage page
  | .kioskPost fn => okFn fn
  | .rspTailDoorbell org fn idx => okOrg org && okFn fn && ok16 idx
  | .reqHeadDoorbell org fn idx => okOrg org && okFn fn && ok16 idx
  | .rxPop fn => okFn fn
  | .enterEqual org => okOrg org
  | .leaveEqual org => okOrg org
  | .drain org => okOrg org
  | .drainEnd _ => true
  | .drainResetTimer => true
  | .vaonUp => true
  | .vaonLoss => true
  | .porNAssert => true
  | .porNDeassert => true
  | .railOutOfTolerance => true
  | .resetNAssert => true
  | .resetNDeassert => true
  | .internalResetPulseEnd => true
  | .startStepComplete n _ _ => okStep n
  | .deviceReset org confirm => okOrg org && ok16 confirm
  | .release org _ => okOrg org
  | .releaseTimeout _ => true
  | .clearUcal org => okOrg org
  | .stage org => okOrg org
  | .verify org _ _ _ => okOrg org
  | .fwArm org => okOrg org
  | .cancel org => okOrg org
  | .confirm org => okOrg org
  | .rollback org => okOrg org
  | .activation => true
  | .confirmTimeout => true
  | .setManagerPort _ port => ok2 port
  | .fuseOwnerKey _ m => ok3 m.slot
  | .revokeOwnerKey _ slot => ok3 slot
  | .setKek _ => true
  | .getVersion => true
  | .getCapabilities => true
  | .negotiateAlgorithms => true
  | .getDigests => true
  | .getCertificate slot => ok3 slot
  | .challenge slot => ok3 slot
  | .getMeasurements idx => ok8 idx
  | .keyExchange _ slot => ok3 slot
  | .finish _ _ _ => true
  | .heartbeat _ => true
  | .keyUpdate _ => true
  | .endSession _ => true
  | .pldmRequest _ => true
  | .i3cDynamicAddress addr => ok7 addr
  | .mctpControl _ => true
  | .uartFrame samples => okSamples samples
  | .uartTx org b => okOrg org && ok8 b
  | .boundaryScan _ => true

end Sys2Proof
end

