-- ==== Sys2Proof/Tests/Slice0.lean ====
section
/-! SUPPORT. Tests: commands that are ill-formed are refused; the values that the spec's own examples work out; and a witness of the
hypotheses of every obligation that has any. -/

set_option maxRecDepth 100000

namespace Sys2Proof

/-! ### Ill-formed commands are refused, one for each check -/

theorem test_wellFormed_okOrg : wellFormed (.registerWrite (.host 256) .dcs 0 0) = false := by decide

theorem test_wellFormed_okSpace : wellFormed (.registerWrite .oob (.bar0 256) 0 0) = false := by decide

theorem test_wellFormed_okOff : wellFormed (.registerWrite .oob .dcs 0x10000000 0) = false := by decide

theorem test_wellFormed_okLen : wellFormed (.irregularAccess .oob .dcs 0 4097 0 none) = false := by decide

theorem test_wellFormed_okTag : wellFormed (.irregularAccess .oob .dcs 0 0 16384 none) = false := by decide

theorem test_wellFormed_okPll : wellFormed (.phyPllLockLost 3 0 false) = false := by decide

theorem test_wellFormed_okDom : wellFormed (.powerUp .oob 24) = false := by decide

theorem test_wellFormed_okSensor : wellFormed (.sensorUpdate 40 0) = false := by decide

theorem test_wellFormed_ok16 : wellFormed (.fuse .oob 65536) = false := by decide

theorem test_wellFormed_okMon : wellFormed (.bwWindowEnd 16) = false := by decide

theorem test_wellFormed_okFn : wellFormed (.apertureRead 256 0 0 0) = false := by decide

theorem test_wellFormed_okCfg : wellFormed (.configRequest 0 (.read 6)) = false := by decide

theorem test_wellFormed_okCfgField : wellFormed (.configRequest 0 (.field (.bar 6))) = false := by decide

theorem test_wellFormed_okAo : wellFormed (.apertureRead 0 0 0x1000000000 0) = false := by decide

theorem test_wellFormed_okData : wellFormed (.apertureWrite 0 0 (List.replicate 4097 0)) = false := by
  show (okFn 0 && okAo 0 && okData _) = false
  rw [okData, List.length_replicate]
  decide

theorem test_wellFormed_ok128 : wellFormed (.apertureAtomic 0 0 0 .fetchAdd64 (2 ^ 128) 0) = false := by decide

theorem test_wellFormed_ok64 : wellFormed (.apertureCommit 0 (2 ^ 64)) = false := by decide

theorem test_wellFormed_okEngine : wellFormed (.invalRange .oob (.xlp 256) 0) = false := by decide

theorem test_wellFormed_ok20 : wellFormed (.invalRange .oob .xl 0x100000) = false := by decide

theorem test_wellFormed_okLink : wellFormed (.pcieLinkTrained ⟨4, false⟩ 0 0) = false := by decide

theorem test_wellFormed_ok3 : wellFormed (.pcieLinkTrained ⟨0, false⟩ 8 0) = false := by decide

theorem test_wellFormed_okWidth : wellFormed (.pcieLinkTrained ⟨0, false⟩ 0 17) = false := by decide

theorem test_wellFormed_okQueue : wellFormed (.doorbell 0 4096 0) = false := by decide

theorem test_wellFormed_ok32 : wellFormed (.doorbell 0 0 0x100000000) = false := by decide

theorem test_wellFormed_okSlot : wellFormed (.qInvalSlot .oob 0 256) = false := by decide

theorem test_wellFormed_okRef : wellFormed (.nop ⟨0, 0, 0x100000000⟩) = false := by decide

theorem test_wellFormed_ok22 : wellFormed (.revocationDone 0x400000) = false := by decide

theorem test_wellFormed_okSlt : wellFormed (.requestPacket { op := .ack, psn := 0x100000000 } {}) = false := by decide

theorem test_wellFormed_okQp : wellFormed (.winQueryResend 0x100000) = false := by decide

theorem test_wellFormed_okRoce : wellFormed (.roceRequest { op := .ack, psn := 0x1000000 } {}) = false := by decide

theorem test_wellFormed_okVl : wellFormed (.vlSignalDetect 16 0) = false := by decide

theorem test_wellFormed_ok2 : wellFormed (.vlSignalDetect 0 4) = false := by decide

theorem test_wellFormed_okFlit : wellFormed (.statusFlit 0 { credit := List.replicate 9 0 }) = false := by decide

theorem test_wellFormed_ok48 : wellFormed (.time 0 0x1000000000000 0 false {}) = false := by decide

theorem test_wellFormed_okNs : wellFormed (.time 0 0 1000000000 false {}) = false := by decide

theorem test_wellFormed_okInp : wellFormed (.packetHead (some 16) 0 { dst := 0, src := 0 } false) = false := by decide

theorem test_wellFormed_okCodeword : wellFormed (.statusFlit 0 { cw := some ([1024], []) }) = false := by decide

theorem test_wellFormed_okHdr : wellFormed (.packetHead none 0 { dst := 65536, src := 0 } false) = false := by decide

theorem test_wellFormed_ok8 : wellFormed (.e2eCredit 0 0 256 false) = false := by decide

theorem test_wellFormed_okPort : wellFormed (.frameReceived 32 { bytes := [] } false) = false := by decide

theorem test_wellFormed_okFrame : wellFormed (.frameReceived 0 { bytes := List.replicate 65536 0 } false) = false := by
  have long : ∀ bs : List Byte, ¬bs.length < 2 ^ 16 → wellFormed (.frameReceived 0 { bytes := bs } false) = false := fun bs h => by
    show (okPort 0 && (decide (bs.length < 2 ^ 16) && _)) = false
    rw [decide_eq_false h]
    rfl
  exact long _ (by rw [List.length_replicate]; decide)

theorem test_wellFormed_okBlk : wellFormed (.stepNop 160) = false := by decide

theorem test_wellFormed_ok30 : wellFormed (.scrub 0 0x40000000 .clean false) = false := by decide

theorem test_wellFormed_ok6 : wellFormed (.laneRepairDone 0 64) = false := by decide

theorem test_wellFormed_ok18 : wellFormed (.journalRecordBeyondEcc 0x40000) = false := by decide

theorem test_wellFormed_okRes : wellFormed (.setLimit .oob 0 16) = false := by decide

theorem test_wellFormed_okPage : wellFormed (.pageZeroed 262144) = false := by decide

theorem test_wellFormed_okStep : wellFormed (.startStepComplete 11 0 .plain) = false := by decide

theorem test_wellFormed_ok7 : wellFormed (.i3cDynamicAddress 128) = false := by decide

theorem test_wellFormed_okSamples : wellFormed (.uartFrame (List.replicate 161 true)) = false := by decide

/-- Commands whose operands are at their greatest values are accepted. -/
theorem test_wellFormed_greatest :
    wellFormed (.doorbell 255 4095 0xFFFFFFFF) = true ∧ wellFormed (.registerWrite (.host 255) (.bar0 255) 0xFFFFFFF 0) = true ∧
    wellFormed (.startStepComplete 10 0 .plain) = true ∧ wellFormed (.packetHead (some 15) 7 { dst := 65535, src := 65535, cls := 3 } true) = true ∧
    wellFormed (.apertureAtomic 0 16383 0xFFFFFFFFF .cas128 (2 ^ 128 - 1) 0) = true := by decide

namespace Machine

/-! ### States for the witnesses -/

/-- A state with fields of registers set: field, instance, value. -/
def tFld (s : State) (l : List (Fld × Nat × Nat)) : State :=
  { s with flds := l.foldl (fun m x => AMap.put m (x.1.key x.2.1 0) x.2.2) s.flds }

/-- A function that is served. -/
def tFn : Fn := { state := .active, mse := true, bme := true, msixEn := true }

/-- A device in SERVICE with everything on: PF 0 is the manager, VF 1 a tenant; each holds 4 pages and a Block. -/
def tBase : State :=
  tFld { State.reset with
    dev := { state := .service, starting := false, doms := (List.range 24).map fun i => (i, .on) },
    fns := [(0, tFn), (1, tFn)],
    links := [(0, { perst := false })],
    img := { mayOn := List.range 24, totalVfs := [(0, 63)] },
    ten := { alloc := [(0, { window := 64, qCount := 8, qpCount := 8, tsCount := 64 }),
                       (1, { window := 64, qBase := 8, qCount := 8, qpBase := 8, qpCount := 8, tsBase := 64, tsCount := 64 })],
             pages := [(0, (4, 0)), (4, (4, 1))], blocks := [(0, 0), (1, 1)], chans := [(0, 0)],
             kiosks := [(0, {}), (1, {})] } }
    [(F.imgStatusAccepted, 0, 1), (F.hpPortCfgMgrActive, 0, 1), (F.rstStateStep, 0, 10), (F.hpLinkStatusState, 0, 2)]

/-- The same device in another state. -/
def tDev (x : DevState) : State := { tBase with dev := { tBase.dev with state := x } }

/-- A start in progress after step n. -/
def tStart (n : Nat) : State := tFld State.reset [(F.rstStateStep, 0, n)]

/-- A descriptor of the manager. -/
def tR : OpRef := { fn := 0, q := 0, pos := 0 }

/-- The device with one descriptor that may start, and bytes in HBM. -/
def tOpS (d : Desc) (m : List Host.Cell) : State :=
  { tBase with ops := [{ ref := tR, d := d }], queues := [(0, { state := .active, tail := 1, fetch := 1 })], mem := m }

/-- The operation of such a descriptor. -/
def tO (d : Desc) : Op := { ref := tR, d := d }

/-- The operation of a descriptor that has its Journal record. -/
def tJO (d : Desc) : Op := { tO d with jrec := some 0 }

/-- The device with a descriptor that has its Journal record, and a window of 2 MiB in slot 0 of the aperture. -/
def tJ (d : Desc) : State :=
  tFld { tOpS d [] with
    ops := [tJO d],
    wins := [(1, { state := .valid, base := 0, len := 0x200000, r := true, w := true })],
    apts := [(0, { slots := [(0, { wkey := 0x401, v := true, r := true, w := true })] })] }
    [(F.aptCtrlEnable, 0, 1)]

/-- The device with its last Ethernet port in a state. -/
def tEn (x : EState) : State := { tBase with en := [(31, { state := x })] }

/-- An exception frame on the wire. -/
def tWire : WireFrame := { f := { q := 0, len := 64, kind := .exc 1 [1] true } }

/-- The device with its lane groups in Ethernet mode. -/
def tEnMode : State := tFld tBase [(F.enCfgLgEth, 0, 15)]

/-- A frame with a right check sequence, its other octets all the same. -/
def tFrame (n x : Nat) : List Byte :=
  List.replicate n (BitVec.ofNat 8 x) ++ leBytes (fcsOf (List.replicate n (BitVec.ofNat 8 x))) 4

/-- The device with its other flash bank in a state. -/
def tFw (x : BankState) : State := { tBase with fw := { bank0 := { state := .active }, bank1 := { state := x } } }

/-- The device on trial of its other bank. -/
def tTrial : State := { tBase with fw := { bank0 := { state := .fallback }, bank1 := { state := .trial }, runBank := 1 } }

theorem tFrame_length (n x : Nat) : (tFrame n x).length = n + 4 := by simp [tFrame]

theorem tFrame_fcs (n x : Nat) :
    leAt (tFrame n x) ((tFrame n x).length - 4) 4 = fcsOf ((tFrame n x).take ((tFrame n x).length - 4)) := by
  have h : (tFrame n x).take n = List.replicate n (BitVec.ofNat 8 x) := by simp [tFrame]
  have e := leAt_append (List.replicate n (BitVec.ofNat 8 x)) (fcsOf (List.replicate n (BitVec.ofNat 8 x))) 4
  rw [List.length_replicate] at e
  rw [tFrame_length, Nat.add_sub_cancel, h]
  have l := fcsOf_lt (List.replicate n (BitVec.ofNat 8 x))
  exact e.trans (Nat.mod_eq_of_lt (by omega))

theorem tFrame_long : (tFld (tEn .up) [(F.enPortCfgMaxFrame, 31, 1518)]).maxFrame 31 < (tFrame 1515 0).length := by
  rw [tFrame_length]; decide

/-- What admitting an operation gives, where a record is free. -/
def tAdm (s : State) (o : Op) (a : Nat) (h : (s.admitLocal o 2 a).isSome = true) : Op × State := (s.admitLocal o 2 a).get h

theorem tAdm_eq (s : State) (o : Op) (a : Nat) (h : (s.admitLocal o 2 a).isSome = true) :
    s.admitLocal o 2 a = some ((tAdm s o a h).1, (tAdm s o a h).2) := (Option.some_get h).symm

/-- The device with its key-encryption key set. -/
def tKek : State :=
  { tBase with fw := { tBase.fw with kek := some 0x000102030405060708090A0B0C0D0E0F101112131415161718191A1B1C1D1E1F#256 }
               mem := writeBytes [] 0 (beBytes 0x28C9F404C4B810F4CBCCB35CFB87F8263F5786E2D80ED326CBC7F0E71A99F43BFB988B9B7A02DD21 40) }

/-- A turnstile operation of the manager on the last turnstile. -/
def tTsO (code : Nat) : Op := tJO { opcode := 24, var := code, opx := 2 ^ 44 + 0xFFFF0 }

/-- The device with it. -/
def tTs (code : Nat) : State := { tBase with ops := [tTsO code], queues := [(0, { state := .active, tail := 1, fetch := 1 })] }

/-- The device with Block 0 running a table of one step. -/
def tStep (w : Nat) : State := { tBase with blks := [(0, { state := .running, steps := [w], slots := 0x1000 })] }

/-- The device with Block 0 running and one step outstanding. -/
def tOuts (o : SeqOut) : State := { tBase with blks := [(0, { state := .running, outs := [o] })] }

/-- A live residency entry of Block 0. -/
def tRes : Resident := { base := 0, region := 0, len := 4096, state := .live, load := false, blk := 0, fn := 0 }

/-- The device with a domain in a state. -/
def tDom (d : Nat) (x : DomState) : State := { tBase with dev := { tBase.dev with doms := AMap.put tBase.dev.doms d x } }

/-- A set-up block for an SLT QP to node 1. -/
def tBlock : List Byte := leBytes 0 4 ++ leBytes 1 2 ++ leBytes 0 10 ++ leBytes 1 8 ++ leBytes 1 2 ++ leBytes 0 38

/-- The device with QP 5. -/
def tQp (x : Qp) : State := { tBase with qps := [(5, x)] }

/-- A turnstile that function 1 of node 0 holds, with one operation that waits for the lock, and that operation. -/
def tWait : TsWaiter := { src := .engine, user := { node := 65535, fn := 255 }, want := .lock, key := none }

def tHeld : Turnstile := { owner := mkOwner { node := 0, fn := 1 } 1 0, waiters := [tWait] }

theorem tStarts (c : Nat) (_ : c ∈ [16, 17, 20, 21, 22]) : (tOpS { opcode := c } []).starting tR c = some (tO { opcode := c }) := by
  simp only [List.mem_cons, List.not_mem_nil, or_false] at *
  rcases ‹_› with rfl | rfl | rfl | rfl | rfl <;> rfl

theorem tStartsTs (v : Nat) (_ : v ∈ [1, 2, 3, 4, 5, 6, 8, 9, 10, 11, 12]) :
    (tOpS { opcode := 24, var := v } []).starting tR 24 = some (tO { opcode := 24, var := v }) := by
  simp only [List.mem_cons, List.not_mem_nil, or_false] at *
  rcases ‹_› with rfl | rfl | rfl | rfl | rfl | rfl | rfl | rfl | rfl | rfl | rfl <;> rfl

/-- The device with a descriptor whose QP leads to node 1. -/
def tRem (c v : Nat) : State :=
  { tOpS { opcode := c, var := v, qp := 5, rkey := 0x401 } [] with qps := [(5, { state := .connected, peerNode := 1 })] }

theorem tStartsRem (c : Nat) (_ : c ∈ [16, 17, 20, 21, 22]) :
    (tRem c 0).starting tR c = some (tO { opcode := c, qp := 5, rkey := 0x401 }) := by
  simp only [List.mem_cons, List.not_mem_nil, or_false] at *
  rcases ‹_› with rfl | rfl | rfl | rfl | rfl <;> rfl

theorem tStartsRemTs (v : Nat) (_ : v ∈ [1, 2, 3, 4, 5, 6, 8, 9, 10, 11, 12]) :
    (tRem 24 v).starting tR 24 = some (tO { opcode := 24, var := v, qp := 5, rkey := 0x401 }) := by
  simp only [List.mem_cons, List.not_mem_nil, or_false] at *
  rcases ‹_› with rfl | rfl | rfl | rfl | rfl | rfl | rfl | rfl | rfl | rfl | rfl <;> rfl

/-- The device with an ARM and its second entry. -/
def tArm (v : Nat) : State :=
  { tOpS {} [] with
    ops := [tO { opcode := 48, var := v, opx := 2 ^ 44 + 0xFFFF0 }, { ref := { fn := 0, q := 0, pos := 1 }, d := {}, phase := .armed }] }

/-- The device with a descriptor that loads a step table into Block 0. -/
def tLoad (c : Nat) (x : Blk) : State :=
  tFld { tOpS { opcode := c, var := 0, len := 64, flags := 16 } [] with blks := [(0, x)] } [(F.blkDistStatusInService, 0, 0xFFFFF)]

/-- The device with QP 5, its context on die. -/
def tNet (x : Qp) : State := { tQp x with pipes := [(1, { sets := [(1, [5])] })] }

/-- A connected QP whose peer is QP 7 of node 1, and a packet from there. -/
def tPeer : Qp := { state := .connected, peerNode := 1, peerQp := 7 }

def tPkt (op : SltOp) : SltPkt := { op := op, srcNode := 1, srcQp := 7, dstQp := 5 }

/-- An import record whose IMPORT waits on QP 5. -/
def tImp : Import := { fn := 0, node := 1, index := 1, state := .importing, asked := some 0x401, askQp := 5 }

/-- The device with self-test on, and deferrals. -/
def tBist (d : AMap Nat) : State :=
  tFld { tBase with bist := { defers := d } } [(F.bistCtrlEnable, 0, 1), (F.bistCtrlKindEn, 0, 31)]

/-- Block 0 running a turnstile step on turnstile 0. -/
def tSeqTs (w : Nat) : State :=
  { tBase with blks := [(0, { state := .running, steps := [w], slots := 0x1000, store := [(0x1005, 0x10#8)] })] }

/-- QP 5 connected, with a state of its rate control. -/
def tRate (x : RateCtl) : State := { tQp { state := .connected } with cc := { rate := [(5, x)] } }

/-- The device with an established session of the owner. -/
def tOwner : State :=
  { tBase with spdm := { stage := 3, sessions := [{ id := 1, up := true, owner := some 0 }] },
               fw := { tBase.fw with owner := [{ set := true }, {}, {}, {}] } }

/-- The device with its last Valir link in a state. -/
def tVl (x : VLink) : State := { tBase with vl := { links := [(15, x)] } }

/-- A live link that holds two flits for replay. -/
def tVlHeld : VLink :=
  { state := .active, nextFseq := 2, buf := [{ h := { dst := 1, src := 0, len := 2 }, i := 0, vc := 0 },
                                              { h := { dst := 1, src := 0, len := 2 }, i := 1, vc := 0 }] }

/-- A live link with a packet queued on VC 0, after 39 data flits in a row. -/
def tVlFull : VLink := { state := .active, slot := 3, run := 39, queue := [{ h := { dst := 1, src := 0, len := 2 }, vc := 0, got := 2 }] }

/-- Operands of a vector operation on registers. -/
def tArgs : VopArgs :=
  { a := { kind := 0, idx := 1 }, b := { kind := 0, idx := 2 }, c := { kind := 0, idx := 3 }, d := { kind := 0, idx := 0 },
    mask := 0, sfmt := 0, tfmt := 0, cb := 0, rep := 0 }

/-- Window 1 of function 1, of a generation. -/
def tWin (g : Nat) : State := { tBase with wins := [(1, { state := .valid, gen := g, owner := 1 })] }

/-- Queue 7 of the manager. -/
def tQu (x : Queue) : State := { tBase with queues := [(7, x)] }

/-- The device with a NOP in a ring in HBM. -/
def tNop : State := { tOpS {} [] with flds := [(F.qfCfgMedium.key 0 0, 1)] }

theorem tDl_flag (s : State) (h : (s.flds.all fun e => e.1 / 64 % 512 != Reg.fnDlCtrl.ctorIdx % 512) = true) (fn : Nat) :
    s.flag F.fnDlCtrlHbmEn fn = false := by
  have b : F.fnDlCtrlHbmEn.key fn 0 = (fn * 512 + Reg.fnDlCtrl.ctorIdx) * 64 + 0 + F.fnDlCtrlHbmEn.pos 0 := rfl
  have p : F.fnDlCtrlHbmEn.pos 0 < 64 := by decide
  have k : F.fnDlCtrlHbmEn.key fn 0 / 64 % 512 = Reg.fnDlCtrl.ctorIdx % 512 := by omega
  have none : ∀ m : AMap Nat, (m.all fun e => e.1 / 64 % 512 != Reg.fnDlCtrl.ctorIdx % 512) = true →
      AMap.find m (F.fnDlCtrlHbmEn.key fn 0) = none := by
    intro m
    induction m with
    | nil => intro; rfl
    | cons e m ih =>
      intro hm
      simp only [List.all_cons, Bool.and_eq_true, bne_iff_ne] at hm
      have ne : F.fnDlCtrlHbmEn.key fn 0 ≠ e.1 := fun q => hm.1 (q ▸ k)
      simp only [AMap.find, if_neg ne, ih hm.2]
  simp only [State.flag, State.fld, none _ h, Option.getD_none]
  decide

theorem tNop_flag (fn : Nat) : tNop.flag F.fnDlCtrlHbmEn fn = false := tDl_flag _ (by decide) fn

/-! ### Values that the spec works out -/

/-- Table 0.4 and the example of chapter 18: the capability registers of a CX940 and of a CX920. -/
theorem test_capabilities :
    ({ tBase with fuses := { tBase.fuses with variant := .cx940 } } : State).regValue .idCapUnits 0 = 0x0FFFFFFF ∧
    ({ tBase with fuses := { tBase.fuses with variant := .cx920 } } : State).regValue .idCapUnits 0 = 0x0FFF0F0F ∧
    ({ tBase with fuses := { tBase.fuses with variant := .cx920 } } : State).regValue .idCapSizes 0 = 0x400420304014 := by decide

/-- Chapter 22, example: TX_UNDERRUN of EP20 and BLK.STATUS of Block 42. -/
theorem test_register_places :
    locate dcsLocs 0x4006270 = some (.enStat, 20 * 22 + 14) ∧ locate dcsLocs 0x5012A00 = some (.blkStatus, 42) := by decide

/-- R156: two keys. -/
theorem test_window_keys : mkKey 0x1A2B 5 = 0x0068AC05 ∧ mkKey 0x2C4 3 = 0x000B1003 ∧ keyIndex 0x0068AC05 = 0x1A2B ∧ keyGen 0x000B1003 = 3 := by
  decide

/-- Chapter 2, example: slot 3 of FN 5 at node 0x0307, mapped to a window of 8 GiB on node 0x0312. -/
def tMapped : State :=
  { tFld tBase [(F.idNodeIdRack, 0, 3), (F.idNodeIdPos, 0, 7), (F.aptCtrlEnable, 5, 1)] with
    apts := [(5, { slots := [(3, { wkey := 0x0068AC05, woff := 2, r := true, v := true, qp := 0x4C10, home := .imported 0x0312 })] })],
    imports := [{ fn := 5, node := 0x0312, index := 0x1A2B, state := .valid, key := 0x0068AC05, base := 0x0312002000000000,
                  len := 0x200000000, r := true, qp := 0x4C10 }] }

theorem test_convert_a2f : tMapped.cvtA2f 5 0x601040 = some (0x0312002000401040, 0x0068AC05) := by decide
theorem test_convert_f2a : tMapped.cvtF2a 5 0x0312002000401040 0x0068AC05 = some 0x601040 := by decide

/-- Chapter 5, example: the ring of 64 entries of queue 3 of FN 12; TAIL from 66 to 68 is taken, and 126 sets DB_ERR. -/
def tRing : State :=
  { tBase with
    fns := [(0, tFn), (12, tFn)],
    ten := { tBase.ten with alloc := [(12, { qCount := 4 })] },
    queues := [(qObj 12 3, { state := .active, oldest := 61, fetch := 66, tail := 66 })] }

theorem test_doorbell_taken : ((tRing.doorbell 12 3 68).queue 12 3).tail = 68 ∧ (tRing.doorbell 12 3 68).flag F.qfStatusDbErr (qObj 12 3) = false := by
  decide
theorem test_doorbell_refused :
    ((tRing.doorbell 12 3 126).queue 12 3).tail = 66 ∧ (tRing.doorbell 12 3 126).flag F.qfStatusDbErr (qObj 12 3) = true := by decide

/-- Chapter 5, example: the bytes of a posted WRITE. -/
theorem test_descriptor :
    Desc.ofBytes (leBytes 0x210 4 ++ leBytes 0xA31 4 ++ leBytes 0x1000 4 ++ leBytes 0x000B1003 4 ++ leBytes 0x7F1000040000 8 ++
      leBytes 0x40 8 ++ leBytes 0x100000 8 ++ leBytes 0 23 ++ [0x80#8]) =
    { opcode := 0x10, flags := 2, qp := 0xA31, len := 0x1000, rkey := mkKey 0x2C4 3, laddr := 0x7F1000040000, opx := 0x100000,
      own := true } := by decide

/-- Chapter 6, example: the owner field of turnstile 0x0412 as it passes from FN 20 of node 0x0312 to FN 33 of node 0x0307. -/
theorem test_turnstile_owner :
    (Turnstile.ownerField (Turnstile.apply {} 0x08 0 0 { node := 0x0312, fn := 20 } .engine none false).1 = 0x0312140100000000) ∧
    (Turnstile.ownerField (Turnstile.pass { owner := 0x0312140100000000 } true).1 = 0x0312140200000000) ∧
    (Turnstile.ownerField (Turnstile.apply { owner := 0x0312140200000000 } 0x08 0 0 { node := 0x0307, fn := 33 } .engine none false).1 =
      0x0307210100000000) := by decide
theorem test_turnstile_release :
    (Turnstile.apply { owner := 0x0307210100000000 } 0x0A 0 0 { node := 0x0312, fn := 20 } .engine none false).2.1 =
      [{ src := .engine, st := .tsNotOwner }] ∧
    Turnstile.ownerField (Turnstile.apply { owner := 0x0307210100000000 } 0x0A 0 0 { node := 0x0307, fn := 33 } .engine none false).1 = 0 := by
  decide

/-- Chapter 8, example: credit −40,000 bytes, CEIL 2,000 MB/s and BURST 32,768 bytes written: −32,518 after the tick; with CLEAR_DEBT 250. -/
theorem test_shaper_refill :
    (Shaper.refill { credit := -320000, ceil := 8000, burst := 65536, rate := 8000 } 2000 32768 2000).credit = -32518 * 8 ∧
    (Shaper.refill { credit := -320000, ceil := 8000, burst := 65536, rate := 8000, clear := true } 2000 32768 2000).credit = 250 * 8 := by
  decide

/-- Chapter 8, example: the seventh packet of 4,168 bytes may start, an eighth may not. -/
theorem test_shaper_allows :
    Shaper.allows { credit := (250 - 6 * 4168) * 8, burst := 32768 } 4168 = true ∧
    Shaper.allows { credit := (250 - 7 * 4168) * 8, burst := 32768 } 4168 = false := by decide

/-- Chapter 9, example: PATH 0x2D over four parallel links selects links 5, 7 and 6 of −X, and link 10 of +Y at HOPS 5. -/
theorem test_route_choice :
    (tBase.vlChoose { dst := 0x0312, src := 0x0307, path := 0x2D, hops := 0 } 0 [(4, 0), (5, 0), (6, 0), (7, 0)]) = some (5, 0) ∧
    (tBase.vlChoose { dst := 0x0312, src := 0x0307, path := 0x2D, hops := 1 } 0 [(4, 0), (5, 0), (6, 0), (7, 0)]) = some (7, 0) ∧
    (tBase.vlChoose { dst := 0x0312, src := 0x0307, path := 0x2D, hops := 5 } 0 [(8, 2), (9, 2), (10, 2), (11, 2)]) = some (10, 2) := by decide

/-- Chapter 9, example: with VL6 down, index 2 of the live list selects VL7. -/
theorem test_route_choice_link_down :
    (tBase.vlChoose { dst := 0x0312, src := 0x0307, path := 0x2D, hops := 2 } 0 [(4, 0), (5, 0), (7, 0)]) = some (7, 0) := by decide

/-- Chapter 11, example: four products by the product table and a prior 0.5 make 1.796875. -/
def tProducts : List Byte :=
  [4#8, 0xF4#8, 7#8, 7#8] ++ leBytes 0 4 ++ leBytes 0x4000 2 ++ List.replicate (2 * 152) 0#8 ++ leBytes 0x40 2 ++ List.replicate (2 * 35) 0#8 ++
    leBytes 0x480 2 ++ List.replicate (2 * 50) 0#8 ++ leBytes 0xD000 2 ++ List.replicate (2 * 15) 0#8

theorem test_product_table :
    tProducts.length = 520 ∧ ptEntry tProducts true 0 0 = 16384 ∧ ptEntry tProducts true 11 13 = 1152 ∧ ptEntry tProducts true 15 0 = -12288 ∧
    ptOutput tProducts true (fp32.decode 0x3F000000) [(0, 127), (15, 127), (11, 127), (9, 127), (8, 127)]
      [(0, 127), (0, 127), (13, 127), (9, 127), (3, 127)] = (0x3FE60000, {}) := by decide

/-- Chapter 12, example: the step word of the MMA of the tile. -/
def tMmaWord : Nat := leNat [0x10#8, 0#8, 3#8, 0#8, 0#8, 0x10#8, 0x21#8]

theorem test_step_word : bits tMmaWord 7 0 = 0x10 ∧ bits tMmaWord 23 16 = 3 ∧ bit tMmaWord 44 = true ∧ bits tMmaWord 51 48 = 1 ∧ bits tMmaWord 55 52 = 2 := by
  decide

/-- Chapter 13, example: 1.0, 2^−8 and 2^−8 in BF16 add up to 0x3F81, and not to 0x3F80. -/
theorem test_reduce_exact :
    (CFmt.float (.float bf16)).roundOne 0
      ((Elem.add ((CFmt.float (.float bf16)).term 127 0x3F80) ((CFmt.float (.float bf16)).term 127 0x3B80)).add
        ((CFmt.float (.float bf16)).term 127 0x3B80)) = (0x3F81, {}) := by decide

/-- Chapter 13, example: bits that hold the values of a rack partial. -/
theorem test_partial_width : bitsFor (2 ^ 30 - 1) = 31 ∧ bitsFor (-(2 ^ 30)) = 31 := by decide

/-- Chapter 16, example: six functions in EQUAL_SHARE. -/
theorem test_equal_share :
    (tFld { tBase with ten := { tBase.ten with equal := some (6, false) } } [(F.fnRateTotalTotal, 0, 256000)]).rateLimit 70 = 42666 ∧
    (({ tBase with ten := { tBase.ten with equal := some (6, false) } } : State).squareLimit 12 = 128) ∧
    (({ tBase with ten := { tBase.ten with equal := some (6, false) } } : State).windowLimit 12 = 699050) := by decide

/-- Chapter 17, example: JREC 0x5210 lies in slice 1. -/
theorem test_journal_slice : sliceOf 0x5210 = 1 ∧ sliceOf 0x5211 = 1 ∧ sliceOf 0x5212 = 1 := by decide

/-- Chapter 20, example: a window of 1,262 W under a limit of 1,250 W raises STAGE by 2. -/
def tGov (stage : Nat) : State :=
  tFld { tBase with fuses := { tBase.fuses with variant := .cx940 } }
    [(F.clkpwrGovCfgPkgLimitW, 0, 1250), (F.clkpwrGovCfgDFloor, 0, 4), (F.clkpwrGovCfgHFloor, 0, 4), (F.clkpwrGovStatusStage, 0, stage)]

theorem test_governor_up : ((tGov 0).governorWindow 1262).fld F.clkpwrGovStatusStage = 2 ∧ ((tGov 0).governorWindow 1262).fld F.clkpwrGovCntOver = 1 := by
  decide

/-- Chapter 20, example: 1,190 W is calm and the hundredth such window lowers STAGE; 1,226 W is not. -/
theorem test_governor_calm :
    (({ tGov 2 with gov := { (tGov 2).gov with calm := 99 } } : State).governorWindow 1190).fld F.clkpwrGovStatusStage = 1 ∧
    (({ tGov 1 with gov := { (tGov 1).gov with calm := 99 } } : State).governorWindow 1226).gov.calm = 0 := by decide

/-- Chapter 1, example: a remote read hit served at A2 for a Block of D2, for head flits at five ticks; R46, for a Block of D6. -/
theorem test_read_hit :
    [0, 8, 16, 24, 32].map (readHitDone 2 2) = [304, 312, 320, 328, 328] ∧ readHitAvenue 2 2 = 12 ∧ readHitAvenue 2 6 = 16 := by decide

/-- R517, R522, R524, R527: pins at reset and in SERVICE, and the bands of the monitors. -/
theorem test_pins :
    State.reset.trayFaultN = false ∧ tBase.trayFaultN = true ∧ ({ tBase with dev := { tBase.dev with pulse := true } } : State).trayFaultN = false ∧
    State.reset.uartPin = .level true ∧ ({ tBase with dev := { tBase.dev with state := .off } } : State).laneTx 31 = .highZ ∧
    railIn 1050 1123 = true ∧ railIn 1050 1124 = false ∧ railIn 700 651 = true ∧ railIn 700 650 = false ∧
    refclkOk 49 99900000 = true ∧ refclkOk 50 100000000 = false ∧ resetTaken 200 = some false ∧ resetTaken 1000 = some true := by decide

/-- The placement of chapter 14's worked example. -/
theorem test_hbm_placement :
    (stackOf 0x2000401040, pcOf 0x2000401040, colOf 0x2000401040, bankOf 0x2000401040, rowOf 0x2000401040) = (2, 16, 64, 1, 1) := by decide

/-- One wrong symbol is corrected, two are beyond the code, and so is a burst of the next line (R390). -/
theorem test_hbm_ecc :
    let w := eccWrite 0x10041 (List.range 32)
    w.length = 36 ∧ eccRead 0x10041 w = (.clean, List.range 32) ∧ eccRead 0x10041 (w.set 5 0xA5) = (.corrected 5, List.range 32) ∧
      (eccRead 0x10041 ((w.set 5 0xA5).set 33 0x11)).1 = .beyond ∧ (eccRead 0x10042 w).1 = .beyond := by decide

/-- A row that is open goes first, and what has waited 1,024 cycles goes before what is younger in its bank (R387). -/
theorem test_hbm_pick :
    hbmPick (fun _ => some 7) [⟨1, 3, 9⟩, ⟨1, 7, 2⟩] = some ⟨1, 7, 2⟩ ∧
      hbmPick (fun _ => some 7) [⟨1, 3, 1024⟩, ⟨1, 7, 2⟩, ⟨2, 3, 1⟩] = some ⟨1, 3, 1024⟩ := by decide

/-- Tables 1.12 and 1.13; R18: a bundle of 20 links that has lost one carries 1.9456 TB/s. -/
theorem test_path_figures :
    turnstileCycles.sum = 36 ∧ remoteWriteCycles.sum = 41 ∧
    ({ tBase with bist := { tBase.bist with linksOut := [47] } } : State).bundleRate 2 = 19456 := by decide

/-! ### Witnesses of the hypotheses of the obligations -/

/-- Witnesses of the hypotheses of ApertureCommitsAndFencesComplete. -/
theorem test_witness_ApertureCommitsAndFencesComplete :
    (∃ (s : State) (fn : Nat) (tag : Nat) (ao : Nat), s.aptAwaits fn tag ao = true) ∧
    (∃ (s : State) (fn : Nat) (tag : Nat) (ao : Nat) (st : Status), s.aptAwaits fn tag ao = true ∧ st ≠ Status.ok) ∧
    (∃ (s : State) (fn : Nat) (tag : Nat) (ao : Nat), s.aptAwaits fn tag ao = false) ∧
    (∃ (s : State) (fn tag ao len : Nat), (s.apt fn).reads = [{ tag := tag, len := len, parts := [(ao, AptPart.wait)] }] ∧ s.flag
      F.aptErrLogValid fn = false ∧ s.linkUp (s.linkOf fn) = true) ∧
    (∃ (s : State) (fn : Nat) (v : Nat), s.barAnswer fn = BarAns.served ∧ s.flag F.aptStatusBusy fn = false ∧ bit v 0 = false) ∧
    (∃ (s : State) (fn v : Nat) (h : KeyHome), s.barAnswer fn = BarAns.served ∧ s.flag F.aptStatusBusy fn = false ∧ bit v 0 = true ∧
      s.aptCommitCheck fn (bits v 63 32) (bits v 31 11) (s.apt fn).stagedQp = Except.ok h) ∧
    (∃ (s : State) (fn : Nat) (v : Nat) (st : Status), s.barAnswer fn = BarAns.served ∧ s.flag F.aptStatusBusy fn = false ∧ bit v 0 = true
      ∧ s.aptCommitCheck fn (bits v 63 32) (bits v 31 11) (s.apt fn).stagedQp = Except.error st) ∧
    (∃ (s : State) (fn : Nat), s.flag F.aptStatusBusy fn = true) ∧
    (∃ (s : State) (fn : Nat) (i : Nat) (e : AptEntry), s.flag F.aptStatusBusy fn = true ∧ (s.apt fn).held = [] ∧ (s.apt fn).commitSlot =
      some i ∧ (s.apt fn).commitEntry = some e) ∧
    (∃ (s : State) (fn : Nat), s.flag F.aptStatusBusy fn = true ∧ (s.apt fn).held = [] ∧ (s.apt fn).commitEntry = none) ∧
    (∃ (s : State) (fn : Nat), s.barAnswer fn = BarAns.served) ∧
    (∃ (s : State) (fn : Nat), (s.apt fn).fenced = false) :=
  ⟨⟨{ tBase with apts := [(0, { reads := [{ tag := 1, len := 8, parts := [(64, .wait)] }] })] }, 0, 1, 64, by decide⟩,
    ⟨{ tBase with apts := [(0, { reads := [{ tag := 1, len := 8, parts := [(64, .wait)] }] })] }, 0, 1, 64, .unreachable, by decide, by
      decide⟩,
    ⟨tBase, 0, 1, 64, by decide⟩,
    ⟨{ tBase with apts := [(0, { reads := [{ tag := 1, len := 8, parts := [(64, .wait)] }] })] }, 0, 1, 64, 8, by decide, by decide, by
      decide⟩,
    ⟨tBase, 0, 0, by decide, by decide, by decide⟩,
    ⟨{ tBase with wins := [(1, { state := .valid, owner := 1, len := 1 })] }, 1, 0x40100000001, .owned, by decide, by decide, by decide,
      by decide⟩,
    ⟨tBase, 0, 1, .keyInvalid, by decide, by decide, by decide, by decide⟩,
    ⟨tFld tBase [(F.aptStatusBusy, 0, 1)], 0, by decide⟩,
    ⟨{ tFld tBase [(F.aptStatusBusy, 0, 1)] with apts := [(0, { commitSlot := some 32767, commitEntry := some { v := true } })] }, 0,
      32767, { v := true }, by decide, by decide, by decide, by decide⟩,
    ⟨tFld tBase [(F.aptStatusBusy, 0, 1)], 0, by decide, by decide, by decide⟩,
    ⟨tBase, 0, by decide⟩,
    ⟨{ tBase with apts := [(0, { writes := [(0, false)] })] }, 0, by decide⟩⟩

/-- Witnesses of the hypotheses of ApertureRequestsComplete. -/
theorem test_witness_ApertureRequestsComplete :
    (∃ (s : State) (fn : Nat), s.barAnswer fn = BarAns.served ∧ s.aptFull fn = false) ∧
    (∃ (s : State) (fn : Nat), s.barAnswer fn = BarAns.served) ∧
    (∃ (s t : State) (fn tag ao : Nat) (kind : AtomicKind) (k : SltOp) (a b : Nat), s.barAnswer fn = BarAns.served ∧ aptAtomicOp kind =
      some k ∧ t = s.aptSeen fn (atomicBytes kind) (AptReq.atomic tag ao kind a b) ∧ t.aptWaits fn ao (AptReq.atomic tag ao kind a
      b).bytes true true = false ∧ s.aptFull fn = false) ∧
    (∃ (s : State) (fn : Nat) (kind : AtomicKind), s.barAnswer fn = BarAns.served ∧ aptAtomicOp kind = none ∧ kind ≠ .bar4) ∧
    (∃ (s : State) (fn ao len : Nat), s.barAnswer fn = BarAns.served ∧ (s.apt fn).commitSlot = some (ao / slotSize) ∧ ao % slotSize + len
      ≤ slotSize ∧ s.aptFull fn = false) ∧
    (∃ (s : State) (fn ao : Nat) (data : List Byte), s.barAnswer fn = BarAns.served ∧ (s.apt fn).commitSlot = some (ao / slotSize) ∧ ao %
      slotSize + data.length ≤ slotSize) ∧
    (∃ (s : State) (fn : Nat), s.barAnswer fn = BarAns.served ∧ s.aptFull fn = true) ∧
    (∃ (s : State) (fn : Nat), s.barAnswer fn = BarAns.unsupported) ∧
    (∃ (s : State) (fn : Nat) (kind : AtomicKind), s.barAnswer fn = BarAns.unsupported ∧ kind ≠ AtomicKind.bar4) :=
  ⟨⟨tBase, 0, by decide, by decide⟩,
    ⟨tBase, 0, by decide⟩,
    ⟨tBase, _, 0, 0, 0, .cas128, .cas128, 0, 1, by decide, by decide, rfl, by decide, by decide⟩,
    ⟨tBase, 0, .swap, by decide, by decide, by decide⟩,
    ⟨{ tBase with apts := [(0, { commitSlot := some 1 })] }, 0, 0x200000, 0x200000, by decide, by decide, by decide, by decide⟩,
    ⟨{ tBase with apts := [(0, { commitSlot := some 0 })] }, 0, 0x1FFFFF, [1#8], by decide, by decide, by decide⟩,
    ⟨{ tBase with apts := [(0, { reads := List.replicate 256 { tag := 1, len := 8, parts := [(64, .wait)] } })] }, 0, by decide, by
      decide⟩,
    ⟨{ tBase with fns := [(0, { state := .resetting })] }, 0, by decide⟩,
    ⟨{ tBase with fns := [(0, { state := .resetting })] }, 0, .bar0, by decide, by decide⟩⟩

/-- Witnesses of the hypotheses of BlockControlCommandsComplete. -/
theorem test_witness_BlockControlCommandsComplete :
    (∃ (s : State) (org : Origin) (sp : Space) (b : Nat) (k : Nat), s.seqTarget org sp b = some k ∧ (s.blk k).state = SeqState.running) ∧
    (∃ (s : State) (org : Origin) (sp : Space) (b : Nat) (k : Nat), s.seqTarget org sp b = some k ∧ (s.blk k).state ≠ SeqState.running) ∧
    (∃ (s : State) (b : Nat), (s.blk b).state = SeqState.running ∧ (s.blk b).pausing = true ∧ (s.blk b).outs = []) ∧
    (∃ (s : State) (org : Origin) (sp : Space) (b : Nat) (k : Nat), s.seqTarget org sp b = some k ∧ ((s.blk k).state = SeqState.paused ∨
      (s.blk k).state = SeqState.running ∧ (s.blk k).pausing = true)) ∧
    (∃ (s : State) (b : Nat), s.blkPresent b = true ∧ s.inService b = true ∧ (s.blk b).start = none ∧ (s.blk b).loading = none ∧ (s.blk
      b).waiting = []) :=
  ⟨⟨{ tBase with blks := [(0, { state := .running })] }, .host 0, .bar0 0, 0, 0, by decide, by decide⟩,
    ⟨tBase, .oob, .dcs, 159, 159, by decide, by decide⟩,
    ⟨{ tBase with blks := [(0, { state := .running, pausing := true })] }, 0, by decide, by decide, by decide⟩,
    ⟨{ tBase with blks := [(0, { state := .paused })] }, .host 0, .bar0 0, 0, 0, by decide, by decide⟩,
    ⟨tFld tBase [(F.blkDistStatusInService, 7, 0xFFFFF)], 159, by decide, by decide, by decide, by decide, by decide⟩⟩

/-- Witnesses of the hypotheses of CapabilitiesNeverChange. -/
theorem test_witness_CapabilitiesNeverChange :
    (∃ (c : Instr) (s : State) (t : State), exec c s = Host.Outcome.next t) :=
  ⟨.ftSyncTimeout, tBase, _, rfl⟩

/-- Witnesses of the hypotheses of ClockLossCommandsComplete. -/
theorem test_witness_ClockLossCommandsComplete :
    (∃ (s : State), s.dev.state = DevState.bringup ∨ s.dev.state = DevState.equalShare ∨ s.dev.state = DevState.service ∨ s.dev.state =
      DevState.drain) ∧
    (∃ (s : State) (kind : Nat) (n : Nat), kind < 3 ∧ s.domPresent (pllDomain kind n) = true ∧ s.fld (pllField kind) < 2 ^ (pllField
      kind).width) :=
  ⟨⟨tBase, by decide⟩,
    ⟨tBase, 2, 3, by decide, by decide, by decide⟩⟩

/-- Witnesses of the hypotheses of CollectiveCommandsComplete. -/
theorem test_witness_CollectiveCommandsComplete :
    (∃ (s : State) (r : OpRef) (o : Op) (k : Nat), s.starting r 32 = some o ∧ s.collKind o = some k ∧ k = 1) ∧
    (∃ (s : State) (r : OpRef) (o : Op) (k : Nat), s.starting r 32 = some o ∧ s.collKind o = some k ∧ k = 2) ∧
    (∃ (s : State) (r : OpRef) (o : Op) (k : Nat), s.starting r 32 = some o ∧ s.collKind o = some k ∧ k = 3) ∧
    (∃ (s : State) (r : OpRef) (o : Op) (k : Nat), s.starting r 32 = some o ∧ s.collKind o = some k ∧ k = 4) ∧
    (∃ (s : State) (r : OpRef) (o : Op) (k : Nat), s.starting r 32 = some o ∧ s.collKind o = some k ∧ k = 5) ∧
    (∃ (s : State) (r : OpRef) (o : Op) (k : Nat), s.starting r 32 = some o ∧ s.collKind o = some k ∧ k = 6) ∧
    (∃ (s : State) (r : OpRef) (o : Op), s.starting r 32 = some o ∧ o.d.len < 128 ∧ (s.collKind o = none ∨ s.collKind o = some 1)) ∧
    (∃ (s : State) (r : OpRef) (id : Nat) (c : Coll), List.find? (fun (e : Nat × Coll) => e.2.ref == r) s.colls = some (id, c) ∧ (c.slots
      ≠ 0 ∨ c.complete ≠ 0)) ∧
    (∃ (s : State) (slice id chunk : Nat) (c : Coll), s.colls.find id = some c ∧ (c.chunks.any fun (k : Chunk) => k.c == chunk && k.slot %
      8 == slice) = true) :=
  ⟨⟨tOpS { opcode := 0x20, flags := 0x10, laddr := 0, len := 128 } [(0, 1#8)], tR, _, 1, rfl, rfl, rfl⟩,
    ⟨tOpS { opcode := 0x20, flags := 0x10, laddr := 0, len := 128 } [(0, 2#8)], tR, _, 2, rfl, rfl, rfl⟩,
    ⟨tOpS { opcode := 0x20, flags := 0x10, laddr := 0, len := 128 } [(0, 3#8)], tR, _, 3, rfl, rfl, rfl⟩,
    ⟨tOpS { opcode := 0x20, flags := 0x10, laddr := 0, len := 128 } [(0, 4#8)], tR, _, 4, rfl, rfl, rfl⟩,
    ⟨tOpS { opcode := 0x20, flags := 0x10, laddr := 0, len := 128 } [(0, 5#8)], tR, _, 5, rfl, rfl, rfl⟩,
    ⟨tOpS { opcode := 0x20, flags := 0x10, laddr := 0, len := 128 } [(0, 6#8)], tR, _, 6, rfl, rfl, rfl⟩,
    ⟨tOpS { opcode := 0x20, flags := 0x10, laddr := 0, len := 127 } [(0, 1#8)], tR, _, rfl, by decide, by decide⟩,
    ⟨{ tBase with colls := [(3, { ref := tR, d := {}, slots := 1 })] }, tR, 3, _, rfl, .inl (by decide)⟩,
    ⟨{ tBase with colls := [(3, { ref := tR, d := {}, chunks := [{ c := 2, slot := 15 }] })] }, 7, 3, 2, _, rfl, by decide⟩⟩

/-- Witnesses of the hypotheses of DeviceResetLosesEverythingButWhatIsKept. -/
theorem test_witness_DeviceResetLosesEverythingButWhatIsKept :
    (∃ (s : State) (org : Origin), s.dev.resetLow = false ∧ s.dev.state ≠ DevState.off ∧ s.dev.state ≠ DevState.standby ∧ s.dcsOpen org
      65544 = true) ∧
    (∃ (s : State), s.dev.resetLow = false ∧ s.dev.state ≠ DevState.off ∧ s.dev.state ≠ DevState.standby) ∧
    (∃ (s : State) (org : Origin) (c : Nat), s.dcsOpen org 65544 = true ∧ s.dev.resetLow = false ∧ c ≠ 51520) :=
  ⟨⟨tBase, .oob, by decide, by decide, by decide, by decide⟩,
    ⟨{ State.reset with dev := { state := .fault } }, by decide, by decide, by decide⟩,
    ⟨tBase, .oob, 0xC941, by decide, by decide, by decide⟩⟩

/-- Witnesses of the hypotheses of DeviceStateCommandsComplete. -/
theorem test_witness_DeviceStateCommandsComplete :
    (∃ (s : State), s.dev.state = DevState.off) ∧
    (∃ (s : State), s.dev.state ≠ DevState.off) ∧
    (∃ (s : State), s.dev.porLow = true ∧ s.dev.state = DevState.standby ∧ s.dev.resetLow = false) ∧
    (∃ (s : State), s.dev.porLow = true ∧ s.dev.state = DevState.standby ∧ s.dev.resetLow = true) ∧
    (∃ (s : State), s.dev.state ≠ DevState.off ∧ s.dev.state ≠ DevState.standby) ∧
    (∃ (s : State), s.dev.resetLow = true ∧ s.dev.state = DevState.bringup) ∧
    (∃ (s : State), s.dev.pulse = true) ∧
    (∃ (s : State) (n : Nat), s.dev.state = DevState.bringup ∧ s.dev.starting = true ∧ s.dev.resetLow = false ∧ s.dev.pulse = false ∧ n =
      s.fld F.rstStateStep + 1 ∧ n = 1) ∧
    (∃ (s : State) (n : Nat), s.dev.state = DevState.bringup ∧ s.dev.starting = true ∧ s.dev.resetLow = false ∧ s.dev.pulse = false ∧ n =
      s.fld F.rstStateStep + 1 ∧ n = 2) ∧
    (∃ (s : State) (n : Nat), s.dev.state = DevState.bringup ∧ s.dev.starting = true ∧ s.dev.resetLow = false ∧ s.dev.pulse = false ∧ n =
      s.fld F.rstStateStep + 1 ∧ n = 3) ∧
    (∃ (s : State) (n : Nat), s.dev.state = DevState.bringup ∧ s.dev.starting = true ∧ s.dev.resetLow = false ∧ s.dev.pulse = false ∧ n =
      s.fld F.rstStateStep + 1 ∧ n = 4) ∧
    (∃ (s : State) (n : Nat), s.dev.state = DevState.bringup ∧ s.dev.starting = true ∧ s.dev.resetLow = false ∧ s.dev.pulse = false ∧ n =
      s.fld F.rstStateStep + 1 ∧ n = 5) ∧
    (∃ (s : State) (n : Nat), s.dev.state = DevState.bringup ∧ s.dev.starting = true ∧ s.dev.resetLow = false ∧ s.dev.pulse = false ∧ n =
      s.fld F.rstStateStep + 1 ∧ n = 6) ∧
    (∃ (s : State) (n : Nat), s.dev.state = DevState.bringup ∧ s.dev.starting = true ∧ s.dev.resetLow = false ∧ s.dev.pulse = false ∧ n =
      s.fld F.rstStateStep + 1 ∧ n = 7) ∧
    (∃ (s : State) (n : Nat), s.dev.state = DevState.bringup ∧ s.dev.starting = true ∧ s.dev.resetLow = false ∧ s.dev.pulse = false ∧ n =
      s.fld F.rstStateStep + 1 ∧ n = 8) ∧
    (∃ (s : State) (n : Nat), s.dev.state = DevState.bringup ∧ s.dev.starting = true ∧ s.dev.resetLow = false ∧ s.dev.pulse = false ∧ n =
      s.fld F.rstStateStep + 1 ∧ n = 9) ∧
    (∃ (s : State) (n : Nat), n ≠ s.fld F.rstStateStep + 1) ∧
    (∃ (s : State) (org : Origin), s.dev.state = .equalShare ∧ s.flag F.fnModeFrom = false ∧ s.flag F.fnStatusBusy = false ∧ s.dcsOpen org
      65544 = true) ∧
    (∃ (s : State), s.dev.state = .equalShare ∧ s.flag F.fnModeFrom = false ∧ s.flag F.fnStatusBusy = false) ∧
    (∃ (s : State) (org : Origin), s.dcsOpen org 0x9000000 = true ∧ s.dev.state = .service ∧ s.flag F.fnStatusBusy = false) ∧
    (∃ (s : State) (org : Origin), s.dcsOpen org 0x9000000 = true ∧ s.dev.state = .service ∧ s.flag F.fnStatusBusy = true) ∧
    (∃ (s : State) (org : Origin), s.dcsOpen org 150994944 = true ∧ s.dev.state = DevState.service) ∧
    (∃ (s : State) (org : Origin) (c : Instr), s.dcsOpen org 0x9000000 = true ∧ ((c = .enterEqual org ∧ s.dev.state ≠ .service) ∨ (c =
      .leaveEqual org ∧ (s.dev.state ≠ .equalShare ∨ s.flag F.fnModeFrom = false)) ∨ (c = .drain org ∧ s.dev.state ≠ .service ∧
      (s.dev.state ≠ .equalShare ∨ s.flag F.fnModeFrom = false)))) ∧
    (∃ (s : State) (org : Origin), s.dcsOpen org 0x9000000 = true ∧ s.dev.state = .equalShare ∧ s.flag F.fnModeFrom = true ∧ s.flag
      F.fnStatusBusy = false) ∧
    (∃ (s : State), s.dev.state = DevState.drain ∧ s.dev.drainSent = 0) ∧
    (∃ (s : State), s.dev.state = DevState.drain ∧ s.dev.drainSent ≠ 0) :=
  ⟨⟨{ State.reset with dev := { state := .off } }, by decide⟩,
    ⟨{ State.reset with dev := { state := .fault } }, by decide⟩,
    ⟨{ State.reset with dev := { state := .standby, porLow := true } }, by decide, by decide, by decide⟩,
    ⟨{ State.reset with dev := { state := .standby, porLow := true, resetLow := true } }, by decide, by decide, by decide⟩,
    ⟨tBase, by decide, by decide⟩,
    ⟨{ State.reset with dev := { state := .bringup, resetLow := true } }, by decide, by decide⟩,
    ⟨{ State.reset with dev := { state := .bringup, pulse := true } }, by decide⟩,
    ⟨{ State.reset with dev := { state := .bringup, starting := true } }, 1, by decide, by decide, by decide, by decide, by decide, by
      decide⟩,
    ⟨tStart 1, 2, by decide, by decide, by decide, by decide, by decide, by decide⟩,
    ⟨tStart 2, 3, by decide, by decide, by decide, by decide, by decide, by decide⟩,
    ⟨tStart 3, 4, by decide, by decide, by decide, by decide, by decide, by decide⟩,
    ⟨tStart 4, 5, by decide, by decide, by decide, by decide, by decide, by decide⟩,
    ⟨tStart 5, 6, by decide, by decide, by decide, by decide, by decide, by decide⟩,
    ⟨tStart 6, 7, by decide, by decide, by decide, by decide, by decide, by decide⟩,
    ⟨tStart 7, 8, by decide, by decide, by decide, by decide, by decide, by decide⟩,
    ⟨tStart 8, 9, by decide, by decide, by decide, by decide, by decide, by decide⟩,
    ⟨tStart 8, 10, by decide⟩,
    ⟨tDev .equalShare, .oob, by decide, by decide, by decide, by decide⟩,
    ⟨tDev .equalShare, by decide, by decide, by decide⟩,
    ⟨tBase, .oob, by decide, by decide, by decide⟩,
    ⟨tFld tBase [(F.fnStatusBusy, 0, 1)], .oob, by decide, by decide, by decide⟩,
    ⟨tBase, .oob, by decide, by decide⟩,
    ⟨tDev .equalShare, .oob, .drain .oob, by decide, .inr (.inr ⟨rfl, by decide, .inr (by decide)⟩)⟩,
    ⟨tFld (tDev .equalShare) [(F.fnModeFrom, 0, 1)], .oob, by decide, by decide, by decide, by decide⟩,
    ⟨tDev .drain, by decide, by decide⟩,
    ⟨{ tBase with dev := { state := .drain, drainSent := 1 } }, by decide, by decide⟩⟩

/-- Witnesses of the hypotheses of DmaOperationsComplete. -/
theorem test_witness_DmaOperationsComplete :
    (∃ (s : State) (r : OpRef) (o : Op), s.starting r 0 = some o) ∧
    (∃ (s : State) (r : OpRef) (o : Op), s.starting r 1 = some o ∧ o.d.len = 0) ∧
    (∃ (s : State) (t : State) (r : OpRef) (o : Op) (o' : Op), s.starting r 1 = some o ∧ o.d.len ≠ 0 ∧ s.behindParked o = false ∧ o.jrec ≠
      none ∧ s.admitLocal o 2 o.d.opx = some (o', t)) ∧
    (∃ (s : State) (t : State) (r : OpRef) (o : Op) (o' : Op), s.starting r 1 = some o ∧ o.d.len ≠ 0 ∧ s.behindParked o = false ∧ o.jrec =
      none ∧ s.admitLocal o 2 o.d.opx = some (o', t)) ∧
    (∃ (s : State) (t : State) (r : OpRef) (o : Op) (o' : Op), s.starting r 4 = some o ∧ s.behindParked o = false ∧ s.admitLocal o 2
      o.d.laddr = some (o', t)) ∧
    (∃ (s t : State) (r : OpRef) (o o' : Op), s.starting r 5 = some o ∧ (s.queue o.ref.fn o.ref.q).oldest = o.ref.pos ∧ (s.tags.any fun t
      => t.fn == o.ref.fn && !t.timedOut) = false ∧ (s.walks.any fun k => k.fn == o.ref.fn && k.started && !k.hbm) = false ∧
      s.behindParked o = false ∧ s.admitLocal o 2 o.d.laddr = some (o', t)) ∧
    (∃ (s : State) (r : OpRef) (o : Op), s.starting r 5 = some o ∧ ((s.queue o.ref.fn o.ref.q).oldest ≠ o.ref.pos ∨ (s.tags.any fun t =>
      t.fn == o.ref.fn && !t.timedOut) = true ∨ (s.walks.any fun k => k.fn == o.ref.fn && k.started && !k.hbm) = true)) ∧
    (∃ (s : State) (t : State) (r : OpRef) (o : Op) (o' : Op) (fga : Nat) (key : Nat), s.starting r 8 = some o ∧ s.admitLocal o 2 o.d.opx
      = some (o', t) ∧ o'.d = o.d ∧ t.cvtA2f o'.ref.fn o.d.opx = some (fga, key)) ∧
    (∃ (s : State) (t : State) (r : OpRef) (o : Op) (o' : Op), s.starting r 8 = some o ∧ s.admitLocal o 2 o.d.opx = some (o', t) ∧ o'.d =
      o.d ∧ t.cvtA2f o'.ref.fn o.d.opx = none) ∧
    (∃ (s : State) (t : State) (r : OpRef) (o : Op) (o' : Op) (ao : Nat), s.starting r 9 = some o ∧ s.admitLocal o 2 o.d.opx = some (o',
      t) ∧ o'.d = o.d ∧ t.cvtF2a o'.ref.fn o.d.opx o.d.rkey = some ao) ∧
    (∃ (s : State) (t : State) (r : OpRef) (o : Op) (o' : Op), s.starting r 10 = some o ∧ s.behindParked o = false ∧ s.admitLocal o 2
      o.d.opx = some (o', t)) ∧
    (∃ (s : State) (t : State) (r : OpRef) (o : Op) (o' : Op), s.starting r 11 = some o ∧ s.behindParked o = false ∧ s.admitLocal o 2
      o.d.opx = some (o', t)) :=
  ⟨⟨tOpS {} [], tR, _, rfl⟩,
    ⟨tOpS { opcode := 1 } [], tR, _, rfl, by decide⟩,
    ⟨tJ { opcode := 1, len := 1 }, tJ { opcode := 1, len := 1 }, tR, tJO { opcode := 1, len := 1 }, tJO { opcode := 1, len := 1 }, by
      decide, by decide, by decide, by decide, by decide⟩,
    ⟨tOpS { opcode := 1, len := 1 } [], (tAdm (tOpS { opcode := 1, len := 1 } []) (tO { opcode := 1, len := 1 }) 0 (by decide)).2, tR, _,
      (tAdm (tOpS { opcode := 1, len := 1 } []) (tO { opcode := 1, len := 1 }) 0 (by decide)).1, rfl, by decide, by decide, by decide,
      tAdm_eq _ _ _ _⟩,
    ⟨tJ { opcode := 4 }, tJ { opcode := 4 }, tR, tJO { opcode := 4 }, tJO { opcode := 4 }, by decide, by decide, by decide⟩,
    ⟨tJ { opcode := 5 }, tJ { opcode := 5 }, tR, tJO { opcode := 5 }, tJO { opcode := 5 }, by decide, by decide, by decide, by decide, by
      decide, by decide⟩,
    ⟨{ tOpS { opcode := 5 } [] with queues := [(0, { state := .active, oldest := 0xFFFFFFFF })] }, tR, _, rfl, .inl (by decide)⟩,
    ⟨tJ { opcode := 8, opx := 0x1FFFFF }, tJ { opcode := 8, opx := 0x1FFFFF }, tR, tJO { opcode := 8, opx := 0x1FFFFF }, tJO
      { opcode := 8, opx := 0x1FFFFF }, 0x1FFFFF, 0x401, by decide, by decide, by decide, by decide⟩,
    ⟨tJ { opcode := 8, opx := 0x200000 }, tJ { opcode := 8, opx := 0x200000 }, tR, tJO { opcode := 8, opx := 0x200000 }, tJO
      { opcode := 8, opx := 0x200000 }, by decide, by decide, by decide, by decide⟩,
    ⟨tJ { opcode := 9, opx := 0x1FFFFF, rkey := 0x401 }, tJ { opcode := 9, opx := 0x1FFFFF, rkey := 0x401 }, tR, tJO
      { opcode := 9, opx := 0x1FFFFF, rkey := 0x401 }, tJO { opcode := 9, opx := 0x1FFFFF, rkey := 0x401 }, 0x1FFFFF, by decide, by
      decide, by decide, by decide⟩,
    ⟨tJ { opcode := 10 }, tJ { opcode := 10 }, tR, tJO { opcode := 10 }, tJO { opcode := 10 }, by decide, by decide, by decide⟩,
    ⟨tJ { opcode := 11 }, tJ { opcode := 11 }, tR, tJO { opcode := 11 }, tJO { opcode := 11 }, by decide, by decide, by decide⟩⟩

/-- Witnesses of the hypotheses of EthernetFrameCommandsComplete. -/
theorem test_witness_EthernetFrameCommandsComplete :
    (∃ (s t : State) (p : Nat) (rx : EthRx) (room : Bool), t = s.frameSeen p rx ∧ t.enHears p ∧ (room = false ∨ t.rxRoom p rx.bytes.length
      = false)) ∧
    (∃ (s t : State) (p fcs : Nat) (rx : EthRx) (data : List Byte), t = s.frameSeen p rx ∧ t.enHears p ∧ t.rxRoom p rx.bytes.length = true
      ∧ data = rx.bytes.take (rx.bytes.length - 4) ∧ fcs = leAt rx.bytes (rx.bytes.length - 4) 4 ∧ fcs ≠ fcsOf data) ∧
    (∃ (s t : State) (p : Nat) (rx : EthRx) (data : List Byte), t = s.frameSeen p rx ∧ t.enHears p ∧ t.rxRoom p rx.bytes.length = true ∧
      data = rx.bytes.take (rx.bytes.length - 4) ∧ leAt rx.bytes (rx.bytes.length - 4) 4 = fcsOf data ∧ rx.bytes.length < 64) ∧
    (∃ (s t : State) (p : Nat) (rx : EthRx) (data : List Byte), t = s.frameSeen p rx ∧ t.enHears p ∧ t.rxRoom p rx.bytes.length = true ∧
      data = rx.bytes.take (rx.bytes.length - 4) ∧ leAt rx.bytes (rx.bytes.length - 4) 4 = fcsOf data ∧ 64 ≤ rx.bytes.length ∧ s.maxFrame
      p < rx.bytes.length) ∧
    (∃ (s t : State) (p : Nat) (rx : EthRx) (data : List Byte), t = s.frameSeen p rx ∧ t.enHears p ∧ t.rxRoom p rx.bytes.length = true ∧
      data = rx.bytes.take (rx.bytes.length - 4) ∧ leAt rx.bytes (rx.bytes.length - 4) 4 = fcsOf data ∧ 64 ≤ rx.bytes.length ∧
      rx.bytes.length ≤ s.maxFrame p ∧ beAt data 0 6 ≠ 0x0180C2000001 ∧ s.macAccepts p (beAt data 0 6) = false) ∧
    (∃ (s t : State) (p : Nat) (rx : EthRx) (data : List Byte) (r : Nat), t = s.frameSeen p rx ∧ t.enHears p ∧ t.rxRoom p rx.bytes.length
      = true ∧ data = rx.bytes.take (rx.bytes.length - 4) ∧ leAt rx.bytes (rx.bytes.length - 4) 4 = fcsOf data ∧ 64 ≤ rx.bytes.length ∧
      rx.bytes.length ≤ s.maxFrame p ∧ beAt data 0 6 ≠ 0x0180C2000001 ∧ s.macAccepts p (beAt data 0 6) = true ∧ parse data (s.fld
      F.tpCfgSltPort) = ParseEnd.exc r) ∧
    (∃ (s : State) (org : Origin), s.dcsOpen org 67108864 = true) ∧
    (∃ (s : State) (p i : Nat) (f : WireFrame) (body : List Byte) (ts : Bool), (s.eport p).wire = some f ∧ f.f.kind = FrameKind.exc i body
      ts) ∧
    (∃ (s : State) (p : Nat) (f : WireFrame), (s.eport p).wire = some f) ∧
    (∃ (s : State) (p : Nat), 1024 ≤ (s.eport p).good) ∧
    (∃ (s : State) (org : Origin) (p base : Nat), s.dcsOpen org 0x4000000 = true ∧ s.enExists p = true ∧ s.domOn (16 + p / 8) = true ∧
      base = s.fld F.enGateBaseSSec p * 1000000000 + s.fld F.enGateBaseNsNs p) ∧
    (∃ (s : State) (p : Nat) (t : Nat), (s.eport p).change = some t ∧ (s.eport p).queue = []) ∧
    (∃ (s : State) (p : Nat), s.enExists p = true ∧ (s.eport p).change = none ∧ (s.eport p).restart = none ∧ (s.eport p).queue = []) :=
  ⟨⟨tEn .up, _, 31, { bytes := [] }, false, rfl, .inl (by decide), .inl rfl⟩,
    ⟨tEn .up, _, 31, _, { bytes := List.replicate 64 0#8 }, _, rfl, .inl (by decide), by decide, rfl, rfl, by decide⟩,
    ⟨tEn .up, _, 31, { bytes := tFrame 59 0 }, _, rfl, .inl (by decide), by decide, rfl, tFrame_fcs _ _, by decide⟩,
    ⟨tFld (tEn .up) [(F.enPortCfgMaxFrame, 31, 1518)], _, 31, { bytes := tFrame 1515 0 }, _, rfl, .inl (by decide),
      (by simp only [tFrame_length]; decide), rfl, tFrame_fcs _ _, by simp [tFrame], tFrame_long⟩,
    ⟨tEn .up, _, 31, { bytes := tFrame 60 1 }, _, rfl, .inl (by decide), by decide, rfl, tFrame_fcs _ _, by decide, by decide, by decide,
      by decide⟩,
    ⟨tEn .up, _, 31, { bytes := tFrame 60 0xFF }, _, 7, rfl, .inl (by decide), by decide, rfl, tFrame_fcs _ _, by decide, by decide, by
      decide, by decide, by decide⟩,
    ⟨tBase, .oob, by decide⟩,
    ⟨{ tBase with en := [(0, { wire := some tWire })] }, 0, 1, _, [1], true, rfl, by decide⟩,
    ⟨{ tBase with en := [(0, { wire := some tWire })] }, 0, _, rfl⟩,
    ⟨{ tBase with en := [(0, { good := 1024 })] }, 0, by decide⟩,
    ⟨tEnMode, .oob, 0, _, by decide, by decide, by decide, rfl⟩,
    ⟨{ tBase with en := [(0, { change := some 5 })] }, 0, 5, by decide, by decide⟩,
    ⟨tEnMode, 0, by decide, by decide, by decide, by decide⟩⟩

/-- Witnesses of the hypotheses of EthernetPortCommandsComplete. -/
theorem test_witness_EthernetPortCommandsComplete :
    (∃ (s : State) (p : Nat), (s.eport p).state = EState.an) ∧
    (∃ (s : State) (p : Nat), (s.eport p).state = EState.train) ∧
    (∃ (s : State) (p : Nat), (s.eport p).state = EState.align) ∧
    (∃ (s : State) (p i : Nat) (f : WireFrame) (body : List Byte) (ts : Bool), (s.eport p).state = EState.up ∧ (s.eport p).queue = [] ∧
      (s.eport p).wire = some f ∧ f.f.kind = FrameKind.exc i body ts) ∧
    (∃ (s : State) (p : Nat), (s.eport p).state = EState.up ∧ ((s.eport p).wire.toList.map (fun x => x.f) ++ (s.eport p).queue).all (fun f
      => !f.kind.isExc) = true) ∧
    (∃ (s : State) (p : Nat), (s.eport p).state = EState.rfault) ∧
    (∃ (s : State) (p : Nat), (s.eport p).state = EState.hold ∧ s.enMayTrain p = false) ∧
    (∃ (s : State) (p : Nat), s.flag F.enLpiEnable p = true ∧ s.flag F.enPortStatusLpiCap p = true ∧ s.fld F.enLpiTwTx p ≠ 0 ∧ (s.eport
      p).queue = [] ∧ (s.eport p).wire = none ∧ (s.eport p).state = EState.up ∧ s.flag F.enPortStatusLpiTx p = false ∧ s.wakeSoon p
      ((s.fld F.enLpiTwTx p + s.fld F.enLpiIdleUs p) * 1000) = false) ∧
    (∃ (s : State) (p : Nat), (s.eport p).state = EState.up) :=
  ⟨⟨tEn .an, 31, by decide⟩,
    ⟨tEn .train, 31, by decide⟩,
    ⟨tEn .align, 31, by decide⟩,
    ⟨{ State.reset with en := [(31, { state := .up, wire := some tWire })] }, 31, 1, tWire, [1], true, by decide, by decide, by decide, by
      decide⟩,
    ⟨tEn .up, 31, by decide, by decide⟩,
    ⟨tEn .rfault, 31, by decide⟩,
    ⟨tEn .hold, 31, by decide, by decide⟩,
    ⟨tFld (tEn .up) [(F.enLpiEnable, 31, 1), (F.enPortStatusLpiCap, 31, 1), (F.enLpiTwTx, 31, 1)], 31, by decide, by decide, by decide, by
      decide, by decide, by decide, by decide, by decide⟩,
    ⟨tEn .up, 31, by decide⟩⟩

/-- Witnesses of the hypotheses of EveryStepAnswersAndKeepsMemoryCanonical. -/
theorem test_witness_EveryStepAnswersAndKeepsMemoryCanonical :
    (∃ (s : State), s.Inv) :=
  ⟨tBase, (by decide : Memory.wf tBase.mem = true)⟩

/-- Witnesses of the hypotheses of FabricTimeCommandsComplete. -/
theorem test_witness_FabricTimeCommandsComplete :
    (∃ (s : State) (org : Origin), s.dcsOpen org 131072 = true ∧ s.ftSource = 0) ∧
    (∃ (s : State), s.ftSource ≠ 0 ∧ s.clk.offCnt ≠ 0) ∧
    (∃ (s : State), s.ftSource = 0 ∨ s.clk.offCnt = 0) ∧
    (∃ (s : State), s.ftSource ≠ 0) :=
  ⟨⟨tBase, .oob, by decide, by decide⟩,
    ⟨{ tFld tBase [(F.clkpwrFtCfgSrc, 0, 16)] with clk := { offCnt := 1 } }, by decide, by decide⟩,
    ⟨tBase, .inl (by decide)⟩,
    ⟨tFld tBase [(F.clkpwrFtCfgSrc, 0, 16)], by decide⟩⟩

/-- A fault entry at index 0, and a translation of the page of the ring to HBM. -/
def tFbE : FbEntry := { idx := 0, page := 0, reason := 1, write := false, count := 1, b9 := 4 }
/-- That translation. -/
def tXl : TlbEntry := { fn := 0, ha := 0, size := 4096, hbm := true, addr := 0, r := true, w := true, ns := false }

/-- Witnesses of the hypotheses of FaultBatchesAndCountersComplete. -/
theorem test_witness_FaultBatchesAndCountersComplete :
    (∃ (s : State) (fn : Nat), (s.batchOf fn).isOpen = false) ∧
    (∃ (s : State) (fn : Nat), (s.batchOf fn).isOpen = true) ∧
    (∃ (s : State) (fn : Nat) (e : FbEntry), (s.batchOf fn).isOpen = true ∧ AMap.look [] s.faultQ fn = [] ∧ (s.batchOf
      fn).entries.getLast? = some e ∧ (s.fn fn).state ≠ .orphaned ∧ s.ringAt fn e.idx = .yes ∧ s.flag F.xlfAcCtrlEnable fn = false) ∧
    (∃ (s : State) (fn : Nat), s.barOpen fn = true) ∧
    (∃ (s : State) (fn : Nat) (v : Nat), s.barOpen fn = true ∧ bit v 1 = true ∧ s.acTable fn = none) ∧
    (∃ (s : State) (fn : Nat) (v : Nat) (a : Nat) (n : Nat), s.barOpen fn = true ∧ bit v 1 = true ∧ s.acTable fn = some (a, n)) ∧
    (∃ (s : State) (fn v a n : Nat), s.barOpen fn = true ∧ bit v 1 = true ∧ s.acTable fn = some (a, n) ∧ s.res = [] ∧ s.cipherOk a (2 * n)
      = true ∧ ∀ (f : Nat), s.flag F.fnDlCtrlHbmEn f = false) ∧
    (∃ (s : State) (fn : Nat) (a : Nat) (n : Nat), s.flag F.xlfAcCtrlEnable fn = true ∧ s.fld F.xlfAcCtrlDecay fn ≠ 15 ∧ s.acTable fn =
      some (a, n)) :=
  ⟨⟨tBase, 0, by decide⟩,
    ⟨{ tBase with batches := [(0, { isOpen := true })] }, 0, by decide⟩,
    ⟨{ tFld tBase [(F.xlCtxCtrlEnable, 0, 1)] with batches := [(0, { isOpen := true, entries := [tFbE] })], tlb := [(.stlb, .ha tXl)] },
      0, tFbE, by decide, by decide, by decide, by decide, by decide, by decide⟩,
    ⟨tBase, 0, by decide⟩,
    ⟨tFld tBase [(F.xlfAcTableTableFga, 0, 2 ^ 44)], 0, 2, by decide, by decide, by decide⟩,
    ⟨tBase, 0, 2, 0, 1, by decide, by decide, by decide⟩,
    ⟨tBase, 0, 2, 0, 1, by decide, by decide, by decide, by decide, by decide, tDl_flag _ (by decide)⟩,
    ⟨tFld tBase [(F.xlfAcCtrlEnable, 0, 1), (F.xlfAcCtrlDecay, 0, 14)], 0, 0, 1, by decide, by decide, by decide⟩⟩

/-- Witnesses of the hypotheses of FaultCommandsComplete. -/
theorem test_witness_FaultCommandsComplete :
    (∃ (s : State) (n : Nat), (s.dev.state = DevState.bringup ∨ s.dev.state = DevState.equalShare ∨ s.dev.state = DevState.service ∨
      s.dev.state = DevState.drain) ∧ n < 4) ∧
    (∃ (s : State), s.dev.state = DevState.bringup ∨ s.dev.state = DevState.equalShare ∨ s.dev.state = DevState.service ∨ s.dev.state =
      DevState.drain) ∧
    (∃ (s : State) (k : Nat), s.netOpen = true ∧ k < 4) ∧
    (∃ (s : State) (k : Nat), s.netOpen = true ∧ k < 4 ∧ (s.pipe k).recovering ≠ 0) ∧
    (∃ (s : State) (k : Nat), s.netOpen = true ∧ k < 4 ∧ s.qps = [] ∧ s.ops = [] ∧ (s.pipe k).recovering = 0) ∧
    (∃ (s : State) (bundle : Nat) (link : Nat), link < bundleLinks bundle ∧ bundle * 20 + link ∉ s.bist.linksOut) ∧
    (∃ (s : State) (n : Nat), n < 262144 ∧ s.jnl.find n = none) ∧
    (∃ (s : State) (n : Nat) (j : JRec), n < 262144 ∧ s.jnl.find n = some j) ∧
    (∃ (s : State) (org : Origin) (n : Nat) (j : JRec), s.dcsOpen org 150995008 = true ∧ n < 2 ^ 18 ∧ s.jnl.find n = some j) :=
  ⟨⟨tBase, 3, by decide, by decide⟩,
    ⟨tBase, by decide⟩,
    ⟨tBase, 3, by decide, by decide⟩,
    ⟨tBase.setPipe 3 { recovering := 1 }, 3, by decide, by decide, by decide⟩,
    ⟨tBase, 3, by decide, by decide, by decide, by decide, by decide⟩,
    ⟨tBase, 29, 19, by decide, by decide⟩,
    ⟨tBase, 262143, by decide, by decide⟩,
    ⟨{ tBase with jnl := [(262143, {})] }, 262143, {}, by decide, by decide⟩,
    ⟨{ tBase with jnl := [(262143, {})] }, .oob, 262143, {}, by decide, by decide, by decide⟩⟩

/-- R448, Table 17.5: a parity event keeps pipeline 1 from taking heads for 4,353 cycles, and an edge of CLK_T is one of them. -/
theorem test_recovery :
    ((tBase.pipeParity 1 false).pipe 1).recovering = 4353 ∧ (tBase.pipeParity 1 false).takesHeads 5 = false ∧
      ((tBase.pipeParity 1 false).pipe 2).recovering = 0 ∧ (((tBase.setPipe 1 { recovering := 3 }).recoverPipe 1).pipe 1).recovering = 2 := by
  decide

/-- A user record of entries, each as ITEM, INDEX and the low byte of DELTA. -/
def tCal (es : List (Nat × Nat × Nat)) : List Byte :=
  leBytes 0x5543 2 ++ leBytes es.length 2 ++ leBytes 0 12 ++
    (es.map fun e => leBytes e.1 2 ++ leBytes e.2.1 2 ++ leBytes e.2.2 2 ++ leBytes 0 2).flatten

/-- R475: tap 4 of lane 31 takes the largest delta; tap 5 does not exist, a delta beyond the factory's bound and a second entry are refused. -/
theorem test_userRecord :
    (tBase.calRead true [] (tCal [(1, 252, 0xFFF8)])).toOption = some [(1, 252, -8)] ∧
    (match tBase.calRead true [] (tCal [(1, 253, 0)]) with | .error e => e | .ok _ => (0, 0)) = (4, 0) ∧
    (match tBase.calRead true [(2, 1)] (tCal [(2, 0, 1), (2, 1, 2)]) with | .error e => e | .ok _ => (0, 0)) = (5, 1) ∧
    (match tBase.calRead true [] (tCal [(6, 31, 1), (6, 31, 1)]) with | .error e => e | .ok _ => (0, 0)) = (6, 1) := by decide

/-- R489: firmware of format 2 converts the area of format 1 into the other one, and older firmware finds its own again. -/
theorem test_settingsAreas :
    let f : Firmware := ({ area0 := some (areaOf 1 { soft := [(2, 5, 0)] }), fmt := 1 } : Firmware).openSettings 2
    f.cur = 1 ∧ f.area1 = some (areaOf 2 { soft := [(2, 5, 0)] }) ∧ (f.openSettings 1).cur = 0 ∧ f.eraseOlder.area0 = none := by decide

/-- Witnesses of the hypotheses of FlashBankCommandsComplete. -/
theorem test_witness_FlashBankCommandsComplete :
    (∃ (s : State) (org : Origin), s.dcsOpen org 262168 = true) ∧
    (∃ (s : State) (org : Origin), s.dcsOpen org 262448 = true ∧ s.stageCheck (s.fld F.imgStageArgKind) (s.fld F.imgStageArgOffset4k *
      4096) (s.fld F.imgStageArgLen) (s.fld F.imgStageSrcFga == 0 || s.mgrBytes (s.fld F.imgStageSrcFga) (s.fld F.imgStageArgLen)) = none) ∧
    (∃ (s : State) (org : Origin), s.dcsOpen org 262448 = true ∧ (s.fw.bank s.fw.other).state = BankState.staging) ∧
    (∃ (s : State) (org : Origin) (secs : Nat) (ns : Nat), s.dcsOpen org 262448 = true ∧ (s.fw.bank s.fw.other).state = BankState.staged ∧
      secs = s.fld F.imgActSSec ∧ ns = s.fld F.imgActNsNs ∧ s.nowNs + 100000000 ≤ secs * 1000000000 + ns) ∧
    (∃ (s : State) (org : Origin), s.dcsOpen org 262448 = true ∧ (s.fw.bank s.fw.other).state = BankState.armed) ∧
    (∃ (s : State) (org : Origin), s.dcsOpen org 262448 = true ∧ (s.fw.bank s.fw.other).state ≠ BankState.armed) ∧
    (∃ (s : State) (org : Origin), s.dcsOpen org 262448 = true ∧ s.fw.onTrial = true ∧ s.dev.state = DevState.service) ∧
    (∃ (s : State) (org : Origin), s.dcsOpen org 262448 = true ∧ s.fw.onTrial = true) ∧
    (∃ (s : State), (s.fw.bank s.fw.other).state = BankState.armed ∧ s.fw.activate = false ∧ s.fw.armS * 1000000000 + s.fw.armNs ≤ s.nowNs
      ∧ s.dev.state = DevState.service ∧ s.fw.armDrain = true) ∧
    (∃ (s : State), (s.fw.bank s.fw.other).state = BankState.armed ∧ s.fw.activate = false ∧ s.fw.armS * 1000000000 + s.fw.armNs ≤ s.nowNs
      ∧ s.dev.state = DevState.service ∧ s.fw.armDrain = false) ∧
    (∃ (s : State), s.fw.onTrial = true ∧ s.fw.tried ≠ none) :=
  ⟨⟨tBase, .oob, by decide⟩,
    ⟨tFld tBase [(F.imgStageArgKind, 0, 1), (F.imgStageArgLen, 0, 0x1000)], .oob, by decide, by decide⟩,
    ⟨tFw .staging, .oob, by decide, by decide⟩,
    ⟨tFld (tFw .staged) [(F.imgActSSec, 0, 1)], .oob, 1, 0, by decide, by decide, by decide, by decide, by decide⟩,
    ⟨tFw .armed, .oob, by decide, by decide⟩,
    ⟨tFw .staged, .oob, by decide, by decide⟩,
    ⟨tTrial, .oob, by decide, by decide, by decide⟩,
    ⟨tTrial, .oob, by decide, by decide⟩,
    ⟨{ tBase with fw := { bank0 := { state := .active }, bank1 := { state := .armed }, armDrain := true } }, by decide, by decide, by
      decide, by decide, by decide⟩,
    ⟨{ tBase with fw := { bank0 := { state := .active }, bank1 := { state := .armed }, armDrain := false } }, by decide, by decide, by
      decide, by decide, by decide⟩,
    ⟨{ tTrial with fw := { tTrial.fw with tried := some 0 } }, by decide, by decide⟩⟩

/-- Witnesses of the hypotheses of FtRateWriteReadsBack. -/
theorem test_witness_FtRateWriteReadsBack :
    (∃ (s : State) (org : Origin), (∀ (fn : Nat), org ≠ Origin.host fn) ∧ s.dcsOpen org 131352 = true ∧ s.ftSource = 0) :=
  ⟨tBase, .oob, (fun _ h => nomatch h), by decide, by decide⟩

/-- Witnesses of the hypotheses of FunctionCommandsComplete. -/
theorem test_witness_FunctionCommandsComplete :
    (∃ (s : State) (org : Origin) (fn : Nat), s.fnOpen org ∧ s.createCheck fn = none) ∧
    (∃ (s : State) (org : Origin) (fn : Nat) (st : Status), s.fnOpen org ∧ s.createCheck fn = some st) ∧
    (∃ (s : State) (org : Origin) (fn : Nat) (st : Status) (r : Nat), s.fnOpen org ∧ s.limitCheck fn r = some st) ∧
    (∃ (s : State) (org : Origin) (fn : Nat) (st : Status) (r : Nat), s.fnOpen org ∧ s.giveCheck fn r = some st) ∧
    (∃ (s : State) (org : Origin) (fn : Nat) (st : Status) (r : Nat), s.fnOpen org ∧ s.takeCheck fn r = some st) ∧
    (∃ (s : State) (org : Origin) (fn : Nat), s.fnOpen org ∧ s.isManager fn = true) ∧
    (∃ (s : State) (org : Origin) (fn : Nat), s.fnOpen org ∧ s.isManager fn = false ∧ s.isPf fn = false ∧ (s.fn fn).state =
      FnState.active) ∧
    (∃ (s : State) (org : Origin) (fn : Nat) (r : Nat), s.fnOpen org ∧ s.limitCheck fn r = none ∧ 2 < r) ∧
    (∃ (s : State) (org : Origin) (fn : Nat), s.fnOpen org ∧ s.limitCheck fn 0 = none) ∧
    (∃ (s : State) (org : Origin) (fn : Nat), s.fnOpen org ∧ s.giveCheck fn 5 = none) ∧
    (∃ (s : State) (org : Origin) (fn : Nat), s.fnOpen org ∧ s.giveCheck fn 4 = none) ∧
    (∃ (s : State) (org : Origin) (fn : Nat), s.fnOpen org ∧ s.giveCheck fn 8 = none) ∧
    (∃ (s : State) (org : Origin) (fn : Nat), s.fnOpen org ∧ s.takeCheck fn 4 = none) ∧
    (∃ (s : State) (org : Origin) (fn : Nat), s.fnOpen org ∧ s.isPf fn = false ∧ (s.fn fn).state = FnState.active) ∧
    (∃ (s : State) (org : Origin) (fn : Nat), s.fnOpen org ∧ s.fnIsCreated fn = true ∧ s.flag F.fnDlCtrlHostEn fn = true) ∧
    (∃ (s : State) (org : Origin) (fn : Nat), s.fnOpen org ∧ s.fnIsCreated fn = true ∧ s.kioskCheck (s.fld F.fnArg0Value) = none) :=
  ⟨⟨tFld tBase [(F.fnArg0Value, 0, 0)], .oob, 63, ⟨by decide, by decide⟩, by decide⟩,
    ⟨tBase, .oob, 0, .fnState, ⟨by decide, by decide⟩, by decide⟩,
    ⟨tBase, .oob, 2, .fnState, 0, ⟨by decide, by decide⟩, by decide⟩,
    ⟨tBase, .oob, 0, .badDescriptor, 0, ⟨by decide, by decide⟩, by decide⟩,
    ⟨tBase, .oob, 0, .badDescriptor, 0, ⟨by decide, by decide⟩, by decide⟩,
    ⟨tBase, .oob, 0, ⟨by decide, by decide⟩, by decide⟩,
    ⟨tBase, .oob, 1, ⟨by decide, by decide⟩, by decide, by decide, by decide⟩,
    ⟨tBase, .oob, 1, 3, ⟨by decide, by decide⟩, by decide, by decide⟩,
    ⟨tFld tBase [(F.fnArg0Value, 0, 0), (F.fnArg1Value, 0, 0)], .oob, 1, ⟨by decide, by decide⟩, by decide⟩,
    ⟨tFld { tBase with ten := { tBase.ten with equal := none } } [(F.fnArg0Value, 0, 0), (F.fnArg1Value, 0, 0)], .oob, 1, ⟨by decide, by
      decide⟩, by decide⟩,
    ⟨tFld tBase [(F.fnArg0Value, 0, 0), (F.fnArg1Value, 0, 0)], .oob, 1, ⟨by decide, by decide⟩, by decide⟩,
    ⟨tFld tBase [(F.fnArg0Value, 0, 0), (F.fnArg1Value, 0, 0)], .oob, 1, ⟨by decide, by decide⟩, by decide⟩,
    ⟨tFld tBase [(F.fnArg0Value, 0, 0x800000), (F.fnArg1Value, 0, 1)], .oob, 1, ⟨by decide, by decide⟩, by decide⟩,
    ⟨tBase, .oob, 1, ⟨by decide, by decide⟩, by decide, by decide⟩,
    ⟨tFld tBase [(F.fnDlCtrlHostEn, 1, 1)], .oob, 1, ⟨by decide, by decide⟩, by decide, by decide⟩,
    ⟨tFld tBase [(F.fnArg0Value, 0, 4)], .oob, 1, ⟨by decide, by decide⟩, by decide, by decide⟩⟩

/-- Witnesses of the hypotheses of HbmCommandsComplete. -/
theorem test_witness_HbmCommandsComplete :
    (∃ (s : State) (k line : Nat), k < 8 ∧ s.domOn (8 + k) = true ∧ line < 2 ^ 30 ∧ slotsOfTwo (s.fld F.hbmStatusLevel k) ≠ 0 ∧ bit (s.fld
      F.hbmPcRetiredMask k) (line / 4 % 64) = false) ∧
    (∃ (s : State) (k line : Nat), k < 8 ∧ s.domOn (8 + k) = true ∧ line < 2 ^ 30 ∧ slotsOfTwo (s.fld F.hbmStatusLevel k) ≠ 0 ∧ bit (s.fld
      F.hbmPcRetiredMask k) (line / 4 % 64) = false ∧ (s.stack k).repairing.find (line / 4 % 64) = none ∧ ((s.stack k).mark line).passed
      (s.fld F.hbmPcRetiredMask k) = false) ∧
    (∃ (s : State) (k line : Nat), k < 8 ∧ s.domOn (8 + k) = true ∧ line < 2 ^ 30 ∧ slotsOfTwo (s.fld F.hbmStatusLevel k) ≠ 0 ∧ bit (s.fld
      F.hbmPcRetiredMask k) (line / 4 % 64) = false ∧ (s.stack k).repairing.find (line / 4 % 64) = none ∧ ((s.stack k).mark line).passed
      (s.fld F.hbmPcRetiredMask k) = true) ∧
    (∃ (s : State) (k line lane : Nat), k < 8 ∧ s.domOn (8 + k) = true ∧ line < 2 ^ 30 ∧ slotsOfTwo (s.fld F.hbmStatusLevel k) ≠ 0 ∧ bit
      (s.fld F.hbmPcRetiredMask k) (line / 4 % 64) = false ∧ s.flag F.hbmEccLogValid k = false ∧ (s.lastMs (AMap.look [] (s.stack
      k).errors (line / 4 % 64 * 64 + lane))).length < 15 ∧ lane < 36) ∧
    (∃ (s : State) (k line : Nat), k < 8 ∧ s.domOn (8 + k) = true ∧ slotsOfTwo (s.fld F.hbmStatusLevel k) ≠ 0 ∧ line < 2 ^ 30 ∧ s.lineLost
      (k * 2 ^ 36 + line * 64) = false ∧ s.img.regions = [] ∧ (s.stack k).recent = [] ∧ (s.stack k).poison.length < 4096) ∧
    (∃ (s : State) (n k : Nat), k = n / 4096 ∧ k < 8 ∧ s.domOn (8 + k) = true) ∧
    (∃ (s : State) (k : Nat) (pc : Nat) (lane : Nat), (s.stack k).repairing.find pc = some lane) ∧
    (∃ (s : State) (k : Nat) (pc : Nat), k < 8 ∧ pc < 64 ∧ s.domOn (8 + k) = true) :=
  ⟨⟨tBase, 7, 2 ^ 30 - 1, by decide, by decide, by decide, by decide, by decide⟩,
    ⟨tBase, 7, 2 ^ 30 - 1, by decide, by decide, by decide, by decide, by decide, by decide, by decide⟩,
    ⟨{ tFld tBase [(F.hbmPcRetiredMask, 7, 2 ^ 63 - 1)] with hbm := [(7, { scrubbed := [(63, [(0, (pcLines - 1, 0))])] })] }, 7, 2 ^ 30 -
      1, by decide, by decide, by decide, by decide, by decide, by decide, by decide⟩,
    ⟨tBase, 7, 2 ^ 30 - 1, 35, by decide, by decide, by decide, by decide, by decide, by decide, by decide, by decide⟩,
    ⟨tBase, 7, 2 ^ 30 - 1, by decide, by decide, by decide, by decide, by decide, by decide, by decide, by decide⟩,
    ⟨tBase, 0x7FFF, 7, by decide, by decide, by decide⟩,
    ⟨{ tBase with hbm := [(0, { repairing := [(63, 35)] })] }, 0, 63, 35, by decide⟩,
    ⟨tBase, 7, 63, by decide, by decide, by decide⟩⟩

/-- A link, and a flush read and a data read outstanding on it. -/
def tTagL : LinkId := { port := 0, sub := false }
/-- The tag of a flush read. -/
def tTag : Tag := { port := 0, sub := false, tag := 3, fn := 0, use := .flush tR }
/-- The tag n of a data read of 8 bytes. -/
def tTagD (n : Nat) : Tag := { tTag with tag := n, use := .data tR ((n - 3) * 8) 8 }
/-- The device with tags outstanding. -/
def tTags (l : List Tag) : State := { tBase with tags := l }

/-- Witnesses of the hypotheses of HostFunctionCommandsComplete. -/
theorem test_witness_HostFunctionCommandsComplete :
    (∃ (s : State) (fn : Nat), s.cfgServed fn = true ∧ (s.fn fn).bme = true) ∧
    (∃ (s : State) (fn : Nat), s.cfgServed fn = true ∧ (s.fn fn).bme = false) ∧
    (∃ (s : State) (fn : Nat), s.cfgServed fn = true ∧ s.isPf fn = false ∧ (s.fn fn).state = FnState.active) ∧
    (∃ (s : State) (fn : Nat), s.cfgServed fn = true ∧ s.isPf fn = true) ∧
    (∃ (s : State) (pf : Nat), s.isPf pf = true ∧ (s.fn pf).vfEnable = true ∧ s.cfgServed pf = true) ∧
    (∃ (s : State) (fn : Nat), (s.fn fn).state = FnState.resetting ∧ s.resetWaits fn = false ∧ (s.fn fn).destroy = false) ∧
    (∃ (s : State) (fn : Nat), (s.fn fn).state = FnState.resetting ∧ s.ten.destroying ≠ some fn) ∧
    (∃ (s : State) (l : LinkId) (n : Nat) (t : Tag), s.tagAt l n = some t ∧ t.timedOut = false ∧ t.dead = true) ∧
    (∃ (s : State) (l : LinkId) (n : Nat) (t : Tag), s.tagAt l n = some t ∧ t.timedOut = false ∧ t.dead = false) ∧
    (∃ (s : State) (l : LinkId) (n : Nat) (t : Tag), s.tagAt l n = some t ∧ t.timedOut = false ∧ t.dead = true ∧ (s.fn t.fn).state ≠
      .wedged ∧ s.heldReads = []) ∧
    (∃ (s b : State) (l : LinkId) (n : Nat) (data : Option (List Byte)), b = s.bwCount (l.port + if l.sub then 4 else 0) false (12 +
      (data.getD []).length) ∧ s.tagAt l n = none) ∧
    (∃ (s b : State) (l : LinkId) (n : Nat) (data : Option (List Byte)) (t : Tag), b = s.bwCount (l.port + if l.sub then 4 else 0) false
      (12 + (data.getD []).length) ∧ s.tagAt l n = some t ∧ t.timedOut = true) ∧
    (∃ (s b : State) (l : LinkId) (n : Nat) (data : Option (List Byte)) (t : Tag), b = s.bwCount (l.port + if l.sub then 4 else 0) false
      (12 + (data.getD []).length) ∧ s.tagAt l n = some t ∧ t.timedOut = false ∧ (s.fn t.fn).state = .wedged) ∧
    (∃ (s b : State) (l : LinkId) (n : Nat) (data : Option (List Byte)) (t : Tag) (u : State), b = s.bwCount (l.port + if l.sub then 4
      else 0) false (12 + (data.getD []).length) ∧ s.tagAt l n = some t ∧ t.timedOut = false ∧ (s.fn t.fn).state ≠ .wedged ∧ t.dead =
      false ∧ u = { b with tags := b.tags.filter fun x => x != t } ∧ data = none) ∧
    (∃ (s b : State) (l : LinkId) (n : Nat) (data : Option (List Byte)) (t : Tag) (u : State) (bs : List Byte) (r : OpRef), b = s.bwCount
      (l.port + if l.sub then 4 else 0) false (12 + (data.getD []).length) ∧ s.tagAt l n = some t ∧ t.timedOut = false ∧ (s.fn t.fn).state
      ≠ .wedged ∧ t.dead = false ∧ u = { b with tags := b.tags.filter fun x => x != t } ∧ data = some bs ∧ t.use = .flush r) ∧
    (∃ (s b : State) (l : LinkId) (n : Nat) (data : Option (List Byte)) (t : Tag) (u : State) (bs : List Byte) (r : OpRef) (off len : Nat)
      (o : Op) (v : State), b = s.bwCount (l.port + if l.sub then 4 else 0) false (12 + (data.getD []).length) ∧ s.tagAt l n = some t ∧
      t.timedOut = false ∧ (s.fn t.fn).state ≠ .wedged ∧ t.dead = false ∧ u = { b with tags := b.tags.filter fun x => x != t } ∧ data =
      some bs ∧ t.use = .data r off len ∧ v = u.updOp r (fun o => { o with buf := AMap.put o.buf off (padTo bs len) }) ∧ v.op r = some o ∧
      (v.tagsOf r).isEmpty = true ∧ (v.heldOf r).isEmpty = true ∧ o.phase = .gather) ∧
    (∃ (s b : State) (l : LinkId) (n : Nat) (data : Option (List Byte)) (t : Tag) (u : State) (bs : List Byte) (r : OpRef) (off len : Nat)
      (o : Op) (v : State), b = s.bwCount (l.port + if l.sub then 4 else 0) false (12 + (data.getD []).length) ∧ s.tagAt l n = some t ∧
      t.timedOut = false ∧ (s.fn t.fn).state ≠ .wedged ∧ t.dead = false ∧ u = { b with tags := b.tags.filter fun x => x != t } ∧ data =
      some bs ∧ t.use = .data r off len ∧ v = u.updOp r (fun o => { o with buf := AMap.put o.buf off (padTo bs len) }) ∧ v.op r = some o ∧
      ¬((v.tagsOf r).isEmpty = true ∧ (v.heldOf r).isEmpty = true ∧ o.phase = .gather)) ∧
    (∃ (s : State) (fn : Nat), s.cfgAnswer fn = CfgAns.served) ∧
    (∃ (s : State) (fn : Nat), s.cfgAnswer fn = CfgAns.retry) ∧
    (∃ (s : State) (fn : Nat), s.cfgAnswer fn = CfgAns.unsupported) ∧
    (∃ (s : State) (fn : Nat) (vec : Nat), s.barOpen fn = true ∧ (s.fn fn).msixEn = true ∧ (s.fn fn).msixMask = false ∧ s.hostOpen fn =
      true ∧ s.msix = [(msixKey fn vec, { pending := true })]) :=
  ⟨⟨tBase, 0, by decide, by decide⟩,
    ⟨{ tBase with fns := [(0, { tFn with bme := false })] }, 0, by decide, by decide⟩,
    ⟨{ tBase with fns := [(0, { tFn with vfEnable := true, numVfs := 63 }), (63, tFn)] }, 63, by decide, by decide, by decide⟩,
    ⟨tBase, 0, by decide, by decide⟩,
    ⟨{ tBase with fns := [(0, { tFn with vfEnable := true })] }, 0, by decide, by decide, by decide⟩,
    ⟨{ tBase with fns := [(0, { tFn with state := .resetting })] }, 0, by decide, by decide, by decide⟩,
    ⟨{ tBase with fns := [(0, { tFn with state := .resetting })] }, 0, by decide, by decide⟩,
    ⟨{ tBase with tags := [{ port := 0, sub := false, tag := 3, fn := 0, use := .flush tR, dead := true }] }, { port := 0, sub := false },
      3, _, rfl, by decide, by decide⟩,
    ⟨{ tBase with tags := [{ port := 0, sub := false, tag := 3, fn := 0, use := .flush tR }] }, { port := 0, sub := false }, 3, _, rfl, by
      decide, by decide⟩,
    ⟨tTags [{ tTag with dead := true }], tTagL, 3, _, rfl, by decide, by decide, by decide, by decide⟩,
    ⟨tBase, _, tTagL, 16383, none, rfl, by decide⟩,
    ⟨tTags [{ tTag with timedOut := true }], _, tTagL, 3, none, _, rfl, rfl, by decide⟩,
    ⟨{ tTags [tTag] with fns := [(0, { tFn with state := .wedged })] }, _, tTagL, 3, none, _, rfl, rfl, by decide, by decide⟩,
    ⟨tTags [tTag], _, tTagL, 3, none, _, _, rfl, rfl, by decide, by decide, by decide, rfl, rfl⟩,
    ⟨tTags [tTag], _, tTagL, 3, some [1#8], _, _, _, tR, rfl, rfl, by decide, by decide, by decide, rfl, rfl, rfl⟩,
    ⟨{ tTags [tTagD 3] with ops := [{ tO { opcode := 1 } with phase := .gather }] }, _, tTagL, 3, some [1#8], _, _, _, tR, 0, 8, _, _,
      rfl, rfl, by decide, by decide, by decide, rfl, rfl, rfl, rfl, rfl, by decide, by decide, by decide⟩,
    ⟨{ tTags [tTagD 3, tTagD 4] with ops := [{ tO { opcode := 1 } with phase := .gather }] }, _, tTagL, 3, some [1#8], _, _, _, tR, 0, 8,
      _, _, rfl, rfl, by decide, by decide, by decide, rfl, rfl, rfl, rfl, rfl, by decide⟩,
    ⟨tBase, 0, by decide⟩,
    ⟨{ tBase with fns := [(0, { tFn with state := .resetting })] }, 0, by decide⟩,
    ⟨{ tBase with fns := [(0, { tFn with state := .wedged })] }, 0, by decide⟩,
    ⟨{ tBase with msix := [(msixKey 0 2047, { mask := true, pending := true })] }, 0, 2047, by decide, by decide, by decide, by decide, by
      decide⟩⟩

/-- Witnesses of the hypotheses of HostLinkCommandsComplete. -/
theorem test_witness_HostLinkCommandsComplete :
    (∃ (s : State) (l : LinkId) (rate : Nat) (width : Nat), s.linkMayTrain l = true ∧ s.linkUp l = false ∧ s.linkAccepted l rate width =
      true) ∧
    (∃ (s : State) (l : LinkId) (rate : Nat) (width : Nat), s.linkMayTrain l = true ∧ s.linkUp l = false ∧ s.linkAccepted l rate width =
      false) ∧
    (∃ (s : State) (l : LinkId), s.linkUp l = true) ∧
    (∃ (s : State) (l : LinkId), (s.link l).downWait = true) ∧
    (∃ (s : State) (l : LinkId), s.linkPresent l = true ∧ (s.link l).perst = false) ∧
    (∃ (s : State) (l : LinkId), s.portPresent l.port = true ∧ s.linkPresent l = false ∧ (s.link l).perst = false) ∧
    (∃ (s : State) (l : LinkId), s.linkPresent l = true ∧ s.fld F.hpCrashWdogMs l.port ≠ 0) ∧
    (∃ (s : State) (l : LinkId), s.portPresent l.port = true ∧ (s.link l).perst = true) ∧
    (∃ (s : State) (fn : Nat), s.isPf fn = true ∧ s.barOpen fn = true) ∧
    (∃ (s : State) (fn : Nat) (tok : Word), s.isPf fn = true ∧ s.barOpen fn = true ∧ (s.fn fn).state = FnState.orphaned ∧ s.flag
      F.hpfStatusAttachLock fn = false ∧ tok ≠ (s.link (s.linkOf fn)).token) ∧
    (∃ (s : State) (fn : Nat) (x : HostLink) (fs : List Nat), s.isPf fn = true ∧ s.barOpen fn = true ∧ (s.fn fn).state = FnState.orphaned
      ∧ s.flag F.hpfStatusAttachLock fn = false ∧ x = s.link (s.linkOf fn) ∧ fs = List.filter (fun (f : Nat) => (s.fn f).state ==
      FnState.orphaned) (s.fnsOf (s.linkOf fn))) ∧
    (∃ (s : State) (l : LinkId), (s.link l).grace = true) :=
  ⟨⟨{ tBase with flds := [], links := [(0, { perst := false })] }, { port := 0, sub := false }, 1, 8, by decide, by decide, by decide⟩,
    ⟨{ tBase with flds := [], links := [(0, { perst := false })] }, { port := 0, sub := false }, 1, 4, by decide, by decide, by decide⟩,
    ⟨tBase, { port := 0, sub := false }, by decide⟩,
    ⟨{ tBase with links := [(7, { downWait := true })] }, { port := 3, sub := true }, by decide⟩,
    ⟨tBase, { port := 0, sub := false }, by decide, by decide⟩,
    ⟨{ tBase with links := [(7, { perst := false })] }, { port := 3, sub := true }, by decide, by decide, by decide⟩,
    ⟨tFld tBase [(F.hpCrashWdogMs, 3, 1)], { port := 3, sub := false }, by decide, by decide⟩,
    ⟨tBase, { port := 3, sub := false }, by decide, by decide⟩,
    ⟨tBase, 0, by decide, by decide⟩,
    ⟨{ tBase with fns := [(0, { tFn with state := .orphaned })] }, 0, 1, by decide, by decide, by decide, by decide, by decide⟩,
    ⟨{ tBase with fns := [(0, { tFn with state := .orphaned })] }, 0, _, _, by decide, by decide, by decide, by decide, rfl, rfl⟩,
    ⟨{ tBase with links := [(7, { grace := true })] }, { port := 3, sub := true }, by decide⟩⟩

/-- Witnesses of the hypotheses of IntegrityChannelCommandsComplete. -/
theorem test_witness_IntegrityChannelCommandsComplete :
    (∃ (s : State) (org : Origin) (sp : Space) (ch : Nat) (c : Nat) (fn : Nat), s.icTarget org sp ch = some c ∧ (s.chan c).state =
      IcState.off ∧ s.fld F.intIcSrcSrcKind c < 5 ∧ s.ten.chans.find c = some fn ∧ s.icSourceOk fn (s.fld F.intIcSrcSrcKind c) (s.fld
      F.intIcSrcIndex c) = true) ∧
    (∃ (s : State) (org : Origin) (sp : Space) (ch : Nat) (c : Nat), s.icTarget org sp ch = some c ∧ (s.chan c).state = IcState.off ∧ 5 ≤
      s.fld F.intIcSrcSrcKind c) ∧
    (∃ (s : State) (org : Origin) (sp : Space) (ch : Nat) (c : Nat), s.icTarget org sp ch = some c ∧ (s.chan c).state = IcState.off ∧
      s.fld F.intIcSrcSrcKind c < 5 ∧ s.ten.chans.find c = none) ∧
    (∃ (s : State) (org : Origin) (sp : Space) (ch : Nat) (c : Nat), s.icTarget org sp ch = some c ∧ (s.chan c).state ≠ IcState.off ∧
      (s.chan c).ops = []) ∧
    (∃ (s : State) (org : Origin) (sp : Space) (ch : Nat) (c : Nat), s.icTarget org sp ch = some c ∧ (s.chan c).exps.length < 4) ∧
    (∃ (s : State) (org : Origin) (sp : Space) (ch : Nat) (c : Nat), s.icTarget org sp ch = some c ∧ 4 ≤ (s.chan c).exps.length) :=
  ⟨⟨tFld { tBase with ten := { tBase.ten with chans := [(63, 1)] } } [(F.intIcSrcIndex, 63, 7)], .oob, .dcs, 63, 63, 1, by decide, by
      decide, by decide, by decide, by decide⟩,
    ⟨tFld tBase [(F.intIcSrcSrcKind, 63, 5)], .oob, .dcs, 63, 63, by decide, by decide, by decide⟩,
    ⟨tBase, .oob, .dcs, 63, 63, by decide, by decide, by decide, by decide⟩,
    ⟨{ tBase with prot := { chans := [(0, { state := .run })] } }, .host 0, .bar0 0, 0, 0, by decide, by decide, by decide⟩,
    ⟨{ tBase with prot := { chans := [(0, { exps := [(0, 0), (0, 0), (0, 0)] })] } }, .host 0, .bar0 0, 0, 0, by decide, by decide⟩,
    ⟨{ tBase with prot := { chans := [(0, { exps := [(0, 0), (0, 0), (0, 0), (0, 0)] })] } }, .host 0, .bar0 0, 0, 0, by decide, by
      decide⟩⟩

/-- Witnesses of the hypotheses of IrregularAccessesReadOnesAndWriteNothing. -/
theorem test_witness_IrregularAccessesReadOnesAndWriteNothing :
    (∃ (s : State) (org : Origin) (off : Nat) (len : Nat), s.dcsOpen org off = true ∧ regular off len = false ∧ (∀ (fn : Nat), org ≠
      Origin.host fn)) ∧
    (∃ (s : State) (fn : Nat) (off : Nat) (len : Nat), (s.bwRx fn 0).dcsOpen (Origin.host fn) off = true ∧ regular off len = false) ∧
    (∃ (s : State) (fn : Nat) (off : Nat) (len : Nat), (s.bwRx fn 0).barAnswer fn = BarAns.served ∧ regular off len = false ∧ msixAccess
      off len = false) ∧
    (∃ (org : Origin) (off : Nat) (bs : List Byte), regular off bs.length = false ∧ (∀ (fn : Nat), org ≠ Origin.host fn)) ∧
    (∃ (off : Nat) (bs : List Byte), regular off bs.length = false) ∧
    (∃ (off : Nat) (bs : List Byte), regular off bs.length = false ∧ msixAccess off bs.length = false) :=
  ⟨⟨tBase, .oob, 0x10004, 4, by decide, by decide, (fun _ h => nomatch h)⟩,
    ⟨tBase, 0, 0, 4, by decide, by decide⟩,
    ⟨tBase, 1, 4, 8, by decide, by decide, by decide⟩,
    ⟨.oob, 4, [], by decide, (fun _ h => nomatch h)⟩,
    ⟨0, [], by decide⟩,
    ⟨0, [], by decide, by decide⟩⟩

/-- The coordinates of a public key, made with OpenSSL. -/
def tKeyX : Nat := 0xB6DFD940CCC98620747D430B7E5D978ABF733CE4480A2B5E47A2AABBBC075A3C9AFCCF0F723C8FF0363461E2009D55EE
def tKeyY : Nat := 0xF2935241C3330E3F67A20D6A11BC4284FDD3538CD7FD0F0F56CDF24DF26979B523BA58AE634BE06566FD0E4E85BF12A3

/-- The user record of one entry, signed with that key, SVN 5. -/
def tRecord (last : Nat) : List Byte :=
  leBytes 0x5543 2 ++ leBytes 1 2 ++ leBytes 0 12 ++ leBytes 1 2 ++ leBytes 252 2 ++ leBytes 0xFFF8 2 ++ leBytes 0 2 ++
    leBytes 0x314E4753 4 ++ leBytes 1 1 ++ leBytes 3 1 ++ leBytes 0 2 ++ leBytes 5 4 ++ leBytes 0 52 ++ beBytes tKeyX 48 ++ beBytes tKeyY 48 ++
    beBytes 0x1541BDDF7A405AEB1D6B5B6E8A9521FCF0D2499A0644C3C08215383057966BCB76927DCC5526D5579C25E5D23D54274F 48 ++
    beBytes (0xB776347033F25B75C139AF94343C31AC3FE6B7E931672553BA42C803BB6D949D503681E7D16343B1DCE83908E9FE8CBD + last) 48

/-- The device whose first owner slot holds the hash of that key. -/
def tSigned : State :=
  { tBase with fw := { tBase.fw with owner := [{ set := true, hash := beBytes 0x7FBE363133F7CE153D4F8F4253188934499E7FBA84BC6BEDD7BCCEC63A19B4D01F3773207E34FF0DC670B659974F1943 48 }] } }

/-- A directory entry. -/
def tEntry (type off len : Nat) : DirEntry := { type := type, ver := 1, rsvd := 0, off := off, len := len, crc := 0 }

/-- FIPS 197, C.3; the XTS data unit of 32 bytes at offset 32 * 0x12345678, made with OpenSSL; the tag of the GCM specification's test
case 13. -/
theorem test_cipher :
    bytesNat (aesEncrypt (aesKeys (List.range 32)) (natBytes 0x00112233445566778899AABBCCDDEEFF 16)) = 0x8EA2B7CA516745BFEAFC49904B496089 ∧
    gcmTag 0 0 [] [] = beBytes 0x530F8AFBC74536B9A963B4F1C4CB738B 16 ∧
    beNat (xtsEncrypt (BitVec.ofNat 256 (bytesNat (List.range 32)), BitVec.ofNat 256 (bytesNat ((List.range 64).drop 32))) (32 * 0x12345678)
      (beBytes 0x6465666768696A6B6C6D6E6F707172737475767778797A7B7C7D7E7F80818283 32)) = 0xE77DF9F861037A685FBBCA2FB55E41C1B497E4A4AC2BE4FE6BA05B7B696CB6ED := by decide +kernel

/-- FIPS 180-4: the digest of "abc". -/
theorem test_digest : beNat (sha384 [0x61#8, 0x62#8, 0x63#8]) = 0xCB00753F45A35E8BB5A03D699AC65007272C32AB0EDED1631A8B605A43FF5BED8086072BA1E7CC2358BAECA134C825A7 := by decide +kernel

/-- R475, R479: a record signed with OpenSSL is applied; with another signature it is refused for its signature. -/
theorem test_signedRecord :
    (tSigned.ucalEntries (tRecord 0) []).toOption = some [(1, 252, -8)] ∧
    (match tSigned.ucalEntries (tRecord 1) [] with | .error e => e | .ok _ => (0, 0)) = (1, 0) := by decide +kernel

/-- R468 to R470: two sections side by side in an image of one page; a second TYPE 2, an unknown TYPE, one over the end, and a first section
over the directory are refused under their TYPE. -/
theorem test_directory :
    dirWrong 2 4096 [] [tEntry 1 128 64, tEntry 2 192 3904] = none ∧ dirWrong 2 4096 [] [tEntry 2 128 64, tEntry 2 192 64] = some 2 ∧
    dirWrong 2 4096 [] [tEntry 1 128 64, tEntry 12 192 64] = some 12 ∧ dirWrong 2 4096 [] [tEntry 1 128 64, tEntry 3 192 3905] = some 3 ∧
    dirWrong 2 4096 [] [tEntry 1 64 64] = some 1 ∧ dirWrong 2 4096 [] [tEntry 1 128 65, tEntry 4 192 64] = some 4 := by decide

/-- R403: the blob of RFC 3394, 4.6, at the start of HBM. -/
theorem test_unwrap :
    (tKek.keyArg0 0 0).blobKey 0 (KeyCmd.ofNat 0x33F) = some 0x00112233445566778899AABBCCDDEEFF000102030405060708090A0B0C0D0E0F := by
  decide +kernel

/-- Witnesses of the hypotheses of KeyCommandsComplete. -/
theorem test_witness_KeyCommandsComplete :
    (∃ (s : State) (fn v a k : Nat) (c : KeyCmd), s.keyOpen fn ∧ c = KeyCmd.ofNat v ∧ c.region = false ∧ (s.keyArg0 fn a).installCheck fn
      c = none ∧ (s.keyArg0 fn a).blobKey fn c = some k) ∧
    (∃ (s : State) (fn v a : Nat) (c : KeyCmd), s.keyOpen fn ∧ c = KeyCmd.ofNat v ∧ c.region = true ∧ (s.keyArg0 fn a).installCheck fn c =
      none) ∧
    (∃ (s : State) (fn : Nat), s.keyOpen fn ∧ s.fw.kek = none) ∧
    (∃ (s : State) (fn : Nat) (v : Nat) (c : KeyCmd), s.keyOpen fn ∧ c = KeyCmd.ofNat v ∧ c.named = true ∧ c.region = false ∧ (s.keySet fn
      c.index).slots.getD c.epoch KState.empty = KState.valid) ∧
    (∃ (s : State) (fn : Nat) (v : Nat) (c : KeyCmd), s.keyOpen fn ∧ c = KeyCmd.ofNat v ∧ c.named = true ∧ c.region = false ∧ (s.keySet fn
      c.index).tx ≠ c.epoch ∧ (s.keySet fn c.index).slots.getD c.epoch KState.empty ≠ KState.killed) ∧
    (∃ (s : State) (fn : Nat) (v : Nat) (c : KeyCmd), s.keyOpen fn ∧ c = KeyCmd.ofNat v ∧ c.named = true ∧ c.region = false ∧ s.keyBound
      fn c.index = false) ∧
    (∃ (s : State) (fn : Nat) (v : Nat) (c : KeyCmd), s.keyOpen fn ∧ c = KeyCmd.ofNat v ∧ c.named = true ∧ c.region = false ∧ s.keyBound
      fn c.index = true) ∧
    (∃ (s : State) (fn : Nat) (v : Nat), s.keyOpen fn ∧ s.tagCheck fn (KeyCmd.ofNat v) = none) ∧
    (∃ (s : State) (fn p : Nat) (ps : List Nat) (g : Tagging), s.prot.tagging.find fn = some g ∧ g.pages = p :: ps ∧ s.pageAdmitted p =
      false ∧ spanFind s.ten.pages p = some fn) ∧
    (∃ (s : State) (q : Nat) (u : Unauth) (us : List Unauth), (s.qp q).unauth = u :: us ∧ u.good = true) ∧
    (∃ (s : State) (q : Nat) (u : Unauth) (us : List Unauth), (s.qp q).unauth = u :: us ∧ u.good = false ∧ u.place = none ∧ (s.qp
      q).authFails + 1 < max 1 (s.fld F.intCfgAuthMax)) ∧
    (∃ (s : State) (fn : Nat) (idx : Nat), s.region fn idx = KState.valid) :=
  ⟨⟨tKek, 0, 0x33F, 0, 0x00112233445566778899AABBCCDDEEFF000102030405060708090A0B0C0D0E0F, _, ⟨by decide, by decide⟩, rfl, by decide, by
      decide, test_unwrap⟩,
    ⟨tKek, 0, 0x8F, 0, _, ⟨by decide, by decide⟩, rfl, by decide, by decide⟩,
    ⟨tBase, 0, ⟨by decide, by decide⟩, by decide⟩,
    ⟨{ tKek with prot := { sets := [(setKey 0 63, { slots := [.empty, .empty, .empty, .valid] })] } }, 0, 0x33F, KeyCmd.ofNat 0x33F, ⟨by
      decide, by decide⟩, rfl, by decide, by decide, by decide⟩,
    ⟨tKek, 0, 0x33F, KeyCmd.ofNat 0x33F, ⟨by decide, by decide⟩, rfl, by decide, by decide, by decide, by decide⟩,
    ⟨tKek, 0, 0x33F, KeyCmd.ofNat 0x33F, ⟨by decide, by decide⟩, rfl, by decide, by decide, by decide⟩,
    ⟨{ tKek with qps := [(0, { state := .init, enc := true, owner := 0, keyh := 63 })] }, 0, 63, KeyCmd.ofNat 63, ⟨by decide, by decide⟩,
      rfl, by decide, by decide, by decide⟩,
    ⟨tFld tKek [(F.keyfArg1Pages, 0, 1)], 0, 0, ⟨by decide, by decide⟩, by decide⟩,
    ⟨{ tBase with prot := { tagging := [(1, { slot := 0, pages := [4, 5] })] } }, 1, 4, [5], _, rfl, rfl, by decide, by decide⟩,
    ⟨{ tBase with qps := [(0, { unauth := [{ pkt := { op := .ack }, good := true }] })] }, 0, _, [], rfl, by decide⟩,
    ⟨tFld { tBase with qps := [(0, { unauth := [{ pkt := { op := .ack } }] })] } [(F.intCfgAuthMax, 0, 2)], 0, { pkt := { op := .ack } },
      [], by decide, by decide, by decide, by decide⟩,
    ⟨{ tBase with prot := { regions := [(15, .valid)] } }, 0, 15, by decide⟩⟩

/-- Witnesses of the hypotheses of KioskCommandsComplete. -/
theorem test_witness_KioskCommandsComplete :
    (∃ (s : State) (fn : Nat) (k : Kiosk), s.barOpen fn = true ∧ s.kiosk fn = some k ∧ leAt (s.staged fn) 0 1 < 224 ∧ k.reqUsed <
      k.entries) ∧
    (∃ (s : State) (fn : Nat), s.barOpen fn = true ∧ (s.kiosk fn = none ∨ ∃ (k : Kiosk), s.kiosk fn = some k ∧ (224 ≤ leAt (s.staged fn) 0
      1 ∨ k.entries ≤ k.reqUsed))) ∧
    (∃ (s : State) (org : Origin) (fn : Nat) (idx : Nat) (k : Kiosk), s.dcsOpen org 2097240 = true ∧ s.kiosk fn = some k ∧ k.entries <
      subMod 16 (idx % 65536) k.rspHead) ∧
    (∃ (s : State) (org : Origin) (fn idx : Nat) (k : Kiosk), s.dcsOpen org 0x200058 = true ∧ s.kiosk fn = some k ∧ subMod 16 (idx %
      65536) k.rspHead ≤ k.entries) ∧
    (∃ (s : State) (org : Origin) (fn : Nat) (k : Kiosk), s.dcsOpen org 2097240 = true ∧ s.kiosk fn = some k ∧ s.ten.lostNotices = 0) ∧
    (∃ (s : State) (fn : Nat) (k : Kiosk), s.barOpen fn = true ∧ s.kiosk fn = some k ∧ k.rspHead ≠ k.rspTail) ∧
    (∃ (s : State) (fn : Nat) (k : Kiosk), s.barOpen fn = true ∧ s.kiosk fn = some k ∧ k.rspHead = k.rspTail) :=
  ⟨⟨tBase, 1, {}, by decide, by decide, by decide, by decide⟩,
    ⟨{ tBase with ten := { tBase.ten with kiosks := [] } }, 1, by decide, Or.inl (by decide)⟩,
    ⟨tBase, .oob, 1, 65, {}, by decide, by decide, by decide⟩,
    ⟨tBase, .oob, 1, 64, {}, by decide, by decide, by decide⟩,
    ⟨tBase, .oob, 1, {}, by decide, by decide, by decide⟩,
    ⟨{ tBase with ten := { tBase.ten with kiosks := [(1, { rspTail := 1 })] } }, 1, { rspTail := 1 }, by decide, by decide, by decide⟩,
    ⟨tBase, 1, {}, by decide, by decide, by decide⟩⟩

/-- Witnesses of the hypotheses of LocalTurnstileOperationsTakeEffect. -/
theorem test_witness_LocalTurnstileOperationsTakeEffect :
    (∃ (r : OpRef) (c : Instr) (code : Nat) (s : State) (t : State) (o : Op) (o' : Op) (fga : Nat), (c, code) ∈
      [(Instr.tsRead r, 1), (Instr.tsSet r, 2), (Instr.tsAdd r, 3), (Instr.tsCas r, 4), (Instr.tsWait r, 5), (Instr.tsAddWait r, 6), (Instr.tsAcquire r, 8), (Instr.tsTry r, 9), (Instr.tsRelease r, 10), (Instr.tsHandover r, 11), (Instr.tsAbandon r, 12)]
      ∧ s.starting r 24 = some o ∧ o.d.var = code ∧ s.keyTarget o.ref.fn o.d.qp o.d.rkey = KeyTarget.owned ∧ s.localBefore o = none ∧
      o.d.notify = false ∧ s.admitLocal o 0 (s.formed o.ref.fn o.d.qp o.d.rkey o.d.opx) = some (o', t) ∧ t.localTarget (t.user r.fn) o.d.rkey o.d.opx 16 true (tsNeedsW code)
      Use.turnstile = Except.ok fga ∧ fgaOff fga % 16 = 0) :=
  ⟨tR, .tsAbandon tR, 12, tTs 12, tTs 12, tTsO 12, tTsO 12, 2 ^ 44 + 0xFFFF0, by decide, by decide, by decide, by decide, by decide, by
    decide, by decide, by decide, by decide⟩

/-- Witnesses of the hypotheses of ManagementCommandsComplete. -/
theorem test_witness_ManagementCommandsComplete :
    (∃ (s : State) (n : Nat), s.oobUp = true ∧ n < 5) ∧
    (∃ (s : State) (kind : Nat) (off : Nat) (data : List Byte), s.oobUp = true ∧ s.stageCheck kind off data.length true = none) ∧
    (∃ (s : State), s.oobUp = true) ∧
    (∃ (s : State), s.oobUp = true ∧ s.flag F.mgtI3cStatusAssigned = false) ∧
    (∃ (s : State), s.oobUp = true ∧ s.flag F.mgtI3cStatusAssigned = true) ∧
    (∃ (s : State) (eid : Nat), s.oobUp = true ∧ 0 < eid ∧ eid < 255) ∧
    (∃ (s : State) (ys xs : List Bool), s.mgtRuns = true ∧ uartHunt s.uart.wait ys = xs ∧ xs ≠ [] ∧ uartMajority xs 7 = false ∧ (∃ i <
      154, xs.getD i true = true) ∧ (xs.drop 154).all id = true ∧ s.flag F.mgtUartCfgHost = true ∧ s.uart.rx.length < 64) ∧
    (∃ (s : State) (org : Origin), s.dcsOpen org 201326616 = true ∧ s.flag F.mgtUartCfgHost = true ∧ s.uart.tx.length < 64) ∧
    (∃ (s : State), s.tap.low = false ∧ s.tap.st ∈
      [TapState.reset, TapState.idle, TapState.selDr, TapState.ex1Dr, TapState.pauDr, TapState.ex2Dr, TapState.selIr, TapState.ex1Ir, TapState.pauIr, TapState.ex2Ir]) ∧
    (∃ (s : State), s.tap.low = false ∧ s.tap.st = TapState.shDr ∧ s.tap.instr = TapInstr.bypass) :=
  ⟨⟨tBase, 4, by decide, by decide⟩,
    ⟨tBase, 2, 0x1000000, List.replicate 4096 0#8, by decide, by simp
      [State.stageCheck, componentSize, tBase, tFld, State.reset, Firmware.onTrial, Firmware.bank]⟩,
    ⟨tBase, by decide⟩,
    ⟨tBase, by decide, by decide⟩,
    ⟨tFld tBase [(F.mgtI3cStatusAssigned, 0, 1)], by decide, by decide⟩,
    ⟨tBase, 254, by decide, by decide, by decide⟩,
    ⟨tFld { tBase with uart := { wait := true } } [(F.mgtUartCfgHost, 0, 1)], [false, true, true] ++ List.replicate 9 false ++ [true],
      List.replicate 9 false ++ [true], by decide, by decide, by decide, by decide, ⟨9, by decide, by decide⟩, by decide, by decide, by
      decide⟩,
    ⟨tFld { tBase with uart := { tx := List.replicate 63 0 } } [(F.mgtUartCfgHost, 0, 1)], .oob, by decide, by decide, by decide⟩,
    ⟨{ tBase with tap := { low := false } }, by decide, by decide⟩,
    ⟨{ tBase with tap := { low := false, st := .shDr } }, by decide, by decide, by decide⟩⟩

/-- Witnesses of the hypotheses of MemoryStepsTakeEffect. -/
theorem test_witness_MemoryStepsTakeEffect :
    (∃ (s : State) (b fn w off : Nat) (x : Blk), s.seqAt b 8 = some (fn, x, w) ∧ x.holdsNone ∧ x.outs.length < 16 ∧ storeCheck
      (x.stepStore w) ((bits w 103 88 + 1) * 64) 64 = none ∧ s.stepCheck fn (x.stepFga w).2 (x.stepFga w).1 ((bits w 103 88 + 1) * 64)
      true false = Except.ok off ∧ s.hbmBusy off ((bits w 103 88 + 1) * 64) = false) ∧
    (∃ (s : State) (b fn w off : Nat) (x : Blk), s.seqAt b 9 = some (fn, x, w) ∧ x.holdsNone ∧ x.outs.length < 16 ∧ storeCheck
      (x.stepStore w) ((bits w 103 88 + 1) * 64) 64 = none ∧ s.stepCheck fn (x.stepFga w).2 (x.stepFga w).1 ((bits w 103 88 + 1) * 64)
      false true = Except.ok off ∧ s.hbmBusy off ((bits w 103 88 + 1) * 64) = false) ∧
    (∃ (s : State) (b : Nat) (fn : Nat) (w : Nat) (x : Blk) (st : Status), s.seqAt b 8 = some (fn, x, w) ∧ x.holdsNone ∧ x.outs.length <
      16 ∧ storeCheck (x.stepStore w) ((bits w 103 88 + 1) * 64) 64 = none ∧ s.stepCheck fn (x.stepFga w).2 (x.stepFga w).1 ((bits w 103
      88 + 1) * 64) true false = Except.error st) ∧
    (∃ (s : State) (b id fn off a n : Nat) (o : SeqOut), (s.blk b).outOf id = some o ∧ s.blkFn b = some fn ∧ o.work = SeqWork.load off a n
      ∧ s.workStalled o.work = false ∧ s.workKilled o = false ∧ o.early = none ∧ o.cut = []) ∧
    (∃ (s : State) (b id fn off a n : Nat) (o : SeqOut), (s.blk b).outOf id = some o ∧ s.blkFn b = some fn ∧ o.work = SeqWork.store off a
      n ∧ s.workStalled o.work = false ∧ s.workKilled o = false ∧ o.early = none ∧ o.cut = [] ∧ (∀ (f : Nat), s.flag F.fnDlCtrlHbmEn f =
      false) ∧ s.prot.chans = []) ∧
    (∃ (s : State) (b fn w off i : Nat) (x : Blk), s.seqAt b 10 = some (fn, x, w) ∧ x.holdsNone ∧ x.outs.length < 16 ∧ storeCheck
      (x.stepStore w) ((bits w 96 88 + 1) * 4096) 4096 = none ∧ s.stepCheck fn (x.stepFga w).2 (x.stepFga w).1 ((bits w 96 88 + 1) * 4096)
      (bit w 104) false = Except.ok off ∧ s.bindCheck fn b off (x.stepStore w) ((bits w 96 88 + 1) * 4096) = none ∧ s.freeRes = some i ∧
      (bit w 104 = true → s.hbmBusy off ((bits w 96 88 + 1) * 4096) = false)) ∧
    (∃ (s v : State) (b i : Nat) (r : Resident) (o : SeqOut), (s.blk b).outs = [o] ∧ o.work = SeqWork.bind i ∧ s.workStalled o.work =
      false ∧ s.workKilled o = false ∧ s.res.find i = some r ∧ v = s.storesLand r) ∧
    (∃ (s : State) (b fn w i : Nat) (x : Blk) (r : Resident), s.seqAt b 11 = some (fn, x, w) ∧ x.holdsNone ∧ x.outs.length < 16 ∧ s.res =
      [(i, r)] ∧ r.blk = b ∧ r.state = RState.live ∧ r.base = fgaOff (x.stepFga w).1 ∧ r.region = x.stepStore w ∧ r.len = (bits w 96 88 +
      1) * 4096 ∧ fgaNode (x.stepFga w).1 = s.nodeId ∧ fgaSpace (x.stepFga w).1 = 0 ∧ storeCheck (x.stepStore w) r.len 4096 = none ∧ (bit
      w 104 = true → s.cipherOk r.base r.len = true)) ∧
    (∃ (s : State) (b i : Nat) (o : SeqOut), (s.blk b).outs = [o] ∧ o.work = SeqWork.release i ∧ s.workStalled o.work = false ∧
      s.workKilled o = false) :=
  ⟨⟨tStep 0x08, 0, 0, _, 0, _, rfl, (fun _ => rfl), by decide, by decide, rfl, by decide⟩,
    ⟨tStep 0x09, 0, 0, _, 0, _, rfl, (fun _ => rfl), by decide, by decide, rfl, by decide⟩,
    ⟨tSeqTs 0x08, 0, 0, _, _, .notPermitted, rfl, (fun _ => rfl), by decide, by decide, rfl⟩,
    ⟨tOuts { id := 7, pc := 0, rep := 0, work := .load 0 0 64 }, 0, 7, 0, 0, 0, 64, _, rfl, rfl, by decide, by decide, by decide, rfl,
      rfl⟩,
    ⟨{ tOuts { id := 7, pc := 0, rep := 0, work := .store 0 0 64 } with flds := [] }, 0, 7, 0, 0, 0, 64, _, rfl, rfl, by decide, by
      decide, by decide, rfl, rfl, (fun _ => rfl), by decide⟩,
    ⟨tStep 0x0A, 0, 0, _, 0, 0, _, rfl, (fun _ => rfl), by decide, by decide, rfl, by decide, by decide, by decide⟩,
    ⟨{ tOuts { id := 7, pc := 0, rep := 0, work := .bind 1023 } with res := [(1023, tRes)] }, _, 0, 1023, tRes,
      { id := 7, pc := 0, rep := 0, work := .bind 1023 }, by decide, by decide, by decide, by decide, by decide, rfl⟩,
    ⟨{ tStep 0x0B with res := [(5, tRes)] }, 0, 0, _, 5, _, tRes, rfl, (fun _ => rfl), by decide, rfl, by decide, by decide, by decide, by
      decide, by decide, by decide, by decide, by decide, by decide⟩,
    ⟨tOuts { id := 7, pc := 0, rep := 0, work := .release 5 }, 0, 5, { id := 7, pc := 0, rep := 0, work := .release 5 }, by decide, by
      decide, by decide, by decide⟩⟩

/-- Witnesses of the hypotheses of MemoryWritesReadBack. -/
theorem test_witness_MemoryWritesReadBack :
    (∃ (a : Nat) (bs : List Byte) (c : Nat), c < a ∨ a + bs.length ≤ c) ∧
    (∃ (m : List Host.Cell), Memory.wf m = true) ∧
    (∃ (m : List Host.Cell) (n : List Host.Cell), Memory.wf m = true ∧ Memory.wf n = true ∧ (∀ (a : Nat), readByte m a = readByte n a)) :=
  ⟨⟨1, [1#8], 0, by decide⟩,
    ⟨[(5, 1#8)], by decide⟩,
    ⟨[(5, 1#8)], [(5, 1#8)], by decide, by decide, fun _ => rfl⟩⟩

/-- Witnesses of the hypotheses of MeterChargesOneBucket. -/
theorem test_witness_MeterChargesOneBucket :
    (∃ (m : Meter) (pre : Colour) (n : Nat), (m.colour pre n).1 = Colour.green) ∧
    (∃ (m : Meter) (pre : Colour) (n : Nat), (m.colour pre n).1 = Colour.yellow) ∧
    (∃ (m : Meter) (pre : Colour) (n : Nat), (m.colour pre n).1 = Colour.red) ∧
    (∃ (m : Meter) (pre : Colour), m.aware = true ∧ pre = Colour.red) ∧
    (∃ (m : Meter) (pre : Colour), m.aware = true ∧ pre = Colour.yellow) ∧
    (∃ (m : Meter), m.aware = false) :=
  ⟨⟨{ tc := 8 }, .green, 1, by decide⟩,
    ⟨{ te := 8 }, .green, 1, by decide⟩,
    ⟨{}, .red, 1, by decide⟩,
    ⟨{ aware := true }, .red, by decide, by decide⟩,
    ⟨{ aware := true }, .yellow, by decide, by decide⟩,
    ⟨{}, by decide⟩⟩

/-- Witnesses of the hypotheses of NopCompletesInPlace. -/
theorem test_witness_NopCompletesInPlace :
    (∃ (s : State) (r : OpRef) (o : Op), s.starting r 0 = some o ∧ s.ringInHbm r.fn r.q = true ∧ (s.queue r.fn r.q).state ≠ QState.held ∧
      s.putsRegisters r.fn = false ∧ s.cplBusy r = false ∧ s.spaceCheck 0 (s.entryAddr r.fn r.q r.pos % 2 ^ 44 + 32) 32 true = none ∧
      s.res = [] ∧ ∀ (fn : Nat), s.flag F.fnDlCtrlHbmEn fn = false) :=
  ⟨tNop, tR, _, rfl, by decide, by decide, by decide, by decide, by decide, by decide, tNop_flag⟩

/-- Witnesses of the hypotheses of PowerAndThermalCommandsComplete. -/
theorem test_witness_PowerAndThermalCommandsComplete :
    (∃ (s : State) (org : Origin) (d : Nat), s.dcsOpen org 131088 = true ∧ s.domBusy = false ∧ s.domPresent d = true ∧ d < 24 ∧ d ∈
      s.img.mayOn ∧ s.dom d = DomState.off) ∧
    (∃ (s : State) (org : Origin) (d : Nat), s.dcsOpen org 131088 = true ∧ s.domBusy = false ∧ s.domPresent d = true ∧ d < 16 ∧ s.keepsOn
      d = false ∧ s.dom d = DomState.on) ∧
    (∃ (s : State) (org : Origin) (d : Nat), s.dcsOpen org 131088 = true ∧ s.domBusy = false ∧ s.domPresent d = true ∧ 16 ≤ d ∧ d < 24 ∧
      s.keepsOn d = false ∧ s.dom d = DomState.on) ∧
    (∃ (s : State) (org : Origin) (d : Nat), s.dcsOpen org 131088 = true ∧ s.domBusy = false ∧ s.domPresent d = false ∧ d < 24) ∧
    (∃ (s : State) (d : Nat), s.domPresent d = true ∧ d < 16 ∧ s.dom d = DomState.changing true) ∧
    (∃ (s : State) (d : Nat), s.domPresent d = true ∧ 16 ≤ d ∧ d < 20 ∧ s.dom d = DomState.changing true) ∧
    (∃ (s : State) (d : Nat), s.domPresent d = true ∧ 20 ≤ d ∧ s.dom d = DomState.changing true) ∧
    (∃ (s : State) (d : Nat), s.domPresent d = true ∧ d < 20 ∧ s.dom d = DomState.changing false ∧ s.domWorks d = false) ∧
    (∃ (s : State) (d : Nat), s.domPresent d = true ∧ 20 ≤ d ∧ s.dom d = DomState.changing false) ∧
    (∃ (s : State) (n : Nat), s.sensorPresent n = true ∧ s.powered = true ∧ n < 40) ∧
    (∃ (s : State), s.dev.state ≠ DevState.off ∧ s.gov.trip = false) ∧
    (∃ (s : State) (p lim heat : Nat), s.governs = true ∧ lim = min (s.fld F.clkpwrGovCfgPkgLimitW) s.fuses.variant.limitW ∧ heat = (match
      s.gov.hotWins with | some n => if (n + 1) % 100 = 0 then 1 else 0 | none => 0) ∧ 0 < (p - lim + 9) / 10 + heat) ∧
    (∃ (s : State), s.governs = true ∧ s.fld F.clkpwrGovStatusStage = s.stageMax ∧ s.flag F.clkpwrGovStatusThermal = true ∧ s.flag
      F.clkpwrGovStatusAtFloor = false) :=
  ⟨⟨tDom 23 .off, .oob, 23, by decide, by decide, by decide, by decide, by decide, by decide⟩,
    ⟨tBase, .oob, 15, by decide, by decide, by decide, by decide, by decide, by decide⟩,
    ⟨tBase, .oob, 23, by decide, by decide, by decide, by decide, by decide, by decide, by decide⟩,
    ⟨{ tBase with fuses := { tBase.fuses with variant := .cx900 } }, .oob, 22, by decide, by decide, by decide, by decide⟩,
    ⟨tDom 15 (.changing true), 15, by decide, by decide, by decide⟩,
    ⟨tDom 19 (.changing true), 19, by decide, by decide, by decide, by decide⟩,
    ⟨tDom 23 (.changing true), 23, by decide, by decide, by decide⟩,
    ⟨tDom 7 (.changing false), 7, by decide, by decide, by decide, by decide⟩,
    ⟨tDom 23 (.changing false), 23, by decide, by decide, by decide⟩,
    ⟨tBase, 39, by decide, by decide, by decide⟩,
    ⟨tBase, by decide, by decide⟩,
    ⟨tBase, 1251, _, _, by decide, rfl, rfl, by decide⟩,
    ⟨tFld tBase [(F.clkpwrGovStatusStage, 0, tBase.stageMax), (F.clkpwrGovStatusThermal, 0, 1)], by decide, by decide, by decide, by
      decide⟩⟩

/-- Witnesses of the hypotheses of QpCommandsComplete. -/
theorem test_witness_QpCommandsComplete :
    (∃ (s : State) (fn q : Nat) (b : QpBlock), s.qpcOpen fn ∧ s.ownHbm fn (s.fld F.qpcArg0Fga fn) 64 false = none ∧ b = QpBlock.ofBytes
      (s.hbmRead (fgaOff (s.fld F.qpcArg0Fga fn)) 64) ∧ s.qpBlockOk b = true ∧ s.qpSizesOk b = true ∧ (b.sec = 0 ∨ s.keyFree fn b.keyh =
      true) ∧ s.freeQp fn b.pipe = some q) ∧
    (∃ (s : State) (fn : Nat) (q : Nat), s.qpcOpen fn ∧ s.holdsQp fn q = true ∧ (s.qp q).state = QpState.init ∧ (s.qp q).roce = false) ∧
    (∃ (s : State) (fn : Nat) (q : Nat), s.qpcOpen fn ∧ s.holdsQp fn q = true ∧ (s.qp q).state = QpState.init ∧ (s.qp q).roce = true) ∧
    (∃ (s : State) (fn : Nat) (q : Nat), s.qpcOpen fn ∧ s.holdsQp fn q = true ∧ (s.qp q).state ≠ QpState.init) ∧
    (∃ (s : State) (fn : Nat) (q : Nat), s.qpcOpen fn ∧ s.holdsQp fn q = true ∧ (s.qp q).state = QpState.connected) ∧
    (∃ (s : State) (fn : Nat) (q : Nat), s.qpcOpen fn ∧ s.holdsQp fn q = true ∧ (s.qp q).state ≠ QpState.free ∧ (s.qp q).up = false) ∧
    (∃ (s : State) (fn : Nat) (q : Nat), s.qpcOpen fn ∧ s.holdsQp fn q = true ∧ ((s.qp q).state = QpState.init ∨ (s.qp q).state =
      QpState.error)) ∧
    (∃ (s : State) (fn : Nat) (q : Nat), s.qpcOpen fn ∧ s.holdsQp fn q = true ∧ s.ownHbm fn (s.fld F.qpcArg0Fga fn) 64 true = none) ∧
    (∃ (s : State) (fn : Nat) (q : Nat), s.qpcOpen fn ∧ s.holdsQp fn q = false) ∧
    (∃ (s : State) (q : Nat), (s.qp q).state = QpState.connecting) :=
  ⟨⟨{ tBase with mem := writeBytes [] 0 tBlock }, 0, 0, QpBlock.ofBytes tBlock, ⟨by decide, by decide⟩, by decide, rfl, by decide, by
      decide, .inl (by decide), by decide⟩,
    ⟨tQp { state := .init }, 0, 5, ⟨by decide, by decide⟩, by decide, by decide, by decide⟩,
    ⟨tQp { state := .init, roce := true }, 0, 5, ⟨by decide, by decide⟩, by decide, by decide, by decide⟩,
    ⟨tQp { state := .error }, 0, 5, ⟨by decide, by decide⟩, by decide, by decide⟩,
    ⟨tQp { state := .connected }, 0, 5, ⟨by decide, by decide⟩, by decide, by decide⟩,
    ⟨tQp { state := .error }, 0, 5, ⟨by decide, by decide⟩, by decide, by decide, by decide⟩,
    ⟨tQp { state := .error }, 0, 5, ⟨by decide, by decide⟩, by decide, by decide⟩,
    ⟨tQp { state := .error }, 0, 5, ⟨by decide, by decide⟩, by decide, by decide⟩,
    ⟨tBase, 0, 8, ⟨by decide, by decide⟩, by decide⟩,
    ⟨tQp { state := .connecting }, 5, by decide⟩⟩

/-- Witnesses of the hypotheses of QuietCommandsEndWithTheirOwnEffect. -/
theorem test_witness_QuietCommandsEndWithTheirOwnEffect :
    (∃ (s u : State), u.dones = [] ∧ u.qps = [] ∧ u.colls = [] ∧ u.walks = [] ∧ u.dcsIn = [] ∧ u.vl.inj = [] ∧ u.vl.kept = [] ∧ s.hbmHolds
      = u.hbmHolds ∧ u.flag F.enExtCtrlEnable = false ∧ (u.dev.state = DevState.fault → u.fw.onTrial = false) ∧ (u.dev.state =
      DevState.equalShare ∨ u.dev.state = DevState.service ∨ u.dev.state = DevState.drain ∨ u.vl.links = [] ∧ u.en = [])) :=
  ⟨tBase, tBase, by decide, by decide, by decide, by decide, by decide, by decide, by decide, rfl, by decide, fun _ => by decide, Or.inr
    (Or.inl (by decide))⟩

/-- Witnesses of the hypotheses of RegisterCommandsReachTheirRegister. -/
theorem test_witness_RegisterCommandsReachTheirRegister :
    (∃ (s : State) (org : Origin) (off : Nat), (∀ (fn : Nat), org ≠ Origin.host fn) ∧ s.dcsOpen org off = true ∧ off % 8 = 0) ∧
    (∃ (s : State) (fn : Nat) (off : Nat), s.dcsOpen (Origin.host fn) off = true ∧ off % 8 = 0) ∧
    (∃ (s : State) (org : Origin) (off : Nat) (len : Nat), (∀ (fn : Nat), org ≠ Origin.host fn) ∧ s.dcsOpen org off = true ∧ regular off
      len = false) ∧
    (∃ (org : Origin) (off : Nat) (bs : List Byte), (∀ (fn : Nat), org ≠ Origin.host fn) ∧ regular off bs.length = false) ∧
    (∃ (s : State) (off : Nat), s.oobUp = true ∧ off % 8 = 0) :=
  ⟨⟨tBase, .oob, 0x10008, (fun _ h => nomatch h), by decide, by decide⟩,
    ⟨tBase, 0, 0, by decide, by decide⟩,
    ⟨tBase, .oob, 0x10004, 4, (fun _ h => nomatch h), by decide, by decide⟩,
    ⟨.oob, 4, [], (fun _ h => nomatch h), by decide⟩,
    ⟨tBase, 8, by decide, by decide⟩⟩

/-- Witnesses of the hypotheses of ReleasedLockPassesToTheOldestWaiter. -/
theorem test_witness_ReleasedLockPassesToTheOldestWaiter :
    (∃ (t : Turnstile) (pre : List TsWaiter) (post : List TsWaiter) (w : TsWaiter) (u : User), t.waiters = pre ++ w :: post ∧ (∀ x ∈ pre,
      x.want ≠ TsWant.lock) ∧ w.want = TsWant.lock ∧ lstate t.ownerField = 1 ∧ holder t.ownerField = u) ∧
    (∃ (t : Turnstile) (pre : List TsWaiter) (post : List TsWaiter) (w : TsWaiter), t.waiters = pre ++ w :: post ∧ (∀ x ∈ pre, x.want ≠
      TsWant.lock) ∧ w.want = TsWant.lock ∧ lstate t.ownerField = 1 ∧ w.user.node < 65536 ∧ w.user.fn < 256) ∧
    (∃ (t : Turnstile) (pre : List TsWaiter) (post : List TsWaiter) (w : TsWaiter), t.waiters = pre ++ w :: post ∧ (∀ x ∈ pre, x.want ≠
      TsWant.lock) ∧ w.want = TsWant.lock ∧ lstate t.ownerField = 1) :=
  ⟨⟨tHeld, [], [], tWait, { node := 0, fn := 1 }, by decide, (fun _ h => nomatch h), by decide, by decide, by decide⟩,
    ⟨tHeld, [], [], tWait, by decide, (fun _ h => nomatch h), by decide, by decide, by decide, by decide⟩,
    ⟨tHeld, [], [], tWait, by decide, (fun _ h => nomatch h), by decide, by decide⟩⟩

/-- Witnesses of the hypotheses of RemoteOperationsStart. -/
theorem test_witness_RemoteOperationsStart :
    (∀ c, c ∈ [16, 17, 20, 21, 22] → ∃ (s : State) (r : OpRef) (o : Op), s.keyTarget o.ref.fn o.d.qp o.d.rkey = .owned ∧ s.starting r c =
      some o) ∧
    (∀ v, v ∈ [1, 2, 3, 4, 5, 6, 8, 9, 10, 11, 12] → ∃ (s : State) (r : OpRef) (o : Op), s.keyTarget o.ref.fn o.d.qp o.d.rkey = .owned ∧
      s.starting r 24 = some o ∧ o.d.var = v) ∧
    (∀ c, c ∈ [16, 17, 20, 21, 22] → ∃ (s : State) (r : OpRef) (o : Op), s.keyTarget o.ref.fn o.d.qp o.d.rkey ≠ .owned ∧ s.starting r c =
      some o) ∧
    (∀ v, v ∈ [1, 2, 3, 4, 5, 6, 8, 9, 10, 11, 12] → ∃ (s : State) (r : OpRef) (o : Op), s.keyTarget o.ref.fn o.d.qp o.d.rkey ≠ .owned ∧
      s.starting r 24 = some o ∧ o.d.var = v) ∧
    (∃ (s : State) (r : OpRef) (o : Op), s.starting r 18 = some o) ∧
    (∃ (s : State) (r : OpRef) (o : Op), s.starting r 19 = some o ∧ (s.qp o.d.qp).up = true) ∧
    (∃ (s : State) (r : OpRef) (o : Op) (sec : Op), s.starting r 48 = some o ∧ o.d.var = 1 ∧ s.secondOf o = some sec) ∧
    (∃ (s : State) (r : OpRef) (o : Op) (sec : Op) (fga : Nat), s.starting r 48 = some o ∧ o.d.var = 0 ∧ s.secondOf o = some sec ∧
      s.keyTarget o.ref.fn o.d.qp o.d.rkey = KeyTarget.owned ∧ s.localTarget (s.user o.ref.fn) o.d.rkey o.d.opx 16 true false
      Use.turnstile = Except.ok fga ∧ fgaOff fga % 16 = 0) ∧
    (∃ (s : State) (r : OpRef) (o : Op), s.starting r 48 = some o ∧ s.secondOf o = none ∧ o.d.var = 0) ∧
    (∃ (s : State) (r : OpRef) (o : Op), s.starting r 48 = some o ∧ s.secondOf o = none ∧ o.d.var = 1) ∧
    (∃ (s t : State) (r : OpRef) (o o' : Op), (s.blk o.d.var).loading ≠ some o.ref ∧ s.domOn (blkDomain s.fuses.variant.blkPerDist
      o.d.var) = true ∧ s.loadCheck o = none ∧ s.admitTable o = some (o', t) ∧ (t.blk o.d.var).idleNow = true ∧ (t.blk o.d.var).waiting =
      [] ∧ s.starting r 40 = some o) ∧
    (∃ (s t : State) (r : OpRef) (o o' : Op), (s.blk o.d.var).loading ≠ some o.ref ∧ s.domOn (blkDomain s.fuses.variant.blkPerDist
      o.d.var) = true ∧ s.loadCheck o = none ∧ s.admitTable o = some (o', t) ∧ (t.blk o.d.var).idleNow = true ∧ (t.blk o.d.var).waiting =
      [] ∧ s.starting r 41 = some o) ∧
    (∃ (s t : State) (o o' : Op), (s.blk o.d.var).loading ≠ some o.ref ∧ s.domOn (blkDomain s.fuses.variant.blkPerDist o.d.var) = true ∧
      s.loadCheck o = none ∧ s.admitTable o = some (o', t) ∧ ((t.blk o.d.var).idleNow = false ∨ (t.blk o.d.var).waiting ≠ [])) :=
  ⟨fun c h => ⟨tOpS { opcode := c } [], tR, tO { opcode := c }, rfl, tStarts c h⟩,
    fun v h => ⟨tOpS { opcode := 24, var := v } [], tR, tO { opcode := 24, var := v }, rfl, tStartsTs v h, rfl⟩,
    fun c h => ⟨tRem c 0, tR, tO { opcode := c, qp := 5, rkey := 0x401 }, (fun h => nomatch h), tStartsRem c h⟩,
    fun v h => ⟨tRem 24 v, tR, tO { opcode := 24, var := v, qp := 5, rkey := 0x401 }, (fun h => nomatch h), tStartsRemTs v h, rfl⟩,
    ⟨tOpS { opcode := 18 } [], tR, _, rfl⟩,
    ⟨{ tOpS { opcode := 19, qp := 5 } [] with qps := [(5, { state := .connected })] }, tR, _, rfl, by decide⟩,
    ⟨tArm 1, tR, _, _, rfl, by decide, rfl⟩,
    ⟨tArm 0, tR, tO { opcode := 48, opx := 2 ^ 44 + 0xFFFF0 }, { ref := { fn := 0, q := 0, pos := 1 }, d := {}, phase := .armed }, 2 ^ 44
      + 0xFFFF0, by decide, by decide, by decide, by decide, by decide, by decide⟩,
    ⟨tOpS { opcode := 48 } [], tR, _, rfl, by decide, rfl⟩,
    ⟨tOpS { opcode := 48, var := 1 } [], tR, _, rfl, by decide, rfl⟩,
    ⟨tLoad 40 {}, _, tR, tO { opcode := 40, var := 0, len := 64, flags := 16 }, _, by decide, by decide, by decide, rfl, by decide, by
      decide, by decide⟩,
    ⟨tLoad 41 {}, _, tR, tO { opcode := 41, var := 0, len := 64, flags := 16 }, _, by decide, by decide, by decide, rfl, by decide, by
      decide, by decide⟩,
    ⟨tLoad 41 { state := .running }, _, tO { opcode := 41, var := 0, len := 64, flags := 16 }, _, by decide, by decide, by decide, rfl,
      .inl (by decide)⟩⟩

/-- Witnesses of the hypotheses of ResetsClearEveryTurnstile. -/
theorem test_witness_ResetsClearEveryTurnstile :
    (∃ (s : State), s.dev.state ≠ DevState.off ∧ s.dev.state ≠ DevState.standby ∧ s.dev.resetLow = false) ∧
    (∃ (s : State) (org : Origin), s.dev.state ≠ DevState.off ∧ s.dev.state ≠ DevState.standby ∧ s.dcsOpen org 65544 = true ∧
      s.dev.resetLow = false) ∧
    (∃ (s : State), s.dev.state ≠ DevState.off ∧ s.dev.state ≠ DevState.standby ∧ s.dev.state = DevState.drain ∧ s.dev.drainSent ≠ 0) ∧
    (∃ (s : State), s.dev.state ≠ DevState.off ∧ s.dev.state ≠ DevState.standby) ∧
    (∃ (s : State), s.dev.state ≠ DevState.off) :=
  ⟨⟨{ tBase with ts := [(65535, { value := 7, owner := 1 })] }, by decide, by decide, by decide⟩,
    ⟨tBase, .oob, by decide, by decide, by decide, by decide⟩,
    ⟨{ tBase with dev := { state := .drain, drainSent := 1 } }, by decide, by decide, by decide, by decide⟩,
    ⟨{ State.reset with dev := { state := .fault } }, by decide, by decide⟩,
    ⟨{ State.reset with dev := { state := .standby } }, by decide⟩⟩

/-- Witnesses of the hypotheses of RocePacketsTakeEffect. -/
theorem test_witness_RocePacketsTakeEffect :
    (∃ (s : State) (v : State) (p : RocePkt) (a : Arrival), roceIsRequest p.op = true ∧ s.takesRoce p a ∧ ((s.contextUsed
      p.dstQp).netMeter p.dstQp a (roceBytes p)).1 = some v) ∧
    (∃ (s : State) (p : RocePkt) (a : Arrival), roceIsAnswer p.op = true ∧ p.op ≠ RoceOp.readResp ∧ p.op ≠ RoceOp.atomicAck ∧ s.takesRoce
      p a) ∧
    (∃ (s : State) (v : State) (p : RocePkt) (a : Arrival), (p.op = RoceOp.readResp ∨ p.op = RoceOp.atomicAck) ∧ s.takesRoce p a ∧
      ((s.contextUsed p.dstQp).netMeter p.dstQp a (roceBytes p)).1 = some v) ∧
    (∃ (s : State) (p : RocePkt) (a : Arrival), p.op = RoceOp.cnp ∧ s.takesRoce p a ∧ (s.prof p.dstQp).ecnEn = true) :=
  ⟨⟨tNet { state := .connected, roce := true }, ((State.contextUsed (tNet { state := .connected, roce := true }) 5).netMeter 5 {}
      (roceBytes { op := .write, dstQp := 5 })).2, { op := .write, dstQp := 5 }, {}, by decide, ⟨⟨by decide, by decide, by decide, by
      decide, by decide, by decide⟩, by decide, by decide, by decide, by decide⟩, rfl⟩,
    ⟨tNet { state := .connected, roce := true }, { op := .ack, dstQp := 5 }, {}, by decide, by decide, by decide, ⟨⟨by decide, by decide,
      by decide, by decide, by decide, by decide⟩, by decide, by decide, by decide, by decide⟩⟩,
    ⟨tNet { state := .connected, roce := true }, ((State.contextUsed (tNet { state := .connected, roce := true }) 5).netMeter 5 {}
      (roceBytes { op := .readResp, dstQp := 5 })).2, { op := .readResp, dstQp := 5 }, {}, by decide, ⟨⟨by decide, by decide, by decide,
      by decide, by decide, by decide⟩, by decide, by decide, by decide, by decide⟩, rfl⟩,
    ⟨(tNet { state := .connected, roce := true }).setRate 5 { prof := { ecnEn := true } }, { op := .cnp, dstQp := 5 }, {}, by decide, ⟨⟨by
      decide, by decide, by decide, by decide, by decide, by decide⟩, by decide, by decide, by decide, by decide⟩, by decide⟩⟩

/-- Witnesses of the hypotheses of SelfTestAndBandwidthCommandsComplete. -/
theorem test_witness_SelfTestAndBandwidthCommandsComplete :
    (∃ (s : State) (kind : Nat) (e : SliceEnd), s.slicesRun kind = true ∧ sliceFailed kind e = false) ∧
    (∃ (s : State) (kind : Nat) (target : Nat), s.slicesRun kind = true ∧ kind ≤ 2 ∧ AMap.look 0 s.bist.defers (kind * 65536 + target) <
      64) ∧
    (∃ (s : State) (kind : Nat) (e : SliceEnd), s.slicesRun kind = true ∧ sliceFailed kind e = true) ∧
    (∃ (s : State) (kind target : Nat), AMap.look 0 s.bist.defers (kind * 65536 + target) ≠ 0) ∧
    (∃ (s : State) (kind target : Nat), AMap.look 0 s.bist.defers (kind * 65536 + target) = 0) ∧
    (∃ (s : State) (kind : Nat) (target : Nat) (e : SliceEnd), s.slicesRun kind = true ∧ sliceFailed kind e = false ∧ AMap.look 0
      s.bist.defers (kind * 65536 + target) ≠ 0) ∧
    (∃ (s : State) (org : Origin), s.dcsOpen org 184549416 = true ∧ s.dev.state ≠ DevState.fault ∧ (List.filter (fun (r : Nat × Nat × Nat)
      => r.1 != 3) s.settings.soft).length ≤ s.bist.fusesFree) ∧
    (∃ (s : State) (m : Nat), m < 16 ∧ s.flag F.telBwCfgEnable m = true) :=
  ⟨⟨tBist [], 5, .pass, by decide, by decide⟩,
    ⟨tBist [(65536, 63)], 1, 0, by decide, by decide, by decide⟩,
    ⟨tBist [], 5, .sensor, by decide, by decide⟩,
    ⟨tBist [(65536, 1)], 1, 0, by decide⟩,
    ⟨tBist [], 1, 0, by decide⟩,
    ⟨tBist [(65536, 1)], 1, 0, .pass, by decide, by decide, by decide⟩,
    ⟨{ tBase with bist := { fusesFree := 1 }, fw := { area0 := some (areaOf 0 { soft := [(1, 0, 0)] }) } }, .oob, by decide, by decide, by
      decide⟩,
    ⟨tFld tBase [(F.telBwCfgEnable, 15, 1)], 15, by decide, by decide⟩⟩

/-- Witnesses of the hypotheses of SequencerStepsTakeEffect. -/
theorem test_witness_SequencerStepsTakeEffect :
    (∃ (s : State) (b : Nat) (fn : Nat) (w : Nat) (x : Blk), s.seqAt b 0 = some (fn, x, w)) ∧
    (∃ (s : State) (b : Nat) (fn : Nat) (w : Nat) (x : Blk), s.seqAt b 1 = some (fn, x, w) ∧ x.start.bind s.op = none ∧ x.waiting = []) ∧
    (∃ (s : State) (b : Nat) (fn : Nat) (w : Nat) (x : Blk) (o : Op), s.seqAt b 1 = some (fn, x, w) ∧ x.start.bind s.op = some o) ∧
    (∃ (s : State) (b : Nat) (fn : Nat) (w : Nat) (x : Blk), s.seqAt b 2 = some (fn, x, w)) ∧
    (∃ (s : State) (b : Nat) (fn : Nat) (w : Nat) (x : Blk), s.seqAt b 3 = some (fn, x, w)) ∧
    (∃ (s : State) (t : State) (b : Nat) (fn : Nat) (w : Nat) (x : Blk) (waits : Bool), s.seqAt b 24 = some (fn, x, w) ∧ s.turnStep fn b
      x w 5 = Except.ok (t, waits)) ∧
    (∃ (s : State) (t : State) (b : Nat) (fn : Nat) (w : Nat) (x : Blk) (waits : Bool), s.seqAt b 25 = some (fn, x, w) ∧ s.turnStep fn b
      x w 3 = Except.ok (t, waits)) ∧
    (∃ (s : State) (b : Nat) (fn : Nat) (w : Nat) (x : Blk) (st : Status), s.seqAt b 25 = some (fn, x, w) ∧ s.turnStep fn b x w 3 =
      Except.error st) ∧
    (∃ (s : State) (b : Nat) (fn : Nat) (w : Nat) (x : Blk), s.seqAt b 32 = some (fn, x, w) ∧ x.holdsNone ∧ x.outs.length < 16 ∧
      storeCheck (x.addr (bits w 35 32) 0 x.rep) (8 * (bits w 51 40 + 1)) 64 = none ∧ storeCheck (x.addr (bits w 39 36) 0 x.rep) (16 *
      (bits w 51 40 + 1)) 64 = none) ∧
    (∃ (s : State) (b : Nat) (fn : Nat) (w : Nat) (x : Blk), s.seqAt b 33 = some (fn, x, w) ∧ x.holdsNone ∧ x.outs.length < 16 ∧
      storeCheck (x.addr (bits w 35 32) 0 x.rep) (16 * (bits w 51 40 + 1)) 64 = none ∧ storeCheck (x.addr (bits w 39 36) 0 x.rep) (8 *
      (bits w 51 40 + 1)) 64 = none) ∧
    (∃ (s : State) (b : Nat) (fn : Nat) (w : Nat) (x : Blk) (st : Status), s.seqAt b 32 = some (fn, x, w) ∧ x.holdsNone ∧ x.outs.length <
      16 ∧ storeCheck (x.addr (bits w 35 32) 0 x.rep) (8 * (bits w 51 40 + 1)) 64 = some st) :=
  ⟨⟨tStep 0x00, 0, 0, _, _, rfl⟩,
    ⟨tStep 0x01, 0, 0, _, _, rfl, by decide, by decide⟩,
    ⟨{ tOpS { opcode := 41 } [] with blks := [(0, { state := .running, steps := [1], start := some tR })] }, 0, 0, _, _, _, rfl, rfl⟩,
    ⟨tStep 0x02, 0, 0, _, _, rfl⟩,
    ⟨tStep 0x03, 0, 0, _, _, rfl⟩,
    ⟨tSeqTs 0x18, _, 0, 0, _, _, _, rfl, rfl⟩,
    ⟨tSeqTs 0x19, _, 0, 0, _, _, _, rfl, rfl⟩,
    ⟨tStep 0x19, 0, 0, _, _, _, rfl, rfl⟩,
    ⟨tStep (0x20 + 511 * 2 ^ 40), 0, 0, _, _, rfl, (fun _ => rfl), by decide, by decide, by decide⟩,
    ⟨tStep (0x21 + 511 * 2 ^ 40), 0, 0, _, _, rfl, (fun _ => rfl), by decide, by decide, by decide⟩,
    ⟨{ tBase with blks := [(0, { state := .running, steps := [0x20], ars := [32] })] }, 0, 0, _, _, .misaligned, rfl, (fun _ => rfl), by
      decide, by decide⟩⟩

/-- Witnesses of the hypotheses of ShaperCreditStaysWithinItsBurst. -/
theorem test_witness_ShaperCreditStaysWithinItsBurst :
    (∃ (x : Shaper) (burst : Nat), -↑(burst * 8) ≤ x.credit ∧ x.credit ≤ ↑(burst * 8)) ∧
    (∃ (x : Shaper), x.clear = true) ∧
    (∃ (x : Shaper) (n : Nat), x.allows n = true) :=
  ⟨⟨{ burst := 1, credit := -8 }, 1, by decide, by decide⟩,
    ⟨{ clear := true }, by decide⟩,
    ⟨{ burst := 1 }, 1, by decide⟩⟩

/-- Witnesses of the hypotheses of ShapingCommandsComplete. -/
theorem test_witness_ShapingCommandsComplete :
    (∃ (s : State), s.heldReads = [] ∧ s.qps = [] ∧ s.created = []) ∧
    (∃ (s : State) (q : Nat) (x : Qp), s.heldReads = [] ∧ s.qps = [(q, x)] ∧ x.up = true ∧ s.created = []) ∧
    (∃ (s : State) (fn : Nat), s.heldReads = [] ∧ s.qps = [] ∧ s.created = [fn]) ∧
    (∃ (s : State) (q : Nat) (p : Nat) (x : RateCtl), p = (s.qp q).profile ∧ x = s.rateCtl q ∧ (s.qp q).up = true ∧ x.timer = 0 ∧ x.a ≠ 0
      ∧ 0 < x.m) ∧
    (∃ (s : State) (q : Nat) (x : RateCtl), x = s.rateCtl q ∧ (s.qp q).up = true ∧ x.timer = 0 ∧ x.a ≠ 0 ∧ x.m = 0 ∧ 0 < x.hold) ∧
    (∃ (s : State) (q p g : Nat) (x : RateCtl), p = (s.qp q).profile ∧ x = s.rateCtl q ∧ (s.qp q).up = true ∧ x.timer = 0 ∧ x.a ≠ 0 ∧ x.m
      = 0 ∧ x.hold = 0 ∧ (s.flag F.ccProfCtrlRttEn p = false ∨ x.rtt = none) ∧ g = min (x.grow + 1) (max 1 (s.fld F.ccProfCtrlGrowMax p))) ∧
    (∃ (s : State) (q : Nat) (x : RateCtl), x = s.rateCtl q ∧ (s.qp q).up = true ∧ x.timer = 0 ∧ x.a = 0) ∧
    (∃ (s : State) (q : Nat), (s.rateCtl q).timer ≠ 0) ∧
    (∃ (s : State) (fn : Nat) (q : Nat), s.created = [fn] ∧ q < (s.alloc fn).qCount) ∧
    (∃ (s : State) (org : Origin) (o : Nat), s.dcsOpen org 33554432 = true ∧ s.shpSelected = some o) :=
  ⟨⟨State.reset, by decide, by decide, by decide⟩,
    ⟨{ State.reset with qps := [(5, { state := .connected })] }, 5, _, by decide, rfl, by decide, by decide⟩,
    ⟨{ tBase with fns := [(0, tFn)] }, 0, by decide, by decide, by decide⟩,
    ⟨tRate { a := 1, m := 1 }, 5, _, { a := 1, m := 1 }, rfl, by decide, by decide, by decide, by decide, by decide⟩,
    ⟨tRate { a := 1, hold := 1 }, 5, { a := 1, hold := 1 }, by decide, by decide, by decide, by decide, by decide, by decide⟩,
    ⟨tRate { a := 1 }, 5, _, _, { a := 1 }, rfl, by decide, by decide, by decide, by decide, by decide, by decide, .inr rfl, rfl⟩,
    ⟨tRate {}, 5, {}, by decide, by decide, by decide, by decide⟩,
    ⟨tRate { timer := 3 }, 5, by decide⟩,
    ⟨{ tBase with fns := [(0, tFn)], queues := [(0, { state := .active, tail := 3, oldest := 0xFFFFFFFF })] }, 0, 7, by decide, by decide⟩,
    ⟨{ tFld tBase [(F.ccShpSelIndex, 0, 5)] with qps := [(5, { state := .init })] }, .oob, 5, by decide, by decide⟩⟩

/-- Witnesses of the hypotheses of StackInUseStaysPowered. -/
theorem test_witness_StackInUseStaysPowered :
    (∃ (s : State) (org : Origin) (k : Nat), s.dcsOpen org 131088 = true ∧ s.domBusy = false ∧ k < 8 ∧ s.domPresent (8 + k) = true ∧
      s.dom (8 + k) = DomState.on ∧ ((∃ e ∈ s.ten.pages, ∃ (p : Nat), e.1 ≤ p ∧ p < e.1 + e.2.1 ∧ pageStack p = k) ∨ ∃ e ∈ s.wins,
      e.2.held = true ∧ fgaSpace e.2.base = 0 ∧ ∃ (a : Nat), fgaOff e.2.base ≤ a ∧ a < fgaOff e.2.base + e.2.len ∧ stackOf a = k)) ∧
    (∃ (s : State) (k : Nat), k < 8 ∧ s.ten.pages = [] ∧ ∃ e, e ∈ s.wins ∧ e.2.held = true ∧ fgaSpace e.2.base = 0 ∧ ∃ a, fgaOff e.2.base
      ≤ a ∧ a < fgaOff e.2.base + e.2.len ∧ stackOf a = k) :=
  ⟨⟨tBase, .oob, 0, by decide, by decide, by decide, by decide, by decide, Or.inl ⟨(0, 4, 0), by decide, 3, by decide, by decide, by
      decide⟩⟩,
    ⟨{ State.reset with wins := [(1, { state := .valid, base := 2 ^ 36 - 4096, len := 8192 })] }, 1, by decide, rfl, (1,
      { state := .valid, base := 2 ^ 36 - 4096, len := 8192 }), by decide, by decide, by decide, 2 ^ 36, by decide, by decide, by decide⟩⟩

/-- Witnesses of the hypotheses of StepRunsFrontCommand. -/
theorem test_witness_StepRunsFrontCommand :
    (∃ (s : State) (c : Instr) (rest : List Instr), s.pending = c :: rest) ∧
    (∃ (s : State), s.pending = [] ∧ ∀ k, k < 4 → (s.pipe k).recovering = 0) ∧
    (∃ (s : State), s.pending = [] ∧ (∀ k, k < 4 → (s.pipe k).recovering = 0) ∧ s.en = [] ∧ ∀ l, l < 16 → (s.vlink l).state ≠ .param ∧
      s.vlLive l = false) :=
  ⟨⟨{ tBase with pending := [.ftSRead] }, .ftSRead, [], by decide⟩,
    ⟨tBase, by decide, fun _ _ => rfl⟩,
    ⟨tBase, by decide, fun _ _ => rfl, rfl, fun _ _ => ⟨(nomatch ·), rfl⟩⟩⟩

/-- Witnesses of the hypotheses of TransportPacketsTakeEffect. -/
theorem test_witness_TransportPacketsTakeEffect :
    (∃ (s : State) (v : State) (p : SltPkt) (a : Arrival), sltRequest p.op = true ∧ s.takesSlt p a ∧ (s.qp p.dstQp).up = true ∧
      ((s.contextUsed p.dstQp).netMeter p.dstQp a (sltBytes p)).1 = some v) ∧
    (∃ (s : State) (v : State) (p : SltPkt) (a : Arrival), sltResponse p.op = true ∧ s.takesSlt p a ∧ (s.qp p.dstQp).up = true ∧
      ((s.contextUsed p.dstQp).netMeter p.dstQp a (sltBytes p)).1 = some v) ∧
    (∃ (s : State) (p : SltPkt) (a : Arrival), s.takesSlt p a ∧ (s.qp p.dstQp).up = true ∧ p.op = SltOp.ack) ∧
    (∃ (s : State) (p : SltPkt) (a : Arrival), s.takesSlt p a ∧ (s.qp p.dstQp).up = true ∧ p.op = SltOp.nak) ∧
    (∃ (s : State) (p : SltPkt) (a : Arrival), s.takesSlt p a ∧ (s.qp p.dstQp).up = true ∧ p.op = SltOp.waiting) ∧
    (∃ (s : State) (p : SltPkt) (a : Arrival), s.takesSlt p a ∧ (s.qp p.dstQp).up = true ∧ p.op = SltOp.close) ∧
    (∃ (s : State) (p : SltPkt) (a : Arrival), s.takesSlt p a ∧ (s.qp p.dstQp).up = true ∧ p.op = SltOp.resetNotice) ∧
    (∃ (s : State) (p : SltPkt) (a : Arrival), s.takesSlt p a ∧ (s.qp p.dstQp).up = true ∧ p.op = SltOp.pathProbe) ∧
    (∃ (s : State) (p : SltPkt) (a : Arrival), p.op = SltOp.connect ∧ s.takesSlt p a ∧ (s.qp p.dstQp).state = QpState.init ∧ s.dev.state =
      DevState.service) ∧
    (∃ (s : State) (p : SltPkt) (a : Arrival), p.op = SltOp.connect ∧ s.takesSlt p a ∧ (s.qp p.dstQp).state = QpState.init ∧ s.dev.state ≠
      DevState.service) ∧
    (∃ (s : State) (p : SltPkt) (a : Arrival), p.op = SltOp.accept ∧ s.takesSlt p a ∧ (s.qp p.dstQp).state = QpState.connecting) ∧
    (∃ (s : State) (p : SltPkt) (a : Arrival), p.op = SltOp.refuse ∧ s.takesSlt p a ∧ (s.qp p.dstQp).state = QpState.connecting ∧ p.status
      ≠ Status.notReady.code) ∧
    (∃ (s t : State) (p : SltPkt) (a : Arrival), p.op = SltOp.winQuery ∧ s.takesSlt p a ∧ (s.qp p.dstQp).up = true ∧ t = (s.contextUsed
      p.dstQp).takeRel p.dstQp p ∧ keyIndex p.key ≠ 0 ∧ keyIndex p.key < winCount ∧ (s.win (keyIndex p.key)).state = WState.valid ∧ keyGen
      p.key = (s.win (keyIndex p.key)).gen ∧ s.granted (s.win (keyIndex p.key)) (s.qp p.dstQp).user = true) ∧
    (∃ (s t : State) (p : SltPkt) (a : Arrival), p.op = SltOp.winQuery ∧ s.takesSlt p a ∧ (s.qp p.dstQp).up = true ∧ t = (s.contextUsed
      p.dstQp).takeRel p.dstQp p ∧ (keyIndex p.key = 0 ∨ winCount ≤ keyIndex p.key ∨ (s.win (keyIndex p.key)).state = WState.free)) ∧
    (∃ (s : State) (p : SltPkt) (a : Arrival) (r : Import), p.op = SltOp.winInfo ∧ s.takesSlt p a ∧ (s.qp p.dstQp).up = true ∧ s.asking
      p.dstQp = some r) ∧
    (∃ (s : State) (p : SltPkt) (a : Arrival), p.op = SltOp.ack ∧ s.takes p.dstQp a ∧ (s.qp p.dstQp).fromPeer p = false) :=
  ⟨⟨tNet tPeer, ((State.contextUsed (tNet tPeer) 5).netMeter 5 {} (sltBytes (tPkt .write))).2, tPkt .write, {}, by decide, ⟨⟨by decide,
      by decide, by decide, by decide, by decide, by decide⟩, by decide, by decide, by decide, by decide⟩, by decide, rfl⟩,
    ⟨tNet tPeer, ((State.contextUsed (tNet tPeer) 5).netMeter 5 {} (sltBytes (tPkt .readResp))).2, tPkt .readResp, {}, by decide, ⟨⟨by
      decide, by decide, by decide, by decide, by decide, by decide⟩, by decide, by decide, by decide, by decide⟩, by decide, rfl⟩,
    ⟨tNet tPeer, tPkt .ack, {}, ⟨⟨by decide, by decide, by decide, by decide, by decide, by decide⟩, by decide, by decide, by decide, by
      decide⟩, by decide, by decide⟩,
    ⟨tNet tPeer, tPkt .nak, {}, ⟨⟨by decide, by decide, by decide, by decide, by decide, by decide⟩, by decide, by decide, by decide, by
      decide⟩, by decide, by decide⟩,
    ⟨tNet tPeer, tPkt .waiting, {}, ⟨⟨by decide, by decide, by decide, by decide, by decide, by decide⟩, by decide, by decide, by decide,
      by decide⟩, by decide, by decide⟩,
    ⟨tNet tPeer, tPkt .close, {}, ⟨⟨by decide, by decide, by decide, by decide, by decide, by decide⟩, by decide, by decide, by decide, by
      decide⟩, by decide, by decide⟩,
    ⟨tNet tPeer, tPkt .resetNotice, {}, ⟨⟨by decide, by decide, by decide, by decide, by decide, by decide⟩, by decide, by decide, by
      decide, by decide⟩, by decide, by decide⟩,
    ⟨tNet tPeer, tPkt .pathProbe, {}, ⟨⟨by decide, by decide, by decide, by decide, by decide, by decide⟩, by decide, by decide, by
      decide, by decide⟩, by decide, by decide⟩,
    ⟨tNet { tPeer with state := .init }, tPkt .connect, {}, by decide, ⟨⟨by decide, by decide, by decide, by decide, by decide, by
      decide⟩, by decide, by decide, by decide, by decide⟩, by decide, by decide⟩,
    ⟨{ tNet { tPeer with state := .init } with dev := { state := .drain } }, tPkt .connect, {}, by decide, ⟨⟨by decide, by decide, by
      decide, by decide, by decide, by decide⟩, by decide, by decide, by decide, by decide⟩, by decide, by decide⟩,
    ⟨tNet { tPeer with state := .connecting }, tPkt .accept, {}, by decide, ⟨⟨by decide, by decide, by decide, by decide, by decide, by
      decide⟩, by decide, by decide, by decide, by decide⟩, by decide⟩,
    ⟨tNet { tPeer with state := .connecting }, tPkt .refuse, {}, by decide, ⟨⟨by decide, by decide, by decide, by decide, by decide, by
      decide⟩, by decide, by decide, by decide, by decide⟩, by decide, by decide⟩,
    ⟨{ tNet tPeer with wins := [(1, { state := .valid, grant := 3 })] }, _, { tPkt .winQuery with key := 0x401 }, {}, by decide, ⟨⟨by
      decide, by decide, by decide, by decide, by decide, by decide⟩, by decide, by decide, by decide, by decide⟩, by decide, rfl, by
      decide, by decide, by decide, by decide, by decide⟩,
    ⟨tNet tPeer, _, { tPkt .winQuery with key := 0x401 }, {}, by decide, ⟨⟨by decide, by decide, by decide, by decide, by decide, by
      decide⟩, by decide, by decide, by decide, by decide⟩, by decide, rfl, .inr (.inr (by decide))⟩,
    ⟨{ tNet tPeer with imports := [tImp] }, tPkt .winInfo, {}, _, by decide, ⟨⟨by decide, by decide, by decide, by decide, by decide, by
      decide⟩, by decide, by decide, by decide, by decide⟩, by decide, rfl⟩,
    ⟨tNet tPeer, { tPkt .ack with srcNode := 2 }, {}, by decide, ⟨by decide, by decide, by decide, by decide, by decide, by decide⟩, by
      decide⟩⟩

/-- Witnesses of the hypotheses of TransportTimersTakeEffect. -/
theorem test_witness_TransportTimersTakeEffect :
    (∃ (s : State) (q psn : Nat) (k : OutPkt), List.find? (fun (k : OutPkt) => k.psn == psn) (s.qp q).out = some k ∧ (s.qp q).up = true ∧
      (s.qp q).pendingPsn psn = true ∧ psn ∉ (s.qp q).retx ∧ psn ∉ (s.qp q).notReady) ∧
    (∃ (s : State) (q : Nat) (alive : Nat) (o : TpOp), List.find? (fun (o : TpOp) => o.alive == alive) (s.qp q).live = some o ∧ (s.qp
      q).up = true ∧ o.waiting = false ∧ o.tx ≠ 0) ∧
    (∃ (s : State) (q : Nat) (r : Import), s.asking q = some r) ∧
    (∃ (s : State) (q psn : Nat), psn ∈ (s.qp q).notReady ∧ (s.qp q).up = true) ∧
    (∃ (s : State) (q path : Nat), (s.qp q).up = true ∧ (s.qp q).roce = false ∧ onesOf (s.qp q).suspect 64 = [path]) ∧
    (∃ (s : State) (q : Nat), (s.qp q).ackDue = true ∧ (s.qp q).up = true) ∧
    (∃ (s : State) (q : Nat) (psn : Nat) (e : RcEntry), (s.qp q).up = true ∧ List.find? (fun (e : RcEntry) => e.psn == psn && e.again)
      (s.qp q).rc = some e) ∧
    (∃ (s t : State) (q : Nat) (l : Leaving) (rest : List Leaving), takeFirst (fun (l : Leaving) => l.q == q) (s.pipe (q % 4)).leaving =
      some (l, rest) ∧ t = (s.setQp q l.qp).ctrlOut q l.pkt) ∧
    (∃ (s : State) (q : Nat) (r : Import), s.asking q = some r ∧ (s.qp q).up = true) ∧
    (∃ (s : State) (q : Nat) (p : SltPkt) (a : Arrival), (s.pipe (q % 4)).recovering = 0 ∧ List.filter (fun (e : MissEntry) => e.qp == q)
      (s.pipe (q % 4)).miss = [{ qp := q, pkt := some (p, a) }]) :=
  ⟨⟨tQp { tPeer with out := [{ psn := 9 }] }, 5, 9, _, rfl, by decide, by decide, by decide, by decide⟩,
    ⟨tQp { tPeer with ops := [{ owner := .none, kind := .write, alive := 4, tx := 1 }] }, 5, 4,
      { owner := .none, kind := .write, alive := 4, tx := 1 }, by decide, by decide, by decide, by decide⟩,
    ⟨{ tQp tPeer with imports := [tImp] }, 5, _, rfl⟩,
    ⟨tQp { tPeer with notReady := [9] }, 5, 9, by decide, by decide⟩,
    ⟨tQp { tPeer with suspect := 2 ^ 63 }, 5, 63, by decide, by decide, by decide⟩,
    ⟨tQp { tPeer with ackDue := true }, 5, by decide, by decide⟩,
    ⟨tQp { tPeer with rc := [{ psn := 9, alive := 1, again := true }] }, 5, 9, _, by decide, rfl⟩,
    ⟨{ tBase with pipes := [(1, { leaving := [{ q := 5, pkt := tPkt .close, left := 2, qp := tPeer }] })] }, _, 5, _, _, rfl, rfl⟩,
    ⟨{ tQp tPeer with imports := [tImp] }, 5, _, rfl, by decide⟩,
    ⟨{ tQp tPeer with pipes := [(1, { miss := [{ qp := 5, pkt := some (tPkt .ack, {}) }] })] }, 5, tPkt .ack, {}, by decide, by decide⟩⟩

/-- Witnesses of the hypotheses of TrustCommandsComplete. -/
theorem test_witness_TrustCommandsComplete :
    (∃ (s : State), s.oobUp = true) ∧
    (∃ (s : State), s.oobUp = true ∧ 1 ≤ s.spdm.stage) ∧
    (∃ (s : State), s.oobUp = true ∧ 2 ≤ s.spdm.stage) ∧
    (∃ (s : State) (i : Nat), s.oobUp = true ∧ 3 ≤ s.spdm.stage ∧ 1 ≤ i ∧ i ≤ 7) ∧
    (∃ (s : State) (id : Nat), s.oobUp = true ∧ 3 ≤ s.spdm.stage ∧ s.spdm.sessions.length < 2 ∧ (s.spdm.sessions.any fun (x : SpdmSession)
      => x.id == id) = false) ∧
    (∃ (s : State) (id : Nat), s.oobUp = true ∧ 3 ≤ s.spdm.stage ∧ 2 ≤ s.spdm.sessions.length ∧ (s.spdm.sessions.any fun (x : SpdmSession)
      => x.id == id) = false) ∧
    (∃ (s : State), s.oobUp = true ∧ 3 ≤ s.spdm.stage) ∧
    (∃ (s : State) (id : Nat), s.oobUp = true ∧ s.spdm.sessions = [{ id := id }]) ∧
    (∃ (s : State) (id : Nat), s.oobUp = true ∧ s.sessionUp id ≠ none) ∧
    (∃ (s : State) (sess : Option Nat) (p : Nat), s.oobUp = true ∧ s.byOwner sess = true ∧ p < 4 ∧ s.portPresent p = true ∧ s.flag
      F.hpPortCfgClassImg p = true ∧ s.flag F.hpPortCfgClassStrap p = true) ∧
    (∃ (s : State) (sess : Option Nat) (k : Nat), s.oobUp = true ∧ s.byOwner sess = true ∧ s.fw.owner[k]? = some { }) ∧
    (∃ (s : State) (sess : Option Nat) (p : Nat), s.oobUp = true ∧ s.byOwner sess = true ∧ p < 4 ∧ s.portPresent p = false) ∧
    (∃ (s : State) (sess : Option Nat) (k : Nat), s.oobUp = true ∧ s.inSession sess = true ∧ (s.fw.owner.all fun o => !o.set) = true ∧
      s.fw.owner[k]? = some {}) ∧
    (∃ (s : State) (sess : Option Nat) (k : Nat) (o : KeySlot), s.oobUp = true ∧ s.byOwner sess = true ∧ s.fw.owner[k]? = some o ∧
      o.revoked = false) ∧
    (∃ (s : State) (sess : Option Nat), s.oobUp = true ∧ s.byOwner sess = true) ∧
    (∃ (s : State) (sess : Option Nat), s.oobUp = true ∧ s.byOwner sess = false) :=
  ⟨⟨tBase, by decide⟩,
    ⟨{ tBase with spdm := { stage := 1 } }, by decide, by decide⟩,
    ⟨{ tBase with spdm := { stage := 2 } }, by decide, by decide⟩,
    ⟨{ tBase with spdm := { stage := 3 } }, 7, by decide, by decide, by decide, by decide⟩,
    ⟨{ tBase with spdm := { stage := 3, sessions := [{ id := 1 }] } }, 2, by decide, by decide, by decide, by decide⟩,
    ⟨{ tBase with spdm := { stage := 3, sessions := [{ id := 1 }, { id := 2 }] } }, 3, by decide, by decide, by decide, by decide⟩,
    ⟨{ tBase with spdm := { stage := 3 } }, by decide, by decide⟩,
    ⟨{ tBase with spdm := { stage := 3, sessions := [{ id := 1 }] } }, 1, by decide, by decide⟩,
    ⟨tOwner, 1, by decide, by decide⟩,
    ⟨tFld tOwner [(F.hpPortCfgClassImg, 3, 1), (F.hpPortCfgClassStrap, 3, 1)], some 1, 3, by decide, by decide, by decide, by decide, by
      decide, by decide⟩,
    ⟨tOwner, some 1, 3, by decide, by decide, by decide⟩,
    ⟨{ tOwner with fuses := { tOwner.fuses with variant := .cx900 } }, some 1, 2, by decide, by decide, by decide, by decide⟩,
    ⟨{ tOwner with fw := { tOwner.fw with owner := [{}, {}, {}, {}] } }, some 1, 3, by decide, by decide, by decide, by decide⟩,
    ⟨tOwner, some 1, 0, { set := true }, by decide, by decide, by decide, by decide⟩,
    ⟨tOwner, some 1, by decide, by decide⟩,
    ⟨tBase, none, by decide, by decide⟩⟩

/-- Witnesses of the hypotheses of TurnstileOperationsKeepWaitersUnmet. -/
theorem test_witness_TurnstileOperationsKeepWaitersUnmet :
    (∃ (t : Turnstile), t.sound) :=
  ⟨{ value := 1, waiters := [{ src := .engine, user := { node := 0, fn := 0 }, want := .value 2 none, key := none }] }, ⟨fun w hw th res
    h => by simp at hw; subst hw; simp at h; simp [← h.1], fun h => by simp at h⟩⟩

/-- Witnesses of the hypotheses of TurnstileValueOperations. -/
theorem test_witness_TurnstileValueOperations :
    (∃ (t : Turnstile) (a : Nat), t.value = a) ∧
    (∃ (t : Turnstile) (a : Nat), t.value ≠ a) ∧
    (∃ (code : Nat), code ∈ [2, 3, 4]) ∧
    (∃ (t : Turnstile) (a : Nat), a ≤ t.value) ∧
    (∃ (t : Turnstile) (a : Nat), t.value < a) :=
  ⟨⟨{ value := 3 }, 3, by decide⟩,
    ⟨{ value := 3 }, 4, by decide⟩,
    ⟨4, by decide⟩,
    ⟨{ value := 3 }, 3, by decide⟩,
    ⟨{ value := 3 }, 4, by decide⟩⟩

/-- Witnesses of the hypotheses of ValirFlitCommandsComplete. -/
theorem test_witness_ValirFlitCommandsComplete :
    (∃ (s : State) (l : Nat), s.vlLive l = true ∧ ((s.vlink l).badMs = s.nowNs / 1000000 → (s.vlink l).badCount < 64) ∧ (s.vlink
      l).retries < 7) ∧
    (∃ (s : State) (l : Nat), s.vlLive l = true ∧ (s.vlink l).badMs = s.nowNs / 1000000 ∧ 64 ≤ (s.vlink l).badCount ∧ s.vlClear l) ∧
    (∃ (s : State) (l : Nat) (f : LinkFlit), s.vlLive l = true ∧ f.cw = none ∧ f.ltype = 0) ∧
    (∃ (f : LinkFlit), f.cw = none ∧ 4 < f.ltype) ∧
    (∃ (s : State) (l : Nat) (f : LinkFlit) (c : List Nat × List Nat), f.cw = some c ∧ s.vlLive l = true ∧ rsDecode 272 15 (cwReceived
      (s.vlink l).lock (s.vlink l).lanes c) = none) ∧
    (∃ (s t : State) (l req : Nat) (f : LinkFlit), s.vlLive l = true ∧ t = s.vlTakeFlit l f ∧ (t.vlink l).replaying (req % 4096) = false ∧
      subMod 12 (req % 4096) (t.vlink l).held < (t.vlink l).buf.length) ∧
    (∃ (s t : State) (l req : Nat) (f : LinkFlit), s.vlLive l = true ∧ t = s.vlTakeFlit l f ∧ (t.vlink l).replaying (req % 4096) = true) ∧
    (∃ (s t : State) (l req : Nat) (f : LinkFlit), s.vlLive l = true ∧ t = s.vlTakeFlit l f ∧ (t.vlink l).replaying (req % 4096) = false ∧
      (t.vlink l).buf.length ≤ subMod 12 (req % 4096) (t.vlink l).held ∧ t.vlClear l) ∧
    (∃ (s : State) (l : Nat), s.vlLive l = true ∧ (s.vlink l).waitReplay = true ∧ (s.vlink l).retries < 7) ∧
    (∃ (s : State) (t : State) (l : Nat) (req : Nat) (f : LinkFlit), s.vlLive l = true ∧ t = (s.vlTakeFlit l f).vlSend l ∧ (t.vlink
      l).waitReplay = true ∧ req % 4096 = (t.vlink l).rxFseq) ∧
    (∃ (s : State) (t : State) (l : Nat) (f : LinkFlit), s.vlLive l = true ∧ t = (s.vlTakeFlit l f).vlSend l ∧ t.fld F.clkpwrFtCfgSrc = l
      + 1) :=
  ⟨⟨tVl { state := .active, badCount := 63 }, 15, by decide, by decide, by decide⟩,
    ⟨tVl { state := .active, badCount := 64 }, 15, by decide, by decide, by decide, by decide, by decide, by decide⟩,
    ⟨tVl { state := .active }, 15, {}, by decide, by decide, by decide⟩,
    ⟨{ ltype := 5 }, by decide, by decide⟩,
    ⟨tVl { state := .active, lanes := 3 }, 15, { cw := some ([], []) }, ([], []), by decide, by decide, by decide⟩,
    ⟨tVl tVlHeld, _, 15, 1, {}, by decide, rfl, by decide, by decide⟩,
    ⟨tVl { tVlHeld with replay := some (1, 1) }, _, 15, 1, {}, by decide, rfl, by decide⟩,
    ⟨tVl tVlHeld, _, 15, 2, {}, by decide, rfl, by decide, by decide, by decide, by decide, by decide⟩,
    ⟨tVl { state := .active, waitReplay := true }, 15, by decide, by decide, by decide⟩,
    ⟨tVl { state := .active, waitReplay := true }, ((tVl { state := .active, waitReplay := true }).vlTakeFlit 15 {}).vlSend 15, 15, 0, {},
      by decide, rfl, by decide, by decide⟩,
    ⟨tFld (tVl { state := .active }) [(F.clkpwrFtCfgSrc, 0, 16)], ((tFld (tVl { state := .active })
      [(F.clkpwrFtCfgSrc, 0, 16)]).vlTakeFlit 15 {}).vlSend 15, 15, {}, by decide, rfl, by decide⟩⟩

/-- Witnesses of the hypotheses of ValirPacketCommandsComplete. -/
theorem test_witness_ValirPacketCommandsComplete :
    (∃ (s : State) (l vc : Nat), s.vlLive l = true ∧ (s.vlink l).waitReplay = false ∧ AMap.find (s.vlink l).rx (vc % 8) = none) ∧
    (∃ (s : State) (l vc : Nat) (h : VHdr), s.vlLive l = true ∧ (s.vlink l).waitReplay = false ∧ AMap.find (s.vlink l).rx (vc % 8) = none
      ∧ h.dst = s.nodeId ∧ h.proto = 0 ∧ h.len = flitsOf h.bytes) ∧
    (∃ (s : State) (h : VHdr) (vc : Nat), h.dst / 256 = s.nodeId / 256 ∧ h.dst ≠ s.nodeId ∧ (s.ewin (h.dst % 256)).out < 256 ∧ (s.injQueue
      (vc % 4) (h.dst % 256)).isEmpty = true ∧ bit (AMap.look 0 s.vl.route (h.dst % 256)) 63 = false) ∧
    (∃ (s : State) (h : VHdr) (vc : Nat), h.dst / 256 = s.nodeId / 256 ∧ h.dst ≠ s.nodeId ∧ 256 ≤ (s.ewin (h.dst % 256)).out ∧ s.injFlits
      (vc % 4) + flitsOf h.bytes ≤ 2048) ∧
    (∃ (s : State) (h : VHdr) (vc : Nat), h.dst / 256 = s.nodeId / 256 ∧ 256 ≤ (s.ewin (h.dst % 256)).out ∧ 2048 < s.injFlits (vc % 4) +
      flitsOf h.bytes) ∧
    (∃ (s : State) (epoch : Nat), epoch ≠ s.wepoch) ∧
    (∃ (s : State) (src : Nat) (r : ERec), s.vl.recs.find (src % 256) = some r ∧ r.count ≠ r.told) ∧
    (∃ (s : State) (src : Nat) (d : EDrop), List.find? (fun (d : EDrop) => d.src == src) s.vl.drops = some d) ∧
    (∃ (s : State) (dst : Nat), (s.ewin (dst % 256)).out ≠ 0) :=
  ⟨⟨tVl { state := .active }, 15, 7, by decide, by decide, by decide⟩,
    ⟨tVl { state := .active }, 15, 7, { dst := 0, src := 1 }, by decide, by decide, by decide, by decide, by decide, by decide⟩,
    ⟨tBase, { dst := 255, src := 0 }, 7, by decide, by decide, by decide, by decide, by decide⟩,
    ⟨{ tBase with vl := { wins := [(255, { inj := 256 })] } }, { dst := 255, src := 0, len := 36, bytes := 2288 }, 3, by decide, by
      decide, by decide, by decide⟩,
    ⟨{ tBase with vl := { wins := [(255, { inj := 256 })], inj := [(1023, [{ dst := 255, src := 0, len := 2048 }])] } },
      { dst := 255, src := 0 }, 3, by decide, by decide, by decide⟩,
    ⟨tBase, 255, by decide⟩,
    ⟨{ tBase with vl := { recs := [(255, { epoch := 0, count := 1 })] } }, 255, _, rfl, by decide⟩,
    ⟨{ tBase with vl := { drops := [{ src := 7, dst := 0, reason := 0, epoch := 0, count := 1 }] } }, 7, _, rfl⟩,
    ⟨{ tBase with vl := { wins := [(255, { inj := 1 })] } }, 255, by decide⟩⟩

/-- Table 9.2: bit 7 of byte 0 of slot 0 comes first; the control symbol of VC 5 with a data flit in slot 4 alone. -/
theorem test_cwMessage_order : (cwMessage [[0x80#8]] 5 0b10000).headD 0 = 0 ∧
    (cwMessage [0x80#8 :: List.replicate 319 0#8] 5 0b10000).headD 0 = 512 ∧ (cwMessage [] 5 0b10000).getD 256 0 = 0b1011000000 := by decide

/-- Table 9.3: CREDIT of VC 7 at bytes 22 and 23; Table 9.15: NS at bytes 30 to 33. -/
theorem test_flitBytes_places : (flitBytes { credit := [0, 0, 0, 0, 0, 0, 0, 0x102] }).getD 23 0 = 2#8 ∧
    (flitBytes { ltype := 4, ns := 7 }).getD 33 0 = 7#8 := by decide

/-- R247: after 39 data flits in a row a slot carries a STATUS flit; R246: another VC's flit waits for the next codeword. -/
theorem test_vlPump : (((tVl tVlFull).vlPump 15 1).vlink 15).run = 0 ∧ (((tVl tVlFull).vlPump 15 1).vlink 15).slot = 4 ∧
    (((tVl { tVlFull with slot := 1, run := 1, cw := some (0, 4) }).vlPump 15 1).vlink 15).slot = 5 := by decide

/-- Witnesses of the hypotheses of ValirTrainingCommandsComplete. -/
theorem test_witness_ValirTrainingCommandsComplete :
    (∃ (s : State) (l : Nat) (n : Nat), s.vlMayTrain l = true ∧ (s.vlink l).state = VState.detect ∧ n % 4 ≠ 0) ∧
    (∃ (s : State) (l : Nat), l < 16 ∧ (s.vlink l).state = VState.sync) ∧
    (∃ (s : State) (l : Nat) (k : LaneLock), l < 16 ∧ (s.vlink l).state = VState.align ∧ max k.lagA k.lagB - min k.lagA k.lagB ≤ 64) ∧
    (∃ (k : LaneLock), 64 < max k.lagA k.lagB - min k.lagA k.lagB) ∧
    (∃ (s : State) (l : Nat) (node : Nat) (plink : Nat) (topo : Nat), l < 16 ∧ (s.vlink l).state = VState.param ∧ (s.img.neigh.find l ≠
      some (node * 16 + plink) ∨ topo ≠ s.img.topo)) ∧
    (∃ (s : State) (l : Nat) (node : Nat) (plink : Nat) (rtt : Nat), l < 16 ∧ (s.vlink l).state = VState.param ∧ s.img.neigh.find l =
      some (node * 16 + plink) ∧ 600 < rtt) ∧
    (∃ (s : State) (l : Nat) (node : Nat) (plink : Nat) (rtt : Nat), l < 16 ∧ (s.vlink l).state = VState.param ∧ (s.vlink l).lanes = 3 ∧
      s.img.neigh.find l = some (node * 16 + plink) ∧ rtt ≤ 600) ∧
    (∃ (s : State) (l : Nat), l < 16 ∧ ((s.vlink l).state = VState.sync ∨ (s.vlink l).state = VState.align ∨ (s.vlink l).state =
      VState.param)) ∧
    (∃ (s : State) (l : Nat), l < 16 ∧ (s.vlink l).state = VState.hold) ∧
    (∃ (s : State) (l : Nat) (lane : Nat), l < 16 ∧ (lane = 1 ∨ lane = 2) ∧ (s.vlink l).state = VState.active ∧ (s.vlink l).lanes = 3 ∧
      s.vlClear l) ∧
    (∃ (s : State) (org : Origin) (l : Nat), s.dcsOpen org 50331648 = true ∧ l < 16 ∧ (s.vlink l).state = VState.degraded ∧
      s.vlClear l) ∧
    (∃ (s : State) (l : Nat), l < 16 ∧ (s.vlink l).state = VState.retrain) :=
  ⟨⟨tFld (tVl { state := .detect }) [(F.vlCfgLgValir, 0, 15), (F.vlLinkCtrlEnable, 15, 1)], 15, 3, by decide, by decide, by decide⟩,
    ⟨tVl { state := .sync }, 15, by decide, by decide⟩,
    ⟨tVl { state := .align }, 15, { lagA := 64 }, by decide, by decide, by decide⟩,
    ⟨{ lagB := 65 }, by decide⟩,
    ⟨tVl { state := .param }, 15, 1, 0, 0, by decide, by decide, Or.inl (by decide)⟩,
    ⟨{ tVl { state := .param } with img := { neigh := [(15, 16)] } }, 15, 1, 0, 601, by decide, by decide, by decide, by decide⟩,
    ⟨{ tVl { state := .param, lanes := 3 } with img := { neigh := [(15, 16)] } }, 15, 1, 0, 600, by decide, by decide, by decide, by
      decide, by decide⟩,
    ⟨tVl { state := .param }, 15, by decide, by decide⟩,
    ⟨tVl { state := .hold }, 15, by decide, by decide⟩,
    ⟨tVl { state := .active, lanes := 3 }, 15, 2, by decide, by decide, by decide, by decide, by decide, by decide, by decide⟩,
    ⟨tVl { state := .degraded }, .oob, 15, by decide, by decide, by decide, by decide, by decide, by decide⟩,
    ⟨tVl { state := .retrain }, 15, by decide, by decide⟩⟩

/-- Witnesses of the hypotheses of VopRegisterResults. -/
theorem test_witness_VopRegisterResults :
    (∃ (op : Nat) (v : VopArgs), (op < 8 ∨ 11 ≤ op ∧ op < 18) ∧ v.a.kind = 0 ∧ v.b.kind = 0 ∧ v.c.kind = 0 ∧ v.d.kind = 0) ∧
    (∃ (op : Nat) (v : VopArgs), 8 ≤ op ∧ op < 11 ∧ v.a.kind = 0 ∧ v.b.kind = 0) ∧
    (∃ (op : Nat) (v : VopArgs), (op = 18 ∨ op = 19) ∧ v.a.kind = 0 ∧ v.d.kind = 0) :=
  ⟨⟨17, tArgs, by decide, by decide, by decide, by decide, by decide⟩,
    ⟨10, tArgs, by decide, by decide, by decide, by decide⟩,
    ⟨19, tArgs, by decide, by decide, by decide⟩⟩

/-- A walk of a page of function 0 in flight, which the fetch of queue 0 waits for, and a state with one. -/
def tWalk0 : Walk := { fn := 0, page := 5, waits := [{ who := .ring 0, acc := .read, loc := .dma 0 }], started := true, levels := [4, 3, 2, 1, 0], sent := 5 }
/-- The state with that walk. -/
def tWalk (k : Walk) : State := { tFld tBase [(F.xlCtxCtrlEnable, 0, 1)] with walks := [k] }

/-- Entries that lead to a page that may be read and written. -/
def tLeaf : List (Option Nat) := [some 1, some 1, some 1, some 1, some 0x200F]

/-- Witnesses of the hypotheses of WalksAndInvalidationsComplete. -/
theorem test_witness_WalksAndInvalidationsComplete :
    (∃ (s : State) (fn ha : Nat) (acc : Access), s.walkInFlight fn ha acc = none) ∧
    (∃ (s : State) (fn ha : Nat) (acc : Access) (words : List (Option Nat)) (k : Walk), s.walkComes fn ha acc words k ∧ k.stale = false) ∧
    (∃ (s : State) (fn ha q : Nat) (acc : Access) (words : List (Option Nat)) (k : Walk) (loc : TlbLoc) (e : TlbEntry), s.walkComes fn ha
      acc words k ∧ k.stale = false ∧ k.refused = none ∧ k.waits = [{ who := .ring q, acc := acc, loc := loc }] ∧ s.haCheck fn (k.page *
      4096) = none ∧ (s.walked (k.over words)).res = .ok e ∧ rightFault e acc = none) ∧
    (∃ (s : State) (fn ha q r : Nat) (acc : Access) (words : List (Option Nat)) (k : Walk) (loc : TlbLoc), s.walkComes fn ha acc words k ∧
      k.stale = false ∧ k.refused = none ∧ k.waits = [{ who := .ring q, acc := acc, loc := loc }] ∧ s.haCheck fn (k.page * 4096) = none ∧
      (s.walked (k.over words)).res.need acc = .fault r) ∧
    (∃ (s : State) (fn ha : Nat) (acc : Access) (words : List (Option Nat)) (k : Walk), s.walkComes fn ha acc words k ∧ k.stale = true ∧
      k.waits ≠ []) ∧
    (∃ (s : State) (org : Origin) (fn : Nat), s.dcsOpen org 4194304 = true ∧ s.xlSelected XlPort.xl = some fn ∧ s.flag F.xlInvalStatusBusy
      = false) ∧
    (∃ (s : State) (pf : Nat) (fn : Nat), s.engOpen (XlPort.xlp pf) = true ∧ s.xlSelected (XlPort.xlp pf) = some fn ∧ s.flag
      F.xlInvalStatusBusy (pf + 1) = false) ∧
    (∃ (s : State) (org : Origin), s.dcsOpen org 4194304 = true ∧ s.flag F.xlInvalStatusBusy = false) ∧
    (∃ (s : State) (pf : Nat), s.engOpen (XlPort.xlp pf) = true ∧ s.flag F.xlInvalStatusBusy (pf + 1) = false) ∧
    (∃ (s : State) (e : XlPort) (v : Inval), s.invals.find (engKey e) = some v ∧ (s.tags.any fun (t : Tag) => !t.timedOut &&
      v.reads.contains (t.port, t.sub, t.tag, t.use)) = false ∧ v.walks = [] ∧ (s.ops.any fun o => v.ops.contains o.ref && o.issuing &&
      o.holds v.fns v.lo v.hi) = false) :=
  ⟨⟨tBase, 0, 0, .read, by decide⟩,
    ⟨tWalk tWalk0, 0, 0x5000, .read, tLeaf, tWalk0, ⟨rfl, fun _ h _ _ => List.mem_singleton.mp h, by decide⟩, rfl⟩,
    ⟨tWalk tWalk0, 0, 0x5000, 0, .read, tLeaf, tWalk0, .dma 0, _, ⟨rfl, fun _ h _ _ => List.mem_singleton.mp h, by decide⟩, rfl, rfl, rfl,
      by decide, rfl, by decide⟩,
    ⟨tWalk tWalk0, 0, 0x5000, 0, 3, .read, [some 1, some 1, some 1, some 1, some 0x200B], tWalk0, .dma 0, ⟨rfl, fun _ h _ _ =>
      List.mem_singleton.mp h, by decide⟩, rfl, rfl, rfl, by decide, by decide⟩,
    ⟨tWalk { tWalk0 with stale := true }, 0, 0x5000, .read, tLeaf, _, ⟨rfl, fun _ h _ _ => List.mem_singleton.mp h, by decide⟩, rfl, by
      decide⟩,
    ⟨tBase, .oob, 0, by decide, by decide, by decide⟩,
    ⟨tBase, 0, 0, by decide, by decide, by decide⟩,
    ⟨tBase, .oob, by decide, by decide⟩,
    ⟨tBase, 0, by decide, by decide⟩,
    ⟨{ tBase with invals := [(0, { fns := [0], lo := 0, hi := 1 })] }, .xl, _, rfl, by decide, by decide, by decide⟩⟩

/-- Witnesses of the hypotheses of WindowCommandsComplete. -/
theorem test_witness_WindowCommandsComplete :
    (∃ (s : State) (fn : Nat) (i : Nat), s.barOpen fn = true ∧ s.flag F.wincStatusBusy fn = false ∧ s.windowCheck fn (s.fld
      F.wincArg0Value fn) (s.fld F.wincArg1Length fn) = none ∧ s.freeWindow = some i) ∧
    (∃ (s : State) (fn : Nat) (key : Nat), s.barOpen fn = true ∧ s.flag F.wincStatusBusy fn = false ∧ keyIndex key ≠ 0 ∧ keyIndex key <
      winCount ∧ (s.win (keyIndex key)).state = WState.valid ∧ keyGen key = (s.win (keyIndex key)).gen ∧ (s.win (keyIndex key)).owner = fn
      ∧ (s.win (keyIndex key)).gen < 1023) ∧
    (∃ (s : State) (fn : Nat) (key : Nat), s.barOpen fn = true ∧ s.flag F.wincStatusBusy fn = false ∧ keyIndex key ≠ 0 ∧ keyIndex key <
      winCount ∧ (s.win (keyIndex key)).state = WState.valid ∧ keyGen key ≠ (s.win (keyIndex key)).gen) ∧
    (∃ (s : State) (fn : Nat) (key : Nat) (q : Nat) (m : Import), s.barOpen fn = true ∧ s.flag F.wincStatusBusy fn = false ∧ q = bits
      (s.fld F.wincArg0Value fn) 19 0 ∧ s.ownsQp fn q = true ∧ (s.qp q).roce = false ∧ (s.qp q).peerNode = bits (s.fld F.wincArg0Value fn)
      63 48 ∧ (s.qp q).up = true ∧ s.importOf fn (s.qp q).peerNode (keyIndex key) = some m) ∧
    (∃ (s : State) (fn : Nat) (key : Nat) (m : Import), s.barOpen fn = true ∧ s.flag F.wincStatusBusy fn = false ∧ s.importOf fn (bits
      (s.fld F.wincArg0Value fn) 63 48) (keyIndex key) = some m) ∧
    (∃ (s : State) (fn : Nat) (key : Nat), s.barOpen fn = true ∧ s.flag F.wincStatusBusy fn = false ∧ (s.win (keyIndex key)).held = true ∧
      (s.win (keyIndex key)).owner = fn ∧ s.ownHbm fn (s.fld F.wincArg0Value fn) 64 true = none) ∧
    (∃ (s : State) (i : Nat) (fn : Nat), (s.win i).state = WState.revoking ∧ s.draining i = false ∧ (s.win i).cmdFn = some fn ∧ (s.win
      i).exhausts = false) ∧
    (∃ (s : State) (i : Nat), (s.win i).state = WState.destroying ∧ s.draining i = false ∧ (s.win i).cmdFn = none) ∧
    (∃ (s : State) (i fn : Nat), (s.win i).state = WState.destroying ∧ s.draining i = false ∧ (s.win i).cmdFn = some fn) :=
  ⟨⟨tFld tBase [(F.wincArg0Value, 1, 0x800000), (F.wincArg1Length, 1, 4096)], 1, 1, by decide, by decide, by decide, by decide⟩,
    ⟨tWin 1022, 1, 0x7FE, by decide, by decide, by decide, by decide, by decide, by decide, by decide, by decide⟩,
    ⟨tWin 1023, 1, 0x401, by decide, by decide, by decide, by decide, by decide, by decide⟩,
    ⟨tFld { tQp tPeer with imports := [tImp] } [(F.wincArg0Value, 0, 2 ^ 48 + 5)], 0, 0x401, 5, tImp, by decide, by decide, by decide, by
      decide, by decide, by decide, by decide, by decide⟩,
    ⟨tFld { tBase with imports := [tImp] } [(F.wincArg0Value, 0, 2 ^ 48)], 0, 0x401, tImp, by decide, by decide, by decide⟩,
    ⟨tFld (tWin 1) [(F.wincArg0Value, 1, 0x800000)], 1, 0x401, by decide, by decide, by decide, by decide, by decide⟩,
    ⟨{ tBase with wins := [(1, { state := .revoking, cmdFn := some 1 })] }, 1, 1, by decide, by decide, by decide, by decide⟩,
    ⟨{ tBase with wins := [(1, { state := .destroying })] }, 1, by decide, by decide, by decide⟩,
    ⟨{ tBase with wins := [(1, { state := .destroying, cmdFn := some 1 })] }, 1, 1, by decide, by decide, by decide⟩⟩

/-- Witnesses of the hypotheses of WorkQueueCommandsComplete. -/
theorem test_witness_WorkQueueCommandsComplete :
    (∃ (s : State) (fn q t : Nat), s.barOpen fn = true ∧ s.hasQueue fn q = true ∧ (s.queue fn q).state ≠ QState.off ∧ (t % 2 ^ 32 =
      (s.queue fn q).tail ∨ subMod 32 (t % 2 ^ 32) (s.queue fn q).oldest ≤ s.ringSize fn q)) ∧
    (∃ (s : State) (fn : Nat) (q : Nat) (t : Nat), s.barOpen fn = true ∧ s.hasQueue fn q = true ∧ (s.queue fn q).state ≠ QState.off ∧ t %
      2 ^ 32 ≠ (s.queue fn q).tail ∧ s.ringSize fn q < subMod 32 (t % 2 ^ 32) (s.queue fn q).oldest) ∧
    (∃ (s : State) (fn : Nat) (q : Nat), s.fetching fn q = true ∧ (s.queue fn q).tries = 0 ∧ s.privileged fn q = false) ∧
    (∃ (s : State) (fn : Nat) (q : Nat), s.fetching fn q = true ∧ (s.queue fn q).tries = 0 ∧ s.privileged fn q = true) ∧
    (∃ (s : State) (fn : Nat) (q : Nat) (data : Option (List Byte)), s.fetching fn q = true ∧ (s.queue fn q).tries ≠ 0 ∧ ((s.fetchRing fn
      q false false data).queue fn q).tries ≤ 8) ∧
    (∃ (s t : State) (fn q : Nat) (data : Option (List Byte)), s.fetching fn q = true ∧ (s.queue fn q).tries ≠ 0 ∧ t = s.fetchRing fn q
      false false data ∧ 8 < (t.queue fn q).tries) ∧
    (∃ (s : State) (fn : Nat) (q : Nat), s.fetching fn q = true ∧ (s.queue fn q).prefetchStop = true ∧ (s.queue fn q).fetch = (s.queue fn
      q).tail ∧ s.prefetch fn q ≠ 0 ∧ s.fld F.qfCfgPollUs (qObj fn q) ≠ 0) ∧
    (∃ (s : State) (fn : Nat) (v : Nat) (q : Nat), q = s.fld F.qfSelQueue fn ∧ s.barOpen fn = true ∧ bit v 0 = true ∧ s.hasQueue fn q =
      true ∧ (s.queue fn q).state = QState.off ∧ (s.qfFields fn q v true).enableCheck fn q = none) ∧
    (∃ (s : State) (fn : Nat) (v : Nat) (q : Nat) (st : Status), q = s.fld F.qfSelQueue fn ∧ s.barOpen fn = true ∧ bit v 0 = true ∧
      s.hasQueue fn q = true ∧ (s.queue fn q).state = QState.off ∧ (s.qfFields fn q v true).enableCheck fn q = some st) ∧
    (∃ (s : State) (org : Origin), s.dcsOpen org 8388608 = true ∧ s.flag F.qInvalStatusBusy = false) :=
  ⟨⟨tQu { state := .active }, 0, 7, 64, by decide, by decide, by decide, .inr (by decide)⟩,
    ⟨tQu { state := .active }, 0, 7, 65, by decide, by decide, by decide, by decide, by decide⟩,
    ⟨tQu { state := .active }, 0, 7, by decide, by decide, by decide⟩,
    ⟨tFld (tQu { state := .active }) [(F.qfCfgPriv, qObj 0 7, 1)], 0, 7, by decide, by decide, by decide⟩,
    ⟨tQu { state := .active, tries := 8 }, 0, 7, none, by decide, by decide, by decide⟩,
    ⟨tQu { state := .active, tries := 9 }, _, 0, 7, none, by decide, by decide, rfl, by decide⟩,
    ⟨tFld (tQu { state := .active }) [(F.qfCfgPrefetch, qObj 0 7, 32), (F.qfCfgPollUs, qObj 0 7, 1)], 0, 7, by decide, by decide, by
      decide, by decide, by decide⟩,
    ⟨tBase, 0, 1, 0, by decide, by decide, by decide, by decide, by decide, by decide⟩,
    ⟨tFld tBase [(F.qfBaseBase, qObj 0 0, 1)], 0, 1, 0, .badAddress, by decide, by decide, by decide, by decide, by decide, by decide⟩,
    ⟨tBase, .oob, by decide, by decide⟩⟩

/-- Witnesses of the hypotheses of ComputeStepsTakeEffect. -/
theorem test_witness_ComputeStepsTakeEffect :
    (∃ (s : State) (b : Nat) (fn : Nat) (w : Nat) (x : Blk), s.seqAt b 16 = some (fn, x, w) ∧ x.holdsNone) ∧
    (∀ op, op < 21 → ∃ (s : State) (b fn w : Nat) (x : Blk), s.seqAt b 17 = some (fn, x, w) ∧ x.holdsNone ∧ bits w 36 32 = op) ∧
    (∃ (s : State) (b : Nat) (fn : Nat) (w : Nat) (x : Blk) (y : Blk), s.seqAt b 18 = some (fn, x, w) ∧ x.holdsNone ∧ x.fload (bits w 33
      32) (x.addr (bits w 39 36) 0 x.rep) (bits w 47 40) = Except.ok y ∧ bits w 33 32 = 0) ∧
    (∃ (s : State) (b : Nat) (fn : Nat) (w : Nat) (x : Blk) (y : Blk), s.seqAt b 18 = some (fn, x, w) ∧ x.holdsNone ∧ x.fload (bits w 33
      32) (x.addr (bits w 39 36) 0 x.rep) (bits w 47 40) = Except.ok y ∧ bits w 33 32 = 1) ∧
    (∃ (s : State) (b : Nat) (fn : Nat) (w : Nat) (x : Blk) (y : Blk), s.seqAt b 18 = some (fn, x, w) ∧ x.holdsNone ∧ x.fload (bits w 33
      32) (x.addr (bits w 39 36) 0 x.rep) (bits w 47 40) = Except.ok y ∧ bits w 33 32 = 2) ∧
    (∃ (s : State) (b : Nat) (fn : Nat) (w : Nat) (x : Blk) (st : Status), s.seqAt b 18 = some (fn, x, w) ∧ x.holdsNone ∧ bits w 33 32 = 0
      ∧ x.fload 0 (x.addr (bits w 39 36) 0 x.rep) (bits w 47 40) = Except.error st) :=
  ⟨⟨tStep 0x10, 0, 0, _, _, rfl, (fun _ => rfl)⟩,
    fun op h => ⟨tStep (0x11 + op * 2 ^ 32), 0, 0, 0x11 + op * 2 ^ 32, (tStep (0x11 + op * 2 ^ 32)).blk 0, by interval_cases op <;> rfl,
      (fun _ => rfl), by interval_cases op <;> rfl⟩,
    ⟨tStep 0x12, 0, 0, _, _, _, rfl, (fun _ => rfl), rfl, by decide⟩,
    ⟨tStep (0x12 + 2 ^ 32), 0, 0, _, _, _, rfl, (fun _ => rfl), rfl, by decide⟩,
    ⟨{ tStep (0x12 + 2 * 2 ^ 32) with blks := [(0, { state := .running, steps := [0x12 + 2 * 2 ^ 32], store := [(0, 4#8)] })] }, 0, 0, _,
      _, _, rfl, (fun _ => rfl), rfl, by decide⟩,
    ⟨{ tBase with blks := [(0, { state := .running, steps := [0x12], ars := [32] })] }, 0, 0, _, _, .misaligned, rfl, (fun _ => rfl), by
      decide, rfl⟩⟩


end Machine
end Sys2Proof
end

section
/-! PROOFS. Every command answers a next state that keeps the fuses, the rest of the queue and the canonical form of the memory
(R2, R49). -/

namespace Sys2Proof
namespace Machine

/-- Whatever its effect, a command ends through State.after, either at once or after State.finished has carried out what follows. -/
theorem exec_eq_next_after (c : Instr) (s : State) : ∃ u, exec c s = .next (s.after u) := by
  cases c <;> exact ⟨_, rfl⟩

theorem exec_keeps_fuses {c : Instr} {s t : State} (h : exec c s = .next t) : t.fuses = s.fuses := by
  obtain ⟨u, hu⟩ := exec_eq_next_after c s
  cases hu.symm.trans h
  rfl

/-- A step ends through State.after on the state with the rest of the queue; the idle step leaves an empty queue empty. -/
theorem step_eq_next_after (s : State) : ∃ u, step s = .next (State.after { s with pending := s.pending.tail } u) := by
  cases hqueue : s.pending with
  | nil => exact ⟨s.idle, by simp only [step, hqueue, State.answer, State.after, List.tail_nil]⟩
  | cons c rest =>
    simp only [step, hqueue, List.tail_cons]
    exact exec_eq_next_after c _

theorem State.after_inv (s u : State) : (s.after u).Inv := canon_wf u.mem

/-- Settles O52: a step ends through State.after, which lists the memory anew and takes the queue and the fuses from before. The canonical
form before the step is not needed. -/
theorem everyStepAnswersAndKeepsMemoryCanonical : Obligations.EveryStepAnswersAndKeepsMemoryCanonical := by
  intro s _
  obtain ⟨u, hu⟩ := step_eq_next_after s
  exact ⟨_, hu, State.after_inv _ u, rfl, rfl⟩

end Machine
end Sys2Proof
end

section
/-! PROOFS. Registers by offset in the device control space, and the capability registers (R2, R4, R10 to R12). -/

namespace Sys2Proof
namespace Machine

/-- Below the window of the telemetry banks no offset names a bank. -/
theorem State.telAt_of_lt (s : State) {off : Nat} (h : off < 0xA001000) : s.telAt off = none := by
  rw [State.telAt, if_neg (by omega)]

theorem State.dcsRead_of_locate {s : State} {off i o : Nat} {r : Reg} (hts : inTsWindow off = false) (htel : off < 0xA001000)
    (hloc : locate dcsLocs off = some (r, i)) (hobj : s.dcsObj r i = some o) : s.dcsRead off = s.regRead r o := by
  simp [State.dcsRead, hts, s.telAt_of_lt htel, hloc, hobj]

theorem State.dcsWrite_of_locate {s : State} {off i o : Nat} {r : Reg} (hts : inTsWindow off = false) (htel : off < 0xA001000)
    (hloc : locate dcsLocs off = some (r, i)) (hobj : s.dcsObj r i = some o) (org : Origin) (v : Nat) :
    s.dcsWrite org off v = s.dcsRegWrite org r i o v := by
  simp [State.dcsWrite, hts, s.telAt_of_lt htel, hloc, hobj]

/-- What a register stores, where each of its fields has one element and can be read. -/
theorem State.stored_of_single {r : Reg} (h : r.fields.all (fun f => f.acc != .wo && f.n == 1) = true) (s : State) (o : Nat) :
    s.stored r o = (r.fields.map fun f => s.fld f o * 2 ^ f.lo).sum := by
  simp only [List.all_eq_true, Bool.and_eq_true, beq_iff_eq] at h
  have hread : r.fields.filter (fun f => f.acc != .wo) = r.fields := List.filter_eq_self.2 fun f hf => (h f hf).1
  rw [State.stored, hread]
  refine congrArg List.sum (List.map_congr_left fun f hf => ?_)
  simp [(h f hf).2, Fld.pos]

/-- ID.CAP_UNITS of a variant (Tables 0.2 and 0.4). -/
def Variant.capUnits (v : Variant) : Nat :=
  7 * 2 ^ 25 + b2n v.sqFp * 2 ^ 24 + v.ports * 2 ^ 20 + v.laneGroups * 2 ^ 16 + v.stacks * 2 ^ 8 + v.districts

/-- ID.CAP_SIZES of a variant (Tables 0.3 and 0.4). -/
def Variant.capSizes (v : Variant) : Nat :=
  64 * 2 ^ 40 + 4 * 2 ^ 32 + v.lanes * 2 ^ 24 + 48 * 2 ^ 16 + 64 * 2 ^ 8 + v.blkPerDist

theorem State.regValue_idCapUnits (s : State) : s.regValue .idCapUnits 0 = s.fuses.variant.capUnits := by
  rw [State.regValue, State.stored_of_single (by decide)]
  simp (disch := decide) only [State.shown, Reg.fields, List.map_cons, List.map_nil, fld_setFld_self, fld_setFld_ne]
  cases s.fuses.variant <;> rfl

theorem State.regValue_idCapSizes (s : State) : s.regValue .idCapSizes 0 = s.fuses.variant.capSizes := by
  rw [State.regValue, State.stored_of_single (by decide)]
  simp (disch := decide) only [State.shown, Reg.fields, List.map_cons, List.map_nil, fld_setFld_self, fld_setFld_ne]
  cases s.fuses.variant <;> rfl

theorem State.dcsRead_capUnits (s : State) : (s.dcsRead 0x8).1 = s.fuses.variant.capUnits := by
  have hread : s.dcsRead 0x8 = s.regRead .idCapUnits 0 := State.dcsRead_of_locate rfl (by decide) rfl rfl
  rw [hread, State.regRead, s.regValue_idCapUnits]

theorem State.dcsRead_capSizes (s : State) : (s.dcsRead 0x10).1 = s.fuses.variant.capSizes := by
  have hread : s.dcsRead 0x10 = s.regRead .idCapSizes 0 := State.dcsRead_of_locate rfl (by decide) rfl rfl
  rw [hread, State.regRead, s.regValue_idCapSizes]

/-- Settles O54: both registers read what the variant says, which is Table 0.4 for each of the three variants. -/
theorem capabilitiesOfTheVariant : Obligations.CapabilitiesOfTheVariant := by
  intro s
  rw [s.dcsRead_capUnits, s.dcsRead_capSizes]
  cases s.fuses.variant <;> decide

/-- Settles O55: the registers read what the fused variant says, and no command touches the fuses. -/
theorem capabilitiesNeverChange : Obligations.CapabilitiesNeverChange := by
  intro c s t h
  rw [t.dcsRead_capUnits, t.dcsRead_capSizes, s.dcsRead_capUnits, s.dcsRead_capSizes, exec_keeps_fuses h]
  exact ⟨rfl, rfl⟩

end Machine
end Sys2Proof
end

section
/-! PROOFS. Accesses of the origins to the two register spaces: aligned ones of 64 bits reach the register, any other reads all ones and
writes nothing (R10, R11, R104, R490, R511). -/

namespace Sys2Proof
namespace Machine

/-! ### Aligned and other accesses -/

theorem regular_eight {off : Nat} (h : off % 8 = 0) : regular off 8 = true := by simp [regular, h]

theorem leNat_leBytes_word (v : Word) : leNat (leBytes v.toNat 8) = v.toNat := by
  rw [leNat_leBytes]
  exact Nat.mod_eq_of_lt v.isLt

theorem State.dcsLoad_aligned (s : State) {off : Nat} (h : off % 8 = 0) :
    s.dcsLoad off 8 = (leBytes (s.dcsRead off).1 8, (s.dcsRead off).2) := by
  simp [State.dcsLoad, regular_eight h]

theorem State.dcsLoad_irregular (s : State) {off len : Nat} (h : regular off len = false) :
    s.dcsLoad off len = (List.replicate len 0xFF#8, s) := by
  simp [State.dcsLoad, h]

theorem State.dcsStore_aligned (s : State) (org : Origin) {off : Nat} (h : off % 8 = 0) (v : Word) :
    s.dcsStore org off (leBytes v.toNat 8) = s.dcsWrite org off v.toNat := by
  rw [State.dcsStore, leBytes_length, regular_eight h, if_pos rfl, leNat_leBytes_word]

theorem State.dcsStore_irregular (s : State) (org : Origin) {off : Nat} {bs : List Byte} (h : regular off bs.length = false) :
    s.dcsStore org off bs = s := by
  simp [State.dcsStore, h]

theorem State.bar0Load_irregular (s : State) (fn : Nat) {off len : Nat} (h : regular off len = false)
    (hmsix : msixAccess off len = false) : s.bar0Load fn off len = (List.replicate len 0xFF#8, s) := by
  simp [State.bar0Load, h, hmsix]

theorem State.bar0Store_irregular (s : State) (fn : Nat) {off : Nat} {bs : List Byte} (h : regular off bs.length = false)
    (hmsix : msixAccess off bs.length = false) : s.bar0Store fn off bs = s := by
  simp [State.bar0Store, h, hmsix]

/-! ### The bytes of a host are counted first, which opens and closes nothing -/

theorem State.dcsOpen_with_bw (s : State) (b : AMap (Nat × Nat)) (org : Origin) (off : Nat) :
    ({ s with bw := b } : State).dcsOpen org off = s.dcsOpen org off := rfl

@[simp] theorem State.dcsOpen_bwRx (s : State) (fn n : Nat) (org : Origin) (off : Nat) :
    (s.bwRx fn n).dcsOpen org off = s.dcsOpen org off := by
  rw [← (s.bwRx fn n).dcsOpen_with_bw [], State.bwRx, s.bwCount_rest, s.dcsOpen_with_bw]

theorem State.barRead_of_served {s : State} {fn : Nat} (h : s.barAnswer fn = .served) (tag n : Nat) (f : State → State) :
    s.barRead fn tag n f = f s := by
  rw [State.barRead, h]

theorem State.answerRead_host (s : State) (fn tag : Nat) (bs : List Byte) :
    s.answerRead (.host fn) tag bs = s.emit (.pcie fn tag (.success bs)) := rfl

/-! ### The device control space -/

/-- A read by an origin outside PCIe that reaches the register. -/
theorem State.load_dcs {s : State} {org : Origin} {off : Nat} (horg : ∀ fn, org ≠ .host fn) (hopen : s.dcsOpen org off = true)
    (len tag : Nat) : s.load org .dcs off len tag = (s.dcsLoad off len).2.answerRead org tag (s.dcsLoad off len).1 := by
  cases org with
  | host fn => exact absurd rfl (horg fn)
  | space2 | oob | oobSecure => simp only [State.load, hopen, if_true]

/-- A read by a host that reaches the register. -/
theorem State.load_dcs_host {s : State} {fn off : Nat} (hopen : s.dcsOpen (.host fn) off = true) (len tag : Nat) :
    s.load (.host fn) .dcs off len tag =
      ((s.bwRx fn 0).dcsLoad off len).2.answerRead (.host fn) tag ((s.bwRx fn 0).dcsLoad off len).1 := by
  rw [State.load, s.dcsOpen_bwRx, hopen, if_pos rfl]

theorem State.store_dcs {s : State} {org : Origin} (horg : ∀ fn, org ≠ .host fn) (off : Nat) (bs : List Byte) :
    s.store org .dcs off bs = if s.dcsOpen org off then s.dcsStore org off bs else s := by
  cases org with
  | host fn => exact absurd rfl (horg fn)
  | space2 | oob | oobSecure => rfl

theorem State.store_dcs_host (s : State) (fn off : Nat) (bs : List Byte) :
    s.store (.host fn) .dcs off bs =
      if s.dcsOpen (.host fn) off then (s.bwRx fn bs.length).dcsStore (.host fn) off bs else s.bwRx fn bs.length := by
  rw [State.store, s.dcsOpen_bwRx]

/-! ### BAR0 of a function that serves it -/

theorem State.load_bar0 {s : State} {fn : Nat} (hserved : (s.bwRx fn 0).barAnswer fn = .served) (off len tag : Nat) :
    s.load (.host fn) (.bar0 fn) off len tag =
      ((s.bwRx fn 0).bar0Load fn off len).2.answerRead (.host fn) tag ((s.bwRx fn 0).bar0Load fn off len).1 := by
  rw [State.load, if_neg (not_not_intro rfl), State.barRead_of_served hserved]

theorem State.store_bar0 (s : State) (fn off : Nat) (bs : List Byte) :
    s.store (.host fn) (.bar0 fn) off bs =
      if (s.bwRx fn bs.length).barAnswer fn = .served then (s.bwRx fn bs.length).bar0Store fn off bs else s.bwRx fn bs.length := by
  rw [State.store, if_neg (not_not_intro rfl), State.barWrite]

/-! ### The register commands -/

theorem State.registerWrite_dcs {s : State} {org : Origin} {off : Nat} (horg : ∀ fn, org ≠ .host fn)
    (hopen : s.dcsOpen org off = true) (hoff : off % 8 = 0) (v : Word) :
    s.registerWrite org .dcs off v = s.dcsWrite org off v.toNat := by
  rw [State.registerWrite, if_pos hoff, State.store_dcs horg, if_pos hopen, s.dcsStore_aligned org hoff]

theorem State.registerWrite_dcs_host {s : State} {fn off : Nat} (hopen : s.dcsOpen (.host fn) off = true) (hoff : off % 8 = 0)
    (v : Word) : s.registerWrite (.host fn) .dcs off v = (s.bwRx fn 8).dcsWrite (.host fn) off v.toNat := by
  rw [State.registerWrite, if_pos hoff, s.store_dcs_host, if_pos hopen, State.dcsStore_aligned _ _ hoff, leBytes_length]

theorem State.rcReadCmd_dcs {s : State} {org : Origin} {off : Nat} (horg : ∀ fn, org ≠ .host fn) (hopen : s.dcsOpen org off = true)
    (hoff : off % 8 = 0) (tag : Nat) :
    s.rcReadCmd org .dcs off tag = (s.dcsRead off).2.answerRead org tag (leBytes (s.dcsRead off).1 8) := by
  rw [State.rcReadCmd, if_pos hoff, State.load_dcs horg hopen, s.dcsLoad_aligned hoff]

theorem State.irregular_read {s : State} {off len : Nat} (h : regular off len = false) (org : Origin) (sp : Space) (tag : Nat) :
    s.irregular org sp off len tag none = s.load org sp off len tag := by
  simp [State.irregular, h]

theorem State.irregular_write {s : State} {off : Nat} {bs : List Byte} (h : regular off bs.length = false) (org : Origin)
    (sp : Space) (len tag : Nat) : s.irregular org sp off len tag (some bs) = s.store org sp off bs := by
  simp [State.irregular, h]

theorem State.irregular_read_dcs {s : State} {org : Origin} {off len : Nat} (horg : ∀ fn, org ≠ .host fn)
    (hopen : s.dcsOpen org off = true) (h : regular off len = false) (tag : Nat) :
    s.irregular org .dcs off len tag none = s.answerRead org tag (List.replicate len 0xFF#8) := by
  rw [State.irregular_read h, State.load_dcs horg hopen, s.dcsLoad_irregular h]

theorem State.irregular_read_dcs_host {s : State} {fn off len : Nat} (hopen : s.dcsOpen (.host fn) off = true)
    (h : regular off len = false) (tag : Nat) :
    s.irregular (.host fn) .dcs off len tag none = (s.bwRx fn 0).emit (.pcie fn tag (.success (List.replicate len 0xFF#8))) := by
  rw [State.irregular_read h, State.load_dcs_host hopen, State.dcsLoad_irregular _ h, State.answerRead_host]

theorem State.irregular_read_bar0 {s : State} {fn off len : Nat} (hserved : (s.bwRx fn 0).barAnswer fn = .served)
    (h : regular off len = false) (hmsix : msixAccess off len = false) (tag : Nat) :
    s.irregular (.host fn) (.bar0 fn) off len tag none =
      (s.bwRx fn 0).emit (.pcie fn tag (.success (List.replicate len 0xFF#8))) := by
  rw [State.irregular_read h, State.load_bar0 hserved, State.bar0Load_irregular _ fn h hmsix, State.answerRead_host]

theorem State.irregular_write_dcs {s : State} {org : Origin} {off : Nat} {bs : List Byte} (horg : ∀ fn, org ≠ .host fn)
    (h : regular off bs.length = false) (len tag : Nat) : s.irregular org .dcs off len tag (some bs) = s := by
  rw [State.irregular_write h, State.store_dcs horg, s.dcsStore_irregular org h, ite_self]

theorem State.irregular_write_dcs_host {s : State} {off : Nat} {bs : List Byte} (h : regular off bs.length = false)
    (fn len tag : Nat) : s.irregular (.host fn) .dcs off len tag (some bs) = s.bwRx fn bs.length := by
  rw [State.irregular_write h, s.store_dcs_host, State.dcsStore_irregular _ _ h, ite_self]

theorem State.irregular_write_bar0 {s : State} {off : Nat} {bs : List Byte} (h : regular off bs.length = false)
    (hmsix : msixAccess off bs.length = false) (fn len tag : Nat) :
    s.irregular (.host fn) (.bar0 fn) off len tag (some bs) = s.bwRx fn bs.length := by
  rw [State.irregular_write h, s.store_bar0, State.bar0Store_irregular _ fn h hmsix, ite_self]

theorem State.oobAccess_read {s : State} {off : Nat} (hup : s.oobUp = true) (hoff : off % 8 = 0) :
    s.oobAccess off none = (s.dcsRead off).2.emit (.oob (leBytes (s.dcsRead off).1 8)) :=
  State.rcReadCmd_dcs (org := .oob) (fun _ => nofun) hup hoff 0

theorem State.oobAccess_write {s : State} {off : Nat} (hup : s.oobUp = true) (hoff : off % 8 = 0) (v : Word) :
    s.oobAccess off (some v) = (s.dcsWrite .oob off v.toNat).emit (.oob (leBytes Status.ok.code 1)) := by
  rw [State.oobAccess, if_pos hup, State.registerWrite_dcs (org := .oob) (fun _ => nofun) hup hoff]

/-- Settles O1: each command's own effect is the access that its name says. -/
theorem registerCommandsReachTheirRegister : Obligations.RegisterCommandsReachTheirRegister := by
  refine ⟨?_, ?_, ?_, ?_, ?_, ?_, ?_⟩
  · exact fun s _ _ v horg hopen hoff => congrArg s.ends (State.registerWrite_dcs horg hopen hoff v)
  · exact fun s _ _ v hopen hoff => congrArg s.ends (State.registerWrite_dcs_host hopen hoff v)
  · exact fun s _ _ tag horg hopen hoff => ⟨_, congrArg s.ends (State.rcReadCmd_dcs horg hopen hoff tag), rfl⟩
  · exact fun s _ _ _ tag horg hopen h => congrArg s.ends (State.irregular_read_dcs horg hopen h tag)
  · exact fun s _ _ len tag _ horg h => congrArg s.ends (State.irregular_write_dcs horg h len tag)
  · exact fun s _ hup hoff => congrArg s.ends (State.oobAccess_read hup hoff)
  · exact fun s _ v hup hoff => congrArg s.ends (State.oobAccess_write hup hoff v)

/-- Settles O56: neither space serves an access of another size or alignment, whoever makes it. -/
theorem irregularAccessesReadOnesAndWriteNothing : Obligations.IrregularAccessesReadOnesAndWriteNothing := by
  refine ⟨?_, ?_, ?_, ?_, ?_, ?_⟩
  · exact fun s _ _ _ tag hopen h horg => congrArg s.ends (State.irregular_read_dcs horg hopen h tag)
  · intro s fn off len tag hopen h
    rw [s.dcsOpen_bwRx] at hopen
    exact congrArg s.ends (State.irregular_read_dcs_host hopen h tag)
  · exact fun s _ _ _ tag hserved h hmsix => congrArg s.ends (State.irregular_read_bar0 hserved h hmsix tag)
  · exact fun s _ _ len tag _ h horg => congrArg s.ends (State.irregular_write_dcs horg h len tag)
  · exact fun s fn _ len tag _ h => congrArg s.ends (State.irregular_write_dcs_host h fn len tag)
  · exact fun s fn _ len tag _ h hmsix => congrArg s.ends (State.irregular_write_bar0 h hmsix fn len tag)

end Machine
end Sys2Proof
end

section
/-! PROOFS. FT_RATE: a write is read back but for the reserved bits (R12, R14, R30, R106; Table 1.15). -/

namespace Sys2Proof
namespace Machine

/-- The state in which FT_RATE has taken SW_SYNC and RATE from a value. -/
def State.setFtRate (s : State) (v : Nat) : State :=
  (s.setFld F.clkpwrFtRateSwSync (bits v 63 63)).setFld F.clkpwrFtRateRate (bits v 31 0)

theorem State.setFtRate_rate (s : State) (v : Nat) : (s.setFtRate v).fld F.clkpwrFtRateRate = v % 2 ^ 32 :=
  (fld_setFld_self _ _ _ 0 0).trans (Nat.mod_mod _ _)

theorem State.setFtRate_swSync (s : State) (v : Nat) : (s.setFtRate v).fld F.clkpwrFtRateSwSync = bits v 63 63 := by
  rw [State.setFtRate, fld_setFld_ne (by decide), fld_setFld_self]
  exact Nat.mod_mod _ _

theorem State.setFtRate_regsKept (s : State) (v : Nat) : regsKept [.clkpwrFtRate] s (s.setFtRate v) := by
  intro f o e hpos hreg
  have hne : f.reg ≠ .clkpwrFtRate := by simpa using hreg
  rw [State.setFtRate, setFld_kept (by decide) _ _ 0 f o e hpos hne, setFld_kept (by decide) _ _ 0 f o e hpos hne]

/-- With software as the source of fabric time a write of FT_RATE sets both of its fields. -/
theorem State.dcsWrite_ftRate {s : State} (hsrc : s.ftSource = 0) (org : Origin) (v : Nat) :
    s.dcsWrite org 0x20118 v = s.setFtRate v := by
  have hreg : s.dcsWrite org 0x20118 v = s.dcsRegWrite org .clkpwrFtRate 0 0 v :=
    State.dcsWrite_of_locate rfl (by decide) rfl rfl org v
  rw [hreg, State.dcsRegWrite, hsrc]
  rfl

theorem State.dcsRead_ftRate (s : State) :
    (s.dcsRead 0x20118).1 = s.fld F.clkpwrFtRateRate + s.fld F.clkpwrFtRateSwSync * 2 ^ 63 := by
  have hread : s.dcsRead 0x20118 = s.regRead .clkpwrFtRate 0 := State.dcsRead_of_locate rfl (by decide) rfl rfl
  have hshown : s.shown .clkpwrFtRate 0 = s := rfl
  rw [hread, State.regRead, State.regValue, hshown, State.stored_of_single (by decide), Reg.fields, List.map_cons, List.map_cons,
    List.sum_cons, List.sum_cons]
  simp [F.clkpwrFtRateRate, F.clkpwrFtRateSwSync, Nat.add_comm]

/-- Settles O2: the write is State.setFtRate, and the register shows its two fields and nothing else. -/
theorem ftRateWriteReadsBack : Obligations.FtRateWriteReadsBack := by
  intro s org v horg hopen hsrc
  have hwrite : s.registerWrite org .dcs 0x20118 v = s.setFtRate v.toNat := by
    rw [State.registerWrite_dcs horg hopen rfl, State.dcsWrite_ftRate hsrc]
  have hread : ((s.setFtRate v.toNat).dcsRead 0x20118).1 = v.toNat % 2 ^ 32 + bits v.toNat 63 63 * 2 ^ 63 := by
    rw [State.dcsRead_ftRate, s.setFtRate_rate, s.setFtRate_swSync]
  exact ⟨_, congrArg s.ends hwrite, s.setFtRate_rate _, s.setFtRate_swSync _, hread, s.setFtRate_regsKept _, fun _ => rfl⟩

end Machine
end Sys2Proof
end

section
/-! PROOFS. Registers that an update of the state leaves as they are. -/

namespace Sys2Proof
namespace Machine

theorem regsKept_refl (rs : List Reg) (s : State) : regsKept rs s s := fun _ _ _ _ _ => rfl

theorem regsKept.trans {rs : List Reg} {s t u : State} (h₁ : regsKept rs s t) (h₂ : regsKept rs t u) : regsKept rs s u :=
  fun f o e hpos hreg => (h₂ f o e hpos hreg).trans (h₁ f o e hpos hreg)

theorem regsKept.mono {rs rs' : List Reg} {s t : State} (h : regsKept rs s t) (hsub : rs ⊆ rs') : regsKept rs' s t :=
  fun f o e hpos hreg => h f o e hpos fun hmem => hreg (hsub hmem)

theorem regsKept_of_flds_eq {s t : State} (rs : List Reg) (h : t.flds = s.flds) : regsKept rs s t :=
  fun f o e _ _ => by rw [State.fld, State.fld, h]

/-- Setting a field after an update keeps the registers that the update keeps, but for the field's own. -/
theorem regsKept.setFld {rs : List Reg} {s t : State} (h : regsKept rs s t) {f : Fld} (hreg : f.reg ∈ rs) (v o e : Nat)
    (hpos : f.pos e < 64) : regsKept rs s (t.setFld f v o e) :=
  fun g o' e' hg hnot => (setFld_kept hpos t v o g o' e' hg fun heq => hnot (heq ▸ hreg)).trans (h g o' e' hg hnot)

theorem regsKept_setFld {rs : List Reg} (s : State) {f : Fld} (hreg : f.reg ∈ rs) (v o e : Nat) (hpos : f.pos e < 64) :
    regsKept rs s (s.setFld f v o e) :=
  (regsKept_refl rs s).setFld hreg v o e hpos

/-- A value that fits the field reads back whole. -/
theorem fld_setFld_of_lt {f : Fld} {v : Nat} (h : v < 2 ^ f.width) (s : State) (o e : Nat) : (s.setFld f v o e).fld f o e = v := by
  rw [fld_setFld_self, Nat.mod_eq_of_lt h]

theorem memKept_refl (s : State) : memKept s s := fun _ => rfl

theorem memKept_of_mem_eq {s t : State} (h : t.mem = s.mem) : memKept s t := fun a => by rw [h]

theorem memKept_after (s t : State) (h : memKept s t) : memKept s (s.after t) :=
  fun a => (readByte_canon t.mem a).trans (h a)

/-! ### The answer of a command whose effect is known -/

theorem answer_taken {s t : State} {r : Result} (h : r = .next t) : s.answer (s.taken r) = .next (s.after t) := by
  rw [h]; rfl

theorem ends_taken {s t : State} {r : Result} (h : r = .next t) : s.ends (s.taken r) = .next (s.finished t) := by
  rw [h]; rfl

/-! ### Two's complement -/

theorem ofSigned_lt (n : Nat) (x : Int) : ofSigned n x < 2 ^ n := by
  have hpos : (0 : Int) < ((2 ^ n : Nat) : Int) := by positivity
  have := Int.emod_lt_of_pos x hpos
  rw [ofSigned]
  omega

theorem toSigned_ofSigned {n : Nat} {x : Int} (hlo : -2 ^ n ≤ x) (hhi : x < 2 ^ n) : toSigned (n + 1) (ofSigned (n + 1) x) = x := by
  have hpow : ((2 ^ (n + 1) : Nat) : Int) = 2 * 2 ^ n := by push_cast; ring
  have hcast : ((2 ^ n : Nat) : Int) = 2 ^ n := by push_cast; rfl
  rw [toSigned, ofSigned, hpow, Nat.add_sub_cancel]
  rcases lt_or_ge x 0 with hneg | hnonneg
  · have hmod : x % (2 * 2 ^ n) = x + 2 * 2 ^ n := by
      rw [← Int.add_emod_right, Int.emod_eq_of_lt (by omega) (by omega)]
    rw [hmod, if_neg (by omega)]
    omega
  · rw [Int.emod_eq_of_lt hnonneg (by omega), if_pos (by omega)]
    omega

/-- An integer held within the range of n + 1 bits. -/
theorem clamp_eq (lim x : Int) (h : 0 < lim) :
    (if x < -lim then -lim else if lim - 1 < x then lim - 1 else x) = max (-lim) (min (lim - 1) x) := by
  split
  · omega
  · split <;> omega

end Machine
end Sys2Proof
end

section
/-! PROOFS. Fabric time: the latching read, a step, the end of a discipline period and the sync timeout (R28, R30 to R32). -/

namespace Sys2Proof
namespace Machine

theorem State.nowNs_move (s : State) (d : Int) :
    (({ s with clk := s.clk.move d } : State).nowNs : Int) = ((s.nowNs : Int) + d) % ((2 ^ 48 * 1000000000 : Nat) : Int) := by
  have hnonneg := Int.emod_nonneg ((s.nowNs : Int) + d) (b := ((2 ^ 48 * 1000000000 : Nat) : Int)) (by decide)
  simp only [State.nowNs, ClockState.move] at hnonneg ⊢
  omega

theorem State.ftStep_nowNs (s : State) (d : Int) :
    ((s.ftStep d).nowNs : Int) = ((s.nowNs : Int) + d) % ((2 ^ 48 * 1000000000 : Nat) : Int) := s.nowNs_move d

/-- The registers after a step of fabric time are those after counting it. -/
theorem State.fld_ftStep (s : State) (d : Int) (f : Fld) (o e : Nat) :
    (s.ftStep d).fld f o e = (s.countSat F.clkpwrFtStatusSteps).fld f o e := rfl

theorem State.ftStep_steps (s : State) (d : Int) :
    (s.ftStep d).fld F.clkpwrFtStatusSteps = satAdd (2 ^ 16 - 1) (s.fld F.clkpwrFtStatusSteps) 1 % 2 ^ 16 :=
  (s.fld_ftStep d _ 0 0).trans (fld_setFld_self s _ _ 0 0)

theorem State.regsKept_ftStep (s : State) (d : Int) : regsKept [.clkpwrFtStatus] s (s.ftStep d) :=
  regsKept_setFld (f := F.clkpwrFtStatusSteps) s (by decide) _ 0 0 (by decide)

/-! ### The end of a discipline period -/

/-- The period's sum and count of offsets cleared. -/
def State.offsetsCleared (s : State) : State := { s with clk := { s.clk with offSum := 0, offCnt := 0 } }

/-- A signed value held within 32 bits. -/
def held32 (x : Int) : Int := max (-2 ^ 31) (min (2 ^ 31 - 1) x)

/-- RATE with a correction added, held within 32 bits (R31). -/
def State.rateCorrected (s : State) (add : Int) : State :=
  s.setFld F.clkpwrFtRateRate (ofSigned 32 (held32 (toSigned 32 (s.fld F.clkpwrFtRateRate) + add)))

/-- The outcome of a period noted: whether the mean was within STEP_NS, and the mean in OFFSET_NS (R31). -/
def State.meanNoted (s : State) (within : Bool) (mean : Int) : State :=
  ({ s with clk := { s.clk with within := within } }).setFld F.clkpwrFtStatusOffsetNs (ofSigned 32 (held32 mean))

theorem toSigned_ofSigned_held32 (x : Int) : toSigned 32 (ofSigned 32 (held32 x)) = held32 x :=
  toSigned_ofSigned (n := 31) (by rw [held32]; omega) (by rw [held32]; omega)

theorem State.rateCorrected_rate (s : State) (add : Int) :
    toSigned 32 ((s.rateCorrected add).fld F.clkpwrFtRateRate) = held32 (toSigned 32 (s.fld F.clkpwrFtRateRate) + add) := by
  rw [State.rateCorrected, fld_setFld_of_lt (ofSigned_lt 32 _), toSigned_ofSigned_held32]

theorem State.meanNoted_offset (s : State) (within : Bool) (mean : Int) :
    toSigned 32 ((s.meanNoted within mean).fld F.clkpwrFtStatusOffsetNs) = held32 mean := by
  rw [State.meanNoted, fld_setFld_of_lt (ofSigned_lt 32 _), toSigned_ofSigned_held32]

theorem State.fld_meanNoted_ne {f : Fld} {e : Nat} (h : F.clkpwrFtStatusOffsetNs.apart 0 f e = true) (s : State) (within : Bool)
    (mean : Int) (o : Nat) : (s.meanNoted within mean).fld f o e = s.fld f o e := by
  rw [State.meanNoted, fld_setFld_ne h]
  rfl

theorem State.regsKept_meanNoted (s : State) (within : Bool) (mean : Int) :
    regsKept [.clkpwrFtStatus] s (s.meanNoted within mean) :=
  (regsKept_of_flds_eq (s := s) (t := { s with clk := { s.clk with within := within } }) _ rfl).setFld (f := F.clkpwrFtStatusOffsetNs)
    (by decide) _ 0 0 (by decide)

/-- A mean beyond STEP_NS steps fabric time. -/
theorem execFtDisciplinePeriod_step {s : State} (hsrc : s.ftSource ≠ 0) (hcnt : s.clk.offCnt ≠ 0)
    (hbig : s.ftStepNs * s.clk.offCnt < s.clk.offSum.natAbs) :
    execFtDisciplinePeriod s = .next ((s.offsetsCleared.ftStep (s.clk.offSum / (s.clk.offCnt : Int))).meanNoted false
      (s.clk.offSum / (s.clk.offCnt : Int))) := by
  simp only [execFtDisciplinePeriod, hsrc, hcnt, or_self, if_false, hbig, if_true, decide_true, Bool.not_true]
  rw [clamp_eq _ _ (by decide)]
  rfl

/-- A mean within STEP_NS corrects the rate. -/
theorem execFtDisciplinePeriod_rate {s : State} (hsrc : s.ftSource ≠ 0) (hcnt : s.clk.offCnt ≠ 0)
    (hsmall : s.clk.offSum.natAbs ≤ s.ftStepNs * s.clk.offCnt) :
    execFtDisciplinePeriod s = .next ((s.offsetsCleared.rateCorrected
      (s.clk.offSum * 2 ^ 32 / (s.clk.offCnt * 4000000 : Int))).meanNoted true (s.clk.offSum / (s.clk.offCnt : Int))) := by
  have hbig : ¬ s.ftStepNs * s.clk.offCnt < s.clk.offSum.natAbs := by omega
  simp only [execFtDisciplinePeriod, hsrc, hcnt, or_self, if_false, hbig, decide_false, Bool.not_false]
  rw [clamp_eq _ _ (by decide), clamp_eq _ _ (by decide), Nat.cast_mul]
  rfl

/-- Settles O3: a step moves the clock once and counts it; the end of a period does that with the mean, or corrects RATE. -/
theorem fabricTimeCommandsComplete : Obligations.FabricTimeCommandsComplete := by
  refine ⟨?_, ?_, ?_, ?_, ?_⟩
  · intro s
    have hkept : regsKept [.clkpwrFtNs] s (s.setFld F.clkpwrFtNsNs s.clk.ns) := regsKept_setFld s (by decide) _ 0 0 (by decide)
    exact ⟨_, rfl, rfl, fld_setFld_self s F.clkpwrFtNsNs s.clk.ns 0 0, hkept, memKept_after s _ (memKept_refl s), rfl⟩
  · intro s org off hopen hsrc
    have hstep : execFtStep org off s = .next (s.ftStep off.toInt) := if_pos ⟨hopen, hsrc⟩
    exact ⟨_, answer_taken hstep, s.ftStep_nowNs off.toInt, s.ftStep_steps off.toInt,
      s.regsKept_ftStep off.toInt, memKept_after s _ (memKept_refl s), rfl⟩
  · intro s hsrc hcnt
    rcases Nat.lt_or_ge (s.ftStepNs * s.clk.offCnt) s.clk.offSum.natAbs with hbig | hsmall
    · have heffect := execFtDisciplinePeriod_step hsrc hcnt hbig
      refine ⟨_, answer_taken heffect, rfl, rfl, ?_, fun h => absurd h (by omega), fun _ => ⟨?_, ?_, ?_⟩, ?_,
        ?_, ?_, memKept_after s _ (memKept_refl s), rfl⟩
      · exact iff_of_false Bool.false_ne_true (by omega)
      · exact s.offsetsCleared.ftStep_nowNs _
      · exact (State.fld_meanNoted_ne (by decide) _ _ _ 0).trans (s.offsetsCleared.ftStep_steps _)
      · exact (State.fld_meanNoted_ne (by decide) _ _ _ 0).trans (s.offsetsCleared.regsKept_ftStep _ _ 0 0 (by decide) (by decide))
      · exact State.meanNoted_offset _ _ _
      · exact (State.fld_meanNoted_ne (by decide) _ _ _ 0).trans (s.offsetsCleared.regsKept_ftStep _ _ 0 0 (by decide) (by decide))
      · exact ((s.offsetsCleared.regsKept_ftStep _).trans (State.regsKept_meanNoted _ _ _)).mono (by decide)
    · have heffect := execFtDisciplinePeriod_rate hsrc hcnt hsmall
      refine ⟨_, answer_taken heffect, rfl, rfl, ?_, fun _ => ⟨rfl, ?_, ?_⟩, fun h => absurd h (by omega), ?_,
        ?_, ?_, memKept_after s _ (memKept_refl s), rfl⟩
      · exact iff_of_true rfl hsmall
      · exact (State.fld_meanNoted_ne (by decide) _ _ _ 0).trans (fld_setFld_ne (by decide) _ _ 0 0)
      · exact (congrArg _ (State.fld_meanNoted_ne (by decide) _ _ _ 0)).trans (s.offsetsCleared.rateCorrected_rate _)
      · exact State.meanNoted_offset _ _ _
      · exact (State.fld_meanNoted_ne (by decide) _ _ _ 0).trans (fld_setFld_ne (by decide) _ _ 0 0)
      · exact (regsKept_setFld (f := F.clkpwrFtRateRate) s.offsetsCleared (by decide) _ 0 0 (by decide)).trans
          ((State.regsKept_meanNoted _ _ _).mono (by decide))
  · intro s hidle
    have heffect : execFtDisciplinePeriod s = .next s.offsetsCleared := if_pos hidle
    exact answer_taken heffect
  · intro s
    exact ⟨rfl, fun hsrc => (if_neg hsrc).trans (Bool.and_false _)⟩

end Machine
end Sys2Proof
end

section
/-! PROOFS. The loss of a clock: FAULT with its cause, and the lock bits of CLK_STATUS (R26, R27, R522). -/

namespace Sys2Proof
namespace Machine

/-! ### A bit put into a number -/

theorem bit_eq_testBit (x i : Nat) : bit x i = x.testBit i := by
  rw [bit, Nat.testBit_eq_decide_div_mod_eq, Nat.shiftRight_eq_div_pow]

/-- The bits above i, the bit put, and the bits below i. -/
theorem putBit_eq (x i : Nat) (v : Bool) : putBit x i v = 2 ^ i * (2 * (x / 2 ^ i / 2) + b2n v) + x % 2 ^ i := by
  have hsplit : 2 ^ i * (x / 2 ^ i) + x % 2 ^ i = x := Nat.div_add_mod x (2 ^ i)
  have hhalf : 2 * (x / 2 ^ i / 2) + x / 2 ^ i % 2 = x / 2 ^ i := Nat.div_add_mod _ 2
  have hbit : bit x i = decide (x / 2 ^ i % 2 = 1) := by rw [bit, Nat.shiftRight_eq_div_pow]
  rw [putBit, hbit]
  rw [← hhalf, Nat.mul_add] at hsplit
  rw [Nat.mul_add]
  rcases Nat.mod_two_eq_zero_or_one (x / 2 ^ i) with h0 | h1
  · rw [h0] at hsplit
    cases v <;> simp [h0, b2n] <;> omega
  · rw [h1] at hsplit
    cases v <;> simp [h1, b2n] <;> omega

theorem bit_putBit_self (x i : Nat) (v : Bool) : bit (putBit x i v) i = v := by
  have hlow : x % 2 ^ i < 2 ^ i := Nat.mod_lt _ (by positivity)
  rw [bit_eq_testBit, putBit_eq, Nat.testBit_two_pow_mul_add _ hlow, if_neg (lt_irrefl i), Nat.sub_self, Nat.testBit_zero]
  cases v <;> simp [b2n]

theorem bit_putBit_ne (x : Nat) {i j : Nat} (v : Bool) (h : j ≠ i) : bit (putBit x i v) j = bit x j := by
  have hlow : x % 2 ^ i < 2 ^ i := Nat.mod_lt _ (by positivity)
  conv_rhs => rw [← Nat.div_add_mod x (2 ^ i)]
  rw [bit_eq_testBit, bit_eq_testBit, putBit_eq, Nat.testBit_two_pow_mul_add _ hlow, Nat.testBit_two_pow_mul_add _ hlow]
  split
  · rfl
  · obtain ⟨k, hk⟩ : ∃ k, j - i = k + 1 := ⟨j - i - 1, by omega⟩
    have hv : b2n v < 2 := by cases v <;> decide
    rw [hk, Nat.testBit_add_one, Nat.testBit_add_one, Nat.mul_add_div (by decide), Nat.div_eq_of_lt hv, Nat.add_zero]

theorem putBit_lt {x i w : Nat} (hx : x < 2 ^ w) (hi : i < w) (v : Bool) : putBit x i v < 2 ^ w := by
  refine Nat.lt_pow_two_of_testBit _ fun j hj => ?_
  rw [← bit_eq_testBit, bit_putBit_ne x v (by omega), bit_eq_testBit]
  exact Nat.testBit_lt_two_pow (lt_of_lt_of_le hx (Nat.pow_le_pow_right (by decide) hj))

/-! ### FAULT -/

/-- A state of the device in which a clock can be lost: FAULT is entered from each. -/
def DevState.runs (d : DevState) : Prop := d = .bringup ∨ d = .equalShare ∨ d = .service ∨ d = .drain

/-- From a running device FAULT is entered: its state, the cause in JNL.RSTATUS, and the pin. -/
theorem State.enterFault_of_runs {s : State} (h : s.dev.state.runs) (cause : Nat) :
    s.enterFault cause = { s.setFld F.jnlRstatusFaultCause cause with
      dev := { s.dev with state := .fault }, out := .pin pinTrayFaultN false :: s.out } := by
  rcases h with h | h | h | h <;> simp only [State.enterFault, h] <;> rfl

theorem State.enterFault_cause {s : State} (h : s.dev.state.runs) {cause : Nat} (hcause : cause < 2 ^ 8) :
    (s.enterFault cause).fld F.jnlRstatusFaultCause = cause := by
  rw [State.enterFault_of_runs h]
  exact fld_setFld_of_lt (f := F.jnlRstatusFaultCause) hcause s 0 0

theorem State.fld_enterFault_ne {s : State} (h : s.dev.state.runs) (cause : Nat) {f : Fld} {e : Nat}
    (hapart : F.jnlRstatusFaultCause.apart 0 f e = true) (o : Nat) : (s.enterFault cause).fld f o e = s.fld f o e := by
  rw [State.enterFault_of_runs h]
  exact fld_setFld_ne hapart s cause 0 o

theorem State.enterFault_entered {s : State} (h : s.dev.state.runs) (cause : Nat) :
    (s.enterFault cause).dev.state = .fault ∧ .pin pinTrayFaultN false ∈ (s.enterFault cause).out := by
  rw [State.enterFault_of_runs h]
  exact ⟨rfl, List.mem_cons_self⟩

theorem State.regsKept_enterFault {s : State} (h : s.dev.state.runs) (cause : Nat) :
    regsKept [.jnlRstatus] s (s.enterFault cause) := by
  rw [State.enterFault_of_runs h]
  exact regsKept_setFld s (by decide) cause 0 0 (by decide)

/-- CLK_STATUS after the loss of the master lock (R27). -/
def State.masterUnlocked (s : State) : State :=
  (s.setFlag F.clkpwrClkStatusMasterLock false).setFlag F.clkpwrClkStatusMasterLockLost true

theorem State.regsKept_masterUnlocked (s : State) : regsKept [.clkpwrClkStatus] s s.masterUnlocked :=
  (regsKept_setFld (f := F.clkpwrClkStatusMasterLock) s (by decide) _ 0 0 (by decide)).setFld (by decide) _ 0 0 (by decide)

theorem State.masterUnlocked_lock (s : State) : s.masterUnlocked.fld F.clkpwrClkStatusMasterLock = 0 :=
  (fld_setFld_ne (by decide) _ _ 0 0).trans (fld_setFld_self s _ _ 0 0)

theorem State.masterUnlocked_lost (s : State) : s.masterUnlocked.fld F.clkpwrClkStatusMasterLockLost = 1 :=
  fld_setFld_self _ _ _ 0 0

/-- CLK_STATUS after the loss of the reference clock (R26). -/
def State.refclkFailed (s : State) : State := s.setFlag F.clkpwrClkStatusRefclkOk false

theorem State.regsKept_refclkFailed (s : State) : regsKept [.clkpwrClkStatus] s s.refclkFailed :=
  regsKept_setFld s (by decide) _ 0 0 (by decide)

theorem State.refclkFailed_ok (s : State) : s.refclkFailed.fld F.clkpwrClkStatusRefclkOk = 0 := fld_setFld_self s _ _ 0 0

theorem State.lockLossCause_eq (s : State) : s.lockLossCause = if s.fld F.clkpwrClkStatusRefclkOk = 1 then 0x01 else 0x02 := by
  simp [State.lockLossCause, State.flag]

theorem State.lockLossCause_lt (s : State) : s.lockLossCause < 2 ^ 8 := by
  rw [State.lockLossCause]; split <;> decide

/-! ### Lock bits -/

/-- A PHY PLL of a unit that is present has a bit of its own in the field. -/
theorem lt_width_of_pllDomain_present {s : State} {kind n : Nat} (h : s.domPresent (pllDomain kind n) = true) :
    n < (pllField kind).width := by
  match kind with
  | 0 =>
    rcases Nat.lt_or_ge n 8 with hn | hn
    · exact hn
    · rw [pllDomain, if_neg (by omega)] at h; exact absurd h Bool.false_ne_true
  | 1 =>
    rcases Nat.lt_or_ge n 4 with hn | hn
    · exact hn
    · rw [pllDomain, if_neg (by omega)] at h; exact absurd h Bool.false_ne_true
  | k + 2 =>
    rcases Nat.lt_or_ge n 4 with hn | hn
    · exact hn
    · simp only [pllDomain, State.domPresent] at h
      rw [if_neg (by omega), if_neg (by omega), if_neg (by omega), if_neg (by omega)] at h
      exact absurd h Bool.false_ne_true

theorem pllField_reg (kind : Nat) : (pllField kind).reg = .clkpwrClkStatus := by
  unfold pllField; split <;> rfl

theorem pllField_pos (kind : Nat) : (pllField kind).pos 0 < 64 := by
  unfold pllField; split <;> decide

/-- Settles O4: the status bit falls and FAULT is entered on top of it; a PLL's bit is put into its field. -/
theorem clockLossCommandsComplete : Obligations.ClockLossCommandsComplete := by
  refine ⟨fun s hruns => ⟨?_, ?_⟩, ?_⟩
  · have ht : s.masterUnlocked.dev.state.runs := hruns
    obtain ⟨hstate, hpin⟩ := State.enterFault_entered ht s.lockLossCause
    refine ⟨s.masterUnlocked.enterFault s.lockLossCause, rfl, hstate, ?_, ?_, ?_, hpin, ?_, ?_⟩
    · rw [State.enterFault_cause ht s.lockLossCause_lt, s.lockLossCause_eq]
    · rw [State.fld_enterFault_ne ht _ (by decide), s.masterUnlocked_lock]
    · rw [State.fld_enterFault_ne ht _ (by decide), s.masterUnlocked_lost]
    · exact (s.regsKept_masterUnlocked.mono (by decide)).trans ((State.regsKept_enterFault ht _).mono (by decide))
    · exact memKept_of_mem_eq (by simp [State.masterUnlocked])
  · have ht : s.refclkFailed.dev.state.runs := hruns
    obtain ⟨hstate, hpin⟩ := State.enterFault_entered ht 0x02
    refine ⟨s.refclkFailed.enterFault 0x02, rfl, hstate, State.enterFault_cause ht (by decide), ?_, hpin, ?_, ?_⟩
    · rw [State.fld_enterFault_ne ht _ (by decide), s.refclkFailed_ok]
    · exact (s.regsKept_refclkFailed.mono (by decide)).trans ((State.regsKept_enterFault ht _).mono (by decide))
    · exact memKept_of_mem_eq (by simp [State.refclkFailed])
  · intro s kind n locked _ hpresent hfield
    have hput := putBit_lt hfield (lt_width_of_pllDomain_present hpresent) locked
    have heffect : execPhyPllLockLost kind n locked s =
        .next (s.setFld (pllField kind) (putBit (s.fld (pllField kind)) n locked)) := if_pos hpresent
    have hfld := fld_setFld_of_lt hput s 0 0
    refine ⟨_, answer_taken heffect, ?_, fun i hi => ?_, ?_, memKept_after s _ (memKept_refl s), rfl⟩
    · exact (congrArg (bit · n) hfld).trans (bit_putBit_self _ n locked)
    · exact (congrArg (bit · i) hfld).trans (bit_putBit_ne _ locked hi)
    · exact regsKept_setFld s (by simp [pllField_reg]) _ 0 0 (pllField_pos kind)

end Machine
end Sys2Proof
end

section
/-! PROOFS. Updates of the state that write registers alone. -/

namespace Sys2Proof
namespace Machine

/-- The state but for its register fields. -/
def State.butFlds (s : State) : State := { s with flds := [] }

@[simp] theorem State.butFlds_setFld (s : State) (f : Fld) (v o e : Nat) : (s.setFld f v o e).butFlds = s.butFlds := rfl

@[simp] theorem State.butFlds_setFlag (s : State) (f : Fld) (v : Bool) (o e : Nat) : (s.setFlag f v o e).butFlds = s.butFlds := rfl

theorem dom_of_butFlds {s t : State} (h : t.butFlds = s.butFlds) (i : Nat) : t.dom i = s.dom i :=
  (congrArg (State.dom · i) h : t.butFlds.dom i = s.butFlds.dom i)

theorem domPresent_of_butFlds {s t : State} (h : t.butFlds = s.butFlds) (i : Nat) : t.domPresent i = s.domPresent i :=
  (congrArg (State.domPresent · i) h : t.butFlds.domPresent i = s.butFlds.domPresent i)

theorem mem_of_butFlds {s t : State} (h : t.butFlds = s.butFlds) : t.mem = s.mem :=
  (congrArg State.mem h : t.butFlds.mem = s.butFlds.mem)

end Machine
end Sys2Proof
end

section
/-! PROOFS. Power domains: requests, what keeps a domain on, and the end of a change (R35 to R38, R502). -/

namespace Sys2Proof
namespace Machine

/-! ### What keeps a stack powered -/

theorem pageStack_mono {p q : Nat} (h : p ≤ q) : pageStack p ≤ pageStack q := Nat.div_le_div_right h

theorem stackOf_mono {a b : Nat} (h : a ≤ b) : stackOf a ≤ stackOf b := by
  rw [stackOf, stackOf, Nat.shiftRight_eq_div_pow, Nat.shiftRight_eq_div_pow]
  exact Nat.div_le_div_right h

theorem State.stackInUse_of_page {s : State} {k p : Nat} {e : Nat × Nat × Nat} (hmem : e ∈ s.ten.pages) (hlo : e.1 ≤ p)
    (hhi : p < e.1 + e.2.1) (hstack : pageStack p = k) : s.stackInUse k = true := by
  rw [State.stackInUse, Bool.or_eq_true]
  refine .inl (List.any_eq_true.2 ⟨e, hmem, decide_eq_true ?_⟩)
  exact ⟨hstack ▸ pageStack_mono hlo, hstack ▸ pageStack_mono (by omega)⟩

theorem State.stackInUse_of_window {s : State} {k a : Nat} {e : Nat × Window} (hmem : e ∈ s.wins) (hheld : e.2.held = true)
    (hspace : fgaSpace e.2.base = 0) (hlo : fgaOff e.2.base ≤ a) (hhi : a < fgaOff e.2.base + e.2.len) (hstack : stackOf a = k) :
    s.stackInUse k = true := by
  rw [State.stackInUse, Bool.or_eq_true]
  refine .inr (List.any_eq_true.2 ⟨e, hmem, ?_⟩)
  have hrange : stackOf (fgaOff e.2.base) ≤ k ∧ k ≤ stackOf (fgaOff e.2.base + (e.2.len - 1)) :=
    ⟨hstack ▸ stackOf_mono hlo, hstack ▸ stackOf_mono (by omega)⟩
  simp [hheld, hspace, hrange]

/-! ### Requests -/

/-- The check of a request looks at no register that the request writes. -/
theorem State.domCheck_setFld (s : State) (v d : Nat) (up : Bool) :
    (s.setFld F.clkpwrDomReqDomain v).domCheck d up = s.domCheck d up := rfl

theorem State.downRequest_of_open {s : State} {org : Origin} (hopen : s.dcsOpen org 0x20010 = true) (pair : Option Origin) (d : Nat) :
    s.downRequest ⟨org, pair⟩ d = s.domRequest org d false := if_pos hopen

/-- A request that the check refuses ends with the check's status. -/
theorem State.domRequest_refused {s : State} {org : Origin} {d : Nat} {up : Bool} {st : Status} (hopen : s.dcsOpen org 0x20010 = true)
    (hidle : s.domBusy = false) (hcheck : s.domCheck d up = some st) :
    s.domRequest org d up = (s.setFld F.clkpwrDomReqDomain d).domEnds st := by
  simp [State.domRequest, hopen, hidle, State.domCheck_setFld, hcheck]

/-- DOM_REQ as a request leaves it that the check accepts, with the domain changing. -/
def State.domChanges (s : State) (d : Nat) (up : Bool) : State :=
  ((s.setFld F.clkpwrDomReqDomain d).setDom d (.changing up)).domEnds .ok

theorem State.domEnds_code (s : State) (st : Status) : (s.domEnds st).fld F.clkpwrDomReqStatusCode = st.code := by
  rw [State.domEnds, State.setFlag, fld_setFld_ne (by decide)]
  exact fld_setFld_of_lt (f := F.clkpwrDomReqStatusCode) (by cases st <;> decide) s 0 0

theorem State.domEnds_fail (s : State) (st : Status) : (s.domEnds st).flag F.clkpwrDomReqStatusFail = (st != .ok) := by
  rw [State.flag, State.domEnds, State.setFlag, fld_setFld_self]
  cases (st != Status.ok) <;> rfl

theorem State.regsKept_domEnds (s : State) (st : Status) : regsKept [.clkpwrDomReqStatus] s (s.domEnds st) :=
  (regsKept_setFld (f := F.clkpwrDomReqStatusCode) s (by decide) _ 0 0 (by decide)).setFld (by decide) _ 0 0 (by decide)

theorem State.domCheck_stackInUse {s : State} {k : Nat} (hk : k < 8) (hpresent : s.domPresent (8 + k) = true)
    (hon : s.dom (8 + k) = .on) (huse : s.stackInUse k = true) : s.domCheck (8 + k) false = some .notPermitted := by
  have hkeeps : s.keepsOn (8 + k) = true := by
    rw [State.keepsOn, if_neg (by omega), if_pos (by omega), Nat.add_sub_cancel_left, huse]
  rw [State.domCheck, if_neg (by omega)]
  simp [hpresent, hon, hkeeps]

/-- Settles O58: a page or a window on the stack keeps it on, and a refused request writes its two registers alone. -/
theorem stackInUseStaysPowered : Obligations.StackInUseStaysPowered := by
  intro s org k hopen hidle hk hpresent hon huse
  have hin : s.stackInUse k = true := by
    rcases huse with ⟨e, hmem, p, hlo, hhi, hstack⟩ | ⟨e, hmem, hheld, hspace, a, hlo, hhi, hstack⟩
    · exact State.stackInUse_of_page hmem hlo hhi hstack
    · exact State.stackInUse_of_window hmem hheld hspace hlo hhi hstack
  have heffect : s.downRequest { org := org } (8 + k) = (s.setFld F.clkpwrDomReqDomain (8 + k)).domEnds .notPermitted := by
    rw [State.downRequest_of_open hopen, State.domRequest_refused hopen hidle (State.domCheck_stackInUse hk hpresent hon hin)]
  have hrequest : regsKept [.clkpwrDomReq, .clkpwrDomReqStatus] s (s.setFld F.clkpwrDomReqDomain (8 + k)) :=
    regsKept_setFld s (by decide) _ 0 0 (by decide)
  exact ⟨_, congrArg s.ends heffect, hon, State.domEnds_code _ _, State.domEnds_fail _ _,
    hrequest.trans ((State.regsKept_domEnds _ _).mono (by decide)), rfl⟩

end Machine
end Sys2Proof
end

section
/-! PROOFS. The governor's ladder, and power domains that change (R35 to R38, R498, R499, R502). -/

namespace Sys2Proof
namespace Machine

/-! ### STAGE -/

theorem State.butFlds_setStage (s : State) (n : Nat) : (s.setStage n).butFlds = s.butFlds := by
  simp only [State.setStage, State.butFlds_setFlag, State.butFlds_setFld]

theorem State.regsKept_setStage (s : State) (n : Nat) : regsKept [.clkpwrGovStatus] s (s.setStage n) :=
  (((regsKept_setFld (f := F.clkpwrGovStatusStage) s (by decide) _ 0 0 (by decide)).setFld (f := F.clkpwrGovStatusDDuty) (by decide) _ 0
    0 (by decide)).setFld (f := F.clkpwrGovStatusHAllow) (by decide) _ 0 0 (by decide)).setFld (by decide) _ 0 0 (by decide)

theorem State.dSteps_le (s : State) : s.dSteps ≤ 15 := by
  rw [State.dSteps]; split <;> omega

theorem State.stageMax_lt (s : State) : s.stageMax < 2 ^ 5 := by
  have := s.dSteps_le
  rw [State.stageMax, State.hSteps]; omega

/-- STAGE is the stage asked for, as far as the ladder reaches. -/
theorem State.setStage_stage (s : State) (n : Nat) : (s.setStage n).fld F.clkpwrGovStatusStage = min n s.stageMax := by
  have hfits : min n s.stageMax < 2 ^ 5 := lt_of_le_of_lt (min_le_right _ _) s.stageMax_lt
  simp (disch := decide) only [State.setStage, State.setFlag, fld_setFld_ne]
  exact fld_setFld_of_lt (f := F.clkpwrGovStatusStage) hfits s 0 0

/-- A field of GOV_STATUS that the ladder does not show. -/
theorem State.fld_setStage_ne {f : Fld} {e : Nat} (hstage : F.clkpwrGovStatusStage.apart 0 f e = true)
    (hduty : F.clkpwrGovStatusDDuty.apart 0 f e = true) (hallow : F.clkpwrGovStatusHAllow.apart 0 f e = true)
    (hhalf : F.clkpwrGovStatusPHalf.apart 0 f e = true) (s : State) (n o : Nat) : (s.setStage n).fld f o e = s.fld f o e := by
  simp only [State.setStage, State.setFlag, fld_setFld_ne hhalf, fld_setFld_ne hallow, fld_setFld_ne hduty, fld_setFld_ne hstage]

theorem State.butFlds_restage (s : State) (d : Nat) : (s.restage d).butFlds = s.butFlds := by
  rw [State.restage]
  split
  · exact s.butFlds_setStage _
  · rfl

theorem State.regsKept_restage (s : State) (d : Nat) : regsKept [.clkpwrGovStatus] s (s.restage d) := by
  rw [State.restage]
  split
  · exact s.regsKept_setStage _
  · exact regsKept_refl _ s

theorem State.restage_of_le {s : State} {d : Nat} (h : 8 ≤ d) : s.restage d = s := if_neg (by omega)

/-! ### Requests that are carried out -/

theorem State.domRequest_accepted {s : State} {org : Origin} {d : Nat} {up : Bool} (hopen : s.dcsOpen org 0x20010 = true)
    (hidle : s.domBusy = false) (hcheck : s.domCheck d up = none) (hlow : up = false → d < 16) :
    s.domRequest org d up = (s.domChanges d up).restage d := by
  have hlane : ¬ (16 ≤ d ∧ d < 20 ∧ (!up) = true) := fun ⟨h, _, hdown⟩ => by have := hlow (by simpa using hdown); omega
  have hport : ¬ (20 ≤ d ∧ (!up) = true) := fun ⟨h, hdown⟩ => by have := hlow (by simpa using hdown); omega
  simp only [State.domRequest, hopen, hidle, State.domCheck_setFld, hcheck, hlane, hport, State.domChanges]
  rfl

/-- The power-down of a lane group or of a host port takes its links down. -/
theorem State.domRequest_linksDown {s : State} {org : Origin} {d : Nat} (hopen : s.dcsOpen org 0x20010 = true)
    (hidle : s.domBusy = false) (hcheck : s.domCheck d false = none) (hd : 16 ≤ d) :
    s.domRequest org d false = (if d < 20 then (s.domChanges d false).refreshLinks
      else (portLinks (d - 20)).foldl (fun t l => t.linkLost l 3) (s.domChanges d false)) := by
  simp only [State.domRequest, hopen, hidle, State.domCheck_setFld, hcheck, State.domChanges]
  rcases Nat.lt_or_ge d 20 with h | h
  · simp [hd, h, State.restage_of_le (show 8 ≤ d by omega)]
  · simp [h, Nat.not_lt.2 h, State.restage_of_le (show 8 ≤ d by omega)]

theorem State.domCheck_up {s : State} {d : Nat} (hd : d < 24) (hpresent : s.domPresent d = true) (hmay : d ∈ s.img.mayOn)
    (hoff : s.dom d = .off) : s.domCheck d true = none := by
  simp [State.domCheck, Nat.not_le.2 hd, hpresent, hmay, hoff]

theorem State.domCheck_down {s : State} {d : Nat} (hd : d < 24) (hpresent : s.domPresent d = true) (hkeeps : s.keepsOn d = false)
    (hon : s.dom d = .on) : s.domCheck d false = none := by
  simp [State.domCheck, Nat.not_le.2 hd, hpresent, hkeeps, hon]

theorem State.domCheck_absent {s : State} {d : Nat} (hd : d < 24) (habsent : s.domPresent d = false) (up : Bool) :
    s.domCheck d up = some .unitAbsent := by
  simp [State.domCheck, Nat.not_le.2 hd, habsent]

/-- What a domain that begins to change shows: its own state, the status OK, and nothing else of memory or of other domains. -/
theorem State.domChanges_restage (s : State) (d : Nat) (up : Bool) :
    ((s.domChanges d up).restage d).dom d = .changing up ∧
      ((s.domChanges d up).restage d).fld F.clkpwrDomReqStatusCode = Status.ok.code ∧
      (∀ i, i ≠ d → ((s.domChanges d up).restage d).dom i = s.dom i) ∧ memKept s ((s.domChanges d up).restage d) := by
  have hrest := (s.domChanges d up).butFlds_restage d
  have hdom : ∀ i, ((s.domChanges d up).restage d).dom i = if i = d then .changing up else s.dom i := fun i =>
    (dom_of_butFlds hrest i).trans (State.dom_setDom _ d i _)
  have hmem : ((s.domChanges d up).restage d).mem = (s.domChanges d up).mem := mem_of_butFlds hrest
  refine ⟨(hdom d).trans (if_pos rfl), ?_, fun i hi => (hdom i).trans (if_neg hi), memKept_of_mem_eq hmem⟩
  exact ((s.domChanges d up).regsKept_restage d F.clkpwrDomReqStatusCode 0 0 (by decide) (by decide)).trans (State.domEnds_code _ _)

/-! ### The end of a change -/

theorem State.butFlds_setPll (s : State) (d : Nat) (v : Bool) : (s.setPll d v).butFlds = s.butFlds := by
  unfold State.setPll; split_ifs <;> rfl

theorem State.butFlds_applyRwl (s : State) (rs : List (Reg × Nat × Nat)) (p : Reg → Nat → Bool) :
    (s.applyRwl rs p).butFlds = s.butFlds := by
  refine foldl_keeps State.butFlds (fun t x => ?_) rs s
  split
  · exact foldl_keeps State.butFlds (fun u f => foldl_keeps State.butFlds (fun v e => v.butFlds_setFld f _ _ e) _ u) _ t
  · rfl

theorem State.butFlds_startTraining (s : State) (l : LinkId) : (s.startTraining l).butFlds = s.butFlds := by
  rw [State.startTraining]; split <;> rfl

/-- A domain that comes on changes no more than its state and registers. -/
theorem State.butFlds_domUp (s : State) (d : Nat) : (s.domUp d).butFlds = (s.setDom d .on).butFlds := by
  have hregs := ((s.setDom d .on).setPll d true).butFlds_applyRwl ((s.setDom d .on).setPll d true).img.rwl fun r i =>
    regDomain ((s.setDom d .on).setPll d true).fuses.variant.blkPerDist r i == some d
  have hbase := hregs.trans ((s.setDom d .on).butFlds_setPll d true)
  unfold State.domUp
  split
  · exact (foldl_keeps State.butFlds State.butFlds_startTraining _ _).trans hbase
  · exact hbase

theorem State.domUp_dom (s : State) (d : Nat) : (s.domUp d).dom d = .on := by
  rw [dom_of_butFlds (s.butFlds_domUp d), State.dom_setDom, if_pos rfl]

theorem State.domUp_domOn {s : State} {d : Nat} (hpresent : s.domPresent d = true) : (s.domUp d).domOn d = true := by
  have hkept : (s.domUp d).domPresent d = s.domPresent d := domPresent_of_butFlds (s.butFlds_domUp d) d
  rw [State.domOn, hkept, hpresent, s.domUp_dom]
  rfl

/-- A read of a map from which entries at other keys were taken. -/
theorem AMap.find_filter_of_key {α : Type} (p : Nat → Bool) (m : AMap α) {i : Nat} (h : p i = true) :
    AMap.find (m.filter fun e => p e.1) i = AMap.find m i := by
  induction m with
  | nil => rfl
  | cons e m ih =>
    obtain ⟨k, v⟩ := e
    by_cases hik : i = k
    · subst hik; simp [AMap.find, h]
    · by_cases hk : p k = true
      · simp [AMap.find, hk, hik, ih]
      · simp [AMap.find, hk, hik, ih]

theorem readByte_filter {m : List Host.Cell} (p : Nat → Bool) {c : Nat} (h : p c = true) :
    readByte (m.filter fun e => p e.1) c = readByte m c := by
  rw [readByte, readByte, AMap.look, AMap.look]
  exact congrArg (Option.getD · _) (AMap.find_filter_of_key p m h)

/-- The device's own state and the memory. -/
def State.devMem (s : State) : DevCtl × List Host.Cell := (s.dev, s.mem)

theorem State.devMem_of_butFlds {s t : State} (h : t.butFlds = s.butFlds) : t.devMem = s.devMem :=
  (congrArg State.devMem h : t.butFlds.devMem = s.butFlds.devMem)

theorem State.devMem_setBlk (s : State) (b : Nat) (x : Blk) : (s.setBlk b x).devMem = s.devMem := rfl

theorem State.devMem_carry (s t : State) (f : Fld) (o : Nat) : (s.carry t f o).devMem = t.devMem := rfl

theorem State.devMem_keepOut (s t : State) : (s.keepOut t).devMem = t.devMem :=
  (foldl_keeps State.devMem (fun u d => s.devMem_carry u F.blkDistStatusInService d) _ _).trans
    (foldl_keeps State.devMem (fun u (e : Nat × Blk) => u.devMem_setBlk e.1 { state := .out, lastStatus := e.2.lastStatus }) _ t)

theorem State.butFlds_resetReg (s : State) (r : Reg) (o : Nat) : (s.resetReg r o).butFlds = s.butFlds := rfl

theorem State.butFlds_resetRegs (s : State) (rs : List Reg) (o : Nat) : (s.resetRegs rs o).butFlds = s.butFlds :=
  foldl_keeps State.butFlds (fun t r => t.butFlds_resetReg r o) rs s

/-- What a domain that is switched off loses lies in no other domain's state, and of the memory only on its own stack. -/
theorem State.domLoses_kept (s : State) (d : Nat) :
    (s.domLoses d).dev = s.dev ∧
      ∀ c, d < 8 ∨ 16 ≤ d ∨ stackOf c ≠ d - 8 → readByte (s.domLoses d).mem c = readByte s.mem c := by
  have hregs : ((s.resetDomRegs d).setPll d false).devMem = s.devMem :=
    State.devMem_of_butFlds ((s.resetDomRegs d).butFlds_setPll d false)
  have hkept : ∀ {t : State}, t.devMem = s.devMem →
      t.dev = s.dev ∧ ∀ c, d < 8 ∨ 16 ≤ d ∨ stackOf c ≠ d - 8 → readByte t.mem c = readByte s.mem c := fun h =>
    ⟨congrArg Prod.fst h, fun c _ => congrArg (fun p => readByte p.2 c) h⟩
  unfold State.domLoses
  split_ifs with hdist hstack hlane
  · let t : State := (s.resetDomRegs d).setPll d false
    have hblks : ((List.range t.fuses.variant.blkPerDist).foldl (fun (u : State) i =>
        u.resetRegs [.seqfSample, .seqfSampleIter, .seqfCvtFail] (d * t.fuses.variant.blkPerDist + i)) t).devMem = t.devMem :=
      foldl_keeps State.devMem (fun u i => State.devMem_of_butFlds (u.butFlds_resetRegs _ _)) _ t
    exact hkept ((s.devMem_keepOut _).trans (hblks.trans hregs))
  · refine ⟨congrArg Prod.fst hregs, fun c hc => ?_⟩
    have hother : stackOf c ≠ d - 8 := by omega
    exact (readByte_filter (fun a => stackOf a != d - 8) (by simpa using hother)).trans (congrArg (fun p => readByte p.2 c) hregs)
  · exact hkept hregs
  · exact hkept hregs

theorem State.domLoses_dom (s : State) (d i : Nat) : (s.domLoses d).dom i = s.dom i := by
  rw [State.dom, (s.domLoses_kept d).1, ← State.dom]

/-! ### DOMAIN_SETTLED -/

theorem State.domSettled_up_low {s : State} {d : Nat} (hpresent : s.domPresent d = true) (hd : d < 16)
    (hchanging : s.dom d = .changing true) :
    (s.domSettled d).domOn d = true ∧ (s.domSettled d).mem = s.mem := by
  have hstage := (s.domUp d).butFlds_restage d
  have hon : ((s.domUp d).restage d).domOn d = true :=
    (congrArg (State.domOn · d) hstage : ((s.domUp d).restage d).butFlds.domOn d = (s.domUp d).butFlds.domOn d).trans
      (State.domUp_domOn hpresent)
  have hmem : ((s.domUp d).restage d).mem = s.mem :=
    (mem_of_butFlds hstage).trans (mem_of_butFlds (s.butFlds_domUp d) : _ = (s.setDom d .on).mem)
  have hlane : ¬ (16 ≤ d ∧ d < 20) := by omega
  simp only [State.domSettled, hpresent, hchanging, hlane, Bool.not_true, Bool.false_eq_true, if_false]
  split
  · exact ⟨hon, hmem⟩
  · exact ⟨hon, hmem⟩

theorem State.domSettled_up_high {s : State} {d : Nat} (hpresent : s.domPresent d = true) (hd : 16 ≤ d)
    (hchanging : s.dom d = .changing true) :
    s.domSettled d = if d < 20 then (s.domUp d).refreshLinks else s.domUp d := by
  have hstack : ¬ (8 ≤ d ∧ d < 16) := by omega
  simp [State.domSettled, hpresent, hchanging, State.restage_of_le (show 8 ≤ d by omega), hstack, hd]

theorem State.domSettled_down {s : State} {d : Nat} (hpresent : s.domPresent d = true) (hchanging : s.dom d = .changing false)
    (hworks : s.domWorks d = false) :
    s.domSettled d = if 20 ≤ d then (portLinks (d - 20)).foldl (fun t l => t.showDown l 3) ((s.setDom d .off).domLoses d)
      else (s.setDom d .off).domLoses d := by
  simp [State.domSettled, hpresent, hchanging, hworks]

theorem State.domOff_dom (s : State) (d : Nat) : ((s.setDom d .off).domLoses d).dom d = .off := by
  rw [State.domLoses_dom, State.dom_setDom, if_pos rfl]

end Machine
end Sys2Proof
end

section
/-! PROOFS. Sensors and the governor (R496, R499 to R501), and the commands of power domains, sensors and the governor together. -/

namespace Sys2Proof
namespace Machine

/-! ### Sensors -/

theorem State.govSignal_kept (s : State) : s.govSignal.flds = s.flds ∧ s.govSignal.mem = s.mem := by
  unfold State.govSignal
  split <;> simp

theorem State.emit_thermTrip (s : State) : s.emit (.pin pinThermTripN false) = { s with out := .pin pinThermTripN false :: s.out } :=
  State.emit_plain s _ rfl

theorem State.thermTrip_kept (s : State) : s.thermTrip.flds = s.flds ∧ s.thermTrip.mem = s.mem := by
  unfold State.thermTrip
  split
  · exact ⟨rfl, rfl⟩
  · split
    · exact ⟨rfl, rfl⟩
    · rw [State.emit_thermTrip]; exact ⟨rfl, rfl⟩

/-- An update that writes GOV_STATUS alone of the registers, and no memory. -/
def govStatusOnly (s t : State) : Prop := regsKept [.clkpwrGovStatus] s t ∧ t.mem = s.mem

theorem govStatusOnly.trans {s t u : State} (h₁ : govStatusOnly s t) (h₂ : govStatusOnly t u) : govStatusOnly s u :=
  ⟨h₁.1.trans h₂.1, h₂.2.trans h₁.2⟩

theorem govStatusOnly_of_eq {s t : State} (h : t.flds = s.flds ∧ t.mem = s.mem) : govStatusOnly s t :=
  ⟨regsKept_of_flds_eq _ h.1, h.2⟩

theorem govStatusOnly_setFld (s : State) {f : Fld} (hreg : f.reg ∈ [Reg.clkpwrGovStatus]) (v : Nat) (hpos : f.pos 0 < 64) :
    govStatusOnly s (s.setFld f v) :=
  ⟨regsKept_setFld s hreg v 0 0 hpos, rfl⟩

theorem govStatusOnly_setStage (s : State) (n : Nat) : govStatusOnly s (s.setStage n) :=
  ⟨s.regsKept_setStage n, mem_of_butFlds (s.butFlds_setStage n)⟩

/-- THERMAL and HOTTEST as the sensors have them, and the windows of heat counted from the first. -/
def State.heatShown (s : State) : State :=
  let t := s.setFlag F.clkpwrGovStatusThermal (s.anyAbove 0)
  ({ t with gov := { s.gov with hotWins := if s.anyAbove 0 then some (s.gov.hotWins.getD 0) else none } }).setFld
    F.clkpwrGovStatusHottest (min 255 ((maxOf (((List.range 32).filter t.sensorPresent).map t.sensor)).getD 0 / 4).toNat)

/-- CRIT set and signalled, unless it is set. -/
def State.critRaised (s : State) : State :=
  if s.flag F.clkpwrGovStatusCrit then s else (s.setFlag F.clkpwrGovStatusCrit true).govSignal

/-- The last stage of the ladder where a die is above 105 °C and the governor runs. -/
def State.critJudged (s : State) : State := if s.governs ∧ s.dieAbove 105 then (s.setStage s.stageMax).critRaised else s

theorem State.judgeHeat_eq (s : State) :
    s.judgeHeat = if s.heatShown.critJudged.dieAbove 115 then s.heatShown.critJudged.thermTrip else s.heatShown.critJudged := rfl

theorem govStatusOnly_heatShown (s : State) : govStatusOnly s s.heatShown :=
  (govStatusOnly_setFld s (f := F.clkpwrGovStatusThermal) (by decide) _ (by decide)).trans
    (govStatusOnly_setFld _ (f := F.clkpwrGovStatusHottest) (by decide) _ (by decide))

theorem govStatusOnly_critRaised (s : State) : govStatusOnly s s.critRaised := by
  unfold State.critRaised
  split
  · exact govStatusOnly_of_eq ⟨rfl, rfl⟩
  · exact (govStatusOnly_setFld s (f := F.clkpwrGovStatusCrit) (by decide) _ (by decide)).trans
      (govStatusOnly_of_eq (State.govSignal_kept _))

theorem govStatusOnly_critJudged (s : State) : govStatusOnly s s.critJudged := by
  unfold State.critJudged
  split
  · exact (govStatusOnly_setStage s _).trans (govStatusOnly_critRaised _)
  · exact govStatusOnly_of_eq ⟨rfl, rfl⟩

theorem govStatusOnly_judgeHeat (s : State) : govStatusOnly s s.judgeHeat := by
  have hcrit := (govStatusOnly_heatShown s).trans (govStatusOnly_critJudged _)
  rw [State.judgeHeat_eq]
  split
  · exact hcrit.trans (govStatusOnly_of_eq (State.thermTrip_kept _))
  · exact hcrit

/-- A sensor's value, with its offset, in TEMP and MAX, and that the sensor has been read since the start. -/
def State.sensorStored (s : State) (n : Nat) (v : Int) : State :=
  { (s.setFld F.clkpwrTempTemp (ofSigned 16 v) n).setFld F.clkpwrTempMax (if s.gov.fresh.contains n then
      ofSigned 16 (max (toSigned 16 (s.fld F.clkpwrTempMax n)) v) else ofSigned 16 v) n with
    gov := { s.gov with fresh := if s.gov.fresh.contains n then s.gov.fresh else s.gov.fresh ++ [n] } }

/-- The temperature and the thermal level of a stack from its own sensor. -/
def State.stackHeat (s : State) (n : Nat) (c : Int) : State :=
  if 32 ≤ n then
    (s.setFld F.hbmStatusTemp (min 255 c.toNat) (n - 32)).setFld F.hbmStatusLevel (stackLevel (s.fld F.hbmStatusLevel (n - 32)) c) (n - 32)
  else s

theorem State.sensorUpdate_of_present {s : State} {n : Nat} (hpresent : s.sensorPresent n = true) (hpowered : s.powered = true)
    (v : Int) : s.sensorUpdate n v =
      ((s.sensorStored n (v + s.sensorOffset n)).stackHeat n ((v + s.sensorOffset n) / 4)).judgeHeat := by
  have hon : ¬ ((!s.sensorPresent n) = true ∨ (!s.powered) = true) := by simp [hpresent, hpowered]
  exact if_neg hon

theorem State.sensorStored_temp (s : State) (n : Nat) (v : Int) : (s.sensorStored n v).fld F.clkpwrTempTemp n = ofSigned 16 v := by
  have hmax : (s.sensorStored n v).fld F.clkpwrTempTemp n = (s.setFld F.clkpwrTempTemp (ofSigned 16 v) n).fld F.clkpwrTempTemp n :=
    fld_setFld_ne (by decide) _ _ n n
  rw [hmax, fld_setFld_of_lt (ofSigned_lt 16 v)]

theorem State.stackHeat_kept (s : State) (n : Nat) (c : Int) :
    (s.stackHeat n c).fld F.clkpwrTempTemp n = s.fld F.clkpwrTempTemp n ∧ (s.stackHeat n c).mem = s.mem := by
  unfold State.stackHeat
  split
  · exact ⟨(fld_setFld_ne (by decide) _ _ _ n).trans (fld_setFld_ne (by decide) _ _ _ n), rfl⟩
  · exact ⟨rfl, rfl⟩

/-! ### The governor -/

/-- What a window of the governor counts: its power shown, windows over the limit and windows throttled. -/
def State.windowCounted (s : State) (p : Nat) : State :=
  let t := s.setFld F.clkpwrGovStatusPkgW (min p 0xFFFF)
  let t := if min (s.fld F.clkpwrGovCfgPkgLimitW) s.fuses.variant.limitW < p then t.countSat F.clkpwrGovCntOver else t
  if 0 < s.fld F.clkpwrGovStatusStage then t.countSat F.clkpwrGovCntThrottled else t

theorem regsKept.countSat {rs : List Reg} {s t : State} (h : regsKept rs s t) {f : Fld} (hreg : f.reg ∈ rs) (hpos : f.pos 0 < 64) :
    regsKept rs s (t.countSat f) :=
  h.setFld hreg _ 0 0 hpos

theorem State.windowCounted_butFlds (s : State) (p : Nat) : (s.windowCounted p).butFlds = s.butFlds := by
  unfold State.windowCounted
  dsimp only
  split_ifs <;> rfl

theorem State.regsKept_windowCounted (s : State) (p : Nat) : regsKept [.clkpwrGovStatus, .clkpwrGovCnt] s (s.windowCounted p) := by
  have hpower : regsKept [.clkpwrGovStatus, .clkpwrGovCnt] s (s.setFld F.clkpwrGovStatusPkgW (min p 0xFFFF)) :=
    regsKept_setFld s (by decide) _ 0 0 (by decide)
  have hover := hpower.countSat (f := F.clkpwrGovCntOver) (by decide) (by decide)
  unfold State.windowCounted
  dsimp only
  split_ifs
  · exact hover.countSat (by decide) (by decide)
  · exact hpower.countSat (by decide) (by decide)
  · exact hover
  · exact hpower

theorem State.windowCounted_power (s : State) (p : Nat) : (s.windowCounted p).fld F.clkpwrGovStatusPkgW = min p 0xFFFF := by
  have hpower : (s.setFld F.clkpwrGovStatusPkgW (min p 0xFFFF)).fld F.clkpwrGovStatusPkgW = min p 0xFFFF :=
    fld_setFld_of_lt (f := F.clkpwrGovStatusPkgW) (lt_of_le_of_lt (min_le_right _ _) (by decide)) s 0 0
  unfold State.windowCounted
  dsimp only
  split_ifs <;> simp (disch := decide) only [State.countSat, fld_setFld_ne, hpower]

/-- The ladder's length is set by GOV_CFG and the District domains that are on. -/
theorem State.stageMax_eq {s t : State} (hdom : ∀ i, t.domOn i = s.domOn i) {rs : List Reg} (hkept : regsKept rs s t)
    (hcfg : Reg.clkpwrGovCfg ∉ rs) : t.stageMax = s.stageMax := by
  have hd : t.fld F.clkpwrGovCfgDFloor = s.fld F.clkpwrGovCfgDFloor := hkept _ 0 0 (by decide) hcfg
  have hh : t.fld F.clkpwrGovCfgHFloor = s.fld F.clkpwrGovCfgHFloor := hkept _ 0 0 (by decide) hcfg
  rw [State.stageMax, State.stageMax, State.dSteps, State.dSteps, State.hSteps, State.hSteps, hd, hh, funext hdom]

/-- The stages that heat adds at the end of a window: one at every hundredth in a row. -/
def heatStages (wins : Option Nat) : Nat :=
  match wins with
  | some n => b2n (n % 100 == 0)
  | none => 0

/-- The stages that a window of a mean power adds: one for each 10 W begun beyond the limit, and that of heat. -/
def State.stagesUp (s : State) (p : Nat) : Nat :=
  (p - min (s.fld F.clkpwrGovCfgPkgLimitW) s.fuses.variant.limitW + 9) / 10 + heatStages (s.gov.hotWins.map (· + 1))

/-- A window counted and no calm window in a row (R499). -/
def State.windowRaised (s : State) (p : Nat) : State :=
  { s.windowCounted p with gov := { s.gov with hotWins := s.gov.hotWins.map (· + 1), calm := 0 } }

theorem State.windowRaised_flds (s : State) (p : Nat) : (s.windowRaised p).flds = (s.windowCounted p).flds := rfl

theorem State.regsKept_windowRaised (s : State) (p : Nat) : regsKept [.clkpwrGovStatus, .clkpwrGovCnt] s (s.windowRaised p) :=
  (s.regsKept_windowCounted p).trans (regsKept_of_flds_eq _ (s.windowRaised_flds p))

theorem State.windowRaised_stageMax (s : State) (p : Nat) : (s.windowRaised p).stageMax = s.stageMax := by
  refine State.stageMax_eq (fun i => ?_) (s.regsKept_windowCounted p) (by decide)
  exact (congrArg (State.domOn · i) (s.windowCounted_butFlds p) : (s.windowCounted p).butFlds.domOn i = s.butFlds.domOn i)

/-- A window over the limit, or at every hundredth of heat, raises STAGE. -/
theorem State.governorWindow_raises {s : State} {p : Nat} (hgov : s.governs = true) (hup : 0 < s.stagesUp p) :
    s.governorWindow p = (s.windowRaised p).setStage (min (s.fld F.clkpwrGovStatusStage + s.stagesUp p) s.stageMax) := by
  have hcounted : (s.windowCounted p).gov = s.gov :=
    (congrArg State.gov (s.windowCounted_butFlds p) : (s.windowCounted p).butFlds.gov = s.butFlds.gov)
  have hrun : ¬ (!s.governs) = true := by simp [hgov]
  rw [← s.windowRaised_stageMax p]
  simp only [State.windowRaised, State.stagesUp, ← hcounted] at hup ⊢
  exact (if_neg hrun).trans (if_pos hup)

/-- The state after a window that raises STAGE. -/
theorem State.governorWindow_raised {s : State} {p : Nat} (hgov : s.governs = true) (hup : 0 < s.stagesUp p) :
    (s.governorWindow p).fld F.clkpwrGovStatusStage = min (s.fld F.clkpwrGovStatusStage + s.stagesUp p) s.stageMax ∧
      (s.governorWindow p).gov.hotWins = s.gov.hotWins.map (· + 1) ∧
      (s.governorWindow p).fld F.clkpwrGovStatusPkgW = min p 0xFFFF ∧
      regsKept [.clkpwrGovStatus, .clkpwrGovCnt] s (s.governorWindow p) ∧ memKept s (s.governorWindow p) := by
  have hrest := (s.windowRaised p).butFlds_setStage (min (s.fld F.clkpwrGovStatusStage + s.stagesUp p) s.stageMax)
  have hmem : (s.windowRaised p).mem = s.mem := (mem_of_butFlds (s.windowCounted_butFlds p) : (s.windowCounted p).mem = s.mem)
  rw [State.governorWindow_raises hgov hup]
  refine ⟨?_, congrArg (fun t : State => t.gov.hotWins) hrest, ?_, ?_, memKept_of_mem_eq ((mem_of_butFlds hrest).trans hmem)⟩
  · rw [State.setStage_stage, s.windowRaised_stageMax, min_assoc, min_self]
  · rw [State.fld_setStage_ne (by decide) (by decide) (by decide) (by decide)]
    exact s.windowCounted_power p
  · exact (s.regsKept_windowRaised p).trans ((State.regsKept_setStage _ _).mono (by decide))

/-! ### The commands together -/

/-- Settles O5: a request that the check accepts changes its domain alone; sensors and the governor write GOV_STATUS on top of their own
registers. -/
theorem powerAndThermalCommandsComplete : Obligations.PowerAndThermalCommandsComplete := by
  refine ⟨?_, ?_, ?_, ?_, ?_, ?_, ?_, ?_, ?_, ?_, ?_, ?_, ?_⟩
  · intro s org d hopen hidle hpresent hd hmay hoff
    have heffect := State.domRequest_accepted hopen hidle (State.domCheck_up hd hpresent hmay hoff) (fun h => nomatch h)
    exact ⟨_, congrArg s.ends heffect, s.domChanges_restage d true⟩
  · intro s org d pair hopen hidle hpresent hd hkeeps hon
    have heffect := State.domRequest_accepted hopen hidle (State.domCheck_down (by omega) hpresent hkeeps hon) (fun _ => hd)
    exact ⟨_, congrArg s.ends ((State.downRequest_of_open hopen pair d).trans heffect), s.domChanges_restage d false⟩
  · intro s org d pair hopen hidle hpresent hlo hhi hkeeps hon
    have heffect := State.domRequest_linksDown hopen hidle (State.domCheck_down hhi hpresent hkeeps hon) hlo
    exact congrArg s.ends ((State.downRequest_of_open hopen pair d).trans heffect)
  · intro s org d pair hopen hidle habsent hd
    have heffect := State.domRequest_refused hopen hidle (State.domCheck_absent hd habsent false)
    have hrequest : regsKept [.clkpwrDomReq, .clkpwrDomReqStatus] s (s.setFld F.clkpwrDomReqDomain d) :=
      regsKept_setFld s (by decide) _ 0 0 (by decide)
    exact ⟨_, congrArg s.ends ((State.downRequest_of_open hopen pair d).trans heffect), State.domEnds_code _ _, fun _ => rfl,
      hrequest.trans ((State.regsKept_domEnds _ _).mono (by decide)), rfl⟩
  · intro s d hpresent hd hchanging
    obtain ⟨hon, hmem⟩ := State.domSettled_up_low hpresent hd hchanging
    exact ⟨_, rfl, hon, memKept_of_mem_eq hmem⟩
  · intro s d hpresent hlo hhi hchanging
    exact ⟨congrArg s.ends ((State.domSettled_up_high hpresent hlo hchanging).trans (if_pos hhi)), s.domUp_dom d⟩
  · intro s d hpresent hd hchanging
    exact ⟨congrArg s.ends ((State.domSettled_up_high hpresent (by omega) hchanging).trans (if_neg (by omega))), s.domUp_dom d⟩
  · intro s d hpresent hd hchanging hworks
    have heffect := (State.domSettled_down hpresent hchanging hworks).trans (if_neg (by omega))
    exact ⟨_, congrArg s.ends heffect, s.domOff_dom d, ((s.setDom d .off).domLoses_kept d).2⟩
  · intro s d hpresent hd hchanging
    have hworks : s.domWorks d = false := by simp [State.domWorks, Nat.not_lt.2 (show 8 ≤ d by omega)]
    exact ⟨congrArg s.ends ((State.domSettled_down hpresent hchanging hworks).trans (if_pos hd)), s.domOff_dom d⟩
  · intro s n v hpresent hpowered _
    have heffect := State.sensorUpdate_of_present hpresent hpowered v
    obtain ⟨htemp, hmem⟩ := (s.sensorStored n (v + s.sensorOffset n)).stackHeat_kept n ((v + s.sensorOffset n) / 4)
    obtain ⟨hkept, hsame⟩ := govStatusOnly_judgeHeat
      ((s.sensorStored n (v + s.sensorOffset n)).stackHeat n ((v + s.sensorOffset n) / 4))
    refine ⟨_, congrArg s.ends heffect, ?_, memKept_of_mem_eq (hsame.trans hmem)⟩
    rw [hkept F.clkpwrTempTemp n 0 (by decide) (by decide), htemp, s.sensorStored_temp]
  · intro s hstate htrip
    have heffect : s.thermTrip = { s with gov := { s.gov with trip := true }, out := .pin pinThermTripN false :: s.out } := by
      unfold State.thermTrip
      split
      · next hoff => exact absurd hoff hstate
      · rw [htrip, if_neg Bool.false_ne_true, State.emit_thermTrip]
    exact ⟨_, congrArg s.ends heffect, rfl, rfl, rfl⟩
  · intro s p lim heat hgov hlim hheat hup
    have hstages : (p - lim + 9) / 10 + heat = s.stagesUp p := by
      rw [hheat, hlim, State.stagesUp]
      cases s.gov.hotWins <;> simp [heatStages, b2n]
    rw [hstages] at hup ⊢
    exact ⟨_, rfl, State.governorWindow_raised hgov hup⟩
  · intro s hgov hstage hthermal hfloor
    have heffect : s.atFloor = (s.setFlag F.clkpwrGovStatusAtFloor true).govSignal := by
      rw [State.atFloor, if_pos ⟨hgov, hstage, hthermal, by simp [hfloor]⟩]
    obtain ⟨hflds, hmem⟩ := (s.setFlag F.clkpwrGovStatusAtFloor true).govSignal_kept
    obtain ⟨hkept, hsame⟩ := (govStatusOnly_setFld s (f := F.clkpwrGovStatusAtFloor) (by decide) (b2n true) (by decide)).trans
      (govStatusOnly_of_eq ⟨hflds, hmem⟩)
    refine ⟨_, congrArg s.ends heffect, ?_, hkept, memKept_of_mem_eq hsame⟩
    rw [State.flag, State.fld, hflds, ← State.fld, State.setFlag, fld_setFld_self]
    rfl

end Machine
end Sys2Proof
end

section
/-! PROOFS. What sending on Valir links and Ethernet ports leaves as it is (R244 to R252, R286, log entry 129). -/

namespace Sys2Proof
namespace Machine

/-- The state but for register fields, outputs and byte counts, and the Valir links and Ethernet ports. -/
def State.butLinks (s : State) : State := { s with flds := [], out := [], bw := [], vl := {}, en := [] }

theorem State.butLinks_emit (s : State) (o : Output) : (s.emit o).butLinks = s.butLinks := by
  have h := congrArg State.butLinks (s.emit_rest o)
  exact h

theorem State.butLinks_setVlink (s : State) (l : Nat) (x : VLink) : (s.setVlink l x).butLinks = s.butLinks := rfl

theorem State.butLinks_vlLink (s : State) (l : Nat) (f : LinkFlit) : (s.vlLink l f).butLinks = s.butLinks :=
  (State.butLinks_emit _ _).trans (s.butLinks_setVlink l _)

theorem State.butLinks_vlPlace (s : State) (l : Nat) (f : VFlit) : (s.vlPlace l f).butLinks = s.butLinks := by
  unfold State.vlPlace
  exact (State.butLinks_emit _ _).trans (s.butLinks_setVlink l _)

theorem State.butLinks_vlTell (s : State) (l : Nat) : (s.vlTell l).butLinks = s.butLinks := by
  unfold State.vlTell
  split
  · exact s.butLinks_vlLink l _
  · rfl

theorem State.butLinks_vlFreed (s : State) (l vc n : Nat) : (s.vlFreed l vc n).butLinks = s.butLinks := by
  unfold State.vlFreed
  split
  · exact (State.butLinks_vlTell _ l).trans (s.butLinks_setVlink l _)
  · rfl

theorem State.butLinks_vlAgain (s : State) (l : Nat) (f : VFlit) (n : Nat) : (s.vlAgain l f n).butLinks = s.butLinks :=
  (State.butLinks_vlPlace _ l f).trans (s.butLinks_setVlink l _)

theorem State.butLinks_vlSendFlit (s : State) (l vc : Nat) : (s.vlSendFlit l vc).butLinks = s.butLinks := by
  unfold State.vlSendFlit
  dsimp only
  split
  · rfl
  · split
    · exact (State.butLinks_vlFreed _ _ _ _).trans ((State.butLinks_vlPlace _ l _).trans (s.butLinks_setVlink l _))
    · exact (State.butLinks_vlPlace _ l _).trans (s.butLinks_setVlink l _)

theorem State.butLinks_vlPump (l n : Nat) (s : State) : (s.vlPump l n).butLinks = s.butLinks := by
  induction n generalizing s with
  | zero => rfl
  | succ n ih =>
    rw [State.vlPump]
    split
    · rfl
    · split
      · rfl
      · split
        · exact (ih _).trans (s.butLinks_setVlink l _)
        · split
          · exact (ih _).trans (s.butLinks_vlLink l _)
          · split
            · exact (ih _).trans (s.butLinks_vlAgain l _ _)
            · exact (ih _).trans (s.butLinks_vlSendFlit l _)

theorem State.butLinks_vlSend (s : State) (l : Nat) : (s.vlSend l).butLinks = s.butLinks := by
  unfold State.vlSend
  dsimp only
  split
  · exact (State.butLinks_setVlink _ l _).trans (State.butLinks_vlPump l 24 s)
  · exact State.butLinks_vlPump l 24 s

theorem State.butLinks_vlParams (l n : Nat) (s : State) : (s.vlParams l n).butLinks = s.butLinks := by
  induction n generalizing s with
  | zero => rfl
  | succ n ih =>
    rw [State.vlParams]
    split
    · exact (ih _).trans (s.butLinks_vlLink l _)
    · rfl

theorem State.butLinks_vlEdge (s : State) : s.vlEdge.butLinks = s.butLinks := by
  refine foldl_keeps State.butLinks (fun t l => ?_) _ s
  split
  · exact State.butLinks_vlParams l 24 t
  · split
    · exact t.butLinks_vlSend l
    · rfl

theorem State.butLinks_setEport (s : State) (p : Nat) (x : EPort) : (s.setEport p x).butLinks = s.butLinks := rfl

theorem State.butLinks_enCount (s : State) (p i n : Nat) : (s.enCount p i n).butLinks = s.butLinks := rfl

theorem State.butLinks_wireDone (s : State) (p : Nat) (w : WireFrame) : (s.wireDone p w).butLinks = s.butLinks := by
  rw [State.wireDone, State.butLinks_emit, State.butLinks_enCount, State.butLinks_enCount, State.butLinks_setEport]

theorem State.butLinks_wireSent (s : State) (p : Nat) : (s.wireSent p).butLinks = s.butLinks := by
  unfold State.wireSent
  split
  · split
    · rfl
    · exact s.butLinks_wireDone p _
  · rfl

theorem State.butLinks_rxDrain (s : State) (p : Nat) : (s.rxDrain p).butLinks = s.butLinks := by
  unfold State.rxDrain
  dsimp only
  split
  · rfl
  · exact s.butLinks_setEport p _

theorem State.butLinks_wiresSent (s : State) : s.wiresSent.butLinks = s.butLinks :=
  foldl_keeps State.butLinks (fun t (p : Nat × EPort) => (State.butLinks_rxDrain _ p.1).trans (t.butLinks_wireSent p.1)) _ s

end Machine
end Sys2Proof
end

section
/-! PROOFS. A step: the command at the front of the queue, and the edge of CLK_T on an empty queue (R28, R30, R512; log entries 4, 28). -/

namespace Sys2Proof
namespace Machine

/-! ### Fabric time -/

/-- Fabric time in units of 2^-32 ns, before the rate is applied, of the fraction that an edge adds to. -/
def State.edgeSum (s : State) : Int := (s.clk.frac : Int) + (2 ^ 32 : Nat) + toSigned 32 (s.fld F.clkpwrFtRateRate)

/-- The clock after an edge of CLK_T. -/
def State.edgeClock (s : State) : ClockState :=
  let c := s.clk.move (s.edgeSum / ((2 ^ 32 : Nat) : Int))
  { c with frac := (s.edgeSum % ((2 ^ 32 : Nat) : Int)).toNat, cycles := (c.cycles + 1) % 2 ^ 64 }

theorem State.tick_eq (s : State) :
    s.tick = s.created.foldl (fun u fn => u.count fn 0x01 0) { s with clk := s.edgeClock } := rfl

theorem edgeSum_split (now sum m : Int) (hm : 0 < m) :
    ((now + sum / 2 ^ 32) % m) * 2 ^ 32 + sum % 2 ^ 32 = (now * 2 ^ 32 + sum) % (m * 2 ^ 32) := by
  have hy := Int.emod_nonneg (now + sum / 2 ^ 32) hm.ne'
  have hlt := Int.emod_lt_of_pos (now + sum / 2 ^ 32) hm
  have hdiv := Int.emod_add_mul_ediv (now + sum / 2 ^ 32) m
  have hsum : now * 2 ^ 32 + sum = ((now + sum / 2 ^ 32) % m * 2 ^ 32 + sum % 2 ^ 32) + m * 2 ^ 32 * ((now + sum / 2 ^ 32) / m) :=
    calc now * 2 ^ 32 + sum = (now + sum / 2 ^ 32) * 2 ^ 32 + sum % 2 ^ 32 := by omega
      _ = ((now + sum / 2 ^ 32) % m + m * ((now + sum / 2 ^ 32) / m)) * 2 ^ 32 + sum % 2 ^ 32 := by rw [hdiv]
      _ = _ := by ring
  rw [hsum, Int.add_mul_emod_self_left]
  exact (Int.emod_eq_of_lt (by omega) (by omega)).symm

/-- Fabric time with its fraction advances by 2^32 and the rate, modulo 2^48 s. -/
theorem State.edgeClock_time (s : State) :
    (({ s with clk := s.edgeClock } : State).nowNs : Int) * 2 ^ 32 + s.edgeClock.frac =
      ((s.nowNs : Int) * 2 ^ 32 + s.clk.frac + 2 ^ 32 + toSigned 32 (s.fld F.clkpwrFtRateRate)) % (2 ^ 48 * 1000000000 * 2 ^ 32) := by
  have hnow : (({ s with clk := s.edgeClock } : State).nowNs : Int) =
      ((s.nowNs : Int) + s.edgeSum / ((2 ^ 32 : Nat) : Int)) % ((2 ^ 48 * 1000000000 : Nat) : Int) := s.nowNs_move _
  have hfrac : (s.edgeClock.frac : Int) = s.edgeSum % ((2 ^ 32 : Nat) : Int) := Int.toNat_of_nonneg (Int.emod_nonneg _ (by decide))
  rw [hnow, hfrac]
  refine (edgeSum_split s.nowNs s.edgeSum (2 ^ 48 * 1000000000) (by decide)).trans ?_
  rw [State.edgeSum]
  push_cast
  ring_nf

/-- A fold whose every step leaves the start as it is. -/
theorem foldl_eq_self {α : Type} {f : State → α → State} {l : List α} {s : State} (h : ∀ x ∈ l, f s x = s) :
    l.foldl f s = s := by
  induction l with
  | nil => rfl
  | cons x l ih =>
    rw [List.foldl_cons, h x List.mem_cons_self]
    exact ih fun y hy => h y (List.mem_cons_of_mem x hy)

/-! ### What an edge sends and leaves as it is -/

/-- The state but for register fields, pending vectors, outputs and byte counts, which event counters write. -/
def State.butCounts (s : State) : State := { s with flds := [], msix := [], out := [], bw := [] }

theorem State.butCounts_tick (s : State) : s.tick.butCounts = ({ s with clk := s.edgeClock } : State).butCounts := by
  rw [State.tick_eq]
  exact foldl_keeps State.butCounts (fun u fn => u.count_rest fn 0x01 0 1) _ _

/-- The state but for what an edge of CLK_T may change beside the clock and the UART. -/
def State.butEdge (s : State) : State := { s with flds := [], msix := [], out := [], bw := [], vl := {}, en := [], cc := {} }

theorem State.butEdge_of_butCounts {s t : State} (h : t.butCounts = s.butCounts) : t.butEdge = s.butEdge := by
  have h := congrArg State.butEdge h
  exact h

theorem State.butEdge_of_butLinks {s t : State} (h : t.butLinks = s.butLinks) : t.butEdge = s.butEdge := by
  have h := congrArg State.butEdge h
  exact h

theorem pipe_of_butEdge {s t : State} (h : t.butEdge = s.butEdge) (k : Nat) : t.pipe k = s.pipe k := by
  have h := congrArg (State.pipe · k) h
  exact h

theorem State.butEdge_schedPick (s : State) (k : Nat) (c : List (Nat × Nat × Nat)) : (s.schedPick k c).2.butEdge = s.butEdge := by
  unfold State.schedPick
  dsimp only
  split <;> rfl

theorem State.butEdge_idlePicks (s : State) : s.idlePicks.butEdge = s.butEdge :=
  foldl_keeps State.butEdge (fun t k => t.butEdge_schedPick k []) _ s

/-- The state after an edge of CLK_T but for pipelines that recover and the UART's byte. -/
def State.edge (s : State) : State :=
  let t := s.tick.wiresSent.vlEdge
  if t.netOpen then t.idlePicks else t

theorem State.butEdge_edge (s : State) : s.edge.butEdge = ({ s with clk := s.edgeClock } : State).butEdge := by
  have hlinks : s.tick.wiresSent.vlEdge.butEdge = ({ s with clk := s.edgeClock } : State).butEdge :=
    (State.butEdge_of_butLinks ((State.butLinks_vlEdge _).trans (State.butLinks_wiresSent _))).trans
      (State.butEdge_of_butCounts s.butCounts_tick)
  unfold State.edge
  dsimp only
  split
  · exact (State.butEdge_idlePicks _).trans hlinks
  · exact hlinks

/-- The UART sends a byte that is queued. -/
def State.uartSends (s : State) : State :=
  { s with uart := { s.uart with tx := s.uart.tx.tail }
           out := (s.uart.tx.take 1).map (fun b => .uart (uartLine b)) ++ s.out }

theorem State.recoverPipe_of_idle {s : State} {k : Nat} (h : (s.pipe k).recovering = 0) : s.recoverPipe k = s := if_pos h

theorem State.idle_def (s : State) : s.idle = ((List.range 4).foldl State.recoverPipe s.edge).uartSends := by
  have hpicks : (if s.tick.wiresSent.vlEdge.netOpen then s.tick.wiresSent.vlEdge.idlePicks else s.tick.wiresSent.vlEdge) = s.edge := rfl
  unfold State.idle
  dsimp only
  rw [hpicks]
  generalize (List.range 4).foldl State.recoverPipe s.edge = t
  unfold State.uartSends
  cases htx : t.uart.tx with
  | nil =>
    change t = { t with uart := { t.uart with tx := [] } }
    rw [← htx]
  | cons b rest => exact State.emit_plain _ _ rfl

/-- With no pipeline in recovery an edge of CLK_T is what it brings to links, ports and schedulers, and the UART's byte. -/
theorem State.idle_eq {s : State} (h : ∀ k, k < 4 → (s.pipe k).recovering = 0) : s.idle = s.edge.uartSends := by
  have hpipe : ∀ k, k < 4 → s.edge.recoverPipe k = s.edge := fun k hk => by
    have hkept : s.edge.pipe k = ({ s with clk := s.edgeClock } : State).pipe k := pipe_of_butEdge s.butEdge_edge k
    exact State.recoverPipe_of_idle ((congrArg Pipeline.recovering hkept).trans (h k hk))
  rw [State.idle_def, foldl_eq_self fun k hk => hpipe k (List.mem_range.1 hk)]

theorem fields_of_butEdge {s t : State} (h : t.butEdge = s.butEdge) :
    t.clk = s.clk ∧ t.uart = s.uart ∧ t.mem = s.mem ∧ t.wins = s.wins ∧ t.qps = s.qps ∧ t.queues = s.queues ∧
      t.dev = s.dev := by
  simp only [State.butEdge, State.mk.injEq] at h
  simp only [h, and_self]

/-! ### What an edge sends -/

theorem onlySignals_refl (s : State) : onlySignals s s := ⟨[], rfl, fun _ h => nomatch h⟩

theorem onlySignals.trans {s t u : State} (h₁ : onlySignals s t) (h₂ : onlySignals t u) : onlySignals s u := by
  obtain ⟨es, hout, hes⟩ := h₁
  obtain ⟨fs, hout', hfs⟩ := h₂
  refine ⟨fs ++ es, by rw [hout', hout, List.append_assoc], fun e he => ?_⟩
  rcases List.mem_append.1 he with he | he
  · exact hfs e he
  · exact hes e he

theorem onlySignals_of_out_eq {s t : State} (h : t.out = s.out) : onlySignals s t := ⟨[], h, fun _ h => nomatch h⟩

theorem onlySignals_signal (s : State) (fn vec : Nat) : onlySignals s (s.signal fn vec) := by
  unfold State.signal
  dsimp only
  split
  · exact ⟨[.msix fn (vec % 2048)], s.emit_out _, fun e he => ⟨fn, vec % 2048, List.mem_singleton.1 he⟩⟩
  · exact onlySignals_refl s

theorem onlySignals_capture (s : State) (b : Nat) : onlySignals s (s.capture b) := onlySignals_of_out_eq (by simp)

theorem onlySignals_countOne (s : State) (fn ev idx n i : Nat) : onlySignals s (s.countOne fn ev idx n i) := by
  unfold State.countOne
  dsimp only
  have hover : onlySignals s ((s.setFld F.telfCntCount (s.fld F.telfCntCount (fn * 32 + i) + n) (fn * 32 + i)).setFlag
      F.telfCntOvf true (fn * 32 + i)) := onlySignals_of_out_eq rfl
  split_ifs
  · exact onlySignals_of_out_eq rfl
  · exact onlySignals_of_out_eq rfl
  · exact (hover.trans (onlySignals_signal _ _ _)).trans (onlySignals_capture _ idx)
  · exact hover.trans (onlySignals_capture _ idx)
  · exact hover.trans (onlySignals_signal _ _ _)
  · exact hover
  · exact onlySignals_refl s

theorem onlySignals_foldl {α : Type} {f : State → α → State} (h : ∀ t x, onlySignals t (f t x)) (l : List α) (s : State) :
    onlySignals s (l.foldl f s) := by
  induction l generalizing s with
  | nil => exact onlySignals_refl s
  | cons x l ih => exact (h s x).trans (ih (f s x))

theorem onlySignals_count (s : State) (fn ev idx n : Nat) : onlySignals s (s.count fn ev idx n) := by
  unfold State.count
  split
  · exact onlySignals_refl s
  · exact onlySignals_foldl (fun t i => onlySignals_countOne t fn ev idx n i) _ s

theorem onlySignals_tick (s : State) : onlySignals s s.tick := by
  have hclock : onlySignals s { s with clk := s.edgeClock } := onlySignals_of_out_eq rfl
  rw [State.tick_eq]
  exact hclock.trans (onlySignals_foldl (fun u fn => onlySignals_count u fn 0x01 0 1) _ _)

theorem linksPorts_of_butCounts {s t : State} (h : t.butCounts = s.butCounts) : t.en = s.en ∧ t.vl = s.vl := by
  simp only [State.butCounts, State.mk.injEq] at h
  simp only [h, and_self]

theorem State.wiresSent_of_no_ports {s : State} (h : s.en = []) : s.wiresSent = s := by
  rw [State.wiresSent, h]
  rfl

/-- Links that neither exchange parameters nor are live send nothing. -/
theorem State.vlEdge_of_silent {s : State} (h : ∀ l, l < 16 → (s.vlink l).state ≠ .param ∧ s.vlLive l = false) : s.vlEdge = s := by
  refine foldl_eq_self fun l hl => ?_
  obtain ⟨hparam, hlive⟩ := h l (List.mem_range.1 hl)
  rw [if_neg hparam, hlive, if_neg Bool.false_ne_true]

theorem State.idlePicks_out (s : State) : s.idlePicks.out = s.out := by
  refine foldl_keeps State.out (fun t k => ?_) _ s
  unfold State.schedPick
  dsimp only
  split <;> rfl

/-- Without Ethernet ports in use and Valir links that send, an edge sends no more than the messages of event counters. -/
theorem onlySignals_edge {s : State} (hen : s.en = []) (hlinks : ∀ l, l < 16 → (s.vlink l).state ≠ .param ∧ s.vlLive l = false) :
    onlySignals s s.edge := by
  obtain ⟨hports, hvl⟩ := linksPorts_of_butCounts s.butCounts_tick
  have hsilent : ∀ l, l < 16 → (s.tick.vlink l).state ≠ .param ∧ s.tick.vlLive l = false := fun l hl => by
    rw [State.vlLive, State.vlink, hvl]
    exact hlinks l hl
  have hedge : s.tick.wiresSent.vlEdge = s.tick := by
    rw [State.wiresSent_of_no_ports (hports.trans hen), State.vlEdge_of_silent hsilent]
  unfold State.edge
  rw [hedge]
  dsimp only
  split
  · exact (onlySignals_tick s).trans (onlySignals_of_out_eq (State.idlePicks_out _))
  · exact onlySignals_tick s

/-! ### The idle step -/

theorem State.edge_kept (s : State) :
    s.edge.clk = s.edgeClock ∧ s.edge.uart = s.uart ∧ s.edge.mem = s.mem ∧ s.edge.wins = s.wins ∧ s.edge.qps = s.qps ∧
      s.edge.queues = s.queues ∧ s.edge.dev = s.dev :=
  fields_of_butEdge s.butEdge_edge

theorem State.uartSends_kept (s : State) :
    s.uartSends.clk = s.clk ∧ s.uartSends.uart = { s.uart with tx := s.uart.tx.tail } ∧ s.uartSends.mem = s.mem ∧
      s.uartSends.wins = s.wins ∧ s.uartSends.qps = s.qps ∧ s.uartSends.queues = s.queues ∧ s.uartSends.dev = s.dev :=
  ⟨rfl, rfl, rfl, rfl, rfl, rfl, rfl⟩

theorem State.uartSends_out (s : State) :
    s.uartSends.out = (s.uart.tx.take 1).map (fun b => .uart (uartLine b)) ++ s.out := rfl

theorem step_of_no_command {s : State} (hqueue : s.pending = []) (hpipes : ∀ k, k < 4 → (s.pipe k).recovering = 0) :
    step s = .next (s.after s.edge.uartSends) := by
  rw [step, hqueue, State.answer, State.idle_eq hpipes]

/-- Fabric time is in the clock alone. -/
theorem nowNs_of_clk {s t : State} (h : t.clk = s.clk) : t.nowNs = s.nowNs := by rw [State.nowNs, State.nowNs, h]

/-- Settles O51: an edge of CLK_T moves the clock once, and what links, ports and schedulers do leaves the clock, the UART, memory and the
contexts alone. -/
theorem stepRunsFrontCommand : Obligations.StepRunsFrontCommand := by
  refine ⟨?_, ?_, ?_⟩
  · intro s c rest hqueue
    rw [step, hqueue]
  · intro s hqueue hpipes
    obtain ⟨hclk, huart, hmem, hwins, hqps, hqueues, hdev⟩ := s.edge_kept
    obtain ⟨hclk', huart', hmem', hwins', hqps', hqueues', hdev'⟩ := s.edge.uartSends_kept
    rw [huart] at huart'
    rw [step_of_no_command hqueue hpipes]
    generalize s.edge.uartSends = u at *
    refine ⟨_, rfl, ?_, huart', ?_, hwins'.trans hwins, hqps'.trans hqps, hqueues'.trans hqueues, hdev'.trans hdev, hqueue⟩
    · have hclock : (s.after u).clk = s.edgeClock := hclk'.trans hclk
      rw [nowNs_of_clk (s := { s with clk := s.edgeClock }) hclock, hclock]
      exact s.edgeClock_time
    · exact memKept_after s u (memKept_of_mem_eq (hmem'.trans hmem))
  · intro s hqueue hpipes hen hlinks
    obtain ⟨_, huart, _⟩ := s.edge_kept
    obtain ⟨es, hout, hes⟩ := onlySignals_edge hen hlinks
    have hsent := s.edge.uartSends_out
    rw [huart, hout] at hsent
    rw [step_of_no_command hqueue hpipes]
    generalize s.edge.uartSends = u at *
    exact ⟨_, rfl, es, hes, hsent⟩

end Machine
end Sys2Proof
end

section
/-! PROOFS. What an update of one Valir link leaves as it is, and what a link flit carries (R247, R249, R250). -/

namespace Sys2Proof
namespace Machine

/-! ### Updates of one link -/

/-- The registers that an update of a Valir link may write. -/
def linkRegs : List Reg := [.vlLinkStatus, .vlLive, .vlLinkRetry, .vlLinkFec]

/-- Of the Valir links l alone changes, of the registers those of the link alone, and of the rest of the state nothing. -/
structure onLink (l : Nat) (s t : State) : Prop where
  others : ∀ k, k ≠ l → t.vlink k = s.vlink k
  regs : regsKept linkRegs s t
  rest : t.butLinks = s.butLinks

theorem onLink.trans {l : Nat} {s t u : State} (h₁ : onLink l s t) (h₂ : onLink l t u) : onLink l s u where
  others k hk := (h₂.others k hk).trans (h₁.others k hk)
  regs := h₁.regs.trans h₂.regs
  rest := h₂.rest.trans h₁.rest

theorem onLink.clk {l : Nat} {s t : State} (h : onLink l s t) : t.clk = s.clk := by
  have h := congrArg State.clk h.rest
  exact h

theorem onLink.dev {l : Nat} {s t : State} (h : onLink l s t) : t.dev = s.dev := by
  have h := congrArg State.dev h.rest
  exact h

theorem onLink.memKept {l : Nat} {s t : State} (h : onLink l s t) : memKept s t := by
  have h := congrArg State.mem h.rest
  exact memKept_of_mem_eq h

theorem onLink_setFld (l : Nat) (s : State) {f : Fld} (hreg : f.reg ∈ linkRegs) (v o : Nat) (hpos : f.pos 0 < 64) :
    onLink l s (s.setFld f v o) where
  others _ _ := rfl
  regs := regsKept_setFld s hreg v o 0 hpos
  rest := rfl

theorem State.regsKept_setVlink (s : State) (l : Nat) (x : VLink) : regsKept [.vlLinkStatus, .vlLive] s (s.setVlink l x) := by
  have hlinks : regsKept [.vlLinkStatus, .vlLive] s { s with vl := { s.vl with links := AMap.save {} s.vl.links l x } } :=
    regsKept_of_flds_eq _ rfl
  exact ((hlinks.setFld (f := F.vlLinkStatusState) (by decide) _ l 0 (by decide)).setFld (f := F.vlLinkStatusLanes) (by decide) _ l 0
    (by decide)).setFld (f := F.vlLiveLive) (by decide) _ 0 0 (by decide)

theorem onLink_setVlink (l : Nat) (s : State) (x : VLink) : onLink l s (s.setVlink l x) where
  others _ hk := s.vlink_setVlink_ne l x hk
  regs := (s.regsKept_setVlink l x).mono (by decide)
  rest := s.butLinks_setVlink l x

theorem State.vlLink_eq (s : State) (l : Nat) (f : LinkFlit) :
    s.vlLink l f = { s.setVlink l ((s.vlink l).flitSent s.clk.cycles) with
      out := .vlFlit l ((s.vlink l).reach s.clk.cycles).slot f :: s.out } :=
  State.emit_plain _ _ rfl

theorem State.vlink_vlLink (s : State) (l : Nat) (f : LinkFlit) : (s.vlLink l f).vlink l = (s.vlink l).flitSent s.clk.cycles := by
  rw [State.vlLink_eq]
  exact s.vlink_setVlink l _

theorem State.vlLink_out (s : State) (l : Nat) (f : LinkFlit) :
    (s.vlLink l f).out = .vlFlit l ((s.vlink l).reach s.clk.cycles).slot f :: s.out := by
  rw [State.vlLink_eq]

theorem onLink_vlLink (l : Nat) (s : State) (f : LinkFlit) : onLink l s (s.vlLink l f) := by
  have h := onLink_setVlink l s ((s.vlink l).flitSent s.clk.cycles)
  rw [State.vlLink_eq]
  exact ⟨h.others, h.regs, h.rest⟩

/-! ### Link flits -/

/-- What a link flit carries is the link's FSEQ expected and flits freed, and the state of the device. -/
theorem ownFlit_congr {l : Nat} {s t : State} (hregs : regsKept linkRegs s t) (hdev : t.dev = s.dev)
    (hfseq : (t.vlink l).rxFseq = (s.vlink l).rxFseq) (hfreed : (t.vlink l).freed = (s.vlink l).freed) :
    t.ownFlit l = s.ownFlit l := by
  have himg : t.fld F.imgStatusAccepted = s.fld F.imgStatusAccepted := hregs _ 0 0 (by decide) (by decide)
  rw [State.ownFlit, State.ownFlit, hfseq, hfreed, hdev, State.flag, State.flag, himg]

/-! ### A RETRY_REQ (R251) -/

/-- A link after a RETRY_REQ that is not the eighth in a row. -/
def VLink.retried (x : VLink) (cycles : Nat) : VLink :=
  { x.flitSent cycles with waitReplay := true, retries := x.retries + 1 }

theorem VLink.flitSent_retries (x : VLink) (cycles : Nat) : (x.flitSent cycles).retries = x.retries := by
  unfold VLink.flitSent VLink.reach; split <;> rfl

/-- RETRY_REQ with the FSEQ expected. -/
def State.retryFlit (s : State) (l : Nat) : LinkFlit := { s.ownFlit l with ltype := 1, req := (s.vlink l).rxFseq }

/-- A RETRY_REQ counted and sent. -/
def State.retrySent (s : State) (l : Nat) : State := (s.countSat F.vlLinkRetryRetries l).vlLink l (s.retryFlit l)

theorem onLink_countSat (l : Nat) (s : State) {f : Fld} (hreg : f.reg ∈ linkRegs) (o : Nat) (hpos : f.pos 0 < 64) :
    onLink l s (s.countSat f o) :=
  onLink_setFld l s hreg _ o hpos

theorem onLink_retrySent (l : Nat) (s : State) : onLink l s (s.retrySent l) :=
  (onLink_countSat l s (f := F.vlLinkRetryRetries) (by decide) l (by decide)).trans (onLink_vlLink l _ _)

theorem State.vlink_retrySent (s : State) (l : Nat) : (s.retrySent l).vlink l = (s.vlink l).flitSent s.clk.cycles :=
  (s.countSat F.vlLinkRetryRetries l).vlink_vlLink l _

/-- Where it is not the eighth in a row, the link awaits REPLAY_START and counts the request. -/
theorem State.vlRetry_eq {s : State} {l : Nat} (hretries : (s.vlink l).retries < 7) :
    s.vlRetry l = (s.retrySent l).setVlink l ((s.vlink l).retried s.clk.cycles) := by
  have hfew : ¬ 8 ≤ ((s.vlink l).flitSent s.clk.cycles).retries + 1 := by rw [VLink.flitSent_retries]; omega
  have hretry : s.vlRetry l = if 8 ≤ ((s.retrySent l).vlink l).retries + 1
      then (s.retrySent l).vlDown l .retrain ((s.retrySent l).vlink l).lanes
      else (s.retrySent l).setVlink l { (s.retrySent l).vlink l with
        waitReplay := true, retries := ((s.retrySent l).vlink l).retries + 1 } := rfl
  rw [hretry, s.vlink_retrySent, if_neg hfew, VLink.flitSent_retries]
  rfl

/-- Updating a link leaves the fields that are not its state. -/
theorem State.fld_setVlink_ne {f : Fld} {e : Nat} (hstate : F.vlLinkStatusState.apart 0 f e = true)
    (hlanes : F.vlLinkStatusLanes.apart 0 f e = true) (hlive : F.vlLiveLive.apart 0 f e = true) (s : State) (l : Nat) (x : VLink)
    (o : Nat) : (s.setVlink l x).fld f o e = s.fld f o e :=
  (fld_setFld_ne hlive _ _ _ _).trans ((fld_setFld_ne hlanes _ _ _ _).trans (fld_setFld_ne hstate _ _ _ _))

theorem State.fld_vlLink_ne {f : Fld} {e : Nat} (hstate : F.vlLinkStatusState.apart 0 f e = true)
    (hlanes : F.vlLinkStatusLanes.apart 0 f e = true) (hlive : F.vlLiveLive.apart 0 f e = true) (s : State) (l : Nat) (x : LinkFlit)
    (o : Nat) : (s.vlLink l x).fld f o e = s.fld f o e := by
  rw [State.vlLink_eq]
  exact s.fld_setVlink_ne hstate hlanes hlive l _ o

theorem State.setVlink_out (s : State) (l : Nat) (x : VLink) : (s.setVlink l x).out = s.out := rfl

/-- What a link shows after a RETRY_REQ that is not the eighth in a row. -/
theorem State.vlRetry_sent {s : State} {l : Nat} (hretries : (s.vlink l).retries < 7) :
    onLink l s (s.vlRetry l) ∧ (s.vlRetry l).vlink l = (s.vlink l).retried s.clk.cycles ∧
      .vlFlit l ((s.vlink l).reach s.clk.cycles).slot (s.retryFlit l) ∈ (s.vlRetry l).out ∧
      (s.vlRetry l).fld F.vlLinkFecUncorrected l = s.fld F.vlLinkFecUncorrected l := by
  rw [State.vlRetry_eq hretries]
  refine ⟨(onLink_retrySent l s).trans (onLink_setVlink l _ _), State.vlink_setVlink _ l _, ?_, ?_⟩
  · rw [State.setVlink_out, State.retrySent, State.vlLink_out]
    exact List.mem_cons_self
  · rw [State.fld_setVlink_ne (by decide) (by decide) (by decide), State.retrySent,
      State.fld_vlLink_ne (by decide) (by decide) (by decide)]
    exact fld_setFld_ne (by decide) s _ l l

/-! ### A link leaves the live set with no packet on it (R253, R272) -/

theorem AMap.mem_of_mem_put {α : Type} {m : AMap α} {i : Nat} {x : α} {e : Nat × α} (h : e ∈ AMap.put m i x) :
    e = (i, x) ∨ e ∈ m := by
  induction m with
  | nil => exact .inl (List.mem_singleton.1 h)
  | cons d m ih =>
    obtain ⟨k, v⟩ := d
    rw [AMap.put] at h
    split_ifs at h
    · exact List.mem_cons.1 h
    · exact (List.mem_cons.1 h).imp_right (List.mem_cons_of_mem _)
    · rcases List.mem_cons.1 h with h | h
      · exact .inr (h ▸ List.mem_cons_self)
      · exact (ih h).imp_right (List.mem_cons_of_mem _)

theorem AMap.mem_of_mem_drop {α : Type} {m : AMap α} {i : Nat} {e : Nat × α} (h : e ∈ AMap.drop m i) : e ∈ m := by
  induction m with
  | nil => exact h
  | cons d m ih =>
    obtain ⟨k, v⟩ := d
    rw [AMap.drop] at h
    split_ifs at h
    · exact List.mem_cons_of_mem _ (ih h)
    · exact (List.mem_cons.1 h).elim (fun h => h ▸ List.mem_cons_self) fun h => List.mem_cons_of_mem _ (ih h)

theorem AMap.mem_of_mem_save {α : Type} [DecidableEq α] {d : α} {m : AMap α} {i : Nat} {x : α} {e : Nat × α}
    (h : e ∈ AMap.save d m i x) : e = (i, x) ∨ e ∈ m := by
  rw [AMap.save] at h
  split_ifs at h
  · exact .inr (AMap.mem_of_mem_drop h)
  · exact AMap.mem_of_mem_put h

/-- No packet of another link came on a link whose own queue is emptied. -/
theorem State.vlHolds_setVlink {s : State} {l : Nat} {x : VLink} (hholds : s.vlHolds l = false) (hqueue : x.queue = []) :
    (s.setVlink l x).vlHolds l = false := by
  rw [State.vlHolds, List.any_eq_false] at hholds ⊢
  intro e he
  rcases AMap.mem_of_mem_save he with rfl | he
  · simp [hqueue]
  · exact hholds e he

/-- A link on which no packet is leaves the live set: it takes the state, counted where it was live. -/
theorem State.vlDown_of_clear {s : State} {l : Nat} (hclear : s.vlClear l) (st : VState) (lanes : Nat) :
    s.vlDown l st lanes = if s.vlLive l then (s.setVlink l ((s.vlink l).fresh st lanes)).countSat F.vlLinkRetryDown l
      else s.setVlink l ((s.vlink l).fresh st lanes) := by
  obtain ⟨hqueue, hrx, hholds⟩ := hclear
  have hfree : ((s.setVlink l ((s.vlink l).fresh st lanes)).countSat F.vlLinkRetryDown l).vlHolds l = false :=
    State.vlHolds_setVlink hholds rfl
  rw [State.vlDown]
  dsimp only
  rw [hqueue, hrx, List.foldl_nil, List.foldl_nil, State.vlUnport, hfree, if_neg Bool.false_ne_true]

theorem State.vlDown_clear {s : State} {l : Nat} (hclear : s.vlClear l) (st : VState) (lanes : Nat) :
    onLink l s (s.vlDown l st lanes) ∧ (s.vlDown l st lanes).vlink l = (s.vlink l).fresh st lanes := by
  have hset := onLink_setVlink l s ((s.vlink l).fresh st lanes)
  have hlink := s.vlink_setVlink l ((s.vlink l).fresh st lanes)
  rw [State.vlDown_of_clear hclear]
  split
  · exact ⟨hset.trans (onLink_countSat l _ (f := F.vlLinkRetryDown) (by decide) l (by decide)), hlink⟩
  · exact ⟨hset, hlink⟩

/-! ### A codeword that cannot be corrected (R251, R253) -/

/-- A link that has counted an uncorrectable codeword in a millisecond of fabric time. -/
def VLink.worse (x : VLink) (ms : Nat) : VLink := { x with badMs := ms, badCount := if x.badMs = ms then x.badCount + 1 else 1 }

/-- The codeword counted, for the register and for the millisecond. -/
def State.badCounted (s : State) (l : Nat) : State :=
  (s.countSat F.vlLinkFecUncorrected l).setVlink l ((s.vlink l).worse (s.nowNs / 1000000))

theorem State.not_param_of_live {s : State} {l : Nat} (hlive : s.vlLive l = true) : (s.vlink l).state ≠ .param := by
  intro hparam
  rw [State.vlLive, hparam] at hlive
  exact absurd hlive (by decide)

theorem State.vlBad_live {s : State} {l : Nat} (hlive : s.vlLive l = true) :
    s.vlBad l = if 64 < ((s.vlink l).worse (s.nowNs / 1000000)).badCount then (s.badCounted l).vlDown l .retrain (s.vlink l).lanes
      else (s.badCounted l).vlRetry l := by
  rw [State.vlBad]
  dsimp only
  rw [if_neg (State.not_param_of_live hlive), hlive, if_neg (by decide)]
  rfl

theorem onLink_badCounted (l : Nat) (s : State) : onLink l s (s.badCounted l) :=
  (onLink_countSat l s (f := F.vlLinkFecUncorrected) (by decide) l (by decide)).trans (onLink_setVlink l _ _)

theorem State.vlink_badCounted (s : State) (l : Nat) : (s.badCounted l).vlink l = (s.vlink l).worse (s.nowNs / 1000000) :=
  State.vlink_setVlink _ l _

theorem State.badCounted_fec (s : State) (l : Nat) : (s.badCounted l).fld F.vlLinkFecUncorrected l =
    satAdd (2 ^ F.vlLinkFecUncorrected.width - 1) (s.fld F.vlLinkFecUncorrected l) 1 % 2 ^ F.vlLinkFecUncorrected.width := by
  rw [State.badCounted, State.fld_setVlink_ne (by decide) (by decide) (by decide), State.countSat, fld_setFld_self]

theorem VLink.worse_queue (x : VLink) (ms : Nat) : (x.worse ms).queue = x.queue := rfl

theorem VLink.worse_rx (x : VLink) (ms : Nat) : (x.worse ms).rx = x.rx := rfl

theorem State.vlClear_badCounted {s : State} {l : Nat} (hclear : s.vlClear l) : (s.badCounted l).vlClear l := by
  obtain ⟨hqueue, hrx, hholds⟩ := hclear
  rw [State.vlClear, State.vlink_badCounted, VLink.worse_queue, VLink.worse_rx]
  exact ⟨hqueue, hrx, State.vlHolds_setVlink hholds ((VLink.worse_queue _ _).trans hqueue)⟩

/-- Counting bad codewords does not move the slots of a link. -/
theorem VLink.worse_reach (x : VLink) (ms cycles : Nat) : (x.worse ms).reach cycles = (x.reach cycles).worse ms := by
  unfold VLink.reach
  change (if x.slot < x.slotAt cycles then _ else _) = _
  split <;> rfl

end Machine
end Sys2Proof
end

section
/-! PROOFS. Flits of a live Valir link: status, retry, replay and time (R248 to R253; log entries 69, 127, 134). -/

namespace Sys2Proof
namespace Machine

/-! ### UNCORRECTABLE_CODEWORD -/

theorem VLink.worse_retried (x : VLink) (ms cycles : Nat) :
    (x.worse ms).retried cycles = { x.flitSent cycles with
      badMs := ms, badCount := if x.badMs = ms then x.badCount + 1 else 1, waitReplay := true, retries := x.retries + 1 } := by
  rw [VLink.retried, VLink.flitSent, VLink.worse_reach, VLink.flitSent]
  unfold VLink.reach
  split <;> rfl

theorem VLink.worse_retries (x : VLink) (ms : Nat) : (x.worse ms).retries = x.retries := rfl

theorem VLink.worse_slot (x : VLink) (ms cycles : Nat) : ((x.worse ms).reach cycles).slot = (x.reach cycles).slot := by
  rw [VLink.worse_reach]; rfl

theorem VLink.worse_own (x : VLink) (ms : Nat) : (x.worse ms).rxFseq = x.rxFseq ∧ (x.worse ms).freed = x.freed := ⟨rfl, rfl⟩

theorem VLink.worse_fresh (x : VLink) (ms : Nat) (st : VState) (lanes : Nat) : (x.worse ms).fresh st lanes = x.fresh st lanes := rfl

theorem State.retryFlit_badCounted (s : State) (l : Nat) : (s.badCounted l).retryFlit l = s.retryFlit l := by
  obtain ⟨hfseq, hfreed⟩ := (s.vlink l).worse_own (s.nowNs / 1000000)
  rw [← s.vlink_badCounted l] at hfseq hfreed
  rw [State.retryFlit, State.retryFlit, ownFlit_congr (onLink_badCounted l s).regs (onLink_badCounted l s).dev hfseq hfreed, hfseq]

/-- Within the count of the millisecond a codeword that cannot be corrected is counted and asks for a replay. -/
theorem State.vlBad_few {s : State} {l : Nat} (hlive : s.vlLive l = true)
    (hfew : (s.vlink l).badMs = s.nowNs / 1000000 → (s.vlink l).badCount < 64) : s.vlBad l = (s.badCounted l).vlRetry l := by
  have hcount : ¬ 64 < ((s.vlink l).worse (s.nowNs / 1000000)).badCount := by
    rw [VLink.worse]
    dsimp only
    split
    · next h => have := hfew h; omega
    · omega
  rw [State.vlBad_live hlive, if_neg hcount]

/-- Beyond it the link retrains. -/
theorem State.vlBad_many {s : State} {l : Nat} (hlive : s.vlLive l = true) (hms : (s.vlink l).badMs = s.nowNs / 1000000)
    (hmany : 64 ≤ (s.vlink l).badCount) : s.vlBad l = (s.badCounted l).vlDown l .retrain (s.vlink l).lanes := by
  have hcount : 64 < ((s.vlink l).worse (s.nowNs / 1000000)).badCount := by
    rw [VLink.worse]
    dsimp only
    rw [if_pos hms]
    omega
  rw [State.vlBad_live hlive, if_pos hcount]

/-- What an uncorrectable codeword that asks for a replay leaves. -/
theorem State.badCounted_vlRetry {s : State} {l : Nat} (hretries : (s.vlink l).retries < 7) :
    onLink l s ((s.badCounted l).vlRetry l) ∧
      ((s.badCounted l).vlRetry l).vlink l = ((s.vlink l).worse (s.nowNs / 1000000)).retried s.clk.cycles ∧
      .vlFlit l ((s.vlink l).reach s.clk.cycles).slot (s.retryFlit l) ∈ ((s.badCounted l).vlRetry l).out ∧
      ((s.badCounted l).vlRetry l).fld F.vlLinkFecUncorrected l = (s.badCounted l).fld F.vlLinkFecUncorrected l := by
  have hcounted := onLink_badCounted l s
  obtain ⟨hkept, hlink, hsent, hfec⟩ := State.vlRetry_sent (s := s.badCounted l) (l := l) (by
    rw [s.vlink_badCounted, VLink.worse_retries]; exact hretries)
  rw [s.vlink_badCounted, hcounted.clk] at hlink
  rw [s.vlink_badCounted, hcounted.clk, VLink.worse_slot, s.retryFlit_badCounted] at hsent
  exact ⟨hcounted.trans hkept, hlink, hsent, hfec⟩

/-! ### The acknowledgement, the credits and READY of a link flit -/

/-- A link that has taken the acknowledgement and the credits of a flit (R249, R250). -/
def VLink.acked (x : VLink) (f : LinkFlit) : VLink :=
  { (if subMod 12 (f.ack % 4096) x.held ≤ x.buf.length then { x with buf := x.buf.drop (subMod 12 (f.ack % 4096) x.held) } else x) with
    credit := (List.range 8).foldl (fun c v => AMap.put c v (f.credit.getD v 0 % 65536)) x.credit }

theorem State.vlTakeFlit_eq (s : State) (l : Nat) (f : LinkFlit) :
    s.vlTakeFlit l f = (s.setVlink l ((s.vlink l).acked f)).setFlag F.vlLinkStatusPartnerReady f.ready l := by
  unfold State.vlTakeFlit VLink.acked
  dsimp only
  split <;> rfl

theorem onLink_vlTakeFlit (l : Nat) (s : State) (f : LinkFlit) : onLink l s (s.vlTakeFlit l f) := by
  rw [State.vlTakeFlit_eq]
  exact (onLink_setVlink l s _).trans (onLink_setFld l _ (f := F.vlLinkStatusPartnerReady) (by decide) _ l (by decide))

theorem State.vlink_setFlag (s : State) (f : Fld) (v : Bool) (o k : Nat) : (s.setFlag f v o).vlink k = s.vlink k := rfl

theorem State.vlink_vlTakeFlit (s : State) (l : Nat) (f : LinkFlit) : (s.vlTakeFlit l f).vlink l = (s.vlink l).acked f := by
  rw [State.vlTakeFlit_eq, State.vlink_setFlag, State.vlink_setVlink]

theorem State.vlTakeFlit_ready (s : State) (l : Nat) (f : LinkFlit) :
    (s.vlTakeFlit l f).flag F.vlLinkStatusPartnerReady l = f.ready := by
  rw [State.vlTakeFlit_eq, State.flag, State.setFlag, fld_setFld_self]
  cases f.ready <;> rfl

theorem VLink.acked_rest (x : VLink) (f : LinkFlit) :
    (x.acked f).state = x.state ∧ (x.acked f).queue = x.queue ∧ (x.acked f).replay = x.replay := by
  unfold VLink.acked
  split <;> exact ⟨rfl, rfl, rfl⟩

theorem VLink.acked_buf {x : VLink} {f : LinkFlit} (h : subMod 12 (f.ack % 4096) x.held ≤ x.buf.length) :
    (x.acked f).buf = x.buf.drop (subMod 12 (f.ack % 4096) x.held) := by
  rw [VLink.acked, if_pos h]

/-- A map after entries were written at the keys of a list. -/
theorem AMap.look_foldl_put {α : Type} (d : α) (g : Nat → α) (l : List Nat) (m : AMap α) {v : Nat} (h : v ∈ l) :
    AMap.look d (l.foldl (fun c i => AMap.put c i (g i)) m) v = g v := by
  have hkept : ∀ (l : List Nat) (m : AMap α), AMap.find m v = some (g v) →
      AMap.find (l.foldl (fun c i => AMap.put c i (g i)) m) v = some (g v) := by
    intro l
    induction l with
    | nil => exact fun m h => h
    | cons i l ih =>
      intro m hm
      refine ih _ ?_
      by_cases hi : v = i
      · subst hi; exact AMap.find_put_self m v (g v)
      · rw [AMap.find_put_ne m (g i) hi, hm]
  induction l generalizing m with
  | nil => exact absurd h List.not_mem_nil
  | cons i l ih =>
    rw [List.foldl_cons]
    rcases List.mem_cons.1 h with rfl | h
    · rw [AMap.look, hkept l _ (AMap.find_put_self m v (g v)), Option.getD_some]
    · exact ih _ h

theorem VLink.acked_credit (x : VLink) (f : LinkFlit) {v : Nat} (h : v < 8) :
    AMap.look 0 (x.acked f).credit v = f.credit.getD v 0 % 65536 :=
  AMap.look_foldl_put 0 (fun v => f.credit.getD v 0 % 65536) _ _ (List.mem_range.2 h)

/-! ### A link with nothing to send -/

theorem VLink.reach_rest (x : VLink) (cycles : Nat) : (x.reach cycles).queue = x.queue ∧ (x.reach cycles).replay = x.replay := by
  unfold VLink.reach; split <;> exact ⟨rfl, rfl⟩

theorem VLink.nextData_of_idle {x : VLink} (hqueue : x.queue = []) (hreplay : x.replay = none) : x.nextData = none := by
  have hsend : ∀ v, x.canSend v = false := fun v => by simp [VLink.canSend, VLink.first, hqueue]
  have hagain : x.again = none := by rw [VLink.again, hreplay]
  have hchoose : x.chooseVc = none := by simp [VLink.chooseVc, hsend]
  unfold VLink.nextData
  rw [hagain, hchoose]
  dsimp only
  split
  · rfl
  · split
    · rw [hsend]; rfl
    · rfl

/-- A link with no packet waiting and no replay in progress sends nothing. -/
theorem State.vlSend_of_idle {s : State} {l : Nat} (hqueue : (s.vlink l).queue = []) (hreplay : (s.vlink l).replay = none) :
    s.vlSend l = s := by
  obtain ⟨hqueue', hreplay'⟩ := (s.vlink l).reach_rest s.clk.cycles
  have hnone := VLink.nextData_of_idle (hqueue'.trans hqueue) (hreplay'.trans hreplay)
  have hpump : s.vlPump l 24 = s := by
    rw [State.vlPump]
    split
    · rfl
    · rw [hnone]
  rw [State.vlSend, hpump, hreplay]
  rfl

/-! ### RETRY_REQ and the replay -/

theorem State.vlReplay_begun (s : State) (l req : Nat) :
    onLink l s (s.vlReplay l req) ∧
      (s.vlReplay l req).vlink l = { (s.vlink l).flitSent s.clk.cycles with replay := some (req, req) } ∧
      .vlFlit l ((s.vlink l).reach s.clk.cycles).slot { s.ownFlit l with ltype := 2, req := req } ∈ (s.vlReplay l req).out := by
  have hsent := s.vlLink_out l { s.ownFlit l with ltype := 2, req := req }
  refine ⟨(onLink_vlLink l s _).trans (onLink_setVlink l _ _), ?_, ?_⟩
  · rw [State.vlReplay, State.vlink_setVlink, State.vlink_vlLink]
  · rw [State.vlReplay, State.setVlink_out, hsent]
    exact List.mem_cons_self

theorem VLink.flitSent_rest (x : VLink) (cycles : Nat) :
    (x.flitSent cycles).buf = x.buf ∧ (x.flitSent cycles).nextFseq = x.nextFseq ∧ (x.flitSent cycles).sent = x.sent ∧
      (x.flitSent cycles).waitReplay = x.waitReplay := by
  unfold VLink.flitSent VLink.reach
  split <;> exact ⟨rfl, rfl, rfl, rfl⟩

/-- A RETRY_REQ that awaits REPLAY_START already goes on awaiting it. -/
theorem VLink.retried_of_waiting {x : VLink} (h : x.waitReplay = true) (cycles : Nat) :
    x.retried cycles = { x.flitSent cycles with retries := x.retries + 1 } := by
  obtain ⟨_, _, _, hwait⟩ := x.flitSent_rest cycles
  rw [VLink.retried, ← h, ← hwait]

section
variable {s t : State} {l : Nat} {f : LinkFlit} (hlive : s.vlLive l = true)
include hlive

theorem State.vlGotRetry_live (ht : t = s.vlTakeFlit l f) (req : Nat) :
    s.vlGotRetry l req f = if (t.vlink l).replaying (req % 4096) then t.vlSend l
      else if subMod 12 (req % 4096) (t.vlink l).held < (t.vlink l).buf.length then (t.vlReplay l (req % 4096)).vlSend l
      else t.vlDown l .retrain (t.vlink l).lanes := by
  rw [State.vlGotRetry, hlive, ht]
  rfl

theorem State.vlGotReplay_live (ht : t = (s.vlTakeFlit l f).vlSend l) {req : Nat} (hwait : (t.vlink l).waitReplay = true)
    (hreq : req % 4096 = (t.vlink l).rxFseq) :
    s.vlGotReplay l req f = t.setVlink l { t.vlink l with waitReplay := false } := by
  rw [State.vlGotReplay, hlive, if_neg (by decide), ← ht]
  exact if_pos ⟨hwait, hreq⟩

theorem State.vlGotTime_live (ht : t = (s.vlTakeFlit l f).vlSend l) (hsrc : t.fld F.clkpwrFtCfgSrc = l + 1) (secs ns : Nat)
    (sync : Bool) : s.vlGotTime l secs ns sync f = { t with clk := { t.clk with
      offSum := t.clk.offSum + (((secs * 1000000000 + ns : Nat) : Int) + linkDelay (t.fld F.vlLinkStatusRttNs l) - ((t.nowNs : Nat) : Int))
      offCnt := t.clk.offCnt + 1, srcSync := sync } } := by
  rw [State.vlGotTime, hlive, if_neg (by decide), ← ht]
  exact if_neg (not_not_intro hsrc)

end

/-! ### TIME flits of this node -/

/-- A TIME flit of a link, with fabric time and SYNC as the state has them. -/
def State.timeFlit (s : State) (l : Nat) : LinkFlit :=
  { s.ownFlit l with ltype := 4, secs := s.clk.secs, ns := s.clk.ns, sync := s.timeSync }

/-- A TIME flit on a link that is live. -/
def State.timeSent (s : State) (l : Nat) : State := if s.vlLive l then s.vlLink l (s.timeFlit l) else s

/-- What TIME flits on the links below n leave of the state s. -/
structure timesSent (s : State) (n : Nat) (u : State) : Prop where
  sent : ∀ l, l < n → s.vlLive l = true → u.vlink l = (s.vlink l).flitSent s.clk.cycles ∧
    .vlFlit l ((s.vlink l).reach s.clk.cycles).slot (s.timeFlit l) ∈ u.out
  dark : ∀ l, n ≤ l ∨ s.vlLive l = false → u.vlink l = s.vlink l
  count : u.out.length = s.out.length + ((List.range n).filter s.vlLive).length
  regs : regsKept linkRegs s u
  rest : u = { s with out := u.out, vl := u.vl, flds := u.flds }

theorem timesSent_zero (s : State) : timesSent s 0 s where
  sent _ h := absurd h (Nat.not_lt_zero _)
  dark _ _ := rfl
  count := rfl
  regs := regsKept_refl _ s
  rest := rfl

theorem timeSync_congr {s t : State} (hregs : regsKept linkRegs s t) (hclk : t.clk = s.clk) : t.timeSync = s.timeSync := by
  have hsrc : t.fld F.clkpwrFtCfgSrc = s.fld F.clkpwrFtCfgSrc := hregs _ 0 0 (by decide) (by decide)
  have hsync : t.fld F.clkpwrFtRateSwSync = s.fld F.clkpwrFtRateSwSync := hregs _ 0 0 (by decide) (by decide)
  rw [State.timeSync, State.timeSync, hsrc, State.flag, State.flag, hsync, hclk]

theorem timesSent.timeFlit {s u : State} {n l : Nat} (h : timesSent s n u) (hlink : u.vlink l = s.vlink l) :
    u.timeFlit l = s.timeFlit l := by
  have hclk : u.clk = s.clk := by rw [h.rest]
  have hdev : u.dev = s.dev := by rw [h.rest]
  rw [State.timeFlit, State.timeFlit, ownFlit_congr h.regs hdev (by rw [hlink]) (by rw [hlink]), hclk, timeSync_congr h.regs hclk]

/-- The link n takes its turn after those below it. -/
theorem timesSent_succ {s u : State} {n : Nat} (h : timesSent s n u) : timesSent s (n + 1) (u.timeSent n) := by
  have hlink : u.vlink n = s.vlink n := h.dark n (.inl (Nat.le_refl n))
  have hlive : u.vlLive n = s.vlLive n := by rw [State.vlLive, State.vlLive, hlink]
  rw [State.timeSent, hlive]
  cases hn : s.vlLive n with
  | false =>
    refine ⟨fun l hl hon => ?_, fun l hl => h.dark l (hl.imp_left Nat.le_of_succ_le), ?_, h.regs, h.rest⟩
    · rcases Nat.lt_succ_iff_lt_or_eq.1 hl with hl | rfl
      · exact h.sent l hl hon
      · exact absurd hon (by rw [hn]; decide)
    · rw [List.range_succ, List.filter_append]
      simpa [hn] using h.count
  | true =>
    have hclk : u.clk = s.clk := by rw [h.rest]
    have hstep := onLink_vlLink n u (u.timeFlit n)
    have hown := u.vlink_vlLink n (u.timeFlit n)
    have hout := u.vlLink_out n (u.timeFlit n)
    have hrest : u.vlLink n (u.timeFlit n) = { u with out := (u.vlLink n (u.timeFlit n)).out, vl := (u.vlLink n (u.timeFlit n)).vl
                                                      flds := (u.vlLink n (u.timeFlit n)).flds } := by
      rw [State.vlLink_eq]; rfl
    rw [h.timeFlit hlink] at *
    rw [hlink, hclk] at hown hout
    rw [if_pos rfl]
    refine ⟨fun l hl hon => ?_, fun l hl => ?_, ?_, h.regs.trans hstep.regs, ?_⟩
    · rw [hout]
      rcases Nat.lt_succ_iff_lt_or_eq.1 hl with hl | rfl
      · obtain ⟨hsent, hmem⟩ := h.sent l hl hon
        exact ⟨(hstep.others l hl.ne).trans hsent, List.mem_cons_of_mem _ hmem⟩
      · exact ⟨hown, List.mem_cons_self⟩
    · have hne : l ≠ n := by
        rintro rfl
        rcases hl with hl | hl
        · omega
        · rw [hn] at hl; exact absurd hl (by decide)
      exact (hstep.others l hne).trans (h.dark l (hl.imp_left Nat.le_of_succ_le))
    · rw [hout, List.range_succ, List.filter_append, List.length_cons, h.count]
      simp [hn, Nat.add_assoc]
    · rw [hrest, h.rest]

theorem timesSent_all (s : State) (n : Nat) : timesSent s n ((List.range n).foldl State.timeSent s) := by
  induction n with
  | zero => exact timesSent_zero s
  | succ n ih =>
    rw [List.range_succ, List.foldl_append]
    exact timesSent_succ ih

theorem execTimeFlitSend_eq (s : State) : execTimeFlitSend s = .next ((List.range 16).foldl State.timeSent s) := rfl

theorem execStatusFlit_status {s : State} {l : Nat} {f : LinkFlit} (hlive : s.vlLive l = true) (hcw : f.cw = none) (htype : f.ltype = 0) :
    execStatusFlit l f s = .next ((s.vlTakeFlit l f).vlSend l) := by
  simp only [execStatusFlit, hcw, State.vlGotFlit, htype, hlive, if_true]

theorem execStatusFlit_reserved {s : State} {l : Nat} {f : LinkFlit} (hcw : f.cw = none) (htype : 4 < f.ltype) :
    execStatusFlit l f s = .next s := by
  obtain ⟨n, hn⟩ : ∃ n, f.ltype = n + 5 := ⟨f.ltype - 5, by omega⟩
  simp only [execStatusFlit, hcw, State.vlGotFlit, hn]

theorem execStatusFlit_uncorrectable {s : State} {l : Nat} {f : LinkFlit} {c : List Nat × List Nat} (hcw : f.cw = some c)
    (hlive : s.vlLive l = true) (hbad : rsDecode 272 15 (cwReceived (s.vlink l).lock (s.vlink l).lanes c) = none) :
    execStatusFlit l f s = execUncorrectableCodeword l s := by
  have htakes : ¬ ((s.vlink l).state ≠ .param ∧ (!s.vlLive l) = true) := by simp [hlive]
  simp only [execStatusFlit, hcw, State.vlCodeword, htakes, hbad, if_false, execUncorrectableCodeword]

/-- Settles O27: what a flit or a bad codeword does is one update of its link after another; TIME flits go link by link. -/
theorem valirFlitCommandsComplete : Obligations.ValirFlitCommandsComplete := by
  refine ⟨?_, ?_, ?_, ?_, ?_, ?_, ?_, ?_, ?_, ?_, ?_, ?_⟩
  · intro s l hlive hfew hretries
    obtain ⟨hkept, hlink, hsent, hfec⟩ := State.badCounted_vlRetry (l := l) hretries
    rw [VLink.worse_retried] at hlink
    exact ⟨_, congrArg s.ends (State.vlBad_few hlive hfew), hlink, hsent, hfec.trans (s.badCounted_fec l), hkept.others, hkept.memKept⟩
  · intro s l hlive hms hmany hclear
    obtain ⟨hkept, hlink⟩ := State.vlDown_clear (State.vlClear_badCounted hclear) .retrain (s.vlink l).lanes
    rw [s.vlink_badCounted, VLink.worse_fresh] at hlink
    exact ⟨_, congrArg s.ends (State.vlBad_many hlive hms hmany), hlink, (onLink_badCounted l s |>.trans hkept).others,
      (onLink_badCounted l s |>.trans hkept).memKept⟩
  · intro s l f hlive hcw htype
    have hkept := onLink_vlTakeFlit l s f
    obtain ⟨_, hqueue, hreplay⟩ := (s.vlink l).acked_rest f
    have hlink := s.vlink_vlTakeFlit l f
    refine ⟨s.vlTakeFlit l f, ends_taken (execStatusFlit_status hlive hcw htype), fun hempty hnone => ?_, s.vlTakeFlit_ready l f,
      fun v hv => ?_, fun hack => ?_, ?_, hkept.others, hkept.memKept⟩
    · exact State.vlSend_of_idle (by rw [hlink, hqueue, hempty]) (by rw [hlink, hreplay, hnone])
    · rw [hlink, VLink.acked_credit _ f hv]
    · rw [hlink, VLink.acked_buf hack]
    · rw [hlink, hreplay]
  · exact fun s l f hcw htype => ends_taken (execStatusFlit_reserved hcw htype)
  · exact fun s l f c hcw hlive hbad => congrArg (fun r => s.ends (s.taken r)) (execStatusFlit_uncorrectable hcw hlive hbad)
  · intro s t l req f hlive ht hnew hheld
    have heffect : s.vlGotRetry l req f = (t.vlReplay l (req % 4096)).vlSend l := by
      rw [State.vlGotRetry_live hlive ht, hnew, if_neg Bool.false_ne_true, if_pos hheld]
    obtain ⟨hkept, hlink, hsent⟩ := t.vlReplay_begun l (req % 4096)
    obtain ⟨hbuf, hnext, hcount, _⟩ := (t.vlink l).flitSent_rest t.clk.cycles
    refine ⟨_, congrArg s.ends heffect, ?_, ?_, ?_, ?_, hsent, hkept.others, hkept.memKept⟩ <;> rw [hlink]
    · exact hbuf
    · exact hnext
    · exact hcount
  · intro s t l req f hlive ht hreplaying
    have heffect : s.vlGotRetry l req f = t.vlSend l := by
      rw [State.vlGotRetry_live hlive ht, hreplaying, if_pos rfl]
    exact congrArg s.ends heffect
  · intro s t l req f hlive ht hnew hgone hclear
    have heffect : s.vlGotRetry l req f = t.vlDown l .retrain (t.vlink l).lanes := by
      rw [State.vlGotRetry_live hlive ht, hnew, if_neg Bool.false_ne_true, if_neg (by omega)]
    obtain ⟨hkept, hlink⟩ := State.vlDown_clear hclear .retrain (t.vlink l).lanes
    exact ⟨_, congrArg s.ends heffect, hlink, hkept.others, hkept.memKept⟩
  · intro s l hlive hwait hretries
    have heffect : execRetryReqResend l s = .next (s.vlRetry l) := if_pos ⟨hlive, hwait⟩
    obtain ⟨hkept, hlink, hsent, _⟩ := State.vlRetry_sent hretries
    rw [VLink.retried_of_waiting hwait] at hlink
    exact ⟨_, ends_taken heffect, hlink, hsent, hkept.others, hkept.memKept⟩
  · intro s t l req f hlive ht hwait hreq
    have hkept := onLink_setVlink l t { t.vlink l with waitReplay := false }
    exact ⟨_, congrArg s.ends (State.vlGotReplay_live hlive ht hwait hreq), t.vlink_setVlink l _, hkept.others, hkept.memKept⟩
  · intro s t l secs ns sync f hlive ht hsrc
    exact ⟨_, congrArg s.ends (State.vlGotTime_live hlive ht hsrc secs ns sync), rfl, rfl, rfl, rfl⟩
  · intro s
    have hall := timesSent_all s 16
    have heffect : exec .timeFlitSend s = .next (s.finished ((List.range 16).foldl State.timeSent s)) :=
      ends_taken (execTimeFlitSend_eq s)
    generalize (List.range 16).foldl State.timeSent s = u at hall heffect
    exact ⟨u, heffect, hall.sent, fun l _ hdark => hall.dark l (.inr hdark), hall.count, hall.rest⟩

end Machine
end Sys2Proof
end

section
/-! PROOFS. The memory: bytes written read back, and the canonical form of a memory is fixed by its bytes (R48, R49). -/

namespace Sys2Proof

section
variable {α : Type}

/-! ### A sorted map that lists no default is fixed by what it reads -/

theorem AMap.find_of_above {b i : Nat} {m : AMap α} (h : AMap.above b m) (hi : i ≤ b) : AMap.find m i = none := by
  induction m with
  | nil => rfl
  | cons e m ih =>
    obtain ⟨k, v⟩ := e
    simp only [AMap.above, List.mem_cons, forall_eq_or_imp] at h
    obtain ⟨hk, hm⟩ := h
    rw [AMap.find, if_neg (by omega)]
    exact ih hm

theorem AMap.look_of_above (d : α) {b i : Nat} {m : AMap α} (h : AMap.above b m) (hi : i ≤ b) : AMap.look d m i = d := by
  rw [AMap.look, AMap.find_of_above h hi]
  rfl

theorem AMap.look_cons (d v : α) (k i : Nat) (m : AMap α) :
    AMap.look d ((k, v) :: m) i = if i = k then v else AMap.look d m i := by
  rw [AMap.look, AMap.find]
  split <;> rfl

/-- What the first key of a map reads is not the default, so it does not stand below every key of a map that reads alike. -/
theorem AMap.key_le_of_look_eq {d v w : α} {k l : Nat} {m n : AMap α} (hv : v ≠ d) (hn : AMap.above l n)
    (h : ∀ i, AMap.look d ((k, v) :: m) i = AMap.look d ((l, w) :: n) i) : l ≤ k := by
  by_contra hlt
  have hk := h k
  rw [AMap.look_cons, if_pos rfl, AMap.look_cons, if_neg (by omega), AMap.look_of_above d hn (by omega)] at hk
  exact hv hk

theorem AMap.eq_nil_of_look_eq {d : α} {m : AMap α} (hlisted : ∀ e ∈ m, e.2 ≠ d) (h : ∀ i, AMap.look d m i = d) : m = [] := by
  cases m with
  | nil => rfl
  | cons e m =>
    have hk := h e.1
    rw [AMap.look_cons, if_pos rfl] at hk
    exact absurd hk (hlisted e List.mem_cons_self)

theorem AMap.eq_of_look_eq {d : α} {m n : AMap α} (hm : AMap.sorted m = true) (hn : AMap.sorted n = true)
    (hml : ∀ e ∈ m, e.2 ≠ d) (hnl : ∀ e ∈ n, e.2 ≠ d) (h : ∀ i, AMap.look d m i = AMap.look d n i) : m = n := by
  induction m generalizing n with
  | nil => exact (AMap.eq_nil_of_look_eq hnl fun i => (h i).symm).symm
  | cons e m ih =>
    cases n with
    | nil => exact AMap.eq_nil_of_look_eq hml h
    | cons f n =>
      obtain ⟨k, v⟩ := e
      obtain ⟨l, w⟩ := f
      obtain ⟨hma, hms⟩ := (AMap.sorted_cons k v m).1 hm
      obtain ⟨hna, hns⟩ := (AMap.sorted_cons l w n).1 hn
      obtain ⟨hv, hmrest⟩ := List.forall_mem_cons.1 hml
      obtain ⟨hw, hnrest⟩ := List.forall_mem_cons.1 hnl
      obtain rfl : k = l := le_antisymm (AMap.key_le_of_look_eq hw hma fun i => (h i).symm) (AMap.key_le_of_look_eq hv hna h)
      simp only [AMap.look_cons] at h
      obtain rfl : v = w := by simpa using h k
      have htail : m = n := ih hms hns hmrest hnrest fun i => by
        rcases Nat.lt_or_ge k i with hi | hi
        · simpa [Nat.ne_of_gt hi] using h i
        · rw [AMap.look_of_above d hma hi, AMap.look_of_above d hna hi]
      rw [htail]

end

namespace Machine

theorem readBytes_length (m : List Host.Cell) (a n : Nat) : (readBytes m a n).length = n := by
  rw [readBytes, List.length_map, List.length_range]

theorem readBytes_writeBytes (m : List Host.Cell) (a : Nat) (bs : List Byte) :
    readBytes (writeBytes m a bs) a bs.length = bs := by
  refine List.ext_getElem (readBytes_length _ _ _) fun i _ hi => ?_
  simp only [readBytes, List.getElem_map, List.getElem_range]
  rw [readByte_writeBytes, if_pos (by omega), Nat.add_sub_cancel_left, List.getD_eq_getElem _ _ hi]

theorem Memory.wf_iff (m : List Host.Cell) : Memory.wf m = true ↔ AMap.sorted m = true ∧ ∀ c ∈ m, c.2 ≠ 0#8 := by
  simp only [Memory.wf, Bool.and_eq_true, List.all_eq_true, bne_iff_ne]

theorem Memory.eq_of_readByte_eq {m n : List Host.Cell} (hm : Memory.wf m = true) (hn : Memory.wf n = true)
    (h : ∀ a, readByte m a = readByte n a) : m = n := by
  obtain ⟨hms, hml⟩ := (Memory.wf_iff m).1 hm
  obtain ⟨hns, hnl⟩ := (Memory.wf_iff n).1 hn
  exact AMap.eq_of_look_eq hms hns hml hnl h

/-- Settles O60: a byte written is found at its place, and a memory in canonical form is fixed by what it reads. -/
theorem memoryWritesReadBack : Obligations.MemoryWritesReadBack :=
  ⟨fun m a bs => ⟨readBytes_writeBytes m a bs, readByte_writeBytes_out bs m a, fun h => writeBytes_wf bs h a⟩,
    fun _ _ hm hn h => Memory.eq_of_readByte_eq hm hn h⟩

end Machine
end Sys2Proof
end

section
/-! PROOFS. Operations of the host-port DMA engines start (R71, R72, R109, R110, R124, R128). -/

namespace Sys2Proof
namespace Machine

/-! ### Descriptors that may start -/

/-- A descriptor that may start has the opcode of its command, and no parked descriptor of the engine stands ahead of it in its queue. -/
theorem State.starting_some {s : State} {r : OpRef} {opcode : Nat} {o : Op} (h : s.starting r opcode = some o) :
    o.d.opcode = opcode ∧ s.behindQueue o = false := by
  unfold State.starting at h
  split at h
  · split at h
    · next hstart =>
      obtain rfl := Option.some.inj h
      obtain ⟨hop, _, hbehind⟩ := hstart
      exact ⟨hop, by simpa using hbehind⟩
    · exact absurd h (by simp)
  · exact absurd h (by simp)

theorem State.startOf_starting {s : State} {r : OpRef} {opcode : Nat} {o : Op} (h : s.starting r opcode = some o)
    (f : State → Op → State) : s.startOf r opcode none f = f s o := by
  rw [State.startOf, h]
  exact if_pos (.inl rfl)

/-- A start command ends with what the start of its descriptor does. -/
theorem State.ends_startOf {s u : State} {r : OpRef} {opcode : Nat} {o : Op} (h : s.starting r opcode = some o)
    {f : State → Op → State} (heffect : f s o = u) : s.ends (s.startOf r opcode none f) = .next (s.finished u) :=
  congrArg s.ends ((State.startOf_starting h f).trans heffect)

/-- A descriptor of the DMA engines waits for the parked ones of its own queue alone (Table 3.14). -/
theorem State.behindParked_of_dma {s : State} {o : Op} (hdma : o.d.dma = true) : s.behindParked o = s.behindQueue o := by
  rw [State.behindParked]
  simp [hdma]

theorem State.behindParked_of_starting {s : State} {r : OpRef} {opcode : Nat} {o : Op} (h : s.starting r opcode = some o)
    (hop : opcode < 0x10) : s.behindParked o = false := by
  obtain ⟨hcode, hbehind⟩ := State.starting_some h
  have hdma : o.d.dma = true := by simp [Desc.dma, hcode, hop]
  rw [State.behindParked_of_dma hdma, hbehind]

/-! ### What each start does once the descriptor has its record -/

theorem State.copyStart_empty {s : State} {o : Op} (h : o.d.len = 0) : s.copyStart o = s.complete o .ok := if_pos h

theorem State.copyStart_admitted {s t : State} {o o' : Op} (hlen : o.d.len ≠ 0) (hfree : s.behindParked o = false)
    (hadmit : s.admitLocal o 2 o.d.opx = some (o', t)) :
    s.copyStart o = (if o.jrec.isNone then t.icAdmit 0 o'.ref.fn o'.ref.q o'.ref.pos else t).moveGo o'.ref o'.moveFuel := by
  simp only [State.copyStart, if_neg hlen, hfree, Bool.false_eq_true, if_false, hadmit]

theorem State.flushStart_admitted {s t : State} {o o' : Op} (hfree : s.behindParked o = false)
    (hadmit : s.admitLocal o 2 o.d.laddr = some (o', t)) : s.flushStart o = t.flushGo o' := by
  simp only [State.flushStart, hfree, Bool.false_eq_true, if_false, hadmit]

theorem State.cvtStart_admitted {s t : State} {o o' : Op} (hfree : s.behindParked o = false)
    (hadmit : s.admitLocal o 2 o.d.opx = some (o', t)) : s.cvtStart o = t.cvtGo o' := by
  simp only [State.cvtStart, hfree, Bool.false_eq_true, if_false, hadmit]

/-- Whether a host read of a function is outstanding: of data, or of a table walk. -/
def State.readsOut (s : State) (fn : Nat) : Bool :=
  (s.tags.any fun t => t.fn == fn && !t.timedOut) || s.walks.any fun k => k.fn == fn && k.started && !k.hbm

theorem State.fenceStart_eq (s : State) (o : Op) :
    s.fenceStart o = if (s.queue o.ref.fn o.ref.q).oldest = o.ref.pos ∧ s.readsOut o.ref.fn = false then s.flushStart o else s := by
  have hclear : ((s.queue o.ref.fn o.ref.q).oldest == o.ref.pos && !s.readsOut o.ref.fn) = true ↔
      (s.queue o.ref.fn o.ref.q).oldest = o.ref.pos ∧ s.readsOut o.ref.fn = false := by simp
  exact if_congr hclear rfl rfl

/-- A pointer conversion that has its record is one step: the conversion of the state then. -/
theorem State.cvtOne_a2f {s t : State} {r : OpRef} {o o' : Op} (hstart : s.starting r 0x08 = some o)
    (hadmit : s.admitLocal o 2 o.d.opx = some (o', t)) (hd : o'.d = o.d) :
    s.cvtOne o = (t.cvtA2f o'.ref.fn o.d.opx).elim (t.complete o' .notConvertible) fun x => t.complete o' .ok 0 x.1 x.2 := by
  have hcode := (State.starting_some hstart).1
  simp only [State.cvtOne, State.behindParked_of_starting hstart (by decide), Bool.false_eq_true, if_false, hadmit, hd, hcode, if_true]
  cases t.cvtA2f o'.ref.fn o.d.opx <;> rfl

theorem State.cvtOne_f2a {s t : State} {r : OpRef} {o o' : Op} (hstart : s.starting r 0x09 = some o)
    (hadmit : s.admitLocal o 2 o.d.opx = some (o', t)) (hd : o'.d = o.d) :
    s.cvtOne o = (t.cvtF2a o'.ref.fn o.d.opx o.d.rkey).elim (t.complete o' .notConvertible) fun ao => t.complete o' .ok 0 ao := by
  have hcode := (State.starting_some hstart).1
  have hother : ¬ 0x09 = 0x08 := by decide
  simp only [State.cvtOne, State.behindParked_of_starting hstart (by decide), Bool.false_eq_true, if_false, hadmit, hd, hcode, hother]
  cases t.cvtF2a o'.ref.fn o.d.opx o.d.rkey <;> rfl

/-- Settles O14: each command runs the start of its descriptor, which has its record. -/
theorem dmaOperationsComplete : Obligations.DmaOperationsComplete := by
  refine ⟨?_, ?_, ?_, ?_, ?_, ?_, ?_, ?_, ?_, ?_, ?_, ?_⟩
  · exact fun s r o hstart => State.ends_startOf hstart rfl
  · exact fun s r o hstart hlen => State.ends_startOf hstart (State.copyStart_empty hlen)
  · intro s t r o o' hstart hlen hfree hrec hadmit
    have heffect := State.copyStart_admitted hlen hfree hadmit
    rw [if_neg (by simpa using hrec)] at heffect
    exact State.ends_startOf hstart heffect
  · intro s t r o o' hstart hlen hfree hrec hadmit
    have heffect := State.copyStart_admitted hlen hfree hadmit
    rw [if_pos (by simpa using hrec)] at heffect
    exact State.ends_startOf hstart heffect
  · exact fun s t r o o' hstart hfree hadmit => State.ends_startOf hstart (State.flushStart_admitted hfree hadmit)
  · intro s t r o o' hstart hold htags hwalks hfree hadmit
    have hreads : s.readsOut o.ref.fn = false := by rw [State.readsOut, htags, hwalks]; rfl
    have heffect := (s.fenceStart_eq o).trans (if_pos ⟨hold, hreads⟩)
    exact State.ends_startOf hstart (heffect.trans (State.flushStart_admitted hfree hadmit))
  · intro s r o hstart hwait
    have hnot : ¬ ((s.queue o.ref.fn o.ref.q).oldest = o.ref.pos ∧ s.readsOut o.ref.fn = false) := by
      rintro ⟨hold, hreads⟩
      obtain ⟨htags, hwalks⟩ := Bool.or_eq_false_iff.1 hreads
      rcases hwait with h | h | h
      · exact h hold
      · exact Bool.false_ne_true (htags.symm.trans h)
      · exact Bool.false_ne_true (hwalks.symm.trans h)
    exact State.ends_startOf hstart ((s.fenceStart_eq o).trans (if_neg hnot))
  · intro s t r o o' fga key hstart hadmit hd hconv
    have heffect := State.cvtOne_a2f hstart hadmit hd
    rw [hconv] at heffect
    exact State.ends_startOf hstart heffect
  · intro s t r o o' hstart hadmit hd hconv
    have heffect := State.cvtOne_a2f hstart hadmit hd
    rw [hconv] at heffect
    exact State.ends_startOf hstart heffect
  · intro s t r o o' ao hstart hadmit hd hconv
    have heffect := State.cvtOne_f2a hstart hadmit hd
    rw [hconv] at heffect
    exact State.ends_startOf hstart heffect
  · exact fun s t r o o' hstart hfree hadmit => State.ends_startOf hstart (State.cvtStart_admitted hfree hadmit)
  · exact fun s t r o o' hstart hfree hadmit => State.ends_startOf hstart (State.cvtStart_admitted hfree hadmit)

end Machine
end Sys2Proof
end

section
/-! PROOFS. What counting a request to the aperture leaves as it is: the bytes for the monitors, the host-port meter and the event
(R232, R508, R510). -/

namespace Sys2Proof
namespace Machine

/-! ### The bytes of a request -/

/-- A state that differs from another in the monitors' counts alone. -/
theorem State.eq_of_bw_rest {s t : State} (h : ({ t with bw := [] } : State) = { s with bw := [] }) : t = { s with bw := t.bw } :=
  congrArg (fun u : State => { u with bw := t.bw }) h

/-- Counting the bytes of a request writes the monitors' counts alone. -/
theorem State.bwRx_eq (s : State) (fn n : Nat) : s.bwRx fn n = { s with bw := (s.bwRx fn n).bw } :=
  State.eq_of_bw_rest (s.bwCount_rest (s.hpPort fn) false (16 + n))

theorem State.barAnswer_with_bw (s : State) (b : AMap (Nat × Nat)) (f : Nat) :
    ({ s with bw := b } : State).barAnswer f = s.barAnswer f := rfl

@[simp] theorem State.barAnswer_bwRx (s : State) (fn n f : Nat) : (s.bwRx fn n).barAnswer f = s.barAnswer f := by
  rw [State.bwRx_eq, State.barAnswer_with_bw]

theorem State.bwRx_fields (s : State) (fn n : Nat) : (s.bwRx fn n).flds = s.flds ∧ (s.bwRx fn n).out = s.out := by
  rw [State.bwRx]
  simp

/-! ### The meter -/

/-- The registers in which a meter counts what it colours. -/
def meterRegs : List Reg := [.ccMtrGreen, .ccMtrYellow, .ccMtrRed]

/-- A meter writes buckets and counts the item under one colour. -/
theorem State.police_eq_countSat (s : State) (fn kind : Nat) (pre : Colour) (n : Nat) :
    ∃ (m : AMap Meter) (f : Fld), f.reg ∈ meterRegs ∧ f.pos 0 < 64 ∧
      (s.police fn kind pre n).2 = ({ s with cc := { s.cc with meters := m } } : State).countSat f (mtrObj fn kind) := by
  unfold State.police
  dsimp only
  split
  · exact ⟨s.cc.meters, F.ccMtrGreenPkts, by decide, by decide, rfl⟩
  · cases ((s.meter fn kind).colour pre n).1 with
    | green => exact ⟨_, F.ccMtrGreenPkts, by decide, by decide, rfl⟩
    | yellow => exact ⟨_, F.ccMtrYellowPkts, by decide, by decide, rfl⟩
    | red => exact ⟨_, F.ccMtrRedPkts, by decide, by decide, rfl⟩

/-- The host-port meter counts a request with a payload, and leaves the others. -/
theorem State.aptMeter_eq (s : State) (fn : Nat) (r : AptReq) :
    s.aptMeter fn r = s ∨ ∃ n, s.aptMeter fn r = (s.police fn 0 .green n).2 := by
  unfold State.aptMeter
  split
  · exact .inr ⟨_, rfl⟩
  · exact .inl rfl

/-! ### Events -/

theorem regsKept_foldl {α : Type} {rs : List Reg} {f : State → α → State} (h : ∀ t x, regsKept rs t (f t x)) (l : List α)
    (s : State) : regsKept rs s (l.foldl f s) := by
  induction l generalizing s with
  | nil => exact regsKept_refl rs s
  | cons x l ih => exact (h s x).trans (ih (f s x))

theorem regsKept_signal (rs : List Reg) (s : State) (fn vec : Nat) : regsKept rs s (s.signal fn vec) :=
  regsKept_of_flds_eq rs (by simp)

/-- An event that no sequencer position is captured for writes its counter alone of the registers (R353). -/
theorem regsKept_countOne {ev : Nat} (hev : ¬ (0x40 ≤ ev ∧ ev ≤ 0x43)) (s : State) (fn idx n i : Nat) :
    regsKept [.telfCnt] s (s.countOne fn ev idx n i) := by
  have hcount (c : Nat) : regsKept [.telfCnt] s (s.setFld F.telfCntCount c (fn * 32 + i)) :=
    regsKept_setFld s (by decide) c _ 0 (by decide)
  have hover (c : Nat) : regsKept [.telfCnt] s ((s.setFld F.telfCntCount c (fn * 32 + i)).setFlag F.telfCntOvf true (fn * 32 + i)) :=
    (hcount c).setFld (by decide) _ _ 0 (by decide)
  unfold State.countOne
  dsimp only
  rw [if_neg hev]
  split
  · split
    · exact hcount _
    · split
      · exact hover _
      · split
        · exact (hover _).trans (regsKept_signal _ _ _ _)
        · exact hover _
  · exact regsKept_refl _ s

theorem regsKept_count {ev : Nat} (hev : ¬ (0x40 ≤ ev ∧ ev ≤ 0x43)) (s : State) (fn idx n : Nat) :
    regsKept [.telfCnt] s (s.count fn ev idx n) := by
  unfold State.count
  split
  · exact regsKept_refl _ s
  · exact regsKept_foldl (fun t i => regsKept_countOne hev t fn idx n i) _ s

/-! ### A request that has been counted -/

/-- The state but for what the counting of a request may change. -/
def State.butSeen (s : State) : State := { s with flds := [], msix := [], out := [], bw := [], cc := {} }

/-- The registers in which a request is counted. -/
def seenRegs : List Reg := .telfCnt :: meterRegs

theorem State.butSeen_aptMeter (s : State) (fn : Nat) (r : AptReq) : (s.aptMeter fn r).butSeen = s.butSeen := by
  rcases s.aptMeter_eq fn r with h | ⟨n, h⟩
  · rw [h]
  · obtain ⟨m, f, _, _, hpolice⟩ := s.police_eq_countSat fn 0 .green n
    rw [h, hpolice]
    rfl

theorem State.butSeen_count (s : State) (fn ev idx n : Nat) : (s.count fn ev idx n).butSeen = s.butSeen := by
  have h := congrArg State.butSeen (s.count_rest fn ev idx n)
  exact h

theorem State.butSeen_with_bw (s : State) (b : AMap (Nat × Nat)) : ({ s with bw := b } : State).butSeen = s.butSeen := rfl

theorem State.butSeen_bwRx (s : State) (fn n : Nat) : (s.bwRx fn n).butSeen = s.butSeen := by
  rw [State.bwRx_eq, State.butSeen_with_bw]

theorem State.butSeen_aptSeen (s : State) (fn n : Nat) (r : AptReq) : (s.aptSeen fn n r).butSeen = s.butSeen := by
  rw [State.aptSeen, State.butSeen_count, State.butSeen_aptMeter, State.butSeen_bwRx]

theorem State.aptSeen_fields (s : State) (fn n : Nat) (r : AptReq) :
    (s.aptSeen fn n r).apts = s.apts ∧ (s.aptSeen fn n r).qps = s.qps ∧ (s.aptSeen fn n r).mem = s.mem ∧
      (s.aptSeen fn n r).fuses = s.fuses := by
  have h := s.butSeen_aptSeen fn n r
  simp only [State.butSeen, State.mk.injEq] at h
  simp only [h, and_self]

theorem State.apt_aptSeen (s : State) (fn n : Nat) (r : AptReq) (f : Nat) : (s.aptSeen fn n r).apt f = s.apt f := by
  rw [State.apt, (s.aptSeen_fields fn n r).1, ← State.apt]

theorem State.aptFull_of_apts_eq {s t : State} (h : t.apts = s.apts) (f : Nat) : t.aptFull f = s.aptFull f := by
  rw [State.aptFull, State.aptFull, State.apt, State.apt, State.portReads, State.portReads, h]

theorem State.aptFull_aptSeen (s : State) (fn n : Nat) (r : AptReq) (f : Nat) : (s.aptSeen fn n r).aptFull f = s.aptFull f :=
  State.aptFull_of_apts_eq (s.aptSeen_fields fn n r).1 f

theorem State.regsKept_aptMeter (s : State) (fn : Nat) (r : AptReq) : regsKept meterRegs s (s.aptMeter fn r) := by
  rcases s.aptMeter_eq fn r with h | ⟨n, h⟩
  · rw [h]
    exact regsKept_refl _ s
  · obtain ⟨m, f, hreg, hpos, hpolice⟩ := s.police_eq_countSat fn 0 .green n
    rw [h, hpolice]
    exact regsKept.setFld (regsKept_of_flds_eq _ rfl) hreg _ _ 0 hpos

theorem State.onlySignals_aptMeter (s : State) (fn : Nat) (r : AptReq) : onlySignals s (s.aptMeter fn r) := by
  rcases s.aptMeter_eq fn r with h | ⟨n, h⟩
  · rw [h]
    exact onlySignals_refl s
  · obtain ⟨m, f, _, _, hpolice⟩ := s.police_eq_countSat fn 0 .green n
    rw [h, hpolice]
    exact onlySignals_of_out_eq rfl

theorem State.regsKept_aptSeen (s : State) (fn n : Nat) (r : AptReq) : regsKept seenRegs s (s.aptSeen fn n r) := by
  have hbytes : regsKept seenRegs s (s.bwRx fn n) := regsKept_of_flds_eq _ (s.bwRx_fields fn n).1
  rw [State.aptSeen]
  generalize s.bwRx fn n = t at hbytes ⊢
  have hmeter : regsKept seenRegs t (t.aptMeter fn r) := (t.regsKept_aptMeter fn r).mono (List.subset_cons_self _ _)
  have hevent : regsKept seenRegs (t.aptMeter fn r) ((t.aptMeter fn r).count fn 0x58 0) :=
    (regsKept_count (by decide) _ fn 0 1).mono (by decide)
  exact (hbytes.trans hmeter).trans hevent

theorem State.onlySignals_aptSeen (s : State) (fn n : Nat) (r : AptReq) : onlySignals s (s.aptSeen fn n r) := by
  have hbytes : onlySignals s (s.bwRx fn n) := onlySignals_of_out_eq (s.bwRx_fields fn n).2
  rw [State.aptSeen]
  generalize s.bwRx fn n = t at hbytes ⊢
  exact (hbytes.trans (t.onlySignals_aptMeter fn r)).trans (onlySignals_count _ fn 0x58 0 1)

end Machine
end Sys2Proof
end

section
/-! PROOFS. Failures of the aperture and its answers (R68, R101, Tables 2.9, 2.14, 2.15). -/

namespace Sys2Proof

theorem Status.code_lt (st : Status) : st.code < 2 ^ 8 := by cases st <;> decide

namespace Machine

theorem State.flag_setFlag (s : State) (f : Fld) (v : Bool) (o e : Nat) (h : f.width = 1) : (s.setFlag f v o e).flag f o e = v := by
  rw [State.flag, State.setFlag, fld_setFld_self, h]
  cases v <;> rfl

theorem regsKept.flag {rs : List Reg} {s t : State} (h : regsKept rs s t) (f : Fld) (o e : Nat) (hpos : f.pos e < 64)
    (hreg : f.reg ∉ rs) : t.flag f o e = s.flag f o e := by
  rw [State.flag, State.flag, h f o e hpos hreg]

/-! ### The link of a function -/

/-- Whether the link of a function is up is shown by HP.PORT_CFG and HP.LINK_STATUS on the ports that the variant has. -/
theorem regsKept.linkUp {rs : List Reg} {s t : State} (h : regsKept rs s t) (hfuses : t.fuses = s.fuses) (hcfg : Reg.hpPortCfg ∉ rs)
    (hstatus : Reg.hpLinkStatus ∉ rs) (fn : Nat) : t.linkUp (t.linkOf fn) = s.linkUp (s.linkOf fn) := by
  have hports : t.bifurcated = s.bifurcated := funext fun p => h.flag F.hpPortCfgBifurcate p 0 (by decide) hcfg
  have hlink : t.linkOf fn = s.linkOf fn := by rw [State.linkOf, State.linkOf, hports]
  have hstate : t.linkState (s.linkOf fn) = s.linkState (s.linkOf fn) :=
    h F.hpLinkStatusState _ _ (by cases (s.linkOf fn).sub <;> decide) hstatus
  rw [hlink, State.linkUp, State.linkUp, hstate, State.linkPresent, State.linkPresent, hports, State.portPresent, State.portPresent, hfuses]

theorem regsKept.aptRefusal {rs : List Reg} {s t : State} (h : regsKept rs s t) (hctrl : Reg.aptCtrl ∉ rs) (fn n : Nat) :
    t.aptRefusal fn n = s.aptRefusal fn n := by
  rw [State.aptRefusal, State.aptRefusal, h.flag F.aptCtrlErrMode fn 0 (by decide) hctrl]

theorem State.aptAnswer_of_up {s : State} {fn : Nat} (hup : s.linkUp (s.linkOf fn) = true) (tag : Nat) (a : PcieAns) :
    s.aptAnswer fn tag a = s.emit (.pcie fn tag a) := if_pos hup

/-! ### Failures -/

theorem apts_of_butFlds {s t : State} (h : t.butFlds = s.butFlds) : t.apts = s.apts :=
  (congrArg State.apts h : t.butFlds.apts = s.butFlds.apts)

theorem fuses_of_butFlds {s t : State} (h : t.butFlds = s.butFlds) : t.fuses = s.fuses :=
  (congrArg State.fuses h : t.butFlds.fuses = s.butFlds.fuses)

/-- A failed access captured in ERR_LOG. -/
def State.aptCaptured (s : State) (fn ao : Nat) (write : Bool) (st : Status) : State :=
  (((s.setFlag F.aptErrLogValid true fn).setFlag F.aptErrLogWrite write fn).setFld F.aptErrLogStatus st.code fn).setFld F.aptErrLogAo ao fn

/-- A failed access counted in ERR_COUNT. -/
def State.aptFailCounted (s : State) (fn : Nat) (write : Bool) : State :=
  s.countSat (if write then F.aptErrCountWrites else F.aptErrCountReads) fn

theorem State.regsKept_aptFailCounted (s : State) (fn : Nat) (write : Bool) :
    regsKept [.aptErrCount] s (s.aptFailCounted fn write) := by
  cases write with
  | false => exact regsKept_setFld (f := F.aptErrCountReads) s (by decide) _ fn 0 (by decide)
  | true => exact regsKept_setFld (f := F.aptErrCountWrites) s (by decide) _ fn 0 (by decide)

theorem State.aptFail_eq (s : State) (fn ao : Nat) (write : Bool) (st : Status) :
    s.aptFail fn ao write st =
      if s.flag F.aptErrLogValid fn then s.aptFailCounted fn write else (s.aptFailCounted fn write).aptCaptured fn ao write st :=
  if_congr (by rw [← (s.regsKept_aptFailCounted fn write).flag F.aptErrLogValid fn 0 (by decide) (by decide)]; rfl) rfl rfl

theorem State.regsKept_aptCaptured (s : State) (fn ao : Nat) (write : Bool) (st : Status) :
    regsKept [.aptErrLog] s (s.aptCaptured fn ao write st) :=
  (((regsKept_setFld (f := F.aptErrLogValid) s (by decide) _ fn 0 (by decide)).setFld (f := F.aptErrLogWrite) (by decide) _ fn 0
    (by decide)).setFld (f := F.aptErrLogStatus) (by decide) _ fn 0 (by decide)).setFld (by decide) _ fn 0 (by decide)

/-- What ERR_LOG shows of a captured failure. -/
theorem State.aptCaptured_shown (s : State) (fn ao : Nat) (write : Bool) (st : Status) :
    (s.aptCaptured fn ao write st).flag F.aptErrLogValid fn = true ∧ (s.aptCaptured fn ao write st).flag F.aptErrLogWrite fn = write ∧
      (s.aptCaptured fn ao write st).fld F.aptErrLogStatus fn = st.code ∧
      (s.aptCaptured fn ao write st).fld F.aptErrLogAo fn = ao % 2 ^ F.aptErrLogAo.width := by
  refine ⟨?_, ?_, ?_, fld_setFld_self _ _ _ fn 0⟩
  · rw [State.flag, State.aptCaptured, fld_setFld_ne (by decide), fld_setFld_ne (by decide), State.setFlag, fld_setFld_ne (by decide)]
    exact s.flag_setFlag F.aptErrLogValid true fn 0 rfl
  · rw [State.flag, State.aptCaptured, fld_setFld_ne (by decide), fld_setFld_ne (by decide)]
    exact State.flag_setFlag _ F.aptErrLogWrite write fn 0 rfl
  · rw [State.aptCaptured, fld_setFld_ne (by decide)]
    exact fld_setFld_of_lt (f := F.aptErrLogStatus) st.code_lt _ fn 0

theorem State.butFlds_aptFail (s : State) (fn ao : Nat) (write : Bool) (st : Status) : (s.aptFail fn ao write st).butFlds = s.butFlds := by
  rw [State.aptFail_eq]
  split
  · exact s.butFlds_setFld _ _ fn 0
  · simp only [State.aptCaptured, State.aptFailCounted, State.countSat, State.butFlds_setFld, State.butFlds_setFlag]

theorem State.regsKept_aptFail (s : State) (fn ao : Nat) (write : Bool) (st : Status) :
    regsKept [.aptErrCount, .aptErrLog] s (s.aptFail fn ao write st) := by
  have hcounted := (s.regsKept_aptFailCounted fn write).mono (rs' := [.aptErrCount, .aptErrLog]) (by decide)
  rw [State.aptFail_eq]
  split
  · exact hcounted
  · exact hcounted.trans ((State.regsKept_aptCaptured _ fn ao write st).mono (by decide))

theorem State.aptFail_valid (s : State) (fn ao : Nat) (write : Bool) (st : Status) :
    (s.aptFail fn ao write st).flag F.aptErrLogValid fn = true := by
  rw [State.aptFail_eq]
  split
  · next h => rwa [(s.regsKept_aptFailCounted fn write).flag F.aptErrLogValid fn 0 (by decide) (by decide)]
  · exact (State.aptCaptured_shown _ fn ao write st).1

/-- The first failure is captured. -/
theorem State.aptFail_shown {s : State} {fn : Nat} (h : s.flag F.aptErrLogValid fn = false) (ao : Nat) (write : Bool) (st : Status) :
    (s.aptFail fn ao write st).flag F.aptErrLogWrite fn = write ∧ (s.aptFail fn ao write st).fld F.aptErrLogStatus fn = st.code ∧
      (s.aptFail fn ao write st).fld F.aptErrLogAo fn = ao % 2 ^ F.aptErrLogAo.width := by
  rw [State.aptFail_eq, h, if_neg Bool.false_ne_true]
  exact (State.aptCaptured_shown _ fn ao write st).2

/-- A read or atomic that failed is answered on a link that is up. -/
theorem State.aptRefuse_of_up {s : State} {fn : Nat} (hup : s.linkUp (s.linkOf fn) = true) (tag ao n : Nat) (st : Status) :
    s.aptRefuse fn tag ao n st = (s.aptFail fn ao false st).emit (.pcie fn tag (s.aptRefusal fn n)) := by
  have hfuses := fuses_of_butFlds (s.butFlds_aptFail fn ao false st)
  refine State.aptAnswer_of_up ?_ tag _
  rw [(s.regsKept_aptFail fn ao false st).linkUp hfuses (by decide) (by decide), hup]

end Machine
end Sys2Proof
end

section
/-! PROOFS. Requests to the aperture (R58, R60, R61, R63, R65, R69). -/

namespace Sys2Proof
namespace Machine

/-! ### How a request to BAR2 is answered -/

theorem State.barRead_of_unsupported {s : State} {fn : Nat} (h : s.barAnswer fn = .unsupported) (tag n : Nat) (f : State → State) :
    s.barRead fn tag n f = s.emit (.pcie fn tag .unsupported) := by
  rw [State.barRead, h]

theorem State.barRead_bwRx_served {s : State} {fn : Nat} (h : s.barAnswer fn = .served) (k tag n : Nat) (f : State → State) :
    (s.bwRx fn k).barRead fn tag n f = f (s.bwRx fn k) :=
  State.barRead_of_served ((s.barAnswer_bwRx fn k fn).trans h) tag n f

theorem State.barRead_bwRx_unsupported {s : State} {fn : Nat} (h : s.barAnswer fn = .unsupported) (k tag n : Nat) (f : State → State) :
    (s.bwRx fn k).barRead fn tag n f = (s.bwRx fn k).emit (.pcie fn tag .unsupported) :=
  State.barRead_of_unsupported ((s.barAnswer_bwRx fn k fn).trans h) tag n f

theorem State.barWrite_of_served {s : State} {fn : Nat} (h : s.barAnswer fn = .served) (f : State → State) : s.barWrite fn f = f s :=
  if_pos h

theorem State.barWrite_of_not_served {s : State} {fn : Nat} (h : s.barAnswer fn ≠ .served) (f : State → State) : s.barWrite fn f = s :=
  if_neg h

/-- A function whose BARs are served has a link that is up. -/
theorem State.linkUp_of_served {s : State} {fn : Nat} (h : s.barAnswer fn = .served) : s.linkUp (s.linkOf fn) = true := by
  by_contra hdown
  have hdown : (!s.linkUp (s.linkOf fn)) = true := by simpa using hdown
  rw [State.barAnswer, if_pos hdown] at h
  exact absurd h (by decide)

theorem State.aptAtomicIn_bar2 (s : State) (fn tag ao : Nat) {kind : AtomicKind} (h : kind ≠ .bar4) (a b : Nat) :
    s.aptAtomicIn fn tag ao kind a b = (s.bwRx fn (atomicBytes kind)).barRead fn tag 8 fun t =>
      if (aptAtomicOp kind).isNone then t.emit (.pcie fn tag .unsupported) else t.aptTake fn (.atomic tag ao kind a b) := by
  cases kind with
  | bar4 => exact absurd rfl h
  | fetchAdd64 | cas64 | cas128 | fetchAdd32 | cas32 | swap | bar0 | other => rfl

/-! ### Requests that are taken -/

theorem State.aptTake_bwRx (s : State) (fn n : Nat) (r : AptReq) :
    (s.bwRx fn n).aptTake fn r =
      if r.awaits = true ∧ s.aptFull fn = true then (s.aptSeen fn n r).aptBusy fn r else (s.aptSeen fn n r).aptServe fn r := by
  rw [← s.aptFull_aptSeen fn n r]
  rfl

theorem State.aptTake_served {s : State} {fn : Nat} {r : AptReq} (h : r.awaits = false ∨ s.aptFull fn = false) (n : Nat) :
    (s.bwRx fn n).aptTake fn r = (s.aptSeen fn n r).aptServe fn r := by
  rw [State.aptTake_bwRx, if_neg]
  rintro ⟨hawaits, hfull⟩
  rcases h with h | h
  · exact Bool.false_ne_true (h.symm.trans hawaits)
  · exact Bool.false_ne_true (h.symm.trans hfull)

theorem State.aptReadIn_served {s : State} {fn : Nat} (hserved : s.barAnswer fn = .served) (tag ao len : Nat) :
    s.aptReadIn fn tag ao len = (s.bwRx fn 0).aptTake fn (.read tag ao len) :=
  State.barRead_bwRx_served hserved 0 tag len _

theorem State.aptReadIn_free {s : State} {fn : Nat} (hserved : s.barAnswer fn = .served) (hfree : s.aptFull fn = false)
    (tag ao len : Nat) : s.aptReadIn fn tag ao len = (s.aptSeen fn 0 (.read tag ao len)).aptRead fn tag ao len :=
  (State.aptReadIn_served hserved tag ao len).trans (State.aptTake_served (.inr hfree) 0)

theorem State.aptReadIn_full {s : State} {fn : Nat} (hserved : s.barAnswer fn = .served) (hfull : s.aptFull fn = true)
    (tag ao len : Nat) :
    s.aptReadIn fn tag ao len = (s.aptSeen fn 0 (.read tag ao len)).aptRefuse fn tag ao len .aptBusy := by
  rw [State.aptReadIn_served hserved, State.aptTake_bwRx, if_pos ⟨rfl, hfull⟩]
  rfl

theorem State.aptWriteIn_served {s : State} {fn : Nat} (hserved : s.barAnswer fn = .served) (ao : Nat) (data : List Byte) :
    s.aptWriteIn fn ao data = (s.aptSeen fn data.length (.write ao data)).aptWrite fn ao data :=
  (State.barWrite_of_served ((s.barAnswer_bwRx fn _ fn).trans hserved) _).trans (State.aptTake_served (.inl rfl) _)

/-- An AtomicOp that BAR2 takes, at no limit. -/
theorem State.aptAtomicIn_taken {s : State} {fn : Nat} {kind : AtomicKind} {k : SltOp} (hserved : s.barAnswer fn = .served)
    (hkind : aptAtomicOp kind = some k) (hfree : s.aptFull fn = false) (tag ao a b : Nat) :
    s.aptAtomicIn fn tag ao kind a b =
      (s.aptSeen fn (atomicBytes kind) (.atomic tag ao kind a b)).aptServe fn (.atomic tag ao kind a b) := by
  have hbar2 : kind ≠ .bar4 := by rintro rfl; exact nomatch hkind
  rw [State.aptAtomicIn_bar2 s fn tag ao hbar2, State.barRead_bwRx_served hserved, hkind, Option.isNone_some,
    if_neg Bool.false_ne_true, State.aptTake_served (.inr hfree)]

theorem State.aptServe_atomic {s : State} {fn tag ao : Nat} {kind : AtomicKind} {k : SltOp} {a b : Nat}
    (hkind : aptAtomicOp kind = some k) (hfree : s.aptWaits fn ao (AptReq.atomic tag ao kind a b).bytes true true = false) :
    s.aptServe fn (.atomic tag ao kind a b) = s.aptAtomic fn tag ao k a b := by
  rw [State.aptServe, hfree, if_neg Bool.false_ne_true, State.aptAtomicReq, hkind]

/-! ### Requests that a commit holds -/

theorem aptParts_within {ao len : Nat} (h : ao % slotSize + len ≤ slotSize) : aptParts ao len = [(ao, len)] := by
  have hlen : min len (slotSize - ao % slotSize) = len := min_eq_left (by omega)
  simp only [aptParts, hlen, if_true]

theorem State.aptWaits_of_commit {s : State} {fn ao : Nat} (h : (s.apt fn).commitSlot = some (ao / slotSize)) (len : Nat) (r w : Bool) :
    s.aptWaits fn ao len r w = true := by
  have hholds : (s.apt fn).holds ao = true := by rw [Aperture.holds, h, beq_self_eq_true]
  rw [State.aptWaits, hholds, Bool.true_or]

/-- A read that has become outstanding. -/
def State.aptOpened (s : State) (fn : Nat) (r : AptRead) : State :=
  (s.setApt fn { s.apt fn with reads := (s.apt fn).reads ++ [r] }).showReads fn

theorem State.apt_aptOpened (s : State) (fn : Nat) (r : AptRead) :
    (s.aptOpened fn r).apt fn = { s.apt fn with reads := (s.apt fn).reads ++ [r] } := s.apt_setApt fn _

theorem State.apt_aptHold (s : State) (fn : Nat) (r : AptReq) (fenced : Bool) :
    (s.aptHold fn r fenced).apt fn = { s.apt fn with held := (s.apt fn).held ++ [(r, fenced)] } := s.apt_setApt fn _

theorem State.aptRead_held {s : State} {fn ao len : Nat} (hslot : (s.apt fn).commitSlot = some (ao / slotSize))
    (hfit : ao % slotSize + len ≤ slotSize) (tag : Nat) :
    s.aptRead fn tag ao len =
      (s.aptOpened fn { tag := tag, len := len, parts := [(ao, .wait)] }).aptHold fn (.read tag ao len) false := by
  have hparts := aptParts_within hfit
  have hopened := s.apt_aptOpened fn { tag := tag, len := len, parts := [(ao, .wait)] }
  have hwaits := State.aptWaits_of_commit (s := s.aptOpened fn { tag := tag, len := len, parts := [(ao, .wait)] }) (fn := fn) (ao := ao)
    (by rw [hopened, hslot]) len true false
  simp only [State.aptOpened] at hopened hwaits ⊢
  simp [State.aptRead, hparts, hopened, hwaits]

theorem State.aptWrite_held {s : State} {fn ao : Nat} {data : List Byte} (hslot : (s.apt fn).commitSlot = some (ao / slotSize))
    (hfit : ao % slotSize + data.length ≤ slotSize) : s.aptWrite fn ao data = s.aptHold fn (.write ao data) false := by
  simp [State.aptWrite, aptParts_within hfit, State.aptWaits_of_commit hslot]

/-- Settles O7: each command takes its request, once counted, and serves it, holds it or refuses it. -/
theorem apertureRequestsComplete : Obligations.ApertureRequestsComplete := by
  refine ⟨?_, ?_, ?_, ?_, ?_, ?_, ?_, ?_, ?_, ?_⟩
  · exact fun s fn tag ao len hserved hfree => congrArg s.ends (State.aptReadIn_free hserved hfree tag ao len)
  · exact fun s fn ao data hserved => congrArg s.ends (State.aptWriteIn_served hserved ao data)
  · intro s t fn tag ao kind k a b hserved hkind ht hwaits hfree
    have heffect := State.aptAtomicIn_taken hserved hkind hfree tag ao a b
    rw [← ht, State.aptServe_atomic hkind hwaits] at heffect
    exact congrArg s.ends heffect
  · intro s fn tag ao kind a b hserved hkind hbar2
    have heffect := State.aptAtomicIn_bar2 s fn tag ao hbar2 a b
    rw [State.barRead_bwRx_served hserved, hkind] at heffect
    exact congrArg s.ends heffect
  · intro s fn tag ao len hserved hslot hfit hfree
    have hseen := s.apt_aptSeen fn 0 (.read tag ao len) fn
    obtain ⟨_, hqps, hmem, _⟩ := s.aptSeen_fields fn 0 (.read tag ao len)
    have hsent := s.onlySignals_aptSeen fn 0 (.read tag ao len)
    have heffect := State.aptReadIn_free hserved hfree tag ao len
    generalize s.aptSeen fn 0 (.read tag ao len) = t at hseen hqps hmem hsent heffect
    rw [State.aptRead_held (hseen ▸ hslot) hfit] at heffect
    refine ⟨_, congrArg s.ends heffect, ?_, ?_, ?_, hqps, hsent.trans (onlySignals_of_out_eq rfl), memKept_of_mem_eq hmem⟩ <;>
      rw [State.apt_aptHold, State.apt_aptOpened, hseen]
  · intro s fn ao data hserved hslot hfit
    have hseen := s.apt_aptSeen fn data.length (.write ao data) fn
    obtain ⟨_, hqps, hmem, _⟩ := s.aptSeen_fields fn data.length (.write ao data)
    have hsent := s.onlySignals_aptSeen fn data.length (.write ao data)
    have heffect := State.aptWriteIn_served hserved ao data
    generalize s.aptSeen fn data.length (.write ao data) = t at hseen hqps hmem hsent heffect
    rw [State.aptWrite_held (hseen ▸ hslot) hfit] at heffect
    refine ⟨_, congrArg s.ends heffect, ?_, ?_, ?_, hqps, hsent.trans (onlySignals_of_out_eq rfl), memKept_of_mem_eq hmem⟩ <;>
      rw [State.apt_aptHold, hseen]
  · intro s fn tag ao len hserved hfull
    have hkept := s.regsKept_aptSeen fn 0 (.read tag ao len)
    obtain ⟨hapts, _, hmem, hfuses⟩ := s.aptSeen_fields fn 0 (.read tag ao len)
    have heffect := State.aptReadIn_full hserved hfull tag ao len
    generalize s.aptSeen fn 0 (.read tag ao len) = t at hkept hapts hmem hfuses heffect
    have hup : t.linkUp (t.linkOf fn) = true :=
      (hkept.linkUp hfuses (by decide) (by decide) fn).trans (State.linkUp_of_served hserved)
    rw [State.aptRefuse_of_up hup, hkept.aptRefusal (by decide)] at heffect
    have hrest := t.butFlds_aptFail fn ao false .aptBusy
    refine ⟨_, congrArg s.ends heffect, ?_, ?_, fun hempty => ?_, ?_, ?_⟩
    · simp [apts_of_butFlds hrest, hapts]
    · rw [State.flag_emit, State.aptFail_valid]
    · have hnone := (hkept.flag F.aptErrLogValid fn 0 (by decide) (by decide)).trans hempty
      simpa using State.aptFail_shown hnone ao false .aptBusy
    · simp
    · exact memKept_of_mem_eq (by simp [mem_of_butFlds hrest, hmem])
  · intro s fn tag ao len hclosed
    exact congrArg s.ends (State.barRead_bwRx_unsupported hclosed 0 tag len _)
  · intro s fn ao data hclosed
    have hnot : (s.bwRx fn data.length).barAnswer fn ≠ .served := by rw [State.barAnswer_bwRx, hclosed]; decide
    exact congrArg s.ends (State.barWrite_of_not_served hnot _)
  · intro s fn tag ao kind a b hclosed hbar2
    have heffect := State.aptAtomicIn_bar2 s fn tag ao hbar2 a b
    rw [State.barRead_bwRx_unsupported hclosed] at heffect
    exact congrArg s.ends heffect

end Machine
end Sys2Proof
end

section
/-! PROOFS. Answers, deadline, commits and fences of the aperture (R62, R64, R65, R69). -/

namespace Sys2Proof
namespace Machine

/-! ### Answers and the deadline -/

theorem State.aptResponse_awaited {s : State} {fn tag ao : Nat} (h : s.aptAwaits fn tag ao = true) (st : Status) (data : List Byte) :
    s.aptResponse fn tag ao st data = s.aptPart fn tag ao (if st = .ok then .got data else .failed st) := if_pos h

theorem State.aptResponse_unawaited {s : State} {fn tag ao : Nat} (h : s.aptAwaits fn tag ao = false) (st : Status) (data : List Byte) :
    s.aptResponse fn tag ao st data = s := by
  rw [State.aptResponse, h, if_neg Bool.false_ne_true]

/-- A read of a tag whose deadline has passed: the parts that are still awaited have failed. -/
def AptRead.late (tag : Nat) (r : AptRead) : AptRead :=
  if r.tag = tag then { r with parts := r.parts.map fun p => if p.2 = .wait then (p.1, .failed .aptDeadline) else p } else r

/-- The state in which the deadline of a read has passed. -/
def State.deadlinePassed (s : State) (fn tag : Nat) : State :=
  s.setApt fn { s.apt fn with reads := (s.apt fn).reads.map (AptRead.late tag) }

theorem State.readDeadline_eq (s : State) (fn tag : Nat) :
    s.readDeadline fn tag = ((s.deadlinePassed fn tag).orphanApt fn tag).aptSettle fn tag := rfl

theorem State.deadlinePassed_reads (s : State) (fn tag : Nat) :
    ((s.deadlinePassed fn tag).apt fn).reads = (s.apt fn).reads.map (AptRead.late tag) := by
  rw [State.deadlinePassed, State.apt_setApt]

/-- The state without the outstanding read of a tag, and without its parts that are held. -/
def State.aptDropped (s : State) (fn tag : Nat) : State :=
  (s.setApt fn { s.apt fn with reads := (s.apt fn).reads.filter (fun r => r.tag != tag),
                               held := (s.apt fn).held.filter fun h => !h.1.isRead tag }).showReads fn

/-- A read whose only part has failed is taken off and refused. -/
theorem State.aptSettle_failed {s : State} {fn tag len ao : Nat} {st : Status}
    (h : (s.apt fn).reads = [{ tag := tag, len := len, parts := [(ao, .failed st)] }]) :
    s.aptSettle fn tag = (s.aptDropped fn tag).aptRefuse fn tag ao len st := by
  simp [State.aptSettle, h, aptFailed, State.aptDropped]

/-- The read of one part whose deadline has passed is off, with its failure in ERR_LOG and its answer sent. -/
theorem State.readDeadline_single {s : State} {fn tag ao len : Nat}
    (hreads : (s.apt fn).reads = [{ tag := tag, len := len, parts := [(ao, .wait)] }]) (hempty : s.flag F.aptErrLogValid fn = false)
    (hup : s.linkUp (s.linkOf fn) = true) :
    ((s.readDeadline fn tag).apt fn).reads = [] ∧ (s.readDeadline fn tag).fld F.aptErrLogStatus fn = Status.aptDeadline.code ∧
      (s.readDeadline fn tag).fld F.aptErrLogAo fn = ao % 2 ^ F.aptErrLogAo.width ∧
      .pcie fn tag (s.aptRefusal fn len) ∈ (s.readDeadline fn tag).out ∧ memKept s (s.readDeadline fn tag) := by
  have hlate : (((s.deadlinePassed fn tag).orphanApt fn tag).apt fn).reads =
      [{ tag := tag, len := len, parts := [(ao, .failed .aptDeadline)] }] := by
    refine (s.deadlinePassed_reads fn tag).trans ?_
    rw [hreads]
    simp [AptRead.late]
  have heffect := (s.readDeadline_eq fn tag).trans (State.aptSettle_failed hlate)
  have hoff : ((((s.deadlinePassed fn tag).orphanApt fn tag).aptDropped fn tag).apt fn).reads = [] := by
    refine (congrArg Aperture.reads (State.apt_setApt _ fn _)).trans ?_
    rw [hlate]
    simp
  have hkept : regsKept [.aptStatus] s (((s.deadlinePassed fn tag).orphanApt fn tag).aptDropped fn tag) :=
    regsKept_setFld (f := F.aptStatusOutReads) s (by decide) _ fn 0 (by decide)
  have hmem : (((s.deadlinePassed fn tag).orphanApt fn tag).aptDropped fn tag).mem = s.mem := rfl
  have hfuses : (((s.deadlinePassed fn tag).orphanApt fn tag).aptDropped fn tag).fuses = s.fuses := rfl
  generalize ((s.deadlinePassed fn tag).orphanApt fn tag).aptDropped fn tag = t at heffect hoff hkept hmem hfuses
  have hlink : t.linkUp (t.linkOf fn) = true := (hkept.linkUp hfuses (by decide) (by decide) fn).trans hup
  have hnone := (hkept.flag F.aptErrLogValid fn 0 (by decide) (by decide)).trans hempty
  have hrest := t.butFlds_aptFail fn ao false .aptDeadline
  obtain ⟨_, hstatus, hao⟩ := State.aptFail_shown hnone ao false .aptDeadline
  rw [heffect, State.aptRefuse_of_up hlink, hkept.aptRefusal (by decide)]
  refine ⟨?_, by simp [hstatus], by simp [hao], by simp, memKept_of_mem_eq (by simp [mem_of_butFlds hrest, hmem])⟩
  rw [State.apt] at hoff ⊢
  simpa [apts_of_butFlds hrest] using hoff

/-! ### Commits -/

/-- The state in which a commit of the slot that INDEX names has begun, of an entry unless it was refused, and LAST_FAIL and LAST_STATUS
tell of it. -/
def State.aptCommits (s : State) (fn : Nat) (e : Option AptEntry) (fail : Bool) (code : Nat) : State :=
  ((((s.setFlag F.aptStatusBusy true fn).setApt fn { s.apt fn with commitSlot := some (s.fld F.aptIndexSlot fn), commitEntry := e }).setFlag
    F.aptStatusLastFail fail fn).setFld F.aptStatusLastStatus code fn)

/-- What an entry that a write to ENTRY_LO commits holds before its key is resolved. -/
def State.aptStaged (s : State) (fn v : Nat) : AptEntry :=
  { wkey := bits v 63 32, woff := bits v 31 11, w := bit v 2, r := bit v 1, v := bit v 0, qp := (s.apt fn).stagedQp,
    conn := (s.qp (s.apt fn).stagedQp).conn }

theorem State.aptCommit_cleared {v : Nat} (hv : bit v 0 = false) (s : State) (fn : Nat) :
    s.aptCommit fn v = s.aptCommits fn (some (s.aptStaged fn v)) false 0 := by
  simp only [State.aptCommit, hv, Bool.not_false, if_true, State.aptCommits, State.aptStaged]

theorem State.aptCommit_accepted {s : State} {fn v : Nat} {h : KeyHome} (hv : bit v 0 = true)
    (hcheck : s.aptCommitCheck fn (bits v 63 32) (bits v 31 11) (s.apt fn).stagedQp = .ok h) :
    s.aptCommit fn v = s.aptCommits fn (some { s.aptStaged fn v with home := h }) false 0 := by
  simp only [State.aptCommit, hv, Bool.not_true, Bool.false_eq_true, if_false, hcheck, State.aptCommits, State.aptStaged]

theorem State.aptCommit_refused {s : State} {fn v : Nat} {st : Status} (hv : bit v 0 = true)
    (hcheck : s.aptCommitCheck fn (bits v 63 32) (bits v 31 11) (s.apt fn).stagedQp = .error st) :
    s.aptCommit fn v = s.aptCommits fn none true st.code := by
  simp only [State.aptCommit, hv, Bool.not_true, Bool.false_eq_true, if_false, hcheck, State.aptCommits]

theorem State.aptCommitIn_idle {s : State} {fn : Nat} (hserved : s.barAnswer fn = .served) (hidle : s.flag F.aptStatusBusy fn = false)
    (v : Nat) : s.aptCommitIn fn v = s.aptCommit fn v := by
  rw [State.aptCommitIn, State.barWrite_of_served hserved, hidle, if_neg Bool.false_ne_true]

section
variable (s : State) (fn : Nat) (e : Option AptEntry) (fail : Bool) (code : Nat)

theorem State.apt_aptCommits :
    (s.aptCommits fn e fail code).apt fn = { s.apt fn with commitSlot := some (s.fld F.aptIndexSlot fn), commitEntry := e } :=
  State.apt_setApt _ fn _

theorem State.slotOf_aptCommits (i : Nat) : (s.aptCommits fn e fail code).slotOf fn i = s.slotOf fn i := by
  rw [State.slotOf, State.apt_aptCommits, State.slotOf]

theorem State.aptCommits_busy : (s.aptCommits fn e fail code).flag F.aptStatusBusy fn = true := by
  rw [State.flag, State.aptCommits, fld_setFld_ne (by decide), State.setFlag, fld_setFld_ne (by decide), State.fld_setApt]
  exact s.flag_setFlag F.aptStatusBusy true fn 0 rfl

theorem State.aptCommits_lastFail : (s.aptCommits fn e fail code).flag F.aptStatusLastFail fn = fail := by
  rw [State.flag, State.aptCommits, fld_setFld_ne (by decide)]
  exact State.flag_setFlag _ F.aptStatusLastFail fail fn 0 rfl

theorem State.aptCommits_lastStatus :
    (s.aptCommits fn e fail code).fld F.aptStatusLastStatus fn = code % 2 ^ F.aptStatusLastStatus.width := fld_setFld_self _ _ _ fn 0

theorem State.regsKept_aptCommits : regsKept [.aptStatus] s (s.aptCommits fn e fail code) := by
  have hbusy : regsKept [.aptStatus] s (s.setFlag F.aptStatusBusy true fn) := regsKept_setFld s (by decide) _ fn 0 (by decide)
  have hslot := hbusy.trans (regsKept_of_flds_eq (t := (s.setFlag F.aptStatusBusy true fn).setApt fn
    { s.apt fn with commitSlot := some (s.fld F.aptIndexSlot fn), commitEntry := e }) _ rfl)
  exact (hslot.setFld (f := F.aptStatusLastFail) (by decide) _ fn 0 (by decide)).setFld (by decide) _ fn 0 (by decide)

theorem State.memKept_aptCommits : memKept s (s.aptCommits fn e fail code) := memKept_of_mem_eq rfl

end

/-! ### The end of a commit -/

/-- The slots of an aperture once the entry that a commit has accepted is in its slot. -/
def Aperture.committed (x : Aperture) : AMap AptEntry :=
  match x.commitSlot, x.commitEntry with
  | some n, some e => AMap.save {} x.slots n e
  | _, _ => x.slots

theorem Aperture.committed_refused {x : Aperture} (h : x.commitEntry = none) : x.committed = x.slots := by
  rw [Aperture.committed, h]
  cases x.commitSlot <;> rfl

/-- The state in which a commit is over, with what was held still held. -/
def State.aptCommitted (s : State) (fn : Nat) : State :=
  (s.setFlag F.aptStatusBusy false fn).setApt fn
    { s.apt fn with slots := (s.apt fn).committed, commitSlot := none, commitEntry := none }

theorem State.aptCommitDone_busy {s : State} {fn : Nat} (h : s.flag F.aptStatusBusy fn = true) :
    s.aptCommitDone fn = (s.aptCommitted fn).aptRetry fn := by
  rw [State.aptCommitDone, h]
  rfl

theorem State.apt_aptCommitted (s : State) (fn : Nat) :
    (s.aptCommitted fn).apt fn = { s.apt fn with slots := (s.apt fn).committed, commitSlot := none, commitEntry := none } :=
  State.apt_setApt _ fn _

theorem State.aptCommitted_idle (s : State) (fn : Nat) : (s.aptCommitted fn).flag F.aptStatusBusy fn = false :=
  s.flag_setFlag F.aptStatusBusy false fn 0 rfl

theorem State.regsKept_aptCommitted (s : State) (fn : Nat) : regsKept [.aptStatus] s (s.aptCommitted fn) := by
  have hbusy : regsKept [.aptStatus] s (s.setFlag F.aptStatusBusy false fn) := regsKept_setFld s (by decide) _ fn 0 (by decide)
  exact hbusy.trans (regsKept_of_flds_eq _ rfl)

/-- An accepted entry is in its slot, and no other slot has changed. -/
theorem State.slotOf_aptCommitted {s : State} {fn i : Nat} {e : AptEntry} (hslot : (s.apt fn).commitSlot = some i)
    (hentry : (s.apt fn).commitEntry = some e) :
    (s.aptCommitted fn).slotOf fn i = e ∧ ∀ j, j ≠ i → (s.aptCommitted fn).slotOf fn j = s.slotOf fn j := by
  have hslots : ((s.aptCommitted fn).apt fn).slots = AMap.save {} (s.apt fn).slots i e := by
    rw [State.apt_aptCommitted, Aperture.committed, hslot, hentry]
  simp only [State.slotOf, hslots]
  exact ⟨AMap.look_save_self _ _ i e, fun j hj => AMap.look_save_ne _ _ _ e hj⟩

theorem State.aptCommitted_refused {s : State} {fn : Nat} (hentry : (s.apt fn).commitEntry = none) :
    ((s.aptCommitted fn).apt fn).slots = (s.apt fn).slots := by
  rw [State.apt_aptCommitted, Aperture.committed_refused hentry]

/-- Nothing that is held, nothing that goes on. -/
theorem State.aptRetry_of_none {s : State} {fn : Nat} (h : (s.apt fn).held = []) : s.aptRetry fn = s := by
  simp [State.aptRetry, h]

theorem State.aptCommitDone_none_held {s : State} {fn : Nat} (hbusy : s.flag F.aptStatusBusy fn = true) (hheld : (s.apt fn).held = []) :
    s.aptCommitDone fn = s.aptCommitted fn := by
  rw [State.aptCommitDone_busy hbusy, State.aptRetry_of_none (by rw [State.apt_aptCommitted, hheld])]

/-! ### Fences -/

/-- The state in which the fence covers every write in flight and every request that is held. -/
def State.aptFenced (s : State) (fn : Nat) : State :=
  (s.setApt fn { s.apt fn with writes := (s.apt fn).writes.map fun w => (w.1, true),
                               held := (s.apt fn).held.map fun h => (h.1, true) }).setFlag F.aptStatusFencePend true fn

theorem State.aptFence_served {s : State} {fn : Nat} (h : s.barAnswer fn = .served) : s.aptFence fn = s.aptFenced fn :=
  State.barWrite_of_served h _

theorem State.apt_aptFenced (s : State) (fn : Nat) :
    (s.aptFenced fn).apt fn = { s.apt fn with writes := (s.apt fn).writes.map fun w => (w.1, true),
                                              held := (s.apt fn).held.map fun h => (h.1, true) } := State.apt_setApt s fn _

theorem State.aptFenceDone_clear {s : State} {fn : Nat} (h : (s.apt fn).fenced = false) :
    s.aptFenceDone fn = s.setFlag F.aptStatusFencePend false fn := by
  rw [State.aptFenceDone, h, if_neg Bool.false_ne_true]

/-- Settles O8: a commit, its end and the fence write the function's aperture and APT.STATUS; the deadline settles its read. -/
theorem apertureCommitsAndFencesComplete : Obligations.ApertureCommitsAndFencesComplete := by
  refine ⟨?_, ?_, ?_, ?_, ?_, ?_, ?_, ?_, ?_, ?_, ?_, ?_, ?_⟩
  · exact fun s fn tag ao data h => congrArg s.ends ((State.aptResponse_awaited h .ok data).trans (by rw [if_pos rfl]))
  · exact fun s fn tag ao st data h hst => congrArg s.ends ((State.aptResponse_awaited h st data).trans (by rw [if_neg hst]))
  · exact fun s fn tag ao st data h => congrArg s.ends (State.aptResponse_unawaited h st data)
  · exact fun s fn tag => ⟨s.deadlinePassed fn tag, congrArg s.ends (s.readDeadline_eq fn tag), s.deadlinePassed_reads fn tag, rfl⟩
  · exact fun s fn tag ao len hreads hempty hup => ⟨_, rfl, State.readDeadline_single hreads hempty hup⟩
  · intro s fn v hserved hidle hv
    have heffect := (State.aptCommitIn_idle hserved hidle v).trans (s.aptCommit_cleared hv fn)
    refine ⟨_, congrArg s.ends heffect, s.aptCommits_busy fn _ _ _, ?_, s.aptCommits_lastFail fn _ _ _, s.aptCommits_lastStatus fn _ _ _,
      ⟨s.aptStaged fn v, ?_, hv⟩, s.slotOf_aptCommits fn _ _ _, s.regsKept_aptCommits fn _ _ _, s.memKept_aptCommits fn _ _ _⟩ <;>
      rw [State.apt_aptCommits]
  · intro s fn v h hserved hidle hv hcheck
    have heffect := (State.aptCommitIn_idle hserved hidle v).trans (State.aptCommit_accepted hv hcheck)
    refine ⟨_, congrArg s.ends heffect, s.aptCommits_busy fn _ _ _, ?_, s.aptCommits_lastFail fn _ _ _, s.aptCommits_lastStatus fn _ _ _,
      ?_, s.slotOf_aptCommits fn _ _ _, s.regsKept_aptCommits fn _ _ _, s.memKept_aptCommits fn _ _ _⟩ <;>
      rw [State.apt_aptCommits]
    rw [State.aptStaged, hv]
  · intro s fn v st hserved hidle hv hcheck
    have heffect := (State.aptCommitIn_idle hserved hidle v).trans (State.aptCommit_refused hv hcheck)
    refine ⟨_, congrArg s.ends heffect, s.aptCommits_busy fn _ _ _, s.aptCommits_lastFail fn _ _ _, s.aptCommits_lastStatus fn _ _ _, ?_,
      s.slotOf_aptCommits fn _ _ _, s.memKept_aptCommits fn _ _ _⟩
    rw [State.apt_aptCommits]
  · intro s fn hbusy
    have hheld : ((s.aptCommitted fn).apt fn).held = (s.apt fn).held := by rw [State.apt_aptCommitted]
    exact ⟨s.aptCommitted fn, congrArg s.ends (State.aptCommitDone_busy hbusy), s.aptCommitted_idle fn,
      congrArg Aperture.commitSlot (s.apt_aptCommitted fn), hheld, fun i e hslot hentry => State.slotOf_aptCommitted hslot hentry,
      State.aptCommitted_refused, s.regsKept_aptCommitted fn, rfl⟩
  · intro s fn i e hbusy hheld hslot hentry
    obtain ⟨hself, hother⟩ := State.slotOf_aptCommitted hslot hentry
    exact ⟨_, congrArg s.ends (State.aptCommitDone_none_held hbusy hheld), s.aptCommitted_idle fn,
      congrArg Aperture.commitSlot (s.apt_aptCommitted fn), hself, hother, s.regsKept_aptCommitted fn, memKept_of_mem_eq rfl⟩
  · intro s fn hbusy hheld hentry
    exact ⟨_, congrArg s.ends (State.aptCommitDone_none_held hbusy hheld), s.aptCommitted_idle fn,
      congrArg Aperture.commitSlot (s.apt_aptCommitted fn), State.aptCommitted_refused hentry, s.regsKept_aptCommitted fn,
      memKept_of_mem_eq rfl⟩
  · intro s fn hserved
    have hkept : regsKept [.aptStatus] s (s.aptFenced fn) :=
      regsKept_setFld (f := F.aptStatusFencePend) s (by decide) _ fn 0 (by decide)
    have hpend : (s.aptFenced fn).flag F.aptStatusFencePend fn = true := State.flag_setFlag _ F.aptStatusFencePend true fn 0 rfl
    have hapt := s.apt_aptFenced fn
    exact ⟨_, congrArg s.answer (State.aptFence_served hserved), hpend, congrArg Aperture.writes hapt, congrArg Aperture.held hapt, hkept,
      memKept_after s _ (memKept_of_mem_eq rfl), rfl⟩
  · intro s fn hclear
    have hkept : regsKept [.aptStatus] s (s.setFlag F.aptStatusFencePend false fn) := regsKept_setFld s (by decide) _ fn 0 (by decide)
    exact ⟨_, congrArg s.answer (State.aptFenceDone_clear hclear), s.flag_setFlag F.aptStatusFencePend false fn 0 rfl, hkept,
      memKept_after s _ (memKept_refl s), rfl⟩

end Machine
end Sys2Proof
end

section
/-! PROOFS. What writes of the device's engines to HBM and to host addresses leave as it is (R92, R98, R389, R436). -/

namespace Sys2Proof
namespace Machine

/-- The registers that count what writes to HBM and to host addresses do. -/
def writeRegs : List Reg := [.telfCnt, .hbmAtom, .fnDlCnt]

/-- The state but for memory, TLBs, register fields, and what leaves the device. -/
def State.butWrites (s : State) : State := { s with mem := [], hbm := [], flds := [], tlb := [], msix := [], out := [], bw := [] }

/-- Data have been written: registers other than counters are kept, and of the rest of the state all but memory, the TLBs and what leaves the
device. -/
structure dataWritten (s t : State) : Prop where
  regs : regsKept writeRegs s t
  rest : t.butWrites = s.butWrites

theorem dataWritten_refl (s : State) : dataWritten s s := ⟨regsKept_refl _ s, rfl⟩

theorem dataWritten.trans {s t u : State} (h₁ : dataWritten s t) (h₂ : dataWritten t u) : dataWritten s u :=
  ⟨h₁.regs.trans h₂.regs, h₂.rest.trans h₁.rest⟩

theorem dataWritten.batches {s t : State} (h : dataWritten s t) : t.batches = s.batches :=
  (congrArg State.batches h.rest : t.butWrites.batches = s.butWrites.batches)

theorem dataWritten.faultQ {s t : State} (h : dataWritten s t) : t.faultQ = s.faultQ :=
  (congrArg State.faultQ h.rest : t.butWrites.faultQ = s.butWrites.faultQ)

theorem dataWritten.acs {s t : State} (h : dataWritten s t) : t.acs = s.acs :=
  (congrArg State.acs h.rest : t.butWrites.acs = s.butWrites.acs)

theorem dataWritten_foldl {α : Type} {f : State → α → State} (h : ∀ t x, dataWritten t (f t x)) (l : List α) (s : State) :
    dataWritten s (l.foldl f s) :=
  ⟨regsKept_foldl (fun t x => (h t x).regs) l s, foldl_keeps State.butWrites (fun t x => (h t x).rest) l s⟩

theorem dataWritten_emit (s : State) (o : Output) : dataWritten s (s.emit o) :=
  ⟨regsKept_of_flds_eq _ (by simp), by have h := congrArg State.butWrites (s.emit_rest o); exact h⟩

theorem dataWritten_count {ev : Nat} (hev : ¬ (0x40 ≤ ev ∧ ev ≤ 0x43)) (s : State) (fn idx n : Nat) :
    dataWritten s (s.count fn ev idx n) :=
  ⟨(regsKept_count hev s fn idx n).mono (by decide), by have h := congrArg State.butWrites (s.count_rest fn ev idx n); exact h⟩

theorem dataWritten_countSat (s : State) {f : Fld} (hreg : f.reg ∈ writeRegs) (o : Nat) (hpos : f.pos 0 < 64) :
    dataWritten s (s.countSat f o) :=
  ⟨regsKept_setFld s hreg _ o 0 hpos, rfl⟩

/-! ### Writes to HBM -/

theorem regsKept_countLines (s : State) (off len : Nat) : regsKept [.telfCnt] s (s.countLines 0x51 off len) := by
  unfold State.countLines
  split
  · exact regsKept_refl _ s
  · refine regsKept_foldl (fun t i => ?_) _ s
    dsimp only
    split
    · exact regsKept_count (by decide) t _ 0 _
    · exact regsKept_refl _ t

/-- The state after the bytes of a write are in memory and the write is counted, with the dirty log still to be marked. -/
def State.hbmCounted (s : State) (off : Nat) (bs : List Byte) : State :=
  ((mergesOf off bs.length).foldl (fun (t : State) a => t.countSat F.hbmAtomOps (stackOf a))
    (({ s with mem := writeBytes s.mem off bs } : State).unpoison off bs.length)).countLines 0x51 off bs.length

theorem State.hbmPut_eq (s : State) (off : Nat) (bs : List Byte) :
    s.hbmPut off bs = (s.hbmCounted off bs).markDirty off bs.length := rfl

theorem regsKept_hbmCounted (s : State) (off : Nat) (bs : List Byte) : regsKept writeRegs s (s.hbmCounted off bs) := by
  have hput : regsKept writeRegs s (({ s with mem := writeBytes s.mem off bs } : State).unpoison off bs.length) :=
    regsKept_of_flds_eq _ rfl
  have hmerges (u : State) (l : List Nat) : regsKept writeRegs u (l.foldl (fun (t : State) a => t.countSat F.hbmAtomOps (stackOf a)) u) :=
    regsKept_foldl (fun t a => regsKept_setFld t (by decide) _ _ 0 (by decide)) l u
  exact (hput.trans (hmerges _ _)).trans ((regsKept_countLines _ off bs.length).mono (by decide))

theorem State.hbmCounted_mem (s : State) (off : Nat) (bs : List Byte) : (s.hbmCounted off bs).mem = writeBytes s.mem off bs := by
  have hmerges (u : State) (l : List Nat) : (l.foldl (fun (t : State) a => t.countSat F.hbmAtomOps (stackOf a)) u).mem = u.mem :=
    foldl_keeps State.mem (fun (t : State) a => show (t.countSat F.hbmAtomOps (stackOf a)).mem = t.mem from rfl) l u
  simp [State.hbmCounted, hmerges]

theorem dataWritten_hbmPut (s : State) (off : Nat) (bs : List Byte) : dataWritten s (s.hbmPut off bs) where
  regs := by
    have hmark : regsKept writeRegs (s.hbmCounted off bs) (s.hbmPut off bs) := by
      rw [s.hbmPut_eq]
      exact regsKept_of_flds_eq _ (by simp)
    exact (regsKept_hbmCounted s off bs).trans hmark
  rest := by have h := congrArg State.butWrites (s.hbmPut_rest off bs); exact h

theorem dataWritten_hbmWrite (s : State) (off : Nat) (bs : List Byte) : dataWritten s (s.hbmWrite off bs) :=
  dataWritten_foldl (fun t _ => dataWritten_hbmPut t _ _) _ s

/-- With no dirty log in HBM no write marks one. -/
theorem State.markDirty_off {s : State} (h : ∀ f, s.flag F.fnDlCtrlHbmEn f = false) (off len : Nat) : s.markDirty off len = s := by
  unfold State.markDirty
  split
  · rfl
  · refine foldl_eq_self fun i _ => ?_
    split
    · rfl
    · next fn _ => rw [h fn, if_neg Bool.false_ne_true]

/-- Outside resident ranges and killed pages, and with no dirty log in HBM, a write puts its bytes and nothing else into memory. -/
theorem State.hbmWrite_mem {s : State} {off : Nat} {bs : List Byte} (hres : s.res = []) (hcipher : s.cipherOk off bs.length = true)
    (hlog : ∀ f, s.flag F.fnDlCtrlHbmEn f = false) : (s.hbmWrite off bs).mem = writeBytes s.mem off bs := by
  have hranges : s.resRanges off bs.length = [] := by rw [State.resRanges, hres]; rfl
  have hkilled : s.killedPages off bs.length = [] := if_pos hcipher
  have hwhole : s.hbmWrite off bs = s.hbmPut off bs := by
    rw [State.hbmWrite, State.hbmWriteBut, hranges, hkilled]
    simp [outside]
  have hlog' (f : Nat) : (s.hbmCounted off bs).flag F.fnDlCtrlHbmEn f = false :=
    ((regsKept_hbmCounted s off bs).flag F.fnDlCtrlHbmEn f 0 (by decide) (by decide)).trans (hlog f)
  rw [hwhole, s.hbmPut_eq, State.markDirty_off hlog', s.hbmCounted_mem]

/-! ### Writes to host addresses -/

theorem dataWritten_tlbPut (s : State) (loc : TlbLoc) (x : XlEntry) : dataWritten s (s.tlbPut loc x) := ⟨regsKept_of_flds_eq _ rfl, rfl⟩

theorem dataWritten_tlbUse (s : State) (loc : TlbLoc) (x : XlEntry) : dataWritten s (s.tlbUse loc x) := by
  unfold State.tlbUse
  split
  · exact dataWritten_tlbPut s loc x
  · exact (dataWritten_tlbPut s .stlb x).trans (dataWritten_tlbPut _ loc x)

theorem dataWritten_xlUse (s : State) (g : Engine) (e : TlbEntry) : dataWritten s (s.xlUse g e) := by
  unfold State.xlUse
  split
  · exact dataWritten_tlbPut s g.loc _
  · split
    · exact (dataWritten_tlbUse s g.loc _).trans (dataWritten_count (by decide) _ g.fn 0 1)
    · exact dataWritten_refl s

theorem dataWritten_hostPut (s : State) (fn addr : Nat) (bs : List Byte) (relaxed ns : Bool) :
    dataWritten s (s.hostPut fn addr bs relaxed ns) :=
  dataWritten_foldl (fun t _ => dataWritten_emit t _) _ s

theorem dataWritten_markHost (s : State) (fn ha len : Nat) : dataWritten s (s.markHost fn ha len) := by
  unfold State.markHost
  split
  · exact dataWritten_refl s
  · dsimp only
    generalize (if s.flag F.fnDlCtrlActive fn then s.fld F.fnDlBase1Fga fn else s.fld F.fnDlBase0Fga fn) = reg
    split
    · exact dataWritten_countSat s (by decide) fn (by decide)
    · split
      · exact dataWritten_refl s
      · exact ⟨regsKept_of_flds_eq _ rfl, rfl⟩

theorem dataWritten_haPut {s t : State} {g : Engine} {e : TlbEntry} {ha : Nat} {bs : List Byte} {relaxed : Bool}
    (h : s.haPut g e ha bs relaxed = some t) : dataWritten s t := by
  refine (dataWritten_xlUse s g e).trans ?_
  unfold State.haPut at h
  dsimp only at h
  split at h
  · split at h
    · exact absurd h nofun
    · obtain rfl := Option.some.inj h
      exact dataWritten_hbmWrite _ _ bs
  · obtain rfl := Option.some.inj h
    exact (dataWritten_hostPut _ _ _ bs relaxed _).trans (dataWritten_markHost _ _ _ _)

theorem dataWritten_haWrite1 {s t : State} {g : Engine} {ha : Nat} {bs : List Byte} {relaxed : Bool}
    (h : s.haWrite1 g ha bs relaxed = some t) : dataWritten s t := by
  unfold State.haWrite1 at h
  split at h
  · exact dataWritten_haPut h
  · exact absurd h nofun

theorem dataWritten_haWrite {s t : State} {g : Engine} {ha : Nat} {bs : List Byte} {relaxed : Bool}
    (h : s.haWrite g ha bs relaxed = some t) : dataWritten s t := by
  unfold State.haWrite at h
  generalize pieces ha bs.length = ps at h
  induction ps using List.reverseRecOn generalizing t with
  | nil =>
    obtain rfl := Option.some.inj h
    exact dataWritten_refl s
  | append_singleton ps p ih =>
    rw [List.foldl_append, List.foldl_cons, List.foldl_nil] at h
    split at h
    · exact absurd h nofun
    · next hu => exact (ih hu).trans (dataWritten_haWrite1 h)

/-! ### Writes to the fault ring -/

/-- Nothing is counted for a function whose counters are not enabled. -/
theorem State.acPages_off {s : State} {g : Engine} (h : s.flag F.xlfAcCtrlEnable g.fn = false) (ha len : Nat) (acc : Access) :
    s.acPages g ha len acc = s := by
  refine foldl_eq_self fun p _ => ?_
  split
  · rw [State.acCount, h, if_pos (.inl rfl)]
  · rfl

theorem dataWritten_ringPut {s t : State} {fn ha : Nat} {bs : List Byte} (hoff : s.flag F.xlfAcCtrlEnable fn = false)
    (h : s.ringPut fn ha bs = some t) : dataWritten s t := by
  obtain ⟨u, hu, rfl⟩ := Option.map_eq_some_iff.1 h
  have hwritten := dataWritten_haWrite hu
  have hoff' : u.flag F.xlfAcCtrlEnable fn = false :=
    (hwritten.regs.flag F.xlfAcCtrlEnable fn 0 (by decide) (by decide)).trans hoff
  rwa [State.acPages_off (g := u.hostEng fn) hoff']

end Machine
end Sys2Proof
end

section
/-! PROOFS. Fault batches and access counters: the closing of a batch, replay, abort, clearing and decay (R93, R95, R96, R98, R99). -/

namespace Sys2Proof
namespace Machine

/-! ### The closing of a batch -/

theorem State.batchOf_setBatch (s : State) (fn : Nat) (b : FaultBatch) : (s.setBatch fn b).batchOf fn = b :=
  AMap.look_save_self ({} : FaultBatch) s.batches fn b

theorem State.batchOf_of_batches_eq {s t : State} (h : t.batches = s.batches) (fn : Nat) : t.batchOf fn = s.batchOf fn := by
  rw [State.batchOf, State.batchOf, h]

theorem State.batchOf_signal (s : State) (fn vec f : Nat) : (s.signal fn vec).batchOf f = s.batchOf f :=
  State.batchOf_of_batches_eq (by simp) f

theorem State.batchEnds_faultQ (s : State) (fn : Nat) : (s.batchEnds fn).faultQ = s.faultQ := by
  simp [State.batchEnds, State.setBatch]

/-- The batch has ended: the next one has its number, is not open and has no entries. -/
theorem State.batchOf_batchEnds (s : State) (fn : Nat) :
    (s.batchEnds fn).batchOf fn =
      { s.batchOf fn with number := ((s.batchOf fn).number + 1) % 65536, isOpen := false, entries := [] } := by
  rw [State.batchEnds, State.batchOf_signal, State.batchOf_setBatch]

theorem State.batchEnds_lastBatch (s : State) (fn : Nat) :
    (s.batchEnds fn).fld F.xlfFbStatusLastBatch fn = (s.batchOf fn).number % 2 ^ F.xlfFbStatusLastBatch.width := by
  rw [State.batchEnds, State.fld_signal, State.setBatch, State.setFlag, fld_setFld_ne (by decide)]
  exact fld_setFld_self s F.xlfFbStatusLastBatch _ fn 0

/-- The open batch of a ring that may be written ends, whether or not LAST could be written into its last entry. -/
theorem State.ringClose_yes {s : State} {fn : Nat} {e : FbEntry} (hopen : (s.batchOf fn).isOpen = true)
    (hlast : (s.batchOf fn).entries.getLast? = some e) (hactive : (s.fn fn).state ≠ .orphaned) (hring : s.ringAt fn e.idx = .yes)
    (hoff : s.flag F.xlfAcCtrlEnable fn = false) :
    ∃ t : State, s.ringClose fn = .done (t.batchEnds fn) ∧ t.batches = s.batches ∧ t.faultQ = s.faultQ := by
  simp only [State.ringClose, hopen, hlast, hactive, hring, Bool.not_true, Bool.false_eq_true, if_false]
  refine ⟨_, rfl, ?_⟩
  cases hput : s.ringPut fn (s.fbAddr fn e.idx + 9) [BitVec.ofNat 8 (e.b9 + 2)] with
  | none => exact ⟨rfl, rfl⟩
  | some t =>
    have hwritten := dataWritten_ringPut hoff hput
    exact ⟨hwritten.batches, hwritten.faultQ⟩

theorem State.ringGo_of_empty {s : State} {fn : Nat} (h : AMap.look [] s.faultQ fn = []) (n : Nat) : s.ringGo fn n = s := by
  cases n with
  | zero => rfl
  | succ n => rw [State.ringGo, h]

/-- The closing of a batch is done, and the fault ring works on at what stands behind it. -/
theorem State.ringGo_close {s t : State} {fn : Nat} {rest : List FaultItem} (h : AMap.look [] s.faultQ fn = .close :: rest)
    (hclose : s.ringClose fn = .done t) (n : Nat) :
    s.ringGo fn (n + 1) = (t.setFaultQ fn ((AMap.look [] t.faultQ fn).drop 1)).ringGo fn n := by
  rw [State.ringGo, h]
  simp only [hclose]
  rfl

theorem State.look_setFaultQ (s : State) (fn : Nat) (l : List FaultItem) : AMap.look [] (s.setFaultQ fn l).faultQ fn = l :=
  AMap.look_save_self [] s.faultQ fn l

theorem State.ringAt_setFaultQ (s : State) (fn f i : Nat) (l : List FaultItem) : (s.setFaultQ f l).ringAt fn i = s.ringAt fn i := rfl

/-- An open batch that has nothing to wait for is closed at once. -/
theorem State.closeBatch_ends {s : State} {fn : Nat} {e : FbEntry} (hopen : (s.batchOf fn).isOpen = true)
    (hidle : AMap.look [] s.faultQ fn = []) (hlast : (s.batchOf fn).entries.getLast? = some e)
    (hactive : (s.fn fn).state ≠ .orphaned) (hring : s.ringAt fn e.idx = .yes) (hoff : s.flag F.xlfAcCtrlEnable fn = false) :
    ∃ t : State, s.closeBatch fn = (t.batchEnds fn).setFaultQ fn [] ∧ t.batches = s.batches := by
  have hqueue : AMap.look [] (s.setFaultQ fn [.close]).faultQ fn = [.close] := s.look_setFaultQ fn _
  obtain ⟨t, hclose, hbatches, hfaults⟩ :=
    State.ringClose_yes (s := s.setFaultQ fn [.close]) hopen hlast hactive ((s.ringAt_setFaultQ fn fn e.idx _).trans hring) hoff
  refine ⟨t, ?_, hbatches⟩
  have hleft : (AMap.look [] (t.batchEnds fn).faultQ fn).drop 1 = [] := by rw [t.batchEnds_faultQ, hfaults, hqueue]; rfl
  rw [State.closeBatch, if_pos hopen, hidle, State.ringRun, State.ringGo_close hqueue hclose, hleft]
  exact State.ringGo_of_empty (State.look_setFaultQ _ fn []) _

/-! ### Replay -/

theorem selected_iff (fn upto : Nat) (o : Op) : selected fn upto o = true ↔ o.ref.fn = fn ∧
    ((∃ b, o.phase = .parked (.batch b) ∧ subMod 16 upto b < 32768) ∨ o.phase = .parked .silent ∨ o.phase = .parked .behind) := by
  rw [selected, Bool.and_eq_true, beq_iff_eq]
  refine and_congr_right fun _ => ?_
  cases hphase : o.phase with
  | parked k => cases k <;> simp
  | _ => simp

theorem State.replay_served {s : State} {fn : Nat} (h : s.barOpen fn = true) (upto : Nat) :
    s.replay fn upto = (s.closeNamed fn (upto % 65536)).replayOps fn (selected fn (upto % 65536)) := by
  rw [State.replay, h]
  rfl

theorem State.replayAbort_served {s : State} {fn : Nat} (h : s.barOpen fn = true) (upto : Nat) :
    s.replayAbort fn upto =
      (((s.closeNamed fn (upto % 65536)).ops.filter fun o => selected fn (upto % 65536) o && o.phase != .parked .behind).foldl
        (fun t o => t.opFails o .pageFault) (s.closeNamed fn (upto % 65536))).replayOps fn
          fun o => o.ref.fn == fn && o.phase == .parked .behind := by
  rw [State.replayAbort, h]
  rfl

/-! ### Access counters -/

/-- AC_CTRL as AC_CLEAR takes it, with the hints forgotten. -/
def State.acTaken (s : State) (fn v : Nat) : State :=
  let t := ((s.setFld F.xlfAcCtrlThresh (bits v 63 48) fn).setFld F.xlfAcCtrlDecay (bits v 47 44) fn).setFlag F.xlfAcCtrlEnable (bit v 0) fn
  { t with acs := AMap.drop t.acs fn }

theorem bits_lt (x hi lo : Nat) : bits x hi lo < 2 ^ (hi - lo + 1) := Nat.mod_lt _ (by positivity)

theorem State.acTaken_thresh (s : State) (fn v : Nat) : (s.acTaken fn v).fld F.xlfAcCtrlThresh fn = bits v 63 48 := by
  refine (fld_setFld_ne (by decide) _ _ fn fn).trans ((fld_setFld_ne (by decide) _ _ fn fn).trans ?_)
  exact fld_setFld_of_lt (f := F.xlfAcCtrlThresh) (bits_lt v 63 48) s fn 0

theorem State.acTaken_decay (s : State) (fn v : Nat) : (s.acTaken fn v).fld F.xlfAcCtrlDecay fn = bits v 47 44 := by
  refine (fld_setFld_ne (by decide) _ _ fn fn).trans ?_
  exact fld_setFld_of_lt (f := F.xlfAcCtrlDecay) (bits_lt v 47 44) _ fn 0

theorem State.acTaken_enable (s : State) (fn v : Nat) : (s.acTaken fn v).flag F.xlfAcCtrlEnable fn = bit v 0 :=
  State.flag_setFlag _ F.xlfAcCtrlEnable (bit v 0) fn 0 rfl

theorem State.regsKept_acTaken (s : State) (fn v : Nat) : regsKept [.xlfAcCtrl] s (s.acTaken fn v) :=
  ((regsKept_setFld (f := F.xlfAcCtrlThresh) s (by decide) _ fn 0 (by decide)).setFld (f := F.xlfAcCtrlDecay) (by decide) _ fn 0
    (by decide)).setFld (f := F.xlfAcCtrlEnable) (by decide) _ fn 0 (by decide)

theorem State.acTaken_acs (s : State) (fn v : Nat) : AMap.look {} (s.acTaken fn v).acs fn = {} := by
  have hdrop : AMap.find (s.acTaken fn v).acs fn = none := AMap.find_drop_self s.acs fn
  rw [AMap.look, hdrop]
  rfl

/-- Where the counter table lies is said by AC_TABLE, AC_RANGE, the number of the node, and who holds its pages. -/
theorem regsKept.acTable {rs : List Reg} {s t : State} (h : regsKept rs s t) (htable : Reg.xlfAcTable ∉ rs) (hrange : Reg.xlfAcRange ∉ rs)
    (hnode : Reg.idNodeId ∉ rs) (howns : t.ownsBytes = s.ownsBytes) (fn : Nat) : t.acTable fn = s.acTable fn := by
  have hid : t.nodeId = s.nodeId := by
    rw [State.nodeId, State.nodeId, h F.idNodeIdRack 0 0 (by decide) hnode, h F.idNodeIdPos 0 0 (by decide) hnode]
  rw [State.acTable, State.acTable, h F.xlfAcTableTableFga fn 0 (by decide) htable, h F.xlfAcRangeRcount fn 0 (by decide) hrange, hid, howns]

theorem State.acTable_acTaken (s : State) (fn v : Nat) : (s.acTaken fn v).acTable fn = s.acTable fn :=
  (s.regsKept_acTaken fn v).acTable (by decide) (by decide) (by decide) rfl fn

theorem State.acClear_eq {s : State} {fn v : Nat} (hserved : s.barOpen fn = true) (hclear : bit v 1 = true) :
    s.acClear fn v = match s.acTable fn with
      | some (a, n) => (s.acTaken fn v).hbmWrite a (List.replicate (2 * n) 0#8)
      | none => (s.acTaken fn v).setFlag F.xlfAcCtrlEnable false fn := by
  rw [← s.acTable_acTaken fn v, State.acClear, hserved, hclear]
  rfl

theorem State.acClear_none {s : State} {fn v : Nat} (hserved : s.barOpen fn = true) (hclear : bit v 1 = true)
    (htable : s.acTable fn = none) : s.acClear fn v = (s.acTaken fn v).setFlag F.xlfAcCtrlEnable false fn := by
  rw [State.acClear_eq hserved hclear, htable]

theorem State.acClear_some {s : State} {fn v a n : Nat} (hserved : s.barOpen fn = true) (hclear : bit v 1 = true)
    (htable : s.acTable fn = some (a, n)) :
    s.acClear fn v = (s.acTaken fn v).hbmWrite a (List.replicate (2 * n) 0#8) := by
  rw [State.acClear_eq hserved hclear, htable]

/-- The zeros that AC_CLEAR writes over the counter table are the only change of memory. -/
theorem State.acCleared_mem {s : State} {a n : Nat} (hres : s.res = []) (hcipher : s.cipherOk a (2 * n) = true)
    (hlog : ∀ f, s.flag F.fnDlCtrlHbmEn f = false) (fn v : Nat) :
    ((s.acTaken fn v).hbmWrite a (List.replicate (2 * n) 0#8)).mem = writeBytes s.mem a (List.replicate (2 * n) 0#8) := by
  refine State.hbmWrite_mem hres ?_ fun f => ?_
  · rw [List.length_replicate]
    exact hcipher
  · exact ((s.regsKept_acTaken fn v).flag F.fnDlCtrlHbmEn f 0 (by decide) (by decide)).trans (hlog f)

/-- The counter table with every counter halved. -/
def State.acHalved (s : State) (a n : Nat) : List Byte :=
  (List.range n).flatMap fun i => leBytes (leNat (s.hbmRead (a + 2 * i) 2) / 2) 2

/-- A decay writes the halved counters and keeps the hints of the regions that are still at the threshold. -/
theorem State.acDecay_some {s : State} {fn a n : Nat} (henable : s.flag F.xlfAcCtrlEnable fn = true)
    (hdecay : s.fld F.xlfAcCtrlDecay fn ≠ 15) (htable : s.acTable fn = some (a, n)) :
    ∃ x : AcState, s.acDecay fn = { s.hbmWrite a (s.acHalved a n) with acs := AMap.save {} s.acs fn x } := by
  rw [State.acHalved, ← List.flatMap_map (fun i => leNat (s.hbmRead (a + 2 * i) 2) / 2) (fun v => leBytes v 2)]
  simp only [State.acDecay, henable, hdecay, htable, Bool.not_true, Bool.false_eq_true, or_self, if_false]
  rw [(dataWritten_hbmWrite s a _).acs]
  exact ⟨_, rfl⟩

/-- Settles O10: the ring closes the batch, replay and abort take up what they select, and the counter table is written where it lies. -/
theorem faultBatchesAndCountersComplete : Obligations.FaultBatchesAndCountersComplete := by
  refine ⟨?_, ?_, ?_, ?_, ?_, ?_, ?_, ?_, ?_, ?_, ?_⟩
  · intro s fn hclosed
    exact congrArg s.ends (if_neg (by rw [hclosed]; exact Bool.false_ne_true))
  · exact fun s fn _ => rfl
  · intro s fn e hopen hidle hlast hactive hring hoff
    obtain ⟨t, heffect, hbatches⟩ := State.closeBatch_ends hopen hidle hlast hactive hring hoff
    have hnext := t.batchOf_batchEnds fn
    refine ⟨_, congrArg s.ends heffect, congrArg FaultBatch.isOpen hnext, congrArg FaultBatch.entries hnext, ?_⟩
    rw [← State.batchOf_of_batches_eq hbatches]
    exact t.batchEnds_lastBatch fn
  · exact fun s fn upto hserved => ⟨_, congrArg s.ends (State.replay_served hserved upto), rfl⟩
  · exact fun s fn upto => rfl
  · exact selected_iff
  · intro s fn upto hserved
    refine ⟨_, congrArg s.ends (State.replayAbort_served hserved upto), ?_⟩
    rintro v rfl
    rfl
  · intro s fn v hserved hclear htable
    refine ⟨_, congrArg s.ends (State.acClear_none hserved hclear htable), State.flag_setFlag _ F.xlfAcCtrlEnable false fn 0 rfl,
      ?_, ?_, s.acTaken_acs fn v, ?_, memKept_of_mem_eq rfl⟩
    · exact (fld_setFld_ne (by decide) _ _ fn fn).trans (s.acTaken_thresh fn v)
    · exact (fld_setFld_ne (by decide) _ _ fn fn).trans (s.acTaken_decay fn v)
    · exact (s.regsKept_acTaken fn v).setFld (f := F.xlfAcCtrlEnable) (by decide) _ fn 0 (by decide)
  · intro s fn v a n hserved hclear htable
    have hwritten := dataWritten_hbmWrite (s.acTaken fn v) a (List.replicate (2 * n) 0#8)
    refine ⟨_, congrArg s.ends (State.acClear_some hserved hclear htable), ?_, ?_, ?_, ?_, s.acTaken fn v, rfl, rfl⟩
    · exact (hwritten.regs F.xlfAcCtrlThresh fn 0 (by decide) (by decide)).trans (s.acTaken_thresh fn v)
    · exact (hwritten.regs F.xlfAcCtrlDecay fn 0 (by decide) (by decide)).trans (s.acTaken_decay fn v)
    · exact (hwritten.regs.flag F.xlfAcCtrlEnable fn 0 (by decide) (by decide)).trans (s.acTaken_enable fn v)
    · exact (congrArg (AMap.look {} · fn) hwritten.acs).trans (s.acTaken_acs fn v)
  · intro s fn v a n hserved hclear htable hres hcipher hlog
    have hmem := State.acCleared_mem hres hcipher hlog fn v
    refine ⟨_, congrArg s.ends (State.acClear_some hserved hclear htable), fun i hi => ?_, fun c hc => ?_⟩
    · rw [hmem, readByte_writeBytes, List.length_replicate, if_pos (by omega), Nat.add_sub_cancel_left]
      simp [hi]
    · rw [hmem]
      exact readByte_writeBytes_out _ _ _ _ (by rwa [List.length_replicate])
  · intro s fn a n henable hdecay htable
    obtain ⟨x, heffect⟩ := State.acDecay_some henable hdecay htable
    refine ⟨_, congrArg s.ends heffect, ?_⟩
    rintro w rfl
    exact ⟨rfl, fun f hf => AMap.look_save_ne _ _ _ x hf⟩

end Machine
end Sys2Proof
end

section
/-! PROOFS. Invalidations of translations: what one removes when it begins, and its end (R86, R88). -/

namespace Sys2Proof
namespace Machine

/-! ### What is removed -/

theorem XlEntry.inRange_ha (fns : List Nat) (lo hi : Nat) (e : TlbEntry) :
    (XlEntry.ha e).inRange fns lo hi = true ↔ e.fn ∈ fns ∧ e.ha < hi ∧ lo < e.ha + e.size := by
  simp [XlEntry.inRange, and_assoc]

theorem XlEntry.inRange_other {x : XlEntry} (h : ∀ e, x ≠ .ha e) (fns : List Nat) (lo hi : Nat) : x.inRange fns lo hi = false := by
  cases x with
  | ha e => exact absurd rfl (h e)
  | win | own => rfl

theorem State.mem_tlbDrop (s : State) (fns : List Nat) (lo hi : Nat) (l : TlbLoc) (x : XlEntry) :
    (l, x) ∈ (s.tlbDrop fns lo hi).tlb ↔ (l, x) ∈ s.tlb ∧ x.inRange fns lo hi = false := by
  simp [State.tlbDrop, State.tlbRemove]

/-! ### The beginning -/

/-- What an invalidation that begins now removes and has to wait for. -/
def State.invalNow (s : State) (fns : List Nat) (lo hi : Nat) : Inval where
  fns := fns
  lo := lo
  hi := hi
  reads := (s.tags.filter fun t => (t.via.any fun e => (XlEntry.ha e).inRange fns lo hi) && !t.timedOut).map fun t =>
    (t.port, t.sub, t.tag, t.use)
  ops := (s.ops.filter fun o => o.issuing && o.holds fns lo hi).map (·.ref)
  walks := (s.walks.filter fun w => w.started && fns.contains w.fn).map fun w => (w.fn, w.page)

/-- The state in which an idle engine has begun an invalidation, with the entries of the TLBs still to be removed. -/
def State.invalBegun (s : State) (e : XlPort) (fns : List Nat) (lo hi : Nat) : State :=
  ({ s with
      invals := AMap.put s.invals (engKey e) (s.invalNow fns lo hi)
      ops := s.ops.map fun o => if o.issuing then o else { o with xl := o.xl.filter fun d => !d.inRange fns lo hi }
      qps := s.qps.map fun e => (e.1, { e.2 with xl := e.2.xl.filter fun d => !d.inRange fns lo hi })
      walks := s.walks.map fun w => if w.started ∧ fns.contains w.fn then { w with stale := true } else w
      walkCache := s.walkCache.filter fun e => !fns.contains e.fn } : State).setFlag F.xlInvalStatusBusy true (engKey e)

theorem State.invalStart_idle {s : State} {e : XlPort} (h : s.flag F.xlInvalStatusBusy (engKey e) = false) (fns : List Nat) (lo hi : Nat) :
    s.invalStart e fns lo hi = (s.invalBegun e fns lo hi).tlbDrop fns lo hi := by
  rw [State.invalStart, h]
  rfl

theorem invalidates_invalStart {s : State} {e : XlPort} (h : s.flag F.xlInvalStatusBusy (engKey e) = false) (fns : List Nat) (lo hi : Nat) :
    invalidates s (s.after (s.invalStart e fns lo hi)) e fns lo hi := by
  rw [State.invalStart_idle h]
  have htlb := (s.invalBegun e fns lo hi).mem_tlbDrop fns lo hi
  refine ⟨?_, fun l x => ?_, fun l x hx => ?_, fun x => ?_, rfl, ?_, ?_,
    ⟨s.invalNow fns lo hi, AMap.find_put_self _ _ _, rfl, rfl, rfl⟩, ?_, ?_, rfl⟩
  · exact State.flag_setFlag _ F.xlInvalStatusBusy true (engKey e) 0 rfl
  · have hmem := htlb l (.ha x)
    rwa [← Bool.not_eq_true, XlEntry.inRange_ha] at hmem
  · exact (htlb l x).trans (and_iff_left (XlEntry.inRange_other hx fns lo hi))
  · exact List.mem_filter.trans (and_congr_right fun _ => by simp)
  · refine List.map_map.trans (List.map_congr_left fun o _ => ?_)
    dsimp only [Function.comp]
    split <;> rfl
  · exact List.map_map.trans (List.map_congr_left fun _ _ => rfl)
  · exact regsKept_setFld (rs := [.xlInvalStatus]) (f := F.xlInvalStatusBusy) s (by decide) (b2n true) (engKey e) 0 (by decide)
  · exact memKept_after s _ (memKept_refl s)

/-! ### Who commands it -/

theorem State.invalBy_xl {s : State} {org : Origin} (h : s.dcsOpen org 0x400000 = true) (f : State → State) :
    s.invalBy org .xl f = f s := if_pos h

theorem State.invalBy_xlp (s : State) (pf : Nat) (f : State → State) : s.invalBy (.host pf) (.xlp pf) f = f s := if_pos rfl

theorem State.invalRange_eq {s : State} {e : XlPort} {fn : Nat} (hopen : s.engOpen e = true) (hsel : s.xlSelected e = some fn)
    (pages : Nat) :
    s.invalRange e pages = s.invalStart e [fn] (s.fld F.xlInvalAddrHa (engKey e) * 4096)
      (s.fld F.xlInvalAddrHa (engKey e) * 4096 + (pages % 2 ^ 20 + 1) * 4096) := by
  rw [State.invalRange, hopen, hsel]

theorem State.invalFunction_eq {s : State} {e : XlPort} {fn : Nat} (hopen : s.engOpen e = true) (hsel : s.xlSelected e = some fn) :
    s.invalFunction e = s.invalStart e [fn] 0 (2 ^ 64) := by
  rw [State.invalFunction, hopen, hsel]

theorem State.invalAll_eq {s : State} {e : XlPort} (hopen : s.engOpen e = true) :
    s.invalAll e = s.invalStart e (engFns e) 0 (2 ^ 64) := if_pos hopen

/-- A command whose effect is that an idle engine begins an invalidation. -/
theorem invalidates_of_effect {s u : State} {e : XlPort} {fns : List Nat} {lo hi : Nat} (h : u = s.invalStart e fns lo hi)
    (hidle : s.flag F.xlInvalStatusBusy (engKey e) = false) : ∃ t, s.answer u = .next t ∧ invalidates s t e fns lo hi :=
  ⟨_, rfl, h ▸ invalidates_invalStart hidle fns lo hi⟩

/-! ### The end -/

theorem State.invalDone_over {s : State} {e : XlPort} {v : Inval} (hfind : AMap.find s.invals (engKey e) = some v)
    (hreads : (s.tags.any fun t => !t.timedOut && v.reads.contains (t.port, t.sub, t.tag, t.use)) = false) (hwalks : v.walks = [])
    (hops : (s.ops.any fun o => v.ops.contains o.ref && o.issuing && o.holds v.fns v.lo v.hi) = false) :
    s.invalDone e = ({ s with invals := AMap.drop s.invals (engKey e) } : State).setFlag F.xlInvalStatusBusy false (engKey e) := by
  simp only [State.invalDone, hfind]
  rw [hreads, hwalks, hops]
  rfl

end Machine
end Sys2Proof
end

section
/-! PROOFS. The end of a table walk, and the commands of walks and invalidations together (R82, R83, R85 to R89). -/

namespace Sys2Proof
namespace Machine

/-! ### The walk that TABLE_WALK_DONE names -/

theorem State.walkInFlight_some {s : State} {fn ha : Nat} {acc : Access} {k : Walk} (h : s.walkInFlight fn ha acc = some k) :
    k ∈ s.walks ∧ k.fn = fn ∧ k.started = true := by
  have hmem := List.mem_of_find?_eq_some h
  have hmeets := List.find?_some h
  simp only [Bool.and_eq_true, beq_iff_eq] at hmeets
  obtain ⟨⟨⟨⟨hfn, -⟩, hstarted⟩, -⟩, -⟩ := hmeets
  exact ⟨hmem, hfn, hstarted⟩

/-- A search finds the only element that meets its test. -/
theorem find_eq_some_of_only {α : Type} {p : α → Bool} {l : List α} {x : α} (hmem : x ∈ l) (hx : p x = true)
    (honly : ∀ y ∈ l, p y = true → y = x) : l.find? p = some x := by
  cases h : l.find? p with
  | none => exact absurd hx (List.find?_eq_none.1 h x hmem)
  | some y => rw [honly y (List.mem_of_find?_eq_some h) (List.find?_some h)]

/-- What a walk comes to does not depend on which walks there are. -/
theorem State.walkLevels_with_walks (s : State) (ks : List Walk) (fn ha : Nat) (hbm : Bool) (ls : List Nat) (table : Nat)
    (words : List (Option Nat)) :
    ({ s with walks := ks } : State).walkLevels fn ha hbm ls table words = s.walkLevels fn ha hbm ls table words := by
  induction ls generalizing table words with
  | nil => rfl
  | cons l ls ih =>
    simp only [State.walkLevels, ih]
    rfl

/-- A walk as the end of the walk k leaves it: one of its page in flight is over. -/
def Walk.overWith (x k : Walk) (words : List (Option Nat)) : Walk :=
  if x.fn = k.fn ∧ x.page = k.page ∧ x.started then x.over words else x

theorem Walk.overWith_page (x k : Walk) (words : List (Option Nat)) :
    (x.overWith k words).fn = x.fn ∧ (x.overWith k words).page = x.page := by
  unfold Walk.overWith
  split <;> exact ⟨rfl, rfl⟩

theorem Walk.overWith_self {k : Walk} (h : k.started = true) (words : List (Option Nat)) : k.overWith k words = k.over words :=
  if_pos ⟨rfl, rfl, h⟩

/-- The state in which the end of the walk k has come. -/
def State.walkCame (s : State) (k : Walk) (words : List (Option Nat)) : State :=
  { s with walks := s.walks.map fun x => x.overWith k words }

theorem State.walked_walkCame (s : State) (k : Walk) (words : List (Option Nat)) (x : Walk) :
    (s.walkCame k words).walked x = s.walked x := s.walkLevels_with_walks _ _ _ _ _ _ _

theorem State.walkSent_walkCame (s : State) (k : Walk) (words : List (Option Nat)) (x : Walk) :
    (s.walkCame k words).walkSent x = s.walkSent x := by
  rw [State.walkSent, State.walkSent, s.walked_walkCame]

/-- The state without a walk whose result is discarded, with another to be made for those who wait for it. -/
def State.walkAgain (s : State) (k : Walk) : State :=
  { s.walkLess k with walks := (s.walkLess k).walks ++ [{ fn := k.fn, page := k.page, waits := k.waits }] }

section
variable {s : State} {fn ha : Nat} {acc : Access} {words : List (Option Nat)} {k : Walk} (h : s.walkComes fn ha acc words k)
include h

/-- A search for a walk of the page finds the one that is over. -/
theorem State.walkCame_find {p : Walk → Bool} (hover : p (k.over words) = true)
    (hpage : ∀ x, p x = true → x.fn = k.fn ∧ x.page = k.page) : (s.walkCame k words).walks.find? p = some (k.over words) := by
  obtain ⟨hflight, honly, -⟩ := h
  obtain ⟨hmem, -, hstarted⟩ := State.walkInFlight_some hflight
  have hself := Walk.overWith_self hstarted words
  refine find_eq_some_of_only (List.mem_map.2 ⟨k, hmem, hself⟩) hover fun y hy hmeets => ?_
  obtain ⟨x, hx, rfl⟩ := List.mem_map.1 hy
  obtain ⟨hfn, hpg⟩ := hpage _ hmeets
  obtain ⟨hxfn, hxpage⟩ := x.overWith_page k words
  rw [honly x hx (hxfn.symm.trans hfn) (hxpage.symm.trans hpg), hself]

/-- The other walks are as they were. -/
theorem State.walkCame_filter : ((s.walkCame k words).walks.filter fun x => x != k.over words) = s.walks.filter fun x => x != k := by
  obtain ⟨hflight, honly, -⟩ := h
  obtain ⟨-, -, hstarted⟩ := State.walkInFlight_some hflight
  have hother {x : Walk} (hx : x ∈ s.walks) (hne : x ≠ k) : x.overWith k words = x :=
    if_neg fun ⟨hfn, hpage, _⟩ => hne (honly x hx hfn hpage)
  have hgone : ∀ x ∈ s.walks, (x.overWith k words != k.over words) = (x != k) := fun x hx => by
    rcases eq_or_ne x k with rfl | hne
    · simp [Walk.overWith_self hstarted]
    · rw [hother hx hne, bne_iff_ne.2 hne, bne_iff_ne]
      rintro rfl
      exact hne (honly _ hx rfl rfl)
  have hleft : ((s.walkCame k words).walks.filter fun x => x != k.over words) =
      (s.walks.filter fun x => x != k).map fun x => x.overWith k words :=
    List.filter_map.trans (congrArg _ (List.filter_congr hgone))
  refine hleft.trans ((List.map_congr_left fun x hx => ?_).trans (List.map_id _))
  obtain ⟨hx, hne⟩ := List.mem_filter.1 hx
  exact hother hx (bne_iff_ne.1 hne)

/-- The end of the walk has come, and its reads have left. -/
theorem State.walkDone_came : s.walkDone fn ha acc words = (s.walkCame k words).walkOver k.fn k.page := by
  have ⟨hflight, _, hleft⟩ := h
  obtain ⟨-, -, hstarted⟩ := State.walkInFlight_some hflight
  have hfind : (s.walkCame k words).walks.find? (fun x => x.fn == k.fn && x.page == k.page && x.started && x.ended) =
      some (k.over words) := State.walkCame_find h (by simp [Walk.over, hstarted]) (by simp +contextual)
  have hreads : (s.walkCame k words).walkReads k.fn k.page 5 = s.walkCame k words := by
    simp only [State.walkReads, hfind]
    exact if_pos (.inl ((s.walkSent_walkCame k words _).trans hleft))
  rw [← hreads, State.walkDone, hflight]
  rfl

/-- The walk that TABLE_WALK_DONE names is over at once. Where an invalidation has met it, another is to be made for those who wait (R86,
log entry 35). -/
theorem State.walkDone_comes : s.walkDone fn ha acc words =
    if !k.stale then (s.walkLess k).walkEnds (k.over words) (s.walked (k.over words))
    else if k.waits.isEmpty then s.walkLess k
    else s.walkAgain k := by
  have ⟨_, _, hleft⟩ := h
  have hfind : (s.walkCame k words).walks.find? (fun x => x.fn == k.fn && x.page == k.page && x.ended) = some (k.over words) :=
    State.walkCame_find h (by simp [Walk.over]) (by simp +contextual)
  have hsent : (s.walkCame k words).walkSent (k.over words) = true := (s.walkSent_walkCame k words _).trans hleft
  rw [State.walkDone_came h]
  simp only [State.walkOver, hfind, hsent, State.walkCame_filter h, State.walked_walkCame, Bool.not_true, Bool.false_eq_true, if_false]
  rfl

end

/-! ### Those who wait -/

/-- A fetch whose translation has ended without one fails. -/
theorem State.ringFail_shown (s : State) (fn q : Nat) (st : Status) :
    (s.ringFail fn q st).flag F.qfStatusFetchErr (qObj fn q) = true ∧ (s.ringFail fn q st).fld F.qfStatusCode (qObj fn q) = st.code ∧
      (s.ringFail fn q st).flag F.qfStatusStalled (qObj fn q) = true := by
  simp only [State.ringFail, State.stall, State.flag_signal, State.fld_signal]
  refine ⟨?_, ?_, State.flag_setFlag _ F.qfStatusStalled true _ 0 rfl⟩
  · rw [State.flag, State.setFlag, fld_setFld_ne (by decide), fld_setFld_ne (by decide)]
    exact s.flag_setFlag F.qfStatusFetchErr true _ 0 rfl
  · rw [State.setFlag, fld_setFld_ne (by decide)]
    exact fld_setFld_of_lt (f := F.qfStatusCode) st.code_lt _ _ 0

theorem State.ringFail_kept (s : State) (fn q : Nat) (st : Status) :
    (s.ringFail fn q st).tlb = s.tlb ∧ (s.ringFail fn q st).walkCache = s.walkCache ∧ (s.ringFail fn q st).walks = s.walks := by
  simp [State.ringFail, State.stall]

/-- The fetch of a queue that waited alone has its translation in its micro-TLB. -/
theorem State.walkTells_ring_ok {res : XlRes} {acc : Access} {e : TlbEntry} (h : res.out acc = .ok e) (s : State) (fn page q : Nat)
    (loc : TlbLoc) :
    s.walkTells fn page [{ who := .ring q, acc := acc, loc := loc }] res = (s.tlbUse loc (.ha e)).resumeAll fn [] := by
  simp only [State.walkTells, List.foldl_cons, List.foldl_nil, State.tellWaiter, h]
  rfl

/-- The fetch of a queue that waited alone fails with PAGE_FAULT. -/
theorem State.walkTells_ring_fault {res : XlRes} {acc : Access} {r : Nat} (h : res.out acc = .fault r) (s : State) (fn page q : Nat)
    (loc : TlbLoc) :
    s.walkTells fn page [{ who := .ring q, acc := acc, loc := loc }] res = (s.resumeAll fn []).ringFail fn q .pageFault := by
  simp only [State.walkTells, List.foldl_cons, List.foldl_nil, State.tellWaiter, h]
  rfl

/-! ### The end of a walk in an enabled context -/

/-- Whether a walk that comes to res serves one who waits for it. -/
def Walk.serves (k : Walk) (res : XlRes) : Bool := k.waits.any fun x => match res.out x.acc with
  | .ok _ => true
  | _ => false

/-- The state with the non-leaf entries that a walk has met in the walk cache. -/
def State.walkKept (s : State) (w : Walked) : State := w.mids.foldl State.walkCachePut s

theorem State.walkKept_walks (s : State) (w : Walked) : (s.walkKept w).walks = s.walks := by
  refine foldl_keeps State.walks (fun t x => ?_) _ s
  unfold State.walkCachePut
  split <;> rfl

/-- The state without a walk that is over and has come to w; what it has met is in the walk cache where it serves somebody. -/
def State.walkEnded (s : State) (k : Walk) (w : Walked) : State :=
  if k.serves w.res then (s.walkLess k).walkKept w else s.walkLess k

theorem State.walkEnded_walks (s : State) (k : Walk) (w : Walked) : (s.walkEnded k w).walks = s.walks.filter fun x => x != k := by
  unfold State.walkEnded
  split
  · exact State.walkKept_walks _ w
  · rfl

/-- In an enabled context those who waited are told what the walk has come to. -/
theorem State.walkDone_enabled {s : State} {fn ha : Nat} {acc : Access} {words : List (Option Nat)} {k : Walk}
    (hcomes : s.walkComes fn ha acc words k) (hfresh : k.stale = false) (hrefused : k.refused = none)
    (hcheck : s.haCheck fn (k.page * 4096) = none) :
    s.walkDone fn ha acc words = (s.walkEnded k (s.walked (k.over words))).walkTells fn k.page k.waits (s.walked (k.over words)).res := by
  have ⟨hflight, _, _⟩ := hcomes
  obtain ⟨-, rfl, -⟩ := State.walkInFlight_some hflight
  have hrefused' : (k.over words).refused = none := hrefused
  have hcheck' : (s.walkLess k).haCheck (k.over words).fn ((k.over words).page * 4096) = none := hcheck
  rw [State.walkDone_comes hcomes, hfresh, Bool.not_false, if_pos rfl, State.walkEnds, hrefused', hcheck']
  rfl

theorem State.mem_tlbUse (s : State) (loc : TlbLoc) (x : XlEntry) : (loc, x) ∈ (s.tlbUse loc x).tlb := by
  unfold State.tlbUse
  split <;> exact List.mem_cons_self

theorem State.tlbUse_walks (s : State) (loc : TlbLoc) (x : XlEntry) : (s.tlbUse loc x).walks = s.walks := by
  unfold State.tlbUse
  split <;> rfl

theorem XlRes.out_of_right {e : TlbEntry} {acc : Access} (h : rightFault e acc = none) : (XlRes.ok e).out acc = .ok e := by
  simp [XlRes.out, XlRes.need, h]

theorem XlRes.out_of_fault {res : XlRes} {acc : Access} {r : Nat} (h : res.need acc = .fault r) : res.out acc = .fault r := by
  rw [XlRes.out, h]

/-- Settles O9: the named walk is over and ends as State.walkEnds says; an idle engine begins what it is commanded, and ends it once
nothing is waited for. -/
theorem walksAndInvalidationsComplete : Obligations.WalksAndInvalidationsComplete := by
  refine ⟨?_, ?_, ?_, ?_, ?_, ?_, ?_, ?_, ?_, ?_, ?_, ?_⟩
  · intro s fn ha acc words hnone
    have heffect : s.walkDone fn ha acc words = s := by rw [State.walkDone, hnone]
    exact congrArg s.ends heffect
  · intro s fn ha acc words k hcomes hfresh
    have heffect := State.walkDone_comes hcomes
    rw [hfresh] at heffect
    exact congrArg s.ends heffect
  · intro s fn ha q acc words k loc e hcomes hfresh hrefused hwaits hcheck hres hright
    have hout : (s.walked (k.over words)).res.out acc = .ok e := by rw [hres, XlRes.out_of_right hright]
    have heffect := State.walkDone_enabled hcomes hfresh hrefused hcheck
    rw [hwaits, State.walkTells_ring_ok hout] at heffect
    exact ⟨_, congrArg s.ends heffect, State.mem_tlbUse _ loc _, (State.tlbUse_walks _ loc _).trans (s.walkEnded_walks k _)⟩
  · intro s fn ha q r acc words k loc hcomes hfresh hrefused hwaits hcheck hfault
    have hout := XlRes.out_of_fault hfault
    have hserves : k.serves (s.walked (k.over words)).res = false := by simp [Walk.serves, hwaits, hout]
    have heffect := State.walkDone_enabled hcomes hfresh hrefused hcheck
    rw [State.walkEnded, hserves, if_neg Bool.false_ne_true, hwaits, State.walkTells_ring_fault hout] at heffect
    obtain ⟨herr, hcode, hstalled⟩ := ((s.walkLess k).resumeAll fn []).ringFail_shown fn q .pageFault
    obtain ⟨htlb, hcache, hwalks⟩ := ((s.walkLess k).resumeAll fn []).ringFail_kept fn q .pageFault
    exact ⟨_, congrArg s.ends heffect, htlb, hcache, herr, hcode, hstalled, hwalks⟩
  · intro s fn ha acc words k hcomes hstale hwaits
    have heffect := State.walkDone_comes hcomes
    obtain ⟨hflight, -, -⟩ := hcomes
    obtain ⟨-, rfl, -⟩ := State.walkInFlight_some hflight
    rw [hstale, Bool.not_true, if_neg Bool.false_ne_true, if_neg (mt List.isEmpty_iff.1 hwaits)] at heffect
    exact ⟨_, congrArg s.ends heffect, rfl, rfl, rfl⟩
  · exact fun s org pages fn hopen hsel hidle =>
      invalidates_of_effect ((State.invalBy_xl hopen _).trans (State.invalRange_eq rfl hsel pages)) hidle
  · exact fun s pf pages fn hopen hsel hidle =>
      invalidates_of_effect ((s.invalBy_xlp pf _).trans (State.invalRange_eq hopen hsel pages)) hidle
  · exact fun s org fn hopen hsel hidle => invalidates_of_effect ((State.invalBy_xl hopen _).trans (State.invalFunction_eq rfl hsel)) hidle
  · exact fun s pf fn hopen hsel hidle => invalidates_of_effect ((s.invalBy_xlp pf _).trans (State.invalFunction_eq hopen hsel)) hidle
  · exact fun s org hopen hidle => invalidates_of_effect ((State.invalBy_xl hopen _).trans (State.invalAll_eq rfl)) hidle
  · exact fun s pf hopen hidle => invalidates_of_effect ((s.invalBy_xlp pf _).trans (State.invalAll_eq hopen)) hidle
  · intro s e v hfind hreads hwalks hops
    have hkept : regsKept [.xlInvalStatus] s (s.setFlag F.xlInvalStatusBusy false (engKey e)) :=
      regsKept_setFld s (by decide) _ (engKey e) 0 (by decide)
    exact ⟨_, congrArg s.answer (State.invalDone_over hfind hreads hwalks hops),
      State.flag_setFlag _ F.xlInvalStatusBusy false (engKey e) 0 rfl, AMap.find_drop_self _ _, hkept,
      memKept_after s _ (memKept_refl s), rfl⟩

end Machine
end Sys2Proof
end

section
/-! PROOFS. What the crash of a host leaves of its links and of fabric time: the work of the fault ring, parked operations and the end of a
function's host requests (R92 to R99, R112, R116). -/

namespace Sys2Proof
namespace Machine

/-- The records of the links, and fabric time. -/
def State.linksAndTime (s : State) : AMap HostLink × ClockState := (s.links, s.clk)

/-- An update of neither the links nor fabric time, after others that keep them. -/
theorem linksAndTime_of_eq {s t u : State} (h : t.linksAndTime = s.linksAndTime) (hlinks : u.links = t.links) (htime : u.clk = t.clk) :
    u.linksAndTime = s.linksAndTime := by
  rw [← h, State.linksAndTime, State.linksAndTime, hlinks, htime]

theorem dataWritten.linksAndTime {s t : State} (h : dataWritten s t) : t.linksAndTime = s.linksAndTime :=
  (congrArg State.linksAndTime h.rest : t.butWrites.linksAndTime = s.butWrites.linksAndTime)

theorem dataWritten.fns {s t : State} (h : dataWritten s t) : t.fns = s.fns :=
  (congrArg State.fns h.rest : t.butWrites.fns = s.butWrites.fns)

theorem State.linksAndTime_signal (s : State) (fn vec : Nat) : (s.signal fn vec).linksAndTime = s.linksAndTime := by
  simp [State.linksAndTime]

theorem State.linksAndTime_notify (s : State) (x : Notice) : (s.notify x).linksAndTime = s.linksAndTime := by
  simp [State.linksAndTime]

theorem State.linksAndTime_count (s : State) (fn ev idx n : Nat) : (s.count fn ev idx n).linksAndTime = s.linksAndTime := by
  simp [State.linksAndTime]

theorem State.linksAndTime_setFld (s : State) (f : Fld) (v o e : Nat) : (s.setFld f v o e).linksAndTime = s.linksAndTime := rfl

theorem State.linksAndTime_setFlag (s : State) (f : Fld) (v : Bool) (o e : Nat) : (s.setFlag f v o e).linksAndTime = s.linksAndTime := rfl

theorem State.linksAndTime_setBatch (s : State) (fn : Nat) (b : FaultBatch) : (s.setBatch fn b).linksAndTime = s.linksAndTime := rfl

/-! ### Accesses counted at the fault ring -/

theorem State.linksAndTime_acCount (s : State) (fn ha len : Nat) (hbm : Bool) :
    (s.acCount fn ha len hbm).linksAndTime = s.linksAndTime := by
  unfold State.acCount
  split
  · rfl
  · dsimp only
    split
    · rfl
    · split
      · rfl
      · split
        · exact (dataWritten_hbmWrite s _ _).linksAndTime
        · exact (dataWritten_hbmWrite s _ _).linksAndTime

theorem State.linksAndTime_acPages (s : State) (g : Engine) (ha len : Nat) (acc : Access) :
    (s.acPages g ha len acc).linksAndTime = s.linksAndTime := by
  refine foldl_keeps State.linksAndTime (fun t p => ?_) _ s
  split
  · exact t.linksAndTime_acCount _ _ _ _
  · rfl

theorem State.linksAndTime_ringPut {s t : State} {fn ha : Nat} {bs : List Byte} (h : s.ringPut fn ha bs = some t) :
    t.linksAndTime = s.linksAndTime := by
  obtain ⟨u, hu, rfl⟩ := Option.map_eq_some_iff.1 h
  exact (u.linksAndTime_acPages _ _ _ _).trans (dataWritten_haWrite hu).linksAndTime

/-- A write to the ring, or RING_ERR where it fails. -/
theorem State.linksAndTime_ringPut_getD (s : State) (fn ha : Nat) (bs : List Byte) {t : State} (ht : t.linksAndTime = s.linksAndTime) :
    ((s.ringPut fn ha bs).getD t).linksAndTime = s.linksAndTime := by
  cases h : s.ringPut fn ha bs with
  | none => exact ht
  | some u => exact State.linksAndTime_ringPut h

theorem State.linksAndTime_putEntry {s t : State} {fn i b9 : Nat} {head rest : List Byte} (h : s.putEntry fn i b9 head rest = some t) :
    t.linksAndTime = s.linksAndTime := by
  obtain ⟨u, hu, h⟩ := Option.bind_eq_some_iff.1 h
  obtain ⟨v, hv, h⟩ := Option.bind_eq_some_iff.1 h
  exact (State.linksAndTime_ringPut h).trans ((State.linksAndTime_ringPut hv).trans (State.linksAndTime_ringPut hu))

/-! ### The work of the fault ring -/

theorem State.linksAndTime_batchEnds (s : State) (fn : Nat) : (s.batchEnds fn).linksAndTime = s.linksAndTime :=
  State.linksAndTime_signal _ _ _

theorem State.linksAndTime_parkedAs (s : State) (f : FaultRec) (k : ParkKind) : (s.parkedAs f k).linksAndTime = s.linksAndTime := by
  unfold State.parkedAs
  split <;> rfl

/-- A step of the fault ring that is done has kept the links and fabric time. -/
def RingStep.keepsLinks (s : State) : RingStep → Prop
  | .done t => t.linksAndTime = s.linksAndTime
  | _ => True

theorem State.ringClose_keepsLinks (s : State) (fn : Nat) : (s.ringClose fn).keepsLinks s := by
  unfold State.ringClose
  dsimp only
  split
  · exact rfl
  · split
    · exact s.linksAndTime_batchEnds fn
    · split
      · exact s.linksAndTime_batchEnds fn
      · split
        · trivial
        · trivial
        · exact State.linksAndTime_batchEnds _ fn
        · exact (State.linksAndTime_batchEnds _ fn).trans (s.linksAndTime_ringPut_getD fn _ _ rfl)

theorem State.ringFault_keepsLinks (s : State) (fn : Nat) (f : FaultRec) : (s.ringFault fn f).1.keepsLinks s := by
  unfold State.ringFault
  extract_lets b hint quiet full n tail next phase b9 e
  have hquiet : quiet.linksAndTime = s.linksAndTime := by
    unfold quiet
    split
    · rfl
    · exact State.linksAndTime_parkedAs _ f .silent
  have hfull : full.linksAndTime = s.linksAndTime := by
    unfold full
    split
    · rfl
    · exact (quiet.linksAndTime_setFlag _ true fn 0).trans hquiet
  have herr : (quiet.setFlag F.xlfFbStatusRingErr true fn).linksAndTime = s.linksAndTime :=
    (quiet.linksAndTime_setFlag _ true fn 0).trans hquiet
  split
  · exact rfl
  · split
    · exact hquiet
    · split
      · exact hquiet
      · split
        · split
          · trivial
          · trivial
          · exact herr
          · extract_lets e' t
            have ht : t.linksAndTime = s.linksAndTime := s.linksAndTime_ringPut_getD fn _ _ (s.linksAndTime_setFlag _ true fn 0)
            exact ((t.setBatch fn _).linksAndTime_parkedAs f _).trans ((t.linksAndTime_setBatch fn _).trans ht)
        · split
          · exact hfull
          · split
            · exact hfull
            · split
              · trivial
              · trivial
              · exact herr
              · split
                · exact herr
                · next t ht =>
                  extract_lets u v w
                  have hu : u.linksAndTime = s.linksAndTime :=
                    (State.linksAndTime_setFld _ _ _ _ _).trans ((t.linksAndTime_count fn 0x12 0 1).trans (State.linksAndTime_putEntry ht))
                  have hv : v.linksAndTime = s.linksAndTime := by
                    unfold v
                    split
                    · exact (u.linksAndTime_setFld _ _ fn 0).trans hu
                    · exact hu
                  exact (w.linksAndTime_parkedAs f _).trans ((v.linksAndTime_setBatch fn _).trans hv)

theorem State.linksAndTime_wantWalk (s : State) (fn ha : Nat) (w : XlWait) : (s.wantWalk fn ha w).linksAndTime = s.linksAndTime := by
  unfold State.wantWalk
  extract_lets page lacks t
  have ht : t.linksAndTime = s.linksAndTime :=
    (State.linksAndTime_count _ fn 0x30 0 1).trans (linksAndTime_of_eq (t := s) rfl rfl rfl)
  clear_value t
  split
  · exact linksAndTime_of_eq ht rfl rfl
  · exact linksAndTime_of_eq ht rfl rfl

theorem State.linksAndTime_ringGo (s : State) (fn n : Nat) : (s.ringGo fn n).linksAndTime = s.linksAndTime := by
  induction n generalizing s with
  | zero => rfl
  | succ n ih =>
    rw [State.ringGo]
    split
    · rfl
    · next it _ _ =>
      split
      next r closes hr =>
      have hstep : r.keepsLinks s := by
        cases it with
        | fault f =>
          have hfault : (s.ringFault fn f).1 = r := congrArg Prod.fst hr
          exact hfault ▸ s.ringFault_keepsLinks fn f
        | close =>
          have hclose : s.ringClose fn = r := congrArg Prod.fst hr
          exact hclose ▸ s.ringClose_keepsLinks fn
      cases r with
      | done t => exact (ih _).trans (linksAndTime_of_eq hstep rfl rfl)
      | held => rfl
      | walk i => exact s.linksAndTime_wantWalk fn _ _

theorem State.linksAndTime_ringRun (s : State) (fn : Nat) : (s.ringRun fn).linksAndTime = s.linksAndTime := s.linksAndTime_ringGo fn _

/-! ### Operations that park, and the end of host requests -/

theorem State.linksAndTime_recordFault (s : State) (fn : Nat) (f : FaultRec) : (s.recordFault fn f).linksAndTime = s.linksAndTime :=
  State.linksAndTime_ringRun _ fn

theorem State.linksAndTime_updJrec (s : State) (i : Option Nat) (f : JRec → JRec) : (s.updJrec i f).linksAndTime = s.linksAndTime := by
  simp [State.linksAndTime]

theorem State.linksAndTime_park (s : State) (o : Op) (seg : Nat) (pages : List (Nat × Nat)) (write : Bool) :
    (s.park o seg pages write).linksAndTime = s.linksAndTime := by
  unfold State.park
  extract_lets t base u x v
  have hu : u.linksAndTime = s.linksAndTime := t.linksAndTime_updJrec _ _
  have hv : v.linksAndTime = s.linksAndTime := by
    unfold v
    split
    · exact linksAndTime_of_eq hu rfl rfl
    · exact hu
  exact (foldl_keeps State.linksAndTime (fun y _ => y.linksAndTime_recordFault o.ref.fn _) pages (v.parkLast o.ref)).trans hv

theorem State.linksAndTime_walksOrphaned (s : State) (fn : Nat) : (s.walksOrphaned fn).linksAndTime = s.linksAndTime := by
  unfold State.walksOrphaned
  split
  · rfl
  · refine (State.linksAndTime_ringRun _ fn).trans (foldl_keeps State.linksAndTime (fun t r => ?_) _ _)
    split
    · exact t.linksAndTime_park _ _ _ _
    · rfl

theorem State.linksAndTime_walksBack (s : State) (fn : Nat) : (s.walksBack fn).linksAndTime = s.linksAndTime :=
  linksAndTime_of_eq
    (foldl_keeps State.linksAndTime (fun (t : State) (k : Walk) => linksAndTime_of_eq (u := t.walkGone k.fn k.page) rfl rfl rfl) _ s)
    rfl rfl

theorem State.linksAndTime_holdQueues (s : State) (fn : Nat) (hostOnly : Bool) :
    (s.holdQueues fn hostOnly).linksAndTime = s.linksAndTime := rfl

theorem State.linksAndTime_holdOp (s : State) (r : OpRef) : (s.holdOp r).linksAndTime = s.linksAndTime := rfl

theorem State.linksAndTime_stopHost (s : State) (fn : Nat) (hostOnly : Bool) : (s.stopHost fn hostOnly).linksAndTime = s.linksAndTime := by
  unfold State.stopHost
  extract_lets t u back
  have hu : u.linksAndTime = s.linksAndTime := linksAndTime_of_eq (t := s) rfl rfl rfl
  calc _ = _ := State.linksAndTime_holdQueues _ fn hostOnly
    _ = _ := State.linksAndTime_walksBack _ fn
    _ = u.linksAndTime := foldl_keeps State.linksAndTime State.linksAndTime_holdOp _ u
    _ = s.linksAndTime := hu

theorem State.linksAndTime_resetCfg (s : State) (fn : Nat) : (s.resetCfg fn).linksAndTime = s.linksAndTime := by
  unfold State.resetCfg
  extract_lets f t
  split
  · refine foldl_keeps State.linksAndTime (fun u v => ?_) _ t
    dsimp only
    split_ifs
    · rfl
    · rfl
    · rfl
  · rfl

/-- What a crash event makes of one function of the link (Table 4.13). -/
def State.crashFn (l : LinkId) (t : State) (f : Nat) : State :=
  let x := t.fn f
  match x.state with
  | .resetting => (t.setFn f { x with crashed := true }).resetCfg f
  | .active =>
    ((((t.setFn f { x with state := .orphaned }).resetCfg f).stopHost f true).walksOrphaned f).notify
      { type := 0xE1, fn := f, body := [BitVec.ofNat 8 l.port, BitVec.ofNat 8 (b2n l.sub)] }
  | _ => t.resetCfg f

theorem State.linksAndTime_crashFn (l : LinkId) (t : State) (f : Nat) : (t.crashFn l f).linksAndTime = t.linksAndTime := by
  unfold State.crashFn
  dsimp only
  split
  · exact State.linksAndTime_resetCfg _ f
  · calc _ = _ := State.linksAndTime_notify _ _
      _ = _ := State.linksAndTime_walksOrphaned _ f
      _ = _ := State.linksAndTime_stopHost _ f true
      _ = _ := State.linksAndTime_resetCfg _ f
  · exact t.linksAndTime_resetCfg f

/-- A crash event acts on the functions of the link one by one, and then opens the grace period. -/
theorem State.crash_eq (s : State) (l : LinkId) (t : State) (ht : t = (s.linkFns l).foldl (State.crashFn l) s) :
    s.crash l = t.setLink l { t.link l with
      grace := !((s.fnsOf l).filter fun f => (s.fn f).state != .wedged).isEmpty, graceAt := t.nowNs, badTokens := 0,
      downWait := false } := by
  subst ht
  rfl

@[simp] theorem State.link_setLink (s : State) (l : LinkId) (x : HostLink) : (s.setLink l x).link l = x := by
  simp [State.link, State.setLink]

theorem State.link_crash (s : State) (l : LinkId) : (s.crash l).link l = { s.link l with
    grace := !((s.fnsOf l).filter fun f => (s.fn f).state != .wedged).isEmpty, graceAt := s.nowNs, badTokens := 0, downWait := false } := by
  have hkept : ((s.linkFns l).foldl (State.crashFn l) s).linksAndTime = s.linksAndTime :=
    foldl_keeps State.linksAndTime (fun t f => t.linksAndTime_crashFn l f) _ s
  obtain ⟨hlinks, hclk⟩ := Prod.mk.inj hkept
  rw [s.crash_eq l _ rfl, State.link_setLink, State.link, State.link, hlinks, State.nowNs, State.nowNs, hclk]

end Machine
end Sys2Proof
end

section
/-! PROOFS. Links of the host ports: training, loss, resets, watchdog, attach and grace (R101, R114, R116 to R118). -/

namespace Sys2Proof
namespace Machine

/-! ### HP.LINK_STATUS of a link -/

theorem regsKept.setLinkFld {rs : List Reg} {s t : State} (h : regsKept rs s t) {f : Fld}
    (hf : f.reg ∈ rs ∧ f.pos 0 < 64 ∧ f.pos 1 < 64) (v : Nat) (l : LinkId) : regsKept rs s (t.setFld f v l.port (b2n l.sub)) := by
  obtain ⟨hreg, hpos0, hpos1⟩ := hf
  refine h.setFld hreg v _ _ ?_
  cases l.sub
  · exact hpos0
  · exact hpos1

theorem fld_setLinkFld_ne {f g : Fld} (h : f.apart 0 g 0 = true ∧ f.apart 1 g 1 = true) (s : State) (v : Nat) (l : LinkId) :
    (s.setFld f v l.port (b2n l.sub)).fld g l.port (b2n l.sub) = s.fld g l.port (b2n l.sub) := by
  refine fld_setFld_ne ?_ s v _ _
  cases l.sub
  · exact h.1
  · exact h.2

theorem State.linkState_showDown (s : State) (l : LinkId) {st : Nat} (hst : st < 4) : (s.showDown l st).linkState l = st := by
  unfold State.showDown State.linkState
  dsimp only
  rw [fld_setLinkFld_ne (by decide), fld_setLinkFld_ne (by decide), State.setFlag, fld_setLinkFld_ne (by decide)]
  exact fld_setFld_of_lt (f := F.hpLinkStatusState) hst s _ _

theorem State.fld_showDown_downCount (s : State) (l : LinkId) (st : Nat) :
    (s.showDown l st).fld F.hpLinkStatusDownCount l.port (b2n l.sub) = s.fld F.hpLinkStatusDownCount l.port (b2n l.sub) := by
  unfold State.showDown State.setFlag
  dsimp only
  rw [fld_setLinkFld_ne (by decide), fld_setLinkFld_ne (by decide), fld_setLinkFld_ne (by decide), fld_setLinkFld_ne (by decide)]

theorem State.regsKept_showDown {rs : List Reg} (hrs : Reg.hpLinkStatus ∈ rs) (s : State) (l : LinkId) (st : Nat) :
    regsKept rs s (s.showDown l st) := by
  have hkept : regsKept [.hpLinkStatus] s (s.showDown l st) :=
    ((((regsKept_refl _ s).setLinkFld (f := F.hpLinkStatusState) (by decide) _ l).setLinkFld (f := F.hpLinkStatusFlit) (by decide) _
      l).setLinkFld (f := F.hpLinkStatusWidth) (by decide) _ l).setLinkFld (f := F.hpLinkStatusRate) (by decide) _ l
  exact hkept.mono (by simpa using hrs)

/-- A link whose STATE is not 2 is not up. -/
theorem State.linkUp_eq_false {s : State} {l : LinkId} {st : Nat} (h : s.linkState l = st) (hst : st ≠ 2) : s.linkUp l = false := by
  simp [State.linkUp, h, hst]

theorem State.linkPresent_of_regsKept {rs : List Reg} {s t : State} (h : regsKept rs s t) (hcfg : Reg.hpPortCfg ∉ rs)
    (hfuses : t.fuses = s.fuses) (l : LinkId) : t.linkPresent l = s.linkPresent l := by
  have hmode : t.bifurcated l.port = s.bifurcated l.port := h.flag F.hpPortCfgBifurcate _ 0 (by decide) hcfg
  rw [State.linkPresent, State.linkPresent, State.portPresent, State.portPresent, hmode, hfuses]

theorem State.linkPresent_of_mayTrain {s : State} {l : LinkId} (h : s.linkMayTrain l = true) : s.linkPresent l = true := by
  simp only [State.linkMayTrain, Bool.and_eq_true] at h
  exact h.1.1.1.1.1

theorem State.portPresent_of_linkPresent {s : State} {l : LinkId} (h : s.linkPresent l = true) : s.portPresent l.port = true :=
  (Bool.and_eq_true _ _ ▸ h).1

/-! ### Training -/

theorem State.regsKept_linkAccept (s : State) (l : LinkId) (rate width : Nat) :
    regsKept [.hpLinkStatus] s (s.linkAccept l rate width) :=
  (((((regsKept_refl _ s).setLinkFld (f := F.hpLinkStatusBelowMin) (by decide) _ l).setLinkFld (f := F.hpLinkStatusState) (by decide) _
    l).setLinkFld (f := F.hpLinkStatusFlit) (by decide) _ l).setLinkFld (f := F.hpLinkStatusWidth) (by decide) _ l).setLinkFld
      (f := F.hpLinkStatusRate) (by decide) _ l

theorem State.linkState_linkAccept (s : State) (l : LinkId) (rate width : Nat) : (s.linkAccept l rate width).linkState l = 2 := by
  unfold State.linkAccept State.linkState
  dsimp only
  rw [State.fld_setLink, fld_setLinkFld_ne (by decide), fld_setLinkFld_ne (by decide), State.setFlag, fld_setLinkFld_ne (by decide)]
  exact fld_setFld_of_lt (f := F.hpLinkStatusState) (by decide) _ _ _

theorem State.linkUp_linkAccept {s : State} {l : LinkId} (h : s.linkPresent l = true) (rate width : Nat) :
    (s.linkAccept l rate width).linkUp l = true := by
  have hpresent : (s.linkAccept l rate width).linkPresent l = true :=
    (State.linkPresent_of_regsKept (s.regsKept_linkAccept l rate width) (by decide) rfl l).trans h
  rw [State.linkUp, hpresent, s.linkState_linkAccept]
  rfl

/-- A link whose training has ended at a rate or width that is not accepted. -/
def State.linkRefused (s : State) (l : LinkId) : State :=
  ((s.showDown l 1).setFlag F.hpLinkStatusBelowMin true l.port (b2n l.sub)).countSat F.hpLinkStatusDownCount l.port 1 (b2n l.sub)

theorem State.regsKept_linkRefused (s : State) (l : LinkId) : regsKept [.hpLinkStatus] s (s.linkRefused l) :=
  ((s.regsKept_showDown (by decide) l 1).setLinkFld (f := F.hpLinkStatusBelowMin) (by decide) _ l).setLinkFld
    (f := F.hpLinkStatusDownCount) (by decide) _ l

theorem State.linkState_linkRefused (s : State) (l : LinkId) : (s.linkRefused l).linkState l = 1 := by
  unfold State.linkRefused State.linkState State.countSat State.setFlag
  rw [fld_setLinkFld_ne (by decide), fld_setLinkFld_ne (by decide)]
  exact s.linkState_showDown l (by decide)

theorem State.linkRefused_belowMin (s : State) (l : LinkId) :
    (s.linkRefused l).flag F.hpLinkStatusBelowMin l.port (b2n l.sub) = true := by
  unfold State.linkRefused State.countSat
  rw [State.flag, fld_setLinkFld_ne (by decide)]
  exact State.flag_setFlag _ F.hpLinkStatusBelowMin true _ _ rfl

theorem State.linkRefused_counted (s : State) (l : LinkId) : counted s (s.linkRefused l) F.hpLinkStatusDownCount l.port (b2n l.sub) := by
  unfold State.linkRefused State.countSat counted
  rw [fld_setFld_self, State.setFlag, fld_setLinkFld_ne (by decide), s.fld_showDown_downCount]

theorem State.linkTrained_accepted {s : State} {l : LinkId} {rate width : Nat} (hmay : s.linkMayTrain l = true) (hdown : s.linkUp l = false)
    (h : s.linkAccepted l rate width = true) : s.linkTrained l rate width = (s.linkAccept l rate width).linkOpens l := by
  simp [State.linkTrained, hmay, hdown, h]

theorem State.linkTrained_refused {s : State} {l : LinkId} {rate width : Nat} (hmay : s.linkMayTrain l = true) (hdown : s.linkUp l = false)
    (h : s.linkAccepted l rate width = false) : s.linkTrained l rate width = s.linkRefused l := by
  simp [State.linkTrained, hmay, hdown, h, State.linkRefused]

/-! ### Release from reset -/

/-- Whether a link may train is not shown by CLK_STATUS. -/
theorem State.linkMayTrain_setPllLock (s : State) (l : LinkId) (v : Nat) :
    (s.setFld F.clkpwrClkStatusPciePllLock v).linkMayTrain l = s.linkMayTrain l := by
  have hpresent : (s.setFld F.clkpwrClkStatusPciePllLock v).linkPresent l = s.linkPresent l :=
    State.linkPresent_of_regsKept (regsKept_setFld (rs := [.clkpwrClkStatus]) s (by decide) v 0 0 (by decide)) (by decide) rfl l
  rw [State.linkMayTrain, hpresent]
  rfl

theorem State.linkUp_setPllLock (s : State) (l : LinkId) (v : Nat) :
    (s.setFld F.clkpwrClkStatusPciePllLock v).linkUp l = s.linkUp l := by
  have hkept : regsKept [.clkpwrClkStatus] s (s.setFld F.clkpwrClkStatusPciePllLock v) := regsKept_setFld s (by decide) v 0 0 (by decide)
  have hstate : (s.setFld F.clkpwrClkStatusPciePllLock v).linkState l = s.linkState l :=
    hkept F.hpLinkStatusState _ _ (by cases l.sub <;> decide) (by decide)
  rw [State.linkUp, State.linkPresent_of_regsKept hkept (by decide) rfl, hstate, State.linkUp]

/-- The state in which a link is no longer held in reset, and the lock of its PHY shown. -/
def State.phyLocked (s : State) (l : LinkId) : State :=
  s.setFld F.clkpwrClkStatusPciePllLock (putBit (s.fld F.clkpwrClkStatusPciePllLock) l.port true)

theorem State.regsKept_phyLocked (s : State) (l : LinkId) : regsKept [.hpLinkStatus, .clkpwrClkStatus] s (s.phyLocked l) :=
  regsKept_setFld s (by decide) _ 0 0 (by decide)

theorem State.perstDeassert_mayTrain {s t : State} {l : LinkId} (hport : s.portPresent l.port = true) (hperst : (s.link l).perst = true)
    (ht : t = s.setLink l { s.link l with perst := false }) (hmay : t.linkMayTrain l = true) :
    s.perstDeassert l = if s.linkUp l then t.phyLocked l else (t.phyLocked l).showDown l 1 := by
  subst ht
  have hup : ((s.setLink l { s.link l with perst := false }).phyLocked l).linkUp l = s.linkUp l := State.linkUp_setPllLock _ l _
  have hmay' : ((s.setLink l { s.link l with perst := false }).phyLocked l).linkMayTrain l = true :=
    (State.linkMayTrain_setPllLock _ l _).trans hmay
  have htrain : s.perstDeassert l = ((s.setLink l { s.link l with perst := false }).phyLocked l).startTraining l := by
    simp [State.perstDeassert, hport, hperst, hmay, State.phyLocked]
  rw [htrain, State.startTraining, hmay', hup]
  cases s.linkUp l <;> rfl

theorem State.perstDeassert_stays {s t : State} {l : LinkId} (hport : s.portPresent l.port = true) (hperst : (s.link l).perst = true)
    (ht : t = s.setLink l { s.link l with perst := false }) (hmay : t.linkMayTrain l = false) : s.perstDeassert l = t := by
  subst ht
  simp [State.perstDeassert, hport, hperst, hmay]

/-! ### Attach -/

theorem State.attach_wrong {s : State} {fn : Nat} {tok : Word} {l : LinkId} (hpf : s.isPf fn = true) (hopen : s.barOpen fn = true)
    (horphan : (s.fn fn).state = .orphaned) (hlock : s.flag F.hpfStatusAttachLock fn = false) (hl : l = s.linkOf fn)
    (htok : tok ≠ (s.link l).token) :
    s.attach fn tok = (s.setLink l { s.link l with badTokens := min 255 ((s.link l).badTokens + 1) }).setFlag F.hpfStatusAttachLock
      (decide (16 ≤ min 255 ((s.link l).badTokens + 1))) fn := by
  subst hl
  simp [State.attach, hpf, hopen, horphan, hlock, htok]

/-- Settles O11: each command that does something is its effect on the link, and a crash event leaves the records of links alone until it
opens the grace period. -/
theorem hostLinkCommandsComplete : Obligations.HostLinkCommandsComplete := by
  refine ⟨?_, ?_, ?_, ?_, ?_, ?_, ?_, ?_, ?_, ?_, ?_, ?_, ?_, ?_⟩
  · intro s l rate width hmay hdown hacc
    refine ⟨s.linkAccept l rate width, congrArg s.ends (State.linkTrained_accepted hmay hdown hacc),
      State.linkUp_linkAccept (State.linkPresent_of_mayTrain hmay) rate width, ?_, s.regsKept_linkAccept l rate width, fun _ => rfl⟩
    exact congrArg HostLink.downWait (State.link_setLink _ l _)
  · intro s l rate width hmay hdown hacc
    exact ⟨s.linkRefused l, congrArg s.ends (State.linkTrained_refused hmay hdown hacc),
      State.linkUp_eq_false (s.linkState_linkRefused l) (by decide), s.linkRefused_belowMin l, s.linkState_linkRefused l,
      s.linkRefused_counted l, s.regsKept_linkRefused l, fun _ => rfl⟩
  · intro s l hup
    exact congrArg s.ends (if_neg (by simp [hup]))
  · exact fun s l hwait => congrArg s.ends (if_pos hwait)
  · intro s l hpresent hperst
    have hport := State.portPresent_of_linkPresent hpresent
    exact congrArg s.ends ((if_neg (by simp [hport, hperst])).trans (if_pos hpresent))
  · intro s l hport hnone hperst
    exact congrArg s.ends ((if_neg (by simp [hport, hperst])).trans (if_neg (by simp [hnone])))
  · exact fun s l hup => congrArg s.ends (if_pos hup)
  · exact fun s l hpresent hwdog => congrArg s.ends (if_pos ⟨hpresent, hwdog⟩)
  · exact State.link_crash
  · intro s l hport hperst
    have hlink : (s.setLink l { s.link l with perst := false }).link l = { s.link l with perst := false } := State.link_setLink s l _
    have hreleased : ((s.setLink l { s.link l with perst := false }).link l).perst = false := congrArg HostLink.perst hlink
    by_cases hmay : (s.setLink l { s.link l with perst := false }).linkMayTrain l = true
    · have heffect := State.perstDeassert_mayTrain hport hperst rfl hmay
      have hlocked := (s.setLink l { s.link l with perst := false }).regsKept_phyLocked l
      cases hup : s.linkUp l with
      | true =>
        rw [hup, if_pos rfl] at heffect
        exact ⟨_, congrArg s.ends heffect, hreleased, nofun, hlocked, fun _ => rfl⟩
      | false =>
        rw [hup, if_neg Bool.false_ne_true] at heffect
        exact ⟨_, congrArg s.ends heffect, hreleased, fun _ _ => State.linkState_showDown _ l (by decide),
          hlocked.trans (State.regsKept_showDown (by decide) _ l 1), fun _ => rfl⟩
    · have heffect := State.perstDeassert_stays hport hperst rfl (Bool.not_eq_true _ ▸ hmay)
      exact ⟨_, congrArg s.ends heffect, hreleased, fun h => absurd h hmay, regsKept_refl _ s, fun _ => rfl⟩
  · intro s fn hpf hopen
    have heffect : s.watchdogRestart fn = s.setLink (s.linkOf fn) { s.link (s.linkOf fn) with wdogAt := s.nowNs } := if_pos ⟨hpf, hopen⟩
    refine ⟨_, congrArg s.answer heffect, ?_, memKept_after s _ (fun _ => rfl), rfl⟩
    exact congrArg HostLink.wdogAt (State.link_setLink s (s.linkOf fn) _)
  · intro s fn tok hpf hopen horphan hlock htok
    refine ⟨_, congrArg s.ends (State.attach_wrong hpf hopen horphan hlock rfl htok), ?_, ?_, rfl, fun _ => rfl⟩
    · exact congrArg HostLink.badTokens (State.link_setLink s (s.linkOf fn) _)
    · rw [State.flag_setFlag _ _ _ _ _ rfl, decide_eq_true_eq]
  · intro s fn hpf hopen horphan hlock x fs hx hfs
    subst hx hfs
    refine congrArg s.ends ?_
    simp [State.attach, hpf, hopen, horphan, hlock]
  · intro s l hgrace
    exact congrArg s.ends (if_neg (by simp [hgrace]))

end Machine
end Sys2Proof
end

section
/-! PROOFS. What the clearing of a function leaves of its record: the mark that its reset is for a teardown (R113, Table 4.11). -/

namespace Sys2Proof
namespace Machine

theorem fns_of_butFlds {s t : State} (h : t.butFlds = s.butFlds) : t.fns = s.fns :=
  (congrArg State.fns h : t.butFlds.fns = s.butFlds.fns)

theorem State.fn_of_fns_eq {s t : State} (h : t.fns = s.fns) (fn : Nat) : t.fn fn = s.fn fn := by
  rw [State.fn, State.fn, h]

/-! ### Blocks and channels of the function -/

theorem State.fns_serveEarly (s : State) (base len : Nat) (store : Bool) {f : State → Blk → SeqOut → State × List Byte}
    (hf : ∀ t x o, (f t x o).1.fns = t.fns) : (s.serveEarly base len store f).fns = s.fns := by
  refine foldl_keeps State.fns (fun t e => foldl_keeps State.fns (fun u o => ?_) _ t) _ s
  extract_lets hit
  split
  · rfl
  · exact hf u (u.blk e.1) o

theorem State.fns_loadsLand (s : State) (r : Resident) : (s.loadsLand r).fns = s.fns := by
  refine s.fns_serveEarly r.base r.len false fun t x o => ?_
  cases o.work <;> rfl

theorem State.fns_releaseEntry (s : State) (i : Nat) : (s.releaseEntry i).fns = s.fns := by
  unfold State.releaseEntry
  split
  · rfl
  · next r _ =>
    dsimp only
    split
    · exact (dataWritten_hbmWrite _ _ _).fns.trans (s.fns_loadsLand r)
    · exact s.fns_loadsLand r

theorem State.fns_releaseAll (s : State) (b : Nat) : (s.releaseAll b true).fns = s.fns :=
  foldl_keeps State.fns (fun (t : State) (e : Nat × Resident) => t.fns_releaseEntry e.1) _ s

theorem State.fns_resetRegs (s : State) (rs : List Reg) (o : Nat) : (s.resetRegs rs o).fns = s.fns :=
  fns_of_butFlds (s.butFlds_resetRegs rs o)

theorem State.fns_resetRange (s : State) (rs : List Reg) (lo n : Nat) : (s.resetRange rs lo n).fns = s.fns := rfl

theorem State.fns_clearBlk (s : State) (b : Nat) : (s.clearBlk b).fns = s.fns :=
  State.fns_resetRegs _ _ b

theorem State.fns_clearBlocks (s : State) (bs : List Nat) : (s.clearBlocks bs).fns = s.fns :=
  foldl_keeps State.fns (fun t b => (State.fns_clearBlk _ b).trans (t.fns_releaseAll b)) bs s

theorem State.fns_icReset (s : State) (ch : Nat) : (s.icReset ch).fns = s.fns := by
  unfold State.icReset
  extract_lets fn p t
  have ht : t.fns = s.fns := by dsimp only [t]
  exact (fns_of_butFlds (State.butFlds_setFld _ _ _ ch 0)).trans ((t.fns_resetRegs _ ch).trans ht)

theorem State.fns_resyncKiosk (s : State) (fn : Nat) : (s.resyncKiosk fn).fns = s.fns := by
  unfold State.resyncKiosk
  dsimp only
  split
  · rfl
  · rfl

/-! ### The configuration state -/

/-- What the reset of a PF makes of the configuration state of a function of its link. -/
def State.resetVfCfg (t : State) (v : Nat) : State :=
  if t.isPf v then t
  else if (t.fn v).state = .notCreated then t.setFn v {}
  else t.setFn v { t.fn v with vfHidden := true, mse := false }

theorem State.resetVfCfg_of_pf {t : State} {v : Nat} (h : t.isPf v = true) : t.resetVfCfg v = t := if_pos h

theorem State.resetVfCfg_flds (t : State) (v : Nat) : (t.resetVfCfg v).flds = t.flds := by
  unfold State.resetVfCfg
  split_ifs <;> rfl

theorem State.isPf_of_flds_eq {s t : State} (h : t.flds = s.flds) (fn : Nat) : t.isPf fn = s.isPf fn := by
  rw [State.isPf, State.isPf, State.bifurcated, State.bifurcated, State.flag, State.flag, State.fld, State.fld, h]

theorem State.resetVfCfg_fn_ne (t : State) {v fn : Nat} (h : fn ≠ v) : (t.resetVfCfg v).fn fn = t.fn fn := by
  unfold State.resetVfCfg
  split_ifs
  · rfl
  · exact t.fn_setFn_ne v _ h
  · exact t.fn_setFn_ne v _ h

/-- The VFs of a link lose their configuration state with their PF, which keeps its record. -/
theorem State.fn_foldl_resetVfCfg {s : State} {pf : Nat} (hpf : s.isPf pf = true) (vs : List Nat) :
    (vs.foldl State.resetVfCfg s).fn pf = s.fn pf := by
  induction vs generalizing s with
  | nil => rfl
  | cons v vs ih =>
    refine (ih ((State.isPf_of_flds_eq (s.resetVfCfg_flds v) pf).trans hpf)).trans ?_
    by_cases h : pf = v
    · rw [State.resetVfCfg_of_pf (h ▸ hpf)]
    · exact s.resetVfCfg_fn_ne h

/-- A reset of the configuration state keeps why the function is reset. -/
theorem State.resetCfg_destroy (s : State) (fn : Nat) : ((s.resetCfg fn).fn fn).destroy = (s.fn fn).destroy := by
  have hown (x : Fn) : ((s.setFn fn x).fn fn).destroy = x.destroy := by rw [State.fn_setFn]
  unfold State.resetCfg
  extract_lets f t
  split
  · next hpf => exact (congrArg Fn.destroy (State.fn_foldl_resetVfCfg hpf _)).trans (hown _)
  · exact hown _

/-- Step 6 of Table 4.11 keeps why the function is reset. -/
theorem State.clearFn_destroy (s : State) (fn : Nat) : ((s.clearFn fn).fn fn).destroy = (s.fn fn).destroy := by
  unfold State.clearFn
  extract_lets idle untranslated cleared prot keyless chanless unconfigured obj shaper shaped kiosks
  have hwork : untranslated.fns = s.fns := by dsimp only [untranslated, idle, State.tlbRemove]
  have hregs : cleared.fns = s.fns := by rw [State.fns_resetRange, State.fns_resetRange, State.fns_resetRegs, hwork]
  have hkeys : keyless.fns = s.fns := by
    dsimp only [keyless]
    exact hregs
  have hchans : chanless.fns = s.fns := (foldl_keeps State.fns State.fns_icReset _ keyless).trans hkeys
  have hblks : (chanless.clearBlocks (chanless.blocksOf fn)).fns = s.fns := (chanless.fns_clearBlocks _).trans hchans
  have hcfg : (unconfigured.fn fn).destroy = (s.fn fn).destroy :=
    (State.resetCfg_destroy _ fn).trans (congrArg Fn.destroy (State.fn_of_fns_eq hblks fn))
  split
  · have hkiosks : kiosks.fns = unconfigured.fns := foldl_keeps State.fns State.fns_resyncKiosk _ shaped
    exact (congrArg Fn.destroy (State.fn_of_fns_eq hkiosks fn)).trans hcfg
  · exact (congrArg Fn.destroy (State.fn_of_fns_eq (shaped.fns_resyncKiosk fn) fn)).trans hcfg

end Machine
end Sys2Proof
end

section
/-! PROOFS. Functions at the host port: bus mastering, resets, tags, configuration requests and MSI-X (R104, R112 to R115, R127, R542). -/

namespace Sys2Proof
namespace Machine

/-! ### The ends of a function's reset -/

theorem dataWritten.ten {s t : State} (h : dataWritten s t) : t.ten = s.ten :=
  (congrArg State.ten h.rest : t.butWrites.ten = s.butWrites.ten)

theorem State.fnResetDone_stays {s : State} {fn : Nat} (hstate : (s.fn fn).state = .resetting) (hwaits : s.resetWaits fn = false)
    (hdestroy : (s.fn fn).destroy = false) :
    s.fnResetDone fn = ((s.clearFn fn).setFn fn { (s.clearFn fn).fn fn with
      state := if ((s.clearFn fn).fn fn).crashed then .orphaned else .active, crashed := false }).notify { type := 0xE3, fn := fn } := by
  have hstays : (!((s.clearFn fn).fn fn).destroy) = true := by rw [s.clearFn_destroy, hdestroy]; rfl
  exact (if_neg (by simp [hstate, hwaits])).trans (if_pos hstays)

theorem State.destroying_postReq (s : State) (m : Nat) (k : Kiosk) (msg : Bool → List Byte) :
    (s.postReq m k msg).ten.destroying = s.ten.destroying := by
  unfold State.postReq
  extract_lets n phase t k' tenant u
  have hwritten : t.ten = s.ten := (dataWritten_hbmWrite s _ _).ten
  have hput : u.ten.destroying = s.ten.destroying := by
    dsimp only [u, tenant]
    rw [hwritten]
  split
  · simpa using hput
  · exact hput

theorem State.destroying_loseNotice (s : State) : s.loseNotice.ten.destroying = s.ten.destroying := rfl

/-- A notice changes no function command in progress. -/
theorem State.destroying_notify (s : State) (x : Notice) : (s.notify x).ten.destroying = s.ten.destroying := by
  unfold State.notify
  split
  · exact s.destroying_loseNotice
  · next m _ =>
    split
    · exact s.destroying_loseNotice
    · next k _ =>
      extract_lets need t tenant u k'
      have htold : u.ten.destroying = s.ten.destroying := by
        dsimp only [u, tenant]
        exact s.destroying_postReq m k _
      split
      · exact s.destroying_loseNotice
      · split
        · exact s.destroying_postReq m k _
        · exact (u.destroying_postReq m k' _).trans htold

theorem State.fnWedged_unasked {s : State} {fn : Nat} (hstate : (s.fn fn).state = .resetting) (hasked : s.ten.destroying ≠ some fn) :
    s.fnWedged fn =
      (s.setFn fn { s.fn fn with state := .wedged, crashed := false, destroy := false }).notify { type := 0xE0, fn := fn } := by
  refine (if_neg (not_not_intro hstate)).trans (if_neg ?_)
  rwa [State.destroying_notify]

/-! ### Tags -/

theorem State.tagAt_mem {s : State} {l : LinkId} {n : Nat} {t : Tag} (h : s.tagAt l n = some t) : t ∈ s.tags :=
  List.mem_of_find?_eq_some h

/-- The state in which a tag is marked as timed out. -/
def State.tagExpired (s : State) (t : Tag) : State :=
  { s with tags := s.tags.map fun x => if x = t then { x with timedOut := true } else x }

theorem State.mem_tagExpired {s : State} {t : Tag} (h : t ∈ s.tags) : { t with timedOut := true } ∈ (s.tagExpired t).tags :=
  List.mem_map.2 ⟨t, h, if_pos rfl⟩

theorem State.tagTimeout_awaited {s : State} {l : LinkId} {n : Nat} {t : Tag} (htag : s.tagAt l n = some t) (hwaits : t.timedOut = false) :
    s.tagTimeout l n = if t.dead then (s.tagExpired t).logAer t.fn aerCompletionTimeout
      else ((s.tagExpired t).logAer t.fn aerCompletionTimeout).readFails t.use := by
  rw [State.tagTimeout, htag]
  exact if_neg (by simp [hwaits])

theorem State.tagAt_bwCount (s : State) (p : Nat) (tx : Bool) (k : Nat) (l : LinkId) (n : Nat) :
    (s.bwCount p tx k).tagAt l n = s.tagAt l n := by
  simp [State.tagAt]

theorem State.fn_bwCount (s : State) (p : Nat) (tx : Bool) (k : Nat) (f : Nat) : (s.bwCount p tx k).fn f = s.fn f := by
  simp [State.fn]

theorem State.tagsFreed_of_none {s : State} (h : s.heldReads = []) (l : LinkId) : s.tagsFreed l = s := by
  rw [State.tagsFreed, h, List.foldl_nil]

/-- The state in which a tag has been given back. -/
def State.tagLess (s : State) (t : Tag) : State := { s with tags := s.tags.filter fun x => x != t }

section

variable {s b : State} {l : LinkId} {n : Nat} {data : Option (List Byte)}
  (hb : b = s.bwCount (l.port + if l.sub then 4 else 0) false (12 + (data.getD []).length))

include hb

theorem State.hostCompletion_none (h : s.tagAt l n = none) :
    s.hostCompletion l n data = b.logAer (linkPf l) aerUnexpectedCompletion := by
  have htag : b.tagAt l n = none := by rw [hb, State.tagAt_bwCount, h]
  unfold State.hostCompletion
  dsimp only
  rw [← hb, htag]

theorem State.hostCompletion_some {t : Tag} (h : s.tagAt l n = some t) :
    s.hostCompletion l n data = if t.timedOut then b.logAer t.fn aerUnexpectedCompletion
      else if (s.fn t.fn).state = .wedged then b
      else (if t.dead then b.tagLess t else (b.tagLess t).useData t.use data).tagsFreed ⟨t.port, t.sub⟩ := by
  have htag : b.tagAt l n = some t := by rw [hb, State.tagAt_bwCount, h]
  have hfn : b.fn t.fn = s.fn t.fn := by rw [hb, State.fn_bwCount]
  unfold State.hostCompletion
  dsimp only
  rw [← hb, htag, ← hfn]
  dsimp only [State.tagReturns, State.tagLess]

theorem State.hostCompletion_awaited {t : Tag} (h : s.tagAt l n = some t) (hwaits : t.timedOut = false)
    (hfn : (s.fn t.fn).state ≠ .wedged) (hwanted : t.dead = false) :
    s.hostCompletion l n data = ((b.tagLess t).useData t.use data).tagsFreed ⟨t.port, t.sub⟩ := by
  rw [State.hostCompletion_some hb h, hwaits, hwanted, if_neg Bool.false_ne_true, if_neg hfn, if_neg Bool.false_ne_true]

end

/-- The bytes of a data read are kept; after the last of them the operation goes on. -/
theorem State.useData_data {s v : State} {r : OpRef} {off len : Nat} {bs : List Byte} {o : Op}
    (hv : v = s.updOp r fun o => { o with buf := AMap.put o.buf off (padTo bs len) }) (hop : v.op r = some o) :
    s.useData (.data r off len) (some bs) =
      if (v.tagsOf r).isEmpty ∧ (v.heldOf r).isEmpty ∧ o.phase = .gather then v.gathered o else v := by
  subst hv
  simp only [State.useData]
  rw [hop]

/-! ### MSI-X -/

theorem msixKey_fn (fn vec : Nat) : msixKey fn vec / 2048 = fn := by
  rw [msixKey]; omega

theorem msixKey_vec (fn vec : Nat) : msixKey fn vec % 2048 = vec % 2048 := by
  rw [msixKey]; omega

/-- The one message that is pending is sent (R127). -/
theorem State.sendPending_one {s : State} {fn vec : Nat} {x : Msix} (hen : (s.fn fn).msixEn = true) (hmask : (s.fn fn).msixMask = false)
    (hopen : s.hostOpen fn = true) (hmsix : s.msix = [(msixKey fn vec, x)]) (hpending : x.pending = true) (hx : x.mask = false) :
    s.sendPending fn = ({ s with msix := AMap.save ({} : Msix) s.msix (msixKey fn vec) { x with pending := false } } : State).emit
      (.msix fn (vec % 2048)) := by
  have hgo : s.sendPending fn = s.msix.foldl (fun t e =>
      if e.1 / 2048 = fn ∧ e.2.pending ∧ !e.2.mask then
        ({ t with msix := AMap.save ({} : Msix) t.msix e.1 { e.2 with pending := false } }).emit (.msix fn (e.1 % 2048))
      else t) s := if_neg (by simp [hen, hmask, hopen])
  rw [hgo, hmsix, List.foldl_cons, List.foldl_nil, if_pos ⟨msixKey_fn fn vec, hpending, by simp [hx]⟩, msixKey_vec, hmsix]

theorem State.hostOpen_with_msix (s : State) (m : AMap Msix) (fn : Nat) : ({ s with msix := m } : State).hostOpen fn = s.hostOpen fn := rfl

theorem State.msixUnmask_vector {s t : State} {fn vec : Nat} (hbar : s.barOpen fn = true) (hen : (s.fn fn).msixEn = true)
    (hmask : (s.fn fn).msixMask = false) (hopen : s.hostOpen fn = true) (hmsix : s.msix = [(msixKey fn vec, { pending := true })])
    (ht : t = { s with msix := [(msixKey fn vec, { pending := true, mask := false })] }) :
    s.msixUnmask fn (some vec) =
      ({ t with msix := AMap.save ({} : Msix) t.msix (msixKey fn vec) { mask := false } } : State).emit (.msix fn (vec % 2048)) := by
  have hunmasked : s.msixUnmask fn (some vec) = t.sendPending fn := by
    rw [State.msixUnmask, if_pos hbar, ht]
    simp [hmsix, AMap.look, AMap.find, AMap.save, AMap.put]
  have hfn : t.fn fn = s.fn fn := State.fn_of_fns_eq (by rw [ht]) fn
  have hopen' : t.hostOpen fn = true := by rw [ht, State.hostOpen_with_msix, hopen]
  have hmsix' : t.msix = [(msixKey fn vec, { pending := true, mask := false })] := by rw [ht]
  have hsent := State.sendPending_one (hfn ▸ hen) (hfn ▸ hmask) hopen' hmsix' rfl rfl
  exact hunmasked.trans hsent

/-! ### Configuration requests -/

theorem State.fn_emit (s : State) (o : Output) (f : Nat) : (s.emit o).fn f = s.fn f := by
  simp [State.fn]

theorem State.configRequest_served {s : State} {fn : Nat} (h : s.cfgAnswer fn = .served) (r : CfgReq) :
    s.configRequest fn r = s.cfgTake fn r := by
  rw [State.configRequest, h]

theorem State.configRequest_retry {s : State} {fn : Nat} (h : s.cfgAnswer fn = .retry) (r : CfgReq) :
    s.configRequest fn r = s.emit (.pcie fn 0 .retry) := by
  rw [State.configRequest, h]

theorem State.configRequest_unsupported {s : State} {fn : Nat} (h : s.cfgAnswer fn = .unsupported) (r : CfgReq) :
    s.configRequest fn r = s.emit (.pcie fn 0 .unsupported) := by
  rw [State.configRequest, h]

/-- Settles O12: each command that is served is its effect on the function or the tag. -/
theorem hostFunctionCommandsComplete : Obligations.HostFunctionCommandsComplete := by
  refine ⟨?_, ?_, ?_, ?_, ?_, ?_, ?_, ?_, ?_, ?_, ?_, ?_, ?_, ?_, ?_, ?_, ?_⟩
  · exact fun s fn hserved hbme => congrArg s.ends (if_pos ⟨hserved, hbme⟩)
  · exact fun s fn hserved hbme => congrArg s.ends (if_pos ⟨hserved, by simp [hbme]⟩)
  · intro s fn hserved hvf hactive
    have hone : s.flrOne fn = s.fnReset fn false := by rw [State.flrOne, hactive]
    have hflr : s.flr fn = s.flrOne fn := if_neg (by simp [hvf])
    exact congrArg s.ends ((if_pos hserved).trans (hflr.trans hone))
  · exact fun s fn hserved hpf => congrArg s.ends ((if_pos hserved).trans (if_pos hpf))
  · exact fun s pf hpf henabled hserved => congrArg s.ends (if_neg (by simp [hpf, henabled, hserved]))
  · exact fun s fn hstate hwaits hdestroy =>
      congrArg (fun t : State => s.ends t.eqTurnDue) (State.fnResetDone_stays hstate hwaits hdestroy)
  · exact fun s fn hstate hasked => congrArg (fun t : State => s.ends t.eqTurnDue) (State.fnWedged_unasked hstate hasked)
  · intro s l n t htag hwaits hdead
    have heffect := State.tagTimeout_awaited htag hwaits
    rw [hdead, if_pos rfl] at heffect
    exact ⟨s.tagExpired t, congrArg s.ends heffect, rfl, State.mem_tagExpired (State.tagAt_mem htag)⟩
  · intro s l n t htag hwaits hwanted
    have heffect := State.tagTimeout_awaited htag hwaits
    rw [hwanted, if_neg Bool.false_ne_true] at heffect
    exact congrArg s.ends heffect
  · intro s l n t data htag hwaits hdead hfn hheld
    have heffect := State.hostCompletion_some (data := data) rfl htag
    rw [hwaits, hdead, if_neg Bool.false_ne_true, if_neg hfn, if_pos rfl,
      State.tagsFreed_of_none (by simp [State.tagLess, hheld])] at heffect
    refine ⟨_, congrArg s.ends heffect, ?_, ?_, memKept_of_mem_eq ?_⟩
    · simp [State.tagLess]
    · simp [State.tagLess]
    · simp [State.tagLess]
  · intro s b l n data hb
    refine ⟨fun hnone => congrArg s.ends (State.hostCompletion_none hb hnone), fun t htag => ⟨?_, ?_, ?_⟩⟩
    · intro hlate
      exact congrArg s.ends ((State.hostCompletion_some hb htag).trans (if_pos hlate))
    · intro hwaits hwedged
      exact congrArg s.ends ((State.hostCompletion_some hb htag).trans ((if_neg (by simp [hwaits])).trans (if_pos hwedged)))
    · intro hwaits hfn hwanted u hu
      have heffect := State.hostCompletion_awaited hb htag hwaits hfn hwanted
      have hless : b.tagLess t = u := hu.symm
      rw [hless] at heffect
      refine ⟨?_, ?_, ?_⟩
      · rintro rfl
        exact congrArg s.ends heffect
      · intro bs r hdata huse
        rw [hdata, huse] at heffect
        rw [hdata]
        exact congrArg s.ends heffect
      · intro bs r off len o v hdata huse hv hop
        rw [hdata, huse, State.useData_data hv hop] at heffect
        rw [hdata]
        refine ⟨fun htags hheld hphase => ?_, fun hmore => ?_⟩
        · rw [if_pos ⟨htags, hheld, hphase⟩] at heffect
          exact congrArg s.ends heffect
        · rw [if_neg hmore] at heffect
          exact congrArg s.ends heffect
  · intro s l n
    refine ⟨_, rfl, rfl, fun t => List.mem_filter.trans (and_congr_right fun _ => ?_)⟩
    simp only [Bool.not_eq_true', ← Bool.not_eq_true, Bool.and_eq_true, beq_iff_eq, bne_iff_ne, and_assoc]
  · intro s fn v hserved
    have heffect : s.configRequest fn (.writeMse v) = (s.setFn fn { s.fn fn with mse := v }).emit (.pcie fn 0 (.success [])) :=
      State.configRequest_served hserved _
    refine ⟨_, congrArg s.ends heffect, ?_, State.emit_out _ _, fun f hf => ?_, memKept_of_mem_eq ?_⟩
    · rw [State.fn_emit, State.fn_setFn]
    · rw [State.fn_emit, State.fn_setFn_ne _ _ _ hf]
    · simp
  · exact fun s fn c hserved => congrArg s.ends (State.configRequest_served hserved _)
  · exact fun s fn r hretry => congrArg s.ends (State.configRequest_retry hretry r)
  · exact fun s fn r hunsupported => congrArg s.ends (State.configRequest_unsupported hunsupported r)
  · intro s fn vec hbar hen hmask hopen hmsix
    refine ⟨_, congrArg s.answer (State.msixUnmask_vector hbar hen hmask hopen hmsix rfl), ?_, ?_, memKept_after s _ ?_⟩
    · simp
    · simp
    · exact memKept_of_mem_eq (by simp)

end Machine
end Sys2Proof
end

section
/-! PROOFS. Completion in place: what the end of an operation leaves as it is before its completion half is posted, the write of a half to a
ring in HBM, and OLDEST (R119, R126 to R128). -/

namespace Sys2Proof
namespace Machine

/-! ### An operation that has ended -/

/-- The state but for operations, Journal records, register fields, and what leaves the device. -/
def State.butEnded (s : State) : State := { s with ops := [], jnl := [], flds := [], msix := [], out := [], bw := [] }

/-- Operations have ended and been counted: of the registers only event counters are written, and of the rest of the state operations,
Journal records and what leaves the device. -/
structure opsEnded (s t : State) : Prop where
  regs : regsKept [.telfCnt] s t
  rest : t.butEnded = s.butEnded

section
variable {s t : State} (h : opsEnded s t)
include h

theorem opsEnded.flag_kept (f : Fld) (o : Nat) (hpos : f.pos 0 < 64) (hreg : f.reg ≠ .telfCnt) : t.flag f o = s.flag f o :=
  h.regs.flag f o 0 hpos (by simpa using hreg)

theorem opsEnded.mem : t.mem = s.mem := (congrArg State.mem h.rest : t.butEnded.mem = s.butEnded.mem)

theorem opsEnded.res : t.res = s.res := (congrArg State.res h.rest : t.butEnded.res = s.butEnded.res)

theorem opsEnded.queue (fn q : Nat) : t.queue fn q = s.queue fn q :=
  (congrArg (State.queue · fn q) h.rest : t.butEnded.queue fn q = s.butEnded.queue fn q)

theorem opsEnded.putsRegisters (fn : Nat) : t.putsRegisters fn = s.putsRegisters fn :=
  (congrArg (State.putsRegisters · fn) h.rest : t.butEnded.putsRegisters fn = s.butEnded.putsRegisters fn)

theorem opsEnded.ringInHbm (fn q : Nat) : t.ringInHbm fn q = s.ringInHbm fn q :=
  h.flag_kept F.qfCfgMedium (qObj fn q) (by decide) (by decide)

/-- The place and the size of a ring are in QF.BASE and QF.CFG. -/
theorem opsEnded.entryAddr (fn q pos : Nat) : t.entryAddr fn q pos = s.entryAddr fn q pos := by
  have hbase := h.regs F.qfBaseBase (qObj fn q) 0 (by decide) (by decide)
  have hsize := h.regs F.qfCfgSize (qObj fn q) 0 (by decide) (by decide)
  simp only [State.entryAddr, State.ringSize, hbase, hsize]

theorem opsEnded.hbmBusy (off len : Nat) : t.hbmBusy off len = s.hbmBusy off len := by
  have hlevel (k : Nat) := h.regs F.hbmStatusLevel k 0 (by decide) (by decide)
  have hhbm : t.hbm = s.hbm := (congrArg State.hbm h.rest : t.butEnded.hbm = s.butEnded.hbm)
  have hprot : t.prot = s.prot := (congrArg State.prot h.rest : t.butEnded.prot = s.butEnded.prot)
  have hten : t.ten = s.ten := (congrArg State.ten h.rest : t.butEnded.ten = s.butEnded.ten)
  simp only [State.hbmBusy, State.hbmStalled, hlevel, hhbm, hprot, hten]

/-- Whether HBM holds the write of a completion half to a ring that lies in it. -/
theorem opsEnded.cplBusy {r : OpRef} (hring : s.ringInHbm r.fn r.q = true) : t.cplBusy r = s.cplBusy r := by
  simp only [State.cplBusy, h.ringInHbm, hring, if_true, h.entryAddr, h.hbmBusy]

theorem opsEnded.stacksOn (off len : Nat) (write : Bool) : t.stacksOn off len write = s.stacksOn off len write := by
  have hmask (k : Nat) := h.regs F.hbmPcRetiredMask k 0 (by decide) (by decide)
  have hdom : t.domOn = s.domOn := (congrArg State.domOn h.rest : t.butEnded.domOn = s.butEnded.domOn)
  have hstack : t.stack = s.stack := (congrArg State.stack h.rest : t.butEnded.stack = s.butEnded.stack)
  have hres : t.resident = s.resident := (congrArg State.resident h.rest : t.butEnded.resident = s.butEnded.resident)
  simp only [State.stacksOn, State.lineOk, hmask, hdom, hstack, hres]

theorem opsEnded.spaceCheck (sp off len : Nat) (write : Bool) : t.spaceCheck sp off len write = s.spaceCheck sp off len write := by
  have hextent : t.extent = s.extent := (congrArg State.extent h.rest : t.butEnded.extent = s.butEnded.extent)
  have hcipher : t.cipherOk = s.cipherOk := (congrArg State.cipherOk h.rest : t.butEnded.cipherOk = s.butEnded.cipherOk)
  have hresident : t.allResident = s.allResident :=
    (congrArg State.allResident h.rest : t.butEnded.allResident = s.butEnded.allResident)
  have hregion : t.touchesRegion = s.touchesRegion :=
    (congrArg State.touchesRegion h.rest : t.butEnded.touchesRegion = s.butEnded.touchesRegion)
  simp only [State.spaceCheck, h.stacksOn, hextent, hcipher, hresident, hregion]

end

/-- The state in which an operation has ended well, with its completion half still to be posted. -/
def State.opGone (s : State) (o : Op) : State :=
  (({ s with ops := s.ops.filter fun x => x.ref != o.ref } : State).freeJrec o.jrec).count o.ref.fn 0x10 o.ref.q

theorem State.butEnded_count (s : State) (fn ev idx n : Nat) : (s.count fn ev idx n).butEnded = s.butEnded := by
  have h := congrArg State.butEnded (s.count_rest fn ev idx n)
  exact h

theorem State.butEnded_freeJrec (s : State) (i : Option Nat) : (s.freeJrec i).butEnded = s.butEnded := by
  have h := congrArg State.butEnded (s.freeJrec_rest i)
  exact h

theorem State.butEnded_with_ops (s : State) (os : List Op) : ({ s with ops := os } : State).butEnded = s.butEnded := rfl

theorem opsEnded_opGone (s : State) (o : Op) : opsEnded s (s.opGone o) where
  regs := by
    have hfree : regsKept [.telfCnt] s (({ s with ops := s.ops.filter fun x => x.ref != o.ref } : State).freeJrec o.jrec) :=
      regsKept_of_flds_eq _ (by simp)
    exact hfree.trans (regsKept_count (by decide) _ o.ref.fn o.ref.q 1)
  rest := by rw [State.opGone, State.butEnded_count, State.butEnded_freeJrec, State.butEnded_with_ops]

theorem State.opGone_ops (s : State) (o : Op) : (s.opGone o).ops = s.ops.filter fun x => x.ref != o.ref := by
  simp [State.opGone]

/-- The completion half of a NOP: OK, with COUNT, RESULT and AUX 0. -/
def Op.nopCpl (o : Op) (time : Nat) : HeldCpl := { ref := o.ref, bytes := cplHalf o .ok 0 0 0 time false, irq := o.d.irq }

/-- A NOP writes no buffer, and is no COLL. -/
theorem State.complete_nop {o : Op} (hop : o.d.opcode = 0x00) (s : State) :
    s.complete o .ok = ((s.opGone o).postCpl (o.nopCpl s.stamp)).retirePos o.ref := by
  have hserved : s.servedAs o 0 = .ok := by simp [State.servedAs, Op.wrote, hop]
  have hcoll : o.d.opcode ≠ 0x20 := by rw [hop]; decide
  simp only [State.complete, hserved, if_true, if_neg hcoll]
  rfl

/-! ### The completion half -/

theorem Op.nopCpl_length (o : Op) (time : Nat) : (o.nopCpl time).bytes.length = 32 := by
  simp [Op.nopCpl, cplHalf]

/-- HBM takes an access for which it has the key of every page. -/
theorem State.cipherOk_of_spaceCheck {s : State} {off len : Nat} {write : Bool} (hlen : len ≠ 0)
    (h : s.spaceCheck 0 off len write = none) : s.cipherOk off len = true := by
  rw [State.spaceCheck, show s.extent 0 = some s.hbmBytes from rfl] at h
  dsimp only at h
  split_ifs at h with _ _ hcipher
  simpa [hlen] using hcipher

/-- A completion half that nothing holds back is written to a ring in HBM at once; its vector is at most signalled. -/
theorem State.postCpl_ringInHbm {s : State} {c : HeldCpl} (hputs : s.putsRegisters c.ref.fn = false)
    (hring : s.ringInHbm c.ref.fn c.ref.q = true) (hstate : (s.queue c.ref.fn c.ref.q).state ≠ .held) (hbusy : s.cplBusy c.ref = false)
    {a : Nat} (ha : s.entryAddr c.ref.fn c.ref.q c.ref.pos % 2 ^ 44 + 32 = a) (hcheck : s.spaceCheck 0 a c.bytes.length true = none) :
    (s.postCpl c).mem = (s.hbmWrite a c.bytes).mem ∧ (s.postCpl c).ops = s.ops ∧ (s.postCpl c).queues = s.queues := by
  have hheld : s.cplHeld c.ref.fn c.ref.q = false := by simp [State.cplHeld, hring, hstate]
  have hland : s.postCpl c = s.writeCpl c.ref c.bytes c.irq := by
    simp [State.postCpl, hputs, State.landCpl, hheld, hbusy, hring]
  simp only [hland, State.writeCpl, hring, if_true, ha, hcheck]
  split <;> simp

theorem State.retirePos_oldest {s : State} {r : OpRef} (hold : (s.queue r.fn r.q).oldest = r.pos)
    (hnone : (s.queue r.fn r.q).finished = []) : ((s.retirePos r).queue r.fn r.q).oldest = (r.pos + 1) % 2 ^ 32 := by
  simp [State.retirePos, hold, hnone, runFrom]

theorem State.retirePos_kept (s : State) (r : OpRef) : (s.retirePos r).mem = s.mem ∧ (s.retirePos r).ops = s.ops := by
  simp [State.retirePos]

theorem State.queue_of_queues_eq {s t : State} (h : t.queues = s.queues) (fn q : Nat) : t.queue fn q = s.queue fn q := by
  rw [State.queue, State.queue, h]

/-! ### The operation of a reference -/

theorem State.op_ref {s : State} {r : OpRef} {o : Op} (h : s.op r = some o) : o.ref = r := by
  simpa using List.find?_some h

theorem State.op_of_filtered {t : State} {os : List Op} {r : OpRef} (h : t.ops = os.filter fun x => x.ref != r) : t.op r = none := by
  simp [State.op, h]

/-- A descriptor that may start is the operation of its reference. -/
theorem State.starting_ref {s : State} {r : OpRef} {opcode : Nat} {o : Op} (h : s.starting r opcode = some o) : o.ref = r := by
  unfold State.starting at h
  split at h
  · next hop =>
    split at h
    · exact Option.some.inj h ▸ State.op_ref hop
    · exact absurd h nofun
  · exact absurd h nofun

/-- Settles O15: the NOP has ended (`State.opGone`), its half is written over its own entry, and its position is retired. -/
theorem nopCompletesInPlace : Obligations.NopCompletesInPlace := by
  intro s r o hstart hring hstate hputs hbusy hcheck hres hlog
  obtain rfl := State.starting_ref hstart
  generalize ha : s.entryAddr o.ref.fn o.ref.q o.ref.pos % 2 ^ 44 + 32 = a at hcheck ⊢
  have hended := opsEnded_opGone s o
  have hlen := o.nopCpl_length s.stamp
  have htakes : (s.opGone o).spaceCheck 0 a (o.nopCpl s.stamp).bytes.length true = none := by rw [hended.spaceCheck, hlen, hcheck]
  have hwritten := State.hbmWrite_mem (hended.res.trans hres) (State.cipherOk_of_spaceCheck (by rw [hlen]; decide) htakes)
    fun fn => (hended.flag_kept F.fnDlCtrlHbmEn fn (by decide) (by decide)).trans (hlog fn)
  obtain ⟨hmem, hops, hqueues⟩ := State.postCpl_ringInHbm (c := o.nopCpl s.stamp) ((hended.putsRegisters _).trans hputs)
    ((hended.ringInHbm _ _).trans hring) (by rwa [hended.queue]) ((hended.cplBusy hring).trans hbusy)
    (by rw [hended.entryAddr]; exact ha) htakes
  have hqueue (fn q : Nat) : ((s.opGone o).postCpl (o.nopCpl s.stamp)).queue fn q = s.queue fn q :=
    (State.queue_of_queues_eq hqueues fn q).trans (hended.queue fn q)
  have hcomplete := State.complete_nop (State.starting_some hstart).1 s
  obtain ⟨hmemKept, hopsKept⟩ := ((s.opGone o).postCpl (o.nopCpl s.stamp)).retirePos_kept o.ref
  have hbytes : (s.complete o .ok).mem = writeBytes s.mem a (o.nopCpl s.stamp).bytes := by
    rw [hcomplete, hmemKept, hmem, hwritten, hended.mem]
  refine ⟨s.complete o .ok, State.ends_startOf hstart rfl, fun i hi => ?_, fun b hb => ?_, ?_, fun hold hnone => ?_⟩
  · rw [hbytes, readByte_writeBytes, if_pos (by omega), Nat.add_sub_cancel_left]
    rfl
  · rw [hbytes, readByte_writeBytes_out _ _ _ _ (by omega)]
  · exact State.op_of_filtered (os := s.ops) (by rw [hcomplete, hopsKept, hops, s.opGone_ops])
  · rw [hcomplete]
    exact State.retirePos_oldest (by rw [hqueue, hold]) (by rw [hqueue, hnone])

end Machine
end Sys2Proof
end

section
/-! PROOFS. Work queue commands: doorbells, ring reads, the enabling of a queue and the privileged descriptor cache (R121, R130 to R132,
R134 to R136; log entry 43). -/

namespace Sys2Proof
namespace Machine

/-! ### Fields set after an update -/

theorem regsKept.setFlag {rs : List Reg} {s t : State} (h : regsKept rs s t) {f : Fld} (hreg : f.reg ∈ rs) (v : Bool) (o : Nat)
    (hpos : f.pos 0 < 64) : regsKept rs s (t.setFlag f v o) :=
  h.setFld hreg (b2n v) o 0 hpos

theorem regsKept.after {rs : List Reg} {s t : State} (h : regsKept rs s t) : regsKept rs s (s.after t) := h

/-! ### Doorbells -/

theorem State.find_setQueue_ne (s : State) (fn q : Nat) (x : Queue) {k : Nat} (h : k ≠ qObj fn q) :
    AMap.find (s.setQueue fn q x).queues k = AMap.find s.queues k := AMap.find_save_ne ({} : Queue) s.queues x h

theorem State.doorbell_eq {s : State} {fn q : Nat} (hopen : s.barOpen fn = true) (hhas : s.hasQueue fn q = true)
    (hon : (s.queue fn q).state ≠ .off) (t : Nat) :
    s.doorbell fn q t =
      if t % 2 ^ 32 = (s.queue fn q).tail ∨ subMod 32 (t % 2 ^ 32) (s.queue fn q).oldest ≤ s.ringSize fn q then
        s.bellTaken fn q (t % 2 ^ 32)
      else s.setFlag F.qfStatusDbErr true (qObj fn q) := by
  rw [ite_or, State.doorbell, if_neg (by simp [hopen, hhas, hon])]

/-- A doorbell that is taken moves TAIL and restarts the fetch, and the positions that are completed stay. -/
theorem State.bellTaken_queue (s : State) (fn q tail : Nat) :
    ((s.bellTaken fn q tail).queue fn q).tail = tail ∧ ((s.bellTaken fn q tail).queue fn q).tries = 0 ∧
      ((s.bellTaken fn q tail).queue fn q).prefetchStop = false ∧
      ((s.bellTaken fn q tail).queue fn q).oldest = (s.queue fn q).oldest := by
  rcases eq_or_ne tail (s.queue fn q).tail with rfl | hmoves
  · simp [State.bellTaken]
  · simp [State.bellTaken, hmoves, Queue.pass]

theorem State.bellTaken_stalled (s : State) (fn q tail : Nat) :
    (s.bellTaken fn q tail).flag F.qfStatusStalled (qObj fn q) = false :=
  s.flag_setFlag F.qfStatusStalled false (qObj fn q) 0 rfl

theorem State.regsKept_bellTaken (s : State) (fn q tail : Nat) : regsKept [.qfStatus] s (s.bellTaken fn q tail) :=
  (regsKept_refl [.qfStatus] s).setFlag (f := F.qfStatusStalled) (by decide) false (qObj fn q) (by decide)

/-! ### Ring reads -/

theorem State.descriptorFetch_eq {s : State} {fn q : Nat} (hfetch : s.fetching fn q = true) (htries : (s.queue fn q).tries = 0)
    (data : Option (List Byte)) :
    s.descriptorFetch fn q data =
      if s.privileged fn q then s.fetchPriv fn q data
      else s.fetchRing fn q (!(s.queue fn q).prefetchStop) (!(s.queue fn q).belowTail) data := by
  simp [State.descriptorFetch, hfetch, htries]

theorem State.fetchRetry_eq {s t : State} {fn q : Nat} {data : Option (List Byte)} (hfetch : s.fetching fn q = true)
    (htries : (s.queue fn q).tries ≠ 0) (ht : t = s.fetchRing fn q false false data) :
    s.fetchRetry fn q data =
      if 8 < (t.queue fn q).tries then (t.setQueue fn q { t.queue fn q with tries := 0 }).stall fn q else t := by
  subst ht
  simp [State.fetchRetry, hfetch, htries]

theorem State.prefetchPoll_stopped {s : State} {fn q : Nat} (hfetch : s.fetching fn q = true)
    (hstop : (s.queue fn q).prefetchStop = true) (htail : (s.queue fn q).fetch = (s.queue fn q).tail) (hdepth : s.prefetch fn q ≠ 0)
    (hpoll : s.fld F.qfCfgPollUs (qObj fn q) ≠ 0) (data : Option (List Byte)) :
    s.prefetchPoll fn q data = s.fetchRing fn q true true data := by
  simp [State.prefetchPoll, hfetch, hstop, htail, hdepth, hpoll]

theorem State.stall_stalled (s : State) (fn q : Nat) : (s.stall fn q).flag F.qfStatusStalled (qObj fn q) = true := by
  rw [State.stall, State.flag_signal]
  exact s.flag_setFlag F.qfStatusStalled true (qObj fn q) 0 rfl

/-! ### The enabling of a queue -/

theorem State.qfFields_kept (s : State) (fn q v : Nat) (all : Bool) :
    (s.qfFields fn q v all).queues = s.queues ∧ (s.qfFields fn q v all).mem = s.mem := by
  cases all <;> simp [State.qfFields]

theorem State.regsKept_qfFields (s : State) (fn q v : Nat) (all : Bool) : regsKept [.qfCfg] s (s.qfFields fn q v all) := by
  have hlive := (regsKept_setFld (rs := [.qfCfg]) (f := F.qfCfgVector) s (by decide) (bits v 42 32) (qObj fn q) 0 (by decide)).setFld
    (f := F.qfCfgPollUs) (by decide) (bits v 31 16) (qObj fn q) 0 (by decide)
  cases all with
  | false => exact hlive
  | true =>
    exact (((hlive.setFld (f := F.qfCfgPrefetch) (by decide) _ _ 0 (by decide)).setFld (f := F.qfCfgSize) (by decide) _ _ 0
      (by decide)).setFld (f := F.qfCfgPriv) (by decide) _ _ 0 (by decide)).setFld (f := F.qfCfgMedium) (by decide) _ _ 0 (by decide)

/-- The state in which the selected queue, its configuration taken from a value, has been enabled. -/
def State.queueEnabled (s : State) (fn q v : Nat) : State :=
  ((s.qfFields fn q v true).setFlag F.qfCfgEnable true (qObj fn q)).setQueue fn q { state := .active }

theorem State.queueEnable_eq {s : State} {fn v q : Nat} (hsel : q = s.fld F.qfSelQueue fn) (hopen : s.barOpen fn = true)
    (hbit : bit v 0 = true) (hhas : s.hasQueue fn q = true) (hoff : (s.queue fn q).state = .off) :
    s.queueEnable fn v = ((s.qfFields fn q v true).enableCheck fn q).elim (s.queueEnabled fn q v)
      fun st => (s.qfFields fn q v true).setFld F.qfStatusCode st.code (qObj fn q) := by
  subst hsel
  simp only [State.queueEnable, State.qfCfgWrite, hopen, hbit, hhas, hoff, and_self, if_true, Bool.not_true, Bool.false_eq_true, if_false,
    ne_eq, not_true_eq_false]
  cases (s.qfFields fn (s.fld F.qfSelQueue fn) v true).enableCheck fn (s.fld F.qfSelQueue fn) <;> rfl

theorem State.queueEnabled_enable (s : State) (fn q v : Nat) : (s.queueEnabled fn q v).flag F.qfCfgEnable (qObj fn q) = true :=
  (s.qfFields fn q v true).flag_setFlag F.qfCfgEnable true (qObj fn q) 0 rfl

theorem State.queueEnabled_find (s : State) (fn q v : Nat) {k : Nat} (h : k ≠ qObj fn q) :
    AMap.find (s.queueEnabled fn q v).queues k = AMap.find s.queues k := by
  rw [State.queueEnabled, State.find_setQueue_ne _ fn q _ h]
  exact congrArg (AMap.find · k) (s.qfFields_kept fn q v true).1

theorem State.regsKept_queueEnabled (s : State) (fn q v : Nat) : regsKept [.qfCfg] s (s.queueEnabled fn q v) :=
  (s.regsKept_qfFields fn q v true).setFlag (f := F.qfCfgEnable) (by decide) true (qObj fn q) (by decide)

/-! ### The privileged descriptor cache -/

/-- The state in which an invalidation has dropped the copies that it covers, and runs. -/
def State.qInvalBegun (s : State) (w : QInval) : State :=
  ({ s with qinval := some w, dcache := s.dcache.filter fun e => !w.hits e.1 } : State).setFlag F.qInvalStatusBusy true

theorem State.qInvalBy_idle {s : State} {org : Origin} (hopen : s.dcsOpen org 0x800000 = true)
    (hidle : s.flag F.qInvalStatusBusy = false) (w : QInval) : s.qInvalBy org w = s.qInvalBegun w := by
  rw [State.qInvalBy, if_pos hopen, State.qInval, hidle]
  rfl

theorem State.regsKept_qInvalBegun (s : State) (w : QInval) : regsKept [.qInvalStatus] s (s.qInvalBegun w) :=
  regsKept.setFlag (regsKept_of_flds_eq _ rfl) (by decide) true 0 (by decide)

theorem State.regsKept_qInvalDone (s : State) : regsKept [.qInvalStatus] s s.qInvalDone :=
  regsKept.setFlag (regsKept_of_flds_eq _ rfl) (by decide) false 0 (by decide)

theorem State.answer_qInvalBy {s : State} {org : Origin} (hopen : s.dcsOpen org 0x800000 = true)
    (hidle : s.flag F.qInvalStatusBusy = false) (w : QInval) :
    ∃ t, s.answer (s.qInvalBy org w) = .next t ∧ t.flag F.qInvalStatusBusy = true ∧
      t.dcache = s.dcache.filter (fun e => !w.hits e.1) ∧ regsKept [.qInvalStatus] s t ∧ memKept s t :=
  ⟨_, congrArg s.answer (State.qInvalBy_idle hopen hidle w), State.flag_setFlag _ F.qInvalStatusBusy true 0 0 rfl, rfl,
    (s.regsKept_qInvalBegun w).after, memKept_after s _ fun _ => rfl⟩

/-- Settles O13: a doorbell is taken or sets DB_ERR (log entry 43 for one behind TAIL), a command that reads a ring is that read, a write of
ENABLE goes by the check of the configuration, and an invalidation begins (`State.qInvalBegun`) and ends. -/
theorem workQueueCommandsComplete : Obligations.WorkQueueCommandsComplete := by
  refine ⟨?_, ?_, ?_, ?_, ?_, ?_, ?_, ?_, ?_, ?_, ?_, ?_, ?_⟩
  · intro s fn q t hopen hhas hon htake
    have heffect := (State.doorbell_eq hopen hhas hon t).trans (if_pos htake)
    obtain ⟨htail, htries, hstop, holdest⟩ := s.bellTaken_queue fn q (t % 2 ^ 32)
    exact ⟨_, congrArg s.ends heffect, htail, htries, hstop, holdest, s.bellTaken_stalled fn q _,
      fun k hk => State.find_setQueue_ne _ fn q _ hk, s.regsKept_bellTaken fn q _, fun _ => rfl, rfl⟩
  · intro s fn q t hopen hhas hon htail hfar
    have heffect := (State.doorbell_eq hopen hhas hon t).trans (if_neg (by omega))
    exact ⟨_, congrArg s.ends heffect, s.flag_setFlag F.qfStatusDbErr true _ 0 rfl, rfl,
      (regsKept_refl _ s).setFlag (f := F.qfStatusDbErr) (by decide) _ (qObj fn q) (by decide), fun _ => rfl⟩
  · intro s fn q data hfetch htries hpriv
    exact congrArg s.ends ((State.descriptorFetch_eq hfetch htries data).trans (if_neg (by simp [hpriv])))
  · intro s fn q data hfetch htries hpriv
    exact congrArg s.ends ((State.descriptorFetch_eq hfetch htries data).trans (if_pos hpriv))
  · intro s fn q data hfetch htries hfew
    exact congrArg s.ends ((State.fetchRetry_eq hfetch htries rfl).trans (if_neg (by omega)))
  · intro s t fn q data hfetch htries ht hmany
    exact ⟨congrArg s.ends ((State.fetchRetry_eq hfetch htries ht).trans (if_pos hmany)), State.stall_stalled _ fn q⟩
  · intro s fn q data hfetch hstop htail hdepth hpoll
    exact congrArg s.ends (State.prefetchPoll_stopped hfetch hstop htail hdepth hpoll data)
  · intro s fn v q hsel hopen hbit hhas hoff hcheck
    have heffect := State.queueEnable_eq hsel hopen hbit hhas hoff
    rw [hcheck] at heffect
    exact ⟨_, congrArg s.ends heffect, State.queue_setQueue _ fn q _, s.queueEnabled_enable fn q v,
      fun k hk => s.queueEnabled_find fn q v hk, s.regsKept_queueEnabled fn q v, memKept_of_mem_eq (s.qfFields_kept fn q v true).2⟩
  · intro s fn v q st hsel hopen hbit hhas hoff hcheck
    have heffect := State.queueEnable_eq hsel hopen hbit hhas hoff
    rw [hcheck] at heffect
    obtain ⟨hqueues, hmem⟩ := s.qfFields_kept fn q v true
    exact ⟨_, congrArg s.ends heffect, hqueues, fld_setFld_self _ _ _ _ 0,
      ((s.regsKept_qfFields fn q v true).mono (by decide)).setFld (f := F.qfStatusCode) (by decide) _ (qObj fn q) 0 (by decide),
      memKept_of_mem_eq hmem⟩
  · exact fun s org q slot hopen hidle => State.answer_qInvalBy hopen hidle (.slot q slot)
  · exact fun s org q hopen hidle => State.answer_qInvalBy hopen hidle (.queue q)
  · intro s org hopen hidle
    obtain ⟨t, hanswer, hbusy, hcache, hkept⟩ := State.answer_qInvalBy hopen hidle .all
    exact ⟨t, hanswer, hbusy, hcache.trans (List.filter_false _), hkept⟩
  · exact fun s => ⟨_, rfl, State.flag_setFlag _ F.qInvalStatusBusy false 0 0 rfl, rfl, s.regsKept_qInvalDone.after,
      memKept_after s _ fun _ => rfl, rfl⟩

end Machine
end Sys2Proof
end

section
/-! PROOFS. Turnstile operations on one turnstile: values, waiters and the lock (R145, R167 to R170, Tables 6.9, 6.9a, 6.10). -/

namespace Sys2Proof
namespace Machine

/-! ### The operations on the value -/

/-- The turnstile at another value, before the waiters that it meets have left. -/
def Turnstile.atValue (t : Turnstile) (v : Nat) : Turnstile := { t with value := v % 2 ^ 64 }

/-- The turnstile with one more waiter, behind those that wait. -/
def Turnstile.waitedBy (t : Turnstile) (w : TsWaiter) : Turnstile := { t with waiters := t.waiters ++ [w] }

theorem Turnstile.wake_value (t : Turnstile) : t.wake.1.value = t.value := rfl

section
variable (t : Turnstile) (a b : Nat) (u : User) (src : TsSource) (key : Option (Nat × Nat)) (m : Bool)

theorem Turnstile.apply_cas : t.apply 0x4 a b u src key m =
    if t.value = a then t.apply 0x2 b b u src key m else t.apply 0x1 a b u src key m := rfl

theorem Turnstile.apply_wait : t.apply 0x5 a b u src key m =
    if a ≤ t.value then t.apply 0x1 a b u src key m
    else (t.waitedBy { src := src, user := u, want := .value a none, key := key }, [], true) := rfl

theorem Turnstile.apply_addWait : t.apply 0x6 a b u src key m =
    if b ≤ (t.value + a) % 2 ^ 64 then t.apply 0x3 a b u src key m
    else ((t.atValue (t.value + a)).wake.1.waitedBy { src := src, user := u, want := .value b (some t.value), key := key },
      (t.atValue (t.value + a)).wake.2, true) := rfl

end

/-- Settles O19: TS_CAS is TS_SET where the value is the first operand, and TS_ADD_WAIT is TS_ADD
where the new value reaches the threshold. -/
theorem turnstileValueOperations : Obligations.TurnstileValueOperations := by
  intro t a b u src key m
  refine ⟨rfl, rfl, rfl, ?_, ?_, ?_, fun h => if_pos h, fun h => if_neg (by omega), ?_, ?_⟩
  · intro h
    rw [Turnstile.apply_cas, if_pos h]
    rfl
  · intro h
    rw [Turnstile.apply_cas, if_neg h]
    rfl
  · intro code hcode
    simp only [List.mem_cons, List.not_mem_nil, or_false] at hcode
    obtain rfl | rfl | rfl := hcode
    · exact ⟨rfl, rfl⟩
    · exact ⟨rfl, rfl⟩
    · rw [Turnstile.apply_cas]
      split <;> exact ⟨rfl, rfl⟩
  · rw [Turnstile.apply_addWait]
    split <;> rfl
  · rw [Turnstile.apply_addWait]
    split
    · next hreached => exact iff_of_false Bool.false_ne_true (by omega)
    · next hbelow => exact iff_of_true rfl (by omega)

/-! ### The owner field -/

/-- WAITERS counts in the low 16 bits, so an owner field names state and holder with it as without. -/
theorem lstate_ownerField (t : Turnstile) : lstate t.ownerField = lstate t.owner := by
  simp only [lstate, bits, Turnstile.ownerField]
  omega

theorem lstate_mkOwner (u : User) {st : Nat} (hst : st < 4) : lstate (mkOwner u st 0) = st := by
  simp only [lstate, bits, mkOwner]
  omega

theorem Turnstile.lstate_give (t : Turnstile) (u : User) : lstate (t.give u).owner = 1 := lstate_mkOwner u (by decide)

/-! ### The first waiter that meets a test -/

theorem takeFirst_eq_none {α : Type} {p : α → Bool} {l : List α} (h : takeFirst p l = none) : ∀ x ∈ l, p x = false := by
  induction l with
  | nil => exact fun _ hx => absurd hx List.not_mem_nil
  | cons y l ih =>
    simp only [takeFirst] at h
    split at h
    · exact absurd h (by simp)
    · next hy => simpa [hy] using ih (Option.map_eq_none_iff.1 h)

theorem takeFirst_sublist {α : Type} {p : α → Bool} {l rest : List α} {x : α}
    (h : takeFirst p l = some (x, rest)) : rest.Sublist l := by
  induction l generalizing rest with
  | nil => exact absurd h (by simp [takeFirst])
  | cons y l ih =>
    simp only [takeFirst] at h
    split at h
    · cases h
      exact List.sublist_cons_self _ _
    · obtain ⟨⟨z, ws⟩, hrec, heq⟩ := Option.map_eq_some_iff.1 h
      cases heq
      exact (ih hrec).cons_cons _

theorem takeFirst_append {α : Type} {p : α → Bool} {pre post : List α} {x : α} (hpre : ∀ y ∈ pre, p y = false) (hx : p x = true) :
    takeFirst p (pre ++ x :: post) = some (x, pre ++ post) := by
  induction pre with
  | nil => simp [takeFirst, hx]
  | cons y pre ih =>
    obtain ⟨hy, hpre⟩ := List.forall_mem_cons.1 hpre
    simp [takeFirst, hy, ih hpre]

/-! ### No waiter is left whose condition holds -/

/-- Fewer waiters at the same value, of a lock that is held, wait as soundly. -/
theorem Turnstile.sound.of_held {t t' : Turnstile} (h : t.sound) (hvalue : t'.value = t.value) (hsub : t'.waiters ⊆ t.waiters)
    (hheld : lstate t'.owner = 1) : t'.sound :=
  ⟨fun w hw th res hwant => hvalue ▸ h.1 w (hsub hw) th res hwant, fun _ => hheld⟩

theorem Turnstile.sound.give {t : Turnstile} (h : t.sound) (u : User) : (t.give u).sound :=
  h.of_held rfl (List.Subset.refl _) (t.lstate_give u)

/-- The waiters that a new value meets leave, so it keeps the turnstile sound. -/
theorem Turnstile.sound.wake_atValue {t : Turnstile} (h : t.sound) (v : Nat) : (t.atValue v).wake.1.sound := by
  refine ⟨fun w hw th res hwant => ?_, fun ⟨w, hw, hlock⟩ => h.2 ⟨w, List.mem_of_mem_filter hw, hlock⟩⟩
  have hunmet : (!decide (th ≤ (t.atValue v).value)) = true := by simpa only [hwant] using List.of_mem_filter hw
  rw [Turnstile.wake_value]
  exact not_le.1 (by simpa using hunmet)

theorem Turnstile.sound.waitedBy_value {t : Turnstile} (h : t.sound) {w : TsWaiter} {th : Nat} {res : Option Nat}
    (hwant : w.want = .value th res) (hunmet : t.value < th) : (t.waitedBy w).sound := by
  obtain ⟨hvalues, hlocks⟩ := h
  refine ⟨fun x hx th' res' hx' => ?_, fun ⟨x, hx, hlock⟩ => hlocks ⟨x, ?_, hlock⟩⟩
  · rcases List.mem_append.1 hx with hx | hx
    · exact hvalues x hx th' res' hx'
    · rw [List.mem_singleton.1 hx, hwant] at hx'
      cases hx'
      exact hunmet
  · refine (List.mem_append.1 hx).resolve_right fun hx => ?_
    rw [List.mem_singleton.1 hx, hwant] at hlock
    exact TsWant.noConfusion hlock

theorem Turnstile.sound.waitedBy_lock {t : Turnstile} (h : t.sound) {w : TsWaiter} (hwant : w.want = .lock) (hheld : lstate t.owner = 1) :
    (t.waitedBy w).sound := by
  refine ⟨fun x hx th res hx' => ?_, fun _ => hheld⟩
  refine h.1 x ((List.mem_append.1 hx).resolve_right fun hx => ?_) th res hx'
  rw [List.mem_singleton.1 hx, hwant] at hx'
  exact TsWant.noConfusion hx'

/-- A lock that is given up is held by its first waiter again, or had none. -/
theorem Turnstile.sound.pass {t : Turnstile} (h : t.sound) (abandon : Bool) : (t.pass abandon).1.sound := by
  unfold Turnstile.pass
  split
  · next w ws hfirst => exact h.of_held rfl (takeFirst_sublist hfirst).subset (lstate_mkOwner w.user (by decide))
  · next hnone =>
    have hnolock : ¬ ∃ w, w ∈ t.waiters ∧ w.want = .lock := fun ⟨w, hw, hlock⟩ => by
      simpa [hlock] using takeFirst_eq_none hnone w hw
    split <;> exact ⟨h.1, fun hlock => absurd hlock hnolock⟩

/-- Settles O20: by the operation; a value that changes wakes those it meets, and a lock that is given up passes on. -/
theorem turnstileOperationsKeepWaitersUnmet : Obligations.TurnstileOperationsKeepWaitersUnmet := by
  intro t code a b u src key m h
  unfold Turnstile.apply
  split
  case h_1 => exact h
  case h_2 => exact h.wake_atValue a
  case h_3 => exact h.wake_atValue (t.value + a)
  case h_4 =>
    show (t.apply 0x4 a b u src key m).1.sound
    rw [Turnstile.apply_cas]
    split
    · exact h.wake_atValue b
    · exact h
  case h_5 =>
    show (t.apply 0x5 a b u src key m).1.sound
    rw [Turnstile.apply_wait]
    split
    · exact h
    · next hunmet => exact h.waitedBy_value rfl (by omega)
  case h_6 =>
    show (t.apply 0x6 a b u src key m).1.sound
    rw [Turnstile.apply_addWait]
    split
    · exact h.wake_atValue (t.value + a)
    · next hunmet =>
      exact (h.wake_atValue (t.value + a)).waitedBy_value rfl
        (by simpa [Turnstile.wake_value, Turnstile.atValue] using hunmet)
  case h_7 =>
    dsimp only
    split
    · exact h.give u
    · next hheld =>
      split
      · exact h
      · exact h.waitedBy_lock rfl (lstate_ownerField t ▸ hheld)
    · exact h.give u
  case h_8 =>
    dsimp only
    split
    · exact h.give u
    · exact h
    · exact h.give u
  case h_9 =>
    dsimp only
    split
    · exact h.pass false
    · exact h
  case h_10 =>
    dsimp only
    split
    · split
      · next w ws hfirst => exact (h.give _).of_held rfl (takeFirst_sublist hfirst).subset (t.lstate_give _)
      · exact h.give _
    · exact h
  case h_11 =>
    dsimp only
    split
    · exact h
    · split
      · exact h.pass true
      · exact h
  case h_12 => exact h

/-! ### The oldest waiter for the lock -/

/-- A user of another node or of this one; a RoCEv2 peer is none (R209), and an owner field has no place for that mark. -/
theorem holder_mkOwner {u : User} (hnode : u.node < 65536) (hfn : u.fn < 256) (hroce : u.roce = false) (st : Nat) (hst : st < 4) :
    holder (mkOwner u st 0) = u := by
  have hnodeField : bits (mkOwner u st 0) 63 48 = u.node := by
    simp only [bits, mkOwner]
    omega
  have hfnField : bits (mkOwner u st 0) 47 40 = u.fn := by
    simp only [bits, mkOwner]
    omega
  rw [holder, hnodeField, hfnField, ← hroce]

theorem Turnstile.pass_of_waiter {t : Turnstile} {pre post : List TsWaiter} {w : TsWaiter} (hwaiters : t.waiters = pre ++ w :: post)
    (hpre : ∀ x, x ∈ pre → x.want ≠ .lock) (hlock : w.want = .lock) (abandon : Bool) :
    t.pass abandon = ({ t with waiters := pre ++ post, owner := mkOwner w.user 1 0 },
      [{ src := w.src, result := t.ownerField, abandoned := abandon }]) := by
  have hfirst : takeFirst (fun w : TsWaiter => w.want == .lock) t.waiters = some (w, pre ++ post) :=
    hwaiters ▸ takeFirst_append (fun x hx => by simpa using hpre x hx) (by simpa using hlock)
  rw [Turnstile.pass, hfirst]
  rfl

/-- What holds of a lock that passes on: the first waiter for it has it, and is its holder where it is a function of a node. -/
theorem Turnstile.apply_givesUp_of_waiter {t : Turnstile} {pre post : List TsWaiter} {w : TsWaiter}
    (hwaiters : t.waiters = pre ++ w :: post)
    (hpre : ∀ x, x ∈ pre → x.want ≠ .lock) (hlock : w.want = .lock) (hheld : lstate t.ownerField = 1) (a b : Nat) (u : User)
    (src : TsSource) (key : Option (Nat × Nat)) (m : Bool) :
    (holder t.ownerField = u → t.apply 0xA a b u src key m = ({ t with waiters := pre ++ post, owner := mkOwner w.user 1 0 },
      [{ src := src, result := t.ownerField }, { src := w.src, result := t.ownerField }], false)) ∧
    t.apply 0xC a b u src key true = ({ t with waiters := pre ++ post, owner := mkOwner w.user 1 0 },
      [{ src := src, result := t.ownerField }, { src := w.src, result := t.ownerField, abandoned := true }], false) := by
  have hpass := Turnstile.pass_of_waiter hwaiters hpre hlock
  constructor
  · intro hholder
    simp [Turnstile.apply, hheld, hholder, hpass]
  · simp [Turnstile.apply, hheld, hpass]

/-- A RoCEv2 peer with node and function number 0 that waits for a lock. -/
def roceWaiter : TsWaiter := { src := .engine, user := { node := 0, fn := 0, roce := true }, want := .lock, key := none }

/-- A turnstile held by function 0 of node 0 for which that peer waits. -/
def roceAwaited : Turnstile := { owner := 2 ^ 32, waiters := [roceWaiter] }

/-- Refutes O21, by its last clause: where the waiter is a RoCEv2 peer, the owner field made from it names the function of its numbers,
which is another user. `Turnstile.apply_givesUp_of_waiter` and `holder_mkOwner` say what holds. -/
theorem not_releasedLockPassesToTheOldestWaiter : ¬ Obligations.ReleasedLockPassesToTheOldestWaiter := by
  intro h
  obtain ⟨_, _, hreads⟩ := h roceAwaited [] [] roceWaiter { node := 0, fn := 0 } .engine none 0 0 true rfl
    (fun _ hx => absurd hx List.not_mem_nil) rfl (by decide)
  exact absurd (hreads (by decide) (by decide)).1 (by decide)

end Machine
end Sys2Proof
end

section
/-! PROOFS. Resets of the device and of the node: every turnstile is as after a cold reset (R171, R460, R462, R464). -/

namespace Sys2Proof
namespace Machine

/-! ### What a reset leaves -/

/-- The turnstiles, and everything of the state that can set something going at the end of a command, with the device's own state. -/
def State.work (s : State) :=
  (s.ts, s.dones, s.dcsIn, s.qps, s.colls, s.walks, s.heldCpls, s.ops, s.apts, s.pipes, s.vl, s.en, s.dev)

theorem State.work_carry (s t : State) (f : Fld) (o : Nat) : (s.carry t f o).work = t.work := rfl

theorem State.work_setBlk (s : State) (b : Nat) (x : Blk) : (s.setBlk b x).work = s.work := rfl

theorem State.work_emit (s : State) (o : Output) : (s.emit o).work = s.work := by
  simp only [State.work, State.emit_frame]

theorem State.work_repairAll (t : State) (rs : List (Nat × Nat × Nat)) : (t.repairAll rs).work = t.work := by
  refine foldl_keeps State.work (fun t r => ?_) rs t
  unfold State.repaired
  split <;> rfl

theorem State.work_keepOut (s t : State) : (s.keepOut t).work = t.work :=
  (foldl_keeps State.work (fun u d => s.work_carry u F.blkDistStatusInService d) _ _).trans
    (foldl_keeps State.work (fun u (e : Nat × Blk) => u.work_setBlk e.1 { state := .out, lastStatus := e.2.lastStatus }) _ t)

/-- After a restart nothing is left to do, and the device is in BRINGUP. -/
theorem State.work_restart (s : State) (cold : Bool) :
    (s.restart cold).work =
      ([], [], [], [], [], [], [], [], [], [], {}, [], { starting := false, porLow := s.dev.porLow, resetLow := s.dev.resetLow }) := by
  unfold State.restart
  extract_lets links dev fwBefore fw clk gov bistBefore bist r t₀ t kept carried
  have hbase : t.work = t₀.work := State.work_repairAll _ _
  split
  · exact hbase
  · have hcarried : carried.work = kept.work := by simp only [carried, State.work_carry]
    have hports : ((List.range 4).foldl (fun u n => s.carry (s.carry u F.hpPortCfgBifurcate n) F.hpPortCfgClassStrap n) carried).work =
        carried.work := foldl_keeps State.work (fun u n => by rw [State.work_carry, State.work_carry]) _ _
    rw [hports, hcarried, State.work_keepOut, hbase]
    rfl

theorem State.dev_restart (s : State) (cold : Bool) :
    (s.restart cold).dev = { starting := false, porLow := s.dev.porLow, resetLow := s.dev.resetLow } :=
  congrArg (·.2.2.2.2.2.2.2.2.2.2.2.2) (s.work_restart cold)

/-- Registers whose fields a restart keeps or sets (Table 17.9). -/
def restartRegs : List Reg := [.imgSvn, .jnlRstatus, .clkpwrClkStatus, .hpPortCfg, .blkDistStatus]

theorem regsKept_carry (s t : State) {f : Fld} (hreg : f.reg ∈ restartRegs) (hpos : f.pos 0 < 64) (o : Nat) :
    regsKept restartRegs t (s.carry t f o) :=
  regsKept_setFld t hreg _ o 0 hpos

theorem regsKept_keepOut (s t : State) : regsKept restartRegs t (s.keepOut t) := by
  unfold State.keepOut
  refine regsKept.trans (regsKept_foldl (fun u e => ?_) _ t) (regsKept_foldl (fun u d => ?_) _ _)
  · exact regsKept_of_flds_eq _ rfl
  · exact regsKept_carry s u (by decide) (by decide) d

theorem regsKept_repairAll (t : State) (rs : List (Nat × Nat × Nat)) : regsKept restartRegs t (t.repairAll rs) := by
  refine regsKept_foldl (fun u r => ?_) rs t
  unfold State.repaired
  split <;> exact regsKept_of_flds_eq _ rfl

theorem State.regsKept_restart (s : State) (cold : Bool) : regsKept restartRegs State.reset (s.restart cold) := by
  unfold State.restart
  extract_lets links dev fwBefore fw clk gov bistBefore bist r t₀ t kept carried
  have hreset : regsKept restartRegs State.reset t₀ := regsKept_of_flds_eq _ rfl
  have hsvn : regsKept restartRegs t₀ (s.carry (s.carry t₀ F.imgSvnFwFused) F.imgSvnImgFused) :=
    (regsKept_carry s _ (by decide) (by decide) 0).trans (regsKept_carry s _ (by decide) (by decide) 0)
  have hbase : regsKept restartRegs State.reset t := (hreset.trans hsvn).trans (regsKept_repairAll _ _)
  split
  · exact hbase
  · have hcarried : regsKept restartRegs kept carried :=
      ((regsKept_carry s _ (by decide) (by decide) 0).trans (regsKept_carry s _ (by decide) (by decide) 0)).trans
        (regsKept_carry s _ (by decide) (by decide) 0)
    refine ((hbase.trans (regsKept_keepOut s t)).trans hcarried).trans (regsKept_foldl (fun u n => ?_) _ _)
    exact (regsKept_carry s u (by decide) (by decide) n).trans (regsKept_carry s _ (by decide) (by decide) n)

/-! ### Nothing follows a reset -/

/-- A state that nothing is set going in: its turnstiles are as after a cold reset, nothing waits, no link is up, the exception transmit
ring is off, and the device is not in FAULT. -/
structure State.idleReset (u : State) : Prop where
  work : u.work = ([], [], [], [], [], [], [], [], [], [], {}, [], u.dev)
  ext : u.flag F.enExtCtrlEnable = false
  noFault : u.dev.state ≠ .fault

theorem State.idleReset_restart (s : State) (cold : Bool) : (s.restart cold).idleReset := by
  have hdev := s.dev_restart cold
  refine ⟨(s.work_restart cold).trans (by rw [hdev]), ?_, by rw [hdev]; exact DevState.noConfusion⟩
  rw [State.flag, s.regsKept_restart cold _ 0 0 (by decide) (by decide)]
  rfl

theorem State.ts_platformEvents (t s : State) : (t.platformEvents s).ts = t.ts := by
  unfold State.platformEvents
  split
  · rfl
  · refine foldl_keeps State.ts (fun v i => ?_) _ _
    split
    · rfl
    · simp only [State.emit_frame]

section
variable {u : State} (h : u.idleReset)
include h

theorem State.idleReset.emit (o : Output) : (u.emit o).idleReset where
  work := by simp only [u.work_emit, h.work, State.emit_frame]
  ext := (u.flag_emit o _ 0 0).trans h.ext
  noFault := by simpa using h.noFault

theorem State.idleReset.setFld {f : Fld} (hf : f.apart 0 F.enExtCtrlEnable 0 = true) (v : Nat) : (u.setFld f v).idleReset :=
  ⟨h.work, by rw [State.flag, fld_setFld_ne hf]; exact h.ext, h.noFault⟩

theorem State.idleReset.withDev {d : DevCtl} (hd : d.state ≠ .fault) : ({ u with dev := d } : State).idleReset := by
  have hwork := h.work
  simp only [State.work, Prod.mk.injEq] at hwork
  exact ⟨by simp only [State.work, hwork], h.ext, hd⟩

theorem State.idleReset.settle_eq : u.settle = u := by
  have hwork := h.work
  simp only [State.work, Prod.mk.injEq] at hwork
  obtain ⟨-, hdones, -, hqps, hcolls, hwalks, -⟩ := hwork
  simp [State.settle, State.quiet, State.startWalks, hdones, hqps, hcolls, hwalks]

theorem State.idleReset.hbmFreed_eq : u.hbmFreed = u := by
  have hwork := h.work
  simp only [State.work, Prod.mk.injEq] at hwork
  obtain ⟨-, -, -, -, -, -, hcpls, hops, hapts, hpipes, -⟩ := hwork
  have hheads (k : Nat) : u.takeHeads k (u.pipe k).heads.length = u := by
    simp [State.pipe, AMap.look, AMap.find, hpipes, State.takeHeads]
  have hsame : { u with heldCpls := [] } = u := by rw [← hcpls]
  simp only [State.hbmFreed, hcpls, List.partition_eq_filter_filter, List.filter_nil, List.foldl_nil, hsame]
  simp only [hops, hapts, List.filter_nil, List.map_nil, List.eraseDups_nil, List.foldl_nil]
  simp only [show List.range 4 = [0, 1, 2, 3] from rfl, List.foldl_cons, List.foldl_nil, hheads]

theorem State.idleReset.finish_eq : u.finish = u := by
  have hwork := h.work
  simp only [State.work, Prod.mk.injEq] at hwork
  obtain ⟨-, -, hdcs, -, -, hwalks, -, -, -, -, hvl, hen, -⟩ := hwork
  have htrial : u.trialFault = u := if_neg fun hfault => h.noFault hfault.1
  have hlinks : u.linksFall = u := by simp [State.linksFall, hvl, hen]
  have hinj : u.injAll = u := by simp [State.injAll, hvl]
  have hext : u.extPump = u := by
    rw [State.extPump]
    cases excSize (u.fld F.enExtCtrlSize) <;> simp [State.extRun, h.ext]
  simp [State.finish, h.settle_eq, hwalks, hdcs, htrial, hlinks, hinj, hext]

/-- The turnstiles are as after a cold reset, once the command has ended. -/
theorem State.idleReset.ends_turn (s : State) :
    ∃ t : State, s.ends u = .next t ∧ ∀ n, t.turn n = { value := 0, owner := 0, waiters := [] } := by
  have hfreed : s.freed u = u := by rw [State.freed, h.hbmFreed_eq, ite_self]
  have hts : (s.finished u).ts = [] := by
    rw [State.finished, hfreed, h.finish_eq]
    exact (State.ts_platformEvents u s).trans (congrArg Prod.fst h.work)
  exact ⟨_, rfl, fun n => by rw [State.turn, hts]; rfl⟩

end

/-! ### The resets -/

theorem State.toStandby_idleReset (s : State) (lost : Bool) : (s.toStandby lost).idleReset := by
  have hstandby := (s.idleReset_restart true).withDev (d := { (s.restart true).dev with state := .standby, railLost := lost })
    DevState.noConfusion
  exact hstandby.emit (.pin pinTrayFaultN false)

/-- A device that has started is neither off nor in STANDBY. -/
theorem State.deviceReset_idleReset {s : State} (hoff : s.dev.state ≠ .off) (hstandby : s.dev.state ≠ .standby) (cause : Nat) :
    (s.deviceReset cause).idleReset := by
  have hreset (v : State) (pulse : Bool) : (({ v.restart false with dev := { (v.restart false).dev with pulse := pulse } }.setFld
      F.rstStateCause cause).emit (.pin pinTrayFaultN false)).idleReset := by
    have hrestart := v.idleReset_restart false
    have hpulse := hrestart.withDev (d := { (v.restart false).dev with pulse := pulse }) hrestart.noFault
    exact (hpulse.setFld (f := F.rstStateCause) (by decide) cause).emit _
  unfold State.deviceReset
  split
  · next h => exact absurd h hoff
  · next h => exact absurd h hstandby
  · exact hreset _ _

theorem State.railOut_idleReset {s : State} (hoff : s.dev.state ≠ .off) (hstandby : s.dev.state ≠ .standby) : s.railOut.idleReset := by
  unfold State.railOut
  split
  · next h => exact absurd h hoff
  · next h => exact absurd h hstandby
  · exact s.toStandby_idleReset true

theorem State.porAssert_idleReset {s : State} (hoff : s.dev.state ≠ .off) : s.porAssert.idleReset := by
  unfold State.porAssert
  extract_lets devBefore v
  split
  · next h => exact absurd h hoff
  · have hstandby := State.toStandby_idleReset (if v.gov.trip = true then v.emit (.pin pinThermTripN true) else v) false
    exact ⟨hstandby.work, hstandby.ext, hstandby.noFault⟩

theorem State.vaonLoss_idleReset (s : State) : s.vaonLoss.idleReset := by
  have hoff := (s.idleReset_restart true).withDev
    (d := { (s.restart true).dev with state := .off, porLow := s.dev.porLow, resetLow := s.dev.resetLow }) DevState.noConfusion
  exact ⟨hoff.work, hoff.ext, hoff.noFault⟩

theorem State.resetAssert_released {s : State} (hlow : s.dev.resetLow = false) :
    s.resetAssert = ({ s with dev := { s.dev with resetLow := true } } : State).deviceReset 1 :=
  if_neg (by rw [hlow]; exact Bool.false_ne_true)

theorem State.deviceResetCmd_confirmed {s : State} {org : Origin} (hopen : s.dcsOpen org 0x10008 = true) (hlow : s.dev.resetLow = false) :
    ∃ cause, s.deviceResetCmd org 0xC940 = s.deviceReset cause := by
  have hserved : ¬ ((!s.dcsOpen org 0x10008) = true ∨ s.dev.resetLow = true) := by rw [hopen, hlow]; decide
  exact ⟨_, (if_neg hserved).trans (if_neg fun hne => hne rfl)⟩

/-- Settles O57: each of the resets restarts the state, and nothing follows it. -/
theorem resetsClearEveryTurnstile : Obligations.ResetsClearEveryTurnstile := by
  refine ⟨fun s hoff hstandby => ⟨?_, ?_, ?_, ?_⟩, fun s hoff => ⟨?_, ?_⟩⟩
  · intro hlow
    have hreset := State.deviceReset_idleReset (s := { s with dev := { s.dev with resetLow := true } }) hoff hstandby 1
    exact (State.resetAssert_released hlow ▸ hreset : s.resetAssert.idleReset).ends_turn s
  · intro org hopen hlow
    obtain ⟨cause, hcmd⟩ := State.deviceResetCmd_confirmed hopen hlow
    have hreset : (s.deviceResetCmd org 0xC940).idleReset := hcmd ▸ State.deviceReset_idleReset hoff hstandby cause
    exact hreset.ends_turn s
  · intro hdrain hsent
    have htimer : s.drainReset = s.deviceReset s.dev.drainCause := if_pos ⟨hdrain, hsent⟩
    have hreset : s.drainReset.idleReset := htimer ▸ State.deviceReset_idleReset hoff hstandby _
    exact hreset.ends_turn s
  · exact (State.railOut_idleReset hoff hstandby).ends_turn s
  · exact (State.porAssert_idleReset hoff).ends_turn s
  · exact s.vaonLoss_idleReset.ends_turn s

end Machine
end Sys2Proof
end

section
/-! PROOFS. Turnstile operations on this node: the descriptor gets its record, passes its checks, and takes its effect on one turnstile
(R145, R151, R167 to R170, R446). -/

namespace Sys2Proof
namespace Machine

/-! ### Start commands of one VAR -/

theorem State.startOf_var {s : State} {r : OpRef} {opcode v : Nat} {o : Op} (h : s.starting r opcode = some o) (hvar : o.d.var = v)
    (f : State → Op → State) : s.startOf r opcode (some v) f = f s o := by
  rw [State.startOf, h]
  exact if_pos (.inr (congrArg some hvar.symm))

theorem State.remoteStart_owned {s : State} {o : Op} (hop : o.d.opcode ≠ 0x12) (howned : s.keyTarget o.ref.fn o.d.qp o.d.rkey = .owned) :
    s.remoteStart o = s.localStart o :=
  if_neg (by simp [hop, howned])

/-! ### The record -/

theorem State.starting_op {s : State} {r : OpRef} {opcode : Nat} {o : Op} (h : s.starting r opcode = some o) : s.op r = some o := by
  unfold State.starting at h
  split at h
  · next x hop =>
    split at h
    · exact hop.trans h
    · exact absurd h (by simp)
  · exact absurd h (by simp)

theorem State.op_updOp {f : Op → Op} {r : OpRef} (hf : ∀ o : Op, o.ref = r → (f o).ref = r) (s : State) :
    (s.updOp r f).op r = (s.op r).map f := by
  have hkey : ((fun o : Op => o.ref == r) ∘ fun o => if o.ref = r then f o else o) = fun o => o.ref == r := by
    funext o
    simp only [Function.comp_apply]
    split
    · next href => rw [hf o href, href]
    · rfl
  have hfound : (s.op r).map (fun o => if o.ref = r then f o else o) = (s.op r).map f := by
    cases hop : s.op r with
    | none => rfl
    | some o => simp [State.op_ref hop]
  rw [← hfound, State.op, State.updOp, List.find?_map, hkey, State.op]

/-- A descriptor has its record: it is the same descriptor, and beside it only the Journal and its high-water marks change. -/
structure admitted (s t : State) (o o' : Op) : Prop where
  ref : o'.ref = o.ref
  desc : o'.d = o.d
  op : s.op o.ref = some o → t.op o.ref = some o'
  regs : regsKept [.jnlSlice] s t
  rest : t = { s with flds := t.flds, jnl := t.jnl, ops := t.ops }

theorem State.takeRec_rest {s t : State} {k i : Nat} {r : JRec} (h : s.takeRec k r = some (i, t)) :
    regsKept [.jnlSlice] s t ∧ t = { s with flds := t.flds, jnl := t.jnl } := by
  unfold State.takeRec at h
  split at h
  · exact absurd h (by simp)
  · obtain ⟨-, ht⟩ := Prod.mk.inj (Option.some.inj h)
    rw [← ht]
    split
    · exact ⟨(regsKept_of_flds_eq _ rfl).setFld (f := F.jnlSliceHwm) (by decide) _ k 0 (by decide), rfl⟩
    · exact ⟨regsKept_of_flds_eq _ rfl, rfl⟩

theorem State.admitOp_admitted {s t : State} {o o' : Op} {slice role target : Nat} (h : s.admitOp o slice role target = some (o', t)) :
    admitted s t o o' := by
  unfold State.admitOp at h
  split at h
  · cases h
    exact ⟨rfl, rfl, id, regsKept_refl _ _, rfl⟩
  · split at h
    · exact absurd h (by simp)
    · next i u hrec =>
      cases h
      obtain ⟨hregs, hrest⟩ := State.takeRec_rest hrec
      refine ⟨rfl, rfl, fun hop => ?_, hregs, ?_⟩
      · have hkept : u.op o.ref = some o := by rw [hrest]; exact hop
        exact (State.op_updOp (f := fun _ => { o with jrec := some i }) (fun _ _ => rfl) u).trans (congrArg _ hkept)
      · rw [hrest]
        rfl

theorem State.winUse_rest (s : State) (loc : TlbLoc) (key : Nat) : s.winUse loc key = { s with tlb := (s.winUse loc key).tlb } := by
  unfold State.winUse State.tlbUse
  dsimp only
  split_ifs <;> rfl

/-! ### The checks of a target on this node -/

theorem State.nodeId_of_regsKept {rs : List Reg} {s t : State} (h : regsKept rs s t) (hrs : Reg.idNodeId ∉ rs) : t.nodeId = s.nodeId := by
  rw [State.nodeId, State.nodeId, h F.idNodeIdRack 0 0 (by decide) hrs, h F.idNodeIdPos 0 0 (by decide) hrs]

/-- Who is manager lies in the ports' configuration, the acceptance of an image and the fuses. -/
theorem State.isManager_of_regsKept {rs : List Reg} {s t : State} (h : regsKept rs s t) (hcfg : Reg.hpPortCfg ∉ rs)
    (himg : Reg.imgStatus ∉ rs) (hfuses : t.fuses = s.fuses) (fn : Nat) : t.isManager fn = s.isManager fn := by
  have hactive : (fun n => t.flag F.hpPortCfgMgrActive n) = fun n => s.flag F.hpPortCfgMgrActive n :=
    funext fun n => h.flag F.hpPortCfgMgrActive n 0 (by decide) hcfg
  have himaged := h.flag F.imgStatusAccepted 0 0 (by decide) himg
  have hrecovery : t.recoveryManager = s.recoveryManager :=
    congrArg (fun f => State.recoveryManager { State.reset with fuses := f }) hfuses
  rw [State.isManager, State.isManager, State.manager, State.manager, State.imaged, State.imaged, hactive, himaged, hrecovery]

theorem admitted.isManager {s t : State} {o o' : Op} (h : admitted s t o o') (fn : Nat) : t.isManager fn = s.isManager fn :=
  State.isManager_of_regsKept h.regs (by decide) (by decide) (by rw [h.rest]) fn

theorem admitted.user {s t : State} {o o' : Op} (h : admitted s t o o') (fn : Nat) : t.user fn = s.user fn := by
  rw [State.user, State.user, State.nodeId_of_regsKept h.regs (by decide)]

/-- An operation on a target of this node, the first of its queue there, goes on once it has its record. -/
theorem State.localStart_admitted {s t : State} {o o' : Op} (hfirst : s.localBefore o = none) (hshape : notifyOk o.d = true)
    (hadmit : s.admitLocal o 0 (s.formed o.ref.fn o.d.qp o.d.rkey o.d.opx) = some (o', t)) :
    s.localStart o = (t.winUse (t.opEng o').loc o'.d.rkey).localGo o' := by
  simp only [State.localStart, hfirst, hshape, hadmit, Bool.not_true, Bool.false_eq_true, if_false]

/-! ### The effect on one turnstile -/

/-- Second entries that start change their phases and the Journal alone. -/
theorem State.startSeconds_kept (s : State) (rs : List OpRef) :
    (s.startSeconds rs).ts = s.ts ∧ (s.startSeconds rs).mem = s.mem ∧ (s.startSeconds rs).ops.map (·.ref) = s.ops.map (·.ref) := by
  unfold State.startSeconds
  extract_lets hit t fire
  have hfreed : t.ts = s.ts ∧ t.mem = s.mem ∧ t.ops = s.ops := by
    refine ⟨foldl_keeps State.ts ?_ _ _, foldl_keeps State.mem ?_ _ _, foldl_keeps State.ops ?_ _ _⟩ <;> simp
  obtain ⟨hts, hmem, hops⟩ := hfreed
  refine ⟨hts, hmem, ?_⟩
  have href : (fun o : Op => o.ref) ∘ (fun o => if hit o = true then fire o else o) = fun o => o.ref := by
    funext o
    simp only [Function.comp_apply]
    split <;> rfl
  rw [List.map_map, href, hops]

theorem State.fireThreshold_kept (s : State) (n : Nat) :
    (s.fireThreshold n).ts = s.ts ∧ (s.fireThreshold n).mem = s.mem ∧ (s.fireThreshold n).ops.map (·.ref) = s.ops.map (·.ref) :=
  State.startSeconds_kept { s with armed := _ } _

theorem State.op_isSome (s : State) (r : OpRef) : (s.op r).isSome = true ↔ r ∈ s.ops.map (·.ref) := by
  simp [State.op]

/-- Ended operations are told at the end of the command. -/
theorem State.tsEnded_kept (s : State) (ds : List TsDone) :
    (s.tsEnded ds).ts = s.ts ∧ (s.tsEnded ds).mem = s.mem ∧ (s.tsEnded ds).ops = s.ops := by
  refine ⟨foldl_keeps State.ts ?_ ds s, foldl_keeps State.mem ?_ ds s, foldl_keeps State.ops ?_ ds s⟩ <;> exact fun _ _ => rfl

/-- The state in which a turnstile operation of a descriptor has taken its effect, before it waits where it has to. -/
def State.tsApplied (s : State) (o : Op) (fga : Nat) : State × Bool :=
  let (t, ds, w) := s.tsPerform (fgaOff fga / 16) o.d.var o.d.opa o.d.opb (s.user o.ref.fn) (.op o.ref)
    (if o.d.rkey = 0 then none else some (keyIndex o.d.rkey, keyGen o.d.rkey))
  (t.tsEnded ds, w)

theorem State.localTs_ok {s : State} {o : Op} {fga : Nat}
    (htarget : s.localTarget (s.user o.ref.fn) o.d.rkey o.d.opx 16 true (tsNeedsW o.d.var) .turnstile = .ok fga)
    (hoff : fgaOff fga % 16 = 0) :
    s.localTs o = if (s.tsApplied o fga).2 then
        ((s.tsApplied o fga).1.updOp o.ref fun y => { y with phase := .engine }).updJrec o.jrec fun j => { j with state := .waiting }
      else (s.tsApplied o fga).1 := by
  simp only [State.localTs, htarget, hoff, ne_eq, not_true_eq_false, if_false]
  rfl

/-- What Tables 6.9 and 6.10 make of the turnstile, and whether the operation waits. -/
def State.tsResult (s : State) (fn : Nat) (o : Op) (fga : Nat) : Turnstile × List TsDone × Bool :=
  (s.turn (fgaOff fga / 16)).apply o.d.var o.d.opa o.d.opb (s.user fn) (.op o.ref)
    (if o.d.rkey = 0 then none else some (keyIndex o.d.rkey, keyGen o.d.rkey)) (s.isManager fn)

theorem State.tsApplied_kept (s : State) (o : Op) (fga : Nat) :
    (s.tsApplied o fga).2 = (s.tsResult o.ref.fn o fga).2.2 ∧
      (s.tsApplied o fga).1.ts = (s.setTurn (fgaOff fga / 16) (s.tsResult o.ref.fn o fga).1).ts ∧
      (s.tsApplied o fga).1.mem = s.mem ∧ (s.tsApplied o fga).1.ops.map (·.ref) = s.ops.map (·.ref) := by
  have hmanager : ((s.user o.ref.fn).node == s.nodeId && s.isManager (s.user o.ref.fn).fn) = s.isManager o.ref.fn := by
    simp [State.user]
  unfold State.tsApplied State.tsPerform
  simp only [hmanager]
  obtain ⟨hts, hmem, hops⟩ := ((s.setTurn (fgaOff fga / 16) (s.tsResult o.ref.fn o fga).1).fireThreshold_kept (fgaOff fga / 16))
  obtain ⟨hts', hmem', hops'⟩ := State.tsEnded_kept ((s.setTurn (fgaOff fga / 16) (s.tsResult o.ref.fn o fga).1).fireThreshold
    (fgaOff fga / 16)) (s.tsResult o.ref.fn o fga).2.1
  exact ⟨rfl, hts'.trans hts, hmem'.trans hmem, hops' ▸ hops⟩

/-- A turnstile operation on a target that passes its checks: the one turnstile is as the tables make it, the others and HBM are kept, and
an operation that waits stays with its engine. -/
theorem State.localTs_effect {s : State} {o : Op} {fga : Nat}
    (htarget : s.localTarget (s.user o.ref.fn) o.d.rkey o.d.opx 16 true (tsNeedsW o.d.var) .turnstile = .ok fga)
    (hoff : fgaOff fga % 16 = 0) (hop : s.op o.ref = some o) :
    (s.localTs o).turn (fgaOff fga / 16) = (s.tsResult o.ref.fn o fga).1 ∧
      (∀ n, n ≠ fgaOff fga / 16 → (s.localTs o).turn n = s.turn n) ∧
      ((s.tsResult o.ref.fn o fga).2.2 = true → ∃ y, (s.localTs o).op o.ref = some y ∧ y.phase = .engine) ∧
      (s.localTs o).mem = s.mem := by
  obtain ⟨hwait, hts, hmem, hops⟩ := s.tsApplied_kept o fga
  have hlocal := State.localTs_ok htarget hoff
  have hkept : (s.localTs o).ts = (s.tsApplied o fga).1.ts ∧ (s.localTs o).mem = (s.tsApplied o fga).1.mem := by
    rw [hlocal]
    split <;> simp [State.updOp]
  have hturn (n : Nat) : (s.localTs o).turn n = (s.setTurn (fgaOff fga / 16) (s.tsResult o.ref.fn o fga).1).turn n := by
    rw [State.turn, State.turn, hkept.1, hts]
  refine ⟨by rw [hturn, State.turn_setTurn], fun n hn => by rw [hturn, State.turn_setTurn_ne _ _ _ hn],
    fun hw => ?_, hkept.2.trans hmem⟩
  have hthere : ((s.tsApplied o fga).1.op o.ref).isSome = true := by
    rw [State.op_isSome, hops, ← State.op_isSome, hop]
    rfl
  obtain ⟨y, hy⟩ := Option.isSome_iff_exists.1 hthere
  refine ⟨{ y with phase := .engine }, ?_, rfl⟩
  rw [hlocal, if_pos (hwait.trans hw)]
  have hupdated := State.op_updOp (f := fun y => { y with phase := .engine }) (r := o.ref) (fun _ h => h) (s.tsApplied o fga).1
  rw [hy] at hupdated
  simpa [State.op] using hupdated

/-- The start commands of turnstile operations, with the VAR of each (Table 6.9). -/
def tsCommands (r : OpRef) : List (Instr × Nat) :=
  [(.tsRead r, 0x1), (.tsSet r, 0x2), (.tsAdd r, 0x3), (.tsCas r, 0x4), (.tsWait r, 0x5), (.tsAddWait r, 0x6), (.tsAcquire r, 0x8),
    (.tsTry r, 0x9), (.tsRelease r, 0xA), (.tsHandover r, 0xB), (.tsAbandon r, 0xC)]

theorem exec_of_mem_tsCommands (s : State) (r : OpRef) :
    ∀ p ∈ tsCommands r, exec p.1 s = s.ends (s.startOf r 0x18 (some p.2) State.remoteStart) := by
  simp only [tsCommands, List.forall_mem_cons]
  exact ⟨rfl, rfl, rfl, rfl, rfl, rfl, rfl, rfl, rfl, rfl, rfl, fun _ h => absurd h List.not_mem_nil⟩

/-- A turnstile operation on this node that has its record does what it does in the state then; the window that it uses is noted. -/
theorem State.localStart_ts {s t : State} {o o' : Op} (hop : o.d.opcode = 0x18) (hfirst : s.localBefore o = none)
    (hshape : notifyOk o.d = true) (hadmit : s.admitLocal o 0 (s.formed o.ref.fn o.d.qp o.d.rkey o.d.opx) = some (o', t)) :
    s.localStart o = (t.winUse (t.opEng o').loc o'.d.rkey).localTs o' := by
  have hop' : o'.d.opcode = 0x18 := (State.admitOp_admitted hadmit).desc ▸ hop
  rw [State.localStart_admitted hfirst hshape hadmit, State.localGo, hop']
  rfl

/-- Settles O18: the record and the use of the window change nothing that the operation reads, and its effect is `State.localTs_effect`. -/
theorem localTurnstileOperationsTakeEffect : Obligations.LocalTurnstileOperationsTakeEffect := by
  intro r c code hc s t o o' fga hstart hvar howned hfirst hnotify hadmit htarget hoff
  have hop := (State.starting_some hstart).1
  have href := State.starting_ref hstart
  have h := State.admitOp_admitted hadmit
  have hexec : exec c s = .next (s.finished (s.localStart o)) := by
    rw [exec_of_mem_tsCommands s r (c, code) hc, State.startOf_var hstart hvar, State.remoteStart_owned (by rw [hop]; decide) howned]
    rfl
  have heffect := State.localStart_ts hop hfirst (by simp [notifyOk, hnotify]) hadmit
  have huse := t.winUse_rest (t.opEng o').loc o'.d.rkey
  generalize t.winUse (t.opEng o').loc o'.d.rkey = v at heffect huse
  have htargets : v.localTarget = t.localTarget := by rw [huse]; rfl
  have husers : v.user = t.user := by rw [huse]; rfl
  have hmanagers : v.isManager = t.isManager := by rw [huse]; rfl
  have hturns : v.turn = s.turn := by rw [huse, h.rest]; rfl
  have hmem : v.mem = s.mem := by rw [huse, h.rest]
  have hthere : v.op o'.ref = some o' := by rw [huse, h.ref]; exact h.op (href ▸ State.starting_op hstart)
  have hresult : v.tsResult o'.ref.fn o' fga = (s.turn (fgaOff fga / 16)).apply code o.d.opa o.d.opb (s.user r.fn) (.op r)
      (if o.d.rkey = 0 then none else some (keyIndex o.d.rkey, keyGen o.d.rkey)) (s.isManager r.fn) := by
    rw [State.tsResult, hturns, husers, hmanagers, h.user, h.isManager, h.desc, h.ref, href, hvar]
  have htarget' : v.localTarget (v.user o'.ref.fn) o'.d.rkey o'.d.opx 16 true (tsNeedsW o'.d.var) .turnstile = .ok fga := by
    rw [htargets, husers, h.desc, h.ref, href, hvar, htarget]
  obtain ⟨hone, hothers, hwaits, hkept⟩ := State.localTs_effect htarget' hoff hthere
  rw [hresult] at hone hwaits
  rw [hturns] at hothers
  rw [h.ref, href] at hwaits
  exact ⟨_, hexec, heffect ▸ ⟨hone, hothers, hwaits, memKept_of_mem_eq (hkept.trans hmem)⟩⟩

end Machine
end Sys2Proof
end

section
/-! PROOFS. Remote operations, RECV, armed triggers and step tables start from their descriptors (R143, R144, R152, R168, R336). -/

namespace Sys2Proof
namespace Machine

/-! ### Start commands -/

theorem State.ends_startOf_var {s u : State} {r : OpRef} {opcode v : Nat} {o : Op} (h : s.starting r opcode = some o) (hvar : o.d.var = v)
    {f : State → Op → State} (heffect : f s o = u) : s.ends (s.startOf r opcode (some v) f) = .next (s.finished u) :=
  congrArg s.ends ((State.startOf_var h hvar f).trans heffect)

theorem State.remoteStart_send {s : State} {o : Op} (hop : o.d.opcode = 0x12) : s.remoteStart o = s.tpStart o := if_pos (.inl hop)

theorem State.remoteStart_away {s : State} {o : Op} (haway : s.keyTarget o.ref.fn o.d.qp o.d.rkey ≠ .owned) :
    s.remoteStart o = s.tpStart o := if_pos (.inr haway)

/-- Where the start of an operation other than SEND goes, for a target here or elsewhere, is where all its start commands end. -/
theorem State.ends_remoteStart {s u : State} {r : OpRef} {opcode : Nat} {o : Op} (h : s.starting r opcode = some o)
    (hsend : opcode ≠ 0x12) (heffect : o.d.opcode ≠ 0x12 → s.remoteStart o = u) :
    s.ends (s.startOf r opcode none State.remoteStart) = .next (s.finished u) :=
  State.ends_startOf h (heffect ((State.starting_some h).1 ▸ hsend))

theorem State.ends_remoteStart_ts {s u : State} {r : OpRef} {v : Nat} {o : Op} (h : s.starting r 0x18 = some o) (hvar : o.d.var = v)
    (heffect : o.d.opcode ≠ 0x12 → s.remoteStart o = u) :
    s.ends (s.startOf r 0x18 (some v) State.remoteStart) = .next (s.finished u) :=
  State.ends_startOf_var h hvar (heffect (by rw [(State.starting_some h).1]; decide))

/-- The eleven turnstile operations and the five others start alike: with what `State.remoteStart` does of them. -/
theorem remoteCommands_start {s u : State} {r : OpRef} {o : Op} (heffect : o.d.opcode ≠ 0x12 → s.remoteStart o = u) :
    (s.starting r 0x10 = some o → exec (.write r) s = .next (s.finished u)) ∧
    (s.starting r 0x11 = some o → exec (.read r) s = .next (s.finished u)) ∧
    (s.starting r 0x14 = some o → exec (.fadd r) s = .next (s.finished u)) ∧
    (s.starting r 0x15 = some o → exec (.cas64 r) s = .next (s.finished u)) ∧
    (s.starting r 0x16 = some o → exec (.cas128 r) s = .next (s.finished u)) ∧
    (s.starting r 0x18 = some o → o.d.var = 0x1 → exec (.tsRead r) s = .next (s.finished u)) ∧
    (s.starting r 0x18 = some o → o.d.var = 0x2 → exec (.tsSet r) s = .next (s.finished u)) ∧
    (s.starting r 0x18 = some o → o.d.var = 0x3 → exec (.tsAdd r) s = .next (s.finished u)) ∧
    (s.starting r 0x18 = some o → o.d.var = 0x4 → exec (.tsCas r) s = .next (s.finished u)) ∧
    (s.starting r 0x18 = some o → o.d.var = 0x5 → exec (.tsWait r) s = .next (s.finished u)) ∧
    (s.starting r 0x18 = some o → o.d.var = 0x6 → exec (.tsAddWait r) s = .next (s.finished u)) ∧
    (s.starting r 0x18 = some o → o.d.var = 0x8 → exec (.tsAcquire r) s = .next (s.finished u)) ∧
    (s.starting r 0x18 = some o → o.d.var = 0x9 → exec (.tsTry r) s = .next (s.finished u)) ∧
    (s.starting r 0x18 = some o → o.d.var = 0xA → exec (.tsRelease r) s = .next (s.finished u)) ∧
    (s.starting r 0x18 = some o → o.d.var = 0xB → exec (.tsHandover r) s = .next (s.finished u)) ∧
    (s.starting r 0x18 = some o → o.d.var = 0xC → exec (.tsAbandon r) s = .next (s.finished u)) := by
  have hother {opcode : Nat} (hsend : opcode ≠ 0x12) (h : s.starting r opcode = some o) := State.ends_remoteStart h hsend heffect
  have hts {c : Instr} {v : Nat} (hc : (c, v) ∈ tsCommands r) (h : s.starting r 0x18 = some o) (hvar : o.d.var = v) :
      exec c s = .next (s.finished u) :=
    (exec_of_mem_tsCommands s r _ hc).trans (State.ends_remoteStart_ts h hvar heffect)
  refine ⟨hother (by decide), hother (by decide), hother (by decide), hother (by decide), hother (by decide),
    hts ?_, hts ?_, hts ?_, hts ?_, hts ?_, hts ?_, hts ?_, hts ?_, hts ?_, hts ?_, hts ?_⟩ <;> simp [tsCommands]

/-! ### RECV -/

/-- A buffer posted on a QP, behind those posted before. -/
def State.recvPosted (s : State) (o : Op) : State :=
  (s.setQp o.d.qp { s.qp o.d.qp with recvs := (s.qp o.d.qp).recvs ++ [(o.ref, o.d.opa % 2 ^ 32)] }).updOp o.ref
    fun y => { y with phase := .posted }

theorem State.recvStart_up {s : State} {o : Op} (hup : (s.qp o.d.qp).up = true) : s.recvStart o = s.recvPosted o := by
  rw [State.recvStart, hup]
  rfl

/-! ### Armed triggers -/

theorem State.armThreshold_fetched {s : State} {o sec : Op} {fga : Nat} (hsec : s.secondOf o = some sec)
    (howned : s.keyTarget o.ref.fn o.d.qp o.d.rkey = .owned)
    (htarget : s.localTarget (s.user o.ref.fn) o.d.rkey o.d.opx 16 true false .turnstile = .ok fga) (hoff : fgaOff fga % 16 = 0) :
    s.armThreshold o =
      s.arm o sec (.threshold (fgaOff fga / 16) o.d.opa (if o.d.rkey = 0 then none else some (keyIndex o.d.rkey, keyGen o.d.rkey))) := by
  simp only [State.armThreshold, hsec, howned, htarget, hoff, ne_eq, not_true_eq_false, if_false]

theorem State.armTag_fetched {s : State} {o sec : Op} (hsec : s.secondOf o = some sec) :
    s.armTag o = s.arm o sec (.tag (o.d.opa % 2 ^ 32)) := by
  simp only [State.armTag, hsec]

theorem State.armThreshold_unfetched {s : State} {o : Op} (hsec : s.secondOf o = none) : s.armThreshold o = s.armAlone o := by
  simp only [State.armThreshold, hsec]

theorem State.armTag_unfetched {s : State} {o : Op} (hsec : s.secondOf o = none) : s.armTag o = s.armAlone o := by
  simp only [State.armTag, hsec]

/-! ### Step tables -/

/-- A table that waits for its Block behind those that wait. -/
def State.tableWaits (t : State) (b : Nat) (o : Op) : State :=
  (t.setBlk b { t.blk b with waiting := (t.blk b).waiting ++ [o.ref] }).updOp o.ref fun y => { y with phase := .engine }

theorem State.tableArrives_admitted {s t : State} {o o' : Op} (hloading : (s.blk o.d.var).loading ≠ some o.ref)
    (hon : s.domOn (blkDomain s.fuses.variant.blkPerDist o.d.var) = true) (hcheck : s.loadCheck o = none)
    (hadmit : s.admitTable o = some (o', t)) :
    s.tableArrives o =
      if (t.blk o.d.var).idleNow ∧ (t.blk o.d.var).waiting.isEmpty then t.beginTable o' else t.tableWaits o.d.var o' := by
  simp only [State.tableArrives, hloading, if_false, hon, Bool.not_true, Bool.false_eq_true, hcheck, hadmit]
  rfl

/-- Settles O16: each command runs the start of its descriptor. An ARM whose second entry has completed with a failed check completes with OK
by the model's choice (log entry 132). -/
theorem remoteOperationsStart : Obligations.RemoteOperationsStart := by
  refine ⟨?_, ?_, ?_, ?_, ?_, ?_, ?_, ?_⟩
  · exact fun s r o howned => remoteCommands_start fun hop => State.remoteStart_owned hop howned
  · exact fun s r o haway => remoteCommands_start fun _ => State.remoteStart_away haway
  · exact fun s r o hstart => State.ends_startOf hstart (State.remoteStart_send (State.starting_some hstart).1)
  · exact fun s r o hstart hup => ⟨_, State.ends_startOf hstart (State.recvStart_up hup), by
      exact congrArg Qp.recvs (State.qp_setQp s o.d.qp _), fun q hq => State.qp_setQp_ne s o.d.qp _ hq, rfl⟩
  · exact fun s r o sec hstart hvar hsec => State.ends_startOf_var hstart hvar (State.armTag_fetched hsec)
  · exact fun s r o sec fga hstart hvar hsec howned htarget hoff =>
      State.ends_startOf_var hstart hvar (State.armThreshold_fetched hsec howned htarget hoff)
  · exact fun s r o hstart hsec => ⟨fun hvar => State.ends_startOf_var hstart hvar (State.armThreshold_unfetched hsec),
      fun hvar => State.ends_startOf_var hstart hvar (State.armTag_unfetched hsec)⟩
  · intro s t r o o' hloading hon hcheck hadmit
    have harrives := State.tableArrives_admitted hloading hon hcheck hadmit
    refine ⟨fun hidle hnone => ?_, fun hbusy => ?_⟩
    · rw [if_pos ⟨hidle, by rw [hnone]; rfl⟩] at harrives
      exact ⟨fun hstart => State.ends_startOf hstart harrives, fun hstart => State.ends_startOf hstart harrives⟩
    · rw [if_neg (by simpa [imp_iff_not_or] using hbusy)] at harrives
      exact ⟨_, fun hstart => State.ends_startOf hstart harrives, fun hstart => State.ends_startOf hstart harrives,
        State.blk_setBlk t o.d.var _, fun k hk => State.blk_setBlk_ne t o.d.var _ hk, rfl⟩

end Machine
end Sys2Proof
end

section
/-! PROOFS. Window commands and the end of a revocation (R156, R159, R163, R164, Tables 6.4 to 6.8). -/

namespace Sys2Proof
namespace Machine

/-! ### The end of a window command -/

theorem Status.code_lt (st : Status) : st.code < 2 ^ 8 := by cases st <;> decide

section
variable (s : State) (fn : Nat) (st : Status) (key : Nat)

theorem State.wincEnds_key : (s.wincEnds fn st key).fld F.wincStatusKey fn = key % 2 ^ 32 := by
  rw [State.wincEnds, State.setFlag, fld_setFld_ne (by decide), State.setFlag, fld_setFld_ne (by decide), fld_setFld_ne (by decide),
    fld_setFld_self]
  rfl

theorem State.wincEnds_code : (s.wincEnds fn st key).fld F.wincStatusCode fn = st.code := by
  rw [State.wincEnds, State.setFlag, fld_setFld_ne (by decide), State.setFlag, fld_setFld_ne (by decide)]
  exact fld_setFld_of_lt (f := F.wincStatusCode) st.code_lt _ fn 0

theorem State.wincEnds_fail : (s.wincEnds fn st key).flag F.wincStatusFail fn = (st != .ok) := by
  rw [State.wincEnds, State.flag, State.setFlag, fld_setFld_ne (by decide)]
  exact State.flag_setFlag _ F.wincStatusFail _ fn 0 rfl

theorem State.wincEnds_busy : (s.wincEnds fn st key).flag F.wincStatusBusy fn = false :=
  State.flag_setFlag _ F.wincStatusBusy false fn 0 rfl

theorem State.win_wincEnds (i : Nat) : (s.wincEnds fn st key).win i = s.win i := rfl

theorem regsKept.wincEnds {s t : State} (h : regsKept [.wincStatus] s t) : regsKept [.wincStatus] s (t.wincEnds fn st key) := by
  refine (((h.setFld (f := F.wincStatusKey) ?_ key fn 0 ?_).setFld (f := F.wincStatusCode) ?_ st.code fn 0 ?_).setFlag
    (f := F.wincStatusFail) ?_ _ fn ?_).setFlag (f := F.wincStatusBusy) ?_ false fn ?_ <;> decide

end

theorem State.ends_wincCmd {s u : State} {fn : Nat} (hopen : s.barOpen fn = true) (hidle : s.flag F.wincStatusBusy fn = false)
    {f : State → State} (heffect : f s = u) : s.ends (s.wincCmd fn f) = .next (s.finished u) := by
  rw [State.wincCmd, if_pos ⟨hopen, by rw [hidle]; rfl⟩, heffect]
  rfl

/-! ### CREATE -/

/-- The window that CREATE makes of the arguments of a function. -/
def State.windowAsked (s : State) (fn i : Nat) : Window :=
  { state := .valid, gen := (s.win i).gen, base := s.fld F.wincArg0Value fn, len := s.fld F.wincArg1Length fn,
    grant := s.fld F.wincArg2Grant fn, w := s.flag F.wincArg2W fn, r := s.flag F.wincArg2R fn, owner := fn,
    grantFn := s.fld F.wincArg2GrantFn fn, grantNode := s.fld F.wincArg2GrantNode fn, time := s.stamp }

theorem State.winCreate_ok {s : State} {fn i : Nat}
    (hcheck : s.windowCheck fn (s.fld F.wincArg0Value fn) (s.fld F.wincArg1Length fn) = none) (hfree : s.freeWindow = some i) :
    s.winCreate fn = (s.setWin i (s.windowAsked fn i)).wincEnds fn .ok (mkKey i (s.win i).gen) := by
  simp only [State.winCreate, hcheck, hfree]
  rfl

/-! ### Revocation -/

/-- A current key of a valid window that its owner has not worn out: the revocation begins. -/
theorem State.winRevoke_begins {s : State} {fn key : Nat} (hindex : keyIndex key ≠ 0) (hcount : keyIndex key < winCount)
    (hvalid : (s.win (keyIndex key)).state = .valid) (hgen : keyGen key = (s.win (keyIndex key)).gen)
    (howner : (s.win (keyIndex key)).owner = fn) (hlast : (s.win (keyIndex key)).gen < 1023) (destroy : Bool) :
    s.winRevoke fn key destroy = (s.setFlag F.wincStatusBusy true fn).revoke (keyIndex key) destroy (some fn) false := by
  have hnotLast : decide ((s.win (keyIndex key)).gen = 1023) = false := decide_eq_false (by omega)
  rw [State.winRevoke, if_neg (by simp [hindex, hvalid, hcount]), if_neg (by simp [hvalid, hgen]), if_neg (by simp [howner])]
  simp only [hnotLast, Bool.or_false, Bool.and_false]

theorem State.winRevoke_stale {s : State} {fn key : Nat} (hindex : keyIndex key ≠ 0) (hcount : keyIndex key < winCount)
    (hvalid : (s.win (keyIndex key)).state = .valid) (hgen : keyGen key ≠ (s.win (keyIndex key)).gen) (destroy : Bool) :
    s.winRevoke fn key destroy = s.wincEnds fn .keyStale := by
  rw [State.winRevoke, if_neg (by simp [hindex, hvalid, hcount]), if_pos (.inr hgen)]

/-- The window that the end of a revocation makes of one that is being revoked or destroyed. -/
def Window.revoked (w : Window) (time : Nat) : Window :=
  if w.state = .destroying ∧ w.gen ≠ 1023 then { gen := w.gen, time := time }
  else { w with state := if w.state = .revoking then .valid else .retired, time := time, cmdFn := none, exhausts := false }

theorem Window.revoked_of_revoking {w : Window} (h : w.state = .revoking) (time : Nat) :
    (w.revoked time).state = .valid ∧ (w.revoked time).gen = w.gen := by
  simp [Window.revoked, h]

theorem Window.revoked_of_destroying {w : Window} (h : w.state = .destroying) (time : Nat) :
    (w.revoked time).state = if w.gen = 1023 then .retired else .free := by
  by_cases hlast : w.gen = 1023 <;> simp [Window.revoked, h, hlast]

/-- Once nothing that was admitted is left, the window is as the end of its revocation makes it, and the command that waits ends. -/
theorem State.revocationDone_drained {s : State} {i : Nat} (hstate : (s.win i).state = .revoking ∨ (s.win i).state = .destroying)
    (hdrained : s.draining i = false) :
    s.revocationDone i = (s.win i).cmdFn.elim (s.setWin i ((s.win i).revoked s.stamp)) fun fn =>
      (s.setWin i ((s.win i).revoked s.stamp)).wincEnds fn (if (s.win i).exhausts then .poolExhausted else .ok)
        (if (s.win i).state = .revoking then mkKey i (s.win i).gen else 0) := by
  have hgoes : ¬ (((s.win i).state ≠ .revoking ∧ (s.win i).state ≠ .destroying) ∨ s.draining i = true) := by
    rw [hdrained]
    rintro (⟨hrevoking, hdestroying⟩ | h)
    · exact hstate.elim hrevoking hdestroying
    · exact Bool.false_ne_true h
  rw [State.revocationDone, if_neg hgoes]
  rcases hstate with h | h
  · cases hcmd : (s.win i).cmdFn <;> simp [Window.revoked, h]
  · by_cases hlast : (s.win i).gen = 1023 <;> cases hcmd : (s.win i).cmdFn <;> simp [Window.revoked, h, hlast]

/-! ### Import records -/

/-- A first answer is awaited for a record that the function holds: WIN_QUERY goes over its QP. -/
theorem State.winImport_held {s : State} {fn key q : Nat} {m : Import} (hq : q = bits (s.fld F.wincArg0Value fn) 19 0)
    (howns : s.ownsQp fn q = true) (hroce : (s.qp q).roce = false) (hpeer : (s.qp q).peerNode = bits (s.fld F.wincArg0Value fn) 63 48)
    (hup : (s.qp q).up = true) (hrec : s.importOf fn (s.qp q).peerNode (keyIndex key) = some m) :
    s.winImport fn key =
      (({ s with imports := s.imports.map fun y => if y = m then { m with asked := some key, askQp := q } else y } : State).setFlag
        F.wincStatusBusy true fn).ctrlOut q { op := .winQuery, key := key, aliveRel := (s.qp q).relOut } := by
  subst hq
  rw [hpeer] at hrec
  simp [State.winImport, howns, hroce, hpeer, hup, hrec]

/-- Import records of one slot are dropped: no other window, register or byte changes. -/
theorem State.freeImports_kept {s : State} {p : Import → Bool} {slot : Nat} (hslot : ∀ r ∈ s.imports, p r = true → r.slot = slot) :
    (s.freeImports p).imports = s.imports.filter (fun r => !p r) ∧ (∀ j, j ≠ slot → (s.freeImports p).win j = s.win j) ∧
      (s.freeImports p).flds = s.flds ∧ (s.freeImports p).mem = s.mem := by
  have hfold {j : Nat} (hj : j ≠ slot) (l : List Import) (hl : ∀ r ∈ l, r.slot = slot) (t : State) :
      (l.foldl (fun (t : State) (r : Import) => t.setWin r.slot { t.win r.slot with time := t.stamp }) t).win j = t.win j := by
    induction l generalizing t with
    | nil => rfl
    | cons r l ih =>
      obtain ⟨hr, hl⟩ := List.forall_mem_cons.1 hl
      exact (ih hl _).trans (State.win_setWin_ne t r.slot _ (hr ▸ hj))
  refine ⟨foldl_keeps State.imports ?_ _ _, fun j hj => ?_, foldl_keeps State.flds ?_ _ _, foldl_keeps State.mem ?_ _ _⟩
  case refine_2 => exact hfold hj _ (fun r hr => hslot r (List.mem_of_mem_filter hr) (List.of_mem_filter hr)) _
  all_goals exact fun _ _ => rfl

theorem State.winForget_held {s : State} {fn key : Nat} {m : Import}
    (hrec : s.importOf fn (bits (s.fld F.wincArg0Value fn) 63 48) (keyIndex key) = some m) :
    s.winForget fn key = (s.freeImports (· == m)).wincEnds fn .ok := by
  simp only [State.winForget, hrec]

/-! ### QUERY -/

theorem State.winQueryCmd_owned {s : State} {fn key : Nat} (hheld : (s.win (keyIndex key)).held = true)
    (howner : (s.win (keyIndex key)).owner = fn) (hplace : s.ownHbm fn (s.fld F.wincArg0Value fn) 64 true = none) :
    s.winQueryCmd fn key = (s.hbmWrite (fgaOff (s.fld F.wincArg0Value fn)) (s.windowBytes (keyIndex key))).wincEnds fn
      (s.heldBack (fgaOff (s.fld F.wincArg0Value fn)) 64) := by
  simp only [State.winQueryCmd, hheld, howner, hplace, and_self, if_true]

/-- Settles O17: each command is what its effect says on an idle WINC. CREATE takes the lowest free index by the model's choice (log
entry 46). -/
theorem windowCommandsComplete : Obligations.WindowCommandsComplete := by
  refine ⟨?_, ?_, ?_, ?_, ?_, ?_, ?_, ?_, ?_⟩
  · intro s fn i hopen hidle hcheck hfree
    have hwin : ((s.setWin i (s.windowAsked fn i)).wincEnds fn .ok (mkKey i (s.win i).gen)).win i = s.windowAsked fn i :=
      (State.win_wincEnds _ fn .ok _ i).trans (s.win_setWin i _)
    refine ⟨_, State.ends_wincCmd hopen hidle (State.winCreate_ok hcheck hfree), by rw [hwin]; rfl, by rw [hwin]; rfl, by rw [hwin]; rfl,
      by rw [hwin]; rfl, by rw [hwin]; rfl, by rw [hwin]; rfl, by rw [hwin]; rfl, by rw [hwin]; rfl,
      fun j hj => (State.win_wincEnds _ _ _ _ j).trans (s.win_setWin_ne i _ hj), State.wincEnds_fail _ _ _ _, State.wincEnds_code _ _ _ _,
      State.wincEnds_key _ _ _ _, (regsKept_of_flds_eq _ rfl).wincEnds fn _ _, fun _ => rfl⟩
  · intro s fn key hopen hidle hindex hcount hvalid hgen howner hlast
    exact ⟨State.ends_wincCmd hopen hidle (State.winRevoke_begins hindex hcount hvalid hgen howner hlast false),
      State.ends_wincCmd hopen hidle (State.winRevoke_begins hindex hcount hvalid hgen howner hlast true)⟩
  · intro s fn key hopen hidle hindex hcount hvalid hgen
    exact ⟨State.ends_wincCmd hopen hidle (State.winRevoke_stale hindex hcount hvalid hgen false),
      State.ends_wincCmd hopen hidle (State.winRevoke_stale hindex hcount hvalid hgen true)⟩
  · intro s fn key q m hopen hidle hq howns hroce hpeer hup hrec
    exact State.ends_wincCmd hopen hidle (State.winImport_held hq howns hroce hpeer hup hrec)
  · intro s fn key m hopen hidle hrec
    obtain ⟨himports, hwins, hflds, hmem⟩ := State.freeImports_kept (s := s) (p := (· == m)) (slot := m.slot)
      fun r _ hr => congrArg Import.slot (eq_of_beq hr)
    exact ⟨_, State.ends_wincCmd hopen hidle (State.winForget_held hrec), himports, hwins, State.wincEnds_code _ _ _ _,
      (regsKept_of_flds_eq _ hflds).wincEnds fn _ _, memKept_of_mem_eq hmem⟩
  · intro s fn key hopen hidle hheld howner hplace
    exact State.ends_wincCmd hopen hidle (State.winQueryCmd_owned hheld howner hplace)
  · intro s i fn hstate hdrained hcmd hexhausts
    have heffect := State.revocationDone_drained (.inl hstate) hdrained
    rw [hcmd, hexhausts, if_pos hstate] at heffect
    obtain ⟨hvalid, hgen⟩ := Window.revoked_of_revoking hstate s.stamp
    exact ⟨_, congrArg s.ends heffect, (congrArg Window.state (s.win_setWin i _)).trans hvalid,
      (congrArg Window.gen (s.win_setWin i _)).trans hgen, fun j hj => s.win_setWin_ne i _ hj, State.wincEnds_busy _ _ _ _,
      State.wincEnds_code _ _ _ _, State.wincEnds_key _ _ _ _, (regsKept_of_flds_eq _ rfl).wincEnds fn _ _, fun _ => rfl⟩
  · intro s i hstate hdrained hcmd
    have heffect := State.revocationDone_drained (.inr hstate) hdrained
    rw [hcmd] at heffect
    exact ⟨_, congrArg s.ends heffect, (congrArg Window.state (s.win_setWin i _)).trans (Window.revoked_of_destroying hstate _),
      fun j hj => s.win_setWin_ne i _ hj, rfl, fun _ => rfl⟩
  · intro s i fn hstate hdrained hcmd
    have heffect := State.revocationDone_drained (.inr hstate) hdrained
    rw [hcmd] at heffect
    refine ⟨_, congrArg s.ends heffect, (congrArg Window.state (s.win_setWin i _)).trans (Window.revoked_of_destroying hstate _),
      fun j hj => s.win_setWin_ne i _ hj, State.wincEnds_busy _ _ _ _, (State.wincEnds_fail _ _ _ _).trans ?_, State.wincEnds_code _ _ _ _,
      (regsKept_of_flds_eq _ rfl).wincEnds fn _ _, fun _ => rfl⟩
    cases (s.win i).exhausts <;> rfl

end Machine
end Sys2Proof
end

section
/-! PROOFS. What taking a packet of the Sloale Transport leaves as it is: the context cache, the network meter, and ALIVE_REL with the
integrity channels that it lets fold (R177, R183, R200, R232, R235, R415). -/

namespace Sys2Proof
namespace Machine

/-! ### A packet whose context is on die -/

/-- The state in which a packet has been counted and has found its context, which is the most recently used. -/
def State.contextHit (s : State) (q : Nat) : State :=
  ((s.countWrap F.tpPipeRxPkts (q % 4)).setPipe (q % 4) ((s.pipe (q % 4)).use q)).countSat F.tpQpcCacheHits

/-- A packet that is taken at once finds its context, whatever head it would wait as. -/
theorem State.touch_of_takes {s : State} {q : Nat} {a : Arrival} (h : s.takes q a) {m : MissEntry} (hm : m.qp = q) :
    (s.countWrap F.tpPipeRxPkts (q % 4)).touch m = (true, s.contextHit q) := by
  obtain ⟨-, -, -, -, -, -, hmissing, hholds⟩ := h
  have hnone : ((s.pipe (q % 4)).miss.any fun e => e.qp == q) = false := hmissing
  have hpipe : (s.countWrap F.tpPipeRxPkts (q % 4)).pipe (q % 4) = s.pipe (q % 4) := rfl
  simp [State.contextHit, State.touch, hm, hpipe, hnone, hholds]

theorem State.contextUsed_of_takes {s : State} {q : Nat} {a : Arrival} (h : s.takes q a) : s.contextUsed q = s.contextHit q :=
  congrArg Prod.snd (State.touch_of_takes h (m := { qp := q }) rfl)

/-- Registers that count the packets received and the hits of the context cache. -/
def contextRegs : List Reg := [.tpPipeRx, .tpQpcCache]

theorem State.contextHit_rest (s : State) (q : Nat) :
    s.contextHit q = { s with flds := (s.contextHit q).flds, pipes := (s.contextHit q).pipes } := rfl

theorem State.regsKept_contextHit (s : State) (q : Nat) : regsKept contextRegs s (s.contextHit q) := by
  have hcounted : regsKept contextRegs s (s.countWrap F.tpPipeRxPkts (q % 4)) := regsKept_setFld s (by decide) _ _ 0 (by decide)
  exact hcounted.trans (regsKept_setFld _ (by decide) _ 0 0 (by decide))

/-! ### The network meter -/

/-- What the meter lets pass it has coloured, and may have recorded as a mark. -/
theorem State.netMeter_passed {s v : State} {q : Nat} {a : Arrival} {n : Nat} (h : (s.netMeter q a n).1 = some v) :
    v = (s.police (s.qp q).owner 1 (s.preColour a) n).2 ∨ v = (s.police (s.qp q).owner 1 (s.preColour a) n).2.recordMark q := by
  unfold State.netMeter at h
  dsimp only at h
  split at h
  · exact .inl (Option.some.inj h).symm
  · have hv := (Option.some.inj h).symm
    split at hv
    · exact .inr hv
    · exact .inl hv
  · split at h
    · exact .inr (Option.some.inj h).symm
    · exact absurd h (by simp)

theorem State.recordMark_slt {s : State} {q : Nat} (h : (s.qp q).roce = false) :
    s.recordMark q = s.setQp q { s.qp q with ceSeen := true } :=
  if_pos (by rw [h]; rfl)

/-- The meter takes no connection down. -/
theorem State.netMeter_up {s v : State} {q : Nat} {a : Arrival} {n : Nat} (hslt : (s.qp q).roce = false)
    (h : (s.netMeter q a n).1 = some v) : (v.qp q).up = (s.qp q).up := by
  obtain ⟨m, f, -, -, hpolice⟩ := s.police_eq_countSat (s.qp q).owner 1 (s.preColour a) n
  have hkept : (s.police (s.qp q).owner 1 (s.preColour a) n).2.qp q = s.qp q := by rw [hpolice]; rfl
  rcases State.netMeter_passed h with rfl | rfl
  · rw [hkept]
  · rw [State.recordMark_slt (by rw [hkept, hslt]), State.qp_setQp, hkept]
    rfl

/-! ### The integrity channels of a QP -/

/-- The registers of the integrity channels that folding writes. -/
def channelRegs : List Reg := [.intIcStatus, .intIcCount, .intIcRunning, .intIcResult]

/-- The state but for the integrity channels, register fields, and what leaves the device. -/
def State.butChannels (s : State) : State := { s with prot := {}, flds := [], msix := [], out := [], bw := [] }

/-- Integrity channels have folded: registers other than theirs are kept, and of the rest of the state all but their streams and what leaves
the device. -/
structure folded (s t : State) : Prop where
  regs : regsKept channelRegs s t
  rest : t.butChannels = s.butChannels

theorem folded.trans {s t u : State} (h₁ : folded s t) (h₂ : folded t u) : folded s u :=
  ⟨h₁.regs.trans h₂.regs, h₂.rest.trans h₁.rest⟩

theorem folded_refl (s : State) : folded s s := ⟨regsKept_refl _ s, rfl⟩

theorem folded_foldl {α : Type} {f : State → α → State} (h : ∀ t x, folded t (f t x)) (l : List α) (s : State) :
    folded s (l.foldl f s) :=
  ⟨regsKept_foldl (fun t x => (h t x).regs) l s, foldl_keeps State.butChannels (fun t x => (h t x).rest) l s⟩

theorem folded_setFld (s : State) {f : Fld} (hreg : f.reg ∈ channelRegs) (hpos : f.pos 0 < 64) (v o : Nat) : folded s (s.setFld f v o) :=
  ⟨regsKept_setFld s hreg v o 0 hpos, rfl⟩

theorem folded_setChan (s : State) (ch : Nat) (x : Chan) : folded s (s.setChan ch x) := by
  have hprot : folded s { s with prot := { s.prot with chans := AMap.save {} s.prot.chans ch x } } := ⟨regsKept_of_flds_eq _ rfl, rfl⟩
  exact (hprot.trans (folded_setFld (f := F.intIcStatusState) _ (by decide) (by decide) _ ch)).trans
    (folded_setFld (f := F.intIcStatusExpDepth) _ (by decide) (by decide) _ ch)

theorem folded_signal (s : State) (fn vec : Nat) : folded s (s.signal fn vec) :=
  ⟨regsKept_of_flds_eq _ (by simp), by have h := congrArg State.butChannels (s.signal_rest fn vec); exact h⟩

theorem folded_icFlag (s : State) (ch : Nat) {f : Fld} (hreg : f.reg ∈ channelRegs) (hpos : f.pos 0 < 64) (halts : Bool) :
    folded s (s.icFlag ch f halts) := by
  have hset := folded_setFld s hreg hpos (b2n true) ch
  unfold State.icFlag
  extract_lets t u x
  have htold : folded s u := by
    dsimp only [u]
    split
    · exact hset.trans (folded_signal _ _ _)
    · exact hset
  split
  · exact htold.trans (folded_setChan _ _ _)
  · exact htold

theorem folded_icAlive (s : State) (ch v : Nat) : folded s (s.icAlive ch v) := by
  have hset : folded s ((s.setFld F.intIcCountLastAlive v ch).setFlag F.intIcCountAliveValid true ch) :=
    (folded_setFld s (by decide) (by decide) v ch).trans (folded_setFld _ (by decide) (by decide) _ ch)
  unfold State.icAlive
  extract_lets last valid t
  split
  · exact hset
  · split <;> exact hset.trans (folded_icFlag _ ch (by decide) (by decide) false)

theorem folded_icUnit (s : State) (ch reg : Nat) : folded s (s.icUnit ch reg) := by
  unfold State.icUnit
  extract_lets poly r t x
  have ht : folded s t := (folded_setFld s (by decide) (by decide) _ ch).trans (folded_setFld _ (by decide) (by decide) _ ch)
  split
  · exact ht.trans (folded_icFlag _ ch (by decide) (by decide) false)
  · next l v es hexps =>
    extract_lets u w
    have hw : folded s w := ((ht.trans (folded_setChan _ ch _)).trans (folded_setFld _ (by decide) (by decide) _ ch)).trans
      (folded_setFld _ (by decide) (by decide) _ ch)
    by_cases hmatch : r = if poly = true then v else v % 2 ^ 32
    · rw [if_pos hmatch]
      exact hw
    · rw [if_neg hmatch]
      exact hw.trans (folded_icFlag _ ch (by decide) (by decide) false)

theorem folded_icByte (s : State) (ch : Nat) (b : Byte) : folded s (s.icByte ch b) := by
  unfold State.icByte
  extract_lets x n poly reg len t u
  split
  · exact folded_setFld s (by decide) (by decide) _ ch
  · have ht : folded s t := (folded_setFld s (by decide) (by decide) reg ch).trans (folded_setChan _ ch _)
    split
    · exact ht.trans (folded_setFld _ (by decide) (by decide) _ ch)
    · refine folded.trans ?_ (folded_icUnit u ch reg)
      dsimp only [u]
      split
      · exact ht.trans (folded_icAlive _ ch _)
      · exact ht

theorem folded_icFoldN (s : State) (ch : Nat) (ready : Nat → Bool) (n : Nat) : folded s (s.icFoldN ch ready n) := by
  induction n generalizing s with
  | zero => exact folded_refl s
  | succ n ih =>
    unfold State.icFoldN
    dsimp only
    split
    · split
      · exact ((folded_setChan s ch _).trans (folded_foldl (fun t b => folded_icByte t ch b) _ _)).trans (ih _)
      · exact folded_refl s
    · exact folded_refl s

theorem folded_icFold (s : State) (ch : Nat) (ready : Nat → Bool) : folded s (s.icFold ch ready) := by
  have hn := folded_icFoldN s ch ready (s.chan ch).ops.length
  unfold State.icFold
  extract_lets t x
  split
  · exact hn.trans (folded_setChan _ ch _)
  · split
    · exact hn.trans (folded_icFlag _ ch (by decide) (by decide) true)
    · exact hn

theorem folded_tgtFold (s : State) (q : Nat) : folded s (s.tgtFold q) :=
  folded_foldl (fun t ch => folded_icFold t ch _) _ s

/-! ### ALIVE_REL -/

/-- ALIVE_REL of a packet is taken: its QP is the same but for what was kept for the operations released. -/
theorem State.takeRel_folded (s : State) (q : Nat) (p : SltPkt) :
    folded (s.setQp q ((s.qp q).release p.aliveRel)) (s.takeRel q p) :=
  folded_tgtFold _ q

theorem State.takeRel_qps (s : State) (q : Nat) (p : SltPkt) : (s.takeRel q p).qps = (s.setQp q ((s.qp q).release p.aliveRel)).qps := by
  have hrest := (s.takeRel_folded q p).rest
  exact (congrArg State.qps hrest : (s.takeRel q p).butChannels.qps = _)

theorem State.takeRel_qp (s : State) (q : Nat) (p : SltPkt) : (s.takeRel q p).qp q = (s.qp q).release p.aliveRel := by
  rw [State.qp, s.takeRel_qps q p]
  exact s.qp_setQp q _

theorem Qp.release_kept (x : Qp) (rel : Nat) :
    (x.release rel).up = x.up ∧ (x.release rel).cum = x.cum ∧ (x.release rel).owner = x.owner ∧ (x.release rel).user = x.user := by
  unfold Qp.release
  split <;> exact ⟨rfl, rfl, rfl, rfl⟩

end Machine
end Sys2Proof
end

section
/-! PROOFS. Packets of the Sloale Transport that are taken at once (R158, R159, R180 to R207; log entries 15 and 51). -/

namespace Sys2Proof
namespace Machine

/-! ### From the arrival to the effect -/

/-- A packet that arrives while its pipeline takes heads and its context is on die is used at once. -/
theorem State.sltArrive_taken {s : State} {p : SltPkt} {a : Arrival} (h : s.takes p.dstQp a)
    (hbusy : s.headBusy { qp := p.dstQp, pkt := some (p, a) } = false) : s.sltArrive p a = (s.contextUsed p.dstQp).sltTake p a := by
  have htouch := State.touch_of_takes h (m := { qp := p.dstQp, pkt := some (p, a) }) rfl
  rw [State.contextUsed_of_takes h]
  obtain ⟨hopen, hroom, hrecovers, hheads, hformed, hwire, -, -⟩ := h
  have hbefore : s.headBefore { qp := p.dstQp, pkt := some (p, a) } = false := by simp [State.headBefore, hheads]
  have hpkt : arrivingSlt p a = some p := by simp [arrivingSlt, hformed, hwire]
  simp only [State.sltArrive, hopen, State.takesHeads, hroom, hrecovers, hbefore, hbusy, State.sltAccept, hpkt, htouch]
  rfl

/-- Whether a QP in a state takes packets of a kind from its peer (R183). -/
def Qp.takesKind (x : Qp) (op : SltOp) : Bool :=
  match op with
  | .connect => x.state == .init || x.state == .connecting
  | .accept => x.state == .connecting
  | .refuse => x.state == .connecting
  | _ => x.up || x.state == .error

/-- A plain packet of a kind that its QP takes, that the meter lets pass where it is metered, has its effect. -/
theorem State.sltTake_plain {s v : State} {p : SltPkt} {a : Arrival} (hpeer : (s.qp p.dstQp).fromPeer p = true)
    (hkind : (s.qp p.dstQp).takesKind p.op = true) (henc : p.enc = false) (hqenc : (s.qp p.dstQp).enc = false) (hce : a.ce = false)
    (hmeter : (if sltType p.op < 2 then s.netMeter p.dstQp a (sltBytes p) else (some s, s)).1 = some v) :
    s.sltTake p a = v.sltEffect p := by
  have hmatched : ((s.qp p.dstQp).fromPeer p && (s.qp p.dstQp).takesKind p.op) = true := by rw [hpeer, hkind]; rfl
  unfold State.sltTake
  refine (if_neg fun hn => Bool.false_ne_true ((congrArg (! ·) hmatched).symm.trans hn)).trans ?_
  rw [if_neg (by simp [henc, hqenc]), if_neg (by simp [henc])]
  simp only [hmeter, hce, henc, Bool.false_eq_true, if_false, false_and]

theorem State.sltEffect_request {s : State} {p : SltPkt} (h : sltRequest p.op = true) : s.sltEffect p = s.tgtRequest p.dstQp p := by
  unfold State.sltEffect
  split <;> simp_all [sltRequest]

theorem State.sltEffect_response {s : State} {p : SltPkt} (h : sltResponse p.op = true) (hup : (s.qp p.dstQp).up = true) :
    s.sltEffect p = (s.takeRel p.dstQp p).reqResponse p.dstQp p := by
  unfold State.sltEffect
  split <;> simp_all [sltResponse]

/-! ### The state in which a packet has its effect -/

theorem State.qp_contextUsed {s : State} {q : Nat} {a : Arrival} (h : s.takes q a) (x : Nat) : (s.contextUsed q).qp x = s.qp x := by
  rw [State.contextUsed_of_takes h]
  rfl

theorem State.mem_contextUsed {s : State} {q : Nat} {a : Arrival} (h : s.takes q a) : (s.contextUsed q).mem = s.mem := by
  rw [State.contextUsed_of_takes h]
  rfl

theorem State.dev_contextUsed {s : State} {q : Nat} {a : Arrival} (h : s.takes q a) : (s.contextUsed q).dev = s.dev := by
  rw [State.contextUsed_of_takes h]
  rfl

/-- A packet has been counted and its ALIVE_REL taken: windows, imports and memory are kept, and the QP but for what it kept for the
operations released. -/
structure relTaken (s t : State) (q rel : Nat) : Prop where
  regs : regsKept (contextRegs ++ channelRegs) s t
  fuses : t.fuses = s.fuses
  wins : t.win = s.win
  imports : t.imports = s.imports
  mem : t.mem = s.mem
  qp : t.qp q = (s.qp q).release rel

theorem State.relTaken_contextUsed {s : State} {q : Nat} {a : Arrival} (h : s.takes q a) (p : SltPkt) :
    relTaken s ((s.contextUsed q).takeRel q p) q p.aliveRel := by
  have hqp := (s.contextUsed q).takeRel_qp q p
  rw [State.qp_contextUsed h] at hqp
  have hfolded := (s.contextUsed q).takeRel_folded q p
  have hcontext := State.contextUsed_of_takes h
  generalize (s.contextUsed q).takeRel q p = t at hqp hfolded
  obtain ⟨hregs, hrest⟩ := hfolded
  rw [hcontext] at hregs hrest
  have hset : regsKept (contextRegs ++ channelRegs) s ((s.contextHit q).setQp q (((s.contextHit q).qp q).release p.aliveRel)) :=
    (s.regsKept_contextHit q).mono (by simp)
  exact ⟨hset.trans (hregs.mono (by simp)), (congrArg State.fuses hrest : t.butChannels.fuses = _),
    (congrArg State.win hrest : t.butChannels.win = _), (congrArg State.imports hrest : t.butChannels.imports = _),
    (congrArg State.mem hrest : t.butChannels.mem = _), hqp⟩

section
variable {s t : State} {q rel : Nat} (h : relTaken s t q rel)
include h

theorem relTaken.granted (w : Window) (u : User) : t.granted w u = s.granted w u := by
  have hnode := State.nodeId_of_regsKept h.regs (by decide)
  have hmanager := State.isManager_of_regsKept h.regs (by decide) (by decide) h.fuses
  simp only [State.granted, hnode, hmanager]

theorem relTaken.asking : t.asking q = s.asking q := by
  obtain ⟨-, -, howner, -⟩ := (s.qp q).release_kept rel
  simp only [State.asking, h.imports, h.qp, howner]

end

/-! ### Kinds of packets -/

/-- The kinds that a connected QP takes and that pass no meter. -/
def upKinds : List SltOp := [.ack, .nak, .waiting, .close, .resetNotice, .pathProbe, .winQuery, .winInfo]

theorem sltType_of_mem_upKinds : ∀ op ∈ upKinds, ¬ sltType op < 2 := by decide

theorem Qp.takesKind_of_up {x : Qp} (hup : x.up = true) : ∀ op ∈ upKinds, x.takesKind op = true := by
  simp [upKinds, Qp.takesKind, hup]

section
variable {s : State} {p : SltPkt} {a : Arrival} (h : s.takesSlt p a)
include h

/-- What a plain packet does that its QP takes. -/
theorem State.takesSlt.arrives {u v : State} (hkind : (s.qp p.dstQp).takesKind p.op = true)
    (hmeter : (if sltType p.op < 2 then (s.contextUsed p.dstQp).netMeter p.dstQp a (sltBytes p)
      else (some (s.contextUsed p.dstQp), s.contextUsed p.dstQp)).1 = some v) (heffect : v.sltEffect p = u) :
    s.sltArrive p a = u := by
  obtain ⟨htakes, hbusy, hpeer, henc, hqenc, hce⟩ := h
  have hqp := State.qp_contextUsed htakes p.dstQp
  rw [State.sltArrive_taken htakes hbusy, ← heffect]
  exact State.sltTake_plain (by rw [hqp, hpeer]) (by rw [hqp, hkind]) henc (by rw [hqp, hqenc]) hce hmeter

/-- Acknowledgements and control packets pass no meter. -/
theorem State.takesSlt.arrives_unmetered {u : State} {op : SltOp} (hop : p.op = op) (htype : ¬ sltType op < 2)
    (hkind : (s.qp p.dstQp).takesKind op = true) (heffect : (s.contextUsed p.dstQp).sltEffect p = u) :
    s.ends (s.sltOf (p.op == op) p a) = .next (s.finished u) := by
  subst hop
  rw [State.sltOf, if_pos (beq_self_eq_true p.op)]
  exact congrArg s.ends (h.arrives hkind (by rw [if_neg htype]) heffect)

theorem State.takesSlt.arrives_up {u : State} {op : SltOp} (hop : p.op = op) (hkind : op ∈ upKinds) (hup : (s.qp p.dstQp).up = true)
    (heffect : ((s.contextUsed p.dstQp).qp p.dstQp).up = true → (s.contextUsed p.dstQp).sltEffect p = u) :
    s.ends (s.sltOf (p.op == op) p a) = .next (s.finished u) :=
  h.arrives_unmetered hop (sltType_of_mem_upKinds op hkind) (Qp.takesKind_of_up hup op hkind)
    (heffect ((congrArg Qp.up (State.qp_contextUsed h.1 p.dstQp)).trans hup))

theorem State.takesSlt.arrives_request {v : State} (hreq : sltRequest p.op = true) (hup : (s.qp p.dstQp).up = true)
    (hmeter : ((s.contextUsed p.dstQp).netMeter p.dstQp a (sltBytes p)).1 = some v) : s.sltArrive p a = v.tgtRequest p.dstQp p := by
  have hkind : (s.qp p.dstQp).takesKind p.op = true ∧ sltType p.op < 2 := by
    cases hop : p.op <;> simp_all [sltRequest, Qp.takesKind, sltType]
  exact h.arrives hkind.1 (by rw [if_pos hkind.2, hmeter]) (State.sltEffect_request hreq)

theorem State.takesSlt.arrives_response {v : State} (hresp : sltResponse p.op = true) (hup : (s.qp p.dstQp).up = true)
    (hmeter : ((s.contextUsed p.dstQp).netMeter p.dstQp a (sltBytes p)).1 = some v) :
    s.sltArrive p a = (v.takeRel p.dstQp p).reqResponse p.dstQp p := by
  have hkind : (s.qp p.dstQp).takesKind p.op = true ∧ sltType p.op < 2 := by
    cases hop : p.op <;> simp_all [sltResponse, Qp.takesKind, sltType]
  have hqp := State.qp_contextUsed h.1 p.dstQp
  have hslt : (s.qp p.dstQp).roce = false := by
    obtain ⟨-, -, hpeer, -⟩ := h
    simp only [Qp.fromPeer, Bool.and_eq_true, Bool.not_eq_true'] at hpeer
    exact hpeer.1.1.2
  have hstays : (v.qp p.dstQp).up = true := by rw [State.netMeter_up (by rw [hqp, hslt]) hmeter, hqp, hup]
  exact h.arrives hkind.1 (by rw [if_pos hkind.2, hmeter]) (State.sltEffect_response hresp hstays)

end

/-! ### Connections -/

theorem State.takeConnect_init {s : State} {p : SltPkt} (hinit : (s.qp p.dstQp).state = .init) (hpeer : (s.qp p.dstQp).fromPeer p = true)
    (henc : (s.qp p.dstQp).enc = p.enc) :
    s.takeConnect p = if s.dev.state = .service then
        (s.connected p.dstQp p).ctrlOut p.dstQp (((s.connected p.dstQp p).qp p.dstQp).hello .accept)
      else s.refuse p.dstQp .notReady := by
  rw [State.takeConnect, if_neg (by simp [hinit, hpeer])]
  by_cases hserves : s.dev.state = .service
  · rw [if_neg (by simp [hserves]), if_neg (by simp [henc]), if_pos hserves]
  · rw [if_pos hserves, if_neg hserves]

theorem State.takesSlt.connects {s : State} {p : SltPkt} {a : Arrival} (h : s.takesSlt p a) (hop : p.op = .connect)
    (hinit : (s.qp p.dstQp).state = .init) :
    exec (.connect p a) s = .next (s.finished (if s.dev.state = .service then
        ((s.contextUsed p.dstQp).connected p.dstQp p).ctrlOut p.dstQp
          ((((s.contextUsed p.dstQp).connected p.dstQp p).qp p.dstQp).hello .accept)
      else (s.contextUsed p.dstQp).refuse p.dstQp .notReady)) := by
  have ⟨htakes, _, hpeer, henc, hqenc, _⟩ := h
  have hqp := State.qp_contextUsed htakes p.dstQp
  have heffect := State.takeConnect_init (s := s.contextUsed p.dstQp) (p := p) (by rw [hqp, hinit]) (by rw [hqp, hpeer])
    (by rw [hqp, hqenc, henc])
  rw [State.dev_contextUsed htakes] at heffect
  refine h.arrives_unmetered hop (by decide) (by simp [Qp.takesKind, hinit]) ?_
  rw [State.sltEffect, hop]
  exact heffect

/-- A connection that is refused for another reason than NOT_READY is not tried again. -/
theorem State.takesSlt.refused {s : State} {p : SltPkt} {a : Arrival} (h : s.takesSlt p a) (hop : p.op = .refuse)
    (hconnecting : (s.qp p.dstQp).state = .connecting) (hstatus : p.status ≠ Status.notReady.code) :
    exec (.refuse p a) s = .next (s.finished ((s.contextUsed p.dstQp).setQp p.dstQp
      { (s.contextUsed p.dstQp).qp p.dstQp with
        state := .init, lastStatus := p.status % 256, time := (s.contextUsed p.dstQp).stamp })) := by
  refine h.arrives_unmetered hop (by decide) (by simp [Qp.takesKind, hconnecting]) ?_
  rw [State.sltEffect, hop]
  exact (if_pos (by rw [State.qp_contextUsed h.1, hconnecting])).trans (if_neg hstatus)

/-! ### Windows asked for -/

/-- A permitted user of a valid window is told its range and rights; the coding of grant and rights is the model's choice (log entry 51). -/
theorem State.takeWinQuery_permitted {t : State} {q : Nat} {p : SltPkt} (hindex : keyIndex p.key ≠ 0) (hcount : keyIndex p.key < winCount)
    (hvalid : (t.win (keyIndex p.key)).state = .valid) (hgen : keyGen p.key = (t.win (keyIndex p.key)).gen)
    (hgranted : t.granted (t.win (keyIndex p.key)) (t.qp q).user = true) :
    t.takeWinQuery q p = t.sltOut q
      { op := .winInfo, path := p.path, aliveRel := (t.qp q).relOut, a := (t.win (keyIndex p.key)).base,
        b := (t.win (keyIndex p.key)).len,
        mode := (t.win (keyIndex p.key)).grant * 4 + b2n (t.win (keyIndex p.key)).w * 2 + b2n (t.win (keyIndex p.key)).r } := by
  rw [State.takeWinQuery, if_neg (by simp [hindex, hvalid, hcount]), if_neg (by simp [hvalid, hgen]), if_neg (by simp [hgranted])]

/-- A connected QP answers WIN_QUERY once ALIVE_REL is taken. -/
theorem State.takesSlt.answers {s u : State} {p : SltPkt} {a : Arrival} (h : s.takesSlt p a) (hop : p.op = .winQuery)
    (hup : (s.qp p.dstQp).up = true) (hanswer : ((s.contextUsed p.dstQp).takeRel p.dstQp p).takeWinQuery p.dstQp p = u) :
    exec (.winQuery p a) s = .next (s.finished u) := by
  refine h.arrives_up hop (by decide) hup fun hstays => ?_
  rw [State.sltEffect, hop]
  exact (if_pos hstays).trans hanswer

theorem State.takeWinQuery_invalid {t : State} {q : Nat} {p : SltPkt}
    (h : keyIndex p.key = 0 ∨ winCount ≤ keyIndex p.key ∨ (t.win (keyIndex p.key)).state = .free) :
    t.takeWinQuery q p = t.sltOut q
      { op := .nak, psn := (t.qp q).cum, status := Status.keyInvalid.code, path := p.path, aliveRel := (t.qp q).relOut } := by
  rw [State.takeWinQuery, if_pos h]

/-- The import record that WIN_INFO makes of the one that waits for it. -/
def Import.answered (r : Import) (p : SltPkt) (stamp : Nat) : Import :=
  { r with state := .imported, key := r.asked.getD 0, base := p.a, len := p.b, w := bit p.mode 1, r := bit p.mode 0,
           grant := bits p.mode 3 2, qp := r.askQp, asked := none, time := if r.state = .imported then r.time else stamp }

theorem State.takeWinInfo_asked {t : State} {q : Nat} {r : Import} (hasks : t.asking q = some r) (p : SltPkt) :
    (t.takeWinInfo q p).imports =
        t.imports.map (fun y => if y.fn = r.fn ∧ y.node = r.node ∧ y.index = r.index then r.answered p t.stamp else y) ∧
      (t.takeWinInfo q p).flag F.wincStatusBusy r.fn = false ∧
      (t.takeWinInfo q p).fld F.wincStatusCode r.fn = Status.ok.code ∧ (t.takeWinInfo q p).mem = t.mem := by
  rw [State.takeWinInfo, hasks]
  refine ⟨rfl, ?_, ?_, rfl⟩
  · rw [State.flag, fld_setFld_ne (by decide), fld_setFld_ne (by decide), State.setFlag, fld_setFld_ne (by decide)]
    exact State.flag_setFlag _ F.wincStatusBusy false r.fn 0 rfl
  · rw [fld_setFld_ne (by decide), fld_setFld_self]
    rfl

/-! ### Packets that are not from the peer -/

/-- An acknowledgement makes no access to HBM. -/
theorem State.headBusy_ack (s : State) {p : SltPkt} (hop : p.op = .ack) (a : Arrival) (hformed : a.malformed = false)
    (hwire : a.wire = none) : s.headBusy { qp := p.dstQp, pkt := some (p, a) } = false := by
  simp [State.headBusy, arrivingSlt, hformed, hwire, State.pktBusy, State.earlyPlace, hop]

/-- An acknowledgement that is not from the peer of its QP is dropped and counted (R183). -/
theorem State.sltArrive_otherPeer {s : State} {p : SltPkt} {a : Arrival} (hop : p.op = .ack) (h : s.takes p.dstQp a)
    (hother : (s.qp p.dstQp).fromPeer p = false) : s.sltArrive p a = (s.contextUsed p.dstQp).dropMatch p.dstQp := by
  have ⟨_, _, _, _, hformed, hwire, _, _⟩ := h
  rw [State.sltArrive_taken h (s.headBusy_ack hop a hformed hwire), State.sltTake]
  exact if_pos (by rw [State.qp_contextUsed h, hother]; rfl)

/-! ### The packets together -/

/-- Settles O22: a packet that is taken at once has its effect in the state in which its context has been used, a metered one once the
meter lets it pass. The path of an answer and the coding of WIN_INFO's grant and rights are the model's choices (log entries 15 and 51). -/
theorem transportPacketsTakeEffect : Obligations.TransportPacketsTakeEffect := by
  refine ⟨?_, ?_, ?_, ?_, ?_, ?_, ?_, ?_, ?_, ?_, ?_⟩
  · intro s v p a hreq h hup hmeter
    exact congrArg s.ends ((if_pos hreq).trans (h.arrives_request hreq hup hmeter))
  · intro s v p a hresp h hup hmeter
    exact congrArg s.ends ((if_pos hresp).trans (h.arrives_response hresp hup hmeter))
  · intro s p a h hup
    refine ⟨?_, ?_, ?_, ?_, ?_, ?_⟩
    all_goals
      intro hop
      refine h.arrives_up hop (by decide) hup fun hstays => ?_
      rw [State.sltEffect, hop]
      exact if_pos hstays
  · intro s p a hop h hinit hserves
    exact (h.connects hop hinit).trans (by rw [if_pos hserves])
  · intro s p a hop h hinit hserves
    exact (h.connects hop hinit).trans (by rw [if_neg hserves])
  · intro s p a hop h hconnecting
    refine h.arrives_unmetered hop (by decide) (by simp [Qp.takesKind, hconnecting]) ?_
    rw [State.sltEffect, hop]
    exact if_pos (by rw [State.qp_contextUsed h.1, hconnecting])
  · intro s p a hop h hconnecting hstatus
    exact ⟨_, h.refused hop hconnecting hstatus, congrArg Qp.state (State.qp_setQp _ p.dstQp _),
      congrArg Qp.lastStatus (State.qp_setQp _ p.dstQp _),
      fun q hq => (State.qp_setQp_ne _ p.dstQp _ hq).trans (State.qp_contextUsed h.1 q), memKept_of_mem_eq (State.mem_contextUsed h.1)⟩
  · intro s t p a hop h hup ht hindex hcount hvalid hgen hgranted
    have hrel : relTaken s t p.dstQp p.aliveRel := ht ▸ State.relTaken_contextUsed h.1 p
    obtain ⟨-, -, -, huser⟩ := (s.qp p.dstQp).release_kept p.aliveRel
    have hanswer := State.takeWinQuery_permitted (t := t) (q := p.dstQp) (p := p) hindex hcount (by rw [hrel.wins, hvalid])
      (by rw [hrel.wins, hgen]) (by rw [hrel.wins, hrel.granted, hrel.qp, huser, hgranted])
    rw [hrel.wins] at hanswer
    exact h.answers hop hup (ht ▸ hanswer)
  · intro s t p a hop h hup ht hinvalid
    have hrel : relTaken s t p.dstQp p.aliveRel := ht ▸ State.relTaken_contextUsed h.1 p
    obtain ⟨-, hcum, -, -⟩ := (s.qp p.dstQp).release_kept p.aliveRel
    have hanswer := State.takeWinQuery_invalid (t := t) (q := p.dstQp) (p := p) (by rw [hrel.wins]; exact hinvalid)
    rw [show (t.qp p.dstQp).cum = (s.qp p.dstQp).cum by rw [hrel.qp, hcum]] at hanswer
    exact h.answers hop hup (ht ▸ hanswer)
  · intro s p a r hop h hup hasks
    have hrel := State.relTaken_contextUsed h.1 p
    obtain ⟨himports, hbusy, hcode, hmem⟩ := State.takeWinInfo_asked (hrel.asking.trans hasks) p
    rw [hrel.imports] at himports
    refine ⟨_, h.arrives_up hop (by decide) hup fun hstays => ?_, hbusy, hcode, ?_, ?_,
      memKept_of_mem_eq (hmem.trans hrel.mem)⟩
    · rw [State.sltEffect, hop]
      exact if_pos hstays
    · intro y hy hkept
      rw [himports]
      exact List.mem_map.2 ⟨y, hy, if_neg hkept⟩
    · rw [himports]
      exact ⟨_, List.mem_map.2 ⟨r, List.mem_of_find?_eq_some hasks, if_pos ⟨rfl, rfl, rfl⟩⟩,
        rfl, rfl, rfl, rfl, rfl, rfl, rfl, rfl, rfl⟩
  · intro s p a hop h hother
    have hcounter : (s.contextUsed p.dstQp).fld F.tpPipeCntDropMatch (p.dstQp % 4) = s.fld F.tpPipeCntDropMatch (p.dstQp % 4) := by
      rw [State.contextUsed_of_takes h]
      exact s.regsKept_contextHit p.dstQp F.tpPipeCntDropMatch (p.dstQp % 4) 0 (by decide) (by decide)
    have hops : (p.op == .ack) = true := by rw [hop]; rfl
    refine ⟨_, congrArg s.ends ((if_pos hops).trans (State.sltArrive_otherPeer hop h hother)), ?_, ?_,
      memKept_of_mem_eq (State.mem_contextUsed h)⟩
    · rw [State.dropMatch, State.countSat, fld_setFld_self, hcounter]
    · rw [State.contextUsed_of_takes h]
      rfl

end Machine
end Sys2Proof
end

section
/-! PROOFS. RoCEv2 packets that are taken at once (R208, R210, R216). -/

namespace Sys2Proof
namespace Machine

/-- A RoCEv2 packet that arrives while its pipeline takes heads and its context is on die is used at once. -/
theorem State.roceArrive_taken {s : State} {p : RocePkt} {a : Arrival} (h : s.takesRoce p a) :
    s.roceArrive p a = (s.contextUsed p.dstQp).roceTake p a := by
  obtain ⟨htakes, hbusy, -⟩ := h
  have htouch := State.touch_of_takes htakes (m := { qp := p.dstQp, roce := some (p, a) }) rfl
  rw [State.contextUsed_of_takes htakes]
  obtain ⟨hopen, hroom, hrecovers, hheads, hformed, hwire, -, -⟩ := htakes
  have hbefore : s.headBefore { qp := p.dstQp, roce := some (p, a) } = false := by simp [State.headBefore, hheads]
  have hpkt : arrivingRoce p a = some p := by simp [arrivingRoce, hformed, hwire]
  simp only [State.roceArrive, hopen, State.takesHeads, hroom, hrecovers, hbefore, hbusy, State.roceAccept, hpkt, htouch]
  rfl

/-- The kinds of RoCEv2 packets that pass the network meter. -/
def roceMetered (op : RoceOp) : Bool := roceIsRequest op || op == .readResp || op == .atomicAck

section
variable {s v : State} {p : RocePkt} {a : Arrival} (h : s.takesRoce p a)
include h

/-- What a RoCEv2 packet does that is no CNP, once the meter lets it pass where it is metered. -/
theorem State.takesRoce.arrives (hop : p.op ≠ .cnp)
    (hmeter : (if roceMetered p.op then (s.contextUsed p.dstQp).netMeter p.dstQp a (roceBytes p)
      else (some (s.contextUsed p.dstQp), s.contextUsed p.dstQp)).1 = some v) :
    s.roceArrive p a = if roceIsRequest p.op then v.roceRequest p.dstQp p else v.roceResponse p.dstQp p := by
  rw [State.roceArrive_taken h]
  obtain ⟨htakes, -, hroce, hup, hcrc, hce⟩ := h
  have hqp := State.qp_contextUsed htakes p.dstQp
  unfold roceMetered at hmeter
  unfold State.roceTake
  rw [if_neg (by simp [hqp, hroce, hup]), if_neg (by simp [hcrc]), if_neg hop]
  simp only [hmeter, hce, Bool.false_eq_true, if_false, false_and]

/-- A CNP of a QP whose profile has ECN_EN set counts as a mark. -/
theorem State.takesRoce.marks (hop : p.op = .cnp) (hecn : (s.prof p.dstQp).ecnEn = true) :
    s.roceArrive p a = (s.contextUsed p.dstQp).markEvent p.dstQp true true := by
  rw [State.roceArrive_taken h]
  obtain ⟨htakes, -, hroce, hup, hcrc, -⟩ := h
  have hqp := State.qp_contextUsed htakes p.dstQp
  have hprof : (s.contextUsed p.dstQp).prof p.dstQp = s.prof p.dstQp := by
    have hrate : (s.contextUsed p.dstQp).rateCtl p.dstQp = s.rateCtl p.dstQp := by
      rw [State.contextUsed_of_takes htakes]; rfl
    rw [State.prof, State.prof, hqp, if_pos hup, if_pos hup, hrate]
  unfold State.roceTake
  rw [if_neg (by simp [hqp, hroce, hup]), if_neg (by simp [hcrc]), if_pos hop, State.takeCnp,
    if_pos ⟨by rw [hqp, hup], by rw [hprof, hecn]⟩]

end

/-- Settles O23: a whole packet is used in the state in which its context has been, a metered one once the meter lets it pass. -/
theorem rocePacketsTakeEffect : Obligations.RocePacketsTakeEffect := by
  refine ⟨?_, ?_, ?_, ?_⟩
  · intro s v p a hreq h hmeter
    have hcnp : p.op ≠ .cnp := fun hop => by rw [hop] at hreq; exact absurd hreq (by decide)
    have harrives := h.arrives hcnp (v := v) (by rw [if_pos (by simp [roceMetered, hreq]), hmeter])
    rw [if_pos hreq] at harrives
    exact congrArg s.ends ((if_pos hreq).trans harrives)
  · intro s p a hanswer hread hatomic h
    have hkind := hanswer
    simp only [roceIsAnswer, Bool.and_eq_true, Bool.not_eq_true', bne_iff_ne] at hkind
    obtain ⟨hreq, hcnp⟩ := hkind
    have hmetered : ¬ roceMetered p.op = true := by simp [roceMetered, hreq, hread, hatomic]
    have harrives := h.arrives hcnp (congrArg Prod.fst (if_neg hmetered))
    rw [if_neg (by simp [hreq])] at harrives
    exact congrArg s.ends ((if_pos hanswer).trans harrives)
  · intro s v p a hop h hmeter
    have hkind : p.op ≠ .cnp ∧ roceIsRequest p.op = false ∧ roceMetered p.op = true ∧ roceIsAnswer p.op = true := by
      rcases hop with hop | hop <;> rw [hop] <;> decide
    obtain ⟨hcnp, hreq, hmetered, hanswer⟩ := hkind
    have harrives := h.arrives hcnp (v := v) (by rw [if_pos hmetered, hmeter])
    rw [if_neg (by simp [hreq])] at harrives
    exact congrArg s.ends ((if_pos hanswer).trans harrives)
  · intro s p a hop h hecn
    exact congrArg s.ends ((if_pos (by rw [hop]; rfl)).trans (h.marks hop hecn))

end Machine
end Sys2Proof
end

section
/-! PROOFS. The QP commands of a function, and a connecting QP that asks again or gives up (R178 to R182, Tables 7.4 to 7.6). -/

namespace Sys2Proof
namespace Machine

/-! ### The end of a QP command -/

section
variable (s : State) (fn : Nat) (st : Status) (q : Nat)

theorem State.qpcEnds_qp : (s.qpcEnds fn st q).fld F.qpcStatusQp fn = q % 2 ^ F.qpcStatusQp.width := by
  rw [State.qpcEnds, State.showQps, fld_setFld_ne (by decide), State.setFlag, fld_setFld_ne (by decide), State.setFlag,
    fld_setFld_ne (by decide), fld_setFld_ne (by decide), fld_setFld_self]

theorem State.qpcEnds_code : (s.qpcEnds fn st q).fld F.qpcStatusCode fn = st.code := by
  rw [State.qpcEnds, State.showQps, fld_setFld_ne (by decide), State.setFlag, fld_setFld_ne (by decide), State.setFlag,
    fld_setFld_ne (by decide)]
  exact fld_setFld_of_lt (f := F.qpcStatusCode) st.code_lt _ fn 0

theorem State.qpcEnds_fail : (s.qpcEnds fn st q).flag F.qpcStatusFail fn = (st != .ok) := by
  rw [State.qpcEnds, State.showQps, State.flag, fld_setFld_ne (by decide), State.setFlag, fld_setFld_ne (by decide)]
  exact State.flag_setFlag _ F.qpcStatusFail _ fn 0 rfl

theorem State.qpcEnds_busy : (s.qpcEnds fn st q).flag F.qpcStatusBusy fn = false := by
  rw [State.qpcEnds, State.showQps, State.flag, fld_setFld_ne (by decide)]
  exact State.flag_setFlag _ F.qpcStatusBusy false fn 0 rfl

theorem State.qpcEnded_qpcEnds : (s.qpcEnds fn st q).qpcEnded fn st :=
  ⟨s.qpcEnds_code fn st q, s.qpcEnds_fail fn st q, s.qpcEnds_busy fn st q⟩

theorem regsKept.qpcEnds {s t : State} (h : regsKept [.qpcStatus, .qpcCount] s t) :
    regsKept [.qpcStatus, .qpcCount] s (t.qpcEnds fn st q) := by
  refine (((((h.setFld (f := F.qpcStatusQp) ?_ q fn 0 ?_).setFld (f := F.qpcStatusCode) ?_ st.code fn 0 ?_).setFlag
    (f := F.qpcStatusFail) ?_ _ fn ?_).setFlag (f := F.qpcStatusBusy) ?_ false fn ?_).setFld (f := F.qpcCountQps) ?_ _ fn 0 ?_) <;> decide

end

theorem State.ends_qpcCmd {s u : State} {fn : Nat} (hopen : s.qpcOpen fn) {f : State → State} (heffect : f s = u) :
    s.ends (s.qpcCmd fn f) = .next (s.finished u) := by
  obtain ⟨hbar, hidle⟩ := hopen
  rw [State.qpcCmd, if_pos ⟨hbar, by rw [hidle]; rfl⟩, heffect]
  rfl

/-! ### CREATE -/

/-- The state in which CREATE has set a free QP up, with its shaper, by a block. -/
def State.qpSetUp (s : State) (fn q : Nat) (b : QpBlock) : State :=
  ((((s.setQp q (s.newQp fn b)).resetRegs shpRegs (shpObj false q)).setFld F.ccShpCfgCeil (s.rateLimit fn) (shpObj false q)).setFld
    F.ccShpCfgBurst 0x100 (shpObj false q)).setShaper (shpObj false q) { ceil := s.rateLimit fn }

theorem State.qpCreate_ok {s : State} {fn q : Nat} {b : QpBlock} (hplace : s.ownHbm fn (s.fld F.qpcArg0Fga fn) 64 false = none)
    (hb : b = QpBlock.ofBytes (s.hbmRead (fgaOff (s.fld F.qpcArg0Fga fn)) 64)) (hblock : s.qpBlockOk b = true)
    (hsizes : s.qpSizesOk b = true) (hkey : b.sec = 0 ∨ s.keyFree fn b.keyh = true) (hfree : s.freeQp fn b.pipe = some q) :
    s.qpCreate fn = (s.qpSetUp fn q b).qpcEnds fn .ok q := by
  subst hb
  simp only [State.qpCreate, hplace]
  rw [if_neg (by simp [hblock]), if_neg (by simp [hsizes]), if_neg (by rcases hkey with h | h <;> simp [h])]
  simp only [hfree]
  rfl

theorem State.qps_resetRegs (s : State) (rs : List Reg) (o : Nat) : (s.resetRegs rs o).qps = s.qps :=
  foldl_keeps (f := fun t r => t.resetReg r o) State.qps (fun _ _ => rfl) rs s

theorem State.qps_qpSetUp (s : State) (fn q : Nat) (b : QpBlock) : (s.qpSetUp fn q b).qps = (s.setQp q (s.newQp fn b)).qps :=
  (s.setQp q (s.newQp fn b)).qps_resetRegs shpRegs (shpObj false q)

theorem State.mem_qpSetUp (s : State) (fn q : Nat) (b : QpBlock) : (s.qpSetUp fn q b).mem = s.mem :=
  foldl_keeps (f := fun t r => t.resetReg r (shpObj false q)) State.mem (fun _ _ => rfl) shpRegs (s.setQp q (s.newQp fn b))

/-! ### The commands on a QP of the function -/

section
variable {s : State} {fn q : Nat} (hholds : s.holdsQp fn q = true)
include hholds

theorem State.qpConnect_held : s.qpConnect fn q =
    if (s.qp q).state ≠ .init then s.qpcEnds fn .qpError
    else if (s.qp q).roce then
      ((s.newConn.setQp q { s.qp q with state := .connected, conn := s.conns + 1, lastStatus := 0, time := s.stamp }).startRate q).qpcEnds
        fn .ok
    else ((s.setQp q { s.qp q with state := .connecting, lastStatus := 0, time := s.stamp }).ctrlOut q ((s.qp q).hello .connect)).qpcEnds
      fn .ok :=
  if_neg (by simp [hholds])

theorem State.qpDisconnect_connected (hstate : (s.qp q).state = .connected) :
    s.qpDisconnect fn q = (s.setQp q { s.qp q with state := .closing, time := s.stamp }).qpcEnds fn .ok :=
  (if_neg (by simp [hholds])).trans (if_neg (by simp [hstate]))

theorem State.qpReset_down (hfree : (s.qp q).state ≠ .free) (hdown : (s.qp q).up = false) :
    s.qpReset fn q = (s.setQp q { (s.qp q).cleared with state := .init, lastStatus := 0, time := s.stamp }).qpcEnds fn .ok :=
  (if_neg (by simp [hholds])).trans (if_neg (by simp [hfree, hdown]))

theorem State.qpDestroy_idle (hstate : (s.qp q).state = .init ∨ (s.qp q).state = .error) :
    s.qpDestroy fn q = (s.freeQpCtx q).qpcEnds fn .ok :=
  (if_neg (by simp [hholds])).trans (if_neg (by rcases hstate with h | h <;> simp [h]))

theorem State.qpQuery_held (hplace : s.ownHbm fn (s.fld F.qpcArg0Fga fn) 64 true = none) :
    s.qpQuery fn q = (s.hbmWrite (fgaOff (s.fld F.qpcArg0Fga fn)) (s.qp q).visible).qpcEnds fn
      (s.heldBack (fgaOff (s.fld F.qpcArg0Fga fn)) 64) :=
  (if_neg (by simp [hholds])).trans (by simp only [hplace])

end

theorem folded_icGone (s : State) (p : Nat → Nat → Bool) : folded s (s.icGone p) := by
  refine folded_foldl (fun t c => ?_) _ s
  split
  · exact (folded_icFlag t c.1 (by decide) (by decide) true).trans (folded_setChan _ c.1 _)
  · exact folded_refl t

theorem State.qps_freeQpCtx (s : State) (q : Nat) : (s.freeQpCtx q).qps = (s.setQp q {}).qps := by
  refine Eq.trans ?_ ((s.setQp q {}).qps_resetRegs shpRegs (shpObj false q))
  exact (congrArg State.qps (folded_icGone _ _).rest : (s.freeQpCtx q).butChannels.qps = _)

theorem State.pipes_freeQpCtx (s : State) (q : Nat) : (s.freeQpCtx q).pipes = s.pipes := by
  refine Eq.trans ?_ (foldl_keeps (f := fun t r => t.resetReg r (shpObj false q)) State.pipes (fun _ _ => rfl) shpRegs (s.setQp q {}))
  exact (congrArg State.pipes (folded_icGone _ _).rest : (s.freeQpCtx q).butChannels.pipes = _)

/-- The commands of a function refuse a QP outside its allocation. -/
theorem State.qpCommands_foreign {s : State} {fn q : Nat} (hforeign : s.holdsQp fn q = false) :
    s.qpQuery fn q = s.qpcEnds fn .notPermitted ∧ s.qpReset fn q = s.qpcEnds fn .notPermitted ∧
      s.qpConnect fn q = s.qpcEnds fn .notPermitted := by
  refine ⟨?_, ?_, ?_⟩ <;> exact if_pos (by rw [hforeign]; rfl)

/-! ### The commands together -/

/-- The QPs of a state in which one of them has been set. -/
theorem State.qp_of_qps_setQp {s u : State} {q : Nat} {x : Qp} (h : u.qps = (s.setQp q x).qps) :
    u.qp q = x ∧ ∀ y, y ≠ q → u.qp y = s.qp y := by
  have hqp (y : Nat) : u.qp y = (s.setQp q x).qp y := by rw [State.qp, h]; rfl
  exact ⟨(hqp q).trans (s.qp_setQp q x), fun y hy => (hqp y).trans (s.qp_setQp_ne q x hy)⟩

theorem State.qp_setQp_qpcEnds (s : State) (q : Nat) (x : Qp) (fn : Nat) (st : Status) :
    ((s.setQp q x).qpcEnds fn st).qp q = x ∧ ∀ y, y ≠ q → ((s.setQp q x).qpcEnds fn st).qp y = s.qp y :=
  State.qp_of_qps_setQp (s := s) (q := q) (x := x) rfl

/-- Settles O24: each command is what its effect says on an idle QPC; of the QPs only the one that it names changes. -/
theorem qpCommandsComplete : Obligations.QpCommandsComplete := by
  refine ⟨?_, ?_, ?_, ?_, ?_, ?_, ?_, ?_, ?_, ?_, ?_⟩
  · intro s fn q b hopen hplace hb hblock hsizes hkey hfree
    obtain ⟨hnew, hothers⟩ := State.qp_of_qps_setQp (u := (s.qpSetUp fn q b).qpcEnds fn .ok q) (s.qps_qpSetUp fn q b)
    exact ⟨_, State.ends_qpcCmd hopen (State.qpCreate_ok hplace hb hblock hsizes hkey hfree), hnew, hothers,
      State.qpcEnded_qpcEnds _ fn .ok q, State.qpcEnds_qp _ fn .ok q, memKept_of_mem_eq (s.mem_qpSetUp fn q b)⟩
  · intro s fn q hopen hholds hinit hslt
    exact State.ends_qpcCmd hopen ((State.qpConnect_held hholds).trans (by rw [if_neg (by simp [hinit]), if_neg (by simp [hslt])]))
  · intro s fn q hopen hholds hinit hroce
    exact State.ends_qpcCmd hopen ((State.qpConnect_held hholds).trans (by rw [if_neg (by simp [hinit]), if_pos hroce]))
  · intro s fn q hopen hholds hstate
    exact ⟨_, State.ends_qpcCmd hopen ((State.qpConnect_held hholds).trans (if_pos hstate)), State.qpcEnded_qpcEnds _ fn .qpError 0, rfl,
      (regsKept_refl _ s).qpcEnds fn _ _, memKept_of_mem_eq rfl⟩
  · intro s fn q hopen hholds hstate
    obtain ⟨hq, hothers⟩ := s.qp_setQp_qpcEnds q { s.qp q with state := .closing, time := s.stamp } fn .ok
    exact ⟨_, State.ends_qpcCmd hopen (State.qpDisconnect_connected hholds hstate), hq, hothers, State.qpcEnded_qpcEnds _ fn .ok 0,
      (regsKept_of_flds_eq _ rfl).qpcEnds fn _ _, memKept_of_mem_eq rfl⟩
  · intro s fn q hopen hholds hfree hdown
    obtain ⟨hq, hothers⟩ := s.qp_setQp_qpcEnds q { (s.qp q).cleared with state := .init, lastStatus := 0, time := s.stamp } fn .ok
    exact ⟨_, State.ends_qpcCmd hopen (State.qpReset_down hholds hfree hdown), by rw [hq], by rw [hq]; rfl, by rw [hq]; rfl,
      by rw [hq]; rfl, by rw [hq]; rfl, hothers, State.qpcEnded_qpcEnds _ fn .ok 0, (regsKept_of_flds_eq _ rfl).qpcEnds fn _ _,
      memKept_of_mem_eq rfl⟩
  · intro s fn q hopen hholds hstate
    obtain ⟨hfree, hothers⟩ := State.qp_of_qps_setQp (u := (s.freeQpCtx q).qpcEnds fn .ok) (s.qps_freeQpCtx q)
    exact ⟨_, State.ends_qpcCmd hopen (State.qpDestroy_idle hholds hstate), rfl, by rw [hfree], s.pipes_freeQpCtx q, hothers,
      State.qpcEnded_qpcEnds _ fn .ok 0⟩
  · intro s fn q hopen hholds hplace
    exact State.ends_qpcCmd hopen (State.qpQuery_held hholds hplace)
  · intro s fn q hopen hforeign
    obtain ⟨hquery, hreset, hconnect⟩ := State.qpCommands_foreign hforeign
    exact ⟨_, State.ends_qpcCmd hopen hquery, State.ends_qpcCmd hopen hreset, State.ends_qpcCmd hopen hconnect,
      State.qpcEnded_qpcEnds _ fn .notPermitted 0, rfl, memKept_of_mem_eq rfl⟩
  · intro s q hconnecting
    exact congrArg s.ends (if_pos hconnecting)
  · intro s q hconnecting
    exact ⟨_, congrArg s.ends (if_pos hconnecting), congrArg Qp.state (s.qp_setQp q _), congrArg Qp.lastStatus (s.qp_setQp q _),
      fun x hx => s.qp_setQp_ne q _ hx, rfl⟩

end Machine
end Sys2Proof
end

section
/-! PROOFS. What sending packets of the transport on Ethernet ports leaves as it is, and that frames are only queued at ports that wait (R184,
R197, R280, R288 to R292). -/

namespace Sys2Proof
namespace Machine

/-! ### What sending writes -/

/-- The registers that sending and receiving packets of the transport write: counters, the high-water marks of the Journal, and those of
the Ethernet ports. -/
def transportRegs : List Reg := [.tpPipeTx, .tpPipeCnt, .telfCnt, .jnlSlice, .enStat, .enPortStatus, .enTxThresh]

/-- The state but for register fields, outputs, QPs, Journal records, Ethernet ports, key sets, and what pipelines keep for their injection
ports. -/
def State.butTransport (s : State) : State :=
  { s with flds := [], msix := [], out := [], bw := [], qps := [], jnl := [], en := [], freeCount := 0,
           prot := { s.prot with sets := [] }, vl := { s.vl with kept := [] } }

/-- The transport has worked: other registers than its own are kept, and the rest of the state but for what it writes. -/
structure transported (s t : State) : Prop where
  regs : regsKept transportRegs s t
  rest : t.butTransport = s.butTransport

theorem transported.trans {s t u : State} (h₁ : transported s t) (h₂ : transported t u) : transported s u :=
  ⟨h₁.regs.trans h₂.regs, h₂.rest.trans h₁.rest⟩

theorem transported_refl (s : State) : transported s s := ⟨regsKept_refl _ s, rfl⟩

theorem transported_setFld (s : State) {f : Fld} (hreg : f.reg ∈ transportRegs) (hpos : f.pos 0 < 64) (v o : Nat) :
    transported s (s.setFld f v o) :=
  ⟨regsKept_setFld s hreg v o 0 hpos, rfl⟩

theorem transported_count {ev : Nat} (hev : ¬ (0x40 ≤ ev ∧ ev ≤ 0x43)) (s : State) (fn idx n : Nat) :
    transported s (s.count fn ev idx n) :=
  ⟨(regsKept_count hev s fn idx n).mono (by simp [transportRegs]), by
    have h := congrArg State.butTransport (s.count_rest fn ev idx n); exact h⟩

theorem transported_emit (s : State) (o : Output) : transported s (s.emit o) :=
  ⟨regsKept_of_flds_eq _ (by simp), by have h := congrArg State.butTransport (s.emit_rest o); exact h⟩

theorem transported_setQp (s : State) (q : Nat) (x : Qp) : transported s (s.setQp q x) := ⟨regsKept_of_flds_eq _ rfl, rfl⟩

theorem transported_setEport (s : State) (p : Nat) (x : EPort) : transported s (s.setEport p x) :=
  ⟨regsKept_setFld _ (f := F.enPortStatusState) (by decide) _ p 0 (by decide), rfl⟩

theorem transported_enCount (s : State) (p i n : Nat) : transported s (s.enCount p i n) :=
  transported_setFld s (f := F.enStatCount) (by decide) (by decide) _ _

theorem transported_reprobe (s : State) (f : TxFrame) : transported s (s.reprobe f) := by
  unfold State.reprobe
  split
  · split
    · exact transported_refl s
    · exact transported_setQp s _ _
  · exact transported_refl s

/-- A frame that has been sent complete leaves the wire, is counted, and goes out. -/
theorem State.wireDone_eq (s : State) (p : Nat) (w : WireFrame) : ∃ x o,
    s.wireDone p w = (((s.setEport p x).enCount p 12).enCount p 13 w.f.len).emit o :=
  ⟨{ s.eport p with wire := none, good := (s.eport p).good + 1 }, .frame p (wireBytes w.body) false, by rw [State.wireDone]⟩

theorem transported_wireSent (s : State) (p : Nat) : transported s (s.wireSent p) := by
  unfold State.wireSent
  split
  · next w _ =>
    split
    · exact transported_refl s
    · obtain ⟨x, o, h⟩ := s.wireDone_eq p w
      rw [h]
      exact (((transported_setEport s p x).trans (transported_enCount _ p 12 1)).trans (transported_enCount _ p 13 _)).trans
        (transported_emit _ o)
  · exact transported_refl s

/-- The state in which the wire of a port is to take a frame: a new threshold is in force. -/
def State.rethreshed (s : State) (p : Nat) : State :=
  if (s.eport p).reload then s.setFld F.enTxThreshCur (max 64 (s.fld F.enTxThreshBase p)) p else s

theorem transported_rethreshed (s : State) (p : Nat) : transported s (s.rethreshed p) := by
  unfold State.rethreshed
  split
  · exact transported_setFld s (by decide) (by decide) _ p
  · exact transported_refl s

/-- A frame that starts leaves its queue, and a probe in it is stamped. -/
theorem State.enSend1_eq (s : State) (p : Nat) (f : TxFrame) : ∃ w, s.enSend1 p f =
    ((s.rethreshed p).setEport p { s.eport p with queue := (s.eport p).queue.erase f, reload := false, wire := w }).reprobe f :=
  ⟨_, rfl⟩

theorem transported_enSend1 (s : State) (p : Nat) (f : TxFrame) : transported s (s.enSend1 p f) := by
  obtain ⟨w, h⟩ := s.enSend1_eq p f
  rw [h]
  exact ((transported_rethreshed s p).trans (transported_setEport _ p _)).trans (transported_reprobe _ f)

theorem transported_enPumpN (p n : Nat) (s : State) : transported s (s.enPumpN p n) := by
  induction n generalizing s with
  | zero => exact transported_refl s
  | succ n ih =>
    rw [State.enPumpN]
    split
    · exact transported_refl s
    · split
      · exact transported_refl s
      · exact ((transported_wireSent s p).trans (transported_enSend1 _ p _)).trans (ih _)

/-- The state in which a frame is to be queued at a port: a mark is counted, and LPI ends. -/
def State.enReady (s : State) (p : Nat) (mark : Bool) : State :=
  (if mark then s.enCount p 17 else s).setFlag F.enPortStatusLpiTx false p

theorem transported_enReady (s : State) (p : Nat) (mark : Bool) : transported s (s.enReady p mark) := by
  refine transported.trans (t := if mark then s.enCount p 17 else s) ?_ (transported_setFld _ (by decide) (by decide) _ p)
  split
  · exact transported_enCount s p 17 1
  · exact transported_refl s

/-- A frame that is assigned to a port is discarded, or queued. -/
theorem State.enAssign_eq (s : State) (p cls : Nat) (f : TxFrame) : ∃ mark g,
    s.enAssign p cls f = (s.enReady p mark).enCount p 15 ∨
      s.enAssign p cls f = ((s.enReady p mark).setEport p { s.eport p with queue := (s.eport p).queue ++ [g] }).enPump p := by
  unfold State.enAssign
  extract_lets x th transport mark t
  refine ⟨mark, if mark then { f with cap := { f.cap with ecn := 3 } } else f, ?_⟩
  by_cases hfits : (!(t.setFlag F.enPortStatusLpiTx false p).gateFits p f.q f.len) = true
  · exact .inl (if_pos hfits)
  · exact .inr (if_neg hfits)

theorem transported_enAssign (s : State) (p cls : Nat) (f : TxFrame) : transported s (s.enAssign p cls f) := by
  obtain ⟨mark, g, h | h⟩ := s.enAssign_eq p cls f
  · rw [h]
    exact (transported_enReady s p mark).trans (transported_enCount _ p 15 1)
  · rw [h]
    exact ((transported_enReady s p mark).trans (transported_setEport _ p _)).trans (transported_enPumpN p _ _)

theorem transported_ownIp (s : State) (port dst : Nat) : transported s (s.ownIp port dst).2 := by
  unfold State.ownIp
  split <;> exact ⟨regsKept_of_flds_eq _ rfl, rfl⟩

/-- A frame for a next hop goes to one of its ports, or is discarded. -/
theorem State.ethOut_eq (s : State) (h : Hop) (path cls n : Nat) (c : Encap) (dscp : Option Nat) (k : FrameKind) :
    s.ethOut h path cls n c dscp k = s ∨ (∃ p, s.ethOut h path cls n c dscp k = s.enCount p 16) ∨
      ∃ p dst f, s.ethOut h path cls n c dscp k = (s.ownIp p dst).2.enAssign p cls f := by
  unfold State.ethOut
  dsimp only
  split
  · exact .inr (.inr ⟨_, _, _, rfl⟩)
  · split
    · exact .inr (.inl ⟨_, rfl⟩)
    · exact .inl rfl

theorem transported_ethOut (s : State) (h : Hop) (path cls n : Nat) (c : Encap) (dscp : Option Nat) (k : FrameKind) :
    transported s (s.ethOut h path cls n c dscp k) := by
  rcases s.ethOut_eq h path cls n c dscp k with heq | ⟨p, heq⟩ | ⟨p, dst, f, heq⟩ <;> rw [heq]
  · exact transported_refl s
  · exact transported_enCount s p 16 1
  · exact (transported_ownIp s p dst).trans (transported_enAssign _ p cls f)

theorem transported_seal (s : State) (q : Nat) (p : SltPkt) : transported s (s.seal q p).2 := by
  unfold State.seal
  dsimp only
  split
  · exact transported_refl s
  · split
    · exact transported_refl s
    · exact transported_setQp s q _

/-! ### Ports that send nothing -/

/-- No Ethernet port starts a frame: it is not up, or an exception frame is on its wire (R288). -/
def State.portsWait (s : State) : Prop := ∀ p, (s.eport p).state ≠ .up ∨ (s.eport p).excOut = true

/-- The QPs and the fabric are kept, and the ports wait. -/
structure queued (s t : State) : Prop where
  qps : t.qps = s.qps
  vl : t.vl = s.vl
  waits : t.portsWait

theorem queued.trans {s t u : State} (h₁ : queued s t) (h₂ : t.portsWait → queued t u) : queued s u :=
  have h := h₂ h₁.waits
  ⟨h.qps.trans h₁.qps, h.vl.trans h₁.vl, h.waits⟩

section
variable {s : State} (h : s.portsWait)
include h

theorem queued_of_en_eq {t : State} (hqps : t.qps = s.qps) (hvl : t.vl = s.vl) (hen : t.en = s.en) : queued s t :=
  ⟨hqps, hvl, fun p => by rw [State.eport, hen]; exact h p⟩

/-- Frames that are queued at a port leave it waiting. -/
theorem queued_setEport (p : Nat) (fs : List TxFrame) : queued s (s.setEport p { s.eport p with queue := fs }) := by
  refine ⟨rfl, rfl, fun k => ?_⟩
  have heport : (s.setEport p { s.eport p with queue := fs }).eport k = if k = p then { s.eport p with queue := fs } else s.eport k :=
    AMap.look_save _ _ _ _ _
  rw [heport]
  split
  · exact h p
  · exact h k

theorem State.enPump_waits (p : Nat) : s.enPump p = s := by
  rw [State.enPump]
  cases (s.eport p).queue.length with
  | zero => rfl
  | succ n => exact if_pos (h p)

theorem queued_enReady (p : Nat) (mark : Bool) : queued s (s.enReady p mark) := by
  unfold State.enReady
  split <;> exact ⟨rfl, rfl, h⟩

theorem queued_enAssign (p cls : Nat) (f : TxFrame) : queued s (s.enAssign p cls f) := by
  obtain ⟨mark, g, heq | heq⟩ := s.enAssign_eq p cls f <;> rw [heq]
  · exact (queued_enReady h p mark).trans fun h' => ⟨rfl, rfl, h'⟩
  · have hready : (s.enReady p mark).eport p = s.eport p := by unfold State.enReady; split <;> rfl
    rw [← hready]
    refine (queued_enReady h p mark).trans fun h' => ?_
    rw [State.enPump_waits (queued_setEport h' p _).waits]
    exact queued_setEport h' p _

theorem queued_ethOut (hop : Hop) (path cls n : Nat) (c : Encap) (dscp : Option Nat) (k : FrameKind) :
    queued s (s.ethOut hop path cls n c dscp k) := by
  rcases s.ethOut_eq hop path cls n c dscp k with heq | ⟨p, heq⟩ | ⟨p, dst, f, heq⟩ <;> rw [heq]
  · exact ⟨rfl, rfl, h⟩
  · exact ⟨rfl, rfl, h⟩
  · refine queued.trans (t := (s.ownIp p dst).2) ?_ fun h' => queued_enAssign h' p cls f
    unfold State.ownIp
    split <;> exact ⟨rfl, rfl, h⟩

end

end Machine
end Sys2Proof
end

section
/-! PROOFS. A QP whose older path probe still waits at an Ethernet port, on a device with nothing else to do: what the device does of itself
leaves the probes that the QP has sent as they are (R191, R193, R197, R200 to R206). -/

namespace Sys2Proof
namespace Machine

/-! ### The state -/

/-- A packet that pipeline 0 keeps for its injection port. -/
def keptHdr : VHdr := { dst := 1, src := 0 }

/-- QP 0 is connected to a node of another rack, with a suspect path 1. A probe that it sent on path 0 at stamp 0 still waits at port 0, and an
exception frame behind it, when the fabric timestamp is 5. The injection port of pipeline 0 is full, and its window used up. -/
def probeState : State :=
  ({ State.reset with
      clk := { ns := 5 },
      qps := [(0, { state := .connected, peerNode := 256, suspect := 2, probes := [(0, 0)] })],
      en := [(0, { state := .up, queue := [{ q := 7, len := 64, kind := .slt { op := .pathProbe, probe := some 0 } none },
                                           { q := 6, len := 64, kind := .exc 0 [] false }] })],
      vl := { wins := [(1, { inj := 256 })], inj := [(1, [{ dst := 1, src := 0, len := 2048 }])], kept := [(0, [keptHdr])] },
      img := { racks := [(1, { ports := [0] })], nodeIps := [(256, 0)], addrs := [(0, 1)] } } : State).setFlag F.imgStatusAccepted true

/-- What the transport has done since that state has left QP 0 with these probes; the ports wait, and the injection port of pipeline 0 is
full. -/
structure calm (l : List (Nat × Nat)) (t : State) : Prop where
  work : transported probeState t
  probes : (t.qp 0).probes = l
  waits : t.portsWait
  full : ∃ hs, t.vl.kept = [(0, keptHdr :: hs)]

section
variable {l : List (Nat × Nat)} {s t : State}

theorem calm.field {β : Type} (h : calm l s) (p : State → β) : p s.butTransport = p probeState.butTransport :=
  congrArg p h.work.rest

/-- A register that the transport does not write reads as before. -/
theorem calm.fld (h : calm l s) {f : Fld} (hreg : f.reg ∉ transportRegs) (hpos : f.pos 0 < 64) (o : Nat) : s.fld f o = probeState.fld f o :=
  h.work.regs f o 0 hpos hreg

theorem calm.after (h : calm l s) (hwork : transported s t) (hkept : queued s t) : calm l t :=
  ⟨h.work.trans hwork, by rw [State.qp, hkept.qps]; exact h.probes, hkept.waits, by rw [hkept.vl]; exact h.full⟩

theorem calm.setQp_probes (h : calm l s) (x : Qp) : calm x.probes (s.setQp 0 x) :=
  ⟨h.work.trans (transported_setQp s 0 x), congrArg Qp.probes (s.qp_setQp 0 x), h.waits, h.full⟩

theorem calm.setQp (h : calm l s) {x : Qp} (hx : x.probes = (s.qp 0).probes) : calm l (s.setQp 0 x) :=
  (hx.trans h.probes) ▸ h.setQp_probes x

theorem calm.foldl (h : calm l s) {α : Type} {f : State → α → State} (hf : ∀ t x, calm l t → calm l (f t x)) (xs : List α) :
    calm l (xs.foldl f s) := by
  induction xs generalizing s with
  | nil => exact h
  | cons x xs ih => exact ih (hf s x h)

theorem calm.setFld (h : calm l s) {f : Fld} (hreg : f.reg ∈ transportRegs) (hpos : f.pos 0 < 64) (v o : Nat) : calm l (s.setFld f v o) :=
  h.after (transported_setFld s hreg hpos v o) (⟨rfl, rfl, h.waits⟩)

theorem calm.count (h : calm l s) {ev : Nat} (hev : ¬ (0x40 ≤ ev ∧ ev ≤ 0x43)) (fn idx n : Nat) : calm l (s.count fn ev idx n) :=
  h.after (transported_count hev s fn idx n) (queued_of_en_eq h.waits (by simp) (by simp) (by simp))

theorem calm.emit (h : calm l s) (o : Output) : calm l (s.emit o) :=
  h.after (transported_emit s o) (queued_of_en_eq h.waits (by simp) (by simp) (by simp))

theorem calm.freeJrec (h : calm l s) (i : Option Nat) : calm l (s.freeJrec i) := by
  unfold State.freeJrec
  split
  · exact h.after ⟨regsKept_of_flds_eq _ rfl, rfl⟩ ⟨rfl, rfl, h.waits⟩
  · exact h

theorem calm.setKeySet (h : calm l s) (fn k : Nat) (x : KeySet) : calm l (s.setKeySet fn k x) :=
  h.after ⟨regsKept_of_flds_eq _ rfl, rfl⟩ ⟨rfl, rfl, h.waits⟩

theorem calm.takeRec (h : calm l s) {k i : Nat} {r : JRec} (ht : s.takeRec k r = some (i, t)) : calm l t := by
  obtain ⟨hregs, hrest⟩ := State.takeRec_rest ht
  rw [hrest] at hregs ⊢
  exact h.after ⟨hregs.mono (by simp [transportRegs]), rfl⟩ ⟨rfl, rfl, h.waits⟩

/-! ### Nothing but the QP is there -/

theorem calm.op (h : calm l s) (r : OpRef) : s.op r = none := by
  have hops : s.ops = [] := h.field State.ops
  rw [State.op, hops]
  rfl

theorem calm.completeRef (h : calm l s) (r : OpRef) (st : Status) (n : Nat) : s.completeRef r st n = s := by
  rw [State.completeRef, h.op]

theorem calm.fireTag (h : calm l s) (fn tag : Nat) : s.fireTag fn tag = s := by
  have harmed : s.armed = [] := h.field State.armed
  rw [State.fireTag, harmed]
  rfl

theorem calm.icOn (h : calm l s) (kind fn idx : Nat) : s.icOn kind fn idx = [] := by
  have hchans : s.prot.chans = [] := h.field fun s => s.prot.chans
  rw [State.icOn, hchans]
  rfl

theorem calm.icDrop (h : calm l s) (kind fn idx id : Nat) : s.icDrop kind fn idx id = s := by
  rw [State.icDrop, h.icOn]
  rfl

theorem calm.icAdmit (h : calm l s) (kind fn idx id : Nat) : s.icAdmit kind fn idx id = s := by
  rw [State.icAdmit, h.icOn]
  rfl

theorem calm.icApplied (h : calm l s) (fn qp id : Nat) : s.icApplied fn qp id = s := by
  rw [State.icApplied, State.icUpd, h.icOn]
  rfl

theorem calm.tgtFold (h : calm l s) (q : Nat) : s.tgtFold q = s := by
  rw [State.tgtFold, State.icHorizon, h.icOn]
  rfl

theorem calm.win (h : calm l s) (i : Nat) : s.win i = {} := by
  have hwins : s.wins = [] := h.field State.wins
  rw [State.win, hwins]
  rfl

theorem calm.winUse (h : calm l s) (loc : TlbLoc) (key : Nat) : s.winUse loc key = s := by
  rw [State.winUse, h.win]
  exact if_pos (.inr (.inl (by decide)))

/-- No key names a window. -/
theorem calm.peerTarget (h : calm l s) (q key off len : Nat) (r w : Bool) (use : Use) :
    s.peerTarget q key off len r w use = .error .keyInvalid := by
  rw [State.peerTarget]
  split
  · rfl
  · next hkey =>
    have hcheck : s.ownedCheck (s.qp q).user key off len r w use = .error .keyInvalid := by
      rw [State.ownedCheck, h.win]
      exact if_pos (.inr (.inr rfl))
    rw [State.localTarget, if_pos hkey, hcheck]

/-! ### Packets that QP 0 sends -/

theorem calm.seal (h : calm l s) (p : SltPkt) : calm l (s.seal 0 p).2 := by
  unfold State.seal
  dsimp only
  split
  · exact h
  · split
    · exact h
    · exact h.setQp (by rfl)

/-- The pipeline keeps every packet for its full injection port. -/
theorem calm.vlInject (h : calm l s) (x : VHdr) : calm l (s.vlInject 0 x) := by
  obtain ⟨hs, hfull⟩ := h.full
  have hkept : s.injKept 0 = keptHdr :: hs := by rw [State.injKept, hfull]; rfl
  rw [State.vlInject, if_neg (by simp [hkept]), hkept]
  refine ⟨h.work.trans ⟨regsKept_of_flds_eq _ rfl, rfl⟩, h.probes, h.waits, hs ++ [x], ?_⟩
  simp [hfull, AMap.save, AMap.put]

theorem calm.ethOut (h : calm l s) (hop : Hop) (path cls n : Nat) (c : Encap) (dscp : Option Nat) (k : FrameKind) :
    calm l (s.ethOut hop path cls n c dscp k) :=
  h.after (transported_ethOut s hop path cls n c dscp k) (queued_ethOut h.waits hop path cls n c dscp k)

theorem calm.sltOut (h : calm l s) (p : SltPkt) : calm l (s.sltOut 0 p) := by
  unfold State.sltOut
  extract_lets x p'
  have hseal := h.seal p'
  generalize s.seal 0 p' = r at hseal
  obtain ⟨p'', t⟩ := r
  have hcounted := (hseal.setFld (f := F.tpPipeTxPkts) (by decide) (by decide) (t.fld F.tpPipeTxPkts (0 % 4) + 1) (0 % 4)).count
    (ev := 0x22) (by decide) x.owner 0 p''.payload.length
  dsimp only
  split
  · exact (hcounted.emit _).vlInject _
  · split
    · exact (hcounted.setQp (by rfl)).ethOut _ _ _ _ _ _ _
    · exact hcounted

theorem calm.sendNak (h : calm l s) (psn : Nat) (st : Status) (path : Nat) : calm l (s.sendNak 0 psn st path) := by
  unfold State.sendNak
  dsimp only
  split
  · exact calm.sltOut (h.setFld (f := F.tpPipeCntNrSent) (by decide) (by decide) _ _) _
  · exact h.sltOut _

theorem calm.freeOwed (h : calm l s) : calm l (s.freeOwed 0) := by
  unfold State.freeOwed
  dsimp only
  split
  · exact h
  · exact (h.setQp (by rfl)).foldl (fun t o ht => ht.freeJrec _) _

theorem calm.sendAck (h : calm l s) (echo path : Nat) : calm l (s.sendAck 0 echo path) :=
  ((h.setQp (by rfl)).sltOut _).freeOwed

theorem calm.tellWaiting (h : calm l s) (p : SltPkt) : calm l (s.tellWaiting 0 p) := h.sltOut _

theorem calm.sendResp (h : calm l s) (r : SltPkt) : calm l (s.sendResp 0 r) := by
  unfold State.sendResp
  extract_lets x p k t ks u
  have ht : calm l t := h.setQp (by rfl)
  have hu : calm l u := by
    dsimp only [u]
    split
    · exact ht.setKeySet _ _ _
    · exact ht
  exact hu.sltOut _

end

end Machine
end Sys2Proof
end

section
/-! PROOFS. Held packets of a QP on a device with nothing else to do: applying, refusing and answering them leaves the probes that the QP has
sent as they are (R183, R188 to R191, R199 to R206). -/

namespace Sys2Proof
namespace Machine

section
variable {l : List (Nat × Nat)} {s t : State}

/-! ### The record of an operation -/

theorem calm.setTop (h : calm l s) (o : TgtOp) : calm l (s.setTop 0 o) := h.setQp (by rfl)

theorem calm.tgtClose (h : calm l s) (alive : Nat) : calm l (s.tgtClose 0 alive) := by
  unfold State.tgtClose
  dsimp only
  split
  · exact h
  · exact h.setQp (by rfl)

theorem calm.tgtSweep (h : calm l s) (p : SltPkt) : calm l (s.tgtSweep 0 p) := by
  unfold State.tgtSweep
  dsimp only
  split
  · refine h.foldl (fun t o ht => ?_) _
    rw [ht.icDrop]
    exact ht.tgtClose _
  · exact h

theorem calm.tgtAdmit (h : calm l s) {p : SltPkt} (ht : s.tgtAdmit 0 p = some t) : calm l t := by
  unfold State.tgtAdmit at ht
  dsimp only at ht
  split at ht
  · exact Option.some.inj ht ▸ h
  · split at ht
    · exact absurd ht (by simp)
    · next i u hrec =>
      have hu := h.takeRec hrec
      have hset := hu.setQp (x := { u.qp 0 with tops := (u.qp 0).tops ++ [{
        alive := p.alive, kind := p.op, first := (s.qp 0).firstOf p, left := packetsOf p.op p.mlen (s.qp 0).mtuBytes, jrec := some i }] }) rfl
      rw [← Option.some.inj ht]
      split
      · rw [hset.icAdmit]
        exact hset
      · exact hset

theorem calm.tgtForget (h : calm l s) (p : SltPkt) : calm l (s.tgtForget 0 p) := by
  unfold State.tgtForget
  dsimp only
  split
  · exact h
  · next o _ =>
    split
    · have hfreed := (h.freeJrec o.jrec).setQp (x := { s.qp 0 with tops := (s.qp 0).tops.filter fun y => y.alive != p.alive })
        (by rw [(h.freeJrec o.jrec).probes]; exact h.probes)
      rw [hfreed.icDrop]
      exact hfreed
    · exact h

theorem calm.tgtEnder (h : calm l s) (p : SltPkt) : calm l (s.tgtEnder 0 p) := by
  unfold State.tgtEnder
  dsimp only
  split
  · exact h.setQp (by rfl)
  · exact h

theorem calm.tgtTaken (h : calm l s) (p : SltPkt) : calm l (s.tgtTaken 0 p) := by
  unfold State.tgtTaken
  extract_lets t x u
  have ht : calm l t := h.tgtEnder p
  have hu : calm l u := ht.setQp (by rfl)
  split
  · exact hu
  · next o _ =>
    split
    · exact hu.setTop _
    · extract_lets v w
      have hv : v = u := by
        dsimp only [v]
        split
        · rw [hu.completeRef, hu.fireTag]
        · rfl
      have hw : w = u := by
        dsimp only [w]
        rw [hv]
        split
        · exact hu.icApplied _ _ _
        · rfl
      rw [hw, (hu.tgtClose p.alive).tgtFold]
      exact hu.tgtClose p.alive

/-! ### Answers -/

theorem calm.tgtAck (h : calm l s) (p : SltPkt) : calm l (s.tgtAck 0 p) := by
  unfold State.tgtAck
  split
  · exact h.sendAck _ _
  · exact h.setQp (by rfl)

theorem calm.tgtRefuse (h : calm l s) (p : SltPkt) (st : Status) : calm l (s.tgtRefuse 0 p st) := by
  unfold State.tgtRefuse
  extract_lets x t u v w
  have ht : calm l t := by
    dsimp only [t]
    split
    · exact h.setQp (by rfl)
    · exact h
  have hu : calm l u := by
    dsimp only [u]
    rw [ht.icDrop]
    exact ht
  have hv : calm l v := by
    dsimp only [v]
    split
    · exact hu.setTop _
    · exact hu
  exact ((hv.tgtTaken p).sendNak _ _ _).freeOwed

theorem calm.tgtNotReady (h : calm l s) (p : SltPkt) : calm l (s.tgtNotReady 0 p) := (h.tgtForget p).sendNak _ _ _

theorem calm.respond (h : calm l s) (r : SltPkt) : calm l (s.respond 0 r) := by
  unfold State.respond
  dsimp only
  split
  · exact h.sendResp r
  · exact h.setQp (by rfl)

/-! ### Effects -/

/-- A packet that comes to nothing but an answer leaves the QP's probes. -/
def TgtRes.calm (l : List (Nat × Nat)) : TgtRes → Prop
  | .done t => Machine.calm l t
  | .refuse t _ => Machine.calm l t
  | .notReady t => Machine.calm l t
  | _ => False

theorem calm.tgtWrite (h : calm l s) (p : SltPkt) : (s.tgtWrite 0 p).calm l := by
  unfold State.tgtWrite
  dsimp only
  split
  · exact h
  · rw [h.peerTarget]
    exact h

theorem calm.tgtRead (h : calm l s) (p : SltPkt) : (s.tgtRead 0 p).calm l := by
  unfold State.tgtRead
  rw [h.peerTarget]
  exact h

theorem calm.tgtAtomic (h : calm l s) (p : SltPkt) : (s.tgtAtomic 0 p).calm l := by
  unfold State.tgtAtomic
  dsimp only
  split
  · exact h
  · rw [h.peerTarget]
    exact h

theorem calm.tgtTs (h : calm l s) (p : SltPkt) : (s.tgtTs 0 p).calm l := by
  unfold State.tgtTs
  dsimp only
  split
  · exact h
  · split
    · exact h
    · rw [h.peerTarget]
      exact h

theorem calm.tgtSend (h : calm l s) (p : SltPkt) : (s.tgtSend 0 p).calm l := by
  unfold State.tgtSend
  dsimp only
  split
  · split
    · exact h
    · have hadd : calm l (s.rcAdd 0 { psn := (s.qp 0).firstOf p, alive := p.alive }) := h.setQp (by rfl)
      rw [hadd.fireTag]
      exact hadd
  · split
    · rw [h.op]
      exact h
    · split
      · exact h
      · rw [h.op]
        exact h

theorem calm.tgtApply (h : calm l s) (p : SltPkt) : (s.tgtApply 0 p).calm l := by
  unfold State.tgtApply
  split
  · exact h.tgtWrite p
  · exact h.tgtRead p
  · exact h.tgtSend p
  · exact h.tgtTs p
  · exact h.tgtAtomic p

theorem calm.tgtNow (h : calm l s) (p : SltPkt) : calm l (s.tgtNow 0 p) := by
  unfold State.tgtNow
  split
  · exact h.tgtNotReady p
  · next t hadmit =>
    have ht : calm l t := (h.tgtSweep p).tgtAdmit hadmit
    rw [ht.winUse, ite_self]
    have hres := ht.tgtApply p
    split <;> rename_i heq <;> rw [heq] at hres
    · exact (calm.tgtTaken hres p).tgtAck p
    · exact calm.tgtRefuse hres p _
    · exact calm.tgtNotReady hres p
    all_goals exact hres.elim

theorem calm.tgtKeep (h : calm l s) (p : SltPkt) : calm l (s.tgtKeep 0 p) := by
  unfold State.tgtKeep
  dsimp only
  split
  · exact h
  · exact h.setQp (by rfl)

theorem calm.tgtNew (h : calm l s) (p : SltPkt) : calm l (s.tgtNew 0 p) := by
  unfold State.tgtNew State.tgtHold
  split
  · exact h.tgtNow p
  · split
    · exact h.tgtKeep p
    · exact h

/-! ### Bytes for a local buffer -/

theorem calm.manager (h : calm l s) : s.manager = none := by
  have hactive (n : Nat) : s.flag F.hpPortCfgMgrActive n = probeState.flag F.hpPortCfgMgrActive n := by
    rw [State.flag, h.fld (by decide) (by decide)]
    rfl
  have himaged : s.imaged = true := by
    rw [State.imaged, State.flag, h.fld (by decide) (by decide)]
    decide
  have hnone : ((List.range 4).find? fun n => s.flag F.hpPortCfgMgrActive n) = none := by
    simp only [hactive]
    decide
  rw [State.manager, hnone, himaged]
  rfl

/-- No page is allocated: of a plain address only an empty range passes its check, in space 0. -/
theorem calm.plainCheck (h : calm l s) {fn fga len : Nat} {w : Bool} (hok : s.plainCheck fn fga len w = none) :
    len = 0 ∧ fgaSpace fga = 0 := by
  have hpages : s.ten.pages = [] := h.field fun s => s.ten.pages
  have howns (off : Nat) : s.ownsBytes fn off len = false := by
    have hfirst : 0 ∈ List.range ((off + (len - 1)) / pageSize - off / pageSize + 1) := List.mem_range.2 (Nat.succ_pos _)
    rw [State.ownsBytes, hpages]
    exact Bool.and_eq_false_imp.2 fun _ => List.all_eq_false.2 ⟨0, hfirst, by simp [spanFind]⟩
  have hmanager : s.isManager fn = false := by rw [State.isManager, h.manager]; rfl
  unfold State.plainCheck at hok
  rw [hmanager, howns] at hok
  split at hok
  · exact absurd hok (by simp)
  · split at hok
    · exact absurd hok (by simp)
    · rw [if_neg Bool.false_ne_true] at hok
      split at hok
      · next hrange => exact ⟨hrange.2.resolve_right (by simp), hrange.1⟩
      · exact absurd hok (by simp)

/-- No translation context is enabled. -/
theorem calm.haCheck (h : calm l s) (fn ha : Nat) : s.haCheck fn ha = some .xlDisabled := by
  have hreset : probeState.fld F.xlCtxCtrlEnable fn = 0 := by
    rw [probeState, State.setFlag, fld_setFld_ne (by decide)]
    rfl
  rw [State.haCheck, State.flag, h.fld (by decide) (by decide), hreset]
  rfl

theorem calm.rangeGo (h : calm l s) (g : Engine) (a ha n : Nat) (acc : Access) (ps : List (Nat × Nat)) :
    s.rangeGo g a acc ((ha, n) :: ps) [] = .err (segStart a ha) .xlDisabled := by
  have hlookup : s.lookup g ha acc = .err .xlDisabled := by rw [State.lookup, h.haCheck]
  rw [State.rangeGo]
  simp only [hlookup, Bool.false_eq_true, if_false]
  rfl

/-- Bytes can be received for no buffer but an empty one. -/
theorem calm.localRange (h : calm l s) (g : Engine) (kind : Bool) (a len : Nat) :
    (∃ n st, s.localRange g kind a len .write = .err n st) ∨
      s.localRange g kind a len .write = .ok ∧ len = 0 ∧ (kind = true → fgaSpace a = 0) := by
  cases kind
  · by_cases hlen : len = 0
    · exact .inr ⟨by rw [State.localRange, if_neg Bool.false_ne_true, if_pos hlen], hlen, nofun⟩
    · left
      have hpieces : ∃ k ps, pieces a len = (a, k) :: ps := ⟨_, _, by rw [pieces, pagePieces, if_neg hlen]⟩
      obtain ⟨k, ps, hpieces⟩ := hpieces
      exact ⟨_, _, by rw [State.localRange, if_neg Bool.false_ne_true, if_neg hlen, State.range, hpieces, h.rangeGo]⟩
  · have hmanager : s.isManager g.fn = false := by rw [State.isManager, h.manager]; rfl
    have hplain : s.bufferCheck g.fn a len true = s.plainCheck g.fn a len true := by
      rw [State.bufferCheck, if_pos (.inl (by rw [hmanager]; rfl))]
    have hrange : s.localRange g true a len .write = match s.plainCheck g.fn a len true with | some st => .err 0 st | none => .ok := by
      rw [← hplain]
      rfl
    cases hcheck : s.plainCheck g.fn a len true with
    | some st => exact .inl ⟨0, st, by rw [hrange, hcheck]⟩
    | none =>
      obtain ⟨hlen, hspace⟩ := h.plainCheck hcheck
      exact .inr ⟨by rw [hrange, hcheck], hlen, fun _ => hspace⟩

/-- A write of no bytes writes nothing. -/
theorem calm.hbmWrite_nil (h : calm l s) (off : Nat) : s.hbmWrite off [] = s := by
  have hres : s.res = [] := h.field State.res
  have hhbm : s.hbm = [] := h.field State.hbm
  have htags : s.prot.tags = [] := h.field fun s => s.prot.tags
  have hunpoison : s.unpoison off 0 = s := by
    rw [State.unpoison, hhbm, List.map_nil, ← hhbm]
  have hkilled : s.killedPages off 0 = [] := if_pos (by rw [State.cipherOk, htags]; rfl)
  have hput : s.hbmPut off [] = s := by
    rw [State.hbmPut]
    exact (congrArg (fun t => (State.countLines t 0x51 off 0).markDirty off 0) hunpoison).trans rfl
  rw [State.hbmWrite, State.resRanges, hres, State.hbmWriteBut]
  simp only [List.filter_nil, List.map_nil, List.nil_append, List.length_nil, hkilled]
  exact hput

theorem calm.putRecv_nil (h : calm l s) (g : Engine) (kind : Bool) (a : Nat) (hspace : kind = true → fgaSpace a = 0) :
    s.putRecv g kind a [] = some s := by
  rw [State.putRecv]
  cases kind
  · rfl
  · rw [if_neg (by simp [hspace]), if_pos rfl, State.ownUse, if_pos (.inr (.inr (.inl rfl))), h.hbmWrite_nil]

theorem calm.dropRecvXl (h : calm l s) : calm l (s.dropRecvXl 0) := h.setQp (by rfl)

/-- Bytes that a QP receives are refused, or there are none. -/
theorem calm.recvPut (h : calm l s) (fn : Nat) (kind : Bool) (a : Nat) (bs : List Byte) :
    (∃ st, s.recvPut fn 0 kind a bs = .err st) ∨ s.recvPut fn 0 kind a bs = .later (s.dropRecvXl 0) ∨
      s.recvPut fn 0 kind a bs = .put (s.dropRecvXl 0) := by
  unfold State.recvPut
  extract_lets g
  rcases h.localRange g kind a bs.length with ⟨n, st, hrange⟩ | ⟨hrange, hlen, hspace⟩
  · rw [hrange]
    exact .inl ⟨st, rfl⟩
  · rw [hrange, List.length_eq_zero_iff.1 hlen]
    dsimp only
    split
    · exact .inr (.inl rfl)
    · rw [h.putRecv_nil g kind a hspace]
      exact .inr (.inr rfl)

/-! ### Repeats -/

theorem calm.rcResend (h : calm l s) (e : RcEntry) : calm l (s.rcResend 0 e) := by
  unfold State.rcResend
  split
  · exact h
  · exact h.respond _

theorem calm.tgtCached (h : calm l s) (p : SltPkt) (e : RcEntry) : calm l (s.tgtCached 0 p e) := by
  unfold State.tgtCached
  split
  · next fn kind a _ =>
    rcases h.recvPut fn kind (a + p.offset) p.payload with ⟨st, hput⟩ | hput | hput <;> rw [hput]
    · exact h.sendNak _ _ _
    · exact h.dropRecvXl.sendNak _ _ _
    · exact h.dropRecvXl.sendAck _ _
  · split
    · exact h.sendAck _ _
    · split
      · exact h.rcResend e
      · exact h.tellWaiting p

theorem calm.tgtAgain (h : calm l s) (p : SltPkt) : calm l (s.tgtAgain 0 p) := by
  have hres := h.tgtApply p
  unfold State.tgtAgain
  split <;> rename_i heq <;> rw [heq] at hres
  · exact hres
  · exact calm.sendNak hres _ _ _
  · exact hres.elim
  · exact calm.sendNak hres _ _ _
  all_goals exact hres.elim

theorem calm.tgtRepeat (h : calm l s) (p : SltPkt) (old : Bool) : calm l (s.tgtRepeat 0 p old) := by
  unfold State.tgtRepeat
  extract_lets x idem first mine stale
  split
  · exact h.tellWaiting p
  · split
    · exact h.sendAck _ _
    · exact h.tgtCached p _
    · split
      · exact h.tgtAgain p
      · exact (h.setQp (by rfl)).tgtNew p
    · split
      · exact h.tgtAgain p
      · split
        · exact h
        · split
          · exact h.sendNak _ _ _
          · exact h

/-! ### Held packets -/

theorem calm.tgtHeld (h : calm l s) (n : Nat) : calm l (s.tgtHeld 0 n) := by
  induction n generalizing s with
  | zero => exact h
  | succ n ih =>
    rw [State.tgtHeld]
    split
    · exact h
    · next p rest _ =>
      have htaken : calm l (s.setQp 0 { s.qp 0 with holdArea := rest }) := h.setQp (by rfl)
      refine ih ?_
      split
      · exact htaken.tgtNow p
      · exact htaken.tgtRepeat p false
      · exact htaken.tgtRepeat p true
      · exact htaken

theorem calm.drainQps (h : calm l s) (hkeys : ∀ e ∈ s.qps, e.1 = 0) : calm l s.drainQps := by
  unfold State.drainQps
  generalize s.qps = es at hkeys
  induction es generalizing s with
  | nil => exact h
  | cons e es ih =>
    obtain ⟨he, hes⟩ := List.forall_mem_cons.1 hkeys
    refine ih ?_ hes
    dsimp only
    split
    · exact h
    · rw [he]
      exact h.tgtHeld _

end

end Machine
end Sys2Proof
end

section
/-! PROOFS. What the device does after a command when it is out of service leaves QPs as they are but for held packets; and with it that
PROBE_TIMER can change the stamps of older probes (R197). -/

namespace Sys2Proof
namespace Machine

/-! ### Ethernet ports that go down -/

/-- QPs, the fabric, and whether the exception queue is enabled. -/
def State.sendSide (s : State) : List (Nat × Qp) × Valir × Nat := (s.qps, s.vl, s.fld F.enExtCtrlEnable)

theorem State.sendSide_setFld (s : State) {f : Fld} (hapart : f.apart 0 F.enExtCtrlEnable 0 = true) (v o : Nat) :
    (s.setFld f v o).sendSide = s.sendSide :=
  congrArg (fun n => (s.qps, s.vl, n)) (fld_setFld_ne hapart s v o 0)

theorem State.sendSide_setEport (s : State) (p : Nat) (x : EPort) : (s.setEport p x).sendSide = s.sendSide :=
  State.sendSide_setFld _ (by decide) _ p

theorem State.sendSide_enCount (s : State) (p i n : Nat) : (s.enCount p i n).sendSide = s.sendSide :=
  s.sendSide_setFld (by decide) _ _

theorem State.sendSide_emit (s : State) (o : Output) : (s.emit o).sendSide = s.sendSide := by
  simp [State.sendSide]

theorem State.sendSide_hbmWrite (s : State) (off : Nat) (bs : List Byte) : (s.hbmWrite off bs).sendSide = s.sendSide := by
  rw [State.sendSide, (dataWritten_hbmWrite s off bs).regs F.enExtCtrlEnable 0 0 (by decide) (by decide)]
  simp [State.sendSide]

theorem State.sendSide_extDone (s : State) (i : Nat) (st : Status) (time : Nat) : (s.extDone i st time).sendSide = s.sendSide := by
  rw [State.extDone]
  exact ((State.sendSide_setFld _ (by decide) _ _).trans (State.sendSide_hbmWrite _ _ _)).trans (State.sendSide_hbmWrite _ _ _)

theorem State.sendSide_enStomp (s : State) (p : Nat) (w : WireFrame) (min : Nat) : (s.enStomp p w min).sendSide = s.sendSide := by
  rw [State.enStomp]
  exact State.sendSide_emit _ _

theorem State.sendSide_enDown (s : State) (p : Nat) (st : EState) : (s.enDown p st).sendSide = s.sendSide := by
  unfold State.enDown
  extract_lets x n t u v
  have ht : t.sendSide = s.sendSide := by
    dsimp only [t]
    split
    · exact s.sendSide_enCount p 16 n
    · rfl
  have hu : u.sendSide = s.sendSide := by
    dsimp only [u]
    split
    · split
      · exact ((State.sendSide_extDone _ _ _ _).trans (t.sendSide_enStomp p _ 0)).trans ht
      · exact (t.sendSide_enStomp p _ 0).trans ht
    · exact ht
  have hv : v.sendSide = s.sendSide := by
    refine (foldl_keeps State.sendSide (fun t f => ?_) _ _).trans hu
    split
    · exact t.sendSide_extDone _ _ _
    · rfl
  calc _ = _ := State.sendSide_setFld _ (by decide) _ p
    _ = _ := State.sendSide_setFld _ (by decide) _ p
    _ = _ := State.sendSide_setEport v p _
    _ = _ := hv

theorem State.sendSide_enRefresh (s : State) : s.enRefresh.sendSide = s.sendSide := by
  refine foldl_keeps State.sendSide (fun t p => ?_) _ _
  split
  · unfold State.enStart
    dsimp only
    split
    · exact t.sendSide_setEport p _
    · rfl
  · split
    · rfl
    · exact t.sendSide_enDown p .off

section
variable {l : List (Nat × Nat)} {s t : State}

/-! ### The device settles -/

theorem calm.dev (h : calm l s) : s.dev = probeState.dev := h.field State.dev

theorem calm.round (h : calm l s) (hkeys : ∀ e ∈ s.qps, e.1 = 0) : calm l s.round := by
  have hdones : s.dones = [] := h.field State.dones
  have htell (n : Nat) : s.tellAll n = s := by
    cases n with
    | zero => rfl
    | succ n => rw [State.tellAll, hdones]
  have hdrain := h.drainQps hkeys
  have hcolls : s.drainQps.colls = [] := hdrain.field State.colls
  have hcoll : s.drainQps.collPump = s.drainQps := by rw [State.collPump, hcolls]; rfl
  have hpump : s.drainQps.pump = s.drainQps := by rw [State.pump, State.netOpen, hdrain.dev]; rfl
  rw [State.round, htell, hcoll, hpump]
  exact hdrain

theorem calm.settle (h : calm l s) (hkeys : ∀ e ∈ s.qps, e.1 = 0) : calm l s.settle := by
  have hwalks {t : State} (ht : calm l t) : t.startWalks = t := by
    rw [State.startWalks, show t.walks = [] from ht.field State.walks]
    rfl
  unfold State.settle
  split
  · rw [hwalks h]
    exact h
  · have hround := h.round hkeys
    have hstop : s.round.dones.isEmpty ∧ s.round.colls.length = s.colls.length := by
      rw [show s.round.dones = [] from hround.field State.dones, show s.round.colls = [] from hround.field State.colls,
        show s.colls = [] from h.field State.colls]
      exact ⟨rfl, rfl⟩
    rw [State.settleN, if_pos hstop, hwalks hround]
    exact hround

/-! ### Links fall, and nothing enters the fabric -/

theorem calm.vlRefresh (h : calm l s) : s.vlRefresh = s := by
  have hlinks : s.vl.links = [] := (h.field fun s => s.vl.links)
  have hoff (i : Nat) : (s.vlink i).state = .off := by rw [State.vlink, hlinks]; rfl
  have hdown (i : Nat) : s.vlMayTrain i = false := by
    rw [State.vlMayTrain, h.dev]
    exact Bool.and_false _
  rw [State.vlRefresh]
  generalize List.range 16 = is
  induction is with
  | nil => rfl
  | cons i is ih =>
    rw [List.foldl_cons]
    simp only [hdown, hoff, Bool.false_eq_true, if_false, if_true]
    exact ih

theorem calm.linksFall (h : calm l s) : s.linksFall.sendSide = s.sendSide := by
  unfold State.linksFall
  extract_lets on
  split
  · rfl
  · rw [State.refreshLinks, h.vlRefresh]
    exact s.sendSide_enRefresh

/-- The window of the injection port is used up, and the port is full. -/
theorem calm.injAll (h : calm l s) (hside : t.sendSide = s.sendSide) : t.injAll = t := by
  have hvl : t.vl = s.vl := congrArg (fun x => x.2.1) hside
  have hwins : t.vl.wins = probeState.vl.wins := (congrArg Valir.wins hvl).trans (h.field fun s => s.vl.wins)
  have hinj : t.vl.inj = [(1, [{ dst := 1, src := 0, len := 2048 }])] :=
    (congrArg Valir.inj hvl).trans (h.field fun s => s.vl.inj)
  have hto : t.injTo 1 1 = t := by
    rw [State.injTo, State.ewin, hwins]
    exact if_pos (by decide)
  have hroom (x : VHdr) (hx : 0 < x.len) : t.injRoom 0 x = false := by
    have hflits : t.injFlits 0 = 2048 := by rw [State.injFlits, hinj]; rfl
    rw [State.injRoom, hflits]
    exact decide_eq_false (by omega)
  obtain ⟨hs, hkept⟩ := h.full
  have hkept : t.vl.kept = [(0, keptHdr :: hs)] := by rw [hvl, hkept]
  have hmore : t.injMore 0 (keptHdr :: hs).length = t := by
    have hfirst : t.injKept 0 = keptHdr :: hs := by rw [State.injKept, hkept]; rfl
    rw [List.length_cons, State.injMore, hfirst]
    dsimp only
    rw [hroom keptHdr (by decide)]
    rfl
  rw [State.injAll, hinj]
  simp only [List.foldl_cons, List.foldl_nil, List.length_singleton, Nat.one_mod_eq_one.2 (show 256 ≠ 1 by decide), hto, hkept]
  exact hmore

theorem calm.extPump (h : calm l s) (hside : t.sendSide = s.sendSide) : t.extPump = t := by
  have hreset : probeState.fld F.enExtCtrlEnable = 0 := by
    rw [probeState, State.setFlag, fld_setFld_ne (by decide)]
    rfl
  have hfld : t.fld F.enExtCtrlEnable = s.fld F.enExtCtrlEnable := congrArg (fun x => x.2.2) hside
  have hoff : t.flag F.enExtCtrlEnable = false := by
    rw [State.flag, hfld, h.fld (by decide) (by decide), hreset]
    rfl
  rw [State.extPump]
  cases excSize (t.fld F.enExtCtrlSize) with
  | zero => rfl
  | succ n =>
    rw [State.extRun, hoff]
    exact if_pos (.inl rfl)

theorem calm.finish (h : calm l s) (hkeys : ∀ e ∈ s.qps, e.1 = 0) : (s.finish.qp 0).probes = l := by
  have ht := h.settle hkeys
  have hwalks : s.settle.walks = [] := ht.field State.walks
  have hdcs : s.settle.dcsIn = [] := ht.field State.dcsIn
  have htrial : s.settle.trialFault = s.settle := by
    rw [State.trialFault, ht.dev]
    exact if_neg fun hf => absurd hf.1 (by decide)
  have hfinish : s.finish = s.settle.linksFall := by
    rw [State.finish]
    simp only [hwalks, List.any_nil, Bool.false_eq_true, if_false, hdcs, List.isEmpty_nil, if_true]
    rw [htrial, ht.injAll ht.linksFall, ht.extPump ht.linksFall]
  have hqps : s.settle.linksFall.qps = s.settle.qps := congrArg Prod.fst ht.linksFall
  rw [hfinish, State.qp, hqps]
  exact ht.probes

/-! ### The command ends -/

theorem State.platformEvents_qps (s t : State) : (s.platformEvents t).qps = s.qps := by
  unfold State.platformEvents
  split
  · rfl
  · refine foldl_keeps State.qps (fun u i => ?_) _ _
    split
    · rfl
    · simp

theorem State.after_qps (s t : State) : (s.after t).qps = t.qps := rfl

theorem calm.hbmHolds (h : calm l s) : probeState.hbmHolds = s.hbmHolds := by
  have hhbm : s.hbm = probeState.hbm := h.field State.hbm
  have htagging : s.prot.tagging = probeState.prot.tagging := h.field fun s => s.prot.tagging
  have hzeroing : s.ten.zeroing = probeState.ten.zeroing := h.field fun s => s.ten.zeroing
  have hlevel (k : Nat) : s.fld F.hbmStatusLevel k = probeState.fld F.hbmStatusLevel k := h.fld (by decide) (by decide) k
  simp only [State.hbmHolds, State.stack, hhbm, htagging, hzeroing, hlevel]

/-- At the end of a command that leaves the device so, QP 0 has the same probes. -/
theorem calm.finished (h : calm l s) (hkeys : ∀ e ∈ s.qps, e.1 = 0) : ((probeState.finished s).qp 0).probes = l := by
  have hqps : (probeState.finished s).qps = s.finish.qps := by
    rw [State.finished, State.after_qps, State.platformEvents_qps, State.freed, if_pos h.hbmHolds]
  rw [State.qp, hqps]
  exact h.finish hkeys

end

end Machine
end Sys2Proof
end

section
/-! PROOFS. PROBE_TIMER can change the stamps of older probes: a probe that still waits at its port leaves with the new one, and is stamped
then (R197). -/

namespace Sys2Proof
namespace Machine

theorem transported.nodeId {s t : State} (h : transported s t) : t.nodeId = s.nodeId := by
  rw [State.nodeId, h.regs F.idNodeIdRack 0 0 (by decide) (by decide), h.regs F.idNodeIdPos 0 0 (by decide) (by decide)]
  rfl

/-- Packets for a node of another rack leave on Ethernet. -/
theorem transported_sltOut {s : State} {q : Nat} (hfar : (s.qp q).peerNode / 256 ≠ s.nodeId / 256) (p : SltPkt) :
    transported s (s.sltOut q p) := by
  unfold State.sltOut
  extract_lets x p'
  have hseal := transported_seal s q p'
  generalize s.seal q p' = r at hseal
  obtain ⟨p'', t⟩ := r
  have hcounted := (hseal.trans (transported_setFld t (f := F.tpPipeTxPkts) (by decide) (by decide) (t.fld F.tpPipeTxPkts (q % 4) + 1) (q % 4))).trans
    (transported_count (ev := 0x22) (by decide) _ x.owner q p''.payload.length)
  dsimp only
  split
  · next hnear => exact absurd (hnear.trans (congrArg (· / 256) hcounted.nodeId)) hfar
  · split
    · exact (hcounted.trans (transported_setQp _ q _)).trans (transported_ethOut _ _ _ _ _ _ _ _)
    · exact hcounted

/-- QP 0 sends a probe on path 1; the older one leaves with it. -/
def probeSent : State := probeState.sltOut 0 { op := .pathProbe, path := 1, ackReq := true, probe := some probeState.stamp }

theorem probeSent_probes : (probeSent.qp 0).probes = [(0, 5)] := by decide +kernel

theorem probeSent_keys : ∀ e ∈ probeSent.qps, e.1 = 0 := by decide +kernel

theorem probeSent_kept : probeSent.vl.kept = [(0, [keptHdr])] := by decide +kernel

theorem probeSent_en : probeSent.en.map (fun e => (e.1, e.2.excOut)) = [(0, true)] := by decide +kernel

theorem probeSent_waits : probeSent.portsWait := by
  intro p
  obtain ⟨⟨k, x⟩, hen, hx⟩ := List.map_eq_singleton_iff.1 probeSent_en
  obtain ⟨rfl, hexc⟩ := Prod.mk.inj hx
  rw [State.eport, hen]
  by_cases hp : p = 0
  · subst hp
    exact .inr hexc
  · left
    simp [AMap.look, AMap.find, hp]

theorem probeSent_calm : calm [(0, 5)] probeSent :=
  ⟨transported_sltOut (by decide +kernel) _, probeSent_probes, probeSent_waits, [], probeSent_kept⟩

/-- Whatever QP 0 is to be but for its probes, they are there when the command ends. -/
theorem finished_probes_of_probeSent (x : Qp) : ((probeState.finished (probeSent.setQp 0 x)).qp 0).probes = x.probes := by
  refine (probeSent_calm.setQp_probes x).finished fun e he => ?_
  rcases AMap.mem_of_mem_save he with rfl | he
  · rfl
  · exact probeSent_keys e he

/-- With one suspect path, PROBE_TIMER sends one probe and records its stamp. -/
theorem State.probeTimer_of_onesOf {s : State} {q path : Nat} (hup : (s.qp q).up = true) (hslt : (s.qp q).roce = false)
    (hone : onesOf (s.qp q).suspect 64 = [path]) {t : State}
    (ht : s.sltOut q { op := .pathProbe, path := path, ackReq := true, probe := some s.stamp } = t) :
    s.probeTimer q = t.setQp q { t.qp q with
      probes := (t.qp q).probes ++ [(path, if (t.qp q).enc then (t.qp q).lastStamp else t.stamp)] } := by
  subst ht
  rw [State.probeTimer, State.sendProbes]
  simp only [hup, hslt, hone, Bool.not_true, Bool.false_eq_true, or_self, if_false]
  rfl

/-- The timer sends the probe; at its end the probes have the stamps at which they left. -/
theorem finished_probeTimer_probes : ((probeState.finished (probeState.probeTimer 0)).qp 0).probes = [(0, 5), (1, 5)] := by
  have hclear : (probeSent.qp 0).enc = false := by decide +kernel
  have hstamp : probeSent.stamp = 5 := by decide +kernel
  rw [State.probeTimer_of_onesOf (path := 1) (t := probeSent) (by decide +kernel) (by decide +kernel) (by decide +kernel) rfl,
    finished_probes_of_probeSent, probeSent_probes, hclear, hstamp]
  rfl

/-- Refutes O25: an older probe of the QP that still waits at its port leaves with the new probe and is stamped then (R197), so that the stamp
recorded for it changes as well. -/
theorem not_transportTimersTakeEffect : ¬ Obligations.TransportTimersTakeEffect := by
  unfold Obligations.TransportTimersTakeEffect
  rintro ⟨-, -, -, -, hprobe, -⟩
  obtain ⟨u, hexec, hu, hprobes⟩ := hprobe probeState 0 1 (by decide +kernel) (by decide +kernel) (by decide +kernel)
  have hsame : probeState.finished (probeState.probeTimer 0) = probeState.finished (probeSent.setQp 0 (u.qp 0)) := by
    change u = probeSent.setQp 0 (u.qp 0) at hu
    rw [← hu]
    exact Host.Outcome.next.inj hexec
  have hclaimed : (u.qp 0).probes = [(0, 0), (1, 5)] := hprobes
  have hfalse : [(0, 5), (1, 5)] = [(0, 0), (1, 5)] := by
    rw [← finished_probeTimer_probes, hsame, finished_probes_of_probeSent, hclaimed]
  exact absurd hfalse (by decide)

end Machine
end Sys2Proof
end

section
/-! PROOFS. Shapers and meters: what a refill leaves of a credit, what a charge may take, and how a quantity is coloured (R224 to R226, R232 to
R236). -/

namespace Sys2Proof
namespace Machine

/-! ### Credit of a shaper (R224 to R226) -/

/-- Limiting a credit takes the nearest value between minus and plus the burst. -/
theorem clipCredit_eq (c : Int) (burst : Nat) :
    clipCredit c burst = max (-((burst * 8 : Nat) : Int)) (min ((burst * 8 : Nat) : Int) c) := by
  rw [clipCredit]
  split
  · omega
  · split <;> omega

theorem neg_burst_le_clipCredit (c : Int) (burst : Nat) : -((burst * 8 : Nat) : Int) ≤ clipCredit c burst :=
  clipCredit_eq c burst ▸ le_max_left _ _

theorem clipCredit_le_burst (c : Int) (burst : Nat) : clipCredit c burst ≤ ((burst * 8 : Nat) : Int) := by
  rw [clipCredit_eq]
  omega

theorem le_clipCredit {a c : Int} {burst : Nat} (hc : a ≤ c) (hburst : a ≤ ((burst * 8 : Nat) : Int)) : a ≤ clipCredit c burst :=
  clipCredit_eq c burst ▸ le_max_of_le_right (le_min hburst hc)

/-- Clearing a debt only raises a credit. -/
theorem Shaper.clipCredit_le_settle (x : Shaper) (ceil burst rate : Nat) :
    clipCredit x.credit burst ≤ (x.settle ceil burst rate).credit := by
  dsimp only [Shaper.settle]
  split
  · next hdebt => exact hdebt.2.le
  · exact le_rfl

theorem Shaper.settle_credit_nonneg {x : Shaper} (hclear : x.clear = true) (ceil burst rate : Nat) :
    0 ≤ (x.settle ceil burst rate).credit := by
  dsimp only [Shaper.settle]
  split
  · exact le_rfl
  · next hnodebt => exact not_lt.1 fun hneg => hnodebt ⟨hclear, hneg⟩

/-- What the settled credit and the burst are not below, the refilled credit is not below. -/
theorem Shaper.le_refill_credit {x : Shaper} {ceil burst rate : Nat} {a : Int} (hsettle : a ≤ (x.settle ceil burst rate).credit)
    (hburst : a ≤ ((burst * 8 : Nat) : Int)) : a ≤ (x.refill ceil burst rate).credit :=
  le_clipCredit (hsettle.trans (Int.le_add_of_nonneg_right (Int.natCast_nonneg rate))) hburst

/-- Settles O32: both the settled and the refilled credit are limited to the burst, and between the two limits it only grows. -/
theorem shaperCreditStaysWithinItsBurst : Obligations.ShaperCreditStaysWithinItsBurst := by
  refine ⟨fun x ceil burst rate => ⟨neg_burst_le_clipCredit _ _, clipCredit_le_burst _ _, fun _ hhi => ?_, fun hclear => ?_, rfl⟩,
    fun x n hallows => of_decide_eq_true hallows⟩
  · exact Shaper.le_refill_credit ((le_clipCredit le_rfl hhi).trans (x.clipCredit_le_settle ceil burst rate)) hhi
  · exact Shaper.le_refill_credit (Shaper.settle_credit_nonneg hclear ceil burst rate) (Int.natCast_nonneg _)

/-! ### Colours of a meter (R232 to R236) -/

/-- A quantity is green and in the committed bucket, or yellow and in the excess bucket, or red; where the meter is aware of colours, the
pre-colour was no worse. -/
theorem Meter.colour_cases (m : Meter) (pre : Colour) (n : Nat) :
    (m.colour pre n = (.green, { m with tc := m.tc - n * 8 }) ∧ n * 8 ≤ m.tc ∧ (m.aware = true → pre = .green)) ∨
    (m.colour pre n = (.yellow, { m with te := m.te - n * 8 }) ∧ n * 8 ≤ m.te ∧ (m.aware = true → pre ≠ .red)) ∨
    m.colour pre n = (.red, m) := by
  rw [Meter.colour]
  generalize hseen : (if m.aware then pre else .green) = seen
  have hpre : m.aware = true → pre = seen := fun haware => by rw [← hseen, if_pos haware]
  cases seen with
  | green =>
    by_cases htc : n * 8 ≤ m.tc
    · exact .inl ⟨if_pos htc, htc, hpre⟩
    · by_cases hte : n * 8 ≤ m.te
      · exact .inr (.inl ⟨(if_neg htc).trans (if_pos hte), hte, fun haware => by rw [hpre haware]; decide⟩)
      · exact .inr (.inr ((if_neg htc).trans (if_neg hte)))
  | yellow =>
    by_cases hte : n * 8 ≤ m.te
    · exact .inr (.inl ⟨if_pos hte, hte, fun haware => by rw [hpre haware]; decide⟩)
    · exact .inr (.inr (if_neg hte))
  | red => exact .inr (.inr rfl)

theorem Meter.colour_of_unaware {m : Meter} (h : m.aware = false) (pre : Colour) (n : Nat) : m.colour pre n = m.colour .green n := by
  simp only [Meter.colour, h, Bool.false_eq_true, if_false]

/-- Settles O33: by the three colours that a quantity can get. -/
theorem meterChargesOneBucket : Obligations.MeterChargesOneBucket := by
  intro m pre n
  have hunaware (h : m.aware = false) : m.colour pre n = m.colour .green n := Meter.colour_of_unaware h pre n
  rcases m.colour_cases pre n with ⟨hcolour, hholds, hpre⟩ | ⟨hcolour, hholds, hpre⟩ | hcolour
  · refine ⟨fun _ => ?_, ?_, ?_, fun haware => ?_, hunaware⟩
    all_goals rw [hcolour]
    · exact ⟨rfl, hholds⟩
    · exact nofun
    · exact nofun
    · rw [hpre haware]
      exact ⟨nofun, nofun⟩
  · refine ⟨?_, fun _ => ?_, ?_, fun haware => ⟨fun hred => absurd hred (hpre haware), fun _ => ?_⟩, hunaware⟩
    all_goals rw [hcolour]
    · exact nofun
    · exact ⟨rfl, hholds⟩
    · exact nofun
    · exact nofun
  · refine ⟨?_, ?_, fun _ => ?_, fun _ => ⟨fun _ => ?_, fun _ => ?_⟩, hunaware⟩
    all_goals rw [hcolour]
    · exact nofun
    · exact nofun
    · exact nofun

end Machine
end Sys2Proof
end

section
/-! PROOFS. The commands of congestion control and shaping: refill ticks, ends of epochs, samples and CLEAR_DEBT (R217 to R227, R238, R240). -/

namespace Sys2Proof
namespace Machine

/-! ### Refill ticks (R225) -/

/-- The state but for congestion control. -/
def State.butCc (s : State) : State := { s with cc := {} }

theorem eq_with_cc_of_butCc {s t : State} (h : t.butCc = s.butCc) : t = { s with cc := t.cc } :=
  congrArg (fun u : State => { u with cc := t.cc }) h

theorem created_of_butCc {s t : State} (h : t.butCc = s.butCc) : t.created = s.created :=
  (congrArg State.created h : t.butCc.created = s.butCc.created)

theorem heldReads_of_butCc {s t : State} (h : t.butCc = s.butCc) : t.heldReads = s.heldReads :=
  (congrArg State.heldReads h : t.butCc.heldReads = s.butCc.heldReads)

/-- The state with one more refill tick counted. -/
def State.ticked (s : State) : State := { s with cc := { s.cc with ticks := s.cc.ticks + 1 } }

/-- The refill tick of a QP that the map of QPs holds. -/
def State.tickQp (s : State) (e : Nat × Qp) : State := if e.2.state = .free then s else s.refillQp e.1

/-- The refill tick of a function: its shaper and its two meters. -/
def State.tickFn (s : State) (fn : Nat) : State := ((s.refillFn fn).refillMeter fn 0).refillMeter fn 1

theorem State.refillQp_of_up {s : State} {q : Nat} (hup : (s.qp q).up = true) {rc : Nat}
    (hrc : clampRc (s.rateCtl q).rc (s.rateCtl q).prof.rmin (s.fld F.ccShpCfgCeil (shpObj false q)) = rc) :
    s.refillQp q = (s.setRate q { s.rateCtl q with rc := rc, timer := (s.rateCtl q).timer - 1 }).setShaper (shpObj false q)
      ((s.shaper (shpObj false q)).refill (s.fld F.ccShpCfgCeil (shpObj false q)) (burstBytes (s.fld F.ccShpCfgBurst (shpObj false q)))
        (min (s.fld F.ccShpCfgCeil (shpObj false q)) rc)) :=
  hrc ▸ if_pos hup

theorem State.butCc_setShaper (s : State) (o : Nat) (x : Shaper) : (s.setShaper o x).butCc = s.butCc := rfl

theorem State.butCc_setRate (s : State) (q : Nat) (x : RateCtl) : (s.setRate q x).butCc = s.butCc := rfl

theorem State.butCc_refillQp (s : State) (q : Nat) : (s.refillQp q).butCc = s.butCc := by
  unfold State.refillQp
  dsimp only
  split
  · exact (State.butCc_setShaper _ _ _).trans (s.butCc_setRate q _)
  · exact s.butCc_setShaper _ _

theorem State.butCc_tickQp (s : State) (e : Nat × Qp) : (s.tickQp e).butCc = s.butCc := by
  unfold State.tickQp
  split
  · rfl
  · exact s.butCc_refillQp e.1

theorem State.butCc_refillMeter (s : State) (fn kind : Nat) : (s.refillMeter fn kind).butCc = s.butCc := rfl

theorem State.ticks_refillMeter (s : State) (fn kind : Nat) : (s.refillMeter fn kind).cc.ticks = s.cc.ticks := rfl

theorem State.shaper_refillMeter (s : State) (fn kind o : Nat) : (s.refillMeter fn kind).shaper o = s.shaper o := rfl

theorem State.butCc_tickFn (s : State) (fn : Nat) : (s.tickFn fn).butCc = s.butCc :=
  (State.butCc_refillMeter _ fn 1).trans (State.butCc_refillMeter _ fn 0)

theorem State.ticks_tickFn (s : State) (fn : Nat) : (s.tickFn fn).cc.ticks = s.cc.ticks :=
  (State.ticks_refillMeter _ fn 1).trans (State.ticks_refillMeter _ fn 0)

theorem State.shaper_tickFn (s : State) (fn o : Nat) : (s.tickFn fn).shaper o = (s.refillFn fn).shaper o :=
  (State.shaper_refillMeter _ fn 1 o).trans (State.shaper_refillMeter _ fn 0 o)

theorem State.butCc_ticks (s : State) (qps : List (Nat × Qp)) (fns : List Nat) :
    (fns.foldl State.tickFn (qps.foldl State.tickQp s)).butCc = s.butCc :=
  (foldl_keeps State.butCc State.butCc_tickFn fns _).trans (foldl_keeps State.butCc State.butCc_tickQp qps s)

/-- With no host read held, a refill tick is that of every QP and then of every function created. -/
theorem State.refillTick_eq {s : State} (hheld : s.heldReads = []) :
    s.refillTick = s.created.foldl State.tickFn (s.qps.foldl State.tickQp s.ticked) := by
  have hcreated : (s.qps.foldl State.tickQp s.ticked).created = s.created := created_of_butCc (s.ticked.butCc_ticks s.qps [])
  have hreads : (s.created.foldl State.tickFn (s.qps.foldl State.tickQp s.ticked)).heldReads = [] :=
    (heldReads_of_butCc (s.ticked.butCc_ticks s.qps s.created)).trans hheld
  rw [← hcreated] at hreads ⊢
  exact congrArg (List.foldl _ _) hreads

theorem State.refillTick_rest {s : State} (hheld : s.heldReads = []) : s.refillTick = { s with cc := s.refillTick.cc } := by
  refine eq_with_cc_of_butCc ?_
  rw [State.refillTick_eq hheld]
  exact s.ticked.butCc_ticks s.qps s.created

theorem Qp.state_ne_free_of_up {x : Qp} (hup : x.up = true) : x.state ≠ .free := by
  intro hfree
  simp [Qp.up, hfree] at hup

theorem State.refillTick_of_one_qp {s : State} {q : Nat} {x : Qp} (hheld : s.heldReads = []) (hqps : s.qps = [(q, x)])
    (hup : x.up = true) (hcreated : s.created = []) : s.refillTick = s.ticked.refillQp q := by
  rw [State.refillTick_eq hheld, hqps, hcreated]
  exact if_neg (Qp.state_ne_free_of_up hup)

theorem State.refillTick_of_one_fn {s : State} {fn : Nat} (hheld : s.heldReads = []) (hqps : s.qps = []) (hcreated : s.created = [fn]) :
    s.refillTick = s.ticked.tickFn fn := by
  rw [State.refillTick_eq hheld, hqps, hcreated]
  rfl

theorem State.qp_of_one_qp {s : State} {q : Nat} {x : Qp} (hqps : s.qps = [(q, x)]) : s.qp q = x := by
  simp [State.qp, hqps, AMap.look, AMap.find]

/-! ### Ends of epochs (R217, R219 to R221) -/

/-- What a QP's rate control y, as the end of an epoch leaves its rate, is for the next epoch: the events since the epoch ran out count for
it, and the profile is read. -/
def State.nextEpoch (s : State) (q : Nat) (y : RateCtl) : RateCtl :=
  let x := s.rateCtl q
  { y with m := x.mNext, a := x.aNext, mNext := 0, aNext := 0, rtt := x.rttNext, rttNext := none, prof := s.readProf q,
           timer := s.epochTicks q }

section
variable {s : State} {q : Nat}

theorem State.epochEnd_of_no_acks (ha : (s.rateCtl q).a = 0) : s.epochEnd q = s.setRate q (s.nextEpoch q (s.rateCtl q)) := by
  simp only [State.epochEnd, State.nextEpoch, ha, if_true]

theorem State.epochEnd_of_marks (ha : (s.rateCtl q).a ≠ 0) (hm : 0 < (s.rateCtl q).m) :
    s.epochEnd q = s.setRate q (s.nextEpoch q { s.rateCtl q with
      rc := clampRc ((s.rateCtl q).rc - (s.rateCtl q).rc * min (s.rateCtl q).m (s.rateCtl q).a *
        s.fld F.ccProfCtrlDec (s.qp q).profile / ((s.rateCtl q).a * 256)) (s.fld F.ccProfRateRMin (s.qp q).profile) (s.qpCeil q),
      grow := 0, hold := s.fld F.ccProfTimeHold (s.qp q).profile }) := by
  simp only [State.epochEnd, State.nextEpoch, State.readProf, ha, hm, if_true, if_false]

theorem State.epochEnd_of_hold (ha : (s.rateCtl q).a ≠ 0) (hm : (s.rateCtl q).m = 0) (hhold : 0 < (s.rateCtl q).hold) :
    s.epochEnd q = s.setRate q (s.nextEpoch q { s.rateCtl q with hold := (s.rateCtl q).hold - 1 }) := by
  simp only [State.epochEnd, State.nextEpoch, ha, hm, hhold, lt_irrefl, if_true, if_false]

theorem State.epochEnd_of_growth (ha : (s.rateCtl q).a ≠ 0) (hm : (s.rateCtl q).m = 0) (hhold : (s.rateCtl q).hold = 0)
    (hband : s.flag F.ccProfCtrlRttEn (s.qp q).profile = false ∨ (s.rateCtl q).rtt = none) {g : Nat}
    (hg : g = min ((s.rateCtl q).grow + 1) (max 1 (s.fld F.ccProfCtrlGrowMax (s.qp q).profile))) :
    s.epochEnd q = s.setRate q (s.nextEpoch q { s.rateCtl q with
      grow := g, hold := 0,
      rc := clampRc ((s.rateCtl q).rc + g * s.fld F.ccProfRateRStep (s.qp q).profile) (s.fld F.ccProfRateRMin (s.qp q).profile)
        (s.qpCeil q) }) := by
  subst hg
  rcases hband with hoff | hnone
  · simp only [State.epochEnd, State.nextEpoch, State.readProf, ha, hm, hhold, hoff, lt_irrefl, Bool.false_and, Bool.false_eq_true, if_false]
  · simp only [State.epochEnd, State.nextEpoch, State.readProf, ha, hm, hhold, hnone, lt_irrefl, Bool.and_false, Bool.false_eq_true,
      if_false]

/-- EPOCH_END of a QP whose epoch has run out: its rate control is as the end of the epoch leaves it, the next request is a probe, and no other
QP changes. -/
theorem exec_epochEnd {y : RateCtl} (hup : (s.qp q).up = true) (htimer : (s.rateCtl q).timer = 0)
    (hend : s.epochEnd q = s.setRate q y) :
    ∃ u, exec (.epochEnd q) s = .next (s.finished u) ∧ u.rateCtl q = y ∧ u.qp q = { s.qp q with probeDue := true } ∧
      (∀ k, k ≠ q → u.rateCtl k = s.rateCtl k ∧ u.qp k = s.qp k) ∧ u = { s with cc := u.cc, qps := u.qps } := by
  have hends : s.epochEnds q = (s.setRate q y).setQp q { s.qp q with probeDue := true } := by
    rw [State.epochEnds, if_neg (by simp [hup, htimer]), hend]
  refine ⟨_, congrArg s.ends hends, s.rateCtl_setRate q y, State.qp_setQp _ q _, fun k hk => ?_, rfl⟩
  exact ⟨s.rateCtl_setRate_ne q y hk, State.qp_setQp_ne _ q _ hk⟩

end

theorem State.epochEnds_of_running {s : State} {q : Nat} (h : (s.rateCtl q).timer ≠ 0) : s.epochEnds q = s := if_pos (.inr h)

/-! ### Samples of queues (R238, R240) -/

/-- Registers that samples are written to. -/
def sampleRegs : List Reg := [.qfSample, .qfSampleMax, .qfSampleSum, .ccTxqSample, .ccTxqMax]

/-- Nothing but registers among rs has changed. -/
def State.wroteOnly (rs : List Reg) (s t : State) : Prop := t.butFlds = s.butFlds ∧ regsKept rs s t

theorem State.wroteOnly_refl (rs : List Reg) (s : State) : State.wroteOnly rs s s := ⟨rfl, regsKept_refl rs s⟩

theorem State.wroteOnly.trans {rs : List Reg} {s t u : State} (h₁ : State.wroteOnly rs s t) (h₂ : State.wroteOnly rs t u) :
    State.wroteOnly rs s u :=
  ⟨h₂.1.trans h₁.1, h₁.2.trans h₂.2⟩

theorem State.wroteOnly.setFld {rs : List Reg} {s t : State} (h : State.wroteOnly rs s t) {f : Fld} (hreg : f.reg ∈ rs) (v o e : Nat)
    (hpos : f.pos e < 64) : State.wroteOnly rs s (t.setFld f v o e) :=
  ⟨h.1, h.2.setFld hreg v o e hpos⟩

theorem State.wroteOnly.mono {rs rs' : List Reg} {s t : State} (h : State.wroteOnly rs s t) (hsub : rs ⊆ rs') : State.wroteOnly rs' s t :=
  ⟨h.1, h.2.mono hsub⟩

/-- A fold whose every step writes registers among rs alone does no more. -/
theorem State.wroteOnly_foldl {α : Type} {rs : List Reg} {f : State → α → State} (h : ∀ t a, State.wroteOnly rs t (f t a)) (l : List α)
    (s : State) : State.wroteOnly rs s (l.foldl f s) :=
  List.foldlRecOn l f (State.wroteOnly_refl rs s) fun t ht a _ => ht.trans (h t a)

theorem eq_with_flds_of_butFlds {s t : State} (h : t.butFlds = s.butFlds) : t = { s with flds := t.flds } :=
  congrArg (fun u : State => { u with flds := t.flds }) h

/-- The depth of a work queue that its sample shows. -/
def State.queueDepth (s : State) (fn q : Nat) : Nat := min 65536 (subMod 32 (s.queue fn q).tail (s.queue fn q).oldest)

theorem State.queueDepth_of_butFlds {s t : State} (h : t.butFlds = s.butFlds) (fn q : Nat) : t.queueDepth fn q = s.queueDepth fn q :=
  (congrArg (State.queueDepth · fn q) h : t.butFlds.queueDepth fn q = s.butFlds.queueDepth fn q)

theorem State.wroteOnly_sampleQueue (s : State) (fn q : Nat) :
    State.wroteOnly [.qfSample, .qfSampleMax, .qfSampleSum] s (s.sampleQueue fn q) := by
  have hmax (v₁ v₂ v₃ v₄ o : Nat) : State.wroteOnly [.qfSample, .qfSampleMax, .qfSampleSum] s
      ((((s.setFld F.qfSampleDelayNs v₁ o).setFld F.qfSampleDepth v₂ o).setFld F.qfSampleMaxDelayMax v₃ o).setFld
        F.qfSampleMaxDepthMax v₄ o) :=
    ((((State.wroteOnly_refl _ s).setFld (by decide) _ _ _ (by decide)).setFld (by decide) _ _ _ (by decide)).setFld (by decide) _ _ _
      (by decide)).setFld (by decide) _ _ _ (by decide)
  rw [State.sampleQueue]
  split
  · exact hmax _ _ _ _ _
  · exact ((hmax _ _ _ _ _).setFld (by decide) _ _ _ (by decide)).setFld (by decide) _ _ _ (by decide)

theorem State.wroteOnly_sampleClass (s : State) (k c : Nat) : State.wroteOnly [.ccTxqSample, .ccTxqMax] s (s.sampleClass k c) :=
  ((((State.wroteOnly_refl _ s).setFld (by decide) _ _ _ (by decide)).setFld (by decide) _ _ _ (by decide)).setFld (by decide) _ _ _
    (by decide)).setFld (by decide) _ _ _ (by decide)

/-- The sample of a work queue shows its depth, and leaves the depth that the samples of other queues show. -/
theorem State.depth_sampleQueue (s : State) (fn q o : Nat) :
    (s.sampleQueue fn q).fld F.qfSampleDepth o = if o = qObj fn q then s.queueDepth fn q % 2 ^ 17 else s.fld F.qfSampleDepth o := by
  have hshown (t : State) (v : Nat) :
      (t.setFld F.qfSampleDepth v (qObj fn q)).fld F.qfSampleDepth o = if o = qObj fn q then v % 2 ^ 17 else t.fld F.qfSampleDepth o := by
    split
    · next hsame => subst hsame; exact fld_setFld_self t F.qfSampleDepth v _ 0
    · next hother => exact fld_setFld_obj t F.qfSampleDepth v hother 0 (by decide)
  have hkept (t : State) (v₁ v₂ : Nat) :
      ((t.setFld F.qfSampleMaxDelayMax v₁ (qObj fn q)).setFld F.qfSampleMaxDepthMax v₂ (qObj fn q)).fld F.qfSampleDepth o =
        t.fld F.qfSampleDepth o :=
    (fld_setFld_ne (by decide) _ _ _ _).trans (fld_setFld_ne (by decide) _ _ _ _)
  have hdelay (v : Nat) : (s.setFld F.qfSampleDelayNs v (qObj fn q)).fld F.qfSampleDepth o = s.fld F.qfSampleDepth o :=
    fld_setFld_ne (by decide) _ _ _ _
  rw [State.sampleQueue]
  split
  · rw [hkept, hshown, hdelay, State.queueDepth]
  · rw [fld_setFld_ne (g := F.qfSampleDepth) (by decide), fld_setFld_ne (g := F.qfSampleDepth) (by decide), hkept, hshown, hdelay,
      State.queueDepth]

theorem qObj_inj {fn q q' : Nat} : qObj fn q = qObj fn q' ↔ q = q' := by
  rw [qObj, qObj, Nat.add_left_cancel_iff]

/-- Samples of the queues in a list leave the depth of each in its sample register. -/
theorem State.depth_foldl_sampleQueue {fn q v : Nat} (l : List Nat) (s : State) (hdepth : s.queueDepth fn q % 2 ^ 17 = v)
    (h : q ∈ l ∨ s.fld F.qfSampleDepth (qObj fn q) = v) :
    (l.foldl (fun t k => t.sampleQueue fn k) s).fld F.qfSampleDepth (qObj fn q) = v := by
  induction l generalizing s with
  | nil => exact h.resolve_left List.not_mem_nil
  | cons k l ih =>
    refine ih _ ?_ ?_
    · rw [State.queueDepth_of_butFlds (s.wroteOnly_sampleQueue fn k).1, hdepth]
    · rw [s.depth_sampleQueue fn k]
      by_cases hk : q = k
      · subst hk
        exact .inr ((if_pos rfl).trans hdepth)
      · rw [if_neg (mt qObj_inj.1 hk)]
        exact h.imp_left fun hmem => (List.mem_cons.1 hmem).resolve_left hk

/-- The samples of every work queue of every function created. -/
def State.sampleQueues (s : State) : State :=
  s.created.foldl (fun t fn => (List.range (s.alloc fn).qCount).foldl (fun u q => u.sampleQueue fn q) t) s

/-- The samples of every transmit class of every pipeline. -/
def State.sampleClasses (s : State) : State := (List.range 4).foldl (fun t k => (List.range 8).foldl (fun u c => u.sampleClass k c) t) s

theorem State.queueSample_eq (s : State) : s.queueSample = s.sampleQueues.sampleClasses := rfl

theorem State.wroteOnly_sampleQueues (s : State) : State.wroteOnly [.qfSample, .qfSampleMax, .qfSampleSum] s s.sampleQueues :=
  State.wroteOnly_foldl (fun t fn => State.wroteOnly_foldl (fun u q => u.wroteOnly_sampleQueue fn q) _ t) _ s

theorem State.wroteOnly_sampleClasses (s : State) : State.wroteOnly [.ccTxqSample, .ccTxqMax] s s.sampleClasses :=
  State.wroteOnly_foldl (fun t k => State.wroteOnly_foldl (fun u c => u.wroteOnly_sampleClass k c) _ t) _ s

theorem State.wroteOnly_queueSample (s : State) : State.wroteOnly sampleRegs s s.queueSample :=
  (s.wroteOnly_sampleQueues.mono (by decide)).trans (s.sampleQueues.wroteOnly_sampleClasses.mono (by decide))

theorem State.depth_queueSample {s : State} {fn q : Nat} (hcreated : s.created = [fn]) (hq : q < (s.alloc fn).qCount) :
    s.queueSample.fld F.qfSampleDepth (qObj fn q) = s.queueDepth fn q % 2 ^ 17 := by
  rw [State.queueSample_eq, s.sampleQueues.wroteOnly_sampleClasses.2 _ _ _ (by decide) (by decide), State.sampleQueues, hcreated]
  exact State.depth_foldl_sampleQueue _ s rfl (.inl (List.mem_range.2 hq))

/-! ### CLEAR_DEBT (R227) -/

theorem State.clearDebt_eq {s : State} {org : Origin} {o : Nat} (hopen : s.dcsOpen org 0x2000000 = true) (hsel : s.shpSelected = some o) :
    s.clearDebt org = s.setShaper o { s.shaper o with clear := true } := by
  rw [State.clearDebt, hopen, hsel]
  rfl

/-! ### The commands together -/

/-- Settles O31: a tick with nothing else to refill is that of the one shaper, the end of an epoch is one of four updates of the rate, and
samples write registers alone. -/
theorem shapingCommandsComplete : Obligations.ShapingCommandsComplete := by
  refine ⟨?none, ?oneQp, ?oneFn, ?marks, ?hold, ?growth, ?noAcks, ?running, ?samples, ?depth, ?clearDebt⟩
  case none =>
    intro s hheld hqps hcreated
    refine ⟨_, rfl, ?_, State.refillTick_rest hheld⟩
    rw [State.refillTick_eq hheld, hqps, hcreated]
    rfl
  case oneQp =>
    intro s q x hheld hqps hup hcreated
    have hq : (s.ticked.qp q).up = true := (congrArg Qp.up (State.qp_of_one_qp hqps)).trans hup
    have htick := (State.refillTick_of_one_qp hheld hqps hup hcreated).trans (State.refillQp_of_up hq rfl)
    refine ⟨_, rfl, ?_, ?_, ?_, fun o ho => ?_, State.refillTick_rest hheld⟩
    all_goals rw [htick]
    · rfl
    · exact State.shaper_setShaper _ _ _
    · exact s.ticked.rateCtl_setRate q _
    · exact State.shaper_setShaper_ne _ _ _ ho
  case oneFn =>
    intro s fn hheld hqps hcreated
    refine ⟨_, rfl, ?_, ?_, fun o ho => ?_, State.refillTick_rest hheld⟩
    all_goals rw [State.refillTick_of_one_fn hheld hqps hcreated]
    · exact s.ticked.ticks_tickFn fn
    · exact (s.ticked.shaper_tickFn fn _).trans (s.ticked.shaper_setShaper _ _)
    · exact (s.ticked.shaper_tickFn fn o).trans (s.ticked.shaper_setShaper_ne _ _ ho)
  case marks =>
    rintro s q p x rfl rfl hup htimer ha hm
    exact exec_epochEnd hup htimer (State.epochEnd_of_marks ha hm)
  case hold =>
    rintro s q x rfl hup htimer ha hm hhold
    obtain ⟨u, hexec, hrate, hqp, -, hrest⟩ := exec_epochEnd hup htimer (State.epochEnd_of_hold ha hm hhold)
    exact ⟨u, hexec, hrate, congrArg Qp.probeDue hqp, hrest⟩
  case growth =>
    rintro s q p g x rfl rfl hup htimer ha hm hhold hband hg
    obtain ⟨u, hexec, hrate, hqp, -, hrest⟩ := exec_epochEnd hup htimer (State.epochEnd_of_growth ha hm hhold hband hg)
    exact ⟨u, hexec, hrate, congrArg Qp.probeDue hqp, hrest⟩
  case noAcks =>
    rintro s q x rfl hup htimer ha
    obtain ⟨u, hexec, hrate, hqp, -, hrest⟩ := exec_epochEnd hup htimer (State.epochEnd_of_no_acks ha)
    exact ⟨u, hexec, hrate, congrArg Qp.probeDue hqp, hrest⟩
  case running =>
    intro s q htimer
    exact congrArg s.ends (State.epochEnds_of_running htimer)
  case samples =>
    intro s
    obtain ⟨hrest, hkept⟩ := s.wroteOnly_queueSample
    exact ⟨_, rfl, eq_with_flds_of_butFlds hrest, hkept⟩
  case depth =>
    intro s fn q hcreated hq
    exact ⟨_, rfl, State.depth_queueSample hcreated hq⟩
  case clearDebt =>
    intro s org o hopen hsel
    refine ⟨_, congrArg s.answer (State.clearDebt_eq hopen hsel), s.shaper_setShaper o _, fun k hk => ?_, ?_, rfl⟩
    · exact s.shaper_setShaper_ne o _ hk
    · exact memKept_after s _ (memKept_refl s)

end Machine
end Sys2Proof
end

section
/-! PROOFS. Training of a Valir link: every step is one update of its link, which LINK_STATUS and LIVE show (R245, R254 to R257, R272). -/

namespace Sys2Proof
namespace Machine

/-! ### A link comes to a state -/

theorem bit_mod_two_pow (x : Nat) {w i : Nat} (h : i < w) : bit (x % 2 ^ w) i = bit x i := by
  rw [bit_eq_testBit, bit_eq_testBit, Nat.testBit_mod_two_pow, decide_eq_true h, Bool.true_and]

theorem VState.code_lt (st : VState) : st.code < 2 ^ 4 := by cases st <;> decide

theorem State.fld_setVlink_state (s : State) (l : Nat) (x : VLink) : (s.setVlink l x).fld F.vlLinkStatusState l = x.state.code :=
  (fld_setFld_ne (by decide) _ _ 0 l).trans ((fld_setFld_ne (by decide) _ _ l l).trans
    (fld_setFld_of_lt (f := F.vlLinkStatusState) x.state.code_lt _ l 0))

/-- LIVE after an update of a link: the bit of the link is put into it. -/
theorem State.fld_setVlink_live (s : State) (l : Nat) (x : VLink) : (s.setVlink l x).fld F.vlLiveLive =
    putBit (s.fld F.vlLiveLive) l (x.state == .active || x.state == .degraded) % 2 ^ 16 := by
  rw [State.setVlink]
  dsimp only
  rw [fld_setFld_self, fld_setFld_ne (by decide), fld_setFld_ne (by decide)]
  rfl

theorem vlMoves_setVlink {l : Nat} (hl : l < 16) (s : State) (x : VLink) : vlMoves s (s.setVlink l x) l x := by
  refine ⟨s.vlink_setVlink l x, fun k hk => s.vlink_setVlink_ne l x hk, s.fld_setVlink_state l x, ?_, fun k hk hne => ?_,
    (onLink_setVlink l s x).memKept⟩
  · rw [State.fld_setVlink_live, bit_mod_two_pow _ hl, bit_putBit_self]
  · rw [State.fld_setVlink_live, bit_mod_two_pow _ hk, bit_putBit_ne _ _ hne]

section
variable {s t u : State} {l : Nat} {x y : VLink}

theorem vlMoves.trans (h₁ : vlMoves s t l x) (h₂ : vlMoves t u l y) : vlMoves s u l y := by
  obtain ⟨_, hothers, _, _, hlive, hmem⟩ := h₁
  obtain ⟨hlink, hothers', hstate, hown, hlive', hmem'⟩ := h₂
  exact ⟨hlink, fun k hk => (hothers' k hk).trans (hothers k hk), hstate, hown, fun k hk hne => (hlive' k hk hne).trans (hlive k hk hne),
    fun a => (hmem' a).trans (hmem a)⟩

/-- What leaves the links, their state and LIVE as they are may come after the update of a link. -/
theorem vlMoves.before (h : vlMoves s t l x) (hvl : u.vl = t.vl) (hmem : u.mem = t.mem)
    (hstate : u.fld F.vlLinkStatusState l = t.fld F.vlLinkStatusState l) (hlive : u.fld F.vlLiveLive = t.fld F.vlLiveLive) :
    vlMoves s u l x := by
  simpa only [vlMoves, hstate, hlive, memKept, hmem, State.vlink, hvl] using h

theorem vlMoves.setFld (h : vlMoves s t l x) {f : Fld} {e : Nat} (hstate : f.apart e F.vlLinkStatusState 0 = true)
    (hlive : f.apart e F.vlLiveLive 0 = true) (v o : Nat) : vlMoves s (t.setFld f v o e) l x :=
  h.before rfl rfl (fld_setFld_ne hstate t v o l) (fld_setFld_ne hlive t v o 0)

/-- What leaves the links and LIVE as they are may come before the update of a link. -/
theorem vlMoves.behind (h : vlMoves t u l x) (hvl : t.vl = s.vl) (hmem : t.mem = s.mem)
    (hlive : t.fld F.vlLiveLive = s.fld F.vlLiveLive) : vlMoves s u l x := by
  simpa only [vlMoves, hlive, memKept, hmem, State.vlink, hvl] using h

end

theorem State.lt_of_vlMayTrain {s : State} {l : Nat} (h : s.vlMayTrain l = true) : l < 16 := by
  simp only [State.vlMayTrain, Bool.and_eq_true, decide_eq_true_eq] at h
  obtain ⟨⟨⟨⟨hl, _⟩, _⟩, _⟩, _⟩ := h
  exact hl

theorem vlMoves_vlLink {l : Nat} (hl : l < 16) (s : State) (f : LinkFlit) :
    vlMoves s (s.vlLink l f) l ((s.vlink l).flitSent s.clk.cycles) := by
  rw [State.vlLink_eq]
  exact (vlMoves_setVlink hl s _).before rfl rfl rfl rfl

/-- A link on which no packet is leaves the live set for a state (R272). -/
theorem vlMoves_vlDown {s : State} {l : Nat} (hl : l < 16) (hclear : s.vlClear l) (st : VState) (lanes : Nat) :
    vlMoves s (s.vlDown l st lanes) l ((s.vlink l).fresh st lanes) := by
  have hset := vlMoves_setVlink hl s ((s.vlink l).fresh st lanes)
  rw [State.vlDown_of_clear hclear]
  split
  · exact hset.setFld (f := F.vlLinkRetryDown) (by decide) (by decide) _ l
  · exact hset

/-! ### Codeword lock (R245, R255) -/

/-- A link at codeword lock: what the receiver found is kept, and no TS of the partner is known. -/
def VLink.locked (x : VLink) (k : LaneLock) : VLink := { x with state := .param, lock := k, peerTs := none }

/-- The link locked, with LANE_SWAP as the receiver found the lanes. -/
def State.lockShown (s : State) (l : Nat) (k : LaneLock) : State :=
  (s.setVlink l ((s.vlink l).locked k)).setFlag F.vlLinkStatusLaneSwap k.swapped l

/-- The first PARAM flit after codeword lock (Table 9.3): there is no TS to echo. -/
def State.firstParam (s : State) (l : Nat) : LinkFlit :=
  { s.ownFlit l with ltype := 3, node := s.nodeId, link := l, lanes := (s.vlink l).lanes, topo := s.img.topo, ts := s.clk.cycles }

theorem onLink_lockShown (l : Nat) (s : State) (k : LaneLock) : onLink l s (s.lockShown l k) :=
  (onLink_setVlink l s _).trans (onLink_setFld l _ (f := F.vlLinkStatusLaneSwap) (by decide) _ l (by decide))

theorem State.vlink_lockShown (s : State) (l : Nat) (k : LaneLock) : (s.lockShown l k).vlink l = (s.vlink l).locked k :=
  s.vlink_setVlink l _

theorem vlMoves_lockShown {l : Nat} (hl : l < 16) (s : State) (k : LaneLock) :
    vlMoves s (s.lockShown l k) l ((s.vlink l).locked k) :=
  (vlMoves_setVlink hl s _).setFld (f := F.vlLinkStatusLaneSwap) (by decide) (by decide) _ l

theorem State.vlParam_lockShown (s : State) (l : Nat) (k : LaneLock) :
    (s.lockShown l k).vlParam l = (s.lockShown l k).vlLink l (s.firstParam l) := by
  have hkept := onLink_lockShown l s k
  have hlink := s.vlink_lockShown l k
  have hown : (s.lockShown l k).ownFlit l = s.ownFlit l :=
    ownFlit_congr hkept.regs hkept.dev (by rw [hlink]; rfl) (by rw [hlink]; rfl)
  rw [State.vlParam]
  dsimp only
  rw [hown, hlink, State.nodeId_of_regsKept hkept.regs (by decide), hkept.clk]
  rfl

theorem execCodewordLock_skewed {l : Nat} {k : LaneLock} (h : 64 < max k.lagA k.lagB - min k.lagA k.lagB) (s : State) :
    execCodewordLock l k s = .next s :=
  if_neg fun hok => absurd (of_decide_eq_true hok.2) (Nat.not_le.2 h)

theorem execCodewordLock_align {s : State} {l : Nat} {k : LaneLock} (hstate : (s.vlink l).state = .align)
    (hskew : max k.lagA k.lagB - min k.lagA k.lagB ≤ 64) :
    execCodewordLock l k s = .next ((s.lockShown l k).vlLink l (s.firstParam l)) := by
  rw [← State.vlParam_lockShown]
  exact if_pos ⟨hstate, decide_eq_true hskew⟩

theorem vlMoves_codewordLock {l : Nat} (hl : l < 16) (s : State) (k : LaneLock) :
    vlMoves s ((s.lockShown l k).vlLink l (s.firstParam l)) l (((s.vlink l).locked k).flitSent s.clk.cycles) := by
  have hsent := vlMoves_vlLink hl (s.lockShown l k) (s.firstParam l)
  rw [s.vlink_lockShown, (onLink_lockShown l s k).clk] at hsent
  exact (vlMoves_lockShown hl s k).trans hsent

/-! ### PARAM (R256) -/

/-- LINK_STATUS shows the partner that a PARAM flit tells of, and the round trip. -/
def State.partnerShown (s : State) (l node plink rtt : Nat) (ready : Bool) : State :=
  (((s.setFld F.vlLinkStatusPartnerNode node l).setFld F.vlLinkStatusPartnerLink plink l).setFlag
    F.vlLinkStatusPartnerReady ready l).setFld F.vlLinkStatusRttNs (min rtt 0x3FF) l

section
variable (s : State) (l node plink rtt : Nat) (ready : Bool)

theorem State.partnerShown_node : (s.partnerShown l node plink rtt ready).fld F.vlLinkStatusPartnerNode l = node % 2 ^ 16 :=
  (fld_setFld_ne (by decide) _ _ l l).trans ((fld_setFld_ne (by decide) _ _ l l).trans ((fld_setFld_ne (by decide) _ _ l l).trans
    (fld_setFld_self s _ node l 0)))

theorem State.partnerShown_link : (s.partnerShown l node plink rtt ready).fld F.vlLinkStatusPartnerLink l = plink % 2 ^ 4 :=
  (fld_setFld_ne (by decide) _ _ l l).trans ((fld_setFld_ne (by decide) _ _ l l).trans (fld_setFld_self _ _ plink l 0))

theorem State.partnerShown_ready : (s.partnerShown l node plink rtt ready).flag F.vlLinkStatusPartnerReady l = ready :=
  (congrArg (· == 1) (fld_setFld_ne (by decide) _ _ l l)).trans (State.flag_setFlag _ _ ready l 0 rfl)

theorem State.partnerShown_rtt (h : rtt ≤ 600) : (s.partnerShown l node plink rtt ready).fld F.vlLinkStatusRttNs l = rtt := by
  rw [State.partnerShown, Nat.min_eq_left (by omega)]
  exact fld_setFld_of_lt (f := F.vlLinkStatusRttNs) (lt_of_le_of_lt h (by decide)) _ l 0

theorem State.partnerShown_live : (s.partnerShown l node plink rtt ready).fld F.vlLiveLive = s.fld F.vlLiveLive :=
  (fld_setFld_ne (by decide) _ _ l 0).trans ((fld_setFld_ne (by decide) _ _ l 0).trans ((fld_setFld_ne (by decide) _ _ l 0).trans
    (fld_setFld_ne (by decide) _ _ l 0)))

variable {s l node plink rtt ready} {u : State} {x : VLink}

theorem vlMoves_of_partnerShown (h : vlMoves (s.partnerShown l node plink rtt ready) u l x) : vlMoves s u l x :=
  h.behind rfl rfl (s.partnerShown_live l node plink rtt ready)

variable (hstate : (s.vlink l).state = .param)
include hstate

theorem State.vlGotParam_miswired {topo : Nat} (h : AMap.find s.img.neigh l ≠ some (node * 16 + plink) ∨ topo ≠ s.img.topo) (lanes : Nat) :
    s.vlGotParam l node plink lanes topo rtt ready =
      ((s.partnerShown l node plink rtt ready).setVlink l { s.vlink l with state := .miswired }).countSat F.vlLinkRetryMiswire l := by
  rw [State.vlGotParam, if_neg (not_not_intro hstate)]
  exact if_pos h

variable (hpartner : AMap.find s.img.neigh l = some (node * 16 + plink))
include hpartner

/-- A PARAM flit of the partner and the topology that the image gives. -/
theorem State.vlGotParam_wired (lanes : Nat) : s.vlGotParam l node plink lanes s.img.topo rtt ready =
    if 600 < rtt then (s.partnerShown l node plink rtt ready).setVlink l { s.vlink l with state := .hold }
    else if (s.vlink l).lanes &&& (lanes % 4) = 3 then (s.partnerShown l node plink rtt ready).vlUp l 3
    else if (s.vlink l).lanes &&& (lanes % 4) ≠ 0 ∧ (s.partnerShown l node plink rtt ready).flag F.vlLinkCtrlDegradeOk l then
      (s.partnerShown l node plink rtt ready).vlUp l ((s.vlink l).lanes &&& (lanes % 4))
    else (s.partnerShown l node plink rtt ready).setVlink l { s.vlink l with state := .hold } := by
  rw [State.vlGotParam, if_neg (not_not_intro hstate)]
  exact if_neg fun h => h.elim (· hpartner) (· rfl)

theorem State.vlGotParam_far (hrtt : 600 < rtt) (lanes : Nat) : s.vlGotParam l node plink lanes s.img.topo rtt ready =
    (s.partnerShown l node plink rtt ready).setVlink l { s.vlink l with state := .hold } := by
  rw [State.vlGotParam_wired hstate hpartner, if_pos hrtt]

theorem State.vlGotParam_both (hlanes : (s.vlink l).lanes = 3) (hrtt : rtt ≤ 600) :
    s.vlGotParam l node plink 3 s.img.topo rtt ready =
      (s.partnerShown l node plink rtt ready).setVlink l ((s.vlink l).fresh .active 3) := by
  rw [State.vlGotParam_wired hstate hpartner, if_neg (Nat.not_lt.2 hrtt), hlanes]
  rfl

end

/-! ### Faults of lanes (R257, R439, R459) -/

/-- The capture of a single fault writes JNL.FCNT and JNL.FLOG, and draws the free time to resumed service. -/
theorem State.regsKept_singleFault {kind : Nat} (hkind : kind < 8) (s : State) (unit inst : Nat) :
    regsKept [.jnlFcnt, .jnlFlog] s (s.singleFault kind unit inst) := by
  have hcount : regsKept [.jnlFcnt, .jnlFlog] s (s.countSat F.jnlFcntCount 0 1 kind) :=
    regsKept_setFld s (by decide) _ 0 kind (by simp only [Fld.pos, F.jnlFcntCount]; omega)
  have hdraw : regsKept [.jnlFcnt, .jnlFlog] s (s.countSat F.jnlFcntCount 0 1 kind).draw.2 := hcount
  rw [State.singleFault]
  dsimp only
  split
  · exact hcount
  · exact (((((hdraw.setFld (f := F.jnlFlogValid) (by decide) _ 0 0 (by decide)).setFld (f := F.jnlFlogKind) (by decide) _ 0 0
      (by decide)).setFld (f := F.jnlFlogInst) (by decide) _ 0 0 (by decide)).setFld (f := F.jnlFlogUnit) (by decide) _ 0 0
      (by decide)).setFld (f := F.jnlFlogResumeUs) (by decide) _ 0 0 (by decide)).setFld (f := F.jnlFlogReplayed) (by decide) _ 0 0
      (by decide)

theorem State.singleFault_rest (s : State) (kind unit inst : Nat) :
    (s.singleFault kind unit inst).vl = s.vl ∧ (s.singleFault kind unit inst).mem = s.mem := by
  rw [State.singleFault]
  dsimp only
  split <;> exact ⟨rfl, rfl⟩

theorem vlMoves.singleFault {s t : State} {l kind : Nat} {x : VLink} (h : vlMoves s t l x) (hkind : kind < 8) (unit inst : Nat) :
    vlMoves s (t.singleFault kind unit inst) l x := by
  obtain ⟨hvl, hmem⟩ := t.singleFault_rest kind unit inst
  have hregs := State.regsKept_singleFault hkind t unit inst
  exact h.before hvl hmem (hregs _ l 0 (by decide) (by decide)) (hregs _ 0 0 (by decide) (by decide))

/-- A fault of one of two lanes retrains the link on the other. -/
theorem execLaneFault_one {s : State} {l lane : Nat} (hlane : lane = 1 ∨ lane = 2) (hstate : (s.vlink l).state = .active)
    (hlanes : (s.vlink l).lanes = 3) :
    execLaneFault l lane s = .next ((s.vlDown l .retrain (3 - lane)).laneSingle l lane false) := by
  rw [execLaneFault]
  rw [hlanes, hstate]
  rcases hlane with rfl | rfl <;> rfl

theorem execRetrain_degraded {s : State} {org : Origin} {l : Nat} (hopen : s.dcsOpen org 0x3000000 = true)
    (hstate : (s.vlink l).state = .degraded) : execRetrain org l s = .next (s.vlDown l .retrain 3) := by
  rw [execRetrain]
  rw [hopen, hstate]
  rfl

/-! ### Both lanes good, however the link came to V_RETRAIN (log entry 134), and none (R257) -/

theorem execLanesGood_both {s : State} {l : Nat} (hstate : (s.vlink l).state = .retrain) :
    execLanesGood l 3 s = .next (s.setVlink l ((s.vlink l).fresh .active 3)) :=
  if_neg (not_not_intro hstate)

theorem execRetrainTimeout_both {s : State} {l : Nat} (hstate : (s.vlink l).state = .retrain) :
    execRetrainTimeout l 3 s = .next (s.setVlink l ((s.vlink l).fresh .active 3)) :=
  if_neg (not_not_intro hstate)

theorem execRetrainTimeout_none {s : State} {l : Nat} (hstate : (s.vlink l).state = .retrain) :
    execRetrainTimeout l 0 s = .next (s.setVlink l { s.vlink l with state := .hold, lanes := 0 }) :=
  (if_neg (not_not_intro hstate)).trans ((if_neg (by decide)).trans (if_neg fun h => h.1 rfl))

/-- Settles O26: each command is, in the state that takes it, one update of its link, with what its registers show beside it. -/
theorem valirTrainingCommandsComplete : Obligations.ValirTrainingCommandsComplete := by
  refine ⟨?signalDetect, ?lock, ?codewordLock, ?skewed, ?miswired, ?far, ?both, ?stepTimeout, ?holdExpiry, ?laneFault, ?retrain, ?settled⟩
  case signalDetect =>
    exact fun s l n hmay hstate hlanes =>
      ⟨_, ends_taken (if_pos ⟨hmay, hstate, hlanes⟩), vlMoves_setVlink (State.lt_of_vlMayTrain hmay) s _⟩
  case lock => exact fun s l hl hstate => ⟨_, ends_taken (if_pos hstate), vlMoves_setVlink hl s _⟩
  case codewordLock =>
    intro s l k hl hstate hskew
    refine ⟨_, ends_taken (execCodewordLock_align hstate hskew), vlMoves_codewordLock hl s k, ?_,
      (((s.lockShown l k).vlink l).reach (s.lockShown l k).clk.cycles).slot, ?_⟩
    · exact (congrArg (· == 1) (State.fld_vlLink_ne (by decide) (by decide) (by decide) _ l _ l)).trans
        (State.flag_setFlag _ _ k.swapped l 0 rfl)
    · rw [State.vlLink_out]
      exact List.mem_cons_self
  case skewed => exact fun s l k hskew => ends_taken (execCodewordLock_skewed hskew s)
  case miswired =>
    intro s l node plink lanes topo rtt ready hl hstate hwrong
    refine ⟨_, congrArg s.ends (State.vlGotParam_miswired hstate hwrong lanes), vlMoves_of_partnerShown
      ((vlMoves_setVlink hl _ _).setFld (f := F.vlLinkRetryMiswire) (by decide) (by decide) _ l), ?_, ?_⟩
    · exact (fld_setFld_ne (by decide) _ _ l l).trans ((State.fld_setVlink_ne (by decide) (by decide) (by decide) _ l _ l).trans
        (s.partnerShown_node l node plink rtt ready))
    · exact (fld_setFld_ne (by decide) _ _ l l).trans ((State.fld_setVlink_ne (by decide) (by decide) (by decide) _ l _ l).trans
        (s.partnerShown_link l node plink rtt ready))
  case far =>
    intro s l node plink lanes rtt ready hl hstate hpartner hrtt
    exact ⟨_, congrArg s.ends (State.vlGotParam_far hstate hpartner hrtt lanes), vlMoves_of_partnerShown (vlMoves_setVlink hl _ _)⟩
  case both =>
    intro s l node plink rtt ready hl hstate hlanes hpartner hrtt
    refine ⟨_, congrArg s.ends (State.vlGotParam_both hstate hpartner hlanes hrtt), vlMoves_of_partnerShown (vlMoves_setVlink hl _ _),
      ?_, ?_⟩
    · exact (State.fld_setVlink_ne (by decide) (by decide) (by decide) _ l _ l).trans (s.partnerShown_rtt l node plink rtt ready hrtt)
    · exact (congrArg (· == 1) (State.fld_setVlink_ne (by decide) (by decide) (by decide) _ l _ l)).trans
        (s.partnerShown_ready l node plink rtt ready)
  case stepTimeout => exact fun s l hl hstate => ⟨_, ends_taken (if_pos hstate), vlMoves_setVlink hl s _⟩
  case holdExpiry => exact fun s l hl hstate => ⟨_, ends_taken (if_pos hstate), vlMoves_setVlink hl s _⟩
  case laneFault =>
    exact fun s l lane hl hlane hstate hlanes hclear => ⟨_, ends_taken (execLaneFault_one hlane hstate hlanes),
      (vlMoves_vlDown hl hclear .retrain (3 - lane)).singleFault (by decide) _ _⟩
  case retrain =>
    exact fun s org l hopen hl hstate hclear =>
      ⟨_, ends_taken (execRetrain_degraded hopen hstate), vlMoves_vlDown hl hclear .retrain 3⟩
  case settled =>
    exact fun s l hl hstate => ⟨⟨_, ends_taken (execLanesGood_both hstate), vlMoves_setVlink hl s _⟩,
      ⟨_, ends_taken (execRetrainTimeout_both hstate), vlMoves_setVlink hl s _⟩,
      ⟨_, ends_taken (execRetrainTimeout_none hstate), vlMoves_setVlink hl s _⟩⟩

end Machine
end Sys2Proof
end

section
/-! PROOFS. Packets on the Valir fabric and the end-to-end window (R259, R263, R264, R266, R268 to R271). -/

namespace Sys2Proof
namespace Machine

/-! ### A whole packet received on a link (R249, R263) -/

theorem State.vlBytes_frame (s : State) (inp : Option Nat) (h : VHdr) : (s.vlBytes inp h).vl = s.vl ∧ (s.vlBytes inp h).flds = s.flds := by
  unfold State.vlBytes
  split
  · split
    · simp
    · exact ⟨rfl, rfl⟩
  · exact ⟨rfl, rfl⟩

theorem State.vlink_vlBytes (s : State) (inp : Option Nat) (h : VHdr) (l : Nat) : (s.vlBytes inp h).vlink l = s.vlink l := by
  obtain ⟨hvl, _⟩ := s.vlBytes_frame inp h
  rw [State.vlink, hvl, State.vlink]

theorem State.nodeId_vlBytes (s : State) (inp : Option Nat) (h : VHdr) : (s.vlBytes inp h).nodeId = s.nodeId := by
  obtain ⟨_, hflds⟩ := s.vlBytes_frame inp h
  exact State.nodeId_of_regsKept (regsKept_of_flds_eq [] hflds) List.not_mem_nil

theorem State.nodeId_vlLanded (s : State) (l n : Nat) : (s.vlLanded l n).nodeId = s.nodeId :=
  State.nodeId_of_regsKept (s.regsKept_setVlink l _) (by decide)

theorem execPacketHead_link {s : State} {l vc : Nat} (hlive : s.vlLive l = true) (hwait : (s.vlink l).waitReplay = false)
    (hrx : AMap.find (s.vlink l).rx (vc % 8) = none) (h : VHdr) (intact : Bool) :
    execPacketHead (some l) vc h intact s = .next (s.vlArrive l (vc % 8) h (max 1 h.len) [] (some intact)) :=
  if_neg (by simp [hlive, hwait, hrx])

/-- Its bytes have counted for the monitors of the link (R510) when a packet arrives. -/
theorem exec_packetHead_link {s : State} {l vc : Nat} (hlive : s.vlLive l = true) (hwait : (s.vlink l).waitReplay = false)
    (hrx : AMap.find (s.vlink l).rx (vc % 8) = none) (h : VHdr) (intact : Bool) : exec (.packetHead (some l) vc h intact) s =
      .next (s.finished ((s.vlBytes (some l) h).vlArrive l (vc % 8) h (max 1 h.len) [] (some intact))) := by
  have hlink := s.vlink_vlBytes (some l) h l
  exact ends_taken (execPacketHead_link (by rw [State.vlLive, hlink]; exact hlive) (by rw [hlink]; exact hwait)
    (by rw [hlink]; exact hrx) h intact)

/-- A packet for this node that comes whole is taken, and its flits are freed. -/
theorem State.vlArrive_here {s : State} {l vc : Nat} {h : VHdr} (hrx : AMap.find (s.vlink l).rx vc = none) (hdst : h.dst = s.nodeId)
    (intact : Bool) : s.vlArrive l vc h (max 1 h.len) [] (some intact) =
      ((s.vlLanded l (max 1 h.len)).vlFreed l vc (max 1 h.len)).vlHere h intact := by
  have hhead : (s.vlLanded l (max 1 h.len)).vlHead l vc h (max 1 h.len) = (.here, s.vlLanded l (max 1 h.len)) :=
    if_pos (hdst.trans (s.nodeId_vlLanded l _).symm)
  rw [State.vlArrive]
  simp only [hrx, hhead, Option.isSome_none, lt_irrefl, if_false, Bool.false_eq_true, if_true, Option.getD_some]

theorem State.vlHere_good {h : VHdr} (hproto : h.proto = 0) (hlen : h.len = flitsOf h.bytes) (s : State) :
    s.vlHere h true = (s.emit (.vlEject h.resp h.src)).vlCount h.src h.wepoch := by
  simp [State.vlHere, hproto, hlen]

/-! ### A packet injected (R259, R263, R266, R268) -/

/-- The packet as its pipeline injects it. -/
def State.injected (s : State) (h : VHdr) : VHdr :=
  { h with src := s.nodeId, hops := 0, det := false, ce := false, proto := 0, wepoch := 0,
           ect := s.ect != 0, adapt := h.resp, len := flitsOf h.bytes }

/-- A packet for this rack enters the router core, waits at its port, or is not taken. -/
theorem execPacketHead_inject {s : State} {h : VHdr} (hrack : h.dst / 256 = s.nodeId / 256) (vc : Nat) (intact : Bool) :
    execPacketHead none vc h intact s =
      if (s.injQueue (vc % 4) (h.dst % 256)).isEmpty ∧ (s.ewin (h.dst % 256)).out < 256 then .next (s.vlEnter (s.injected h))
      else if s.injFlits (vc % 4) + flitsOf h.bytes ≤ 2048 then
        .next (s.setInjQueue (vc % 4) (h.dst % 256) (s.injQueue (vc % 4) (h.dst % 256) ++ [s.injected h]))
      else .next s :=
  if_neg (not_not_intro hrack)

/-- While 256 packets are outstanding to its destination, no packet enters. -/
theorem execPacketHead_full {s : State} {h : VHdr} (hrack : h.dst / 256 = s.nodeId / 256)
    (hout : 256 ≤ (s.ewin (h.dst % 256)).out) (vc : Nat) (intact : Bool) :
    execPacketHead none vc h intact s =
      if s.injFlits (vc % 4) + flitsOf h.bytes ≤ 2048 then
        .next (s.setInjQueue (vc % 4) (h.dst % 256) (s.injQueue (vc % 4) (h.dst % 256) ++ [s.injected h]))
      else .next s := by
  rw [execPacketHead_inject hrack, if_neg fun hfree => absurd hfree.2 (Nat.not_lt.2 hout)]

theorem State.injQueue_setInjQueue (s : State) (k d : Nat) (q : List VHdr) : (s.setInjQueue k d q).injQueue k d = q :=
  AMap.look_save_self _ _ _ _

theorem State.vlForward_noRoute {s : State} {h : VHdr} (hroute : bit (AMap.look 0 s.vl.route (h.dst % 256)) 63 = false) (level : Nat) :
    s.vlForward h level = s.vlDrop h 1 := by
  have herror : s.vlRoute h level = .error 1 := if_pos (.inr (by rw [hroute]; rfl))
  rw [State.vlForward, herror]

/-- A window after one more packet has been injected (R268). -/
def EWin.oneMore (w : EWin) : EWin := { w with inj := (w.inj + 1) % 2 ^ 32 }

/-- A window after n more packets have been dropped (R269). -/
def EWin.lost (w : EWin) (n : Nat) : EWin := { w with dropped := (w.dropped + n) % 2 ^ 32 }

theorem dropField_reg (reason : Nat) : (dropField reason).reg = .vlDropCnt := by
  unfold dropField; split <;> rfl

theorem dropField_pos (reason : Nat) : (dropField reason).pos 0 < 64 := by
  unfold dropField; split <;> decide

/-- A packet of this node and its window epoch that is dropped adjusts the node's own window (R266). -/
theorem State.vlDrop_own {s : State} {h : VHdr} (hproto : h.proto = 0) (hsrc : h.src = s.nodeId) (hepoch : h.wepoch = s.wepoch)
    (reason : Nat) :
    s.vlDrop h reason = (s.countSat (dropField reason)).setEwin (h.dst % 256) ((s.ewin (h.dst % 256)).lost 1) := by
  have hkept : regsKept [.vlDropCnt] s (s.countSat (dropField reason)) := 
    regsKept_setFld s (by simp [dropField_reg]) _ 0 0 (dropField_pos reason)
  have hnode : h.src = (s.countSat (dropField reason)).nodeId := hsrc.trans (State.nodeId_of_regsKept hkept (by decide)).symm
  have hown : h.wepoch = (s.countSat (dropField reason)).wepoch := hepoch.trans (hkept F.vlE2eCntWepoch 0 0 (by decide) (by decide)).symm
  rw [State.vlDrop]
  dsimp only
  rw [if_neg (not_not_intro hproto), if_pos hnode, if_pos hown]
  rfl

/-- A packet of this node that no route leads on is counted as injected, and as dropped under NO_ROUTE. -/
theorem State.vlEnter_noRoute {s : State} {h : VHdr} (hsrc : h.src = s.nodeId) (hproto : h.proto = 0) (hdst : h.dst ≠ s.nodeId)
    (hroute : bit (AMap.look 0 s.vl.route (h.dst % 256)) 63 = false) :
    s.vlEnter h = ((s.setEwin (h.dst % 256) (s.ewin (h.dst % 256)).oneMore).countSat F.vlDropCntNoRoute).setEwin (h.dst % 256)
      ((s.ewin (h.dst % 256)).oneMore.lost 1) := by
  have henter : s.vlEnter h = (s.setEwin (h.dst % 256) (s.ewin (h.dst % 256)).oneMore).vlForward
      (withCrc { h with wepoch := s.wepoch }) 0 := if_neg hdst
  have hforward := State.vlForward_noRoute (s := s.setEwin (h.dst % 256) (s.ewin (h.dst % 256)).oneMore)
    (h := withCrc { h with wepoch := s.wepoch }) hroute 0
  have hdrop := State.vlDrop_own (s := s.setEwin (h.dst % 256) (s.ewin (h.dst % 256)).oneMore)
    (h := withCrc { h with wepoch := s.wepoch }) hproto hsrc rfl 1
  have hwin := s.ewin_setEwin (h.dst % 256) (s.ewin (h.dst % 256)).oneMore
  exact henter.trans (hforward.trans (hdrop.trans (congrArg (fun w : EWin => State.setEwin _ _ (w.lost 1)) hwin)))

/-! ### Credits, drops and the timeout of the window (R268 to R271) -/

/-- A window whose packets outstanding are counted as dropped (R270). -/
def EWin.givenUp (w : EWin) : EWin := { w with dropped := subMod 32 w.inj w.seen }

theorem EWin.out_givenUp (w : EWin) : w.givenUp.out = 0 := by
  have hzero : (w.inj + 2 * 2 ^ 32 - w.seen - subMod 32 w.inj w.seen) % 2 ^ 32 = 0 := by rw [subMod]; omega
  have hout : w.givenUp.out = if (w.inj + 2 * 2 ^ 32 - w.seen - subMod 32 w.inj w.seen) % 2 ^ 32 < 2 ^ 31 then
      (w.inj + 2 * 2 ^ 32 - w.seen - subMod 32 w.inj w.seen) % 2 ^ 32 else 0 := rfl
  rw [hout, hzero]
  rfl

theorem State.vlGotCredit_stale {s : State} {epoch : Nat} (h : epoch ≠ s.wepoch) (src count : Nat) (fresh : Bool) :
    s.vlGotCredit src count epoch fresh = s := if_pos h

theorem State.vlGotDrop_stale {s : State} {epoch : Nat} (h : epoch ≠ s.wepoch) (dst count : Nat) : s.vlGotDrop dst count epoch = s :=
  if_pos h

theorem State.vlGotCredit_own (s : State) (src count : Nat) : s.vlGotCredit src count s.wepoch false =
    s.setEwin (src % 256) { s.ewin (src % 256) with seen := count } := if_neg (not_not_intro rfl)

theorem State.vlGotCredit_fresh (s : State) (src count : Nat) : s.vlGotCredit src count s.wepoch true =
    (s.setEwin (src % 256) ({ s.ewin (src % 256) with seen := count } : EWin).givenUp).countSat F.vlE2eCntTmoResets :=
  if_neg (not_not_intro rfl)

theorem State.vlGotDrop_own (s : State) (dst count : Nat) : s.vlGotDrop dst count s.wepoch =
    s.setEwin (dst % 256) ((s.ewin (dst % 256)).lost count) := if_neg (not_not_intro rfl)

theorem execE2eTimeout_outstanding {s : State} {dst : Nat} (h : (s.ewin (dst % 256)).out ≠ 0) : execE2eTimeout dst s =
    .next ((s.setEwin (dst % 256) (s.ewin (dst % 256)).givenUp).countSat F.vlE2eCntTmoResets) := if_neg h

/-! ### Reports and notices to sources (R266, R269) -/

/-- The count kept for a source is marked as told. -/
def State.credited (s : State) (src : Nat) (r : ERec) : State :=
  { s with vl := { s.vl with recs := AMap.put s.vl.recs (src % 256) { r with told := r.count, fresh := false } } }

theorem execE2eCreditTimer_untold {s : State} {src : Nat} {r : ERec} (hrec : AMap.find s.vl.recs (src % 256) = some r)
    (htold : r.count ≠ r.told) :
    execE2eCreditTimer src s = .next ((s.credited src r).vlMgmt src 1 0 0 r.count r.epoch r.fresh) := by
  rw [execE2eCreditTimer, hrec]
  dsimp only
  rw [if_neg htold, State.vlCredit, hrec]
  rfl

/-- A notice is taken from those pending, and counted as sent. -/
def State.noticeTaken (s : State) (d : EDrop) : State :=
  ({ s with vl := { s.vl with drops := s.vl.drops.erase d } } : State).countSat F.vlE2eCntDropSent

theorem execE2eDropCoalesce_pending {s : State} {src : Nat} {d : EDrop} (h : s.vl.drops.find? (fun d => d.src == src) = some d) :
    execE2eDropCoalesce src s = .next ((s.noticeTaken d).vlMgmt src 2 d.reason d.dst d.count d.epoch false) := by
  have hfound := List.find?_some h
  have hsrc : d.src = src := eq_of_beq hfound
  rw [execE2eDropCoalesce, h]
  dsimp only
  rw [hsrc]
  rfl

/-- Settles O28: a packet goes one way through each operation, and the window of its destination takes one update. -/
theorem valirPacketCommandsComplete : Obligations.ValirPacketCommandsComplete := by
  refine ⟨fun s l vc h intact hlive hwait hrx => exec_packetHead_link hlive hwait hrx h intact,
    ?here, ?noRoute, ?waits, ?noRoom, ?credit, ?fresh, ?drop, ?stale, ?creditTimer, ?notice, ?timeout⟩
  case here =>
    intro s l vc h hlive hwait hrx hdst hproto hlen
    have hrx' : AMap.find ((s.vlBytes (some l) h).vlink l).rx (vc % 8) = none := by rw [s.vlink_vlBytes]; exact hrx
    rw [exec_packetHead_link hlive hwait hrx, State.vlArrive_here hrx' (hdst.trans (s.nodeId_vlBytes _ h).symm),
      State.vlHere_good hproto hlen]
  case noRoute =>
    intro s h vc hrack hdst hout hqueue hroute
    have heffect := (execPacketHead_inject hrack vc true).trans (if_pos ⟨hqueue, hout⟩)
    rw [State.vlEnter_noRoute (h := s.injected h) rfl rfl hdst hroute] at heffect
    exact ⟨_, ends_taken heffect, State.ewin_setEwin _ (h.dst % 256) _, fld_setFld_self _ _ _ 0 0, memKept_of_mem_eq rfl⟩
  case waits =>
    intro s h vc hrack _ hout hroom
    exact ⟨_, s.injected h, ends_taken ((execPacketHead_full hrack hout vc true).trans (if_pos hroom)), rfl, rfl, rfl,
      s.injQueue_setInjQueue _ _ _, fun _ => rfl, rfl⟩
  case noRoom =>
    intro s h vc hrack hout hfull
    exact ends_taken ((execPacketHead_full hrack hout vc true).trans (if_neg (Nat.not_le.2 hfull)))
  case credit =>
    intro s src count
    exact ⟨_, congrArg s.ends (s.vlGotCredit_own src _), s.ewin_setEwin _ _, fun k hk => s.ewin_setEwin_ne _ _ hk, rfl⟩
  case fresh =>
    intro s src count
    have hwin := s.ewin_setEwin (src % 256) ({ s.ewin (src % 256) with seen := count % 2 ^ 32 } : EWin).givenUp
    exact ⟨_, congrArg s.ends (s.vlGotCredit_fresh src _), hwin, (congrArg EWin.out hwin).trans (EWin.out_givenUp _),
      fld_setFld_self _ _ _ 0 0, fun k hk => s.ewin_setEwin_ne _ _ hk, rfl⟩
  case drop =>
    intro s dst count
    exact ⟨_, congrArg s.ends (s.vlGotDrop_own dst count), s.ewin_setEwin _ _, fun k hk => s.ewin_setEwin_ne _ _ hk, rfl⟩
  case stale =>
    exact fun s a count epoch fresh h =>
      ⟨congrArg s.ends (State.vlGotCredit_stale h a _ fresh), congrArg s.ends (State.vlGotDrop_stale h a count)⟩
  case creditTimer =>
    intro s src r hrec htold
    exact ⟨s.credited src r, ends_taken (execE2eCreditTimer_untold hrec htold), AMap.find_put_self _ _ _,
      fun k hk => AMap.find_put_ne _ _ hk, rfl⟩
  case notice =>
    intro s src d hd
    exact ⟨s.noticeTaken d, ends_taken (execE2eDropCoalesce_pending hd), rfl, fld_setFld_self _ _ _ 0 0, rfl⟩
  case timeout =>
    intro s dst hout
    have hwin := s.ewin_setEwin (dst % 256) (s.ewin (dst % 256)).givenUp
    exact ⟨_, ends_taken (execE2eTimeout_outstanding hout), (congrArg EWin.out hwin).trans (EWin.out_givenUp _),
      (congrArg EWin.inj hwin :), (congrArg EWin.seen hwin :), fun k hk => s.ewin_setEwin_ne _ _ hk, fld_setFld_self _ _ _ 0 0, rfl⟩

end Machine
end Sys2Proof
end

section
/-! PROOFS. Registers of an Ethernet port, and what the discarding of its frames leaves as it is (R280, R281, R288, R292; log entry 50). -/

namespace Sys2Proof
namespace Machine

theorem EState.code_lt (st : EState) : st.code < 2 ^ F.enPortStatusState.width := by cases st <;> decide

/-! ### Updates of a port, and its counters -/

theorem State.fld_setEport_state (s : State) (p : Nat) (x : EPort) : (s.setEport p x).fld F.enPortStatusState p = x.state.code :=
  fld_setFld_of_lt x.state.code_lt _ p 0

theorem regsKept_setEport (s : State) (p : Nat) (x : EPort) : regsKept [.enPortStatus] s (s.setEport p x) :=
  regsKept_setFld _ (f := F.enPortStatusState) (by decide) _ p 0 (by decide)

theorem regsKept_enCount (s : State) (p i n : Nat) : regsKept [.enStat] s (s.enCount p i n) :=
  regsKept_setFld s (f := F.enStatCount) (by decide) _ _ 0 (by decide)

/-- Whether a port may train does not depend on the states of ports (R281). -/
theorem State.enMayTrain_setEport (s : State) (p : Nat) (x : EPort) (q : Nat) : (s.setEport p x).enMayTrain q = s.enMayTrain q := by
  have hmode := regsKept_setEport s p x F.enCfgLgMode 0 0 (by decide) (by decide)
  have heth := regsKept_setEport s p x F.enCfgLgEth 0 0 (by decide) (by decide)
  have henable := (regsKept_setEport s p x).flag F.enPortCfgEnable q 0 (by decide) (by decide)
  rw [State.enMayTrain, State.enExists, State.enLanes, hmode, heth, henable]
  rfl

theorem State.enPump_idle {s : State} {p : Nat} (h : (s.eport p).queue = []) : s.enPump p = s := by
  rw [State.enPump, h]; rfl

theorem State.wireSent_idle {s : State} {p : Nat} (h : (s.eport p).wire = none) : s.wireSent p = s := by
  rw [State.wireSent, h]

/-! ### A frame that is ended with a stomped FCS, and the end of an exception entry -/

/-- It is cut after some number of its bytes. -/
theorem State.enStomp_eq (s : State) (p : Nat) (w : WireFrame) (min : Nat) : ∃ n, n ≤ w.body.length ∧
    s.enStomp p w min = ({ s with freeCount := s.freeCount + 1 } : State).emit (.frame p (cutBytes w.body n) true) := by
  refine ⟨(if min < w.body.length then min else 0) + (Config.freeWord s.freeCount).toNat %
    (w.body.length + 1 - if min < w.body.length then min else 0), ?_, rfl⟩
  split
  · have := Nat.mod_lt (Config.freeWord s.freeCount).toNat (show 0 < w.body.length + 1 - min by omega)
    omega
  · have := Nat.mod_lt (Config.freeWord s.freeCount).toNat (show 0 < w.body.length + 1 - 0 by omega)
    omega

theorem State.enStomp_fields (s : State) (p : Nat) (w : WireFrame) (min : Nat) :
    (s.enStomp p w min).flds = s.flds ∧ (s.enStomp p w min).en = s.en ∧ (s.enStomp p w min).mem = s.mem := by
  obtain ⟨n, _, h⟩ := s.enStomp_eq p w min
  simp [h]

theorem onlySignals_countLines (s : State) (off len : Nat) : onlySignals s (s.countLines 0x51 off len) := by
  unfold State.countLines
  split
  · exact onlySignals_refl s
  · refine onlySignals_foldl (fun t i => ?_) _ s
    dsimp only
    split
    · exact onlySignals_count t _ _ _ _
    · exact onlySignals_refl t

theorem onlySignals_hbmPut (s : State) (off : Nat) (bs : List Byte) : onlySignals s (s.hbmPut off bs) := by
  have hmerges (u : State) (l : List Nat) : onlySignals u (l.foldl (fun (t : State) a => t.countSat F.hbmAtomOps (stackOf a)) u) :=
    onlySignals_of_out_eq (foldl_keeps State.out (fun (t : State) a => show (t.countSat F.hbmAtomOps (stackOf a)).out = t.out from rfl) l u)
  have hput : onlySignals s (({ s with mem := writeBytes s.mem off bs } : State).unpoison off bs.length) := onlySignals_of_out_eq rfl
  have hcounted : onlySignals s (s.hbmCounted off bs) := (hput.trans (hmerges _ _)).trans (onlySignals_countLines _ off bs.length)
  rw [s.hbmPut_eq]
  exact hcounted.trans (onlySignals_of_out_eq (by simp))

theorem onlySignals_hbmWrite (s : State) (off : Nat) (bs : List Byte) : onlySignals s (s.hbmWrite off bs) :=
  onlySignals_foldl (fun t _ => onlySignals_hbmPut t _ _) _ s

theorem onlySignals.mem_out {s t : State} (h : onlySignals s t) {o : Output} (ho : o ∈ s.out) : o ∈ t.out := by
  obtain ⟨es, hout, _⟩ := h
  exact hout ▸ List.mem_append_right es ho

theorem onlySignals_extDone (s : State) (i : Nat) (st : Status) (time : Nat) : onlySignals s (s.extDone i st time) := by
  have hdone (u : State) (v : Nat) : onlySignals u (u.setFld F.enExtHeadHead v) := onlySignals_of_out_eq rfl
  exact ((onlySignals_hbmWrite s _ _).trans (onlySignals_hbmWrite _ _ _)).trans (hdone _ _)

/-- The registers that discarding frames writes: the port's counters, the head of the exception transmit ring and what writes to HBM
count. -/
def discardRegs : List Reg := .enStat :: .enExtHead :: writeRegs

/-- Frames have been discarded: other registers are kept, and the ports still stand as before. -/
structure discarded (s t : State) : Prop where
  regs : regsKept discardRegs s t
  en : t.en = s.en

theorem discarded_refl (s : State) : discarded s s := ⟨regsKept_refl _ s, rfl⟩

theorem discarded.trans {s t u : State} (h₁ : discarded s t) (h₂ : discarded t u) : discarded s u :=
  ⟨h₁.regs.trans h₂.regs, h₂.en.trans h₁.en⟩

theorem discarded_extDone (s : State) (i : Nat) (st : Status) (time : Nat) : discarded s (s.extDone i st time) where
  regs := by
    have hwrite (u : State) (off : Nat) (bs : List Byte) : regsKept discardRegs u (u.hbmWrite off bs) :=
      (dataWritten_hbmWrite u off bs).regs.mono (by simp [discardRegs])
    exact ((hwrite s _ _).trans (hwrite _ _ _)).setFld (by decide) _ 0 0 (by decide)
  en := by simp [State.extDone]

theorem discarded_enStomp (s : State) (p : Nat) (w : WireFrame) (min : Nat) : discarded s (s.enStomp p w min) := by
  obtain ⟨hflds, hen, _⟩ := s.enStomp_fields p w min
  exact ⟨regsKept_of_flds_eq _ hflds, hen⟩

/-! ### A port that leaves its state -/

/-- The entry of an exception frame that is discarded ends with UNREACHABLE; other frames have none. -/
def State.entryLost (s : State) (f : TxFrame) : State :=
  match f.kind with
  | .exc i _ _ => s.extDone i .unreachable 0
  | _ => s

/-- The frame on a wire, if any, is ended with a stomped FCS. -/
def State.wireCut (s : State) (p : Nat) : Option WireFrame → State
  | some w => (s.enStomp p w 0).entryLost w.f
  | none => s

/-- The frames that a port in E_UP holds are counted as lost. -/
def State.lossCounted (s : State) (p : Nat) : State :=
  if (s.eport p).state = .up ∧ 0 < (s.eport p).queue.length + (s.eport p).wire.toList.length then
    s.enCount p 16 ((s.eport p).queue.length + (s.eport p).wire.toList.length)
  else s

/-- The state in which every frame of a port has been discarded, and the port is to change its state. -/
def State.framesLost (s : State) (p : Nat) : State :=
  (s.eport p).queue.foldl State.entryLost ((s.lossCounted p).wireCut p (s.eport p).wire)

/-- The port itself when it leaves for a state: nothing queued, nothing on the wire, no Low Power Idle. -/
def State.portDown (s : State) (p : Nat) (x : EPort) (st : EState) : State :=
  ((s.setEport p { x with state := st, queue := [], wire := none }).setFlag F.enPortStatusLpiTx false p).setFlag F.enPortStatusLpiRx false p

theorem State.enDown_eq (s : State) (p : Nat) (st : EState) : s.enDown p st = (s.framesLost p).portDown p (s.eport p) st := by
  rw [State.enDown, State.framesLost, State.lossCounted]
  cases (s.eport p).wire <;> rfl

theorem discarded_entryLost (s : State) (f : TxFrame) : discarded s (s.entryLost f) := by
  unfold State.entryLost
  split
  · exact discarded_extDone s _ _ _
  · exact discarded_refl s

theorem discarded_lossCounted (s : State) (p : Nat) : discarded s (s.lossCounted p) := by
  unfold State.lossCounted
  split
  · exact ⟨(regsKept_enCount s p 16 _).mono (by simp [discardRegs]), rfl⟩
  · exact discarded_refl s

theorem discarded_wireCut (s : State) (p : Nat) (w : Option WireFrame) : discarded s (s.wireCut p w) := by
  cases w with
  | none => exact discarded_refl s
  | some w => exact (discarded_enStomp s p w 0).trans (discarded_entryLost _ w.f)

theorem discarded_framesLost (s : State) (p : Nat) : discarded s (s.framesLost p) := by
  have hqueue (l : List TxFrame) (u : State) : discarded u (l.foldl State.entryLost u) :=
    ⟨regsKept_foldl (fun t f => (discarded_entryLost t f).regs) l u, foldl_keeps State.en (fun t f => (discarded_entryLost t f).en) l u⟩
  exact ((discarded_lossCounted s p).trans (discarded_wireCut _ p _)).trans (hqueue _ _)

theorem State.entryLost_transport {f : TxFrame} (h : f.kind.isExc = false) (s : State) : s.entryLost f = s := by
  unfold State.entryLost
  split
  · next heq => simp [heq, FrameKind.isExc] at h
  · rfl

theorem State.lossCounted_mem (s : State) (p : Nat) : (s.lossCounted p).mem = s.mem := by
  unfold State.lossCounted
  split <;> rfl

/-- Transport frames have no entry in the exception ring: their loss leaves HBM as it is. -/
theorem State.framesLost_mem {s : State} {p : Nat}
    (h : ((s.eport p).wire.toList.map (·.f) ++ (s.eport p).queue).all (fun f => !f.kind.isExc) = true) :
    (s.framesLost p).mem = s.mem := by
  have hframe (f : TxFrame) (hf : f ∈ (s.eport p).wire.toList.map (·.f) ++ (s.eport p).queue) : f.kind.isExc = false := by
    simpa using List.all_eq_true.1 h f hf
  have hqueue (u : State) : (s.eport p).queue.foldl State.entryLost u = u :=
    foldl_eq_self fun f hf => State.entryLost_transport (hframe f (List.mem_append_right _ hf)) u
  have hcut : ((s.lossCounted p).wireCut p (s.eport p).wire).mem = s.mem := by
    cases hw : (s.eport p).wire with
    | none => exact s.lossCounted_mem p
    | some w =>
      obtain ⟨_, _, hmem⟩ := (s.lossCounted p).enStomp_fields p w 0
      rw [State.wireCut, State.entryLost_transport (hframe w.f (by simp [hw])), hmem, s.lossCounted_mem]
  rw [State.framesLost, hqueue, hcut]

/-! ### The port that has left -/

theorem regsKept_portDown (s : State) (p : Nat) (x : EPort) (st : EState) : regsKept [.enPortStatus] s (s.portDown p x st) :=
  ((regsKept_setEport s p _).setFlag (by decide) false p (by decide)).setFlag (by decide) false p (by decide)

theorem State.fld_portDown_state (s : State) (p : Nat) (x : EPort) (st : EState) :
    (s.portDown p x st).fld F.enPortStatusState p = st.code :=
  (fld_setFld_ne (by decide) _ _ p p).trans ((fld_setFld_ne (by decide) _ _ p p).trans (s.fld_setEport_state p _))

theorem State.flag_portDown_lpiTx (s : State) (p : Nat) (x : EPort) (st : EState) :
    (s.portDown p x st).flag F.enPortStatusLpiTx p = false :=
  (congrArg (· == 1) (fld_setFld_ne (by decide) _ _ p p)).trans (State.flag_setFlag _ _ false p 0 rfl)

theorem State.eport_portDown (s : State) (p : Nat) (x : EPort) (st : EState) :
    (s.portDown p x st).eport p = { x with state := st, queue := [], wire := none } := s.eport_setEport p _

theorem State.eport_portDown_ne (s : State) {p k : Nat} (h : k ≠ p) (x : EPort) (st : EState) :
    (s.portDown p x st).eport k = s.eport k := s.eport_setEport_ne p _ h

theorem discarded.eport {s t : State} (h : discarded s t) (k : Nat) : t.eport k = s.eport k := by rw [State.eport, h.en, State.eport]

/-- A port that leaves E_UP with transport frames alone. -/
theorem enFalls_enDown {s : State} {p : Nat}
    (h : ((s.eport p).wire.toList.map (·.f) ++ (s.eport p).queue).all (fun f => !f.kind.isExc) = true) (st : EState) :
    enFalls s (s.enDown p st) p st := by
  have hport := (s.framesLost p).eport_portDown p (s.eport p) st
  rw [s.enDown_eq]
  exact ⟨congrArg EPort.state hport, congrArg EPort.queue hport, congrArg EPort.wire hport,
    fun k hk => (State.eport_portDown_ne _ hk _ st).trans ((discarded_framesLost s p).eport k), State.fld_portDown_state _ p _ st,
    State.flag_portDown_lpiTx _ p _ st, memKept_of_mem_eq (State.framesLost_mem h)⟩

/-! ### The single fault that a local fault records (Table 17.1) -/

theorem State.regsKept_enSingle (s : State) (p : Nat) : regsKept [.jnlFcnt, .jnlFlog] s (s.enSingle p) := by
  have hcount : regsKept [.jnlFcnt, .jnlFlog] s (s.countSat F.jnlFcntCount 0 1 1) := regsKept_setFld s (by decide) _ 0 1 (by decide)
  unfold State.enSingle
  extract_lets t
  split
  · exact hcount
  · have hdraw : regsKept [.jnlFcnt, .jnlFlog] t t.draw.2 := regsKept_of_flds_eq _ rfl
    exact (((((hcount.trans hdraw).setFlag (by decide) true 0 (by decide)).setFld (by decide) _ 0 0 (by decide)).setFld (by decide) _ 0 0
      (by decide)).setFld (by decide) _ 0 0 (by decide)).setFld (by decide) _ 0 0 (by decide) |>.setFld (by decide) _ 0 0 (by decide)

theorem State.enSingle_fields (s : State) (p : Nat) :
    (s.enSingle p).en = s.en ∧ (s.enSingle p).mem = s.mem ∧ (s.enSingle p).out = s.out := by
  unfold State.enSingle
  dsimp only
  split <;> exact ⟨rfl, rfl, rfl⟩

theorem enFalls.enSingle {s u : State} {p : Nat} {st : EState} (h : enFalls s u p st) : enFalls s (u.enSingle p) p st := by
  obtain ⟨hstate, hqueue, hwire, hothers, hshown, hlpi, hmem⟩ := h
  obtain ⟨hen, hkeep, _⟩ := u.enSingle_fields p
  have hport (k : Nat) : (u.enSingle p).eport k = u.eport k := by rw [State.eport, hen, State.eport]
  exact ⟨by rw [hport, hstate], by rw [hport, hqueue], by rw [hport, hwire], fun k hk => (hport k).trans (hothers k hk),
    ((u.regsKept_enSingle p) F.enPortStatusState p 0 (by decide) (by decide)).trans hshown,
    ((u.regsKept_enSingle p).flag F.enPortStatusLpiTx p 0 (by decide) (by decide)).trans hlpi, fun a => by rw [hkeep, hmem a]⟩

theorem State.enFault_up {s : State} {p : Nat} (h : (s.eport p).state = .up) : s.enFault p = (s.enDown p .align).enSingle p := by
  rw [State.enFault, h]

end Machine
end Sys2Proof
end

section
/-! PROOFS. States of an Ethernet port: negotiation, training, alignment, faults and Low Power Idle (R280, R281, R292, R296, R297). -/

namespace Sys2Proof
namespace Machine

/-! ### One step of the link state machine (Table 10.3) -/

theorem enMoves_setEport (s : State) (p : Nat) (st : EState) : enMoves s (s.setEport p { s.eport p with state := st }) p st :=
  ⟨s.eport_setEport p _, fun _ hk => s.eport_setEport_ne p _ hk, s.fld_setEport_state p _, regsKept_setEport s p _, rfl⟩

/-- Another field of PORT_STATUS shows something of the port beside its state. -/
theorem enMoves.setFld {s u : State} {p : Nat} {st : EState} (h : enMoves s u p st) {f : Fld} (hreg : f.reg = .enPortStatus)
    (hpos : f.pos 0 < 64) (hapart : f.apart 0 F.enPortStatusState 0 = true) (v : Nat) : enMoves s (u.setFld f v p) p st := by
  obtain ⟨hport, hothers, hshown, hregs, hrest⟩ := h
  exact ⟨hport, hothers, (fld_setFld_ne hapart u v p p).trans hshown, hregs.setFld (by simp [hreg]) v p 0 hpos,
    (congrArg (fun t : State => { t with flds := (u.setFld f v p).flds, en := u.en }) hrest :)⟩

theorem State.enMove_of_state {s : State} {p : Nat} {a : EState} (h : (s.eport p).state = a) (b : EState) :
    s.enMove p a b = s.setEport p { s.eport p with state := b } := if_pos h

theorem enMoves_enMove {s : State} {p : Nat} {a : EState} (h : (s.eport p).state = a) (b : EState) : enMoves s (s.enMove p a b) p b := by
  rw [State.enMove_of_state h]
  exact enMoves_setEport s p b

theorem execAnResolved_some {s : State} {p : Nat} (h : (s.eport p).state = .an) (m : Nat) : execAnResolved p (some m) s =
    .next ((s.setEport p { s.eport p with state := .train }).setFld F.enPortStatusMedium (m % 2) p) := if_neg (not_not_intro h)

theorem execAnResolved_none {s : State} {p : Nat} (h : (s.eport p).state = .an) :
    execAnResolved p none s = .next (s.setEport p { s.eport p with state := .hold }) := if_neg (not_not_intro h)

/-- A port that comes up without training shows chip-to-module as its medium (Table 10.9). -/
def State.mediumShown (s : State) (p : Nat) : State :=
  if s.flag F.enPortCfgPhy p then s.setFld F.enPortStatusMedium 2 p else s

theorem enMoves.mediumShown {s u : State} {p : Nat} {st : EState} (h : enMoves s u p st) : enMoves s (u.mediumShown p) p st := by
  unfold State.mediumShown
  split
  · exact h.setFld rfl (by decide) (by decide) 2
  · exact h

theorem execAlignLock_align {s : State} {p : Nat} (h : (s.eport p).state = .align) (lpi : Bool) :
    execAlignLock p lpi s = .next (((s.enMove p .align .up).mediumShown p).setFlag F.enPortStatusLpiCap lpi p) :=
  if_neg (not_not_intro h)

theorem execEnHoldExpiry_stays {s : State} {p : Nat} (h : (s.eport p).state = .hold) (htrain : s.enMayTrain p = false) :
    execEnHoldExpiry p s = .next (s.enMove p .hold .off) := by
  have hstart : (s.enMove p .hold .off).enStart p = s.enMove p .hold .off := by
    refine if_neg fun hmay => ?_
    rw [State.enMove_of_state h, State.enMayTrain_setEport, htrain] at hmay
    exact absurd hmay.1 (by decide)
  rw [execEnHoldExpiry, if_pos h, hstart]

/-! ### A local fault with an exception frame on the wire (log entry 50) -/

/-- The frame leaves with a stomped FCS, its entry ends with UNREACHABLE, and nothing else is written to HBM. -/
theorem State.enFault_exc {s : State} {p i : Nat} {f : WireFrame} {body : List Byte} {ts : Bool} (hup : (s.eport p).state = .up)
    (hqueue : (s.eport p).queue = []) (hwire : (s.eport p).wire = some f) (hkind : f.f.kind = .exc i body ts) :
    ∃ t : State, ((s.enFault p).eport p).state = .align ∧ ((s.enFault p).eport p).wire = none ∧
      (∃ n, n ≤ f.body.length ∧ .frame p (cutBytes f.body n) true ∈ (s.enFault p).out) ∧
      (s.enFault p).mem = (t.extDone i .unreachable 0).mem ∧ t.mem = s.mem ∧ t.fld F.enExtBaseFga = s.fld F.enExtBaseFga := by
  obtain ⟨n, hn, hstomp⟩ := (s.lossCounted p).enStomp_eq p f 0
  obtain ⟨_, _, hmem⟩ := (s.lossCounted p).enStomp_fields p f 0
  have hlost : s.framesLost p = ((s.lossCounted p).enStomp p f 0).extDone i .unreachable 0 := by
    rw [State.framesLost, hqueue, hwire, List.foldl_nil, State.wireCut, State.entryLost, hkind]
  have hfault : s.enFault p = ((s.framesLost p).portDown p (s.eport p) .align).enSingle p := by
    rw [State.enFault_up hup, s.enDown_eq]
  obtain ⟨hen, hsame, hout⟩ := ((s.framesLost p).portDown p (s.eport p) .align).enSingle_fields p
  have hport : (s.enFault p).eport p = { s.eport p with state := .align, queue := [], wire := none } := by
    rw [hfault, State.eport, hen]
    exact State.eport_portDown _ p _ .align
  refine ⟨(s.lossCounted p).enStomp p f 0, congrArg EPort.state hport, congrArg EPort.wire hport, ⟨n, hn, ?_⟩, ?_,
    hmem.trans (s.lossCounted_mem p), ?_⟩
  · have hsent : .frame p (cutBytes f.body n) true ∈ ((s.lossCounted p).enStomp p f 0).out := by simp [hstomp]
    have hdone := (onlySignals_extDone _ i .unreachable 0).mem_out hsent
    rw [← hlost] at hdone
    rw [hfault, hout]
    exact hdone
  · rw [hfault, hsame, ← hlost]
    rfl
  · exact ((discarded_lossCounted s p).trans (discarded_enStomp _ p f 0)).regs F.enExtBaseFga 0 0 (by decide) (by decide)

/-! ### Low Power Idle -/

/-- LPI is entered or left in one direction, which one flag of PORT_STATUS shows and one counter of the port counts. -/
theorem State.flag_lpiCounted (s : State) (p i : Nat) {f : Fld} (hapart : F.enStatCount.apart 0 f 0 = true) (hwidth : f.width = 1) :
    ((s.setFlag f true p).enCount p i).flag f p = true :=
  (congrArg (· == 1) (fld_setFld_ne hapart _ _ _ p)).trans (State.flag_setFlag s f true p 0 hwidth)

theorem State.regsKept_lpiCounted (s : State) (p i : Nat) {f : Fld} (hreg : f.reg = .enPortStatus) (hpos : f.pos 0 < 64) :
    regsKept [.enPortStatus, .enStat] s ((s.setFlag f true p).enCount p i) :=
  (regsKept_setFld s (by simp [hreg]) _ p 0 hpos).setFld (f := F.enStatCount) (by decide) _ _ 0 (by decide)

theorem execReceiveLpi_up {s : State} {p : Nat} (h : (s.eport p).state = .up) :
    execReceiveLpi p s = .next ((s.setFlag F.enPortStatusLpiRx true p).enCount p 21) := if_pos (.inl h)

/-- Settles O29: each command is, in the state that takes it, one update of its port, with what PORT_STATUS shows beside it. -/
theorem ethernetPortCommandsComplete : Obligations.EthernetPortCommandsComplete := by
  refine ⟨?resolved, ?an, ?train, ?align, ?excFault, ?fault, ?faultClear, ?holdExpiry, ?lpiEntry, ?lpiWake, ?receiveLpi⟩
  case resolved =>
    intro s p m hstate
    refine ⟨_, ends_taken (execAnResolved_some hstate m), (enMoves_setEport s p .train).setFld rfl (by decide) (by decide) _, ?_⟩
    exact fld_setFld_of_lt (show m % 2 < 4 by omega) _ p 0
  case an =>
    exact fun s p hstate => ⟨⟨_, ends_taken (execAnResolved_none hstate), enMoves_setEport s p .hold⟩,
      ⟨_, ends_taken rfl, enMoves_enMove hstate .hold⟩⟩
  case train =>
    exact fun s p hstate => ⟨⟨_, ends_taken rfl, enMoves_enMove hstate .align⟩, ⟨_, ends_taken rfl, enMoves_enMove hstate .hold⟩⟩
  case align =>
    exact fun s p lpi hstate => ⟨⟨_, ends_taken (execAlignLock_align hstate lpi),
      (enMoves_enMove hstate .up).mediumShown.setFld rfl (by decide) (by decide) _, State.flag_setFlag _ _ lpi p 0 rfl⟩,
      ⟨_, ends_taken rfl, enMoves_enMove hstate .hold⟩⟩
  case excFault =>
    intro s p i f body ts hup hqueue hwire hkind
    obtain ⟨t, hfault⟩ := State.enFault_exc hup hqueue hwire hkind
    exact ⟨s.enFault p, t, ends_taken rfl, hfault⟩
  case fault =>
    intro s p hup htransport
    refine ⟨⟨s.enFault p, ends_taken rfl, ?_⟩, ⟨_, ends_taken (if_pos hup), enFalls_enDown htransport .rfault⟩⟩
    rw [State.enFault_up hup]
    exact (enFalls_enDown htransport .align).enSingle
  case faultClear => exact fun s p hstate => ⟨_, ends_taken rfl, enMoves_enMove hstate .up⟩
  case holdExpiry =>
    exact fun s p hstate htrain => ⟨_, ends_taken (execEnHoldExpiry_stays hstate htrain), enMoves_enMove hstate .off⟩
  case lpiEntry =>
    intro s p henable hcap htw hqueue hwire hup hawake hsoon
    have heffect : execLpiEntry p s = .next ((s.setFlag F.enPortStatusLpiTx true p).enCount p 20) := by
      rw [execLpiEntry, State.wireSent_idle hwire]
      exact if_pos ⟨henable, hcap, htw, hqueue, hwire, hup, by rw [hawake]; rfl, by rw [hsoon]; rfl⟩
    exact ⟨_, ends_taken heffect, s.flag_lpiCounted p 20 (by decide) rfl, s.regsKept_lpiCounted p 20 rfl (by decide), rfl⟩
  case lpiWake =>
    exact fun s p => ⟨_, ends_taken rfl, State.flag_setFlag s _ false p 0 rfl, regsKept_setFld s (by decide) _ p 0 (by decide), rfl⟩
  case receiveLpi =>
    exact fun s p hup => ⟨_, answer_taken (execReceiveLpi_up hup), s.flag_lpiCounted p 21 (by decide) rfl,
      (s.regsKept_lpiCounted p 21 rfl (by decide)).after, memKept_after s _ (memKept_of_mem_eq rfl), rfl⟩

end Machine
end Sys2Proof
end

section
/-! PROOFS. Registers that the codewords received on an Ethernet port leave as they are, and the judgement of a frame (R278, R282, R283,
R286, R287, R299; log entries 63 and 135). -/

namespace Sys2Proof
namespace Machine

/-- The registers that receiving codewords writes: those of the port and its counters, and those of a local fault, with what the discarding of
the port's frames writes. -/
def heardRegs : List Reg := .enPortStatus :: .jnlFcnt :: .jnlFlog :: discardRegs

theorem regsKept_enDown (s : State) (p : Nat) (st : EState) : regsKept heardRegs s (s.enDown p st) := by
  rw [s.enDown_eq]
  exact ((discarded_framesLost s p).regs.mono (by decide)).trans
    ((regsKept_portDown _ p _ st).mono (by decide))

theorem regsKept_enFault (s : State) (p : Nat) : regsKept heardRegs s (s.enFault p) := by
  unfold State.enFault
  split
  · exact (regsKept_enDown s p .align).trans ((State.regsKept_enSingle _ p).mono (by decide))
  · exact regsKept_enDown s p .align
  · exact regsKept_refl _ s

theorem regsKept_enCodeword (s : State) (p : Nat) (w : List Nat) : regsKept heardRegs s (s.enCodeword p w) := by
  have hcount (i : Nat) : regsKept heardRegs s (s.enCount p i) := (regsKept_enCount s p i 1).mono (by decide)
  unfold State.enCodeword
  split
  · exact regsKept_refl _ s
  · split
    · split
      · exact hcount 18
      · exact regsKept_refl _ s
    · extract_lets t x ms n u
      have hbad : regsKept heardRegs s u := (hcount 19).trans ((regsKept_setEport t p _).mono (by decide))
      split
      · exact hbad.trans (regsKept_enFault u p)
      · exact hbad

theorem regsKept_frameBytes (s : State) (p : Nat) (data : List Byte) : regsKept heardRegs s (s.frameBytes p data) := by
  unfold State.frameBytes
  split
  · exact (regsKept_of_flds_eq _ (by simp)).trans (regsKept_setFld _ (f := F.enPortStatusLpiRx) (by decide) _ p 0 (by decide))
  · exact regsKept_refl _ s

theorem regsKept_frameSeen (s : State) (p : Nat) (rx : EthRx) : regsKept heardRegs s (s.frameSeen p rx) :=
  (regsKept_frameBytes s p rx.bytes).trans (regsKept_foldl (fun t w => regsKept_enCodeword t p w) rx.cws _)

theorem regsKept.maxFrame {rs : List Reg} {s t : State} (h : regsKept rs s t) (hcfg : Reg.enPortCfg ∉ rs) (p : Nat) :
    t.maxFrame p = s.maxFrame p := by
  rw [State.maxFrame, h F.enPortCfgMaxFrame p 0 (by decide) hcfg, State.maxFrame]

theorem regsKept.macAccepts {rs : List Reg} {s t : State} (h : regsKept rs s t) (haddr : Reg.enMacAddr ∉ rs) (p d : Nat) :
    t.macAccepts p d = s.macAccepts p d := by
  rw [State.macAccepts, h F.enMacAddrAddr p 0 (by decide) haddr, State.macAccepts]

/-! ### The judgement of a frame, check by check -/

theorem State.enHears.not_deaf {t : State} {p : Nat} (h : t.enHears p) : ¬((t.eport p).state ≠ .up ∧ (t.eport p).state ≠ .rfault) :=
  fun hdeaf => h.elim hdeaf.1 hdeaf.2

theorem State.not_full {t : State} {p n : Nat} (h : t.rxRoom p n = true) : ¬((!true) = true ∨ (!t.rxRoom p n) = true) := by simp [h]

/-- The frame is judged in the state in which its codewords have been received. -/
theorem exec_frameReceived {s t u : State} {p : Nat} {rx : EthRx} {room : Bool} (ht : t = s.frameSeen p rx)
    (h : execFrameReceived p { bytes := rx.bytes } room t = .next u) :
    exec (.frameReceived p rx room) s = .next (s.finished u) := by
  subst ht
  exact ends_taken h

section
variable {t : State} {p : Nat} {bytes : List Byte} (hears : t.enHears p)
include hears

theorem execFrameReceived_noRoom {room : Bool} (hfull : room = false ∨ t.rxRoom p bytes.length = false) :
    execFrameReceived p { bytes := bytes } room t = .next (t.enCount p 11) :=
  (if_neg hears.not_deaf).trans (if_pos (hfull.imp (fun h => by rw [h]; rfl) (fun h => by rw [List.foldl_nil, h]; rfl)))

variable (hroom : t.rxRoom p bytes.length = true)
include hroom

variable {data : List Byte} (hdata : data = bytes.take (bytes.length - 4))
include hdata

theorem execFrameReceived_badFcs (hfcs : leAt bytes (bytes.length - 4) 4 ≠ fcsOf data) :
    execFrameReceived p { bytes := bytes } true t =
      .next (t.enCount p (if leAt bytes (bytes.length - 4) 4 = fcsOf data ^^^ 0xFFFFFFFF then 3 else 2)) := by
  subst hdata
  refine (if_neg hears.not_deaf).trans ((if_neg (State.not_full hroom)).trans ((if_pos hfcs).trans ?_))
  split <;> rfl

variable (hfcs : leAt bytes (bytes.length - 4) 4 = fcsOf data)
include hfcs

theorem execFrameReceived_short (hlen : bytes.length < 64) : execFrameReceived p { bytes := bytes } true t = .next (t.enCount p 4) := by
  subst hdata
  exact (if_neg hears.not_deaf).trans ((if_neg (State.not_full hroom)).trans ((if_neg (not_not_intro hfcs)).trans (if_pos hlen)))

variable (hshort : 64 ≤ bytes.length)
include hshort

theorem execFrameReceived_long (hlen : t.maxFrame p < bytes.length) :
    execFrameReceived p { bytes := bytes } true t = .next (t.enCount p 5) := by
  subst hdata
  exact (if_neg hears.not_deaf).trans ((if_neg (State.not_full hroom)).trans ((if_neg (not_not_intro hfcs)).trans
    ((if_neg (Nat.not_lt.2 hshort)).trans (if_pos hlen))))

variable (hlong : bytes.length ≤ t.maxFrame p) (hpause : beAt data 0 6 ≠ 0x0180C2000001)
include hlong hpause

theorem execFrameReceived_filtered (hmac : t.macAccepts p (beAt data 0 6) = false) :
    execFrameReceived p { bytes := bytes } true t = .next (t.enCount p 6) := by
  have hother : (!t.macAccepts p (beAt data 0 6)) = true := by rw [hmac]; rfl
  subst hdata
  exact (if_neg hears.not_deaf).trans ((if_neg (State.not_full hroom)).trans ((if_neg (not_not_intro hfcs)).trans
    ((if_neg (Nat.not_lt.2 hshort)).trans ((if_neg (Nat.not_lt.2 hlong)).trans ((if_neg hpause).trans (if_pos hother))))))

theorem execFrameReceived_exception (hmac : t.macAccepts p (beAt data 0 6) = true) {r : Nat}
    (hparse : parse data (t.fld F.tpCfgSltPort) = .exc r) :
    execFrameReceived p { bytes := bytes } true t = .next (t.excRx p r data) := by
  have hours : ¬(!t.macAccepts p (beAt data 0 6)) = true := by rw [hmac]; decide
  subst hdata
  refine (if_neg hears.not_deaf).trans ((if_neg (State.not_full hroom)).trans ((if_neg (not_not_intro hfcs)).trans
    ((if_neg (Nat.not_lt.2 hshort)).trans ((if_neg (Nat.not_lt.2 hlong)).trans ((if_neg hpause).trans ((if_neg hours).trans ?_))))))
  rw [List.foldl_nil, hparse]

end

end Machine
end Sys2Proof
end

section
/-! PROOFS. Frames, the exception rings and the gates of an Ethernet port (R282, R283, R286 to R288, R292 to R295). -/

namespace Sys2Proof
namespace Machine

/-! ### Frames that leave a wire (R288, R292) -/

theorem State.eport_emit (s : State) (o : Output) (k : Nat) : (s.emit o).eport k = s.eport k := by simp [State.eport]

theorem State.eport_wireDone (s : State) (p : Nat) (w : WireFrame) :
    (s.wireDone p w).eport p = { s.eport p with wire := none, good := (s.eport p).good + 1 } := by
  rw [State.wireDone, State.eport_emit]
  exact s.eport_setEport p _

theorem State.eport_wireDone_ne (s : State) {p k : Nat} (h : k ≠ p) (w : WireFrame) : (s.wireDone p w).eport k = s.eport k := by
  rw [State.wireDone, State.eport_emit]
  exact s.eport_setEport_ne p _ h

theorem State.wireDone_sent (s : State) (p : Nat) (w : WireFrame) : .frame p (wireBytes w.body) false ∈ (s.wireDone p w).out := by
  simp [State.wireDone]

theorem State.wireDone_mem (s : State) (p : Nat) (w : WireFrame) : (s.wireDone p w).mem = s.mem := by
  simp [State.wireDone, State.enCount, State.countSat]

theorem State.wireNext_exc {w : WireFrame} {i : Nat} {body : List Byte} {ts : Bool} (h : w.f.kind = .exc i body ts) (s : State) (p : Nat) :
    s.wireNext p w = ((s.extDone i .ok (if ts then w.time else 0)).enPump p).extPump := by
  rw [State.wireNext, h]

theorem execExceptionFrameSent_exc {s : State} {p : Nat} {w : WireFrame} (hwire : (s.eport p).wire = some w)
    (hkind : w.f.kind.isExc = true) : execExceptionFrameSent p s = .next ((s.wireDone p w).wireNext p w) := by
  rw [execExceptionFrameSent, hwire]
  exact if_pos hkind

/-- An underrun is counted, and T_EFF rises by 1,024 up to MAX_FRAME. -/
def State.threshRaised (s : State) (p : Nat) : State :=
  (s.enCount p 14).setFld F.enTxThreshCur (min (s.maxFrame p) (s.fld F.enTxThreshCur p + 1024)) p

theorem execTxUnderrun_wire {s : State} {p : Nat} {w : WireFrame} (h : (s.eport p).wire = some w) : execTxUnderrun p s =
    .next ((((s.threshRaised p).setEport p { s.eport p with wire := none, good := 0 }).enStomp p w w.held).wireNext p w) := by
  have hmax : (s.enCount p 14).maxFrame p = s.maxFrame p := (regsKept_enCount s p 14 1).maxFrame (by decide) p
  have hcur : (s.enCount p 14).fld F.enTxThreshCur p = s.fld F.enTxThreshCur p :=
    regsKept_enCount s p 14 1 F.enTxThreshCur p 0 (by decide) (by decide)
  rw [execTxUnderrun, h]
  dsimp only
  rw [hmax, hcur]
  rfl

theorem execTxThreshDecay_good {s : State} {p : Nat} (h : 1024 ≤ (s.eport p).good) : execTxThreshDecay p s =
    .next ((s.setEport p { s.eport p with good := (s.eport p).good - 1024 }).setFld F.enTxThreshCur
      (max (max 64 (s.fld F.enTxThreshBase p)) (s.fld F.enTxThreshCur p - 64)) p) := if_neg (Nat.not_lt.2 h)

/-! ### The change time of a schedule (R295) -/

/-- The base time, or, where it does not lie in the future, the first end of a cycle from it that does. -/
def changeTime (now base cyc : Nat) : Nat := if now < base then base else base + ((now - base) / cyc + 1) * cyc

theorem changeTime_future {now base : Nat} (h : now < base) (cyc : Nat) : changeTime now base cyc = base := if_pos h

theorem changeTime_past {now base : Nat} (h : base ≤ now) (cyc : Nat) :
    changeTime now base cyc = base + ((now - base) / cyc + 1) * cyc := if_neg (Nat.not_lt.2 h)

theorem lt_changeTime {cyc : Nat} (hcyc : 0 < cyc) (now base : Nat) : now < changeTime now base cyc := by
  rcases lt_or_ge now base with h | h
  · rwa [changeTime_future h]
  · have := Nat.lt_mul_of_div_lt (Nat.lt_add_one ((now - base) / cyc)) hcyc
    rw [changeTime_past h]
    omega

theorem base_le_changeTime (now base cyc : Nat) : base ≤ changeTime now base cyc := by
  rcases lt_or_ge now base with h | h
  · rw [changeTime_future h]
  · rw [changeTime_past h]
    exact Nat.le_add_right _ _

theorem changeTime_cycles (now base cyc : Nat) : (changeTime now base cyc - base) % cyc = 0 := by
  rcases lt_or_ge now base with h | h
  · rw [changeTime_future h, Nat.sub_self, Nat.zero_mod]
  · rw [changeTime_past h, Nat.add_sub_cancel_left, Nat.mul_mod_left]

theorem changeTime_le {now base : Nat} (h : base ≤ now) (cyc : Nat) : changeTime now base cyc ≤ now + cyc := by
  have := Nat.div_mul_le_self (now - base) cyc
  rw [changeTime_past h, Nat.add_mul, Nat.one_mul]
  omega

theorem State.adminCycle_pos (s : State) (p : Nat) : 0 < s.adminCycle p := Nat.lt_of_lt_of_le (by decide) (Nat.le_max_left 64 _)

theorem execConfigChange_open {s : State} {org : Origin} {p : Nat} (hopen : s.dcsOpen org 0x4000000 = true) (hexists : s.enExists p = true)
    (hon : s.domOn (16 + p / 8) = true) : execConfigChange org p s =
      .next ((s.setEport p { s.eport p with change := some (changeTime s.nowNs
        (s.fld F.enGateBaseSSec p * 1000000000 + s.fld F.enGateBaseNsNs p) (s.adminCycle p)) }).setFlag F.enGateCtrlPending true p) :=
  if_neg (by simp [hopen, hexists, hon])

/-! ### The change of a schedule and the end of an interval (R293, R295) -/

/-- The administrative list of a port is operational from now on, and PENDING is clear. -/
def State.scheduleChanged (s : State) (p : Nat) : State :=
  ((s.setEport p { s.eport p with
      oper := s.adminList p, cycle := s.adminCycle p, idx := 0, since := s.nowNs, change := none, restart := none,
      ext := s.fld F.enGateCycleExtNs p, base := s.fld F.enGateBaseSSec p * 1000000000 + s.fld F.enGateBaseNsNs p }).setFlag
    F.enGateCtrlPending false p).setFld F.enGateCtrlOperLen (s.adminList p).length p

theorem State.eport_scheduleChanged (s : State) (p : Nat) : (s.scheduleChanged p).eport p = { s.eport p with
    oper := s.adminList p, cycle := s.adminCycle p, idx := 0, since := s.nowNs, change := none, restart := none,
    ext := s.fld F.enGateCycleExtNs p, base := s.fld F.enGateBaseSSec p * 1000000000 + s.fld F.enGateBaseNsNs p } := s.eport_setEport p _

theorem State.eport_scheduleChanged_ne (s : State) {p k : Nat} (h : k ≠ p) : (s.scheduleChanged p).eport k = s.eport k :=
  s.eport_setEport_ne p _ h

theorem State.flag_scheduleChanged_pending (s : State) (p : Nat) : (s.scheduleChanged p).flag F.enGateCtrlPending p = false :=
  (congrArg (· == 1) (fld_setFld_ne (by decide) _ _ p p)).trans (State.flag_setFlag _ _ false p 0 rfl)

theorem regsKept_scheduleChanged (s : State) (p : Nat) : regsKept [.enPortStatus, .enGateCtrl] s (s.scheduleChanged p) :=
  (((regsKept_setEport s p _).mono (by simp)).setFlag (by decide) false p (by decide)).setFld (by decide) _ p 0 (by decide)

theorem State.gateSweep_idle {s : State} {p : Nat} (h : (s.eport p).queue = []) : s.gateSweep p = s := by
  rw [State.gateSweep, h]; rfl

theorem execGateChangeTime_idle {s : State} {p t : Nat} (hchange : (s.eport p).change = some t) (hqueue : (s.eport p).queue = []) :
    execGateChangeTime p s = .next (s.scheduleChanged p) := by
  have hidle : ((s.scheduleChanged p).eport p).queue = [] := (congrArg EPort.queue (s.eport_scheduleChanged p)).trans hqueue
  have heffect : execGateChangeTime p s = .next (((s.scheduleChanged p).gateSweep p).enPump p) := by
    rw [execGateChangeTime, hchange]
    rfl
  rw [heffect, State.gateSweep_idle hidle, State.enPump_idle hidle]

/-- The entry that follows the one in force, the first after the last (R293). -/
def EPort.nextIdx (x : EPort) : Nat := if x.idx + 1 < (gateSpans x.cycle x.oper).length then x.idx + 1 else 0

/-- The next entry of a port's cycle is in force from now on. -/
def State.intervalEnded (s : State) (p : Nat) : State :=
  s.setEport p { s.eport p with idx := (s.eport p).nextIdx, since := s.nowNs, restart := none }

theorem State.eport_intervalEnded (s : State) (p : Nat) :
    (s.intervalEnded p).eport p = { s.eport p with idx := (s.eport p).nextIdx, since := s.nowNs, restart := none } :=
  s.eport_setEport p _

theorem execGateIntervalEnd_idle {s : State} {p : Nat} (hexists : s.enExists p = true) (hchange : (s.eport p).change = none)
    (hrestart : (s.eport p).restart = none) (hqueue : (s.eport p).queue = []) :
    execGateIntervalEnd p s = .next (s.intervalEnded p) := by
  have hidle : ((s.intervalEnded p).eport p).queue = [] := (congrArg EPort.queue (s.eport_intervalEnded p)).trans hqueue
  have heffect : execGateIntervalEnd p s = .next ((s.intervalEnded p).enPump p) := by
    simp [execGateIntervalEnd, State.intervalEnded, EPort.nextIdx, hexists, hchange, hrestart]
  rw [heffect, State.enPump_idle hidle]

/-- Settles O30: a frame goes one way through the checks, and each other command is one update of its port. -/
theorem ethernetFrameCommandsComplete : Obligations.EthernetFrameCommandsComplete := by
  refine ⟨?noRoom, ?badFcs, ?good, ?extTail, ?excSent, ?underrun, ?decay, ?configChange, ?changeTime, ?intervalEnd⟩
  case noRoom => exact fun s t p rx room ht hears hfull => exec_frameReceived ht (execFrameReceived_noRoom hears hfull)
  case badFcs =>
    intro s t p fcs rx data ht hears hroom hdata hfcs hbad
    subst hfcs
    exact exec_frameReceived ht (execFrameReceived_badFcs hears hroom hdata hbad)
  case good =>
    intro s t p rx data ht hears hroom hdata hfcs
    have hkept : regsKept heardRegs s t := ht ▸ regsKept_frameSeen s p rx
    have hmax : t.maxFrame p = s.maxFrame p := hkept.maxFrame (by decide) p
    have hmac : t.macAccepts p (beAt data 0 6) = s.macAccepts p (beAt data 0 6) := hkept.macAccepts (by decide) p _
    have hport : t.fld F.tpCfgSltPort = s.fld F.tpCfgSltPort := hkept F.tpCfgSltPort 0 0 (by decide) (by decide)
    rw [← hmax, ← hmac, ← hport]
    exact ⟨fun hlen => exec_frameReceived ht (execFrameReceived_short hears hroom hdata hfcs hlen),
      fun hshort hlen => exec_frameReceived ht (execFrameReceived_long hears hroom hdata hfcs hshort hlen),
      fun hshort hlong hpause hother =>
        exec_frameReceived ht (execFrameReceived_filtered hears hroom hdata hfcs hshort hlong hpause hother),
      fun r hshort hlong hpause hours hparse =>
        exec_frameReceived ht (execFrameReceived_exception hears hroom hdata hfcs hshort hlong hpause hours hparse)⟩
  case extTail => exact fun s org tail hopen => ends_taken (if_pos hopen)
  case excSent =>
    intro s p i f body ts hwire hkind
    have heffect := execExceptionFrameSent_exc hwire (congrArg FrameKind.isExc hkind)
    rw [State.wireNext_exc hkind] at heffect
    exact ⟨s.wireDone p f, ends_taken heffect, s.eport_wireDone p f, s.wireDone_sent p f, fun k hk => s.eport_wireDone_ne hk f,
      memKept_of_mem_eq (s.wireDone_mem p f)⟩
  case underrun =>
    intro s p f hwire
    refine ⟨_, ends_taken (execTxUnderrun_wire hwire), ?_, State.eport_setEport _ p _, fun k hk => State.eport_setEport_ne _ p _ hk, ?_, rfl⟩
    · exact (regsKept_setEport _ p _ F.enTxThreshCur p 0 (by decide) (by decide)).trans (fld_setFld_self _ _ _ p 0)
    · exact (((regsKept_enCount s p 14 1).mono (by simp)).setFld (f := F.enTxThreshCur) (by decide) _ p 0 (by decide)).setFld
        (f := F.enPortStatusState) (by decide) _ p 0 (by decide)
  case decay =>
    intro s p hgood
    exact ⟨_, answer_taken (execTxThreshDecay_good hgood), fld_setFld_self _ _ _ p 0, s.eport_setEport p _,
      fun k hk => s.eport_setEport_ne p _ hk, ((regsKept_setEport s p _).mono (by simp)).setFld (by decide) _ p 0 (by decide) |>.after,
      memKept_after s _ (memKept_of_mem_eq rfl), rfl⟩
  case configChange =>
    intro s org p base hopen hexists hon hbase
    subst hbase
    exact ⟨_, changeTime s.nowNs _ (s.adminCycle p), ends_taken (execConfigChange_open hopen hexists hon), s.eport_setEport p _,
      lt_changeTime (s.adminCycle_pos p) _ _, base_le_changeTime _ _ _, changeTime_cycles _ _ _, fun h => changeTime_future h _,
      fun h => changeTime_le h _, State.flag_setFlag _ _ true p 0 rfl, fun k hk => s.eport_setEport_ne p _ hk, rfl⟩
  case changeTime =>
    intro s p t hchange hqueue
    have hport := s.eport_scheduleChanged p
    exact ⟨s.scheduleChanged p, ends_taken (execGateChangeTime_idle hchange hqueue), congrArg EPort.oper hport, congrArg EPort.cycle hport,
      congrArg EPort.idx hport, congrArg EPort.change hport, s.flag_scheduleChanged_pending p, fld_setFld_self _ _ _ p 0,
      fun k hk => s.eport_scheduleChanged_ne hk, regsKept_scheduleChanged s p, rfl⟩
  case intervalEnd =>
    intro s p hexists hchange hrestart hqueue
    have hport := s.eport_intervalEnded p
    exact ⟨s.intervalEnded p, ends_taken (execGateIntervalEnd_idle hexists hchange hrestart hqueue), congrArg EPort.since hport,
      congrArg EPort.idx hport, fun k hk => s.eport_setEport_ne p _ hk, rfl⟩

end Machine
end Sys2Proof
end

section
/-! PROOFS. Vector operations on registers: lanes in a register, a comparison's bits in a mask, and the reductions (R322, R323, R337,
R339; log entry 71). -/

namespace Sys2Proof
namespace Machine

/-- The lanes of a source operand in a register; where the operation reads fewer operands than n, zeros. -/
def Blk.regLanes (x : Blk) (op n : Nat) (o : VArg) : List Lane :=
  (List.range 64).map fun i => lane32 (if vopArity op < n then 0 else AMap.look 0 x.vregs (o.idx % 32 * 64 + i))

theorem one_le_vopArity (op : Nat) : 1 ≤ vopArity op := by
  unfold vopArity; split <;> [decide; (split <;> decide)]

/-- What a VOP reads of an operand that is a register, or that it does not read. -/
theorem Blk.operand_regLanes {o : VArg} {op n : Nat} (h : n ≤ vopArity op → o.kind = 0) (x : Blk) (rep : Nat) (k : FmtKind)
    (book : List Byte) (scale : Nat) :
    (if n ≤ vopArity op then x.lanes o rep k book scale else .ok (List.replicate 64 (lane32 0))) = .ok (x.regLanes op n o) := by
  rcases Nat.lt_or_ge (vopArity op) n with hn | hn
  · simp [Blk.regLanes, hn, Nat.not_le.2 hn]
  · simp [Blk.regLanes, Blk.lanes, hn, Nat.not_lt.2 hn, h hn]

/-- Words put from a place of a map on. -/
def wordsPut (m : AMap Nat) (base : Nat) (vs : List Nat) : AMap Nat :=
  (vs.zip (List.range vs.length)).foldl (fun m p => AMap.save 0 m (base + p.2) p.1) m

theorem wordsPut_append (m : AMap Nat) (base : Nat) (vs : List Nat) (v : Nat) :
    wordsPut m base (vs ++ [v]) = AMap.save 0 (wordsPut m base vs) (base + vs.length) v := by
  have hzip : (vs ++ [v]).zip (List.range (vs.length + 1)) = vs.zip (List.range vs.length) ++ [(v, vs.length)] := by
    rw [List.range_succ, List.zip_append (by simp)]; rfl
  rw [wordsPut, List.length_append, List.length_singleton, hzip, List.foldl_append]
  rfl

theorem look_wordsPut (m : AMap Nat) (base : Nat) (vs : List Nat) (k : Nat) :
    AMap.look 0 (wordsPut m base vs) k =
      if base ≤ k ∧ k < base + vs.length then vs.getD (k - base) 0 else AMap.look 0 m k := by
  induction vs using List.reverseRecOn with
  | nil => rw [if_neg (by simp)]; rfl
  | append_singleton vs v ih =>
    rw [wordsPut_append, AMap.look_save, ih, List.length_append, List.length_singleton]
    rcases lt_trichotomy k (base + vs.length) with h | rfl | h
    · simp only [h.ne, if_false, h, and_true, show k < base + (vs.length + 1) by omega]
      refine if_ctx_congr Iff.rfl (fun hk => ?_) fun _ => rfl
      rw [List.getD_append _ _ _ _ (by omega)]
    · simp
    · rw [if_neg h.ne', if_neg (by omega), if_neg (by omega)]

theorem Blk.putLanes_register {d : VArg} (h : d.kind = 0) (x : Blk) (vs : List Nat) :
    x.putLanes d vs = .ok { x with vregs := wordsPut x.vregs (d.idx % 32 * 64) vs } := if_pos h

/-- The triples of lanes that an operation takes, with their numbers. -/
theorem Blk.zip_regLanes (x : Blk) (op : Nat) (a b c : VArg) :
    (x.regLanes op 1 a).zip ((x.regLanes op 2 b).zip (x.regLanes op 3 c)) = (List.range 64).map fun i =>
      (lane32 (if vopArity op < 1 then 0 else AMap.look 0 x.vregs (a.idx % 32 * 64 + i)),
        lane32 (if vopArity op < 2 then 0 else AMap.look 0 x.vregs (b.idx % 32 * 64 + i)),
        lane32 (if vopArity op < 3 then 0 else AMap.look 0 x.vregs (c.idx % 32 * 64 + i))) := by
  simp only [Blk.regLanes, List.zip_map']

/-- The number whose bits are those of a list, the first lowest. -/
def bitsOf (bs : List Bool) : Nat := bs.foldr (fun b n => 2 * n + b2n b) 0

theorem bit_bitsOf (bs : List Bool) (i : Nat) : bit (bitsOf bs) i = bs.getD i false := by
  induction bs generalizing i with
  | nil => simp [bitsOf, bit]
  | cons b bs ih =>
    have hcons : bitsOf (b :: bs) = 2 * bitsOf bs + b2n b := rfl
    have hb : b2n b < 2 := by cases b <;> decide
    cases i with
    | zero => rw [hcons, bit_eq_testBit, Nat.testBit_zero]; cases b <;> simp [b2n]
    | succ i =>
      rw [hcons, bit_eq_testBit, Nat.testBit_add_one, Nat.mul_add_div (by decide), Nat.div_eq_of_lt hb, Nat.add_zero, ← bit_eq_testBit, ih,
        List.getD_cons_succ]

/-- The results of an operation on lanes of registers. -/
def Blk.laneResults (x : Blk) (op : Nat) (v : VopArgs) : List (Nat × FFlags) :=
  (((x.regLanes op 1 v.a).zip ((x.regLanes op 2 v.b).zip (x.regLanes op 3 v.c))).zip (List.range 64)).map fun p =>
    vopLane op p.1.1 p.1.2.1 p.1.2.2 (bit (AMap.look 0 x.masks v.mask) p.2)

section
variable {x : Blk} {op : Nat} {v : VopArgs} {rest : Nat → Nat} (ha : v.a.kind = 0) (hb : 2 ≤ vopArity op → v.b.kind = 0)
  (hc : 3 ≤ vopArity op → v.c.kind = 0)
include ha hb hc

/-- No operand lies in the Block store, so no format is looked up. -/
theorem vop_uses_none : (v.a.kind == 1 || (2 ≤ vopArity op && v.b.kind == 1) || (3 ≤ vopArity op && v.c.kind == 1)) = false := by
  by_cases h2 : 2 ≤ vopArity op <;> by_cases h3 : 3 ≤ vopArity op <;> simp_all

/-- A comparison on registers. -/
theorem Blk.vop_compare (hlo : 8 ≤ op) (hhi : op < 11) : x.vop op v rest = .ok ({ x with
    masks := AMap.save 0 x.masks (v.d.idx % 8)
      (bitsOf (((x.regLanes op 1 v.a).zip ((x.regLanes op 2 v.b).zip (x.regLanes op 3 v.c))).map fun p => vopCmp op p.1 p.2.1)) }, {}) := by
  simp only [Blk.vop, vop_uses_none ha hb hc, Bool.false_eq_true, if_false, Blk.bookFor, Blk.operand_regLanes (fun _ => ha),
    Blk.operand_regLanes hb, Blk.operand_regLanes hc, show op ≠ 20 by omega, show 8 ≤ op ∧ op ≤ 10 by omega, and_self, if_true, bitsOf,
    List.foldr_map]

/-- A reduction on registers: the result stands in lane 0, and the other lanes are put as they were. -/
theorem Blk.vop_reduce (hop : op = 18 ∨ op = 19) (hd : v.d.kind = 0) : ∃ r : Nat × FFlags, x.vop op v rest =
    .ok ({ x with
      vregs := wordsPut x.vregs (v.d.idx % 32 * 64)
        ((List.range 64).map fun i => if i = 0 then r.1 else AMap.look 0 x.vregs (v.d.idx % 32 * 64 + i)) }, r.2) := by
  refine ⟨tree (redStep (op == 19)) 6 ((x.regLanes op 1 v.a).map (·.v)) {}, ?_⟩
  simp only [Blk.vop, vop_uses_none ha hb hc, Bool.false_eq_true, if_false, Blk.bookFor, Blk.operand_regLanes (fun _ => ha),
    Blk.operand_regLanes hb, Blk.operand_regLanes hc, show op ≠ 20 by omega, show ¬(8 ≤ op ∧ op ≤ 10) by omega, hop, if_true, hd,
    Blk.putLanes_register hd]

/-- An operation on lanes of registers. -/
theorem Blk.vop_lanes (hop : op < 8 ∨ (11 ≤ op ∧ op < 18)) (hd : v.d.kind = 0) : x.vop op v rest = .ok ({ x with
    vregs := wordsPut x.vregs (v.d.idx % 32 * 64) ((x.laneResults op v).map (·.1)) },
    (x.laneResults op v).foldl (fun a r => a.or r.2) {}) := by
  simp only [Blk.vop, vop_uses_none ha hb hc, Bool.false_eq_true, if_false, Blk.bookFor, Blk.operand_regLanes (fun _ => ha),
    Blk.operand_regLanes hb, Blk.operand_regLanes hc, show op ≠ 20 by omega, show ¬(8 ≤ op ∧ op ≤ 10) by omega,
    show ¬(op = 18 ∨ op = 19) by omega, Blk.putLanes_register hd, Blk.laneResults]

end

/-- Settles O37: each operand is a list of lanes, and what an operation puts into a register or a mask reads back lane by lane. -/
theorem vopRegisterResults : Obligations.VopRegisterResults := by
  refine ⟨?lanes, ?compare, ?reduce⟩
  case lanes =>
    intro x op v rest hop ha hb hc hd
    refine ⟨_, _, Blk.vop_lanes (x := x) (rest := rest) ha (fun _ => hb) (fun _ => hc) hop hd, fun i hi => ?_, fun k hk => ?_, rfl⟩
    · have harity : ¬ vopArity op < 1 := Nat.not_lt.2 (one_le_vopArity op)
      simp [look_wordsPut, Blk.laneResults, Blk.zip_regLanes, hi, harity]
    · simp only [look_wordsPut, Blk.laneResults, Blk.zip_regLanes, List.length_map, List.length_zip, List.length_range]
      exact if_neg (by omega)
  case compare =>
    intro x op v rest hlo hhi ha hb
    have harity : vopArity op = 2 := by interval_cases op <;> rfl
    refine ⟨_, Blk.vop_compare (x := x) (rest := rest) ha (fun _ => hb) (by omega) hlo hhi, fun i hi => ?_, fun k hk => AMap.look_save_ne _ _ _ _ hk, rfl⟩
    simp [bit_bitsOf, Blk.zip_regLanes, hi, harity]
  case reduce =>
    intro x op v rest hop ha hd
    have harity : vopArity op = 1 := by rcases hop with rfl | rfl <;> rfl
    obtain ⟨r, hvop⟩ := Blk.vop_reduce (x := x) (rest := rest) ha (by omega) (by omega) hop hd
    refine ⟨_, _, hvop, fun k hk => ?_, rfl⟩
    simp only [look_wordsPut, List.length_map, List.length_range]
    split
    · next h =>
      obtain ⟨i, rfl⟩ := Nat.exists_eq_add_of_le h.1
      simp [show i < 64 by omega, show i ≠ 0 by omega]
    · rfl

end Machine
end Sys2Proof
end

section
/-! PROOFS. A command that sets nothing going ends with its own effect (R487, R511). -/

namespace Sys2Proof
namespace Machine

/-! ### Nothing follows a quiet effect -/

theorem State.settle_of_quiet {u : State} (hdones : u.dones = []) (hqps : u.qps = []) (hcolls : u.colls = []) (hwalks : u.walks = []) :
    u.settle = u := by
  simp [State.settle, State.quiet, State.startWalks, hdones, hqps, hcolls, hwalks]

theorem State.trialFault_of_no_trial {u : State} (h : u.dev.state = .fault → u.fw.onTrial = false) : u.trialFault = u :=
  if_neg fun hfault => absurd hfault.2.1 (by rw [h hfault.1]; exact Bool.false_ne_true)

theorem State.linksFall_of_serving {u : State}
    (h : u.dev.state = .equalShare ∨ u.dev.state = .service ∨ u.dev.state = .drain ∨ (u.vl.links = [] ∧ u.en = [])) :
    u.linksFall = u := by
  rcases h with h | h | h | ⟨hlinks, hports⟩
  · simp [State.linksFall, h]
  · simp [State.linksFall, h]
  · simp [State.linksFall, h]
  · simp [State.linksFall, hlinks, hports]

theorem State.injAll_of_empty {u : State} (hinj : u.vl.inj = []) (hkept : u.vl.kept = []) : u.injAll = u := by
  simp [State.injAll, hinj, hkept]

theorem State.extPump_of_disabled {u : State} (h : u.flag F.enExtCtrlEnable = false) : u.extPump = u := by
  rw [State.extPump]
  cases excSize (u.fld F.enExtCtrlSize) <;> simp [State.extRun, h]

/-! ### The messages about the state of the device -/

/-- Messages of the out-of-band interface have left, and nothing else has changed. -/
def tellsOob (s t : State) : Prop := ∃ es : List Output, t = { s with out := es ++ s.out } ∧ ∀ e ∈ es, ∃ b, e = .oob b

theorem tellsOob_refl (s : State) : tellsOob s s := ⟨[], rfl, fun _ h => nomatch h⟩

theorem tellsOob.emit {s t : State} (h : tellsOob s t) (b : List Byte) : tellsOob s (t.emit (.oob b)) := by
  obtain ⟨es, rfl, hes⟩ := h
  exact ⟨.oob b :: es, State.emit_plain _ _ rfl, List.forall_mem_cons.2 ⟨⟨b, rfl⟩, hes⟩⟩

theorem tellsOob_platformEvents (t s : State) : tellsOob t (t.platformEvents s) := by
  unfold State.platformEvents
  split
  · exact tellsOob_refl t
  · refine List.foldlRecOn _ _ (tellsOob_refl t) fun u hu i _ => ?_
    split
    · exact hu
    · exact hu.emit _

theorem State.platformEvents_of_down {t : State} (h : t.oobUp = false) (s : State) : t.platformEvents s = t :=
  if_pos (by rw [h]; rfl)

/-- Settles O59: nothing waits in the effect, so only the messages about the device's state are added. -/
theorem quietCommandsEndWithTheirOwnEffect : Obligations.QuietCommandsEndWithTheirOwnEffect := by
  intro s u hdones hqps hcolls hwalks hdcs hinj hkept hholds hext htrial hlinks
  have hfreed : s.freed u = u := if_pos hholds
  have hfinish : u.finish = u := by
    simp [State.finish, State.settle_of_quiet hdones hqps hcolls hwalks, hwalks, hdcs, State.trialFault_of_no_trial htrial,
      State.linksFall_of_serving hlinks, State.injAll_of_empty hinj hkept, State.extPump_of_disabled hext]
  have hfinished : s.finished u = s.after (u.platformEvents s) := by rw [State.finished, hfreed, hfinish]
  obtain ⟨es, hes, hoob⟩ := tellsOob_platformEvents u s
  refine ⟨es, by rw [hfinished, hes]; rfl, hoob, fun hdown => ?_, readByte_canon u.mem⟩
  rw [State.platformEvents_of_down hdown] at hes
  exact List.self_eq_append_left.1 (congrArg State.out hes)

end Machine
end Sys2Proof
end

section
/-! PROOFS. The sequencer's steps that complete at issue, and the conversions (R336 to R338, R341, R342, R344, R345). -/

namespace Sys2Proof
namespace Machine

/-! ### The step at hand -/

/-- The Block whose sequencer is at a step is the one that the state holds. -/
theorem State.seqAt_blk {s : State} {b op fn w : Nat} {x : Blk} (h : s.seqAt b op = some (fn, x, w)) : s.blk b = x := by
  unfold State.seqAt at h
  dsimp only at h
  split at h
  · cases h
  · split at h
    · cases h
    · split at h
      · cases h
      · cases h; rfl

/-- A failing step of the sequencer's position. -/
theorem State.stepped_error {s : State} {b : Nat} {x : Blk} (h : s.blk b = x) (st : Status) :
    s.stepped b (.error st) = (s.seqFail b x.pc x.rep st).nextTable b := by
  subst h; rfl

/-- No table begins on a Block for which none waits. -/
theorem State.nextTable_of_none {s : State} {b : Nat} (h : (s.blk b).waiting = []) : s.nextTable b = s := by
  rw [State.nextTable, h]
  simp [State.drainBlk, h]

/-- The Block of a step alone changes. -/
theorem setBlk_alone (s : State) (b : Nat) (x : Blk) : (s.setBlk b x).blk b = x ∧ (∀ k, k ≠ b → (s.setBlk b x).blk k = s.blk k) ∧
    s.setBlk b x = { s with blks := (s.setBlk b x).blks } :=
  ⟨s.blk_setBlk b x, fun _ hk => s.blk_setBlk_ne b x hk, rfl⟩

/-- Room for a step and no conflict. -/
theorem Blk.not_held {x : Blk} (hnone : x.holdsNone) (hroom : x.outs.length < 16) (f : Foot) :
    ¬(16 ≤ x.outs.length ∨ (!x.clearOf f) = true) := by
  rw [hnone f]
  simpa using hroom

/-! ### Steps that complete at issue -/

theorem State.nopStep_at {s : State} {b fn w : Nat} {x : Blk} (h : s.seqAt b 0x00 = some (fn, x, w)) : s.nopStep b = s.setBlk b x.advance := by
  rw [State.nopStep, h]

theorem State.endTable_at {s : State} {b fn w : Nat} {x : Blk} (h : s.seqAt b 0x01 = some (fn, x, w)) : s.endTable b =
    (match x.start.bind s.op with
      | some o => (s.setBlk b { x with state := .idle, loops := [], start := none }).complete o .ok o.d.len
      | none => s.setBlk b { x with state := .idle, loops := [], start := none }).nextTable b := by
  rw [State.endTable, h]; rfl

/-- The Block once LOOP has opened its loop (R338). -/
def Blk.loopOpened (x : Blk) (w : Nat) : Blk := { x with
  loops := { first := x.pc + 1, last := x.pc + bits w 79 64, count := bits w 63 32, mask := bits w 95 80, iter := 0, regs := x.ars } :: x.loops
  pc := x.pc + 1
  rep := 0 }

theorem State.loopStep_at {s : State} {b fn w : Nat} {x : Blk} (h : s.seqAt b 0x02 = some (fn, x, w)) :
    s.loopStep b = s.setBlk b (x.loopOpened w) := by
  rw [State.loopStep, h]; rfl

theorem State.cvtStep_at {s : State} {b fn w : Nat} {x : Blk} {a2f : Bool}
    (h : s.seqAt b (if a2f then 0x20 else 0x21) = some (fn, x, w)) (hnone : x.holdsNone) (hroom : x.outs.length < 16) :
    s.cvtStep b a2f =
      (match firstFail [storeCheck (x.addr (bits w 35 32) 0 x.rep) (if a2f then 8 * (bits w 51 40 + 1) else 16 * (bits w 51 40 + 1)) 64,
          storeCheck (x.addr (bits w 39 36) 0 x.rep) (if a2f then 16 * (bits w 51 40 + 1) else 8 * (bits w 51 40 + 1)) 64] with
        | some st => s.stepped b (.error st)
        | none => s.issue b (if a2f then .a2f (x.addr (bits w 35 32) 0 x.rep) (x.addr (bits w 39 36) 0 x.rep) (bits w 51 40 + 1)
            else .f2a (x.addr (bits w 35 32) 0 x.rep) (x.addr (bits w 39 36) 0 x.rep) (bits w 51 40 + 1))) := by
  rw [State.cvtStep, h]
  exact if_neg (Blk.not_held hnone hroom _)

/-- Settles O34: each step is one update of its Block, and what a turnstile or a completion adds. -/
theorem sequencerStepsTakeEffect : Obligations.SequencerStepsTakeEffect := by
  refine ⟨?nop, ?endIdle, ?endCompletes, ?loop, ?setar, ?tsWait, ?tsAdd, ?tsAddFails, ?a2f, ?f2a, ?a2fFails⟩
  case nop =>
    intro s b fn w x hat
    exact ⟨_, congrArg s.ends (State.nopStep_at hat), setBlk_alone s b x.advance⟩
  case endIdle =>
    intro s b fn w x hat hstart hwait
    have hblk := s.blk_setBlk b { x with state := .idle, loops := [], start := none }
    have hend : s.endTable b = s.setBlk b { x with state := .idle, loops := [], start := none } := by
      rw [State.endTable_at hat, hstart]
      exact State.nextTable_of_none (by rw [hblk]; exact hwait)
    exact ⟨_, congrArg s.ends hend, setBlk_alone s b _⟩
  case endCompletes =>
    intro s b fn w x o hat hstart
    have hend := State.endTable_at hat
    rw [hstart] at hend
    exact congrArg s.ends hend
  case loop =>
    intro s b fn w x hat
    obtain ⟨hblk, hothers, hrest⟩ := setBlk_alone s b (x.loopOpened w)
    exact ⟨_, congrArg s.ends (State.loopStep_at hat), congrArg Blk.pc hblk, congrArg Blk.loops hblk, (congrArg Blk.ars hblk :), hothers, hrest⟩
  case setar =>
    intro s b fn w x hat
    have hset : s.setArStep b = s.setBlk b { x with ars := x.ars.set (bits w 35 32) (bits w 79 40) }.advance := by
      rw [State.setArStep, hat]
    exact ⟨_, congrArg s.ends hset, setBlk_alone s b _⟩
  case tsWait =>
    intro s t b fn w x waits hat hturn
    have hwait : s.tsWaitStep b = t.setBlk b { x.advance with tsWait := if waits then some x.pc else none } := by
      rw [State.tsWaitStep, hat]; simp only [hturn]
    exact congrArg s.ends hwait
  case tsAdd =>
    intro s t b fn w x waits hat hturn
    have hadd : s.tsAddStep b = t.setBlk b x.advance := by rw [State.tsAddStep, hat]; simp only [hturn]
    exact congrArg s.ends hadd
  case tsAddFails =>
    intro s b fn w x st hat hturn
    have hadd : s.tsAddStep b = s.stepped b (.error st) := by rw [State.tsAddStep, hat]; simp only [hturn]
    exact congrArg s.ends (hadd.trans (State.stepped_error (State.seqAt_blk hat) st))
  case a2f =>
    intro s b fn w x hat hnone hroom hsrc hdst
    have hcvt := State.cvtStep_at (a2f := true) hat hnone hroom
    simp only [if_true, hsrc, hdst, firstFail] at hcvt
    exact congrArg s.ends hcvt
  case f2a =>
    intro s b fn w x hat hnone hroom hsrc hdst
    have hcvt := State.cvtStep_at (a2f := false) hat hnone hroom
    simp only [Bool.false_eq_true, if_false, hsrc, hdst, firstFail] at hcvt
    exact congrArg s.ends hcvt
  case a2fFails =>
    intro s b fn w x st hat hnone hroom hsrc
    have hcvt := State.cvtStep_at (a2f := true) hat hnone hroom
    simp only [if_true, hsrc, firstFail] at hcvt
    exact congrArg s.ends (hcvt.trans (State.stepped_error (State.seqAt_blk hat) st))

end Machine
end Sys2Proof
end

section
/-! PROOFS. The steps of the matrix unit and the vector unit, and the format loads (R310, R318 to R324, R330, R341). -/

namespace Sys2Proof
namespace Machine

section
variable {s : State} {b fn w : Nat} {x : Blk}

theorem State.mmaStep_at (h : s.seqAt b 0x10 = some (fn, x, w)) (hnone : x.holdsNone) : s.mmaStep b = s.steppedAs fn 0x40 b
    (x.mma (bits w 36 32) (bits w 41 37) (x.addr (bits w 51 48) 0 x.rep) (x.addr (bits w 55 52) 0 x.rep)
      (x.addr (bits w 59 56) 0 x.rep) (x.addr (bits w 63 60) 0 x.rep) (bits w 71 64) (bits w 79 72) (bits w 84 80) (bits w 43 42)
      (bit w 44 && x.rep == 0)) := by
  rw [State.mmaStep, h]
  exact if_neg (by simp [hnone _])

theorem State.vopStep_at (h : s.seqAt b 0x11 = some (fn, x, w)) (hnone : x.holdsNone) {op : Nat} (hop : bits w 36 32 = op) :
    s.vopStep b op = s.vopIssued fn b x w op := by
  rw [State.vopStep, h]
  exact (if_neg (not_not_intro hop)).trans (if_neg (by simp [hnone _]))

theorem State.floadStep_at (h : s.seqAt b 0x12 = some (fn, x, w)) (hnone : x.holdsNone) {kind : Nat} (hkind : bits w 33 32 = kind) :
    s.floadStep b kind = s.stepped b (match x.fload kind (x.addr (bits w 39 36) 0 x.rep) (bits w 47 40) with
      | .ok y => .ok (y, {})
      | .error st => .error st) := by
  rw [State.floadStep, h]
  exact (if_neg (not_not_intro hkind)).trans (if_neg (by simp [hnone _]))

/-- A format load that passes its check writes its Block alone, and moves on. -/
theorem State.floadStep_loads (h : s.seqAt b 0x12 = some (fn, x, w)) (hnone : x.holdsNone) {y : Blk}
    (hload : x.fload (bits w 33 32) (x.addr (bits w 39 36) 0 x.rep) (bits w 47 40) = .ok y) {kind : Nat} (hkind : bits w 33 32 = kind) :
    s.floadStep b kind = s.setBlk b y.advance := by
  have hstep := State.floadStep_at h hnone hkind
  rw [hkind] at hload
  rw [hstep, hload]
  rfl

end

/-- Settles O36: with nothing held back, each step is what its unit makes of the operands that its word names. -/
theorem computeStepsTakeEffect : Obligations.ComputeStepsTakeEffect := by
  refine ⟨?mma, ?vop, ?fload, ?floadFails⟩
  case mma => exact fun s b fn w x hat hnone => congrArg s.ends (State.mmaStep_at hat hnone)
  case vop =>
    intro s b fn w x hat hnone
    and_intros <;> exact fun hop => congrArg s.ends (State.vopStep_at hat hnone hop)
  case fload =>
    intro s b fn w x y hat hnone hload
    and_intros <;> exact fun hkind => ⟨_, congrArg s.ends (State.floadStep_loads hat hnone hload hkind), setBlk_alone s b y.advance⟩
  case floadFails =>
    intro s b fn w x st hat hnone hkind hload
    have hstep := State.floadStep_at hat hnone hkind
    rw [hload] at hstep
    exact congrArg s.ends (hstep.trans (State.stepped_error (State.seqAt_blk hat) st))

end Machine
end Sys2Proof
end

section
/-! PROOFS. Control of a Block: pause, resume, and leaving service (R327, R349, R352, R443). -/

namespace Sys2Proof
namespace Machine

/-! ### What notices leave of the allocation tables -/

/-- The allocation tables but for the Kiosks' rings and the count of lost notices. -/
def Tenancy.butKiosks (t : Tenancy) : Tenancy := { t with kiosks := [], lostNotices := 0 }

theorem State.butKiosks_postReq (s : State) (m : Nat) (k : Kiosk) (msg : Bool → List Byte) :
    (s.postReq m k msg).ten.butKiosks = s.ten.butKiosks := by
  unfold State.postReq
  extract_lets n phase t k' tenant u
  have hwritten : t.ten = s.ten := (dataWritten_hbmWrite s _ _).ten
  have hput : u.ten.butKiosks = s.ten.butKiosks := by
    dsimp only [u, tenant]
    rw [hwritten]
    rfl
  split
  · simpa using hput
  · exact hput

theorem State.butKiosks_notify (s : State) (x : Notice) : (s.notify x).ten.butKiosks = s.ten.butKiosks := by
  unfold State.notify
  split
  · rfl
  · next m _ =>
    split
    · rfl
    · next k _ =>
      extract_lets need t tenant u k'
      have htold : u.ten.butKiosks = s.ten.butKiosks := by
        dsimp only [u, tenant]
        exact s.butKiosks_postReq m k _
      split
      · rfl
      · split
        · exact s.butKiosks_postReq m k _
        · exact (u.butKiosks_postReq m k' _).trans htold

/-! ### The Blocks and who holds them -/

/-- The Blocks, and the function that holds each. -/
def State.blkTables (s : State) : AMap Blk × AMap Nat := (s.blks, s.ten.blocks)

theorem State.blkTables_notify (s : State) (x : Notice) : (s.notify x).blkTables = s.blkTables :=
  Prod.ext (by simp [State.blkTables])
    (congrArg Tenancy.blocks (s.butKiosks_notify x) : (s.notify x).ten.butKiosks.blocks = s.ten.butKiosks.blocks)

theorem State.blkTables_singleFault (s : State) (kind unit inst n : Nat) (resumed : Bool) :
    (s.singleFault kind unit inst n resumed).blkTables = s.blkTables := by
  unfold State.singleFault
  dsimp only
  split <;> rfl

theorem State.blkTables_setFld (s : State) (f : Fld) (v o e : Nat) : (s.setFld f v o e).blkTables = s.blkTables := rfl

theorem State.blkTables_setChan (s : State) (ch : Nat) (x : Chan) : (s.setChan ch x).blkTables = s.blkTables := rfl

theorem State.blkTables_signal (s : State) (fn vec : Nat) : (s.signal fn vec).blkTables = s.blkTables := by
  simp [State.blkTables]

theorem State.blkTables_icFlag (s : State) (ch : Nat) (f : Fld) (halts : Bool) : (s.icFlag ch f halts).blkTables = s.blkTables := by
  unfold State.icFlag
  extract_lets t u x
  have hsignalled : u.blkTables = s.blkTables := by
    dsimp only [u]
    split
    · exact t.blkTables_signal _ _
    · rfl
  split <;> exact hsignalled

theorem State.blkTables_icGone (s : State) (p : Nat → Nat → Bool) : (s.icGone p).blkTables = s.blkTables := by
  refine foldl_keeps State.blkTables (fun t c => ?_) _ s
  dsimp only
  split
  · exact (State.blkTables_setChan _ _ _).trans (t.blkTables_icFlag _ _ _)
  · rfl

theorem State.blkTables_dropBlkWait (s : State) (b : Nat) : (s.dropBlkWait b).blkTables = s.blkTables := by
  unfold State.dropBlkWait State.dropWaiters
  refine List.foldlRecOn (motive := fun acc : State × List TsDone => acc.1.blkTables = s.blkTables) _ _ rfl fun acc hacc e _ => ?_
  dsimp only
  split <;> exact hacc

theorem State.blkTables_releaseAll (s : State) (b : Nat) : (s.releaseAll b false).blkTables = s.blkTables :=
  foldl_keeps State.blkTables (f := fun t (e : Nat × Resident) => if false then t.releaseEntry e.1 else { t with res := AMap.drop t.res e.1 })
    (fun _ _ => rfl) _ s

theorem State.blkTables_resetRegs (s : State) (rs : List Reg) (o : Nat) : (s.resetRegs rs o).blkTables = s.blkTables :=
  foldl_keeps State.blkTables (f := fun t r => t.resetReg r o) (fun _ _ => rfl) rs s

/-! ### Leaving service -/

/-- A Block for which no descriptor waits leaves service: beside what its integrity channels, the Journal's counts and the notice make
of the state, the Block is out and no function holds it. -/
theorem State.blockOut_blkTables {s : State} {b : Nat} (hpresent : s.blkPresent b = true) (hserves : s.inService b = true)
    (hstart : (s.blk b).start = none) (hload : (s.blk b).loading = none) (hwait : (s.blk b).waiting = []) :
    (s.blockOut b).blkTables = (AMap.save {} s.blks b { state := .out, lastStatus := (s.blk b).lastStatus }, AMap.drop s.ten.blocks b) := by
  have hin : ¬((!s.blkPresent b) = true ∨ (!s.inService b) = true) := by rw [hpresent, hserves]; decide
  unfold State.blockOut
  extract_lets x holder dropped cleared d shown gone tenant freed started late v
  rw [if_neg hin]
  have hlate : late = [] := by
    dsimp only [late, x]
    rw [hload, hwait]
    rfl
  have hv : v = freed := by
    dsimp only [v, started, x]
    rw [hlate, List.foldl_nil, hstart]
  have hdropped : dropped.blkTables = s.blkTables := (State.blkTables_releaseAll _ b).trans (s.blkTables_dropBlkWait b)
  have hcleared : cleared.blkTables = (dropped.setBlk b { state := .out, lastStatus := x.lastStatus }).blkTables :=
    State.blkTables_resetRegs _ _ _
  have hgone : gone.blkTables = cleared.blkTables := (shown.blkTables_icGone _).trans (cleared.blkTables_setFld _ _ d 0)
  rw [State.blkTables_notify, State.blkTables_singleFault, hv]
  simp only [State.blkTables, Prod.mk.injEq] at hdropped hgone hcleared
  obtain ⟨hblks, hblocks⟩ := hdropped
  refine Prod.ext ?_ ?_
  · exact hgone.1.trans (hcleared.1.trans (congrArg (AMap.save ({} : Blk) · b { state := .out, lastStatus := x.lastStatus }) hblks))
  · exact congrArg (AMap.drop · b) (hgone.2.trans (hcleared.2.trans hblocks))

theorem State.blkFn_blockOut {s u : State} {b : Nat} {m : AMap Blk} (h : u.blkTables = (m, AMap.drop s.ten.blocks b)) :
    u.blkFn b = none ∧ ∀ j, j ≠ b → u.blkFn j = s.blkFn j := by
  have hblocks : u.ten.blocks = AMap.drop s.ten.blocks b := congrArg Prod.snd h
  exact ⟨(congrArg (AMap.find · b) hblocks).trans (AMap.find_drop_self _ b),
    fun j hj => (congrArg (AMap.find · j) hblocks).trans (AMap.find_drop_ne _ hj)⟩

/-- Settles O38: each command is one update of its Block; one that leaves service also leaves its function. -/
theorem blockControlCommandsComplete : Obligations.BlockControlCommandsComplete := by
  refine ⟨?pause, ?pauseIgnored, ?drained, ?resume, ?out⟩
  case pause =>
    intro s org sp b k htarget hrun
    have hpause : s.pauseBlk org sp b = s.setBlk k { s.blk k with pausing := true } := by simp [State.pauseBlk, htarget, hrun]
    exact ⟨_, congrArg s.ends hpause, setBlk_alone s k _⟩
  case pauseIgnored =>
    intro s org sp b k htarget hrun
    have hpause : s.pauseBlk org sp b = s := by simp [State.pauseBlk, htarget, hrun]
    exact congrArg s.ends hpause
  case drained =>
    intro s b hrun hpausing houts
    have hdrained : s.pauseDrained b = s.setBlk b { s.blk b with state := .paused, pausing := false } := by
      simp [State.pauseDrained, Blk.drained, hrun, hpausing, houts]
    exact ⟨_, congrArg s.ends hdrained, setBlk_alone s b _⟩
  case resume =>
    intro s org sp b k htarget hstate
    have hresume : s.resumeBlk org sp b = s.setBlk k { s.blk k with state := .running, pausing := false } := by
      rw [State.resumeBlk, htarget]
      exact if_pos hstate
    exact ⟨_, congrArg s.ends hresume, setBlk_alone s k _⟩
  case out =>
    intro s b hpresent hserves hstart hload hwait
    have hout := State.blockOut_blkTables hpresent hserves hstart hload hwait
    have hblks : (s.blockOut b).blks = (s.setBlk b { state := .out, lastStatus := (s.blk b).lastStatus }).blks := congrArg Prod.fst hout
    obtain ⟨hfn, hfns⟩ := State.blkFn_blockOut hout
    refine ⟨s.blockOut b, rfl, ?_, hfn, fun j hj => ⟨?_, hfns j hj⟩⟩
    · exact (congrArg (AMap.look ({} : Blk) · b) hblks).trans (s.blk_setBlk b _)
    · exact (congrArg (AMap.look ({} : Blk) · j) hblks).trans (s.blk_setBlk_ne b _ hj)

end Machine
end Sys2Proof
end

section
/-! PROOFS. Memory steps and resident ranges (R304 to R308, R341, R343, R350). -/

namespace Sys2Proof
namespace Machine

/-! ### What a memory step's check admits -/

theorem State.stepCheck_ok {s : State} {fn key fga len off : Nat} {needR needW : Bool}
    (h : s.stepCheck fn key fga len needR needW = .ok off) : off = fgaOff fga := by
  unfold State.stepCheck at h
  extract_lets r at h
  split at h
  · exact nomatch h
  · generalize r = answer at h
    match answer with
    | .error .keyStale => exact nomatch h
    | .error _ =>
      split at h
      · exact nomatch h
      · exact nomatch h
      · exact nomatch (‹Except.error _ = Except.ok _›)
    | .ok _ =>
      dsimp only at h
      split at h <;> cases h
      rfl

section
variable {s : State} {b fn w : Nat} {x : Blk} (hnone : x.holdsNone) (hroom : x.outs.length < 16)
include hnone hroom

theorem State.memStep_at {store : Bool} (hat : s.seqAt b (if store then 0x09 else 0x08) = some (fn, x, w))
    (hstore : storeCheck (x.stepStore w) ((bits w 103 88 + 1) * 64) 64 = none) : s.memStep b store =
    (match s.stepCheck fn (x.stepFga w).2 (x.stepFga w).1 ((bits w 103 88 + 1) * 64) (!store) store with
      | .error st => s.stepped b (.error st)
      | .ok off =>
        if s.hbmBusy off ((bits w 103 88 + 1) * 64) then s
        else s.issue b (if store then .store off (x.stepStore w) ((bits w 103 88 + 1) * 64)
            else .load off (x.stepStore w) ((bits w 103 88 + 1) * 64)) (x.stepFga w).2
          (if store then s.resRanges off ((bits w 103 88 + 1) * 64) else [])) := by
  unfold State.memStep
  split
  case h_1 hgone => exact nomatch hgone.symm.trans hat
  case h_2 fn' x' w' hat' =>
    cases hat.symm.trans hat'
    generalize x.stepFga w = slot
    obtain ⟨fga, key⟩ := slot
    refine (if_neg (Blk.not_held hnone hroom _)).trans ?_
    simp only [hstore] <;> rfl

/-- The entry that RBIND makes (R305). -/
def Blk.bound (x : Blk) (b fn w : Nat) : Resident :=
  { base := fgaOff (x.stepFga w).1, region := x.stepStore w, len := (bits w 96 88 + 1) * 4096, load := bit w 104, blk := b, fn := fn }

theorem State.bindStep_at {off i : Nat} (hat : s.seqAt b 0x0A = some (fn, x, w))
    (hstore : storeCheck (x.stepStore w) ((bits w 96 88 + 1) * 4096) 4096 = none)
    (hcheck : s.stepCheck fn (x.stepFga w).2 (x.stepFga w).1 ((bits w 96 88 + 1) * 4096) (bit w 104) false = .ok off)
    (hbind : s.bindCheck fn b off (x.stepStore w) ((bits w 96 88 + 1) * 4096) = none) (hfree : s.freeRes = some i)
    (hbusy : bit w 104 = true → s.hbmBusy off ((bits w 96 88 + 1) * 4096) = false) :
    s.bindStep b = ({ s with res := AMap.put s.res i (x.bound b fn w) } : State).issue b (.bind i) := by
  unfold State.bindStep Blk.bound
  split
  case h_1 hgone => exact nomatch hgone.symm.trans hat
  case h_2 fn' x' w' hat' =>
    cases hat.symm.trans hat'
    generalize x.stepFga w = slot at hcheck
    obtain ⟨fga, key⟩ := slot
    have hoff : off = fgaOff fga := State.stepCheck_ok hcheck
    have hidle : ¬(bit w 104 && s.hbmBusy (fgaOff fga) ((bits w 96 88 + 1) * 4096)) = true := by
      rw [← hoff]
      cases hload : bit w 104
      · simp
      · simp [hbusy hload]
    refine (if_neg (Blk.not_held hnone hroom _)).trans ?_
    simp only [hstore, hcheck, hbind, hfree]
    exact if_neg hidle

theorem State.releaseStep_at {i : Nat} {r : Resident} (hat : s.seqAt b 0x0B = some (fn, x, w)) (hres : s.res = [(i, r)])
    (hblk : r.blk = b) (hlive : r.state = .live) (hbase : r.base = fgaOff (x.stepFga w).1) (hregion : r.region = x.stepStore w)
    (hlen : r.len = (bits w 96 88 + 1) * 4096) (hnode : fgaNode (x.stepFga w).1 = s.nodeId) (hspace : fgaSpace (x.stepFga w).1 = 0)
    (hstore : storeCheck (x.stepStore w) r.len 4096 = none) (hcipher : bit w 104 = true → s.cipherOk r.base r.len = true) :
    s.releaseStep b = ({ s with res := AMap.put s.res i { r with state := .releasing, wb := bit w 104 } } : State).issue b (.release i) := by
  unfold State.releaseStep
  split
  case h_1 hgone => exact nomatch hgone.symm.trans hat
  case h_2 fn' x' w' hat' =>
    cases hat.symm.trans hat'
    generalize x.stepFga w = slot at hbase hnode hspace
    obtain ⟨fga, key⟩ := slot
    have hsound : ¬(bit w 104 = true ∧ (!s.cipherOk (fgaOff fga) ((bits w 96 88 + 1) * 4096)) = true) := by
      rw [← hbase, ← hlen]
      rintro ⟨hwb, hkilled⟩
      rw [hcipher hwb] at hkilled
      exact absurd hkilled (by decide)
    rw [hlen] at hstore
    refine (if_neg (Blk.not_held hnone hroom _)).trans ?_
    simp only [hstore]
    refine (if_neg hsound).trans ?_
    simp only [hres, List.find?_cons, hblk, hlive, hbase, hregion, hlen, hnode, hspace, beq_self_eq_true, Bool.and_self]

end

/-! ### The bytes of memory steps -/

theorem State.hbmRead_length (s : State) (off n : Nat) : (s.hbmRead off n).length = n := by
  unfold State.hbmRead
  split_ifs <;> simp [readBytes]

theorem Blk.read_write {x : Blk} {a n : Nat} {bs : List Byte} (h : bs.length = n) : (x.write a bs).read a n = bs := by
  subst h
  exact readBytes_writeBytes x.store a bs

theorem dataWritten_hbmWriteBut (s : State) (skip : List (Nat × Nat)) (off : Nat) (bs : List Byte) :
    dataWritten s (s.hbmWriteBut skip off bs) :=
  dataWritten_foldl (fun t _ => dataWritten_hbmPut t _ _) _ s

theorem dataWritten.blks {s t : State} (h : dataWritten s t) : t.blks = s.blks :=
  (congrArg State.blks h.rest : t.butWrites.blks = s.butWrites.blks)

theorem dataWritten.res {s t : State} (h : dataWritten s t) : t.res = s.res :=
  (congrArg State.res h.rest : t.butWrites.res = s.butWrites.res)

/-- With no range left out, no killed page and no dirty log in HBM, a write puts its bytes and nothing else into memory. -/
theorem State.hbmWriteBut_mem {s : State} {off : Nat} {bs : List Byte} (hcipher : s.cipherOk off bs.length = true)
    (hlog : ∀ f, s.flag F.fnDlCtrlHbmEn f = false) : (s.hbmWriteBut [] off bs).mem = writeBytes s.mem off bs := by
  have hkilled : s.killedPages off bs.length = [] := if_pos hcipher
  have hwhole : s.hbmWriteBut [] off bs = s.hbmPut off bs := by
    rw [State.hbmWriteBut, hkilled]
    simp [outside]
  have hlog' (f : Nat) : (s.hbmCounted off bs).flag F.fnDlCtrlHbmEn f = false :=
    ((regsKept_hbmCounted s off bs).flag F.fnDlCtrlHbmEn f 0 (by decide) (by decide)).trans (hlog f)
  rw [hwhole, s.hbmPut_eq, State.markDirty_off hlog', s.hbmCounted_mem]

/-- A step taken off: its Block alone changes, and holds the others. -/
theorem State.dropOut_kept (s : State) (b id : Nat) :
    ((s.dropOut b id).blk b).outs = (s.blk b).outs.filter (fun y => y.id != id) ∧ ((s.dropOut b id).blk b).store = (s.blk b).store ∧
      ∀ k, k ≠ b → (s.dropOut b id).blk k = s.blk k := by
  have hblk := s.blk_setBlk b { s.blk b with outs := (s.blk b).outs.filter fun o => o.id != id }
  exact ⟨congrArg Blk.outs hblk, (congrArg Blk.store hblk :), fun k hk => s.blk_setBlk_ne b _ hk⟩

section
variable {s : State} {b id fn off a n : Nat} {o : SeqOut} (hout : (s.blk b).outOf id = some o) (hfn : s.blkFn b = some fn)
  (hstall : s.workStalled o.work = false) (hkilled : s.workKilled o = false) (hearly : o.early = none) (hcut : o.cut = [])
include hout hfn hstall hkilled hearly hcut

theorem State.stepDone_load (hwork : o.work = .load off a n) : s.stepDone b id none =
    (((s.countLines 0x50 off n).setBlk b ((s.blk b).write a (s.hbmRead off n))).dropOut b id).nextTable b := by
  rw [hwork] at hstall
  simp [State.stepDone, hout, hfn, hstall, hwork, hkilled, hcut, State.moveBytes, hearly]

theorem State.stepDone_store (hwork : o.work = .store off a n) (hchans : s.prot.chans = []) : s.stepDone b id none =
    ((s.hbmWriteBut [] off ((s.blk b).read a n)).dropOut b id).nextTable b := by
  have hdone (bs : List Byte) : s.icDone 4 fn b id bs = s := by simp [State.icDone, State.icUpd, State.icOn, hchans]
  rw [hwork] at hstall
  simp [State.stepDone, hout, hfn, hstall, hwork, hkilled, hcut, State.moveBytes, hearly, hdone]

end

/-- What bytes written to HBM leave of the Blocks and the resident ranges. -/
def State.storeTables (b : Nat) (s : State) : AMap Resident × List Host.Cell × List Nat :=
  (s.res, (s.blk b).store, (s.blk b).outs.map (·.id))

theorem dataWritten.storeTables {s t : State} (b : Nat) (h : dataWritten s t) : t.storeTables b = s.storeTables b := by
  unfold State.storeTables State.blk
  rw [h.res, h.blks]

/-- Keeping the bytes a step has been served with leaves its Block's store and which steps it holds. -/
theorem State.storeTables_served (s : State) (b k id : Nat) (bs : List Byte) :
    (s.setBlk k { s.blk k with outs := (s.blk k).outs.map fun y => if y.id = id then { y with early := some bs } else y }).storeTables b =
      s.storeTables b := by
  unfold State.storeTables
  by_cases hk : b = k
  · subst hk
    rw [State.blk_setBlk]
    have hids : ((s.blk b).outs.map fun y => if y.id = id then { y with early := some bs } else y).map (·.id) = (s.blk b).outs.map (·.id) := by
      rw [List.map_map]
      refine List.map_congr_left fun y _ => ?_
      dsimp only [Function.comp]
      split <;> rfl
    exact congrArg (fun l => (s.res, (s.blk b).store, l)) hids
  · rw [State.blk_setBlk_ne _ _ _ hk]
    rfl

/-- The steps a bind or a release serves keep which steps they are, and their Blocks' stores (R307, R308). -/
theorem State.storeTables_serveEarly {s : State} {base len b : Nat} {store : Bool} {f : State → Blk → SeqOut → State × List Byte}
    (h : ∀ t x o, (f t x o).1.storeTables b = t.storeTables b) : (s.serveEarly base len store f).storeTables b = s.storeTables b := by
  refine foldl_keeps (State.storeTables b) (fun t e => foldl_keeps (State.storeTables b) (fun t o => ?_) e.2.outs t) s.blks s
  extract_lets hit
  generalize hit = served
  split
  · rfl
  · exact (State.storeTables_served _ b e.1 o.id _).trans (h t (t.blk e.1) o)

/-- The stores admitted before a bind write HBM and keep the bytes they wrote (R307). -/
theorem State.storeTables_storesLand (s : State) (r : Resident) (b : Nat) : (s.storesLand r).storeTables b = s.storeTables b := by
  refine State.storeTables_serveEarly fun t x o => ?_
  cases o.work with
  | store off a n => exact (dataWritten_hbmWriteBut t o.cut off _).storeTables b
  | _ => rfl

/-- The Block after a bind of the range has its bytes where the bind loads them (R305). -/
def Resident.bind (r : Resident) (m : List Host.Cell) (x : Blk) : Blk := if r.load then x.write r.region (readBytes m r.base r.len) else x

theorem Resident.outs_bind (r : Resident) (m : List Host.Cell) (x : Blk) : (r.bind m x).outs = x.outs := by
  unfold Resident.bind
  split <;> rfl

theorem State.bindDone_at {s : State} {b i : Nat} {r : Resident} {o : SeqOut} (hout : (s.blk b).outs = [o]) (hwork : o.work = .bind i)
    (hstall : s.workStalled o.work = false) (hkilled : s.workKilled o = false) (hres : AMap.find s.res i = some r) :
    ∃ u : State, s.bindDone b = ((u.dropOut b o.id).nextTable b) ∧ u.res = AMap.put (s.storesLand r).res i { r with state := .live } ∧
      u.blk b = r.bind (s.storesLand r).mem ((s.storesLand r).blk b) ∧ u = { s.storesLand r with res := u.res, blks := u.blks } := by
  rw [hwork] at hstall
  simp only [State.bindDone, hout, List.find?_cons, hwork, hstall, hkilled, hres, Resident.bind]
  cases r.load
  · exact ⟨_, rfl, rfl, rfl, rfl⟩
  · exact ⟨_, rfl, rfl, State.blk_setBlk _ b _, rfl⟩

/-- Settles O35: each step is run at the sequencer's position, and each end at its outstanding step. -/
theorem memoryStepsTakeEffect : Obligations.MemoryStepsTakeEffect := by
  refine ⟨?mload, ?mstore, ?mloadFails, ?loadDone, ?storeDone, ?rbind, ?rbindDone, ?rrelease, ?rreleaseDone⟩
  case mload =>
    intro s b fn w off x hat hnone hroom hstore hcheck hbusy
    have hstep := State.memStep_at (store := false) hnone hroom hat hstore
    rw [Bool.not_false, hcheck] at hstep
    simp only [hbusy] at hstep
    exact congrArg s.ends hstep
  case mstore =>
    intro s b fn w off x hat hnone hroom hstore hcheck hbusy
    have hstep := State.memStep_at (store := true) hnone hroom hat hstore
    rw [Bool.not_true, hcheck] at hstep
    simp only [hbusy] at hstep
    exact congrArg s.ends hstep
  case mloadFails =>
    intro s b fn w x st hat hnone hroom hstore hcheck
    have hstep := State.memStep_at (store := false) hnone hroom hat hstore
    rw [Bool.not_false, hcheck] at hstep
    exact congrArg s.ends (hstep.trans (State.stepped_error (State.seqAt_blk hat) st))
  case loadDone =>
    intro s b id fn off a n o hout hfn hwork hstall hkilled hearly hcut
    have hdone := State.stepDone_load hout hfn hstall hkilled hearly hcut hwork
    obtain ⟨houts, hstore, hothers⟩ := ((s.countLines 0x50 off n).setBlk b ((s.blk b).write a (s.hbmRead off n))).dropOut_kept b id
    rw [State.blk_setBlk] at houts hstore
    refine ⟨_, congrArg s.ends hdone, ?_, fun c hc => ?_, houts, fun k hk => ?_, memKept_of_mem_eq (s.countLines_frame 0x50 off n).2.2.2.1⟩
    · rw [Blk.read, hstore]
      exact Blk.read_write (s.hbmRead_length off n)
    · rw [hstore]
      refine (readByte_writeBytes _ _ _ _).trans (if_neg ?_)
      rw [s.hbmRead_length]
      omega
    · rw [hothers k hk, State.blk_setBlk_ne _ _ _ hk, State.blk, State.blk]
      simp
  case storeDone =>
    intro s b id fn off a n o hout hfn hwork hstall hkilled hearly hcut hlog hchans
    have hdone := State.stepDone_store hout hfn hstall hkilled hearly hcut hwork hchans
    obtain ⟨houts, -, hothers⟩ := (s.hbmWriteBut [] off ((s.blk b).read a n)).dropOut_kept b id
    have hwritten := dataWritten_hbmWriteBut s [] off ((s.blk b).read a n)
    have hblk (k : Nat) : (s.hbmWriteBut [] off ((s.blk b).read a n)).blk k = s.blk k := congrArg (fun l => AMap.look ({} : Blk) l k) hwritten.blks
    have hlen : ((s.blk b).read a n).length = n := readBytes_length _ a n
    have hmem : (s.hbmWriteBut [] off ((s.blk b).read a n)).mem = writeBytes s.mem off ((s.blk b).read a n) := by
      refine State.hbmWriteBut_mem ?_ hlog
      rw [hlen]
      simpa [State.workKilled, hwork, hearly] using hkilled
    refine ⟨_, congrArg s.ends hdone, fun i hi => ?_, fun c hc => ?_, houts.trans (by rw [hblk]), fun k hk => (hothers k hk).trans (hblk k)⟩
    · refine (congrArg (fun m => readByte m (off + i)) hmem).trans ((readByte_writeBytes _ _ _ _).trans ?_)
      rw [if_pos (by omega)]
      simp [Blk.read, readBytes, hi]
    · exact (congrArg (fun m => readByte m c) hmem).trans ((readByte_writeBytes _ _ _ _).trans (if_neg (by omega)))
  case rbind =>
    intro s b fn w off i x hat hnone hroom hstore hcheck hbind hfree hbusy
    exact ⟨_, congrArg s.ends (State.bindStep_at hnone hroom hat hstore hcheck hbind hfree hbusy), AMap.find_put_self _ _ _,
      fun k hk => AMap.find_put_ne _ _ hk, rfl⟩
  case rbindDone =>
    intro s v b i r o hout hwork hstall hkilled hres hv
    subst hv
    obtain ⟨u, hdone, hput, hblk, hrest⟩ := State.bindDone_at hout hwork hstall hkilled hres
    obtain ⟨houts, hstore, -⟩ := u.dropOut_kept b o.id
    obtain ⟨hkeptRes, hkeptStore, hkeptIds⟩ : _ ∧ _ ∧ _ := by
      simpa only [State.storeTables, Prod.mk.injEq] using s.storeTables_storesLand r b
    rw [hblk] at houts hstore
    refine ⟨u.dropOut b o.id, congrArg s.ends hdone, ?_, fun k hk => ?_, ?_, fun hload c hc => ?_, fun hload => ?_, ?_⟩
    · exact (congrArg (AMap.find · i) hput).trans (AMap.find_put_self _ _ _)
    · refine (congrArg (AMap.find · k) hput).trans ((AMap.find_put_ne _ _ hk).trans (congrArg (AMap.find · k) hkeptRes))
    · rw [houts, r.outs_bind]
      refine List.filter_eq_nil_iff.mpr fun y hy => ?_
      have hid : y.id ∈ (s.blk b).outs.map (·.id) := hkeptIds ▸ List.mem_map_of_mem hy
      simpa [hout] using hid
    · rw [hstore, Resident.bind, if_pos hload]
      refine (readByte_writeBytes _ _ _ _).trans ?_
      rw [readBytes_length, if_pos (by omega)]
      simp [readBytes, hc]
    · rw [hstore, Resident.bind, if_neg (by simp [hload]), hkeptStore]
    · exact hrest ▸ rfl
  case rrelease =>
    intro s b fn w i x r hat hnone hroom hres hblk hlive hbase hregion hlen hnode hspace hstore hcipher
    exact ⟨_, congrArg s.ends (State.releaseStep_at hnone hroom hat hres hblk hlive hbase hregion hlen hnode hspace hstore hcipher),
      AMap.find_put_self _ _ _, rfl⟩
  case rreleaseDone =>
    intro s b i o hout hwork hstall hkilled
    have hdone : s.releaseDone b = ((s.releaseEntry i).dropOut b o.id).nextTable b := by
      rw [hwork] at hstall
      simp [State.releaseDone, hout, hwork, hstall, hkilled]
    exact congrArg s.ends hdone

end Machine
end Sys2Proof
end

section
/-! PROOFS. The collectives (R356, R359, R376, R381, R383). -/

namespace Sys2Proof
namespace Machine

/-! ### Counters and single faults (R439) -/

theorem counted_countSat (s : State) (f : Fld) (o e : Nat) : counted s (s.countSat f o 1 e) f o e := fld_setFld_self s f _ o e

/-- A counter stays counted while what happens after leaves its register. -/
theorem counted.kept {s t u : State} {f : Fld} {o e : Nat} {rs : List Reg} (h : counted s t f o e) (hkept : regsKept rs t u)
    (hpos : f.pos e < 64) (hreg : f.reg ∉ rs) : counted s u f o e :=
  (hkept f o e hpos hreg).trans h

/-- A counter counts what it counts, whatever went before in other registers. -/
theorem counted.after {s t u : State} {f : Fld} {o e : Nat} {rs : List Reg} (h : counted t u f o e) (hkept : regsKept rs s t)
    (hpos : f.pos e < 64) (hreg : f.reg ∉ rs) : counted s u f o e := by
  unfold counted at h ⊢
  rw [h, hkept f o e hpos hreg]

/-- What a single fault leaves in JNL.FLOG. -/
theorem State.regsKept_faultCaptured {kind : Nat} (s : State) (unit inst n : Nat) (resumed : Bool) :
    regsKept [.jnlFlog] (s.countSat F.jnlFcntCount 0 1 kind) (s.singleFault kind unit inst n resumed) := by
  have hdraw : regsKept [.jnlFlog] (s.countSat F.jnlFcntCount 0 1 kind) (s.countSat F.jnlFcntCount 0 1 kind).draw.2 :=
    regsKept_of_flds_eq _ rfl
  rw [State.singleFault]
  dsimp only
  split
  · exact regsKept_refl _ _
  · exact (((((hdraw.setFlag (f := F.jnlFlogValid) (by decide) _ 0 (by decide)).setFld (f := F.jnlFlogKind) (by decide) _ 0 0
      (by decide)).setFld (f := F.jnlFlogInst) (by decide) _ 0 0 (by decide)).setFld (f := F.jnlFlogUnit) (by decide) _ 0 0
      (by decide)).setFld (f := F.jnlFlogResumeUs) (by decide) _ 0 0 (by decide)).setFld (f := F.jnlFlogReplayed) (by decide) _ 0 0
      (by decide)

/-- A single fault is counted under its kind, and may be captured; it writes no other register and nothing else of the state. -/
theorem State.singleFault_told {kind : Nat} (hkind : kind < 8) (s : State) (unit inst n : Nat) (resumed : Bool) :
    counted s (s.singleFault kind unit inst n resumed) F.jnlFcntCount 0 kind ∧
      regsKept [.jnlFcnt, .jnlFlog] s (s.singleFault kind unit inst n resumed) ∧
      s.singleFault kind unit inst n resumed =
        { s with
          flds := (s.singleFault kind unit inst n resumed).flds
          freeCount := (s.singleFault kind unit inst n resumed).freeCount } := by
  have hpos : F.jnlFcntCount.pos kind < 64 := by simp only [Fld.pos, F.jnlFcntCount]; omega
  have hcaptured := s.regsKept_faultCaptured (kind := kind) unit inst n resumed
  refine ⟨(counted_countSat s _ 0 kind).kept hcaptured hpos (by decide),
    (regsKept_setFld s (by decide) _ 0 kind hpos).trans (hcaptured.mono (by decide)), ?_⟩
  rw [State.singleFault]
  dsimp only
  split <;> simp only [State.setFlag, State.setFld, State.countSat, State.draw]

/-! ### Starting a collective -/

/-- A COLL that names the kind of the command, or none, begins. -/
theorem State.collStart_begins {s : State} {r : OpRef} {o : Op} {kind : Nat} (h : s.starting r 0x20 = some o)
    (hkind : s.collKind o = some kind ∨ s.collKind o = none) : s.collStart r kind = s.collBegin o := by
  rw [State.collStart, State.startOf_starting h]
  rcases hkind with hkind | hkind <;> simp [hkind]

theorem State.collBegin_short {s : State} {o : Op} (h : o.d.len < 128) : s.collBegin o = s.complete o .badLength := if_pos (.inl h)

/-- Settles O39: the six commands begin the collective of their kind; a timeout fails it, and a lost word recomputes a chunk. -/
theorem collectiveCommandsComplete : Obligations.CollectiveCommandsComplete := by
  refine ⟨?begins, ?short, ?timeout, ?word⟩
  case begins =>
    intro s r o k hstart hkind
    and_intros <;> exact fun hk => congrArg s.ends (State.collStart_begins hstart (.inl (hk ▸ hkind)))
  case short =>
    intro s r o hstart hlen hkind
    exact congrArg s.ends ((State.collStart_begins hstart hkind.symm).trans (State.collBegin_short hlen))
  case timeout =>
    intro s r id c hcoll hslot
    have htimeout : s.collTimeout r = s.collFail id .unreachable none false := by
      rw [State.collTimeout, hcoll]
      exact if_neg fun hidle => hslot.elim (· hidle.1) (· hidle.2)
    exact congrArg s.ends htimeout
  case word =>
    intro s slice id chunk c hcoll hchunk
    have hword : s.squareWord slice id chunk = (s.countSat F.sqRecompChunks).singleFault 6 0x06 slice := by
      rw [State.squareWord, hcoll]
      exact if_neg (by simp [hchunk])
    have hcount : regsKept [.sqRecomp] s (s.countSat F.sqRecompChunks) := regsKept_setFld s (by decide) _ 0 0 (by decide)
    obtain ⟨hfault, hregs, hrest⟩ := (s.countSat F.sqRecompChunks).singleFault_told (kind := 6) (by decide) 0x06 slice 0 true
    exact ⟨_, congrArg s.ends hword, (counted_countSat s F.sqRecompChunks 0 0).kept hregs (by decide) (by decide),
      hfault.after hcount (by decide) (by decide), (hcount.mono (by decide)).trans (hregs.mono (by decide)), hrest⟩

end Machine
end Sys2Proof
end

section
/-! PROOFS. HBM: scrubbing, refresh, lane repair and the failure of a command interface (R391 to R397). -/

namespace Sys2Proof
namespace Machine

/-! ### What a notice does to the rest (R431, R433) -/

/-- What a write to HBM, the ring of a Kiosk and its signal all keep, a notice keeps. -/
theorem State.notify_keeps {p : State → State → Prop} (htrans : ∀ {t u v}, p t u → p u v → p t v)
    (hwrite : ∀ t off bs, p t (t.hbmWrite off bs)) (hten : ∀ (t : State) ten, p t { t with ten := ten })
    (hsignal : ∀ t fn vec, p t (t.signal fn vec)) (hlost : ∀ t v, p t (t.setFld F.fnKskCtrlLost v)) (s : State) (x : Notice) :
    p s (s.notify x) := by
  have hpost (t : State) (m : Nat) (k : Kiosk) (msg : Bool → List Byte) : p t (t.postReq m k msg) := by
    unfold State.postReq
    extract_lets n phase u k' ten v
    have hput : p t v := htrans (hwrite t _ _) (hten u _ : p u v)
    split
    · exact htrans hput (hsignal v _ _)
    · exact hput
  have hlose : p s s.loseNotice := htrans (hten s _) (hlost _ _)
  unfold State.notify
  split
  · exact hlose
  · split
    · exact hlose
    · next m _ k _ =>
      extract_lets need t ten u k'
      split
      · exact hlose
      · split
        · exact hpost s _ _ _
        · exact htrans (htrans (hpost s _ _ _) (hten t _ : p t u)) (hpost u _ _ _)

theorem regsKept_notify (s : State) (x : Notice) : regsKept (.fnKskCtrl :: writeRegs) s (s.notify x) := by
  refine State.notify_keeps (fun h h' => h.trans h') (fun t off bs => ?_) (fun t _ => regsKept_of_flds_eq _ rfl)
    (fun t fn vec => regsKept_signal _ t fn vec) (fun t v => regsKept_setFld t (by decide) v 0 0 (by decide)) s x
  exact (dataWritten_hbmWrite t off bs).regs.mono (by simp)

/-- What a write to HBM leaves of the poison that a stack keeps: its table only loses lines. -/
def poisonFades (s t : State) : Prop :=
  ∀ k, (t.stack k).recent = (s.stack k).recent ∧ (t.stack k).poison.length ≤ (s.stack k).poison.length

theorem poisonFades_of_hbm_eq {s t : State} (h : t.hbm = s.hbm) : poisonFades s t := by
  intro k
  rw [State.stack, State.stack, h]
  exact ⟨rfl, le_refl _⟩

theorem poisonFades.trans {s t u : State} (h : poisonFades s t) (h' : poisonFades t u) : poisonFades s u := fun k =>
  ⟨(h' k).1.trans (h k).1, (h' k).2.trans (h k).2⟩

theorem poisonFades_unpoison (s : State) (off len : Nat) : poisonFades s (s.unpoison off len) := by
  intro k
  simp only [State.stack, State.unpoison, AMap.look]
  induction s.hbm with
  | nil => exact ⟨rfl, le_refl _⟩
  | cons e m ih =>
    obtain ⟨i, x⟩ := e
    by_cases hk : k = i
    · subst hk
      simp [AMap.find, List.length_filter_le]
    · simpa [AMap.find, hk] using ih

theorem poisonFades_hbmPut (s : State) (off : Nat) (bs : List Byte) : poisonFades s (s.hbmPut off bs) := by
  have hmerges (u : State) (l : List Nat) : (l.foldl (fun (t : State) a => t.countSat F.hbmAtomOps (stackOf a)) u).hbm = u.hbm :=
    foldl_keeps State.hbm (fun (t : State) a => show (t.countSat F.hbmAtomOps (stackOf a)).hbm = t.hbm from rfl) l u
  have hput : poisonFades s (({ s with mem := writeBytes s.mem off bs } : State).unpoison off bs.length) :=
    poisonFades_unpoison { s with mem := writeBytes s.mem off bs } off bs.length
  rw [s.hbmPut_eq]
  exact hput.trans (poisonFades_of_hbm_eq (by simp [State.hbmCounted, hmerges]))

theorem poisonFades_hbmWrite (s : State) (off : Nat) (bs : List Byte) : poisonFades s (s.hbmWrite off bs) := by
  unfold State.hbmWrite State.hbmWriteBut
  generalize outside _ _ = parts
  induction parts generalizing s with
  | nil => exact poisonFades_of_hbm_eq rfl
  | cons r l ih => exact (poisonFades_hbmPut s _ _).trans (ih _)

theorem poisonFades_notify (s : State) (x : Notice) : poisonFades s (s.notify x) :=
  State.notify_keeps (fun h h' => h.trans h') poisonFades_hbmWrite
    (fun _ _ => poisonFades_of_hbm_eq rfl) (fun _ _ _ => poisonFades_of_hbm_eq (by simp)) (fun _ _ => poisonFades_of_hbm_eq rfl) s x

/-! ### The event captured (R392) -/

theorem State.eccLog_rest (s : State) (k line : Nat) (beyond scrub : Bool) (lane : Nat) :
    s.eccLog k line beyond scrub lane = { s with flds := (s.eccLog k line beyond scrub lane).flds } := by
  unfold State.eccLog
  split
  · rfl
  · simp only [State.setFlag, State.setFld]

theorem State.regsKept_eccLog (s : State) (k line : Nat) (beyond scrub : Bool) (lane : Nat) :
    regsKept [.hbmEccLog] s (s.eccLog k line beyond scrub lane) := by
  unfold State.eccLog
  split
  · exact regsKept_refl _ s
  · exact ((((((regsKept_refl _ s).setFlag (f := F.hbmEccLogValid) (by decide) _ k (by decide)).setFlag (f := F.hbmEccLogBeyond) (by decide) _ k
      (by decide)).setFlag (f := F.hbmEccLogScrub) (by decide) _ k (by decide)).setFld (f := F.hbmEccLogPc) (by decide) _ k 0
      (by decide)).setFld (f := F.hbmEccLogLane) (by decide) _ k 0 (by decide)).setFld (f := F.hbmEccLogLine) (by decide) _ k 0 (by decide)

theorem State.eccLog_captured {s : State} {k line lane : Nat} (beyond scrub : Bool) (hvalid : s.flag F.hbmEccLogValid k = false)
    (hline : line < 2 ^ 30) (hlane : lane < 64) :
    (s.eccLog k line beyond scrub lane).flag F.hbmEccLogValid k = true ∧
      (s.eccLog k line beyond scrub lane).flag F.hbmEccLogBeyond k = beyond ∧
      (s.eccLog k line beyond scrub lane).flag F.hbmEccLogScrub k = scrub ∧
      (s.eccLog k line beyond scrub lane).fld F.hbmEccLogLane k = lane ∧
      (s.eccLog k line beyond scrub lane).fld F.hbmEccLogPc k = line / 4 % 64 ∧
      (s.eccLog k line beyond scrub lane).fld F.hbmEccLogLine k = line := by
  have hpc : line / 4 % 64 % 2 ^ F.hbmEccLogPc.width = line / 4 % 64 := Nat.mod_eq_of_lt (Nat.mod_lt _ (by decide))
  have hwidth : lane % 2 ^ F.hbmEccLogLane.width = lane := Nat.mod_eq_of_lt hlane
  have hnumber : line % 2 ^ F.hbmEccLogLine.width = line := Nat.mod_eq_of_lt hline
  rw [State.eccLog, if_neg (by simp [hvalid])]
  simp (disch := decide) only [State.flag, State.setFlag, fld_setFld_ne, fld_setFld_self, hpc, hwidth, hnumber, and_true]
  cases beyond <;> cases scrub <;> decide

/-! ### A line that is read (R391 to R393) -/

section
variable {s : State} {k line : Nat} (hk : k < 8) (hon : s.domOn (8 + k) = true) (hline : line < 2 ^ 30)
  (hslots : slotsOfTwo (s.fld F.hbmStatusLevel k) ≠ 0) (hpc : bit (s.fld F.hbmPcRetiredMask k) (line / 4 % 64) = false)
include hk hon hline hslots hpc

theorem State.scrub_demand (o : EccOutcome) : s.scrub k line o false =
    match o with
    | .clean => s
    | .corrected lane => s.corrected k line (lane % 36) false
    | .beyond => s.poisonLine k line false := by
  have hmod : line % 2 ^ 30 = line := Nat.mod_eq_of_lt hline
  rw [State.scrub, hmod]
  refine (if_neg ?_).trans ((if_neg ?_).trans rfl)
  · simp [hk, hon, hpc]
  · simp [hslots]

theorem State.scrub_scrubber (hrepair : AMap.find (s.stack k).repairing (line / 4 % 64) = none) :
    s.scrub k line .clean true = s.scrubRead k line := by
  have hmod : line % 2 ^ 30 = line := Nat.mod_eq_of_lt hline
  rw [State.scrub, hmod]
  refine (if_neg ?_).trans ((if_neg ?_).trans rfl)
  · simp [hk, hon, hpc]
  · simp [hslots, hrepair]

end

/-- A corrected line below the 16th error of its lane within 1 ms counts for the lane. -/
theorem State.corrected_counts {s : State} {k line lane : Nat} {scrub : Bool}
    (hfew : (s.lastMs (AMap.look [] (s.stack k).errors (line / 4 % 64 * 64 + lane))).length < 15) :
    ∃ x, s.corrected k line lane scrub = ((s.countSat F.hbmEccCntCorrected k).eccLog k line false scrub lane).setStack k x := by
  have hrest := (s.countSat F.hbmEccCntCorrected k).eccLog_rest k line false scrub lane
  have hsame : ((s.countSat F.hbmEccCntCorrected k).eccLog k line false scrub lane).stack k = s.stack k := by rw [hrest]; rfl
  have hclock (l : List Nat) : ((s.countSat F.hbmEccCntCorrected k).eccLog k line false scrub lane).lastMs l = s.lastMs l := by
    rw [hrest]; rfl
  rw [State.corrected]
  refine ⟨_, if_neg ?_⟩
  rw [hsame, hclock, List.length_append, List.length_singleton]
  omega

/-- Addresses of a line of a stack. -/
theorem line_of_stack {k line : Nat} (hline : line < 2 ^ 30) :
    stackOf ((k * 2 ^ 30 + line) * 64) = k ∧ lineOf ((k * 2 ^ 30 + line) * 64) = line := by
  simp only [stackOf, lineOf, Nat.shiftRight_eq_div_pow]
  omega

/-- The line beyond repair of a stack whose poison table has room, where no line was lost of late and no region is reserved. -/
theorem State.poisonLine_poisons {s : State} {k line : Nat} {scrub : Bool} (hlost : s.lineLost (k * 2 ^ 36 + line * 64) = false)
    (hregions : s.img.regions = []) (hrecent : (s.stack k).recent = []) (hroom : (s.stack k).poison.length < 4096) :
    line ∈ ((s.poisonLine k line scrub).stack k).poison ∧ counted s (s.poisonLine k line scrub) F.hbmEccCntUncorrected k := by
  unfold State.poisonLine
  extract_lets off pc e owner n x recent many full p y q
  rw [hlost, if_neg Bool.false_ne_true]
  have hrest := (s.countSat F.hbmEccCntUncorrected k).eccLog_rest k line true scrub 0
  have hstack : e.stack k = s.stack k := by rw [show e = _ from hrest]; rfl
  obtain ⟨hx, hlen⟩ : x.recent = [] ∧ x.poison.length < 4096 := by
    obtain ⟨hsame, hfades⟩ := poisonFades_notify e _ k
    rw [hstack] at hsame hfades
    exact ⟨hsame.trans hrecent, hfades.trans_lt hroom⟩
  have hfull : full = false := decide_eq_false (by omega)
  have hmany : many = false := by
    refine decide_eq_false ?_
    have hone := List.length_filter_le (fun r : Nat × Nat => r.1 / 4 % 64 == pc) recent
    rw [show recent.length = 1 by simp [recent, hx]] at hone
    omega
  have htwin : p.twin off = none := by
    have hnotice (x : Notice) : (e.notify x).img = e.img := by simp
    have hset : p.img = n.img := by simp only [p, State.setStack_frame]
    have himg : p.img = s.img := hset.trans ((hnotice _ : n.img = e.img).trans (congrArg State.img hrest :))
    rw [State.twin, himg, hregions]
    rfl
  have hq : q = p := by
    dsimp only [q]
    rw [htwin]
  rw [if_neg (by simp [hfull, hmany]), hq]
  refine ⟨?_, ?_⟩
  · rw [State.stack_setStack]
    simp [hfull]
  · have hcount : counted s e F.hbmEccCntUncorrected k :=
      (counted_countSat s _ k 0).kept (State.regsKept_eccLog _ k line true scrub 0) (by decide) (by decide)
    have hnotified : counted s n F.hbmEccCntUncorrected k := hcount.kept (regsKept_notify e _) (by decide) (by decide)
    have hflds : p.flds = n.flds := (State.setStack_frame n k _).2.1
    exact hnotified.kept (regsKept_of_flds_eq [] hflds) (by decide) (by decide)

/-- The end of a lane's repair, at the stack and in the settings. -/
theorem State.laneRepaired_at {s : State} {k pc lane : Nat} (hrepair : AMap.find (s.stack k).repairing pc = some lane) :
    ∃ x, s.laneRepaired k pc = (s.setStack k x).recordRepair (3, k * 64 + pc, lane) ∧ x.spares = (s.stack k).spares ++ [(pc, lane)] ∧
      AMap.find x.repairing pc = none ∧ AMap.find x.rescrub pc = some [] := by
  simp only [State.laneRepaired, hrepair]
  exact ⟨_, rfl, rfl, AMap.find_drop_self _ _, AMap.find_put_self _ _ _⟩

theorem State.stack_recordRepair (s : State) (r : Nat × Nat × Nat) (j : Nat) : (s.recordRepair r).stack j = s.stack j := rfl

theorem State.soft_recordRepair (s : State) (r : Nat × Nat × Nat) : (s.recordRepair r).settings.soft = s.settings.soft ++ [r] := by
  by_cases hcur : s.fw.cur = 0 <;> simp [State.recordRepair, State.setSettings, State.settings, Firmware.setArea, Firmware.area, areaOf, hcur]

/-- Settles O40: each outcome of a line read, by the read's own equation, and the four steps of repair. -/
theorem hbmCommandsComplete : Obligations.HbmCommandsComplete := by
  refine ⟨?clean, ?corrected, ?beyond, ?refresh, ?repaired, ?interface⟩
  case clean =>
    intro s k line hk hon hline hslots hpc
    refine ⟨congrArg s.ends (State.scrub_demand hk hon hline hslots hpc .clean), fun hrepair => ?_⟩
    have hscrub := State.scrub_scrubber hk hon hline hslots hpc hrepair
    exact ⟨fun hpass => congrArg s.ends (hscrub.trans (if_neg (by simp [hpass]))), fun hpass => congrArg s.ends (hscrub.trans (if_pos hpass))⟩
  case corrected =>
    intro s k line lane hk hon hline hslots hpc hvalid hfew hlane
    obtain ⟨x, hcorrected⟩ := State.corrected_counts (scrub := false) hfew
    have hscrub := State.scrub_demand hk hon hline hslots hpc (.corrected lane)
    dsimp only at hscrub
    rw [Nat.mod_eq_of_lt hlane] at hscrub
    have hcount : regsKept [.hbmEccCnt] s (s.countSat F.hbmEccCntCorrected k) := regsKept_setFld s (by decide) _ k 0 (by decide)
    have hlog := (s.countSat F.hbmEccCntCorrected k).regsKept_eccLog k line false false lane
    have hcaptured := State.eccLog_captured false false
      ((hcount.flag F.hbmEccLogValid k 0 (by decide) (by decide)).trans hvalid) hline (hlane.trans (by decide))
    have hrest := (s.countSat F.hbmEccCntCorrected k).eccLog_rest k line false false lane
    have hcounted := (counted_countSat s F.hbmEccCntCorrected k 0).kept hlog (by decide) (by decide)
    have hregs := (hcount.mono (by decide)).trans (hlog.mono (show _ ⊆ [.hbmEccCnt, .hbmEccLog] by decide))
    have hexec : exec (.scrub k line (.corrected lane) false) s = s.ends (s.corrected k line lane false) := congrArg s.ends hscrub
    rw [hexec, hcorrected]
    generalize (s.countSat F.hbmEccCntCorrected k).eccLog k line false false lane = t at hcaptured hrest hcounted hregs
    obtain ⟨hset, hbeyond, hbyScrub, hlaneSet, hpcSet, hlineSet⟩ := hcaptured
    refine ⟨t.setStack k x, rfl, hcounted, hset, hbeyond, hbyScrub, hlaneSet, hpcSet, hlineSet, hregs, ?_⟩
    rw [hrest]
    rfl
  case beyond =>
    intro s k line hk hon hslots hline hlost hregions hrecent hroom
    have hpc : bit (s.fld F.hbmPcRetiredMask k) (line / 4 % 64) = false := by
      have hat : stackOf (k * 2 ^ 36 + line * 64) = k ∧ pcOf (k * 2 ^ 36 + line * 64) = line / 4 % 64 := by
        simp only [stackOf, pcOf, bits, Nat.shiftRight_eq_div_pow]
        omega
      rw [State.lineLost, hat.1, hat.2] at hlost
      exact (Bool.or_eq_false_iff.1 hlost).1
    obtain ⟨hpoison, hcount⟩ := State.poisonLine_poisons (scrub := false) hlost hregions hrecent hroom
    have hexec : exec (.scrub k line .beyond false) s = s.ends (s.poisonLine k line false) :=
      congrArg s.ends (State.scrub_demand hk hon hline hslots hpc .beyond)
    refine ⟨s.poisonLine k line false, hexec, hpoison, hcount, ?_⟩
    obtain ⟨hstack, hlineOf⟩ := line_of_stack (k := k) hline
    simp only [State.lineOk, hstack, hlineOf, List.contains_iff_mem.2 hpoison]
    simp
  case refresh =>
    intro s n k hk hlt hon
    subst hk
    exact ⟨_, congrArg s.answer (if_pos ⟨hlt, hon⟩), State.stack_setStack s _ _, fun j hj => State.stack_setStack_ne s _ _ hj,
      memKept_after s _ (memKept_refl s), rfl⟩
  case repaired =>
    intro s k pc lane hrepair
    obtain ⟨x, hdone, hspares, hrepairing, hrescrub⟩ := State.laneRepaired_at hrepair
    refine ⟨_, congrArg s.ends hdone, ?_, ?_, ?_, (s.setStack k x).soft_recordRepair _, fun j hj => ?_, rfl⟩
    · rw [State.stack_recordRepair, State.stack_setStack, hspares]
    · rw [State.stack_recordRepair, State.stack_setStack, hrepairing]
    · rw [State.stack_recordRepair, State.stack_setStack, hrescrub]
    · rw [State.stack_recordRepair, State.stack_setStack_ne s k x hj]
  case interface =>
    intro s k pc hk hpc hon
    exact congrArg s.ends (if_pos ⟨hk, hpc, hon⟩)

end Machine
end Sys2Proof
end

section
/-! PROOFS. Keys, page tags, the results of tags and cipher parity faults (R402 to R404, R407 to R412). -/

namespace Sys2Proof
namespace Machine

/-! ### What the checks of HBM read of the registers -/

section
variable {rs : List Reg} {s t : State} (hregs : regsKept rs s t) (hrest : t.butFlds = s.butFlds)
include hregs hrest

theorem State.stacksOn_of_regsKept (hretired : .hbmPcRetired ∉ rs) (off len : Nat) (write : Bool) :
    t.stacksOn off len write = s.stacksOn off len write := by
  have hmask (k : Nat) := hregs F.hbmPcRetiredMask k 0 (by decide) hretired
  have hdom : t.domOn = s.domOn := (congrArg State.domOn hrest : t.butFlds.domOn = s.butFlds.domOn)
  have hstack : t.stack = s.stack := (congrArg State.stack hrest : t.butFlds.stack = s.butFlds.stack)
  have hres : t.resident = s.resident := (congrArg State.resident hrest : t.butFlds.resident = s.butFlds.resident)
  simp only [State.stacksOn, State.lineOk, hmask, hdom, hstack, hres]

theorem State.spaceCheck_of_regsKept (hretired : .hbmPcRetired ∉ rs) (sp off len : Nat) (write : Bool) :
    t.spaceCheck sp off len write = s.spaceCheck sp off len write := by
  have hextent : t.extent = s.extent := (congrArg State.extent hrest : t.butFlds.extent = s.butFlds.extent)
  have hcipher : t.cipherOk = s.cipherOk := (congrArg State.cipherOk hrest : t.butFlds.cipherOk = s.butFlds.cipherOk)
  have hresident : t.allResident = s.allResident := (congrArg State.allResident hrest : t.butFlds.allResident = s.butFlds.allResident)
  have hregion : t.touchesRegion = s.touchesRegion := (congrArg State.touchesRegion hrest : t.butFlds.touchesRegion = s.butFlds.touchesRegion)
  simp only [State.spaceCheck, State.stacksOn_of_regsKept hregs hrest hretired, hextent, hcipher, hresident, hregion]

theorem State.ownHbm_of_regsKept (hretired : .hbmPcRetired ∉ rs) (hnode : .idNodeId ∉ rs) (fn fga len : Nat) (write : Bool) :
    t.ownHbm fn fga len write = s.ownHbm fn fga len write := by
  have howns : t.ownsBytes = s.ownsBytes := (congrArg State.ownsBytes hrest : t.butFlds.ownsBytes = s.butFlds.ownsBytes)
  simp only [State.ownHbm, State.spaceCheck_of_regsKept hregs hrest hretired, State.nodeId_of_regsKept hregs hnode, howns]

end

/-! ### A key command while KEYF is not BUSY (Table 15.4) -/

/-- The state in which a key command has named its slots. -/
def State.keyNamed (s : State) (fn : Nat) (c : KeyCmd) : State :=
  ((s.setFld F.keyfCmdIndex c.index fn).setFlag F.keyfCmdRegion c.region fn).setFld F.keyfCmdEpoch c.epoch fn

theorem State.keyCmd_open {s : State} {fn : Nat} (h : s.keyOpen fn) (v : Nat) (f : State → KeyCmd → State) :
    s.keyCmd fn v f = f (s.keyNamed fn (KeyCmd.ofNat v)) (KeyCmd.ofNat v) := by
  obtain ⟨hopen, hidle⟩ := h
  exact if_neg (by simp [hopen, hidle])

theorem State.regsKept_keyNamed (s : State) (fn : Nat) (c : KeyCmd) : regsKept [.keyfCmd] s (s.keyNamed fn c) :=
  ((regsKept_setFld s (f := F.keyfCmdIndex) (by decide) _ fn 0 (by decide)).setFlag (f := F.keyfCmdRegion) (by decide) _ fn
    (by decide)).setFld (f := F.keyfCmdEpoch) (by decide) _ fn 0 (by decide)

theorem State.butFlds_keyNamed (s : State) (fn : Nat) (c : KeyCmd) : (s.keyNamed fn c).butFlds = s.butFlds := rfl

theorem State.regsKept_keyEnds (s : State) (fn : Nat) (st : Status) : regsKept [.keyfStatus] s (s.keyEnds fn st) :=
  ((regsKept_setFld s (f := F.keyfStatusCode) (by decide) _ fn 0 (by decide)).setFlag (f := F.keyfStatusFail) (by decide) _ fn
    (by decide)).setFlag (f := F.keyfStatusBusy) (by decide) _ fn (by decide)

theorem State.butFlds_keyEnds (s : State) (fn : Nat) (st : Status) : (s.keyEnds fn st).butFlds = s.butFlds := rfl

theorem State.keyEnded_keyEnds (s : State) (fn : Nat) (st : Status) : (s.keyEnds fn st).keyEnded fn st := by
  have hcode : st.code % 2 ^ F.keyfStatusCode.width = st.code := Nat.mod_eq_of_lt st.code_lt
  refine ⟨?_, ?_, State.flag_setFlag _ _ _ fn 0 rfl⟩
  · simp (disch := decide) only [State.keyEnds, State.setFlag, fld_setFld_ne, fld_setFld_self, hcode]
  · rw [State.flag, State.keyEnds, State.setFlag, fld_setFld_ne (by decide)]
    exact State.flag_setFlag _ _ _ fn 0 rfl

/-- Whether the BARs of a function are open is shown by its link's registers, and lies else in its own state and the device's. -/
theorem State.barOpen_of_regsKept {rs : List Reg} {s t : State} (hregs : regsKept rs s t) (hrest : t.butFlds = s.butFlds)
    (hcfg : .hpPortCfg ∉ rs) (hstatus : .hpLinkStatus ∉ rs) (fn : Nat) : t.barOpen fn = s.barOpen fn := by
  have hfuses : t.fuses = s.fuses := (congrArg State.fuses hrest : t.butFlds.fuses = s.butFlds.fuses)
  have hfn : t.fn = s.fn := (congrArg State.fn hrest : t.butFlds.fn = s.butFlds.fn)
  have hdev : t.dev = s.dev := (congrArg State.dev hrest : t.butFlds.dev = s.butFlds.dev)
  rw [State.barOpen, State.barOpen, hfn, hdev, hregs.linkUp hfuses hcfg hstatus]

/-- KEYF.ARG0 as INSTALL has written it. -/
theorem State.keyArg0_open {s : State} {fn : Nat} (h : s.keyOpen fn) (a : Nat) : s.keyArg0 fn a = s.setFld F.keyfArg0Value a fn := by
  obtain ⟨hopen, hidle⟩ := h
  exact if_neg (by simp [hopen, hidle])

theorem State.keyOpen_arg0 {s : State} {fn : Nat} (h : s.keyOpen fn) (a : Nat) : (s.keyArg0 fn a).keyOpen fn := by
  rw [State.keyArg0_open h]
  refine ⟨(State.barOpen_of_regsKept (regsKept_setFld s (f := F.keyfArg0Value) (List.mem_singleton_self _) a fn 0 (by decide)) rfl
    (by decide) (by decide) fn).trans h.1, ?_⟩
  rw [State.flag, fld_setFld_ne (by decide)]
  exact h.2

/-! ### What stands beside the registers and the keys -/

/-- The state but for the registers and for keys, tags and channels. -/
def State.butKeys (s : State) : State := { s with flds := [], prot := {} }

theorem State.eq_of_butKeys {s t : State} (h : t.butKeys = s.butKeys) : t = { s with flds := t.flds, prot := t.prot } :=
  congrArg (fun u : State => { u with flds := t.flds, prot := t.prot }) h

theorem State.eq_of_butFlds {s t : State} (h : t.butFlds = s.butFlds) : t = { s with flds := t.flds } :=
  congrArg (fun u : State => { u with flds := t.flds }) h

theorem State.keySet_setKeySet (s : State) (fn i : Nat) (x : KeySet) : (s.setKeySet fn i x).keySet fn i = x :=
  AMap.look_save_self _ _ _ _

/-- A key set whose TX epoch is set (R407). -/
def KeySet.sendsUnder (x : KeySet) (e : Nat) : KeySet := { x with tx := e, psns := if e = x.tx then x.psns else 0 }

theorem State.region_setRegion (s : State) (fn i : Nat) (k : KState) : (s.setRegion fn i k).region fn i = k :=
  AMap.look_save_self _ _ _ _

/-- The check of INSTALL, and what the blob unwraps to, with the slots named. -/
theorem State.installCheck_keyNamed (s : State) (fn : Nat) (c : KeyCmd) : (s.keyNamed fn c).installCheck fn c = s.installCheck fn c := by
  have hrest := s.butFlds_keyNamed fn c
  have hregs := s.regsKept_keyNamed fn c
  have harg := hregs F.keyfArg0Value fn 0 (by decide) (by decide)
  simp only [State.installCheck, harg, State.ownHbm_of_regsKept hregs hrest (by decide) (by decide)]
  rfl

theorem State.blobKey_keyNamed (s : State) (fn : Nat) (c : KeyCmd) : (s.keyNamed fn c).blobKey fn c = s.blobKey fn c := by
  have harg := (s.regsKept_keyNamed fn c) F.keyfArg0Value fn 0 (by decide) (by decide)
  have hread : (s.keyNamed fn c).hbmRead = s.hbmRead := (congrArg State.hbmRead (s.butFlds_keyNamed fn c) :)
  rw [State.blobKey, State.blobKey, harg, hread]
  rfl

/-- INSTALL that passes its checks does what the unwrapped blob says. -/
theorem State.keyInstall_passes {s : State} {fn v a : Nat} (h : s.keyOpen fn)
    (hcheck : (s.keyArg0 fn a).installCheck fn (KeyCmd.ofNat v) = none) : (s.keyArg0 fn a).keyInstall fn v =
      ((s.keyArg0 fn a).keyNamed fn (KeyCmd.ofNat v)).installKey fn (KeyCmd.ofNat v) ((s.keyArg0 fn a).blobKey fn (KeyCmd.ofNat v)) := by
  rw [State.keyInstall, State.keyCmd_open (State.keyOpen_arg0 h a)]
  rw [State.installCheck_keyNamed, State.blobKey_keyNamed, hcheck]

theorem State.installArg_named {s : State} {fn : Nat} (h : s.keyOpen fn) (a : Nat) (c : KeyCmd) :
    regsKept [.keyfArg0, .keyfCmd] s ((s.keyArg0 fn a).keyNamed fn c) ∧ ((s.keyArg0 fn a).keyNamed fn c).butFlds = s.butFlds := by
  rw [State.keyArg0_open h]
  exact ⟨(regsKept_setFld s (f := F.keyfArg0Value) (by decide) a fn 0 (by decide)).trans ((State.regsKept_keyNamed _ fn c).mono (by decide)),
    rfl⟩

/-! ### Commands that end (Table 15.4) -/

section
variable {s n : State} (hrest : n.butFlds = s.butFlds)
include hrest

theorem State.prot_of_butFlds : n.prot = s.prot := (congrArg State.prot hrest : n.butFlds.prot = s.butFlds.prot)

/-- A command that only ends writes KEYF.STATUS. -/
theorem State.keyEnds_only (fn : Nat) (st : Status) :
    (n.keyEnds fn st).keyEnded fn st ∧ n.keyEnds fn st = { s with flds := (n.keyEnds fn st).flds } :=
  ⟨n.keyEnded_keyEnds fn st, State.eq_of_butFlds ((n.butFlds_keyEnds fn st).trans hrest)⟩

/-- A command that sets a key set and ends. -/
theorem State.setKeySet_ends (fn i : Nat) (x : KeySet) :
    ((n.setKeySet fn i x).keyEnds fn .ok).keySet fn i = x ∧ ((n.setKeySet fn i x).keyEnds fn .ok).keyEnded fn .ok ∧
      regsKept [.keyfStatus] n ((n.setKeySet fn i x).keyEnds fn .ok) ∧
      (n.setKeySet fn i x).keyEnds fn .ok =
        { s with flds := ((n.setKeySet fn i x).keyEnds fn .ok).flds, prot := ((n.setKeySet fn i x).keyEnds fn .ok).prot } := by
  have hset : regsKept [.keyfStatus] n (n.setKeySet fn i x) := regsKept_of_flds_eq _ rfl
  have hkeys : ((n.setKeySet fn i x).keyEnds fn .ok).butKeys = s.butKeys := (congrArg State.butKeys hrest :)
  exact ⟨n.keySet_setKeySet fn i x, State.keyEnded_keyEnds _ fn .ok, hset.trans (State.regsKept_keyEnds _ fn .ok), State.eq_of_butKeys hkeys⟩

theorem State.keySet_of_butFlds (fn i : Nat) : n.keySet fn i = s.keySet fn i := by
  rw [State.keySet, State.keySet, State.prot_of_butFlds hrest]

/-- A command that sets an epoch slot, with its key, and ends. -/
theorem State.setSlot_ends (fn i e : Nat) (k : KState) (key : BitVec 256) :
    ((n.setSlot fn i e k key).keyEnds fn .ok).keySet fn i =
        { s.keySet fn i with slots := (s.keySet fn i).slots.set e k, keys := (s.keySet fn i).keys.set e key } ∧
      ((n.setSlot fn i e k key).keyEnds fn .ok).keyEnded fn .ok ∧ regsKept [.keyfStatus] n ((n.setSlot fn i e k key).keyEnds fn .ok) ∧
      (n.setSlot fn i e k key).keyEnds fn .ok =
        { s with flds := ((n.setSlot fn i e k key).keyEnds fn .ok).flds, prot := ((n.setSlot fn i e k key).keyEnds fn .ok).prot } := by
  rw [State.setSlot, State.keySet_of_butFlds hrest]
  exact State.setKeySet_ends hrest fn i _

end

/-- A region slot takes a key: the other keys and the tags stay, and pages stay where the key is the one it had. -/
theorem State.setRegionKey_takes (n : State) (fn i : Nat) (key : BitVec 256 × BitVec 256) :
    (n.setRegionKey fn i key).region fn i = .valid ∧ (n.setRegionKey fn i key).regionKey fn i = key ∧
      (n.setRegionKey fn i key).prot.tags = n.prot.tags ∧ (n.setRegionKey fn i key).prot.sets = n.prot.sets ∧
      (n.regionKey fn i = key → (n.setRegionKey fn i key).mem = n.mem) :=
  ⟨by simp [State.region, State.setRegionKey, State.setRegion], by simp [State.regionKey, State.setRegionKey], rfl, rfl,
    fun hsame => if_pos hsame⟩

/-! ### The turn of a page (R410) -/

/-- A page zeroed reads zero, and the rest as before. -/
theorem State.zeroPage_mem (s : State) (p a : Nat) :
    readByte (s.zeroPage p).mem a = if a / pageSize = p then 0#8 else readByte s.mem a := by
  have hmem : (s.zeroPage p).mem = s.mem.filter fun c => c.1 / pageSize != p := rfl
  rw [hmem]
  split
  · next hin =>
    subst hin
    rw [readByte, AMap.look]
    have hnone : AMap.find (s.mem.filter fun c => c.1 / pageSize != a / pageSize) a = none := by
      induction s.mem with
      | nil => rfl
      | cons c m ih =>
        by_cases hc : c.1 / pageSize = a / pageSize
        · simpa [hc] using ih
        · have hne : a ≠ c.1 := fun h => hc (h ▸ rfl)
          simp [hc, AMap.find, hne, ih]
    rw [hnone]
    rfl
  · next hout => exact readByte_filter (fun b => b / pageSize != p) (by simpa using hout)

/-- Entries of a map are those that a read of it finds. -/
theorem AMap.mem_put_self {α : Type} (m : AMap α) (i : Nat) (x : α) : (i, x) ∈ AMap.put m i x := by
  induction m with
  | nil => exact List.mem_singleton_self _
  | cons e m ih =>
    obtain ⟨k, v⟩ := e
    rw [AMap.put]
    split_ifs
    · exact List.mem_cons_self
    · exact List.mem_cons_self
    · exact List.mem_cons_of_mem _ ih

/-- HBM holds accesses to the page whose turn it is. -/
theorem State.hbmBusy_tagging {s : State} {e : Nat × Tagging} (h : e ∈ s.prot.tagging) {p : Nat} (hp : e.2.pages.head? = some p) :
    s.hbmBusy (p * pageSize) pageSize = true := by
  have hpage : p * pageSize / pageSize = p ∧ (p * pageSize + (pageSize - 1)) / pageSize = p := by
    simp only [pageSize]
    omega
  have hturn : s.prot.tagging.any (fun e => e.2.pages.head?.any fun q => decide (p ≤ q ∧ q ≤ p)) = true :=
    List.any_eq_true.2 ⟨e, h, by simp [hp]⟩
  rw [State.hbmBusy, hpage.1, hpage.2, hturn]
  simp [pageSize]

theorem State.tagPages_keyNamed (s : State) (fn : Nat) (c : KeyCmd) : (s.keyNamed fn c).tagPages fn = s.tagPages fn := by
  have hregs := s.regsKept_keyNamed fn c
  rw [State.tagPages, State.tagPages, hregs F.keyfArg0Value fn 0 (by decide) (by decide), hregs F.keyfArg1Pages fn 0 (by decide) (by decide)]

theorem State.tagCheck_keyNamed (s : State) (fn : Nat) (c : KeyCmd) : (s.keyNamed fn c).tagCheck fn c = s.tagCheck fn c := by
  have hregs := s.regsKept_keyNamed fn c
  rw [State.tagCheck, State.tagCheck, State.tagPages_keyNamed, hregs F.keyfArg0Value fn 0 (by decide) (by decide),
    hregs F.keyfArg1Pages fn 0 (by decide) (by decide)]
  rfl

/-- TAG names at least one page. -/
theorem State.tagPages_cons {s : State} {fn : Nat} {c : KeyCmd} (h : s.tagCheck fn c = none) : ∃ p ps, s.tagPages fn = p :: ps := by
  have hlen : (s.tagPages fn).length ≠ 0 := by
    rw [State.tagPages, List.length_map, List.length_range]
    unfold State.tagCheck at h
    extract_lets a n at h
    split_ifs at h with _ _ _ _ hlength
    exact fun hzero => hlength (.inl hzero)
  exact List.exists_cons_of_ne_nil fun hnil => hlen (congrArg List.length hnil)

theorem State.keyTag_takes {s : State} {fn v : Nat} (hopen : s.keyOpen fn) (hcheck : s.tagCheck fn (KeyCmd.ofNat v) = none) :
    ∃ n : State, n.butFlds = s.butFlds ∧ s.keyTag fn v = ({ n with
      prot := { s.prot with
        tagging := AMap.put s.prot.tagging fn { slot := (KeyCmd.ofNat v).index, pages := s.tagPages fn } } } : State).setFlag F.keyfStatusBusy true fn := by
  refine ⟨s.keyNamed fn (KeyCmd.ofNat v), s.butFlds_keyNamed fn _, ?_⟩
  rw [State.keyTag, State.keyCmd_open hopen]
  simp only [State.tagCheck_keyNamed, hcheck, State.tagPages_keyNamed, State.prot_of_butFlds (s.butFlds_keyNamed fn (KeyCmd.ofNat v))]

/-- The state after the turn of a page, before the command ends or the next turn begins. -/
def State.pageTagged (s : State) (fn p slot : Nat) : State :=
  { s.zeroPage p with prot := { s.prot with tags := AMap.save 0 s.prot.tags p (if slot = 0 then 0 else fn * 16 + slot) } }

theorem State.tagPageDone_at {s : State} {fn p : Nat} {ps : List Nat} {g : Tagging} (hturn : AMap.find s.prot.tagging fn = some g)
    (hpages : g.pages = p :: ps) (hfree : s.pageAdmitted p = false) (howned : spanFind s.ten.pages p = some fn) :
    s.tagPageDone fn = match ps with
      | [] => ({ s.pageTagged fn p g.slot with
          prot := { (s.pageTagged fn p g.slot).prot with tagging := AMap.drop s.prot.tagging fn } } : State).keyEnds fn .ok
      | _ :: _ => { s.pageTagged fn p g.slot with
          prot := { (s.pageTagged fn p g.slot).prot with tagging := AMap.put s.prot.tagging fn { g with pages := ps } } } := by
  have hsame : spanFind (s.zeroPage p).ten.pages p = some fn := howned
  cases ps <;> simp only [State.tagPageDone, hturn, hpages, hfree, howned, hsame, State.pageTagged, ne_eq, not_true, or_false, if_true,
    Bool.false_eq_true, if_false] <;> rfl

/-- The state but for the registers, keys and tags, and HBM. -/
def State.butPages (s : State) : State := { s with flds := [], prot := {}, mem := [], hbm := [] }

theorem State.eq_of_butPages {s t : State} (h : t.butPages = s.butPages) :
    t = { s with flds := t.flds, prot := t.prot, mem := t.mem, hbm := t.hbm } :=
  congrArg (fun u : State => { u with flds := t.flds, prot := t.prot, mem := t.mem, hbm := t.hbm }) h

/-! ### Results of tags (R408) -/

theorem folded_icDrop (s : State) (kind fn idx id : Nat) : folded s (s.icDrop kind fn idx id) :=
  folded_foldl (fun t ch => (folded_setChan t ch _).trans (folded_icFold _ ch _)) _ s

theorem regsKept_tgtForget (s : State) (q : Nat) (p : SltPkt) : regsKept channelRegs s (s.tgtForget q p) := by
  unfold State.tgtForget
  extract_lets x
  split
  · exact regsKept_refl _ s
  · next o _ =>
    split
    · have hfree : regsKept channelRegs s ((s.freeJrec o.jrec).setQp q { x with tops := x.tops.filter fun y => y.alive != p.alive }) :=
        regsKept_of_flds_eq _ (by simp)
      exact hfree.trans (folded_icDrop _ 2 x.owner q p.alive).regs
    · exact regsKept_refl _ s

theorem State.tagResult_good {s : State} {q : Nat} {u : Unauth} {us : List Unauth} (hwaits : (s.qp q).unauth = u :: us) (hgood : u.good = true) :
    s.tagResult q = (s.setQp q { s.qp q with unauth := us, authFails := 0 }).sltEffect u.pkt := by
  simp only [State.tagResult, hwaits, hgood, if_true]

/-- The state in which a wrong tag has been counted. -/
def State.tagFailed (s : State) (q : Nat) (us : List Unauth) : State :=
  (s.setQp q { s.qp q with unauth := us, authFails := (s.qp q).authFails + 1 }).countSat F.intCiphCntAuthFail

theorem State.qp_tagFailed (s : State) (q : Nat) (us : List Unauth) :
    (s.tagFailed q us).qp q = { s.qp q with unauth := us, authFails := (s.qp q).authFails + 1 } :=
  (s.qp_setQp q _ :)

theorem State.tagResult_wrong {s : State} {q : Nat} {u : Unauth} {us : List Unauth} (hwaits : (s.qp q).unauth = u :: us)
    (hgood : u.good = false) (hplace : u.place = none) (hlimit : (s.qp q).authFails + 1 < max 1 (s.fld F.intCfgAuthMax)) :
    s.tagResult q = if sltType u.pkt.op = 0 then (s.tagFailed q us).tgtForget q u.pkt else s.tagFailed q us := by
  have hcounted : regsKept [.intCiphCnt] s (s.tagFailed q us) :=
    (regsKept_of_flds_eq _ rfl : regsKept _ s (s.setQp q _)).setFld (f := F.intCiphCntAuthFail) (by decide) _ 0 0 (by decide)
  have hforget := regsKept_tgtForget (s.tagFailed q us) q u.pkt
  have hmax : (if sltType u.pkt.op = 0 then (s.tagFailed q us).tgtForget q u.pkt else s.tagFailed q us).fld F.intCfgAuthMax =
      s.fld F.intCfgAuthMax := by
    split
    · exact (hforget _ 0 0 (by decide) (by decide)).trans (hcounted _ 0 0 (by decide) (by decide))
    · exact hcounted _ 0 0 (by decide) (by decide)
  rw [State.tagResult, hwaits]
  refine (if_neg (by simp [hgood])).trans ?_
  rw [hplace]
  exact if_neg (by rw [← hmax] at hlimit; exact Nat.not_le.2 hlimit)

/-! ### Parity faults (R412) -/

theorem State.cipherParity_region {s : State} {fn i : Nat} (h : s.region fn i = .valid) : s.cipherParity true fn i =
    ((s.setRegion fn i .killed).countSat F.intCiphCntCipherFaults).notify { type := 0xE6, fn := fn, body := [1#8, BitVec.ofNat 8 i] } := by
  rw [State.cipherParity]
  exact if_neg (by simp [h])

/-- Settles O42: each key command is run on the state that has named its slots. -/
theorem keyCommandsComplete : Obligations.KeyCommandsComplete := by
  refine ⟨?install, ?installRegion, ?noKek, ?setTx, ?retire, ?erase, ?eraseBound, ?tag, ?tagPage, fun s q n => rfl, fun s q n => rfl, ?good,
    ?wrong, ?parity⟩
  case install =>
    intro s fn v a k c hopen hc hregion hcheck hblob
    subst hc
    have heffect := State.keyInstall_passes hopen hcheck
    obtain ⟨hregs, hrest⟩ := State.installArg_named hopen a (KeyCmd.ofNat v)
    generalize (s.keyArg0 fn a).keyNamed fn (KeyCmd.ofNat v) = n at heffect hregs hrest
    simp only [hblob, State.installKey, hregion, Bool.false_eq_true, if_false] at heffect
    obtain ⟨hset, hended, hstatus, hframe⟩ := State.setSlot_ends hrest fn (KeyCmd.ofNat v).index (KeyCmd.ofNat v).epoch .valid (BitVec.ofNat 256 k)
    exact ⟨_, congrArg s.ends heffect, hset, hended, (hregs.mono (by decide)).trans (hstatus.mono (by decide)),
      memKept_of_mem_eq (congrArg State.mem hframe :), hframe⟩
  case installRegion =>
    intro s fn v a c hopen hc hregion hcheck
    subst hc
    have heffect := State.keyInstall_passes hopen hcheck
    obtain ⟨-, hrest⟩ := State.installArg_named hopen a (KeyCmd.ofNat v)
    generalize (s.keyArg0 fn a).keyNamed fn (KeyCmd.ofNat v) = n at heffect hrest
    have hprot := State.prot_of_butFlds hrest
    have hends (st : Status) := State.keyEnds_only hrest fn st
    cases hblob : (s.keyArg0 fn a).blobKey fn (KeyCmd.ofNat v) with
    | none =>
      rw [hblob] at heffect
      obtain ⟨hended, hframe⟩ := hends .authFailed
      have hkept := congrArg State.prot hframe
      exact ⟨_, congrArg s.ends heffect, congrArg Protection.tags hkept, congrArg Protection.sets hkept, hended, hkept,
        memKept_of_mem_eq (congrArg State.mem hframe :)⟩
    | some k =>
      rw [hblob] at heffect
      simp only [State.installKey, hregion, if_true] at heffect
      by_cases hhalves : (keyHalves k).1 = (keyHalves k).2
      · rw [if_pos hhalves] at heffect
        obtain ⟨hended, hframe⟩ := hends .badDescriptor
        have hkept := congrArg State.prot hframe
        refine ⟨_, congrArg s.ends heffect, congrArg Protection.tags hkept, congrArg Protection.sets hkept, ?_⟩
        simp only [if_pos hhalves]
        exact ⟨hended, hkept, memKept_of_mem_eq (congrArg State.mem hframe :)⟩
      · rw [if_neg hhalves] at heffect
        obtain ⟨hstate, hkey, htags, hsets, hmem⟩ := n.setRegionKey_takes fn (KeyCmd.ofNat v).index (keyHalves k)
        refine ⟨_, congrArg s.ends heffect, htags.trans (congrArg Protection.tags hprot), hsets.trans (congrArg Protection.sets hprot), ?_⟩
        simp only [if_neg hhalves]
        refine ⟨State.keyEnded_keyEnds _ fn .ok, hstate, hkey, fun hsame => memKept_of_mem_eq ((hmem ?_).trans (mem_of_butFlds hrest))⟩
        rw [State.regionKey, hprot]
        exact hsame
  case noKek =>
    intro s fn v a hopen hkek
    obtain ⟨-, hrest⟩ := State.installArg_named hopen a (KeyCmd.ofNat v)
    have heffect : (s.keyArg0 fn a).keyInstall fn v = ((s.keyArg0 fn a).keyNamed fn (KeyCmd.ofNat v)).keyEnds fn .authFailed := by
      have hnone : ((s.keyArg0 fn a).keyNamed fn (KeyCmd.ofNat v)).fw.kek = none :=
        (congrArg (fun u : State => u.fw.kek) hrest : _ = s.butFlds.fw.kek).trans hkek
      rw [State.keyInstall, State.keyCmd_open (State.keyOpen_arg0 hopen a), State.installCheck, hnone]
      rfl
    obtain ⟨hended, hframe⟩ := State.keyEnds_only hrest fn .authFailed
    exact ⟨_, congrArg s.ends heffect, hended, (congrArg State.prot hframe :), memKept_of_mem_eq (congrArg State.mem hframe :)⟩
  case setTx =>
    intro s fn v c hopen hc hnamed hregion hvalid
    subst hc
    have hrest := s.butFlds_keyNamed fn (KeyCmd.ofNat v)
    have heffect : s.keySetTx fn v = ((s.keyNamed fn (KeyCmd.ofNat v)).setKeySet fn (KeyCmd.ofNat v).index
        ((s.keySet fn (KeyCmd.ofNat v).index).sendsUnder (KeyCmd.ofNat v).epoch)).keyEnds fn .ok := by
      rw [State.keySetTx, State.keyCmd_open hopen, State.keySet_of_butFlds hrest]
      exact (if_neg (by simp [hnamed, hregion])).trans (if_neg (not_not.2 hvalid))
    obtain ⟨hset, hended, -, hframe⟩ := State.setKeySet_ends hrest fn (KeyCmd.ofNat v).index
      ((s.keySet fn (KeyCmd.ofNat v).index).sendsUnder (KeyCmd.ofNat v).epoch)
    exact ⟨_, congrArg s.ends heffect, congrArg KeySet.tx hset, fun hother => (congrArg KeySet.psns hset).trans (if_neg hother),
      (congrArg KeySet.slots hset :), hended, hframe⟩
  case retire =>
    intro s fn v c hopen hc hnamed hregion htx hlive
    subst hc
    have hrest := s.butFlds_keyNamed fn (KeyCmd.ofNat v)
    have heffect : s.keyRetire fn v =
        ((s.keyNamed fn (KeyCmd.ofNat v)).setSlot fn (KeyCmd.ofNat v).index (KeyCmd.ofNat v).epoch .empty).keyEnds fn .ok := by
      rw [State.keyRetire, State.keyCmd_open hopen, State.keySet_of_butFlds hrest]
      exact (if_neg (by simp [hnamed, hregion])).trans ((if_neg htx).trans (if_neg hlive))
    obtain ⟨hset, hended, -, hframe⟩ := State.setSlot_ends hrest fn (KeyCmd.ofNat v).index (KeyCmd.ofNat v).epoch .empty 0
    exact ⟨_, congrArg s.ends heffect, hset, hended, hframe⟩
  case erase =>
    intro s fn v c hopen hc hnamed hregion hbound
    subst hc
    have heffect : s.keyErase fn v = ((s.keyNamed fn (KeyCmd.ofNat v)).setKeySet fn (KeyCmd.ofNat v).index {}).keyEnds fn .ok := by
      rw [State.keyErase, State.keyCmd_open hopen]
      exact (if_neg (by simp [hnamed])).trans ((if_neg (by simp [hregion])).trans (if_neg (ne_true_of_eq_false hbound)))
    obtain ⟨hset, hended, -, hframe⟩ := State.setKeySet_ends (s.butFlds_keyNamed fn (KeyCmd.ofNat v)) fn (KeyCmd.ofNat v).index {}
    exact ⟨_, congrArg s.ends heffect, hset, hended, hframe⟩
  case eraseBound =>
    intro s fn v c hopen hc hnamed hregion hbound
    subst hc
    have heffect : s.keyErase fn v = (s.keyNamed fn (KeyCmd.ofNat v)).keyEnds fn .notPermitted := by
      rw [State.keyErase, State.keyCmd_open hopen]
      exact (if_neg (by simp [hnamed])).trans ((if_neg (by simp [hregion])).trans (if_pos hbound))
    obtain ⟨hended, hframe⟩ := State.keyEnds_only (s.butFlds_keyNamed fn (KeyCmd.ofNat v)) fn .notPermitted
    exact ⟨_, congrArg s.ends heffect, hended, hframe⟩
  case tag =>
    intro s fn v hopen hcheck
    obtain ⟨n, hrest, heffect⟩ := State.keyTag_takes hopen hcheck
    obtain ⟨p, ps, hpages⟩ := State.tagPages_cons hcheck
    refine ⟨_, congrArg s.ends heffect, State.flag_setFlag _ _ _ fn 0 rfl, AMap.find_put_self _ _ _, rfl, ?_, ?_⟩
    · rw [hpages]
      exact State.hbmBusy_tagging (AMap.mem_put_self _ _ _) rfl
    · exact State.eq_of_butKeys (congrArg State.butKeys hrest :)
  case tagPage =>
    intro s fn p ps g hturn hpages hfree howned
    have heffect := State.tagPageDone_at hturn hpages hfree howned
    have hmem (a : Nat) : readByte (s.pageTagged fn p g.slot).mem a = if a / pageSize = p then 0#8 else readByte s.mem a := s.zeroPage_mem p a
    have htag := AMap.look_save_self 0 s.prot.tags p (if g.slot = 0 then 0 else fn * 16 + g.slot)
    have hothers (q : Nat) (hq : q ≠ p) := AMap.look_save_ne 0 0 s.prot.tags (if g.slot = 0 then 0 else fn * 16 + g.slot) hq
    cases ps with
    | nil =>
      exact ⟨_, congrArg s.ends heffect, htag, hothers, AMap.find_drop_self _ _, fun _ => State.keyEnded_keyEnds _ fn .ok,
        fun a ha => (hmem a).trans (if_pos ha), fun a ha => (hmem a).trans (if_neg ha), State.eq_of_butPages rfl⟩
    | cons q qs =>
      exact ⟨_, congrArg s.ends heffect, htag, hothers, AMap.find_put_self _ _ _, nofun,
        fun a ha => (hmem a).trans (if_pos ha), fun a ha => (hmem a).trans (if_neg ha), State.eq_of_butPages rfl⟩
  case good => exact fun s q u us hwaits hgood => congrArg s.ends (State.tagResult_good hwaits hgood)
  case wrong =>
    intro s q u us hwaits hgood hplace hlimit
    exact ⟨s.tagFailed q us, congrArg s.ends (State.tagResult_wrong hwaits hgood hplace hlimit), s.qp_tagFailed q us, counted_countSat _ _ 0 0, rfl⟩
  case parity =>
    intro s fn i hvalid
    exact ⟨_, congrArg s.ends (State.cipherParity_region hvalid), (s.region_setRegion fn i .killed :), counted_countSat _ _ 0 0, rfl⟩

end Machine
end Sys2Proof
end

section
/-! PROOFS. Integrity channels: enabling, disabling and expectations (R413 to R417). -/

namespace Sys2Proof
namespace Machine

/-! ### A channel that is set -/

theorem State.regsKept_setChan (s : State) (ch : Nat) (x : Chan) : regsKept [.intIcStatus] s (s.setChan ch x) :=
  ((regsKept_of_flds_eq _ rfl : regsKept _ s { s with prot := { s.prot with chans := AMap.save {} s.prot.chans ch x } }).setFld
    (f := F.intIcStatusState) (by decide) _ ch 0 (by decide)).setFld (f := F.intIcStatusExpDepth) (by decide) _ ch 0 (by decide)

/-- The registers of a channel show its state and the depth of its expectations. -/
theorem State.setChan_shown (s : State) (ch : Nat) (x : Chan) :
    (s.setChan ch x).fld F.intIcStatusState ch = x.state.code % 2 ^ F.intIcStatusState.width ∧
      (s.setChan ch x).fld F.intIcStatusExpDepth ch = x.exps.length % 2 ^ F.intIcStatusExpDepth.width := by
  refine ⟨?_, fld_setFld_self _ _ _ ch 0⟩
  rw [State.setChan, fld_setFld_ne (by decide), fld_setFld_self]

theorem State.setChan_alone (s : State) (ch : Nat) (x : Chan) :
    (s.setChan ch x).chan ch = x ∧ (∀ k, k ≠ ch → (s.setChan ch x).chan k = s.chan k) ∧
      s.setChan ch x = { s with flds := (s.setChan ch x).flds, prot := (s.setChan ch x).prot } :=
  ⟨s.chan_setChan ch x, fun _ hk => s.chan_setChan_ne ch x hk, State.eq_of_butKeys rfl⟩

/-- A channel that is stopped with nothing left to fold is off at once. -/
theorem State.icFold_stopped {s : State} {ch : Nat} (ready : Nat → Bool) (hops : (s.chan ch).ops = []) (hstop : (s.chan ch).stopping = true) :
    s.icFold ch ready = s.setChan ch { s.chan ch with state := .off, stopping := false } := by
  have hnone : s.icFoldN ch ready (s.chan ch).ops.length = s := by rw [hops]; rfl
  rw [State.icFold, hnone]
  exact if_pos ⟨hstop, by rw [hops]; rfl⟩

/-! ### The commands of a channel -/

section
variable {s : State} {org : Origin} {sp : Space} {ch c : Nat} (htarget : s.icTarget org sp ch = some c)
include htarget

theorem State.icEnable_runs {fn : Nat} (hoff : (s.chan c).state = .off) (hkind : s.fld F.intIcSrcSrcKind c < 5)
    (hholder : AMap.find s.ten.chans c = some fn)
    (hsource : s.icSourceOk fn (s.fld F.intIcSrcSrcKind c) (s.fld F.intIcSrcIndex c) = true) :
    s.icEnable org sp ch = (s.setFlag F.intIcCtrlEnable true c).setChan c { s.chan c with state := .run, stopping := false } := by
  rw [State.icEnable, htarget]
  refine (if_neg (not_not.2 hoff)).trans ((if_neg (Nat.not_le.2 hkind)).trans ?_)
  simp [hholder, hsource]

theorem State.icEnable_badKind (hoff : (s.chan c).state = .off) (hkind : 5 ≤ s.fld F.intIcSrcSrcKind c) :
    s.icEnable org sp ch = s.setFld F.intIcStatusCode Status.badDescriptor.code c := by
  rw [State.icEnable, htarget]
  exact (if_neg (not_not.2 hoff)).trans (if_pos hkind)

theorem State.icEnable_unheld (hoff : (s.chan c).state = .off) (hkind : s.fld F.intIcSrcSrcKind c < 5)
    (hholder : AMap.find s.ten.chans c = none) : s.icEnable org sp ch = s.setFld F.intIcStatusCode Status.notPermitted.code c := by
  rw [State.icEnable, htarget]
  refine (if_neg (not_not.2 hoff)).trans ((if_neg (Nat.not_le.2 hkind)).trans ?_)
  simp [hholder]

theorem State.icDisable_empty (hon : (s.chan c).state ≠ .off) (hops : (s.chan c).ops = []) : s.icDisable org sp ch =
    ((s.setFlag F.intIcCtrlEnable false c).setChan c { s.chan c with stopping := true }).setChan c
      { s.chan c with state := .off, stopping := false } := by
  have hchan := (s.setFlag F.intIcCtrlEnable false c).chan_setChan c { s.chan c with stopping := true }
  rw [State.icDisable, htarget]
  refine (if_neg hon).trans ((State.icFold_stopped _ ?_ ?_).trans ?_)
  · rw [hchan, hops]
  · rw [hchan]
  · rw [hchan]

theorem State.icPush_room (val : Nat) (hroom : (s.chan c).exps.length < 4) : s.icPush org sp ch val =
    s.setChan c { s.chan c with exps := (s.chan c).exps ++ [(s.fld F.intIcExpLenLen c, val)] } := by
  rw [State.icPush, htarget]
  exact if_neg (Nat.not_le.2 hroom)

theorem State.icPush_full (val : Nat) (hfull : 4 ≤ (s.chan c).exps.length) : s.icPush org sp ch val = s.setFlag F.intIcStatusExpOvf true c := by
  rw [State.icPush, htarget]
  exact if_pos hfull

end

/-- A channel keeps its registers of control when it is set. -/
theorem State.enable_setChan (s : State) (c : Nat) (v : Bool) (x y : Chan) :
    ((s.setFlag F.intIcCtrlEnable v c).setChan c x).flag F.intIcCtrlEnable c = v ∧
      (((s.setFlag F.intIcCtrlEnable v c).setChan c x).setChan c y).flag F.intIcCtrlEnable c = v := by
  have hset := State.flag_setFlag s F.intIcCtrlEnable v c 0 rfl
  have hx := ((s.setFlag F.intIcCtrlEnable v c).regsKept_setChan c x).flag F.intIcCtrlEnable c 0 (by decide) (by decide)
  have hy := (((s.setFlag F.intIcCtrlEnable v c).setChan c x).regsKept_setChan c y).flag F.intIcCtrlEnable c 0 (by decide) (by decide)
  exact ⟨hx.trans hset, hy.trans (hx.trans hset)⟩

/-- A refused command shows its status. -/
theorem State.icCode_shown (s : State) (c : Nat) (st : Status) :
    (s.setFld F.intIcStatusCode st.code c).fld F.intIcStatusCode c = st.code ∧
      regsKept [.intIcStatus] s (s.setFld F.intIcStatusCode st.code c) :=
  ⟨fld_setFld_of_lt st.code_lt s c 0, regsKept_setFld s (by decide) _ c 0 (by decide)⟩

/-- Settles O43: each command by its own equation at the channel that it reaches. -/
theorem integrityChannelCommandsComplete : Obligations.IntegrityChannelCommandsComplete := by
  refine ⟨?enable, ?refused, ?disable, ?push, ?overflow⟩
  case enable =>
    intro s org sp ch c fn htarget hoff hkind hholder hsource
    have henabled : regsKept [.intIcCtrl, .intIcStatus] s (s.setFlag F.intIcCtrlEnable true c) := regsKept_setFld s (by decide) _ c 0 (by decide)
    obtain ⟨hchan, hothers, hframe⟩ := (s.setFlag F.intIcCtrlEnable true c).setChan_alone c { s.chan c with state := .run, stopping := false }
    exact ⟨_, congrArg s.ends (State.icEnable_runs htarget hoff hkind hholder hsource), hchan, (s.enable_setChan c true _ {}).1,
      (State.setChan_shown _ c _).1, hothers, henabled.trans ((State.regsKept_setChan _ c _).mono (by decide)), hframe⟩
  case refused =>
    intro s org sp ch c htarget hoff
    refine ⟨fun hkind => ?_, fun hkind hholder => ?_⟩
    · obtain ⟨hcode, hregs⟩ := s.icCode_shown c .badDescriptor
      exact ⟨_, congrArg s.ends (State.icEnable_badKind htarget hoff hkind), hcode, rfl, hregs⟩
    · obtain ⟨hcode, hregs⟩ := s.icCode_shown c .notPermitted
      exact ⟨_, congrArg s.ends (State.icEnable_unheld htarget hoff hkind hholder), hcode, rfl, hregs⟩
  case disable =>
    intro s org sp ch c htarget hon hops
    have hdisabled : regsKept [.intIcCtrl, .intIcStatus] s (s.setFlag F.intIcCtrlEnable false c) :=
      regsKept_setFld s (by decide) _ c 0 (by decide)
    have hstopping := ((s.setFlag F.intIcCtrlEnable false c).regsKept_setChan c { s.chan c with stopping := true }).mono
      (show _ ⊆ [Reg.intIcCtrl, .intIcStatus] by decide)
    exact ⟨_, congrArg s.ends (State.icDisable_empty htarget hon hops), State.chan_setChan _ c _, (s.enable_setChan c false _ _).2,
      fun k hk => (State.chan_setChan_ne _ c _ hk).trans (State.chan_setChan_ne _ c _ hk),
      (hdisabled.trans hstopping).trans ((State.regsKept_setChan _ c _).mono (by decide)), State.eq_of_butKeys rfl⟩
  case push =>
    intro s org sp ch c val htarget hroom
    obtain ⟨hchan, hothers, hframe⟩ := s.setChan_alone c { s.chan c with exps := (s.chan c).exps ++ [(s.fld F.intIcExpLenLen c, val)] }
    have hdepth := (s.setChan_shown c { s.chan c with exps := (s.chan c).exps ++ [(s.fld F.intIcExpLenLen c, val)] }).2
    have hlen : ((s.chan c).exps ++ [(s.fld F.intIcExpLenLen c, val)]).length % 2 ^ F.intIcStatusExpDepth.width = (s.chan c).exps.length + 1 := by
      rw [List.length_append, List.length_singleton]
      exact Nat.mod_eq_of_lt (show _ < 8 by omega)
    exact ⟨_, congrArg s.ends (State.icPush_room htarget val hroom), hchan, hdepth.trans hlen, hothers, State.regsKept_setChan _ c _, hframe⟩
  case overflow =>
    intro s org sp ch c val htarget hfull
    exact ⟨_, congrArg s.ends (State.icPush_full htarget val hfull), State.flag_setFlag s _ true c 0 rfl,
      regsKept_setFld s (by decide) _ c 0 (by decide), rfl⟩

end Machine
end Sys2Proof
end

section
/-! PROOFS. Function commands: create, destroy, limits, give, take, reset, dirty-log swap and Kiosk placement (R418 to R424, R434, R437). -/

namespace Sys2Proof
namespace Machine

/-! ### A function command that is taken (Table 16.1) -/

theorem State.fnCmd_open {s : State} {org : Origin} (h : s.fnOpen org) (f : State → State) : s.fnCmd org f = f s := by
  obtain ⟨hopen, hidle⟩ := h
  exact if_pos ⟨hopen, by simp [hidle]⟩

theorem State.regsKept_fnEnds (s : State) (st : Status) : regsKept [.fnStatus] s (s.fnEnds st) :=
  ((regsKept_setFld s (f := F.fnStatusCode) (by decide) _ 0 0 (by decide)).setFlag (f := F.fnStatusFail) (by decide) _ 0
    (by decide)).setFlag (f := F.fnStatusBusy) (by decide) _ 0 (by decide)

theorem State.butFlds_fnEnds (s : State) (st : Status) : (s.fnEnds st).butFlds = s.butFlds := rfl

theorem State.fnEnded_fnEnds (s : State) (st : Status) : (s.fnEnds st).fnEnded st := by
  have hcode : st.code % 2 ^ F.fnStatusCode.width = st.code := Nat.mod_eq_of_lt st.code_lt
  refine ⟨?_, ?_, State.flag_setFlag _ _ _ 0 0 rfl⟩
  · simp (disch := decide) only [State.fnEnds, State.setFlag, fld_setFld_ne, fld_setFld_self, hcode]
  · rw [State.flag, State.fnEnds, State.setFlag, fld_setFld_ne (by decide)]
    exact State.flag_setFlag _ _ _ 0 0 rfl

/-- A command whose check fails ends with the status of the check, and changes nothing else. -/
theorem State.fnDo_fails {s : State} {c : Option Status} {st : Status} (h : c = some st) (f : State → State) :
    ∃ u, s.fnDo c f = u ∧ u.fnEnded st ∧ u = { s with flds := u.flds } := by
  subst h
  exact ⟨_, rfl, s.fnEnded_fnEnds st, State.eq_of_butFlds (s.butFlds_fnEnds st)⟩

theorem State.fnDo_passes {s : State} {c : Option Status} (h : c = none) (f : State → State) : s.fnDo c f = (f s).fnEnds .ok := by
  subst h
  rfl

/-- The state but for the registers and the tables of functions. -/
def State.butTenancy (s : State) : State := { s with flds := [], ten := {} }

theorem State.eq_of_butTenancy {s t : State} (h : t.butTenancy = s.butTenancy) : t = { s with flds := t.flds, ten := t.ten } :=
  congrArg (fun u : State => { u with flds := t.flds, ten := t.ten }) h

theorem State.butTenancy_fnEnds (s : State) (st : Status) : (s.fnEnds st).butTenancy = s.butTenancy := rfl

theorem State.butTenancy_setAlloc (s : State) (fn : Nat) (a : Alloc) : (s.setAlloc fn a).butTenancy = s.butTenancy := rfl

theorem State.butTenancy_with_ten (s : State) (t : Tenancy) : ({ s with ten := t } : State).butTenancy = s.butTenancy := rfl

theorem State.butTenancy_placeKiosk (s : State) (fn arg : Nat) : (s.placeKiosk fn arg).butTenancy = s.butTenancy := rfl

/-- A command that writes the tables of functions and ends. -/
theorem State.eq_fnEnds_of_butTenancy {s t : State} (h : t.butTenancy = s.butTenancy) (st : Status) :
    t.fnEnds st = { s with flds := (t.fnEnds st).flds, ten := (t.fnEnds st).ten } :=
  State.eq_of_butTenancy ((t.butTenancy_fnEnds st).trans h)

/-! ### What a command gives -/

theorem State.alloc_setAlloc (s : State) (fn : Nat) (a : Alloc) : (s.setAlloc fn a).alloc fn = a := AMap.look_save_self _ _ _ _

theorem State.alloc_setAlloc_ne (s : State) {fn g : Nat} (a : Alloc) (h : g ≠ fn) : (s.setAlloc fn a).alloc g = s.alloc g :=
  AMap.look_save_ne _ _ _ _ h

/-- The tables in which a function is made. -/
def State.fnTables (s : State) : AMap Fn × Tenancy × List Host.Cell := (s.fns, s.ten, s.mem)

theorem State.fnTables_resetRegs (s : State) (rs : List Reg) (o : Nat) : (s.resetRegs rs o).fnTables = s.fnTables :=
  foldl_keeps State.fnTables (fun t r => show (t.resetReg r o).fnTables = t.fnTables from rfl) rs s

theorem State.fnTables_setShaper (s : State) (o : Nat) (x : Shaper) : (s.setShaper o x).fnTables = s.fnTables := rfl

theorem State.fnTables_newToken (s : State) (l : LinkId) : (s.newToken l).fnTables = s.fnTables := rfl

/-- Making a function sets its state, and leaves the tenancy and the memory. -/
theorem State.fnTables_makeFn (s : State) (fn : Nat) : (s.makeFn fn).fnTables =
    (s.setFn fn { s.fn fn with state := .active, vfHidden := !s.vfEnabled fn }).fnTables := by
  have hregs := (s.setFn fn { s.fn fn with state := .active, vfHidden := !s.vfEnabled fn }).fnTables_resetRegs shpRegs (shpObj true fn)
  unfold State.makeFn
  extract_lets f u o v
  have hv : v.fnTables = u.fnTables := ((u.resetRegs shpRegs o).fnTables_setShaper o _).trans hregs
  split
  · exact (v.fnTables_newToken _).trans hv
  · exact hv

/-- Every number of a list is given to the function, and no other. -/
theorem AMap.find_foldl_put (l : List Nat) (m : AMap Nat) (fn k : Nat) :
    AMap.find (l.foldl (fun m n => AMap.put m n fn) m) k = if k ∈ l then some fn else AMap.find m k := by
  induction l generalizing m with
  | nil => simp
  | cons n l ih =>
    rw [List.foldl_cons, ih]
    by_cases hk : k = n
    · subst hk
      simp [AMap.find_put_self]
    · simp [hk, AMap.find_put_ne _ _ hk]

theorem State.fnGive_blocks (s : State) (fn : Nat) (h : s.giveCheck fn 5 = none) : s.fnGive fn 5 =
    ({ s with ten := { s.ten with blocks := (s.named 5).foldl (fun m n => AMap.put m n fn) s.ten.blocks } } : State).fnEnds .ok :=
  State.fnDo_passes h _

theorem State.fnGive_pages (s : State) (fn : Nat) (h : s.giveCheck fn 4 = none) : s.fnGive fn 4 = ({ s with
    ten := { s.ten with pages := spanPut s.ten.pages (s.fld F.fnArg0Value / pageSize) (s.fld F.fnArg1Value) fn } } : State).fnEnds .ok :=
  State.fnDo_passes h _

/-- The registers of channels name the function that holds them. -/
def State.chansNamed (s : State) (fn : Nat) (cs : List Nat) : State := cs.foldl (fun t n => t.setFld F.intIcCtrlFn fn n) s

theorem State.butFlds_chansNamed (s : State) (fn : Nat) (cs : List Nat) : (s.chansNamed fn cs).butFlds = s.butFlds :=
  foldl_keeps State.butFlds (fun t n => t.butFlds_setFld F.intIcCtrlFn fn n 0) cs s

theorem State.regsKept_chansNamed (s : State) (fn : Nat) (cs : List Nat) : regsKept [.intIcCtrl] s (s.chansNamed fn cs) :=
  regsKept_foldl (fun t n => regsKept_setFld t (by decide) fn n 0 (by decide)) cs s

theorem State.fnGive_chans (s : State) (fn : Nat) (h : s.giveCheck fn 8 = none) : s.fnGive fn 8 =
    (({ s with ten := { s.ten with chans := (s.named 8).foldl (fun m n => AMap.put m n fn) s.ten.chans } } : State).chansNamed fn
      (s.named 8)).fnEnds .ok :=
  State.fnDo_passes h _

/-! ### What a command takes -/

theorem State.mem_named_pages (s : State) (p : Nat) :
    p ∈ s.named 4 ↔ s.fld F.fnArg0Value / pageSize ≤ p ∧ p < s.fld F.fnArg0Value / pageSize + s.fld F.fnArg1Value := by
  simp only [State.named, if_true, List.mem_map, List.mem_range]
  constructor
  · rintro ⟨i, hi, rfl⟩
    omega
  · exact fun h => ⟨p - s.fld F.fnArg0Value / pageSize, by omega, by omega⟩

theorem State.butFlds_acStop (s : State) (fn : Nat) : (s.acStop fn).butFlds = s.butFlds := by
  unfold State.acStop
  split <;> rfl

theorem State.fnTake_pages (s : State) (fn : Nat) (h : s.takeCheck fn 4 = none) : s.fnTake fn 4 =
    ((s.releasePages (s.fld F.fnArg0Value / pageSize) (s.fld F.fnArg1Value)).acStop fn).fnEnds .ok :=
  State.fnDo_passes h _

/-- A map from which the entries of some keys are taken has none at them. -/
theorem AMap.find_filter_out {α : Type} (p : Nat → Bool) (m : AMap α) {i : Nat} (h : p i = false) : AMap.find (m.filter fun e => p e.1) i = none := by
  induction m with
  | nil => rfl
  | cons e m ih =>
    obtain ⟨k, v⟩ := e
    by_cases hk : p k = true
    · have hne : i ≠ k := fun hik => by rw [hik, hk] at h; exact Bool.noConfusion h
      simp [hk, AMap.find, hne, ih]
    · simp [hk, ih]

/-- The bytes of the pages released read 0, and the others as before; the pages have no tag (R424, R410). -/
theorem State.releasePages_reads (s : State) (lo n a : Nat) :
    (lo ≤ a / pageSize ∧ a / pageSize < lo + n → readByte (s.releasePages lo n).mem a = 0#8 ∧
      AMap.look 0 (s.releasePages lo n).prot.tags (a / pageSize) = 0) ∧
      (¬(lo ≤ a / pageSize ∧ a / pageSize < lo + n) → readByte (s.releasePages lo n).mem a = readByte s.mem a) := by
  refine ⟨fun hin => ⟨?_, ?_⟩, fun hout => ?_⟩
  · exact congrArg (fun x : Option Byte => x.getD 0#8)
      (AMap.find_filter_out (fun c => !decide (lo ≤ c / pageSize ∧ c / pageSize < lo + n)) s.mem (by simp [hin]))
  · exact congrArg (fun x : Option Nat => x.getD 0)
      (AMap.find_filter_out (fun p => !decide (lo ≤ p ∧ p < lo + n)) s.prot.tags (by simp [hin]))
  · exact readByte_filter (fun c => !decide (lo ≤ c / pageSize ∧ c / pageSize < lo + n)) (by simp [hout])

/-! ### Kiosks -/

/-- The Kiosk that an argument places. -/
def kioskAt (arg : Nat) : Kiosk := { base := fgaOff (arg - arg % 8), size := arg % 8 }

theorem State.kiosk_placeKiosk (s : State) (fn arg : Nat) : (s.placeKiosk fn arg).kiosk fn = some (kioskAt arg) := AMap.find_put_self _ _ _

/-- Settles O44: a command that is taken does what its check leaves it to do, and ends. -/
theorem functionCommandsComplete : Obligations.FunctionCommandsComplete := by
  refine ⟨?create, ?fails, ?destroyManager, ?destroy, ?limit, ?range, ?giveBlocks, ?givePages, ?giveChans, ?take, ?vfReset, ?swap, ?kiosk,
    fun s p => ⟨_, rfl, rfl, rfl, rfl⟩⟩
  case create =>
    intro s org fn hopen hcheck
    have heffect : s.fnCmd org (fun s => s.fnCreate fn) =
        (((s.makeFn fn).setAlloc fn {}).placeKiosk fn (s.fld F.fnArg0Value)).fnEnds .ok :=
      (State.fnCmd_open hopen _).trans (State.fnDo_passes hcheck _)
    have hmade := s.fnTables_makeFn fn
    simp only [State.fnTables, Prod.mk.injEq] at hmade
    obtain ⟨hfns, hten, hmem⟩ := hmade
    generalize s.makeFn fn = t at heffect hfns hten hmem
    have hfn (g : Nat) : t.fn g = (s.setFn fn { s.fn fn with state := .active, vfHidden := !s.vfEnabled fn }).fn g :=
      congrArg (fun m => AMap.look ({} : Fn) m g) hfns
    have halloc (g : Nat) : t.alloc g = s.alloc g := congrArg (fun x : Tenancy => AMap.look ({} : Alloc) x.alloc g) hten
    have hframe : (((t.setAlloc fn {}).placeKiosk fn (s.fld F.fnArg0Value)).fnEnds .ok).butTenancy = t.butTenancy :=
      (State.butTenancy_fnEnds _ .ok).trans ((State.butTenancy_placeKiosk _ fn _).trans (t.butTenancy_setAlloc fn {}))
    have hkept (g : Nat) : (((t.setAlloc fn {}).placeKiosk fn (s.fld F.fnArg0Value)).fnEnds .ok).fn g = t.fn g :=
      (congrArg (State.fn · g) hframe : _ = t.butTenancy.fn g)
    have hset (g : Nat) : (((t.setAlloc fn {}).placeKiosk fn (s.fld F.fnArg0Value)).fnEnds .ok).alloc g = (t.setAlloc fn {}).alloc g := rfl
    refine ⟨_, congrArg s.ends heffect, ?_, ?_, State.kiosk_placeKiosk _ fn _, State.fnEnded_fnEnds _ .ok, fun g hg => ⟨?_, ?_⟩,
      memKept_of_mem_eq ((congrArg State.mem hframe : _ = t.butTenancy.mem).trans hmem)⟩
    · rw [hkept, hfn, State.fn_setFn]
    · rw [hset, State.alloc_setAlloc]
    · rw [hkept, hfn, State.fn_setFn_ne s fn _ hg]
    · rw [hset, State.alloc_setAlloc_ne _ {} hg, halloc]
  case fails =>
    intro s org fn st hopen
    refine ⟨fun hcheck => ?_, fun r hcheck => ?_, fun r hcheck => ?_, fun r hcheck => ?_⟩
    · obtain ⟨u, hdo, hended⟩ := State.fnDo_fails (s := s) hcheck _
      exact ⟨u, congrArg s.ends ((State.fnCmd_open hopen _).trans hdo), hended⟩
    · obtain ⟨u, hdo, hended⟩ := State.fnDo_fails (s := s) hcheck _
      exact ⟨u, congrArg s.ends ((State.fnCmd_open hopen _).trans hdo), hended⟩
    · obtain ⟨u, hdo, hended⟩ := State.fnDo_fails (s := s) hcheck _
      exact ⟨u, congrArg s.ends ((State.fnCmd_open hopen _).trans hdo), hended⟩
    · obtain ⟨u, hdo, hended⟩ := State.fnDo_fails (s := s) hcheck _
      exact ⟨u, congrArg s.ends ((State.fnCmd_open hopen _).trans hdo), hended⟩
  case destroyManager =>
    intro s org fn hopen hmanager
    have heffect : s.fnCmd org (fun s => s.fnDestroy fn) = s.fnEnds .notPermitted := (State.fnCmd_open hopen _).trans (if_pos hmanager)
    exact ⟨_, congrArg s.ends heffect, s.fnEnded_fnEnds .notPermitted, State.eq_of_butFlds (s.butFlds_fnEnds .notPermitted)⟩
  case destroy =>
    intro s org fn hopen hmanager hpf hactive
    refine congrArg s.ends ((State.fnCmd_open hopen _).trans ?_)
    simp [State.fnDestroy, hmanager, hpf, hactive]
  case limit =>
    intro s org fn r hopen hcheck hr
    have heffect : s.fnCmd org (fun s => s.setLimit fn r) = (s.setAlloc fn ((s.alloc fn).setLimit r (s.fld F.fnArg0Value))).fnEnds .ok :=
      (State.fnCmd_open hopen _).trans ((State.fnDo_passes hcheck _).trans (congrArg (State.fnEnds · .ok) (if_neg (Nat.not_le.2 hr))))
    exact ⟨_, congrArg s.ends heffect, s.alloc_setAlloc fn _, fun g hg => s.alloc_setAlloc_ne _ hg, State.fnEnded_fnEnds _ .ok,
      (regsKept_of_flds_eq _ rfl : regsKept _ s (s.setAlloc fn _)).trans (State.regsKept_fnEnds _ .ok),
      State.eq_fnEnds_of_butTenancy (s.butTenancy_setAlloc fn _) .ok⟩
  case range =>
    intro s org fn hopen hcheck
    have heffect : s.fnCmd org (fun s => s.setLimit fn 0) =
        (s.setAlloc fn ((s.alloc fn).setRange 0 (s.fld F.fnArg0Value) (s.fld F.fnArg1Value))).fnEnds .ok :=
      (State.fnCmd_open hopen _).trans (State.fnDo_passes hcheck _)
    have hset := s.alloc_setAlloc fn ((s.alloc fn).setRange 0 (s.fld F.fnArg0Value) (s.fld F.fnArg1Value))
    exact ⟨_, congrArg s.ends heffect, congrArg Alloc.qBase hset, congrArg Alloc.qCount hset, fun g hg => s.alloc_setAlloc_ne _ hg,
      State.fnEnded_fnEnds _ .ok, State.eq_fnEnds_of_butTenancy (s.butTenancy_setAlloc fn _) .ok⟩
  case giveBlocks =>
    intro s org fn hopen hcheck
    have hblocks (b : Nat) := AMap.find_foldl_put (s.named 5) s.ten.blocks fn b
    exact ⟨_, congrArg s.ends ((State.fnCmd_open hopen _).trans (s.fnGive_blocks fn hcheck)), fun b hb => (hblocks b).trans (if_pos hb),
      fun b hb => (hblocks b).trans (if_neg hb), State.fnEnded_fnEnds _ .ok, State.eq_fnEnds_of_butTenancy (s.butTenancy_with_ten _) .ok⟩
  case givePages =>
    intro s org fn hopen hcheck
    exact ⟨_, congrArg s.ends ((State.fnCmd_open hopen _).trans (s.fnGive_pages fn hcheck)), rfl, State.fnEnded_fnEnds _ .ok,
      State.eq_fnEnds_of_butTenancy (s.butTenancy_with_ten _) .ok⟩
  case giveChans =>
    intro s org fn hopen hcheck
    have heffect := (State.fnCmd_open hopen (fun s => s.fnGive fn 8)).trans (s.fnGive_chans fn hcheck)
    generalize hgiven : ({ s with
      ten := { s.ten with chans := (s.named 8).foldl (fun m n => AMap.put m n fn) s.ten.chans } } : State) = t at heffect
    have hchans (c : Nat) : AMap.find t.ten.chans c = if c ∈ s.named 8 then some fn else AMap.find s.ten.chans c := by
      rw [← hgiven]
      exact AMap.find_foldl_put (s.named 8) s.ten.chans fn c
    have hten : ((t.chansNamed fn (s.named 8)).fnEnds .ok).ten = t.ten :=
      (congrArg State.ten (t.butFlds_chansNamed fn (s.named 8)) : (t.chansNamed fn (s.named 8)).butFlds.ten = t.butFlds.ten)
    have hgave : regsKept [.fnStatus, .intIcCtrl] s t := regsKept_of_flds_eq _ (by rw [← hgiven])
    have hframe : (t.chansNamed fn (s.named 8)).butTenancy = s.butTenancy :=
      (congrArg State.butTenancy (t.butFlds_chansNamed fn (s.named 8)) : _ = t.butFlds.butTenancy).trans (by rw [← hgiven]; rfl)
    refine ⟨_, congrArg s.ends heffect, fun c hc => ?_, fun c hc => ?_, State.fnEnded_fnEnds _ .ok, ?_, State.eq_fnEnds_of_butTenancy hframe .ok⟩
    · rw [hten, hchans, if_pos hc]
    · rw [hten, hchans, if_neg hc]
    · exact (hgave.trans ((t.regsKept_chansNamed fn _).mono (by decide))).trans ((State.regsKept_fnEnds _ .ok).mono (by decide))
  case take =>
    intro s org fn hopen hcheck
    have heffect := (State.fnCmd_open hopen (fun s => s.fnTake fn 4)).trans (s.fnTake_pages fn hcheck)
    have hreads (a : Nat) := s.releasePages_reads (s.fld F.fnArg0Value / pageSize) (s.fld F.fnArg1Value) a
    have hpages : (s.releasePages (s.fld F.fnArg0Value / pageSize) (s.fld F.fnArg1Value)).ten.pages =
      spanCut s.ten.pages (s.fld F.fnArg0Value / pageSize) (s.fld F.fnArg1Value) := rfl
    generalize s.releasePages (s.fld F.fnArg0Value / pageSize) (s.fld F.fnArg1Value) = t at heffect hreads hpages
    have hkept : ((t.acStop fn).fnEnds .ok).butFlds = t.butFlds :=
      ((t.acStop fn).butFlds_fnEnds .ok).trans (t.butFlds_acStop fn)
    have hmem := mem_of_butFlds hkept
    have htags : ((t.acStop fn).fnEnds .ok).prot = t.prot := State.prot_of_butFlds hkept
    have hten : ((t.acStop fn).fnEnds .ok).ten = t.ten := (congrArg State.ten hkept : _ = t.butFlds.ten)
    refine ⟨_, congrArg s.ends heffect, fun a ha => ?_, fun a ha => ?_, State.fnEnded_fnEnds _ .ok, ?_⟩
    · rw [hmem, htags]
      exact (hreads a).1 ((s.mem_named_pages _).1 ha)
    · rw [hmem]
      exact (hreads a).2 fun hin => ha ((s.mem_named_pages _).2 hin)
    · rw [hten, hpages]
  case vfReset =>
    intro s org fn hopen hpf hactive
    have heffect : s.vfReset fn = (s.fnReset fn false).fnEnds .ok := by
      rw [State.vfReset]
      exact State.fnDo_passes (by simp [hpf, hactive]) _
    exact congrArg s.ends ((State.fnCmd_open hopen _).trans heffect)
  case swap =>
    intro s org fn hopen hcreated hhost
    have heffect : s.dlSwap fn = (s.setFlag F.fnDlCtrlActive (!s.flag F.fnDlCtrlActive fn) fn).fnEnds .ok := by
      rw [State.dlSwap]
      exact State.fnDo_passes (by simp [hcreated, hhost]) _
    have hset : regsKept [.fnDlCtrl, .fnStatus] s (s.setFlag F.fnDlCtrlActive (!s.flag F.fnDlCtrlActive fn) fn) :=
      regsKept_setFld s (by decide) _ fn 0 (by decide)
    refine ⟨_, congrArg s.ends ((State.fnCmd_open hopen _).trans heffect), ?_, State.fnEnded_fnEnds _ .ok,
      hset.trans ((State.regsKept_fnEnds _ .ok).mono (by decide)),
      State.eq_of_butFlds ((State.butFlds_fnEnds _ .ok).trans (s.butFlds_setFlag F.fnDlCtrlActive _ fn 0))⟩
    exact ((State.regsKept_fnEnds _ .ok).flag F.fnDlCtrlActive fn 0 (by decide) (by decide)).trans (State.flag_setFlag s _ _ fn 0 rfl)
  case kiosk =>
    intro s org fn hopen hcreated hcheck
    have heffect : s.kskSet fn = (s.placeKiosk fn (s.fld F.fnArg0Value)).fnEnds .ok := by
      rw [State.kskSet]
      exact State.fnDo_passes (by simp [hcreated, hcheck]) _
    exact ⟨_, congrArg s.ends ((State.fnCmd_open hopen _).trans heffect), s.kiosk_placeKiosk fn _, State.fnEnded_fnEnds _ .ok,
      State.eq_fnEnds_of_butTenancy (s.butTenancy_placeKiosk fn _) .ok⟩

end Machine
end Sys2Proof
end

section
/-! PROOFS. The Kiosks: posting a request, the doorbells and taking a response (R430 to R433). -/

namespace Sys2Proof
namespace Machine

/-! ### The registers that show a message (R432) -/

/-- Registers reset over a range of objects leave all others. -/
theorem regsKept_resetRange (s : State) (rs : List Reg) (lo n : Nat) : regsKept rs s (s.resetRange rs lo n) := by
  intro f o e hpos hreg
  have hkey : f.key o e / 64 % 512 = f.reg.ctorIdx := by
    have := f.reg.ctorIdx_lt
    unfold Fld.key
    omega
  have hother : (rs.any fun r => r.ctorIdx == f.key o e / 64 % 512) = false := by
    rw [List.any_eq_false]
    intro r hr
    rw [hkey, beq_iff_eq]
    exact fun h => hreg (Reg.ctorIdx_inj h ▸ hr)
  rw [fld_eq_look, fld_eq_look]
  refine congrArg (fun x : Option Nat => x.getD (f.reset e)) (AMap.find_filter_of_key (fun key => !(decide (lo ≤ key / 64 / 512 ∧
    key / 64 / 512 < lo + n) && rs.any fun r => r.ctorIdx == key / 64 % 512)) s.flds ?_)
  rw [hother, Bool.and_false, Bool.not_false]

theorem regsKept_present (s : State) (fn : Nat) (k : Kiosk) : regsKept [.kskRxData] s (s.present fn k) := by
  have hreset := regsKept_resetRange s [.kskRxData] (fn * 8) 8
  unfold State.present
  extract_lets t bs
  split
  · exact hreset
  · exact hreset.trans (regsKept_foldl (fun u i => regsKept_setFld u (by decide) _ _ 0 (by decide)) _ t)

theorem State.butFlds_present (s : State) (fn : Nat) (k : Kiosk) : (s.present fn k).butFlds = s.butFlds := by
  unfold State.present
  extract_lets t bs
  split
  · rfl
  · exact foldl_keeps State.butFlds (fun u i => u.butFlds_setFld F.kskRxDataData (leAt bs (8 * i) 8) (fn * 8 + i) 0) _ t

/-- Placing a Kiosk's record and showing its message leaves the Kiosk so. -/
theorem State.kiosk_present (s : State) (fn : Nat) (k : Kiosk) : ((s.setKiosk fn k).present fn k).kiosk fn = some k := by
  have hkiosk : ((s.setKiosk fn k).present fn k).kiosk fn = (s.setKiosk fn k).kiosk fn :=
    (congrArg (State.kiosk · fn) ((s.setKiosk fn k).butFlds_present fn k) : _ = (s.setKiosk fn k).butFlds.kiosk fn)
  rw [hkiosk]
  exact AMap.find_put_self _ _ _

/-! ### The doorbells and the posts -/

theorem State.kioskPost_room {s : State} {fn : Nat} {k : Kiosk} (hopen : s.barOpen fn = true) (hkiosk : s.kiosk fn = some k)
    (htype : leAt (s.staged fn) 0 1 < 0xE0) (hroom : k.reqUsed < k.entries) :
    s.kioskPost fn = s.postReq fn k fun ph => (s.staged fn).take 1 ++ leBytes (b2n ph * 128) 1 ++ leBytes fn 2 ++
      ((s.staged fn).drop 4).take 4 ++ leBytes s.stamp 8 ++ (s.staged fn).drop 16 := by
  simp only [State.kioskPost, hopen, hkiosk]
  exact (if_neg (by simp)).trans (if_neg (by omega))

theorem State.kioskPost_refused {s : State} {fn : Nat} (hopen : s.barOpen fn = true)
    (hrefuse : s.kiosk fn = none ∨ ∃ k, s.kiosk fn = some k ∧ (0xE0 ≤ leAt (s.staged fn) 0 1 ∨ k.entries ≤ k.reqUsed)) :
    s.kioskPost fn = s.setFlag F.kskStatusTxRefused true fn := by
  rcases hrefuse with hnone | ⟨k, hkiosk, hfull⟩
  · simp only [State.kioskPost, hopen, hnone]
    exact if_neg (by simp)
  · simp only [State.kioskPost, hopen, hkiosk]
    exact (if_neg (by simp)).trans (if_pos hfull)

theorem State.rspTail_beyond {s : State} {org : Origin} {fn idx : Nat} {k : Kiosk} (hopen : s.dcsOpen org 0x200058 = true)
    (hkiosk : s.kiosk fn = some k) (hfar : k.entries < subMod 16 (idx % 65536) k.rspHead) :
    s.rspTail org fn idx = s.setFlag F.fnKskCtrlDbErr true := by
  simp only [State.rspTail, hopen, hkiosk]
  exact (if_neg (by simp)).trans (if_pos hfar)

theorem State.rspTail_moves {s : State} {org : Origin} {fn idx : Nat} {k : Kiosk} (hopen : s.dcsOpen org 0x200058 = true)
    (hkiosk : s.kiosk fn = some k) (hnear : subMod 16 (idx % 65536) k.rspHead ≤ k.entries) {u : State}
    (hu : u = (s.setKiosk fn { k with rspTail := idx % 65536 }).present fn { k with rspTail := idx % 65536 }) :
    s.rspTail org fn idx =
      if s.flag F.kskCtrlIrqEn fn = true ∧ k.rspHead ≠ idx % 65536 then u.signal fn (s.fld F.kskCtrlVector fn) else u := by
  have hregs : regsKept [.kskRxData] s u := by
    rw [hu]
    exact (regsKept_of_flds_eq _ rfl : regsKept _ s (s.setKiosk fn _)).trans (regsKept_present _ fn _)
  have hirq := hregs.flag F.kskCtrlIrqEn fn 0 (by decide) (by decide)
  have hvector := hregs F.kskCtrlVector fn 0 (by decide) (by decide)
  simp only [State.rspTail, hopen, hkiosk]
  refine (if_neg (by simp)).trans ((if_neg (Nat.not_lt.2 hnear)).trans ?_)
  rw [← hu, hirq, hvector]

theorem State.reqHead_moves {s : State} {org : Origin} {fn idx : Nat} {k : Kiosk} (hopen : s.dcsOpen org 0x200058 = true)
    (hkiosk : s.kiosk fn = some k) (hnone : s.ten.lostNotices = 0) :
    s.reqHead org fn idx = s.setKiosk fn { k with reqHead := idx % 65536 } := by
  have hlost : (s.setKiosk fn { k with reqHead := idx % 65536 }).ten.lostNotices = 0 := hnone
  simp only [State.reqHead, hopen, hkiosk]
  exact (if_neg (by simp)).trans (if_neg fun h => h.2.1 hlost)

theorem State.rxPop_at {s : State} {fn : Nat} {k : Kiosk} (hopen : s.barOpen fn = true) (hkiosk : s.kiosk fn = some k) : s.rxPop fn =
    if k.rspHead = k.rspTail then s
    else (s.setKiosk fn { k with rspHead := (k.rspHead + 1) % 65536 }).present fn { k with rspHead := (k.rspHead + 1) % 65536 } := by
  simp only [State.rxPop, hopen, hkiosk]
  exact if_neg (by simp)

/-- Settles O45: each command of a Kiosk by its own equation. -/
theorem kioskCommandsComplete : Obligations.KioskCommandsComplete := by
  refine ⟨?post, ?refused, ?beyond, ?rspTail, ?reqHead, ?pop, ?popNone⟩
  case post => exact fun s fn k hopen hkiosk htype hroom => congrArg s.ends (State.kioskPost_room hopen hkiosk htype hroom)
  case refused =>
    intro s fn hopen hrefuse
    exact ⟨_, congrArg s.ends (State.kioskPost_refused hopen hrefuse), State.flag_setFlag s _ true fn 0 rfl,
      regsKept_setFld s (by decide) _ fn 0 (by decide), rfl⟩
  case beyond =>
    intro s org fn idx k hopen hkiosk hfar
    exact ⟨_, congrArg s.ends (State.rspTail_beyond hopen hkiosk hfar), State.flag_setFlag s _ true 0 0 rfl, rfl,
      regsKept_setFld s (by decide) _ 0 0 (by decide)⟩
  case rspTail =>
    intro s org fn idx k hopen hkiosk hnear
    exact ⟨_, congrArg s.ends (State.rspTail_moves hopen hkiosk hnear rfl), s.kiosk_present fn _, rfl⟩
  case reqHead =>
    intro s org fn idx k hopen hkiosk hnone
    exact ⟨_, congrArg s.ends (State.reqHead_moves hopen hkiosk hnone), AMap.find_put_self _ _ _, fun g hg => AMap.find_put_ne _ _ hg, rfl⟩
  case pop =>
    intro s fn k hopen hkiosk hwaits
    exact ⟨_, congrArg s.ends ((State.rxPop_at hopen hkiosk).trans (if_neg hwaits)), s.kiosk_present fn _, rfl⟩
  case popNone => exact fun s fn k hopen hkiosk hnone => congrArg s.ends ((State.rxPop_at hopen hkiosk).trans (if_pos hnone))

end Machine
end Sys2Proof
end

section
/-! PROOFS. States of the device: power, resets, the steps of a start, release, equal sharing and drain (R426 to R429, R456 to R467). -/

namespace Sys2Proof
namespace Machine

/-! ### What a restart loses (Table 17.9) -/

/-- What every restart empties: memory, windows, imports, turnstiles, QPs, queues and their operations, and the Journal. -/
def State.volatile (s : State) := (s.mem, s.wins, s.imports, s.ts, s.qps, s.queues, s.ops, s.jnl)

theorem State.volatile_setFld (s : State) (f : Fld) (v o e : Nat) : (s.setFld f v o e).volatile = s.volatile := rfl

theorem State.volatile_setBlk (s : State) (b : Nat) (x : Blk) : (s.setBlk b x).volatile = s.volatile := rfl

theorem State.volatile_emit (s : State) (o : Output) : (s.emit o).volatile = s.volatile := by
  simp only [State.volatile, State.emit_frame]

theorem State.volatile_repairAll (t : State) (rs : List (Nat × Nat × Nat)) : (t.repairAll rs).volatile = t.volatile := by
  refine foldl_keeps State.volatile (fun t r => ?_) rs t
  unfold State.repaired
  split <;> rfl

theorem State.volatile_keepOut (s t : State) : (s.keepOut t).volatile = t.volatile :=
  (foldl_keeps State.volatile (fun u d => u.volatile_setFld F.blkDistStatusInService (s.fld F.blkDistStatusInService d) d 0) _ _).trans
    (foldl_keeps State.volatile (fun u (e : Nat × Blk) => u.volatile_setBlk e.1 { state := .out, lastStatus := e.2.lastStatus }) _ t)

theorem State.volatile_restart (s : State) (cold : Bool) : (s.restart cold).volatile = ([], [], [], [], [], [], [], []) := by
  unfold State.restart
  extract_lets links dev fwBefore fw clk gov bistBefore bist r t₀ t kept carried
  have hbase : t.volatile = t₀.volatile := State.volatile_repairAll _ _
  split
  · exact hbase
  · have hcarried : carried.volatile = kept.volatile := by simp only [carried, State.carry, State.volatile_setFld]
    have hports : ((List.range 4).foldl (fun u n => s.carry (s.carry u F.hpPortCfgBifurcate n) F.hpPortCfgClassStrap n) carried).volatile =
        carried.volatile := foldl_keeps State.volatile (fun u n => by simp only [State.carry, State.volatile_setFld]) _ _
    rw [hports, hcarried, State.volatile_keepOut, hbase]
    rfl

theorem State.volatile_toStandby (s : State) (lost : Bool) : (s.toStandby lost).volatile = ([], [], [], [], [], [], [], []) :=
  (State.volatile_emit _ _).trans (s.volatile_restart true)

/-- Memory, windows and QPs are gone. -/
theorem State.gone_of_volatile {t : State} (h : t.volatile = ([], [], [], [], [], [], [], [])) : t.mem = [] ∧ t.wins = [] ∧ t.qps = [] := by
  simp only [State.volatile, Prod.mk.injEq] at h
  obtain ⟨hmem, hwins, -, -, hqps, -⟩ := h
  exact ⟨hmem, hwins, hqps⟩

/-- STANDBY: the device's own state is new but for the inputs. -/
theorem State.dev_toStandby (s : State) (lost : Bool) :
    (s.toStandby lost).dev =
      { starting := false, porLow := s.dev.porLow, resetLow := s.dev.resetLow, state := .standby, railLost := lost } := by
  simp only [State.toStandby, State.emit_frame, s.dev_restart true]

/-! ### Power and resets (R460 to R464) -/

theorem State.vaonUp_off {s : State} (h : s.dev.state = .off) :
    s.vaonUp = ({ s with dev := { s.dev with porLow := true } } : State).toStandby false := by
  rw [State.vaonUp, h]

/-- What POR_N_ASSERT restarts: the device with POR_N low, its trip pin released. -/
def State.porLowered (s : State) : State :=
  if s.gov.trip then ({ s with dev := { s.dev with porLow := true } } : State).emit (.pin pinThermTripN true)
  else { s with dev := { s.dev with porLow := true } }

theorem State.dev_porLowered (s : State) : s.porLowered.dev = { s.dev with porLow := true } := by
  unfold State.porLowered
  split
  · simp only [State.emit_frame]
  · rfl

theorem State.porAssert_on {s : State} (h : s.dev.state ≠ .off) : s.porAssert = { s.porLowered.toStandby false with gov := {} } := by
  unfold State.porAssert State.porLowered
  extract_lets devBefore v
  split
  · next hoff => exact absurd hoff h
  · rfl

theorem State.porDeassert_standby {s : State} (hpor : s.dev.porLow = true) (hstandby : s.dev.state = .standby) : s.porDeassert =
    if s.dev.resetLow = true then { s with dev := { s.dev with porLow := false, state := .bringup } }
    else State.startBegins { s with dev := { s.dev with porLow := false, state := .bringup } } := by
  simp only [State.porDeassert, hpor, hstandby]
  exact if_neg (by simp)

theorem State.railOut_started {s : State} (hoff : s.dev.state ≠ .off) (hstandby : s.dev.state ≠ .standby) :
    s.railOut = s.toStandby true := by
  unfold State.railOut
  split
  · next h => exact absurd h hoff
  · next h => exact absurd h hstandby
  · rfl

theorem State.resetDeassert_bringup {s : State} (hlow : s.dev.resetLow = true) (hbringup : s.dev.state = .bringup) :
    s.resetDeassert = State.startBegins { s with dev := { s.dev with resetLow := false } } := by
  simp only [State.resetDeassert, hlow, hbringup]
  exact if_neg (by simp)

/-! ### The steps of a start (Table 18.4) -/

/-- The next step of a start in progress ends: what each number does. -/
theorem State.startStep_next {s : State} {n ms : Nat} {x : StepInfo} (hbringup : s.dev.state = .bringup) (hstart : s.dev.starting = true)
    (hlow : s.dev.resetLow = false) (hpulse : s.dev.pulse = false) (hn : n = s.fld F.rstStateStep + 1) :
    (n = 1 → s.startStep n ms x = s.startFuses.setFld F.rstStateStep 1) ∧
    (n = 2 → s.startStep n ms x = s.startClocks.setFld F.rstStateStep 2) ∧
    (n = 3 → s.startStep n ms x = s.startPorts.setFld F.rstStateStep 3) ∧
    (n = 4 → s.startStep n ms x = s.startFirmware x) ∧
    (n = 5 → s.startStep n ms x = (s.startCalibration x).setFld F.rstStateStep 5) ∧
    (n = 6 → s.startStep n ms x = s.startStructure x) ∧
    (n = 7 → s.startStep n ms x = s.startApply x) ∧
    (n = 8 → s.startStep n ms x = s.startMemory.setFld F.rstStateStep 8) ∧
    (n = 9 → s.startStep n ms x = (s.startShares ms).setFld F.rstStateStep 9) := by
  have hgo : ¬(s.dev.state ≠ .bringup ∨ !s.dev.starting ∨ s.dev.resetLow ∨ s.dev.pulse ∨ n ≠ s.fld F.rstStateStep + 1) := by
    simp [hbringup, hstart, hlow, hpulse, ← hn]
  rw [State.startStep, if_neg hgo]
  refine ⟨?_, ?_, ?_, ?_, ?_, ?_, ?_, ?_, ?_⟩ <;> rintro rfl <;> rfl

theorem State.startStep_other {s : State} {n ms : Nat} {x : StepInfo} (hn : n ≠ s.fld F.rstStateStep + 1) : s.startStep n ms x = s :=
  if_pos (.inr (.inr (.inr (.inr hn))))

/-- Step 2: the clocks run. -/
theorem State.startClocks_shown (s : State) : (s.startClocks.setFld F.rstStateStep 2).flag F.clkpwrClkStatusRefclkOk = true ∧
    (s.startClocks.setFld F.rstStateStep 2).flag F.clkpwrClkStatusMasterLock = true := by
  have hlock : ((s.setFlag F.clkpwrClkStatusRefclkOk true).setFlag F.clkpwrClkStatusMasterLock true).flag F.clkpwrClkStatusMasterLock = true :=
    State.flag_setFlag _ _ true 0 0 rfl
  have hclock : ((s.setFlag F.clkpwrClkStatusRefclkOk true).setFlag F.clkpwrClkStatusMasterLock true).flag F.clkpwrClkStatusRefclkOk = true := by
    rw [State.flag, State.setFlag, fld_setFld_ne (by decide)]
    exact State.flag_setFlag s _ true 0 0 rfl
  have hstep (t : State) (f : Fld) (hf : F.rstStateStep.apart 0 f 0 = true) : (t.setFld F.rstStateStep 2).flag f = t.flag f := by
    rw [State.flag, State.flag, fld_setFld_ne hf]
  exact ⟨(hstep _ _ (by decide)).trans hclock, (hstep _ _ (by decide)).trans hlock⟩

theorem State.startClocks_now (s : State) : (s.startClocks.setFld F.rstStateStep 2).nowNs = 0 := by
  have hclk : (s.startClocks.setFld F.rstStateStep 2).clk = {} := rfl
  simp only [State.nowNs, hclk, Nat.zero_mul]

/-! ### Equal sharing, service and drain (R426 to R429, R456, R457) -/

/-- Step 10 leads to SERVICE: no share is equal any more, and the registers read the step and the time. -/
theorem State.enterService_shown (s : State) (ms : Nat) : (s.enterService ms).dev.state = .service ∧ (s.enterService ms).ten.equal = none ∧
    (s.enterService ms).fld F.rstStateStep = 10 ∧ (s.enterService ms).fld F.rstStateSvcMs = min ms 0xFFFF ∧ (s.enterService ms).mem = s.mem := by
  have hstep (t : State) : (t.setFld F.rstStateStep 10).fld F.rstStateStep = 10 := fld_setFld_of_lt (by decide) _ 0 0
  have hms : ((s.leaveEqual.setFld F.rstStateSvcMs (min ms 0xFFFF)).setFld F.rstStateStep 10).fld F.rstStateSvcMs = min ms 0xFFFF := by
    rw [fld_setFld_ne (by decide)]
    exact fld_setFld_of_lt (Nat.lt_of_le_of_lt (Nat.min_le_right _ _) (by decide)) _ 0 0
  unfold State.enterService
  extract_lets v dev u
  have hu : u.dev.state = .service ∧ u.ten.equal = none ∧ u.fld F.rstStateStep = 10 ∧ u.fld F.rstStateSvcMs = min ms 0xFFFF ∧ u.mem = s.mem :=
    ⟨rfl, rfl, hstep _, hms, rfl⟩
  split
  · exact hu
  · exact hu

/-- A status register takes the code and the flag of a command's end: the code reads back. -/
theorem fld_statusSet {code fail : Fld} (hapart : fail.apart 0 code 0 = true) (hwidth : code.width = 8) (s : State) (st : Status) (v : Bool) :
    ((s.setFld code st.code).setFlag fail v).fld code = st.code := by
  rw [State.setFlag, fld_setFld_ne hapart]
  exact fld_setFld_of_lt (by rw [hwidth]; exact Status.code_lt st) s 0 0

/-- And no other register changes. -/
theorem regsKept_statusSet {code fail : Fld} {r : Reg} (hcode : code.reg = r ∧ code.pos 0 < 64) (hfail : fail.reg = r ∧ fail.pos 0 < 64)
    (s : State) (st : Status) (v : Bool) : regsKept [r] s ((s.setFld code st.code).setFlag fail v) :=
  (regsKept_setFld s (List.mem_singleton.mpr hcode.1) st.code 0 0 hcode.2).setFlag (List.mem_singleton.mpr hfail.1) v 0 hfail.2

/-- A command of RST ends with its status. -/
theorem State.rstEnds_shown (s : State) (st : Status) :
    (s.rstEnds st).fld F.rstCmdStatusCode = st.code ∧ (s.rstEnds st).flag F.rstCmdStatusFail = (st != .ok) :=
  ⟨fld_statusSet (by decide) rfl s st _, State.flag_setFlag _ _ _ 0 0 rfl⟩

theorem regsKept_rstEnds (s : State) (st : Status) : regsKept [.rstCmdStatus] s (s.rstEnds st) :=
  regsKept_statusSet (by decide) (by decide) s st _

theorem State.rstEnds_frame (s : State) (st : Status) : s.rstEnds st = { s with flds := (s.rstEnds st).flds } := rfl

theorem State.fld_rstEnds_ne (s : State) (st : Status) {f : Fld} (hcode : F.rstCmdStatusCode.apart 0 f 0 = true)
    (hfail : F.rstCmdStatusFail.apart 0 f 0 = true) : (s.rstEnds st).fld f = s.fld f := by
  rw [State.rstEnds, State.setFlag, fld_setFld_ne hfail, fld_setFld_ne hcode]

/-- A command of JNL.RECOVER ends with its status. -/
theorem State.recoverEnds_shown (s : State) (st : Status) :
    (s.recoverEnds st).fld F.jnlRstatusCode = st.code ∧ (s.recoverEnds st).flag F.jnlRstatusFail = (st != .ok) :=
  ⟨fld_statusSet (by decide) rfl s st _, State.flag_setFlag _ _ _ 0 0 rfl⟩

theorem State.recoverEnds_frame (s : State) (st : Status) : s.recoverEnds st = { s with flds := (s.recoverEnds st).flds } := rfl

theorem regsKept_recoverEnds (s : State) (st : Status) : regsKept [.jnlRstatus] s (s.recoverEnds st) :=
  regsKept_statusSet (by decide) (by decide) s st _

theorem State.recoverCmd_may {s : State} {org : Origin} {may : Bool} {f : State → State} (hopen : s.dcsOpen org 0x9000000 = true)
    (hmay : may = true) : s.recoverCmd org may f = (f s).recoverEnds .ok := by
  simp only [State.recoverCmd, hopen, hmay, Bool.not_true, Bool.false_eq_true, ↓reduceIte]

theorem State.recoverCmd_refused {s : State} {org : Origin} {may : Bool} {f : State → State} (hopen : s.dcsOpen org 0x9000000 = true)
    (hmay : may = false) : s.recoverCmd org may f = s.recoverEnds .fnState := by
  simp only [State.recoverCmd, hopen, hmay, Bool.not_true, Bool.false_eq_true, ↓reduceIte]

theorem State.eqTurnSoon_now {s : State} {x : EqTurn} (h : s.flag F.fnStatusBusy = false) : s.eqTurnSoon x = s.eqTurn x :=
  if_neg (by simp [h])

theorem State.eqTurnSoon_busy {s : State} {x : EqTurn} (h : s.flag F.fnStatusBusy = true) :
    s.eqTurnSoon x = { s with ten := { s.ten with eqDue := some x } } := if_pos h

/-- EQUAL_SHARE entered from SERVICE: the functions created share, and the windows count in a new epoch. -/
theorem State.eqTurn_enter (s : State) : (s.eqTurn .enter).dev.state = .equalShare ∧ (s.eqTurn .enter).ten.equal = some (s.created.length, true) ∧
    (s.eqTurn .enter).vl.wins = [] ∧ (s.eqTurn .enter).wepoch = (s.wepoch + 1) % 256 ∧ (s.eqTurn .enter).mem = s.mem := by
  refine ⟨rfl, rfl, rfl, ?_, rfl⟩
  exact fld_setFld_of_lt (f := F.vlE2eCntWepoch) (Nat.mod_lt _ (by decide)) _ 0 0

/-- DRAIN entered for a cause. -/
theorem State.enterDrain_shown (s : State) (cause : Nat) : (s.enterDrain cause).dev.state = .drain ∧ (s.enterDrain cause).dev.drainCause = cause ∧
    (s.enterDrain cause).dev.drainSent = 0 ∧ (s.enterDrain cause).mem = s.mem := by
  refine ⟨rfl, rfl, rfl, ?_⟩
  unfold State.enterDrain
  split <;> rfl

/-- The three commands of R456 in a state that they do not leave. -/
theorem State.recoverCmds_refused {s : State} {org : Origin} {c : Instr} (hopen : s.dcsOpen org 0x9000000 = true)
    (hc : (c = .enterEqual org ∧ s.dev.state ≠ .service) ∨
      (c = .leaveEqual org ∧ (s.dev.state ≠ .equalShare ∨ s.flag F.fnModeFrom = false)) ∨
      (c = .drain org ∧ s.dev.state ≠ .service ∧ (s.dev.state ≠ .equalShare ∨ s.flag F.fnModeFrom = false))) :
    exec c s = s.ends (s.recoverEnds .fnState) := by
  rcases hc with ⟨rfl, hstate⟩ | ⟨rfl, hstate⟩ | ⟨rfl, hservice, hstate⟩
  · exact congrArg s.ends (State.recoverCmd_refused hopen (by simpa using hstate))
  · refine congrArg s.ends (State.recoverCmd_refused hopen ?_)
    rcases hstate with h | h <;> simp [h]
  · refine congrArg s.ends (State.recoverCmd_refused hopen ?_)
    rcases hstate with h | h <;> simp [h, hservice]

/-- RELEASE and RELEASE_TIMEOUT after a start lead to SERVICE. -/
theorem State.released_service {s : State} {ms : Nat} (hstate : s.dev.state = .equalShare) (hfrom : s.flag F.fnModeFrom = false)
    (hbusy : s.flag F.fnStatusBusy = false) : (∀ org, s.dcsOpen org 0x10008 = true → s.release org ms = (s.enterService ms).rstEnds .ok) ∧
    s.releaseTimeout ms = s.enterService ms := by
  have hafter : s.afterStart = true := by simp [State.afterStart, hstate, hfrom]
  refine ⟨fun org hopen => ?_, ?_⟩
  · rw [State.release, if_neg (by simp [hopen]), if_pos hafter, State.eqTurnSoon_now hbusy]
    rfl
  · rw [State.releaseTimeout, if_pos hafter, State.eqTurnSoon_now hbusy]
    rfl

/-- Settles O46: each command's state by what a restart loses, what the step that ends does, and what a transition of R426 shows. -/
theorem deviceStateCommandsComplete : Obligations.DeviceStateCommandsComplete := by
  unfold Obligations.DeviceStateCommandsComplete
  refine ⟨fun s hoff => ?_, fun s => ?_, fun s hon => ?_, fun s hpor hstandby hlow => ?_, fun s hpor hstandby hlow => ?_,
    fun s hoff hstandby => ?_, fun s hlow hbringup => ?_, fun s hpulse => ?_, fun s n ms x hbringup hstart hlow hpulse hn => ?_,
    fun s n ms x hn => ?_, fun s ms hstate hfrom hbusy => ?_, fun s org hopen hservice => ⟨fun hbusy => ?_, fun hbusy => ?_, ?_⟩,
    fun s org c hopen hc => ?_, fun s org hopen hstate hfrom hbusy => ?_, fun s hdrain hsent => ?_, fun s hdrain hsent => ?_⟩
  case refine_1 =>
    refine ⟨_, congrArg s.ends (State.vaonUp_off hoff), ?_, ?_, (State.gone_of_volatile (State.volatile_toStandby _ _)).1⟩
    · rw [State.dev_toStandby]
    · rw [State.dev_toStandby]
  case refine_2 =>
    obtain ⟨hmem, hwins, hqps⟩ := State.gone_of_volatile (State.volatile_restart s true)
    exact ⟨_, rfl, rfl, hmem, hwins, hqps⟩
  case refine_3 =>
    obtain ⟨hmem, hwins, hqps⟩ := State.gone_of_volatile (State.volatile_toStandby s.porLowered false)
    have hdev := s.porLowered.dev_toStandby false
    have hexec : exec .porNAssert s = s.ends _ := congrArg s.ends (State.porAssert_on hon)
    generalize s.porLowered.toStandby false = t at hexec hmem hwins hqps hdev
    rw [State.dev_porLowered] at hdev
    exact ⟨_, hexec, congrArg DevCtl.state hdev, congrArg DevCtl.porLow hdev, congrArg DevCtl.railLost hdev, rfl, hmem, hwins, hqps⟩
  case refine_4 => exact congrArg s.ends ((State.porDeassert_standby hpor hstandby).trans (if_neg (by simp [hlow])))
  case refine_5 => exact congrArg s.ends ((State.porDeassert_standby hpor hstandby).trans (if_pos hlow))
  case refine_6 =>
    obtain ⟨hmem, hwins, hqps⟩ := State.gone_of_volatile (State.volatile_toStandby s true)
    have hdev := s.dev_toStandby true
    have hexec : exec .railOutOfTolerance s = s.ends _ := congrArg s.ends (State.railOut_started hoff hstandby)
    generalize s.toStandby true = t at hexec hmem hwins hqps hdev
    exact ⟨_, hexec, congrArg DevCtl.state hdev, congrArg DevCtl.railLost hdev, hmem, hwins, hqps⟩
  case refine_7 => exact congrArg s.ends (State.resetDeassert_bringup hlow hbringup)
  case refine_8 => exact congrArg s.ends (if_neg (by simp [hpulse]))
  case refine_9 =>
    obtain ⟨h1, h2, h3, h4, h5, h6, h7, h8, h9⟩ := State.startStep_next (ms := ms) (x := x) hbringup hstart hlow hpulse hn
    refine ⟨fun hn => congrArg s.ends (h1 hn), fun hn => ⟨_, congrArg s.ends (h2 hn), s.startClocks_now, ?_, ?_⟩, fun hn => congrArg s.ends (h3 hn),
      fun hn => congrArg s.ends (h4 hn), fun hn => congrArg s.ends (h5 hn), fun hn => congrArg s.ends (h6 hn),
      fun hn => congrArg s.ends (h7 hn), fun hn => ⟨_, congrArg s.ends (h8 hn), rfl, rfl, rfl, ?_⟩, fun hn => congrArg s.ends (h9 hn)⟩
    · exact fld_setFld_of_lt (by decide) _ 0 0
    · exact ⟨s.startClocks_shown.1, s.startClocks_shown.2, memKept_of_mem_eq rfl⟩
    · exact fld_setFld_of_lt (by decide) _ 0 0
  case refine_10 => exact congrArg s.ends (State.startStep_other hn)
  case refine_11 =>
    obtain ⟨hrelease, htimeout⟩ := State.released_service (ms := ms) hstate hfrom hbusy
    obtain ⟨hservice, hequal, hstep, hms, hmem⟩ := s.enterService_shown ms
    generalize s.enterService ms = t at hrelease htimeout hservice hequal hstep hms hmem
    refine ⟨fun org hopen => ⟨_, congrArg s.ends (hrelease org hopen), hservice, hequal, ?_, ?_, (t.rstEnds_shown .ok).1, memKept_of_mem_eq hmem⟩,
      _, congrArg s.ends htimeout, hservice, hequal, hstep, memKept_of_mem_eq hmem⟩
    · exact (t.fld_rstEnds_ne .ok (by decide) (by decide)).trans hstep
    · exact (t.fld_rstEnds_ne .ok (by decide) (by decide)).trans hms
  case refine_12 =>
    have hexec : exec (.enterEqual org) s = s.ends ((s.eqTurn .enter).recoverEnds .ok) := congrArg s.ends
      ((State.recoverCmd_may hopen (by simp [hservice])).trans (congrArg (State.recoverEnds · .ok) (State.eqTurnSoon_now hbusy)))
    obtain ⟨hstate, hequal, hwins, hepoch, hmem⟩ := s.eqTurn_enter
    generalize s.eqTurn .enter = t at hexec hstate hequal hwins hepoch hmem
    have hkept : (t.recoverEnds .ok).wepoch = t.wepoch := by
      rw [State.wepoch, State.recoverEnds, State.setFlag, fld_setFld_ne (by decide), fld_setFld_ne (by decide), State.wepoch]
    exact ⟨_, hexec, hstate, hequal, hwins, hkept.trans hepoch, (t.recoverEnds_shown .ok).1, memKept_of_mem_eq hmem⟩
  case refine_13 =>
    have hexec : exec (.enterEqual org) s = s.ends (State.recoverEnds { s with ten := { s.ten with eqDue := some .enter } } .ok) := congrArg s.ends
      ((State.recoverCmd_may hopen (by simp [hservice])).trans (congrArg (State.recoverEnds · .ok) (State.eqTurnSoon_busy hbusy)))
    exact ⟨_, hexec, rfl, rfl, (State.recoverEnds_shown _ .ok).1,
      (regsKept_of_flds_eq [.jnlRstatus] rfl).trans (regsKept_recoverEnds { s with ten := { s.ten with eqDue := some .enter } } .ok),
      memKept_of_mem_eq rfl⟩
  case refine_14 =>
    have hexec : exec (.drain org) s = s.ends ((s.enterDrain 3).recoverEnds .ok) :=
      congrArg s.ends (State.recoverCmd_may hopen (by simp [hservice]))
    obtain ⟨hstate, hcause, hsent, hmem⟩ := s.enterDrain_shown 3
    generalize s.enterDrain 3 = t at hexec hstate hcause hsent hmem
    exact ⟨_, hexec, hstate, hcause, hsent, (t.recoverEnds_shown .ok).1, memKept_of_mem_eq hmem⟩
  case refine_15 =>
    exact ⟨_, State.recoverCmds_refused hopen hc, (s.recoverEnds_shown .fnState).1, (s.recoverEnds_shown .fnState).2,
      regsKept_recoverEnds s .fnState, s.recoverEnds_frame .fnState⟩
  case refine_16 =>
    have hexec : exec (.leaveEqual org) s = s.ends ((s.eqTurn .leave).recoverEnds .ok) := congrArg s.ends
      ((State.recoverCmd_may hopen (by simp [hstate, hfrom])).trans (congrArg (State.recoverEnds · .ok) (State.eqTurnSoon_now hbusy)))
    exact ⟨_, hexec, rfl, rfl, (State.recoverEnds_shown _ .ok).1, memKept_of_mem_eq rfl⟩
  case refine_17 => exact congrArg s.ends (if_pos ⟨hdrain, hsent, .inl rfl⟩)
  case refine_18 => exact congrArg s.ends (if_pos ⟨hdrain, hsent⟩)

end Machine
end Sys2Proof
end

section
/-! PROOFS. Faults of memories, pipelines, the router and the Avenue, and the reading of the Journal (R439 to R452, R459). -/

namespace Sys2Proof
namespace Machine

/-! ### Causes of FAULT (Table 17.7) -/

/-- A device whose network is open runs. -/
theorem State.runs_of_netOpen {s : State} (h : s.netOpen = true) : s.dev.state.runs := by
  unfold State.netOpen at h
  split at h
  · next hstate => exact .inr (.inl hstate)
  · next hstate => exact .inr (.inr (.inl hstate))
  · next hstate => exact .inr (.inr (.inr hstate))
  · cases h

theorem State.mem_enterFault {s : State} (h : s.dev.state.runs) (cause : Nat) : (s.enterFault cause).mem = s.mem := by
  rw [State.enterFault_of_runs h]
  rfl

/-- What a command that ends in FAULT shows: the state, the cause, the pin, and all else as it was. -/
theorem State.enterFault_shown {s : State} (h : s.dev.state.runs) {cause : Nat} (hcause : cause < 2 ^ 8) :
    (s.enterFault cause).dev.state = .fault ∧ (s.enterFault cause).fld F.jnlRstatusFaultCause = cause ∧
      .pin pinTrayFaultN false ∈ (s.enterFault cause).out ∧ regsKept [.jnlRstatus] s (s.enterFault cause) ∧ memKept s (s.enterFault cause) := by
  obtain ⟨hstate, hpin⟩ := State.enterFault_entered h cause
  exact ⟨hstate, State.enterFault_cause h hcause, hpin, State.regsKept_enterFault h cause, memKept_of_mem_eq (State.mem_enterFault h cause)⟩

/-! ### A pipeline that recovers (Table 17.5) -/

/-- A second parity event of a pipeline, or one while it recovers, is a cause of FAULT. -/
theorem State.pipeParity_second {s : State} {k : Nat} {again : Bool} (hopen : s.netOpen = true) (hk : k < 4)
    (hagain : again = true ∨ (s.pipe k).recovering ≠ 0) : s.pipeParity k again = s.enterFault 0x04 := by
  rw [State.pipeParity, if_neg (by simp [hopen, hk]), if_pos hagain]

/-- The state of pipeline k as its recovery begins. -/
def State.pipeEmptied (s : State) (k : Nat) : State :=
  s.setPipe k { s.pipe k with miss := (s.pipe k).miss.filter (fun m => m.pkt.isNone && m.roce.isNone), recovering := 4353 }

theorem State.replayAll_idle {s : State} (hqps : s.qps = []) (hops : s.ops = []) (p : Nat → Bool) : s.replayAll p = (s, 0) := by
  simp only [State.replayAll, hqps, hops, List.flatMap_nil, List.filter_nil, List.foldl_nil]

theorem State.with_qps_nil {s : State} (h : s.qps = []) : { s with qps := [] } = s := by
  rw [← h]

/-- With no QP and no operation nothing is re-issued. -/
theorem State.pipeParity_idle {s : State} {k : Nat} (hopen : s.netOpen = true) (hk : k < 4) (hqps : s.qps = []) (hops : s.ops = [])
    (hready : (s.pipe k).recovering = 0) : s.pipeParity k false = (s.pipeEmptied k).singleFault 7 k 0 0 := by
  rw [State.pipeParity, if_neg (by simp [hopen, hk]), if_neg (by simp [hready])]
  extract_lets v x u w
  have hv : v = s := by simp only [v, hqps, List.foldl_nil]
  have hu : u = s.pipeEmptied k := by simp only [u, x, hv, State.pipeEmptied]
  have hqps' : u.qps = [] := hu ▸ hqps
  have hw : w = u := by
    simp only [w, hqps', List.map_nil]
    exact State.with_qps_nil hqps'
  rw [State.replayAll_idle (hw ▸ hqps') (hw ▸ hu ▸ hops), hw, hu]

/-- A pipeline that is emptied holds no packet that waits for a translation, and takes no heads for 4,353 cycles. -/
theorem State.pipe_pipeEmptied (s : State) (k : Nat) : (∀ m, m ∈ ((s.pipeEmptied k).pipe k).miss → m.pkt = none ∧ m.roce = none) ∧
    ((s.pipeEmptied k).pipe k).recovering = 4353 := by
  have hpipe : (s.pipeEmptied k).pipe k =
      { s.pipe k with miss := (s.pipe k).miss.filter (fun m => m.pkt.isNone && m.roce.isNone), recovering := 4353 } :=
    AMap.look_save_self _ _ _ _
  rw [hpipe]
  refine ⟨fun m hm => ?_, rfl⟩
  have hnone := (List.mem_filter.mp hm).2
  rw [Bool.and_eq_true, Option.isNone_iff_eq_none, Option.isNone_iff_eq_none] at hnone
  exact hnone

theorem pipe_of_pipes {s t : State} (h : t.pipes = s.pipes) (k : Nat) : t.pipe k = s.pipe k := by
  rw [State.pipe, State.pipe, h]

/-! ### Links of the Avenue and lost words (R442, R445) -/

theorem State.avenueLink_fails {s : State} {bundle link : Nat} (hlink : link < bundleLinks bundle) (hin : bundle * 20 + link ∉ s.bist.linksOut) :
    s.avenueLink bundle link =
      ({ s with bist := { s.bist with linksOut := s.bist.linksOut ++ [bundle * 20 + link] } } : State).singleFault 3 link 0 :=
  if_neg (by simp [hlink, hin])

theorem State.journalLost_free {s : State} {i : Nat} (hi : i < 262144) (h : AMap.find s.jnl i = none) :
    s.journalLost i = s.singleFault 6 0x05 (sliceOf i) 0 false := by
  rw [State.journalLost, if_neg (by omega), h]

theorem State.journalLost_used {s : State} {i : Nat} {j : JRec} (hi : i < 262144) (h : AMap.find s.jnl i = some j) :
    s.journalLost i = (s.recordLost i j).singleFault 6 0x05 (sliceOf i) := by
  rw [State.journalLost, if_neg (by omega), h]

/-! ### Reading a record of the Journal (R459) -/

theorem leNat_lt (bs : List Byte) : leNat bs < 256 ^ bs.length := by
  induction bs with
  | nil => simp [leNat]
  | cons b bs ih =>
    have hb := b.isLt
    simp only [leNat, List.length_cons, pow_succ]
    omega

/-- A word of a record's bytes fits its register. -/
theorem leAt_word_lt (bs : List Byte) (i : Nat) : leAt bs i 8 < 2 ^ 64 :=
  calc leNat ((bs.drop i).take 8) < 256 ^ ((bs.drop i).take 8).length := leNat_lt _
    _ ≤ 256 ^ 8 := Nat.pow_le_pow_right (by decide) (List.length_take_le _ _)

/-- A field written at each of n objects in turn reads at each what was written there. -/
theorem fld_foldl_setFld {f : Fld} {g : Nat → Nat} (hpos : f.pos 0 < 64) (hg : ∀ k, g k < 2 ^ f.width) (s : State) {n k : Nat} (hk : k < n) :
    ((List.range n).foldl (fun t j => t.setFld f (g j) j) s).fld f k = g k := by
  induction n with
  | zero => exact absurd hk (Nat.not_lt_zero k)
  | succ n ih =>
    rw [List.range_succ, List.foldl_append, List.foldl_cons, List.foldl_nil]
    rcases Nat.lt_succ_iff_lt_or_eq.mp hk with hlt | rfl
    · exact (fld_setFld_obj _ f _ (Nat.ne_of_lt hlt) 0 hpos).trans (ih hlt)
    · exact fld_setFld_of_lt (hg k) _ k 0

/-- The state after the eight words of a record are shown. -/
def State.recShown (s : State) (n : Nat) (j : JRec) : State :=
  (List.range 8).foldl (fun t k => t.setFld F.jnlRecDataData (leAt j.bytes (8 * k) 8) k) (s.setFld F.jnlRecSelIndex n)

theorem State.recSel_used {s : State} {org : Origin} {n : Nat} {j : JRec} (hopen : s.dcsOpen org 0x9000040 = true) (hn : n < 2 ^ 18)
    (h : AMap.find s.jnl n = some j) : s.recSel org n = s.recShown n j := by
  have hfind : AMap.find (s.setFld F.jnlRecSelIndex n).jnl n = some j := h
  rw [State.recSel, if_neg (by simp [hopen]), Nat.mod_eq_of_lt hn]
  simp only [hfind]
  rfl

theorem State.recShown_index {n : Nat} (hn : n < 2 ^ 18) (s : State) (j : JRec) : (s.recShown n j).fld F.jnlRecSelIndex = n :=
  (foldl_keeps (fun t : State => t.fld F.jnlRecSelIndex) (fun t k => fld_setFld_ne (by decide) _ _ _ _) _ _).trans
    (fld_setFld_of_lt (f := F.jnlRecSelIndex) hn s 0 0)

theorem State.recShown_words (s : State) (n : Nat) (j : JRec) {k : Nat} (hk : k < 8) :
    (s.recShown n j).fld F.jnlRecDataData k = leAt j.bytes (8 * k) 8 :=
  fld_foldl_setFld (f := F.jnlRecDataData) (g := fun k => leAt j.bytes (8 * k) 8) (by decide) (fun k => leAt_word_lt j.bytes (8 * k)) _ hk

theorem State.regsKept_recShown (s : State) (n : Nat) (j : JRec) : regsKept [.jnlRecSel, .jnlRecData] s (s.recShown n j) :=
  (regsKept_setFld s (by decide) n 0 0 (by decide)).trans
    (regsKept_foldl (fun t k => regsKept_setFld t (by decide) _ k 0 (by decide)) _ _)

theorem State.butFlds_recShown (s : State) (n : Nat) (j : JRec) : (s.recShown n j).butFlds = s.butFlds :=
  foldl_keeps State.butFlds (fun t k => t.butFlds_setFld _ _ k 0) _ _

/-- Settles O41: each event by the fault it tells and what it leaves, and REC_SEL by the words that it shows. -/
theorem faultCommandsComplete : Obligations.FaultCommandsComplete := by
  unfold Obligations.FaultCommandsComplete
  refine ⟨fun s hruns => ⟨?_, ?_, fun n hn => ?_⟩, fun s k hopen hk => ?_, fun s k again hopen hk hrec => ?_,
    fun s k hopen hk hqps hops hready => ?_, fun s bundle link hlink hin => ?_, fun s fn ha => ?_, fun s n hn hfree => ?_,
    fun s n j hn hused => ?_, fun s org n j hopen hn hused => ?_⟩
  case refine_1 => exact ⟨_, rfl, State.enterFault_shown hruns (by decide)⟩
  case refine_2 => exact ⟨_, rfl, State.enterFault_shown hruns (by decide)⟩
  case refine_3 =>
    have hlost : s.sramLost 0x01 n .bothCopies = s.enterFault 0x03 := if_neg (Nat.not_le.mpr hn : ¬memInstances 0x01 ≤ n)
    obtain ⟨hstate, hcause, -, hkept, hmem⟩ := State.enterFault_shown (s := s) hruns (cause := 0x03) (by decide)
    exact ⟨_, congrArg s.ends hlost, hstate, hcause, hkept, hmem⟩
  case refine_4 =>
    obtain ⟨hstate, hcause, -, hkept, hmem⟩ := State.enterFault_shown (State.runs_of_netOpen hopen) (cause := 0x04) (by decide)
    exact ⟨_, congrArg s.ends (State.pipeParity_second hopen hk (.inl rfl)), hstate, hcause, hkept, hmem⟩
  case refine_5 =>
    obtain ⟨hstate, hcause, -⟩ := State.enterFault_shown (State.runs_of_netOpen hopen) (cause := 0x04) (by decide)
    exact ⟨_, congrArg s.ends (State.pipeParity_second hopen hk (.inr hrec)), hstate, hcause⟩
  case refine_6 =>
    have hexec : exec (.pipelineParityEvent k false) s = s.ends ((s.pipeEmptied k).singleFault 7 k 0 0) :=
      congrArg s.ends (State.pipeParity_idle hopen hk hqps hops hready)
    obtain ⟨hcount, hkept, hframe⟩ := State.singleFault_told (kind := 7) (by decide) (s.pipeEmptied k) k 0 0 true
    obtain ⟨hmiss, hrecovering⟩ := s.pipe_pipeEmptied k
    generalize (s.pipeEmptied k).singleFault 7 k 0 0 = t at hexec hcount hkept hframe
    have hpipe : t.pipe k = (s.pipeEmptied k).pipe k := pipe_of_pipes (congrArg State.pipes hframe :) k
    refine ⟨t, hexec, hcount, hpipe ▸ hmiss, hpipe ▸ hrecovering, hkept, ?_⟩
    rw [hframe]
    rfl
  case refine_7 =>
    have hexec : exec (.avenueLinkFailed bundle link) s = s.ends _ := congrArg s.ends (State.avenueLink_fails hlink hin)
    obtain ⟨hcount, hkept, hframe⟩ := State.singleFault_told (kind := 3) (by decide)
      { s with bist := { s.bist with linksOut := s.bist.linksOut ++ [bundle * 20 + link] } } link 0 0 true
    generalize State.singleFault { s with bist := { s.bist with linksOut := s.bist.linksOut ++ [bundle * 20 + link] } } 3 link 0 0 = t
      at hexec hcount hkept hframe
    refine ⟨t, hexec, ?_, hcount, hkept, ?_⟩
    · rw [hframe]
    · rw [hframe]
  case refine_8 =>
    obtain ⟨hcount, hkept, hframe⟩ := State.singleFault_told (kind := 6) (by decide) (s.tlbLost .stlb fn ha) 0x0B 0 0 true
    have hexec : exec (.sramWordBeyondEcc 0x0B 0 (.translation fn ha)) s = s.ends ((s.tlbLost .stlb fn ha).singleFault 6 0x0B 0 0) := rfl
    generalize (s.tlbLost .stlb fn ha).singleFault 6 0x0B 0 0 = t at hexec hcount hkept hframe
    exact ⟨t, hexec, (congrArg State.tlb hframe :), hcount, hkept, memKept_of_mem_eq (congrArg State.mem hframe :)⟩
  case refine_9 =>
    obtain ⟨hcount, hkept, hframe⟩ := State.singleFault_told (kind := 6) (by decide) s 0x05 (sliceOf n) 0 false
    exact ⟨_, congrArg s.ends (State.journalLost_free hn hfree), hcount, hkept, hframe⟩
  case refine_10 => exact congrArg s.ends (State.journalLost_used hn hused)
  case refine_11 =>
    have hexec : exec (.recSel org n) s = .next (s.after (s.recShown n j)) := congrArg s.answer (State.recSel_used hopen hn hused)
    have hindex := s.recShown_index (j := j) hn
    have hwords := fun k hk => s.recShown_words n j (k := k) hk
    have hkept := s.regsKept_recShown n j
    have hframe := s.butFlds_recShown n j
    generalize s.recShown n j = t at hexec hindex hwords hkept hframe
    refine ⟨_, hexec, hindex, hwords, hkept.after, memKept_after s t (memKept_of_mem_eq (mem_of_butFlds hframe)), ?_⟩
    rw [State.eq_of_butFlds hframe]
    rfl

end Machine
end Sys2Proof
end

section
/-! PROOFS. What a device reset loses, and what it keeps (Table 17.9, R458, R464). -/

namespace Sys2Proof
namespace Machine

/-! ### What a restart starts from, and what it adds -/

/-- The state that a device reset starts from: the reset state with what is never lost, before registers and Blocks are carried over. -/
def State.restarted (s : State) : State :=
  { State.reset with
    fuses := s.fuses, clk := s.clk, fw := s.fw, tap := s.tap, out := s.out, freeCount := s.freeCount, pending := s.pending
    dev := { starting := false, porLow := s.dev.porLow, resetLow := s.dev.resetLow }
    links := s.links.foldl (fun m e => AMap.save ({} : HostLink) m e.1 { perst := e.2.perst }) []
    gov := { trip := s.gov.trip }
    bist := { s.bist with defers := [], linksOut := [], rows := [], groups := [] } }

/-- It with the fused SVNs, and the fused repairs applied. -/
def State.refused (s : State) : State :=
  (s.carry (s.carry s.restarted F.imgSvnFwFused) F.imgSvnImgFused).repairAll s.bist.fused

/-- It with the Blocks out of service, and with FAULT_CAUSE and the clock locks. -/
def State.recarried (s : State) : State :=
  s.carry (s.carry (s.carry (s.keepOut s.refused) F.jnlRstatusFaultCause) F.clkpwrClkStatusMasterLock) F.clkpwrClkStatusRefclkOk

theorem State.restart_warm (s : State) : s.restart false =
    (List.range 4).foldl (fun u n => s.carry (s.carry u F.hpPortCfgBifurcate n) F.hpPortCfgClassStrap n) s.recarried := rfl

/-- What no register, no Block and no repair holds is as the restart begins. -/
theorem State.restart_warm_proj {β : Type} (p : State → β) (hfld : ∀ t f v o, p (State.setFld t f v o) = p t)
    (hblk : ∀ t b x, p (State.setBlk t b x) = p t) (hrepair : ∀ t r, p (State.repaired t r) = p t) (s : State) :
    p (s.restart false) = p s.restarted := by
  have hcarry (t : State) (f : Fld) (o : Nat) : p (s.carry t f o) = p t := hfld t f _ o
  have hkeep (t : State) : p (s.keepOut t) = p t :=
    (foldl_keeps p (fun u d => hcarry u F.blkDistStatusInService d) _ _).trans
      (foldl_keeps p (fun u (e : Nat × Blk) => hblk u e.1 { state := .out, lastStatus := e.2.lastStatus }) _ t)
  have hrefused : p s.refused = p s.restarted :=
    (foldl_keeps p hrepair s.bist.fused _).trans ((hcarry _ _ 0).trans (hcarry _ _ 0))
  rw [s.restart_warm, foldl_keeps p (fun u n => (hcarry _ _ n).trans (hcarry u _ n)), State.recarried, hcarry, hcarry, hcarry, hkeep, hrefused]

/-- Fabric time, the fuses and what has gone out are kept. -/
theorem State.restart_warm_kept (s : State) :
    (s.restart false).clk = s.clk ∧ (s.restart false).fuses = s.fuses ∧ (s.restart false).out = s.out := by
  have hrepair (t : State) (r : Nat × Nat × Nat) : ((t.repaired r).clk, (t.repaired r).fuses, (t.repaired r).out) = (t.clk, t.fuses, t.out) := by
    unfold State.repaired
    split <;> rfl
  have hproj := s.restart_warm_proj (fun t : State => (t.clk, t.fuses, t.out)) (fun _ _ _ _ => rfl) (fun _ _ _ => rfl) hrepair
  simp only [Prod.mk.injEq] at hproj
  exact hproj

/-! ### Blocks -/

theorem State.blk_carry (s t : State) (f : Fld) (o b : Nat) : (s.carry t f o).blk b = t.blk b := rfl

theorem State.blk_repaired (t : State) (r : Nat × Nat × Nat) (b : Nat) : (t.repaired r).blk b = t.blk b := by
  unfold State.repaired
  split <;> rfl

theorem State.blk_refused (s : State) (b : Nat) : s.refused.blk b = {} :=
  foldl_keeps (fun t : State => t.blk b) (fun t r => t.blk_repaired r b) s.bist.fused _

/-- The Blocks out of service, put into another state. -/
def State.outBlks (s t : State) : State :=
  (s.blks.filter fun e => e.2.state == .out).foldl (fun (u : State) e => u.setBlk e.1 { state := .out, lastStatus := e.2.lastStatus }) t

/-- A Block that was not out of service is not kept. -/
theorem State.blk_keepOut {s : State} {b : Nat} (hin : ∀ e ∈ s.blks, e.1 = b → e.2.state ≠ .out) (t : State) :
    (s.keepOut t).blk b = t.blk b := by
  have hserving := foldl_keeps (fun u : State => u.blk b) (fun u d => s.blk_carry u F.blkDistStatusInService d b) (List.range 8) (s.outBlks t)
  refine hserving.trans (List.foldlRecOn (motive := fun u : State => u.blk b = t.blk b) _ _ rfl fun u hu e he => ?_)
  obtain ⟨hmem, hout⟩ := List.mem_filter.mp he
  have hne : b ≠ e.1 := fun heq => hin e hmem heq.symm (beq_iff_eq.mp hout)
  exact (u.blk_setBlk_ne e.1 _ hne).trans hu

/-- Every Block that was not out of service is empty. -/
theorem State.blk_restart_warm {s : State} {b : Nat} (hin : ∀ e ∈ s.blks, e.1 = b → e.2.state ≠ .out) : (s.restart false).blk b = {} := by
  have hports := foldl_keeps (fun u : State => u.blk b)
    (fun u n => (s.blk_carry _ F.hpPortCfgClassStrap n b).trans (s.blk_carry u F.hpPortCfgBifurcate n b)) (List.range 4) s.recarried
  have hcarried : s.recarried.blk b = (s.keepOut s.refused).blk b := by
    rw [State.recarried, State.blk_carry, State.blk_carry, State.blk_carry]
  exact hports.trans (hcarried.trans ((State.blk_keepOut hin s.refused).trans (s.blk_refused b)))

/-! ### Registers -/

/-- A field that is carried over reads what it read. -/
theorem State.fld_carry_self (s t : State) (f : Fld) (o : Nat) : (s.carry t f o).fld f o = s.fld f o % 2 ^ f.width := fld_setFld_self t f _ o 0

theorem State.fld_carry_ne {f g : Fld} (h : f.apart 0 g 0 = true) (s t : State) (o : Nat) : (s.carry t f o).fld g = t.fld g :=
  fld_setFld_ne h t _ o 0

/-- The ports' configuration, carried over last, is apart from every other register. -/
theorem State.fld_restart_warm {f : Fld} (hpos : f.pos 0 < 64) (hreg : f.reg ≠ .hpPortCfg) (s : State) :
    (s.restart false).fld f = s.recarried.fld f := by
  have hports (u : State) (n : Nat) : regsKept [.hpPortCfg] u (s.carry (s.carry u F.hpPortCfgBifurcate n) F.hpPortCfgClassStrap n) :=
    (regsKept_setFld (f := F.hpPortCfgBifurcate) u (by decide) _ n 0 (by decide)).setFld (f := F.hpPortCfgClassStrap) (by decide) _ n 0
      (by decide)
  rw [s.restart_warm]
  exact regsKept_foldl hports _ _ f 0 0 hpos (by simpa using hreg)

theorem State.flds_setBlk (t : State) (b : Nat) (x : Blk) : (t.setBlk b x).flds = t.flds := rfl

theorem State.regsKept_keepOut_service (s t : State) : regsKept [.blkDistStatus] t (s.keepOut t) := by
  have hblks : regsKept [.blkDistStatus] t (s.outBlks t) :=
    regsKept_of_flds_eq _ (foldl_keeps State.flds (fun u (e : Nat × Blk) => u.flds_setBlk e.1 _) _ t)
  exact hblks.trans (regsKept_foldl (fun u d => regsKept_setFld u (by decide) _ d 0 (by decide)) _ _)

theorem State.flds_repaired (t : State) (r : Nat × Nat × Nat) : (t.repaired r).flds = t.flds := by
  unfold State.repaired
  split <;> rfl

/-- The fused SVNs, carried over first, are apart from the repairs, the Blocks' and the carried registers. -/
theorem State.fld_recarried_svn {f : Fld} (hf : f = F.imgSvnFwFused ∨ f = F.imgSvnImgFused) (s : State) :
    s.recarried.fld f = s.fld f % 2 ^ f.width := by
  have hpos : f.pos 0 < 64 := by rcases hf with rfl | rfl <;> decide
  have hlocks : s.recarried.fld f = (s.keepOut s.refused).fld f := by
    rw [State.recarried, State.fld_carry_ne, State.fld_carry_ne, State.fld_carry_ne] <;> rcases hf with rfl | rfl <;> decide
  have hkept := s.regsKept_keepOut_service s.refused f 0 0 hpos (by rcases hf with rfl | rfl <;> decide)
  have hrepairs : regsKept [] (s.carry (s.carry s.restarted F.imgSvnFwFused) F.imgSvnImgFused) s.refused :=
    regsKept_of_flds_eq _ (foldl_keeps State.flds (fun t r => t.flds_repaired r) s.bist.fused _)
  have hcarried : (s.carry (s.carry s.restarted F.imgSvnFwFused) F.imgSvnImgFused).fld f = s.fld f % 2 ^ f.width := by
    rcases hf with rfl | rfl
    · rw [State.fld_carry_ne (by decide), State.fld_carry_self]
    · rw [State.fld_carry_self]
  exact hlocks.trans (hkept.trans ((hrepairs f 0 0 hpos (by simp)).trans hcarried))

/-- The registers that Table 17.9 keeps. -/
def keptFlds : List Fld :=
  [F.jnlRstatusFaultCause, F.clkpwrClkStatusMasterLock, F.clkpwrClkStatusRefclkOk, F.imgSvnFwFused, F.imgSvnImgFused]

theorem State.fld_restart_kept {f : Fld} (hf : f ∈ keptFlds) (s : State) : (s.restart false).fld f = s.fld f % 2 ^ f.width := by
  simp only [keptFlds, List.mem_cons, List.not_mem_nil, or_false] at hf
  rcases hf with rfl | rfl | rfl | hsvn
  · rw [State.fld_restart_warm (by decide) (by decide), State.recarried, State.fld_carry_ne (by decide), State.fld_carry_ne (by decide),
      State.fld_carry_self]
  · rw [State.fld_restart_warm (by decide) (by decide), State.recarried, State.fld_carry_ne (by decide), State.fld_carry_self]
  · rw [State.fld_restart_warm (by decide) (by decide), State.recarried, State.fld_carry_self]
  · have hwarm : (s.restart false).fld f = s.recarried.fld f :=
      State.fld_restart_warm (by rcases hsvn with rfl | rfl <;> decide) (by rcases hsvn with rfl | rfl <;> decide) s
    exact hwarm.trans (State.fld_recarried_svn hsvn s)

/-! ### The device reset -/

/-- The device with the bank that an activation chose (R487). -/
def State.switched (s : State) : State := if s.fw.activate then { s with fw := s.fw.activated } else s

theorem State.switched_frame (s : State) : s.switched = { s with fw := s.switched.fw } := by
  unfold State.switched
  split <;> rfl

theorem State.switched_apart (s : State) : s.switched.dev = s.dev ∧ s.switched.blks = s.blks ∧ s.switched.clk = s.clk ∧
    s.switched.fuses = s.fuses ∧ s.switched.out = s.out ∧ s.switched.flds = s.flds := by
  rw [s.switched_frame]
  exact ⟨rfl, rfl, rfl, rfl, rfl, rfl⟩

/-- A restart with its CAUSE, and the internal pulse unless RESET_N is low. -/
def State.restartFor (s : State) (cause : Nat) : State :=
  ({ s.restart false with dev := { (s.restart false).dev with pulse := !(s.restart false).dev.resetLow } } : State).setFld F.rstStateCause cause

theorem State.deviceReset_started {s : State} (hoff : s.dev.state ≠ .off) (hstandby : s.dev.state ≠ .standby) (cause : Nat) :
    s.deviceReset cause = (s.switched.restartFor cause).emit (.pin pinTrayFaultN false) := by
  unfold State.deviceReset
  split
  · next h => exact absurd h hoff
  · next h => exact absurd h hstandby
  · rfl

/-- What a device reset of a started device leaves (Table 17.9). -/
structure State.deviceWasReset (s u : State) (cause : Nat) : Prop where
  cause : u.fld F.rstStateCause = cause
  dev : u.dev = { starting := false, porLow := s.dev.porLow, resetLow := s.dev.resetLow, pulse := !s.dev.resetLow }
  lost : u.volatile = ([], [], [], [], [], [], [], [])
  blk : ∀ b, (∀ e ∈ s.blks, e.1 = b → e.2.state ≠ .out) → u.blk b = {}
  clk : u.clk = s.clk
  fuses : u.fuses = s.fuses
  out : u.out = .pin pinTrayFaultN false :: s.out
  flds : ∀ f, f ∈ keptFlds → u.fld f = s.fld f % 2 ^ f.width

theorem State.restartFor_lost (s : State) {cause : Nat} (hcause : cause < 8) :
    s.deviceWasReset ((s.restartFor cause).emit (.pin pinTrayFaultN false)) cause := by
  obtain ⟨hclk, hfuses, hout⟩ := s.restart_warm_kept
  have hdev := s.dev_restart false
  have hvolatile := s.volatile_restart false
  have hblk (b : Nat) := s.blk_restart_warm (b := b)
  have hflds (f : Fld) (hf : f ∈ keptFlds) := s.fld_restart_kept hf
  unfold State.restartFor
  generalize s.restart false = t at hclk hfuses hout hdev hvolatile hblk hflds
  constructor
  case cause => exact (State.fld_emit _ _ _ 0 0).trans (fld_setFld_of_lt (f := F.rstStateCause) hcause _ 0 0)
  case dev => simp only [State.emit_frame, State.setFld, hdev]
  case lost => exact (State.volatile_emit _ _).trans hvolatile
  case blk =>
    intro b hin
    simp only [State.blk, State.emit_frame, State.setFld]
    exact hblk b hin
  case clk => simp only [State.emit_frame, State.setFld, hclk]
  case fuses => simp only [State.emit_frame, State.setFld, hfuses]
  case out => simp only [State.emit_out, State.setFld, hout]
  case flds =>
    intro f hf
    have hapart : F.rstStateCause.apart 0 f 0 = true := by
      simp only [keptFlds, List.mem_cons, List.not_mem_nil, or_false] at hf
      rcases hf with rfl | rfl | rfl | rfl | rfl <;> decide
    rw [State.fld_emit, fld_setFld_ne hapart]
    exact hflds f hf

theorem State.deviceReset_lost {s : State} (hoff : s.dev.state ≠ .off) (hstandby : s.dev.state ≠ .standby) {cause : Nat} (hcause : cause < 8) :
    s.deviceWasReset (s.deviceReset cause) cause := by
  obtain ⟨hdev, hblks, hclk, hfuses, hout, hflds⟩ := s.switched_apart
  have hfld (f : Fld) : s.switched.fld f = s.fld f := by rw [fld_eq_look, fld_eq_look, hflds]
  obtain ⟨hcause', hdev', hlost, hblk, hclk', hfuses', hout', hflds'⟩ := s.switched.restartFor_lost hcause
  rw [hdev] at hdev'
  rw [hblks] at hblk
  rw [hout] at hout'
  rw [State.deviceReset_started hoff hstandby]
  exact ⟨hcause', hdev', hlost, hblk, hclk'.trans hclk, hfuses'.trans hfuses, hout', fun f hf => hfld f ▸ hflds' f hf⟩

/-- The CAUSE of a reset by an origin: 4 from the out-of-band interface, 2 from a host. -/
def resetCause (org : Origin) : Nat := match org with | .oob => 4 | .oobSecure => 4 | _ => 2

theorem resetCause_lt (org : Origin) : resetCause org < 8 := by
  unfold resetCause
  split <;> decide

section
variable {s : State} {org : Origin} (hopen : s.dcsOpen org 0x10008 = true) (hlow : s.dev.resetLow = false)
include hopen hlow

theorem State.deviceResetCmd_causes : s.deviceResetCmd org 0xC940 = s.deviceReset (resetCause org) := by
  unfold State.deviceResetCmd
  exact (if_neg (by simp [hopen, hlow])).trans (if_neg (not_not_intro rfl))

theorem State.deviceResetCmd_refused {c : Nat} (hc : c ≠ 0xC940) : s.deviceResetCmd org c = s.rstEnds .notPermitted := by
  unfold State.deviceResetCmd
  exact (if_neg (by simp [hopen, hlow])).trans (if_pos hc)

end

/-- Settles O47: a device reset is a restart, whose losses and whose carried registers the lemmas above name; another CONFIRM is refused. -/
theorem deviceResetLosesEverythingButWhatIsKept : Obligations.DeviceResetLosesEverythingButWhatIsKept := by
  unfold Obligations.DeviceResetLosesEverythingButWhatIsKept
  refine ⟨fun s hlow hoff hstandby => ⟨?asserted, fun org hopen => ?commanded⟩, fun s org c hopen hlow hc => ?refused⟩
  case asserted =>
    have hreset := State.deviceReset_lost (s := { s with dev := { s.dev with resetLow := true } }) hoff hstandby (cause := 1) (by decide)
    have hassert := State.resetAssert_released hlow
    generalize State.deviceReset { s with dev := { s.dev with resetLow := true } } 1 = u at hreset hassert
    have hexec : exec .resetNAssert s = s.ends u := congrArg s.ends hassert
    obtain ⟨hcause, hdev, hlost, hblk, hclk, hfuses, hout, hflds⟩ := hreset
    simp only [State.volatile, Prod.mk.injEq] at hlost
    obtain ⟨hmem, hwins, -, hts, hqps, hqueues, -, hjnl⟩ := hlost
    exact ⟨u, hexec, hcause, congrArg DevCtl.resetLow hdev, congrArg DevCtl.pulse hdev, congrArg DevCtl.state hdev, hmem, hwins, hts, hqps,
      hqueues, hjnl, hblk, hclk, hfuses, hout, hflds⟩
  case commanded =>
    have hreset := State.deviceReset_lost hoff hstandby (resetCause_lt org)
    have hexec : exec (.deviceReset org 0xC940) s = s.ends _ := congrArg s.ends (State.deviceResetCmd_causes hopen hlow)
    generalize s.deviceReset (resetCause org) = u at hreset hexec
    obtain ⟨hcause, hdev, hlost, -, hclk, hfuses, -, -⟩ := hreset
    obtain ⟨hmem, hwins, hqps⟩ := State.gone_of_volatile hlost
    have hpulse : u.dev.pulse = !s.dev.resetLow := congrArg DevCtl.pulse hdev
    rw [hlow] at hpulse
    exact ⟨u, hexec, hcause, hpulse, congrArg DevCtl.state hdev, hmem, hwins, hqps, hclk, hfuses⟩
  case refused =>
    have hexec : exec (.deviceReset org c) s = s.ends (s.rstEnds .notPermitted) :=
      congrArg s.ends (State.deviceResetCmd_refused hopen hlow hc)
    obtain ⟨hcode, hfail⟩ := s.rstEnds_shown .notPermitted
    exact ⟨_, hexec, hcode, hfail, regsKept_rstEnds s _, s.rstEnds_frame _⟩

end Machine
end Sys2Proof
end

section
/-! PROOFS. Flash banks: staging, verifying, arming, activating, confirming and rolling back (R473 to R488). -/

namespace Sys2Proof
namespace Machine

/-! ### Banks and settings areas -/

theorem Firmware.bank_setBank (f : Firmware) (n : Nat) (b : Bank) : (f.setBank n b).bank n = b := by
  by_cases hn : n = 0 <;> simp [Firmware.setBank, Firmware.bank, hn]

theorem Firmware.bank_setArea (f : Firmware) (k n : Nat) (a : Option SettingsArea) : (f.setArea k a).bank n = f.bank n := by
  unfold Firmware.setArea
  split <;> rfl

theorem Firmware.state_move (f : Firmware) (n : Nat) (st : BankState) : ((f.move n st).bank n).state = st :=
  congrArg Bank.state (f.bank_setBank n _)

/-- The erasure of the older settings area leaves the banks and the trial. -/
theorem Firmware.eraseOlder_keeps (f : Firmware) :
    (∀ n, f.eraseOlder.bank n = f.bank n) ∧ f.eraseOlder.tries = f.tries ∧ f.eraseOlder.tried = f.tried := by
  have harea (k : Nat) (a : Option SettingsArea) :
      (∀ n, (f.setArea k a).bank n = f.bank n) ∧ (f.setArea k a).tries = f.tries ∧ (f.setArea k a).tried = f.tried := by
    refine ⟨fun n => f.bank_setArea k n a, ?_⟩
    unfold Firmware.setArea
    split <;> exact ⟨rfl, rfl⟩
  unfold Firmware.eraseOlder
  split
  · split
    · exact harea _ _
    · exact ⟨fun _ => rfl, rfl, rfl⟩
  · exact ⟨fun _ => rfl, rfl, rfl⟩

theorem State.settings_setSettings (s : State) (d : Settings) : (s.setSettings d).settings = d := by
  by_cases hcur : s.fw.cur = 0 <;> simp [State.setSettings, State.settings, Firmware.setArea, Firmware.area, areaOf, hcur]

theorem State.settings_of_fw {s t : State} (h : t.fw = s.fw) : t.settings = s.settings := by
  rw [State.settings, State.settings, h]

/-! ### The status of a command -/

theorem State.imgEnds_code (s : State) (st : Status) : (s.imgEnds st).fld F.imgCmdStatusCode = st.code :=
  fld_statusSet (by decide) rfl s st _

theorem State.fwEnds_code (s : State) (st : Status) : (s.fwEnds st).fld F.imgFwCmdStatusCode = st.code :=
  fld_statusSet (by decide) rfl s st _

theorem regsKept_imgEnds (s : State) (st : Status) : regsKept [.imgCmdStatus] s (s.imgEnds st) :=
  regsKept_statusSet (by decide) (by decide) s st _

theorem regsKept_fwEnds (s : State) (st : Status) : regsKept [.imgFwCmdStatus] s (s.fwEnds st) :=
  regsKept_statusSet (by decide) (by decide) s st _

/-! ### CLEAR_UCAL (R475) -/

/-- The settings with the record of a bank marked cleared. -/
def State.ucalCleared (s : State) (n : Nat) : State :=
  if s.settings.cleared.contains n then s else s.setSettings { s.settings with cleared := s.settings.cleared ++ [n] }

theorem State.ucalCleared_shown (s : State) (n : Nat) : n ∈ (s.ucalCleared n).settings.cleared ∧
    (s.ucalCleared n).settings.soft = s.settings.soft ∧ s.ucalCleared n = { s with fw := (s.ucalCleared n).fw } := by
  unfold State.ucalCleared
  split
  · next h => exact ⟨by simpa using h, rfl, rfl⟩
  · rw [s.settings_setSettings]
    exact ⟨List.mem_append_right _ (List.mem_singleton.mpr rfl), rfl, rfl⟩

/-- UCAL_STATE shows the record cleared, and the command ends with OK. -/
def State.ucalShown (s : State) : State := ((s.setFld F.imgUcalState 3).emit .flashUcal).imgEnds .ok

theorem State.clearUcal_open {s : State} {org : Origin} (h : s.dcsOpen org 0x40018 = true) :
    s.clearUcal org = (s.ucalCleared s.fw.runBank).ucalShown := by
  rw [State.clearUcal, if_neg (by simp [h])]
  rfl

theorem State.ucalShown_eq (s : State) :
    s.ucalShown = State.imgEnds { s.setFld F.imgUcalState 3 with out := .flashUcal :: s.out } .ok :=
  congrArg (State.imgEnds · .ok) (State.emit_plain (s.setFld F.imgUcalState 3) .flashUcal rfl)

theorem State.ucalShown_keeps (s : State) :
    s.ucalShown.fw = s.fw ∧ s.ucalShown.mem = s.mem ∧ s.ucalShown.out = .flashUcal :: s.out := by
  rw [s.ucalShown_eq]
  exact ⟨rfl, rfl, rfl⟩

theorem State.ucalShown_state (s : State) : s.ucalShown.fld F.imgUcalState = 3 := by
  rw [State.ucalShown, State.imgEnds, State.setFlag, fld_setFld_ne (by decide), fld_setFld_ne (by decide), State.fld_emit]
  exact fld_setFld_of_lt (by decide) s 0 0

theorem State.ucalShown_code (s : State) : s.ucalShown.fld F.imgCmdStatusCode = Status.ok.code := State.imgEnds_code _ .ok

theorem State.regsKept_ucalShown (s : State) : regsKept [.imgUcal, .imgCmdStatus] s s.ucalShown := by
  have hstate : regsKept [.imgUcal, .imgCmdStatus] s (s.setFld F.imgUcalState 3) := regsKept_setFld s (by decide) 3 0 0 (by decide)
  have hout : regsKept [.imgUcal, .imgCmdStatus] s ((s.setFld F.imgUcalState 3).emit .flashUcal) :=
    hstate.trans (regsKept_of_flds_eq _ (by simp only [State.emit_frame]))
  exact hout.trans ((regsKept_imgEnds _ .ok).mono (by decide))

/-! ### STAGE (R484) -/

/-- What STAGE puts out: the component, from the manager's transfers or from memory. -/
def State.componentOut (s : State) (n : Nat) : Output :=
  if s.fld F.imgStageSrcFga = 0 then .flashCopy n (s.fld F.imgStageArgKind) (s.fld F.imgStageArgOffset4k * 4096) (s.fld F.imgStageArgLen)
  else .flashWrite n (s.fld F.imgStageArgKind) (s.fld F.imgStageArgOffset4k * 4096)
    (s.hbmRead (fgaOff (s.fld F.imgStageSrcFga)) (s.fld F.imgStageArgLen))

theorem State.stageCmd_passes {s : State} {org : Origin} (hopen : s.dcsOpen org 0x40130 = true)
    (hcheck : s.stageCheck (s.fld F.imgStageArgKind) (s.fld F.imgStageArgOffset4k * 4096) (s.fld F.imgStageArgLen)
      (s.fld F.imgStageSrcFga == 0 || s.mgrBytes (s.fld F.imgStageSrcFga) (s.fld F.imgStageArgLen)) = none) :
    s.stageCmd org = (s.stageInto s.componentOut).fwEnds .ok := by
  rw [State.stageCmd]
  simp only [hopen, hcheck, Bool.not_true, Bool.false_eq_true, ↓reduceIte]
  rfl

/-- The settings with the record of a bank no longer marked cleared. -/
def State.ucalRenewed (s : State) (n : Nat) : State :=
  if s.settings.cleared.contains n then s.setSettings { s.settings with cleared := s.settings.cleared.filter (· != n) } else s

theorem State.ucalRenewed_keeps (s : State) (n : Nat) : (s.ucalRenewed n).flds = s.flds ∧ (s.ucalRenewed n).mem = s.mem := by
  unfold State.ucalRenewed
  split <;> exact ⟨rfl, rfl⟩

theorem State.stageInto_eq (s : State) (o : Nat → Output) : s.stageInto o =
    (if (s.fw.bank s.fw.other).state = .staging then s
      else ({ s.ucalRenewed s.fw.other with fw := (s.ucalRenewed s.fw.other).fw.setBank s.fw.other { state := .staging } } : State).emit
        (.flashErase s.fw.other)).emit (o s.fw.other) := rfl

/-- The inactive bank is B_STAGING, and the component has gone out. -/
theorem State.stageInto_shown (s : State) (o : Nat → Output) : ((s.stageInto o).fw.bank s.fw.other).state = .staging ∧
    o s.fw.other ∈ (s.stageInto o).out ∧ (s.stageInto o).flds = s.flds ∧ (s.stageInto o).mem = s.mem := by
  rw [s.stageInto_eq]
  split
  · next h => simp only [State.emit_frame, State.emit_out, h, List.mem_cons_self, true_and]
  · simp only [State.emit_frame, State.emit_out, Firmware.bank_setBank, List.mem_cons_self, s.ucalRenewed_keeps, true_and]

/-! ### VERIFY, ARM, CANCEL and CONFIRM (R485 to R488) -/

theorem State.verifyCmd_open {s : State} {org : Origin} {f : State → State × Status} (h : s.dcsOpen org 0x40130 = true) :
    s.verifyCmd org f = (f s).1.fwEnds (f s).2 := if_neg (by simp [h])

/-- The components of a staging bank that pass. -/
theorem State.verifyRead_passes {s : State} {fw : List Byte} {img : ImgRead} {ucal : UcalRead} {fwSvn imgSvn : Nat}
    (hstaging : (s.fw.bank s.fw.other).state = .staging) (h : s.bankFault fw img ucal = (none, fwSvn, imgSvn)) : s.verifyRead fw img ucal =
      ({ s with fw := s.fw.setBank s.fw.other { s.fw.bank s.fw.other with state := .staged, fwSvn := fwSvn, imgSvn := imgSvn } }, .ok) := by
  simp only [State.verifyRead, State.verifyBank, hstaging, h, ne_eq, not_true_eq_false, ↓reduceIte]

/-- IMG_STATUS of a rejected image. -/
def State.imgRejected (s : State) (r sect : Nat) : State :=
  ((s.setFld F.imgStatusReason r).setFld F.imgStatusSection sect).setFld F.imgStatusCode Status.imgRejected.code

theorem State.verifyRead_rejects {s : State} {fw : List Byte} {img : ImgRead} {ucal : UcalRead} {r sect fwSvn imgSvn : Nat}
    (hstaging : (s.fw.bank s.fw.other).state = .staging) (h : s.bankFault fw img ucal = (some (r, sect), fwSvn, imgSvn)) :
    s.verifyRead fw img ucal = (s.imgRejected r sect, .imgRejected) := by
  simp only [State.verifyRead, State.verifyBank, hstaging, h, ne_eq, not_true_eq_false, ↓reduceIte]
  rfl

theorem State.fld_fwEnds_ne (s : State) (st : Status) {f : Fld} (hcode : F.imgFwCmdStatusCode.apart 0 f 0 = true)
    (hfail : F.imgFwCmdStatusFail.apart 0 f 0 = true) : (s.fwEnds st).fld f = s.fld f := by
  rw [State.fwEnds, State.setFlag, fld_setFld_ne hfail, fld_setFld_ne hcode]

theorem State.imgRejected_shown (s : State) (r sect : Nat) :
    (s.imgRejected r sect).fld F.imgStatusReason = r % 2 ^ F.imgStatusReason.width ∧
    (s.imgRejected r sect).fld F.imgStatusSection = sect % 2 ^ F.imgStatusSection.width ∧ regsKept [.imgStatus] s (s.imgRejected r sect) := by
  refine ⟨?_, ?_, ?_⟩
  · rw [State.imgRejected, fld_setFld_ne (by decide), fld_setFld_ne (by decide), fld_setFld_self]
  · rw [State.imgRejected, fld_setFld_ne (by decide), fld_setFld_self]
  · exact ((regsKept_setFld (f := F.imgStatusReason) s (by decide) r 0 0 (by decide)).setFld (f := F.imgStatusSection) (by decide) sect 0 0
      (by decide)).setFld (f := F.imgStatusCode) (by decide) _ 0 0 (by decide)

theorem State.armBank_staged {s : State} {secs ns : Nat} {drain : Bool} (hstaged : (s.fw.bank s.fw.other).state = .staged)
    (htime : s.nowNs + 100000000 ≤ secs * 1000000000 + ns) : s.armBank secs ns drain =
      ({ s with fw := { s.fw.move s.fw.other .armed with armS := secs, armNs := ns, armDrain := drain } }, .ok) := by
  rw [State.armBank, if_neg (not_not_intro hstaged), if_neg (Nat.not_lt.mpr htime)]

theorem State.fwArmCmd_open {s : State} {org : Origin} (h : s.dcsOpen org 0x40130 = true) : s.fwArmCmd org =
    (s.armBank (s.fld F.imgActSSec) (s.fld F.imgActNsNs) (s.flag F.imgActNsDrain)).1.fwEnds
      (s.armBank (s.fld F.imgActSSec) (s.fld F.imgActNsNs) (s.flag F.imgActNsDrain)).2 := if_neg (by simp [h])

theorem State.cancelCmd_open {s : State} {org : Origin} (h : s.dcsOpen org 0x40130 = true) : s.cancelCmd org =
    if (s.fw.bank s.fw.other).state ≠ .armed then s.fwEnds .fnState
    else State.fwEnds { s with fw := s.fw.move s.fw.other .staged } .ok := if_neg (by simp [h])

/-- The SVN fuses of a bank are blown: registers of IMG_SVN, and outputs. -/
theorem State.blowSvn_keeps (s : State) (n : Nat) :
    (s.blowSvn n).fw = s.fw ∧ (s.blowSvn n).mem = s.mem ∧ regsKept [.imgSvn] s (s.blowSvn n) := by
  have hblow (t : State) (o : Output) {f : Fld} (v : Nat) (hreg : f.reg ∈ [Reg.imgSvn]) (hpos : f.pos 0 < 64) :
      ((t.setFld f v).emit o).fw = t.fw ∧ ((t.setFld f v).emit o).mem = t.mem ∧ regsKept [.imgSvn] t ((t.setFld f v).emit o) := by
    refine ⟨by simp only [State.emit_frame, State.setFld], by simp only [State.emit_frame, State.setFld], ?_⟩
    exact (regsKept_setFld t hreg v 0 0 hpos).trans (regsKept_of_flds_eq _ (by simp only [State.emit_frame]))
  unfold State.blowSvn
  extract_lets b t
  have ht : t.fw = s.fw ∧ t.mem = s.mem ∧ regsKept [.imgSvn] s t := by
    simp only [t]
    split
    · exact hblow s _ _ (by decide) (by decide)
    · exact ⟨rfl, rfl, regsKept_refl _ _⟩
  obtain ⟨hfw, hmem, hkept⟩ := ht
  split
  · obtain ⟨hfw', hmem', hkept'⟩ := hblow t (.fuseSvn 1 b.imgSvn) b.imgSvn (f := F.imgSvnImgFused) (by decide) (by decide)
    exact ⟨hfw'.trans hfw, hmem'.trans hmem, hkept.trans hkept'⟩
  · exact ⟨hfw, hmem, hkept⟩

/-- The trial of bank n has ended well. -/
def State.trialWon (s : State) : State :=
  State.blowSvn { s with fw := { s.fw.move s.fw.runBank .active with tries := 0, tried := none } } s.fw.runBank

theorem State.confirmCmd_service {s : State} {org : Origin} (hopen : s.dcsOpen org 0x40130 = true) (htrial : s.fw.onTrial = true)
    (hservice : s.dev.state = .service) : s.confirmCmd org = State.fwEnds { s.trialWon with fw := s.trialWon.fw.eraseOlder } .ok := by
  rw [State.confirmCmd, if_neg (by simp [hopen]), if_neg (by simp [htrial, hservice])]
  rfl

theorem State.trialWon_shown (s : State) : (s.trialWon.fw.eraseOlder.bank s.fw.runBank).state = .active ∧
    s.trialWon.fw.eraseOlder.tries = 0 ∧ s.trialWon.fw.eraseOlder.tried = none ∧ s.trialWon.mem = s.mem ∧
    regsKept [.imgSvn] s s.trialWon := by
  obtain ⟨hfw, hmem, hkept⟩ := State.blowSvn_keeps { s with fw := { s.fw.move s.fw.runBank .active with tries := 0, tried := none } } s.fw.runBank
  obtain ⟨hbank, htries, htried⟩ := s.trialWon.fw.eraseOlder_keeps
  rw [hbank, htries, htried]
  have hwon : s.trialWon.fw = { s.fw.move s.fw.runBank .active with tries := 0, tried := none } := hfw
  rw [hwon]
  exact ⟨s.fw.state_move _ _, rfl, rfl, hmem, (regsKept_of_flds_eq _ rfl).trans hkept⟩

theorem State.activation_due {s : State} (harmed : (s.fw.bank s.fw.other).state = .armed) (hactivate : s.fw.activate = false)
    (hdue : s.fw.armS * 1000000000 + s.fw.armNs ≤ s.nowNs) (hservice : s.dev.state = .service) : s.activation =
      if s.fw.armDrain then State.enterDrain { s with fw := { s.fw with activate := true } } 5
      else State.deviceReset { s with fw := { s.fw with activate := true } } 5 := by
  rw [State.activation, if_neg (by simp [harmed, hactivate, hdue])]
  simp only [hservice]

theorem State.fw_enterDrain (s : State) (cause : Nat) : (s.enterDrain cause).fw = s.fw := by
  unfold State.enterDrain
  split <;> rfl

/-- Settles O48: each command by the bank, the settings and the status that it leaves. -/
theorem flashBankCommandsComplete : Obligations.FlashBankCommandsComplete := by
  unfold Obligations.FlashBankCommandsComplete
  refine ⟨fun s org hopen => ?clear, fun s org hopen hcheck => ?stage, fun s org fw img ucal hopen hstaging => ?verify,
    fun s org secs ns hopen hstaged hsecs hns htime => ?arm, fun s org hopen => ⟨fun harmed => ?cancelled, fun harmed => ?notArmed⟩,
    fun s org hopen htrial hservice => ?confirm, fun s org hopen htrial => ?rollback,
    fun s harmed hactivate hdue hservice => ⟨fun hdrain => ?drained, fun hdrain => ?reset⟩, fun s htrial htried => ?timeout⟩
  case clear =>
    have hexec : exec (.clearUcal org) s = s.answer _ := congrArg s.answer (State.clearUcal_open hopen)
    obtain ⟨hcleared, hsoft, hframe⟩ := s.ucalCleared_shown s.fw.runBank
    generalize s.ucalCleared s.fw.runBank = t at hexec hcleared hsoft hframe
    obtain ⟨hfw, hmem, hout⟩ := t.ucalShown_keeps
    have hregs : regsKept [.imgUcal, .imgCmdStatus] s t := regsKept_of_flds_eq _ (congrArg State.flds hframe :)
    refine ⟨_, hexec, ?_, ?_, t.ucalShown_state, t.ucalShown_code, ?_, (hregs.trans t.regsKept_ucalShown).after, ?_⟩
    · exact (State.settings_of_fw hfw : t.ucalShown.settings = _) ▸ hcleared
    · exact (congrArg Settings.soft (State.settings_of_fw hfw) :).trans hsoft
    · exact hout.trans (congrArg (Output.flashUcal :: ·) (congrArg State.out hframe :))
    · exact memKept_after _ _ (memKept_of_mem_eq (hmem.trans (congrArg State.mem hframe :)))
  case stage =>
    have hexec : exec (.stage org) s = s.answer _ := congrArg s.answer (State.stageCmd_passes hopen hcheck)
    obtain ⟨hstate, hout, hflds, hmem⟩ := s.stageInto_shown s.componentOut
    generalize s.stageInto s.componentOut = t at hexec hstate hout hflds hmem
    exact ⟨_, hexec, hstate, t.fwEnds_code .ok, hout, ((regsKept_of_flds_eq _ hflds).trans (regsKept_fwEnds t .ok)).after,
      memKept_after _ _ (memKept_of_mem_eq hmem)⟩
  case verify =>
    have hverify (t : State) (st : Status) (h : s.verifyRead fw img ucal = (t, st)) :
        exec (.verify org fw img ucal) s = .next (s.after (t.fwEnds st)) :=
      congrArg s.answer ((State.verifyCmd_open hopen).trans (by rw [h]))
    rcases hfault : s.bankFault fw img ucal with ⟨_ | ⟨r, sect⟩, fwSvn, imgSvn⟩
    · refine ⟨_, hverify _ _ (State.verifyRead_passes hstaging hfault), memKept_after _ _ (memKept_of_mem_eq rfl), ?_, ?_, ?_,
        State.fwEnds_code _ .ok, ?_⟩
      · exact congrArg Bank.state (s.fw.bank_setBank s.fw.other _)
      · exact congrArg Bank.fwSvn (s.fw.bank_setBank s.fw.other _)
      · exact congrArg Bank.imgSvn (s.fw.bank_setBank s.fw.other _)
      · exact ((regsKept_of_flds_eq _ rfl).trans (regsKept_fwEnds _ .ok)).after
    · obtain ⟨hreason, hsection, hkept⟩ := s.imgRejected_shown r sect
      refine ⟨_, hverify _ _ (State.verifyRead_rejects hstaging hfault), memKept_after _ _ (memKept_of_mem_eq rfl), rfl, ?_, ?_,
        State.fwEnds_code _ .imgRejected, ?_⟩
      · exact (State.fld_fwEnds_ne _ .imgRejected (by decide) (by decide)).trans hreason
      · exact (State.fld_fwEnds_ne _ .imgRejected (by decide) (by decide)).trans hsection
      · exact ((hkept.mono (by decide)).trans ((regsKept_fwEnds _ _).mono (by decide))).after
  case arm =>
    subst hsecs hns
    have harm := State.armBank_staged (drain := s.flag F.imgActNsDrain) hstaged htime
    have hexec : exec (.fwArm org) s = .next (s.after (State.fwEnds _ .ok)) :=
      congrArg s.answer ((State.fwArmCmd_open hopen).trans (by rw [harm]))
    exact ⟨_, hexec, s.fw.state_move s.fw.other .armed, rfl, rfl, rfl, State.fwEnds_code _ .ok, memKept_after _ _ (memKept_of_mem_eq rfl)⟩
  case cancelled =>
    have hexec : exec (.cancel org) s = .next (s.after _) :=
      congrArg s.answer ((State.cancelCmd_open hopen).trans (if_neg (not_not_intro harmed)))
    exact ⟨_, hexec, s.fw.state_move s.fw.other .staged, State.fwEnds_code _ .ok, memKept_after _ _ (memKept_of_mem_eq rfl)⟩
  case notArmed =>
    have hexec : exec (.cancel org) s = .next (s.after _) := congrArg s.answer ((State.cancelCmd_open hopen).trans (if_pos harmed))
    exact ⟨_, hexec, rfl, State.fwEnds_code _ .fnState, memKept_after _ _ (memKept_of_mem_eq rfl)⟩
  case confirm =>
    have hexec : exec (.confirm org) s = .next (s.after _) := congrArg s.answer (State.confirmCmd_service hopen htrial hservice)
    obtain ⟨hactive, htries, htried, hmem, hkept⟩ := s.trialWon_shown
    generalize s.trialWon = t at hexec hactive htries htried hmem hkept
    refine ⟨_, hexec, hactive, htries, htried, State.fwEnds_code _ .ok, ?_, memKept_after _ _ (memKept_of_mem_eq hmem)⟩
    have hends : regsKept [.imgFwCmdStatus] t (State.fwEnds { t with fw := t.fw.eraseOlder } .ok) :=
      (regsKept_of_flds_eq _ rfl).trans (regsKept_fwEnds { t with fw := t.fw.eraseOlder } .ok)
    exact ((hkept.mono (by decide)).trans (hends.mono (by decide))).after
  case rollback => exact congrArg s.ends ((if_neg (by simp [hopen])).trans (if_neg (by simp [htrial])))
  case drained =>
    have hexec : exec .activation s = s.ends _ :=
      congrArg s.ends ((State.activation_due harmed hactivate hdue hservice).trans (if_pos hdrain))
    refine ⟨_, hexec, rfl, rfl, State.fw_enterDrain _ _⟩
  case reset =>
    exact congrArg s.ends ((State.activation_due harmed hactivate hdue hservice).trans (if_neg (by simp [hdrain])))
  case timeout => exact congrArg s.ends (if_pos ⟨htrial, Option.isSome_iff_ne_none.mpr htried⟩)

end Machine
end Sys2Proof
end

section
/-! PROOFS. SPDM, and the commands of a secured session with the owner (R478, R491 to R494). -/

namespace Sys2Proof
namespace Machine

/-! ### Answers -/

theorem State.spdmSay_eq (s : State) (code err : Nat) (data : List Byte) :
    s.spdmSay code err data = { s with out := .spdm code err data :: s.out } := State.emit_plain _ _ rfl

theorem State.oobAnswer_eq (s : State) (st : Status) :
    s.oobAnswer st = { s with out := .oob [BitVec.ofNat 8 st.code] :: s.out } := State.emit_plain _ _ rfl

/-- An answer changes neither firmware, registers nor memory. -/
theorem State.oobAnswer_keeps (s : State) (st : Status) :
    (s.oobAnswer st).fw = s.fw ∧ (s.oobAnswer st).flds = s.flds ∧ (s.oobAnswer st).mem = s.mem := by
  rw [s.oobAnswer_eq]
  exact ⟨rfl, rfl, rfl⟩

/-- A request at or past its stage. -/
theorem State.spdmAt_reached {s : State} {code stage : Nat} {f : State → State} (hup : s.oobUp = true) (hstage : stage ≤ s.spdm.stage) :
    s.spdmAt code stage f = f s := by
  rw [State.spdmAt, if_neg (by simp [hup]), if_neg (Nat.not_lt.mpr hstage)]

/-- A positive answer with bytes that a hash, a certificate or a signature makes. -/
theorem State.spdmFree_said (s : State) (code : Nat) : ∃ d, s.spdmFree code =
    { s with freeCount := s.freeCount + 1, out := .spdm code 0 d :: s.out } :=
  ⟨_, State.spdmSay_eq { s with freeCount := s.freeCount + 1 } code 0 _⟩

/-! ### Sessions (R492) -/

theorem State.spdmMeasurements_block {s : State} {i : Nat} (hup : s.oobUp = true) (hstage : 3 ≤ s.spdm.stage) (hlow : 1 ≤ i) (hhigh : i ≤ 7) :
    s.spdmMeasurements i = s.spdmSay 0xE0 0 (AMap.look [] s.spdm.meas i) :=
  (State.spdmAt_reached hup hstage).trans ((if_neg (by omega)).trans ((if_neg (by omega)).trans (if_pos hhigh)))

section
variable {s : State} {id : Nat} (hup : s.oobUp = true) (hstage : 3 ≤ s.spdm.stage) (hnew : s.spdm.sessions.any (fun x => x.id == id) = false)
include hup hstage hnew

theorem State.spdmKeyExchange_begins (hroom : s.spdm.sessions.length < 2) : s.spdmKeyExchange id 0 =
    State.spdmFree { s with spdm := { s.spdm with sessions := s.spdm.sessions ++ [{ id := id }] } } 0xE4 :=
  (State.spdmAt_reached hup hstage).trans ((if_neg (by simp [hnew])).trans (if_neg (Nat.not_le.mpr hroom)))

theorem State.spdmKeyExchange_full (hfull : 2 ≤ s.spdm.sessions.length) : s.spdmKeyExchange id 0 = s.spdmSay 0xE4 spdmSessionLimit :=
  (State.spdmAt_reached hup hstage).trans ((if_neg (by simp [hnew])).trans (if_pos hfull))

end

theorem State.spdmFinish_proved {s : State} {id : Nat} (hup : s.oobUp = true) (hone : s.spdm.sessions = [{ id := id }]) (owner : Option Nat) :
    s.spdmFinish id true owner =
      State.spdmSay { s with spdm := { s.spdm with sessions := [{ id := id, up := true, owner := owner }] } } 0xE5 0 := by
  simp [State.spdmFinish, hup, hone]

theorem State.spdmInSession_up {s : State} {id : Nat} (hup : s.oobUp = true) (hsession : s.sessionUp id ≠ none) (code : Nat) :
    s.spdmInSession code id = s.spdmSay code 0 := by
  rw [State.spdmInSession, if_neg (by simp [hup]), if_pos (Option.isSome_iff_ne_none.mpr hsession)]

/-- The state without a session. -/
def State.sessionEnded (s : State) (id : Nat) : State :=
  { s with spdm := { s.spdm with sessions := s.spdm.sessions.filter fun x => x.id != id } }

theorem State.spdmEnd_up {s : State} {id : Nat} (hup : s.oobUp = true) (hsession : s.sessionUp id ≠ none) :
    s.spdmEnd id = (s.sessionEnded id).spdmSay 0xEC 0 := by
  rw [State.spdmEnd, if_neg (by simp [hup]), if_neg (by simpa using hsession)]
  rfl

theorem State.sessionUp_sessionEnded (s : State) (id : Nat) : (s.sessionEnded id).sessionUp id = none := by
  refine List.find?_eq_none.mpr fun x hx hup => ?_
  have hne := (List.mem_filter.mp hx).2
  rw [Bool.and_eq_true, beq_iff_eq] at hup
  exact absurd hup.1 (by simpa using hne)

/-! ### Commands of the owner (R478, R493, R494) -/

theorem State.secured_owner {s : State} {sess : Option Nat} {f : State → State × Status} (hup : s.oobUp = true) (howner : s.byOwner sess = true) :
    s.secured sess f = (f s).1.oobAnswer (f s).2 := by
  rw [State.secured, if_neg (by simp [hup]), if_neg (by simp [howner])]

theorem State.secured_other {s : State} {sess : Option Nat} {f : State → State × Status} (hup : s.oobUp = true) (hother : s.byOwner sess = false) :
    s.secured sess f = s.oobAnswer .notPermitted := by
  rw [State.secured, if_neg (by simp [hup]), if_pos (by simp [hother])]

/-- The manager role on one port. -/
def State.managerAt (s : State) (p : Nat) : State := (List.range 4).foldl (fun t n => t.setFlag F.hpPortCfgMgrActive (n == p) n) s

theorem State.flag_managerAt (s : State) (p : Nat) {n : Nat} (hn : n < 4) : (s.managerAt p).flag F.hpPortCfgMgrActive n = (n == p) := by
  have hfld : (s.managerAt p).fld F.hpPortCfgMgrActive n = b2n (n == p) :=
    fld_foldl_setFld (f := F.hpPortCfgMgrActive) (g := fun n => b2n (n == p)) (by decide)
      (fun n => by cases n == p <;> decide) s hn
  rw [State.flag, hfld]
  cases n == p <;> rfl

theorem State.regsKept_managerAt (s : State) (p : Nat) : regsKept [.hpPortCfg] s (s.managerAt p) :=
  regsKept_foldl (fun t n => regsKept_setFld t (by decide) _ n 0 (by decide)) _ s

theorem State.butFlds_managerAt (s : State) (p : Nat) : (s.managerAt p).butFlds = s.butFlds :=
  foldl_keeps State.butFlds (fun t n => t.butFlds_setFlag _ _ n 0) _ s

/-- The manager is the function of the one port that has the role. -/
theorem State.manager_of_flags {s : State} {p : Nat} (hp : p < 4) (h : ∀ n, n < 4 → s.flag F.hpPortCfgMgrActive n = (n == p)) :
    s.manager = some (64 * p) := by
  have hfind : (List.range 4).find? (fun n => s.flag F.hpPortCfgMgrActive n) = some p := by
    have hports : ∀ p, p < 4 → (List.range 4).find? (fun n => n == p) = some p := by decide
    rw [← hports p hp]
    refine List.find?_congr fun n hn => h n (List.mem_range.mp hn)
  rw [State.manager, hfind]

theorem State.setManagerPort_moves {s : State} {sess : Option Nat} {p : Nat} (hup : s.oobUp = true) (howner : s.byOwner sess = true) (hp : p < 4)
    (hpresent : s.portPresent p = true) (himg : s.flag F.hpPortCfgClassImg p = true) (hstrap : s.flag F.hpPortCfgClassStrap p = true) :
    s.setManagerPort sess p = (s.managerAt p).oobAnswer .ok := by
  rw [State.setManagerPort, State.secured_owner hup howner, if_pos ⟨hp, hpresent, himg, hstrap⟩]
  rfl

theorem State.setManagerPort_absent {s : State} {sess : Option Nat} {p : Nat} (hup : s.oobUp = true) (howner : s.byOwner sess = true) (hp : p < 4)
    (habsent : s.portPresent p = false) : s.setManagerPort sess p = s.oobAnswer .unitAbsent := by
  rw [State.setManagerPort, State.secured_owner hup howner, if_neg (by simp [habsent])]
  simp only [hp, habsent, Bool.not_false, and_self, ↓reduceIte]

/-- A slot that is fused. -/
def State.ownerFused (s : State) (k : Nat) (h : List Byte) : State := (s.setOwner k { set := true, hash := h }).emit (.fuseKey k false)

/-- What an operation on the owner key slots leaves. -/
theorem State.setOwner_told (s : State) (k : Nat) (o : KeySlot) (v : Bool) :
    (((s.setOwner k o).emit (.fuseKey k v)).oobAnswer .ok).fw.owner = s.fw.owner.set k o ∧
      .fuseKey k v ∈ (((s.setOwner k o).emit (.fuseKey k v)).oobAnswer .ok).out ∧
      (((s.setOwner k o).emit (.fuseKey k v)).oobAnswer .ok).mem = s.mem := by
  rw [State.oobAnswer_eq]
  simp only [State.emit_frame, State.emit_out, State.setOwner, List.mem_cons, true_or, or_true, and_self]

/-- An empty slot is programmed, by the owner or while no slot is programmed. -/
theorem State.fuseOwnerKey_empty {s : State} {sess : Option Nat} {k : Nat} (hup : s.oobUp = true)
    (hmay : s.byOwner sess = true ∨ s.inSession sess = true ∧ (s.fw.owner.all fun o => !o.set) = true) (hslot : s.fw.owner[k]? = some {})
    (h : List Byte) : s.fuseOwnerKey sess { slot := k, hash := h } = (s.ownerFused k h).oobAnswer .ok := by
  unfold State.fuseOwnerKey
  extract_lets slot go
  have hgo : go s = ((s.setOwner k { set := true, hash := h }).emit (.fuseKey k false), .ok) := by
    simp only [go, slot, hslot]
    rfl
  split
  · rw [hgo]
    rfl
  · next hfirst =>
    have howner : s.byOwner sess = true := hmay.resolve_right fun h => hfirst ⟨hup, h⟩
    rw [State.secured_owner hup howner, hgo]
    rfl

theorem fuseOwnerKey_programs {s : State} {sess : Option Nat} {k : Nat} (hup : s.oobUp = true)
    (hmay : s.byOwner sess = true ∨ s.inSession sess = true ∧ (s.fw.owner.all fun o => !o.set) = true) (hslot : s.fw.owner[k]? = some {})
    (h : List Byte) : ∃ t, exec (.fuseOwnerKey sess { slot := k, hash := h }) s = .next t ∧
      t.fw.owner = s.fw.owner.set k { set := true, hash := h } ∧ .fuseKey k false ∈ t.out ∧ memKept s t := by
  obtain ⟨hslots, hout, hmem⟩ := s.setOwner_told k { set := true, hash := h } false
  exact ⟨_, congrArg s.answer (State.fuseOwnerKey_empty hup hmay hslot h), hslots, hout, memKept_after _ _ (memKept_of_mem_eq hmem)⟩

theorem State.revokeOwnerKey_slot {s : State} {sess : Option Nat} {k : Nat} {o : KeySlot} (hup : s.oobUp = true) (howner : s.byOwner sess = true)
    (hslot : s.fw.owner[k]? = some o) (hlive : o.revoked = false) :
    s.revokeOwnerKey sess k = ((s.setOwner k { o with revoked := true }).emit (.fuseKey k true)).oobAnswer .ok := by
  rw [State.revokeOwnerKey, State.secured_owner hup howner]
  simp only [hslot, hlive, Bool.false_eq_true, ↓reduceIte]

/-- Settles O49: each request by the answer it gives and the session, role or slot that it leaves. -/
theorem trustCommandsComplete : Obligations.TrustCommandsComplete := by
  unfold Obligations.TrustCommandsComplete
  refine ⟨fun s hup => ?version, fun s hup hstage => ?capabilities, fun s hup hstage => ?algorithms,
    fun s hup hstage => ⟨?digests, ?certificate, ?challenge, fun i hlow hhigh => ?measurements, fun id hroom hnew => ?begins,
      fun id hfull hnew => ?full⟩,
    fun s id owner hup hone => ?finish, fun s id hup hsession => ⟨?heartbeat, ?keyUpdate, ?endSession⟩,
    fun s sess p hup howner hp hpresent himg hstrap => ?manager, fun s sess k hup howner hslot h => ?fuse,
    fun s sess p hup howner hp habsent => ?absent, fun s sess k hup hsession hunset hslot h => ?first,
    fun s sess k o hup howner hslot hlive => ?revoke, fun s sess hup howner k => ?kek,
    fun s sess p hup hother => ⟨?otherPort, ?otherRevoke, fun k => ?otherKek⟩⟩
  case version =>
    have hexec : exec .getVersion s = s.answer _ := congrArg s.answer ((if_neg (by simp [hup])).trans (State.spdmSay_eq _ _ _ _))
    exact ⟨_, hexec, rfl, rfl, rfl, memKept_after _ _ (memKept_of_mem_eq rfl)⟩
  case capabilities =>
    have hexec : exec .getCapabilities s = s.answer _ :=
      congrArg s.answer ((State.spdmAt_reached hup hstage).trans (State.spdmSay_eq _ _ _ _))
    exact ⟨_, hexec, rfl, rfl, memKept_after _ _ (memKept_of_mem_eq rfl)⟩
  case algorithms =>
    have hexec : exec .negotiateAlgorithms s = s.answer _ :=
      congrArg s.answer ((State.spdmAt_reached hup hstage).trans (State.spdmSay_eq _ _ _ _))
    exact ⟨_, hexec, rfl, rfl, memKept_after _ _ (memKept_of_mem_eq rfl)⟩
  case digests =>
    obtain ⟨d, hsaid⟩ := s.spdmFree_said 0x81
    have hexec : exec .getDigests s = s.answer _ := congrArg s.answer ((State.spdmAt_reached hup hstage).trans hsaid)
    exact ⟨_, d, hexec, rfl, rfl, rfl⟩
  case certificate =>
    obtain ⟨d, hsaid⟩ := s.spdmFree_said 0x82
    have hexec : exec (.getCertificate 0) s = s.answer _ := congrArg s.answer ((State.spdmAt_reached hup hstage).trans hsaid)
    exact ⟨_, d, hexec, rfl, rfl, rfl⟩
  case challenge =>
    obtain ⟨d, hsaid⟩ := s.spdmFree_said 0x83
    have hexec : exec (.challenge 0) s = s.answer _ := congrArg s.answer ((State.spdmAt_reached hup hstage).trans hsaid)
    exact ⟨_, d, hexec, rfl, rfl, rfl⟩
  case measurements =>
    have hexec : exec (.getMeasurements i) s = s.answer _ :=
      congrArg s.answer ((State.spdmMeasurements_block hup hstage hlow hhigh).trans (State.spdmSay_eq _ _ _ _))
    exact ⟨_, hexec, rfl, rfl, rfl⟩
  case begins =>
    obtain ⟨d, hsaid⟩ := State.spdmFree_said { s with spdm := { s.spdm with sessions := s.spdm.sessions ++ [{ id := id }] } } 0xE4
    have hexec : exec (.keyExchange id 0) s = s.answer _ := congrArg s.answer ((State.spdmKeyExchange_begins hup hstage hnew hroom).trans hsaid)
    exact ⟨_, d, hexec, rfl, rfl, rfl⟩
  case full =>
    have hexec : exec (.keyExchange id 0) s = s.answer _ :=
      congrArg s.answer ((State.spdmKeyExchange_full hup hstage hnew hfull).trans (State.spdmSay_eq _ _ _ _))
    exact ⟨_, hexec, rfl, rfl⟩
  case finish =>
    have hexec : exec (.finish id true owner) s = s.answer _ :=
      congrArg s.answer ((State.spdmFinish_proved hup hone owner).trans (State.spdmSay_eq _ _ _ _))
    exact ⟨_, hexec, rfl, rfl⟩
  case heartbeat =>
    have hexec : exec (.heartbeat id) s = s.answer _ :=
      congrArg s.answer ((State.spdmInSession_up hup hsession 0xE8).trans (State.spdmSay_eq _ _ _ _))
    exact ⟨_, hexec, rfl, rfl⟩
  case keyUpdate =>
    have hexec : exec (.keyUpdate id) s = s.answer _ :=
      congrArg s.answer ((State.spdmInSession_up hup hsession 0xE9).trans (State.spdmSay_eq _ _ _ _))
    exact ⟨_, hexec, rfl, rfl⟩
  case endSession =>
    have hexec : exec (.endSession id) s = s.answer _ := congrArg s.answer ((State.spdmEnd_up hup hsession).trans (State.spdmSay_eq _ _ _ _))
    exact ⟨_, hexec, s.sessionUp_sessionEnded id, rfl⟩
  case manager =>
    have hexec : exec (.setManagerPort sess p) s = s.ends _ :=
      congrArg s.ends ((State.setManagerPort_moves hup howner hp hpresent himg hstrap).trans (State.oobAnswer_eq _ _))
    have hrole := fun n hn => s.flag_managerAt p (n := n) hn
    have hkept := s.regsKept_managerAt p
    have hframe := s.butFlds_managerAt p
    generalize s.managerAt p = t at hexec hrole hkept hframe
    have hmem : t.mem = s.mem := mem_of_butFlds hframe
    refine ⟨_, hexec, hrole, State.manager_of_flags hp hrole, ?_, hkept.trans (regsKept_of_flds_eq _ rfl), memKept_of_mem_eq hmem⟩
    exact congrArg (Output.oob [0#8] :: ·) (congrArg State.out hframe :)
  case fuse => exact fuseOwnerKey_programs hup (.inl howner) hslot h
  case absent => exact ⟨_, congrArg s.ends (State.setManagerPort_absent hup howner hp habsent), rfl⟩
  case first => exact fuseOwnerKey_programs hup (.inr ⟨hsession, hunset⟩) hslot h
  case revoke =>
    have hexec : exec (.revokeOwnerKey sess k) s = s.answer _ := congrArg s.answer (State.revokeOwnerKey_slot hup howner hslot hlive)
    obtain ⟨hslots, hout, hmem⟩ := s.setOwner_told k { o with revoked := true } true
    exact ⟨_, hexec, hslots, hout, memKept_after _ _ (memKept_of_mem_eq hmem)⟩
  case kek =>
    have hexec : exec (.setKek { sess := sess, key := k }) s = s.answer _ := congrArg s.answer (State.secured_owner hup howner)
    obtain ⟨hfw, -, hmem⟩ := State.oobAnswer_keeps { s with fw := { s.fw with kek := some k } } .ok
    exact ⟨_, hexec, hfw, memKept_after _ _ (memKept_of_mem_eq hmem)⟩
  case otherPort => exact ⟨_, congrArg s.ends (State.secured_other hup hother), rfl⟩
  case otherRevoke =>
    obtain ⟨hfw, hflds, -⟩ := s.oobAnswer_keeps .notPermitted
    exact ⟨_, congrArg s.answer (State.secured_other hup hother), hfw, hflds⟩
  case otherKek =>
    obtain ⟨hfw, hflds, -⟩ := s.oobAnswer_keeps .notPermitted
    exact ⟨_, congrArg s.answer (State.secured_other hup hother), hfw, hflds⟩

end Machine
end Sys2Proof
end

section
/-! PROOFS. Self-test slices, the fusing of repairs, and bandwidth windows (R504 to R510). -/

namespace Sys2Proof
namespace Machine

/-! ### Slices (R504, R505) -/

/-- The key under which the tries of a slice are counted. -/
def sliceKey (kind target : Nat) : Nat := kind * 65536 + target

/-- The state in which a slice has not been put off. -/
def State.sliceTaken (s : State) (kind target : Nat) : State :=
  { s with bist := { s.bist with defers := AMap.drop s.bist.defers (sliceKey kind target) } }

theorem AMap.look_drop_self {α : Type} (d : α) (m : AMap α) (i : Nat) : AMap.look d (AMap.drop m i) i = d := by
  rw [AMap.look, AMap.find_drop_self]
  rfl

section
variable {s : State} {kind target : Nat} {e : SliceEnd} (hruns : s.slicesRun kind = true)
include hruns

/-- A slice whose target is free runs. -/
theorem State.slice_free : s.slice kind target false e = (s.sliceTaken kind target).sliceRuns kind target e := by
  unfold State.slice
  simp only [hruns, Bool.not_true, Bool.false_eq_true, false_and, and_false, ↓reduceIte]
  rfl

theorem State.slice_putOff (hkind : kind ≤ 2) (hfew : AMap.look 0 s.bist.defers (sliceKey kind target) < 64) :
    s.slice kind target true e = State.countSat { s with bist := { s.bist with
      defers := AMap.put s.bist.defers (sliceKey kind target) (AMap.look 0 s.bist.defers (sliceKey kind target) + 1) } } F.bistDeferDeferred := by
  unfold State.slice
  rw [if_neg (by simp [hruns])]
  exact if_pos ⟨hkind, rfl, hfew⟩

/-- A slice that finds nothing is counted as run, and its tries are forgotten. -/
theorem State.slice_clean (hpass : sliceFailed kind e = false) : ∃ u, s.slice kind target false e = u ∧
    u.fld F.bistCntRun = satAdd (2 ^ 32 - 1) (s.fld F.bistCntRun) 1 % 2 ^ 32 ∧ AMap.look 0 u.bist.defers (sliceKey kind target) = 0 ∧
    regsKept [.bistCnt] s u ∧ u = { s with flds := u.flds, bist := u.bist } := by
  have hclean : (s.sliceTaken kind target).sliceRuns kind target e = (s.sliceTaken kind target).countSat F.bistCntRun :=
    if_neg (by simp [hpass])
  refine ⟨_, (State.slice_free hruns).trans hclean, counted_countSat (s.sliceTaken kind target) F.bistCntRun 0 0, AMap.look_drop_self _ _ _, ?_, rfl⟩
  exact (regsKept_of_flds_eq _ rfl).trans (regsKept_setFld (s.sliceTaken kind target) (by decide) _ 0 0 (by decide))

theorem State.slice_fails (hfail : sliceFailed kind e = true) : s.slice kind target false e =
    (((s.sliceTaken kind target).countSat F.bistCntRun).countSat F.bistCntFailed).sliceFails kind target e :=
  (State.slice_free hruns).trans (if_pos hfail)

end

theorem State.sliceRetry_putOff {s : State} {kind target : Nat} (h : AMap.look 0 s.bist.defers (sliceKey kind target) ≠ 0) (busy : Bool)
    (e : SliceEnd) : s.sliceRetry kind target busy e = s.slice kind target busy e := if_neg h

/-! ### FUSE (R507) -/

theorem State.bistEnds_code (s : State) (st : Status) : (s.bistEnds st).fld F.bistCmdStatusCode = st.code :=
  fld_statusSet (by decide) rfl s st _

theorem regsKept_bistEnds (s : State) (st : Status) : regsKept [.bistCmdStatus] s (s.bistEnds st) :=
  regsKept_statusSet (by decide) (by decide) s st _

/-- Every soft repair is a hard one, each but those of HBM lanes with a fuse of its own. -/
def State.repairsFused (s : State) : State :=
  { s with
    fw := (s.setSettings { s.settings with soft := [] }).fw
    bist := { s.bist with
      fused := s.bist.fused ++ s.settings.soft, hard := s.bist.hard + s.settings.soft.length
      fusesFree := s.bist.fusesFree - (s.settings.soft.filter fun r => r.1 != 3).length }
    out := .fuseRepair s.settings.soft.length :: s.out }

theorem State.fuseCmd_confirmed {s : State} {org : Origin} (hopen : s.dcsOpen org 0xB000028 = true) (hstate : s.dev.state ≠ .fault)
    (hfuses : (s.settings.soft.filter fun r => r.1 != 3).length ≤ s.bist.fusesFree) : s.fuseCmd org 0xF05E = s.repairsFused.bistEnds .ok := by
  unfold State.fuseCmd
  extract_lets soft die
  rw [if_neg (by simp [hopen]), if_neg hstate, if_neg (not_not_intro rfl), if_neg (Nat.not_lt.mpr hfuses)]
  exact congrArg (State.bistEnds · .ok) (State.emit_plain _ _ rfl)

theorem State.soft_repairsFused (s : State) : s.repairsFused.settings.soft = [] :=
  congrArg Settings.soft
    ((State.settings_of_fw rfl : s.repairsFused.settings = (s.setSettings { s.settings with soft := [] }).settings).trans
      (s.settings_setSettings { s.settings with soft := [] }))

/-! ### Bandwidth windows (R510) -/

/-- The bytes of a window shown, and the window counted. -/
def State.bwCounted (s : State) (m : Nat) (x : Nat × Nat) : State :=
  (((s.setFld F.telBwRxBytes x.1 m).countWrap F.telBwRxSeq m).setFld F.telBwTxBytes x.2 m).countWrap F.telBwTxSeq m

/-- The state in which a window begins. -/
def State.bwBegun (s : State) (m : Nat) : State := { s with bw := AMap.drop s.bw m }

/-- A window shown, with its peaks. -/
def State.bwPeaked (s : State) (m rx tx : Nat) : State := (s.setFld F.telBwPeakRxPeak rx m).setFld F.telBwPeakTxPeak tx m

theorem State.bwWindow_running {s : State} {m : Nat} (hm : m < 16) (hon : s.flag F.telBwCfgEnable m = true) :
    ∃ rx tx, s.bwWindow m = ((s.bwBegun m).bwCounted m (AMap.look (0, 0) s.bw m)).bwPeaked m rx tx :=
  ⟨_, _, if_neg (by simp [hm, hon])⟩

theorem State.bwCounted_shown (s : State) (m : Nat) (x : Nat × Nat) : (s.bwCounted m x).fld F.telBwRxBytes m = x.1 % 2 ^ 48 ∧
    (s.bwCounted m x).fld F.telBwTxBytes m = x.2 % 2 ^ 48 ∧ (s.bwCounted m x).fld F.telBwRxSeq m = (s.fld F.telBwRxSeq m + 1) % 2 ^ 16 := by
  unfold State.bwCounted State.countWrap
  refine ⟨?_, ?_, ?_⟩
  · rw [fld_setFld_ne (by decide), fld_setFld_ne (by decide), fld_setFld_ne (by decide)]
    exact fld_setFld_self s F.telBwRxBytes x.1 m 0
  · rw [fld_setFld_ne (by decide)]
    exact fld_setFld_self _ F.telBwTxBytes x.2 m 0
  · rw [fld_setFld_ne (by decide), fld_setFld_ne (by decide), fld_setFld_self, fld_setFld_ne (by decide)]
    rfl

theorem State.regsKept_bwCounted (s : State) (m : Nat) (x : Nat × Nat) : regsKept [.telBwRx, .telBwTx, .telBwPeak] s (s.bwCounted m x) :=
  (((regsKept_setFld (f := F.telBwRxBytes) s (by decide) x.1 m 0 (by decide)).setFld (f := F.telBwRxSeq) (by decide) _ m 0 (by decide)).setFld
    (f := F.telBwTxBytes) (by decide) x.2 m 0 (by decide)).setFld (f := F.telBwTxSeq) (by decide) _ m 0 (by decide)

theorem State.regsKept_bwPeaked (s : State) (m rx tx : Nat) : regsKept [.telBwRx, .telBwTx, .telBwPeak] s (s.bwPeaked m rx tx) :=
  (regsKept_setFld (f := F.telBwPeakRxPeak) s (by decide) rx m 0 (by decide)).setFld (f := F.telBwPeakTxPeak) (by decide) tx m 0 (by decide)

theorem State.butFlds_bwCounted (s : State) (m : Nat) (x : Nat × Nat) : (s.bwCounted m x).butFlds = s.butFlds := by
  simp only [State.bwCounted, State.countWrap, State.butFlds_setFld]

theorem State.butFlds_bwPeaked (s : State) (m rx tx : Nat) : (s.bwPeaked m rx tx).butFlds = s.butFlds := rfl

/-- The peaks are apart from the counters of a window. -/
theorem State.fld_bwPeaked {f : Fld} (hrx : F.telBwPeakRxPeak.apart 0 f 0 = true) (htx : F.telBwPeakTxPeak.apart 0 f 0 = true) (s : State)
    (m rx tx : Nat) : (s.bwPeaked m rx tx).fld f m = s.fld f m := by
  rw [State.bwPeaked, fld_setFld_ne htx, fld_setFld_ne hrx]

/-- Settles O6: a slice by its try and its end, FUSE by the repairs it makes hard, and a window by what it shows. -/
theorem selfTestAndBandwidthCommandsComplete : Obligations.SelfTestAndBandwidthCommandsComplete := by
  unfold Obligations.SelfTestAndBandwidthCommandsComplete
  refine ⟨fun s kind target e hruns hpass => ?clean, fun s kind target e hruns hkind hfew => ?putOff, fun s kind target e hruns hfail => ?fails,
    fun s kind target busy e => ⟨fun hput => ?retry, fun hnot => ?none⟩, fun s kind target e hruns hpass hput => ?retryClean,
    fun s org hopen hstate hfuses => ?fuse, fun s m hm hon => ?window⟩
  case clean =>
    obtain ⟨u, hslice, hrun, htries, hkept, hframe⟩ := State.slice_clean (target := target) hruns hpass
    exact ⟨u, congrArg s.ends hslice, hrun, htries, hkept, hframe⟩
  case putOff =>
    refine ⟨_, congrArg s.ends (State.slice_putOff hruns hkind hfew), ?_, counted_countSat _ F.bistDeferDeferred 0 0, ?_, rfl⟩
    · exact congrArg (·.getD 0) (AMap.find_put_self s.bist.defers _ _)
    · exact (regsKept_of_flds_eq _ rfl).trans (regsKept_setFld (f := F.bistDeferDeferred) _ (by decide) _ 0 0 (by decide))
  case fails => exact congrArg s.ends (State.slice_fails hruns hfail)
  case retry => exact congrArg s.ends (State.sliceRetry_putOff hput busy e)
  case none => exact congrArg s.ends (if_pos hnot)
  case retryClean =>
    obtain ⟨u, hslice, hrun, htries, -, hframe⟩ := State.slice_clean (target := target) hruns hpass
    exact ⟨u, congrArg s.ends ((State.sliceRetry_putOff hput false e).trans hslice), hrun, htries, hframe⟩
  case fuse =>
    have hkept : regsKept [.bistCmdStatus] s s.repairsFused := regsKept_of_flds_eq _ rfl
    refine ⟨_, congrArg s.ends (State.fuseCmd_confirmed hopen hstate hfuses), s.soft_repairsFused, rfl, rfl, ?_, State.bistEnds_code _ .ok, rfl,
      hkept.trans (regsKept_bistEnds s.repairsFused .ok), rfl⟩
    exact Nat.sub_add_cancel hfuses
  case window =>
    obtain ⟨rx, tx, hwindow⟩ := State.bwWindow_running hm hon
    obtain ⟨hrx, htx, hseq⟩ := (s.bwBegun m).bwCounted_shown m (AMap.look (0, 0) s.bw m)
    have hexec : exec (.bwWindowEnd m) s = s.answer _ := congrArg s.answer hwindow
    have hframe := ((s.bwBegun m).bwCounted m (AMap.look (0, 0) s.bw m)).butFlds_bwPeaked m rx tx
    rw [State.butFlds_bwCounted] at hframe
    have hbegun : regsKept [.telBwRx, .telBwTx, .telBwPeak] s (s.bwBegun m) := regsKept_of_flds_eq _ rfl
    have hkept := (hbegun.trans (State.regsKept_bwCounted _ m (AMap.look (0, 0) s.bw m))).trans (State.regsKept_bwPeaked _ m rx tx)
    replace hrx := (State.fld_bwPeaked (by decide) (by decide) _ m rx tx).trans hrx
    replace htx := (State.fld_bwPeaked (by decide) (by decide) _ m rx tx).trans htx
    replace hseq := (State.fld_bwPeaked (by decide) (by decide) _ m rx tx).trans hseq
    generalize ((s.bwBegun m).bwCounted m (AMap.look (0, 0) s.bw m)).bwPeaked m rx tx = t at hexec hframe hkept hrx htx hseq
    have hmem : t.mem = s.mem := (congrArg State.mem hframe :)
    have hbw : t.bw = AMap.drop s.bw m := (congrArg State.bw hframe :)
    refine ⟨_, hexec, hrx, htx, hseq, ?_, hkept.after, memKept_after _ _ (memKept_of_mem_eq hmem), ?_⟩
    · exact (congrArg (AMap.look (0, 0) · m) hbw).trans (AMap.look_drop_self _ _ _)
    · rw [State.eq_of_butFlds hframe]
      rfl

end Machine
end Sys2Proof
end

section
/-! PROOFS. The out-of-band interface, the console UART and the test access port (R511 to R513, R526). -/

namespace Sys2Proof
namespace Machine

/-! ### The out-of-band interface (R511) -/

theorem State.emit_oob (s : State) (bs : List Byte) : s.emit (.oob bs) = { s with out := .oob bs :: s.out } := State.emit_plain _ _ rfl

section
variable {s : State} (hup : s.oobUp = true)
include hup

theorem State.pldm_power : s.pldm (.numeric 40) = { s with out := .oob (0#8 :: leBytes (s.fld F.clkpwrGovStatusPkgW) 2) :: s.out } := by
  rw [State.pldm, if_neg (by simp [hup])]
  exact s.emit_oob _

theorem State.pldm_sensor {n : Nat} (hn : n < 5) :
    s.pldm (.stateSensor n) = { s with out := .oob [0#8, BitVec.ofNat 8 (s.stateSensors.getD n 0)] :: s.out } := by
  rw [State.pldm, if_neg (by simp [hup])]
  exact (if_pos hn).trans (s.emit_oob _)

theorem State.pldm_stage {kind off : Nat} {data : List Byte} (hcheck : s.stageCheck kind off data.length true = none) :
    s.pldm (.stage kind off data) = (s.stageInto fun n => .flashWrite n kind off data).oobAnswer .ok := by
  rw [State.pldm, if_neg (by simp [hup])]
  simp only [hcheck]

theorem State.i3cAddress_first (hfree : s.flag F.mgtI3cStatusAssigned = false) (addr : Nat) :
    s.i3cAddress addr = (s.setFld F.mgtI3cStatusDynAddr addr).setFlag F.mgtI3cStatusAssigned true := if_neg (by simp [hup, hfree])

theorem State.mctp_setEid {eid : Nat} (hlow : 0 < eid) (hhigh : eid < 0xFF) : s.mctp (.setEid eid) =
    { s.setFld F.mgtI3cStatusEid eid with out := .oob [0#8, BitVec.ofNat 8 eid] :: s.out } := by
  rw [State.mctp, if_neg (by simp [hup])]
  exact (if_neg (by omega)).trans (State.emit_oob _ _)

theorem State.mctp_getEid : s.mctp .getEid = { s with out := .oob [0#8, BitVec.ofNat 8 (s.fld F.mgtI3cStatusEid)] :: s.out } := by
  rw [State.mctp, if_neg (by simp [hup])]
  exact s.emit_oob _

end

theorem State.i3cAddress_again {s : State} (hassigned : s.flag F.mgtI3cStatusAssigned = true) (addr : Nat) : s.i3cAddress addr = s := if_pos (.inr hassigned)

/-! ### The console UART (R512, R513) -/

/-- The state with the receiver's wait for a high line set. -/
def State.uartWaits (s : State) (w : Bool) : State := { s with uart := { s.uart with wait := w } }

/-- The state with a received byte and its framing error. -/
def State.uartGot (s : State) (b : Nat) (fe : Bool) : State := { s with uart := { s.uart with rx := s.uart.rx ++ [(b, fe)] } }

/-- A frame whose stop bit may fail, counted. -/
def State.uartFramed (s : State) (fe : Bool) : State := if fe then s.countSat F.mgtUartStatusFraming else s

theorem State.uartFramed_keeps (s : State) (fe : Bool) : (s.uartFramed fe).uart = s.uart ∧ (s.uartFramed fe).mem = s.mem ∧
    (s.uartFramed fe).flag F.mgtUartCfgHost = s.flag F.mgtUartCfgHost ∧ regsKept [.mgtUartStatus] s (s.uartFramed fe) := by
  cases fe
  · exact ⟨rfl, rfl, rfl, regsKept_refl _ s⟩
  · refine ⟨rfl, rfl, ?_, regsKept_setFld (f := F.mgtUartStatusFraming) s (by decide) _ 0 0 (by decide)⟩
    exact congrArg (· == 1) (fld_setFld_ne (by decide) s _ 0 0)

/-- What a frame does once its start bit holds: a break or a stop bit that fails is counted, and its byte goes where there is room. -/
theorem State.uartTake_started {s : State} {xs : List Bool} (hstart : uartMajority xs 7 = false) {t : State}
    (ht : (s.uartWaits (!uartMajority xs 151)).uartFramed (!uartMajority xs 151) = t) : s.uartTake xs =
      if (List.range 154).all fun i => !xs.getD i true then (s.uartWaits (!uartMajority xs 151)).countSat F.mgtUartStatusBreaks
      else if !t.flag F.mgtUartCfgHost then t
      else if 64 ≤ t.uart.rx.length then t.countSat F.mgtUartStatusOverruns
      else t.uartGot (uartByte xs) (!uartMajority xs 151) := by
  subst ht
  exact if_neg (by simp [hstart])

/-- A frame that is no break, with HOST set and room in the FIFO. -/
theorem State.uartTake_frame {s : State} {xs : List Bool} (hstart : uartMajority xs 7 = false) (hhigh : ∃ i, i < 154 ∧ xs.getD i true = true)
    (hhost : s.flag F.mgtUartCfgHost = true) (hroom : s.uart.rx.length < 64) : s.uartTake xs =
      ((s.uartWaits (!uartMajority xs 151)).uartFramed (!uartMajority xs 151)).uartGot (uartByte xs) (!uartMajority xs 151) := by
  obtain ⟨i, hi, hxi⟩ := hhigh
  have hbreak : ((List.range 154).all fun i => !xs.getD i true) = false :=
    List.all_eq_false.mpr ⟨i, List.mem_range.mpr hi, by rw [hxi]; decide⟩
  obtain ⟨huart, -, hflag, -⟩ := (s.uartWaits (!uartMajority xs 151)).uartFramed_keeps (!uartMajority xs 151)
  generalize ht : (s.uartWaits (!uartMajority xs 151)).uartFramed (!uartMajority xs 151) = t at huart hflag
  have hhost' : t.flag F.mgtUartCfgHost = true := hflag.trans hhost
  have hroom' : ¬64 ≤ t.uart.rx.length := by
    rw [huart]
    exact Nat.not_le.mpr hroom
  rw [State.uartTake_started hstart ht, hbreak, hhost', if_neg Bool.false_ne_true, if_neg (by decide), if_neg hroom']

theorem uartHunt_high {rest : List Bool} (hhigh : rest.all id = true) (w : Bool) : uartHunt w rest = [] := by
  have hall : rest.dropWhile id = [] := List.dropWhile_eq_nil_iff.mpr (List.all_eq_true.mp hhigh)
  cases w
  · exact hall
  · cases rest with
    | nil => rfl
    | cons b bs =>
      have hb : b = true := List.all_eq_true.mp hhigh b List.mem_cons_self
      subst hb
      exact hall

/-- On a line that stays high the receiver hunts on, and waits no more once it has seen it high. -/
theorem State.uartRun_idle {s : State} {rest : List Bool} (hidle : rest.all id = true) {n : Nat} (hn : rest.length ≤ n) :
    s.uartRun rest n = s.uartWaits (s.uart.wait && rest.isEmpty) := by
  have hseen : (!rest.any id) = rest.isEmpty := by
    cases rest with
    | nil => rfl
    | cons b bs =>
      have hb : b = true := List.all_eq_true.mp hidle b List.mem_cons_self
      simp [hb]
  cases n with
  | zero =>
    rw [List.length_eq_zero_iff.mp (Nat.le_zero.mp hn)]
    simp [State.uartRun, State.uartWaits]
  | succ n =>
    rw [State.uartRun, uartHunt_high hidle]
    exact congrArg s.uartWaits (congrArg (s.uart.wait && ·) hseen)

theorem uartHunt_length (w : Bool) (ys : List Bool) : (uartHunt w ys).length ≤ ys.length := by
  unfold uartHunt
  split
  · exact (List.dropWhile_suffix _).length_le.trans (List.dropWhile_suffix _).length_le
  · exact (List.dropWhile_suffix _).length_le

/-- UART_FRAME of one frame and a line that stays high after it. -/
theorem State.uartFrame_one {s : State} {ys xs : List Bool} (hruns : s.mgtRuns = true) (hhunt : uartHunt s.uart.wait ys = xs) (hxs : xs ≠ [])
    (hstart : uartMajority xs 7 = false) (hidle : (xs.drop 154).all id = true) :
    ∃ w, s.uartFrame ys = (((s.uartWaits w).uartTake xs).uartWaits (((s.uartWaits w).uartTake xs).uart.wait && (xs.drop 154).isEmpty)) := by
  have hlen : xs.length ≤ ys.length := hhunt ▸ uartHunt_length s.uart.wait ys
  obtain ⟨b, bs, rfl⟩ := List.exists_cons_of_ne_nil hxs
  obtain ⟨n, hn⟩ : ∃ n, ys.length = n + 1 := Nat.exists_eq_succ_of_ne_zero fun h => by simp [h] at hlen
  have hrest : ((b :: bs).drop 154).length ≤ n := by
    rw [List.length_drop]
    omega
  refine ⟨s.uart.wait && !ys.any id, ?_⟩
  rw [State.uartFrame, if_pos hruns, hn, State.uartRun]
  simp only [hhunt, hstart, Bool.false_eq_true, ↓reduceIte]
  exact State.uartRun_idle hidle hrest

/-! ### The test access port (R526) -/

/-- The port moved along the diagram; Test-Logic-Reset selects BYPASS. -/
def State.tapMoved (s : State) (tms : Bool) : State :=
  { s with tap := { s.tap with
    st := tapNext s.tap.st tms, instr := if tapNext s.tap.st tms = .reset then .bypass else s.tap.instr } }

/-- A rising edge in a state that shifts, captures and updates nothing. -/
theorem State.tapClock_still {s : State} (tms tdi : Bool)
    (hst : s.tap.st ∈ [TapState.reset, .idle, .selDr, .ex1Dr, .pauDr, .ex2Dr, .selIr, .ex1Ir, .pauIr, .ex2Ir]) :
    s.tapClock tms tdi = s.tapMoved tms := by
  unfold State.tapClock
  extract_lets x i n
  split
  case h_7 => rfl
  all_goals
    next h =>
    rw [show s.tap.st = _ from h] at hst
    exact absurd hst (by decide)

/-- A rising edge in Shift-DR under BYPASS. -/
theorem State.tapClock_bypass {s : State} (tms tdi : Bool) (hst : s.tap.st = .shDr) (hinstr : s.tap.instr = .bypass) :
    s.tapClock tms tdi = { s with tap := { s.tap with st := tapNext .shDr tms, byp := tdi }, out := .tdo s.tap.byp :: s.out } := by
  have heffect : s.tapInstr = .bypass := by rw [State.tapInstr, hinstr]
  rw [State.tapClock]
  simp only [hst, heffect, TapInstr.scans, Bool.false_eq_true, ↓reduceIte]
  exact State.emit_plain _ _ rfl

/-- Settles O50: each request by its answer, a frame by what the receiver makes of it, and an edge of TCK by where it moves the port. -/
theorem managementCommandsComplete : Obligations.ManagementCommandsComplete := by
  unfold Obligations.ManagementCommandsComplete
  refine ⟨fun s hup => ⟨?power, fun n hn => ?sensor, fun kind off data hcheck => ?stage⟩, fun s addr hup hfree => ?address,
    fun s addr hup hassigned => ?again, fun s eid hup hlow hhigh => ⟨?setEid, ?getEid⟩,
    fun s ys xs hruns hhunt hxs hstart hhigh hidle hhost hroom => ?frame, fun s org b hopen hhost hroom => ?tx, fun s => ?trst,
    fun s tms tdi hlow hst => ?still, fun s tms tdi hlow hst hinstr => ?bypass⟩
  case power => exact ⟨_, congrArg s.ends (State.pldm_power hup), rfl, rfl⟩
  case sensor => exact ⟨_, congrArg s.ends (State.pldm_sensor hup hn), rfl, rfl⟩
  case stage =>
    have hexec : exec (.pldmRequest (.stage kind off data)) s = s.ends _ :=
      congrArg s.ends ((State.pldm_stage hup hcheck).trans (State.oobAnswer_eq _ _))
    obtain ⟨hstate, hout, hflds, hmem⟩ := s.stageInto_shown fun n => .flashWrite n kind off data
    generalize (s.stageInto fun n => .flashWrite n kind off data) = t at hexec hstate hout hflds hmem
    exact ⟨_, hexec, hstate, List.mem_cons_of_mem _ hout, hflds, memKept_of_mem_eq hmem⟩
  case address =>
    refine ⟨_, congrArg s.answer (State.i3cAddress_first hup hfree addr), State.flag_setFlag _ F.mgtI3cStatusAssigned true 0 0 rfl, ?_, ?_,
      memKept_after _ _ (memKept_of_mem_eq rfl)⟩
    · have hapart : F.mgtI3cStatusAssigned.apart 0 F.mgtI3cStatusDynAddr 0 = true := by decide
      exact (fld_setFld_ne hapart _ (b2n true) 0 0).trans (fld_setFld_self s F.mgtI3cStatusDynAddr addr 0 0)
    · exact ((regsKept_setFld (f := F.mgtI3cStatusDynAddr) s (by decide) addr 0 0 (by decide)).setFlag (f := F.mgtI3cStatusAssigned) (by decide)
        true 0 (by decide)).after
  case again => exact ⟨_, congrArg s.answer (State.i3cAddress_again hassigned addr), rfl, memKept_after _ _ (memKept_refl s)⟩
  case setEid =>
    refine ⟨_, congrArg s.answer (State.mctp_setEid hup hlow hhigh), ?_, ?_, rfl⟩
    · exact fld_setFld_of_lt (f := F.mgtI3cStatusEid) (hhigh.trans (by decide)) s 0 0
    · have hset : regsKept [.mgtI3cStatus] s (s.setFld F.mgtI3cStatusEid eid) := regsKept_setFld s (by decide) eid 0 0 (by decide)
      exact (hset.trans (regsKept_of_flds_eq _ rfl)).after
  case getEid => exact ⟨_, congrArg s.answer (State.mctp_getEid hup), rfl, rfl⟩
  case frame =>
    obtain ⟨w, hframe⟩ := State.uartFrame_one hruns hhunt hxs hstart hidle
    rw [State.uartTake_frame (s := s.uartWaits w) hstart hhigh hhost hroom] at hframe
    have hexec : exec (.uartFrame ys) s = s.answer _ := congrArg s.answer hframe
    obtain ⟨huart, hmem, -, hkept⟩ := ((s.uartWaits w).uartWaits (!uartMajority xs 151)).uartFramed_keeps (!uartMajority xs 151)
    generalize ((s.uartWaits w).uartWaits (!uartMajority xs 151)).uartFramed (!uartMajority xs 151) = t at hexec huart hmem hkept
    refine ⟨_, hexec, ?_, ?_, memKept_after _ _ (memKept_of_mem_eq hmem)⟩
    · simp only [State.after, State.uartWaits, State.uartGot, huart]
    · have hwaits : regsKept [.mgtUartStatus] s ((s.uartWaits w).uartWaits (!uartMajority xs 151)) := regsKept_of_flds_eq _ rfl
      exact ((hwaits.trans hkept).trans (regsKept_of_flds_eq _ rfl)).after
  case tx => exact ⟨_, congrArg s.answer (if_pos ⟨hopen, hhost, hroom⟩), rfl, rfl, memKept_after _ _ (memKept_of_mem_eq rfl)⟩
  case trst => exact ⟨_, rfl, rfl, rfl, rfl, rfl, rfl, memKept_after _ _ (memKept_of_mem_eq rfl)⟩
  case still =>
    have hclock : s.boundaryScan (.clock tms tdi) = s.tapMoved tms := (if_neg (by simp [hlow])).trans (State.tapClock_still tms tdi hst)
    exact ⟨_, congrArg s.answer hclock, rfl, rfl, rfl, rfl, rfl⟩
  case bypass =>
    have hexec : exec (.boundaryScan (.clock tms tdi)) s = s.answer _ :=
      congrArg s.answer ((if_neg (by simp [hlow])).trans (State.tapClock_bypass tms tdi hst hinstr))
    exact ⟨_, hexec, rfl, rfl, rfl, rfl⟩

end Machine
end Sys2Proof
end
